-- ==== Sys2Proof/Word.lean ====
section
/-!
DEFINITION. The words, addresses and sparse tables of the NWK-2048 model: register words are 32 bits
(R11), table words 24 bits, postmarks 48 bits (R40), parcels 256 bits (R290).
-/
namespace Sys2Proof

/-- A device register (R11). -/
abbrev Word := BitVec 32
/-- A window table word, bits [23:0] (R102, R121, R145, R163, R186, R232, R261, R305). -/
abbrev W24 := BitVec 24
/-- A postmark (R40); every comparison is modulo 2^48. -/
abbrev PM := BitVec 48
/-- One link parcel (R290). -/
abbrev Parcel := BitVec 256
/-- One column-converter sample (R104). -/
abbrev Sample := BitVec 14

/-- A sparse table: pairs of key and value, keys strictly rising, an unlisted key reading as the
table's own default. -/
abbrev Assoc (α : Type) := List (Nat × α)

/-- A named field of a register: register index, lowest bit, width in bits. -/
structure Fld where
  reg : Nat
  lo  : Nat
  len : Nat
deriving DecidableEq, Repr

/-- One row of the register map: first index or offset, number of instances, reset value, and the
bits of each writing access code (R13, R369). -/
structure RegRow where
  idx   : Nat
  num   : Nat
  reset : Nat
  rw    : Nat
  w1c   : Nat
  wo    : Nat
  rcl   : Nat
deriving DecidableEq, Repr

end Sys2Proof
end

