-- ==== Sys2Proof/Syntax.lean ====
section
/-!
DEFINITION. The commands of the NWK-2048 model: one constructor of Instr for each row of
spec/opcode_table.json, with what the world supplies at that step (frames, samples, raw codes,
measured figures) as its operands.  The device's own data stay in State.
-/
namespace Sys2Proof

/-- The two dies (R16, R17). -/
inductive Die where
  | host
  | field
deriving DecidableEq, Repr

/-- The masters, in the order of the first-error record's codes 0 to 7 (R267). -/
inductive Master where
  | slow
  | mgt
  | courier
  | brush
  | datapath
  | loader
  | barrier
  | selftest
deriving DecidableEq, Repr

/-- Who writes: the master, and whether the write was launched. -/
structure Writer where
  m        : Master
  launched : Bool
deriving DecidableEq, Repr

/-- The 21 blocks of the register map, in the order of their indices (R369). -/
inductive Blk where
  | glb
  | tim
  | bar
  | lnk
  | mgt
  | cfg
  | cou
  | pwr
  | fgl
  | pal
  | col
  | nul
  | var
  | str
  | evt
  | hka
  | hkb
  | hks
  | cal
  | bru
  | fba
deriving DecidableEq, Repr

/-- The two engines: Courier on the host die and Brush on the field die (R23). -/
inductive Eng where
  | courier
  | brush
deriving DecidableEq, Repr

/-- The two housekeeping converters. -/
inductive Hk where
  | a
  | b
deriving DecidableEq, Repr

/-- Where a supply rail stands against its operating range (R376). -/
inductive RailLevel where
  | low
  | ok
  | high
deriving DecidableEq, Repr

/-- A slow-control request frame as assembled from the SC_DATA of its blocks (R286): which of the
two frame positions it used, whether one of its blocks was damaged, and its 160 bits. -/
structure ScFrame where
  posB    : Bool
  damaged : Bool
  req     : BitVec 160
deriving DecidableEq, Repr

/-- A barrier envelope: the header fields of Table 12-2 and the payload, the first LEN × 80 − 64
string bits after the header as one number, most significant bit first (R267). -/
structure Env where
  typ     : BitVec 4
  len     : BitVec 10
  unit    : BitVec 8
  epoch   : BitVec 2
  pm      : BitVec 24
  frank   : BitVec 16
  payload : Nat
deriving DecidableEq, Repr

/-- An envelope as its receiver sees it: the bits that arrived, and whether a lane fault of R273
item 1 explains a wrong frank. -/
structure Rx where
  env       : Env
  laneFault : Bool
deriving DecidableEq, Repr

/-- One self-test finding, in the layout of R330. -/
structure Finding where
  test   : BitVec 8
  unit   : BitVec 8
  detail : BitVec 16
deriving DecidableEq, Repr

/-- A microword's data bits [71:0] (Table 11-2) without OP, which the constructor names. -/
structure Micro where
  cond    : BitVec 6
  wait    : BitVec 6
  commit  : Bool
  stencil : Bool
  launch  : Bool
  next    : BitVec 12
  dst     : BitVec 5
  srca    : BitVec 5
  srcb    : BitVec 5
  imm     : W24
deriving DecidableEq, Repr

/-- The commands: one constructor per row of spec/opcode_table.json. -/
inductive Instr where
  /-- Power-up returns every register, window table and window address copy to its reset value and GLB_STATE reads NOCLOCK (R373). -/
  | powerUp
  /-- RESET_N low returns every register and fault group to reset values and ends a commanded drape (R373). -/
  | resetN
  /-- The field side powers up or down independently of the host side; without the host it keeps its rows clamped and nulling converters at zero (R34). -/
  | fieldSidePower (on : Bool)
  /-- The downlink receiver sees transitions and GLB_STATE goes from NOCLOCK to LOCKING (R325). -/
  | downlinkTransitionsSeen
  /-- After 64 good blocks with the tick period in range, the tick clock is released to both dies, the postmark starts at 0 and LOADING begins (R36). -/
  | tickClockRelease (period : BitVec 16)
  /-- Too many invalid sync headers or an out-of-range tick period stops the tick clock; pending fast commands and POSTMARK_SETs are discarded and GLB_STATE reads NOCLOCK (R37). -/
  | lossOfLock
  /-- Lock is regained and the device continues by its state at the loss: restarting start-up, going to READY with flushed queues and retraining, or staying in SAFE (R39). -/
  | clockRestart (period : BitVec 16)
  /-- A 66-bit downlink block is received, descrambled and checked; a bad frank or sync header discards it and its fast command (R284). -/
  | downlinkBlock (header : BitVec 2) (line : BitVec 64)
  /-- The IDLE fast command does nothing (R285). -/
  | idle
  /-- A two-block POSTMARK_SET is received and checked; it is discarded, replaces an earlier one, or is scheduled for tick A with its TIME envelope sent (R41). -/
  | postmarkSet (v : PM) (secondOk : Bool) (reserved : BitVec 32)
  /-- At tick A both dies name the tick V + L, set PM_VALID, flush the launch queues and turn RUNNING into READY (R42). -/
  | postmarkRename
  /-- At its effective postmark the device records the sheet phase and raises MINOR on a mismatch (R46). -/
  | sheetMark
  /-- GAP_OPEN takes effect and makes a quiet window pending, or is counted as stray (R54). -/
  | gapOpen
  /-- GAP_CLOSE takes effect and fixes the closing boundary of the open or pending window, or is counted as stray (R54). -/
  | gapClose
  /-- The opening boundary of a pending window arrives; the window opens and is counted (R54). -/
  | quietWindowOpen
  /-- The closing boundary arrives and the window closes, or is counted as empty (R54). -/
  | quietWindowClose
  /-- A window that reaches GAP_LIMIT × 65 536 sheets is forced closed and a MINOR fault is raised (R55). -/
  | gapLimitClose
  /-- A TRIG takes effect and is accepted for a fragment or refused with a reason code (R177). -/
  | trig
  /-- While a window is open, CAL_FIRE asks Brush for an extra trace check after the current calibration item (R285). -/
  | calFire
  /-- RUN takes READY to RUNNING at its effective postmark and sets the row goal to full target (R328). -/
  | run
  /-- HALT takes RUNNING to READY, and the rows ramp back to the REST code (R285). -/
  | halt
  /-- The epoch increments modulo 4 on both dies at the effective postmark (R300). -/
  | epochAdvance
  /-- The DRAPE fast command puts a commanded drape in force at its effective postmark (R28). -/
  | drape
  /-- UNDRAPE ends a commanded drape; it has no effect when none is in force (R28). -/
  | undrape
  /-- DRAPE_N falls or rises; after the synchroniser the host signals or ends drape on the drape lane (R28). -/
  | drapeNChange (level : Bool)
  /-- FIELD_DRAPE_N falls or rises and forces or releases the drape codes on the field die, with or without a clock (R38). -/
  | fieldDrapeNChange (level : Bool)
  /-- Eight consecutive invalid drape symbols make the field die apply drape and count a run (R274). -/
  | drapeLaneInvalid
  /-- A frame with OP READ is served on the host die, or sent to the field die as a READ envelope, and answered in a cover reply slot (R288). -/
  | slowctlRead (f : ScFrame)
  /-- A frame with OP WRITE applies an unlaunched write or sends it to the field die, and its status is returned in a reply slot (R288). -/
  | slowctlWrite (f : ScFrame)
  /-- A frame with OP 3 submits a write to the owning launch queue with its launch postmark (R288). -/
  | slowctlLaunchedWrite (f : ScFrame)
  /-- No field REPLY by completion + 88 makes the reply carry STATUS 9 and value 0xFFFF_FFFF (R288). -/
  | slowctlReplyTimeout (tag : BitVec 4)
  /-- A queued entry is applied at the start of the tick its postmark names and leaves the queue (R50). -/
  | launchEntryApply (d : Die)
  /-- An unlaunched write held for the next stroke or sheet boundary is applied there after the launch-queue entries (R48). -/
  | heldWriteApply (d : Die)
  /-- A write to a register without a row of its own is applied on arrival, held for a boundary, or launched, and may give reason 0x5 (R48). -/
  | registerWrite (m : Master) (index : BitVec 16) (value : Word)
  /-- An access to a block's _WIN_DATA reads or writes the table word at the master's own window address and increments that address (R372). -/
  | winDataAccess (m : Master) (b : Blk) (write : Option Word)
  /-- Setting ARM makes the next management write outside TIM and MGT go to the owning launch queue (R52). -/
  | timLaunchArm (burst : Bool)
  /-- FLUSH removes every management-port ARM entry from both launch queues (R50). -/
  | timLaunchFlush
  /-- The management port reads a register with its side effects, sends bits [15:0] and fills the pair hold (R309). -/
  | rdLo (index : BitVec 16)
  /-- The management port sends bits [31:16] from a matching pair hold, or reads them live without side effects and sets UNPAIRED (R309). -/
  | rdHi (index : BitVec 16)
  /-- The management port performs RD_LO then RD_HI of one index (R307). -/
  | rd (index : BitVec 16)
  /-- The management port repeats RD on one index until MSEL_N rises (R311). -/
  | rdn (index : BitVec 16) (pairs : Nat)
  /-- The management port places a low half-word and its index in the write hold (R310). -/
  | wrLo (index : BitVec 16) (half : BitVec 16)
  /-- A matching WR_HI writes the full 32-bit value into the write buffer; otherwise it writes nothing and sets UNPAIRED_WR (R310). -/
  | wrHi (index : BitVec 16) (half : BitVec 16)
  /-- The management port performs WR_LO then WR_HI of one index (R307). -/
  | wr (index : BitVec 16) (value : Word)
  /-- The management port repeats WR on one index until MSEL_N rises (R307). -/
  | wrn (index : BitVec 16) (values : List Word)
  /-- A frame with an undefined command is ignored to its end and BAD_CMD sets (R307). -/
  | mgtBadCommand (code : BitVec 8)
  /-- MSEL_N rising inside a half-word discards that half-word and records FRAME in the next frame (R308). -/
  | mgtFrameAbort
  /-- One buffered management write per tick leaves the buffer and is applied or sent as a WRITE envelope (R311). -/
  | mgtWriteBufferDrain
  /-- A field read without a REPLY by completion + 88 completes with 0xFFFF and sets TIMEOUT (R312). -/
  | mgtReplyTimeout
  /-- No tick toggle for NOCLK_CYCLES MSCK cycles makes the port treat the clock as absent and complete waiting reads with 0xFFFF (R313). -/
  | mgtClockAbsent
  /-- A write to PAL_BANK_LAUNCH_HI submits a bank swap, which is checked and queued or rejected (R84). -/
  | palBankLaunch (m : Master) (hi : Word)
  /-- COPY starts copying the active palette bank into the inactive bank, or is rejected (R83). -/
  | palCopy
  /-- The 136-tick palette copy ends and COPY_BUSY clears (R83). -/
  | palCopyDone
  /-- SWAP_CANCEL removes a pending bank swap from the field queue (R85). -/
  | swapCancel
  /-- At each stroke boundary every driver steps its amplitude toward its goal and may switch carrier, phase or range at zero amplitude (R88). -/
  | slewStroke
  /-- After four consecutive over-current strokes a driver is declared overloaded and driven to 0 V, and SEVERE is raised (R98). -/
  | rowOverload (d : Fin 68)
  /-- Clearing a driver's OVL_LATCH lets it resume from zero at the next sheet boundary (R98). -/
  | ovlLatchClear (d : Fin 68) (w : Writer)
  /-- Writing ROW_SPARE_CTRL makes a group's spare shadow a logical row on its dummy load (R99). -/
  | rowSparePrep (value : Word) (w : Writer)
  /-- A row map entry write at a sheet boundary is checked against R70 and changes the serving driver or pin unit, or is rejected (R73). -/
  | rowMapWrite (r : Fin 64) (word : W24) (w : Writer)
  /-- A column map entry write at a sheet boundary is checked and changes the serving front end or pin unit, or is rejected (R73). -/
  | colMapWrite (c : Fin 32) (word : W24) (w : Writer)
  /-- COL_SPARE_CTRL with OP 1 sets the column's serving front end to its group's spare at a sheet boundary (R116). -/
  | colSpareSwap (c : Fin 32) (w : Writer)
  /-- COL_SPARE_CTRL with OP 2 sets the column's serving front end back to its pin unit at a sheet boundary (R116). -/
  | colSpareRestore (c : Fin 32) (w : Writer)
  /-- A column settings word write is checked and changes mode, form, range or external delay, or is rejected (R103). -/
  | colSettingsWrite (p : Fin 34) (word : W24) (w : Writer)
  /-- A trim set write takes effect at once if not in use, or at a sheet boundary with HOLD if in use (R107). -/
  | trimSetWrite (f : Fin 34) (g : Fin 8) (w : Fin 2) (word : W24) (wr : Writer)
  /-- At a postmark divisible by 2^18 an idle spare front end begins a dwell on the next eligible column of its group (R117). -/
  | roverDwellStart (g : Fin 2)
  /-- At the end of a dwell the rover judges each channel, records a mismatch and raises NOTE, or counts an inconclusive dwell (R119). -/
  | roverDwellEnd (g : Fin 2)
  /-- At each stroke end the datapath forms residuals, updates and clamps the nulling amplitudes and convergence counts, and at sheet end forms x (R128). -/
  | loopStrokeUpdate (f : Fin 34) (y : Vector Sample 64) (comparator : BitVec 64)
  /-- A channel carrying SAT for 1024 consecutive sheets raises MINOR in the NUL fault group (R131). -/
  | persistentSat (c : Fin 32) (r : Fin 64)
  /-- A column carrying OVR for 1024 consecutive sheets raises MINOR in the COL fault group (R113). -/
  | persistentOverrange (c : Fin 32)
  /-- At a loop-start boundary every channel loads its primer scaled to the present excitation and resets its convergence state (R137). -/
  | loopStart
  /-- REPRIME asks for a loop start at the sheet boundary at which it is applied (R136). -/
  | nulReprime (w : Writer)
  /-- CAPTURE is accepted or rejected, and an accepted one snapshots the amplitudes at the end of the next stroke (R139). -/
  | nulCapture (w : Writer)
  /-- The 4096-tick write of the snapshot into the primer ends and CAPTURE_BUSY clears (R139). -/
  | captureDone
  /-- A write with WR 1 stores G for a pin unit at a stroke boundary, or rejects a G below G_min (R134). -/
  | nulLoopGainWrite (p : BitVec 6) (g : BitVec 4) (w : Writer)
  /-- An NUL_DAC_RANGE write with WR 1 rescales the column's amplitudes and switches the nulling range at a sheet boundary (R141). -/
  | nullingRangeChange (p : BitVec 6) (n : BitVec 2) (w : Writer)
  /-- An uncorrectable error in the amplitude, primer, rotation or ρ tables zeroes, replaces or freezes as the word requires and raises a fault (R143). -/
  | nulMemoryError (addr : BitVec 20)
  /-- At tick 74 + 2c varnish completes column c's readings and flags, writes the pigeonholes and starts the READINGS envelope (R173). -/
  | columnReadingsComplete (c : Fin 32)
  /-- A record reaches its completion sheet and enters the event queue, dropping older records if needed (R183). -/
  | eventRecordComplete (c : Fin 32)
  /-- A read of VAR_CLAMP_COUNT returns the clamp counts and clears them (R149). -/
  | varClampCountRead (m : Master)
  /-- VAR_CTRL.COPY starts copying the active coefficient bank into the inactive bank, or is rejected (R159). -/
  | varCopy (w : Writer)
  /-- The 4096-tick coefficient copy ends and COPY_BUSY clears (R159). -/
  | varCopyDone
  /-- VAR_CTRL.SWAP exchanges the coefficient banks at a sheet boundary, or is rejected if a copy is busy (R160). -/
  | varSwap (w : Writer)
  /-- An uncorrectable error in a coefficient word, map entry or copy store forces HOLD or discards the copy and raises a fault (R162). -/
  | varMemoryError (addr : BitVec 16)
  /-- A housekeeping result copy arrives at a varnish source's copy store, or is discarded as late (R155). -/
  | handoverCopy (s : Fin 32) (result : W24) (stamp : PM) (status : BitVec 3)
  /-- At each cadence boundary every temperature source latches a fresh code or becomes HELD or stays DEFAULT (R156). -/
  | cadenceLatch
  /-- At tick 160 the host die synthesises a LOST block for every column of the sheet that has not arrived (R21). -/
  | sheetDeadline
  /-- In slot 0 of every sheet each UP lane sends a cover parcel with status, echo and slow-control replies (R292). -/
  | coverParcel
  /-- In each slot the sorting office fills a port's parcel from the stream, trigger, event, HK, status or peer source the schedule names (R294). -/
  | slotFill (p : Fin 4)
  /-- At t + EVT_ANSWER_LATENCY the fragment header of an accepted TRIG leaves in its trigger slot (R178). -/
  | fragmentHeader
  /-- A change of STR_DECIMATION or STR_COLUMN_MASK takes effect at a permitted boundary and skips overlapping old blocks (R171). -/
  | strDecimationChange (mask : Bool) (value : Word) (w : Writer)
  /-- An uncorrectable error in a pigeonhole word reads as no-reading or HOLD and raises a fault (R175). -/
  | pigeonholeMemoryError (addr : BitVec 23)
  /-- A converter starts a pass with its check conversion and then its entries (R193). -/
  | hkPassStart (x : Hk)
  /-- A housekeeping conversion completes after L_c ticks and the next one starts (R187). -/
  | hkConversionDone (x : Hk) (raw : W24) (overload : Bool)
  /-- A READ of HKx_DATA returns the result and consumes it (R197). -/
  | hkDataRead (x : Hk)
  /-- A write of HKx_CTRL.RUN at a sheet boundary starts continuous passes or abandons the running conversion (R193). -/
  | hkRunChange (x : Hk) (run : Bool) (w : Writer)
  /-- HKx_CTRL.RESTART abandons the running conversion and starts a new pass at the sheet boundary (R194). -/
  | hkRestart (x : Hk) (w : Writer)
  /-- An urgent request runs one entry at once, interrupting the pass, or becomes pending or is rejected (R199). -/
  | hkUrgent (x : Hk) (entry : Fin 16) (w : Writer)
  /-- HKx_CAL_CMD START suspends the sequence and begins self-calibration of the selected gains (R206). -/
  | hkCalStart (x : Hk) (gains : BitVec 8) (tol : BitVec 16) (w : Writer)
  /-- HKx_CAL_CMD CANCEL ends self-calibration early with LAST_RESULT 6 (R208). -/
  | hkCalCancel (x : Hk)
  /-- The 64 conversions of one gain end and its factors are accepted or kept with a failure reason (R207). -/
  | hkCalGainDone (x : Hk)
  /-- WAIT × 1000 ticks after the reference buffer comes on, READY sets (R203). -/
  | refbufReady
  /-- Excitation current above 22 mA for 8 ticks drives the HK excitation pins to FGND and raises MINOR (R205). -/
  | hkExcOverload
  /-- Clearing OVERLOAD re-enables the HK excitation from the next conversion start (R205). -/
  | hkExcOverloadClear
  /-- A write of HKS_REDUNDANT_SEL redirects varnish sources to the other converter at a sheet boundary (R202). -/
  | hkRedundantSel (value : Word) (w : Writer)
  /-- At a window's opening the trace check measures XSTD through an urgent HK entry and records TRACE_OK (R212). -/
  | traceCheck
  /-- A 17-sheet calibration step of one column runs its offset, gain, phase and loop-path measurements (R218). -/
  | columnStep (c : Fin 32)
  /-- A step ends and passes to a pending result set or fails, updating the column's deferral count and CALD (R220). -/
  | calStepDone
  /-- A window close, drape, SAFE, clip, power change or column change cuts a step and restores input, driver and δ at once (R223). -/
  | calStepCut
  /-- A 14-sheet check of a serving front end and its rover ends with a verdict (R225). -/
  | roverCheck
  /-- At the first sheet after a window, pending result sets are applied if TRACE_OK is 1, otherwise discarded (R222). -/
  | calResultsApply
  /-- CFG_STORE_CMD STORE or AUTO_STORE starts Courier's store of a calibration slot into flash (R229). -/
  | slotStore
  /-- CFG_STORE_CMD DISCARD erases both calibration slots in READY or SAFE (R229). -/
  | slotDiscard
  /-- CFG_FLASH_CTRL OP 1 erases a 4 KiB flash sector, or is refused (R317). -/
  | flashErase4k (addr : W24)
  /-- CFG_FLASH_CTRL OP 2 erases a 64 KiB flash block, or is refused (R317). -/
  | flashErase64k (addr : W24)
  /-- CFG_FLASH_CTRL OP 3 reads the flash JEDEC identifier (R317). -/
  | flashReadJedec
  /-- A flash operation completes, or reports ERROR after 4 s (R317). -/
  | flashDone (ok : Bool) (jedec : W24)
  /-- An _ROUTINE_REQ write makes a valid routine pending with its ARG, or sets REQ_REJECT (R240). -/
  | routineRequest (e : Eng) (routine : Fin 64) (arg : W24)
  /-- When the main or service context is free, the owed handler or highest-priority pending routine starts (R241). -/
  | routineDispatch (e : Eng)
  /-- A masked interrupt cause abandons an uncommitted routine, restores its stencil, discards staged writes and re-queues it (R252). -/
  | routineAbandon (e : Eng) (causes : BitVec 5)
  /-- A microword's wait condition holds and the microword executes (R243). -/
  | engineWaitEnd (e : Eng)
  /-- A wait reaches _WAIT_TIMEOUT.LIMIT, ends as though satisfied, sets TO and raises NOTE (R244). -/
  | engineWaitTimeout (e : Eng)
  /-- The NOP microword does nothing (R237). -/
  | mwNop (e : Eng) (svc : Bool) (m : Micro)
  /-- MOV copies source A to the destination (R237). -/
  | mwMov (e : Eng) (svc : Bool) (m : Micro)
  /-- ADD writes A + B and sets the flags (R237). -/
  | mwAdd (e : Eng) (svc : Bool) (m : Micro)
  /-- SUB writes A − B and sets the flags (R237). -/
  | mwSub (e : Eng) (svc : Bool) (m : Micro)
  /-- AND writes A and B (R237). -/
  | mwAnd (e : Eng) (svc : Bool) (m : Micro)
  /-- OR writes A or B (R237). -/
  | mwOr (e : Eng) (svc : Bool) (m : Micro)
  /-- XOR writes A xor B (R237). -/
  | mwXor (e : Eng) (svc : Bool) (m : Micro)
  /-- SHL shifts A left by B mod 32 (R237). -/
  | mwShl (e : Eng) (svc : Bool) (m : Micro)
  /-- SHR shifts A logically right by B mod 32 (R237). -/
  | mwShr (e : Eng) (svc : Bool) (m : Micro)
  /-- ASR shifts A arithmetically right by B mod 32 (R237). -/
  | mwAsr (e : Eng) (svc : Bool) (m : Micro)
  /-- MULL writes the low 24 bits of the signed product (R237). -/
  | mwMull (e : Eng) (svc : Bool) (m : Micro)
  /-- MULH writes the high 24 bits of the signed product (R237). -/
  | mwMulh (e : Eng) (svc : Bool) (m : Micro)
  /-- CMP sets the flags of A − B (R237). -/
  | mwCmp (e : Eng) (svc : Bool) (m : Micro)
  /-- TEST sets the flags of A and B (R237). -/
  | mwTest (e : Eng) (svc : Bool) (m : Micro)
  /-- LD loads a data-memory word (R237). -/
  | mwLd (e : Eng) (svc : Bool) (m : Micro)
  /-- ST stores a data-memory word, ignored for a user routine below 0x400 (R234). -/
  | mwSt (e : Eng) (svc : Bool) (m : Micro)
  /-- RDREG reads a device register, across the barrier for Courier's field reads (R238). -/
  | mwRdreg (e : Eng) (svc : Bool) (m : Micro)
  /-- WRREG stages a register write before commit, or writes it at once or launches it in a tail (R245). -/
  | mwWrreg (e : Eng) (svc : Bool) (m : Micro)
  /-- A WRREG with STENCIL 1 before commit pushes the old value onto the stencil and writes at once (R246). -/
  | excursion (e : Eng) (svc : Bool) (m : Micro)
  /-- A microword with COMMIT 1 restores the stencil and applies every staged write in the next tick (R247). -/
  | commit (e : Eng)
  /-- SETTIMER loads the engine's sheet timer (R237). -/
  | mwSettimer (e : Eng) (svc : Bool) (m : Micro)
  /-- REQ makes a routine of the same engine pending with an ARG (R240). -/
  | mwReq (e : Eng) (svc : Bool) (m : Micro)
  /-- CALL pushes the return address and branches (R237). -/
  | mwCall (e : Eng) (svc : Bool) (m : Micro)
  /-- RET pops the return address and branches to it (R237). -/
  | mwRet (e : Eng) (svc : Bool) (m : Micro)
  /-- END ends the routine, discarding staged writes and restoring the stencil if it has not committed (R249). -/
  | mwEnd (e : Eng) (svc : Bool) (m : Micro)
  /-- Writing RUN 0 halts an engine, abandoning an uncommitted routine without handlers (R257). -/
  | engineHalt (e : Eng)
  /-- Writing RUN 1 lets an engine dispatch again, ignored for Brush in SAFE (R257). -/
  | engineRun (e : Eng)
  /-- _CTRL.STEP executes one microword at a breakpoint (R257). -/
  | engineStep (e : Eng)
  /-- _CTRL.RESUME continues from a breakpoint (R257). -/
  | engineResume (e : Eng)
  /-- The main context reaches the breakpoint address and stops with HIT set (R257). -/
  | breakpointHit (e : Eng)
  /-- Training of the barrier lanes starts and runs its phases over 50 000 ticks (R264). -/
  | barrierTraining
  /-- Training ends, assigning logical lanes to passing physical lanes or failing after the fourth attempt (R264). -/
  | trainingEnd (f2h : BitVec 13) (h2f : BitVec 3)
  /-- A BAR_TRAIN.RETRAIN write starts training in READY or SAFE, or sets REJECT (R266). -/
  | barRetrain
  /-- A READINGS envelope is received on the host die with its column block for the stream (R269). -/
  | readingsEnvelope (x : Rx)
  /-- An EVENT envelope delivers one fragment or record parcel to the host die for its slot (R184). -/
  | eventEnvelope (x : Rx)
  /-- An HK_RESULT envelope is delivered and queued for the HK slots (R198). -/
  | hkResultEnvelope (x : Rx)
  /-- A STATUS envelope from Brush is delivered and queued for STATUS slots (R268). -/
  | statusEnvelope (x : Rx)
  /-- A STATUS LANE_FAIL announces a host→field lane swap at the named boundary (R277). -/
  | statusLaneFail (x : Rx)
  /-- A STATUS FLT_ACKED clears the host mirror bits of field fault sources whose latches were cleared (R352). -/
  | statusFltAcked (x : Rx)
  /-- A FAULT_NOTICE of a field raise is delivered, setting mirror bits and requesting FAULT_POLICY (R351). -/
  | faultNotice (x : Rx)
  /-- A REPLY envelope returns a field read value or write status to its requester (R268). -/
  | replyEnvelope (x : Rx)
  /-- Brush's BIST_REPORT of field self-test findings is delivered and merged into the host findings list (R330). -/
  | bistReport (x : Rx)
  /-- The field die's per-sheet HEARTBEAT is delivered and its postmark checked against the host's (R265). -/
  | heartbeat (x : Rx)
  /-- A WRITE envelope is delivered on the field die and applied or queued, then answered with a REPLY (R268). -/
  | writeEnvelope (x : Rx)
  /-- A READ envelope, or a side-effect-free peek, is served on the field die and answered with a REPLY (R268). -/
  | readEnvelope (x : Rx)
  /-- A 1-beat COMMAND envelope brings the field part of RUN, HALT, CAL_FIRE or EPOCH_ADVANCE to the field die (R271). -/
  | commandEnvelope (x : Rx)
  /-- A COMMAND LANE_SWAP tells the field die to move a field→host logical lane to the spare at a boundary (R277). -/
  | commandLaneSwap (x : Rx)
  /-- A COMMAND EPOCH sets the field epoch at its postmark (R300). -/
  | commandEpoch (x : Rx)
  /-- A COMMAND SHED makes the field die shed the readings of columns 29 to 31 from its boundary (R279). -/
  | commandShed (x : Rx)
  /-- A TIME envelope sets or replaces the field die's pending rename, or aligns the field postmark in training (R268). -/
  | timeEnvelope (x : Rx)
  /-- A GAP envelope brings GAP_OPEN or GAP_CLOSE to the field die 36 ticks before its effect (R271). -/
  | gapEnvelope (x : Rx)
  /-- A TRIGGER envelope brings a TRIG to the field die 36 ticks before its effect (R271). -/
  | triggerEnvelope (x : Rx)
  /-- A barrier lane counts its eighth character error in a sheet or a misplaced comma and fails, raising SEVERE or MINOR (R276). -/
  | barrierLaneFail (toHost : Bool) (lane : Fin 13) (errors : BitVec 16)
  /-- At boundary b the failed logical lane moves to the spare, or the remaining lanes degrade or the device goes to SAFE (R277). -/
  | laneSwapApply
  /-- Four consecutive sheets without a HEARTBEAT raise FATAL in the BAR fault group (R278). -/
  | heartbeatMissed
  /-- A launched write of the retired-unit table sets or clears units at a sheet boundary (R281). -/
  | retiredTableWrite (word : Fin 11) (value : W24) (wr : Writer)
  /-- A write to LNK_SCHED_LAUNCH_HI submits a table switch, which is checked and queued with a field notice, or rejected (R295). -/
  | lnkSchedLaunch (m : Master) (hi : Word)
  /-- A port lane fails on PLL loss, short or open, peer sync loss or refused covers, and SEVERE is raised (R298); lock tells
  whether the lane still has the lock that LOCK shows after the event. -/
  | portLaneFail (p : Fin 4) (lock : Bool)
  /-- LNK_PORT_CFG.FORCE_FAIL fails the port lane as a real failure would (R298). -/
  | forceFail (p : Fin 4)
  /-- At b a failed port lane is retired and, with AUTO_SWITCH, the tables switch (R299). -/
  | portRetire (p : Fin 4)
  /-- A launched READMIT clears FAILED and RETIRED at a sheet boundary if the lane is locked, or sets REJECT (R301). -/
  | readmit (p : Fin 4) (w : Writer)
  /-- LNK_EPOCH with SET 1 sets the epoch on both dies at a sheet boundary at least 64 ticks ahead (R300). -/
  | lnkEpochSet (epoch : BitVec 2) (w : Writer)
  /-- A peer lane-sheet's cover is judged, and the lane-sheet is accepted for forwarding or refused and logged (R297). -/
  | peerCover (p : Fin 4) (header : Bool) (cover : Parcel) (rest : List Parcel)
  /-- Every 2^20 ticks the monitor sampler updates a receiver's eye registers (R303). -/
  | eyeUpdate (receiver : Fin 5) (width : BitVec 8) (height : BitVec 12)
  /-- In LOADING the loader reads and checks the whole image and applies host targets, going to TESTING or SAFE (R324). -/
  | checkPass
  /-- Courier's HOST_START runs the host self-tests and then starts barrier training (R329). -/
  | hostSelfTest (findings : List Finding)
  /-- Brush's FIELD_START runs the field self-tests and sends a BIST_REPORT (R330). -/
  | fieldSelfTest (findings : List Finding)
  /-- The field pass sends every field target to the field die and reads the calibration slot (R324). -/
  | fieldLoad (refused : Bool)
  /-- Field load ends when READY is set; unnamed pins go high-impedance, drivers take their entries and the clamps release (R93). -/
  | fieldLoadEnd
  /-- After the excitation ramp the primer is read back, corrected and limited (R326). -/
  | primerCheck
  /-- At the first sheet boundary with field load, ramp and primer check done and both engines running, GLB_STATE becomes READY (R327). -/
  | readyEntry
  /-- With AUTO_RUN, the device enters RUNNING at the first postmark multiple of 2^22 in READY with PM_VALID (R328). -/
  | autoRun
  /-- GLB_COMMAND RETEST halts the engines, flushes queues, clamps outputs and restarts start-up from the check pass (R334). -/
  | glbRetest
  /-- GLB_COMMAND START_DEGRADED isolates the failed units and resumes start-up, or is refused (R335). -/
  | glbStartDegraded
  /-- GLB_COMMAND ENTER_SAFE puts a READY or RUNNING device into SAFE at a sheet boundary (R331). -/
  | glbEnterSafe
  /-- A GLB_COMMAND write with a wrong KEY does nothing except set STATUS 4 (R333). -/
  | glbCommandBadKey (value : Word)
  /-- FLT_ACK clears the LATCH and LSEV of the named sources (R344). -/
  | fltAckSources (b : Blk) (sources : BitVec 16)
  /-- FLT_ACK with FIRST 1 clears the first-error record's VALID, ESCALATED and ALSO bits (R344). -/
  | fltAckFirst (b : Blk)
  /-- After 2^QEXP quiet sheets a source's ACTIVE, LEVEL and CNT clear and a recovery is counted (R345). -/
  | quietRecovery (b : Blk) (source : Fin 16)
  /-- FLT_POLICY with WR 1 writes a source's policy fields; with WR 0 it only selects the source (R357). -/
  | fltPolicyWrite (b : Blk) (value : Word)
  /-- FLT_INJECT GO arms a checker to corrupt the next item or every item (R354). -/
  | fltInjectGo (b : Blk) (value : Word) (w : Writer)
  /-- FLT_INJECT STOP ends a continuous injection (R354). -/
  | fltInjectStop (b : Blk) (w : Writer)
  /-- The scrubber reads one word per tick in each scrubbed memory and rewrites a corrected word (R340). -/
  | scrubWord (b : Blk) (addr : W24) (single : Bool)
  /-- At postmarks multiple of 2^14 or 2^16 ALIVE inverts, or is held low while a hold applies (R353). -/
  | aliveToggle
  /-- At each sheet boundary in READY or RUNNING the PWR block chooses the deepest state within the budgets and schedules a transition (R362). -/
  | powerDecision
  /-- Courier's POWER routine sends the field power command and launches the host part at T, or sets REJECT (R364). -/
  | powerTransitionLaunch (status : BitVec 3)
  /-- At T the device enters a deeper power state, gating blocks and ramping rows down as needed (R361). -/
  | powerEntry
  /-- At T a wake restores the datapath, converters, rows and reference toward the shallower state (R360). -/
  | powerWake
  /-- A transition completes, TRANSITION clears, and a late wake raises PWR source 0 (R365). -/
  | powerTransitionComplete
  /-- A field or host supply rail leaves or re-enters its operating range, setting LOW, HIGH or OK and raising FGL source 1 or PWR source 1 (R376). -/
  | supplyExcursion (d : Die) (rail : Fin 4) (level : RailLevel)
  /-- Every 2^14 ticks FGL_DIE_TEMP is updated, and a junction above 125 °C raises FATAL FGL source 2 (R392). -/
  | dieTemperatureUpdate (t : BitVec 16)
  /-- A slow-control request that Courier has not dispatched within 64 ticks raises the standing SEVERE COU source 6 and holds ALIVE low (R355). -/
  | courierStall
  /-- A PEER-IN receiver gains block lock after 64 valid sync headers and sheet lock after 4 sheets of aligned cover headers, so that LOCK sets (R290). -/
  | peerSheetLock (p : Fin 4)
  /-- If the host lacks the REPLY to LANE_SWAP or the STATUS LANE_FAIL by b − 32, it moves b one sheet later and sends again (R277). -/
  | laneSwapDeadline
deriving DecidableEq, Repr

end Sys2Proof
end

