-- ==== Sys2Proof/Decode.lean ====
section
/-!
DEFINITION. The decoder that the opcode table's bits define: no row of spec/opcode_table.json gives bits, since the
commands are events at the block's pins, links and registers, so no word spells a command.  What the spec does
encode, the microwords (R236) and the image (R317 to R323), the engines and the loader read for themselves.
-/
namespace Sys2Proof

/-- The command that a word of the table's bits spells: none, for no row has bits. -/
def decodeTableWord (_nbits _w : Nat) : Option Instr := none

end Sys2Proof
end

