-- ==== Sys2Proof/Config.lean ====
section
/-!
DEFINITION. What the spec leaves open, as constants without a body: free values.  Nothing can be
proved of them but that they are the same for the same arguments.
-/
namespace Sys2Proof.Config

/-- The ARG of a routine that the hardware requests itself (R240 gives the request, no rule gives its
ARG); the argument is the count of free values used so far. -/
opaque triggerArg : Nat → BitVec 24

/-- A byte of the factory memory (R213): each device's own, never written in the field. -/
opaque factoryByte : Nat → BitVec 8

/-- GAIN_ERR in voltage mode (R226): it rests on an equivalent voltage that no rule gives; the argument
is the count of free values used so far. -/
opaque gainErrVoltage : Nat → BitVec 24

/-- The silicon revision that GLB_REVISION shows (R3); the spec gives no number. -/
opaque siliconRevision : BitVec 8

/-- The library CRCs and versions that the host die's mask ROM accepts for its silicon revision (R322):
the CRC of the standard part, the library version, and whether the section is Brush's. -/
opaque romAccepts : BitVec 32 → BitVec 16 → Bool → Bool

/-- PWR_ESTIMATE.NOW (Table 17-8): an estimate that no rule computes; the argument is the count of free
values used so far. -/
opaque powerEstimate : Nat → BitVec 16

end Sys2Proof.Config
end

