-- ==== Sys2Proof/Machine/Fields.lean ====
section
/-!
DEFINITION. The register map: the index of every register, the place of every field, and each
register's reset value and writing access codes, from the field maps of spec/ and chapter 18
(R12, R13, R369, R370).
-/
namespace Sys2Proof.Machine

/-- The base index of a block (R11, R369). -/
def blkNum : Blk → Nat
  | .glb => 0x00 | .tim => 0x01 | .bar => 0x02 | .lnk => 0x03 | .mgt => 0x04 | .cfg => 0x05
  | .cou => 0x06 | .pwr => 0x07 | .fgl => 0x10 | .pal => 0x11 | .col => 0x12 | .nul => 0x13
  | .var => 0x14 | .str => 0x15 | .evt => 0x16 | .hka => 0x17 | .hkb => 0x18 | .hks => 0x19
  | .cal => 0x1A | .bru => 0x1B | .fba => 0x1C

/-- The first index of a block. -/
def blkBase (b : Blk) : Nat := blkNum b * 0x100

/-- The block whose span holds an index, if one does (R370). -/
def blkOf (i : Nat) : Option Blk :=
  match i / 0x100 with
  | 0x00 => some .glb | 0x01 => some .tim | 0x02 => some .bar | 0x03 => some .lnk
  | 0x04 => some .mgt | 0x05 => some .cfg | 0x06 => some .cou | 0x07 => some .pwr
  | 0x10 => some .fgl | 0x11 => some .pal | 0x12 => some .col | 0x13 => some .nul
  | 0x14 => some .var | 0x15 => some .str | 0x16 => some .evt | 0x17 => some .hka
  | 0x18 => some .hkb | 0x19 => some .hks | 0x1A => some .cal | 0x1B => some .bru
  | 0x1C => some .fba | _ => none

/-- Blocks of the host die have indices below 0x1000 (R11). -/
def blkIsHost (b : Blk) : Bool := blkNum b < 0x10

/-- The base index of an engine's block. -/
def engBase : Eng → Nat
  | .courier => 0x0600
  | .brush => 0x1B00

/-- The base index of a housekeeping converter's block. -/
def hkBase : Hk → Nat
  | .a => 0x1700
  | .b => 0x1800

/-- TIM_STATUS (0x0100), Table 02-4. -/
def TIM_STATUS : Nat := 0x0100
def TIM_STATUS_LOCK_LOSS_COUNT : Fld := ⟨TIM_STATUS, 24, 8⟩
def TIM_STATUS_PMSET_COUNT : Fld := ⟨TIM_STATUS, 16, 8⟩
def TIM_STATUS_PMSET_REJECT : Fld := ⟨TIM_STATUS, 7, 1⟩
def TIM_STATUS_FIELD_ALIGNED : Fld := ⟨TIM_STATUS, 4, 1⟩
def TIM_STATUS_PM_VALID : Fld := ⟨TIM_STATUS, 3, 1⟩
def TIM_STATUS_FREQ_OK : Fld := ⟨TIM_STATUS, 2, 1⟩
def TIM_STATUS_BLOCK_SYNC : Fld := ⟨TIM_STATUS, 1, 1⟩
def TIM_STATUS_LOCK : Fld := ⟨TIM_STATUS, 0, 1⟩
/-- TIM_POSTMARK_LO (0x0101), Table 02-5. -/
def TIM_POSTMARK_LO : Nat := 0x0101
def TIM_POSTMARK_LO_PM_LO : Fld := ⟨TIM_POSTMARK_LO, 0, 32⟩
/-- TIM_POSTMARK_HI (0x0102), Table 02-5. -/
def TIM_POSTMARK_HI : Nat := 0x0102
def TIM_POSTMARK_HI_PM_HI : Fld := ⟨TIM_POSTMARK_HI, 0, 16⟩
/-- TIM_TICK_PERIOD (0x0103), Table 02-6. -/
def TIM_TICK_PERIOD : Nat := 0x0103
def TIM_TICK_PERIOD_PERIOD_PS : Fld := ⟨TIM_TICK_PERIOD, 0, 16⟩
/-- TIM_SHEET_ALIGN (0x0104), Table 02-7. -/
def TIM_SHEET_ALIGN : Nat := 0x0104
def TIM_SHEET_ALIGN_MARK_COUNT : Fld := ⟨TIM_SHEET_ALIGN, 16, 16⟩
def TIM_SHEET_ALIGN_LAST_PHASE : Fld := ⟨TIM_SHEET_ALIGN, 8, 6⟩
def TIM_SHEET_ALIGN_MISMATCH : Fld := ⟨TIM_SHEET_ALIGN, 1, 1⟩
def TIM_SHEET_ALIGN_CHECK_EN : Fld := ⟨TIM_SHEET_ALIGN, 0, 1⟩
/-- TIM_FIXED_LATENCY (0x0105), Table 02-8. -/
def TIM_FIXED_LATENCY : Nat := 0x0105
def TIM_FIXED_LATENCY_ACTIVE : Fld := ⟨TIM_FIXED_LATENCY, 16, 12⟩
def TIM_FIXED_LATENCY_LATENCY : Fld := ⟨TIM_FIXED_LATENCY, 0, 12⟩
/-- TIM_LAUNCH_STATUS (0x0106), Table 02-9. -/
def TIM_LAUNCH_STATUS : Nat := 0x0106
def TIM_LAUNCH_STATUS_REJECT_COUNT : Fld := ⟨TIM_LAUNCH_STATUS, 20, 8⟩
def TIM_LAUNCH_STATUS_LAST_PENDING : Fld := ⟨TIM_LAUNCH_STATUS, 19, 1⟩
def TIM_LAUNCH_STATUS_LAST_STATUS : Fld := ⟨TIM_LAUNCH_STATUS, 16, 3⟩
def TIM_LAUNCH_STATUS_FIELD_OCC : Fld := ⟨TIM_LAUNCH_STATUS, 8, 7⟩
def TIM_LAUNCH_STATUS_HOST_OCC : Fld := ⟨TIM_LAUNCH_STATUS, 0, 7⟩
/-- TIM_LAUNCH_LO (0x0107), Table 02-10. -/
def TIM_LAUNCH_LO : Nat := 0x0107
def TIM_LAUNCH_LO_LAUNCH_LO : Fld := ⟨TIM_LAUNCH_LO, 0, 32⟩
/-- TIM_LAUNCH_HI (0x0108), Table 02-10. -/
def TIM_LAUNCH_HI : Nat := 0x0108
def TIM_LAUNCH_HI_LAUNCH_HI : Fld := ⟨TIM_LAUNCH_HI, 0, 16⟩
/-- TIM_LAUNCH_ACTION (0x0109), Table 02-10. -/
def TIM_LAUNCH_ACTION : Nat := 0x0109
def TIM_LAUNCH_ACTION_FLUSH : Fld := ⟨TIM_LAUNCH_ACTION, 2, 1⟩
def TIM_LAUNCH_ACTION_BURST : Fld := ⟨TIM_LAUNCH_ACTION, 1, 1⟩
def TIM_LAUNCH_ACTION_ARM : Fld := ⟨TIM_LAUNCH_ACTION, 0, 1⟩
/-- TIM_GAP_STATUS (0x010A), Table 02-11. -/
def TIM_GAP_STATUS : Nat := 0x010A
def TIM_GAP_STATUS_GAP_LIMIT : Fld := ⟨TIM_GAP_STATUS, 20, 12⟩
def TIM_GAP_STATUS_FORCED : Fld := ⟨TIM_GAP_STATUS, 19, 1⟩
def TIM_GAP_STATUS_OPEN : Fld := ⟨TIM_GAP_STATUS, 16, 1⟩
def TIM_GAP_STATUS_LAST_SHEETS : Fld := ⟨TIM_GAP_STATUS, 0, 16⟩
/-- TIM_GAP_COUNT (0x010B), Table 02-12. -/
def TIM_GAP_COUNT : Nat := 0x010B
def TIM_GAP_COUNT_STRAY : Fld := ⟨TIM_GAP_COUNT, 24, 8⟩
def TIM_GAP_COUNT_EMPTY : Fld := ⟨TIM_GAP_COUNT, 16, 8⟩
def TIM_GAP_COUNT_WINDOWS : Fld := ⟨TIM_GAP_COUNT, 0, 16⟩
/-- TIM_FASTCMD_COUNT (0x010C), Table 02-13. -/
def TIM_FASTCMD_COUNT : Nat := 0x010C
def TIM_FASTCMD_COUNT_UNKNOWN : Fld := ⟨TIM_FASTCMD_COUNT, 16, 16⟩
def TIM_FASTCMD_COUNT_ACCEPTED : Fld := ⟨TIM_FASTCMD_COUNT, 0, 16⟩
/-- TIM_FASTCMD_LAST (0x010D), Table 02-13. -/
def TIM_FASTCMD_LAST : Nat := 0x010D
def TIM_FASTCMD_LAST_PM_LOW : Fld := ⟨TIM_FASTCMD_LAST, 8, 24⟩
def TIM_FASTCMD_LAST_CODE : Fld := ⟨TIM_FASTCMD_LAST, 0, 8⟩
/-- PAL_CTRL (0x1100), Table 04-4. -/
def PAL_CTRL : Nat := 0x1100
def PAL_CTRL_HOLD_SCOPE : Fld := ⟨PAL_CTRL, 8, 1⟩
def PAL_CTRL_COPY : Fld := ⟨PAL_CTRL, 4, 1⟩
def PAL_CTRL_SWAP_CANCEL : Fld := ⟨PAL_CTRL, 3, 1⟩
/-- PAL_STATUS (0x1101), Table 04-5. -/
def PAL_STATUS : Nat := 0x1101
def PAL_STATUS_SWAP_PENDING : Fld := ⟨PAL_STATUS, 31, 1⟩
def PAL_STATUS_SWAP_STATUS : Fld := ⟨PAL_STATUS, 28, 3⟩
def PAL_STATUS_SWAP_DOUBLE : Fld := ⟨PAL_STATUS, 27, 1⟩
def PAL_STATUS_WIN_REJECT : Fld := ⟨PAL_STATUS, 26, 1⟩
def PAL_STATUS_COPY_BUSY : Fld := ⟨PAL_STATUS, 25, 1⟩
def PAL_STATUS_ACTIVE_BANK : Fld := ⟨PAL_STATUS, 24, 1⟩
def PAL_STATUS_SWAP_COUNT : Fld := ⟨PAL_STATUS, 16, 8⟩
def PAL_STATUS_BANK_CHECK : Fld := ⟨PAL_STATUS, 12, 4⟩
def PAL_STATUS_CHECK_ENTRY : Fld := ⟨PAL_STATUS, 0, 7⟩
/-- PAL_BANK_LAUNCH_LO (0x1102), Table 04-6. -/
def PAL_BANK_LAUNCH_LO : Nat := 0x1102
def PAL_BANK_LAUNCH_LO_LAUNCH_LO : Fld := ⟨PAL_BANK_LAUNCH_LO, 0, 32⟩
/-- PAL_BANK_LAUNCH_HI (0x1103), Table 04-6. -/
def PAL_BANK_LAUNCH_HI : Nat := 0x1103
def PAL_BANK_LAUNCH_HI_LAUNCH_HI : Fld := ⟨PAL_BANK_LAUNCH_HI, 0, 16⟩
/-- EXC_SLEW (0x1104), Table 04-7. -/
def EXC_SLEW : Nat := 0x1104
def EXC_SLEW_STEP : Fld := ⟨EXC_SLEW, 16, 12⟩
def EXC_SLEW_INTERVAL : Fld := ⟨EXC_SLEW, 0, 8⟩
/-- EXC_DRAPE_CODE (0x1105), Table 04-8. -/
def EXC_DRAPE_CODE : Nat := 0x1105
def EXC_DRAPE_CODE_MODE : Fld := ⟨EXC_DRAPE_CODE, 0, 2⟩
/-- EXC_REST_CODE (0x1106), Table 04-8. -/
def EXC_REST_CODE : Nat := 0x1106
def EXC_REST_CODE_FRACTION : Fld := ⟨EXC_REST_CODE, 0, 8⟩
/-- EXC_RAMP_STATUS (0x1107), Table 04-9. -/
def EXC_RAMP_STATUS : Nat := 0x1107
def EXC_RAMP_STATUS_BUSY : Fld := ⟨EXC_RAMP_STATUS, 31, 1⟩
def EXC_RAMP_STATUS_COUNT : Fld := ⟨EXC_RAMP_STATUS, 24, 7⟩
def EXC_RAMP_STATUS_REMAIN : Fld := ⟨EXC_RAMP_STATUS, 0, 24⟩
/-- ROW_MAP_STATUS (0x1108), Table 04-10. -/
def ROW_MAP_STATUS : Nat := 0x1108
def ROW_MAP_STATUS_REJECT : Fld := ⟨ROW_MAP_STATUS, 31, 1⟩
def ROW_MAP_STATUS_REJECT_RULE : Fld := ⟨ROW_MAP_STATUS, 28, 3⟩
def ROW_MAP_STATUS_SPARE_USE : Fld := ⟨ROW_MAP_STATUS, 24, 4⟩
def ROW_MAP_STATUS_CHANGE_COUNT : Fld := ⟨ROW_MAP_STATUS, 16, 8⟩
def ROW_MAP_STATUS_LAST_ROW : Fld := ⟨ROW_MAP_STATUS, 8, 6⟩
/-- ROW_SPARE_CTRL (0x1109), Table 04-11. -/
def ROW_SPARE_CTRL : Nat := 0x1109
def ROW_SPARE_CTRL_PREP_EN (g : Nat) : Fld := ⟨ROW_SPARE_CTRL, 8 * g + 7, 1⟩
def ROW_SPARE_CTRL_PREP_READY (g : Nat) : Fld := ⟨ROW_SPARE_CTRL, 8 * g + 6, 1⟩
def ROW_SPARE_CTRL_ROW (g : Nat) : Fld := ⟨ROW_SPARE_CTRL, 8 * g + 0, 6⟩
/-- EXC_OVERLOAD_STATUS (0x110A), Table 04-12. -/
def EXC_OVERLOAD_STATUS : Nat := 0x110A
def EXC_OVERLOAD_STATUS_ANY : Fld := ⟨EXC_OVERLOAD_STATUS, 31, 1⟩
def EXC_OVERLOAD_STATUS_LATCH : Fld := ⟨EXC_OVERLOAD_STATUS, 30, 1⟩
def EXC_OVERLOAD_STATUS_COUNT : Fld := ⟨EXC_OVERLOAD_STATUS, 16, 8⟩
def EXC_OVERLOAD_STATUS_FIRST_DRV : Fld := ⟨EXC_OVERLOAD_STATUS, 8, 7⟩
def EXC_OVERLOAD_STATUS_LIVE_COUNT : Fld := ⟨EXC_OVERLOAD_STATUS, 0, 7⟩
/-- COL_CTRL (0x1200), Table 05-5. -/
def COL_CTRL : Nat := 0x1200
def COL_CTRL_FE_OVL_EN : Fld := ⟨COL_CTRL, 16, 1⟩
def COL_CTRL_OVR_MARGIN : Fld := ⟨COL_CTRL, 0, 6⟩
/-- COL_ENABLE (0x1201), Table 05-6. -/
def COL_ENABLE : Nat := 0x1201
def COL_ENABLE_EN : Fld := ⟨COL_ENABLE, 0, 32⟩
/-- COL_OVR_STATUS (0x1202), Table 05-6. -/
def COL_OVR_STATUS : Nat := 0x1202
def COL_OVR_STATUS_OVR_LATCH : Fld := ⟨COL_OVR_STATUS, 0, 32⟩
/-- COL_OVR_LIVE (0x1203), Table 05-6. -/
def COL_OVR_LIVE : Nat := 0x1203
def COL_OVR_LIVE_OVR_LIVE : Fld := ⟨COL_OVR_LIVE, 0, 32⟩
/-- COL_SPARE_CTRL (0x1204), Table 05-7. -/
def COL_SPARE_CTRL : Nat := 0x1204
def COL_SPARE_CTRL_OP : Fld := ⟨COL_SPARE_CTRL, 16, 2⟩
def COL_SPARE_CTRL_COLUMN : Fld := ⟨COL_SPARE_CTRL, 0, 5⟩
/-- COL_MAP_STATUS (0x1205), Table 05-8. -/
def COL_MAP_STATUS : Nat := 0x1205
def COL_MAP_STATUS_REJECT : Fld := ⟨COL_MAP_STATUS, 31, 1⟩
def COL_MAP_STATUS_REJECT_RULE : Fld := ⟨COL_MAP_STATUS, 28, 3⟩
def COL_MAP_STATUS_SET_REJECT : Fld := ⟨COL_MAP_STATUS, 27, 1⟩
def COL_MAP_STATUS_SET_REASON : Fld := ⟨COL_MAP_STATUS, 24, 3⟩
def COL_MAP_STATUS_CHANGE_COUNT : Fld := ⟨COL_MAP_STATUS, 16, 8⟩
def COL_MAP_STATUS_SPARE_USE : Fld := ⟨COL_MAP_STATUS, 14, 2⟩
def COL_MAP_STATUS_LAST_COL : Fld := ⟨COL_MAP_STATUS, 8, 5⟩
def COL_MAP_STATUS_LAST_PIN : Fld := ⟨COL_MAP_STATUS, 0, 6⟩
/-- COL_ROVER_CTRL (0x1206), Table 05-9. -/
def COL_ROVER_CTRL : Nat := 0x1206
def COL_ROVER_CTRL_EN1 : Fld := ⟨COL_ROVER_CTRL, 31, 1⟩
def COL_ROVER_CTRL_EN0 : Fld := ⟨COL_ROVER_CTRL, 30, 1⟩
def COL_ROVER_CTRL_TOL : Fld := ⟨COL_ROVER_CTRL, 0, 16⟩
/-- COL_ROVER_STATUS (0x1207), Table 05-10. -/
def COL_ROVER_STATUS : Nat := 0x1207
def COL_ROVER_STATUS_STATE (g : Nat) : Fld := ⟨COL_ROVER_STATUS, 16 * g + 13, 2⟩
def COL_ROVER_STATUS_COLUMN (g : Nat) : Fld := ⟨COL_ROVER_STATUS, 16 * g + 8, 5⟩
def COL_ROVER_STATUS_INCONCLUSIVE (g : Nat) : Fld := ⟨COL_ROVER_STATUS, 16 * g + 4, 4⟩
def COL_ROVER_STATUS_MISMATCHES (g : Nat) : Fld := ⟨COL_ROVER_STATUS, 16 * g + 0, 4⟩
/-- COL_ROVER_MISMATCH (0x1208), Table 05-11. -/
def COL_ROVER_MISMATCH : Nat := 0x1208
def COL_ROVER_MISMATCH_VALID : Fld := ⟨COL_ROVER_MISMATCH, 31, 1⟩
def COL_ROVER_MISMATCH_GROUP : Fld := ⟨COL_ROVER_MISMATCH, 30, 1⟩
def COL_ROVER_MISMATCH_COLUMN : Fld := ⟨COL_ROVER_MISMATCH, 25, 5⟩
def COL_ROVER_MISMATCH_ROW : Fld := ⟨COL_ROVER_MISMATCH, 19, 6⟩
def COL_ROVER_MISMATCH_MEAN : Fld := ⟨COL_ROVER_MISMATCH, 0, 19⟩
/-- NUL_CTRL (0x1300), Table 06-7. -/
def NUL_CTRL : Nat := 0x1300
def NUL_CTRL_UNCV_REARM : Fld := ⟨NUL_CTRL, 8, 1⟩
def NUL_CTRL_RESID_EN : Fld := ⟨NUL_CTRL, 0, 1⟩
/-- NUL_LOOP_GAIN (0x1301), Table 06-8. -/
def NUL_LOOP_GAIN : Nat := 0x1301
def NUL_LOOP_GAIN_WR : Fld := ⟨NUL_LOOP_GAIN, 31, 1⟩
def NUL_LOOP_GAIN_REJECT : Fld := ⟨NUL_LOOP_GAIN, 30, 1⟩
def NUL_LOOP_GAIN_PIN : Fld := ⟨NUL_LOOP_GAIN, 24, 6⟩
def NUL_LOOP_GAIN_G : Fld := ⟨NUL_LOOP_GAIN, 0, 4⟩
/-- NUL_LIMIT (0x1302), Table 06-9. -/
def NUL_LIMIT : Nat := 0x1302
def NUL_LIMIT_LIMIT : Fld := ⟨NUL_LIMIT, 0, 23⟩
/-- NUL_CONVERGE (0x1303), Table 06-9. -/
def NUL_CONVERGE : Nat := 0x1303
def NUL_CONVERGE_THRESH : Fld := ⟨NUL_CONVERGE, 0, 24⟩
/-- NUL_SAT_STATUS (0x1304), Table 06-10. -/
def NUL_SAT_STATUS : Nat := 0x1304
def NUL_SAT_STATUS_SAT_LATCH : Fld := ⟨NUL_SAT_STATUS, 0, 32⟩
/-- NUL_UNCV_STATUS (0x1305), Table 06-10. -/
def NUL_UNCV_STATUS : Nat := 0x1305
def NUL_UNCV_STATUS_UNCV_LIVE : Fld := ⟨NUL_UNCV_STATUS, 0, 32⟩
/-- NUL_HOLD_STATUS (0x1306), Table 06-10. -/
def NUL_HOLD_STATUS : Nat := 0x1306
def NUL_HOLD_STATUS_HOLD_LIVE : Fld := ⟨NUL_HOLD_STATUS, 0, 32⟩
/-- NUL_DAC_RANGE (0x1307), Table 06-11. -/
def NUL_DAC_RANGE : Nat := 0x1307
def NUL_DAC_RANGE_WR : Fld := ⟨NUL_DAC_RANGE, 31, 1⟩
def NUL_DAC_RANGE_PIN : Fld := ⟨NUL_DAC_RANGE, 24, 6⟩
def NUL_DAC_RANGE_CLIP_SHEETS : Fld := ⟨NUL_DAC_RANGE, 16, 8⟩
def NUL_DAC_RANGE_RANGE : Fld := ⟨NUL_DAC_RANGE, 0, 2⟩
/-- NUL_DRAPE_CODE (0x1308), Table 06-12. -/
def NUL_DRAPE_CODE : Nat := 0x1308
def NUL_DRAPE_CODE_MODE : Fld := ⟨NUL_DRAPE_CODE, 0, 1⟩
/-- NUL_PRIMER_CTRL (0x1309), Table 06-13. -/
def NUL_PRIMER_CTRL : Nat := 0x1309
def NUL_PRIMER_CTRL_SOURCE : Fld := ⟨NUL_PRIMER_CTRL, 30, 2⟩
def NUL_PRIMER_CTRL_START_COUNT : Fld := ⟨NUL_PRIMER_CTRL, 16, 8⟩
def NUL_PRIMER_CTRL_CAPTURE_REJECT : Fld := ⟨NUL_PRIMER_CTRL, 4, 1⟩
def NUL_PRIMER_CTRL_CAPTURE_BUSY : Fld := ⟨NUL_PRIMER_CTRL, 3, 1⟩
def NUL_PRIMER_CTRL_CAPTURE : Fld := ⟨NUL_PRIMER_CTRL, 2, 1⟩
def NUL_PRIMER_CTRL_REPRIME : Fld := ⟨NUL_PRIMER_CTRL, 0, 1⟩
/-- VAR_CTRL (0x1400), Table 07-8. -/
def VAR_CTRL : Nat := 0x1400
def VAR_CTRL_SWAP_REJECT : Fld := ⟨VAR_CTRL, 11, 1⟩
def VAR_CTRL_WIN_REJECT : Fld := ⟨VAR_CTRL, 10, 1⟩
def VAR_CTRL_COPY_BUSY : Fld := ⟨VAR_CTRL, 9, 1⟩
def VAR_CTRL_ACTIVE_BANK : Fld := ⟨VAR_CTRL, 8, 1⟩
def VAR_CTRL_COPY : Fld := ⟨VAR_CTRL, 1, 1⟩
def VAR_CTRL_SWAP : Fld := ⟨VAR_CTRL, 0, 1⟩
/-- VAR_T_DEFAULT (0x1401), Table 07-9. -/
def VAR_T_DEFAULT : Nat := 0x1401
def VAR_T_DEFAULT_T_DEFAULT : Fld := ⟨VAR_T_DEFAULT, 0, 24⟩
/-- VAR_T_CADENCE (0x1402), Table 07-9. -/
def VAR_T_CADENCE : Nat := 0x1402
def VAR_T_CADENCE_HOLD_LIMIT : Fld := ⟨VAR_T_CADENCE, 16, 8⟩
def VAR_T_CADENCE_EXP : Fld := ⟨VAR_T_CADENCE, 0, 6⟩
/-- VAR_T_STATUS (0x1403), Table 07-10. -/
def VAR_T_STATUS : Nat := 0x1403
def VAR_T_STATUS_ANY_DEFAULT : Fld := ⟨VAR_T_STATUS, 31, 1⟩
def VAR_T_STATUS_LATE : Fld := ⟨VAR_T_STATUS, 30, 1⟩
def VAR_T_STATUS_LATE_COUNT : Fld := ⟨VAR_T_STATUS, 16, 8⟩
def VAR_T_STATUS_LATCH_COUNT : Fld := ⟨VAR_T_STATUS, 8, 8⟩
def VAR_T_STATUS_DEFAULT_COUNT : Fld := ⟨VAR_T_STATUS, 0, 6⟩
/-- VAR_CLAMP_COUNT (0x1404), Table 07-11. -/
def VAR_CLAMP_COUNT : Nat := 0x1404
def VAR_CLAMP_COUNT_POS : Fld := ⟨VAR_CLAMP_COUNT, 16, 16⟩
def VAR_CLAMP_COUNT_NEG : Fld := ⟨VAR_CLAMP_COUNT, 0, 16⟩
/-- STR_CTRL (0x1500), Table 08-9a. -/
def STR_CTRL : Nat := 0x1500
def STR_CTRL_EN : Fld := ⟨STR_CTRL, 0, 1⟩
/-- STR_DECIMATION (0x1501), Table 08-9a. -/
def STR_DECIMATION : Nat := 0x1501
def STR_DECIMATION_MIN_VALID : Fld := ⟨STR_DECIMATION, 8, 9⟩
def STR_DECIMATION_EXP : Fld := ⟨STR_DECIMATION, 0, 4⟩
/-- STR_COLUMN_MASK (0x1502), Table 08-9b. -/
def STR_COLUMN_MASK : Nat := 0x1502
def STR_COLUMN_MASK_MASK : Fld := ⟨STR_COLUMN_MASK, 0, 32⟩
/-- STR_STATUS (0x1503), Table 08-9b. -/
def STR_STATUS : Nat := 0x1503
def STR_STATUS_ACTIVE : Fld := ⟨STR_STATUS, 31, 1⟩
def STR_STATUS_NEED : Fld := ⟨STR_STATUS, 16, 8⟩
def STR_STATUS_RESERVED : Fld := ⟨STR_STATUS, 8, 8⟩
def STR_STATUS_COLS : Fld := ⟨STR_STATUS, 0, 6⟩
/-- STR_SHEET_COUNT (0x1504), Table 08-9c. -/
def STR_SHEET_COUNT : Nat := 0x1504
def STR_SHEET_COUNT_SHEETS : Fld := ⟨STR_SHEET_COUNT, 0, 32⟩
/-- STR_SKIPPED_COUNT (0x1505), Table 08-9c. -/
def STR_SKIPPED_COUNT : Nat := 0x1505
def STR_SKIPPED_COUNT_DEC_CHANGE : Fld := ⟨STR_SKIPPED_COUNT, 16, 16⟩
def STR_SKIPPED_COUNT_NO_SLOT : Fld := ⟨STR_SKIPPED_COUNT, 0, 16⟩
/-- EVT_CTRL (0x1600), Table 08-10a. -/
def EVT_CTRL : Nat := 0x1600
def EVT_CTRL_TRIG_REGION : Fld := ⟨EVT_CTRL, 26, 3⟩
def EVT_CTRL_TRIG_EN : Fld := ⟨EVT_CTRL, 24, 1⟩
def EVT_CTRL_SELF_EN : Fld := ⟨EVT_CTRL, 16, 1⟩
def EVT_CTRL_ANSWER_PORT : Fld := ⟨EVT_CTRL, 8, 2⟩
/-- EVT_PRETRIGGER (0x1601), Table 08-10a. -/
def EVT_PRETRIGGER : Nat := 0x1601
def EVT_PRETRIGGER_COUNT : Fld := ⟨EVT_PRETRIGGER, 16, 9⟩
def EVT_PRETRIGGER_PRE : Fld := ⟨EVT_PRETRIGGER, 0, 8⟩
/-- EVT_LENGTH (0x1602), Table 08-10b. -/
def EVT_LENGTH : Nat := 0x1602
def EVT_LENGTH_LENGTH : Fld := ⟨EVT_LENGTH, 0, 5⟩
/-- EVT_ANSWER_LATENCY (0x1603), Table 08-10b. -/
def EVT_ANSWER_LATENCY : Nat := 0x1603
def EVT_ANSWER_LATENCY_LATENCY : Fld := ⟨EVT_ANSWER_LATENCY, 0, 9⟩
/-- EVT_TRIG_OFFSET (0x1604), Table 08-10b. -/
def EVT_TRIG_OFFSET : Nat := 0x1604
def EVT_TRIG_OFFSET_OFFSET : Fld := ⟨EVT_TRIG_OFFSET, 0, 10⟩
/-- EVT_COUNT (0x1605), Table 08-10c. -/
def EVT_COUNT : Nat := 0x1605
def EVT_COUNT_TRIG : Fld := ⟨EVT_COUNT, 16, 16⟩
def EVT_COUNT_RECORDS : Fld := ⟨EVT_COUNT, 0, 16⟩
/-- EVT_LOST (0x1606), Table 08-10c. -/
def EVT_LOST : Nat := 0x1606
def EVT_LOST_TRIG : Fld := ⟨EVT_LOST, 16, 16⟩
def EVT_LOST_RECORDS : Fld := ⟨EVT_LOST, 0, 16⟩
/-- EVT_OCCUPANCY (0x1607), Table 08-10c. -/
def EVT_OCCUPANCY : Nat := 0x1607
def EVT_OCCUPANCY_BACKLOG : Fld := ⟨EVT_OCCUPANCY, 16, 16⟩
def EVT_OCCUPANCY_QUEUE : Fld := ⟨EVT_OCCUPANCY, 0, 13⟩
/-- EVT_STATUS (0x1608), Table 08-10d. -/
def EVT_STATUS : Nat := 0x1608
def EVT_STATUS_QFULL : Fld := ⟨EVT_STATUS, 31, 1⟩
def EVT_STATUS_REFUSED : Fld := ⟨EVT_STATUS, 30, 1⟩
def EVT_STATUS_HORIZON : Fld := ⟨EVT_STATUS, 29, 1⟩
def EVT_STATUS_LAST_REFUSE : Fld := ⟨EVT_STATUS, 24, 3⟩
def EVT_STATUS_LAST_TRIG_PM : Fld := ⟨EVT_STATUS, 0, 24⟩
/-- HKx_SEQ[n] (HKx base + 0x10 + n), Table 09-2. -/
def HKx_SEQ (b : Nat) (n : Nat) : Nat := b + 0x10 + n
def HKx_SEQ_FWD (b : Nat) (n : Nat) : Fld := ⟨HKx_SEQ b n, 31, 1⟩
def HKx_SEQ_DISCARD (b : Nat) (n : Nat) : Fld := ⟨HKx_SEQ b n, 29, 2⟩
def HKx_SEQ_EXC (b : Nat) (n : Nat) : Fld := ⟨HKx_SEQ b n, 27, 2⟩
def HKx_SEQ_TIME (b : Nat) (n : Nat) : Fld := ⟨HKx_SEQ b n, 24, 3⟩
def HKx_SEQ_NM1 (b : Nat) (n : Nat) : Fld := ⟨HKx_SEQ b n, 16, 8⟩
def HKx_SEQ_SHIFT (b : Nat) (n : Nat) : Fld := ⟨HKx_SEQ b n, 12, 4⟩
def HKx_SEQ_GAIN (b : Nat) (n : Nat) : Fld := ⟨HKx_SEQ b n, 8, 3⟩
def HKx_SEQ_INPUT (b : Nat) (n : Nat) : Fld := ⟨HKx_SEQ b n, 0, 6⟩
/-- HKx_DATA (HKx base + 0x03), Table 09-4. -/
def HKx_DATA (b : Nat) : Nat := b + 0x03
def HKx_DATA_NEW (b : Nat) : Fld := ⟨HKx_DATA b, 31, 1⟩
def HKx_DATA_CHECK (b : Nat) : Fld := ⟨HKx_DATA b, 30, 1⟩
def HKx_DATA_REF_NS (b : Nat) : Fld := ⟨HKx_DATA b, 29, 1⟩
def HKx_DATA_OVR (b : Nat) : Fld := ⟨HKx_DATA b, 28, 1⟩
def HKx_DATA_ENTRY (b : Nat) : Fld := ⟨HKx_DATA b, 24, 4⟩
def HKx_DATA_RESULT (b : Nat) : Fld := ⟨HKx_DATA b, 0, 24⟩
/-- HKx_CTRL (+0x00), Table 09-8. -/
def HKx_CTRL (b : Nat) : Nat := b + 0x00
def HKx_CTRL_ACTIVITY (b : Nat) : Fld := ⟨HKx_CTRL b, 4, 3⟩
def HKx_CTRL_RESTART (b : Nat) : Fld := ⟨HKx_CTRL b, 2, 1⟩
def HKx_CTRL_RUN (b : Nat) : Fld := ⟨HKx_CTRL b, 0, 1⟩
/-- HKx_STATUS (+0x01), Table 09-9. -/
def HKx_STATUS (b : Nat) : Nat := b + 0x01
def HKx_STATUS_OVERRUN (b : Nat) : Fld := ⟨HKx_STATUS b, 31, 1⟩
def HKx_STATUS_URG_REJECT (b : Nat) : Fld := ⟨HKx_STATUS b, 30, 1⟩
def HKx_STATUS_URG_PENDING (b : Nat) : Fld := ⟨HKx_STATUS b, 29, 1⟩
def HKx_STATUS_LAST_URGENT (b : Nat) : Fld := ⟨HKx_STATUS b, 28, 1⟩
def HKx_STATUS_CUR_ENTRY (b : Nat) : Fld := ⟨HKx_STATUS b, 24, 4⟩
def HKx_STATUS_STAMP (b : Nat) : Fld := ⟨HKx_STATUS b, 0, 24⟩
/-- HKx_SEQ_LENGTH (+0x02), Table 09-10. -/
def HKx_SEQ_LENGTH (b : Nat) : Nat := b + 0x02
def HKx_SEQ_LENGTH_PASS_COUNT (b : Nat) : Fld := ⟨HKx_SEQ_LENGTH b, 16, 16⟩
def HKx_SEQ_LENGTH_SEQ_REJECT (b : Nat) : Fld := ⟨HKx_SEQ_LENGTH b, 15, 1⟩
def HKx_SEQ_LENGTH_LENGTH (b : Nat) : Fld := ⟨HKx_SEQ_LENGTH b, 0, 5⟩
/-- HKx_OVERRUN_COUNT (+0x04), Table 09-10. -/
def HKx_OVERRUN_COUNT (b : Nat) : Nat := b + 0x04
def HKx_OVERRUN_COUNT_ABANDON (b : Nat) : Fld := ⟨HKx_OVERRUN_COUNT b, 16, 16⟩
def HKx_OVERRUN_COUNT_COUNT (b : Nat) : Fld := ⟨HKx_OVERRUN_COUNT b, 0, 16⟩
/-- HKx_URGENT (+0x05), Table 09-11. -/
def HKx_URGENT (b : Nat) : Nat := b + 0x05
def HKx_URGENT_REQ (b : Nat) : Fld := ⟨HKx_URGENT b, 31, 1⟩
def HKx_URGENT_ENTRY (b : Nat) : Fld := ⟨HKx_URGENT b, 0, 4⟩
/-- HKx_CAL_CMD (+0x06), Table 09-12. -/
def HKx_CAL_CMD (b : Nat) : Nat := b + 0x06
def HKx_CAL_CMD_START (b : Nat) : Fld := ⟨HKx_CAL_CMD b, 31, 1⟩
def HKx_CAL_CMD_CANCEL (b : Nat) : Fld := ⟨HKx_CAL_CMD b, 30, 1⟩
def HKx_CAL_CMD_GAINS (b : Nat) : Fld := ⟨HKx_CAL_CMD b, 16, 8⟩
def HKx_CAL_CMD_TOL (b : Nat) : Fld := ⟨HKx_CAL_CMD b, 0, 16⟩
/-- HKx_CAL_STATUS (+0x07), Table 09-13. -/
def HKx_CAL_STATUS (b : Nat) : Nat := b + 0x07
def HKx_CAL_STATUS_BUSY (b : Nat) : Fld := ⟨HKx_CAL_STATUS b, 31, 1⟩
def HKx_CAL_STATUS_CUR_GAIN (b : Nat) : Fld := ⟨HKx_CAL_STATUS b, 28, 3⟩
def HKx_CAL_STATUS_LAST_RESULT (b : Nat) : Fld := ⟨HKx_CAL_STATUS b, 24, 4⟩
def HKx_CAL_STATUS_DONE (b : Nat) : Fld := ⟨HKx_CAL_STATUS b, 16, 8⟩
def HKx_CAL_STATUS_FAIL (b : Nat) : Fld := ⟨HKx_CAL_STATUS b, 8, 8⟩
def HKx_CAL_STATUS_COUNT (b : Nat) : Fld := ⟨HKx_CAL_STATUS b, 0, 8⟩
/-- HKx_CAL_OFS[g] (+0x20 + g), Table 09-14. -/
def HKx_CAL_OFS (b : Nat) (g : Nat) : Nat := b + 0x20 + g % 8
def HKx_CAL_OFS_OFS (b : Nat) (g : Nat) : Fld := ⟨HKx_CAL_OFS b g, 0, 24⟩
/-- HKx_CAL_GAIN[g] (+0x28 + g), Table 09-14. -/
def HKx_CAL_GAIN (b : Nat) (g : Nat) : Nat := b + 0x28 + g % 8
def HKx_CAL_GAIN_GAINF (b : Nat) (g : Nat) : Fld := ⟨HKx_CAL_GAIN b g, 0, 24⟩
/-- HKS_REFBUF (0x1900), Table 09-15. -/
def HKS_REFBUF : Nat := 0x1900
def HKS_REFBUF_WAIT : Fld := ⟨HKS_REFBUF, 16, 11⟩
def HKS_REFBUF_EN : Fld := ⟨HKS_REFBUF, 0, 1⟩
/-- HKS_REFBUF_STATUS (0x1901), Table 09-15. -/
def HKS_REFBUF_STATUS : Nat := 0x1901
def HKS_REFBUF_STATUS_READY : Fld := ⟨HKS_REFBUF_STATUS, 31, 1⟩
def HKS_REFBUF_STATUS_ON : Fld := ⟨HKS_REFBUF_STATUS, 30, 1⟩
def HKS_REFBUF_STATUS_ELAPSED : Fld := ⟨HKS_REFBUF_STATUS, 0, 16⟩
/-- HKS_EXC_CTRL (0x1902), Table 09-16. -/
def HKS_EXC_CTRL : Nat := 0x1902
def HKS_EXC_CTRL_EN : Fld := ⟨HKS_EXC_CTRL, 31, 1⟩
def HKS_EXC_CTRL_OWNER : Fld := ⟨HKS_EXC_CTRL, 30, 1⟩
def HKS_EXC_CTRL_LEVEL : Fld := ⟨HKS_EXC_CTRL, 0, 9⟩
/-- HKS_EXC_STATUS (0x1903), Table 09-16. -/
def HKS_EXC_STATUS : Nat := 0x1903
def HKS_EXC_STATUS_OVERLOAD : Fld := ⟨HKS_EXC_STATUS, 31, 1⟩
def HKS_EXC_STATUS_OVL_LIVE : Fld := ⟨HKS_EXC_STATUS, 30, 1⟩
def HKS_EXC_STATUS_POLARITY : Fld := ⟨HKS_EXC_STATUS, 28, 2⟩
def HKS_EXC_STATUS_CTRL_REJECT : Fld := ⟨HKS_EXC_STATUS, 27, 1⟩
def HKS_EXC_STATUS_OVL_COUNT : Fld := ⟨HKS_EXC_STATUS, 0, 8⟩
/-- HKS_CHECK_CTRL (0x1904), Table 09-17. -/
def HKS_CHECK_CTRL : Nat := 0x1904
def HKS_CHECK_CTRL_EN : Fld := ⟨HKS_CHECK_CTRL, 31, 1⟩
def HKS_CHECK_CTRL_TIME : Fld := ⟨HKS_CHECK_CTRL, 24, 3⟩
def HKS_CHECK_CTRL_TOL : Fld := ⟨HKS_CHECK_CTRL, 0, 24⟩
/-- HKS_CHECK_STATUS (0x1905), Table 09-17. -/
def HKS_CHECK_STATUS : Nat := 0x1905
def HKS_CHECK_STATUS_MISMATCH : Fld := ⟨HKS_CHECK_STATUS, 31, 1⟩
def HKS_CHECK_STATUS_FLAG_A : Fld := ⟨HKS_CHECK_STATUS, 30, 1⟩
def HKS_CHECK_STATUS_FLAG_B : Fld := ⟨HKS_CHECK_STATUS, 29, 1⟩
def HKS_CHECK_STATUS_VALID : Fld := ⟨HKS_CHECK_STATUS, 28, 1⟩
def HKS_CHECK_STATUS_MISMATCH_COUNT : Fld := ⟨HKS_CHECK_STATUS, 0, 16⟩
/-- HKS_CHECK_DIFF (0x1906), Table 09-17. -/
def HKS_CHECK_DIFF : Nat := 0x1906
def HKS_CHECK_DIFF_DIFF : Fld := ⟨HKS_CHECK_DIFF, 0, 24⟩
/-- HKS_REDUNDANT_SEL (0x1907), Table 09-18. -/
def HKS_REDUNDANT_SEL : Nat := 0x1907
def HKS_REDUNDANT_SEL_SUBST_B : Fld := ⟨HKS_REDUNDANT_SEL, 1, 1⟩
def HKS_REDUNDANT_SEL_SUBST_A : Fld := ⟨HKS_REDUNDANT_SEL, 0, 1⟩
/-- CAL_CTRL (0x1A00), Table 10-8. -/
def CAL_CTRL : Nat := 0x1A00
def CAL_CTRL_EN : Fld := ⟨CAL_CTRL, 31, 1⟩
def CAL_CTRL_VERDICT_EN : Fld := ⟨CAL_CTRL, 30, 1⟩
def CAL_CTRL_TRACE_EN : Fld := ⟨CAL_CTRL, 29, 1⟩
def CAL_CTRL_AUTO_STORE : Fld := ⟨CAL_CTRL, 28, 1⟩
def CAL_CTRL_DELTA : Fld := ⟨CAL_CTRL, 24, 4⟩
def CAL_CTRL_QUIET : Fld := ⟨CAL_CTRL, 8, 16⟩
def CAL_CTRL_K_CAL : Fld := ⟨CAL_CTRL, 0, 7⟩
/-- CAL_STATUS (0x1A01), Table 10-9. -/
def CAL_STATUS : Nat := 0x1A01
def CAL_STATUS_STEP_BUSY : Fld := ⟨CAL_STATUS, 31, 1⟩
def CAL_STATUS_CHECK_BUSY : Fld := ⟨CAL_STATUS, 30, 1⟩
def CAL_STATUS_CHECK_PENDING : Fld := ⟨CAL_STATUS, 29, 1⟩
def CAL_STATUS_VERDICT : Fld := ⟨CAL_STATUS, 26, 3⟩
def CAL_STATUS_MISALIGNED : Fld := ⟨CAL_STATUS, 25, 1⟩
def CAL_STATUS_COLUMN : Fld := ⟨CAL_STATUS, 20, 5⟩
def CAL_STATUS_OUTCOME : Fld := ⟨CAL_STATUS, 17, 3⟩
def CAL_STATUS_PENDING : Fld := ⟨CAL_STATUS, 16, 1⟩
def CAL_STATUS_APPLIED : Fld := ⟨CAL_STATUS, 8, 8⟩
def CAL_STATUS_STEPS : Fld := ⟨CAL_STATUS, 0, 8⟩
/-- CAL_REPEAT_TOL (0x1A02), Table 10-10. -/
def CAL_REPEAT_TOL : Nat := 0x1A02
def CAL_REPEAT_TOL_OFS_TOL : Fld := ⟨CAL_REPEAT_TOL, 24, 8⟩
def CAL_REPEAT_TOL_GAIN_TOL : Fld := ⟨CAL_REPEAT_TOL, 12, 12⟩
def CAL_REPEAT_TOL_PHASE_TOL : Fld := ⟨CAL_REPEAT_TOL, 0, 12⟩
/-- CAL_LIMIT_GAIN (0x1A03), Table 10-11. -/
def CAL_LIMIT_GAIN : Nat := 0x1A03
def CAL_LIMIT_GAIN_LIMIT : Fld := ⟨CAL_LIMIT_GAIN, 0, 16⟩
/-- CAL_LIMIT_PHASE (0x1A04), Table 10-11. -/
def CAL_LIMIT_PHASE : Nat := 0x1A04
def CAL_LIMIT_PHASE_LIMIT : Fld := ⟨CAL_LIMIT_PHASE, 0, 16⟩
/-- CAL_LIMIT_OFFSET (0x1A05), Table 10-11. -/
def CAL_LIMIT_OFFSET : Nat := 0x1A05
def CAL_LIMIT_OFFSET_LIMIT : Fld := ⟨CAL_LIMIT_OFFSET, 0, 10⟩
/-- CAL_DEFER_LIMIT (0x1A06), Table 10-12. -/
def CAL_DEFER_LIMIT : Nat := 0x1A06
def CAL_DEFER_LIMIT_LIMIT : Fld := ⟨CAL_DEFER_LIMIT, 0, 8⟩
/-- CAL_DEFER_COUNT (0x1A07), Table 10-12. -/
def CAL_DEFER_COUNT : Nat := 0x1A07
def CAL_DEFER_COUNT_MAX : Fld := ⟨CAL_DEFER_COUNT, 24, 8⟩
def CAL_DEFER_COUNT_MAX_COL : Fld := ⟨CAL_DEFER_COUNT, 16, 5⟩
def CAL_DEFER_COUNT_TOTAL : Fld := ⟨CAL_DEFER_COUNT, 0, 16⟩
/-- CAL_LAST_POSTMARK_LO (0x1A08), Table 10-13. -/
def CAL_LAST_POSTMARK_LO : Nat := 0x1A08
def CAL_LAST_POSTMARK_LO_PM_LO : Fld := ⟨CAL_LAST_POSTMARK_LO, 0, 32⟩
/-- CAL_LAST_POSTMARK_HI (0x1A09), Table 10-13. -/
def CAL_LAST_POSTMARK_HI : Nat := 0x1A09
def CAL_LAST_POSTMARK_HI_PM_HI : Fld := ⟨CAL_LAST_POSTMARK_HI, 0, 16⟩
/-- CAL_TRACE_STATUS (0x1A0A), Table 10-14. -/
def CAL_TRACE_STATUS : Nat := 0x1A0A
def CAL_TRACE_STATUS_TRACE_OK : Fld := ⟨CAL_TRACE_STATUS, 31, 1⟩
def CAL_TRACE_STATUS_RUNNING : Fld := ⟨CAL_TRACE_STATUS, 30, 1⟩
def CAL_TRACE_STATUS_FAIL : Fld := ⟨CAL_TRACE_STATUS, 29, 1⟩
def CAL_TRACE_STATUS_REASON : Fld := ⟨CAL_TRACE_STATUS, 26, 3⟩
def CAL_TRACE_STATUS_UNTRACED : Fld := ⟨CAL_TRACE_STATUS, 25, 1⟩
def CAL_TRACE_STATUS_R_MEAS : Fld := ⟨CAL_TRACE_STATUS, 0, 24⟩
/-- _CTRL (+0x00), Table 11-13. -/
def ENG_CTRL (b : Nat) : Nat := b + 0x00
def ENG_CTRL_RESUME (b : Nat) : Fld := ⟨ENG_CTRL b, 3, 1⟩
def ENG_CTRL_STEP (b : Nat) : Fld := ⟨ENG_CTRL b, 2, 1⟩
def ENG_CTRL_RUN (b : Nat) : Fld := ⟨ENG_CTRL b, 0, 1⟩
/-- _STATUS (+0x01), Table 11-14. -/
def ENG_STATUS (b : Nat) : Nat := b + 0x01
def ENG_STATUS_STAGE_OVF (b : Nat) : Fld := ⟨ENG_STATUS b, 31, 1⟩
def ENG_STATUS_STENCIL_OVF (b : Nat) : Fld := ⟨ENG_STATUS b, 30, 1⟩
def ENG_STATUS_STORE_PROT (b : Nat) : Fld := ⟨ENG_STATUS b, 29, 1⟩
def ENG_STATUS_REQ_REJECT (b : Nat) : Fld := ⟨ENG_STATUS b, 28, 1⟩
def ENG_STATUS_LAUNCH_REJECT (b : Nat) : Fld := ⟨ENG_STATUS b, 27, 1⟩
def ENG_STATUS_GUARD (b : Nat) : Fld := ⟨ENG_STATUS b, 26, 1⟩
def ENG_STATUS_WIN_REJECT (b : Nat) : Fld := ⟨ENG_STATUS b, 25, 1⟩
def ENG_STATUS_FLAGS (b : Nat) : Fld := ⟨ENG_STATUS b, 16, 4⟩
def ENG_STATUS_TO (b : Nat) : Fld := ⟨ENG_STATUS b, 15, 1⟩
def ENG_STATUS_SERVICE_BUSY (b : Nat) : Fld := ⟨ENG_STATUS b, 14, 1⟩
def ENG_STATUS_STATE (b : Nat) : Fld := ⟨ENG_STATUS b, 8, 3⟩
def ENG_STATUS_ROUTINE (b : Nat) : Fld := ⟨ENG_STATUS b, 0, 6⟩
/-- _PC (+0x02), Table 11-15. -/
def ENG_PC (b : Nat) : Nat := b + 0x02
def ENG_PC_SERVICE_PC (b : Nat) : Fld := ⟨ENG_PC b, 16, 12⟩
def ENG_PC_PC (b : Nat) : Fld := ⟨ENG_PC b, 0, 12⟩
/-- _WAIT_COND (+0x03), Table 11-15. -/
def ENG_WAIT_COND (b : Nat) : Nat := b + 0x03
def ENG_WAIT_COND_TIMEOUTS (b : Nat) : Fld := ⟨ENG_WAIT_COND b, 24, 8⟩
def ENG_WAIT_COND_ELAPSED (b : Nat) : Fld := ⟨ENG_WAIT_COND b, 8, 16⟩
def ENG_WAIT_COND_WAITING (b : Nat) : Fld := ⟨ENG_WAIT_COND b, 7, 1⟩
def ENG_WAIT_COND_CODE (b : Nat) : Fld := ⟨ENG_WAIT_COND b, 0, 6⟩
/-- _ROUTINE_REQ (+0x04), Table 11-16. -/
def ENG_ROUTINE_REQ (b : Nat) : Nat := b + 0x04
def ENG_ROUTINE_REQ_REQ (b : Nat) : Fld := ⟨ENG_ROUTINE_REQ b, 31, 1⟩
def ENG_ROUTINE_REQ_ROUTINE (b : Nat) : Fld := ⟨ENG_ROUTINE_REQ b, 24, 6⟩
def ENG_ROUTINE_REQ_ARG (b : Nat) : Fld := ⟨ENG_ROUTINE_REQ b, 0, 24⟩
/-- _ROUTINE_ACTIVE (+0x05), Table 11-16. -/
def ENG_ROUTINE_ACTIVE (b : Nat) : Nat := b + 0x05
def ENG_ROUTINE_ACTIVE_VALID (b : Nat) : Fld := ⟨ENG_ROUTINE_ACTIVE b, 31, 1⟩
def ENG_ROUTINE_ACTIVE_COMMITTED (b : Nat) : Fld := ⟨ENG_ROUTINE_ACTIVE b, 30, 1⟩
def ENG_ROUTINE_ACTIVE_ROUTINE (b : Nat) : Fld := ⟨ENG_ROUTINE_ACTIVE b, 24, 6⟩
def ENG_ROUTINE_ACTIVE_RESTARTS (b : Nat) : Fld := ⟨ENG_ROUTINE_ACTIVE b, 16, 8⟩
def ENG_ROUTINE_ACTIVE_PENDING (b : Nat) : Fld := ⟨ENG_ROUTINE_ACTIVE b, 0, 7⟩
/-- _ABANDON_COUNT (+0x06), Table 11-17. -/
def ENG_ABANDON_COUNT (b : Nat) : Nat := b + 0x06
def ENG_ABANDON_COUNT_TOTAL (b : Nat) : Fld := ⟨ENG_ABANDON_COUNT b, 16, 16⟩
def ENG_ABANDON_COUNT_LAST_CAUSE (b : Nat) : Fld := ⟨ENG_ABANDON_COUNT b, 11, 5⟩
def ENG_ABANDON_COUNT_LAST_ROUTINE (b : Nat) : Fld := ⟨ENG_ABANDON_COUNT b, 0, 6⟩
/-- _STENCIL_DEPTH (+0x07), Table 11-17. -/
def ENG_STENCIL_DEPTH (b : Nat) : Nat := b + 0x07
def ENG_STENCIL_DEPTH_MAX (b : Nat) : Fld := ⟨ENG_STENCIL_DEPTH b, 8, 5⟩
def ENG_STENCIL_DEPTH_DEPTH (b : Nat) : Fld := ⟨ENG_STENCIL_DEPTH b, 0, 5⟩
/-- _STAGE_DEPTH (+0x08), Table 11-17. -/
def ENG_STAGE_DEPTH (b : Nat) : Nat := b + 0x08
def ENG_STAGE_DEPTH_MAX (b : Nat) : Fld := ⟨ENG_STAGE_DEPTH b, 8, 6⟩
def ENG_STAGE_DEPTH_DEPTH (b : Nat) : Fld := ⟨ENG_STAGE_DEPTH b, 0, 6⟩
/-- _WAIT_TIMEOUT (+0x09), Table 11-18. -/
def ENG_WAIT_TIMEOUT (b : Nat) : Nat := b + 0x09
def ENG_WAIT_TIMEOUT_LIMIT (b : Nat) : Fld := ⟨ENG_WAIT_TIMEOUT b, 0, 16⟩
/-- _BREAK (+0x0A), Table 11-18. -/
def ENG_BREAK (b : Nat) : Nat := b + 0x0A
def ENG_BREAK_EN (b : Nat) : Fld := ⟨ENG_BREAK b, 31, 1⟩
def ENG_BREAK_HIT (b : Nat) : Fld := ⟨ENG_BREAK b, 30, 1⟩
def ENG_BREAK_ADDR (b : Nat) : Fld := ⟨ENG_BREAK b, 0, 12⟩
/-- BAR_STATUS (0x0200), Table 12-7. -/
def BAR_STATUS : Nat := 0x0200
def BAR_STATUS_TRAINED : Fld := ⟨BAR_STATUS, 31, 1⟩
def BAR_STATUS_TRAINING : Fld := ⟨BAR_STATUS, 30, 1⟩
def BAR_STATUS_DEGRADED : Fld := ⟨BAR_STATUS, 29, 1⟩
def BAR_STATUS_ALIGN_FAIL : Fld := ⟨BAR_STATUS, 28, 1⟩
def BAR_STATUS_EPOCH : Fld := ⟨BAR_STATUS, 26, 2⟩
def BAR_STATUS_HB_MISSED : Fld := ⟨BAR_STATUS, 16, 8⟩
def BAR_STATUS_SWAPS : Fld := ⟨BAR_STATUS, 8, 8⟩
def BAR_STATUS_HB_RUN : Fld := ⟨BAR_STATUS, 0, 3⟩
/-- BAR_LANE_STATUS (0x0201), Table 12-8. -/
def BAR_LANE_STATUS : Nat := 0x0201
def BAR_LANE_STATUS_H2F_FAIL : Fld := ⟨BAR_LANE_STATUS, 16, 3⟩
def BAR_LANE_STATUS_F2H_FAIL : Fld := ⟨BAR_LANE_STATUS, 0, 13⟩
/-- BAR_LANE_MAP (0x0202), Table 12-8. -/
def BAR_LANE_MAP : Nat := 0x0202
def BAR_LANE_MAP_DEGRADE : Fld := ⟨BAR_LANE_MAP, 31, 1⟩
def BAR_LANE_MAP_F2H_SPARE_FOR : Fld := ⟨BAR_LANE_MAP, 24, 4⟩
def BAR_LANE_MAP_H2F_SPARE_FOR : Fld := ⟨BAR_LANE_MAP, 20, 2⟩
def BAR_LANE_MAP_F2H_ACTIVE : Fld := ⟨BAR_LANE_MAP, 12, 4⟩
def BAR_LANE_MAP_H2F_ACTIVE : Fld := ⟨BAR_LANE_MAP, 0, 2⟩
/-- BAR_LATENCY (0x0203), Table 12-9. -/
def BAR_LATENCY : Nat := 0x0203
def BAR_LATENCY_SKEW_F2H : Fld := ⟨BAR_LATENCY, 16, 8⟩
def BAR_LATENCY_SKEW_H2F : Fld := ⟨BAR_LATENCY, 8, 8⟩
def BAR_LATENCY_LATENCY : Fld := ⟨BAR_LATENCY, 0, 8⟩
/-- BAR_FRANK_ERRORS (0x0204), Table 12-9. -/
def BAR_FRANK_ERRORS : Nat := 0x0204
def BAR_FRANK_ERRORS_ENVELOPES : Fld := ⟨BAR_FRANK_ERRORS, 16, 16⟩
def BAR_FRANK_ERRORS_CHARACTERS : Fld := ⟨BAR_FRANK_ERRORS, 0, 16⟩
/-- BAR_UNDEFINED_COUNT (0x0205), Table 12-9. -/
def BAR_UNDEFINED_COUNT : Nat := 0x0205
def BAR_UNDEFINED_COUNT_STALE : Fld := ⟨BAR_UNDEFINED_COUNT, 16, 16⟩
def BAR_UNDEFINED_COUNT_UNDEFINED : Fld := ⟨BAR_UNDEFINED_COUNT, 0, 16⟩
/-- BAR_TRAIN (0x0206), Table 12-10. -/
def BAR_TRAIN : Nat := 0x0206
def BAR_TRAIN_RETRAIN : Fld := ⟨BAR_TRAIN, 31, 1⟩
def BAR_TRAIN_REJECT : Fld := ⟨BAR_TRAIN, 30, 1⟩
def BAR_TRAIN_PHASE : Fld := ⟨BAR_TRAIN, 27, 3⟩
def BAR_TRAIN_ATTEMPTS : Fld := ⟨BAR_TRAIN, 24, 3⟩
def BAR_TRAIN_DURATION : Fld := ⟨BAR_TRAIN, 0, 16⟩
/-- BAR_DRAPE_STATE (0x0207), Table 12-10. -/
def BAR_DRAPE_STATE : Nat := 0x0207
def BAR_DRAPE_STATE_PIN : Fld := ⟨BAR_DRAPE_STATE, 3, 1⟩
def BAR_DRAPE_STATE_CMD : Fld := ⟨BAR_DRAPE_STATE, 2, 1⟩
def BAR_DRAPE_STATE_SAFE : Fld := ⟨BAR_DRAPE_STATE, 1, 1⟩
def BAR_DRAPE_STATE_SENT : Fld := ⟨BAR_DRAPE_STATE, 0, 1⟩
/-- FBA_STATUS (0x1C00), Table 12-11. -/
def FBA_STATUS : Nat := 0x1C00
def FBA_STATUS_TRAINED : Fld := ⟨FBA_STATUS, 31, 1⟩
def FBA_STATUS_ALIGNED : Fld := ⟨FBA_STATUS, 30, 1⟩
def FBA_STATUS_EPOCH : Fld := ⟨FBA_STATUS, 28, 2⟩
def FBA_STATUS_DRAPE_OK : Fld := ⟨FBA_STATUS, 27, 1⟩
def FBA_STATUS_DRAPE_RX : Fld := ⟨FBA_STATUS, 26, 1⟩
def FBA_STATUS_STALE : Fld := ⟨FBA_STATUS, 16, 8⟩
def FBA_STATUS_INVALID_DRAPE : Fld := ⟨FBA_STATUS, 8, 8⟩
def FBA_STATUS_HB_SENT : Fld := ⟨FBA_STATUS, 0, 8⟩
/-- FBA_LANE_STATUS (0x1C01), Table 12-11. -/
def FBA_LANE_STATUS : Nat := 0x1C01
def FBA_LANE_STATUS_H2F_FAIL : Fld := ⟨FBA_LANE_STATUS, 16, 3⟩
def FBA_LANE_STATUS_F2H_SPARE_FOR : Fld := ⟨FBA_LANE_STATUS, 12, 4⟩
def FBA_LANE_STATUS_H2F_SPARE_FOR : Fld := ⟨FBA_LANE_STATUS, 8, 2⟩
/-- FBA_FRANK_ERRORS (0x1C02), Table 12-12. -/
def FBA_FRANK_ERRORS : Nat := 0x1C02
def FBA_FRANK_ERRORS_ENVELOPES : Fld := ⟨FBA_FRANK_ERRORS, 16, 16⟩
def FBA_FRANK_ERRORS_CHARACTERS : Fld := ⟨FBA_FRANK_ERRORS, 0, 16⟩
/-- FBA_UNDEFINED_COUNT (0x1C03), Table 12-12. -/
def FBA_UNDEFINED_COUNT : Nat := 0x1C03
def FBA_UNDEFINED_COUNT_UNDEFINED : Fld := ⟨FBA_UNDEFINED_COUNT, 0, 16⟩
/-- LNK_CTRL (0x0300), Table 13-11. -/
def LNK_CTRL : Nat := 0x0300
def LNK_CTRL_SC_EN : Fld := ⟨LNK_CTRL, 8, 1⟩
def LNK_CTRL_AUTO_SWITCH : Fld := ⟨LNK_CTRL, 0, 1⟩
/-- LNK_NODE_ADDRESS (0x0317), Table 13-11. -/
def LNK_NODE_ADDRESS : Nat := 0x0317
def LNK_NODE_ADDRESS_NODE : Fld := ⟨LNK_NODE_ADDRESS, 0, 8⟩
/-- LNK_DOWN_STATUS (0x0301), Table 13-12. -/
def LNK_DOWN_STATUS : Nat := 0x0301
def LNK_DOWN_STATUS_BLOCK_LOCK : Fld := ⟨LNK_DOWN_STATUS, 31, 1⟩
def LNK_DOWN_STATUS_BAD_WINDOW : Fld := ⟨LNK_DOWN_STATUS, 16, 8⟩
/-- LNK_DOWN_ERRORS (0x0303), Table 13-12. -/
def LNK_DOWN_ERRORS : Nat := 0x0303
def LNK_DOWN_ERRORS_DISCARDED : Fld := ⟨LNK_DOWN_ERRORS, 16, 16⟩
def LNK_DOWN_ERRORS_SYNC : Fld := ⟨LNK_DOWN_ERRORS, 0, 16⟩
/-- LNK_DOWN_EYE (0x0302), Table 13-13. -/
def LNK_DOWN_EYE : Nat := 0x0302
def LNK_DOWN_EYE_VALID : Fld := ⟨LNK_DOWN_EYE, 31, 1⟩
def LNK_DOWN_EYE_WIDTH : Fld := ⟨LNK_DOWN_EYE, 16, 8⟩
def LNK_DOWN_EYE_HEIGHT : Fld := ⟨LNK_DOWN_EYE, 0, 12⟩
/-- LNK_PORT_EYE[p] (0x030C + p), Table 13-13. -/
def LNK_PORT_EYE (p : Nat) : Nat := 0x030C + p % 4
def LNK_PORT_EYE_VALID (p : Nat) : Fld := ⟨LNK_PORT_EYE p, 31, 1⟩
def LNK_PORT_EYE_WIDTH (p : Nat) : Fld := ⟨LNK_PORT_EYE p, 16, 8⟩
def LNK_PORT_EYE_HEIGHT (p : Nat) : Fld := ⟨LNK_PORT_EYE p, 0, 12⟩
/-- LNK_PORT_CFG[p] (0x0304 + p), Table 13-14. -/
def LNK_PORT_CFG (p : Nat) : Nat := 0x0304 + p % 4
def LNK_PORT_CFG_ROLE (p : Nat) : Fld := ⟨LNK_PORT_CFG p, 30, 2⟩
def LNK_PORT_CFG_FORCE_FAIL (p : Nat) : Fld := ⟨LNK_PORT_CFG p, 29, 1⟩
def LNK_PORT_CFG_READMIT (p : Nat) : Fld := ⟨LNK_PORT_CFG p, 28, 1⟩
def LNK_PORT_CFG_REJECT (p : Nat) : Fld := ⟨LNK_PORT_CFG p, 27, 1⟩
def LNK_PORT_CFG_FWD (p : Nat) : Fld := ⟨LNK_PORT_CFG p, 24, 2⟩
def LNK_PORT_CFG_EXPECT_NODE (p : Nat) : Fld := ⟨LNK_PORT_CFG p, 16, 8⟩
/-- LNK_PORT_STATUS[p] (0x0308 + p), Table 13-15. -/
def LNK_PORT_STATUS (p : Nat) : Nat := 0x0308 + p % 4
def LNK_PORT_STATUS_FAILED (p : Nat) : Fld := ⟨LNK_PORT_STATUS p, 31, 1⟩
def LNK_PORT_STATUS_RETIRED (p : Nat) : Fld := ⟨LNK_PORT_STATUS p, 30, 1⟩
def LNK_PORT_STATUS_RETIRED_EPOCH (p : Nat) : Fld := ⟨LNK_PORT_STATUS p, 28, 2⟩
def LNK_PORT_STATUS_LOCK (p : Nat) : Fld := ⟨LNK_PORT_STATUS p, 27, 1⟩
def LNK_PORT_STATUS_COVER_OK (p : Nat) : Fld := ⟨LNK_PORT_STATUS p, 26, 1⟩
def LNK_PORT_STATUS_PEER_EPOCH (p : Nat) : Fld := ⟨LNK_PORT_STATUS p, 24, 2⟩
def LNK_PORT_STATUS_PEER_NODE (p : Nat) : Fld := ⟨LNK_PORT_STATUS p, 16, 8⟩
def LNK_PORT_STATUS_ARRIVAL (p : Nat) : Fld := ⟨LNK_PORT_STATUS p, 8, 8⟩
def LNK_PORT_STATUS_ERRORS (p : Nat) : Fld := ⟨LNK_PORT_STATUS p, 0, 8⟩
/-- LNK_SCHED_SEL (0x0310), Table 13-16. -/
def LNK_SCHED_SEL : Nat := 0x0310
def LNK_SCHED_SEL_PENDING : Fld := ⟨LNK_SCHED_SEL, 31, 1⟩
def LNK_SCHED_SEL_LAST_STATUS : Fld := ⟨LNK_SCHED_SEL, 28, 3⟩
def LNK_SCHED_SEL_DOUBLE : Fld := ⟨LNK_SCHED_SEL, 27, 1⟩
def LNK_SCHED_SEL_WIN_REJECT : Fld := ⟨LNK_SCHED_SEL, 26, 1⟩
def LNK_SCHED_SEL_AUTO : Fld := ⟨LNK_SCHED_SEL, 25, 1⟩
def LNK_SCHED_SEL_ACTIVE : Fld := ⟨LNK_SCHED_SEL, 24, 1⟩
def LNK_SCHED_SEL_SWITCHES : Fld := ⟨LNK_SCHED_SEL, 16, 8⟩
def LNK_SCHED_SEL_CHECK : Fld := ⟨LNK_SCHED_SEL, 12, 4⟩
def LNK_SCHED_SEL_CHECK_ENTRY : Fld := ⟨LNK_SCHED_SEL, 0, 8⟩
/-- LNK_SCHED_LAUNCH_LO (0x0311), Table 13-17. -/
def LNK_SCHED_LAUNCH_LO : Nat := 0x0311
def LNK_SCHED_LAUNCH_LO_LAUNCH_LO : Fld := ⟨LNK_SCHED_LAUNCH_LO, 0, 32⟩
/-- LNK_SCHED_LAUNCH_HI (0x0312), Table 13-17. -/
def LNK_SCHED_LAUNCH_HI : Nat := 0x0312
def LNK_SCHED_LAUNCH_HI_LAUNCH_HI : Fld := ⟨LNK_SCHED_LAUNCH_HI, 0, 16⟩
/-- LNK_EPOCH (0x0313), Table 13-18. -/
def LNK_EPOCH : Nat := 0x0313
def LNK_EPOCH_SET : Fld := ⟨LNK_EPOCH, 31, 1⟩
def LNK_EPOCH_ADVANCES : Fld := ⟨LNK_EPOCH, 16, 8⟩
def LNK_EPOCH_EPOCH : Fld := ⟨LNK_EPOCH, 0, 2⟩
/-- LNK_DEADLETTER_COUNT (0x0314), Table 13-18. -/
def LNK_DEADLETTER_COUNT : Nat := 0x0314
def LNK_DEADLETTER_COUNT_PARCELS : Fld := ⟨LNK_DEADLETTER_COUNT, 16, 16⟩
def LNK_DEADLETTER_COUNT_ENVELOPES : Fld := ⟨LNK_DEADLETTER_COUNT, 6, 10⟩
def LNK_DEADLETTER_COUNT_NEXT : Fld := ⟨LNK_DEADLETTER_COUNT, 0, 6⟩
/-- LNK_PEER_STATE (0x0315), Table 13-19. -/
def LNK_PEER_STATE : Nat := 0x0315
def LNK_PEER_STATE_ACCEPTING (p : Nat) : Fld := ⟨LNK_PEER_STATE, 8 * p + 7, 1⟩
def LNK_PEER_STATE_LAST_REASON (p : Nat) : Fld := ⟨LNK_PEER_STATE, 8 * p + 4, 3⟩
def LNK_PEER_STATE_REFUSED_RUN (p : Nat) : Fld := ⟨LNK_PEER_STATE, 8 * p + 0, 4⟩
/-- LNK_SLOWCTL_STATUS (0x0316), Table 13-20. -/
def LNK_SLOWCTL_STATUS : Nat := 0x0316
def LNK_SLOWCTL_STATUS_SERVED : Fld := ⟨LNK_SLOWCTL_STATUS, 16, 16⟩
def LNK_SLOWCTL_STATUS_DROPPED : Fld := ⟨LNK_SLOWCTL_STATUS, 8, 8⟩
def LNK_SLOWCTL_STATUS_LAST_STATUS : Fld := ⟨LNK_SLOWCTL_STATUS, 4, 4⟩
def LNK_SLOWCTL_STATUS_LAST_TAG : Fld := ⟨LNK_SLOWCTL_STATUS, 0, 4⟩
/-- MGT_STATUS (0x0400), Table 14-5. -/
def MGT_STATUS : Nat := 0x0400
def MGT_STATUS_NOCLK : Fld := ⟨MGT_STATUS, 31, 1⟩
def MGT_STATUS_CLK : Fld := ⟨MGT_STATUS, 30, 1⟩
def MGT_STATUS_TIMEOUT : Fld := ⟨MGT_STATUS, 29, 1⟩
def MGT_STATUS_NOBAR : Fld := ⟨MGT_STATUS, 28, 1⟩
def MGT_STATUS_UNPAIRED : Fld := ⟨MGT_STATUS, 27, 1⟩
def MGT_STATUS_UNPAIRED_WR : Fld := ⟨MGT_STATUS, 26, 1⟩
def MGT_STATUS_OVERFLOW : Fld := ⟨MGT_STATUS, 25, 1⟩
def MGT_STATUS_BAD_CMD : Fld := ⟨MGT_STATUS, 24, 1⟩
def MGT_STATUS_FRAME : Fld := ⟨MGT_STATUS, 23, 1⟩
def MGT_STATUS_BLOCKED : Fld := ⟨MGT_STATUS, 22, 1⟩
def MGT_STATUS_HOLD_VALID : Fld := ⟨MGT_STATUS, 21, 1⟩
def MGT_STATUS_BUF_OCC : Fld := ⟨MGT_STATUS, 16, 5⟩
def MGT_STATUS_TRANSACTIONS : Fld := ⟨MGT_STATUS, 0, 16⟩
/-- MGT_CTRL (0x0401), Table 14-6. -/
def MGT_CTRL : Nat := 0x0401
def MGT_CTRL_NOCLK_CYCLES : Fld := ⟨MGT_CTRL, 16, 8⟩
def MGT_CTRL_WR_EN : Fld := ⟨MGT_CTRL, 0, 1⟩
/-- MGT_PAIR_HOLD (0x0402), Table 14-6. -/
def MGT_PAIR_HOLD : Nat := 0x0402
def MGT_PAIR_HOLD_INDEX : Fld := ⟨MGT_PAIR_HOLD, 16, 16⟩
def MGT_PAIR_HOLD_HIGH : Fld := ⟨MGT_PAIR_HOLD, 0, 16⟩
/-- MGT_TIMEOUT_COUNT (0x0403), Table 14-7. -/
def MGT_TIMEOUT_COUNT : Nat := 0x0403
def MGT_TIMEOUT_COUNT_NOCLK : Fld := ⟨MGT_TIMEOUT_COUNT, 16, 16⟩
def MGT_TIMEOUT_COUNT_REPLY : Fld := ⟨MGT_TIMEOUT_COUNT, 0, 16⟩
/-- MGT_BULK_ADDR (0x0404), Table 14-8. -/
def MGT_BULK_ADDR : Nat := 0x0404
def MGT_BULK_ADDR_ADDR : Fld := ⟨MGT_BULK_ADDR, 0, 24⟩
/-- MGT_BULK_DATA (0x0405), Table 14-8. -/
def MGT_BULK_DATA : Nat := 0x0405
def MGT_BULK_DATA_DATA : Fld := ⟨MGT_BULK_DATA, 0, 32⟩
/-- MGT_BULK_SPACE (0x0406), Table 14-8. -/
def MGT_BULK_SPACE : Nat := 0x0406
def MGT_BULK_SPACE_BUSY : Fld := ⟨MGT_BULK_SPACE, 31, 1⟩
def MGT_BULK_SPACE_REJECT : Fld := ⟨MGT_BULK_SPACE, 30, 1⟩
def MGT_BULK_SPACE_INC : Fld := ⟨MGT_BULK_SPACE, 4, 1⟩
def MGT_BULK_SPACE_SPACE : Fld := ⟨MGT_BULK_SPACE, 0, 2⟩
/-- GLB_STATE (0x0002), Table 15-13. -/
def GLB_STATE : Nat := 0x0002
def GLB_STATE_DEGRADED : Fld := ⟨GLB_STATE, 16, 1⟩
def GLB_STATE_SAFE_CAUSE : Fld := ⟨GLB_STATE, 8, 4⟩
def GLB_STATE_STATE : Fld := ⟨GLB_STATE, 0, 3⟩
/-- GLB_COMMAND (0x0005), Table 15-13. -/
def GLB_COMMAND : Nat := 0x0005
def GLB_COMMAND_KEY : Fld := ⟨GLB_COMMAND, 24, 8⟩
def GLB_COMMAND_LAST : Fld := ⟨GLB_COMMAND, 16, 4⟩
def GLB_COMMAND_STATUS : Fld := ⟨GLB_COMMAND, 12, 4⟩
def GLB_COMMAND_CMD : Fld := ⟨GLB_COMMAND, 0, 4⟩
/-- GLB_BIST_RESULT (0x0003), Table 15-14. -/
def GLB_BIST_RESULT : Nat := 0x0003
def GLB_BIST_RESULT_DONE : Fld := ⟨GLB_BIST_RESULT, 31, 1⟩
def GLB_BIST_RESULT_PASS : Fld := ⟨GLB_BIST_RESULT, 30, 1⟩
def GLB_BIST_RESULT_DEGRADED : Fld := ⟨GLB_BIST_RESULT, 29, 1⟩
def GLB_BIST_RESULT_ELIGIBLE : Fld := ⟨GLB_BIST_RESULT, 28, 1⟩
def GLB_BIST_RESULT_COUNT : Fld := ⟨GLB_BIST_RESULT, 21, 6⟩
def GLB_BIST_RESULT_FAILED : Fld := ⟨GLB_BIST_RESULT, 0, 19⟩
/-- GLB_BIST_DETAIL (0x0004), Table 15-14. -/
def GLB_BIST_DETAIL : Nat := 0x0004
def GLB_BIST_DETAIL_FIRST : Fld := ⟨GLB_BIST_DETAIL, 0, 32⟩
/-- GLB_IMAGE_INFO (0x0006), Table 15-15. -/
def GLB_IMAGE_INFO : Nat := 0x0006
def GLB_IMAGE_INFO_LIB_VERSION : Fld := ⟨GLB_IMAGE_INFO, 16, 16⟩
def GLB_IMAGE_INFO_IMAGE_ID : Fld := ⟨GLB_IMAGE_INFO, 0, 16⟩
/-- GLB_CAL_SLOT (0x0007), Table 15-15. -/
def GLB_CAL_SLOT : Nat := 0x0007
def GLB_CAL_SLOT_LOADED : Fld := ⟨GLB_CAL_SLOT, 8, 2⟩
def GLB_CAL_SLOT_LOOP_MATCH : Fld := ⟨GLB_CAL_SLOT, 4, 1⟩
def GLB_CAL_SLOT_ACTIVE : Fld := ⟨GLB_CAL_SLOT, 0, 2⟩
/-- GLB_BLOCK_IRQ (0x0008), Table 15-15. -/
def GLB_BLOCK_IRQ : Nat := 0x0008
def GLB_BLOCK_IRQ_FIELD : Fld := ⟨GLB_BLOCK_IRQ, 16, 13⟩
def GLB_BLOCK_IRQ_HOST : Fld := ⟨GLB_BLOCK_IRQ, 0, 8⟩
/-- GLB_SCRATCH (0x000B), Table 15-16. -/
def GLB_SCRATCH : Nat := 0x000B
def GLB_SCRATCH_SCRATCH : Fld := ⟨GLB_SCRATCH, 0, 32⟩
/-- GLB_DETERMINISM (0x000C), Table 15-16. -/
def GLB_DETERMINISM : Nat := 0x000C
def GLB_DETERMINISM_STICKY : Fld := ⟨GLB_DETERMINISM, 16, 8⟩
def GLB_DETERMINISM_LIVE : Fld := ⟨GLB_DETERMINISM, 8, 8⟩
def GLB_DETERMINISM_REASON : Fld := ⟨GLB_DETERMINISM, 0, 4⟩
/-- GLB_ALIVE_CTRL (0x000D), Table 15-16. -/
def GLB_ALIVE_CTRL : Nat := 0x000D
def GLB_ALIVE_CTRL_EN : Fld := ⟨GLB_ALIVE_CTRL, 8, 1⟩
def GLB_ALIVE_CTRL_LEVEL : Fld := ⟨GLB_ALIVE_CTRL, 1, 1⟩
def GLB_ALIVE_CTRL_SLOW : Fld := ⟨GLB_ALIVE_CTRL, 0, 1⟩
/-- CFG_STATUS (0x0500), Table 15-17. -/
def CFG_STATUS : Nat := 0x0500
def CFG_STATUS_DONE : Fld := ⟨CFG_STATUS, 31, 1⟩
def CFG_STATUS_FAIL : Fld := ⟨CFG_STATUS, 30, 1⟩
def CFG_STATUS_REASON : Fld := ⟨CFG_STATUS, 26, 4⟩
def CFG_STATUS_OFFSET : Fld := ⟨CFG_STATUS, 0, 22⟩
/-- CFG_SECTION_STATUS (0x0501), Table 15-17. -/
def CFG_SECTION_STATUS : Nat := 0x0501
def CFG_SECTION_STATUS_LOADED : Fld := ⟨CFG_SECTION_STATUS, 17, 14⟩
def CFG_SECTION_STATUS_PRESENT : Fld := ⟨CFG_SECTION_STATUS, 1, 14⟩
/-- CFG_FLASH_CTRL (0x0502), Table 15-18. -/
def CFG_FLASH_CTRL : Nat := 0x0502
def CFG_FLASH_CTRL_START : Fld := ⟨CFG_FLASH_CTRL, 31, 1⟩
def CFG_FLASH_CTRL_OP : Fld := ⟨CFG_FLASH_CTRL, 28, 3⟩
def CFG_FLASH_CTRL_ADDR : Fld := ⟨CFG_FLASH_CTRL, 0, 24⟩
/-- CFG_FLASH_STATUS (0x0503), Table 15-18. -/
def CFG_FLASH_STATUS : Nat := 0x0503
def CFG_FLASH_STATUS_BUSY : Fld := ⟨CFG_FLASH_STATUS, 31, 1⟩
def CFG_FLASH_STATUS_REJECT : Fld := ⟨CFG_FLASH_STATUS, 30, 1⟩
def CFG_FLASH_STATUS_ERROR : Fld := ⟨CFG_FLASH_STATUS, 29, 1⟩
def CFG_FLASH_STATUS_JEDEC_ID : Fld := ⟨CFG_FLASH_STATUS, 0, 24⟩
/-- CFG_SLOT_A_INFO (0x0504), Table 15-19. -/
def CFG_SLOT_A_INFO : Nat := 0x0504
def CFG_SLOT_A_INFO_VALID : Fld := ⟨CFG_SLOT_A_INFO, 31, 1⟩
def CFG_SLOT_A_INFO_ACTIVE : Fld := ⟨CFG_SLOT_A_INFO, 30, 1⟩
def CFG_SLOT_A_INFO_SEALED : Fld := ⟨CFG_SLOT_A_INFO, 29, 1⟩
def CFG_SLOT_A_INFO_LOOP_MATCH : Fld := ⟨CFG_SLOT_A_INFO, 28, 1⟩
def CFG_SLOT_A_INFO_SEQ : Fld := ⟨CFG_SLOT_A_INFO, 0, 24⟩
/-- CFG_SLOT_B_INFO (0x0505), Table 15-19. -/
def CFG_SLOT_B_INFO : Nat := 0x0505
def CFG_SLOT_B_INFO_VALID : Fld := ⟨CFG_SLOT_B_INFO, 31, 1⟩
def CFG_SLOT_B_INFO_ACTIVE : Fld := ⟨CFG_SLOT_B_INFO, 30, 1⟩
def CFG_SLOT_B_INFO_SEALED : Fld := ⟨CFG_SLOT_B_INFO, 29, 1⟩
def CFG_SLOT_B_INFO_LOOP_MATCH : Fld := ⟨CFG_SLOT_B_INFO, 28, 1⟩
def CFG_SLOT_B_INFO_SEQ : Fld := ⟨CFG_SLOT_B_INFO, 0, 24⟩
/-- CFG_STORE_CMD (0x0506), Table 15-20. -/
def CFG_STORE_CMD : Nat := 0x0506
def CFG_STORE_CMD_STORE : Fld := ⟨CFG_STORE_CMD, 31, 1⟩
def CFG_STORE_CMD_DISCARD : Fld := ⟨CFG_STORE_CMD, 30, 1⟩
/-- CFG_STORE_STATUS (0x0507), Table 15-20. -/
def CFG_STORE_STATUS : Nat := 0x0507
def CFG_STORE_STATUS_BUSY : Fld := ⟨CFG_STORE_STATUS, 31, 1⟩
def CFG_STORE_STATUS_HELD : Fld := ⟨CFG_STORE_STATUS, 30, 1⟩
def CFG_STORE_STATUS_FAIL : Fld := ⟨CFG_STORE_STATUS, 29, 1⟩
def CFG_STORE_STATUS_STEP : Fld := ⟨CFG_STORE_STATUS, 26, 3⟩
def CFG_STORE_STATUS_TARGET : Fld := ⟨CFG_STORE_STATUS, 24, 2⟩
def CFG_STORE_STATUS_STORES : Fld := ⟨CFG_STORE_STATUS, 16, 8⟩
def CFG_STORE_STATUS_FAILS : Fld := ⟨CFG_STORE_STATUS, 8, 8⟩
def CFG_STORE_STATUS_PRIMER_KEPT : Fld := ⟨CFG_STORE_STATUS, 7, 1⟩
/-- CFG_FACTORY_STATUS (0x0508), Table 15-21. -/
def CFG_FACTORY_STATUS : Nat := 0x0508
def CFG_FACTORY_STATUS_VALID : Fld := ⟨CFG_FACTORY_STATUS, 31, 1⟩
def CFG_FACTORY_STATUS_COPY : Fld := ⟨CFG_FACTORY_STATUS, 29, 2⟩
def CFG_FACTORY_STATUS_COPY0_BAD : Fld := ⟨CFG_FACTORY_STATUS, 28, 1⟩
def CFG_FACTORY_STATUS_COPY1_BAD : Fld := ⟨CFG_FACTORY_STATUS, 27, 1⟩
def CFG_FACTORY_STATUS_REVISION : Fld := ⟨CFG_FACTORY_STATUS, 8, 8⟩
/-- FGL_STATUS (0x1000), Table 15-22. -/
def FGL_STATUS : Nat := 0x1000
def FGL_STATUS_LOADED : Fld := ⟨FGL_STATUS, 31, 1⟩
def FGL_STATUS_SAFE : Fld := ⟨FGL_STATUS, 30, 1⟩
def FGL_STATUS_TESTING : Fld := ⟨FGL_STATUS, 29, 1⟩
/-- FGL_BIST_RESULT (0x1001), Table 15-22. -/
def FGL_BIST_RESULT : Nat := 0x1001
def FGL_BIST_RESULT_DONE : Fld := ⟨FGL_BIST_RESULT, 31, 1⟩
def FGL_BIST_RESULT_PASS : Fld := ⟨FGL_BIST_RESULT, 30, 1⟩
def FGL_BIST_RESULT_COUNT : Fld := ⟨FGL_BIST_RESULT, 21, 6⟩
def FGL_BIST_RESULT_FAILED : Fld := ⟨FGL_BIST_RESULT, 8, 11⟩
/-- FGL_DIE_TEMP (0x1002), Table 15-22. -/
def FGL_DIE_TEMP : Nat := 0x1002
def FGL_DIE_TEMP_PEAK : Fld := ⟨FGL_DIE_TEMP, 16, 16⟩
def FGL_DIE_TEMP_NOW : Fld := ⟨FGL_DIE_TEMP, 0, 16⟩
/-- FGL_SUPPLY_STATUS (0x1003), Table 15-23. -/
def FGL_SUPPLY_STATUS : Nat := 0x1003
def FGL_SUPPLY_STATUS_HIGH : Fld := ⟨FGL_SUPPLY_STATUS, 16, 4⟩
def FGL_SUPPLY_STATUS_LOW : Fld := ⟨FGL_SUPPLY_STATUS, 8, 4⟩
def FGL_SUPPLY_STATUS_OK : Fld := ⟨FGL_SUPPLY_STATUS, 0, 4⟩
/-- FGL_DRAPE_STATE (0x1004), Table 15-23. -/
def FGL_DRAPE_STATE : Nat := 0x1004
def FGL_DRAPE_STATE_PIN : Fld := ⟨FGL_DRAPE_STATE, 3, 1⟩
def FGL_DRAPE_STATE_LANE : Fld := ⟨FGL_DRAPE_STATE, 2, 1⟩
def FGL_DRAPE_STATE_INVALID : Fld := ⟨FGL_DRAPE_STATE, 1, 1⟩
def FGL_DRAPE_STATE_IN_FORCE : Fld := ⟨FGL_DRAPE_STATE, 0, 1⟩
/-- FLT_STATUS (+0xF0), Table 16-7. -/
def FLT_STATUS (b : Nat) : Nat := b + 0xF0
def FLT_STATUS_ANY (b : Nat) : Fld := ⟨FLT_STATUS b, 31, 1⟩
def FLT_STATUS_MAX (b : Nat) : Fld := ⟨FLT_STATUS b, 28, 2⟩
def FLT_STATUS_ACTIVE (b : Nat) : Fld := ⟨FLT_STATUS b, 0, 16⟩
/-- FLT_LATCH (+0xF1), Table 16-7. -/
def FLT_LATCH (b : Nat) : Nat := b + 0xF1
def FLT_LATCH_ALSO (b : Nat) : Fld := ⟨FLT_LATCH b, 16, 16⟩
def FLT_LATCH_LATCH (b : Nat) : Fld := ⟨FLT_LATCH b, 0, 16⟩
/-- FLT_FIRST_WHERE (+0xF2), Table 16-8. -/
def FLT_FIRST_WHERE (b : Nat) : Nat := b + 0xF2
def FLT_FIRST_WHERE_UNIT (b : Nat) : Fld := ⟨FLT_FIRST_WHERE b, 16, 8⟩
def FLT_FIRST_WHERE_ADDRESS (b : Nat) : Fld := ⟨FLT_FIRST_WHERE b, 0, 16⟩
/-- FLT_FIRST_WHO (+0xF3), Table 16-8. -/
def FLT_FIRST_WHO (b : Nat) : Nat := b + 0xF3
def FLT_FIRST_WHO_VALID (b : Nat) : Fld := ⟨FLT_FIRST_WHO b, 31, 1⟩
def FLT_FIRST_WHO_ESCALATED (b : Nat) : Fld := ⟨FLT_FIRST_WHO b, 30, 1⟩
def FLT_FIRST_WHO_SEVERITY (b : Nat) : Fld := ⟨FLT_FIRST_WHO b, 28, 2⟩
def FLT_FIRST_WHO_MASTER (b : Nat) : Fld := ⟨FLT_FIRST_WHO b, 24, 3⟩
def FLT_FIRST_WHO_ACCESS (b : Nat) : Fld := ⟨FLT_FIRST_WHO b, 20, 3⟩
def FLT_FIRST_WHO_SOURCE (b : Nat) : Fld := ⟨FLT_FIRST_WHO b, 0, 4⟩
/-- FLT_FIRST_WHEN_LO (+0xF4), Table 16-9. -/
def FLT_FIRST_WHEN_LO (b : Nat) : Nat := b + 0xF4
def FLT_FIRST_WHEN_LO_PM_LO (b : Nat) : Fld := ⟨FLT_FIRST_WHEN_LO b, 0, 32⟩
/-- FLT_FIRST_WHEN_HI (+0xF5), Table 16-9. -/
def FLT_FIRST_WHEN_HI (b : Nat) : Nat := b + 0xF5
def FLT_FIRST_WHEN_HI_PM_HI (b : Nat) : Fld := ⟨FLT_FIRST_WHEN_HI b, 0, 16⟩
/-- FLT_COUNT (+0xF6), Table 16-9. -/
def FLT_COUNT (b : Nat) : Nat := b + 0xF6
def FLT_COUNT_RAISES (b : Nat) : Fld := ⟨FLT_COUNT b, 16, 16⟩
def FLT_COUNT_ESCALATIONS (b : Nat) : Fld := ⟨FLT_COUNT b, 0, 16⟩
/-- FLT_POLICY (+0xF7), Table 16-10. -/
def FLT_POLICY (b : Nat) : Nat := b + 0xF7
def FLT_POLICY_WR (b : Nat) : Fld := ⟨FLT_POLICY b, 31, 1⟩
def FLT_POLICY_LEVEL (b : Nat) : Fld := ⟨FLT_POLICY b, 28, 2⟩
def FLT_POLICY_SOURCE (b : Nat) : Fld := ⟨FLT_POLICY b, 24, 4⟩
def FLT_POLICY_SECOND (b : Nat) : Fld := ⟨FLT_POLICY b, 23, 1⟩
def FLT_POLICY_ACTION (b : Nat) : Fld := ⟨FLT_POLICY b, 20, 3⟩
def FLT_POLICY_QEXP (b : Nat) : Fld := ⟨FLT_POLICY b, 15, 5⟩
def FLT_POLICY_WEXP (b : Nat) : Fld := ⟨FLT_POLICY b, 11, 4⟩
def FLT_POLICY_N (b : Nat) : Fld := ⟨FLT_POLICY b, 7, 4⟩
def FLT_POLICY_LSEV (b : Nat) : Fld := ⟨FLT_POLICY b, 5, 2⟩
def FLT_POLICY_SEV (b : Nat) : Fld := ⟨FLT_POLICY b, 0, 2⟩
/-- FLT_INJECT (+0xF8), Table 16-11. -/
def FLT_INJECT (b : Nat) : Nat := b + 0xF8
def FLT_INJECT_GO (b : Nat) : Fld := ⟨FLT_INJECT b, 31, 1⟩
def FLT_INJECT_STOP (b : Nat) : Fld := ⟨FLT_INJECT b, 30, 1⟩
def FLT_INJECT_ARMED (b : Nat) : Fld := ⟨FLT_INJECT b, 29, 1⟩
def FLT_INJECT_MODE (b : Nat) : Fld := ⟨FLT_INJECT b, 28, 1⟩
def FLT_INJECT_CHECKER (b : Nat) : Fld := ⟨FLT_INJECT b, 20, 4⟩
def FLT_INJECT_BITS (b : Nat) : Fld := ⟨FLT_INJECT b, 0, 2⟩
/-- FLT_RECOVERIES (+0xF9), Table 16-12. -/
def FLT_RECOVERIES (b : Nat) : Nat := b + 0xF9
def FLT_RECOVERIES_COUNT (b : Nat) : Fld := ⟨FLT_RECOVERIES b, 16, 16⟩
def FLT_RECOVERIES_LAST (b : Nat) : Fld := ⟨FLT_RECOVERIES b, 0, 4⟩
/-- IRQ_ENABLE (+0xFA), Table 16-12. -/
def IRQ_ENABLE (b : Nat) : Nat := b + 0xFA
def IRQ_ENABLE_LINE (b : Nat) : Fld := ⟨IRQ_ENABLE b, 31, 1⟩
def IRQ_ENABLE_SEV_EN (b : Nat) : Fld := ⟨IRQ_ENABLE b, 16, 4⟩
def IRQ_ENABLE_SRC_EN (b : Nat) : Fld := ⟨IRQ_ENABLE b, 0, 16⟩
/-- FLT_ACK (+0xFB), Table 16-12. -/
def FLT_ACK (b : Nat) : Nat := b + 0xFB
def FLT_ACK_FIRST (b : Nat) : Fld := ⟨FLT_ACK b, 31, 1⟩
def FLT_ACK_SOURCES (b : Nat) : Fld := ⟨FLT_ACK b, 0, 16⟩
/-- PWR_BUDGET_READOUT (0x0700), Table 17-5. -/
def PWR_BUDGET_READOUT : Nat := 0x0700
def PWR_BUDGET_READOUT_BUDGET : Fld := ⟨PWR_BUDGET_READOUT, 0, 28⟩
/-- PWR_BUDGET_EXCITATION (0x0701), Table 17-5. -/
def PWR_BUDGET_EXCITATION : Nat := 0x0701
def PWR_BUDGET_EXCITATION_BUDGET : Fld := ⟨PWR_BUDGET_EXCITATION, 0, 28⟩
/-- PWR_BUDGET_HK (0x0702), Table 17-5. -/
def PWR_BUDGET_HK : Nat := 0x0702
def PWR_BUDGET_HK_BUDGET : Fld := ⟨PWR_BUDGET_HK, 0, 28⟩
/-- PWR_BUDGET_LINKS (0x0703), Table 17-5. -/
def PWR_BUDGET_LINKS : Nat := 0x0703
def PWR_BUDGET_LINKS_BUDGET : Fld := ⟨PWR_BUDGET_LINKS, 0, 28⟩
/-- PWR_STATE (0x0704), Table 17-6. -/
def PWR_STATE : Nat := 0x0704
def PWR_STATE_TRANSITION : Fld := ⟨PWR_STATE, 31, 1⟩
def PWR_STATE_TARGET : Fld := ⟨PWR_STATE, 28, 3⟩
def PWR_STATE_SCHEDULED : Fld := ⟨PWR_STATE, 27, 1⟩
def PWR_STATE_REFBUF_HELD : Fld := ⟨PWR_STATE, 26, 1⟩
def PWR_STATE_PEER_SLEEP : Fld := ⟨PWR_STATE, 20, 4⟩
def PWR_STATE_TRANSITIONS : Fld := ⟨PWR_STATE, 8, 8⟩
def PWR_STATE_STATE : Fld := ⟨PWR_STATE, 0, 3⟩
/-- PWR_WAKE_PREDICT (0x0705), Table 17-7. -/
def PWR_WAKE_PREDICT : Nat := 0x0705
def PWR_WAKE_PREDICT_WAKE : Fld := ⟨PWR_WAKE_PREDICT, 0, 28⟩
/-- PWR_REQUEST (0x0706), Table 17-7. -/
def PWR_REQUEST : Nat := 0x0706
def PWR_REQUEST_LINK_SLEEP_EN : Fld := ⟨PWR_REQUEST, 18, 1⟩
def PWR_REQUEST_REJECT : Fld := ⟨PWR_REQUEST, 17, 1⟩
def PWR_REQUEST_MAX_STATE : Fld := ⟨PWR_REQUEST, 0, 3⟩
/-- PWR_SUPPLY_STATUS (0x0707), Table 17-8. -/
def PWR_SUPPLY_STATUS : Nat := 0x0707
def PWR_SUPPLY_STATUS_HIGH : Fld := ⟨PWR_SUPPLY_STATUS, 16, 4⟩
def PWR_SUPPLY_STATUS_LOW : Fld := ⟨PWR_SUPPLY_STATUS, 8, 4⟩
def PWR_SUPPLY_STATUS_OK : Fld := ⟨PWR_SUPPLY_STATUS, 0, 4⟩
/-- PWR_ESTIMATE (0x0708), Table 17-8. -/
def PWR_ESTIMATE : Nat := 0x0708
def PWR_ESTIMATE_PEAK : Fld := ⟨PWR_ESTIMATE, 16, 16⟩
def PWR_ESTIMATE_NOW : Fld := ⟨PWR_ESTIMATE, 0, 16⟩
/-- Registers of block 0x0000 (R369). -/
def glbRows : List RegRow :=
  [⟨0x0000, 1, 0x4C592048, 0x00000000, 0x00000000, 0x00000000, 0x00000000⟩,
   ⟨0x0001, 1, 0x00000000, 0x00000000, 0x00000000, 0x00000000, 0x00000000⟩,
   ⟨0x0002, 1, 0x00000000, 0x00000000, 0x00000000, 0x00000000, 0x00000000⟩,
   ⟨0x0003, 1, 0x00000000, 0x00000000, 0x00000000, 0x00000000, 0x00000000⟩,
   ⟨0x0004, 1, 0x00000000, 0x00000000, 0x00000000, 0x00000000, 0x00000000⟩,
   ⟨0x0005, 1, 0x00000000, 0x00000000, 0x00000000, 0xFF00000F, 0x00000000⟩,
   ⟨0x0006, 1, 0x00000000, 0x00000000, 0x00000000, 0x00000000, 0x00000000⟩,
   ⟨0x0007, 1, 0x00000000, 0x00000000, 0x00000000, 0x00000000, 0x00000000⟩,
   ⟨0x0008, 1, 0x00000000, 0x00000000, 0x00000000, 0x00000000, 0x00000000⟩,
   ⟨0x0009, 2, 0x00000000, 0x00000000, 0x00000000, 0x00000000, 0x00000000⟩,
   ⟨0x000B, 1, 0x00000000, 0xFFFFFFFF, 0x00000000, 0x00000000, 0x00000000⟩,
   ⟨0x000C, 1, 0x00000201, 0x00000000, 0x00000000, 0x00000000, 0x00000000⟩,
   ⟨0x000D, 1, 0x00000100, 0x00000100, 0x00000000, 0x00000000, 0x00000000⟩]

/-- Registers of block 0x0100 (R369). -/
def timRows : List RegRow :=
  [⟨0x0100, 1, 0x00000000, 0x00000000, 0x00000080, 0x00000000, 0x00000000⟩,
   ⟨0x0101, 1, 0x00000000, 0x00000000, 0x00000000, 0x00000000, 0x00000000⟩,
   ⟨0x0102, 1, 0x00000000, 0x00000000, 0x00000000, 0x00000000, 0x00000000⟩,
   ⟨0x0103, 1, 0x00000000, 0x00000000, 0x00000000, 0x00000000, 0x00000000⟩,
   ⟨0x0104, 1, 0x00000001, 0x00000001, 0x00000002, 0x00000000, 0x00000000⟩,
   ⟨0x0105, 1, 0x00300030, 0x00000FFF, 0x00000000, 0x00000000, 0x00000000⟩,
   ⟨0x0106, 1, 0x00000000, 0x00000000, 0x00000000, 0x00000000, 0x00000000⟩,
   ⟨0x0107, 1, 0x00000000, 0xFFFFFFFF, 0x00000000, 0x00000000, 0x00000000⟩,
   ⟨0x0108, 1, 0x00000000, 0x0000FFFF, 0x00000000, 0x00000000, 0x00000000⟩,
   ⟨0x0109, 1, 0x00000000, 0x00000003, 0x00000000, 0x00000004, 0x00000000⟩,
   ⟨0x010A, 1, 0x01000000, 0xFFF00000, 0x00080000, 0x00000000, 0x00000000⟩,
   ⟨0x010B, 1, 0x00000000, 0x00000000, 0x00000000, 0x00000000, 0x00000000⟩,
   ⟨0x010C, 1, 0x00000000, 0x00000000, 0x00000000, 0x00000000, 0x00000000⟩,
   ⟨0x010D, 1, 0x00000000, 0x00000000, 0x00000000, 0x00000000, 0x00000000⟩]

/-- Registers of block 0x0200 (R369). -/
def barRows : List RegRow :=
  [⟨0x0200, 1, 0x00000000, 0x00000000, 0x10000000, 0x00000000, 0x00000000⟩,
   ⟨0x0201, 1, 0x00000000, 0x00000000, 0x00000000, 0x00000000, 0x00000000⟩,
   ⟨0x0202, 1, 0x0F300000, 0x80000000, 0x00000000, 0x00000000, 0x00000000⟩,
   ⟨0x0203, 1, 0x00000009, 0x00000000, 0x00000000, 0x00000000, 0x00000000⟩,
   ⟨0x0204, 1, 0x00000000, 0x00000000, 0x00000000, 0x00000000, 0x00000000⟩,
   ⟨0x0205, 1, 0x00000000, 0x00000000, 0x00000000, 0x00000000, 0x00000000⟩,
   ⟨0x0206, 1, 0x00000000, 0x00000000, 0x40000000, 0x80000000, 0x00000000⟩,
   ⟨0x0207, 1, 0x00000000, 0x00000000, 0x00000000, 0x00000000, 0x00000000⟩]

/-- Registers of block 0x0300 (R369). -/
def lnkRows : List RegRow :=
  [⟨0x0300, 1, 0x00000101, 0x00000101, 0x00000000, 0x00000000, 0x00000000⟩,
   ⟨0x0301, 1, 0x00000000, 0x00000000, 0x00000000, 0x00000000, 0x00000000⟩,
   ⟨0x0302, 1, 0x00000000, 0x00000000, 0x00000000, 0x00000000, 0x00000000⟩,
   ⟨0x0303, 1, 0x00000000, 0x00000000, 0x00000000, 0x00000000, 0x00000000⟩,
   ⟨0x0304, 4, 0x01000000, 0xC3FF0000, 0x08000000, 0x30000000, 0x00000000⟩,
   ⟨0x0308, 4, 0x00000000, 0x00000000, 0x00000000, 0x00000000, 0x00000000⟩,
   ⟨0x030C, 4, 0x00000000, 0x00000000, 0x00000000, 0x00000000, 0x00000000⟩,
   ⟨0x0310, 1, 0x00000000, 0x00000000, 0x0C000000, 0x00000000, 0x00000000⟩,
   ⟨0x0311, 1, 0x00000000, 0xFFFFFFFF, 0x00000000, 0x00000000, 0x00000000⟩,
   ⟨0x0312, 1, 0x00000000, 0x0000FFFF, 0x00000000, 0x00000000, 0x00000000⟩,
   ⟨0x0313, 1, 0x00000000, 0x00000003, 0x00000000, 0x80000000, 0x00000000⟩,
   ⟨0x0314, 1, 0x00000000, 0x00000000, 0x00000000, 0x00000000, 0x00000000⟩,
   ⟨0x0315, 1, 0x00000000, 0x00000000, 0x00000000, 0x00000000, 0x00000000⟩,
   ⟨0x0316, 1, 0x00000000, 0x00000000, 0x00000000, 0x00000000, 0x00000000⟩,
   ⟨0x0317, 1, 0x00000000, 0x000000FF, 0x00000000, 0x00000000, 0x00000000⟩]

/-- Registers of block 0x0400 (R369). -/
def mgtRows : List RegRow :=
  [⟨0x0400, 1, 0x00000000, 0x00000000, 0xBFC00000, 0x00000000, 0x00000000⟩,
   ⟨0x0401, 1, 0x00200001, 0x00FF0001, 0x00000000, 0x00000000, 0x00000000⟩,
   ⟨0x0402, 1, 0x00000000, 0x00000000, 0x00000000, 0x00000000, 0x00000000⟩,
   ⟨0x0403, 1, 0x00000000, 0x00000000, 0x00000000, 0x00000000, 0x00000000⟩,
   ⟨0x0404, 1, 0x00000000, 0x00FFFFFF, 0x00000000, 0x00000000, 0x00000000⟩,
   ⟨0x0405, 1, 0x00000000, 0xFFFFFFFF, 0x00000000, 0x00000000, 0x00000000⟩,
   ⟨0x0406, 1, 0x00000010, 0x00000013, 0x40000000, 0x00000000, 0x00000000⟩]

/-- Registers of block 0x0500 (R369). -/
def cfgRows : List RegRow :=
  [⟨0x0500, 1, 0x00000000, 0x00000000, 0x00000000, 0x00000000, 0x00000000⟩,
   ⟨0x0501, 1, 0x00000000, 0x00000000, 0x00000000, 0x00000000, 0x00000000⟩,
   ⟨0x0502, 1, 0x00000000, 0x70FFFFFF, 0x00000000, 0x80000000, 0x00000000⟩,
   ⟨0x0503, 1, 0x00000000, 0x00000000, 0x60000000, 0x00000000, 0x00000000⟩,
   ⟨0x0504, 1, 0x00000000, 0x00000000, 0x00000000, 0x00000000, 0x00000000⟩,
   ⟨0x0505, 1, 0x00000000, 0x00000000, 0x00000000, 0x00000000, 0x00000000⟩,
   ⟨0x0506, 1, 0x00000000, 0x00000000, 0x00000000, 0xC0000000, 0x00000000⟩,
   ⟨0x0507, 1, 0x00000000, 0x00000000, 0x20000000, 0x00000000, 0x00000000⟩,
   ⟨0x0508, 1, 0x00000000, 0x00000000, 0x00000000, 0x00000000, 0x00000000⟩]

/-- Registers of block 0x0700 (R369). -/
def pwrRows : List RegRow :=
  [⟨0x0700, 1, 0x00000000, 0x0FFFFFFF, 0x00000000, 0x00000000, 0x00000000⟩,
   ⟨0x0701, 1, 0x00000000, 0x0FFFFFFF, 0x00000000, 0x00000000, 0x00000000⟩,
   ⟨0x0702, 1, 0x00000000, 0x0FFFFFFF, 0x00000000, 0x00000000, 0x00000000⟩,
   ⟨0x0703, 1, 0x00000000, 0x0FFFFFFF, 0x00000000, 0x00000000, 0x00000000⟩,
   ⟨0x0704, 1, 0x00000000, 0x00000000, 0x00000000, 0x00000000, 0x00000000⟩,
   ⟨0x0705, 1, 0x00000000, 0x00000000, 0x00000000, 0x00000000, 0x00000000⟩,
   ⟨0x0706, 1, 0x00040004, 0x00040007, 0x00020000, 0x00000000, 0x00000000⟩,
   ⟨0x0707, 1, 0x00000000, 0x00000000, 0x000F0F00, 0x00000000, 0x00000000⟩,
   ⟨0x0708, 1, 0x00000000, 0x00000000, 0x00000000, 0x00000000, 0x00000000⟩]

/-- Registers of block 0x1000 (R369). -/
def fglRows : List RegRow :=
  [⟨0x1000, 1, 0x00000000, 0x00000000, 0x00000000, 0x00000000, 0x00000000⟩,
   ⟨0x1001, 1, 0x00000000, 0x00000000, 0x00000000, 0x00000000, 0x00000000⟩,
   ⟨0x1002, 1, 0x80000000, 0x00000000, 0x00000000, 0x00000000, 0x00000000⟩,
   ⟨0x1003, 1, 0x00000000, 0x00000000, 0x000F0F00, 0x00000000, 0x00000000⟩,
   ⟨0x1004, 1, 0x00000000, 0x00000000, 0x00000000, 0x00000000, 0x00000000⟩]

/-- Registers of block 0x1100 (R369). -/
def palRows : List RegRow :=
  [⟨0x1100, 1, 0x00000000, 0x00000100, 0x00000000, 0x00000018, 0x00000000⟩,
   ⟨0x1101, 1, 0x00000000, 0x00000000, 0x0C000000, 0x00000000, 0x00000000⟩,
   ⟨0x1102, 1, 0x00000000, 0xFFFFFFFF, 0x00000000, 0x00000000, 0x00000000⟩,
   ⟨0x1103, 1, 0x00000000, 0x0000FFFF, 0x00000000, 0x00000000, 0x00000000⟩,
   ⟨0x1104, 1, 0x0040003C, 0x0FFF00FF, 0x00000000, 0x00000000, 0x00000000⟩,
   ⟨0x1105, 1, 0x00000001, 0x00000003, 0x00000000, 0x00000000, 0x00000000⟩,
   ⟨0x1106, 1, 0x00000000, 0x000000FF, 0x00000000, 0x00000000, 0x00000000⟩,
   ⟨0x1107, 1, 0x00000000, 0x00000000, 0x00000000, 0x00000000, 0x00000000⟩,
   ⟨0x1108, 1, 0x00000000, 0x00000000, 0x80000000, 0x00000000, 0x00000000⟩,
   ⟨0x1109, 1, 0x00000000, 0xBFBFBFBF, 0x00000000, 0x00000000, 0x00000000⟩,
   ⟨0x110A, 1, 0x00000000, 0x00000000, 0x40000000, 0x00000000, 0x00000000⟩]

/-- Registers of block 0x1200 (R369). -/
def colRows : List RegRow :=
  [⟨0x1200, 1, 0x00010000, 0x0001003F, 0x00000000, 0x00000000, 0x00000000⟩,
   ⟨0x1201, 1, 0x00000000, 0xFFFFFFFF, 0x00000000, 0x00000000, 0x00000000⟩,
   ⟨0x1202, 1, 0x00000000, 0x00000000, 0xFFFFFFFF, 0x00000000, 0x00000000⟩,
   ⟨0x1203, 1, 0x00000000, 0x00000000, 0x00000000, 0x00000000, 0x00000000⟩,
   ⟨0x1204, 1, 0x00000000, 0x0000001F, 0x00000000, 0x00030000, 0x00000000⟩,
   ⟨0x1205, 1, 0x00000000, 0x00000000, 0x88000000, 0x00000000, 0x00000000⟩,
   ⟨0x1206, 1, 0x00000100, 0xC000FFFF, 0x00000000, 0x00000000, 0x00000000⟩,
   ⟨0x1207, 1, 0x00000000, 0x00000000, 0x00000000, 0x00000000, 0x00000000⟩,
   ⟨0x1208, 1, 0x00000000, 0x00000000, 0x80000000, 0x00000000, 0x00000000⟩]

/-- Registers of block 0x1300 (R369). -/
def nulRows : List RegRow :=
  [⟨0x1300, 1, 0x00000001, 0x00000101, 0x00000000, 0x00000000, 0x00000000⟩,
   ⟨0x1301, 1, 0x00000003, 0x3F00000F, 0x40000000, 0x80000000, 0x00000000⟩,
   ⟨0x1302, 1, 0x007F0000, 0x007FFFFF, 0x00000000, 0x00000000, 0x00000000⟩,
   ⟨0x1303, 1, 0x00000100, 0x00FFFFFF, 0x00000000, 0x00000000, 0x00000000⟩,
   ⟨0x1304, 1, 0x00000000, 0x00000000, 0xFFFFFFFF, 0x00000000, 0x00000000⟩,
   ⟨0x1305, 1, 0xFFFFFFFF, 0x00000000, 0x00000000, 0x00000000, 0x00000000⟩,
   ⟨0x1306, 1, 0x00000000, 0x00000000, 0x00000000, 0x00000000, 0x00000000⟩,
   ⟨0x1307, 1, 0x00000001, 0x3F000003, 0x00000000, 0x80000000, 0x00000000⟩,
   ⟨0x1308, 1, 0x00000000, 0x00000001, 0x00000000, 0x00000000, 0x00000000⟩,
   ⟨0x1309, 1, 0x00000000, 0x00000000, 0x00000010, 0x00000005, 0x00000000⟩]

/-- Registers of block 0x1400 (R369). -/
def varRows : List RegRow :=
  [⟨0x1400, 1, 0x00000000, 0x00000000, 0x00000C00, 0x00000003, 0x00000000⟩,
   ⟨0x1401, 1, 0x00000000, 0x00FFFFFF, 0x00000000, 0x00000000, 0x00000000⟩,
   ⟨0x1402, 1, 0x00040014, 0x00FF003F, 0x00000000, 0x00000000, 0x00000000⟩,
   ⟨0x1403, 1, 0x00000000, 0x00000000, 0x40000000, 0x00000000, 0x00000000⟩,
   ⟨0x1404, 1, 0x00000000, 0x00000000, 0x00000000, 0x00000000, 0xFFFFFFFF⟩]

/-- Registers of block 0x1500 (R369). -/
def strRows : List RegRow :=
  [⟨0x1500, 1, 0x00000000, 0x00000001, 0x00000000, 0x00000000, 0x00000000⟩,
   ⟨0x1501, 1, 0x00000100, 0x0001FF0F, 0x00000000, 0x00000000, 0x00000000⟩,
   ⟨0x1502, 1, 0xFFFFFFFF, 0xFFFFFFFF, 0x00000000, 0x00000000, 0x00000000⟩,
   ⟨0x1503, 1, 0x00000000, 0x00000000, 0x00000000, 0x00000000, 0x00000000⟩,
   ⟨0x1504, 1, 0x00000000, 0x00000000, 0x00000000, 0x00000000, 0x00000000⟩,
   ⟨0x1505, 1, 0x00000000, 0x00000000, 0x00000000, 0x00000000, 0x00000000⟩]

/-- Registers of block 0x1600 (R369). -/
def evtRows : List RegRow :=
  [⟨0x1600, 1, 0x00000000, 0x1D010300, 0x00000000, 0x00000000, 0x00000000⟩,
   ⟨0x1601, 1, 0x00000000, 0x01FF00FF, 0x00000000, 0x00000000, 0x00000000⟩,
   ⟨0x1602, 1, 0x00000004, 0x0000001F, 0x00000000, 0x00000000, 0x00000000⟩,
   ⟨0x1603, 1, 0x00000096, 0x000001FF, 0x00000000, 0x00000000, 0x00000000⟩,
   ⟨0x1604, 1, 0x00000008, 0x000003FF, 0x00000000, 0x00000000, 0x00000000⟩,
   ⟨0x1605, 1, 0x00000000, 0x00000000, 0x00000000, 0x00000000, 0x00000000⟩,
   ⟨0x1606, 1, 0x00000000, 0x00000000, 0x00000000, 0x00000000, 0x00000000⟩,
   ⟨0x1607, 1, 0x00000000, 0x00000000, 0x00000000, 0x00000000, 0x00000000⟩,
   ⟨0x1608, 1, 0x00000000, 0x00000000, 0xE0000000, 0x00000000, 0x00000000⟩]

/-- Registers of block 0x1900 (R369). -/
def hksRows : List RegRow :=
  [⟨0x1900, 1, 0x05DC0000, 0x07FF0001, 0x00000000, 0x00000000, 0x00000000⟩,
   ⟨0x1901, 1, 0x00000000, 0x00000000, 0x00000000, 0x00000000, 0x00000000⟩,
   ⟨0x1902, 1, 0x00000100, 0xC00001FF, 0x00000000, 0x00000000, 0x00000000⟩,
   ⟨0x1903, 1, 0x00000000, 0x00000000, 0x88000000, 0x00000000, 0x00000000⟩,
   ⟨0x1904, 1, 0x80000800, 0x87FFFFFF, 0x00000000, 0x00000000, 0x00000000⟩,
   ⟨0x1905, 1, 0x00000000, 0x00000000, 0x80000000, 0x00000000, 0x00000000⟩,
   ⟨0x1906, 1, 0x00000000, 0x00000000, 0x00000000, 0x00000000, 0x00000000⟩,
   ⟨0x1907, 1, 0x00000000, 0x00000003, 0x00000000, 0x00000000, 0x00000000⟩]

/-- Registers of block 0x1A00 (R369). -/
def calRows : List RegRow :=
  [⟨0x1A00, 1, 0x74100014, 0xFFFFFF7F, 0x00000000, 0x00000000, 0x00000000⟩,
   ⟨0x1A01, 1, 0x00000000, 0x00000000, 0x02000000, 0x00000000, 0x00000000⟩,
   ⟨0x1A02, 1, 0x20032005, 0xFFFFFFFF, 0x00000000, 0x00000000, 0x00000000⟩,
   ⟨0x1A03, 1, 0x00001388, 0x0000FFFF, 0x00000000, 0x00000000, 0x00000000⟩,
   ⟨0x1A04, 1, 0x000007D0, 0x0000FFFF, 0x00000000, 0x00000000, 0x00000000⟩,
   ⟨0x1A05, 1, 0x00000040, 0x000003FF, 0x00000000, 0x00000000, 0x00000000⟩,
   ⟨0x1A06, 1, 0x00000008, 0x000000FF, 0x00000000, 0x00000000, 0x00000000⟩,
   ⟨0x1A07, 1, 0x00000000, 0x00000000, 0x00000000, 0x00000000, 0x00000000⟩,
   ⟨0x1A08, 1, 0x00000000, 0x00000000, 0x00000000, 0x00000000, 0x00000000⟩,
   ⟨0x1A09, 1, 0x00000000, 0x00000000, 0x00000000, 0x00000000, 0x00000000⟩,
   ⟨0x1A0A, 1, 0x00000000, 0x00000000, 0x20000000, 0x00000000, 0x00000000⟩]

/-- Registers of block 0x1C00 (R369). -/
def fbaRows : List RegRow :=
  [⟨0x1C00, 1, 0x00000000, 0x00000000, 0x00000000, 0x00000000, 0x00000000⟩,
   ⟨0x1C01, 1, 0x0000F300, 0x00000000, 0x00000000, 0x00000000, 0x00000000⟩,
   ⟨0x1C02, 1, 0x00000000, 0x00000000, 0x00000000, 0x00000000, 0x00000000⟩,
   ⟨0x1C03, 1, 0x00000000, 0x00000000, 0x00000000, 0x00000000, 0x00000000⟩]

/-- Registers of HKA and HKB, offsets from the block base (Table 18-14). -/
def hkRows : List RegRow :=
  [⟨0x0010, 16, 0x00000000, 0xFFFFF73F, 0x00000000, 0x00000000, 0x00000000⟩,
   ⟨0x0003, 1, 0x00000000, 0x00000000, 0x00000000, 0x00000000, 0x00000000⟩,
   ⟨0x0000, 1, 0x00000000, 0x00000001, 0x00000000, 0x00000004, 0x00000000⟩,
   ⟨0x0001, 1, 0x00000000, 0x00000000, 0xC0000000, 0x00000000, 0x00000000⟩,
   ⟨0x0002, 1, 0x00000001, 0x0000001F, 0x00008000, 0x00000000, 0x00000000⟩,
   ⟨0x0004, 1, 0x00000000, 0x00000000, 0x00000000, 0x00000000, 0x00000000⟩,
   ⟨0x0005, 1, 0x00000000, 0x0000000F, 0x00000000, 0x80000000, 0x00000000⟩,
   ⟨0x0006, 1, 0x00FF0040, 0x00FFFFFF, 0x00000000, 0xC0000000, 0x00000000⟩,
   ⟨0x0007, 1, 0x00000000, 0x00000000, 0x00000000, 0x00000000, 0x00000000⟩,
   ⟨0x0020, 8, 0x00000000, 0x00FFFFFF, 0x00000000, 0x00000000, 0x00000000⟩,
   ⟨0x0028, 8, 0x00400000, 0x00FFFFFF, 0x00000000, 0x00000000, 0x00000000⟩]

/-- Registers of COU and BRU, offsets from the block base (Table 18-6). -/
def engRows : List RegRow :=
  [⟨0x0000, 1, 0x00000000, 0x00000001, 0x00000000, 0x0000000C, 0x00000000⟩,
   ⟨0x0001, 1, 0x00000000, 0x00000000, 0xFE000000, 0x00000000, 0x00000000⟩,
   ⟨0x0002, 1, 0x00000000, 0x00000000, 0x00000000, 0x00000000, 0x00000000⟩,
   ⟨0x0003, 1, 0x00000000, 0x00000000, 0x00000000, 0x00000000, 0x00000000⟩,
   ⟨0x0004, 1, 0x00000000, 0x3FFFFFFF, 0x00000000, 0x80000000, 0x00000000⟩,
   ⟨0x0005, 1, 0x00000000, 0x00000000, 0x00000000, 0x00000000, 0x00000000⟩,
   ⟨0x0006, 1, 0x00000000, 0x00000000, 0x00000000, 0x00000000, 0x00000000⟩,
   ⟨0x0007, 1, 0x00000000, 0x00000000, 0x00000000, 0x00000000, 0x00000000⟩,
   ⟨0x0008, 1, 0x00000000, 0x00000000, 0x00000000, 0x00000000, 0x00000000⟩,
   ⟨0x0009, 1, 0x00000400, 0x0000FFFF, 0x00000000, 0x00000000, 0x00000000⟩,
   ⟨0x000A, 1, 0x00000000, 0x80000FFF, 0x40000000, 0x00000000, 0x00000000⟩]

/-- The fault group, offsets from the block base (Table 18-16). -/
def fltRows : List RegRow :=
  [⟨0x00F0, 1, 0x00000000, 0x00000000, 0x00000000, 0x00000000, 0x00000000⟩,
   ⟨0x00F1, 1, 0x00000000, 0x00000000, 0x00000000, 0x00000000, 0x00000000⟩,
   ⟨0x00F2, 1, 0x00000000, 0x00000000, 0x00000000, 0x00000000, 0x00000000⟩,
   ⟨0x00F3, 1, 0x00000000, 0x00000000, 0x00000000, 0x00000000, 0x00000000⟩,
   ⟨0x00F4, 1, 0x00000000, 0x00000000, 0x00000000, 0x00000000, 0x00000000⟩,
   ⟨0x00F5, 1, 0x00000000, 0x00000000, 0x00000000, 0x00000000, 0x00000000⟩,
   ⟨0x00F6, 1, 0x00000000, 0x00000000, 0x00000000, 0x00000000, 0x00000000⟩,
   ⟨0x00F7, 1, 0x00080000, 0x0FFFFF83, 0x00000000, 0x80000000, 0x00000000⟩,
   ⟨0x00F8, 1, 0x00000001, 0x10F00003, 0x00000000, 0xC0000000, 0x00000000⟩,
   ⟨0x00F9, 1, 0x00000000, 0x00000000, 0x00000000, 0x00000000, 0x00000000⟩,
   ⟨0x00FA, 1, 0x000EFFFF, 0x000FFFFF, 0x00000000, 0x00000000, 0x00000000⟩,
   ⟨0x00FB, 1, 0x00000000, 0x00000000, 0x00000000, 0x8000FFFF, 0x00000000⟩]

/-- The window registers (R369): the address copies are held per master, so the register itself
only marks the index as occupied. -/
def winRows : List RegRow :=
  [⟨0x00E0, 1, 0, 0xFFFFFFFF, 0, 0, 0⟩, ⟨0x00E1, 1, 0, 0x00FFFFFF, 0, 0, 0⟩]

/-- The rows of a block, with absolute indices, its fault group apart. -/
def blkRows : Blk → List RegRow
  | .glb => glbRows | .tim => timRows | .bar => barRows | .lnk => lnkRows | .mgt => mgtRows
  | .cfg => cfgRows | .cou => engRows | .pwr => pwrRows | .fgl => fglRows | .pal => palRows
  | .col => colRows | .nul => nulRows | .var => varRows | .str => strRows | .evt => evtRows
  | .hka => hkRows | .hkb => hkRows | .hks => hksRows | .cal => calRows | .bru => engRows
  | .fba => fbaRows

/-- The rows of a block whose indices are offsets from the block base. -/
def blkRelative : Blk → Bool
  | .cou | .bru | .hka | .hkb => true
  | _ => false

/-- The first row that covers an index. -/
def findRow (i : Nat) : List RegRow → Option RegRow
  | [] => none
  | r :: rs => if r.idx ≤ i ∧ i < r.idx + r.num then some r else findRow i rs

/-- The width in bits of a block's window address, 0 for a block without a window (R372,
Table 18-17). -/
def winWidth : Blk → Nat
  | .nul => 20
  | .evt => 23
  | .glb | .bar | .lnk | .cou | .bru | .pal | .col | .var | .cal => 16
  | _ => 0

/-- The register-map row of an index, if a register occupies it (R12, R370). -/
def regRow (i : Nat) : Option RegRow :=
  match blkOf i with
  | none => none
  | some b =>
    let off := i % 0x100
    if 0xF0 ≤ off then findRow off fltRows
    else if 0xE0 ≤ off then (if winWidth b = 0 then none else findRow off winRows)
    else if blkRelative b then findRow off (blkRows b)
    else findRow i (blkRows b)

/-- The value a register holds after power-up and RESET_N (R13, Table 18-18). -/
def regReset (i : Nat) : Word :=
  match regRow i with
  | some r => BitVec.ofNat 32 r.reset
  | none => 0

end Sys2Proof.Machine
end

