-- ==== Sys2Proof/Machine/State.lean ====
section
/-!
DEFINITION. The state of the NWK-2048 as plain data.  Registers and window tables are sparse tables
over the register map's reset values; what the rules make the device remember beside them is held in
one structure for each chapter.  State.reset is the device after power-up (R373).
-/
namespace Sys2Proof.Machine

/-- Why the model stops with a fault.  The device reports every error in its own registers and goes on,
so no command of the table stops with one. -/
inductive Fault where
  /-- Raised by no command (safe); it stands for the interface. -/
  | neverRaised
deriving DecidableEq, Repr

/-- Why the model refuses a command. -/
inductive Refusal where
  /-- Raised by an arm of exec whose command has no meaning yet (safe: the machine stops). -/
  | notModelled (mnemonic : String)
deriving DecidableEq, Repr

/-- A fast command received and waiting for its effective tick (R47). -/
structure FastCmd where
  due  : Nat
  code : BitVec 8
deriving DecidableEq, Repr

/-- The first block of a POSTMARK_SET (R41): the tick it arrived in, V[47:8], and L as
TIM_FIXED_LATENCY.LATENCY stood in that tick (R42). -/
structure PmFirst where
  tick : Nat
  vHi  : BitVec 40
  lat  : BitVec 12
deriving DecidableEq, Repr

/-- An accepted POSTMARK_SET (R42): its first block's tick, V and L. -/
structure PmSet where
  tick : Nat
  v    : PM
  lat  : BitVec 12
deriving DecidableEq, Repr

/-- The clock, the two postmark counters, the descrambler, and the commands in time order (chapter 02):
fast commands received, those whose envelope the field die has, POSTMARK_SETs, the rename the field die
holds, and of the last rename its tick and that tick's old name. -/
structure TimeSt where
  tick      : Nat
  hpm       : PM
  fpm       : PM
  clk       : Bool
  goodRun   : Nat
  hdrBad    : BitVec 64
  descr     : BitVec 58
  pmHiLatch : BitVec 16
  fast      : List FastCmd
  fieldFast : List (PM × BitVec 8)
  pmFirst   : Option PmFirst
  pmSet     : Option PmSet
  rename    : Option (PM × PM)
  lastRen   : Option (Nat × PM)
deriving DecidableEq, Repr

/-- What a launch-queue entry is (R50, R51): a write, a management write queued through ARM, a
palette bank swap, a schedule-table switch, or one of the device's own. -/
inductive LKind where
  | plain
  | armed
  | bankSwap
  | schedSwitch
deriving DecidableEq, Repr

/-- A launch-queue entry (R49), with the window address its write keeps (R371). -/
structure LEntry where
  pm     : PM
  idx    : Nat
  val    : Word
  master : Master
  wa     : Nat
  kind   : LKind
  tag    : Nat
deriving DecidableEq, Repr

/-- An unlaunched write held for a stroke or a sheet boundary (R48). -/
structure HeldWr where
  field   : Bool
  sheet   : Bool
  arrived : Nat
  idx     : Nat
  val     : Word
  master  : Master
  wa      : Nat
deriving DecidableEq, Repr

/-- A quiet window (R54): its opening boundary, its closing boundary once known, and whether it is
open or still pending. -/
structure Gap where
  opens  : PM
  closes : Option PM
  isOpen : Bool
deriving DecidableEq, Repr

/-- The policy of a fault source (Table 16-10). -/
structure Policy where
  sev    : BitVec 2
  second : Bool
  action : BitVec 3
  qexp   : BitVec 5
  wexp   : BitVec 5
  n      : BitVec 4
deriving DecidableEq, Repr

/-- A fault source (R341, R345, R351): its policy, LEVEL, CNT, WSTART, the count of quiet sheets,
LSEV, the severity of the notices sent in this sheet, whether it raised in this sheet and whether a
standing condition holds; and of its last raise the tick, the level before it, the levels it rose by
and whether a second fault was one of them. -/
structure Source where
  pol     : Policy
  level   : Nat
  cnt     : Nat
  wstart  : BitVec 42
  quiet   : Nat
  lsev    : Nat
  noticed : Option Nat
  noisy   : Bool
  holds   : Bool
  last    : Option Nat
  lvl0    : Nat
  esc     : Nat
  second  : Bool
deriving DecidableEq, Repr

/-- An envelope waiting for a lane (R270, R271): everything but what its first beat settles. -/
structure Draft where
  typ     : BitVec 4
  len     : BitVec 10
  unit    : BitVec 8
  pm      : Option (BitVec 24)
  payload : Nat
  first   : Bool
deriving DecidableEq, Repr

/-- An envelope on the lanes: the direction, the tick of its delivery (R263) and its bits. -/
structure Flight where
  toHost : Bool
  due    : Nat
  env    : Env
deriving DecidableEq, Repr

/-- A spare swap under way (R277): the direction, the logical lane, its boundary, and whether the
answer that R277 waits for has come. -/
structure Swap where
  toHost   : Bool
  lane     : Nat
  at_      : PM
  answered : Bool
deriving DecidableEq, Repr

/-- The barrier (chapter 12): lane maps, envelopes waiting and in flight, training, the drape lane
and swaps. -/
structure BarSt where
  f2hMap     : List Nat
  h2fMap     : List Nat
  f2hSpare   : Option Nat
  h2fSpare   : Option Nat
  txF        : List Draft
  txH        : List Draft
  freeF      : Nat
  freeH      : List Nat
  flights    : List Flight
  swap       : List Swap
  shedAt     : Option PM
  trainStart : Option Nat
  attempt    : Nat
  hostEpoch  : BitVec 2
  fieldEpoch : BitVec 2
  prevHostEpoch  : List (Nat × BitVec 2)
  prevFieldEpoch : List (Nat × BitVec 2)
  hbSeen     : Bool
  lastHbSev  : Nat
deriving DecidableEq, Repr

/-- The pins and the causes of drape (R28, R38, R274): levels of DRAPE_N and FIELD_DRAPE_N, the
commanded drape, the field side's power, the state of the drape lane at the field die and whether its
symbols are invalid, the outputs IRQ_N and ALIVE, and whether a hold keeps ALIVE low; the synchroniser
of DRAPE_N (a 1 for a low level; bit i is the level i + 1 ticks ago), and the symbols that causes other than a
fast command put on the lane (a 1 for drape; bit i was sent i ticks ago). -/
structure PinSt where
  drapeN      : Bool
  fieldDrapeN : Bool
  commanded   : Bool
  fieldPower  : Bool
  laneDrape   : Bool
  laneInvalid : Bool
  irqN        : Bool
  alive       : Bool
  aliveHeld   : Bool
  lowSync     : BitVec 3
  laneSent    : BitVec 4
deriving DecidableEq, Repr

/-- A staged engine write (R245): index, value, whether it is launched and at which postmark, and the
window address it keeps. -/
structure Staged where
  idx    : Nat
  val    : Word
  launch : Option PM
  wa     : Nat
deriving DecidableEq, Repr

/-- A stencil entry (R246): the target, the window address when the target is a table word, and the
old value. -/
structure Stencil where
  idx : Nat
  wa  : Nat
  old : Word
deriving DecidableEq, Repr

/-- A field read that waits for its REPLY (R238): the index, the microword, and the value once it has come, with the
tick in which it came. -/
structure FieldRead where
  idx  : Nat
  word : Micro
  got  : Option (Nat × Word)
deriving DecidableEq, Repr

/-- A running routine: its number, ARG, whether it has committed, the tick in which its current wait began, and the
field read that it waits for (R238). -/
structure Ctx where
  routine   : Nat
  arg       : W24
  committed : Bool
  waitFrom  : Option Nat
  reading   : Option FieldRead
deriving DecidableEq, Repr

/-- One engine's hidden state (R233, R239 to R257).  Its stores and working registers are window
words, its flags and addresses register fields. -/
structure EngSt where
  pend      : Assoc W24
  main      : Option Ctx
  svc       : Option Ctx
  stack     : List (BitVec 12)
  stencil   : List Stencil
  staged    : List Staged
  owed      : List (Nat × Nat × W24)
  causes    : BitVec 5
  held      : BitVec 5
  restoreAt : Option Nat
  skip      : List (Nat × Nat)
  freeAt    : Nat
  restarts  : Assoc Nat
  events    : Assoc Nat
  launches  : Nat
  broken    : Bool
  stepReq   : Bool
deriving DecidableEq, Repr

/-- A row driver (R79, R88): amplitude A, step-interval counter C, the carrier, phase and range it
synthesises, the strokes of SWITCH left (0 in state ACTIVE), overload, and, bit n for n sheets ago,
whether the driver puts HOLD on that sheet (R90). -/
structure Drv where
  a    : Nat
  c    : Nat
  k    : Nat
  ph   : Nat
  rg   : Nat
  w    : Nat
  ovl  : Bool
  ltch : Bool
  hist : BitVec 8
deriving DecidableEq, Repr

/-- Palette and excitation (chapter 04): the drivers that differ from the idle one, the clamps of
R92, the copy in progress, and the sheets in which some driver stepped (R91). -/
structure PalSt where
  drv      : Assoc Drv
  clamps   : Bool
  copyPos  : Option Nat
  stepHist : BitVec 8
deriving DecidableEq, Repr

/-- Fault handling beside the fault groups: isolated units, those to isolate at the next sheet
boundary (R347), units declared failed (R350), the SAFE entry due in the next tick (R348), the host's
mirror of field latches and of field IRQ_ENABLE registers (R352), the spare swaps that FAULT_POLICY still owes and
those it has launched (R349), and the tick of the first sticky reason (R8). -/
structure FltSt where
  iso      : List Nat
  isoNext  : List Nat
  failed   : List Nat
  safeDue  : Option Nat
  mirror   : Assoc (BitVec 16)
  mirSev   : Assoc Nat
  swapDue  : List (Nat × PM)
  swapSent : List Staged
  irqMir   : Assoc Word
  stickyAt : Nat
deriving DecidableEq, Repr

/-- A power transition under way (R360, R361): whether it wakes, the state it leaves and its target, its
first tick T, the W that stood at T, whether R365 excuses a late end, the tick in which the rows may begin to
ramp, the boundary E of the last step once known, the tick of the columns' return and that of the end. -/
structure PwrRun where
  wake    : Bool
  fromSt  : Nat
  target  : Nat
  start   : Nat
  predict : Nat
  exempt  : Bool
  ramp    : Nat
  last    : Option Nat
  back    : Option Nat
  done    : Option Nat
deriving DecidableEq, Repr

/-- Power states (chapter 17): the first tick T of a scheduled transition by its postmark, whether the host
part is launched, the transition under way, whether the rows' goal is the REST code, and whether the
reference buffer is off and the converters wait for it. -/
structure PwrSt where
  atT      : Option PM
  launched : Bool
  run      : Option PwrRun
  rest     : Bool
  refOff   : Bool
  hkWaits  : Bool
deriving DecidableEq, Repr

/-- A front end (R104, R109): bit n of clip for a clipped sample in the sheet n ago, of clipStr in the
stroke n ago, and the count of sheets with one. -/
structure FeSt where
  clip    : BitVec 8
  clipStr : BitVec 8
  sheets  : Nat
deriving DecidableEq, Repr

/-- A logical column: bit n of hold for a change that puts HOLD on the sheet n ago and the next, the
first tick from which samples are good (R129), the run of sheets with OVR, and whether calibration has
switched its input away. -/
structure ColCh where
  hold      : BitVec 8
  badBefore : Nat
  ovrRun    : Nat
  away      : Bool
deriving DecidableEq, Repr

/-- A rover's dwell (R117, R118): the column tapped, the dwell's first sheet, D and n_used of each
row, and the column from which the next one is sought. -/
structure Rover where
  dwelling : Bool
  col      : Nat
  start    : PM
  d        : Assoc Int
  n        : Assoc Nat
  next     : Nat
deriving DecidableEq, Repr

/-- Column front ends and rovers (chapter 05); for each column whose front end has changed, the boundary of the
change and the front end that served it before. -/
structure ColSt where
  fe     : Assoc FeSt
  col    : Assoc ColCh
  rover  : Assoc Rover
  was    : Assoc (PM × Nat)
deriving DecidableEq, Repr

/-- The reading inputs and flags of one logical column for one sheet, as the sheet's last stroke
leaves them (R128, R131, R132), with the coefficients that are not the reset values, the temperature
map entry and the code in force (R152), the channels whose set is unreadable (R162), and whether the
sheet has no reading (R138). -/
structure ColSnap where
  sheet  : PM
  xs     : List Int
  flags  : List Nat
  coef   : Assoc W24
  badCh  : List Nat
  tmap   : W24
  mapBad : Bool
  code   : W24
  tas    : Bool
  off    : Bool
  noRead : Bool
  fe     : Nat
deriving DecidableEq, Repr

/-- A CAPTURE (R139): the tick from which the stroke may start, then the amplitudes to write and how
many channels have been written. -/
structure Capture where
  from_ : Nat
  vals  : Assoc W24
  taken : Bool
  doneN : Nat
deriving DecidableEq, Repr

/-- Demodulation and nulling (chapter 06) beside its window tables: loop gains and nulling ranges of
the pin units, the partial sums of the last strokes, convergence, the amplitudes at ticks 15 and 31 of
the sheet, snapshots, saturation and clamping, and what memory errors leave. -/
structure NulSt where
  gain      : Assoc Nat
  range     : Assoc Nat
  sums      : Assoc (List (Int × Int))
  cnt       : Assoc Nat
  fin       : Assoc Nat
  a15       : Assoc Int
  a31       : Assoc Int
  satNow    : Assoc Nat
  satRun    : Assoc Nat
  snaps     : Assoc ColSnap
  started   : Bool
  startTick : Nat
  capture   : Option Capture
  badBefore : Nat
  renTick   : Nat
  holdAt    : Option PM
  chBad     : Assoc Nat
  zeroCh    : List Nat
  primerBad : List Nat
  wordBad   : List Nat
  clamp     : Assoc (BitVec 8)
  clampNext : List Nat
  clipSheet : Bool
  ampOld    : Assoc W24
  ampStand  : Nat
  reprime   : Bool
deriving DecidableEq, Repr


/-- A copy of a housekeeping result in a source's copy store (R155). -/
structure VCopy where
  code   : W24
  stamp  : PM
  status : BitVec 3
deriving DecidableEq, Repr

/-- Varnish (chapter 07): the copy stores, newest first, the stamp last latched for each source, the
results that completed before the last POSTMARK_SET took effect (R158), the copy in progress and the
words with an uncorrectable error (R162). -/
structure VarSt where
  copies  : Assoc (List VCopy)
  latched : Assoc PM
  stale   : List (Nat × PM)
  copyPos : Option Nat
  badWord : List Nat
deriving DecidableEq, Repr


/-- A stream setting that governed groups before a boundary (R171): the boundary and the mask and EXP. -/
structure OldStr where
  until_ : PM
  mask   : BitVec 32
  exp    : Nat
  minV   : Nat
deriving DecidableEq, Repr

/-- A column block of 1632 bits, the sheet s whose slots it uses, so that it goes under cover s + 192
(R168, R170), whether the host die synthesised it (R21), and the front end that served its column. -/
structure Block where
  slot : PM
  col  : Nat
  bits : Nat
  lost : Bool
  fe   : Nat
deriving DecidableEq, Repr

/-- The stream (chapter 08): earlier settings, the sums of the groups in progress (R169), decimated
blocks waiting on the field die, blocks on the host die, and for the carrying sheet its parcels, whether
the stream is sent, and the LOST blocks under its cover. -/
structure StrSt where
  old   : List OldStr
  acc   : Assoc (Int × Nat × Nat)
  waitF : List Block
  here  : List Block
  plan  : List Parcel
  live  : Bool
  lostN : Nat
deriving DecidableEq, Repr

/-- A trigger fragment (R176 to R179): t, the first sheet, LEN, the region, D, the answer port, its
count, whether the header has still to leave, the next data parcel, and whether the field die has the
TRIGGER. -/
structure Frag where
  t      : PM
  first  : PM
  len    : Nat
  region : Nat
  cF     : Nat
  cL     : Nat
  rF     : Nat
  rL     : Nat
  d      : Nat
  port   : Nat
  seq    : Nat
  at_    : PM
  header : Bool
  next   : Nat
  field  : Bool
deriving DecidableEq, Repr

/-- An event record in progress (R181 to R183). -/
structure Rec where
  ch    : Nat
  t     : PM
  diff  : Int
  prof  : Nat
  tpl   : Nat
  ofs   : Nat
  count : Nat
  pre   : Nat
  flags : Nat
  done  : PM
deriving DecidableEq, Repr

/-- A record in the event queue (R183, R184): its energy, its readings, its SEQ and the parcels that
have left. -/
structure QRec where
  rcd    : Rec
  energy : Nat
  body   : List W24
  seq    : Nat
  sent   : Nat
deriving DecidableEq, Repr

/-- A parcel of a fragment or a record and the slot it leaves in: the slot's tick and port, whether it
is a trigger slot, and whether the parcel is on the host die (R178, R180, R184). -/
structure DueSlot where
  pm     : PM
  port   : Nat
  trig   : Bool
  parcel : Parcel
  sent   : Bool
  here   : Bool
deriving DecidableEq, Repr

/-- Fragments and events (chapter 08): the horizon, refused TRIGs since the last header, accepted TRIGs
since POSTMARK_SET, fragments, records in progress, the event queue, records dropped since the last one
sent, the last trigger of each channel, parcels with a slot, and window words with an uncorrectable
error. -/
structure EvtSt where
  horizon : Option PM
  lostTrg : Nat
  trigSeq : Nat
  recSeq  : Nat
  frags   : List Frag
  recs    : List Rec
  queue   : List QRec
  lostRec : Nat
  lastTrg : Assoc PM
  due     : List DueSlot
  badWord : List Nat
deriving DecidableEq, Repr

/-- A peer lane-sheet that was accepted (R296, R297): the port, peer sheet S, the tick in which its cover
was decoded and its 64 parcels. -/
structure PeerSheet where
  port    : Nat
  sheet   : PM
  arrived : Nat
  parcels : List Parcel
deriving DecidableEq, Repr

/-- A record of the HK or status queue (R294): the tick in which it entered, SOURCE, the 96-bit payload
and the UNIT of its envelope. -/
structure QItem where
  tick : Nat
  src  : Nat
  pay  : Nat
  unit : Nat
deriving DecidableEq, Repr

/-- A slow-control request that waits for the field die's REPLY (R288): TAG, frame, OP, index, value,
launch postmark and the completion tick. -/
structure ScWait where
  tag  : Nat
  op   : Nat
  idx  : Nat
  val  : Word
  pm   : PM
  done : Nat
deriving DecidableEq, Repr

/-- A reply slot's content (R289): whether it is REPLY1, the tick in which its cover leaves and its 56
bits. -/
structure ScReply where
  second : Bool
  tick   : Nat
  bits   : Nat
deriving DecidableEq, Repr

/-- A block of a slow-control frame (R286): the tick, its 40-bit field, and whether it is bad for the
frame (R287). -/
structure ScBlock where
  tick  : Nat
  field : Nat
  bad   : Bool
deriving DecidableEq, Repr

/-- Links and the sorting office (chapter 13): failed lanes and their b, peer lane-sheets, the parcel
each port sends, the HK and status queues, slow control in progress, MARKs received, the field die's
copy of the table selection, runs of bad peer sheets, the ticks of requests that Courier has not dispatched
(R355), and of each port the scrambler and the four line blocks of the parcel in this tick (R290). -/
structure LnkSt where
  retire   : List (Nat × PM)
  autoAt   : Option PM
  peers    : List PeerSheet
  out      : Assoc Parcel
  hkQ      : List QItem
  stQ      : List QItem
  scWait   : List ScWait
  replies  : List ScReply
  marks    : List (Nat × Nat)
  frame    : List ScBlock
  fieldTab : Bool
  badRun   : Assoc Nat
  scBusy   : List Nat
  scr      : Assoc (BitVec 58)
  line     : Assoc (List (BitVec 2 × BitVec 64))
deriving DecidableEq, Repr

/-- What a housekeeping converter converts: nothing else runs beside it (R193, R199, R206). -/
inductive HkKind where
  | check
  | entry
  | urgent
  | cal
deriving DecidableEq, Repr

/-- A running conversion (R187 to R192): its kind and entry, the entry word it started with, the factors
of its gain, its position among the entry's conversions, the sum of the counted codes, and the bits 28
and 29 gathered so far; and its first tick and length. -/
structure HkConv where
  kind  : HkKind
  entry : Nat
  word  : Word
  ofs   : Int
  gainf : Nat
  k     : Nat
  sum   : Int
  ovr   : Bool
  ns    : Bool
  start : Nat
  ticks : Nat
deriving DecidableEq, Repr

/-- A housekeeping converter (chapter 09): the conversion that runs, the one that starts next, what an
urgent run or a self-calibration interrupted, the pending urgent request, LENGTH of the pass, its check
value, the self-calibration's gains, tolerance and sums, whether SAFE or a power state has stopped it,
and results that wait for Brush's hand-over. -/
structure HkSt where
  conv    : Option HkConv
  next    : Option (HkKind × Nat)
  resume  : Option (HkKind × Nat)
  pass    : Bool
  urg     : Option Nat
  len     : Nat
  check   : Option Int
  gains   : List Nat
  tol     : Nat
  sums    : List Int
  halted  : Bool
  off     : Bool
  hand    : List (Nat × VCopy)
deriving DecidableEq, Repr

/-- The calibration item that runs (R218, R225): whether it is a rover check, the column, front end, range
code, nulling range, loop gain and external delay, the measured rows, its first tick, K_CAL, DELTA and
QUIET in force there (R231), the sums of each sheet by its number (offset, carrier, rows), the largest
residual of sheet 0, and the held amplitudes of the measured rows. -/
structure CalWork where
  rover : Bool
  col   : Nat
  f     : Nat
  g     : Nat
  n     : Nat
  gain  : Nat
  dext  : Nat
  rows  : List Nat
  start : Nat
  kCal  : Nat
  delta : Nat
  quiet : Nat
  offs  : Assoc Int
  carr  : Assoc (Int × Int)
  rsum  : Assoc (List (Nat × Int × Int))
  resid : Nat
  held  : List (Nat × Int)
deriving DecidableEq, Repr

/-- A result set that awaits the closing boundary (R221, R226). -/
structure ResultSet where
  col    : Nat
  f      : Nat
  g      : Nat
  n      : Nat
  trim0  : W24
  trim1  : W24
  rho    : Option W24
  rots   : List (Nat × W24 × W24)
  gerr   : W24
  perr   : Nat
  margin : Nat
deriving DecidableEq, Repr

/-- Calibration (chapter 10): the round and the columns tried in this window, the item that runs and its
sums in the present sheet, pending result sets, the trace check's converter and entry, a CAL_FIRE that
waits, whether the rover record has been checked, columns that are switched away until a tick, columns
that take CALD at the closing boundary, and whether the rows' partial sums are at sheet start. -/
structure CalSt where
  round   : List Nat
  tried   : List Nat
  work    : Option CalWork
  offNow  : Assoc Int
  carNow  : Assoc (Int × Int)
  pend    : List ResultSet
  trace   : Option (Hk × Nat)
  fire    : Bool
  checked : Bool
  away    : List (Nat × Nat)
  calds   : List Nat
deriving DecidableEq, Repr


/-- A completed management write in the port's buffer (R311): index, value and the launch postmark that
ARM gave it (R52). -/
structure MgtWr where
  idx    : Nat
  val    : Word
  launch : Option PM
deriving DecidableEq, Repr

/-- A management read that waits for the tick domain or for its REPLY (R311, R312): the frame's index and the
register that it reaches (R314), whether it is a live read of the high half (R309), whether the high half
follows from the pair hold, how many further pairs an RDN asks for, the tick of completion, and whether a READ
envelope has been sent. -/
structure MgtRead where
  idx  : Nat
  tgt  : Nat
  high : Bool
  full : Bool
  left : Nat
  done : Nat
  sent : Bool
deriving DecidableEq, Repr

/-- The management port (chapter 14): the write hold, the write buffer, the waiting read, whether the last
frame ended inside a half-word (R308), the half-words that the last read frame has sent, and the first tick in
which a write may leave the buffer again. -/
structure MgtSt where
  hold  : Option (Nat × BitVec 16)
  buf   : List MgtWr
  wait  : Option MgtRead
  abort : Bool
  out   : List (BitVec 16)
  next  : Nat
deriving DecidableEq, Repr

/-- The steps of start-up (Table 15-9) and what is left when it has ended. -/
inductive Phase where
  | none
  | check
  | hostTest
  | training
  | fieldTest
  | load
  | loadWait
  | ramp
  | primer
  | waitReady
  | done
deriving DecidableEq, Repr

/-- A slot store in progress (R229): whether it waits for a CAPTURE and whether the primer is kept. -/
structure StoreSt where
  capture : Bool
  kept    : Bool
deriving DecidableEq, Repr

/-- A flash operation in progress (R317): OP and ADDR. -/
structure FlashOp where
  op   : Nat
  addr : Nat
deriving DecidableEq, Repr

/-- Configuration and start-up (chapter 15): the flash's bytes, an unlisted one reading 0xFF; the step of
start-up and the step whose test failed; whether the barrier trained and AUTO_RUN
is still to act; what the image in use gives beside its targets: options of Table 15-6, the units its map
entries name, the bank and the table active at load and the CRC of R230; the slot store, the held request,
and the flash operation. -/
structure CfgSt where
  flash    : List Host.Cell
  phase    : Phase
  failedAt : Phase
  autoRun  : Bool
  optional : List Nat
  named    : List Nat
  palBank  : Bool
  schedTab : Bool
  loopCrc  : Nat
  store    : Option StoreSt
  held     : Bool
  flashOp  : Option FlashOp
deriving DecidableEq, Repr

/-- The whole device: the commands that wait, the register file and window tables (sparse, an
unlisted key reading as its reset value), the window addresses of each master (R371), the device's
own commands in time, the launch queues, and the hidden state of each chapter; free is the model's
own counter of free values used, no state of the spec's. -/
structure State where
  pending  : List Instr
  regs     : Assoc Word
  wins     : Assoc W24
  winAddrs : Assoc Nat
  srcs     : Assoc Source
  recTick  : Assoc Nat
  timers   : List (Nat × Instr)
  hostQ    : List LEntry
  fieldQ   : List LEntry
  held     : List HeldWr
  gap      : Option Gap
  tm       : TimeSt
  bar      : BarSt
  pin      : PinSt
  flt      : FltSt
  cou      : EngSt
  bru      : EngSt
  pal      : PalSt
  pwr      : PwrSt
  col      : ColSt
  nul      : NulSt
  var      : VarSt
  str      : StrSt
  evt      : EvtSt
  lnk      : LnkSt
  hka      : HkSt
  hkb      : HkSt
  refOnAt  : Nat
  cal      : CalSt
  mgt      : MgtSt
  cfg      : CfgSt
  free     : Nat
deriving DecidableEq, Repr


/-! ### Reset (R373): what each structure holds after power-up -/

/-- The clock after power-up: none is there; the postmarks and the descrambler are at 0. -/
def TimeSt.reset : TimeSt :=
  ⟨0, 0, 0, false, 0, 0, 0, 0, [], [], none, none, none, none⟩

/-- The barrier after power-up: no lane is assigned and nothing waits (R264). -/
def BarSt.reset : BarSt :=
  ⟨[], [], none, none, [], [], 0, [], [], [], none, none, 0, 0, 0, [], [], false, 0⟩

/-- The pins after power-up: DRAPE_N and FIELD_DRAPE_N are high unless the world drives them; both
sides have power; IRQ_N is high and ALIVE low (R353, R374); the drape lane carries clear. -/
def PinSt.reset : PinSt :=
  ⟨true, true, false, true, false, false, true, false, true, 0, 0⟩

/-- Fault handling after power-up. -/
def FltSt.reset : FltSt := ⟨[], [], [], none, [], [], [], [], [], 0⟩

/-- An engine after power-up: halted, nothing pending. -/
def EngSt.reset : EngSt :=
  ⟨[], none, none, [], [], [], [], 0, 0, none, [], 0, [], [], 0, false, false⟩

/-- Palette and excitation after power-up: the rows are on their clamps (R92). -/
def PalSt.reset : PalSt := ⟨[], true, none, 0⟩

/-- Power after power-up: state RUN, no transition (R358). -/
def PwrSt.reset : PwrSt := ⟨none, false, none, false, false, false⟩

/-- Column front ends after power-up. -/
def ColSt.reset : ColSt := ⟨[], [], [], []⟩

/-- Nulling after power-up: no loop has started. -/
def NulSt.reset : NulSt :=
  ⟨[], [], [], [], [], [], [], [], [], [], false, 0, none, 0, 0, none, [], [], [], [], [], [],
    false, [], 0, false⟩

/-- Varnish after power-up. -/
def VarSt.reset : VarSt := ⟨[], [], [], none, []⟩

/-- The stream after power-up. -/
def StrSt.reset : StrSt := ⟨[], [], [], [], [], false, 0⟩

/-- Fragments and events after power-up. -/
def EvtSt.reset : EvtSt := ⟨none, 0, 0, 0, [], [], [], 0, [], [], []⟩

/-- Links after power-up. -/
def LnkSt.reset : LnkSt := ⟨[], none, [], [], [], [], [], [], [], [], false, [], [], [], []⟩

/-- A housekeeping converter after power-up. -/
def HkSt.reset : HkSt := ⟨none, none, none, false, none, 0, none, [], 0, [], false, false, []⟩

/-- Calibration after power-up. -/
def CalSt.reset : CalSt := ⟨[], [], none, [], [], [], none, false, false, [], []⟩

/-- The management port after power-up. -/
def MgtSt.reset : MgtSt := ⟨none, [], none, false, [], 0⟩

/-- Configuration after power-up: the flash lists no byte. -/
def CfgSt.reset : CfgSt :=
  ⟨[], .none, .none, false, [], [], false, false, 0, none, false, none⟩

/-- The device right after power-up (R373): every register, window table and window address at its
reset value, no clock, nothing under way, and no command waiting. -/
def State.reset : State :=
  { pending := [], regs := [], wins := [], winAddrs := [], srcs := [], recTick := [], timers := [],
    hostQ := [], fieldQ := [], held := [], gap := none, tm := TimeSt.reset, bar := BarSt.reset,
    pin := PinSt.reset, flt := FltSt.reset, cou := EngSt.reset, bru := EngSt.reset,
    pal := PalSt.reset, pwr := PwrSt.reset, col := ColSt.reset, nul := NulSt.reset,
    var := VarSt.reset, str := StrSt.reset, evt := EvtSt.reset, lnk := LnkSt.reset,
    hka := HkSt.reset, hkb := HkSt.reset, refOnAt := 0, cal := CalSt.reset, mgt := MgtSt.reset,
    cfg := CfgSt.reset, free := 0 }

end Sys2Proof.Machine
end

