-- ==== Sys2Proof/Machine/Ops.lean ====
section
/-!
DEFINITION. The named operations over registers, fields, window tables and the time base that every
chapter's rules share.
-/
namespace Sys2Proof.Machine

/-! ### Sparse tables -/

/-- The value at a key, the default where the table lists none. -/
def assocGet {α : Type} : Assoc α → Nat → α → α
  | [], _, d => d
  | (k, v) :: t, i, d => if k = i then v else assocGet t i d

/-- Put a value at a key, keeping the keys rising. -/
def assocSet {α : Type} : Assoc α → Nat → α → Assoc α
  | [], i, v => [(i, v)]
  | (k, w) :: t, i, v =>
    if i < k then (i, v) :: (k, w) :: t
    else if i = k then (i, v) :: t
    else (k, w) :: assocSet t i v

/-- Drop a key. -/
def assocErase {α : Type} : Assoc α → Nat → Assoc α
  | [], _ => []
  | (k, w) :: t, i => if k = i then assocErase t i else (k, w) :: assocErase t i

/-- Put a value at a key of a table whose unlisted keys read as d: writing d drops the key. -/
def assocPut {α : Type} [DecidableEq α] (t : Assoc α) (i : Nat) (v d : α) : Assoc α :=
  if v = d then assocErase t i else assocSet t i v

/-- The canonical form of a sparse table: the keys rise strictly, and no entry equals the default of its key. -/
abbrev assocWf {α : Type} (d : Nat → α) (t : Assoc α) : Prop :=
  t.Pairwise (fun a b => a.1 < b.1) ∧ ∀ e ∈ t, e.2 ≠ d e.1

/-- Whether a table lists a key. -/
def assocHas {α : Type} (t : Assoc α) (i : Nat) : Bool := t.any (fun e => e.1 == i)

/-! ### Registers and their fields (R11 to R13) -/

/-- The stored value of a register; an index that no register occupies holds its reset value 0. -/
def State.reg (s : State) (i : Nat) : Word := assocGet s.regs i (regReset i)

/-- Store a register's value. -/
def State.setReg (s : State) (i : Nat) (v : Word) : State :=
  { s with regs := assocPut s.regs i v (regReset i) }

/-- The bits of a field within a 32-bit word. -/
def fldMask (f : Fld) : Word := BitVec.ofNat 32 ((2 ^ f.len - 1) * 2 ^ f.lo)

/-- A field's value within a word. -/
def fldGet (f : Fld) (w : Word) : Nat := w.toNat / 2 ^ f.lo % 2 ^ f.len

/-- A word with one field replaced, the value taken modulo the field's width. -/
def fldPut (f : Fld) (w : Word) (v : Nat) : Word :=
  BitVec.ofNat 32
    (w.toNat / 2 ^ (f.lo + f.len) * 2 ^ (f.lo + f.len) + v % 2 ^ f.len * 2 ^ f.lo
      + w.toNat % 2 ^ f.lo)

/-- A register field's stored value. -/
def State.fld (s : State) (f : Fld) : Nat := fldGet f (s.reg f.reg)

/-- Store a register field's value. -/
def State.setFld (s : State) (f : Fld) (v : Nat) : State := s.setReg f.reg (fldPut f (s.reg f.reg) v)

/-- Store a one-bit field. -/
def State.setBit (s : State) (f : Fld) (b : Bool) : State := s.setFld f (if b then 1 else 0)

/-- A one-bit field as a truth value. -/
def State.bit (s : State) (f : Fld) : Bool := s.fld f == 1

/-- Add to a counter field that saturates at its maximum. -/
def State.count (s : State) (f : Fld) (n : Nat) : State :=
  s.setFld f (min (s.fld f + n) (2 ^ f.len - 1))

/-- Increment a saturating counter field. -/
def State.inc (s : State) (f : Fld) : State := s.count f 1

/-! ### Window tables (R371, R372) -/

/-- The key of a window word: the block above 24 address bits. -/
def winKey (b : Blk) (a : Nat) : Nat := blkNum b * 2 ^ 24 + a % 2 ^ 24

/-- A master's own copy of a block's window address; every copy resets to 0 (R371). -/
def State.winAddr (s : State) (b : Blk) (m : Nat) : Nat := assocGet s.winAddrs (blkNum b * 8 + m % 8) 0

/-- Store a master's window address, bits above the block's width reading 0 (R372). -/
def State.setWinAddr (s : State) (b : Blk) (m : Nat) (a : Nat) : State :=
  { s with winAddrs := assocPut s.winAddrs (blkNum b * 8 + m % 8) (a % 2 ^ winWidth b) 0 }

/-- What an unlisted word of a window table reads as: its reset value (R13, R26, Tables 06-14, 07-1,
08-11, 08-13, 10-15, 13-7); an unlisted word of the pigeonholes reads as field load leaves it
(R173). -/
def winReset (b : Blk) (a : Nat) : W24 :=
  match b with
  | .pal => if 0x200 ≤ a ∧ a < 0x240 then BitVec.ofNat 24 ((a - 0x200) * 257) else 0
  | .col => if 0x100 ≤ a ∧ a < 0x120 then BitVec.ofNat 24 ((a - 0x100) * 257) else 0
  | .nul => if 0x10000 ≤ a ∧ a < 0x18800 ∧ a % 2 = 0 then 0x400000 else 0
  | .var => if a < 0x8000 ∧ a % 8 = 1 then 0x100000 else 0
  | .lnk => if a < 0x200 ∧ a % 64 = 0 then 0x100000 else 0
  | .evt =>
    if 0x1000 ≤ a ∧ a < 0x1008 then (if a % 2 = 0 then 0x010000 else 0x000080)
    else if 0x1100 ≤ a ∧ a < 0x1108 then 0x00003F
    else if 0x100000 ≤ a ∧ a < 0x130000 then (if (a - 0x100000) % 3 = 0 then 0x04FFFF else 0xFFFFFF)
    else if 0x400000 ≤ a ∧ a < 0x800000 then 0x800000 else 0
  | .cal =>
    if 0xA00 ≤ a ∧ a < 0xA08 then 0x008000
    else if a = 0xA10 then 0x002710
    else if a = 0xA11 then 0x000014
    else if a = 0xA12 then 0x00A000 else 0
  | _ => 0

/-- The stored word of a window table. -/
def State.win (s : State) (b : Blk) (a : Nat) : W24 := assocGet s.wins (winKey b a) (winReset b (a % 2 ^ 24))

/-- A stored word of a window table as a number. -/
def State.winN (s : State) (b : Blk) (a : Nat) : Nat := (s.win b a).toNat

/-- Store a word of a window table. -/
def State.setWin (s : State) (b : Blk) (a : Nat) (v : W24) : State :=
  { s with wins := assocPut s.wins (winKey b a) v (winReset b (a % 2 ^ 24)) }

/-- Store a number as a word of a window table. -/
def State.setWinN (s : State) (b : Blk) (a v : Nat) : State := s.setWin b a (BitVec.ofNat 24 v)

/-- The code of a master (R267, Table 16-2). -/
def masterCode : Master → Nat
  | .slow => 0 | .mgt => 1 | .courier => 2 | .brush => 3
  | .datapath => 4 | .loader => 5 | .barrier => 6 | .selftest => 7

/-! ### Words of bits -/

/-- Bits hi down to lo of a number. -/
def bitsOf (x hi lo : Nat) : Nat := x / 2 ^ lo % 2 ^ (hi + 1 - lo)

/-- Bit i of a number. -/
def bitOf (x i : Nat) : Bool := x / 2 ^ i % 2 == 1

/-- The signed value of the low w bits of a number. -/
def sgn (w x : Nat) : Int :=
  let y := x % 2 ^ w
  if 2 ^ (w - 1) ≤ y then (y : Int) - (2 ^ w : Nat) else (y : Int)

/-- The low w bits of a signed number, two's complement. -/
def unsgn (w : Nat) (x : Int) : Nat := (x % (2 ^ w : Nat)).toNat

/-- A signed number held to a range. -/
def clampInt (lo hi x : Int) : Int := if x < lo then lo else if hi < x then hi else x

/-! ### Boundaries (R15, R45) -/

/-- A postmark at which a sheet begins. -/
def isSheet (p : PM) : Bool := p.toNat % 64 == 0

/-- A postmark at which a stroke begins. -/
def isStroke (p : PM) : Bool := p.toNat % 16 == 0

/-- The name of the sheet that holds a postmark. -/
def sheetOf (p : PM) : PM := BitVec.ofNat 48 (p.toNat / 64 * 64)

/-- The first sheet boundary at or after a postmark. -/
def sheetAtOrAfter (p : PM) : PM := BitVec.ofNat 48 ((p.toNat + 63) / 64 * 64)

/-- The first sheet boundary strictly after a postmark. -/
def sheetAfter (p : PM) : PM := BitVec.ofNat 48 ((p.toNat / 64 + 1) * 64)

/-- The first stroke boundary strictly after a postmark. -/
def strokeAfter (p : PM) : PM := BitVec.ofNat 48 ((p.toNat / 16 + 1) * 16)

/-- The distance from a to b, modulo 2^48 (R40, R49). -/
def pmDist (a b : PM) : Nat := (b - a).toNat

/-- b is at or after a in modulo-2^48 order. -/
def pmGe (b a : PM) : Bool := pmDist a b < 2 ^ 47

/-- A die's own postmark. -/
def State.pmOf (s : State) : Die → PM
  | .host => s.tm.hpm
  | .field => s.tm.fpm

/-- The die of a block. -/
def blkDie (b : Blk) : Die := if blkIsHost b then .host else .field

/-- The device state code of GLB_STATE (Table 15-13). -/
def State.glb (s : State) : Nat := s.fld GLB_STATE_STATE

/-- Put a command of the device's own n ticks ahead. -/
def State.after (s : State) (n : Nat) (i : Instr) : State :=
  { s with timers := s.timers ++ [(s.tm.tick + n, i)] }

/-- Drop the device's own commands that meet a test. -/
def State.dropTimers (s : State) (p : Instr → Bool) : State :=
  { s with timers := s.timers.filter (fun e => !p e.2) }

/-- Apply an operation for each member of a list, first to last. -/
def forEach {α σ : Type} (xs : List α) (f : σ → α → σ) (s : σ) : σ := xs.foldl f s

end Sys2Proof.Machine
end

