-- ==== Sys2Proof/Machine/Wire.lean ====
section
/-!
DEFINITION. Check words and envelopes (R165, R267): the CRC-16 of every frank, an envelope's bit
string, and putting an envelope in the queue of the die that sends it.
-/
namespace Sys2Proof.Machine

/-- One step of the CRC-16 with polynomial 0x1021 (R165). -/
def crcStep (c : Nat) (b : Bool) : Nat :=
  let top := bitOf c 15 != b
  let sh := c * 2 % 65536
  if top then sh ^^^ 0x1021 else sh

/-- The CRC-16 of the low n bits of x, most significant first, from a running value (R165). -/
def crcBits : Nat → Nat → Nat → Nat
  | 0, _, c => c
  | n + 1, x, c => crcBits n x (crcStep c (bitOf x n))

/-- The CRC-16 of the low n bits of x (R165). -/
def crc16 (n x : Nat) : Nat := crcBits n x 0xFFFF

/-- The payload's length in bits: LEN beats of 80 bits less the header (R267). -/
def payBits (len : Nat) : Nat := len * 80 - 64

/-- An envelope's header bits [63:16] (Table 12-2). -/
def envHead (e : Env) : Nat :=
  ((((e.typ.toNat * 2 ^ 10 + e.len.toNat) * 2 ^ 8 + e.unit.toNat) * 2 ^ 2 + e.epoch.toNat)
    * 2 ^ 24 + e.pm.toNat)

/-- The frank over every string bit except header bits [15:0] (R267). -/
def envFrank (e : Env) : Nat :=
  crcBits (payBits e.len.toNat) e.payload (crcBits 48 (envHead e) 0xFFFF)

/-- The frank is right (R273 check 1). -/
def envFrankOk (e : Env) : Bool := envFrank e == e.frank.toNat

/-- Payload bits hi down to lo, counted as Table 12-3 counts them. -/
def envBits (e : Env) (hi lo : Nat) : Nat := bitsOf e.payload hi lo

/-- The envelope types of Table 12-3. -/
def tREADINGS : BitVec 4 := 0x1
def tEVENT : BitVec 4 := 0x2
def tHKRESULT : BitVec 4 := 0x3
def tSTATUS : BitVec 4 := 0x4
def tFAULT : BitVec 4 := 0x5
def tREPLY : BitVec 4 := 0x6
def tBIST : BitVec 4 := 0x7
def tHEART : BitVec 4 := 0x8
def tWRITE : BitVec 4 := 0x9
def tREAD : BitVec 4 := 0xA
def tCOMMAND : BitVec 4 := 0xB
def tTIME : BitVec 4 := 0xC
def tGAP : BitVec 4 := 0xD
def tTRIGGER : BitVec 4 := 0xE

/-- Put a field→host envelope in the general lane's queue (R270). -/
def State.sendF (s : State) (d : Draft) : State :=
  { s with bar := { s.bar with txF := s.bar.txF ++ [d] } }

/-- Put a host→field envelope in the queue of R271. -/
def State.sendH (s : State) (d : Draft) : State :=
  { s with bar := { s.bar with txH := s.bar.txH ++ [d] } }

/-- A 2-beat payload of bits [95:88], [87:48] and [47:0]: STATUS and COMMAND (Table 12-3). -/
def codePayload (code operand pm : Nat) : Nat :=
  (code % 2 ^ 8 * 2 ^ 40 + operand % 2 ^ 40) * 2 ^ 48 + pm % 2 ^ 48

/-- A STATUS envelope from the field die (Table 12-5). -/
def State.sendStatus (s : State) (code operand : Nat) (pm : PM) (first : Bool) : State :=
  s.sendF ⟨tSTATUS, 2, 0xFF, none, codePayload code operand pm.toNat, first⟩

/-- The UNIT field of a host→field envelope: LAUNCH, MASTER and TAG (Table 12-2). -/
def hfUnit (launch : Bool) (m : Master) (tag : Nat) : BitVec 8 :=
  BitVec.ofNat 8 ((if launch then 128 else 0) + masterCode m * 16 + tag % 16)

/-- A 2-beat COMMAND envelope to the field die (Table 12-5); its MASTER is the barrier (DEDUCED: the REPLY
that R277 asks for returns it). -/
def State.sendCommand (s : State) (op operand : Nat) (pm : PM) : State :=
  s.sendH ⟨tCOMMAND, 2, hfUnit false .barrier 0, none, codePayload op operand pm.toNat, true⟩

/-- The host's copy of a field block's IRQ_ENABLE, kept from the writes that pass through it (R352). -/
def State.irqMirror (s : State) (idx : Nat) : Word := assocGet s.flt.irqMir (idx / 0x100) (regReset idx)

/-- A write of a field block's IRQ_ENABLE passes through the host die (R352). -/
def State.seeIrq (s : State) (idx : Nat) (v : Word) : State :=
  if 0x1000 ≤ idx ∧ idx % 0x100 = 0xFA then
    let m := assocPut s.flt.irqMir (idx / 0x100) (BitVec.ofNat 32 (v.toNat % 2 ^ 20)) (regReset idx)
    { s with flt := { s.flt with irqMir := m } }
  else s

/-- A WRITE envelope (Table 12-3). -/
def State.sendWrite (s : State) (m : Master) (tag idx : Nat) (v : Word) (launch : Option PM) : State :=
  (s.seeIrq idx v).sendH ⟨tWRITE, 2, hfUnit launch.isSome m tag, none,
    ((idx % 2 ^ 16 * 2 ^ 32) + v.toNat) * 2 ^ 48 + (launch.getD 0).toNat, false⟩

/-- A READ envelope, with LAUNCH = 1 for a peek (Table 12-3). -/
def State.sendRead (s : State) (m : Master) (tag idx : Nat) (peek : Bool) : State :=
  s.sendH ⟨tREAD, 1, hfUnit peek m tag, none, idx % 2 ^ 16, false⟩

/-- A REPLY envelope of the field die (Table 12-3), its UNIT the block that owns the index. -/
def State.sendReply (s : State) (idx : Nat) (v : Word) (status : Nat) (reqUnit : BitVec 8) : State :=
  s.sendF ⟨tREPLY, 2, BitVec.ofNat 8 (0xF0 + (idx / 0x100 - 0x10) % 0x0D), none,
    (((idx % 2 ^ 16 * 2 ^ 32 + v.toNat) * 2 ^ 3 + status % 8) * 2 ^ 8 + reqUnit.toNat) * 2 ^ 37,
    false⟩

/-- Priority of the general lane: lower goes first (R270, R277). -/
def generalPriority (d : Draft) : Nat :=
  if d.first then 0
  else match d.typ with
    | 0x5 => 1
    | 0x6 => 2
    | 0x2 => 3
    | 0x4 => 4
    | 0x3 => 5
    | _ => 6

/-- The position of the waiting envelope that goes next: highest priority, oldest first. -/
def pickDraft : List Draft → Nat → Option (Nat × Nat)
  | [], _ => none
  | d :: ds, n =>
    match pickDraft ds (n + 1) with
    | none => some (generalPriority d, n)
    | some (p, k) => if generalPriority d ≤ p then some (generalPriority d, n) else some (p, k)

/-- Drop the n-th member. -/
def dropAt {α : Type} : List α → Nat → List α
  | [], _ => []
  | _ :: xs, 0 => xs
  | x :: xs, n + 1 => x :: dropAt xs n

/-- The envelope that a draft becomes when its first beat leaves: PM, EPOCH and frank are settled
then (Table 12-2, Table 12-3). -/
def draftEnv (d : Draft) (epoch : BitVec 2) (pm : PM) : Env :=
  let e : Env := ⟨d.typ, d.len, d.unit, epoch, d.pm.getD (BitVec.ofNat 24 pm.toNat), 0, d.payload⟩
  { e with frank := BitVec.ofNat 16 (envFrank e) }

/-- A logical lane's physical lane has failed and the lane has not been moved yet (R276, R277). -/
def State.laneBroken (s : State) (toHost : Bool) (l : Nat) : Bool :=
  let m := if toHost then s.bar.f2hMap else s.bar.h2fMap
  let f := if toHost then s.fld BAR_LANE_STATUS_F2H_FAIL else s.fld FBA_LANE_STATUS_H2F_FAIL
  match m[l]? with
  | some p => bitOf f p
  | none => true

/-- An envelope as a failing lane delivers it: its frank is wrong (R273). -/
def spoilt (broken : Bool) (e : Env) : Env := if broken then { e with frank := e.frank ^^^ 1 } else e

/-- Put an envelope on the lanes, its first beat in this tick: delivered LEN + 9 ticks later (R263). -/
def State.launchEnv (s : State) (toHost broken : Bool) (e : Env) : State :=
  { s with bar := { s.bar with
      flights := s.bar.flights ++ [⟨toHost, s.tm.tick + e.len.toNat + 9, spoilt broken e⟩] } }

/-- The epoch a die held at an earlier tick: the list names, newest first, the ticks at which it
changed and what it was before (R280). -/
def epochAt (now : BitVec 2) : List (Nat × BitVec 2) → Nat → BitVec 2
  | [], _ => now
  | (t, before) :: rest, at_ => if at_ < t then epochAt before rest at_ else now

/-- Change the epoch of both dies (R280, R300). -/
def State.setHostEpoch (s : State) (e : BitVec 2) : State :=
  let b := s.bar
  { s with bar := { b with hostEpoch := e,
                           prevHostEpoch := ((s.tm.tick, b.hostEpoch) :: b.prevHostEpoch).take 128 } }

/-- Change the field die's epoch (R280). -/
def State.setFieldEpoch (s : State) (e : BitVec 2) : State :=
  let b := s.bar
  { s with bar := { b with fieldEpoch := e,
                           prevFieldEpoch := ((s.tm.tick, b.fieldEpoch) :: b.prevFieldEpoch).take 128 } }

end Sys2Proof.Machine
end

