-- ==== Sys2Proof/Machine/Office.lean ====
section
/-!
DEFINITION. What every chapter sends out through the sorting office: the dead-letter log (R302), the
HK and status queues (R294) and the schedule tables as both dies read them (R293, R295).
-/
namespace Sys2Proof.Machine

/-! ### The dead-letter log (R302) -/

/-- Write one entry of the ring (Table 13-9). -/
def State.deadEntry (s : State) (w0 w2 : Nat) : State :=
  let e := s.fld LNK_DEADLETTER_COUNT_NEXT
  let a := 0x1000 + 3 * e
  (((s.setWinN .lnk a w0).setWinN .lnk (a + 1) (s.tm.hpm.toNat % 2 ^ 24)).setWinN .lnk (a + 2)
    w2).setFld LNK_DEADLETTER_COUNT_NEXT (e + 1)

/-- Log an envelope discarded at the host end (R302). -/
def State.deadEnvelope (s : State) (reason : Nat) (e : Env) : State :=
  let head := envHead e * 2 ^ 16 + e.frank.toNat
  let w0 := reason * 2 ^ 21 + e.epoch.toNat * 2 ^ 16 + e.unit.toNat * 2 ^ 8
  (s.deadEntry w0 (bitsOf head 63 40)).setFld LNK_DEADLETTER_COUNT_ENVELOPES
    (s.fld LNK_DEADLETTER_COUNT_ENVELOPES + 1)

/-- Log a link parcel or a record, counting n parcels (R297, R302). -/
def State.deadParcel (s : State) (reason port epoch unit slot w2 n : Nat) : State :=
  let w0 := reason * 2 ^ 21 + 2 ^ 20 + port % 4 * 2 ^ 18 + epoch % 4 * 2 ^ 16 + unit % 256 * 2 ^ 8
    + slot % 64
  (s.deadEntry w0 w2).setFld LNK_DEADLETTER_COUNT_PARCELS (s.fld LNK_DEADLETTER_COUNT_PARCELS + n)

/-! ### The HK and status queues (R294) -/

/-- Put a record in a queue of 32; a full queue drops and logs its oldest record.  Answers the queue
and the record dropped. -/
def pushQ (q : List QItem) (x : QItem) : List QItem × Option QItem :=
  if q.length < 32 then (q ++ [x], none) else (q.drop 1 ++ [x], q.head?)

/-- Log a record dropped from a full queue (R302). -/
def State.deadRecord (s : State) (x : QItem) : State :=
  s.deadParcel 7 0 0 x.unit 0 (bitsOf x.pay 95 72) 1

/-- Put a record in the status queue; true when one was dropped. -/
def State.pushStatus (s : State) (x : QItem) : State × Bool :=
  let q := pushQ s.lnk.stQ x
  let s1 := { s with lnk := { s.lnk with stQ := q.1 } }
  match q.2 with
  | none => (s1, false)
  | some y => (s1.deadRecord y, true)

/-- Put an HK_RESULT in the HK queue; true when one was dropped. -/
def State.pushHk (s : State) (x : QItem) : State × Bool :=
  let q := pushQ s.lnk.hkQ x
  let s1 := { s with lnk := { s.lnk with hkQ := q.1 } }
  match q.2 with
  | none => (s1, false)
  | some y => (s1.deadRecord y, true)

/-! ### Schedule tables (Table 13-7) -/

/-- The window address of port p, slot k of table A (false) or B (true). -/
def schedAddr (tab : Bool) (p k : Nat) : Nat := (if tab then 0x100 else 0) + 64 * p + k
/-- KIND of an entry. -/
def State.schedKind (s : State) (tab : Bool) (p k : Nat) : Nat :=
  bitsOf (s.winN .lnk (schedAddr tab p k)) 23 20
/-- SRC_PORT of an entry. -/
def State.schedPort (s : State) (tab : Bool) (p k : Nat) : Nat :=
  bitsOf (s.winN .lnk (schedAddr tab p k)) 7 6
/-- SRC_SLOT of an entry. -/
def State.schedSlot (s : State) (tab : Bool) (p k : Nat) : Nat :=
  bitsOf (s.winN .lnk (schedAddr tab p k)) 5 0

/-- The active table on the host die. -/
def State.hostTab (s : State) : Bool := s.bit LNK_SCHED_SEL_ACTIVE
/-- A port's role (R290). -/
def State.role (s : State) (p : Nat) : Nat := s.fld (LNK_PORT_CFG_ROLE p)
/-- A port sends (R290). -/
def State.isUp (s : State) (p : Nat) : Bool := s.role p == 0
/-- A port's lane has failed or is retired (R298, R299). -/
def State.laneDown (s : State) (p : Nat) : Bool :=
  s.bit (LNK_PORT_STATUS_FAILED p) || s.bit (LNK_PORT_STATUS_RETIRED p)

/-- The slots of a KIND in one sheet under a table, in the order of R294: slot first, port second. -/
def State.kindSlots (s : State) (tab : Bool) (kind : Nat) : List (Nat × Nat) :=
  (List.range 64).flatMap (fun k =>
    ((List.range 4).filter (fun p => s.isUp p && s.schedKind tab p k == kind)).map (fun p => (k, p)))

/-- The table that a die's launch queue makes active at a postmark. -/
def tabAt (now : Bool) (q : List LEntry) (p : PM) : Bool :=
  if q.any (fun e => e.kind == LKind.schedSwitch && pmGe p e.pm) then !now else now

/-- The host's table at a postmark (R177, R295, R299). -/
def State.hostTabAt (s : State) (p : PM) : Bool :=
  match s.lnk.autoAt with
  | some b => if pmGe p b then !s.hostTab else s.hostTab
  | none => tabAt s.hostTab s.hostQ p

/-- The field die's table at a postmark (R184, R295). -/
def State.fieldTabAt (s : State) (p : PM) : Bool := tabAt s.lnk.fieldTab s.fieldQ p

end Sys2Proof.Machine
end

