-- ==== Sys2Proof/Machine/Fault.lean ====
section
/-!
DEFINITION. Fault sources, raises, the first-error record, acknowledgement and recovery (R337 to
R353), determinism reasons (R8) and requests for routines (R240).
-/
namespace Sys2Proof.Machine

/-! ### Default policies (Table 16-4) -/

/-- A source's policy where Table 16-4 gives only the severity (R355). -/
def plainPolicy (sev : BitVec 2) : Policy := ⟨sev, false, 0, 16, 0, 0⟩
/-- A policy "Count n/wexp". -/
def countPolicy (sev : BitVec 2) (n : BitVec 4) (wexp : BitVec 5) : Policy := ⟨sev, false, 0, 16, wexp, n⟩
/-- A policy with an ACTION. -/
def actPolicy (sev : BitVec 2) (a : BitVec 3) : Policy := ⟨sev, false, a, 16, 0, 0⟩
/-- A policy "2nd". -/
def secondPolicy (sev : BitVec 2) : Policy := ⟨sev, true, 0, 16, 0, 0⟩

/-- The severity codes of Table 16-1. -/
def sevNOTE : Nat := 0
def sevMINOR : Nat := 1
def sevSEVERE : Nat := 2
def sevFATAL : Nat := 3

/-- The sources of COU; BRU has sources 0 to 5 of them (Table 16-4). -/
def engPolicy : Nat → Policy
  | 0 => secondPolicy 2 | 1 => plainPolicy 1 | 2 => plainPolicy 0 | 3 => plainPolicy 1
  | 4 => countPolicy 0 8 16 | 5 => secondPolicy 2 | 6 => plainPolicy 2 | 7 => plainPolicy 2
  | _ => plainPolicy 0

/-- The default policy of each source (Table 16-4).  The WEXP of 16 that "Count 8/16" gives is held
whole; the four-bit field of FLT_POLICY shows its low bits (DEDUCED: no rule narrows the default). -/
def defPolicy (b : Blk) (i : Nat) : Policy :=
  match b, i with
  | .glb, 0 => plainPolicy 2 | .glb, 1 => plainPolicy 0
  | .tim, 0 => plainPolicy 1 | .tim, 1 => plainPolicy 0 | .tim, 2 => plainPolicy 1
  | .tim, 3 => plainPolicy 1 | .tim, 4 => countPolicy 0 15 10
  | .bar, 0 => plainPolicy 2 | .bar, 1 => plainPolicy 1 | .bar, 2 => plainPolicy 2
  | .bar, 3 => plainPolicy 3 | .bar, 4 => plainPolicy 3 | .bar, 5 => plainPolicy 3
  | .bar, 6 => countPolicy 0 15 10 | .bar, 7 => countPolicy 0 15 10
  | .fba, 0 => plainPolicy 2 | .fba, 1 => plainPolicy 1 | .fba, 2 => plainPolicy 3
  | .fba, 3 => countPolicy 0 4 10 | .fba, 4 => countPolicy 0 15 10 | .fba, 5 => countPolicy 0 15 10
  | .lnk, 0 => plainPolicy 2 | .lnk, 1 => plainPolicy 0 | .lnk, 2 => plainPolicy 0
  | .lnk, 3 => countPolicy 0 15 6 | .lnk, 4 => countPolicy 0 8 16 | .lnk, 5 => plainPolicy 3
  | .lnk, 6 => actPolicy 2 1
  | .cfg, 0 => plainPolicy 3 | .cfg, 1 => plainPolicy 1 | .cfg, 2 => plainPolicy 0
  | .cfg, 3 => plainPolicy 1
  | .cou, n => engPolicy n | .bru, n => engPolicy n
  | .pwr, 0 => plainPolicy 1 | .pwr, 1 => plainPolicy 2 | .pwr, 2 => plainPolicy 0
  | .fgl, 0 => actPolicy 2 1 | .fgl, 1 => plainPolicy 2 | .fgl, 2 => plainPolicy 3
  | .fgl, 3 => plainPolicy 1
  | .pal, 0 => actPolicy 2 1 | .pal, 1 => plainPolicy 0 | .pal, 2 => plainPolicy 0
  | .pal, 3 => countPolicy 0 8 16 | .pal, 4 => plainPolicy 2 | .pal, 5 => actPolicy 2 2
  | .col, 0 => plainPolicy 1 | .col, 1 => plainPolicy 0 | .col, 2 => actPolicy 2 2
  | .col, 3 => plainPolicy 1 | .col, 4 => plainPolicy 0 | .col, 5 => countPolicy 0 8 16
  | .col, 6 => plainPolicy 1 | .col, 7 => actPolicy 2 2
  | .nul, 0 => plainPolicy 1 | .nul, 5 => countPolicy 0 8 16 | .nul, 6 => plainPolicy 1
  | .nul, 7 => actPolicy 2 2
  | .var, 0 => plainPolicy 1 | .var, 1 => plainPolicy 0 | .var, 2 => countPolicy 0 8 16
  | .var, 3 => plainPolicy 1 | .var, 4 => plainPolicy 2
  | .str, 0 => plainPolicy 1 | .str, 1 => plainPolicy 2
  | .evt, 0 => countPolicy 0 8 16 | .evt, 1 => plainPolicy 1 | .evt, 5 => plainPolicy 2
  | .hka, 4 => actPolicy 2 1 | .hkb, 4 => actPolicy 2 1
  | .hks, 0 => plainPolicy 1 | .hks, 1 => plainPolicy 1 | .hks, 3 => actPolicy 2 1
  | .cal, 0 => plainPolicy 1 | .cal, 1 => plainPolicy 1 | .cal, 4 => plainPolicy 1
  | .cal, 5 => countPolicy 0 8 16 | .cal, 6 => plainPolicy 1 | .cal, 7 => actPolicy 2 1
  | _, _ => plainPolicy 0

/-- A source after reset. -/
def defSource (p : Policy) : Source :=
  ⟨p, 0, 0, 0, 0, 0, none, false, false, none, 0, 0, false⟩

/-- The key of a source in the sparse table. -/
def srcKey (b : Blk) (i : Nat) : Nat := blkNum b * 16 + i % 16

/-- A fault source. -/
def State.src (s : State) (b : Blk) (i : Nat) : Source :=
  assocGet s.srcs (srcKey b i) (defSource (defPolicy b (i % 16)))

/-- Store a fault source. -/
def State.setSrc (s : State) (b : Blk) (i : Nat) (x : Source) : State :=
  { s with srcs := assocPut s.srcs (srcKey b i) x (defSource (defPolicy b (i % 16))) }

/-! ### Determinism reasons (R8) -/

/-- The lowest set bit among bits n and up of an 8-bit set, 0 when none is set. -/
def lowestReason (bits : Nat) : Nat :=
  if bitOf bits 1 then 1 else if bitOf bits 2 then 2 else 0

/-- A sticky reason occurs: the first stays shown, and of two in one tick the lower (R8). -/
def State.sticky (s : State) (code : Nat) : State :=
  let old := s.fld GLB_DETERMINISM_STICKY
  let show_ := old == 0 || (s.flt.stickyAt == s.tm.tick && code < s.fld GLB_DETERMINISM_REASON)
  let s1 := s.setFld GLB_DETERMINISM_STICKY (old ||| 2 ^ code)
  let s2 := if show_ then s1.setFld GLB_DETERMINISM_REASON code else s1
  if old == 0 then { s2 with flt := { s2.flt with stickyAt := s.tm.tick } } else s2

/-- Show the live reason with the lowest code where no sticky one exists (R8). -/
def State.showReason (s : State) : State :=
  if s.fld GLB_DETERMINISM_STICKY == 0 then
    s.setFld GLB_DETERMINISM_REASON (lowestReason (s.fld GLB_DETERMINISM_LIVE))
  else s

/-- A live reason begins to hold (R8). -/
def State.live (s : State) (code : Nat) : State :=
  (s.setFld GLB_DETERMINISM_LIVE (s.fld GLB_DETERMINISM_LIVE ||| 2 ^ code)).showReason

/-! ### Requests for routines (R240) -/

/-- The state of an engine. -/
def State.eng (s : State) : Eng → EngSt
  | .courier => s.cou
  | .brush => s.bru

/-- Store the state of an engine. -/
def State.setEng (s : State) (e : Eng) (x : EngSt) : State :=
  match e with
  | .courier => { s with cou := x }
  | .brush => { s with bru := x }

/-- An engine's block. -/
def engBlk : Eng → Blk
  | .courier => .cou
  | .brush => .bru

/-- A word of an engine's data memory (Table 11-19; every word resets to 0). -/
def State.engData (s : State) (e : Eng) (a : Nat) : W24 :=
  s.win (engBlk e) (0x4000 + a)

/-- Word 0 of a routine's descriptor (Table 11-8). -/
def State.desc0 (s : State) (e : Eng) (n : Nat) : Nat := (s.engData e (2 * n)).toNat
/-- A descriptor's VALID bit. -/
def descValid (w : Nat) : Bool := bitOf w 23
/-- A descriptor's SERVICE bit. -/
def descService (w : Nat) : Bool := bitOf w 22
/-- A descriptor's URGENT bit. -/
def descUrgent (w : Nat) : Bool := bitOf w 21
/-- A descriptor's PRIORITY. -/
def descPriority (w : Nat) : Nat := bitsOf w 20 18
/-- A descriptor's ENTRY. -/
def descEntry (w : Nat) : BitVec 12 := BitVec.ofNat 12 w

/-- An interrupt cause is recognised in this tick (Table 11-7). -/
def State.cause (s : State) (e : Eng) (k : Nat) : State :=
  let x := s.eng e
  s.setEng e { x with causes := x.causes ||| BitVec.ofNat 5 (2 ^ k) }

/-- An event that a wait condition names happens in this tick (Table 11-6). -/
def State.note (s : State) (e : Eng) (wait : Nat) : State :=
  let x := s.eng e
  s.setEng e { x with events := assocSet x.events wait s.tm.tick }

/-- A request for a routine (R240): ignored with REQ_REJECT when the descriptor is invalid, merged
with a pending one, else pending with its ARG. -/
def State.request (s : State) (e : Eng) (n : Nat) (arg : W24) : State :=
  let d := s.desc0 e n
  if !descValid d then s.setBit (ENG_STATUS_REQ_REJECT (engBase e)) true
  else
    let x := s.eng e
    if assocHas x.pend n then s
    else
      let s1 := (s.setEng e { x with pend := assocSet x.pend n arg }).note e 0x07
      if descUrgent d then s1.cause e 2 else s1

/-- A request by a hardware trigger, whose ARG no rule gives: a free value. -/
def State.trigger (s : State) (e : Eng) (n : Nat) : State :=
  { s.request e n (Config.triggerArg s.free) with free := s.free + 1 }

/-! ### Raises (R341, R343, R347, R348, R351) -/

/-- What a raise records: unit code of Table 12-4 or 0xFF, address, master and access (R343), a
severity that the rules fix, and whether a correction at a postmark is under way (R346). -/
structure RaiseInfo where
  unit    : Nat
  addr    : Nat
  master  : Nat
  access  : Nat
  fixed   : Option Nat
  correct : Bool
deriving DecidableEq, Repr

/-- A raise that no access causes, on a die's own blocks (R339). -/
def plainRaise (b : Blk) : RaiseInfo :=
  ⟨0xFF, 0, if blkIsHost b then 6 else 4, 3, none, false⟩

/-- A raise that names a unit. -/
def unitRaise (b : Blk) (u : Nat) : RaiseInfo := { plainRaise b with unit := u }

/-- A raise that a master's write of a register index causes. -/
def writeRaise (m : Master) (idx : Nat) : RaiseInfo := ⟨0xFF, idx, masterCode m, 1, none, false⟩

/-- The postmark on which a raise falls: that of the block's die. -/
def State.blkPm (s : State) (b : Blk) : PM := s.pmOf (blkDie b)

/-- Whether a raise escalates by a second fault (R341). -/
def secondFault (x : Source) (latched : Bool) : Bool :=
  x.pol.second && latched && decide (1 ≤ x.pol.sev.toNat + x.level)

/-- The counting part of R341: the new CNT and WSTART, and whether the count was reached. -/
def countFault (x : Source) (q : BitVec 42) : Nat × BitVec 42 × Bool :=
  if x.pol.n = 0 then (x.cnt, x.wstart, false)
  else
    let restart := x.cnt == 0 || decide (2 ^ x.pol.wexp.toNat ≤ (q - x.wstart).toNat)
    let ws := if restart then q else x.wstart
    let c := (if restart then 0 else x.cnt) + 1
    if c == x.pol.n.toNat then (0, ws, true) else (c, ws, false)

/-- Fill the first-error record (R343, Table 16-8, Table 16-9). -/
def State.fillRecord (s : State) (b : Blk) (i sev : Nat) (esc : Bool) (r : RaiseInfo) : State :=
  let base := blkBase b
  let p := (s.blkPm b).toNat
  let s1 := s.setReg (FLT_FIRST_WHERE base) (BitVec.ofNat 32 (r.unit % 256 * 65536 + r.addr % 65536))
  let s2 := s1.setReg (FLT_FIRST_WHO base)
    (BitVec.ofNat 32 (2 ^ 31 + (if esc then 2 ^ 30 else 0) + sev * 2 ^ 28 + r.master * 2 ^ 24
      + r.access * 2 ^ 20 + i))
  let s3 := s2.setReg (FLT_FIRST_WHEN_LO base) (BitVec.ofNat 32 p)
  let s4 := s3.setReg (FLT_FIRST_WHEN_HI base) (BitVec.ofNat 32 (p / 2 ^ 32))
  { s4 with recTick := assocSet s4.recTick (blkNum b) s.tm.tick }

/-- Set a source's ALSO bit (R343). -/
def State.also (s : State) (b : Blk) (i : Nat) : State :=
  let f := FLT_LATCH_ALSO (blkBase b)
  s.setFld f (s.fld f ||| 2 ^ i)

/-- What a raise of severity MINOR or higher does to the record: fills an empty one; in the tick of
the first error the higher severity, then the lower source, takes it and the other is ALSO (R343). -/
def State.record (s : State) (b : Blk) (i sev : Nat) (esc : Bool) (r : RaiseInfo) : State :=
  let base := blkBase b
  if sev = 0 then s
  else if !s.bit (FLT_FIRST_WHO_VALID base) then s.fillRecord b i sev esc r
  else if assocGet s.recTick (blkNum b) 0 == s.tm.tick && assocHas s.recTick (blkNum b) then
    let j := s.fld (FLT_FIRST_WHO_SOURCE base)
    let sj := s.fld (FLT_FIRST_WHO_SEVERITY base)
    if sj < sev || (sj == sev && i < j) then (s.fillRecord b i sev esc r).also b j
    else s.also b i
  else s

/-- The unit code of a field block (Table 12-4). -/
def blkUnit (b : Blk) : Nat := 0xF0 + (blkNum b - 0x10)

/-- A raise as the payload of a FAULT_NOTICE or of a fault record (Table 12-3, Table 13-5). -/
def State.faultPay (s : State) (b : Blk) (i sev : Nat) (r : RaiseInfo) : Nat :=
  ((((((blkNum b * 4 + sev) * 64 + i) * 2 ^ 16 + r.addr % 2 ^ 16) * 8 + r.master) * 8
    + r.access) * 2 ^ 10) * 2 ^ 48 + (s.blkPm b).toNat

/-- A field raise sends a FAULT_NOTICE when it is MINOR or higher, or an enabled NOTE, and more severe
than every notice of the source in this sheet (R351). -/
def State.noticeRaise (s : State) (b : Blk) (i sev : Nat) (r : RaiseInfo) : State :=
  let base := blkBase b
  let admitted := decide (1 ≤ sev) ||
    (bitOf (s.fld (IRQ_ENABLE_SRC_EN base)) i && bitOf (s.fld (IRQ_ENABLE_SEV_EN base)) 0)
  let x := s.src b i
  let higher := match x.noticed with
    | none => true
    | some n => decide (n < sev)
  if admitted && higher then
    let unit := if r.unit = 0xFF then blkUnit b else r.unit
    let pay := s.faultPay b i sev r
    (s.setSrc b i { x with noticed := some sev }).sendF
      ⟨tFAULT, 2, BitVec.ofNat 8 unit, none, pay, false⟩
  else s

/-- The group's spare for a unit code (Table 03-4): drivers from 0x40, front ends from 0. -/
def spareOf (u : Nat) : Option Nat :=
  if u < 0x20 then some (32 + u / 16)
  else if u < 0x22 then some u
  else if 0x40 ≤ u ∧ u < 0x80 then some (0x40 + 64 + (u - 0x40) / 16)
  else if 0x80 ≤ u ∧ u < 0x84 then some u
  else none

/-- A unit code that ACTION 1 and 2 can isolate: a row driver, a front end, a housekeeping converter
or, from 0x100, a port (R347). -/
def isolable (u : Nat) : Bool :=
  decide (u < 0x22) || (decide (0x40 ≤ u) && decide (u < 0x84)) || u == 0xD0 || u == 0xD1 ||
    (decide (0x100 ≤ u) && decide (u < 0x104))

/-- The row map entry of a logical row (Table 03-5): unlisted rows map to themselves (R26). -/
def State.rowEntry (s : State) (r : Nat) : Nat :=
  s.winN .pal (0x200 + r)
/-- The driver serving a logical row. -/
def State.rowDrv (s : State) (r : Nat) : Nat := bitsOf (s.rowEntry r) 14 8
/-- The pin unit of a logical row. -/
def State.rowPin (s : State) (r : Nat) : Nat := bitsOf (s.rowEntry r) 6 0

/-- The column map entry of a logical column (Table 03-6): unlisted columns map to themselves. -/
def State.colEntry (s : State) (c : Nat) : Nat :=
  s.winN .col (0x100 + c)
/-- The front end serving a logical column. -/
def State.colFe (s : State) (c : Nat) : Nat := bitsOf (s.colEntry c) 13 8
/-- The pin unit of a logical column. -/
def State.colPin (s : State) (c : Nat) : Nat := bitsOf (s.colEntry c) 5 0

/-- Whether a unit code serves some logical unit. -/
def State.serves (s : State) (u : Nat) : Bool :=
  if u < 0x22 then (List.range 32).any (fun c => s.colFe c == u)
  else if 0x40 ≤ u ∧ u < 0x84 then (List.range 64).any (fun r => s.rowDrv r == u - 0x40)
  else false

/-- A spare unit code is free: it serves no pin unit and has not been declared failed (R350). -/
def State.spareFree (s : State) (u : Nat) : Bool := !s.serves u && !s.flt.failed.contains u

/-- The unit a raise isolates under ACTION 1 or 2, if it names one (R347). -/
def raiseUnit (b : Blk) (r : RaiseInfo) : Option Nat :=
  let u := if b = .lnk ∧ r.unit = 0xFF then 0x100 + r.addr else r.unit
  if isolable u then some u else none

/-- A spare swap will correct the raise: ACTION 2, a serving unit and a free spare of its group
(R349, R350). -/
def State.swapCorrects (s : State) (act : Nat) (r : RaiseInfo) : Bool :=
  act == 2 && s.serves r.unit &&
    (match spareOf r.unit with
      | some sp => s.spareFree sp
      | none => false)

/-- ACTION 1 and 2 of a raise of severity SEVERE or higher (R347), the swap that FAULT_POLICY owes
(R349) and reason 0x4 for a raise that nothing corrects. -/
def State.actRaise (s : State) (b : Blk) (act sev : Nat) (r : RaiseInfo) : State :=
  if sev < 2 then s
  else
    let s1 := if act = 1 ∨ act = 2 then
        (match raiseUnit b r with
          | some u =>
            let fl := s.flt
            let bad := match spareOf u with
              | some sp => sp == u
              | none => false
            { s with flt := { fl with isoNext := fl.isoNext ++ [u],
                                      failed := if bad then fl.failed ++ [u] else fl.failed } }
          | none => s)
      else s
    if r.correct then s1
    else if s.swapCorrects act r then
      { s1 with flt := { s1.flt with swapDue := s1.flt.swapDue ++ [(r.unit, s.blkPm b)] } }
    else s1.sticky 4

/-- The device enters SAFE in the next tick, with a cause (R348). -/
def State.safeSoon (s : State) (cause : Nat) : State :=
  match s.flt.safeDue with
  | some _ => s
  | none => { s with flt := { s.flt with safeDue := some cause } }

/-- The engine of a die. -/
def dieEng : Die → Eng
  | .host => .courier
  | .field => .brush

/-- The raise of source i of a block itself (R337, R341).  A second unit in the same tick raises nothing more
and lowers the recorded unit to the lowest (R337). -/
def State.raiseCore (s : State) (b : Blk) (i : Nat) (r : RaiseInfo) : State :=
  let x := s.src b i
  let base := blkBase b
  if x.last == some s.tm.tick then
    if s.fld (FLT_FIRST_WHO_SOURCE base) == i && assocGet s.recTick (blkNum b) 0 == s.tm.tick
        && decide (r.unit < s.fld (FLT_FIRST_WHERE_UNIT base)) then
      s.setFld (FLT_FIRST_WHERE_UNIT base) r.unit
    else s
  else
    let latch := s.fld (FLT_LATCH_LATCH base)
    let latched := bitOf latch i
    let q : BitVec 42 := BitVec.ofNat 42 ((s.blkPm b).toNat / 64)
    let snd := secondFault x latched
    let cw := countFault x q
    let e := (if snd then 1 else 0) + (if cw.2.2 then 1 else 0)
    let level := min (x.level + e) 3
    let sev0 := min (x.pol.sev.toNat + level) 3
    let sev := r.fixed.getD sev0
    let x' := { x with level := level, cnt := cw.1, wstart := cw.2.1,
                       lsev := if latched then max x.lsev sev else sev,
                       noisy := true, last := some s.tm.tick, lvl0 := x.level, esc := e,
                       second := snd }
    let s1 := s.setSrc b i x'
    let s2 := s1.setFld (FLT_LATCH_LATCH base) (latch ||| 2 ^ i)
    let s3 := s2.setFld (FLT_STATUS_ACTIVE base) (s2.fld (FLT_STATUS_ACTIVE base) ||| 2 ^ i)
    let s4 := s3.inc (FLT_COUNT_RAISES base)
    let s5 := if e = 0 then s4 else s4.inc (FLT_COUNT_ESCALATIONS base)
    let s6 := s5.record b i sev (decide (0 < e)) r
    let s7 := s6.actRaise b x.pol.action.toNat sev r
    let s8 := if 2 ≤ sev then s7.cause (dieEng (blkDie b)) 1 else s7
    if blkIsHost b then
      let s9 := if sev = 3 then s8.safeSoon 5 else s8
      s9.trigger .courier 2
    else
      (s8.noticeRaise b i sev r).note .brush 0x17

/-- A host raise goes into the status queue (R294); true when it dropped a record. -/
def State.queueRaise (s : State) (b : Blk) (i : Nat) (r : RaiseInfo) : State × Bool :=
  let x := s.src b i
  let sev := r.fixed.getD (min (x.pol.sev.toNat + x.level) 3)
  s.pushStatus ⟨s.tm.tick, 0, s.faultPay b i sev r, 0xFF⟩

/-- A raise of source i of a block: the raise, for a host block its record in the status queue, and
the NOTE of LNK source 2 when that queue was full (R294, R341). -/
def State.raiseWith (s : State) (b : Blk) (i : Nat) (r : RaiseInfo) : State :=
  let first := (s.src b i).last != some s.tm.tick
  let s1 := s.raiseCore b i r
  if first && blkIsHost b then
    let q := s1.queueRaise b i r
    if q.2 && (q.1.src .lnk 2).last != some q.1.tm.tick then
      ((q.1.raiseCore .lnk 2 (plainRaise .lnk)).queueRaise .lnk 2 (plainRaise .lnk)).1
    else q.1
  else s1

/-- A raise that no access causes (R339). -/
def State.raise (s : State) (b : Blk) (i : Nat) : State := s.raiseWith b i (plainRaise b)

/-- A raise that names a unit. -/
def State.raiseUnit (s : State) (b : Blk) (i u : Nat) : State := s.raiseWith b i (unitRaise b u)

/-- A standing source's condition begins or ends (R345). -/
def State.standing (s : State) (b : Blk) (i : Nat) (on : Bool) : State :=
  let x := s.src b i
  s.setSrc b i { x with holds := on, noisy := x.noisy || x.holds }

/-! ### Acknowledgement (R342, R344, R346, R352) -/

/-- Acknowledge one source: LATCH and LSEV clear; a raise of the same tick is taken as after the
acknowledgement, so that its latch stays and it is no second fault (R342, R344). -/
def State.ackOne (s : State) (b : Blk) (i : Nat) : State :=
  let x := s.src b i
  let base := blkBase b
  if x.last == some s.tm.tick then
    let e := x.esc - (if x.second then 1 else 0)
    let level := min (x.lvl0 + e) 3
    let s1 := s.setSrc b i { x with level := level, esc := e, second := false,
                                    lsev := min (x.pol.sev.toNat + level) 3 }
    if x.esc ≠ 0 ∧ e = 0 then
      s1.setFld (FLT_COUNT_ESCALATIONS base) (s1.fld (FLT_COUNT_ESCALATIONS base) - 1)
    else s1
  else
    let s1 := s.setSrc b i { x with lsev := 0 }
    let l := s1.fld (FLT_LATCH_LATCH base)
    s1.setFld (FLT_LATCH_LATCH base) (if bitOf l i then l - 2 ^ i else l)

/-- Clear the host's mirror bits of some sources of a field block (R352). -/
def State.clearMirror (s : State) (b : Blk) (mask : Nat) : State :=
  let n := blkNum b
  let m := (assocGet s.flt.mirror n 0).toNat
  { s with flt := { s.flt with
      mirror := assocPut s.flt.mirror n (BitVec.ofNat 16 (m - (m &&& mask))) 0 } }

/-- Acknowledge the sources of a mask; a field group reports them with STATUS FLT_ACKED (R344,
R352). -/
def State.ackMask (s : State) (b : Blk) (mask : Nat) : State :=
  let cleared := s.fld (FLT_LATCH_LATCH (blkBase b)) &&& mask
  let s1 := forEach (List.range 16) (fun t i => if bitOf mask i then t.ackOne b i else t) s
  if blkIsHost b || cleared == 0 then s1
  else s1.sendStatus 0x02 ((blkNum b - 0x10) * 65536 + cleared) (s.blkPm b) false

/-- FLT_ACK with FIRST = 1: VALID, ESCALATED and every ALSO bit clear (R344). -/
def State.ackFirst (s : State) (b : Blk) : State :=
  let base := blkBase b
  ((s.setBit (FLT_FIRST_WHO_VALID base) false).setBit (FLT_FIRST_WHO_ESCALATED base) false).setFld
    (FLT_LATCH_ALSO base) 0

/-! ### Interrupt lines and what they show (R352, Table 16-7, Table 16-12) -/

/-- The highest LSEV over the latched sources of a block (Table 16-7). -/
def State.maxSev (s : State) (b : Blk) : Nat :=
  let l := s.fld (FLT_LATCH_LATCH (blkBase b))
  (List.range 16).foldl (fun m i => if bitOf l i then max m (s.src b i).lsev else m) 0

/-- A block's interrupt line: a latched source whose SRC_EN and whose LSEV's SEV_EN are set
(Table 16-12). -/
def State.line (s : State) (b : Blk) : Bool :=
  let base := blkBase b
  let l := s.fld (FLT_LATCH_LATCH base)
  let en := s.fld (IRQ_ENABLE_SRC_EN base)
  let sv := s.fld (IRQ_ENABLE_SEV_EN base)
  (l &&& en) != 0 &&
    (List.range 16).any (fun i => bitOf l i && bitOf en i && bitOf sv (s.src b i).lsev)

/-- The host blocks in the order of GLB_BLOCK_IRQ.HOST. -/
def hostBlks : List Blk := [.glb, .tim, .bar, .lnk, .mgt, .cfg, .cou, .pwr]
/-- The field blocks in the order of GLB_BLOCK_IRQ.FIELD. -/
def fieldBlks : List Blk :=
  [.fgl, .pal, .col, .nul, .var, .str, .evt, .hka, .hkb, .hks, .cal, .bru, .fba]

/-- GLB_BLOCK_IRQ: the lines of the host blocks and the mirror bits of the field blocks (R352). -/
def State.blockIrq (s : State) : Word :=
  let h := hostBlks.foldl (fun m b => if s.line b then m + 2 ^ blkNum b else m) 0
  let f := fieldBlks.foldl
    (fun m b => if assocGet s.flt.mirror (blkNum b) 0 ≠ 0 then m + 2 ^ (blkNum b) else m) 0
  BitVec.ofNat 32 (h + f)

end Sys2Proof.Machine
end

