-- ==== Sys2Proof/Machine/Pal.lean ====
section
/-!
DEFINITION. Palette and row excitation (chapter 04) and the row map (R69 to R74): the operations that
register writes, launched entries and the stroke boundary share.
-/
namespace Sys2Proof.Machine

/-- An unlaunched write changed a run-time parameter: reason 0x5 when it is applied in RUNNING
(R8). -/
def State.param (s : State) (launched changed : Bool) : State :=
  if !launched && changed && s.glb == 7 then s.sticky 5 else s

/-! ### Drivers -/

/-- A driver that has taken no entry yet. -/
def idleDrv : Drv := ⟨0, 0, 0, 0, 0, 0, false, false, 0⟩

/-- A driver's state. -/
def State.drv (s : State) (d : Nat) : Drv := assocGet s.pal.drv d idleDrv

/-- Store a driver's state. -/
def State.setDrv (s : State) (d : Nat) (x : Drv) : State :=
  { s with pal := { s.pal with drv := assocPut s.pal.drv d x idleDrv } }

/-- Drape is in force on the field die (R28). -/
def State.draped (s : State) : Bool :=
  s.pin.laneDrape || s.pin.laneInvalid || !s.pin.fieldDrapeN

/-- DRAPE_N as the host sees it, after the 2-tick synchroniser: a level of tick t is seen in t + 2 (R274,
Table 19-13). -/
def State.drapePinSeen (s : State) : Bool := s.pin.lowSync.getLsbD 1

/-- The commanded drape as the host's DRAPE and UNDRAPE fast commands leave it k ticks from now (R274). -/
def State.commandedIn (s : State) (k : Nat) : Bool :=
  (List.range (k + 1)).foldl (fun (on : Bool) d =>
    s.tm.fast.foldl (fun (on : Bool) f =>
      if f.due != s.tm.tick + d then on
      else if f.code == 0xE0 then true else if f.code == 0xE1 then false else on) on) s.pin.commanded

/-- The symbol on the drape lane in this tick is drape (R274): a pin or SAFE seen in the tick before, or a fast
command that is effective within 3 ticks. -/
def State.drapeSent (s : State) : Bool := s.pin.laneSent.getLsbD 0 || s.commandedIn 3

/-- The symbol that arrives at the field die in this tick is drape: it was sent 3 ticks ago, and a commanded
drape acts at its effective postmark itself (R274). -/
def State.drapeArrives (s : State) : Bool := s.pin.laneSent.getLsbD 3 || s.pin.commanded

/-- The window address of the active palette bank: A at 0, B at 0x100 (Table 04-13). -/
def State.activeBank (s : State) : Nat := if s.bit PAL_STATUS_ACTIVE_BANK then 0x100 else 0
/-- The window address of the inactive palette bank. -/
def State.inactiveBank (s : State) : Nat := if s.bit PAL_STATUS_ACTIVE_BANK then 0 else 0x100

/-- A palette entry (Table 04-1). -/
structure PalEntry where
  ampl  : Nat
  en    : Bool
  k     : Nat
  range : Nat
  phase : Nat
deriving DecidableEq, Repr

/-- The entry of a pin unit in the bank at an address (Table 04-1). -/
def State.palEntry (s : State) (bank p : Nat) : PalEntry :=
  let w0 := s.winN .pal (bank + 2 * p)
  let w1 := s.winN .pal (bank + 2 * p + 1)
  ⟨bitsOf w0 23 8, bitOf w0 7, bitsOf w0 6 0, bitsOf w1 15 13, bitsOf w1 8 0⟩

/-- The entry's own reason for failing R81, 0 when none: 1 K, 2 RANGE, 3 K above 16 at ±10 V. -/
def entryReason (e : PalEntry) : Nat :=
  if e.k < 4 ∨ 112 < e.k then 1
  else if 4 < e.range then 2
  else if e.range = 0 ∧ 16 < e.k then 3
  else 0

/-- The lowest pin unit whose entry fails R81 and the lowest reason it gives (R84); 4 is a carrier
that another enabled entry uses. -/
def State.bankCheck (s : State) (bank : Nat) : Option (Nat × Nat) :=
  let es := (List.range 68).map (fun p => (p, s.palEntry bank p))
  let on := es.filter (fun e => e.2.en)
  (on.find? (fun e => entryReason e.2 != 0 || on.any (fun f => f.1 != e.1 && f.2.k == e.2.k))).map
    (fun e => (e.1, if entryReason e.2 = 0 then 4 else entryReason e.2))

/-- A bank swap waits in the field queue (R84). -/
def State.swapPending (s : State) : Bool := s.fieldQ.any (fun e => e.kind == LKind.bankSwap)

/-- The rest fraction is the rows' goal: LOADING to READY, and the REST and DORMANT power states
(R87). -/
def State.restGoal (s : State) : Bool :=
  let g := s.glb
  (g == 2 || g == 3 || g == 5 || g == 6 || s.pwr.rest)

/-- The goal level of an enabled entry (R87). -/
def State.level (s : State) (e : PalEntry) : Nat :=
  if s.restGoal then e.ampl * s.fld EXC_REST_CODE_FRACTION / 128 else e.ampl

/-- STEP of EXC_SLEW (R86). -/
def State.slewStep (s : State) : Nat := s.fld EXC_SLEW_STEP
/-- The step interval in strokes (R86). -/
def State.slewInterval (s : State) : Nat := s.fld EXC_SLEW_INTERVAL + 1

/-- One driver at a stroke boundary (R88, R90): its entry, the goal of that entry when enabled,
STEP, INTERVAL, and whether a sheet begins. -/
def slewDrv (e : PalEntry) (lvl step interval : Nat) (draped sheet : Bool) (d0 : Drv) : Drv :=
  let d := if sheet && d0.ovl && !d0.ltch then { d0 with ovl := false, a := 0, c := 0 } else d0
  if draped || d.ovl then { d with a := 0, c := 0, hist := d.hist ||| 1 }
  else
    let inSwitch := decide (1 < d.w)
    let d1 := if d.w = 0 then d else { d with w := d.w - 1 }
    if inSwitch then { d1 with hist := d1.hist ||| 1 }
    else
      let same := e.k == d1.k && e.phase == d1.ph && e.range == d1.rg
      let goal := if e.en && same then lvl else 0
      let c1 := d1.c + 1
      let stepNow := d1.a != goal && decide (interval ≤ c1)
      let a' := if !stepNow then d1.a
        else if d1.a < goal then d1.a + min step (goal - d1.a)
        else d1.a - min step (d1.a - goal)
      let c' := if d1.a = goal then 0 else if stepNow then 0 else c1
      let d2 := { d1 with a := a', c := c' }
      let toSwitch := d2.a == 0 && e.en && !same && sheet
      let d3 := if toSwitch then { d2 with k := e.k, ph := e.phase, rg := e.range, w := 4 } else d2
      if stepNow || toSwitch || !e.en then { d3 with hist := d3.hist ||| 1 } else d3

/-- The drivers that run the procedure of R88 with the pin unit whose entry each uses: those that
serve a logical row, and spares being prepared (R99). -/
def State.runners (s : State) : List (Nat × Nat) :=
  let served := (List.range 64).map (fun r => (s.rowDrv r, s.rowPin r))
  let spares := (List.range 4).filterMap (fun g =>
    if s.bit (ROW_SPARE_CTRL_PREP_EN g) && !served.any (fun x => x.1 == 64 + g) then
      some (64 + g, s.rowPin (s.fld (ROW_SPARE_CTRL_ROW g)))
    else none)
  served ++ spares

/-- The slew procedure at a stroke boundary (R88, R91). -/
def State.slew (s : State) (sheet : Bool) : State :=
  let bank := s.activeBank
  let step := s.slewStep
  let iv := s.slewInterval
  let dr := s.draped
  let s1 := forEach s.runners (fun t x =>
    let e := s.palEntry bank x.2
    t.setDrv x.1 (slewDrv e (s.level e) step iv dr sheet (t.drv x.1))) s
  let stepped := s.runners.any (fun x => (s1.drv x.1).a != (s.drv x.1).a)
  if stepped then { s1 with pal := { s1.pal with stepHist := s1.pal.stepHist ||| 1 } } else s1

/-- Roll the records of which sheets carry HOLD into a new sheet (R90, R91). -/
def State.rollRows (s : State) : State :=
  { s with pal := { s.pal with
      drv := (s.pal.drv.map (fun e => (e.1, { e.2 with hist := e.2.hist <<< 1 }))).filter
        (fun e => e.2 ≠ idleDrv),
      stepHist := s.pal.stepHist <<< 1 } }

/-- The row puts the no-reading code with HOLD on the sheet that began n sheets ago (R90). -/
def State.rowHolds (s : State) (r n : Nat) : Bool :=
  let h := (s.drv (s.rowDrv r)).hist
  h.getLsbD n || h.getLsbD (n + 1)

/-- A step of some driver puts HOLD on every channel of the sheet n sheets ago (R91). -/
def State.scopeHolds (s : State) (n : Nat) : Bool :=
  s.bit PAL_CTRL_HOLD_SCOPE && (s.pal.stepHist.getLsbD n || s.pal.stepHist.getLsbD (n + 1))

/-- The steps a driver still needs and the strokes they take (R89). -/
def rampStrokes (a goal c step interval : Nat) : Nat :=
  let dist := if a ≤ goal then goal - a else a - goal
  if dist = 0 then 0 else ((dist + step - 1) / step) * interval - c

/-- EXC_RAMP_STATUS as the drivers stand (R89, Table 04-9). -/
def State.rampStatus (s : State) : Word :=
  let bank := s.activeBank
  let one := fun (x : Nat × Nat) =>
    let e := s.palEntry bank x.2
    let d := s.drv x.1
    let same := e.k == d.k && e.phase == d.ph && e.range == d.rg
    let goal := if e.en && same then s.level e else 0
    let off := s.draped || d.ovl
    let busy := !off && (d.w != 0 || d.a != goal)
    (busy, if off || d.a == goal then 0 else rampStrokes d.a goal d.c s.slewStep s.slewInterval)
  let xs := if s.pal.clamps then [] else s.runners.map one
  let n := (xs.filter (fun x => x.1)).length
  let m := xs.foldl (fun m x => max m x.2) 0
  BitVec.ofNat 32 ((if n = 0 then 0 else 2 ^ 31) + n * 2 ^ 24 + min m 0xFFFFFF)

/-- A driver's state word (Table 04-14). -/
def State.drvWord (s : State) (d : Nat) : Nat :=
  let x := s.drv d
  let serves := (List.range 64).find? (fun r => s.rowDrv r == d)
  let run := s.runners.find? (fun y => y.1 == d)
  let iso := s.flt.iso.contains (0x40 + d)
  let st := if s.pal.clamps then 7
    else match run with
      | none => if iso then 3 else 4
      | some y =>
        let e := s.palEntry s.activeBank y.2
        let same := e.k == x.k && e.phase == x.ph && e.range == x.rg
        let goal := if e.en && same then s.level e else 0
        if s.draped then 5
        else if serves.isNone then 6
        else if x.ovl || iso then 3
        else if x.w ≠ 0 then 2
        else if x.a ≠ goal then 1
        else if !e.en then 3
        else 0
  st * 2 ^ 21 + (if x.ovl then 2 ^ 20 else 0) + (if x.ltch then 2 ^ 19 else 0) + x.a % 2 ^ 16

/-- EXC_OVERLOAD_STATUS with the counts that follow from the drivers (Table 04-12). -/
def State.ovlStatus (s : State) : Word :=
  let n := (s.pal.drv.filter (fun e => e.2.ovl)).length
  let w := s.reg EXC_OVERLOAD_STATUS
  fldPut EXC_OVERLOAD_STATUS_LIVE_COUNT (fldPut EXC_OVERLOAD_STATUS_ANY w (if n = 0 then 0 else 1)) n

/-- Spare g matches the driver it shadows (R99). -/
def State.prepReady (s : State) (g : Nat) : Bool :=
  let d := s.drv (64 + g)
  let m := s.drv (s.rowDrv (s.fld (ROW_SPARE_CTRL_ROW g)))
  s.bit (ROW_SPARE_CTRL_PREP_EN g) && s.runners.any (fun x => x.1 == 64 + g) &&
    d.a == m.a && d.k == m.k && d.ph == m.ph && d.rg == m.rg && d.w == 0 && m.w == 0

/-- Declare an overload (R98). -/
def State.overload (s : State) (d : Nat) : State :=
  let x := s.drv d
  let s1 := s.setDrv d { x with ovl := true, ltch := true, a := 0, c := 0, hist := x.hist ||| 3 }
  let s2 := if s1.bit EXC_OVERLOAD_STATUS_LATCH then s1
    else (s1.setBit EXC_OVERLOAD_STATUS_LATCH true).setFld EXC_OVERLOAD_STATUS_FIRST_DRV d
  ((s2.inc EXC_OVERLOAD_STATUS_COUNT).raiseUnit .pal 0 (0x40 + d)).standing .pal 0 true

/-- Clear a driver's OVL_LATCH (R98, Table 04-3). -/
def State.clearOvl (s : State) (d : Nat) (launched : Bool) : State :=
  let x := s.drv d
  if x.ltch then
    let s1 := (s.setDrv d { x with ltch := false }).param launched true
    if s1.pal.drv.any (fun e => e.2.ovl && e.2.ltch) then s1 else s1.standing .pal 0 false
  else s

/-! ### Copy and swap (R83 to R85) -/

/-- PAL_CTRL.COPY (R83). -/
def State.palCopy (s : State) : State :=
  if s.swapPending || s.bit PAL_STATUS_COPY_BUSY then s.setBit PAL_STATUS_WIN_REJECT true
  else
    let s1 := s.setBit PAL_STATUS_COPY_BUSY true
    ({ s1 with pal := { s1.pal with copyPos := some 0 } }).after 136 .palCopyDone

/-- One tick of a copy: word k of the active bank goes to word k of the inactive bank (R83). -/
def State.palCopyTick (s : State) : State :=
  match s.pal.copyPos with
  | none => s
  | some k =>
    let s1 := s.setWin .pal (s.inactiveBank + k) (s.win .pal (s.activeBank + k))
    { s1 with pal := { s1.pal with copyPos := if k + 1 < 136 then some (k + 1) else none } }

/-- Copy the words that a copy has not reached (R83). -/
def State.palCopyRest (s : State) : State :=
  match s.pal.copyPos with
  | none => s
  | some k =>
    let s1 := forEach (List.range (136 - k)) (fun t j =>
      t.setWin .pal (s.inactiveBank + (k + j)) (s.win .pal (s.activeBank + (k + j)))) s
    { s1 with pal := { s1.pal with copyPos := none } }

/-- PAL_CTRL.SWAP_CANCEL (R85). -/
def State.swapCancel (s : State) : State :=
  if s.swapPending then
    ({ s with fieldQ := s.fieldQ.filter (fun e => e.kind != LKind.bankSwap) }).setBit
      PAL_STATUS_SWAP_PENDING false
  else s

/-- A bank swap at its postmark (R85). -/
def State.bankSwap (s : State) : State :=
  ((s.setBit PAL_STATUS_ACTIVE_BANK (!s.bit PAL_STATUS_ACTIVE_BANK)).inc
    PAL_STATUS_SWAP_COUNT).setBit PAL_STATUS_SWAP_PENDING false

/-! ### The row map (R70, R73, R100) -/

/-- The spare unit of a regular or spare unit's group: 16 regular units a group, spares from `base`. -/
def groupSpare (base u : Nat) : Nat := if u < base then base + u / 16 else u

/-- The lowest of items 1 to 5 of R70 that the entry (unit, pin) of key i takes part in breaking, 6 for
a unit that does not exist, 0 when the entry is sound; es are the other entries. -/
def mapRule (base limit : Nat) (u p : Nat) (es : List (Nat × Nat)) : Nat :=
  if limit ≤ u ∨ limit ≤ p then 6
  else if es.any (fun e => e.2 == p) then 1
  else if es.any (fun e => e.1 == u) then 2
  else if groupSpare base u ≠ groupSpare base p then 3
  else if u ≠ p ∧ u ≠ groupSpare base u ∧ p ≠ groupSpare base p then 4
  else if u ≠ p ∧ es.any (fun e => e.1 != e.2 && groupSpare base e.1 == groupSpare base u) then 5
  else 0

/-- The other row map entries as (driver, pin). -/
def State.otherRows (s : State) (r : Nat) : List (Nat × Nat) :=
  ((List.range 64).filter (fun q => q != r)).map (fun q => (s.rowDrv q, s.rowPin q))

/-- ROW_MAP_STATUS.SPARE_USE: groups whose spare serves or is served (Table 04-10). -/
def State.rowSpareUse (s : State) : Nat :=
  (List.range 4).foldl (fun m g =>
    if (List.range 64).any (fun r => s.rowDrv r == 64 + g || s.rowPin r == 64 + g)
    then m + 2 ^ g else m) 0

/-- A row map write as it takes effect at its boundary (R73, R100). -/
def State.rowMapWrite (s : State) (r : Nat) (word : W24) (m : Master) : State :=
  let w := word.toNat
  let u := bitsOf w 14 8
  let p := bitsOf w 6 0
  let rule := mapRule 64 68 u p (s.otherRows r)
  if rule ≠ 0 then
    (((s.setBit ROW_MAP_STATUS_REJECT true).setFld ROW_MAP_STATUS_REJECT_RULE rule).setFld
      ROW_MAP_STATUS_LAST_ROW r).raiseWith .pal 2 (writeRaise m 0x11E1)
  else if u = s.rowDrv r ∧ p = s.rowPin r then s
  else
    let g := u - 64
    let prepared := decide (64 ≤ u) && s.prepReady g && s.fld (ROW_SPARE_CTRL_ROW g) == r
    let x := s.drv u
    let x' := if !prepared then { x with a := 0, c := 0, w := 0, hist := x.hist ||| 1 }
      else { x with hist := x.hist ||| 1 }
    let s1 := (s.setWinN .pal (0x200 + r) (u * 256 + p)).setDrv u x'
    let s2 := if 64 ≤ u then s1.setBit (ROW_SPARE_CTRL_PREP_EN g) false else s1
    ((s2.inc ROW_MAP_STATUS_CHANGE_COUNT).setFld ROW_MAP_STATUS_LAST_ROW r).setFld
      ROW_MAP_STATUS_SPARE_USE s2.rowSpareUse

/-! ### Window writes to the banks (R82) -/

/-- The bits of a palette word that a write stores (Table 04-1). -/
def palWordMask (a : Nat) : Nat := if a % 2 = 0 then 0xFFFFFF else 0x00E1FF

/-- A window write to a palette bank (R82). -/
def State.palBankWrite (s : State) (a : Nat) (v : W24) : State :=
  let bank := if a < 0x100 then 0 else 0x100
  if bank = s.activeBank ∨ s.swapPending ∨ s.bit PAL_STATUS_COPY_BUSY then
    s.setBit PAL_STATUS_WIN_REJECT true
  else s.setWinN .pal a (v.toNat &&& palWordMask a)

/-! ### The converter codes (R79) -/

/-- A row converter's sample code: amplitude A, carrier K, PHASE, the sine table, the postmark and the
sample within the tick (R79). -/
def rowCode (sine : Nat → Int) (a k phase : Nat) (p : PM) (j : Nat) : Int :=
  let n := 8 * (p.toNat % 64) + j
  let theta := (k * n + phase) % 512
  clampInt (-8191) 8191 (((a : Int) * sine theta + 131072) / 262144)

/-- At the end of field load the named drivers take the entries of the active bank, with A = 0 and
C = 0, and the clamps release (R93). -/
def State.releaseRows (s : State) : State :=
  let bank := s.activeBank
  let s1 := forEach (List.range 64) (fun t r =>
    let e := s.palEntry bank (s.rowPin r)
    t.setDrv (s.rowDrv r) ⟨0, 0, e.k, e.phase, e.range, 0, false, false, 1⟩) s
  { s1 with pal := { s1.pal with clamps := false } }

end Sys2Proof.Machine
end

