-- ==== Sys2Proof/Machine/Col.lean ====
section
/-!
DEFINITION. Column front ends (chapter 05) and the column map: settings words, trims, overrange,
enables, spares and rovers.
-/
namespace Sys2Proof.Machine

/-! ### Front ends and columns -/

/-- A front end with nothing recorded. -/
def idleFe : FeSt := ⟨0, 0, 0⟩
/-- A front end's state. -/
def State.fe (s : State) (f : Nat) : FeSt := assocGet s.col.fe f idleFe
/-- Store a front end's state. -/
def State.setFe (s : State) (f : Nat) (x : FeSt) : State :=
  { s with col := { s.col with fe := assocPut s.col.fe f x idleFe } }

/-- A column with nothing recorded. -/
def idleCol : ColCh := ⟨0, 0, 0, false⟩
/-- A logical column's state. -/
def State.colCh (s : State) (c : Nat) : ColCh := assocGet s.col.col c idleCol
/-- Store a logical column's state. -/
def State.setColCh (s : State) (c : Nat) (x : ColCh) : State :=
  { s with col := { s.col with col := assocPut s.col.col c x idleCol } }

/-- A rover that has not dwelt. -/
def idleRover : Rover := ⟨false, 0, 0, [], [], 0⟩
/-- The rover of a column group. -/
def State.rover (s : State) (g : Nat) : Rover := assocGet s.col.rover g idleRover
/-- Store a rover's state. -/
def State.setRover (s : State) (g : Nat) (x : Rover) : State :=
  { s with col := { s.col with rover := assocPut s.col.rover g x idleRover } }

/-- A change puts HOLD on the present sheet of a column and the next, and its samples are good from
`ticks` ahead on (R107, R114, R116, R129, R141). -/
def State.holdCol (s : State) (c ticks : Nat) : State :=
  let x := s.colCh c
  s.setColCh c { x with hold := x.hold ||| 1, badBefore := max x.badBefore (s.tm.tick + ticks) }

/-- HOLD by a change, for the sheet n ago. -/
def ColCh.holds (x : ColCh) (n : Nat) : Bool := x.hold.getLsbD n || x.hold.getLsbD (n + 1)

/-! ### Settings words (R103, R105) -/

/-- MODE of a pin unit. -/
def State.pinMode (s : State) (p : Nat) : Bool := bitOf (s.winN .col p) 3
/-- RANGE of a pin unit. -/
def State.pinRange (s : State) (p : Nat) : Nat := bitsOf (s.winN .col p) 2 0
/-- The external delay that counts: D_EXT in voltage mode, else 0 (R63, Table 05-1). -/
def State.pinDext (s : State) (p : Nat) : Nat :=
  if s.pinMode p then bitsOf (s.winN .col p) 19 16 else 0
/-- The range code g, 0 to 7 (R103). -/
def State.rangeCode (s : State) (p : Nat) : Nat :=
  if s.pinMode p then 5 + s.pinRange p else s.pinRange p

/-- A settings word is valid (R103). -/
def settingsValid (w : Nat) : Bool :=
  if bitOf w 3 then decide (bitsOf w 2 0 ≤ 2) else decide (bitsOf w 2 0 ≤ 4)

/-- A pin unit is named by some column map entry. -/
def State.pinMapped (s : State) (p : Nat) : Bool := (List.range 32).any (fun c => s.colPin c == p)

/-- A column's enable bit. -/
def State.colEn (s : State) (c : Nat) : Bool := bitOf (s.fld COL_ENABLE_EN) c

/-- A column reads as disabled: its bit is clear, or an isolated front end serves it (R115, R347). -/
def State.colOff (s : State) (c : Nat) : Bool := !s.colEn c || s.flt.iso.contains (s.colFe c)

/-- An enabled logical column is mapped to a pin unit (R105). -/
def State.pinEnabled (s : State) (p : Nat) : Bool :=
  (List.range 32).any (fun c => s.colPin c == p && s.colEn c)

/-- A settings word write as it takes effect (R103, R105, R114). -/
def State.settingsWrite (s : State) (p : Nat) (word : W24) (m : Master) (launched : Bool) : State :=
  let w := word.toNat &&& 0x0F010F
  let old := s.winN .col p
  let reject (reason : Nat) : State :=
    (((s.setBit COL_MAP_STATUS_SET_REJECT true).setFld COL_MAP_STATUS_SET_REASON reason).setFld
      COL_MAP_STATUS_LAST_PIN p).raiseWith .col 4 (writeRaise m 0x12E1)
  if !settingsValid w then reject 2
  else if (bitOf w 3 != bitOf old 3 || bitOf w 8 != bitOf old 8) && s.pinEnabled p then reject 1
  else
    let s1 := s.setWinN .col p w
    let cs := (List.range 32).filter (fun c => s.colPin c == p)
    let s2 := if bitsOf w 2 0 ≠ bitsOf old 2 0 then
        forEach cs (fun t c => t.holdCol c 8) s1
      else s1
    s2.param launched (s.pinMapped p && (bitsOf w 2 0 != bitsOf old 2 0
      || bitsOf w 19 16 != bitsOf old 19 16))

/-! ### Trims (R106, R107) -/

/-- The column whose serving front end uses a trim set now, or none. -/
def State.trimUser (s : State) (f g : Nat) : Option Nat :=
  (List.range 32).find? (fun c => s.colFe c == f && s.rangeCode (s.colPin c) == g)

/-- A trim set is in use: by a serving front end or by a rover in a dwell (R106). -/
def State.trimInUse (s : State) (f g : Nat) : Bool :=
  (s.trimUser f g).isSome ||
    (decide (32 ≤ f) && (s.rover (f - 32)).dwelling &&
      s.rangeCode (s.colPin (s.rover (f - 32)).col) == g)

/-- The bits of a trim word that a write stores (Table 05-2). -/
def trimMask (w : Nat) : Nat := if w = 0 then 0x3FF3FF else 0x0000FF

/-- A trim set write as it takes effect (R107). -/
def State.trimWrite (s : State) (f g w : Nat) (word : W24) (launched : Bool) : State :=
  let a := 0x200 + 16 * f + 2 * g + w
  let v := word.toNat &&& trimMask w
  let changed := s.winN .col a != v
  let s1 := s.setWinN .col a v
  let s2 := match s.trimUser f g with
    | some c => if changed then s1.holdCol c 0 else s1
    | none => s1
  s2.param launched (changed && s.trimInUse f g)

/-! ### The column map (R73, R116) -/

/-- The other column map entries as (front end, pin). -/
def State.otherCols (s : State) (c : Nat) : List (Nat × Nat) :=
  ((List.range 32).filter (fun q => q != c)).map (fun q => (s.colFe q, s.colPin q))

/-- COL_MAP_STATUS.SPARE_USE (Table 05-8). -/
def State.colSpareUse (s : State) : Nat :=
  (List.range 2).foldl (fun m g =>
    if (List.range 32).any (fun c => s.colFe c == 32 + g || s.colPin c == 32 + g)
    then m + 2 ^ g else m) 0

/-- The front end that serves a column in a sheet, the present one or one before it. -/
def State.colFeAt (s : State) (c : Nat) (sheet : PM) : Nat :=
  match s.col.was.find? (fun x => x.1 == c) with
  | some (_, b, f) => if pmGe sheet b then s.colFe c else f
  | none => s.colFe c

/-- A column map write as it takes effect at its boundary (R73, R116). -/
def State.colMapWrite (s : State) (c : Nat) (word : W24) (m : Master) : State :=
  let w := word.toNat
  let u := bitsOf w 13 8
  let p := bitsOf w 5 0
  let rule0 := mapRule 32 34 u p (s.otherCols c)
  let rule := if rule0 = 0 ∧ !settingsValid (s.winN .col p) then 7 else rule0
  if rule ≠ 0 then
    (((s.setBit COL_MAP_STATUS_REJECT true).setFld COL_MAP_STATUS_REJECT_RULE rule).setFld
      COL_MAP_STATUS_LAST_COL c).raiseWith .col 4 (writeRaise m 0x12E1)
  else if u = s.colFe c ∧ p = s.colPin c then s
  else
    let s0 := { s with col := { s.col with was := assocSet s.col.was c (s.tm.fpm, s.colFe c) } }
    let s1 := (s0.setWinN .col (0x100 + c) (u * 256 + p)).holdCol c 8
    let s2 := if 32 ≤ u then
        let r := s1.rover (u - 32)
        ((s1.setRover (u - 32) { r with dwelling := false, d := [], n := [] }).setFld
          (COL_ROVER_STATUS_STATE (u - 32)) 3).setFld (COL_ROVER_STATUS_COLUMN (u - 32)) c
      else s1
    ((s2.inc COL_MAP_STATUS_CHANGE_COUNT).setFld COL_MAP_STATUS_LAST_COL c).setFld
      COL_MAP_STATUS_SPARE_USE s2.colSpareUse

/-- COL_SPARE_CTRL with OP 1: the spare front end of the group of the entry's PIN serves (R116). -/
def State.spareSwap (s : State) (c : Nat) (m : Master) : State :=
  let p := s.colPin c
  s.colMapWrite c (BitVec.ofNat 24 (groupSpare 32 p * 256 + p)) m

/-- COL_SPARE_CTRL with OP 2: the front end of the pin unit serves (R116). -/
def State.spareRestore (s : State) (c : Nat) (m : Master) : State :=
  let p := s.colPin c
  s.colMapWrite c (BitVec.ofNat 24 (p * 256 + p)) m

/-! ### Enables (R115) -/

/-- COL_ENABLE takes a new value at its boundary (R115). -/
def State.enableWrite (s : State) (v : Word) (launched : Bool) : State :=
  let changed := s.reg COL_ENABLE != v
  (s.setReg COL_ENABLE v).param launched changed

/-! ### Overrange (R109, R110, R113) -/

/-- A converter sample is clipped (R109). -/
def clipped (y : Int) (comparator ovlEn : Bool) (margin : Nat) : Bool :=
  decide (8191 - (margin : Int) ≤ y) || decide (y ≤ -8192 + (margin : Int)) || (ovlEn && comparator)

/-- A column carries OVR for the sheet n ago: a clipped sample of its front end in it or in the sheet
before it (R110). -/
def State.colOvr (s : State) (c n : Nat) : Bool :=
  let x := s.fe (s.colFe c)
  x.clip.getLsbD n || x.clip.getLsbD (n + 1)

/-- A spare unit is named by a channel's row or column entry (R74). -/
def State.spareNow (s : State) (c r : Nat) : Bool :=
  decide (64 ≤ s.rowDrv r) || decide (64 ≤ s.rowPin r) || decide (32 ≤ s.colFe c) ||
    decide (32 ≤ s.colPin c)

/-- Roll the columns' records into a new sheet. -/
def State.rollCols (s : State) : State :=
  let mark := s.nul.holdAt == some s.tm.fpm
  let cols := (List.range 32).filterMap (fun c =>
    let x := s.colCh c
    let y := { x with hold := (x.hold <<< 1) ||| (if mark then 1 else 0) }
    if y = idleCol then none else some (c, y))
  let fes := (s.col.fe.map (fun e =>
    (e.1, { e.2 with clip := e.2.clip <<< 1,
                     sheets := min 255 (e.2.sheets + (if e.2.clip.getLsbD 0 then 1 else 0)) }))).filter
    (fun e => e.2 ≠ idleFe)
  { s with col := { s.col with col := cols, fe := fes } }

/-- A front end's state word (Table 05-13). -/
def State.feWord (s : State) (f : Nat) : Nat :=
  let x := s.fe f
  let user := (List.range 32).find? (fun c => s.colFe c == f)
  let bad := s.flt.failed.contains f || s.flt.iso.contains f
  let rv := s.rover (f - 32)
  let roving := decide (32 ≤ f) && rv.dwelling
  let role := if !s.bit FGL_STATUS_LOADED then 0
    else if bad then 4
    else match user with
      | some c => if s.colEn c then 1 else 5
      | none => if roving then 2 else 3
  let pin := match user with
    | some c => s.colPin c
    | none => if roving then s.colPin rv.col else 0
  role * 2 ^ 21 + (if x.clip.getLsbD 1 then 2 ^ 20 else 0) + pin * 256 + x.sheets

/-! ### Rovers (R117 to R119) -/

/-- COL_ROVER_CTRL.EN of a group. -/
def State.roverEn (s : State) (g : Nat) : Bool :=
  if g = 0 then s.bit COL_ROVER_CTRL_EN0 else s.bit COL_ROVER_CTRL_EN1

/-- A group's spare may rove: enabled, serving no pin unit and not declared failed (R117, R350). -/
def State.mayRove (s : State) (g : Nat) : Bool :=
  s.roverEn g && !s.serves (32 + g) && !s.flt.failed.contains (32 + g) && !s.flt.iso.contains (32 + g)

/-- The next column to tap from `start` on, with wrap-around: enabled, served in the group and not by
the spare (R117). -/
def State.nextTap (s : State) (g start : Nat) : Option Nat :=
  ((List.range 32).map (fun k => (start + k) % 32)).find? (fun c =>
    s.colEn c && groupSpare 32 (s.colFe c) == 32 + g && s.colFe c != 32 + g)

/-- D/n_used of a row rounded to nearest, ties upward, as a signed number (Table 05-11). -/
def meanOf (d : Int) (n : Nat) : Int := (2 * d + (n : Int)) / (2 * (n : Int))

end Sys2Proof.Machine
end

