-- ==== Sys2Proof/Machine/Sine.lean ====
section
/-!
DEFINITION. The fixed tables of the demodulator and the converters: S[i] = round(32767 sin(2πi/512))
and C[i] = round(32767 cos(2πi/512)) for i = 0 to 511 (R79, R122), from a quarter wave.
-/
namespace Sys2Proof.Machine

/-- S[i] for i = 0 to 42 (R79). -/
def quarter0 : List Nat :=
  [0, 402, 804, 1206, 1608, 2009, 2410, 2811, 3212, 3612, 4011, 4410,
   4808, 5205, 5602, 5998, 6393, 6786, 7179, 7571, 7962, 8351, 8739, 9126,
   9512, 9896, 10278, 10659, 11039, 11417, 11793, 12167, 12539, 12910, 13279, 13645,
   14010, 14372, 14732, 15090, 15446, 15800, 16151]

/-- S[i] for i = 43 to 85 (R79). -/
def quarter1 : List Nat :=
  [16499, 16846, 17189, 17530, 17869, 18204, 18537, 18868, 19195, 19519, 19841, 20159,
   20475, 20787, 21096, 21403, 21705, 22005, 22301, 22594, 22884, 23170, 23452, 23731,
   24007, 24279, 24547, 24811, 25072, 25329, 25582, 25832, 26077, 26319, 26556, 26790,
   27019, 27245, 27466, 27683, 27896, 28105, 28310]

/-- S[i] for i = 86 to 128 (R79). -/
def quarter2 : List Nat :=
  [28510, 28706, 28898, 29085, 29268, 29447, 29621, 29791, 29956, 30117, 30273, 30424,
   30571, 30714, 30852, 30985, 31113, 31237, 31356, 31470, 31580, 31685, 31785, 31880,
   31971, 32057, 32137, 32213, 32285, 32351, 32412, 32469, 32521, 32567, 32609, 32646,
   32678, 32705, 32728, 32745, 32757, 32765, 32767]

/-- S[i] for i = 0 to 128 (R79). -/
def quarterWave : List Nat := quarter0 ++ quarter1 ++ quarter2

/-- S[i], the index modulo 512 (R79, R122). -/
def sineS (i : Nat) : Int :=
  let k := i % 128
  match i % 512 / 128 with
  | 0 => (quarterWave.getD k 0 : Int)
  | 1 => (quarterWave.getD (128 - k) 0 : Int)
  | 2 => -(quarterWave.getD k 0 : Int)
  | _ => -(quarterWave.getD (128 - k) 0 : Int)

/-- C[i] (R122). -/
def cosC (i : Nat) : Int := sineS (i + 128)

end Sys2Proof.Machine
end

