-- ==== Sys2Proof/Machine/Nulling.lean ====
section
/-!
DEFINITION. Demodulation and the nulling loop (chapter 06): the stroke update to the bit, loop starts,
the primer, range changes and memory errors.
-/
namespace Sys2Proof.Machine

/-! ### Settings and amplitudes -/

/-- Loop gain G of a pin unit; PIN 34 to 63 reads 0 (Table 06-8). -/
def State.gainOf (s : State) (p : Nat) : Nat := if p < 34 then assocGet s.nul.gain p 3 else 0
/-- Nulling range of a pin unit, a two-bit field; PIN 34 to 63 reads 0 (Table 06-11). -/
def State.rangeOf (s : State) (p : Nat) : Nat := if p < 34 then assocGet s.nul.range p 1 % 4 else 0

/-- A rotation or ρ word of a front end and range code is in use: by a serving front end or by a rover in a dwell,
a ρ word only in the nulling range of the pin unit (R125, R144). -/
def State.loopInUse (s : State) (f g a : Nat) : Bool :=
  let fits := fun (p : Nat) => decide (0x10000 ≤ a) || s.rangeOf p == a % 4
  (match s.trimUser f g with
    | some c => fits (s.colPin c)
    | none => false) ||
    (decide (32 ≤ f) && (s.rover (f - 32)).dwelling &&
      s.rangeCode (s.colPin (s.rover (f - 32)).col) == g && fits (s.colPin (s.rover (f - 32)).col))

/-- A signed 24-bit window word of NUL. -/
def State.nulSigned (s : State) (a : Nat) : Int := sgn 24 (s.winN .nul a)

/-- Amplitude A_I (w = 0) or A_Q (w = 1) of a channel. -/
def State.amp (s : State) (ch w : Nat) : Int := s.nulSigned (2 * ch + w)

/-- Store an amplitude, keeping what a read shows until the new one stands (R128). -/
def State.setAmp (s : State) (ch w : Nat) (v : Int) : State :=
  let a := 2 * ch + w
  let new : W24 := BitVec.ofNat 24 (unsgn 24 v)
  let old := s.win .nul a
  if new = old then s
  else
    let keep := if assocHas s.nul.ampOld a then s.nul.ampOld else assocSet s.nul.ampOld a old
    ({ s with nul := { s.nul with ampOld := keep } }).setWin .nul a new

/-- What a read of an amplitude word shows: the old value before the tick in which the new one stands
(R128, Table 06-3). -/
def State.ampShown (s : State) (a : Nat) : W24 :=
  if s.tm.tick < s.nul.ampStand then assocGet s.nul.ampOld a (s.win .nul a) else s.win .nul a

/-- Open a new set of amplitudes that stand 8 ticks after the stroke's last tick (R128). -/
def State.openStroke (s : State) : State :=
  if s.nul.ampStand = s.tm.tick + 8 then s
  else { s with nul := { s.nul with ampOld := [], ampStand := s.tm.tick + 8 } }

/-- CNT of a channel (R132). -/
def State.cntOf (s : State) (ch : Nat) : Nat := assocGet s.nul.cnt ch 0
/-- DONE of a channel (R132). -/
def State.doneOf (s : State) (ch : Nat) : Bool := assocGet s.nul.fin ch 0 == 1

/-- Store CNT and DONE of a channel. -/
def State.setConv (s : State) (ch cnt : Nat) (done : Bool) : State :=
  { s with nul := { s.nul with cnt := assocPut s.nul.cnt ch cnt 0,
                               fin := assocPut s.nul.fin ch (if done then 1 else 0) 0 } }

/-- NUL_LIMIT as a signed number. -/
def State.nulLimit (s : State) : Int := (s.fld NUL_LIMIT_LIMIT : Int)

/-! ### Arithmetic (R125, R128) -/

/-- Saturate to ±0x7F_FFFF (R125). -/
def sat24 (v : Int) : Int := clampInt (-0x7FFFFF) 0x7FFFFF v

/-- scale(v, s) (R128). -/
def scaleInt (v : Int) (k : Nat) : Int := if k = 0 then v else (v + (2 : Int) ^ (k - 1)) / (2 : Int) ^ k

/-- The rotated in-phase residual (R125). -/
def residI (rc rs si sq : Int) : Int := sat24 ((rc * si - rs * sq + 2 ^ 35) / 2 ^ 36)
/-- The rotated quadrature residual (R125). -/
def residQ (rc rs si sq : Int) : Int := sat24 ((rs * si + rc * sq + 2 ^ 35) / 2 ^ 36)

/-- Partial sums over a stroke's samples, the first being sample k0 of the sheet (R123, R124). -/
def strokeSums (dk dph : Nat) : Nat → List Int → Int × Int → Int × Int
  | _, [], acc => acc
  | k, y :: ys, acc =>
    let idx := (2 * dk * k + dph) % 512
    strokeSums dk dph (k + 1) ys (acc.1 + y * sineS idx, acc.2 + y * cosC idx)

/-- A stroke's partial sums for one row; a stroke of zeros sums to zero. -/
def sumsOf (dk dph k0 : Nat) (ys : List Int) : Int × Int :=
  if ys.all (fun y => y == 0) then (0, 0) else strokeSums dk dph k0 ys (0, 0)

/-- The window sums: the partial sums of the last four strokes (R124). -/
def windowSums (ps : List (Int × Int)) : Int × Int :=
  (ps.take 4).foldl (fun a p => (a.1 + p.1, a.2 + p.2)) (0, 0)

/-- One nulling code from the channels' amplitudes, carriers and phases (R127). -/
def nullingCode (rows : List (Int × Int × Nat × Nat)) (n : Nat) : Int :=
  let acc := rows.foldl (fun (a : Int) r =>
    let th := (r.2.2.1 * n + r.2.2.2) % 512
    a + r.1 * sineS th + r.2.1 * cosC th) 0
  (acc + 2 ^ 22) / 2 ^ 23

/-- A code beyond ±32767 is clamped (R127); some code of the ticks from p0 on is. -/
def codesClamp (rows : List (Int × Int × Nat × Nat)) (p0 ticks : Nat) : Bool :=
  if rows.isEmpty then false
  else (List.range (8 * ticks)).any (fun j =>
    let v := nullingCode rows ((8 * (p0 % 64) + j) % 512)
    decide (32767 < v) || decide (v < -32767))

/-- The driver of a row is STEADY or RAMP: its channels are active (R130). -/
def State.rowActive (s : State) (r : Nat) : Bool :=
  let d := s.rowDrv r
  let x := s.drv d
  let e := s.palEntry s.activeBank (s.rowPin r)
  let same := e.k == x.k && e.phase == x.ph && e.range == x.rg
  let goal := if e.en && same then s.level e else 0
  !s.pal.clamps && !s.draped && !x.ovl && !s.flt.iso.contains (0x40 + d) && x.w == 0 &&
    (x.a != goal || e.en)

/-- Readings are gated by a power state of PAUSE or deeper (R129 item 9, R358). -/
def State.pwrGated (s : State) : Bool := s.fld PWR_STATE_STATE != 0

/-- The ρ word's address for a front end, range code and nulling range (Table 06-14). -/
def rhoAddr (f g n : Nat) : Nat := 0x3000 + 32 * f + 4 * g + n
/-- The address of RC of a row for a front end and range code; RS follows (Table 06-14). -/
def rotAddr (f g r : Nat) : Nat := 0x10000 + 1024 * f + 128 * g + 2 * r

/-- A memory error stands in a rotation or ρ word that the column uses (R143). -/
def State.colWordBad (s : State) (c : Nat) : Bool :=
  let f := s.colFe c
  let g := s.rangeCode (s.colPin c)
  s.nul.wordBad.any (fun a =>
    a == rhoAddr f g (s.rangeOf (s.colPin c)) ||
      (decide (rotAddr f g 0 ≤ a) && decide (a < rotAddr f g 64)))

/-- The stroke that ends in this tick is frozen for the whole column (R129). -/
def State.colFrozen (s : State) (c : Nat) : Bool :=
  let w0 := s.tm.tick - 63
  let x := s.colCh c
  ((s.fe (s.colFe c)).clipStr &&& 0xF) != 0 || decide (w0 < x.badBefore) || s.colOff c ||
    decide (w0 < s.nul.badBefore) || s.draped || x.away || s.pwrGated || !s.nul.started ||
    s.colWordBad c

/-- The rows whose carriers collide: active rows that synthesise the same K (R129). -/
def State.collides (s : State) (r : Nat) (actives : List Nat) : Bool :=
  let k := (s.drv (s.rowDrv r)).k
  actives.any (fun q => q != r && (s.drv (s.rowDrv q)).k == k)

/-- Flag bits (chapter 07): OVR, SAT, UNCV, TAS, CALD, SPARE, HOLD, LOST. -/
def flOVR : Nat := 1
def flSAT : Nat := 2
def flUNCV : Nat := 4
def flTAS : Nat := 8
def flCALD : Nat := 16
def flSPARE : Nat := 32
def flHOLD : Nat := 64
def flLOST : Nat := 128

/-- The stroke of one channel (R128): amplitudes, CNT and DONE; answers the state and x when a sheet
ends. -/
def State.channelStroke (s : State) (c r f : Nat) (frozenCol sheetEnd : Bool)
    (actives : List Nat) : State × Int × Bool :=
  let ch := c * 64 + r
  let p := s.colPin c
  let g := s.rangeCode p
  let rc := s.nulSigned (rotAddr f g r)
  let rs := s.nulSigned (rotAddr f g r + 1)
  let rho := s.winN .nul (rhoAddr f g (s.rangeOf p))
  let m : Int := (rho % 65536 : Nat)
  let e := bitsOf rho 20 16
  let w := windowSums (assocGet s.nul.sums (64 * f + r) [])
  let rI := residI rc rs w.1 w.2
  let rQ := residQ rc rs w.1 w.2
  let aend := if s.pinDext p = 15 then assocGet s.nul.a15 ch 0 else assocGet s.nul.a31 ch 0
  let x0 := if s.bit NUL_CTRL_RESID_EN then aend + scaleInt (m * rI) e else aend
  let x := clampInt (-0x7FFFFF) 0x7FFFFF x0
  let act := actives.contains r
  let coll := act && s.collides r actives
  let zero := s.nul.zeroCh.contains ch
  let lim := s.nulLimit
  let chFrozen := frozenCol || coll || decide (s.tm.tick - 63 < assocGet s.nul.chBad ch 0)
  let s1 :=
    if !act || zero then ((s.setAmp ch 0 0).setAmp ch 1 0).setConv ch 0 false
    else
      let aI := s.amp ch 0
      let aQ := s.amp ch 1
      let nI := if chFrozen then aI else aI + scaleInt (m * rI) (e + s.gainOf p)
      let nQ := if chFrozen then aQ else aQ + scaleInt (m * rQ) (e + s.gainOf p)
      let small := decide (max rI.natAbs rQ.natAbs < s.fld NUL_CONVERGE_THRESH)
      let cnt := if chFrozen then s.cntOf ch else if small then min (s.cntOf ch + 1) 8 else 0
      ((s.setAmp ch 0 (clampInt (-lim) lim nI)).setAmp ch 1 (clampInt (-lim) lim nQ)).setConv ch cnt
        (s.doneOf ch || (!chFrozen && cnt == 8))
  let s2 := if coll then
      { s1 with nul := { s1.nul with chBad := assocSet s1.nul.chBad ch (s.tm.tick + 1) } }
    else if zero then
      { s1 with nul := { s1.nul with
          chBad := assocSet s1.nul.chBad ch (s.tm.tick + 18 + s.pinDext p),
          zeroCh := s1.nul.zeroCh.filter (fun k => k != ch) } }
    else s1
  let atLim := decide (s2.amp ch 0 = lim) || decide (s2.amp ch 0 = -lim) ||
    decide (s2.amp ch 1 = lim) || decide (s2.amp ch 1 = -lim)
  let s3 := if atLim && act then
      { s2 with nul := { s2.nul with satNow := assocSet s2.nul.satNow ch 1 } }
    else s2
  let ph := s.tm.fpm.toNat % 64
  let s4 := if ph = 15 then
      { s3 with nul := { s3.nul with a15 := assocPut s3.nul.a15 ch (s3.amp ch 0) 0 } }
    else if ph = 31 then
      { s3 with nul := { s3.nul with a31 := assocPut s3.nul.a31 ch (s3.amp ch 0) 0 } }
    else s3
  let s5 := if coll then s4.raise .nul 2 else s4
  (s5, if sheetEnd then x else 0, sheetEnd && x0 != x)

/-- The flags that a channel carries for the sheet that ends now, TAS and CALD apart (R90, R91, R110,
R115, R131, R132, R138, R74). -/
def State.sheetFlags (s : State) (c r : Nat) (xsat : Bool) : Nat :=
  let ch := c * 64 + r
  let clampBits := assocGet s.nul.clamp c 0
  let hold := s.rowHolds r 0 || s.scopeHolds 0 || (s.colCh c).holds 0 || s.colWordBad c ||
    s.pwrGated || (s.colCh c).away
  if s.colOff c || s.pwrGated then flHOLD
  else
    let uncv := (decide (s.cntOf ch < 8) && (s.bit NUL_CTRL_UNCV_REARM || !s.doneOf ch)) ||
      !s.nul.started || decide (s.tm.tick - 63 < s.nul.startTick + 64)
    let sat := assocGet s.nul.satNow ch 0 == 1 || xsat || (clampBits &&& 3) != 0
    (if s.colOvr c 0 then flOVR else 0) + (if sat then flSAT else 0) + (if uncv then flUNCV else 0)
      + (if s.spareNow c r then flSPARE else 0) + (if hold then flHOLD else 0)

/-- The temperature source of a column's map entry: 16 × CONV + ENTRY (R154). -/
def tmapSource (w : Nat) : Nat := (if bitOf w 4 then 16 else 0) + w % 16

/-- Nulling codes clamp in the ticks that the amplitudes of this stroke feed, 13 to 28 ticks after its
last tick: those of this sheet, then those of the next (R127, R131). -/
def State.clampScan (s : State) (c : Nat) : Bool × Bool :=
  let rows := (List.range 64).filterMap (fun r =>
    let ch := c * 64 + r
    let d := s.drv (s.rowDrv r)
    if s.amp ch 0 = 0 ∧ s.amp ch 1 = 0 then none
    else some (s.amp ch 0, s.amp ch 1, d.k, d.ph))
  let first := s.tm.fpm.toNat % 64 + 13
  let here := if first < 64 then min 16 (64 - first) else 0
  (codesClamp rows first here, codesClamp rows (first + here) (16 - here))

/-- A nulling code of a column was clamped: SAT for the sheet and the next, CLIP_SHEETS once a sheet
and NOTE (R127, R131, Table 06-11). -/
def State.noteClamp (s : State) (c : Nat) : State :=
  let w := s.clampScan c
  let s1 := if w.1 then
      { s with nul := { s.nul with clamp := assocPut s.nul.clamp c (assocGet s.nul.clamp c 0 ||| 1) 0 } }
    else s
  let s2 := if w.2 && !s1.nul.clampNext.contains c then
      { s1 with nul := { s1.nul with clampNext := s1.nul.clampNext ++ [c] } }
    else s1
  if w.1 || w.2 then
    let s3 := if s2.nul.clipSheet then s2
      else (({ s2 with nul := { s2.nul with clipSheet := true } }).inc NUL_DAC_RANGE_CLIP_SHEETS).raiseUnit .nul 1
        (s.colFe c)
    s3
  else s2

/-- The key of a column's snapshot: two sheets are held at a time. -/
def snapKey (sheet : PM) (c : Nat) : Nat := sheet.toNat / 64 % 4 * 32 + c

/-- The four over-current strokes behind a declared overload put HOLD on the driver's row in the sheet that has just
ended (R90, R98). -/
def State.strokesHold (s : State) (d : Nat) : State :=
  let before := sheetOf s.tm.fpm - 64
  let rows := (List.range 64).filter (fun r => s.rowDrv r == d)
  { s with nul := { s.nul with snaps := s.nul.snaps.map (fun x =>
      if x.2.sheet == before then
        (x.1, { x.2 with flags := x.2.flags.zipIdx.map (fun y =>
          if rows.contains y.2 then y.1 ||| flHOLD else y.1) })
      else x) } }

/-- A source's state word and code: window words 0x8100 + 2s (R156, Table 07-13). -/
def State.tempCode (s : State) (src : Nat) : W24 :=
  if bitsOf (s.winN .var (0x8101 + 2 * src)) 23 22 = 0 then
    BitVec.ofNat 24 (s.fld VAR_T_DEFAULT_T_DEFAULT)
  else s.win .var (0x8100 + 2 * src)

/-- The stored coefficient words of a column in the active bank: the listed ones (R146, R152). -/
def State.coefWords (s : State) (c : Nat) : Assoc W24 :=
  let lo := winKey .var ((if s.bit VAR_CTRL_ACTIVE_BANK then 0x4000 else 0) + 512 * c)
  (s.wins.filter (fun e => decide (lo ≤ e.1) && decide (e.1 < lo + 512))).map
    (fun e => (e.1 - lo, e.2))

/-- Channels of a column with an uncorrectable coefficient word in the active bank (R162). -/
def State.badSets (s : State) (c : Nat) : List Nat :=
  let lo := (if s.bit VAR_CTRL_ACTIVE_BANK then 0x4000 else 0) + 512 * c
  (s.var.badWord.filter (fun a => decide (lo ≤ a) && decide (a < lo + 512))).map
    (fun a => (a - lo) / 8)

/-- The snapshot of a column for the sheet that ends in this tick: x and flags of its channels, and
the coefficients and temperature in force (R128, R152, R157, R224). -/
def State.takeSnap (s : State) (c : Nat) (xs : List Int) (fl : List Nat) : State :=
  let sheet := sheetOf s.tm.fpm
  let tm := s.win .var (0x8000 + c)
  let src := tmapSource tm.toNat
  let st := s.winN .var (0x8101 + 2 * src)
  let held := bitsOf st 23 22 == 2 && s.fld VAR_T_CADENCE_HOLD_LIMIT != 0 &&
    decide (s.fld VAR_T_CADENCE_HOLD_LIMIT ≤ bitsOf st 15 8)
  let tas := bitOf tm.toNat 7 && (bitsOf st 23 22 == 0 || held)
  let off := s.colOff c || s.pwrGated
  let cald := !off && bitOf (s.winN .cal (0x800 + c)) 4
  let noRead := !s.nul.started || decide (s.tm.tick - 63 < s.nul.startTick + 64)
  let snap : ColSnap := ⟨sheet, xs, if cald then fl.map (fun f => f ||| flCALD) else fl,
    s.coefWords c, s.badSets c, tm, s.var.badWord.contains (0x8000 + c), s.tempCode src, tas, off,
    noRead, s.colFe c⟩
  { s with nul := { s.nul with snaps := assocSet s.nul.snaps (snapKey sheet c) snap } }

/-- The stroke of every channel of a column (R128), and at a sheet's end its snapshot. -/
def State.columnStroke (s : State) (c f : Nat) : State :=
  let sheetEnd := s.tm.fpm.toNat % 64 == 63 && decide (s.nul.renTick ≤ s.tm.tick - 63)
  let frozen := s.colFrozen c
  let actives := (List.range 64).filter (fun r => s.rowActive r)
  let s0 := if s.draped then
      { s with nul := { s.nul with badBefore := max s.nul.badBefore (s.tm.tick + 1) } }
    else s
  let run := (List.range 64).foldl
    (fun (a : State × List Int × List Bool) r =>
      let o := a.1.channelStroke c r f frozen sheetEnd actives
      (o.1, a.2.1 ++ [o.2.1], a.2.2 ++ [o.2.2])) (s0, [], [])
  let s1 := run.1.noteClamp c
  if sheetEnd then
    let fl := (List.range 64).map (fun r => s1.sheetFlags c r (run.2.2.getD r false))
    s1.takeSnap c run.2.1 fl
  else s1

/-- A rover's part of a sheet's end: its own x for each row, and D and n_used (R118). -/
def State.roverSheet (s : State) (g : Nat) : State :=
  let rv := s.rover g
  let f := 32 + g
  let sheet := sheetOf s.tm.fpm
  let nth := pmDist rv.start sheet / 64
  let c := rv.col
  let p := s.colPin c
  let rg := s.rangeCode p
  let rho := s.winN .nul (rhoAddr f rg (s.rangeOf p))
  let m : Int := (rho % 65536 : Nat)
  let e := bitsOf rho 20 16
  let clip := (s.fe f).clip.getLsbD 0
  let gapOpen := match s.gap with
    | some w => w.isOpen
    | none => false
  match s.nul.snaps.find? (fun x => x.1 == snapKey sheet c && x.2.sheet == sheet) with
  | none => s
  | some (_, snap) =>
    if decide (nth < 16) || clip || gapOpen then s
    else
      let rv' := (List.range 64).foldl (fun (rv : Rover) r =>
        let ch := c * 64 + r
        let fl := snap.flags.getD r flHOLD
        if fl &&& (flOVR + flSAT + flUNCV + flHOLD + flLOST) ≠ 0 then rv
        else
          let w := windowSums (assocGet s.nul.sums (64 * f + r) [])
          let rI := residI (s.nulSigned (rotAddr f rg r)) (s.nulSigned (rotAddr f rg r + 1)) w.1 w.2
          let aend := if s.pinDext p = 15 then assocGet s.nul.a15 ch 0 else assocGet s.nul.a31 ch 0
          let x0 := if s.bit NUL_CTRL_RESID_EN then aend + scaleInt (m * rI) e else aend
          let x := clampInt (-0x7FFFFF) 0x7FFFFF x0
          let d := sgn 40 (unsgn 40 (assocGet rv.d r 0 + (snap.xs.getD r 0 - x)))
          { rv with d := assocPut rv.d r d 0, n := assocPut rv.n r (assocGet rv.n r 0 + 1) 0 }) rv
      s.setRover g rv'

/-- One front end's 64 samples of the stroke that ends in this tick (R108 to R112, R123 to R132): the
clip records, the partial sums, and the update of the column it serves or taps. -/
def State.strokeUpdate (s : State) (f : Nat) (y : List Int) (comp : BitVec 64) : State :=
  let margin := s.fld COL_CTRL_OVR_MARGIN
  let en := s.bit COL_CTRL_FE_OVL_EN
  let clip := (List.range 64).any (fun k => clipped (y.getD k 0) (comp.getLsbD k) en margin)
  let x := s.fe f
  let s1 := s.setFe f { x with clipStr := (x.clipStr <<< 1) ||| (if clip then 1 else 0),
                               clip := x.clip ||| (if clip then 1 else 0) }
  let k0 := s.tm.fpm.toNat % 64 / 16 * 64
  let cut := decide (s.tm.tick - 15 < s.nul.renTick)
  let sums := (List.range 64).foldl (fun (t : Assoc (List (Int × Int))) r =>
    let d := s.drv (s.rowDrv r)
    let old := if cut then [] else assocGet t (64 * f + r) []
    assocPut t (64 * f + r) (sumsOf d.k d.ph k0 y :: old.take 3) []) s1.nul.sums
  let s2 := ({ s1 with nul := { s1.nul with sums := sums } }).openStroke
  match (List.range 32).find? (fun c => s2.colFe c == f) with
  | some c => s2.columnStroke c f
  | none =>
    if 32 ≤ f ∧ (s2.rover (f - 32)).dwelling ∧ s.tm.fpm.toNat % 64 = 63 then s2.roverSheet (f - 32)
    else s2

/-! ### Loop starts (R136, R137) -/

/-- A primed amplitude (R137): sign of the primer word, its magnitude scaled to the present excitation
and limited. -/
def primed (p : Int) (aCur ampl : Nat) (lim : Int) : Int :=
  if ampl = 0 then 0
  else
    let mag : Int := ((2 * p.natAbs * aCur + ampl) / (2 * ampl) : Nat)
    clampInt (-lim) lim (if p < 0 then -mag else mag)

/-- A primer word as a loop start uses it: 0 where an uncorrectable error stands (R143). -/
def State.primer (s : State) (ch w : Nat) : Int :=
  let a := 0x1000 + 2 * ch + w
  if s.nul.primerBad.contains a then 0 else s.nulSigned a

/-- A loop start at this sheet boundary (R136, R137). -/
def State.loopStart (s : State) : State :=
  let s1 := forEach (List.range 2048) (fun t ch =>
    let r := ch % 64
    let e := t.palEntry t.activeBank (t.rowPin r)
    let aCur := (t.drv (t.rowDrv r)).a
    let on := t.rowActive r
    let go := fun w => if on then primed (t.primer ch w) aCur e.ampl t.nulLimit else 0
    ((t.setAmp ch 0 (go 0)).setAmp ch 1 (go 1)).setConv ch 0 false) s
  let s2 := forEach (List.range 32) (fun t c =>
    let x := t.colCh c
    t.setColCh c { x with badBefore := max x.badBefore (t.tm.tick + 17 + t.pinDext (t.colPin c)) }) s1
  ({ s2 with nul := { s2.nul with started := true, startTick := s.tm.tick,
                                  reprime := false, primerBad := [] } }).inc
    NUL_PRIMER_CTRL_START_COUNT

/-! ### Nulling range, loop gain, capture (R134, R139, R141) -/

/-- An amplitude's magnitude rescaled from one nulling range to another (R141). -/
def rescale (v : Int) (old new : Nat) : Int :=
  let m := v.natAbs
  let k := if old + 1 = new then (m + 5) / 10
    else if old + 2 = new then (m + 50) / 100
    else if new + 1 = old then 10 * m
    else if new + 2 = old then 100 * m
    else m
  if v < 0 then -(k : Int) else (k : Int)

/-- A nulling range change of a pin unit at its sheet boundary (R141). -/
def State.rangeChange (s : State) (p n : Nat) (launched : Bool) : State :=
  if 34 ≤ p ∨ n = 3 then s
  else
    let old := s.rangeOf p
    if old = n then s
    else
      let lim := s.nulLimit
      let s1 := { s with nul := { s.nul with range := assocPut s.nul.range p n 1 } }
      let cs := (List.range 32).filter (fun c => s.colPin c == p)
      let s2 := forEach cs (fun t c =>
        let t1 := forEach (List.range 64) (fun u r =>
          let ch := c * 64 + r
          let vI := rescale (u.amp ch 0) old n
          let vQ := rescale (u.amp ch 1) old n
          let hit := decide (lim ≤ (vI.natAbs : Int)) || decide (lim ≤ (vQ.natAbs : Int))
          let u1 := (u.setAmp ch 0 (clampInt (-lim) lim vI)).setAmp ch 1 (clampInt (-lim) lim vQ)
          if hit then { u1 with nul := { u1.nul with satNow := assocSet u1.nul.satNow ch 1 } }
          else u1) t
        t1.holdCol c (25 + t1.pinDext p)) s1
      s2.param launched true

/-- G_min for a transport delay of 18 + D_ext ticks (R134). -/
def gMin (dext : Nat) : Nat := if 18 + dext ≤ 21 then 2 else 3

/-- A loop gain write at its stroke boundary (R134). -/
def State.gainWrite (s : State) (p g : Nat) (m : Master) (launched : Bool) : State :=
  if 34 ≤ p then s
  else if g < gMin (s.pinDext p) then
    (s.setBit NUL_LOOP_GAIN_REJECT true).raiseWith .nul 3 (writeRaise m 0x1301)
  else
    ({ s with nul := { s.nul with gain := assocPut s.nul.gain p g 3 } }).param launched
      (s.gainOf p != g)

/-- A driver's STATE code of Table 04-14 for a serving driver. -/
def State.drvState (s : State) (d : Nat) : Nat := s.drvWord d / 2 ^ 21

/-- CAPTURE in the tick in which it is applied (R139). -/
def State.captureReq (s : State) (m : Master) (launched : Bool) : State :=
  let unsteady := (List.range 64).any (fun r =>
    let st := s.drvState (s.rowDrv r)
    st != 0 && st != 3 && st != 4)
  if s.glb ≠ 7 ∨ unsteady ∨ s.bit NUL_PRIMER_CTRL_CAPTURE_BUSY then
    (s.setBit NUL_PRIMER_CTRL_CAPTURE_REJECT true).raiseWith .nul 4 (writeRaise m 0x1309)
  else
    (({ s with nul := { s.nul with capture := some ⟨s.tm.tick, [], false, 0⟩ } }).setBit
      NUL_PRIMER_CTRL_CAPTURE_BUSY true).param launched true

/-- The amplitude words of the window tables (R139's snapshot). -/
def State.ampWords (s : State) : Assoc W24 :=
  s.wins.filter (fun e => decide (winKey .nul 0 ≤ e.1) && decide (e.1 < winKey .nul 0x1000))

/-- Write primer words 2k and 2k + 1 from a snapshot (R139). -/
def State.captureWord (s : State) (vals : Assoc W24) (k : Nat) : State :=
  (s.setWin .nul (0x1000 + 2 * k) (assocGet vals (winKey .nul (2 * k)) 0)).setWin .nul
    (0x1001 + 2 * k) (assocGet vals (winKey .nul (2 * k + 1)) 0)

/-- A capture's part of a tick: the snapshot in tick T + 8's state, then one channel a tick (R139). -/
def State.captureTick (s : State) : State :=
  match s.nul.capture with
  | none => s
  | some k =>
    if k.taken then
      if k.doneN < 2048 then
        let s1 := s.captureWord k.vals k.doneN
        { s1 with nul := { s1.nul with capture := some { k with doneN := k.doneN + 1 } } }
      else s
    else if s.tm.fpm.toNat % 16 = 8 ∧ k.from_ + 24 ≤ s.tm.tick then
      let vals := s.ampWords
      let s1 := s.captureWord vals 0
      ({ s1 with nul := { s1.nul with capture := some { k with vals := vals, taken := true, doneN := 1 } } }).after
        4096 .captureDone
    else s

/-- The primer words a capture has not written yet. -/
def State.captureRest (s : State) : State :=
  match s.nul.capture with
  | none => s
  | some k => forEach ((List.range 2048).drop k.doneN) (fun t j => t.captureWord k.vals j) s

/-! ### Memory errors and renaming (R143, R403) -/

/-- An uncorrectable error in a NUL table word (R143). -/
def State.nulWordError (s : State) (a : Nat) : State :=
  let r : RaiseInfo := { plainRaise .nul with addr := a }
  let s1 := s.raiseWith .nul 6 r
  if a < 0x1000 then { s1 with nul := { s1.nul with zeroCh := s1.nul.zeroCh ++ [a / 2] } }
  else if a < 0x2000 then { s1 with nul := { s1.nul with primerBad := s1.nul.primerBad ++ [a] } }
  else if 0x3000 ≤ a then { s1 with nul := { s1.nul with wordBad := s1.nul.wordBad ++ [a] } }
  else s1

/-- At tick A the partial sums go, strokes freeze, and sheets H and H + 64 carry HOLD (R403); p is the
new name of tick A. -/
def State.nulRename (s : State) (p : PM) : State :=
  let h := sheetAtOrAfter p
  let s1 := { s with nul := { s.nul with
    sums := [], renTick := s.tm.tick, badBefore := max s.nul.badBefore (s.tm.tick + 8),
    holdAt := some h, snaps := [] } }
  if h = p then
    forEach (List.range 32) (fun t c => t.setColCh c { t.colCh c with hold := (t.colCh c).hold ||| 1 }) s1
  else s1

/-- Roll the loop's per-sheet records into a new sheet: clamped codes and SAT (R131). -/
def State.rollNul (s : State) : State :=
  let shifted : Assoc (BitVec 8) :=
    (s.nul.clamp.map (fun (e : Nat × BitVec 8) => (e.1, e.2 <<< (1 : Nat)))).filter
      (fun e => e.2 ≠ 0)
  let next : Assoc (BitVec 8) := s.nul.clampNext.foldl (fun t c => assocSet t c (assocGet t c 0 ||| 1)) shifted
  let s1 := { s with nul := { s.nul with
    clamp := next, clampNext := [], clipSheet := !s.nul.clampNext.isEmpty, satNow := [] } }
  match s.nul.clampNext with
  | [] => s1
  | c :: _ => (s1.inc NUL_DAC_RANGE_CLIP_SHEETS).raiseUnit .nul 1 (s1.colFe c)

/-- Tick 70 of a sheet: the live and latched flag registers (R113, Tables 05-6 and 06-10), the runs of
SAT and OVR. -/
def State.statusAt70 (s : State) : State :=
  let sheet := s.tm.fpm - 70
  let snaps := (List.range 32).filterMap (fun c =>
    match s.nul.snaps.find? (fun x => x.1 == snapKey sheet c && x.2.sheet == sheet) with
    | some x => some (c, x.2.flags)
    | none =>
      if s.bit FGL_STATUS_LOADED && (s.colOff c || s.pwrGated) then some (c, [flHOLD]) else none)
  if snaps.isEmpty then s
  else
    let bits := fun (fl : Nat) => snaps.foldl (fun m x =>
      if x.2.any (fun f => f &&& fl != 0) then m + 2 ^ x.1 else m) 0
    let ovr := bits flOVR
    let s1 := ((s.setFld COL_OVR_LIVE_OVR_LIVE ovr).setFld COL_OVR_STATUS_OVR_LATCH
      (s.fld COL_OVR_STATUS_OVR_LATCH ||| ovr))
    let s2 := (s1.setFld NUL_UNCV_STATUS_UNCV_LIVE (bits flUNCV)).setFld NUL_HOLD_STATUS_HOLD_LIVE
      (bits flHOLD)
    let s3 := s2.setFld NUL_SAT_STATUS_SAT_LATCH (s2.fld NUL_SAT_STATUS_SAT_LATCH ||| bits flSAT)
    let s4 := forEach snaps (fun t x =>
      let k := t.colCh x.1
      t.setColCh x.1 { k with ovrRun := if x.2.any (fun f => f &&& flOVR != 0) then k.ovrRun + 1 else 0 }) s3
    let run := snaps.foldl (fun (t : Assoc Nat) x =>
      (List.range 64).foldl (fun t r =>
        let ch := x.1 * 64 + r
        let n := if x.2.getD r 0 &&& flSAT ≠ 0 then assocGet t ch 0 + 1 else 0
        assocPut t ch n 0) t) s4.nul.satRun
    { s4 with nul := { s4.nul with satRun := run } }

end Sys2Proof.Machine
end

