-- ==== Sys2Proof/Machine/Varnish.lean ====
section
/-!
DEFINITION. Varnish (chapter 07): the evaluation to the bit, the banks, the temperature hand-over and
memory errors.
-/
namespace Sys2Proof.Machine

/-! ### Evaluation (R148, R149) -/

/-- v / 2^k to the nearest integer, ties to even (R148). -/
def rne (v : Int) (k : Nat) : Int :=
  let q := v / (2 : Int) ^ k
  let r := v % (2 : Int) ^ k
  if r > (2 : Int) ^ (k - 1) ∨ (r = (2 : Int) ^ (k - 1) ∧ q % 2 = 1) then q + 1 else q

/-- A coefficient set as signed numbers, with word 7's bits (Table 07-1). -/
structure CoefSet where
  c0     : Int
  c1     : Int
  c2     : Int
  c3     : Int
  c4     : Int
  c5     : Int
  tau    : Int
  raw    : Bool
  tempEn : Bool
deriving DecidableEq, Repr

/-- The cubic and the temperature term before saturation (R148). -/
def varnishSum (k : CoefSet) (mapEn : Bool) (t x : Int) : Int :=
  let h1 := k.c2 + rne (k.c3 * x) 23
  let h2 := k.c1 + rne (h1 * x) 23
  let h3 := k.c0 + rne (h2 * x) 23
  if k.tempEn && mapEn then
    let g := k.c4 + rne (k.c5 * x) 23
    h3 + rne (g * (t - k.tau)) 23
  else h3

/-- The reading code Y (R148). -/
def varnish (k : CoefSet) (mapEn : Bool) (t x : Int) : Int :=
  if k.raw then x else clampInt (-0x7FFFFF) 0x7FFFFF (varnishSum k mapEn t x)

/-- The coefficient set of row r of a column from the words listed in a snapshot (R146). -/
def snapSet (snap : ColSnap) (r : Nat) : CoefSet :=
  let w := fun (i : Nat) => sgn 24 (assocGet snap.coef (8 * r + i) (winReset .var (8 * r + i))).toNat
  let w7 := (assocGet snap.coef (8 * r + 7) 0).toNat
  ⟨w 0, w 1, w 2, w 3, w 4, w 5, w 6, bitOf w7 1, bitOf w7 0⟩

/-- The no-reading code (Table 07-2). -/
def noReading : Nat := 0x800000

/-- One channel's reading word, flag byte and clamp: 1 positive, 2 negative, 0 none (R148 to R157,
R162). -/
def evalChannel (snap : ColSnap) (r : Nat) : Nat × Nat × Nat :=
  let k := snapSet snap r
  let fl0 := snap.flags.getD r flHOLD
  if snap.off then (noReading, flHOLD, 0)
  else
    let bad := snap.badCh.contains r || (snap.mapBad && k.tempEn)
    let fl1 := if bad then fl0 ||| flHOLD else fl0
    let fl := if k.tempEn && snap.tas then fl1 ||| flTAS else fl1
    if fl &&& (flOVR + flHOLD) ≠ 0 ∨ snap.noRead then (noReading, fl, 0)
    else
      let en := bitOf snap.tmap.toNat 7
      let x := snap.xs.getD r 0
      let t := sgn 24 snap.code.toNat
      let y := varnish k en t x
      let h := varnishSum k en t x
      let c := if k.raw then 0 else if 0x7FFFFF < h then 1 else if h < -0x7FFFFF then 2 else 0
      (unsgn 24 y, fl, c)

/-! ### Banks (R159, R160) -/

/-- The window address of the active coefficient bank. -/
def State.varActive (s : State) : Nat := if s.bit VAR_CTRL_ACTIVE_BANK then 0x4000 else 0
/-- The window address of the inactive coefficient bank. -/
def State.varInactive (s : State) : Nat := if s.bit VAR_CTRL_ACTIVE_BANK then 0 else 0x4000

/-- The information of a raise that a window write of a block causes. -/
def winRaise (m : Master) (b : Blk) : RaiseInfo := writeRaise m (blkBase b + 0xE1)

/-- Move one word of a coefficient bank, with its uncorrectable error if it has one (R159). -/
def State.varMove (s : State) (src dst : Nat) : State :=
  let s1 := s.setWin .var dst (s.win .var src)
  let bad := s1.var.badWord.filter (fun a => a != dst)
  { s1 with var := { s1.var with badWord := if bad.contains src then bad ++ [dst] else bad } }

/-- A bank is copied word for word from the first bank to the second (R147, R159). -/
def State.varMoveBank (s : State) (src dst lo : Nat) : State :=
  let ks := winKey .var (src + lo)
  let kd := winKey .var (dst + lo)
  let n := 0x4000 - lo
  let kept := s.wins.filter (fun e => !(decide (kd ≤ e.1) && decide (e.1 < kd + n)))
  let moved := (s.wins.filter (fun e => decide (ks ≤ e.1) && decide (e.1 < ks + n))).map
    (fun e => (e.1 - ks + kd, e.2))
  let below := kept.filter (fun e => decide (e.1 < kd))
  let above := kept.filter (fun e => decide (kd ≤ e.1))
  let bad := s.var.badWord.filter (fun a => !(decide (dst + lo ≤ a) && decide (a < dst + 0x4000)))
  let badNew := (bad.filter (fun a => decide (src + lo ≤ a) && decide (a < src + 0x4000))).map
    (fun a => a - src + dst)
  { s with wins := below ++ moved ++ above, var := { s.var with badWord := bad ++ badNew } }

/-- VAR_CTRL.COPY (R159). -/
def State.varCopy (s : State) (m : Master) : State :=
  if s.bit VAR_CTRL_COPY_BUSY then
    (s.setBit VAR_CTRL_WIN_REJECT true).raiseWith .var 1 (writeRaise m VAR_CTRL)
  else
    let s1 := s.setBit VAR_CTRL_COPY_BUSY true
    ({ s1 with var := { s1.var with copyPos := some 0 } }).after 4096 .varCopyDone

/-- One tick of a coefficient copy: four words (R159). -/
def State.varCopyTick (s : State) : State :=
  match s.var.copyPos with
  | none => s
  | some k =>
    let s1 := forEach (List.range 4) (fun t j =>
      t.varMove (t.varActive + 4 * k + j) (t.varInactive + 4 * k + j)) s
    { s1 with var := { s1.var with copyPos := if k + 1 < 4096 then some (k + 1) else none } }

/-- The words a coefficient copy has not reached, and its end (R159). -/
def State.varCopyEnd (s : State) : State :=
  let s1 := match s.var.copyPos with
    | none => s
    | some k => s.varMoveBank s.varActive s.varInactive (4 * k)
  ({ s1 with var := { s1.var with copyPos := none } }).setBit VAR_CTRL_COPY_BUSY false

/-- VAR_CTRL.SWAP at its sheet boundary (R160). -/
def State.varSwap (s : State) (m : Master) (launched : Bool) : State :=
  if s.bit VAR_CTRL_COPY_BUSY then
    (s.setBit VAR_CTRL_SWAP_REJECT true).raiseWith .var 1 (writeRaise m VAR_CTRL)
  else (s.setBit VAR_CTRL_ACTIVE_BANK (!s.bit VAR_CTRL_ACTIVE_BANK)).param launched true

/-- A window write to a coefficient bank (R159, R162). -/
def State.varBankWrite (s : State) (a : Nat) (v : W24) (m : Master) : State :=
  let bank := if a < 0x4000 then 0 else 0x4000
  if bank = s.varActive ∨ s.bit VAR_CTRL_COPY_BUSY then
    (s.setBit VAR_CTRL_WIN_REJECT true).raiseWith .var 1 (winRaise m .var)
  else
    let s1 := s.setWinN .var a (if a % 8 = 7 then v.toNat % 4 else v.toNat)
    { s1 with var := { s1.var with badWord := s1.var.badWord.filter (fun x => x != a) } }

/-- A temperature map entry at its sheet boundary (R154, R161). -/
def State.tmapWrite (s : State) (c : Nat) (v : W24) (launched : Bool) : State :=
  let a := 0x8000 + c
  let w := v.toNat &&& 0x9F
  let changed := s.winN .var a != w
  let s1 := s.setWinN .var a w
  ({ s1 with var := { s1.var with badWord := s1.var.badWord.filter (fun x => x != a) } }).param
    launched changed

/-! ### Temperature sources (R155 to R158) -/

/-- STATE of a source: 0 DEFAULT, 1 FRESH, 2 HELD (Table 07-13). -/
def State.srcState (s : State) (i : Nat) : Nat := bitsOf (s.winN .var (0x8101 + 2 * i)) 23 22

/-- The copy store of a source, newest first. -/
def State.copies (s : State) (i : Nat) : List VCopy := assocGet s.var.copies i []

/-- A source's state word, with the copies it stores (Table 07-13). -/
def State.srcWord (s : State) (i : Nat) : Nat :=
  s.winN .var (0x8101 + 2 * i) / 4 * 4 + (s.copies i).length

/-- A source's copy arrives (R155, R158). -/
def State.handover (s : State) (i : Nat) (code : W24) (stamp : PM) (status : BitVec 3) : State :=
  if s.var.stale.any (fun x => x.1 == i && x.2 == stamp) then s
  else if 1024 < pmDist stamp s.tm.fpm then
    ((s.inc VAR_T_STATUS_LATE_COUNT).setBit VAR_T_STATUS_LATE true).raise .var 0
  else
    { s with var := { s.var with
      copies := assocSet s.var.copies i (⟨code, stamp, status⟩ :: (s.copies i).take 1) } }

/-- a is later than b in modulo-2^48 order. -/
def pmLater (a b : PM) : Bool := a != b && pmGe a b

/-- The candidate of a source at boundary b: the newest copy with a stamp at or before b − 1024 and
later than the stamp last latched (R156). -/
def State.candidate (s : State) (b : PM) (i : Nat) : Option VCopy :=
  (s.copies i).find? (fun k => pmGe (b - 1024) k.stamp &&
    (match (s.var.latched.find? (fun e => e.1 == i)) with
      | none => true
      | some e => pmLater k.stamp e.2))

/-- One source at a cadence boundary (R156). -/
def State.latchSource (s : State) (b : PM) (i : Nat) : State :=
  let fresh := match s.candidate b i with
    | some k => if k.status = 0 then some k else none
    | none => none
  match fresh with
  | some k =>
    let s1 := (s.setWin .var (0x8100 + 2 * i) k.code).setWinN .var (0x8101 + 2 * i) (1 * 2 ^ 22)
    { s1 with var := { s1.var with latched := assocSet s1.var.latched i k.stamp } }
  | none =>
    if s.srcState i = 0 then s
    else
      let age := min 255 (bitsOf (s.winN .var (0x8101 + 2 * i)) 15 8 + 1)
      s.setWinN .var (0x8101 + 2 * i) (2 * 2 ^ 22 + age * 256)

/-- A cadence boundary (R156). -/
def State.cadenceLatch (s : State) : State :=
  let b := s.tm.fpm
  (forEach (List.range 32) (fun t i => t.latchSource b i) s).inc VAR_T_STATUS_LATCH_COUNT

/-- The sources that enabled map entries name (R155). -/
def State.namedSources (s : State) : List Nat :=
  (List.range 32).filter (fun i => (List.range 32).any (fun c =>
    let w := s.winN .var (0x8000 + c)
    bitOf w 7 && tmapSource w == i))

/-- VAR_T_STATUS with the counts that follow from the sources (Table 07-10). -/
def State.tStatus (s : State) : Word :=
  let n := (s.namedSources.filter (fun i => s.srcState i == 0)).length
  fldPut VAR_T_STATUS_ANY_DEFAULT
    (fldPut VAR_T_STATUS_DEFAULT_COUNT (s.reg VAR_T_STATUS) n) (if n = 0 then 0 else 1)

/-- Every source returns to DEFAULT with AGE 0 (R157, R158). -/
def State.varDefault (s : State) : State :=
  let s1 := forEach (List.range 32) (fun t i =>
    (t.setWin .var (0x8100 + 2 * i) 0).setWin .var (0x8101 + 2 * i) 0) s
  { s1 with var := { s1.var with copies := [], latched := [], stale := [] } }

/-- A word of a source's copy store names the newest copy (even) or the one before it (odd). -/
def State.dropCopy (s : State) (i k : Nat) : State :=
  { s with var := { s.var with copies := assocSet s.var.copies i (dropAt (s.copies i) k) } }

/-- An uncorrectable error in a word of varnish (R162). -/
def State.varWordError (s : State) (a : Nat) : State :=
  let r : RaiseInfo := { plainRaise .var with addr := a }
  if a < 0x8000 ∨ (0x8000 ≤ a ∧ a < 0x8020) then
    let s1 := s.raiseWith .var 3 r
    if s1.var.badWord.contains a then s1
    else { s1 with var := { s1.var with badWord := s1.var.badWord ++ [a] } }
  else if 0x8100 ≤ a ∧ a < 0x8140 then
    (s.raiseWith .var 3 r).dropCopy ((a - 0x8100) / 2) (a % 2)
  else s

end Sys2Proof.Machine
end

