-- ==== Sys2Proof/Machine/Stream.lean ====
section
/-!
DEFINITION. Column blocks, the stream at full rate and decimated, and the pigeonholes (R164 to R175).
-/
namespace Sys2Proof.Machine

/-! ### Blocks (R164, R165) -/

/-- FLAG_OR of a column's flag bytes. -/
def flagOr (fl : List Nat) : Nat := fl.foldl (fun a f => a ||| f) 0

/-- ATTENTION: bit r is set when row r carries any flag. -/
def attention : Nat → List Nat → Nat
  | _, [] => 0
  | r, f :: fs => (if f = 0 then 0 else 2 ^ r) + attention (r + 1) fs

/-- The readings of a block, row 0 first. -/
def packReadings (ys : List Nat) : Nat := ys.foldl (fun a y => a * 2 ^ 24 + y % 2 ^ 24) 0

/-- A column block (Table 08-1). -/
def blockBits (dec : Bool) (c for_ att : Nat) (ys : List Nat) : Nat :=
  let head := (((if dec then 1 else 0) * 2 ^ 7 + c % 32) * 2 ^ 8 + for_ % 256) * 2 ^ 64 + att % 2 ^ 64
  let body := head * 2 ^ 1536 + packReadings ys
  body * 2 ^ 16 + crc16 1616 body

/-- The block the host die synthesises (R165). -/
def lostBlock (dec : Bool) (c : Nat) : Nat :=
  blockBits dec c 0x80 (2 ^ 64 - 1) (List.replicate 64 noReading)

/-! ### Which blocks a sheet's slots carry (R168 to R171) -/

/-- The columns of a mask, ascending. -/
def maskCols (mask : Nat) : List Nat := (List.range 32).filter (fun c => bitOf mask c)

/-- The columns whose blocks a slot sheet carries under one setting, for groups that begin from `lo` on
and before `hi`; after `hi` the first new group ends at `cut`, from which no old block is sent (R170,
R171). -/
def dueUnder (mask exp : Nat) (lo hi cut : Option PM) (slot : PM) : List (Nat × Bool) :=
  let m := 2 ^ exp
  let ps := (maskCols mask).zipIdx
  (ps.filter (fun x =>
    let back := x.2 % m
    let first : PM := slot - BitVec.ofNat 48 (64 * (back + m - 1))
    first.toNat % (64 * m) == 0 &&
      (match lo with
        | some l => pmGe first l
        | none => true) &&
      (match hi with
        | some h => !pmGe first h
        | none => true) &&
      (match cut with
        | some k => !pmGe slot k
        | none => true))).map (fun x => (x.1, decide (exp ≠ 0)))

/-- The blocks due under earlier settings: `hi` and `m` are the boundary and M of the setting after. -/
def dueOld : List OldStr → Nat → PM → List (Nat × Bool)
  | [], _, _ => []
  | o :: os, m, slot =>
    let lo := match os with
      | [] => none
      | p :: _ => some p.until_
    dueUnder o.mask.toNat o.exp lo (some o.until_)
        (some (o.until_ + BitVec.ofNat 48 (64 * (m - 1)))) slot
      ++ dueOld os (2 ^ o.exp) slot

/-- EXP of STR_DECIMATION. -/
def State.strExp (s : State) : Nat := s.fld STR_DECIMATION_EXP
/-- STR_COLUMN_MASK. -/
def State.strMask (s : State) : Nat := s.fld STR_COLUMN_MASK_MASK

/-- The columns, in ascending order, whose blocks the slots of a sheet carry, and their DEC bit. -/
def State.blocksDue (s : State) (slot : PM) : List (Nat × Bool) :=
  let lo := s.str.old.head?.map (fun o => o.until_)
  let due := dueUnder s.strMask s.strExp lo none none slot ++ dueOld s.str.old (2 ^ s.strExp) slot
  (List.range 32).filterMap (fun c => due.find? (fun x => x.1 == c))

/-- The setting that governs the group of a sheet (R171): mask, EXP and MIN_VALID. -/
def State.strFor (s : State) (sheet : PM) : Nat × Nat × Nat :=
  match s.str.old.reverse.find? (fun o => !pmGe sheet o.until_) with
  | some o => (o.mask.toNat, o.exp, o.minV)
  | none => (s.strMask, s.strExp, s.fld STR_DECIMATION_MIN_VALID)

/-- The boundary of R171 for a write: the larger of the EXP in force and the EXP written. -/
def State.strBoundary (s : State) (exp : Nat) : Nat := 64 * 2 ^ max s.strExp exp

/-- Blocks of the old setting that are not sent after a change at b (R171). -/
def skippedAt (mask expOld expNew : Nat) : Nat :=
  ((List.range (maskCols mask).length).filter (fun i => decide (2 ^ expNew ≤ i % 2 ^ expOld))).length

/-- STR_DECIMATION as it is stored: MIN_VALID 1 to 256, EXP at most 8 (Table 08-9a). -/
def decStored (v : Word) : Word :=
  let mv := fldGet STR_DECIMATION_MIN_VALID v
  let ex := fldGet STR_DECIMATION_EXP v
  BitVec.ofNat 32 ((if mv = 0 then 1 else min mv 256) * 256 + min ex 8)

/-- A change of STR_DECIMATION or STR_COLUMN_MASK at its boundary (R171). -/
def State.strChange (s : State) (mask : Bool) (v : Word) (launched : Bool) : State :=
  let idx := if mask then STR_COLUMN_MASK else STR_DECIMATION
  let w := if mask then v else decStored v
  if s.reg idx = w then s
  else
    let o : OldStr := ⟨s.tm.fpm, BitVec.ofNat 32 s.strMask, s.strExp, s.fld STR_DECIMATION_MIN_VALID⟩
    let keep := match s.str.old with
      | [] => [o]
      | p :: ps => if p.until_ = s.tm.fpm then p :: ps else (o :: p :: ps).take 4
    let s1 := ({ s with str := { s.str with old := keep } }).setReg idx w
    (s1.count STR_SKIPPED_COUNT_DEC_CHANGE (skippedAt o.mask.toNat o.exp s1.strExp)).param launched true

/-! ### Parcels of the stream (R166 to R168) -/

/-- Parcels that n blocks take. -/
def parcelsFor (n : Nat) : Nat := (1632 * n + 255) / 256

/-- STREAM slots of a sheet in the active table (Table 08-9b). -/
def State.streamSlots (s : State) : List (Nat × Nat) := s.kindSlots s.hostTab 2

/-- Stream parcels a sheet needs (R170). -/
def State.strNeed (s : State) : Nat :=
  let n := (maskCols s.strMask).length
  parcelsFor ((n + 2 ^ s.strExp - 1) / 2 ^ s.strExp)

/-- STR_STATUS (Table 08-9b). -/
def State.strStatus (s : State) : Word :=
  BitVec.ofNat 32 ((if s.str.live then 2 ^ 31 else 0) + s.strNeed % 256 * 2 ^ 16
    + s.streamSlots.length % 256 * 2 ^ 8 + (maskCols s.strMask).length)

/-- The most blocks that r parcels hold. -/
def blocksFit (r : Nat) : Nat := 256 * r / 1632

/-- Cut a bit string of whole blocks into parcels, the last padded with zeros (R166). -/
def cutParcels (bs : List Nat) : List Parcel :=
  let n := bs.length
  let k := parcelsFor n
  let all := bs.foldl (fun a b => a * 2 ^ 1632 + b % 2 ^ 1632) 0 * 2 ^ (256 * k - 1632 * n)
  (List.range k).map (fun j => BitVec.ofNat 256 (all / 2 ^ (256 * (k - 1 - j))))

/-- Synthesise the blocks of a slot sheet that have not arrived (R21, R165). -/
def State.synthesise (s : State) (slot : PM) : State :=
  forEach (s.blocksDue slot) (fun t x =>
    if t.str.here.any (fun b => b.slot == slot && b.col == x.1) then t
    else { t with str := { t.str with
      here := t.str.here ++ [⟨slot, x.1, lostBlock x.2 x.1, true, 0⟩] } }) s

/-- The deadline of a sheet on the host die: tick 160 (R21). -/
def State.sheetDeadline (s : State) : State :=
  if s.bit FGL_STATUS_LOADED then s.synthesise (sheetOf (s.tm.hpm - 160)) else s

/-- The cover tick of a carrying sheet: which blocks go, in which parcels (R166 to R168, R403). -/
def State.streamPlan (s : State) : State :=
  let slot := sheetOf s.tm.hpm - 192
  let g := s.glb
  let live := s.bit STR_CTRL_EN && (g == 6 || g == 7)
  if !live then
    { s with str := { s.str with live := false, plan := [], lostN := 0,
                                 here := s.str.here.filter (fun b => b.slot != slot) } }
  else
    let s1 := s.synthesise slot
    let due := s1.blocksDue slot
    let bs := due.filterMap (fun x => s1.str.here.find? (fun b => b.slot == slot && b.col == x.1))
    let room := blocksFit s1.streamSlots.length
    let sent := bs.take room
    let left := bs.length - sent.length
    let s2 := { s1 with str := { s1.str with
      live := true, plan := cutParcels (sent.map (fun b => b.bits)),
      lostN := (bs.filter (fun b => b.lost)).length,
      here := s1.str.here.filter (fun b => b.slot != slot) } }
    let s3 := if sent.isEmpty then s2
      else s2.setFld STR_SHEET_COUNT_SHEETS (s2.fld STR_SHEET_COUNT_SHEETS + 1)
    if left = 0 then s3 else (s3.count STR_SKIPPED_COUNT_NO_SLOT left).raise .str 0

/-! ### Decimation (R169) -/

/-- The average of a channel over a group: sum of the readings, their number and MIN (R169). -/
def decAverage (sum : Int) (n minV : Nat) : Nat :=
  if n < minV ∨ n = 0 then noReading
  else
    let q := sum / (n : Int)
    let r := sum % (n : Int)
    unsgn 24 (if 2 * r > (n : Int) ∨ (2 * r = (n : Int) ∧ q % 2 = 1) then q + 1 else q)

/-- Add a sheet's readings of a column to its group, starting afresh at the group's first sheet. -/
def State.decAdd (s : State) (c m : Nat) (sheet : PM) (ys fl : List Nat) : State :=
  let fresh := sheet.toNat % (64 * m) == 0
  let acc := (List.range 64).foldl (fun (t : Assoc (Int × Nat × Nat)) r =>
    let ch := 64 * c + r
    let a := if fresh then (0, 0, 0) else assocGet t ch (0, 0, 0)
    let y := ys.getD r noReading
    let f := fl.getD r 0
    let b := if y = noReading then (a.1, a.2.1, a.2.2 ||| f)
      else (a.1 + sgn 24 y, a.2.1 + 1, a.2.2 ||| f)
    assocPut t ch b (0, 0, 0)) s.str.acc
  { s with str := { s.str with acc := acc } }

/-- The block of a column's group that ends with this sheet (R169). -/
def State.decBlock (s : State) (c m minV : Nat) : Nat :=
  let as := (List.range 64).map (fun r => assocGet s.str.acc (64 * c + r) (0, 0, 0))
  let fl := as.map (fun a => a.2.2)
  blockBits true c (flagOr fl) (attention 0 fl) (as.map (fun a => decAverage a.1 a.2.1 (min minV m)))

/-- Put the block of one column and sheet where its slot will find it (R168 to R170). -/
def State.formBlock (s : State) (c : Nat) (sheet : PM) (ys fl : List Nat) : State :=
  let cfg := s.strFor sheet
  let f := s.colFeAt c sheet
  let m := 2 ^ cfg.2.1
  if cfg.2.1 = 0 then
    { s with str := { s.str with waitF := s.str.waitF ++
      [⟨sheet, c, blockBits false c (flagOr fl) (attention 0 fl) ys, false, f⟩] } }
  else
    let s1 := s.decAdd c m sheet ys fl
    if sheet.toNat % (64 * m) = 64 * (m - 1) then
      match (maskCols cfg.1).zipIdx.find? (fun x => x.1 == c) with
      | none => s1
      | some (_, i) =>
        { s1 with str := { s1.str with waitF := s1.str.waitF ++
          [⟨sheet + BitVec.ofNat 48 (64 * (i % m)), c, s1.decBlock c m cfg.2.2, false, f⟩] } }
    else s1

/-- R279's shedding covers a column's slot in a sheet. -/
def State.shed (s : State) (c : Nat) (slot : PM) : Bool :=
  match s.bar.shedAt with
  | some b => decide (29 ≤ c) && pmGe (slot + 128) b
  | none => false

/-- The READINGS slot of a column in a sheet: the block due there crosses the barrier, its first beat in
the next tick and its delivery 12 ticks ahead (R20, R269). -/
def State.readingsSlot (s : State) (c : Nat) (slot : PM) : State :=
  let w := s.str.waitF
  match w.find? (fun b => b.slot == slot && b.col == c) with
  | none => s
  | some b =>
    let s1 := { s with str := { s.str with
      waitF := w.filter (fun x => !(x.col == c && x.slot == slot)) } }
    let due := (s1.blocksDue slot).any (fun x => x.1 == c)
    if due && !s1.shed c slot && s1.bit FBA_STATUS_TRAINED && s1.bar.trainStart.isNone then
      let e : Env := ⟨tREADINGS, 22, BitVec.ofNat 8 b.fe, s1.bar.fieldEpoch,
        BitVec.ofNat 24 slot.toNat, 0, b.bits * 2 ^ 64⟩
      let e' := spoilt ((List.range 11).any (fun l => s1.laneBroken true l))
        { e with frank := BitVec.ofNat 16 (envFrank e) }
      { s1 with bar := { s1.bar with flights := s1.bar.flights ++ [⟨true, s1.tm.tick + 12, e'⟩] } }
    else s1

/-! ### The pigeonholes (R172 to R175) -/

/-- The ring slot of a sheet (R172). -/
def ringSlot (sheet : PM) : Nat := bitsOf sheet.toNat 16 6
/-- The window address of a reading word. -/
def ringAddr (ch : Nat) (sheet : PM) : Nat := 0x400000 + 2048 * ch + ringSlot sheet
/-- The window address of word w of a summary. -/
def sumAddr (c : Nat) (sheet : PM) (w : Nat) : Nat := 0x100000 + 3 * (32 * ringSlot sheet + c) + w

/-- A sheet lies before the horizon, over the 2048 sheets that precede it (R174). -/
def State.beforeHorizon (s : State) (sheet : PM) : Bool :=
  match s.evt.horizon with
  | none => false
  | some h => let d := pmDist sheet h; decide (0 < d) && decide (d ≤ 2048 * 64)

/-- A reading as every reader of the pigeonholes sees it (R174, R175). -/
def State.ringRead (s : State) (ch : Nat) (sheet : PM) : Nat :=
  let a := ringAddr ch sheet
  if s.beforeHorizon sheet || s.evt.badWord.contains a then noReading else s.winN .evt a

/-- The summary of a column and sheet: FLAG_OR and ATTENTION (R174, R175). -/
def State.summary (s : State) (c : Nat) (sheet : PM) : Nat × Nat :=
  if s.beforeHorizon sheet then (0x04, 2 ^ 64 - 1)
  else if (List.range 3).any (fun w => s.evt.badWord.contains (sumAddr c sheet w)) then
    (0x40, 2 ^ 64 - 1)
  else
    let w0 := s.winN .evt (sumAddr c sheet 0)
    let att := (w0 % 2 ^ 16 * 2 ^ 24 + s.winN .evt (sumAddr c sheet 1)) * 2 ^ 24
      + s.winN .evt (sumAddr c sheet 2)
    let bad := (List.range 64).foldl (fun m r =>
      if s.evt.badWord.contains (ringAddr (64 * c + r) sheet) && !bitOf att r then m + 2 ^ r else m) 0
    (w0 / 2 ^ 16, att + bad)

/-- The sheet that a ring slot of a column holds when the window reads it: the last whose tick 74 + 2c
has come. -/
def State.slotSheet (s : State) (c q : Nat) : PM :=
  let now := sheetOf (s.tm.fpm - BitVec.ofNat 48 (74 + 2 * c))
  now - BitVec.ofNat 48 (64 * ((ringSlot now + 2048 - q) % 2048))

/-- Write a column's readings and summary into the pigeonholes (R173). -/
def State.ringWrite (s : State) (c : Nat) (sheet : PM) (ys fl : List Nat) : State :=
  let s1 := forEach (List.range 64) (fun t r =>
    t.setWinN .evt (ringAddr (64 * c + r) sheet) (ys.getD r noReading)) s
  let att := attention 0 fl
  let s2 := ((s1.setWinN .evt (sumAddr c sheet 0) (flagOr fl * 2 ^ 16 + att / 2 ^ 48)).setWinN .evt
    (sumAddr c sheet 1) (bitsOf att 47 24)).setWinN .evt (sumAddr c sheet 2) (att % 2 ^ 24)
  let q := ringSlot sheet
  let mine := fun (a : Nat) =>
    (decide (0x400000 ≤ a) && (a - 0x400000) % 2048 == q && (a - 0x400000) / 2048 / 64 == c) ||
      (decide (0x100000 ≤ a) && decide (a < 0x130000) && (a - 0x100000) / 3 == 32 * q + c)
  { s2 with evt := { s2.evt with badWord := s2.evt.badWord.filter (fun a => !mine a) } }

/-- The pigeonholes as field load leaves them (R173). -/
def State.ringClear (s : State) : State :=
  let ring := fun (k : Nat) =>
    decide (winKey .evt 0x100000 ≤ k) && decide (k < winKey .evt 0x800000)
  { s with wins := s.wins.filter (fun e => !ring e.1),
           evt := { s.evt with badWord := s.evt.badWord.filter (fun a => decide (a < 0x100000)) } }

/-- An uncorrectable error in a word of the EVT block (R175). -/
def State.evtWordError (s : State) (a : Nat) : State :=
  let s1 := s.raiseWith .evt 1 { plainRaise .evt with addr := a % 65536 }
  if s1.evt.badWord.contains a then s1
  else { s1 with evt := { s1.evt with badWord := s1.evt.badWord ++ [a] } }

end Sys2Proof.Machine
end

