-- ==== Sys2Proof/Machine/Event.lean ====
section
/-!
DEFINITION. Trigger fragments, the self-trigger detector and event records (R176 to R184), and the
completion of a column's readings (R20, R173).
-/
namespace Sys2Proof.Machine

/-! ### Parcels (R179, Tables 08-4, 08-5, 08-7) -/

/-- A parcel of 240 bits and their frank. -/
def franked (body : Nat) : Parcel := BitVec.ofNat 256 (body % 2 ^ 240 * 2 ^ 16 + crc16 240 (body % 2 ^ 240))

/-- A data parcel of ten words, padded with zero words (R179). -/
def dataParcel (ws : List Nat) : Parcel :=
  franked (((ws ++ List.replicate 10 0).take 10).foldl (fun a w => a * 2 ^ 24 + w % 2 ^ 24) 0)

/-- The parcel that stands for one the host die lacks (R180). -/
def lossParcel : Parcel := dataParcel (List.replicate 10 noReading)

/-- A fragment's header parcel (Table 08-4). -/
def fragHeaderParcel (f : Frag) (lost : Nat) : Parcel :=
  let h1 := ((0xA * 2 ^ 16 + f.seq % 2 ^ 16) * 2 ^ 48 + f.t.toNat) * 2 ^ 48 + f.first.toNat
  let h2 := (((h1 * 2 ^ 5 + f.len % 32) * 2 ^ 3 + f.region % 8) * 2 ^ 5 + f.cF) * 2 ^ 5 + f.cL
  let h3 := (((h2 * 2 ^ 6 + f.rF) * 2 ^ 6 + f.rL) * 2 ^ 14 + f.d % 2 ^ 14) * 2 ^ 16 + lost % 2 ^ 16
  franked (h3 * 2 ^ 64)

/-- Word i of a fragment's body (R179, Table 08-5). -/
def State.bodyWord (s : State) (f : Frag) (i : Nat) : Nat :=
  let nR := f.rL + 1 - f.rF
  let nC := f.cL + 1 - f.cF
  let per := 4 + nR
  let sh := i / (nC * per)
  let c := f.cF + i % (nC * per) / per
  let j := i % per
  let sheet := f.first + BitVec.ofNat 48 (64 * sh)
  let sm := s.summary c sheet
  match j with
  | 0 => c % 32 * 2 ^ 16 + sm.1 % 256 * 2 ^ 8 + sh % 16
  | 1 => bitsOf sm.2 63 40
  | 2 => bitsOf sm.2 39 16
  | 3 => bitsOf sm.2 15 0 * 2 ^ 8
  | k + 4 => s.ringRead (64 * c + f.rF + k) sheet

/-- Words of a fragment's body (R179). -/
def fragWords (f : Frag) : Nat :=
  if f.cL < f.cF ∨ f.rL < f.rF then 0 else f.len * (f.cL + 1 - f.cF) * (4 + (f.rL + 1 - f.rF))

/-- Data parcel k of a fragment (R179). -/
def State.fragParcel (s : State) (f : Frag) (k : Nat) : Parcel :=
  let n := fragWords f
  dataParcel ((List.range 10).map (fun j => if 10 * k + j < n then s.bodyWord f (10 * k + j) else 0))

/-- A record's header parcel (Table 08-7). -/
def recHeaderParcel (q : QRec) (lost : Nat) : Parcel :=
  let r := q.rcd
  let h1 := (((0x5 * 2 ^ 11 + r.ch) * 2 ^ 4 + r.tpl) * 2 ^ 9 + r.count) * 2 ^ 8 + r.pre
  let h2 := ((h1 * 2 ^ 8 + r.flags) * 2 ^ 48 + r.t.toNat) * 2 ^ 24
    + unsgn 24 (clampInt (-0x7FFFFF) 0x7FFFFF r.diff)
  let h3 := (((h2 * 2 ^ 32 + q.energy) * 2 ^ 16 + q.seq % 2 ^ 16) * 2 ^ 16 + lost % 2 ^ 16) * 4 + r.prof
  franked (h3 * 2 ^ 58)

/-- Parcels of a record (R183). -/
def recParcels (q : QRec) : Nat := 1 + (q.body.length + 9) / 10

/-! ### TRIG (R176, R177) -/

/-- Trigger slots of a port in a table. -/
def State.trigSlots (s : State) (tab : Bool) (port : Nat) : List Nat :=
  (List.range 64).filter (fun k => s.isUp port && s.schedKind tab port k == 6)

/-- Place data parcels in the trigger slots of one sheet: each claim is the tick from which a
fragment's parcels may leave and their number; answers those left and the last tick used (R178). -/
def placeSheet (x start : PM) (claimed : List PM) :
    List Nat → List (PM × Nat) → PM → List (PM × Nat) × PM
  | [], q, last => (q, last)
  | k :: ks, q, last =>
    let tick := x + BitVec.ofNat 48 k
    match q with
    | [] => ([], last)
    | (e, n) :: rest =>
      if n = 0 then placeSheet x start claimed ks rest last
      else if !pmGe tick start || claimed.contains tick || !pmGe tick e then
        placeSheet x start claimed ks q last
      else placeSheet x start claimed ks (if n = 1 then rest else (e, n - 1) :: rest) tick

/-- The tick in which the last of some data parcels leaves, sheet by sheet (R177, R178). -/
def State.placeAll (s : State) (port : Nat) (start : PM) (claimed : List PM) :
    Nat → PM → List (PM × Nat) → PM → Option PM
  | 0, _, q, last => if q.all (fun e => e.2 == 0) then some last else none
  | fuel + 1, x, q, last =>
    if q.all (fun e => e.2 == 0) then some last
    else
      let o := placeSheet x start claimed (s.trigSlots (s.hostTabAt x) port)
        (q.filter (fun e => e.2 != 0)) last
      s.placeAll port start claimed fuel (x + 64) o.1 o.2

/-- The fragment that a TRIG at t asks for (R176). -/
def State.fragFor (s : State) (t : PM) : Frag :=
  let len := s.fld EVT_LENGTH_LENGTH
  let ofs := max (s.fld EVT_TRIG_OFFSET_OFFSET) len
  let region := s.fld EVT_CTRL_TRIG_REGION
  let w := s.winN .evt (0x1100 + region)
  let f : Frag := ⟨t, sheetOf t - BitVec.ofNat 48 (64 * ofs), len, region, bitsOf w 21 17, bitsOf w 16 12,
    bitsOf w 11 6, bitsOf w 5 0, 0, s.fld EVT_CTRL_ANSWER_PORT, s.evt.trigSeq + 1,
    t + BitVec.ofNat 48 (s.fld EVT_ANSWER_LATENCY_LATENCY), true, 0, false⟩
  { f with d := (fragWords f + 9) / 10 }

/-- The reason for which a TRIG is refused, in the order 5, 2, 1, 4, 3; 0 when it is accepted (R177). -/
def State.trigReason (s : State) (f : Frag) : Nat :=
  let g := s.glb
  let slotOk := s.isUp f.port && s.schedKind (s.hostTabAt f.at_) f.port (f.at_.toNat % 64) == 6
  let early := match s.evt.horizon with
    | none => false
    | some h => let d := pmDist f.first h; decide (0 < d) && decide (d ≤ 2048 * 64)
  let queue := (s.evt.frags.filter (fun k => k.port == f.port)).map
    (fun k => (k.t + 256, k.d - k.next)) ++ [(f.t + 256, f.d)]
  let claimed := f.at_ :: (s.evt.frags.filter (fun k => k.header && k.port == f.port)).map
    (fun k => k.at_)
  if !s.bit TIM_STATUS_PM_VALID then 5
  else if !(g == 6 || g == 7) || !s.bit EVT_CTRL_TRIG_EN then 2
  else if !slotOk then 1
  else if early then 4
  else
    match s.placeAll f.port (f.t + 129) claimed 1032 (sheetOf (f.t + 129)) queue f.t with
    | some last => if 65536 < pmDist f.t last then 3 else 0
    | none => 3

/-- A TRIG at its effective postmark; field says whether the field die has the TRIGGER (R177, R178). -/
def State.trigDecide (s : State) (field : Bool) : State :=
  let f := s.fragFor s.tm.hpm
  let why := s.trigReason f
  if why = 0 then
    let s1 := (s.inc EVT_COUNT_TRIG).setFld EVT_STATUS_LAST_TRIG_PM (f.t.toNat % 2 ^ 24)
    { s1 with evt := { s1.evt with
      trigSeq := f.seq, frags := s1.evt.frags ++ [{ f with field := field }] } }
  else
    let s1 := ((s.inc EVT_LOST_TRIG).setBit EVT_STATUS_REFUSED true).setFld EVT_STATUS_LAST_REFUSE why
    ({ s1 with evt := { s1.evt with lostTrg := min 65535 (s1.evt.lostTrg + 1) } }).raise .evt 3

/-! ### Headers and data in their slots (R178, R180, R184, R299) -/

/-- Fragments that have nothing left to send go. -/
def State.dropDone (s : State) : State :=
  { s with evt := { s.evt with frags := s.evt.frags.filter (fun f => f.header || decide (f.next < f.d)) } }

/-- A header's answer tick: it takes its trigger slot, or is dropped when the slot is none (R178,
R299). -/
def State.fragHeader (s : State) : State :=
  match s.evt.frags.find? (fun f => f.header && f.at_ == s.tm.hpm) with
  | none => s
  | some f =>
    let others := s.evt.frags.filter (fun k => k != f)
    let par := fragHeaderParcel f s.evt.lostTrg
    let k := s.tm.hpm.toNat % 64
    if s.isUp f.port && s.schedKind s.hostTab f.port k == 6 then
      let fs := s.evt.frags.map (fun x => if x = f then { x with header := false } else x)
      ({ s with evt := { s.evt with frags := fs, lostTrg := 0,
                                    due := (⟨s.tm.hpm, f.port, true, par, true, true⟩ : DueSlot) :: s.evt.due } }).dropDone
    else
      ({ s with evt := { s.evt with
        frags := others, lostTrg := min 65535 (s.evt.lostTrg + 1) } }).deadParcel 7 f.port 0 0 k (bitsOf par.toNat 255 232) 1

/-- How far ahead of its slot a parcel is given its slot and sent across the barrier: 128 ticks. -/
def slotLead : Nat := 128

/-- Send a parcel to the host die in an EVENT envelope for a slot (R180, R184). -/
def State.sendEvent (s : State) (tick : PM) (par : Parcel) : State :=
  s.sendF ⟨tEVENT, 4, 0xE0, some (BitVec.ofNat 24 tick.toNat), par.toNat, false⟩

/-- One trigger slot ahead takes the next data parcel of its port (R178). -/
def State.assignTrig (s : State) (tick : PM) (port : Nat) : State :=
  if s.evt.frags.any (fun f => f.header && f.port == port && f.at_ == tick) then s
  else match s.evt.frags.find? (fun f => f.port == port && decide (f.next < f.d)) with
    | none => s
    | some f =>
      if !pmGe tick (f.t + 256) then s
      else
        let par := s.fragParcel f f.next
        let fs := s.evt.frags.map (fun x => if x = f then { x with next := x.next + 1 } else x)
        let s1 := ({ s with evt := { s.evt with
          frags := fs, due := s.evt.due ++ [(⟨tick, port, true, par, f.field, false⟩ : DueSlot)] } }).dropDone
        if f.field then s1.sendEvent tick par else s1

/-- One event slot ahead takes the next parcel of the event queue (R184). -/
def State.assignEvent (s : State) (tick : PM) (port : Nat) : State :=
  match s.evt.queue with
  | [] => s
  | q :: rest =>
    let par := if q.sent = 0 then recHeaderParcel q s.evt.lostRec
      else dataParcel (((q.body.drop (10 * (q.sent - 1))).take 10).map (fun w => w.toNat))
    let q' := { q with sent := q.sent + 1 }
    let s1 := { s with evt := { s.evt with
      lostRec := if q.sent = 0 then 0 else s.evt.lostRec,
      queue := if q'.sent = recParcels q then rest else q' :: rest,
      due := s.evt.due ++ [(⟨tick, port, false, par, true, false⟩ : DueSlot)] } }
    s1.sendEvent tick par

/-- The slots that lie `slotLead` ticks ahead of the field die take their parcels (R178, R184). -/
def State.assignSlots (s : State) : State :=
  let tick := s.tm.fpm + BitVec.ofNat 48 slotLead
  let tab := s.fieldTabAt tick
  let k := tick.toNat % 64
  forEach (List.range 4) (fun t p =>
    if !t.isUp p || t.evt.due.any (fun x => x.pm == tick && x.port == p) then t
    else match t.schedKind tab p k with
      | 6 => t.assignTrig tick p
      | 3 => t.assignEvent tick p
      | _ => t) s

/-- An EVENT envelope's parcel is on the host die; it counts when its slot is 32 ticks away (R180). -/
def eventHere (now : PM) (par : Parcel) : List DueSlot → List DueSlot
  | [] => []
  | d :: ds =>
    if d.sent && !d.here && d.parcel == par && pmGe d.pm (now + 32) then { d with here := true } :: ds
    else d :: eventHere now par ds

/-- The parcel that a TRIG or EVENT slot carries now (R178, R180, R184). -/
def State.dueParcel (s : State) (port : Nat) : Parcel :=
  match s.evt.due.find? (fun d => d.pm == s.tm.hpm && d.port == port) with
  | none => 0
  | some d => if d.here then d.parcel else lossParcel

/-- Slots that have gone by. -/
def State.dropDue (s : State) : State :=
  { s with evt := { s.evt with due := s.evt.due.filter (fun d => pmGe d.pm s.tm.hpm) } }

/-- Give waiting parcels the slots of a KIND, in order. -/
def reslot (slots : List (PM × Nat)) : List DueSlot → List DueSlot
  | [] => []
  | d :: ds =>
    match slots.dropWhile (fun x => d.trig && x.2 != d.port) with
    | [] => d :: reslot [] ds
    | x :: rest => { d with pm := x.1, port := x.2 } :: reslot rest ds

/-- After a switch pending parcels take the new table's slots in order (R299). -/
def State.reassign (s : State) : State :=
  let now := s.tm.hpm
  let coming := fun (kind : Nat) =>
    (List.range 8).flatMap (fun n => (s.kindSlots s.hostTab kind).map
      (fun x => (sheetOf now + BitVec.ofNat 48 (64 * n + x.1), x.2)))
  let later := fun (l : List (PM × Nat)) => l.filter (fun x => pmGe x.1 now)
  let mine := s.evt.due.filter (fun d => d.trig)
  let evs := s.evt.due.filter (fun d => !d.trig)
  { s with evt := { s.evt with due := reslot (later (coming 6)) mine ++ reslot (later (coming 3)) evs } }

/-! ### The detector (R181) and records (R182, R183) -/

/-- Flags that keep a reading from the detector: OVR, SAT, UNCV and HOLD (R181). -/
def flTrigger : Nat := flOVR + flSAT + flUNCV + flHOLD

/-- The detector looks at one channel of a sheet that has just completed (R181). -/
def State.detect (s : State) (c r : Nat) (sheet : PM) (y fl : Nat) : State :=
  let ch := 64 * c + r
  let w := s.winN .evt ch
  let thr := bitsOf w 18 0
  if !bitOf w 23 || thr == 0 then s
  else
    let prof := bitsOf w 20 19
    let p0 := s.winN .evt (0x1000 + 2 * prof)
    let p1 := s.winN .evt (0x1001 + 2 * prof)
    let dd := bitsOf p0 23 16
    let old := sheet - BitVec.ofNat 48 (64 * dd)
    let y1 := s.ringRead ch old
    let sm := s.summary c old
    let flOld := if bitOf sm.2 r then sm.1 else 0
    let d := sgn 24 y - sgn 24 y1
    let th : Int := ((thr * 2 ^ bitsOf p0 11 8 : Nat) : Int)
    let hit := match bitsOf w 22 21 with
      | 0 => decide (th ≤ d)
      | 1 => decide (d ≤ -th)
      | _ => decide (th ≤ d) || decide (d ≤ -th)
    let quietFrom := sheet - BitVec.ofNat 48 (64 * bitsOf p1 11 0)
    let free := match s.evt.lastTrg.find? (fun e => e.1 == ch) with
      | none => true
      | some e => !pmLater e.2 quietFrom
    if y == noReading || y1 == noReading || fl &&& flTrigger != 0 || flOld &&& flTrigger != 0 || !hit
        || !free then s
    else
      let count := s.fld EVT_PRETRIGGER_COUNT
      let pre := min (s.fld EVT_PRETRIGGER_PRE) count
      let ofs := bitsOf p0 6 0
      let ahead := max (count - pre - 1) (127 - ofs)
      let rec_ : Rec := ⟨ch, sheet, d, prof, bitsOf p0 15 12, ofs, min count 256, pre, fl,
        sheet + BitVec.ofNat 48 (64 * ahead)⟩
      { s with evt := { s.evt with recs := s.evt.recs ++ [rec_],
                                   lastTrg := assocSet s.evt.lastTrg ch sheet } }

/-- A template tap; an uncorrectable one reads as 0 (R175). -/
def State.tap (s : State) (t j : Nat) : Int :=
  let a := 0x2000 + 128 * t + j
  if s.evt.badWord.contains a then 0 else sgn 24 (s.winN .evt a)

/-- The energy of a record (R182). -/
def State.energy (s : State) (r : Rec) : Nat :=
  let t0 := r.t - BitVec.ofNat 48 (64 * r.ofs)
  let o := (List.range 128).foldl (fun (a : Int × Bool) j =>
    let y := s.ringRead r.ch (t0 + BitVec.ofNat 48 (64 * j))
    if y = noReading then (a.1, false) else (a.1 + s.tap r.tpl j * sgn 24 y, a.2)) ((0 : Int), true)
  if o.2 then unsgn 32 (clampInt (-0x7FFFFFFF) 0x7FFFFFFF (rne o.1 23)) else 0x80000000

/-- Parcels in the event queue (Table 08-10c). -/
def State.queueParcels (s : State) : Nat :=
  s.evt.queue.foldl (fun n q => n + (recParcels q - q.sent)) 0

/-- Fragment data parcels that wait for a slot (Table 08-10c). -/
def State.backlog (s : State) : Nat :=
  s.evt.frags.foldl (fun n f => n + (f.d - f.next)) 0 +
    (s.evt.due.filter (fun d => d.trig && d.pm != s.tm.hpm)).length

/-- Drop the oldest record that has not started to leave. -/
def dropOldest : List QRec → List QRec
  | [] => []
  | q :: qs => if q.sent = 0 then qs else q :: dropOldest qs

/-- Drop records until n parcels fit, one at a time (R184). -/
def State.makeRoom (s : State) (n : Nat) : Nat → State
  | 0 => s
  | fuel + 1 =>
    if s.queueParcels + n ≤ 4096 ∨ s.evt.queue.all (fun q => decide (q.sent ≠ 0)) then s
    else
      let s1 := { s with evt := { s.evt with queue := dropOldest s.evt.queue,
                                             lostRec := min 65535 (s.evt.lostRec + 1) } }
      (((s1.inc EVT_LOST_RECORDS).setBit EVT_STATUS_QFULL true).raise .evt 2).makeRoom n fuel

/-- A complete record enters the event queue (R183, R184). -/
def State.queueRecord (s : State) (r : Rec) : State :=
  let t0 := r.t - BitVec.ofNat 48 (64 * r.pre)
  let body := (List.range r.count).map (fun j =>
    BitVec.ofNat 24 (s.ringRead r.ch (t0 + BitVec.ofNat 48 (64 * j))))
  let q : QRec := ⟨r, s.energy r, body, s.evt.recSeq + 1, 0⟩
  let s1 := s.makeRoom (recParcels q) 4096
  ({ s1 with evt := { s1.evt with queue := s1.evt.queue ++ [q], recSeq := s1.evt.recSeq + 1 } }).inc
    EVT_COUNT_RECORDS

/-- The records of a column whose completion tick 75 + 2c has come, in row order (R183). -/
def State.recordsComplete (s : State) (c : Nat) : State :=
  let now := s.tm.fpm
  let ready := fun (r : Rec) => r.ch / 64 == c && pmGe now (r.done + BitVec.ofNat 48 (75 + 2 * c))
  let rs := (List.range 64).flatMap (fun row => s.evt.recs.filter (fun r => ready r && r.ch % 64 == row))
  forEach rs (fun t r => t.queueRecord r)
    { s with evt := { s.evt with recs := s.evt.recs.filter (fun r => !ready r) } }

/-! ### The horizon (R174) -/

/-- What a POSTMARK_SET discards at tick A, renamed to p (R174). -/
def State.evtRename (s : State) (p : PM) : State :=
  let nr := s.evt.recs.length + s.evt.queue.length
  let nf := s.evt.frags.length
  let s1 := { s with evt := { s.evt with
    horizon := some (sheetAtOrAfter p), trigSeq := 0, recs := [], queue := [], frags := [], due := [],
    lastTrg := [] } }
  let s2 := (s1.count EVT_LOST_RECORDS nr).count EVT_LOST_TRIG nf
  if nr + nf = 0 then s2 else (s2.setBit EVT_STATUS_HORIZON true).raise .evt 4

/-! ### A column's readings complete (R20, R148, R173) -/

/-- The readings and flags of a column for a sheet without samples that a rule still fixes: the column
is disabled, isolated or gated by power, and every channel has HOLD and no reading (R115, R347,
R358). -/
def heldColumn : List Nat × List Nat := (List.replicate 64 noReading, List.replicate 64 flHOLD)

/-- Record a channel's flags in the flag table (Table 06-15). -/
def State.flagTable (s : State) (ch fl : Nat) : State :=
  let w := s.winN .nul (0x2000 + ch)
  s.setWinN .nul (0x2000 + ch) ((bitsOf w 15 8 ||| fl) * 256 + fl)

/-- What follows from a column's readings (R149, R164, R169, R173, R181). -/
def State.publish (s : State) (c : Nat) (sheet : PM) (ys fl : List Nat) : State :=
  let s1 := forEach (List.range 64) (fun t r => t.flagTable (64 * c + r) (fl.getD r 0)) s
  let s2 := if s1.bit FGL_STATUS_LOADED then s1.ringWrite c sheet ys fl else s1
  let s3 := if s2.bit EVT_CTRL_SELF_EN && s2.glb == 7 then
      forEach (List.range 64) (fun t r => t.detect c r sheet (ys.getD r noReading) (fl.getD r 0)) s2
    else s2
  if s3.bit FGL_STATUS_LOADED then s3.formBlock c sheet ys fl else s3

/-- Tick 74 + 2c: column c's readings of its oldest waiting sheet complete, and the READINGS slot of
this tick is served (R20, R173, R269). -/
def State.columnComplete (s : State) (c : Nat) : State :=
  let slot := sheetOf (s.tm.fpm - BitVec.ofNat 48 (74 + 2 * c))
  let mine := s.nul.snaps.filter (fun x => x.1 % 32 == c)
  let pick := match mine.find? (fun x => x.2.sheet == slot) with
    | some x => some x
    | none => mine.find? (fun x => x.2.sheet != sheetOf s.tm.fpm - 64)
  let s1 := match pick with
    | some (k, snap) =>
      let es : List (Nat × Nat × Nat) := (List.range 64).map (fun r => evalChannel snap r)
      let pos := (es.filter (fun (e : Nat × Nat × Nat) => e.2.2 == 1)).length
      let neg := (es.filter (fun (e : Nat × Nat × Nat) => e.2.2 == 2)).length
      let t := { s with nul := { s.nul with snaps := assocErase s.nul.snaps k } }
      ((t.count VAR_CLAMP_COUNT_POS pos).count VAR_CLAMP_COUNT_NEG neg).publish c snap.sheet
        (es.map (fun (e : Nat × Nat × Nat) => e.1)) (es.map (fun (e : Nat × Nat × Nat) => e.2.1))
    | none =>
      if s.bit FGL_STATUS_LOADED && (s.colOff c || s.pwrGated) then
        s.publish c slot heldColumn.1 heldColumn.2
      else s
  s1.readingsSlot c slot

end Sys2Proof.Machine
end

