-- ==== Sys2Proof/Machine/House.lean ====
section
/-!
DEFINITION. The housekeeping converters (chapter 09): passes and conversions, results, urgent requests,
the check channel, the reference buffer, excitation and self-calibration.
-/
namespace Sys2Proof.Machine

/-- A converter's state. -/
def State.hk (s : State) : Hk → HkSt
  | .a => s.hka
  | .b => s.hkb
/-- Store a converter's state. -/
def State.setHk (s : State) (x : Hk) (h : HkSt) : State :=
  match x with
  | .a => { s with hka := h }
  | .b => { s with hkb := h }
/-- The block of a converter. -/
def hkBlk : Hk → Blk
  | .a => .hka
  | .b => .hkb
/-- CONV of a converter: 0 for HK-A, 1 for HK-B. -/
def hkNum : Hk → Nat
  | .a => 0
  | .b => 1
/-- The other converter. -/
def hkOther : Hk → Hk
  | .a => .b
  | .b => .a

/-- L_c of a conversion-time code (Table 09-3). -/
def convTicks : Nat → Nat
  | 0 => 8000 | 1 => 32000 | 2 => 128000 | 3 => 512000 | 4 => 1024000 | 5 => 2048000
  | 6 => 4096000 | _ => 16384000

/-! ### Entry words (R189) -/

/-- An entry word's field. -/
def seqFld (lo len : Nat) (w : Word) : Nat := w.toNat / 2 ^ lo % 2 ^ len
/-- FWD of an entry word. -/
def seqFwd (w : Word) : Bool := seqFld 31 1 w == 1
/-- The settle-discard count. -/
def seqDiscard (w : Word) : Nat := seqFld 29 2 w
/-- EXC of an entry word. -/
def seqExc (w : Word) : Nat := seqFld 27 2 w
/-- TIME of an entry word. -/
def seqTime (w : Word) : Nat := seqFld 24 3 w
/-- N of an entry word. -/
def seqN (w : Word) : Nat := seqFld 16 8 w + 1
/-- SHIFT of an entry word. -/
def seqShift (w : Word) : Nat := seqFld 12 4 w
/-- GAIN of an entry word. -/
def seqGain (w : Word) : Nat := seqFld 8 3 w
/-- INPUT of an entry word. -/
def seqInput (w : Word) : Nat := seqFld 0 6 w

/-- The excitation owner (Table 09-16). -/
def State.excOwner (s : State) : Hk := if s.bit HKS_EXC_CTRL_OWNER then .b else .a

/-- An entry word is valid for a converter when `owner` owns the excitation (R189). -/
def seqValid (x owner : Hk) (w : Word) : Bool :=
  decide (seqInput w ≤ 0x19) && (seqExc w == 0 || x == owner)

/-- An entry word as it is stored: SHIFT at most 8, reserved bits 0 (Table 09-2). -/
def seqStored (w : Word) : Word :=
  let v := w.toNat &&& 0xFFFFF73F
  if 8 < seqShift w then BitVec.ofNat 32 (v - seqShift w * 2 ^ 12 + 8 * 2 ^ 12) else BitVec.ofNat 32 v

/-- The index of an entry word. -/
def hkSeqIdx (x : Hk) (n : Nat) : Nat := hkBase x + 0x10 + n % 16

/-- A write of an entry word (R189, R195). -/
def State.seqWrite (s : State) (x : Hk) (n : Nat) (w : Word) (m : Master) (launched : Bool) : State :=
  if !seqValid x s.excOwner w then
    (s.setBit (HKx_SEQ_LENGTH_SEQ_REJECT (hkBase x)) true).raiseWith (hkBlk x) 2
      (writeRaise m (hkSeqIdx x n))
  else
    let v := seqStored w
    (s.setReg (hkSeqIdx x n) v).param launched (s.reg (hkSeqIdx x n) != v)

/-- Conversions of an entry (R191). -/
def seqTotal (w : Word) : Nat :=
  if seqExc w = 3 then seqN w * (seqDiscard w + 1) else seqDiscard w + seqN w
/-- Conversion k of an entry is counted (R191). -/
def seqCounted (w : Word) (k : Nat) : Bool :=
  if seqExc w = 3 then k % (seqDiscard w + 1) == seqDiscard w else decide (seqDiscard w ≤ k)
/-- The number i, from 1, of a counted conversion (R192). -/
def seqIndex (w : Word) (k : Nat) : Nat :=
  if seqExc w = 3 then k / (seqDiscard w + 1) + 1 else k + 1 - seqDiscard w

/-! ### Excitation (R204, R205) -/

/-- POLARITY that a running conversion of the owner gives (R204). -/
def convPolarity (c : HkConv) : Nat :=
  match c.kind with
  | .check => 0
  | .cal => 0
  | _ =>
    match seqExc c.word with
    | 0 => 0
    | 1 => 1
    | 2 => 2
    | _ => if c.k / (seqDiscard c.word + 1) % 2 = 0 then 1 else 2

/-- The excitation pins as the owner's present conversion has them (R204). -/
def State.excPins (s : State) (x : Hk) : State :=
  if s.excOwner ≠ x then s
  else
    let p := match (s.hk x).conv with
      | none => 0
      | some c => convPolarity c
    s.setFld HKS_EXC_STATUS_POLARITY
      (if !s.bit HKS_EXC_CTRL_EN || s.glb == 4 || s.bit HKS_EXC_STATUS_OVL_LIVE then 0 else p)

/-- Mark the running entries with EXC on as overranged (R196, R205). -/
def State.markExc (s : State) (x : Hk) : State :=
  let h := s.hk x
  match h.conv with
  | none => s
  | some c =>
    if (c.kind == HkKind.entry || c.kind == HkKind.urgent) && seqExc c.word != 0 && seqCounted c.word c.k then
      s.setHk x { h with conv := some { c with ovr := true } }
    else s

/-- Excitation overload (R205). -/
def State.excOverload (s : State) : State :=
  let s1 := ((s.setBit HKS_EXC_STATUS_OVERLOAD true).setBit HKS_EXC_STATUS_OVL_LIVE true).setFld
    HKS_EXC_STATUS_POLARITY 0
  ((((s1.markExc .a).markExc .b).inc HKS_EXC_STATUS_OVL_COUNT).raise .hks 1).standing .hks 1 true

/-- OVERLOAD is cleared; the outputs follow from the next conversion start (R205). -/
def State.excClear (s : State) : State := s.setBit HKS_EXC_STATUS_OVERLOAD false

/-- At a conversion start the outputs are re-enabled once OVERLOAD has been cleared (R205). -/
def State.excRearm (s : State) : State :=
  if s.bit HKS_EXC_STATUS_OVL_LIVE && !s.bit HKS_EXC_STATUS_OVERLOAD then
    (s.setBit HKS_EXC_STATUS_OVL_LIVE false).standing .hks 1 false
  else s

/-! ### Starting conversions (R187, R191, R193, R195) -/

/-- ACTIVITY of a kind of conversion (Table 09-8). -/
def kindCode : HkKind → Nat
  | .check => 1
  | .entry => 2
  | .urgent => 3
  | .cal => 4

/-- The word a conversion of a kind uses: the check conversion's and self-calibration's are fixed
(R201, R206). -/
def State.convWord (s : State) (x : Hk) (kind : HkKind) (n : Nat) : Word :=
  match kind with
  | .check => BitVec.ofNat 32 (s.fld HKS_CHECK_CTRL_TIME * 2 ^ 24 + 0x10)
  | .cal => BitVec.ofNat 32 (3 * 2 ^ 24 + n * 2 ^ 8 + 0x19)
  | _ => s.reg (hkSeqIdx x n)

/-- Start a conversion with a word, at conversion k with the sums so far (R195). -/
def State.startConv (s : State) (x : Hk) (kind : HkKind) (n : Nat) (w : Word) (k : Nat) (sum : Int)
    (ovr ns : Bool) : State :=
  let s0 := s.excRearm
  let b := hkBase x
  let g := seqGain w
  let live := s0.bit HKS_EXC_STATUS_OVL_LIVE && seqExc w != 0 && seqCounted w k &&
    (kind == HkKind.entry || kind == HkKind.urgent)
  let c : HkConv := ⟨kind, n, w, sgn 24 (s0.fld (HKx_CAL_OFS_OFS b g)), s0.fld (HKx_CAL_GAIN_GAINF b g),
    k, sum, ovr || live, ns || !s0.bit HKS_REFBUF_STATUS_READY, s0.tm.tick, convTicks (seqTime w)⟩
  let s1 := s0.setHk x { s0.hk x with conv := some c, next := none }
  let s2 := s1.setFld (HKx_CTRL_ACTIVITY b) (kindCode kind)
  let s3 := if kind = .entry ∨ kind = .urgent then s2.setFld (HKx_STATUS_CUR_ENTRY b) n else s2
  s3.excPins x

/-- Start what comes next from its beginning. -/
def State.startKind (s : State) (x : Hk) (kind : HkKind) (n : Nat) : State :=
  s.startConv x kind n (s.convWord x kind n) 0 0 false false

/-- A converter may run passes: RUN, field load ended, not halted, not off (R193, R209). -/
def State.hkMayRun (s : State) (x : Hk) : Bool :=
  let h := s.hk x
  s.bit (HKx_CTRL_RUN (hkBase x)) && s.bit FGL_STATUS_LOADED && !h.halted && !h.off

/-- Start a pass: the check conversion when enabled, else entry 0 (R193). -/
def State.passStart (s : State) (x : Hk) : State :=
  let h := s.hk x
  if !s.hkMayRun x || !h.gains.isEmpty then s
  else
    let s1 := s.setHk x { h with len := s.fld (HKx_SEQ_LENGTH_LENGTH (hkBase x)), pass := false,
                                 resume := none }
    if s1.bit HKS_CHECK_CTRL_EN then s1.startKind x .check 0 else s1.startKind x .entry 0

/-- A pass starts where none runs (R193). -/
def State.passBegin (s : State) (x : Hk) : State :=
  match (s.hk x).conv with
  | some _ => s
  | none => s.passStart x

/-- What was put off to the next tick starts: the next conversion, or the next pass (R187, R193). -/
def State.hkBegin (s : State) (x : Hk) : State :=
  let h := s.hk x
  match h.conv with
  | some _ => s
  | none =>
    match h.next with
    | some (k, n) => s.startKind x k n
    | none => if h.pass then s.passStart x else s

/-- The converter idles. -/
def State.hkIdle (s : State) (x : Hk) : State :=
  ((s.setHk x { s.hk x with conv := none, next := none, pass := false }).setFld
    (HKx_CTRL_ACTIVITY (hkBase x)) 0).excPins x

/-- Abandon the running conversion (R194, R199, R206). -/
def State.hkAbandon (s : State) (x : Hk) : State :=
  match (s.hk x).conv with
  | none => s
  | some _ => (s.inc (HKx_OVERRUN_COUNT_ABANDON (hkBase x))).hkIdle x

/-! ### Results (R196 to R198, R155, R202) -/

/-- The result is consumed: NEW clears (R197). -/
def State.hkConsume (s : State) (x : Hk) : State := s.setBit (HKx_DATA_NEW (hkBase x)) false

/-- The varnish sources that a result of a converter's entry fills (R154, R202). -/
def State.handSources (s : State) (x : Hk) (n : Nat) : List Nat :=
  let sa := s.bit HKS_REDUNDANT_SEL_SUBST_A
  let sb := s.bit HKS_REDUNDANT_SEL_SUBST_B
  let own := match x with
    | .a => if sa then [] else [n]
    | .b => if sb then [] else [16 + n]
  let other := match x with
    | .a => if sb then [16 + n] else []
    | .b => if sa then [n] else []
  (own ++ other).filter (fun i => s.namedSources.contains i)

/-- R_T in mΩ as the factory record holds it (Table 10-1). -/
def traceRT : Nat :=
  (List.range 4).foldl (fun n i => n + (Config.factoryByte (0x18 + i)).toNat * 2 ^ (8 * i)) 0

/-- The trace check ends with a reason, 0 when it passed, and R_meas when it has one (R212). -/
def State.traceEnd (s : State) (reason : Nat) (r : Option Nat) : State :=
  let s1 := ({ s with cal := { s.cal with trace := none } }).setBit CAL_TRACE_STATUS_RUNNING false
  let s2 := match r with
    | some v => s1.setFld CAL_TRACE_STATUS_R_MEAS (min v (2 ^ 24 - 1))
    | none => s1
  if reason = 0 then (s2.setBit CAL_TRACE_STATUS_TRACE_OK true).setFld CAL_TRACE_STATUS_REASON 0
  else
    (((s2.setBit CAL_TRACE_STATUS_TRACE_OK false).setBit CAL_TRACE_STATUS_FAIL true).setFld
      CAL_TRACE_STATUS_REASON reason).raise .cal 0

/-- The trace check's urgent entry has completed with result v and its status bits (R212). -/
def State.traceResult (s : State) (x : Hk) (c : HkConv) (v : Int) (status : Nat) : State :=
  if s.cal.trace ≠ some (x, c.entry) ∨ c.kind ≠ .urgent then s
  else
    let num : Int := (traceRT : Int) * v
    let den : Nat := 1000 * 2 ^ (23 + seqGain c.word)
    let nom := s.winN .cal 0xA10
    let tol := s.winN .cal 0xA11 % 256
      let r := (2 * num + (den : Int)) / (2 * (den : Int))
    let ok := decide (1000 * (num - (nom : Int) * (den : Int)).natAbs ≤ nom * tol * den)
    if seqInput c.word ≠ 0x18 then s.traceEnd 4 (some r.toNat)
    else if status ≠ 0 then s.traceEnd 1 (some r.toNat)
    else if !ok then s.traceEnd 2 (some r.toNat)
    else s.traceEnd 0 (some r.toNat)

/-- The last counted conversion of an entry completes (R192, R196 to R198). -/
def State.hkResult (s : State) (x : Hk) (c : HkConv) : State :=
  let b := hkBase x
  let sh := seqShift c.word
  let q := clampInt (-0x7FFFFF) 0x7FFFFF (if sh = 0 then c.sum else rne c.sum sh)
  let flag := match x with
    | .a => s.bit HKS_CHECK_STATUS_FLAG_A
    | .b => s.bit HKS_CHECK_STATUS_FLAG_B
  let status := (if flag then 4 else 0) + (if c.ns then 2 else 0) + (if c.ovr then 1 else 0)
  let data := (8 + status) * 2 ^ 28 + c.entry % 16 * 2 ^ 24 + unsgn 24 q
  let s1 := if s.bit (HKx_DATA_NEW b) then
      ((s.setBit (HKx_STATUS_OVERRUN b) true).inc (HKx_OVERRUN_COUNT_COUNT b)).raise (hkBlk x) 0
    else s
  let s2 := (((s1.setReg (HKx_DATA b) (BitVec.ofNat 32 data)).setFld (HKx_STATUS_STAMP b)
    (s.tm.fpm.toNat % 2 ^ 24)).setBit (HKx_STATUS_LAST_URGENT b) (c.kind == HkKind.urgent)).note .brush
      (0x10 + hkNum x)
  let s3 := if seqFwd c.word then
      let pay := (((s.tm.fpm.toNat * 2 + hkNum x) * 2 + (if c.kind = .urgent then 1 else 0)) * 2 ^ 14)
        * 2 ^ 32 + data
      (s2.sendF ⟨tHKRESULT, 2, BitVec.ofNat 8 (0xD0 + hkNum x), some (BitVec.ofNat 24 s.tm.fpm.toNat),
        pay, false⟩).hkConsume x
    else s2
  let srcs := s3.handSources x c.entry
  let copy : VCopy := ⟨BitVec.ofNat 24 (unsgn 24 q), s.tm.fpm, BitVec.ofNat 3 status⟩
  let s4 := { s3.traceResult x c q status with var := { (s3.traceResult x c q status).var with
    stale := s3.var.stale.filter (fun e => !srcs.contains e.1) } }
  if srcs.isEmpty then s4
  else (s4.setHk x { s4.hk x with hand := (s4.hk x).hand ++ srcs.map (fun i => (i, copy)) }).trigger
    .brush 1

/-! ### The check channel (R201) -/

/-- A check conversion completes with code v (R201). -/
def State.checkDone (s : State) (x : Hk) (v : Int) (ns : Bool) : State :=
  if ns then s
  else
    let s1 := s.setHk x { s.hk x with check := some v }
    match s1.hka.check, s1.hkb.check with
    | some a, some b =>
      let d := a - b
      let s2 := (s1.setBit HKS_CHECK_STATUS_VALID true).setFld HKS_CHECK_DIFF_DIFF
        (unsgn 24 (clampInt (-0x800000) 0x7FFFFF d))
      if s.fld HKS_CHECK_CTRL_TOL < d.natAbs then
        ((((s2.setBit HKS_CHECK_STATUS_MISMATCH true).inc HKS_CHECK_STATUS_MISMATCH_COUNT).setBit
          HKS_CHECK_STATUS_FLAG_A true).setBit HKS_CHECK_STATUS_FLAG_B true).raise .hks 0
      else match x with
        | .a => s2.setBit HKS_CHECK_STATUS_FLAG_A false
        | .b => s2.setBit HKS_CHECK_STATUS_FLAG_B false
    | _, _ => s1

/-! ### Self-calibration (R206 to R208) -/

/-- rne_div: a / b to the nearest integer, ties to even (R207). -/
def rneDiv (a b : Int) : Int :=
  let q := a / b
  let r := a % b
  if 2 * r > b ∨ (2 * r = b ∧ q % 2 = 1) then q + 1 else q

/-- The reason of a gain's evaluation and its factors (R207). -/
def calGain (sums : List Int) (tol : Nat) : Nat × Int × Int :=
  let o1 := rne (sums.getD 0 0) 4
  let f1 := rne (sums.getD 1 0) 4
  let o2 := rne (sums.getD 2 0) 4
  let f2 := rne (sums.getD 3 0) 4
  if tol < (o1 - o2).natAbs ∨ tol < (f1 - f2).natAbs then (2, 0, 0)
  else
    let ofs := rne (o1 + o2) 1
    let span := rne (f1 + f2) 1 - ofs
    if 0x020000 < ofs.natAbs then (3, 0, 0)
    else if span ≤ 0 then (4, 0, 0)
    else
      let gn := rneDiv (0x700000 * 2 ^ 22) span
      if gn < 0x3C0000 ∨ 0x440000 < gn then (4, 0, 0) else (1, ofs, gn)

/-- The command ends; the suspended entry or check conversion starts again in the next tick (R208). -/
def State.calEnd (s : State) (x : Hk) (reason : Option Nat) : State :=
  let b := hkBase x
  let h := s.hk x
  let s1 := s.setHk x { h with conv := none, gains := [], sums := [], next := h.resume, resume := none,
                               pass := false }
  let s2 := ((s1.setBit (HKx_CAL_STATUS_BUSY b) false).inc (HKx_CAL_STATUS_COUNT b)).setFld
    (HKx_CTRL_ACTIVITY b) 0
  (match reason with
    | some r => s2.setFld (HKx_CAL_STATUS_LAST_RESULT b) r
    | none => s2).excPins x |>.note .brush 0x12

/-- End a command early, if one is in progress (R208). -/
def State.calInterrupt (s : State) (x : Hk) (reason : Nat) : State :=
  if s.bit (HKx_CAL_STATUS_BUSY (hkBase x)) then s.calEnd x (some reason) else s

/-- Begin a gain (R206). -/
def State.calNext (s : State) (x : Hk) : State :=
  match (s.hk x).gains with
  | [] => s.calEnd x none
  | g :: _ =>
    let s1 := (s.setHk x { s.hk x with sums := [0, 0, 0, 0] }).setFld
      (HKx_CAL_STATUS_CUR_GAIN (hkBase x)) g
    s1.startKind x .cal g

/-- What starts again from its beginning after an interruption now (R199, R208). -/
def State.hkBack (s : State) (x : Hk) : Option (HkKind × Nat) :=
  let h := s.hk x
  match h.conv with
  | some c => if c.kind = .urgent then h.resume else some (c.kind, c.entry)
  | none =>
    if h.pass then (if s.bit HKS_CHECK_CTRL_EN then some (.check, 0) else some (.entry, 0)) else h.next

/-- HKx_CAL_CMD.START (R206, R208). -/
def State.calStart (s : State) (x : Hk) (gains tol : Nat) : State :=
  let b := hkBase x
  if s.bit (HKx_CAL_STATUS_BUSY b) then s
  else
    let h := s.hk x
    let running := s.hkBack x
    let s1 := s.hkAbandon x
    let gs := (List.range 8).filter (fun g => bitOf gains g)
    let s2 := s1.setHk x { s1.hk x with
      resume := running, next := none, pass := false, gains := gs, tol := tol }
    let s3 := ((s2.setBit (HKx_CAL_STATUS_BUSY b) true).setFld (HKx_CAL_STATUS_DONE b) 0).setFld
      (HKx_CAL_STATUS_FAIL b) 0
    if h.halted || h.off then s3.calEnd x (some 7)
    else if !s3.bit HKS_REFBUF_STATUS_READY then s3.calEnd x (some 5)
    else s3.calNext x

/-- The 64 conversions of a gain have ended (R207); an accepted one writes its residual offset (R226). -/
def State.calGainDone (s : State) (x : Hk) : State :=
  let b := hkBase x
  let h := s.hk x
  match h.gains with
  | [] => s
  | g :: gs =>
    let o := calGain h.sums h.tol
    let s1 := (s.setHk x { h with conv := none, gains := gs }).setFld (HKx_CAL_STATUS_LAST_RESULT b) o.1
    let s2 := if o.1 = 1 then
        let o1 := rne (h.sums.getD 0 0) 4
        let o2 := rne (h.sums.getD 2 0) 4
        (((s1.setFld (HKx_CAL_OFS_OFS b g) (unsgn 24 o.2.1)).setFld (HKx_CAL_GAIN_GAINF b g)
          o.2.2.toNat).setFld (HKx_CAL_STATUS_DONE b) (s1.fld (HKx_CAL_STATUS_DONE b) ||| 2 ^ g)).setWinN
          .cal (0x900 + 8 * hkNum x + g) (unsgn 24 (rne (o1 - o2) 1))
      else (s1.setFld (HKx_CAL_STATUS_FAIL b) (s1.fld (HKx_CAL_STATUS_FAIL b) ||| 2 ^ g)).raise
        (hkBlk x) 3
    s2.calNext x

/-! ### A conversion completes (R187, R192, R196, R201, R206) -/

/-- The calibrated code of a conversion (R188). -/
def hkCode (c : HkConv) (raw : W24) : Int :=
  sat24 (rne ((sgn 24 raw.toNat - c.ofs) * (c.gainf : Int)) 22)

/-- The next entry of the pass, or the next pass (R193). -/
def State.hkAdvance (s : State) (x : Hk) (after : Option Nat) : State :=
  let h := s.hk x
  let n := match after with
    | none => 0
    | some k => k + 1
  if n < h.len then s.setHk x { h with conv := none, next := some (.entry, n) }
  else
    (s.setHk x { h with conv := none, next := none, pass := true }).setFld
      (HKx_SEQ_LENGTH_PASS_COUNT (hkBase x)) (s.fld (HKx_SEQ_LENGTH_PASS_COUNT (hkBase x)) + 1)

/-- After an urgent entry: the pending request, else what it interrupted (R199, R200). -/
def State.urgentAfter (s : State) (x : Hk) : State :=
  let h := s.hk x
  match h.urg with
  | some e =>
    (s.setHk x { h with conv := none, urg := none, next := some (.urgent, e) }).setBit
      (HKx_STATUS_URG_PENDING (hkBase x)) false
  | none =>
    match h.resume with
    | some r => s.setHk x { h with conv := none, resume := none, next := some r }
    | none => s.hkIdle x

/-- A conversion completes with a raw code (R187). -/
def State.convDone (s0 : State) (x : Hk) (raw : W24) (overload : Bool) : State :=
  let s := s0.hkBegin x
  let h := s.hk x
  match h.conv with
  | none => s
  | some c =>
    let big := decide (0x7F0000 ≤ (sgn 24 raw.toNat).natAbs)
    match c.kind with
    | .check => (s.checkDone x (hkCode c raw) c.ns).hkAdvance x none
    | .cal =>
      let i := c.k / 16
      let sums := h.sums.set i (h.sums.getD i 0 + sgn 24 raw.toNat)
      let s1 := s.setHk x { h with sums := sums }
      if c.k + 1 < 64 then s1.startConv x .cal c.entry c.word (c.k + 1) 0 false false
      else s1.calGainDone x
    | kind =>
      let counted := seqCounted c.word c.k
      let v := hkCode c raw
      let sub := seqExc c.word == 3 && seqIndex c.word c.k % 2 == 0
      let sum := if !counted then c.sum else if sub then c.sum - v else c.sum + v
      let ovr := c.ovr || (counted && (overload || big))
      if c.k + 1 < seqTotal c.word then s.startConv x kind c.entry c.word (c.k + 1) sum ovr c.ns
      else
        let s1 := s.hkResult x { c with sum := sum, ovr := ovr }
        if kind = .urgent then s1.urgentAfter x else s1.hkAdvance x (some c.entry)

/-! ### Urgent requests (R199, R200) -/

/-- HKx_URGENT with REQ 1 (R199, R200). -/
def State.urgentReq (s : State) (x : Hk) (e : Nat) (launched : Bool) : State :=
  let b := hkBase x
  let h := s.hk x
  let reject := (s.setBit (HKx_STATUS_URG_REJECT b) true).raise (hkBlk x) 1
  if h.halted || h.off || s.bit (HKx_CAL_STATUS_BUSY b) then reject
  else
    let urgentNow := (match h.conv with
      | some c => c.kind == HkKind.urgent
      | none => false) || (match h.next with
      | some (k, _) => k == HkKind.urgent
      | none => false)
    if urgentNow then
      match h.urg with
      | some _ => reject
      | none =>
        ((s.setHk x { h with urg := some e }).setBit (HKx_STATUS_URG_PENDING b) true).param launched true
    else
      let back := s.hkBack x
      let s1 := s.hkAbandon x
      let s2 := s1.setHk x { s1.hk x with resume := back, next := none, pass := false }
      (s2.startKind x .urgent e).param launched true

/-! ### Runs, restarts and stops (R193, R194, R208, R209) -/

/-- Abandon everything and wait for a pass at a sheet boundary (R194). -/
def State.hkRestartAt (s : State) (x : Hk) (reason : Nat) : State :=
  let s1 := s.hkAbandon x
  let s2 := s1.calInterrupt x reason
  let h := s2.hk x
  ((s2.setHk x { h with conv := none, next := none, resume := none, pass := false, urg := none }).setBit
    (HKx_STATUS_URG_PENDING (hkBase x)) false).setFld (HKx_CTRL_ACTIVITY (hkBase x))
    (if h.halted then 5 else 0)

/-- HKx_CTRL.RUN at its sheet boundary (R193). -/
def State.hkRun (s : State) (x : Hk) (run launched : Bool) : State :=
  let f := HKx_CTRL_RUN (hkBase x)
  let changed := s.bit f != run
  let s1 := (s.setBit f run).param launched changed
  if !changed then s1
  else if run then
    if (s1.hk x).conv.isNone && (s1.hk x).next.isNone then s1.passStart x else s1
  else (s1.hkRestartAt x 7)

/-- HKx_CTRL.RESTART at its sheet boundary (R194). -/
def State.hkRestart (s : State) (x : Hk) (launched : Bool) : State :=
  ((s.hkRestartAt x 7).passStart x).param launched true

/-- SAFE halts a converter (R209). -/
def State.hkHalt (s : State) (x : Hk) : State :=
  let s1 := s.hkRestartAt x 7
  (s1.setHk x { s1.hk x with halted := true }).setFld (HKx_CTRL_ACTIVITY (hkBase x)) 5

/-! ### The reference buffer (R203) -/

/-- Mark the running conversions as not settled (R196). -/
def State.markNs (s : State) (x : Hk) : State :=
  let h := s.hk x
  match h.conv with
  | none => s
  | some c => s.setHk x { h with conv := some { c with ns := true } }

/-- The reference buffer is on when EN asks for it and no power state has it off (R203). -/
def State.refUpdate (s : State) : State :=
  let want := s.bit HKS_REFBUF_EN && !s.pwr.refOff
  if want == s.bit HKS_REFBUF_STATUS_ON then s
  else if want then ({ s with refOnAt := s.tm.tick }).setBit HKS_REFBUF_STATUS_ON true
  else
    let s1 := (s.setBit HKS_REFBUF_STATUS_ON false).setBit HKS_REFBUF_STATUS_READY false
    (((s1.markNs .a).markNs .b).calInterrupt .a 5).calInterrupt .b 5

/-- READY sets (R203). -/
def State.refReady (s : State) : State :=
  if s.bit HKS_REFBUF_STATUS_ON then s.setBit HKS_REFBUF_STATUS_READY true else s

/-- READY is due in this tick (R203). -/
def State.refDue (s : State) : Bool :=
  s.bit HKS_REFBUF_STATUS_ON && !s.bit HKS_REFBUF_STATUS_READY &&
    decide (s.refOnAt + s.fld HKS_REFBUF_WAIT * 1000 ≤ s.tm.tick)

/-- HKS_REFBUF_STATUS with ELAPSED (Table 09-15). -/
def State.refStatus (s : State) : Word :=
  fldPut HKS_REFBUF_STATUS_ELAPSED (s.reg HKS_REFBUF_STATUS)
    (if s.bit HKS_REFBUF_STATUS_ON then min 65535 ((s.tm.tick - s.refOnAt) / 1000) else 0)

/-- DORMANT turns the converters, the excitation and the reference buffer off (R361). -/
def State.hkSleep (s : State) : State :=
  let s1 := (s.hkRestartAt .a 7).hkRestartAt .b 7
  let s2 := { s1 with hka := { s1.hka with off := true }, hkb := { s1.hkb with off := true },
                      pwr := { s1.pwr with refOff := true, hkWaits := false } }
  (s2.refUpdate.excPins .a).excPins .b

/-- A wake from DORMANT turns the reference buffer on; the converters wait for READY (R360). -/
def State.refWake (s : State) : State :=
  ({ s with pwr := { s.pwr with refOff := false, hkWaits := true } }).refUpdate

/-- The converters restart their passes (R194, R360). -/
def State.hkWake (s : State) : State :=
  let s1 := { s with hka := { s.hka with off := false }, hkb := { s.hkb with off := false },
                     pwr := { s.pwr with hkWaits := false } }
  (((s1.excPins .a).excPins .b).passStart .a).passStart .b

/-! ### Other writes (R202, R204) -/

/-- HKS_EXC_CTRL (R204). -/
def State.excCtrlWrite (s : State) (v : Word) (m : Master) (launched : Bool) : State :=
  let w := BitVec.ofNat 32 (v.toNat &&& 0xC00001FF)
  let newB := fldGet HKS_EXC_CTRL_OWNER w == 1
  let loser : Hk := if newB then .a else .b
  let changes := newB != s.bit HKS_EXC_CTRL_OWNER
  if changes && (List.range 16).any (fun n => seqExc (s.reg (hkSeqIdx loser n)) != 0) then
    (s.setBit HKS_EXC_STATUS_CTRL_REJECT true).raiseWith .hks 2 (writeRaise m HKS_EXC_CTRL)
  else (s.setReg HKS_EXC_CTRL w).param launched (s.reg HKS_EXC_CTRL != w)

/-- HKS_REDUNDANT_SEL at its sheet boundary (R202). -/
def State.redundantSel (s : State) (v : Word) (launched : Bool) : State :=
  let w := v.toNat % 4
  if w = 3 then s
  else (s.setReg HKS_REDUNDANT_SEL (BitVec.ofNat 32 w)).param launched
    (s.reg HKS_REDUNDANT_SEL != BitVec.ofNat 32 w)

/-- A read of HKx_DATA that consumes (R197). -/
def State.hkRead (s : State) (x : Hk) : Word × State := (s.reg (HKx_DATA (hkBase x)), s.hkConsume x)

/-- Brush's hand-over copies a waiting result to its source and consumes it (R155, R197). -/
def State.handOne (s : State) (x : Hk) (i : Nat) (k : VCopy) : State :=
  let b := hkBase x
  let s1 := s.handover i k.code k.stamp k.status
  if s1.fld (HKx_STATUS_STAMP b) = k.stamp.toNat % 2 ^ 24 then s1.hkConsume x else s1

/-- The hand-over of every waiting result of a converter. -/
def State.handAll (s : State) (x : Hk) : State :=
  let w := (s.hk x).hand
  forEach w (fun t e => t.handOne x e.1 e.2) (s.setHk x { s.hk x with hand := [] })

/-- A copy that reaches a source's store (R155): the result it copies is consumed and waits no longer. -/
def State.handCopy (s : State) (i : Nat) (k : VCopy) : State :=
  let drop := fun (t : State) (x : Hk) =>
    let h := t.hk x
    if h.hand.contains (i, k) then
      (t.setHk x { h with hand := h.hand.filter (fun e => e != (i, k)) }).handOne x i k
    else t
  if s.hka.hand.contains (i, k) then drop s .a
  else if s.hkb.hand.contains (i, k) then drop s .b
  else s.handover i k.code k.stamp k.status

/-- At tick A of a POSTMARK_SET the stores empty, and copies of earlier results go nowhere (R158). -/
def State.varRename (s : State) : State :=
  let old := (s.hka.hand ++ s.hkb.hand).map (fun e => (e.1, e.2.stamp))
  let held := [Hk.a, Hk.b].flatMap (fun x =>
    let b := hkBase x
    let n := s.fld (HKx_DATA_ENTRY b)
    let st := s.fld (HKx_STATUS_STAMP b)
    (s.handSources x n).map (fun i =>
      (i, s.tm.fpm - BitVec.ofNat 48 ((s.tm.fpm.toNat + 2 ^ 24 - st) % 2 ^ 24))))
  { s with var := { s.var with copies := [], latched := [], stale := old ++ held },
           hka := { s.hka with hand := [] }, hkb := { s.hkb with hand := [] } }

end Sys2Proof.Machine
end

