-- ==== Sys2Proof/Machine/Realmath.lean ====
section
/-!
DEFINITION. Square roots and angles in fixed point for the calibration figures of R220, R221 and R226:
numbers are scaled by 2^60, found by integer steps that carry 80 fraction bits.
-/
namespace Sys2Proof.Machine

/-- The integer square root, bit by bit from bit k down. -/
def isqrtFrom (n : Nat) : Nat → Nat → Nat
  | 0, r => if (r + 1) * (r + 1) ≤ n then r + 1 else r
  | k + 1, r =>
    let t := r + 2 ^ (k + 1)
    isqrtFrom n k (if t * t ≤ n then t else r)

/-- The integer square root of a number below 2^512. -/
def isqrt (n : Nat) : Nat := isqrtFrom n 255 0

/-- 1 in the scale of results. -/
def one60 : Int := 2 ^ 60
/-- 1 in the scale of the steps. -/
def one80 : Nat := 2 ^ 80
/-- π in the scale of results. -/
def pi60 : Int := 3622009729038561421

/-- tan of half an angle whose tangent is t, both scaled by 2^80. -/
def halfTan (t : Nat) : Nat := t * one80 / (one80 + isqrt (one80 * one80 + t * t))

/-- The arctangent series for a small t scaled by 2^80: the terms from number k on, p being t^(2k+1). -/
def atanTerms (t : Nat) : Nat → Nat → Nat → Int
  | 0, _, _ => 0
  | fuel + 1, k, p =>
    (if k % 2 = 0 then ((p / (2 * k + 1) : Nat) : Int) else -((p / (2 * k + 1) : Nat) : Int)) +
      atanTerms t fuel (k + 1) (p * t / one80 * t / one80)

/-- The arctangent of t in 0 to 1, both scaled by 2^80. -/
def atan80 (t : Nat) : Int :=
  let u := halfTan (halfTan (halfTan t))
  8 * atanTerms u 24 0 u

/-- The angle of x + jy, scaled by 2^60, above −π and at most π; 0 for the origin. -/
def angle60 (x y : Int) : Int :=
  let a := x.natAbs
  let b := y.natAbs
  if a = 0 ∧ b = 0 then 0
  else
    let base := if b ≤ a then atan80 (b * one80 / a) / 2 ^ 20
      else pi60 / 2 - atan80 (a * one80 / b) / 2 ^ 20
    let q := if x < 0 then pi60 - base else base
    if y < 0 then -q else q

/-- The magnitude of x + jy, scaled by 2^60. -/
def mag60 (x y : Int) : Int := ((isqrt ((x.natAbs * x.natAbs + y.natAbs * y.natAbs) * 2 ^ 120) : Nat) : Int)

/-- An angle brought to the range above −π and at most π. -/
def wrap60 (a : Int) : Int :=
  let r := (a + pi60) % (2 * pi60)
  if r = 0 then pi60 else r - pi60

end Sys2Proof.Machine
end

