-- ==== Sys2Proof/Machine/Calib.lean ====
section
/-!
DEFINITION. Calibration and trimming (chapter 10): the trace check, column steps, rover checks, their
measurements and results, deferral, and application at the closing boundary.
-/
namespace Sys2Proof.Machine

/-! ### Settings and the factory record (R211, R213, R226) -/

/-- A 24-bit field of the factory record, least significant byte first (R213). -/
def factory24 (at_ : Nat) : Nat :=
  (List.range 3).foldl (fun n i => n + (Config.factoryByte (at_ + i)).toNat * 2 ^ (8 * i)) 0
/-- h_fe(g), Q2.22 (Table 10-1). -/
def hFe (g : Nat) : Nat := factory24 (0x80 + 6 * g)
/-- τ_fe(g) in ps (Table 10-1). -/
def tauFe (g : Nat) : Nat := factory24 (0x80 + 6 * g + 3)

/-- AMP of a range code (Table 10-15). -/
def State.calAmp (s : State) (g : Nat) : Nat := s.winN .cal (0xA00 + g) % 65536

/-- Full scale of a range code: quarter nanoamperes in transimpedance mode, nanovolts in voltage mode
(Table 03-3). -/
def fullScale : Nat → Nat
  | 0 => 4000000 | 1 => 1000000 | 2 => 250000 | 3 => 62500 | 4 => 15625
  | 5 => 1000000000 | 6 => 250000000 | _ => 62500000

/-- V_drv of a range code lies between 1 mV and 2.5 V (R211). -/
def State.vdrvOk (s : State) (g : Nat) : Bool :=
  let a := s.calAmp g * fullScale g
  let nom := s.winN .cal 0xA10
  let num := if g < 5 then a * nom else a
  let den := if g < 5 then 4 * 65536 else 65536
  decide (1000000 * den ≤ num) && decide (num ≤ 2500000000 * den)

/-- The loop's window is open (R54). -/
def State.windowOpen (s : State) : Bool :=
  match s.gap with
  | some w => w.isOpen
  | none => false

/-- TRACE_OK as the device uses it and a read shows it (R212). -/
def State.traceOk (s : State) : Bool := !s.bit CAL_CTRL_TRACE_EN || s.bit CAL_TRACE_STATUS_TRACE_OK

/-- CAL_TRACE_STATUS (Table 10-14). -/
def State.traceStatus (s : State) : Word :=
  fldPut CAL_TRACE_STATUS_UNTRACED
    (fldPut CAL_TRACE_STATUS_TRACE_OK (s.reg CAL_TRACE_STATUS) (if s.traceOk then 1 else 0))
    (if s.bit CAL_CTRL_TRACE_EN then 0 else 1)

/-! ### The trace check (R212) -/

/-- Submit the trace check's urgent request (R212). -/
def State.traceStart (s : State) : State :=
  if !s.bit CAL_CTRL_TRACE_EN || s.cal.trace.isSome then s
  else
    let w := s.winN .cal 0xA11
    let x : Hk := if bitOf w 23 then .b else .a
    let e := bitsOf w 19 16
    let b := hkBase x
    let h := s.hk x
    let refuse := h.halted || h.off || s.bit (HKx_CAL_STATUS_BUSY b) || h.urg.isSome
    let s1 := s.setBit CAL_TRACE_STATUS_RUNNING true
    let s2 := { s1 with cal := { s1.cal with trace := some (x, e) } }
    if refuse then (s2.urgentReq x e true).traceEnd 3 none else s2.urgentReq x e true

/-- A trace check that the window's end cuts (R212, R223). -/
def State.traceCut (s : State) : State :=
  if s.cal.trace.isSome then s.traceEnd 3 none else s

/-! ### Deferral (R224) -/

/-- COUNT of a column's deferral word (Table 10-17). -/
def State.deferOf (s : State) (c : Nat) : Nat := bitsOf (s.winN .cal (0x800 + c)) 15 8

/-- Write a column's deferral word. -/
def State.setDefer (s : State) (c count last : Nat) (cald : Bool) : State :=
  s.setWinN .cal (0x800 + c) (min count 255 * 256 + last % 8 * 32 + (if cald then 16 else 0))

/-- CALD of a column (Table 10-17). -/
def State.caldOf (s : State) (c : Nat) : Bool := bitOf (s.winN .cal (0x800 + c)) 4

/-- An outcome other than 1 defers the column (R224). -/
def State.defer (s : State) (c outcome : Nat) : State :=
  let n := s.deferOf c + 1
  let s1 := (s.setDefer c n outcome (s.caldOf c)).inc CAL_DEFER_COUNT_TOTAL
  let lim := s.fld CAL_DEFER_LIMIT_LIMIT
  if lim ≠ 0 ∧ n = lim then
    ({ s1 with cal := { s1.cal with calds := s1.cal.calds ++ [c] } }).raise .cal 1
  else s1

/-- CAL_DEFER_COUNT (Table 10-12). -/
def State.deferCount (s : State) : Word :=
  let m := (List.range 32).foldl (fun m c => max m (s.deferOf c)) 0
  let c := ((List.range 32).find? (fun c => s.deferOf c == m)).getD 0
  fldPut CAL_DEFER_COUNT_MAX (fldPut CAL_DEFER_COUNT_MAX_COL (s.reg CAL_DEFER_COUNT) c) m

/-! ### Steps: switching and δ (R218, R219) -/

/-- The column is switched away from its pin unit (R219). -/
def State.setAway (s : State) (c : Nat) (on : Bool) : State :=
  s.setColCh c { s.colCh c with away := on }

/-- Begin an item on a column (R218, R225, R231). -/
def State.calBegin (s : State) (rover : Bool) (c : Nat) : State :=
  let p := s.colPin c
  let rows := (List.range 64).filter (fun r => s.drvState (s.rowDrv r) == 0)
  let w : CalWork := ⟨rover, c, s.colFe c, s.rangeCode p, s.rangeOf p, s.gainOf p, s.pinDext p, rows,
    s.tm.tick, s.fld CAL_CTRL_K_CAL, s.fld CAL_CTRL_DELTA, s.fld CAL_CTRL_QUIET, [], [], [], 0, []⟩
  let s1 := { s with cal := { s.cal with
    work := some w, offNow := [], carNow := [], checked := s.cal.checked || rover } }
  let s2 := if rover then (s1.setBit CAL_STATUS_CHECK_BUSY true).setBit CAL_STATUS_CHECK_PENDING false
    else (s1.setBit CAL_STATUS_STEP_BUSY true).setFld CAL_STATUS_COLUMN c
  if rover then s2.setAway c true else s2

/-- A column step begins where nothing else runs (R217, R218). -/
def State.stepBegin (s : State) (c : Nat) : State :=
  match s.cal.work with
  | some _ => s
  | none => if s.colEn c then s.calBegin false c else s

/-- The sheet number j of the running item in this tick. -/
def State.calSheetNo (s : State) (w : CalWork) : Nat := (s.tm.tick - w.start) / 64

/-- The amplitude offset of a step's sheet j, in units of δ (Table 10-2). -/
def deltaSign (j : Nat) : Int :=
  if j = 8 ∨ j = 9 ∨ j = 12 ∨ j = 13 then 1
  else if j = 10 ∨ j = 11 ∨ j = 14 ∨ j = 15 then -1 else 0

/-- Set A_I of the measured rows to the held values plus a number of δ (R218). -/
def State.injectDelta (s : State) (w : CalWork) (k : Int) : State :=
  forEach w.held (fun t e => t.setAmp (64 * w.col + e.1) 0 (e.2 + k * (2 : Int) ^ (8 + w.delta))) s

/-- The item restores input, driver and δ (R223); the column is away until a tick. -/
def State.calRestore (s : State) (w : CalWork) (until_ : Nat) : State :=
  let s1 := s.injectDelta w 0
  let x := s1.colCh w.col
  let s2 := s1.setColCh w.col { x with badBefore := max x.badBefore (s.tm.tick + 17 + w.dext) }
  let s3 := { s2 with cal := { s2.cal with
    work := none, offNow := [], carNow := [], away := s2.cal.away ++ [(w.col, until_)] } }
  ((s3.setBit CAL_STATUS_STEP_BUSY false).setBit CAL_STATUS_CHECK_BUSY false).note .brush 0x15

/-- The first tick at or after t ticks ahead at which a sheet begins on the field die. -/
def State.sheetTick (s : State) (t : Nat) : Nat :=
  let p := s.tm.fpm.toNat + t
  s.tm.tick + t + (64 - p % 64) % 64

/-- Columns whose time away has come to an end are back on their pin units. -/
def State.releaseAway (s : State) : State :=
  let out := s.cal.away.filter (fun e => decide (e.2 ≤ s.tm.tick))
  let s1 := forEach out (fun t e => t.setAway e.1 false) s
  { s1 with cal := { s1.cal with away := s1.cal.away.filter (fun e => decide (s.tm.tick < e.2)) } }

/-- Cut the running item; the column stays away until a tick (R223, R224). -/
def State.calCutAt (s : State) (until_ : Nat) : State :=
  match s.cal.work with
  | none => s
  | some w =>
    let s1 := s.calRestore w until_
    if w.rover then { s1 with cal := { s1.cal with checked := false } }
    else (s1.setFld CAL_STATUS_OUTCOME 5).defer w.col 5

/-- Cut the running item for a cause other than the window's close (R223). -/
def State.calCut (s : State) : State :=
  match s.cal.work with
  | none => s
  | some w => (s.calCutAt (s.sheetTick (17 + w.dext))).releaseAway

/-- Length of an item in ticks: 17 sheets or 14 (R218, R225). -/
def workTicks (w : CalWork) : Nat := if w.rover then 14 * 64 else 17 * 64

/-- The device learns in this tick that the window closes at h: an item that does not end by the closing
boundary is cut (R223). -/
def State.calClose (s : State) (h : PM) : State :=
  match s.cal.work with
  | none => s
  | some w =>
    let b := sheetOf h
    let now := s.tm.fpm
    let ahead := if pmGe b now then pmDist now b else 0
    if pmGe b now && decide (w.start + workTicks w ≤ s.tm.tick + ahead) then s
    else if b = h then s.calCutAt (s.tm.tick + ahead)
    else
      let next := if pmGe b now then s.tm.tick + ahead + 64 else s.sheetTick 1
      (((s.calCutAt next).setBit CAL_STATUS_MISALIGNED true).raise .cal 2)

/-- The settings that a step may not see change (R223). -/
def State.calChanged (s : State) (w : CalWork) : Bool :=
  let p := s.colPin w.col
  s.colFe w.col != w.f || s.rangeCode p != w.g || s.rangeOf p != w.n || !s.colEn w.col

/-- The first tick of a sheet of the running item: its switching (Table 10-2, R225). -/
def State.calSheet (s : State) : State :=
  match s.cal.work with
  | none => s
  | some w =>
    let j := s.calSheetNo w
    if s.calChanged w then s.calCut
    else if w.rover then
      if j = 7 then
        let x := (s.setAway w.col false).colCh w.col
        (s.setAway w.col false).setColCh w.col { x with badBefore := max x.badBefore s.tm.tick }
      else s
    else
      let steady := w.rows.filter (fun r => s.drvState (s.rowDrv r) == 0)
      let w1 := { w with rows := steady,
                         held := if j = 1 then steady.map (fun r => (r, s.amp (64 * w.col + r) 0))
                                 else w.held }
      let s1 := { s with cal := { s.cal with work := some w1 } }
      let s2 := if j = 1 then s1.setAway w.col true else s1
      if j = 8 ∨ j = 10 ∨ j = 12 ∨ j = 14 ∨ j = 16 then s2.injectDelta w1 (deltaSign j) else s2

/-! ### Sums (R220) -/

/-- The front end whose samples sheet j of an item uses, if any, and the number of that sheet in Table
10-2. -/
def State.calUses (s : State) (w : CalWork) (j : Nat) : List (Nat × Nat) :=
  if w.rover then
    if j < 7 then [(w.f, j + 1)]
    else [(groupSpare 32 w.f, j - 7 + 1)]
  else if s.colFe w.col = w.f then [(w.f, j)] else []

/-- One front end's stroke within an item: the sums of the sheet, and at its end their record (R220). -/
def State.calSample (s : State) (f : Nat) (y : List Int) : State :=
  match s.cal.work with
  | none => s
  | some w =>
    let j := s.calSheetNo w
    if !(s.calUses w j).any (fun e => e.1 == f) then s
    else
      let ph := s.tm.fpm.toNat % 64
      let k0 := ph / 16 * 64
      let c0 := if ph < 16 then (0, 0) else assocGet s.cal.carNow f (0, 0)
      let o0 := if ph < 16 then (0 : Int) else assocGet s.cal.offNow f 0
      let cs := strokeSums w.kCal 0 k0 y c0
      let os := o0 + y.foldl (fun a v => a + v) 0
      let s1 := { s with cal := { s.cal with carNow := assocSet s.cal.carNow f cs,
                                             offNow := assocSet s.cal.offNow f os } }
      if ph ≠ 63 then s1
      else
        let rows := w.rows.map (fun r => (r, windowSums (assocGet s.nul.sums (64 * f + r) [])))
        let res := if w.rover || j != 0 then w.resid
          else rows.foldl (fun m e =>
            let rc := s.nulSigned (rotAddr f w.g e.1)
            let rs := s.nulSigned (rotAddr f w.g e.1 + 1)
            max m (max (residI rc rs e.2.1 e.2.2).natAbs (residQ rc rs e.2.1 e.2.2).natAbs)) w.resid
        let w1 := { w with offs := assocSet w.offs j os, carr := assocSet w.carr j cs,
                           rsum := assocSet w.rsum j rows, resid := res }
        { s1 with cal := { s1.cal with work := some w1 } }

/-! ### Measurements (R220) -/

/-- e_o from two sheets' sums (Table 10-3). -/
def eOff (o1 o2 : Int) : Int := rne (o1 + o2) 9

/-- abs(H)/h_fe(g), scaled by 2^60, of a sum divided by `den` (Table 10-3). -/
def gainRatio (amp g : Nat) (v : Int × Int) (den : Int) : Int :=
  mag60 v.1 v.2 * (65536 * 2 ^ 22) / (128 * 32767 * 8192 * (amp : Int) * (hFe g : Int) * den)

/-- 2π·f_cal·t for a time in ps, at the nominal tick rate, scaled by 2^60. -/
def calPhase (k t : Nat) : Int := 2 * pi60 * ((k * 781250 * t : Nat) : Int) / 10 ^ 12

/-- What a unit's offset, gain and phase sheets give: e_o, e_g, e_p (scaled by 2^60), and whether the
repeats agree. -/
structure CalFigures where
  eo    : Int
  eg    : Int
  ep    : Int
  agree : Bool
deriving DecidableEq, Repr

/-- The figures of a front end from sheets 2, 3, 5 and 6 of Table 10-2, `shift` giving where they lie. -/
def State.calFigures (s : State) (w : CalWork) (at_ : Nat → Nat) : CalFigures :=
  let amp := s.calAmp w.g
  let o := fun j => assocGet w.offs (at_ j) 0
  let h := fun j => assocGet w.carr (at_ j) (0, 0)
  let sum := ((h 5).1 + (h 6).1, (h 5).2 + (h 6).2)
  let eg := gainRatio amp w.g sum 2 - one60
  let ep := wrap60 (angle60 sum.1 sum.2 + calPhase w.kCal (tauFe w.g))
  let okO := decide ((o 2 - o 3).natAbs ≤ 16 * s.fld CAL_REPEAT_TOL_OFS_TOL)
  let dg := (gainRatio amp w.g (h 5) 1 - gainRatio amp w.g (h 6) 1).natAbs
  let okG := decide (dg * 10 ^ 6 ≤ s.fld CAL_REPEAT_TOL_GAIN_TOL * 2 ^ 60)
  let dp := (wrap60 (angle60 (h 5).1 (h 5).2 - angle60 (h 6).1 (h 6).2)).natAbs
  let okP := decide (dp * 10 ^ 5 ≤ s.fld CAL_REPEAT_TOL_PHASE_TOL * 2 ^ 60)
  ⟨eOff (o 2) (o 3), eg, ep, okO && okG && okP⟩

/-- The figures lie within the limits of R220. -/
def State.calWithin (s : State) (k : CalFigures) : Bool :=
  decide (k.eo.natAbs ≤ s.fld CAL_LIMIT_OFFSET_LIMIT) &&
    decide (k.eg.natAbs * 10 ^ 6 ≤ s.fld CAL_LIMIT_GAIN_LIMIT * 2 ^ 60) &&
    decide (k.ep.natAbs * 10 ^ 5 ≤ s.fld CAL_LIMIT_PHASE_LIMIT * 2 ^ 60)

/-- A row's loop path: h_1 and h_2 times 2δ, and their mean times 4δ (Table 10-3). -/
def loopPath (w : CalWork) (r : Nat) : (Int × Int) × (Int × Int) × (Int × Int) :=
  let v := fun j => ((assocGet w.rsum j []).find? (fun e => e.1 == r)).elim ((0 : Int), (0 : Int))
    (fun e => e.2)
  let h1 := ((v 9).1 - (v 11).1, (v 9).2 - (v 11).2)
  let h2 := ((v 13).1 - (v 15).1, (v 13).2 - (v 15).2)
  (h1, h2, (h1.1 + h2.1, h1.2 + h2.2))

/-- A row's repeats agree (Table 10-3). -/
def State.loopAgrees (s : State) (w : CalWork) (r : Nat) : Bool :=
  let h := loopPath w r
  let m1 := mag60 h.1.1 h.1.2
  let m2 := mag60 h.2.1.1 h.2.1.2
  decide ((m1 - m2).natAbs * 10 ^ 6 ≤ s.fld CAL_REPEAT_TOL_GAIN_TOL * m1.natAbs) &&
    decide ((wrap60 (angle60 h.1.1 h.1.2 - angle60 h.2.1.1 h.2.1.2)).natAbs * 10 ^ 5 ≤
      s.fld CAL_REPEAT_TOL_PHASE_TOL * 2 ^ 60)

/-- m̄ times 4δ, scaled by 2^60 (R221). -/
def loopMean (w : CalWork) : Int :=
  let n : Int := (w.rows.length : Int)
  if n = 0 then 0
  else (w.rows.foldl (fun a r => let h := (loopPath w r).2.2; a + mag60 h.1 h.2) 0) / n

/-- The exponent and mantissa of ρ = 2^14/m̄, if it has one (R221): E from 31 down, M from 32768 to
65535. -/
def rhoWord (w : CalWork) : Option W24 :=
  let m := loopMean w
  if m ≤ 0 then none
  else
    let num : Int := 2 ^ 14 * 4 * 2 ^ (8 + w.delta) * one60
    ((List.range 32).find? (fun e =>
      let q := rneDiv (num * 2 ^ e) m
      decide (32768 ≤ q) && decide (q ≤ 65535))).map
      (fun e => BitVec.ofNat 24 (e * 65536 + (rneDiv (num * 2 ^ e) m).toNat))

/-- RC and RS of a measured row, unless their magnitude is 2 or more (R220, R221). -/
def rotWords (w : CalWork) (r : Nat) : Option (Int × Int) :=
  let h := (loopPath w r).2.2
  let m := loopMean w
  let sq := h.1 * h.1 + h.2 * h.2
  if sq = 0 then none
  else if 2 * mag60 h.1 h.2 ≤ m then none
  else
    let k := -m * 2 ^ 22
    some (rneDiv (k * h.1) (sq * one60), rneDiv (-(k * h.2)) (sq * one60))

/-- The new ρ and rotations lie within the limits of the old ones (Table 10-3). -/
def State.loopWithin (s : State) (w : CalWork) (rho : W24) (rots : List (Nat × Int × Int)) : Bool :=
  let lg := s.fld CAL_LIMIT_GAIN_LIMIT
  let lp := s.fld CAL_LIMIT_PHASE_LIMIT
  let val := fun (x : Nat) => x % 65536 * 2 ^ (31 - bitsOf x 20 16)
  let old := val (s.winN .nul (rhoAddr w.f w.g w.n))
  let new := val rho.toNat
  let okRho := decide (((new : Int) - old).natAbs * 10 ^ 6 ≤ lg * old)
  okRho && rots.all (fun e =>
    let a := rotAddr w.f w.g e.1
    let oI := s.nulSigned a
    let oQ := s.nulSigned (a + 1)
    let mo := mag60 oI oQ
    let mn := mag60 e.2.1 e.2.2
    decide ((mn - mo).natAbs * 10 ^ 6 ≤ lg * mo.natAbs) &&
      decide ((wrap60 (angle60 e.2.1 e.2.2 - angle60 oI oQ)).natAbs * 10 ^ 5 ≤ lp * 2 ^ 60))

/-! ### Results (R221, R226) -/

/-- The trim fields OFFSET, GAIN and PHASE of a trim set (Table 05-2). -/
def State.trimFields (s : State) (f g : Nat) : Int × Int × Int :=
  let a := 0x200 + 16 * f + 2 * g
  let w0 := s.winN .col a
  (sgn 10 w0, sgn 10 (w0 / 2 ^ 12), (s.winN .col (a + 1) % 256 : Nat))

/-- The new trims, and ΔPHASE (R221). -/
def State.newTrims (s : State) (w : CalWork) (k : CalFigures) : Int × Int × Int × Int :=
  let o := s.trimFields w.f w.g
  let dG := rneDiv (k.eg * 51200) (3 * one60)
  let dP := rneDiv k.ep (calPhase w.kCal 10)
  (o.1 - k.eo, o.2.1 - dG, o.2.2 - dP, dP)

/-- Trims within their field ranges (Table 05-2). -/
def trimsFit (t : Int × Int × Int × Int) : Bool :=
  decide (-512 ≤ t.1) && decide (t.1 ≤ 511) && decide (-512 ≤ t.2.1) && decide (t.2.1 ≤ 511) &&
    decide (0 ≤ t.2.2.1) && decide (t.2.2.1 ≤ 255)

/-- GAIN_ERR in units of 0.01 ppm (R226); a free value in voltage mode. -/
def State.gainErr (s : State) (w : CalWork) (k : CalFigures) : W24 :=
  if 5 ≤ w.g then Config.gainErrVoltage s.free
  else
    let nulFs : Nat := 20000 * 10 ^ w.n
    let hNum : Int := 128 * 32767 * 8192 * (hFe w.g : Int) * ((nulFs * 4 : Nat) : Int) * (one60 + k.eg)
    let hDen : Int := 2 ^ 22 * ((fullScale w.g : Nat) : Int) * 2 ^ 23
    let m := loopMean w
    let d := 4 * 2 ^ (8 + w.delta)
    BitVec.ofNat 24 (unsgn 24 (clampInt (-0x7FFFFF) 0x7FFFFF
      (rneDiv (m * hDen * 10 ^ 8 - hNum * d * 10 ^ 8) (hNum * d))))

/-- PHASE_ERR in units of 10 µrad (R226). -/
def phaseErr (w : CalWork) (k : CalFigures) (dP : Int) : Nat :=
  unsgn 12 (clampInt (-2047) 2047 (rneDiv ((k.ep - dP * calPhase w.kCal 10) * 10 ^ 5) one60))

/-- e_ρ and e_φ: the largest magnitude ratio and angle between the repeats (R226), scaled by 2^60. -/
def loopSpread (w : CalWork) : Int × Int :=
  w.rows.foldl (fun (a : Int × Int) r =>
    let h := loopPath w r
    let m1 := mag60 h.1.1 h.1.2
    let m2 := mag60 h.2.1.1 h.2.1.2
    let er := if m1 = 0 then 0 else (((m2 - m1) * one60 / m1).natAbs : Int)
    let ea := ((wrap60 (angle60 h.1.1 h.1.2 - angle60 h.2.1.1 h.2.1.2)).natAbs : Int)
    (max a.1 er, max a.2 ea)) (0, 0)

/-- MARGIN in units of 0.1° (R226). -/
def marginOf (w : CalWork) : Nat :=
  let sp := loopSpread w
  let loss := 573 * ((18 + w.dext + 40 : Nat) : Int) * (one60 + sp.1) / (16 * 2 ^ w.gain)
  let ang := sp.2 * 1800 / pi60
  (clampInt 0 4095 (rneDiv (900 * one60 - loss - ang * one60) one60)).toNat

/-- A step's outcome and, with outcome 1, its result set (R220, R221). -/
def State.calJudge (s : State) (w : CalWork) : Nat × Option ResultSet :=
  let k := s.calFigures w (fun j => j)
  let t := s.newTrims w k
  let rho := rhoWord w
  let rots := w.rows.map (fun r => (r, rotWords w r))
  let good := rots.filterMap (fun e => e.2.map (fun x => (e.1, x)))
  let loop := !w.rows.isEmpty
  let measured := bitOf (s.winN .cal (32 * w.f + 4 * w.g)) 22
  let loopOk := !loop || (good.length == w.rows.length && (match rho with
    | none => false
    | some x => !measured || s.loopWithin w x good))
  if w.quiet < w.resid then (2, none)
  else if !k.agree || !w.rows.all (fun r => s.loopAgrees w r) then (3, none)
  else if !s.calWithin k || !trimsFit t || !loopOk || !s.vdrvOk w.g then (4, none)
  else
    (1, some ⟨w.col, w.f, w.g, w.n,
      BitVec.ofNat 24 (unsgn 10 t.2.1 * 2 ^ 12 + unsgn 10 t.1), BitVec.ofNat 24 (unsgn 8 t.2.2.1),
      if loop then rho else none,
      good.map (fun e => (e.1, BitVec.ofNat 24 (unsgn 24 e.2.1), BitVec.ofNat 24 (unsgn 24 e.2.2))),
      s.gainErr w k, phaseErr w k t.2.2.2, marginOf w⟩)

/-- A column leaves the round when its step completes (R217). -/
def State.leaveRound (s : State) (c : Nat) : State :=
  { s with cal := { s.cal with round := s.cal.round.filter (fun x => x != c) } }

/-- A column step ends (R220, R224). -/
def State.stepDone (s : State) (w : CalWork) : State :=
  let o := s.calJudge w
  let s1 := (s.calRestore w s.tm.tick).releaseAway
  let s2 := (s1.setFld CAL_STATUS_OUTCOME o.1)
  match o.2 with
  | some r =>
    let s3 := (s2.inc CAL_STATUS_STEPS).setBit CAL_STATUS_PENDING true
    let s4 := { s3 with cal := { s3.cal with pend := s3.cal.pend ++ [r] }, free := s3.free + 1 }
    (s4.setDefer w.col (s4.deferOf w.col) 1 (s4.caldOf w.col)).leaveRound w.col
  | none => s2.defer w.col o.1

/-- A rover check ends with its verdict (R225). -/
def State.checkVerdict (s : State) (w : CalWork) : State :=
  let a := s.calFigures w (fun j => j - 1)
  let b := s.calFigures w (fun j => j + 6)
  let badA := !s.calWithin a
  let badB := !s.calWithin b
  let v := if !a.agree || !b.agree then 5
    else if badA && badB then 4 else if badA then 1 else if badB then 2 else 3
  let s1 := ((s.calRestore w s.tm.tick).releaseAway).setFld CAL_STATUS_VERDICT v
  let spare := groupSpare 32 w.f
  match v with
  | 1 => s1.raiseUnit .col 2 w.f
  | 2 =>
    let s2 := { s1 with flt := { s1.flt with failed := s1.flt.failed ++ [spare] } }
    let rv := s2.rover (spare - 32)
    ((s2.setRover (spare - 32) { rv with dwelling := false, d := [], n := [] }).setFld
      (COL_ROVER_STATUS_STATE (spare - 32)) 0).raiseUnit .col 3 spare
  | 3 => s1.raise .cal 3
  | 4 => s1.raise .cal 4
  | _ => s1.raise .cal 3

/-- The running item ends (R220, R225). -/
def State.calDone (s : State) : State :=
  match s.cal.work with
  | none => s
  | some w => if w.rover then s.checkVerdict w else s.stepDone w

/-- The item that runs has had all its sheets. -/
def State.calDue (s : State) : Bool :=
  match s.cal.work with
  | none => false
  | some w => decide (w.start + workTicks w ≤ s.tm.tick)

/-! ### Which item is next (R216, R217, R225) -/

/-- A rover check waits for a window (R225). -/
def State.checkWaits (s : State) : Bool :=
  s.bit COL_ROVER_MISMATCH_VALID && s.bit CAL_CTRL_VERDICT_EN && !s.cal.checked

/-- Begin the rover check of the recorded column (R225). -/
def State.checkBegin (s : State) : State :=
  match s.cal.work with
  | some _ => s
  | none =>
    if s.bit COL_ROVER_MISMATCH_VALID then s.calBegin true (s.fld COL_ROVER_MISMATCH_COLUMN) else s

/-- The next column to step, and the round it belongs to (R217). -/
def State.nextStep (s : State) : Option (Nat × List Nat) :=
  let on := fun (l : List Nat) => l.filter (fun c => s.colEn c)
  let cur := on s.cal.round
  let round := if cur.isEmpty then on (List.range 32) else cur
  (round.find? (fun c => !s.cal.tried.contains c)).map (fun c => (c, round))

/-- At a sheet boundary with nothing running, the next item begins (R216, R217). -/
def State.calDispatch (s : State) : State :=
  let ready := s.windowOpen && (s.glb == 6 || s.glb == 7) && s.fld PWR_STATE_STATE == 0 &&
    s.cal.work.isNone && s.cal.trace.isNone && s.bit (ENG_CTRL_RUN (engBase .brush))
  if !ready then s
  else if s.cal.fire then
    ({ s with cal := { s.cal with fire := false } }).traceStart
  else if !s.bit CAL_CTRL_EN then s
  else if s.checkWaits then s.checkBegin
  else match s.nextStep with
    | none => s
    | some (c, round) =>
      ({ s with cal := { s.cal with round := round, tried := s.cal.tried ++ [c] } }).stepBegin c

/-- A quiet window opens: the trace check, and every column may be tried again (R212, R217). -/
def State.calOpen (s : State) : State :=
  ({ s with cal := { s.cal with tried := [], fire := false } }).traceStart

/-- CAL_FIRE asks for one extra trace check while a window is open (R285). -/
def State.calFire (s : State) : State :=
  if s.windowOpen then { s with cal := { s.cal with fire := true } } else s

/-! ### Application (R222, R224) -/

/-- Write a table word of NUL that is good again (R143). -/
def State.goodWord (s : State) (a : Nat) (v : W24) : State :=
  let s1 := s.setWin .nul a v
  { s1 with nul := { s1.nul with wordBad := s1.nul.wordBad.filter (fun x => x != a) } }

/-- Apply one result set at the closing boundary b (R222, R226). -/
def State.applySet (s : State) (b : PM) (r : ResultSet) : State :=
  let t := 0x200 + 16 * r.f + 2 * r.g
  let s1 := (s.setWin .col t r.trim0).setWin .col (t + 1) r.trim1
  let s2 := match r.rho with
    | some v => s1.goodWord (rhoAddr r.f r.g r.n) v
    | none => s1
  let s3 := forEach r.rots (fun u e =>
    (u.goodWord (rotAddr r.f r.g e.1) e.2.1).goodWord (rotAddr r.f r.g e.1 + 1) e.2.2) s2
  let q := 32 * r.f + 4 * r.g
  let old := s3.winN .cal q
  let loop := r.rho.isSome || bitOf old 22
  let s4 := (((s3.setWinN .cal q (2 ^ 23 + (if loop then 2 ^ 22 else 0))).setWin .cal (q + 1)
    r.gerr).setWinN .cal (q + 2) (r.perr * 4096 + r.margin)).setWinN .cal (q + 3) (bitsOf b.toNat 29 6)
  s4.setDefer r.col 0 1 false

/-- The first sheet after a window: pending sets are applied or discarded, and columns at the limit take
CALD (R222, R224). -/
def State.calApply (s : State) (b : PM) : State :=
  let sets := s.cal.pend
  let s0 := { s with cal := { s.cal with pend := [] } }
  let s1 := s0.setBit CAL_STATUS_PENDING false
  let s2 := if sets.isEmpty then s1
    else if s.traceOk then
      let t := forEach sets (fun t r => t.applySet b r) s1
      let t1 := (t.setReg CAL_LAST_POSTMARK_LO (BitVec.ofNat 32 b.toNat)).setReg CAL_LAST_POSTMARK_HI
        (BitVec.ofNat 32 (b.toNat / 2 ^ 32))
      t1.inc CAL_STATUS_APPLIED
    else forEach sets (fun t r => (t.setFld CAL_STATUS_OUTCOME 6).defer r.col 6) s1
  let limit := fun (t : State) (c : Nat) =>
    let lim := t.fld CAL_DEFER_LIMIT_LIMIT
    if lim ≠ 0 ∧ lim ≤ t.deferOf c then
      t.setDefer c (t.deferOf c) (bitsOf (t.winN .cal (0x800 + c)) 7 5) true
    else t
  let s3 := forEach s2.cal.calds limit s2
  { s3 with cal := { s3.cal with calds := [] } }

/-- Loss of lock discards every pending result set (R222). -/
def State.calDiscard (s : State) : State :=
  ({ s with cal := { s.cal with pend := [], calds := [] } }).setBit CAL_STATUS_PENDING false

end Sys2Proof.Machine
end

