-- ==== Sys2Proof/Machine/Regs.lean ====
section
/-!
DEFINITION. Reading registers and window words (R12, R13, R371, R372): what each index shows, with the
fields that follow from other state, the side effects of a read, fault policies (Table 16-10), fault
injection (R354) and table errors (R29, R340).
-/
namespace Sys2Proof.Machine

/-! ### Fault injection and table errors (R354, R29, R340) -/

/-- An armed injection names this checker of a block (R354). -/
def State.injected (s : State) (b : Blk) (c : Nat) : Bool :=
  s.bit (FLT_INJECT_ARMED (blkBase b)) && s.fld (FLT_INJECT_CHECKER (blkBase b)) == c

/-- BITS = 2 asks for an uncorrectable error (R354, Table 16-11). -/
def State.injectDouble (s : State) (b : Blk) : Bool := s.fld (FLT_INJECT_BITS (blkBase b)) == 2

/-- An item has been checked under an injection: MODE 0 ends it (R354). -/
def State.injectDone (s : State) (b : Blk) : State :=
  if s.bit (FLT_INJECT_MODE (blkBase b)) then s else s.setBit (FLT_INJECT_ARMED (blkBase b)) false

/-- The source of a corrected table error, where the block has one (Table 16-4). -/
def correctedSrc : Blk → Option Nat
  | .lnk => some 4 | .cou => some 4 | .bru => some 4 | .pal => some 3 | .col => some 5
  | .nul => some 5 | .var => some 2 | .evt => some 0 | .cal => some 5 | _ => none

/-- An uncorrectable error in a table word of a block, with what its chapter makes of it (R29, R143,
R162, R175, R236). -/
def State.wordLost (s : State) (b : Blk) (a : Nat) : State :=
  let r : RaiseInfo := { plainRaise b with addr := a % 65536 }
  match b with
  | .nul => s.nulWordError a
  | .var => s.varWordError a
  | .evt => s.evtWordError a
  | .lnk => s.raiseWith .lnk 5 r
  | .cou => s.raiseWith .cou 5 r
  | .bru => s.raiseWith .bru 5 r
  | .pal => s.raiseWith .pal 4 r
  | .col => s.raiseWith .col 6 r
  | .cal => s.raiseWith .cal 6 r
  | _ => s

/-- A single-bit error in a table word, corrected as it is read (R29, R340). -/
def State.wordMended (s : State) (b : Blk) (a : Nat) : State :=
  match correctedSrc b with
  | some i => s.raiseWith b i { plainRaise b with addr := a % 65536 }
  | none => s

/-- A table error of one bit or of two. -/
def State.tableError (s : State) (b : Blk) (a : Nat) (single : Bool) : State :=
  if single then s.wordMended b a else s.wordLost b a

/-- A window address that a SEC-DED table holds. -/
def checkedWord (b : Blk) (a : Nat) : Bool :=
  match b with
  | .lnk => a < 0x200
  | .cou | .bru => a < 0x4800
  | .pal => a < 0x88 || (0x100 ≤ a && a < 0x188) || (0x200 ≤ a && a < 0x240)
  | .col => a < 0x22 || (0x100 ≤ a && a < 0x120) || (0x200 ≤ a && a < 0x420)
  | .nul => a < 0x2000 || (0x3000 ≤ a && a < 0x3440) || (0x10000 ≤ a && a < 0x18800)
  | .var => a < 0x8020 || (0x8100 ≤ a && a < 0x8140)
  | .evt => a < 0x800 || (0x1000 ≤ a && a < 0x1008) || (0x1100 ≤ a && a < 0x1108)
      || (0x2000 ≤ a && a < 0x2800) || (0x100000 ≤ a && a < 0x130000) || 0x400000 ≤ a
  | .cal => a < 0x440 || (0x800 ≤ a && a < 0x820) || (0x900 ≤ a && a < 0x910)
      || (0xA00 ≤ a && a < 0xA08) || (0xA10 ≤ a && a < 0xA13)
  | _ => false

/-- A table word is read while checker 0 of its block is armed (R354). -/
def State.tableRead (s : State) (b : Blk) (a : Nat) : State :=
  if checkedWord b a && s.injected b 0 then
    ((s.injectDone b).tableError b a (!s.injectDouble b))
  else s

/-! ### Window words as a read shows them -/

/-- The bits of the pending set of 24 routines from n (Table 11-19). -/
def pendBits (p : Assoc W24) (n : Nat) : Nat :=
  (List.range 24).foldl (fun m i => if assocHas p (n + i) then m + 2 ^ i else m) 0

/-- An engine's window word (Table 11-19). -/
def State.engWord (s : State) (e : Eng) (a : Nat) : Nat :=
  if a < 0x4800 then s.winN (engBlk e) a
  else if a < 0x4803 then pendBits (s.eng e).pend (24 * (a - 0x4800))
  else if 0x4810 ≤ a ∧ a < 0x4850 then (assocGet (s.eng e).pend (a - 0x4810) 0).toNat
  else if 0x4A00 ≤ a ∧ a < 0x4A14 then s.winN (engBlk e) a
  else 0

/-- A flag-table word with the convergence count (Table 06-15). -/
def State.flagWord (s : State) (ch : Nat) : Nat :=
  s.winN .nul (0x2000 + ch) % 2 ^ 16 + s.cntOf ch * 2 ^ 16

/-- A word of the EVT window (Table 08-11). -/
def State.evtWord (s : State) (a : Nat) : Nat :=
  if a < 0x100000 then
    (if a < 0x800 ∨ (0x1000 ≤ a ∧ a < 0x1008) ∨ (0x1100 ≤ a ∧ a < 0x1108)
        ∨ (0x2000 ≤ a ∧ a < 0x2800) then s.winN .evt a else 0)
  else if a < 0x130000 then
    let q := (a - 0x100000) / 3 / 32
    let c := (a - 0x100000) / 3 % 32
    let x := s.summary c (s.slotSheet c q)
    let w := (a - 0x100000) % 3
    if w = 0 then x.1 * 2 ^ 16 + x.2 / 2 ^ 48
    else if w = 1 then bitsOf x.2 47 24
    else x.2 % 2 ^ 24
  else if 0x400000 ≤ a ∧ a < 0x800000 then
    let ch := (a - 0x400000) / 2048
    s.ringRead ch (s.slotSheet (ch / 64) (a % 2048))
  else 0

/-- What a read of a window address shows; reserved addresses read 0 (R372). -/
def State.winShown (s : State) (b : Blk) (a : Nat) : Nat :=
  match b with
  | .glb => if a < 0x40 then s.winN .glb a else 0
  | .bar => if a < 0xB then s.winN .bar a else 0
  | .lnk => if a < 0x200 ∨ (0x1000 ≤ a ∧ a < 0x10C0) then s.winN .lnk a else 0
  | .cou => s.engWord .courier a
  | .bru => s.engWord .brush a
  | .pal =>
    if a < 0x88 ∨ (0x100 ≤ a ∧ a < 0x188) ∨ (0x200 ≤ a ∧ a < 0x240) then s.winN .pal a
    else if 0x300 ≤ a ∧ a < 0x344 then s.drvWord (a - 0x300) else 0
  | .col =>
    if a < 0x22 ∨ (0x100 ≤ a ∧ a < 0x120) ∨ (0x200 ≤ a ∧ a < 0x420) then s.winN .col a
    else if 0x500 ≤ a ∧ a < 0x522 then s.feWord (a - 0x500) else 0
  | .nul =>
    if a < 0x1000 then (s.ampShown a).toNat
    else if a < 0x2000 then s.winN .nul a
    else if a < 0x2800 then s.flagWord (a - 0x2000)
    else if 0x3000 ≤ a ∧ a < 0x3440 then s.winN .nul a
    else if 0x10000 ≤ a ∧ a < 0x18800 then s.winN .nul a else 0
  | .var =>
    if a < 0x8020 then s.winN .var a
    else if 0x8100 ≤ a ∧ a < 0x8140 then
      (if a % 2 = 0 then (s.tempCode ((a - 0x8100) / 2)).toNat else s.srcWord ((a - 0x8100) / 2))
    else 0
  | .evt => s.evtWord a
  | .cal =>
    if a < 0x440 ∨ (0x800 ≤ a ∧ a < 0x820) ∨ (0x900 ≤ a ∧ a < 0x910) ∨ (0xA00 ≤ a ∧ a < 0xA08)
        ∨ (0xA10 ≤ a ∧ a < 0xA13) then s.winN .cal a else 0
  | _ => 0

/-! ### Fault groups as a read shows them (Tables 16-7, 16-10, 16-12) -/

/-- FLT_POLICY of the selected source (Table 16-10). -/
def State.policyWord (s : State) (b : Blk) : Word :=
  let i := s.fld (FLT_POLICY_SOURCE (blkBase b))
  let x := s.src b i
  BitVec.ofNat 32
    (x.level % 4 * 2 ^ 28 + i * 2 ^ 24 + (if x.pol.second then 2 ^ 23 else 0)
      + x.pol.action.toNat * 2 ^ 20 + x.pol.qexp.toNat * 2 ^ 15 + x.pol.wexp.toNat % 16 * 2 ^ 11
      + x.pol.n.toNat * 2 ^ 7 + x.lsev % 4 * 2 ^ 5 + x.pol.sev.toNat)

/-- A register of a fault group. -/
def State.fltWord (s : State) (b : Blk) (off : Nat) : Word :=
  let base := blkBase b
  let w := s.reg (base + off)
  match off with
  | 0xF0 =>
    let any := s.fld (FLT_LATCH_LATCH base) != 0
    fldPut (FLT_STATUS_MAX base) (fldPut (FLT_STATUS_ANY base) w (if any then 1 else 0)) (s.maxSev b)
  | 0xF7 => s.policyWord b
  | 0xFA => fldPut (IRQ_ENABLE_LINE base) w (if s.line b then 1 else 0)
  | _ => w

/-! ### Power: wake times (R359) -/

/-- A number rounded up to a multiple of 64. -/
def ceil64 (n : Nat) : Nat := (n + 63) / 64 * 64

/-- N of R359: the slew steps from the rest level to the target that some driver needs at most. -/
def State.restSteps (s : State) : Nat :=
  let step := max s.slewStep 1
  let f := s.fld EXC_REST_CODE_FRACTION
  (List.range 64).foldl (fun m r =>
    let e := s.palEntry s.activeBank (s.rowPin r)
    if e.en then max m ((e.ampl - e.ampl * f / 128 + step - 1) / step) else m) 0

/-- W_R of Table 17-2. -/
def State.wRest (s : State) : Nat := ceil64 (16 * (s.restSteps * s.slewInterval - 1) + 50000) + 64

/-- W of Table 17-2. -/
def State.wakeTime (s : State) : Nat → Nat
  | 0 => 0
  | 1 => 128
  | 2 => 1024
  | 3 => s.wRest
  | _ => ceil64 (s.fld HKS_REFBUF_WAIT * 1000 + 250000) + s.wRest

/-- PWR_WAKE_PREDICT.WAKE (Table 17-7). -/
def State.wakePredict (s : State) : Nat :=
  s.wakeTime (if s.bit PWR_STATE_SCHEDULED then s.fld PWR_STATE_TARGET else s.fld PWR_STATE_STATE)

/-- A PEER entry of a table on an UP port names a port (R367). -/
def State.peerNamed (s : State) (tab : Bool) (q : Nat) : Bool :=
  (s.kindSlots tab 7).any (fun x => s.schedPort tab x.2 x.1 == q)

/-- The receiver of a port is powered down (R367): a PEER-IN port that no PEER entry of the active table, or of
one that a submitted switch makes active, names. -/
def State.peerSleeps (s : State) (q : Nat) : Bool :=
  s.bit PWR_REQUEST_LINK_SLEEP_EN && decide (1024 ≤ s.fld PWR_BUDGET_LINKS_BUDGET) && s.role q == 1 &&
    !s.peerNamed s.hostTab q &&
    !(s.hostQ.any (fun e => e.kind == LKind.schedSwitch) && s.peerNamed (!s.hostTab) q)

/-! ### Block registers as a read shows them -/

/-- BAR_DRAPE_STATE (Tables 12-10, 19-13). -/
def State.barDrapeState (s : State) : Nat :=
  let cmd := s.pin.commanded
  let safe := s.glb == 4
  let sent := s.drapeSent
  (if s.drapePinSeen then 8 else 0) + (if cmd then 4 else 0) + (if safe then 2 else 0) + (if sent then 1 else 0)

/-- FGL_DRAPE_STATE (Table 15-23). -/
def State.fglDrapeState (s : State) : Nat :=
  (if s.pin.fieldDrapeN then 0 else 8) + (if s.pin.laneDrape then 4 else 0)
    + (if s.pin.laneInvalid then 2 else 0) + (if s.draped then 1 else 0)

/-- The number of ones among the 64 latest sync headers that were invalid (Table 13-12). -/
def popCount (n : Nat) (x : Nat) : Nat :=
  (List.range n).foldl (fun m i => if bitOf x i then m + 1 else m) 0

/-- An engine's register (Tables 11-13 to 11-18). -/
def State.engReg (s : State) (e : Eng) (off : Nat) : Word :=
  let b := engBase e
  let x := s.eng e
  let w := s.reg (b + off)
  match off with
  | 0x05 => fldPut (ENG_ROUTINE_ACTIVE_PENDING b) w x.pend.length
  | 0x07 => fldPut (ENG_STENCIL_DEPTH_DEPTH b) w x.stencil.length
  | 0x08 => fldPut (ENG_STAGE_DEPTH_DEPTH b) w x.staged.length
  | _ => w

/-- A word of the register file outside the fault groups and the windows. -/
def State.blkReg (s : State) (i : Nat) : Word :=
  let w := s.reg i
  match i with
  | 0x0000 => 0x4C592048
  | 0x0001 => BitVec.ofNat 32 Config.siliconRevision.toNat
  | 0x0008 => s.blockIrq
  | 0x0101 => BitVec.ofNat 32 s.tm.hpm.toNat
  | 0x0102 => BitVec.ofNat 32 s.tm.pmHiLatch.toNat
  | 0x0106 => fldPut TIM_LAUNCH_STATUS_HOST_OCC w s.hostQ.length
  | 0x010A => fldPut TIM_GAP_STATUS_OPEN w (if s.windowOpen then 1 else 0)
  | 0x0200 => fldPut BAR_STATUS_EPOCH w s.bar.hostEpoch.toNat
  | 0x0207 => BitVec.ofNat 32 s.barDrapeState
  | 0x0301 => fldPut LNK_DOWN_STATUS_BAD_WINDOW w (popCount 64 s.tm.hdrBad.toNat)
  | 0x0313 => fldPut LNK_EPOCH_EPOCH w s.bar.hostEpoch.toNat
  | 0x0400 => fldPut MGT_STATUS_BUF_OCC w s.mgt.buf.length
  | 0x0704 =>
    let up := fun q => s.peerSleeps q
    fldPut PWR_STATE_PEER_SLEEP w ((List.range 4).foldl (fun m q => if up q then m + 2 ^ q else m) 0)
  | 0x0705 => BitVec.ofNat 32 (min s.wakePredict (2 ^ 28 - 1))
  | 0x1004 => BitVec.ofNat 32 s.fglDrapeState
  | 0x1107 => s.rampStatus
  | 0x1109 =>
    fldPut (ROW_SPARE_CTRL_PREP_READY 3) (fldPut (ROW_SPARE_CTRL_PREP_READY 2)
      (fldPut (ROW_SPARE_CTRL_PREP_READY 1) (fldPut (ROW_SPARE_CTRL_PREP_READY 0) w
        (if s.prepReady 0 then 1 else 0)) (if s.prepReady 1 then 1 else 0))
      (if s.prepReady 2 then 1 else 0)) (if s.prepReady 3 then 1 else 0)
  | 0x110A => s.ovlStatus
  | 0x1301 => fldPut NUL_LOOP_GAIN_G w (s.gainOf (s.fld NUL_LOOP_GAIN_PIN))
  | 0x1307 => fldPut NUL_DAC_RANGE_RANGE w (s.rangeOf (s.fld NUL_DAC_RANGE_PIN))
  | 0x1403 => s.tStatus
  | 0x1503 => s.strStatus
  | 0x1607 =>
    BitVec.ofNat 32 (min s.backlog 0xFFFF * 2 ^ 16 + min s.queueParcels 0x1FFF)
  | 0x1901 => s.refStatus
  | 0x1A07 => s.deferCount
  | 0x1A0A => s.traceStatus
  | 0x1C00 =>
    fldPut FBA_STATUS_EPOCH (fldPut FBA_STATUS_DRAPE_OK (fldPut FBA_STATUS_DRAPE_RX w
      (if s.pin.laneDrape && !s.pin.laneInvalid then 1 else 0))
      (if s.pin.laneInvalid || !s.pin.fieldPower then 0 else 1)) s.bar.fieldEpoch.toNat
  | _ => w

/-- What a read of an index shows, without its side effects; unoccupied indices read 0 (R12, R370). -/
def State.shown (s : State) (m : Master) (i : Nat) : Word :=
  match blkOf i with
  | none => 0
  | some b =>
    let off := i % 0x100
    if 0xF0 ≤ off then (if off ≤ 0xFB then s.fltWord b off else 0)
    else if 0xE0 ≤ off then
      (if winWidth b = 0 then 0
       else if off = 0xE0 then BitVec.ofNat 32 (s.winAddr b (masterCode m))
       else if off = 0xE1 then BitVec.ofNat 32 (s.winShown b (s.winAddr b (masterCode m)))
       else 0)
    else match b with
      | .cou => s.engReg .courier off
      | .bru => s.engReg .brush off
      | _ => s.blkReg i

/-! ### The side effects of a read (R13, R197, R371, R372) -/

/-- The bits that a read clears (RCL, R13). -/
def rclMask (i : Nat) : Nat :=
  match regRow i with
  | some r => r.rcl
  | none => 0

/-- What a read of an index changes. -/
def State.readEffect (s : State) (m : Master) (i : Nat) : State :=
  match blkOf i with
  | none => s
  | some b =>
    let off := i % 0x100
    if off = 0xE1 ∧ winWidth b ≠ 0 then
      let a := s.winAddr b (masterCode m)
      (s.tableRead b a).setWinAddr b (masterCode m) (a + 1)
    else if i = TIM_POSTMARK_LO then
      { s with tm := { s.tm with pmHiLatch := BitVec.ofNat 16 (s.tm.hpm.toNat / 2 ^ 32) } }
    else if i = HKx_DATA 0x1700 then s.hkConsume .a
    else if i = HKx_DATA 0x1800 then s.hkConsume .b
    else if rclMask i = 0 then s
    else s.setReg i (BitVec.ofNat 32 ((s.reg i).toNat - ((s.reg i).toNat &&& rclMask i)))

/-- A read by a master: the value and the state after it. -/
def State.readReg (s : State) (m : Master) (i : Nat) : Word × State :=
  (s.shown m i, s.readEffect m i)

/-! ### FLT_POLICY and FLT_INJECT (R354, R357) -/

/-- FLT_POLICY (Table 16-10): SOURCE selects; WR = 1 writes the policy of that source. -/
def State.policyWrite (s : State) (b : Blk) (v : Word) : State :=
  let w := v.toNat
  let i := bitsOf w 27 24
  let s1 := s.setFld (FLT_POLICY_SOURCE (blkBase b)) i
  if bitOf w 31 then
    let x := s1.src b i
    s1.setSrc b i { x with pol :=
      { sev := BitVec.ofNat 2 w, second := bitOf w 23, action := BitVec.ofNat 3 (bitsOf w 22 20),
        qexp := BitVec.ofNat 5 (bitsOf w 19 15), wexp := BitVec.ofNat 5 (bitsOf w 14 11),
        n := BitVec.ofNat 4 (bitsOf w 10 7) } }
  else s1

/-- Whether a block has a checker (Table 16-6). -/
def hasChecker (b : Blk) (c : Nat) : Bool :=
  match c with
  | 0 => (correctedSrc b).isSome
  | 1 | 2 => b == .cou || b == .bru
  | 3 => b == .bar || b == .fba
  | 4 | 5 => b == .lnk
  | 6 | 7 => b == .cfg
  | 8 => b == .fgl
  | 9 => b == .hks
  | 10 => b == .col
  | _ => false

/-- FLT_INJECT with GO = 1 (R354): a checker that the block does not have changes nothing. -/
def State.injectGo (s : State) (b : Blk) (v : Word) : State :=
  let w := v.toNat
  if hasChecker b (bitsOf w 23 20) then
    s.setReg (FLT_INJECT (blkBase b))
      (BitVec.ofNat 32 ((w &&& 0x10F00003) ||| 0x20000000))
  else s

/-- FLT_INJECT with STOP = 1 (R354). -/
def State.injectStop (s : State) (b : Blk) : State := s.setBit (FLT_INJECT_ARMED (blkBase b)) false

/-- A write of FLT_INJECT: STOP before GO; with neither, MODE, CHECKER and BITS are stored. -/
def State.injectWrite (s : State) (b : Blk) (v : Word) : State :=
  let w := v.toNat
  if !hasChecker b (bitsOf w 23 20) then s
  else
    let s1 := if bitOf w 30 then s.injectStop b else s
    if bitOf w 31 then s1.injectGo b v
    else s1.setReg (FLT_INJECT (blkBase b)) (BitVec.ofNat 32
      ((w &&& 0x10F00003) + (if s1.bit (FLT_INJECT_ARMED (blkBase b)) then 2 ^ 29 else 0)))

end Sys2Proof.Machine
end

