-- ==== Sys2Proof/Machine/Launch.lean ====
section
/-!
DEFINITION. Placing writes in time (R48, R49, R50, R402): the boundary that each write needs (R73, R101,
R120, R144, R161, R171, R185, R210, R231, R281, R304, R333, R357, R368), the decision of a launch queue,
flushing, and quiet windows (R54 to R56).
-/
namespace Sys2Proof.Machine

/-! ### Boundaries -/

/-- The spacing, in ticks, of the boundaries that a launched write of a window word needs: 1 for every
tick, 64 for a sheet boundary. -/
def State.winAlign (s : State) (b : Blk) (a : Nat) (v : Word) : Nat :=
  match b with
  | .bar => if a < 0xB then 64 else 1
  | .pal => if (0x200 ≤ a ∧ a < 0x240) ∨ (0x300 ≤ a ∧ a < 0x344 ∧ bitOf v.toNat 19) then 64 else 1
  | .col =>
    if a < 0x22 then
      (if s.pinMapped a && (bitsOf v.toNat 2 0 != s.pinRange a
          || bitsOf v.toNat 19 16 != bitsOf (s.winN .col a) 19 16) then 64 else 1)
    else if 0x100 ≤ a ∧ a < 0x120 then 64
    else if 0x200 ≤ a ∧ a < 0x420 then
      (if s.trimInUse ((a - 0x200) / 16) ((a - 0x200) / 2 % 8) then 64 else 1)
    else 1
  | .nul =>
    if 0x3000 ≤ a ∧ a < 0x3440 then
      (if s.loopInUse ((a - 0x3000) / 32) ((a - 0x3000) / 4 % 8) a then 64 else 1)
    else if 0x10000 ≤ a ∧ a < 0x18800 then
      (if s.loopInUse ((a - 0x10000) / 1024) ((a - 0x10000) / 128 % 8) a then 64 else 1)
    else 1
  | .var => if 0x8000 ≤ a ∧ a < 0x8020 then 64 else 1
  | .evt => if a < 0x100000 then 64 else 1
  | .cal => if (0xA00 ≤ a ∧ a < 0xA08) ∨ (0xA10 ≤ a ∧ a < 0xA13) then 64 else 1
  | _ => 1

/-- The spacing of the boundaries that a launched write of an index needs; wa is the window address
that a write of _WIN_DATA keeps. -/
def State.wrAlign (s : State) (i : Nat) (v : Word) (wa : Nat) : Nat :=
  match blkOf i with
  | none => 1
  | some b =>
    if i % 0x100 = 0xE1 then s.winAlign b wa v
    else if i % 0x100 = 0xF8 then 64
    else match i with
      | 0x0005 => if v.toNat / 2 ^ 24 = 0xC5 then 64 else 1
      | 0x0300 | 0x0304 | 0x0305 | 0x0306 | 0x0307 => 64
      | 0x0313 => if bitOf v.toNat 31 then 64 else 1
      | 0x0700 | 0x0701 | 0x0702 | 0x0703 | 0x0706 => 64
      | 0x1100 => 64
      | 0x1104 | 0x1106 | 0x1109 => 16
      | 0x1200 | 0x1201 | 0x1204 => 64
      | 0x1300 => 64
      | 0x1301 => if bitOf v.toNat 31 then 16 else 1
      | 0x1302 | 0x1303 => 16
      | 0x1307 => if bitOf v.toNat 31 then 64 else 1
      | 0x1309 => if bitOf v.toNat 0 then 64 else if bitOf v.toNat 2 then 16 else 1
      | 0x1400 => if bitOf v.toNat 0 then 64 else 1
      | 0x1401 | 0x1402 => 64
      | 0x1500 => 64
      | 0x1501 => s.strBoundary (bitsOf (decStored v).toNat 3 0)
      | 0x1502 => s.strBoundary s.strExp
      | 0x1600 | 0x1601 | 0x1602 | 0x1603 | 0x1604 => 64
      | 0x1700 | 0x1800 => 64
      | 0x1907 => 64
      | 0x1A00 | 0x1A02 | 0x1A03 | 0x1A04 | 0x1A05 | 0x1A06 => 64
      | _ => 1

/-- Writes that R73 rejects, and the clear of R101 that acts on arrival, are not held. -/
def notHeld (i wa : Nat) : Bool :=
  i == 0x1204 || (i == 0x11E1 && ((decide (0x200 ≤ wa) && decide (wa < 0x240)) || decide (0x300 ≤ wa)))
    || (i == 0x12E1 && decide (0x100 ≤ wa) && decide (wa < 0x120))

/-- The parts of an unlaunched write that wait for a boundary (R48, R402): the value and whether it is a
sheet boundary. -/
def State.heldParts (s : State) (i : Nat) (v : Word) (wa : Nat) : List (Word × Bool) :=
  if notHeld i wa then []
  else if i = NUL_PRIMER_CTRL then
    (if bitOf v.toNat 0 then [(1, true)] else []) ++ (if bitOf v.toNat 2 then [(4, false)] else [])
  else
    let n := s.wrAlign i v wa
    if n = 1 then [] else [(v, n != 16)]

/-! ### The launch queues (R49, R50) -/

/-- The launch queue of a die. -/
def State.queue (s : State) : Die → List LEntry
  | .host => s.hostQ
  | .field => s.fieldQ

/-- Store the launch queue of a die. -/
def State.setQueue (s : State) (d : Die) (q : List LEntry) : State :=
  match d with
  | .host => { s with hostQ := q }
  | .field => { s with fieldQ := q }

/-- Table 02-2 without ALIGN: the code for a launch postmark that arrives now. -/
def State.launchTime (s : State) (d : Die) (pm : PM) : Nat :=
  let dd := pmDist (s.pmOf d) pm
  if dd = 0 ∨ 2 ^ 47 ≤ dd then 1
  else if 2 ^ 40 < dd then 2
  else if 64 ≤ (s.queue d).length then 3
  else 0

/-- The code of Table 02-2 for a write that needs boundaries of a spacing: the first of UNSET, ALIGN,
LATE, FAR and FULL that applies. -/
def State.launchCode (s : State) (d : Die) (pm : PM) (align : Nat) : Nat :=
  if !s.bit TIM_STATUS_PM_VALID then 5
  else if pm.toNat % align ≠ 0 then 4
  else s.launchTime d pm

/-- Queue an entry that was decided QUEUED, in order of arrival. -/
def State.enqueue (s : State) (d : Die) (e : LEntry) : State := s.setQueue d (s.queue d ++ [e])

/-- A rejected launch: FULL raises TIM source 4 (Table 16-4). -/
def State.launchRaise (s : State) (m : Master) (i code : Nat) : State :=
  if code = 3 then s.raiseWith .tim 4 (writeRaise m i) else s

/-- A launched write reaches its queue (R49).  LNK_EPOCH with SET needs a postmark at least 64 ticks
ahead (R300). -/
def State.launchWrite (s : State) (d : Die) (e : LEntry) : Nat × State :=
  let c0 := s.launchCode d e.pm (s.wrAlign e.idx e.val e.wa)
  let c := if c0 = 0 ∧ e.idx = LNK_EPOCH ∧ bitOf e.val.toNat 31 ∧ pmDist (s.pmOf d) e.pm < 64 then 1
    else c0
  if c = 0 then (0, s.enqueue d e) else (c, s.launchRaise e.master e.idx c)

/-- The engine that a master is. -/
def masterEng : Master → Option Eng
  | .courier => some .courier
  | .brush => some .brush
  | _ => none

/-- An entry leaves its queue: an engine's last one ends a LAUNCH_DONE wait (Table 11-6). -/
def State.leftQueue (s : State) (e : LEntry) : State :=
  match masterEng e.master with
  | some g => if e.tag % 16 = (s.eng g).launches % 16 then s.note g 0x0F else s
  | none => s

/-- Flush the entries of a die's queue that meet a test (R50). -/
def State.flushQueue (s : State) (d : Die) (p : LEntry → Bool) : State :=
  let out := (s.queue d).filter p
  let s1 := s.setQueue d ((s.queue d).filter (fun e => !p e))
  let s2 := forEach out (fun t e => t.leftQueue e) s1
  let n := (out.filter (fun e => e.kind == LKind.armed)).length
  let s3 := s2.count TIM_LAUNCH_STATUS_REJECT_COUNT n
  let s4 := if out.any (fun e => e.kind == LKind.bankSwap) then
    s3.setBit PAL_STATUS_SWAP_PENDING false else s3
  if d == Die.host && out.any (fun e => e.kind == LKind.schedSwitch) then
    s4.setBit LNK_SCHED_SEL_PENDING false else s4

/-- Flush both queues, and the launched management writes that the port still holds (R50, R313). -/
def State.flushAll (s : State) : State :=
  let s1 := (s.flushQueue .host (fun _ => true)).flushQueue .field (fun _ => true)
  let n := (s1.mgt.buf.filter (fun w => w.launch.isSome)).length
  ({ s1 with mgt := { s1.mgt with buf := s1.mgt.buf.filter (fun w => w.launch.isNone) } }).count
    TIM_LAUNCH_STATUS_REJECT_COUNT n

/-- TIM_LAUNCH_ACTION.FLUSH: the entries that the management port queued through ARM (R50). -/
def State.flushArmed (s : State) : State :=
  let p := fun (e : LEntry) => e.kind == LKind.armed
  (s.flushQueue .host p).flushQueue .field p

/-! ### Unlaunched writes that wait (R48) -/

/-- Hold the parts of an unlaunched write that wait for a boundary. -/
def State.holdParts (s : State) (m : Master) (i : Nat) (v : Word) (wa : Nat) : State :=
  let field := decide (0x1000 ≤ i)
  let hs := (s.heldParts i v wa).map (fun x => HeldWr.mk field x.2 s.tm.tick i x.1 m wa)
  { s with held := s.held ++ hs }

/-- A held write's boundary is this tick: the first one strictly after its arrival (R48); one of
LNK_EPOCH lies at least 64 ticks after it (R300). -/
def State.heldDue (s : State) (h : HeldWr) : Bool :=
  let p := s.pmOf (if h.field then .field else .host)
  decide (h.arrived < s.tm.tick) && isStroke p && (!h.sheet || isSheet p) &&
    (h.idx != LNK_EPOCH || decide (h.arrived + 64 ≤ s.tm.tick)) &&
    (!(h.idx == 0x1501 || h.idx == 0x1502) || p.toNat % s.wrAlign h.idx h.val h.wa == 0)

/-! ### Quiet windows (R54 to R56) -/

/-- GAP_OPEN takes effect at the present postmark (R54, R56). -/
def State.gapOpen (s : State) : State :=
  match s.gap with
  | some _ => s.inc TIM_GAP_COUNT_STRAY
  | none => { s with gap := some ⟨sheetAtOrAfter s.tm.hpm, none, false⟩ }

/-- GAP_CLOSE takes effect at a postmark h (R54, R56). -/
def State.gapClose (s : State) (h : PM) : State :=
  match s.gap with
  | none => s.inc TIM_GAP_COUNT_STRAY
  | some w =>
    if w.closes.isSome then s.inc TIM_GAP_COUNT_STRAY
    else if w.isOpen then
      let b := sheetOf h
      { s with gap := some { w with closes := some (if pmGe b w.opens then b else w.opens) } }
    else ({ s with gap := none }).inc TIM_GAP_COUNT_EMPTY

/-- The opening boundary of a pending window (R54). -/
def State.gapOpens (s : State) : State :=
  match s.gap with
  | some w =>
    let s1 := ({ s with gap := some { w with isOpen := true } }).inc TIM_GAP_COUNT_WINDOWS
    (s1.note .courier 0x05).note .brush 0x05
  | none => s

/-- The sheets of a window that closes at b (R54). -/
def gapSheets (opens b : PM) : Nat := if pmGe b opens then pmDist opens b / 64 else 0

/-- An open window closes at b: LAST_SHEETS counts its sheets, and an empty one is counted (R54). -/
def State.gapCloses (s : State) (b : PM) : State :=
  match s.gap with
  | some w =>
    let n := gapSheets w.opens b
    let s1 := ({ s with gap := none }).setFld TIM_GAP_STATUS_LAST_SHEETS (min n 65535)
    let s2 := if n = 0 then s1.inc TIM_GAP_COUNT_EMPTY else s1
    (s2.note .courier 0x06).note .brush 0x06
  | none => s

/-- The window is open and reaches GAP_LIMIT at a sheet boundary p (R55). -/
def State.gapLimitAt (s : State) (p : PM) : Bool :=
  match s.gap with
  | some w =>
    let n := s.fld TIM_GAP_STATUS_GAP_LIMIT
    w.isOpen && w.closes.isNone && n != 0 && isSheet p && pmDist w.opens p == n * 65536 * 64
  | none => false

end Sys2Proof.Machine
end

