-- ==== Sys2Proof/Machine/Barrier.lean ====
section
/-!
DEFINITION. The barrier (chapter 12): lanes and training, sending, the checks of a receiving end, lane
failure and spares, heartbeats and the retired table.
-/
namespace Sys2Proof.Machine

/-- Envelopes cross: the barrier is trained and no training runs (R264, R266). -/
def State.barUp (s : State) : Bool := s.bit BAR_STATUS_TRAINED && s.bar.trainStart.isNone

/-! ### Training (R262, R264, R266) -/

/-- The physical lanes that passed, ascending. -/
def passing (n mask : Nat) : List Nat := (List.range n).filter (fun i => bitOf mask i)

/-- No lane is trained while training runs: both ends show it, with no lane active and no spare in use (DEDUCED). -/
def State.untrained (s : State) : State :=
  let s1 := (((s.setBit BAR_STATUS_TRAINED false).setBit FBA_STATUS_TRAINED false).setBit FBA_STATUS_ALIGNED
    false).setBit TIM_STATUS_FIELD_ALIGNED false
  let s2 := (((s1.setFld BAR_LANE_MAP_F2H_SPARE_FOR 15).setFld BAR_LANE_MAP_H2F_SPARE_FOR 3).setFld
    BAR_LANE_MAP_F2H_ACTIVE 0).setFld BAR_LANE_MAP_H2F_ACTIVE 0
  (s2.setFld FBA_LANE_STATUS_F2H_SPARE_FOR 15).setFld FBA_LANE_STATUS_H2F_SPARE_FOR 3

/-- Training starts: no envelope crosses, HB_RUN clears, and what is on the lanes is lost (R264, R266,
R278). -/
def State.trainBegin (s : State) (attempt : Nat) : State :=
  let s0 := (((s.setBit BAR_STATUS_TRAINING true).setFld BAR_STATUS_HB_RUN 0).setFld BAR_TRAIN_PHASE
    1).setFld BAR_TRAIN_ATTEMPTS attempt
  let s1 := s0.untrained
  { s1 with bar := { s1.bar with trainStart := some s.tm.tick, attempt := attempt, flights := [],
                                 swap := [], freeF := 0, freeH := [] } }

/-- BAR_TRAIN.PHASE while training runs (Table 12-1). -/
def State.trainPhase (s : State) : State :=
  match s.bar.trainStart with
  | none => s
  | some t0 =>
    let t := s.tm.tick - t0
    s.setFld BAR_TRAIN_PHASE (if t < 16384 then 1 else if t < 32768 then 2 else if t < 36864 then 3 else 4)

/-- Phase 3: the field postmark takes the host's (R265). -/
def State.alignField (s : State) : State :=
  ({ s with tm := { s.tm with fpm := s.tm.hpm } }).setBit FBA_STATUS_ALIGNED true

/-- The lane maps after a training in which these physical lanes passed (R262). -/
def State.assignLanes (s : State) (f2h h2f : Nat) : State :=
  let f := passing 13 f2h
  let h := passing 3 h2f
  let bar := { s.bar with f2hMap := f.take 12, h2fMap := h.take 2, f2hSpare := f[12]?,
                          h2fSpare := h[2]?, freeH := [0, 0] }
  let fm := if f.length = 13 then 15 else 11
  let hm := if h.length = 3 then 3 else 1
  let s1 := { s with bar := bar }
  let s2 := (s1.setFld BAR_LANE_STATUS_F2H_FAIL (8191 - f2h % 8192)).setFld BAR_LANE_STATUS_H2F_FAIL
    (7 - h2f % 8)
  let s3 := s2.setFld FBA_LANE_STATUS_H2F_FAIL (7 - h2f % 8)
  let s4 := (((s3.setFld BAR_LANE_MAP_F2H_SPARE_FOR fm).setFld BAR_LANE_MAP_H2F_SPARE_FOR hm).setFld
    BAR_LANE_MAP_F2H_ACTIVE 12).setFld BAR_LANE_MAP_H2F_ACTIVE 2
  (s4.setFld FBA_LANE_STATUS_F2H_SPARE_FOR fm).setFld FBA_LANE_STATUS_H2F_SPARE_FOR hm

/-- A training succeeds (R264): both ends set TRAINED, shedding ends, and heartbeats are counted from
the next sheet boundary (R278). -/
def State.trainOk (s : State) (f2h h2f : Nat) : State :=
  let s1 := (s.assignLanes f2h h2f).alignField
  let s2 := ((s1.setBit BAR_STATUS_TRAINED true).setBit FBA_STATUS_TRAINED true).setBit
    BAR_STATUS_DEGRADED false
  let s3 := { s2 with bar := { s2.bar with shedAt := none, hbSeen := true } }
  let s4 := if f2h % 8192 = 8191 then ((s3.standing .bar 0 false).standing .bar 1 false).standing .bar 2 false
    else s3
  if h2f % 8 = 7 then ((s4.standing .fba 0 false).standing .fba 1 false).standing .fba 2 false else s4

/-- A training attempt ends (R264): enough lanes pass, or it is repeated up to three times.  Answers
whether training has succeeded, failed for good, or goes on. -/
def State.trainEnd (s : State) (f2h h2f : Nat) : Option Bool × State :=
  let ok := decide (12 ≤ (passing 13 f2h).length) && decide (2 ≤ (passing 3 h2f).length) &&
    s.pin.fieldPower
  let n := s.bar.attempt
  if !ok && decide (n < 4) then (none, s.trainBegin (n + 1))
  else
    let s1 := { s with bar := { s.bar with trainStart := none } }
    let s2 := ((s1.setBit BAR_STATUS_TRAINING false).setFld BAR_TRAIN_DURATION (50 * n)).setFld
      BAR_TRAIN_PHASE (if ok then 5 else 6)
    if ok then (some true, s2.trainOk f2h h2f)
    else
      let s3 := (s2.setBit BAR_STATUS_TRAINED false).setBit FBA_STATUS_TRAINED false
      (some false, s3)

/-! ### Sending (R269 to R271) -/

/-- Shedding is in force in this tick (R279). -/
def State.shedNow (s : State) : Bool :=
  match s.bar.shedAt with
  | some b => pmGe s.tm.fpm b
  | none => false

/-- The highest unacknowledged severity in any field fault group (Table 12-3). -/
def State.fieldSeverity (s : State) : Nat := fieldBlks.foldl (fun m b => max m (s.maxSev b)) 0

/-- The payload of a HEARTBEAT (Table 12-3). -/
def State.heartPayload (s : State) : Nat :=
  (if s.bit (ENG_CTRL_RUN 0x1B00) then 2 ^ 15 else 0) + (if s.bit FGL_STATUS_SAFE then 2 ^ 14 else 0)
    + s.fieldSeverity % 4 * 2 ^ 12 + s.fld FBA_STATUS_HB_SENT

/-- Send the HEARTBEAT of a sheet (R270). -/
def State.sendHeartbeat (s : State) : State :=
  let s1 := s.setFld FBA_STATUS_HB_SENT (s.fld FBA_STATUS_HB_SENT + 1)
  let d : Draft := ⟨tHEART, 1, 0xFF, none, s1.heartPayload, false⟩
  s1.launchEnv true (s1.laneBroken true (if s1.shedNow then 0 else 11))
    (draftEnv d s1.bar.fieldEpoch s1.tm.fpm)

/-- Take the n-th waiting envelope of the field die. -/
def State.startField (s : State) (n : Nat) (lane : Nat) : State :=
  match s.bar.txF[n]? with
  | none => s
  | some d =>
    let s1 := { s with bar := { s.bar with txF := dropAt s.bar.txF n,
                                           freeF := s.tm.tick + d.len.toNat } }
    s1.launchEnv true (s1.laneBroken true lane) (draftEnv d s1.bar.fieldEpoch s1.tm.fpm)

/-- The general lane in one tick (R270): the HEARTBEAT first, then the waiting envelope of highest
priority, which never spans a sheet boundary. -/
def State.generalTick (s : State) : State :=
  let ph := s.tm.fpm.toNat % 64
  if ph = 0 then { s.sendHeartbeat with bar := { s.sendHeartbeat.bar with freeF := s.tm.tick + 1 } }
  else if s.tm.tick < s.bar.freeF then s
  else match pickDraft s.bar.txF 0 with
    | none => s
    | some (_, n) =>
      match s.bar.txF[n]? with
      | some d => if ph + d.len.toNat ≤ 64 then s.startField n 11 else s
      | none => s

/-- Under shedding the general traffic has the 6 ticks of the shed columns on the 11 lanes (R279): each
envelope goes whole on one lane. -/
def shedLanes : Nat → State → State
  | 0, s => s
  | k + 1, s =>
    let ph := s.tm.fpm.toNat % 64
    match pickDraft s.bar.txF 0 with
    | none => s
    | some (_, n) =>
      match s.bar.txF[n]? with
      | some d => if ph + d.len.toNat ≤ 11 then shedLanes k (s.startField n k) else s
      | none => s

/-- General traffic in one tick under shedding (R279). -/
def State.shedTick (s : State) : State :=
  let ph := s.tm.fpm.toNat % 64
  if ph < 5 ∨ 10 < ph then s
  else
    let s1 := if ph = 5 then s.sendHeartbeat else s
    let busy := (s1.bar.flights.filter (fun f =>
      f.toHost && f.env.typ != tREADINGS && decide (s.tm.tick + 9 < f.due))).length
    shedLanes (11 - busy) s1

/-- Host→field lanes that are reserved in a tick for fast commands (R271): lane 0. -/
def State.fastSlot (s : State) (t : Nat) : Option FastCmd :=
  s.tm.fast.find? (fun f => f.due == t + 46 &&
    [0x10, 0x11, 0x20, 0x30, 0x40, 0x41, 0x50].contains f.code.toNat)

/-- The envelope type that brings a fast command to the field die (R271). -/
def fastType (code : BitVec 8) : BitVec 4 :=
  if code = 0x10 ∨ code = 0x11 then tGAP else if code = 0x20 then tTRIGGER else tCOMMAND

/-- The logical lane that carries TIME: lane 1, or the one that is left (R271, R279). -/
def State.timeLane (s : State) : Nat := if s.bar.h2fMap.length = 2 then 1 else 0

/-- The TIME envelope of a POSTMARK_SET may leave in a tick on its lane (R271, R279). -/
def State.timeSlot (s : State) (t : Nat) : Bool :=
  s.bar.txH.any (fun d => d.typ == tTIME) &&
    (match s.tm.pmSet with
      | some p => decide (p.tick + 3 ≤ t)
      | none => true) &&
    (s.timeLane == 1 || ((s.fastSlot t).isNone && (s.fastSlot (t + 1)).isNone))

/-- The position of the waiting general envelope that goes first: 2-beat COMMANDs, then in order of
request (R271, R277). -/
def pickHost (q : List Draft) : Option Nat :=
  let i := q.findIdx (fun d => d.first && bitsOf d.payload 95 88 == 1)
  if i < q.length then some i
  else
    let j := q.findIdx (fun d => d.first)
    if j < q.length then some j
    else
      let k := q.findIdx (fun d => d.typ != tTIME)
      if k < q.length then some k else none

/-- Put a host→field envelope on a logical lane. -/
def State.startHost (s : State) (d : Draft) (lane : Nat) : State :=
  let free := (List.range 2).map (fun l =>
    if l = lane then s.tm.tick + d.len.toNat else s.bar.freeH.getD l 0)
  let s1 := { s with bar := { s.bar with freeH := free } }
  s1.launchEnv false (s1.laneBroken false lane) (draftEnv d s1.bar.hostEpoch s1.tm.hpm)

/-- One host→field lane in one tick (R271). -/
def State.hostLane (s : State) (lane : Nat) : State :=
  let t := s.tm.tick
  let ph := s.tm.hpm.toNat % 64
  if t < s.bar.freeH.getD lane 0 then s
  else if lane = 0 ∧ (s.fastSlot t).isSome then
    match s.fastSlot t with
    | some f => s.startHost ⟨fastType f.code, 1, 0, some (BitVec.ofNat 24 (s.tm.hpm.toNat + 46)),
        f.code.toNat * 256, false⟩ 0
    | none => s
  else if lane = s.timeLane ∧ s.timeSlot t ∧ ph ≠ 63 then
    match s.bar.txH.find? (fun d => d.typ == tTIME) with
    | some d =>
      { s with bar := { s.bar with txH := s.bar.txH.filter (fun x => x.typ != tTIME) } }.startHost d lane
    | none => s
  else match pickHost s.bar.txH with
    | none => s
    | some n =>
      match s.bar.txH[n]? with
      | some d =>
        let clash := d.len.toNat = 2 ∧ ((lane = 0 ∧ (s.fastSlot (t + 1)).isSome) ∨
          (lane = s.timeLane ∧ s.timeSlot (t + 1)))
        if ph + d.len.toNat ≤ 64 ∧ ¬ clash then
          { s with bar := { s.bar with txH := dropAt s.bar.txH n } }.startHost d lane
        else s
      | none => s

/-- What both ends start in one tick: an envelope leaves at the earliest in the tick after the one that asks for
it (Tables 02-3, 12-6, 13-8, 14-2, 16-3). -/
def State.sendTick (s : State) : State :=
  if !s.barUp then s
  else
    let s1 := if s.pin.fieldPower then (if s.shedNow then s.shedTick else s.generalTick) else s
    forEach (List.range s1.bar.h2fMap.length) (fun t l => t.hostLane l) s1

/-! ### The checks of a receiving end (R273, R280, R281) -/

/-- LEN that a type permits (Table 12-3). -/
def lenOk (typ : BitVec 4) (len : Nat) : Bool :=
  match typ with
  | 0x1 => len == 22
  | 0x2 => len == 4
  | 0x3 | 0x4 | 0x5 | 0x6 | 0x9 | 0xC => len == 2
  | 0x7 => decide (1 ≤ len) && decide (len ≤ 6)
  | 0x8 | 0xA | 0xD | 0xE => len == 1
  | 0xB => len == 1 || len == 2
  | _ => false

/-- The operation or code that a type carries is not reserved (Table 12-5, R268). -/
def codeOk (e : Env) : Bool :=
  let c := bitsOf e.payload 95 88
  match e.typ with
  | 0x4 => c == 1 || c == 2 || (decide (0x10 ≤ c) && decide (c ≤ 0x7F))
  | 0xB => if e.len = 2 then c == 1 || c == 2 || c == 3
           else [0x30, 0x40, 0x41, 0x50].contains (bitsOf e.payload 15 8)
  | 0xD => [0x10, 0x11].contains (bitsOf e.payload 15 8)
  | 0xE => bitsOf e.payload 15 8 == 0x20
  | _ => true

/-- An envelope is defined for the end that receives it (R273 item 2). -/
def envDefined (toHost : Bool) (e : Env) : Bool :=
  let dir := if toHost then decide (1 ≤ e.typ.toNat) && decide (e.typ.toNat ≤ 8)
    else decide (9 ≤ e.typ.toNat) && decide (e.typ.toNat ≤ 14)
  dir && lenOk e.typ e.len.toNat && codeOk e

/-- The epoch of an envelope is that of the receiver in the tick in which its first beat left (R280): LEN
+ 9 ticks before its delivery, 11 ticks for READINGS. -/
def State.epochOk (s : State) (toHost : Bool) (e : Env) : Bool :=
  let sent := s.tm.tick - (if e.typ = tREADINGS then 11 else e.len.toNat + 9)
  e.epoch == (if toHost then epochAt s.bar.hostEpoch s.bar.prevHostEpoch sent
    else epochAt s.bar.fieldEpoch s.bar.prevFieldEpoch sent)

/-- A UNIT code is in the retired table (R281). -/
def State.unitRetired (s : State) (u : Nat) : Bool := bitOf (s.winN .bar (u / 24)) (u % 24)

/-- The block whose fault group and injection an end uses. -/
def endBlk (toHost : Bool) : Blk := if toHost then .bar else .fba

/-- A wrong frank (R273 item 1). -/
def State.badFrank (s : State) (toHost laneFault : Bool) : State :=
  let s1 := s.inc (if toHost then BAR_FRANK_ERRORS_ENVELOPES else FBA_FRANK_ERRORS_ENVELOPES)
  if laneFault then s1 else if toHost then s1.raise .bar 6 else s1.raise .fba 4

/-- An undefined envelope (R273 item 2). -/
def State.undefinedEnv (s : State) (toHost : Bool) : State :=
  if toHost then (s.inc BAR_UNDEFINED_COUNT_UNDEFINED).raise .bar 7
  else (s.inc FBA_UNDEFINED_COUNT_UNDEFINED).raise .fba 5

/-- Receive an envelope (R273): the state, and whether it passed every check. -/
def State.receive (s : State) (toHost : Bool) (x : Rx) : Bool × State :=
  let b := endBlk toHost
  let hit := s.injected b 3
  let s0 := if hit then s.injectDone b else s
  if !envFrankOk x.env || hit then (false, s0.badFrank toHost x.laneFault)
  else if !envDefined toHost x.env then (false, s0.undefinedEnv toHost)
  else if !s0.epochOk toHost x.env then
    (false, if toHost then (s0.deadEnvelope 1 x.env).inc BAR_UNDEFINED_COUNT_STALE
      else s0.inc FBA_STATUS_STALE)
  else if toHost && s0.unitRetired x.env.unit.toNat then
    (false, (s0.deadEnvelope 2 x.env).inc BAR_UNDEFINED_COUNT_STALE)
  else (true, s0)

/-! ### Lane failure and the spares (R276, R277, R279) -/

/-- The boundary of a swap: the first sheet boundary at or after d + 64 (R277). -/
def swapBoundary (p : PM) : PM := sheetAtOrAfter (p + 64)

/-- A raise of a lane fault: its address is the physical lane (R343). -/
def laneRaise (toHost : Bool) (lane : Nat) (correct : Bool) (fixed : Option Nat) : RaiseInfo :=
  { plainRaise (endBlk toHost) with addr := lane, correct := correct, fixed := fixed }

/-- Announce a swap to the other end (R277). -/
def State.sendSwap (s : State) (w : Swap) : State :=
  if w.toHost then s.sendCommand 1 w.lane w.at_ else s.sendStatus 1 w.lane w.at_ true

/-- A logical lane fails while its direction has a spare (R276, R277). -/
def State.laneToSpare (s : State) (toHost : Bool) (lane l : Nat) : State :=
  let b := endBlk toHost
  let s1 := (s.raiseWith b 0 (laneRaise toHost lane true none)).standing b 0 true
  let w : Swap := ⟨toHost, l, swapBoundary (s1.pmOf (if toHost then .host else .field)), false⟩
  ({ s1 with bar := { s1.bar with swap := s1.bar.swap ++ [w] } }).sendSwap w

/-- A field→host lane fails with no spare left (R279). -/
def State.noSpareF (s : State) (lane : Nat) : State :=
  let fatal := s.bit BAR_LANE_MAP_DEGRADE || s.bar.shedAt.isSome
  if fatal then
    (s.raiseWith .bar 2 (laneRaise true lane false (some 3))).standing .bar 2 true
  else
    let s1 := (s.raiseWith .bar 2 (laneRaise true lane false none)).standing .bar 2 true
    let b := swapBoundary s1.tm.hpm
    ({ s1 with bar := { s1.bar with shedAt := some b } }).sendCommand 3 0 b

/-- A host→field lane fails with no spare left (R279); a spare whose swap is on its way still carries the traffic. -/
def State.noSpareH (s : State) (lane : Nat) : State :=
  let left := s.bar.h2fMap.filter (fun p => !bitOf (s.fld FBA_LANE_STATUS_H2F_FAIL) p)
  let taken := s.bar.swap.any (fun w => !w.toHost) && s.bar.h2fSpare.isSome
  if left.isEmpty && !taken then
    (s.raiseWith .fba 2 (laneRaise false lane false (some 3))).standing .fba 2 true
  else (s.raiseWith .fba 1 (laneRaise false lane false none)).standing .fba 1 true

/-- The spare of a direction has failed: a swap to it that has not taken effect cannot, and the lane that it was for
has no spare (R279). -/
def State.spareLost (s : State) (toHost : Bool) : State :=
  let owed := s.bar.swap.filter (fun w => w.toHost == toHost)
  let s1 := { s with bar := { s.bar with swap := s.bar.swap.filter (fun w => w.toHost != toHost) } }
  if toHost then
    forEach owed (fun t w => t.noSpareF (t.bar.f2hMap.getD w.lane 0)) { s1 with bar := { s1.bar with f2hSpare := none } }
  else
    forEach owed (fun t w => t.noSpareH (t.bar.h2fMap.getD w.lane 0)) { s1 with bar := { s1.bar with h2fSpare := none } }

/-- A barrier lane fails (R276): errors more characters were wrong. -/
def State.laneFail (s : State) (toHost : Bool) (lane errors : Nat) : State :=
  let s1 := s.count (if toHost then BAR_FRANK_ERRORS_CHARACTERS else FBA_FRANK_ERRORS_CHARACTERS) errors
  let fail := s1.fld (if toHost then BAR_LANE_STATUS_F2H_FAIL else FBA_LANE_STATUS_H2F_FAIL)
  if bitOf fail lane ∨ (!toHost ∧ 3 ≤ lane) then s1
  else
    let s2 := if toHost then s1.setFld BAR_LANE_STATUS_F2H_FAIL (fail + 2 ^ lane)
      else (s1.setFld FBA_LANE_STATUS_H2F_FAIL (fail + 2 ^ lane)).setFld BAR_LANE_STATUS_H2F_FAIL
        (fail + 2 ^ lane)
    let map := if toHost then s2.bar.f2hMap else s2.bar.h2fMap
    let spare := if toHost then s2.bar.f2hSpare else s2.bar.h2fSpare
    let b := endBlk toHost
    if spare = some lane then
      ((s2.raiseWith b 1 (laneRaise toHost lane false none)).standing b 1 true).spareLost toHost
    else if map.contains lane then
      let owed := s2.bar.swap.any (fun w => w.toHost == toHost)
      if spare.isSome && !owed then s2.laneToSpare toHost lane (map.idxOf lane)
      else if toHost then s2.noSpareF lane
      else s2.noSpareH lane
    else s2

/-- Move a logical lane to the spare at its boundary; the swap corrects the raise (R277, R346). -/
def State.swapLane (s : State) (w : Swap) : State :=
  let s1 := { s with bar := { s.bar with swap := s.bar.swap.filter (fun x => x != w) } }
  let b := endBlk w.toHost
  let s2 := if w.toHost then
      match s1.bar.f2hSpare with
      | some p =>
        let t := { s1 with bar := { s1.bar with f2hMap := s1.bar.f2hMap.set w.lane p, f2hSpare := none } }
        (t.setFld BAR_LANE_MAP_F2H_SPARE_FOR w.lane).setFld FBA_LANE_STATUS_F2H_SPARE_FOR w.lane
      | none => s1
    else
      match s1.bar.h2fSpare with
      | some p =>
        let t := { s1 with bar := { s1.bar with h2fMap := s1.bar.h2fMap.set w.lane p, h2fSpare := none } }
        (t.setFld BAR_LANE_MAP_H2F_SPARE_FOR w.lane).setFld FBA_LANE_STATUS_H2F_SPARE_FOR w.lane
      | none => s1
  ((s2.inc BAR_STATUS_SWAPS).ackMask b 1).standing b 0 false

/-- At b the lanes that are left become the logical lanes from 0, and shedding is in force (R279). -/
def State.degradeF (s : State) : State :=
  let left := s.bar.f2hMap.filter (fun p => !bitOf (s.fld BAR_LANE_STATUS_F2H_FAIL) p)
  let sorted := (List.range 13).filter (fun p => left.contains p)
  (({ s with bar := { s.bar with f2hMap := sorted } }).setBit BAR_STATUS_DEGRADED true).setFld
    BAR_LANE_MAP_F2H_ACTIVE sorted.length

/-- The host→field lane that is left becomes logical lane 0 (R279). -/
def State.degradeH (s : State) : State :=
  let left := s.bar.h2fMap.filter (fun p => !bitOf (s.fld FBA_LANE_STATUS_H2F_FAIL) p)
  if left.length = s.bar.h2fMap.length then s
  else ({ s with bar := { s.bar with h2fMap := left } }).setFld BAR_LANE_MAP_H2F_ACTIVE left.length

/-- A swap's boundary is the present postmark of the end that sends. -/
def State.swapDue (s : State) (w : Swap) : Bool :=
  w.answered && s.pmOf (if w.toHost then .field else .host) == w.at_

/-- What happens at b (R277, R279). -/
def State.laneSwapApply (s : State) : State :=
  let s1 := forEach (s.bar.swap.filter (fun w => s.swapDue w)) (fun t w => t.swapLane w) s
  let s2 := if s1.bar.shedAt = some s1.tm.hpm then s1.degradeF else s1
  if isSheet s2.tm.hpm && s2.bar.swap.all (fun w => w.toHost) then s2.degradeH else s2

/-- At b − 32 a swap without its answer moves one sheet on and is sent again (R277). -/
def State.swapLate (s : State) : State :=
  forEach s.bar.swap (fun t w =>
    if !w.answered && t.pmOf (if w.toHost then .host else .field) + 32 == w.at_ then
      let w' := { w with at_ := w.at_ + 64 }
      ({ t with bar := { t.bar with swap := t.bar.swap.map (fun x => if x == w then w' else x) } }).sendSwap
        w'
    else t) s

/-- The answer to a swap has come: the REPLY to LANE_SWAP, or the STATUS LANE_FAIL (R277). -/
def State.swapAnswer (s : State) (toHost : Bool) : State :=
  { s with bar := { s.bar with swap := s.bar.swap.map (fun w =>
      if w.toHost == toHost then { w with answered := true } else w) } }

/-! ### Heartbeats (R265, R278) -/

/-- The host's own name of an earlier tick (R265): a rename since then gave later ticks new names. -/
def State.hostNameAt (s : State) (t : Nat) : PM :=
  match s.tm.lastRen with
  | some (a, old) =>
    if t < a then old - BitVec.ofNat 48 (a - t) else s.tm.hpm - BitVec.ofNat 48 (s.tm.tick - t)
  | none => s.tm.hpm - BitVec.ofNat 48 (s.tm.tick - t)

/-- A HEARTBEAT reaches the host: its postmark is checked, and its severity is kept for ALIVE (R265, R348,
R353). -/
def State.heartbeatIn (s : State) (e : Env) : State :=
  let sent := s.hostNameAt (s.tm.tick - 10)
  let sev := bitsOf e.payload 13 12
  let s1 := { s with bar := { s.bar with hbSeen := true, lastHbSev := sev } }
  let s2 := if sent.toNat % 2 ^ 24 = e.pm.toNat then
      (if s1.bit FBA_STATUS_ALIGNED then s1.setBit TIM_STATUS_FIELD_ALIGNED true else s1)
    else (s1.setBit BAR_STATUS_ALIGN_FAIL true).raise .bar 4
  if sev = 3 then s2.safeSoon 5 else s2

/-- A sheet ends: count it when no HEARTBEAT came (R278).  True when the fourth in a row is missing. -/
def State.heartbeatCount (s : State) : Bool × State :=
  let s0 := { s with bar := { s.bar with hbSeen := false } }
  if !s.barUp then (false, s0)
  else if s.bar.hbSeen then (false, s0.setFld BAR_STATUS_HB_RUN 0)
  else
    let n := min (s0.fld BAR_STATUS_HB_RUN + 1) 4
    (n == 4 && s0.fld BAR_STATUS_HB_RUN != 4, (s0.inc BAR_STATUS_HB_MISSED).setFld BAR_STATUS_HB_RUN n)

/-! ### The retired table (R281, R283) -/

/-- A write of a retired-table word at its boundary; word 10 uses bits [15:0] (R283). -/
def State.retiredWrite (s : State) (w : Nat) (v : W24) (launched : Bool) : State :=
  let x := if w = 10 then v.toNat % 2 ^ 16 else v.toNat
  (s.setWinN .bar w x).param launched (s.winN .bar w != x)

end Sys2Proof.Machine
end

