-- ==== Sys2Proof/Machine/Mode.lean ====
section
/-!
DEFINITION. Device states, drape, SAFE and power states: GLB_STATE (R325, R328, R331), live reasons (R8),
drape (R28), the marks of an engine halt (R257), and the power block (chapter 17).
-/
namespace Sys2Proof.Machine

/-! ### GLB_STATE and the live reasons (R8, R325) -/

/-- GLB_STATE changes; every state but RUNNING is live reason 1 (R8, Table 11-6). -/
def State.setGlb (s : State) (n : Nat) : State :=
  let s1 := (s.setFld GLB_STATE_STATE n).note .courier 0x0E
  if n = 7 then s1 else s1.live 1

/-- At a sheet boundary the live reasons whose conditions have ended clear (R8). -/
def State.liveClear (s : State) : State :=
  let l := (if s.glb == 7 then 0 else 2) + (if s.bit PWR_STATE_TRANSITION then 4 else 0)
  (s.setFld GLB_DETERMINISM_LIVE (s.fld GLB_DETERMINISM_LIVE &&& l)).showReason

/-- READY becomes RUNNING (R328, R8, Table 11-18): the sticky reasons clear, the breakpoints are disabled, and
a loop start is owed (R136). -/
def State.goRunning (s : State) : State :=
  let s1 := (s.setFld GLB_DETERMINISM_STICKY 0).setGlb 7
  let s2 := (s1.setBit (ENG_BREAK_EN 0x600) false).setBit (ENG_BREAK_EN 0x1B00) false
  let s3 := { s2 with nul := { s2.nul with reprime := true }, cfg := { s2.cfg with autoRun := false } }
  (if isSheet s3.tm.hpm then s3.liveClear else s3).showReason

/-- A loop start that is owed happens at a sheet boundary (R136). -/
def State.loopStartDue (s : State) : State :=
  if s.nul.reprime && isSheet s.tm.fpm then s.loopStart else s

/-- RUN in READY (R285, R328). -/
def State.runCmd (s : State) : State :=
  if s.glb = 6 then s.goRunning else s

/-- HALT in RUNNING (R285). -/
def State.haltCmd (s : State) : State := if s.glb = 7 then s.setGlb 6 else s

/-! ### Drape (R28, R38, R274) -/

/-- A late wake is excused (R365). -/
def State.pwrExempt (s : State) : State :=
  { s with pwr := { s.pwr with run := s.pwr.run.map (fun r => { r with exempt := true }) } }

/-- Drape comes into force (R28, R96, R223, Table 11-7). -/
def State.drapeOn (s : State) : State :=
  let s1 := forEach s.runners (fun t x =>
    let d := t.drv x.1
    t.setDrv x.1 { d with a := 0, c := 0, hist := d.hist ||| 1 }) s
  (((s1.calCut).cause .courier 4).cause .brush 4).pwrExempt

/-- Drape ends (R96): strokes that hold drape samples stay frozen. -/
def State.drapeOff (s : State) : State :=
  { s with nul := { s.nul with badBefore := max s.nul.badBefore (s.tm.tick + 8) } }

/-- Drape comes into force or ends where it does not stand as it did; was is whether drape was in force before. -/
def State.syncDrape (s : State) (was : Bool) : State :=
  if s.draped == was then s else if s.draped then s.drapeOn else s.drapeOff

/-- The field die acts on the symbol that arrives; the lane needs the clock and the field die (R28, R38). -/
def State.laneArrives (s : State) : State :=
  if s.tm.clk && s.pin.fieldPower then
    ({ s with pin := { s.pin with laneDrape := s.drapeArrives } }).syncDrape s.draped
  else s

/-- The drape lane in one tick (R274): the host sends drape for a cause that it saw in the tick before, DRAPE_N
after its synchroniser, and a symbol of 3 ticks ago arrives. -/
def State.laneTick (s : State) : State :=
  let cause := s.drapePinSeen || s.glb == 4
  let low := (s.pin.lowSync <<< (1 : Nat)) ||| (if s.pin.drapeN then 0 else 1)
  let sent := (s.pin.laneSent <<< (1 : Nat)) ||| (if cause then 1 else 0)
  ({ s with pin := { s.pin with lowSync := low, laneSent := sent } }).laneArrives

/-- A commanded drape begins or ends at its effective postmark (R28, R274, R285). -/
def State.commandDrape (s : State) (on : Bool) : State :=
  ({ s with pin := { s.pin with commanded := on } }).laneArrives

/-- DRAPE_N changes: the host sees it after its synchroniser, and without a clock it has no effect (R28, R38, R274). -/
def State.drapePin (s : State) (level : Bool) : State :=
  { s with pin := { s.pin with drapeN := level } }

/-- FIELD_DRAPE_N changes: it acts with and without a clock (R38). -/
def State.fieldDrapePin (s : State) (level : Bool) : State :=
  ({ s with pin := { s.pin with fieldDrapeN := level } }).syncDrape s.draped

/-- Eight drape symbols in a row were invalid (R274). -/
def State.drapeInvalid (s : State) : State :=
  let s1 := ({ s with pin := { s.pin with laneInvalid := true } }).inc FBA_STATUS_INVALID_DRAPE
  (((s1.syncDrape s.draped).raise .fgl 3).standing .fgl 3 true).raise .fba 3

/-- A valid drape symbol ends the run of invalid ones (R274). -/
def State.drapeValid (s : State) : State :=
  if s.pin.laneInvalid then
    (({ s with pin := { s.pin with laneInvalid := false } }).syncDrape s.draped).standing .fgl 3 false
  else s

/-! ### Halting an engine (R252, R257) -/

/-- The main routine is abandoned in this tick with these causes (Table 11-8a, row 0): its stencil is
restored in the next tick.  RESTARTS counts, and its 64th raises MINOR (R256). -/
def State.engMark (s : State) (e : Eng) (causes : BitVec 5) : State :=
  let x := s.eng e
  match x.main with
  | none => s
  | some c =>
    if c.committed || x.restoreAt.isSome then s
    else
      let b := engBase e
      let n := min (assocGet x.restarts c.routine 0 + 1) 255
      let s1 := s.setEng e { x with restoreAt := some (s.tm.tick + 1),
                                    main := some { c with waitFrom := none, reading := none },
                                    restarts := assocPut x.restarts c.routine n 0 }
      let s2 := (((s1.setFld (ENG_STATUS_STATE b) 4).inc (ENG_ABANDON_COUNT_TOTAL b)).setFld
        (ENG_ABANDON_COUNT_LAST_CAUSE b) causes.toNat).setFld (ENG_ABANDON_COUNT_LAST_ROUTINE b) c.routine
      let s3 := (s2.setFld (ENG_ROUTINE_ACTIVE_RESTARTS b) n).setBit (ENG_WAIT_COND_WAITING b) false
      if n = 64 then s3.raise (engBlk e) 3 else s3

/-- RUN becomes 0 (R257). -/
def State.engStop (s : State) (e : Eng) : State :=
  let b := engBase e
  let s1 := (s.setBit (ENG_CTRL_RUN b) false).engMark e 0
  if (s1.eng e).main.isNone then s1.setFld (ENG_STATUS_STATE b) 0 else s1

/-- RUN becomes 1; Brush ignores it in SAFE (R257). -/
def State.engStart (s : State) (e : Eng) : State :=
  if e == Eng.brush && s.bit FGL_STATUS_SAFE then s
  else
    let b := engBase e
    let s1 := s.setBit (ENG_CTRL_RUN b) true
    if s1.fld (ENG_STATUS_STATE b) = 0 then s1.setFld (ENG_STATUS_STATE b) 1 else s1

/-! ### Power: the choice (R362, R363) -/

/-- A state fits MAX_STATE and the readout and excitation budgets (R362). -/
def State.stateFits (s : State) (n : Nat) : Bool :=
  decide (n ≤ s.fld PWR_REQUEST_MAX_STATE) &&
    decide (s.wakeTime n ≤ s.fld PWR_BUDGET_READOUT_BUDGET) &&
    (decide (n < 3) || decide (s.wakeTime n ≤ s.fld PWR_BUDGET_EXCITATION_BUDGET))

/-- The HK budget admits DORMANT (R362, R363). -/
def State.hkFits (s : State) : Bool :=
  decide (ceil64 (s.fld HKS_REFBUF_WAIT * 1000) ≤ s.fld PWR_BUDGET_HK_BUDGET)

/-- The target that R362 chooses. -/
def State.pwrTarget (s : State) : Nat :=
  (List.range 4).foldl (fun m k =>
    if s.stateFits (k + 1) && (decide (k + 1 < 4) || s.hkFits) then k + 1 else m) 0

/-- A transition is a wake that has not completed (R362). -/
def State.waking (s : State) : Bool :=
  match s.pwr.run with
  | some r => r.wake
  | none => false

/-- The decision at a sheet boundary (R362, R364). -/
def State.powerDecide (s : State) : State :=
  if (s.glb ≠ 6 ∧ s.glb ≠ 7) ∨ s.bit PWR_STATE_SCHEDULED ∨ s.waking then s
  else
    let s0 := s.setBit PWR_STATE_REFBUF_HELD (s.stateFits 4 && !s.hkFits)
    let n := s0.pwrTarget
    if n = s0.fld PWR_STATE_STATE then s0
    else
      let s1 := (s0.setBit PWR_STATE_SCHEDULED true).setFld PWR_STATE_TARGET n
      let s2 := { s1 with pwr := { s1.pwr with atT := some (s1.tm.hpm + 2048), launched := false } }
      s2.request .courier 4 (BitVec.ofNat 24 (bitsOf s2.tm.hpm.toNat 29 6))

/-- The scheduled transition is dropped (R364). -/
def State.pwrDrop (s : State) : State :=
  ({ s with pwr := { s.pwr with atT := none, launched := false } }).setBit PWR_STATE_SCHEDULED false

/-- The answer of the field die to the power command (R364): QUEUED launches the host part. -/
def State.powerAnswer (s : State) (status : Nat) : State :=
  if !s.bit PWR_STATE_SCHEDULED then s
  else if status = 0 then { s with pwr := { s.pwr with launched := true } }
  else s.pwrDrop.setBit PWR_REQUEST_REJECT true

/-! ### Power: carrying out (R360, R361, R365, R366) -/

/-- A transition begins at T: SCHEDULED gives way to TRANSITION, which live reason 2 shows (R365). -/
def State.pwrBegin (s : State) (wake : Bool) : State :=
  let n := s.fld PWR_STATE_TARGET
  let from_ := s.fld PWR_STATE_STATE
  let w := s.wakeTime from_
  let s1 := s.pwrDrop
  let ramp := if from_ = 4 ∧ wake then s.tm.tick + ceil64 (s.fld HKS_REFBUF_WAIT * 1000 + 250000)
    else s.tm.tick
  let r : PwrRun := ⟨wake, from_, n, s.tm.tick, w, false, ramp, none, none, none⟩
  let s2 := { s1 with pwr := { s1.pwr with run := some r } }
  let t := s2.fld PWR_STATE_TRANSITIONS
  ((s2.setFld PWR_STATE_TRANSITIONS (t + 1)).setBit PWR_STATE_TRANSITION true).live 2

/-- A transition has completed (R361, R365): TRANSITION clears, and a wake that took longer than the W that
stood at T raises PWR source 0. -/
def State.pwrEnd (s : State) : State :=
  match s.pwr.run with
  | none => s
  | some r =>
    let s1 := ({ s with pwr := { s.pwr with run := none } }).setBit PWR_STATE_TRANSITION false
    if r.wake && !r.exempt && decide (r.start + r.predict < s.tm.tick) then s1.raise .pwr 0 else s1

/-- Entry into a deeper state at T (R361): PAUSE and DOZE are complete at once. -/
def State.powerEnter (s : State) : State :=
  let n := s.fld PWR_STATE_TARGET
  let s1 := ((s.pwrBegin false).setFld PWR_STATE_STATE n).calCut
  if n < 3 then s1.pwrEnd else { s1 with pwr := { s1.pwr with rest := true } }

/-- A wake at T (R360). -/
def State.powerWakes (s : State) : State :=
  let from_ := s.fld PWR_STATE_STATE
  let n := s.fld PWR_STATE_TARGET
  let s1 := s.pwrBegin true
  if from_ = 4 then s1.refWake
  else if from_ = 3 ∧ n < 3 then { s1 with pwr := { s1.pwr with rest := false } }
  else s1

/-- The scheduled transition reaches T (R360, R361): it begins if the host part is launched; a transition that
was never launched is given up as one that the field die did not queue (R364). -/
def State.powerAtT (s : State) : State :=
  if s.pwr.launched then
    (if s.fld PWR_STATE_STATE < s.fld PWR_STATE_TARGET then s.powerEnter else s.powerWakes)
  else s.pwrDrop.setBit PWR_REQUEST_REJECT true

/-- The rows have no step left (R89). -/
def State.rowsSteady (s : State) : Bool := s.rampStatus.toNat < 2 ^ 31

/-- Store the transition under way. -/
def State.setRun (s : State) (r : PwrRun) : State := { s with pwr := { s.pwr with run := some r } }

/-- The columns return and the wake's state is reached (R360). -/
def State.pwrReturn (s : State) (r : PwrRun) : State :=
  let s1 := s.setFld PWR_STATE_STATE r.target
  if 3 ≤ r.fromSt ∧ r.target < 3 then s1.loopStart else s1

/-- The first sheet boundary at or after a tick, as a tick. -/
def State.sheetTickAt (s : State) (t : Nat) : Nat :=
  let p := s.tm.fpm + BitVec.ofNat 48 (t - s.tm.tick)
  t + pmDist p (sheetAtOrAfter p)

/-- A wake in one tick (R360): the end of the ramp, the return and the end. -/
def State.wakeTick (s : State) (r : PwrRun) : State :=
  let t := s.tm.tick
  let lifts := decide (3 ≤ r.fromSt) && decide (r.target < 3)
  let s1 := if r.fromSt = 4 ∧ lifts = true ∧ t = r.ramp then { s with pwr := { s.pwr with rest := false } }
    else s
  let r1 := match r.last with
    | some _ => r
    | none =>
      if decide (r.ramp ≤ t) && isStroke s1.tm.fpm && (!lifts || s1.rowsSteady) then { r with last := some t }
      else r
  let r2 := match r1.back, r1.last with
    | some _, _ => r1
    | none, some e =>
      if r.fromSt ≤ 2 then
        let b := r.start + (if r.fromSt = 1 then 128 else 1024)
        { r1 with back := some b, done := some b }
      else if lifts then
        let b := s1.sheetTickAt (e + 50000)
        { r1 with back := some b, done := some (b + 64) }
      else { r1 with back := some e, done := some e }
    | none, none => r1
  let s2 := s1.setRun r2
  let s3 := if r2.back = some t then s2.pwrReturn r2 else s2
  if r2.done = some t then s3.pwrEnd else s3

/-- An entry into REST or DORMANT in one tick (R361). -/
def State.entryTick (s : State) (r : PwrRun) : State :=
  match r.last with
  | none =>
    if isStroke s.tm.fpm && s.rowsSteady then s.setRun { r with last := some s.tm.tick } else s
  | some e =>
    if isSheet s.tm.fpm && decide (e < s.tm.tick) then
      (if r.target = 4 then s.hkSleep else s).pwrEnd
    else s

/-- The transition under way in one tick, after the slew procedure. -/
def State.powerRunTick (s : State) : State :=
  let s1 := if s.pwr.hkWaits && isSheet s.tm.fpm &&
      (s.bit HKS_REFBUF_STATUS_READY || !s.bit HKS_REFBUF_EN) then s.hkWake else s
  match s1.pwr.run with
  | none => s1
  | some r => if r.wake then s1.wakeTick r else s1.entryTick r

/-- Power in one tick, after the slew procedure: a scheduled transition at T, then the one under way. -/
def State.powerTick (s : State) : State :=
  (if s.pwr.atT = some s.tm.hpm then s.powerAtT else s).powerRunTick

/-- SAFE, RETEST and reset end any transition; STATE reads 0 (R366). -/
def State.pwrOff (s : State) : State :=
  let s1 := ((s.pwrDrop.setBit PWR_STATE_TRANSITION false).setFld PWR_STATE_STATE 0).setFld
    PWR_STATE_TARGET 0
  let s2 := { s1 with pwr := { s1.pwr with run := none, rest := false, refOff := false, hkWaits := false },
                      hka := { s1.hka with off := false }, hkb := { s1.hkb with off := false } }
  s2.refUpdate

/-! ### SAFE (R331, R348) -/

/-- The device enters SAFE. -/
def State.safeEntry (s : State) (cause : Nat) : State :=
  if s.glb = 4 then s
  else
    let s1 := (s.setFld GLB_STATE_SAFE_CAUSE cause).setGlb 4
    let s2 := s1.pwrOff
    let s3 := if s2.pin.fieldPower then
      let a := (s2.setBit FGL_STATUS_SAFE true).engStop .brush
      { a with bru := { a.bru with pend := [] } }
    else s2
    ((s3.hkHalt .a).hkHalt .b).calCut

end Sys2Proof.Machine
end

