-- ==== Sys2Proof/Machine/Ports.lean ====
section
/-!
DEFINITION. Ports, schedule tables and epochs (chapter 13): the check of a table (R293), switches (R295),
lane failure, retirement and re-admission (R298, R299, R301), port settings (R304) and the epoch (R300).
-/
namespace Sys2Proof.Machine

/-! ### The check of a schedule table (R293) -/

/-- What the check of R293 looks at beside the table: the ports' roles and the failed ports. -/
structure PortView where
  roles  : List Nat
  failed : List Bool
deriving DecidableEq, Repr

/-- The ports as they stand. -/
def State.portView (s : State) : PortView :=
  ⟨(List.range 4).map (fun p => s.role p), (List.range 4).map (fun p => s.bit (LNK_PORT_STATUS_FAILED p))⟩

/-- A port is UP in a view. -/
def PortView.up (v : PortView) (p : Nat) : Bool := v.roles.getD p 0 == 0

/-- A PEER entry's source in a table: port and slot. -/
def State.peerSrc (s : State) (tab : Bool) (p k : Nat) : Nat × Nat :=
  (s.schedPort tab p k, s.schedSlot tab p k)

/-- The lowest item of R293 that an entry of an UP port breaks, 0 when none; later are the window positions
of the entries above it. -/
def State.entryBreaks (s : State) (v : PortView) (tab : Bool) (p k : Nat) (later : List (Nat × Nat)) : Nat :=
  let kind := s.schedKind tab p k
  let peer := kind == 7
  let src := s.peerSrc tab p k
  if (k = 0) ≠ (kind = 1) then 1
  else if 8 ≤ kind then 2
  else if peer && v.roles.getD src.1 0 != 1 then 3
  else if peer && later.any (fun x => v.up x.1 && s.schedKind tab x.1 x.2 == 7 &&
      s.peerSrc tab x.1 x.2 == src) then 4
  else if (1 < kind ∧ v.failed.getD p false = true) ∨ (peer = true ∧ v.failed.getD src.1 false = true) then 5
  else 0

/-- The window positions of a table in order. -/
def allEntries : List (Nat × Nat) :=
  (List.range 4).flatMap (fun p => (List.range 64).map (fun k => (p, k)))

/-- The first entry that breaks R293 and the item it breaks. -/
def State.checkFrom (s : State) (v : PortView) (tab : Bool) : List (Nat × Nat) → Option (Nat × Nat)
  | [] => none
  | (p, k) :: later =>
    let n := if v.up p then s.entryBreaks v tab p k later else 0
    if n ≠ 0 then some (64 * p + k, n) else s.checkFrom v tab later

/-- The check of a table with the ports in a view (R293). -/
def State.schedCheck (s : State) (v : PortView) (tab : Bool) : Option (Nat × Nat) :=
  s.checkFrom v tab allEntries

/-! ### Switches (R295, R299) -/

/-- The field notice of a switch: a WRITE of LNK_SCHED_SEL with the new ACTIVE bit (R295).  Its MASTER is
the barrier (DEDUCED: no master asked for it). -/
def State.schedNotice (s : State) (tab : Bool) (pm : PM) : State :=
  s.sendWrite .barrier 0 LNK_SCHED_SEL (BitVec.ofNat 32 (if tab then 2 ^ 24 else 0)) (some pm)

/-- A rejected submission (R295). -/
def State.schedReject (s : State) (m : Master) : State :=
  s.raiseWith .lnk 1 (writeRaise m LNK_SCHED_LAUNCH_HI)

/-- LNK_SCHED_LAUNCH_HI submits a switch (R295). -/
def State.schedSubmit (s : State) (m : Master) (hi : Word) : State :=
  let s1 := s.setReg LNK_SCHED_LAUNCH_HI (BitVec.ofNat 32 (hi.toNat % 65536))
  let pm : PM := BitVec.ofNat 48 (hi.toNat % 65536 * 2 ^ 32 + (s.reg LNK_SCHED_LAUNCH_LO).toNat)
  let tab := !s1.hostTab
  if s1.bit LNK_SCHED_SEL_PENDING then (s1.setBit LNK_SCHED_SEL_DOUBLE true).schedReject m
  else match s1.schedCheck s1.portView tab with
    | some (e, item) =>
      (((s1.setFld LNK_SCHED_SEL_LAST_STATUS 7).setFld LNK_SCHED_SEL_CHECK item).setFld
        LNK_SCHED_SEL_CHECK_ENTRY e).schedReject m
    | none =>
      let c0 := s1.launchCode .host pm 64
      let c := if c0 = 0 ∧ pmDist s1.tm.hpm pm < 64 then 1 else c0
      let s2 := s1.setFld LNK_SCHED_SEL_LAST_STATUS c
      if c = 0 then
        ((s2.enqueue .host ⟨pm, LNK_SCHED_LAUNCH_HI, hi, m, 0, .schedSwitch, 0⟩).setBit
          LNK_SCHED_SEL_PENDING true).schedNotice tab pm
      else (s2.launchRaise m LNK_SCHED_LAUNCH_HI c).schedReject m

/-- The host die changes tables (R295); auto is set by a switch after a lane failure (R299). -/
def State.hostSwitch (s : State) (auto : Bool) : State :=
  (((s.setBit LNK_SCHED_SEL_ACTIVE (!s.hostTab)).setBit LNK_SCHED_SEL_PENDING false).setBit
    LNK_SCHED_SEL_AUTO auto).setFld LNK_SCHED_SEL_SWITCHES (s.fld LNK_SCHED_SEL_SWITCHES + 1)

/-- The field die changes its copy of the event and trigger slots; pending parcels take the new slots (R184,
R299). -/
def State.fieldSwitch (s : State) (tab : Bool) : State :=
  ({ s with lnk := { s.lnk with fieldTab := tab } }).reassign

/-! ### Lane failure, retirement, re-admission (R298, R299, R301) -/

/-- A port lane fails in this tick (R298, R299). -/
def State.portFail (s : State) (p : Nat) : State :=
  if s.bit (LNK_PORT_STATUS_FAILED p) || s.role p == 2 then s
  else
    let s1 := s.setBit (LNK_PORT_STATUS_FAILED p) true
    let b := sheetAtOrAfter (s1.tm.hpm + 64)
    let auto := s1.bit LNK_CTRL_AUTO_SWITCH &&
      (s1.schedCheck s1.portView (!s1.hostTab)).isNone
    let r : RaiseInfo := { plainRaise .lnk with addr := p, correct := auto }
    let s2 := ((s1.raiseWith .lnk 0 r).standing .lnk 0 true).trigger .courier 3
    let s3 := { s2 with lnk := { s2.lnk with retire := s2.lnk.retire ++ [(p, b)] } }
    if auto && s3.lnk.autoAt != some b then
      let sw := fun (e : LEntry) => e.kind == LKind.schedSwitch
      let s4 := (s3.flushQueue .host sw).flushQueue .field sw
      ({ s4 with lnk := { s4.lnk with autoAt := some b } }).schedNotice (!s4.hostTab) b
    else s3

/-- An event that fails a lane in this tick, with the LOCK that the lane has after it (R298, Table 13-15).  On a
lane that has failed already only LOCK changes.  The parcel of the tick in which a transmitter loses lock does not
leave. -/
def State.portEvent (s : State) (p : Nat) (lock : Bool) : State :=
  if s.role p = 2 then s
  else
    let s1 := (s.portFail p).setBit (LNK_PORT_STATUS_LOCK p) lock
    if lock then s1
    else { s1 with lnk := { s1.lnk with out := assocErase s1.lnk.out p, line := assocErase s1.lnk.line p } }

/-- A failed lane is retired, and with a pending automatic switch the tables change (R299). -/
def State.portRetires (s : State) (p : Nat) : State :=
  let s1 := ({ s with lnk := { s.lnk with retire := s.lnk.retire.filter (fun x => x.1 != p) } }).setBit
    (LNK_PORT_STATUS_RETIRED p) true
  let s2 := s1.setFld (LNK_PORT_STATUS_RETIRED_EPOCH p) s1.bar.hostEpoch.toNat
  match s2.lnk.autoAt with
  | some b =>
    if b = s2.tm.hpm then
      (({ s2 with lnk := { s2.lnk with autoAt := none } }).hostSwitch true).ackMask .lnk 1
    else s2
  | none => s2

/-- READMIT at its sheet boundary (R301). -/
def State.portReadmit (s : State) (p : Nat) (launched : Bool) : State :=
  if s.bit (LNK_PORT_STATUS_LOCK p) then
    let was := s.laneDown p
    let s1 := (s.setBit (LNK_PORT_STATUS_FAILED p) false).setBit (LNK_PORT_STATUS_RETIRED p) false
    let s2 := { s1 with lnk := { s1.lnk with retire := s1.lnk.retire.filter (fun x => x.1 != p),
                                             badRun := assocErase s1.lnk.badRun p } }
    let any := (List.range 4).any (fun q => s2.bit (LNK_PORT_STATUS_FAILED q))
    (s2.standing .lnk 0 any).param launched was
  else s.setBit (LNK_PORT_CFG_REJECT p) true

/-! ### Port settings (R290, R304, R402) -/

/-- A change of ROLE passes R304: the active table holds only COVER and IDLE on the port, no PEER entry names
it, and the table passes R293 with the new role. -/
def State.roleOk (s : State) (p n : Nat) : Bool :=
  let tab := s.hostTab
  let v := s.portView
  (List.range 64).all (fun k => decide (s.schedKind tab p k ≤ 1)) &&
    allEntries.all (fun x => !(s.schedKind tab x.1 x.2 == 7 && s.schedPort tab x.1 x.2 == p)) &&
    (s.schedCheck { v with roles := v.roles.set p n } tab).isNone

/-- The fields ROLE, FWD and EXPECT_NODE at their sheet boundary (Table 13-14); free is for the loader, which
no restriction binds (R321). -/
def State.portFields (s : State) (p : Nat) (v : Word) (launched free : Bool) : State :=
  let w := v.toNat
  let role := bitsOf w 31 30
  if role = 3 then s.setBit (LNK_PORT_CFG_REJECT p) true
  else
    let s1 := s.setFld (LNK_PORT_CFG_FWD p) (max 1 (bitsOf w 25 24))
    let s2 := s1.setFld (LNK_PORT_CFG_EXPECT_NODE p) (bitsOf w 23 16)
    let s3 := if role = s.role p then s2
      else if free || s.roleOk p role then
        (s2.setFld (LNK_PORT_CFG_ROLE p) role).setBit (LNK_PORT_STATUS_LOCK p) (role == 0 && s.tm.clk)
      else s2.setBit (LNK_PORT_CFG_REJECT p) true
    s3.param launched (fldPut (LNK_PORT_CFG_REJECT p) (s3.reg (LNK_PORT_CFG p)) 0 !=
      fldPut (LNK_PORT_CFG_REJECT p) (s.reg (LNK_PORT_CFG p)) 0)

/-! ### Epochs (R280, R300) -/

/-- What follows a change of the host's epoch: ADVANCES counts, and the engines' EPOCH waits end. -/
def State.epochTo (s : State) (e : BitVec 2) : State :=
  ((s.setHostEpoch e).setFld LNK_EPOCH_ADVANCES (s.fld LNK_EPOCH_ADVANCES + 1)).note .courier 0x0D

/-- EPOCH_ADVANCE on the host die (R300, Table 11-12). -/
def State.epochNext (s : State) : State := (s.epochTo (s.bar.hostEpoch + 1)).trigger .courier 3

/-- The host die announces a coming epoch to the field die (R300). -/
def State.epochNotice (s : State) (e : Nat) (pm : PM) : State := s.sendCommand 2 e pm

/-- LNK_EPOCH with SET at its boundary (R300). -/
def State.epochSet (s : State) (e : BitVec 2) (launched : Bool) : State :=
  (s.epochTo e).param launched (s.bar.hostEpoch != e)

/-- A boundary of a PEER-IN receiver's lock (R290, Table 13-15). -/
def State.peerLock (s : State) (p : Nat) : State :=
  if s.role p = 1 then s.setBit (LNK_PORT_STATUS_LOCK p) true else s

/-- New eye figures of a receiver, 0 the downlink and 1 + p the PEER-IN port p (R303). -/
def State.eye (s : State) (rx : Nat) (width height : Nat) : State :=
  let i := if rx = 0 then LNK_DOWN_EYE else LNK_PORT_EYE (rx - 1)
  if rx ≠ 0 ∧ s.role (rx - 1) ≠ 1 then s
  else s.setReg i (BitVec.ofNat 32 (2 ^ 31 + width % 256 * 2 ^ 16 + height % 4096))

end Sys2Proof.Machine
end

