-- ==== Sys2Proof/Machine/Start.lean ====
section
/-!
DEFINITION. The flash (R316, R317), self-test findings (R329, R330, R336), isolation of units (R335, R347),
GLB_COMMAND (R333 to R335) and calibration slots (R227 to R230).
-/
namespace Sys2Proof.Machine

/-! ### The flash -/

/-- A byte of the flash; an unlisted one is erased. -/
def State.flashByte (s : State) (a : Nat) : Nat := (assocGet s.cfg.flash a 0xFF).toNat

/-- A multi-byte field of the flash, least significant byte first (R317). -/
def State.flashLe (s : State) (a : Nat) : Nat → Nat
  | 0 => 0
  | n + 1 => s.flashByte a + 256 * s.flashLe (a + 1) n

/-- The bytes of the flash from an address. -/
def State.flashBytes (s : State) (a n : Nat) : List Nat := (List.range n).map (fun i => s.flashByte (a + i))

/-- Cells for bytes from an address; an erased byte needs none. -/
def cellsAt : Nat → List Nat → List Host.Cell
  | _, [] => []
  | a, b :: bs =>
    if b % 256 = 255 then cellsAt (a + 1) bs else (a, BitVec.ofNat 8 b) :: cellsAt (a + 1) bs

/-- Replace the bytes of the flash from an address. -/
def State.flashPut (s : State) (a : Nat) (bs : List Nat) : State :=
  let f := s.cfg.flash
  let g := f.filter (fun e => decide (e.1 < a)) ++ cellsAt a bs ++
    f.filter (fun e => decide (a + bs.length ≤ e.1))
  { s with cfg := { s.cfg with flash := g } }

/-- Erase a range of the flash. -/
def State.flashErase (s : State) (a n : Nat) : State :=
  let g := s.cfg.flash.filter (fun e => decide (e.1 < a) || decide (a + n ≤ e.1))
  { s with cfg := { s.cfg with flash := g } }

/-- One bit of the reflected CRC-32 (R213). -/
def crc32Bit (c : Nat) : Nat := if c % 2 = 1 then (c / 2) ^^^ 0xEDB88320 else c / 2

/-- One byte of the CRC-32. -/
def crc32Byte (c b : Nat) : Nat :=
  (List.range 8).foldl (fun x _ => crc32Bit x) (c ^^^ (b % 256))

/-- The CRC-32 of a list of bytes (R213). -/
def crc32 (bs : List Nat) : Nat := bs.foldl crc32Byte 0xFFFFFFFF ^^^ 0xFFFFFFFF

/-- A number as n bytes, least significant first. -/
def leBytes : Nat → Nat → List Nat
  | 0, _ => []
  | n + 1, x => x % 256 :: leBytes n (x / 256)

/-- First address of a calibration slot, 1 for A and 2 for B (Table 15-1). -/
def slotBase (n : Nat) : Nat := if n = 2 then 0x410000 else 0x400000

/-- A range of the flash meets the active slot. -/
def State.meetsSlot (s : State) (a n : Nat) : Bool :=
  let k := s.fld GLB_CAL_SLOT_ACTIVE
  k != 0 && decide (a < slotBase k + 0x10000) && decide (slotBase k < a + n)

/-- An erase is refused (Table 15-18). -/
def State.eraseRefused (s : State) : State := (s.setBit CFG_FLASH_STATUS_REJECT true).raise .cfg 2

/-- A flash operation starts: 1 and 2 erase, 3 reads the identifier (R317, Table 15-18). -/
def State.flashStart (s : State) (op addr : Nat) : State :=
  let n := if op = 1 then 0x1000 else 0x10000
  let a := addr / n * n
  if op = 0 ∨ 3 < op then s
  else if op ≠ 3 ∧ (s.glb = 2 ∨ s.cfg.store.isSome ∨ s.cfg.flashOp.isSome ∨ s.meetsSlot a n) then
    s.eraseRefused
  else if s.cfg.flashOp.isSome then s
  else ({ s with cfg := { s.cfg with flashOp := some ⟨op, addr⟩ } }).setBit CFG_FLASH_STATUS_BUSY true

/-- A slot store fails at a step (R229). -/
def State.storeFail (s : State) (step : Nat) : State :=
  let s1 := { s with cfg := { s.cfg with store := none } }
  ((((s1.setBit CFG_STORE_STATUS_BUSY false).setBit CFG_STORE_STATUS_FAIL true).setFld
    CFG_STORE_STATUS_STEP step).inc CFG_STORE_STATUS_FAILS).raise .cfg 3

/-- The flash reports (R317): an operation ends, or the erase of a slot store fails. -/
def State.flashEnd (s : State) (ok : Bool) (jedec : W24) : State :=
  match s.cfg.flashOp with
  | none => if s.cfg.store.isSome && !ok then (s.storeFail 2).raise .cfg 1 else s
  | some o =>
    let s1 := (({ s with cfg := { s.cfg with flashOp := none } }).setBit CFG_FLASH_STATUS_BUSY false).note
      .courier 0x0C
    if !ok then (s1.setBit CFG_FLASH_STATUS_ERROR true).raise .cfg 1
    else if o.op = 1 then s1.flashErase (o.addr / 0x1000 * 0x1000) 0x1000
    else if o.op = 2 then s1.flashErase (o.addr / 0x10000 * 0x10000) 0x10000
    else s1.setFld CFG_FLASH_STATUS_JEDEC_ID jedec.toNat

/-! ### Findings (R329, R330, R336) -/

/-- The FAILED bit of a test code (Table 15-14). -/
def failBit (code : Nat) : Nat := if code < 0x10 then code else 8 + (code - 0x10)

/-- Put a finding in the host's list of 32 (R330, R336); failing is false for a lane that training could do
without (R264) and for a bad copy of the factory record where the other is in use (R213). -/
def State.addFinding (s : State) (f : Finding) (failing : Bool) : State :=
  let n := s.fld GLB_BIST_RESULT_COUNT
  let s1 := if n < 32 then
      (((s.setWinN .glb (2 * n) (f.test.toNat * 65536 + f.unit.toNat * 256)).setWinN .glb (2 * n + 1)
        f.detail.toNat).setFld GLB_BIST_RESULT_COUNT (n + 1))
    else s
  let s2 := if failing && s.fld GLB_BIST_DETAIL_FIRST == 0 then
      s1.setFld GLB_BIST_DETAIL_FIRST (f.test.toNat * 2 ^ 24 + f.unit.toNat * 65536 + f.detail.toNat)
    else s1
  let bits := s2.fld GLB_BIST_RESULT_FAILED
  if failing then s2.setFld GLB_BIST_RESULT_FAILED (bits ||| 2 ^ failBit f.test.toNat) else s2

/-- The findings of the host's list as test code and UNIT. -/
def State.findings (s : State) : List (Nat × Nat) :=
  (List.range (s.fld GLB_BIST_RESULT_COUNT)).map (fun i =>
    (bitsOf (s.winN .glb (2 * i)) 23 16, bitsOf (s.winN .glb (2 * i)) 15 8))

/-- The isolation code of a finding's unit: drivers and front ends as in Table 12-4, ports from 0x100, the HK
converters 0xD0 and 0xD1, the excitation 0xD2 and the calibration driver 0xD3. -/
def findingUnit (code u : Nat) : Option Nat :=
  match code with
  | 0x04 => some (0x100 + u)
  | 0x12 | 0x13 | 0x14 | 0x16 => some u
  | 0x18 => some 0xD2
  | 0x1A => some 0xD3
  | _ => none

/-- A unit that the image's maps name, or a port whose role is not OFF (R335). -/
def State.unitNamed (s : State) (u : Nat) : Bool :=
  if 0x100 ≤ u then s.role (u - 0x100) != 2
  else if u = 0xD0 ∨ u = 0xD1 ∨ u = 0xD2 ∨ u = 0xD3 then true
  else s.cfg.named.contains u

/-- A finding permits START_DEGRADED (R335). -/
def State.findingEligible (s : State) (code u : Nat) : Bool :=
  if code = 0x06 then s.bit BAR_STATUS_TRAINED
  else match findingUnit code u with
    | some x => !s.unitNamed x || s.cfg.optional.contains x
    | none => false

/-- ELIGIBLE (Table 15-14). -/
def State.eligible (s : State) : State :=
  s.setBit GLB_BIST_RESULT_ELIGIBLE (s.findings.all (fun f => s.findingEligible f.1 f.2))

/-- Clear the results of the last start-up (R336, Table 15-14). -/
def State.clearFindings (s : State) : State :=
  forEach (List.range 64) (fun t a => t.setWinN .glb a 0)
    ((s.setReg GLB_BIST_RESULT 0).setReg GLB_BIST_DETAIL 0)

/-- A step of start-up begins. -/
def State.setPhase (s : State) (p : Phase) : State :=
  { s with cfg := { s.cfg with phase := p } }

/-- A step of start-up failed a test (R329): SAFE follows in the next tick. -/
def State.stepFailed (s : State) (cause : Nat) : State :=
  let s1 := { s with cfg := { s.cfg with failedAt := s.cfg.phase, phase := .none },
                     flt := { s.flt with safeDue := some cause } }
  (s1.setBit GLB_BIST_RESULT_DONE true).eligible

/-! ### Isolation (R335, R347) -/

/-- A unit is isolated (R335, R347): pins high-impedance, ROLE 4, ROLE OFF with FAILED, RUN or EN held at 0. -/
def State.isolate (s : State) (u : Nat) : State :=
  let s1 := if s.flt.iso.contains u then s
    else { s with flt := { s.flt with iso := s.flt.iso ++ [u] } }
  if 0x100 ≤ u then
    ((s1.setFld (LNK_PORT_CFG_ROLE (u - 0x100)) 2).setBit (LNK_PORT_STATUS_FAILED (u - 0x100)) true).setBit
      (LNK_PORT_STATUS_LOCK (u - 0x100)) false
  else if u = 0xD0 then ((s1.setBit (HKx_CTRL_RUN 0x1700) false).hkRestartAt .a 7)
  else if u = 0xD1 then ((s1.setBit (HKx_CTRL_RUN 0x1800) false).hkRestartAt .b 7)
  else if u = 0xD2 then ((s1.setBit HKS_EXC_CTRL_EN false).excPins .a).excPins .b
  else if u = 0xD3 then (s1.setBit CAL_CTRL_EN false).calCut
  else if 0x40 ≤ u then
    let x := s1.drv (u - 0x40)
    s1.setDrv (u - 0x40) { x with a := 0, c := 0, hist := x.hist ||| 1 }
  else
    forEach ((List.range 32).filter (fun c => s1.colFe c == u)) (fun t c =>
      t.setReg COL_ENABLE (BitVec.ofNat 32 ((t.reg COL_ENABLE).toNat &&& (0xFFFFFFFF - 2 ^ c)))) s1

/-- Enable bits that COL_ENABLE may hold: a column whose front end is isolated stays disabled (R335). -/
def State.enableMask (s : State) : Nat :=
  (List.range 32).foldl (fun m c => if s.flt.iso.contains (s.colFe c) then m else m + 2 ^ c) 0

/-! ### GLB_COMMAND (R333 to R335) -/

/-! ### What RETEST resets (R373) -/

/-- A field of a register that RETEST keeps, as a mask of the bits kept, for host registers outside the fault
groups (Table 18-18).  BAR_STATUS keeps how the barrier stands, BAR_LANE_STATUS and BAR_LANE_MAP keep the lanes
until the training that follows, and LNK_DOWN_STATUS the lock that still holds (DEDUCED: R334 has the field
registers reachable until then). -/
def keptBits (i : Nat) : Nat :=
  if 0x100 ≤ i ∧ i < 0x200 then 2 ^ 32 - 1
  else if 0x400 ≤ i ∧ i < 0x500 then 2 ^ 32 - 1
  else match i with
    | 0x0005 | 0x000B | 0x000C | 0x0201 | 0x0202 | 0x0301 | 0x0313 => 2 ^ 32 - 1
    | 0x0200 => (fldMask BAR_STATUS_TRAINED ||| fldMask BAR_STATUS_TRAINING ||| fldMask BAR_STATUS_DEGRADED).toNat
    | 0x0507 => (fldMask CFG_STORE_STATUS_STORES ||| fldMask CFG_STORE_STATUS_FAILS).toNat
    | _ => 0

/-- A word that keeps some bits and has the others at their reset value. -/
def keepBits (i k : Nat) (w : Word) : Word :=
  BitVec.ofNat 32 ((w.toNat &&& k) + ((regReset i).toNat - ((regReset i).toNat &&& k)))

/-- Host registers after RETEST (Table 18-18): in a fault group LATCH, the first-error record, FLT_COUNT and
FLT_RECOVERIES stay. -/
def State.retestRegs (s : State) : State :=
  let keep := fun (i : Nat) =>
    if 0x1000 ≤ i then 2 ^ 32 - 1
    else if 0xF1 ≤ i % 0x100 ∧ i % 0x100 ≤ 0xF6 ∨ i % 0x100 = 0xF9 then 2 ^ 32 - 1
    else if 0xF0 ≤ i % 0x100 then 0
    else keptBits i
  forEach (s.regs.map (fun e => e.1)) (fun t i => t.setReg i (keepBits i (keep i) (t.reg i))) s

/-- Fault sources after RETEST (Table 18-18): LEVEL, CNT and the quiet counts clear, ACTIVE clears, a continuous
injection ends; the policies of the host's groups return to their defaults. -/
def State.retestFaults (s : State) : State :=
  let f := fun (b : Blk) (t : State) (i : Nat) =>
    let x := t.src b i
    t.setSrc b i { x with level := 0, cnt := 0, quiet := 0, noisy := false,
                          holds := if blkIsHost b then false else x.holds,
                          pol := if blkIsHost b then defPolicy b i else x.pol }
  forEach (hostBlks ++ fieldBlks) (fun t b =>
    let t1 := forEach (List.range 16) (f b) t
    let t2 := t1.setFld (FLT_STATUS_ACTIVE (blkBase b)) 0
    if t2.bit (FLT_INJECT_MODE (blkBase b)) then t2.setBit (FLT_INJECT_ARMED (blkBase b)) false else t2) s

/-- Field registers outside the fault groups return to their reset values when retraining begins (R373). -/
def State.fieldRegsReset (s : State) : State :=
  { s with regs := s.regs.filter (fun e => decide (e.1 < 0x1000) || decide (0xF0 ≤ e.1 % 0x100)) }

/-- UP ports transmit in every state that has a tick clock: LOCK reads 1 (R290, Table 13-15). -/
def State.upLocks (s : State) : State :=
  forEach (List.range 4) (fun t p => if t.role p == 0 then t.setBit (LNK_PORT_STATUS_LOCK p) true else t) s

/-- RETEST (R334, R373): engines halt, queues flush, the window closes, outputs clamp, registers return to reset
values, start-up runs again. -/
def State.retest (s : State) : State :=
  let s1 := ((s.engStop .courier).engStop .brush).flushAll
  let s2 := match s1.gap with
    | some w => if w.isOpen then s1.gapCloses (sheetOf s1.tm.hpm) else { s1 with gap := none }
    | none => s1
  let s3 := ((((s2.hkRestartAt .a 7).hkRestartAt .b 7).calCut).calDiscard).varDefault
  let s4 := { s3 with pal := { s3.pal with clamps := true, copyPos := none },
                      nul := { s3.nul with started := false, reprime := false },
                      hka := { s3.hka with halted := false }, hkb := { s3.hkb with halted := false },
                      lnk := { s3.lnk with retire := [], autoAt := none, badRun := [], scBusy := [] },
                      cou := { s3.cou with pend := [], owed := [], causes := 0, restarts := [] },
                      bru := { s3.bru with pend := [], owed := [], causes := 0, restarts := [] },
                      cfg := { s3.cfg with store := none, held := false, flashOp := none } }
  let s5 := ((s4.pwrOff.setBit FGL_STATUS_LOADED false).setBit FGL_STATUS_SAFE false).setFld
    GLB_STATE_SAFE_CAUSE 0
  ((((s5.retestRegs).retestFaults).upLocks).setGlb 2).setPhase .check

/-- The step of Table 15-9 after a failed one (R335). -/
def nextPhase : Phase → Phase
  | .hostTest => .training
  | .training => .fieldTest
  | _ => .load

/-- The units that a degraded start isolates (R335). -/
def State.failedUnits (s : State) : List Nat :=
  (s.findings.filterMap (fun f => findingUnit f.1 f.2)).eraseDups

/-- START_DEGRADED is eligible, and the active table passes R293 with the failed ports counted (R335). -/
def State.mayDegrade (s : State) : Bool :=
  let v := s.portView
  let bad := s.failedUnits
  s.bit GLB_BIST_RESULT_ELIGIBLE &&
    (s.schedCheck { v with failed := (List.range 4).map (fun p =>
      v.failed.getD p false || bad.contains (0x100 + p)) } s.hostTab).isNone

/-- START_DEGRADED (R335): the failed units are isolated and start-up resumes after the failed test. -/
def State.startDegraded (s : State) : State :=
  let s1 := forEach s.failedUnits (fun t u => t.isolate u) s
  let p := nextPhase s1.cfg.failedAt
  let s2 := ((s1.setBit GLB_BIST_RESULT_DEGRADED true).setBit GLB_STATE_DEGRADED true).setFld
    GLB_STATE_SAFE_CAUSE 0
  let s3 := { s2 with hka := { s2.hka with halted := false }, hkb := { s2.hkb with halted := false } }
  let s4 := (s3.setBit FGL_STATUS_SAFE false).setGlb (if p == Phase.load then 5 else 3)
  let s5 := s4.setPhase p
  if p == Phase.training && s5.bar.trainStart.isNone then s5.trainBegin 1
  else if p == Phase.load then s5.engStart .brush
  else s5

/-- ENTER_SAFE (R331). -/
def State.enterSafe (s : State) : State := (s.safeEntry 6).raise .glb 1

/-- The result of a GLB_COMMAND with the right key, judged at its boundary (R333): 1 accepted, 2 wrong state,
3 not eligible. -/
def State.commandStatus (s : State) (cmd : Nat) : Nat :=
  let g := s.glb
  if cmd = 1 then (if g = 4 ∨ g = 6 ∨ g = 7 then 1 else 2)
  else if cmd = 3 then (if g = 6 ∨ g = 7 then 1 else 2)
  else if cmd = 2 then
    (if g = 4 ∧ (s.fld GLB_STATE_SAFE_CAUSE = 2 ∨ s.fld GLB_STATE_SAFE_CAUSE = 3 ∨
        s.fld GLB_STATE_SAFE_CAUSE = 4 ∨ s.fld GLB_STATE_SAFE_CAUSE = 1) then
      (if s.mayDegrade then 1 else 3) else 2)
  else 2

/-- A GLB_COMMAND takes effect (R333, Table 15-11). -/
def State.glbCommand (s : State) (cmd : Nat) : State :=
  let st := s.commandStatus cmd
  let s1 := (s.setFld GLB_COMMAND_LAST cmd).setFld GLB_COMMAND_STATUS st
  if st ≠ 1 then s1
  else if cmd = 1 then s1.retest
  else if cmd = 2 then s1.startDegraded
  else s1.enterSafe

/-- A GLB_COMMAND write with a wrong key (R333). -/
def State.badKey (s : State) : State := s.setFld GLB_COMMAND_STATUS 4

/-! ### Calibration slots (R227 to R230) -/

/-- The bytes of a window word. -/
def State.wordBytes (s : State) (b : Blk) (a : Nat) : List Nat := leBytes 3 (s.winN b a)

/-- The HK factors of both converters as bytes (Table 10-5). -/
def State.factorBytes (s : State) : List Nat :=
  [0x1700, 0x1800].flatMap (fun b =>
    ((List.range 8).flatMap (fun g => leBytes 3 (s.reg (b + 0x20 + g)).toNat)) ++
      (List.range 8).flatMap (fun g => leBytes 3 (s.reg (b + 0x28 + g)).toNat))

/-- Front end and range code pairs with a MEASURED bit (R228). -/
def State.measured (s : State) : List (Nat × Nat) :=
  ((List.range 34).flatMap (fun f => (List.range 8).map (fun g => (f, g)))).filter (fun x =>
    bitsOf (s.winN .cal (32 * x.1 + 4 * x.2)) 23 22 != 0)

/-- CAL_LAST_POSTMARK bits [47:0]. -/
def State.lastCal (s : State) : Nat :=
  (s.reg CAL_LAST_POSTMARK_LO).toNat + (s.reg CAL_LAST_POSTMARK_HI).toNat % 65536 * 2 ^ 32

/-- The rank of a pair in R228: in use first, then the smaller age, then f, then g. -/
def State.slotRank (s : State) (x : Nat × Nat) : Nat :=
  let l := bitsOf s.lastCal 29 6
  let age := (l + 2 ^ 24 - s.winN .cal (32 * x.1 + 4 * x.2 + 3)) % 2 ^ 24
  (if s.trimInUse x.1 x.2 then 0 else 2 ^ 40) + age * 2 ^ 10 + x.1 * 8 + x.2

/-- The pairs that a store keeps, at most 96 (R228). -/
def State.slotPairs (s : State) : List (Nat × Nat) :=
  let xs := s.measured
  if xs.length ≤ 96 then xs
  else xs.filter (fun x => decide ((xs.filter (fun y => decide (s.slotRank y < s.slotRank x))).length < 96))

/-- A record of Table 10-6 as bytes. -/
def State.slotRecord (s : State) (x : Nat × Nat) : List Nat :=
  let f := x.1
  let g := x.2
  let q := 32 * f + 4 * g
  let head := f * 2 ^ 18 + g * 2 ^ 15 + bitsOf (s.winN .cal q) 23 22 * 2 ^ 13
  leBytes 3 head ++ s.wordBytes .col (0x200 + 16 * f + 2 * g) ++ s.wordBytes .col (0x201 + 16 * f + 2 * g) ++
    (List.range 3).flatMap (fun n => s.wordBytes .nul (rhoAddr f g n)) ++
    (List.range 128).flatMap (fun k => s.wordBytes .nul (rotAddr f g 0 + k)) ++
    (List.range 4).flatMap (fun k => s.wordBytes .cal (q + k))

/-- The identifier of R4. -/
def State.uniqueId (s : State) : Nat :=
  (s.reg 0x0009).toNat + (s.reg 0x000A).toNat * 2 ^ 32

/-- A slot's bytes up to its CRC-32 (Table 10-5). -/
def State.slotBody (s : State) (seq : Nat) : List Nat :=
  let ps := s.slotPairs
  [0x4E, 0x57, 0x4B, 0x43] ++ leBytes 2 1 ++ leBytes 2 ps.length ++ leBytes 4 seq ++ leBytes 8 s.uniqueId ++
    leBytes 4 s.cfg.loopCrc ++ leBytes 4 (s.lastCal % 2 ^ 32) ++ leBytes 4 0 ++ s.factorBytes ++
    (List.range 4096).flatMap (fun k => s.wordBytes .nul (0x1000 + k)) ++
    ps.flatMap (fun x => s.slotRecord x)

/-- A slot passes R230. -/
def State.slotValid (s : State) (n : Nat) : Bool :=
  let b := slotBase n
  let k := s.flashLe (b + 6) 2
  s.flashLe b 4 == 0x434B574E && s.flashLe (b + 4) 2 == 1 && decide (k ≤ 96) &&
    s.flashLe (b + 12) 8 == s.uniqueId && s.flashLe (b + 0xFFFC) 4 == 0x5EA1C0DE &&
    crc32 (s.flashBytes b (0x3080 + 414 * k)) == s.flashLe (b + 0x3080 + 414 * k) 4

/-- A slot's sequence number. -/
def State.slotSeq (s : State) (n : Nat) : Nat := s.flashLe (slotBase n + 8) 4

/-- The slot that R230 uses, 0 when none is valid. -/
def State.slotChoice (s : State) : Nat :=
  let a := s.slotValid 1
  let b := s.slotValid 2
  if a && b then
    (let d := (s.slotSeq 2 + 2 ^ 32 - s.slotSeq 1) % 2 ^ 32
     if d ≠ 0 ∧ d < 2 ^ 31 then 2 else 1)
  else if a then 1 else if b then 2 else 0

/-- CFG_SLOT_A_INFO and CFG_SLOT_B_INFO (Table 15-19). -/
def State.slotInfo (s : State) : State :=
  let act := s.fld GLB_CAL_SLOT_ACTIVE
  forEach [1, 2] (fun t n =>
    let b := slotBase n
    let w := (if t.slotValid n then 2 ^ 31 else 0) + (if act = n then 2 ^ 30 else 0)
      + (if t.flashLe (b + 0xFFFC) 4 = 0x5EA1C0DE then 2 ^ 29 else 0)
      + (if t.flashLe (b + 0x14) 4 = t.cfg.loopCrc then 2 ^ 28 else 0) + t.slotSeq n % 2 ^ 24
    t.setReg (if n = 1 then CFG_SLOT_A_INFO else CFG_SLOT_B_INFO) (BitVec.ofNat 32 w)) s

/-- A store begins (R229): a CAPTURE where one can be made. -/
def State.storeBegin (s : State) : State :=
  let s1 := s.setBit CFG_STORE_STATUS_BUSY true
  let can := s1.bit (ENG_CTRL_RUN 0x1B00) && s1.barUp
  let s2 := if can then s1.captureReq .brush true else s1
  let got := can && s2.nul.capture.isSome && s1.nul.capture.isNone
  { s2 with cfg := { s2.cfg with store := some ⟨got, !got⟩ } }

/-- A request for a store (R229): one made during a store is held. -/
def State.storeRequest (s : State) : State :=
  if s.cfg.store.isSome then
    ({ s with cfg := { s.cfg with held := true } }).setBit CFG_STORE_STATUS_HELD true
  else (s.request .courier 5 0).storeBegin

/-- Steps 2 to 5 of a store (R229): the inactive slot takes the tables and becomes active; a held request
follows. -/
def State.storeEnd (s : State) (kept : Bool) : State :=
  let act := s.fld GLB_CAL_SLOT_ACTIVE
  let n := if act = 1 then 2 else 1
  let seq := if act = 0 then 1 else (s.slotSeq act + 1) % 2 ^ 32
  let body := s.slotBody seq
  let b := slotBase n
  let s1 := ((s.flashErase b 0x10000).flashPut b (body ++ leBytes 4 (crc32 body))).flashPut (b + 0xFFFC)
    (leBytes 4 0x5EA1C0DE)
  let s2 := (s1.setFld GLB_CAL_SLOT_ACTIVE n).slotInfo
  let s3 := (((s2.setBit CFG_STORE_STATUS_BUSY false).setFld CFG_STORE_STATUS_TARGET n).inc
    CFG_STORE_STATUS_STORES).setBit CFG_STORE_STATUS_PRIMER_KEPT kept
  let s4 := { s3 with cfg := { s3.cfg with store := none, held := false } }
  if s.cfg.held then (s4.setBit CFG_STORE_STATUS_HELD false).storeBegin else s4

/-- A store in one tick: it goes on when its CAPTURE has ended. -/
def State.storeTick (s : State) : State :=
  match s.cfg.store with
  | none => s
  | some x => if x.capture && s.bit NUL_PRIMER_CTRL_CAPTURE_BUSY then s else s.storeEnd x.kept

/-- CFG_STORE_CMD.DISCARD (R229, Table 15-20). -/
def State.slotDiscard (s : State) : State :=
  if s.glb = 4 ∨ s.glb = 6 then
    (((s.flashErase (slotBase 1) 0x10000).flashErase (slotBase 2) 0x10000).setFld GLB_CAL_SLOT_ACTIVE
      0).slotInfo
  else s

end Sys2Proof.Machine
end

