-- ==== Sys2Proof/Machine/Write.lean ====
section
/-!
DEFINITION. Writing registers and window words (R12, R13, R48, R371, R372, R402): what each write does, in
whole or split into the part that acts on arrival and the part that waits for its boundary.
-/
namespace Sys2Proof.Machine

/-- How much of a write acts now: on arrival everything that waits for no boundary, at the boundary the rest,
or all of it (R402). -/
structure WPart where
  now   : Bool
  later : Bool
deriving DecidableEq, Repr

/-! ### Plain fields (R13) -/

/-- The writable bits of a register, by access code. -/
def maskOf (i : Nat) (f : RegRow → Nat) : Nat :=
  match regRow i with
  | some r => f r
  | none => 0

/-- W1C bits written as 1 clear (R13). -/
def State.storeW1c (s : State) (i : Nat) (v : Word) : State :=
  let old := (s.reg i).toNat
  s.setReg i (BitVec.ofNat 32 (old - (old &&& (v.toNat &&& maskOf i (fun r => r.w1c)))))

/-- RW bits take their values (R13). -/
def State.storeRw (s : State) (i : Nat) (v : Word) : State :=
  let old := (s.reg i).toNat
  let k := maskOf i (fun r => r.rw)
  s.setReg i (BitVec.ofNat 32 (old - (old &&& k) + (v.toNat &&& k)))

/-- A field held between two limits within a word. -/
def limited (f : Fld) (lo hi : Nat) (v : Word) : Word := fldPut f v (max lo (min hi (fldGet f v)))

/-- The value that a write stores where the field map limits it (Tables 02-8, 04-7, 04-8, 06-9, 07-9, 08-9a,
08-10b, 09-10, 10-8, 14-6, 17-7). -/
def storedValue (i : Nat) (v : Word) : Word :=
  match i with
  | 0x0105 => limited TIM_FIXED_LATENCY_LATENCY 48 4095 v
  | 0x0401 => limited MGT_CTRL_NOCLK_CYCLES 8 255 v
  | 0x0706 => limited PWR_REQUEST_MAX_STATE 0 4 v
  | 0x1104 => limited EXC_SLEW_STEP 1 4095 v
  | 0x1106 => limited EXC_REST_CODE_FRACTION 0 128 v
  | 0x1302 => limited NUL_LIMIT_LIMIT 1 0x7FFFFF v
  | 0x1402 => limited VAR_T_CADENCE_EXP 12 40 v
  | 0x1602 => limited EVT_LENGTH_LENGTH 1 16 v
  | 0x1603 => limited EVT_ANSWER_LATENCY_LATENCY 40 300 v
  | 0x1702 => limited (HKx_SEQ_LENGTH_LENGTH 0x1700) 1 16 v
  | 0x1802 => limited (HKx_SEQ_LENGTH_LENGTH 0x1800) 1 16 v
  | 0x1A00 => limited CAL_CTRL_K_CAL 4 112 (limited CAL_CTRL_DELTA 0 12 v)
  | _ => v

/-- A write with no more to it than its fields; param is set for a run-time parameter (R8). -/
def State.plainWrite (s : State) (i : Nat) (v : Word) (w : Writer) (k : WPart) (isParam : Bool) : State :=
  let s1 := if k.now then s.storeW1c i v else s
  if k.later then
    let s2 := s1.storeRw i (storedValue i v)
    if isParam then s2.param w.launched (s2.reg i != s1.reg i) else s2
  else s1

/-! ### Host blocks -/

/-- GLB writes (Tables 15-13, 15-16, R333). -/
def State.glbWrite (s : State) (i : Nat) (v : Word) (w : Writer) (k : WPart) : State :=
  if i = GLB_COMMAND then
    let good := v.toNat / 2 ^ 24 == 0xC5
    if !good then (if k.now then s.badKey else s)
    else if k.later then s.glbCommand (v.toNat % 16) else s
  else s.plainWrite i v w k false

/-- TIM_LAUNCH_ACTION (Table 02-10, R50, R52). -/
def State.launchAction (s : State) (v : Word) : State :=
  let s1 := s.storeRw TIM_LAUNCH_ACTION v
  if bitOf v.toNat 2 then s1.flushArmed else s1

/-- BAR_TRAIN.RETRAIN (R266). -/
def State.retrain (s : State) : State :=
  if s.glb = 6 ∨ s.glb = 4 then s.trainBegin 1 else s.setBit BAR_TRAIN_REJECT true

/-- BAR writes (Tables 12-7 to 12-10). -/
def State.barWrite (s : State) (i : Nat) (v : Word) (w : Writer) (k : WPart) : State :=
  let s1 := s.plainWrite i v w k false
  if i = BAR_TRAIN ∧ bitOf v.toNat 31 = true ∧ k.now = true then s1.retrain else s1

/-- LNK writes (Table 13-10). -/
def State.lnkWrite (s : State) (i : Nat) (v : Word) (w : Writer) (k : WPart) : State :=
  if 0x304 ≤ i ∧ i < 0x308 then
    let p := i - 0x304
    let s1 := if k.now then
        (let a := s.storeW1c i v
         if bitOf v.toNat 29 then a.portFail p else a)
      else s
    if k.later then
      (let a := s1.portFields p v w.launched (w.m == Master.loader)
       if bitOf v.toNat 28 then a.portReadmit p w.launched else a)
    else s1
  else if i = LNK_EPOCH then
    if bitOf v.toNat 31 then
      (if k.later then s.epochSet (BitVec.ofNat 2 v.toNat) w.launched
       else s.epochNotice (v.toNat % 4) (sheetAtOrAfter (s.tm.hpm + 64)))
    else s
  else if i = LNK_SCHED_LAUNCH_HI then (if k.now then s.schedSubmit w.m v else s)
  else s.plainWrite i v w k (i == LNK_CTRL)

/-- CFG writes (Tables 15-18, 15-20). -/
def State.cfgWrite (s : State) (i : Nat) (v : Word) (w : Writer) (k : WPart) : State :=
  let s1 := s.plainWrite i v w k false
  let b := v.toNat
  if !k.now then s1
  else if i = CFG_FLASH_CTRL then
    (if bitOf b 31 then s1.flashStart (bitsOf b 30 28) (b % 2 ^ 24) else s1)
  else if i = CFG_STORE_CMD then
    (let s2 := if bitOf b 30 then s1.slotDiscard else s1
     if bitOf b 31 then s2.storeRequest else s2)
  else s1

/-- PWR writes (Table 17-4, R368): a budget from 1 to 127 raises PWR source 2. -/
def State.pwrWrite (s : State) (i : Nat) (v : Word) (w : Writer) (k : WPart) : State :=
  let s1 := s.plainWrite i v w k true
  let b := v.toNat % 2 ^ 28
  if i < 0x704 ∧ k.later = true ∧ 0 < b ∧ b < 128 then s1.raiseWith .pwr 2 (writeRaise w.m i) else s1

/-! ### Engines -/

/-- _CTRL (Table 11-13, R257).  A halted Courier is a standing SEVERE fault while the clock runs (R355). -/
def State.engCtrl (s : State) (e : Eng) (v : Word) : State :=
  let b := engBase e
  let x := s.eng e
  let s1 := s.setEng e { x with
    stepReq := x.stepReq || (x.broken && (bitOf v.toNat 2 || bitOf v.toNat 3)),
    broken := x.broken && !bitOf v.toNat 3 }
  let run := bitOf v.toNat 0
  if run == s1.bit (ENG_CTRL_RUN b) then s1
  else if run then
    let s2 := s1.engStart e
    if e == Eng.courier then s2.standing .cou 6 false else s2
  else
    let s2 := s1.engStop e
    if e == Eng.courier && s2.tm.clk then (s2.raise .cou 6).standing .cou 6 true else s2

/-- _ROUTINE_REQ (Table 11-16, R240). -/
def State.engRequest (s : State) (e : Eng) (v : Word) : State :=
  let s1 := s.storeRw (ENG_ROUTINE_REQ (engBase e)) v
  if bitOf v.toNat 31 then s1.request e (bitsOf v.toNat 29 24) (BitVec.ofNat 24 v.toNat) else s1

/-- Engine writes (Tables 11-13 to 11-18). -/
def State.engWrite (s : State) (e : Eng) (off : Nat) (v : Word) (w : Writer) (k : WPart) : State :=
  let b := engBase e
  if off = 0 then s.engCtrl e v
  else if off = 4 then s.engRequest e v
  else if off = 0x0A then
    let ok := s.glb == 6 || s.glb == 4
    let v' := if bitOf v.toNat 31 && !ok then
        fldPut (ENG_BREAK_EN b) v (s.fld (ENG_BREAK_EN b)) else v
    s.plainWrite (b + off) v' w k false
  else s.plainWrite (b + off) v w k false

/-- A write to an engine's window (R234, R261). -/
def State.engWinWrite (s : State) (e : Eng) (a : Nat) (v : W24) (m : Master) : State :=
  let b := engBase e
  let run := s.bit (ENG_CTRL_RUN b)
  if masterEng m = some e then (s.setBit (ENG_STATUS_STORE_PROT b) true).raiseWith (engBlk e) 1
    (writeRaise m (b + 0xE1))
  else if a < 0x4400 then
    (if run && m != Master.loader then s.setBit (ENG_STATUS_WIN_REJECT b) true else s.setWin (engBlk e) a v)
  else if a < 0x4800 then s.setWin (engBlk e) a v
  else s

/-! ### Palette, columns, nulling -/

/-- PAL_BANK_LAUNCH_HI submits a bank swap (R84). -/
def State.palSubmit (s : State) (m : Master) (hi : Word) : State :=
  let s1 := s.setReg PAL_BANK_LAUNCH_HI (BitVec.ofNat 32 (hi.toNat % 65536))
  let pm : PM := BitVec.ofNat 48 (hi.toNat % 65536 * 2 ^ 32 + (s.reg PAL_BANK_LAUNCH_LO).toNat)
  let no := fun (t : State) => t.raiseWith .pal 1 (writeRaise m PAL_BANK_LAUNCH_HI)
  if s1.swapPending then no (s1.setBit PAL_STATUS_SWAP_DOUBLE true)
  else if s1.bit PAL_STATUS_COPY_BUSY then
    no (((s1.setFld PAL_STATUS_SWAP_STATUS 7).setFld PAL_STATUS_BANK_CHECK 5).setFld
      PAL_STATUS_CHECK_ENTRY 0)
  else match s1.bankCheck s1.inactiveBank with
    | some (p, reason) =>
      no (((s1.setFld PAL_STATUS_SWAP_STATUS 7).setFld PAL_STATUS_BANK_CHECK reason).setFld
        PAL_STATUS_CHECK_ENTRY p)
    | none =>
      let c := s1.launchCode .field pm 64
      let s2 := s1.setFld PAL_STATUS_SWAP_STATUS c
      if c = 0 then
        (s2.enqueue .field ⟨pm, PAL_BANK_LAUNCH_HI, hi, m, 0, .bankSwap, 0⟩).setBit
          PAL_STATUS_SWAP_PENDING true
      else no (s2.launchRaise m PAL_BANK_LAUNCH_HI c)

/-- PAL writes (Table 04-3, R402). -/
def State.palWrite (s : State) (i : Nat) (v : Word) (w : Writer) (k : WPart) : State :=
  if i = PAL_CTRL then
    let s1 := if k.now && bitOf v.toNat 3 then s.swapCancel else s
    let s2 := if k.now && bitOf v.toNat 4 then s1.palCopy else s1
    s2.plainWrite i v w ⟨false, k.later⟩ true
  else if i = PAL_BANK_LAUNCH_HI then (if k.now then s.palSubmit w.m v else s)
  else if i = EXC_SLEW ∨ i = EXC_REST_CODE then
    let s1 := s.plainWrite i v w k true
    if k.later then s1.pwrExempt else s1
  else s.plainWrite i v w k (i == ROW_SPARE_CTRL)

/-- COL_SPARE_CTRL (R116): a swap or a restore needs a launch postmark (R73). -/
def State.spareCtrl (s : State) (v : Word) (w : Writer) (k : WPart) : State :=
  let op := bitsOf v.toNat 17 16
  let c := v.toNat % 32
  if op = 1 ∨ op = 2 then
    if w.launched then
      (let s1 := s.storeRw COL_SPARE_CTRL v
       if op = 1 then s1.spareSwap c w.m else s1.spareRestore c w.m)
    else if k.now then s.raiseWith .col 4 (writeRaise w.m COL_SPARE_CTRL) else s
  else s.storeRw COL_SPARE_CTRL v

/-- COL writes (Table 05-4). -/
def State.colWrite (s : State) (i : Nat) (v : Word) (w : Writer) (k : WPart) : State :=
  if i = COL_SPARE_CTRL then s.spareCtrl v w k
  else if i = COL_ENABLE then
    (if k.later then s.enableWrite (BitVec.ofNat 32 (v.toNat &&& s.enableMask)) w.launched else s)
  else s.plainWrite i v w k (i == COL_CTRL)

/-- NUL_LOOP_GAIN (Table 06-8, R134). -/
def State.gainReg (s : State) (v : Word) (w : Writer) (k : WPart) : State :=
  let s1 := if k.now then s.storeW1c NUL_LOOP_GAIN v else s
  if k.later then
    let p := bitsOf v.toNat 29 24
    let s2 := s1.setFld NUL_LOOP_GAIN_PIN p
    if bitOf v.toNat 31 && decide (p < 34) then s2.gainWrite p (v.toNat % 16) w.m w.launched else s2
  else s1

/-- NUL_DAC_RANGE (Table 06-11, R141). -/
def State.rangeReg (s : State) (v : Word) (w : Writer) (k : WPart) : State :=
  if k.later then
    let p := bitsOf v.toNat 29 24
    let s2 := s.setFld NUL_DAC_RANGE_PIN p
    if bitOf v.toNat 31 && decide (p < 34) then s2.rangeChange p (v.toNat % 4) w.launched else s2
  else s

/-- NUL writes (Table 06-6). -/
def State.nulWrite (s : State) (i : Nat) (v : Word) (w : Writer) (k : WPart) : State :=
  match i with
  | 0x1301 => s.gainReg v w k
  | 0x1307 => s.rangeReg v w k
  | 0x1309 =>
    let s1 := if k.now then s.storeW1c i v else s
    if k.later then
      (let s2 := if bitOf v.toNat 0 then
           ({ s1 with nul := { s1.nul with reprime := true } }).param w.launched true else s1
       if bitOf v.toNat 2 then s2.captureReq w.m w.launched else s2)
    else s1
  | _ => s.plainWrite i v w k (i == NUL_CTRL || i == NUL_LIMIT || i == NUL_CONVERGE)

/-- A rotation or ρ word (R144): in use it puts HOLD on the column for this sheet and the next. -/
def State.loopWord (s : State) (f g a : Nat) (v : Nat) (launched : Bool) : State :=
  let changed := s.winN .nul a != v
  let used := s.loopInUse f g a
  let s1 := s.goodWord a (BitVec.ofNat 24 v)
  let s2 := match s1.trimUser f g with
    | some c => if changed && used then s1.holdCol c 0 else s1
    | none => s1
  s2.param launched (changed && used)

/-- A write to the NUL window (Table 06-14). -/
def State.nulWinWrite (s : State) (a : Nat) (v : W24) (w : Writer) : State :=
  if 0x1000 ≤ a ∧ a < 0x2000 then
    (if s.bit NUL_PRIMER_CTRL_CAPTURE_BUSY then
      (s.setBit NUL_PRIMER_CTRL_CAPTURE_REJECT true).raiseWith .nul 4 (winRaise w.m .nul)
     else
      let s1 := s.setWin .nul a v
      { s1 with nul := { s1.nul with primerBad := s1.nul.primerBad.filter (fun x => x != a) } })
  else if 0x2000 ≤ a ∧ a < 0x2800 then
    (let old := s.winN .nul a
     s.setWinN .nul a (old - (old &&& (v.toNat &&& 0xFF00))))
  else if 0x3000 ≤ a ∧ a < 0x3440 then
    s.loopWord ((a - 0x3000) / 32) ((a - 0x3000) / 4 % 8) a (v.toNat % 2 ^ 21) w.launched
  else if 0x10000 ≤ a ∧ a < 0x18800 then
    s.loopWord ((a - 0x10000) / 1024) ((a - 0x10000) / 128 % 8) a v.toNat w.launched
  else s

/-- A write to the PAL window (Table 04-13). -/
def State.palWinWrite (s : State) (a : Nat) (v : W24) (w : Writer) : State :=
  if a < 0x88 ∨ (0x100 ≤ a ∧ a < 0x188) then s.palBankWrite a v
  else if 0x200 ≤ a ∧ a < 0x240 then
    (if w.launched then s.rowMapWrite (a - 0x200) v w.m else s.raiseWith .pal 2 (winRaise w.m .pal))
  else if 0x300 ≤ a ∧ a < 0x344 ∧ bitOf v.toNat 19 = true then s.clearOvl (a - 0x300) w.launched
  else s

/-- A write to the COL window (Table 05-12). -/
def State.colWinWrite (s : State) (a : Nat) (v : W24) (w : Writer) : State :=
  if a < 0x22 then s.settingsWrite a v w.m w.launched
  else if 0x100 ≤ a ∧ a < 0x120 then
    (if w.launched then s.colMapWrite (a - 0x100) v w.m else s.raiseWith .col 4 (winRaise w.m .col))
  else if 0x200 ≤ a ∧ a < 0x420 then
    s.trimWrite ((a - 0x200) / 16) ((a - 0x200) / 2 % 8) (a % 2) v w.launched
  else s

/-! ### Varnish, stream, events, housekeeping, calibration -/

/-- A write to the VAR window (Table 07-12). -/
def State.varWinWrite (s : State) (a : Nat) (v : W24) (w : Writer) : State :=
  if a < 0x8000 then s.varBankWrite a v w.m
  else if a < 0x8020 then s.tmapWrite (a - 0x8000) v w.launched
  else s

/-- VAR writes (Table 07-7, R402). -/
def State.varWrite (s : State) (i : Nat) (v : Word) (w : Writer) (k : WPart) : State :=
  if i = VAR_CTRL then
    let s1 := if k.now then s.storeW1c i v else s
    let s2 := if k.now && bitOf v.toNat 1 then s1.varCopy w.m else s1
    if k.later && bitOf v.toNat 0 then s2.varSwap w.m w.launched else s2
  else s.plainWrite i v w k (i != VAR_T_STATUS)

/-- STR and EVT writes (Table 08-8). -/
def State.strWrite (s : State) (i : Nat) (v : Word) (w : Writer) (k : WPart) : State :=
  if i = 0x1501 ∨ i = 0x1502 then (if k.later then s.strChange (i == 0x1502) v w.launched else s)
  else s.plainWrite i v w k (i != EVT_STATUS)

/-- The word that the EVT window stores (Tables 08-11 to 08-13). -/
def evtStored (a v : Nat) : Nat :=
  if 0x1000 ≤ a ∧ a < 0x1008 then
    (if a % 2 = 0 then
      max 1 (bitsOf v 23 16) * 65536 + bitsOf v 15 12 * 4096 + min 4 (bitsOf v 11 8) * 256 + v % 128
     else max 1 (v % 4096))
  else if 0x1100 ≤ a ∧ a < 0x1108 then v % 2 ^ 22
  else v

/-- A write to the EVT window (Table 08-11). -/
def State.evtWinWrite (s : State) (a : Nat) (v : W24) (w : Writer) : State :=
  if a < 0x800 ∨ (0x1000 ≤ a ∧ a < 0x1008) ∨ (0x1100 ≤ a ∧ a < 0x1108) ∨ (0x2000 ≤ a ∧ a < 0x2800) then
    let x := evtStored a v.toNat
    let s1 := s.setWinN .evt a x
    ({ s1 with evt := { s1.evt with badWord := s1.evt.badWord.filter (fun y => y != a) } }).param
      w.launched (s.winN .evt a != x)
  else s

/-- HKA and HKB writes (Table 09-7); an isolated converter keeps RUN at 0 (R335). -/
def State.hkWrite (s : State) (x : Hk) (off : Nat) (v : Word) (w : Writer) (k : WPart) : State :=
  let b := hkBase x
  let n := v.toNat
  if off = 0 then
    if k.later then
      (let run := bitOf n 0 && !s.flt.iso.contains (0xD0 + hkNum x)
       let s1 := s.hkRun x run w.launched
       if bitOf n 2 then s1.hkRestart x w.launched else s1)
    else s
  else if off = 5 then
    (let s1 := s.storeRw (b + off) v
     if bitOf n 31 then s1.urgentReq x (n % 16) w.launched else s1)
  else if off = 6 then
    (let s1 := s.storeRw (b + off) v
     let s2 := if bitOf n 31 then (s1.calStart x (bitsOf n 23 16) (n % 65536)).param w.launched true else s1
     if bitOf n 30 then s2.calInterrupt x 6 else s2)
  else if 0x10 ≤ off ∧ off < 0x20 then s.seqWrite x (off - 0x10) v w.m w.launched
  else s.plainWrite (b + off) v w k (off != 1)

/-- HKS writes (Table 09-7). -/
def State.hksWrite (s : State) (i : Nat) (v : Word) (w : Writer) (k : WPart) : State :=
  if i = HKS_REFBUF then ((s.plainWrite i v w k true).pwrExempt).refUpdate
  else if i = HKS_EXC_CTRL then
    let v' := if s.flt.iso.contains 0xD2 then fldPut HKS_EXC_CTRL_EN v 0 else v
    s.excCtrlWrite v' w.m w.launched
  else if i = HKS_EXC_STATUS then
    let s1 := s.storeW1c i (fldPut HKS_EXC_STATUS_OVERLOAD v 0)
    if fldGet HKS_EXC_STATUS_OVERLOAD v = 1 then s1.excClear else s1
  else if i = HKS_REDUNDANT_SEL then (if k.later then s.redundantSel v w.launched else s)
  else s.plainWrite i v w k (i == HKS_CHECK_CTRL)

/-- CAL writes (Table 10-7); an isolated calibration driver keeps EN at 0 (R335). -/
def State.calWrite (s : State) (i : Nat) (v : Word) (w : Writer) (k : WPart) : State :=
  let v' := if i = CAL_CTRL ∧ s.flt.iso.contains 0xD3 = true then fldPut CAL_CTRL_EN v 0 else v
  s.plainWrite i v' w k (i == CAL_CTRL || (decide (CAL_REPEAT_TOL ≤ i) && decide (i ≤ CAL_DEFER_LIMIT)))

/-- A write to the CAL window (Table 10-15). -/
def State.calWinWrite (s : State) (a : Nat) (v : W24) (w : Writer) : State :=
  let k := if 0xA00 ≤ a ∧ a < 0xA08 then 0xFFFF
    else if a = 0xA10 ∨ a = 0xA12 then 0xFFFFFF
    else if a = 0xA11 then 0x8F00FF else 0
  if k = 0 then s
  else (s.setWinN .cal a (v.toNat &&& k)).param w.launched (s.winN .cal a != v.toNat &&& k)

/-- A write to the LNK window (R295, Table 13-21). -/
def State.lnkWinWrite (s : State) (a : Nat) (v : W24) (w : Writer) : State :=
  if 0x200 ≤ a then s
  else if (decide (0x100 ≤ a) == s.hostTab) && w.m != Master.loader then
    (s.setBit LNK_SCHED_SEL_WIN_REJECT true).raiseWith .lnk 1 (winRaise w.m .lnk)
  else s.setWinN .lnk a (v.toNat &&& 0xF000FF)

/-! ### Windows and fault groups -/

/-- A write of a window word (R371, R372). -/
def State.winWrite (s : State) (b : Blk) (a : Nat) (v : Word) (w : Writer) : State :=
  let x : W24 := BitVec.ofNat 24 v.toNat
  match b with
  | .bar => if a < 11 then s.retiredWrite a x w.launched else s
  | .lnk => s.lnkWinWrite a x w
  | .cou => s.engWinWrite .courier a x w.m
  | .bru => s.engWinWrite .brush a x w.m
  | .pal => s.palWinWrite a x w
  | .col => s.colWinWrite a x w
  | .nul => s.nulWinWrite a x w
  | .var => s.varWinWrite a x w
  | .evt => s.evtWinWrite a x w
  | .cal => s.calWinWrite a x w
  | _ => s

/-- A write to a fault group (R344, R354, R357). -/
def State.fltWrite (s : State) (b : Blk) (off : Nat) (v : Word) (w : Writer) (k : WPart) : State :=
  match off with
  | 0xF7 => s.policyWrite b v
  | 0xF8 => if k.later then (s.injectWrite b v).param w.launched true else s
  | 0xFB =>
    let s1 := s.ackMask b (v.toNat % 65536)
    if bitOf v.toNat 31 then s1.ackFirst b else s1
  | _ => s.plainWrite (blkBase b + off) v w k false

/-! ### Every register -/

/-- A write of an index, in the part that acts now: wa is the window address that a write of _WIN_DATA names. -/
def State.applyPart (s : State) (i : Nat) (v : Word) (w : Writer) (wa : Nat) (k : WPart) : State :=
  match blkOf i with
  | none => s
  | some b =>
    let off := i % 0x100
    if 0xF0 ≤ off then (if off ≤ 0xFB then s.fltWrite b off v w k else s)
    else if 0xE0 ≤ off then
      (if winWidth b = 0 then s
       else if off = 0xE0 then (if k.now then s.setWinAddr b (masterCode w.m) v.toNat else s)
       else if off = 0xE1 ∧ k.later = true then s.winWrite b wa v w else s)
    else match b with
      | .glb => s.glbWrite i v w k
      | .tim => if i = TIM_LAUNCH_ACTION then s.launchAction v else s.plainWrite i v w k false
      | .bar => s.barWrite i v w k
      | .lnk => s.lnkWrite i v w k
      | .mgt => s.plainWrite i v w k false
      | .cfg => s.cfgWrite i v w k
      | .cou => s.engWrite .courier off v w k
      | .pwr => s.pwrWrite i v w k
      | .pal => s.palWrite i v w k
      | .col => s.colWrite i v w k
      | .nul => s.nulWrite i v w k
      | .var => s.varWrite i v w k
      | .str => s.strWrite i v w k
      | .evt => s.strWrite i v w k
      | .hka => s.hkWrite .a off v w k
      | .hkb => s.hkWrite .b off v w k
      | .hks => s.hksWrite i v w k
      | .cal => s.calWrite i v w k
      | .bru => s.engWrite .brush off v w k
      | .fgl => s.plainWrite i v w k false
      | .fba => s.plainWrite i v w k false

/-- A whole write in this tick: a launched one at its postmark. -/
def State.applyWhole (s : State) (i : Nat) (v : Word) (w : Writer) (wa : Nat) : State :=
  s.applyPart i v w wa ⟨true, true⟩

/-- The window address that a write of an index uses: the master's own copy (R371). -/
def State.writeAddr (s : State) (m : Master) (i : Nat) : Nat :=
  match blkOf i with
  | some b => if i % 0x100 = 0xE1 then s.winAddr b (masterCode m) else 0
  | none => 0

/-- An access of _WIN_DATA increments the master's window address (R372). -/
def State.bumpAddr (s : State) (m : Master) (i : Nat) : State :=
  match blkOf i with
  | some b =>
    if i % 0x100 = 0xE1 ∧ winWidth b ≠ 0 then
      s.setWinAddr b (masterCode m) (s.winAddr b (masterCode m) + 1)
    else s
  | none => s

/-- An unlaunched write arrives (R48, R402): what waits for no boundary acts, the rest is held. -/
def State.writeReg (s : State) (m : Master) (i : Nat) (v : Word) : State :=
  let wa := s.writeAddr m i
  let all := decide (s.wrAlign i v wa = 1) || notHeld i wa
  let s1 := s.applyPart i v ⟨m, false⟩ wa ⟨true, all⟩
  (s1.bumpAddr m i).holdParts m i v wa

/-- A held part at its boundary (R48). -/
def State.applyHeld (s : State) (h : HeldWr) : State :=
  s.applyPart h.idx h.val ⟨h.master, false⟩ h.wa ⟨false, true⟩

/-- An unlaunched write of an index is turned away as it arrives (R73). -/
def State.refusedWrite (s : State) (m : Master) (i : Nat) (v : Word) : Bool :=
  let wa := s.writeAddr m i
  notHeld i wa && !(i == 0x1204 && (bitsOf v.toNat 17 16 == 0 || bitsOf v.toNat 17 16 == 3)) &&
    !(i == 0x11E1 && decide (0x300 ≤ wa))

/-- A launched write reaches its queue (R49): the code of Table 02-2 and the state.  A launched SET of
LNK_EPOCH is announced to the field die (R300). -/
def State.launchReg (s : State) (m : Master) (i : Nat) (v : Word) (pm : PM) (kind : LKind) (tag : Nat) :
    Nat × State :=
  let wa := s.writeAddr m i
  let r := (s.bumpAddr m i).launchWrite (if i < 0x1000 then .host else .field) ⟨pm, i, v, m, wa, kind, tag⟩
  if r.1 = 0 ∧ i = LNK_EPOCH ∧ bitOf v.toNat 31 = true then (0, r.2.epochNotice (v.toNat % 4) pm) else r

/-- A routine holds a target staged or stencilled (Table 11-7). -/
def EngSt.holdsTarget (x : EngSt) (i wa : Nat) : Bool :=
  x.staged.any (fun t => t.idx == i && t.wa == wa) || x.stencil.any (fun t => t.idx == i && t.wa == wa)

/-- The launch cause (Table 11-7): an entry of an engine's own die is applied to a target that its routine
holds; the restore skips it (Table 11-8a). -/
def State.launchCause (s : State) (i wa : Nat) : State :=
  let e := if i < 0x1000 then Eng.courier else Eng.brush
  let x := s.eng e
  if x.holdsTarget i wa then (s.setEng e { x with skip := x.skip ++ [(i, wa)] }).cause e 3 else s

/-- A launch entry at its postmark (R50). -/
def State.applyEntry (s0 : State) (e : LEntry) : State :=
  let s := s0.launchCause e.idx e.wa
  let s1 := match e.kind with
    | .bankSwap => s.bankSwap
    | .schedSwitch =>
      if e.idx = LNK_SCHED_LAUNCH_HI then s.hostSwitch false
      else s.fieldSwitch (bitOf e.val.toNat 24)
    | _ => s.applyWhole e.idx e.val ⟨e.master, true⟩ e.wa
  s1.leftQueue e

end Sys2Proof.Machine
end

