-- ==== Sys2Proof/Machine/Flags.lean ====
section
/-!
DEFINITION. The flags of the engines (R237, Table 11-4): Z, N, C and V in bits 3 to 0 of _STATUS.FLAGS.
-/
namespace Sys2Proof.Machine

/-- The four flags. -/
structure EFlags where
  z : Bool
  n : Bool
  c : Bool
  v : Bool
deriving DecidableEq, Repr

/-- The flags as _STATUS shows them. -/
def EFlags.bits (f : EFlags) : Nat :=
  (if f.z then 8 else 0) + (if f.n then 4 else 0) + (if f.c then 2 else 0) + (if f.v then 1 else 0)

/-- The flags that _STATUS shows. -/
def flagsOf (n : Nat) : EFlags := ⟨bitOf n 3, bitOf n 2, bitOf n 1, bitOf n 0⟩

/-- The flags of a logical result: C and V cleared. -/
def logicFlags (r : W24) : EFlags := ⟨r == 0, r.msb, false, false⟩

/-- The flags of A + B: C the carry out of bit 23, V signed overflow. -/
def addFlags (a b : W24) : EFlags :=
  let r := a + b
  ⟨r == 0, r.msb, decide (2 ^ 24 ≤ a.toNat + b.toNat), (a.msb == b.msb) && (r.msb != a.msb)⟩

/-- The flags of A − B: C the borrow, V signed overflow. -/
def subFlags (a b : W24) : EFlags :=
  let r := a - b
  ⟨r == 0, r.msb, decide (a.toNat < b.toNat), (a.msb != b.msb) && (r.msb != a.msb)⟩

/-- An engine's flags. -/
def State.flags (s : State) (e : Eng) : EFlags := flagsOf (s.fld (ENG_STATUS_FLAGS (engBase e)))

/-- Store an engine's flags. -/
def State.setFlags (s : State) (e : Eng) (f : EFlags) : State :=
  s.setFld (ENG_STATUS_FLAGS (engBase e)) f.bits

end Sys2Proof.Machine
end

