-- ==== Sys2Proof/Machine/Operands.lean ====
section
/-!
DEFINITION. The operands of the engines' microwords: sources and destinations (Table 11-3), branch conditions
(Table 11-5) and results (Table 11-4).
-/
namespace Sys2Proof.Machine

/-- A working register's window word: W0 to W15 at n, XH 16, LPL 17, LPH 18, TIMER 19 (Table 11-19). -/
def State.ereg (s : State) (e : Eng) (n : Nat) : W24 := s.win (engBlk e) (0x4A00 + n)

/-- Store a working register. -/
def State.setEreg (s : State) (e : Eng) (n : Nat) (v : W24) : State := s.setWin (engBlk e) (0x4A00 + n) v

/-- The die of an engine. -/
def engDie : Eng → Die
  | .courier => .host
  | .brush => .field

/-- The master that an engine is. -/
def engMaster : Eng → Master
  | .courier => .courier
  | .brush => .brush

/-- A context's routine, main or service. -/
def State.ctx (s : State) (e : Eng) (svc : Bool) : Option Ctx :=
  if svc then (s.eng e).svc else (s.eng e).main

/-- A source's value (Table 11-3); reserved codes, which the loader rejects, read 0 (R256 guards them). -/
def State.source (s : State) (e : Eng) (svc : Bool) (code : Nat) (imm : W24) : W24 :=
  if code < 16 then s.ereg e code
  else match code with
    | 17 => imm
    | 18 => s.ereg e 16 &&& 0xFF
    | 19 => BitVec.ofNat 24 (s.pmOf (engDie e)).toNat
    | 20 => BitVec.ofNat 24 ((s.pmOf (engDie e)).toNat / 2 ^ 24)
    | 21 => s.ereg e 17
    | 22 => s.ereg e 18
    | 23 => s.ereg e 19
    | 24 => (match s.ctx e svc with
      | some c => c.arg
      | none => 0)
    | _ => 0

/-- Store a result (Table 11-3); code 16 discards it. -/
def State.setDest (s : State) (e : Eng) (code : Nat) (v : W24) : State :=
  if code < 16 then s.setEreg e code v
  else match code with
    | 18 => s.setEreg e 16 (v &&& 0xFF)
    | 21 => s.setEreg e 17 v
    | 22 => s.setEreg e 18 v
    | _ => s

/-- A source code that Table 11-3 defines. -/
def srcOk (c : Nat) : Bool := decide (c ≤ 24)
/-- A destination code that Table 11-3 defines. -/
def dstOk (c : Nat) : Bool := decide (c ≤ 16) || c == 18 || c == 21 || c == 22

/-- The launch postmark LPH:LPL of an engine. -/
def State.launchPm (s : State) (e : Eng) : PM :=
  BitVec.ofNat 48 ((s.ereg e 18).toNat * 2 ^ 24 + (s.ereg e 17).toNat)

/-- A branch condition (Table 11-5). -/
def State.condHolds (s : State) (e : Eng) (c : Nat) : Bool :=
  let f := s.flags e
  let lt := f.n != f.v
  match c with
  | 0 => true
  | 1 => false
  | 2 => f.z
  | 3 => !f.z
  | 4 => f.n
  | 5 => !f.n
  | 6 => f.c
  | 7 => !f.c
  | 8 => f.v
  | 9 => !f.v
  | 10 => lt
  | 11 => !lt
  | 12 => s.bit (ENG_STATUS_TO (engBase e))
  | 13 => !s.bit (ENG_STATUS_TO (engBase e))
  | 14 => !(s.eng e).pend.isEmpty
  | 15 => s.windowOpen
  | 16 => !s.windowOpen
  | 17 => s.glb == 7
  | _ => false

/-- A shift count of 24 or more. -/
def bigShift (b : W24) : Bool := decide (24 ≤ b.toNat % 32)

/-- SHL (Table 11-4). -/
def shlResult (a b : W24) : W24 := if bigShift b then 0 else a <<< (b.toNat % 32)
/-- SHR (Table 11-4). -/
def shrResult (a b : W24) : W24 := if bigShift b then 0 else a >>> (b.toNat % 32)
/-- ASR (Table 11-4). -/
def asrResult (a b : W24) : W24 := a.sshiftRight (min (b.toNat % 32) 24)
/-- MULL: bits [23:0] of the exact signed product. -/
def mullResult (a b : W24) : W24 := BitVec.ofInt 24 (a.toInt * b.toInt)
/-- MULH: bits [47:24] of the exact signed product. -/
def mulhResult (a b : W24) : W24 := BitVec.ofInt 24 (a.toInt * b.toInt / 2 ^ 24)

end Sys2Proof.Machine
end

