-- ==== Sys2Proof/Machine/Engine.lean ====
section
/-!
DEFINITION. The engines Courier and Brush (chapter 11): microwords and their check bits, register access,
staging and the stencil, commit, end, abandon, waits, dispatch and one tick of an engine.
-/
namespace Sys2Proof.Machine

/-- The operations of Table 11-4. -/
inductive MOp where
  | nop | mov | add | sub | and | or | xor | shl | shr | asr | mull | mulh | cmp | test
  | ld | st | rdreg | wrreg | settimer | req | call | ret | end_
deriving DecidableEq, Repr

/-- The operation of an OP code. -/
def mopOf : Nat → Option MOp
  | 0x00 => some .nop | 0x01 => some .mov | 0x02 => some .add | 0x03 => some .sub | 0x04 => some .and
  | 0x05 => some .or | 0x06 => some .xor | 0x07 => some .shl | 0x08 => some .shr | 0x09 => some .asr
  | 0x0A => some .mull | 0x0B => some .mulh | 0x0C => some .cmp | 0x0D => some .test | 0x10 => some .ld
  | 0x11 => some .st | 0x18 => some .rdreg | 0x19 => some .wrreg | 0x1C => some .settimer
  | 0x1D => some .req | 0x20 => some .call | 0x21 => some .ret | 0x22 => some .end_ | _ => none

/-! ### Microwords and their check bits (R235, R236) -/

/-- The code positions of data bits 0 to 87: the integers from 3 that are no power of two (R236). -/
def codePositions : List Nat := (List.range 96).filter (fun n =>
  decide (3 ≤ n) && n != 4 && n != 8 && n != 16 && n != 32 && n != 64)

/-- The XOR of the code positions of the data bits that are 1: check bits 6 to 0. -/
def checkLow (d : Nat) : Nat :=
  (codePositions.zipIdx).foldl (fun c x => if bitOf d x.2 then c ^^^ x.1 else c) 0

/-- The parity of the low n bits. -/
def parity (n d : Nat) : Bool := (List.range n).foldl (fun b i => b != bitOf d i) false

/-- The eight check bits of 88 data bits (R236). -/
def checkBits (d : Nat) : Nat :=
  let c := checkLow d
  c + (if parity 88 d != parity 7 c then 128 else 0)

/-- What a SEC-DED word gives: its data bits, and whether an error was corrected or is uncorrectable. -/
inductive Checked where
  | good (d : Nat)
  | mended (d : Nat)
  | lost
deriving DecidableEq, Repr

/-- Check a stored microword of 96 bits (R236). -/
def checkWord (w : Nat) : Checked :=
  let d := w % 2 ^ 88
  let c := w / 2 ^ 88 % 256
  let syn := checkLow d ^^^ (c % 128)
  let odd := (parity 88 d != parity 7 c) != bitOf c 7
  if syn = 0 ∧ odd = false then .good d
  else if odd = false then .lost
  else
    let i := codePositions.idxOf syn
    if i < 88 then .mended (d ^^^ 2 ^ i)
    else if syn = 0 ∨ [1, 2, 4, 8, 16, 32, 64].contains syn then .mended d
    else .lost

/-- A fetched microword: its operation and fields (Table 11-2). -/
structure Fetched where
  op : Option MOp
  m  : Micro
deriving DecidableEq, Repr

/-- The fields of a microword's data bits (Table 11-2). -/
def fieldsOf (d : Nat) : Fetched :=
  ⟨mopOf (bitsOf d 71 66),
    { cond := BitVec.ofNat 6 (bitsOf d 65 60), wait := BitVec.ofNat 6 (bitsOf d 59 54),
      commit := bitOf d 53, stencil := bitOf d 52, launch := bitOf d 51,
      next := BitVec.ofNat 12 (bitsOf d 50 39), dst := BitVec.ofNat 5 (bitsOf d 38 34),
      srca := BitVec.ofNat 5 (bitsOf d 33 29), srcb := BitVec.ofNat 5 (bitsOf d 28 24),
      imm := BitVec.ofNat 24 d }⟩

/-- The 96 stored bits of a microword (Table 11-19). -/
def State.microBits (s : State) (e : Eng) (a : Nat) : Nat :=
  let w := fun k => s.winN (engBlk e) (4 * a + k)
  w 0 + w 1 * 2 ^ 24 + w 2 * 2 ^ 48 + w 3 * 2 ^ 72

/-! ### Places of a context -/

/-- A context's address. -/
def State.epc (s : State) (e : Eng) (svc : Bool) : Nat :=
  s.fld (if svc then ENG_PC_SERVICE_PC (engBase e) else ENG_PC_PC (engBase e))

/-- Set a context's address. -/
def State.setEpc (s : State) (e : Eng) (svc : Bool) (a : Nat) : State :=
  s.setFld (if svc then ENG_PC_SERVICE_PC (engBase e) else ENG_PC_PC (engBase e)) a

/-- Store a context. -/
def State.setCtx (s : State) (e : Eng) (svc : Bool) (c : Option Ctx) : State :=
  let x := s.eng e
  if svc then (s.setEng e { x with svc := c }).setBit (ENG_STATUS_SERVICE_BUSY (engBase e)) c.isSome
  else s.setEng e { x with main := c }

/-- A context's routine is a user routine (R233). -/
def State.userRoutine (s : State) (e : Eng) (svc : Bool) : Bool :=
  match s.ctx e svc with
  | some c => decide (48 ≤ c.routine)
  | none => false

/-! ### Ending (R249, R256) -/

/-- The handler word that governs a cause of a routine (R255). -/
def State.handlerWord (s : State) (e : Eng) (routine k : Nat) : Nat :=
  let u := (s.engData e (0x400 + k)).toNat
  if 48 ≤ routine ∧ bitOf u 23 = true then u else (s.engData e (0x80 + k)).toNat

/-- The handlers that causes of a routine leave owed, in ascending cause number (R255). -/
def State.handlersFor (s : State) (e : Eng) (routine : Nat) (causes : BitVec 5) : List (Nat × Nat × W24) :=
  (List.range 5).filterMap (fun k =>
    let w := s.handlerWord e routine k
    if causes.getLsbD k && bitOf w 23 then some (k, w % 64, BitVec.ofNat 24 routine) else none)

/-- The main context becomes free. -/
def State.freeMain (s : State) (e : Eng) : State :=
  let b := engBase e
  let s1 := s.setCtx e false none
  (((s1.setBit (ENG_ROUTINE_ACTIVE_VALID b) false).setBit (ENG_ROUTINE_ACTIVE_COMMITTED b) false).setBit
    (ENG_WAIT_COND_WAITING b) false).setFld (ENG_STATUS_STATE b) (if s1.bit (ENG_CTRL_RUN b) then 1 else 0)

/-- The main routine ends (R249): without a commit its stencil is restored in the next tick and its staged
writes are dropped; after one, the handlers held in its tail become owed (R254). -/
def State.mainEnd (s : State) (e : Eng) : State :=
  let b := engBase e
  let x := s.eng e
  match x.main with
  | none => s
  | some c =>
    let s1 := s.setEng e { x with
      staged := [], stack := [], restarts := assocErase x.restarts c.routine, held := 0,
      restoreAt := if c.committed then x.restoreAt else some (s.tm.tick + 1),
      owed := x.owed ++ (if c.committed then s.handlersFor e c.routine x.held else []),
      freeAt := s.tm.tick + (if c.committed then 1 else 2) }
    let s2 := (s1.freeMain e).setFld (ENG_ROUTINE_ACTIVE_RESTARTS b) 0
    if c.committed then s2 else s2.setFld (ENG_STATUS_STATE b) 4

/-- A routine ends in a context. -/
def State.ctxEnd (s : State) (e : Eng) (svc : Bool) : State :=
  if svc then s.setCtx e true none else s.mainEnd e

/-- A run-time guard ends the running routine (R256). -/
def State.guardEnd (s : State) (e : Eng) (svc : Bool) (source : Nat) : State :=
  ((s.setBit (ENG_STATUS_GUARD (engBase e)) true).raise (engBlk e) source).ctxEnd e svc

/-! ### Register access (R238, R245 to R248) -/

/-- An index that an engine reaches (R238). -/
def engReach (e : Eng) (i : Nat) : Bool :=
  match e with
  | .courier => true
  | .brush => decide (0x1000 ≤ i) && decide (i < 0x2000)

/-- An index on the other side of the barrier, which Courier reaches by envelopes (R238). -/
def engAcross (e : Eng) (i : Nat) : Bool :=
  match e with
  | .courier => decide (0x1000 ≤ i) && decide (i < 0x1D00)
  | .brush => false

/-- _WIN_ADDR of the block of an index. -/
def winAddrIdx (i : Nat) : Nat := i / 0x100 * 0x100 + 0xE0

/-- An index of a _WIN_DATA register. -/
def isWinData (i : Nat) : Bool := i % 0x100 == 0xE1
/-- An index of a _WIN_ADDR register. -/
def isWinAddr (i : Nat) : Bool := i % 0x100 == 0xE0

/-- The outcome of a launched engine write (R245, Table 11-14). -/
def State.launchedBy (s : State) (e : Eng) (code : Nat) : State :=
  if code = 0 then s else (s.setBit (ENG_STATUS_LAUNCH_REJECT (engBase e)) true).note e 0x0F

/-- Count a launch of an engine: the tag of its last one. -/
def State.countLaunch (s : State) (e : Eng) : State :=
  let x := s.eng e
  s.setEng e { x with launches := (x.launches + 1) % 16 }

/-- An engine's write of an index, at once or to a launch queue (R245, R247, R248). -/
def State.engOut (s : State) (e : Eng) (i : Nat) (v : Word) (launch : Option PM) : State :=
  let m := engMaster e
  if !engReach e i then s.setBit (ENG_STATUS_GUARD (engBase e)) true
  else
    let s1 := if launch.isSome then s.countLaunch e else s
    let tag := (s1.eng e).launches
    if engAcross e i then s1.sendWrite m tag i v launch
    else match launch with
      | some p =>
        let r := s1.launchReg m i v p .plain tag
        r.2.launchedBy e r.1
      | none => s1.writeReg m i v

/-- Do something with a window address in place of the engine's own (R245, R246). -/
def State.withAddr (s : State) (e : Eng) (i wa : Nat) (f : State → State) : State :=
  if !isWinData i then f s
  else if engAcross e i then
    let keep := match blkOf i with
      | some b => s.winAddr b (masterCode (engMaster e))
      | none => 0
    let set := fun (t : State) (a : Nat) => t.sendWrite (engMaster e) 0 (winAddrIdx i) (BitVec.ofNat 32 a) none
    set (f (set s wa)) keep
  else match blkOf i with
    | some b =>
      let k := masterCode (engMaster e)
      let keep := s.winAddr b k
      (f (s.setWinAddr b k wa)).setWinAddr b k keep
    | none => f s

/-- The window address that an access of an index by an engine uses now. -/
def State.engAddr (s : State) (e : Eng) (i : Nat) : Nat := s.writeAddr (engMaster e) i

/-- Stage a write (R245); a 33rd ends the routine (R256). -/
def State.stage (s : State) (e : Eng) (i : Nat) (v : Word) (launch : Option PM) : State :=
  let b := engBase e
  let x := s.eng e
  if 32 ≤ x.staged.length then (s.setBit (ENG_STATUS_STAGE_OVF b) true).guardEnd e false 0
  else
    let s1 := (s.setEng e { x with staged := x.staged ++ [⟨i, v, launch, s.engAddr e i⟩] }).bumpAddr
      (engMaster e) i
    s1.setFld (ENG_STAGE_DEPTH_MAX b) (max (s1.fld (ENG_STAGE_DEPTH_MAX b)) (x.staged.length + 1))

/-- The present value of an excursion's target (R246). -/
def State.targetNow (s : State) (e : Eng) (i : Nat) : Word :=
  if isWinData i then
    match blkOf i with
    | some b => BitVec.ofNat 32 (s.winShown b (s.engAddr e i))
    | none => 0
  else s.shown (engMaster e) i

/-- The bits of a register that an excursion saves: write-only action bits read 0 (R13, R246). -/
def actionFree (i : Nat) (v : Word) : Word :=
  if isWinData i then v
  else v &&& BitVec.ofNat 32 (0xFFFFFFFF - (maskOf i (fun r => r.wo) ||| maskOf i (fun r => r.w1c)))

/-- An excursion (R246): the old value goes onto the stencil, and the write acts at once. -/
def State.excurse (s : State) (e : Eng) (i : Nat) (v : Word) : State :=
  let b := engBase e
  let x := s.eng e
  if 16 ≤ x.stencil.length then (s.setBit (ENG_STATUS_STENCIL_OVF b) true).guardEnd e false 0
  else
    let old := actionFree i (s.targetNow e i)
    let s1 := s.setEng e { x with stencil := x.stencil ++ [⟨i, s.engAddr e i, old⟩] }
    let s2 := s1.setFld (ENG_STENCIL_DEPTH_MAX b)
      (max (s1.fld (ENG_STENCIL_DEPTH_MAX b)) (x.stencil.length + 1))
    s2.engOut e i v none

/-- WRREG (R245 to R248): staged, an excursion, at once, or launched. -/
def State.wrreg (s : State) (e : Eng) (svc : Bool) (m : Micro) (i : Nat) (v : Word) : State :=
  let launch := if m.launch then some (s.launchPm e) else none
  let direct := match s.ctx e svc with
    | some c => svc || c.committed
    | none => true
  if !engReach e i then s.setBit (ENG_STATUS_GUARD (engBase e)) true
  else if direct || isWinAddr i then s.engOut e i v launch
  else if m.stencil then s.excurse e i v
  else s.stage e i v launch

/-- Restore the stencil, the last pushed first, but for targets that a launch entry wrote (R247, R252). -/
def State.unstencil (s : State) (e : Eng) : State :=
  let x := s.eng e
  let s1 := forEach x.stencil.reverse (fun t k =>
    if x.skip.contains (k.idx, k.wa) then t
    else t.withAddr e k.idx k.wa (fun u => u.engOut e k.idx k.old none)) s
  s1.setEng e { s1.eng e with stencil := [], skip := [] }

/-- Apply every staged write in staging order (R247). -/
def State.applyStaged (s : State) (e : Eng) : State :=
  let ws := (s.eng e).staged
  let s1 := forEach ws (fun t k => t.withAddr e k.idx k.wa (fun u => u.engOut e k.idx k.val k.launch)) s
  s1.setEng e { s1.eng e with staged := [] }

/-- The commit point in tick c (R247): the restores and the staged writes belong to the start of tick c + 1. -/
def State.commitMark (s : State) (e : Eng) : State :=
  match (s.eng e).main with
  | none => s
  | some c =>
    if c.committed then s.guardEnd e false 0
    else
      let s1 := s.setEng e { s.eng e with main := some { c with committed := true },
                                          restoreAt := some (s.tm.tick + 1) }
      (s1.setBit (ENG_ROUTINE_ACTIVE_COMMITTED (engBase e)) true).setFld (ENG_STATUS_STATE (engBase e)) 5

/-- What a commit or the end of an uncommitted or abandoned routine does at the start of the next tick (R247,
R249, R252, R253). -/
def State.engRestore (s : State) (e : Eng) : State :=
  let s1 := s.unstencil e
  let x := s1.eng e
  match x.main with
  | some c =>
    if c.committed then (s1.setEng e { x with restoreAt := none }).applyStaged e
    else
      let pend := if assocHas x.pend c.routine then x.pend else assocSet x.pend c.routine c.arg
      let s2 := s1.setEng e { x with restoreAt := none, staged := [], stack := [], pend := pend,
                                     freeAt := s.tm.tick + 1, held := 0,
                                     owed := x.owed ++ s1.handlersFor e c.routine x.held }
      (s2.note e 0x07).freeMain e
  | none => (s1.setEng e { x with restoreAt := none, staged := [] }).freeMain e

/-! ### Microwords (R237, R239) -/

/-- Write a result and its flags. -/
def State.result (s : State) (e : Eng) (m : Micro) (r : W24) (f : EFlags) : State :=
  (s.setDest e m.dst.toNat r).setFlags e f

/-- LD (R237): an uncorrectable word ends the routine (R256). -/
def State.engLoad (s : State) (e : Eng) (svc : Bool) (m : Micro) (a : W24) : State :=
  let at_ := (a + m.imm).toNat % 2048
  let b := engBlk e
  let r := s.engData e at_
  if s.injected b 2 then
    let s1 := s.injectDone b
    if s.injectDouble b then s1.guardEnd e svc 5
    else (s1.raise b 4).result e m r (logicFlags r)
  else s.result e m r (logicFlags r)

/-- ST (R234, R237): a user routine may not store below 0x400. -/
def State.engStore (s : State) (e : Eng) (svc : Bool) (a b : W24) (imm : W24) : State :=
  let at_ := (a + imm).toNat % 2048
  if s.userRoutine e svc && decide (at_ < 0x400) then
    (s.setBit (ENG_STATUS_STORE_PROT (engBase e)) true).raiseWith (engBlk e) 1
      { plainRaise (engBlk e) with addr := at_, master := masterCode (engMaster e), access := 1 }
  else s.setWin (engBlk e) (0x4000 + at_) b

/-- A context waits for the REPLY to its field read (R238). -/
def State.isReading (s : State) (e : Eng) (svc : Bool) : Bool :=
  match s.ctx e svc with
  | some c => c.reading.isSome
  | none => false

/-- A field read's wait is over (R238, R239). -/
def State.readOver (s : State) (e : Eng) (svc : Bool) (c : Ctx) : State :=
  let b := engBase e
  let s1 := s.setCtx e svc (some { c with waitFrom := none, reading := none })
  if svc then s1
  else (s1.setBit (ENG_WAIT_COND_WAITING b) false).setFld (ENG_STATUS_STATE b) (if c.committed then 5 else 2)

/-- The value of a register reaches DST and XH (R237). -/
def State.readDone (s : State) (e : Eng) (m : Micro) (v : Word) : State :=
  let r : W24 := BitVec.ofNat 24 v.toNat
  (s.setEreg e 16 (BitVec.ofNat 24 (v.toNat / 2 ^ 24))).result e m r (logicFlags r)

/-- RDREG (R237, R238): Courier reads a field register through a READ envelope and waits for its REPLY; the TAG
tells the contexts apart. -/
def State.rdreg (s : State) (e : Eng) (svc : Bool) (m : Micro) (i : Nat) : State :=
  if !engReach e i then (s.setBit (ENG_STATUS_GUARD (engBase e)) true).readDone e m 0
  else if engAcross e i then
    let s1 := s.sendRead (engMaster e) (if svc then 1 else 0) i false
    s1.setCtx e svc ((s1.ctx e svc).map (fun c => { c with waitFrom := some s.tm.tick, reading := some ⟨i, m, none⟩ }))
  else
    let r := s.readReg (engMaster e) i
    r.2.readDone e m r.1

/-- The index of RDREG and WRREG (R237). -/
def accessIdx (a imm : W24) : Nat := (a.toNat + imm.toNat % 65536) % 65536

/-- The operation of a microword (Table 11-4); the branches of CALL, RET and END are its too. -/
def State.microOp (s : State) (e : Eng) (svc : Bool) (op : MOp) (m : Micro) : State :=
  let a := s.source e svc m.srca.toNat m.imm
  let b := s.source e svc m.srcb.toNat m.imm
  let logic := fun r => s.result e m r (logicFlags r)
  match op with
  | .nop => s
  | .mov => logic a
  | .add => s.result e m (a + b) (addFlags a b)
  | .sub => s.result e m (a - b) (subFlags a b)
  | .and => logic (a &&& b)
  | .or => logic (a ||| b)
  | .xor => logic (a ^^^ b)
  | .shl => logic (shlResult a b)
  | .shr => logic (shrResult a b)
  | .asr => logic (asrResult a b)
  | .mull => logic (mullResult a b)
  | .mulh => logic (mulhResult a b)
  | .cmp => s.setFlags e (subFlags a b)
  | .test => s.setFlags e (logicFlags (a &&& b))
  | .ld => s.engLoad e svc m a
  | .st => s.engStore e svc a b m.imm
  | .rdreg => s.rdreg e svc m (accessIdx a m.imm)
  | .wrreg => s.wrreg e svc m (accessIdx a m.imm)
      (BitVec.ofNat 32 ((s.ereg e 16).toNat % 256 * 2 ^ 24 + b.toNat))
  | .settimer => s.setEreg e 19 a
  | .req => s.request e (a.toNat % 64) b
  | .call =>
    let x := s.eng e
    if 8 ≤ x.stack.length then s.guardEnd e svc 0
    else s.setEng e { x with stack := BitVec.ofNat 12 (s.epc e svc + 1) :: x.stack }
  | .ret => s
  | .end_ => s.ctxEnd e svc

/-- Where the context goes next (R239). -/
def State.microBranch (s s1 : State) (e : Eng) (svc : Bool) (op : MOp) (m : Micro) : State :=
  let pc := s.epc e svc
  match op with
  | .call => s1.setEpc e svc m.next.toNat
  | .ret =>
    let x := s1.eng e
    match x.stack with
    | r :: rest => (s1.setEng e { x with stack := rest }).setEpc e svc r.toNat
    | [] => s1.guardEnd e svc 0
  | .end_ => s1
  | _ => s1.setEpc e svc (if s1.condHolds e m.cond.toNat then m.next.toNat else (pc + 1) % 4096)

/-- A microword of a context ends: its branch, then its commit point (R239, R247). -/
def State.microEnd (s s1 : State) (e : Eng) (svc : Bool) (op : MOp) (m : Micro) : State :=
  let s2 := s.microBranch s1 e svc op m
  if m.commit && !svc && (s2.ctx e svc).isSome then s2.commitMark e else s2

/-- One microword in a context (R239): its operation, its commit point and its branch.  A context without a
routine, or one that waits for a REPLY, executes none; a field read branches when its REPLY has come. -/
def State.micro (s : State) (e : Eng) (svc : Bool) (op : MOp) (m : Micro) : State :=
  if (s.ctx e svc).isNone || s.isReading e svc then s
  else
    let s1 := s.microOp e svc op m
    if (s1.ctx e svc).isNone || s1.isReading e svc then s1 else s.microEnd s1 e svc op m

/-- A REPLY, or the timeout, completes the field read of a context (R238). -/
def State.readReply (s : State) (e : Eng) (svc : Bool) (v : Word) : State :=
  match s.ctx e svc with
  | none => s
  | some c =>
    match c.reading with
    | none => s
    | some r => s.microEnd ((s.readOver e svc c).readDone e r.word v) e svc .rdreg r.word

/-- A field read whose REPLY has come completes: that wait did not time out. -/
def State.readTaken (s : State) (e : Eng) (svc : Bool) (v : Word) : State :=
  (s.setBit (ENG_STATUS_TO (engBase e)) false).readReply e svc v

/-- A REPLY to the engine: the context whose read it answers holds its value, and the wait ends after it. -/
def State.readAnswer (s : State) (e : Eng) (svc : Bool) (i : Nat) (v : Word) : State :=
  match s.ctx e svc with
  | none => s
  | some c =>
    match c.reading with
    | none => s
    | some r => if r.idx = i ∧ r.got = none then
        s.setCtx e svc (some { c with reading := some { r with got := some (s.tm.tick, v) } })
      else s

/-! ### Waits (R243, R244) -/

/-- A wait that R244 limits (Table 11-6). -/
def hasTimeout (w : Nat) : Bool :=
  [0x01, 0x02, 0x08, 0x0A, 0x0C, 0x0F, 0x10, 0x11, 0x12, 0x13, 0x14, 0x15].contains w

/-- A wait that began in tick t0 ends in this tick by its condition (Table 11-6). -/
def State.waitHolds (s : State) (e : Eng) (w t0 : Nat) : Bool :=
  let p := s.pmOf (engDie e)
  let after := match (s.eng e).events.find? (fun x => x.1 == w) with
    | some x => decide (t0 ≤ x.2) && decide (x.2 < s.tm.tick)
    | none => false
  match w with
  | 0x00 => true
  | 0x01 => isStroke p && decide (t0 < s.tm.tick)
  | 0x02 => isSheet p && decide (t0 < s.tm.tick)
  | 0x03 => s.ereg e 19 == 0
  | 0x04 => pmGe p (s.launchPm e)
  | 0x05 => s.windowOpen
  | 0x06 => !s.windowOpen
  | 0x14 => !s.bit PAL_STATUS_COPY_BUSY && !s.bit VAR_CTRL_COPY_BUSY
  | _ => after

/-- A wait that began in tick t0 reaches _WAIT_TIMEOUT.LIMIT in this tick (R244). -/
def State.waitOut (s : State) (e : Eng) (w t0 : Nat) : Bool :=
  let lim := s.fld (ENG_WAIT_TIMEOUT_LIMIT (engBase e))
  hasTimeout w && lim != 0 && decide (lim * 16384 ≤ s.tm.tick - t0)

/-- A wait ends by timeout (R244). -/
def State.timedOut (s : State) (e : Eng) : State :=
  let b := engBase e
  ((s.setBit (ENG_STATUS_TO b) true).inc (ENG_WAIT_COND_TIMEOUTS b)).raise (engBlk e) 2

/-- The main context waits on a code since tick t0 (Table 11-15). -/
def State.showWait (s : State) (e : Eng) (w t0 : Nat) : State :=
  let b := engBase e
  (((s.setBit (ENG_WAIT_COND_WAITING b) true).setFld (ENG_WAIT_COND_CODE b) w).setFld
    (ENG_WAIT_COND_ELAPSED b) (min 65535 ((s.tm.tick - t0) / 16384))).setFld (ENG_STATUS_STATE b) 3

/-- Put the start of a context's wait into it. -/
def State.setWait (s : State) (e : Eng) (svc : Bool) (t0 : Option Nat) : State :=
  s.setCtx e svc ((s.ctx e svc).map (fun c => { c with waitFrom := t0 }))

/-- A context's wait is over: the microword executes (R239, R243). -/
def State.waitOver (s : State) (e : Eng) (svc : Bool) : State :=
  let b := engBase e
  let s1 := s.setWait e svc none
  if svc then s1
  else (s1.setBit (ENG_WAIT_COND_WAITING b) false).setFld (ENG_STATUS_STATE b)
    (match s1.ctx e false with
      | some c => if c.committed then 5 else 2
      | none => s1.fld (ENG_STATUS_STATE b))

/-! ### Run-time guards (R256, Table 11-11 items 2, 5 and 6) -/

/-- A wait code that an engine has (Table 11-6). -/
def waitOk (e : Eng) (w : Nat) : Bool :=
  decide (w ≤ 0x07) || w == 0x0F || w == 0x14 ||
    (match e with
      | .courier => decide (0x08 ≤ w) && decide (w ≤ 0x0E)
      | .brush => decide (0x10 ≤ w) && decide (w ≤ 0x17))

/-- A microword meets item 2 of Table 11-11 on an engine. -/
def wordOk (e : Eng) (f : Fetched) (d : Nat) : Bool :=
  f.op.isSome && decide (d < 2 ^ 72) && decide (f.m.cond.toNat ≤ 17) && waitOk e f.m.wait.toNat &&
    dstOk f.m.dst.toNat && srcOk f.m.srca.toNat && srcOk f.m.srcb.toNat

/-- A microword may stand in a tail or in a service routine (R248, Table 11-11 items 5 and 6). -/
def tailOk (e : Eng) (svc : Bool) (f : Fetched) : Bool :=
  !f.m.commit && !f.m.stencil && (f.m.wait == 0 || (svc && f.m.wait == 8)) &&
    (svc || e == Eng.brush || f.op != some .rdreg)

/-- The microword breaks a rule that guards it at run time; a tail ends within 64 microwords. -/
def State.guarded (s : State) (e : Eng) (svc : Bool) (f : Fetched) (d : Nat) : Bool :=
  !wordOk e f d ||
    (match s.ctx e svc with
      | some c => (svc || c.committed) && !tailOk e svc f
      | none => false)

/-! ### Fetching and executing -/

/-- Fetch the microword of a context (R236): data bits, or none after an uncorrectable error. -/
def State.fetch (s : State) (e : Eng) (svc : Bool) : Option Nat × State :=
  let b := engBlk e
  let w := s.microBits e (s.epc e svc)
  let s1 := if s.injected b 1 then s.injectDone b else s
  let w' := if s.injected b 1 then (if s.injectDouble b then w ^^^ (3 * 2 ^ 88) else w ^^^ 2 ^ 88) else w
  match checkWord w' with
  | .good d => (some d, s1)
  | .mended d => (some d, s1.raise b 4)
  | .lost => (none, s1)

/-- Execute the fetched microword of a context. -/
def State.execFetched (s : State) (e : Eng) (svc : Bool) (d : Nat) : State :=
  let f := fieldsOf d
  match f.op with
  | some op => if s.guarded e svc f d then s.guardEnd e svc 0 else s.micro e svc op f.m
  | none => s.guardEnd e svc 0

/-- The breakpoint stops the main context here (Table 11-18, R257). -/
def State.atBreak (s : State) (e : Eng) : Bool :=
  let b := engBase e
  s.bit (ENG_BREAK_EN b) && s.epc e false == s.fld (ENG_BREAK_ADDR b)

/-- The main context stops at the breakpoint (R257). -/
def State.breakHit (s : State) (e : Eng) : State :=
  let b := engBase e
  ((s.setEng e { s.eng e with broken := true }).setBit (ENG_BREAK_HIT b) true).setFld (ENG_STATUS_STATE b) 6

/-- A context that waits for a REPLY, in one tick: the read completes after the REPLY, or by timeout (R238, R244). -/
def State.readTick (s : State) (e : Eng) (svc mayRun : Bool) (c : Ctx) : Bool × State :=
  let t0 := c.waitFrom.getD s.tm.tick
  match c.reading.bind (fun r => r.got) with
  | some (t, v) => if mayRun && decide (t < s.tm.tick) then (true, s.readTaken e svc v) else (false, s)
  | none =>
    if mayRun && s.waitOut e 8 t0 then (true, (s.timedOut e).readReply e svc 0xFFFFFFFF)
    else (false, if svc then s else s.showWait e 8 t0)

/-- A context in one tick: it waits, or its microword executes (R239, R244).  True when it executed. -/
def State.ctxTick (s : State) (e : Eng) (svc : Bool) (mayRun : Bool) : Bool × State :=
  match s.ctx e svc with
  | none => (false, s)
  | some c =>
    if c.reading.isSome then s.readTick e svc mayRun c
    else
      let x := s.eng e
      if !svc && s.atBreak e && !x.stepReq then
        (false, if x.broken then s else s.breakHit e)
      else
        let w0 := s.microBits e (s.epc e svc)
        let w := (fieldsOf (w0 % 2 ^ 88)).m.wait.toNat
        let t0 := c.waitFrom.getD s.tm.tick
        let out := s.waitOut e w t0
        if s.waitHolds e w t0 || out then
          if !mayRun then (false, s.setWait e svc (some t0))
          else
            let s1 := if out && !s.waitHolds e w t0 then s.timedOut e
              else if w = 0 then s else s.setBit (ENG_STATUS_TO (engBase e)) false
            let s2 := s1.waitOver e svc
            let s3 := if svc then s2 else s2.setEng e { s2.eng e with stepReq := false }
            let r := s3.fetch e svc
            (true, match r.1 with
              | some d => r.2.execFetched e svc d
              | none => r.2.guardEnd e svc 5)
        else
          let s1 := s.setWait e svc (some t0)
          (false, if svc then s1 else s1.showWait e w t0)

/-! ### Dispatch (R241, R242) -/

/-- The pending routine of a context with the lowest PRIORITY, then the lowest number (R241). -/
def State.bestPending (s : State) (e : Eng) (svc : Bool) : Option (Nat × W24) :=
  let xs := (s.eng e).pend.filter (fun x => descService (s.desc0 e x.1) == svc)
  xs.foldl (fun best x =>
    match best with
    | none => some x
    | some y => if descPriority (s.desc0 e x.1) < descPriority (s.desc0 e y.1) then some x else some y) none

/-- Lyjor's standard routines of Table 11-12: the model gives their work by the rules that describe it, not by
microcode. -/
def builtIn (n : Nat) : Bool := decide (n < 6)

/-- Launch the map change of a spare swap (R349): a window write first names the row. -/
def State.swapSend (s : State) (w : Staged) : State :=
  let s1 := if w.idx = COL_SPARE_CTRL then s
    else s.sendWrite .courier 0 0x11E0 (BitVec.ofNat 32 w.wa) none
  { s1.sendWrite .courier 0 w.idx w.val w.launch with
    flt := { s1.flt with swapSent := s1.flt.swapSent ++ [w] } }

/-- The map changes that swap a unit out at a boundary (R349): a front end by COL_SPARE_CTRL, a driver by its row
map entry. -/
def State.swapWrites (s : State) (u : Nat) (at_ : PM) : List Staged :=
  if u < 0x22 then
    ((List.range 32).filter (fun c => s.colFe c == u)).map (fun c =>
      ⟨COL_SPARE_CTRL, BitVec.ofNat 32 (0x10000 + c), some at_, 0⟩)
  else match spareOf u with
    | some sp =>
      ((List.range 64).filter (fun r => s.rowDrv r == u - 0x40)).map (fun r =>
        ⟨0x11E1, BitVec.ofNat 32 ((sp - 0x40) * 256 + s.rowPin r), some at_, 0x200 + r⟩)
    | none => []

/-- The retired bit of a unit that FAULT_POLICY swaps out, launched at the postmark of the swap (R281, R283): the
word of the retired table with the bits that Courier has launched already. -/
def State.retireAt (s : State) (u : Nat) (at_ : PM) : State :=
  let w := u / 24
  let soon := s.hostQ.filter (fun e => e.idx == 0x02E1 && e.wa == w && e.master == .courier)
  let v := soon.foldl (fun (x : Nat) e => x ||| e.val.toNat) (s.winN .bar w) ||| 2 ^ (u % 24)
  (s.launchWrite .host ⟨at_, 0x02E1, BitVec.ofNat 32 v, .courier, w, .plain, s.cou.launches + 8⟩).2

/-- The spare swaps that FAULT_POLICY owes are launched (R349), at the first sheet boundary at least 2048 ticks
after the raise. -/
def State.faultPolicy (s : State) : State :=
  let due := s.flt.swapDue
  let s0 := { s with flt := { s.flt with swapDue := [] } }
  forEach due (fun t x =>
    let at_ := sheetAtOrAfter (x.2 + 2048)
    (forEach (t.swapWrites x.1 at_) (fun u w => u.swapSend w) t).retireAt x.1 at_) s0

/-- SLOWCTL sees to the requests that wait for it (Table 11-12): a stall for want of it ends (R355). -/
def State.slowWork (s : State) : State :=
  let s1 := { s with lnk := { s.lnk with scBusy := [] } }
  if s1.bit (ENG_CTRL_RUN 0x600) then s1.standing .cou 6 false else s1

/-- The power command to the field die (R364): T follows from the decision that the PWR block holds. -/
def State.powerRoutine (s : State) : State :=
  match s.pwr.atT with
  | some t => s.sendWrite .courier 0 PWR_STATE (BitVec.ofNat 32 (s.fld PWR_STATE_TARGET * 2 ^ 28)) (some t)
  | none => s

/-- The work of a standard routine as it is dispatched (Table 11-12): what the rules leave to it beside the
commands of their own. -/
def State.standardWork (s : State) (e : Eng) (n : Nat) : State :=
  match e, n with
  | .courier, 1 => s.slowWork
  | .courier, 2 => s.faultPolicy
  | .courier, 4 => s.powerRoutine
  | _, _ => s

/-- A routine starts in a context (R241, R242). -/
def State.startRoutine (s : State) (e : Eng) (svc : Bool) (n : Nat) (arg : W24) : State :=
  let b := engBase e
  if builtIn n then s.standardWork e n
  else
    let s1 := (s.setCtx e svc (some ⟨n, arg, false, none, none⟩)).setEpc e svc (descEntry (s.desc0 e n)).toNat
    if svc then s1
    else
      let s2 := ((s1.setEng e { s1.eng e with stack := [] }).setFld (ENG_STATUS_STATE b) 2).setFld
        (ENG_STATUS_ROUTINE b) n
      ((s2.setBit (ENG_ROUTINE_ACTIVE_VALID b) true).setFld (ENG_ROUTINE_ACTIVE_ROUTINE b) n).setFld
        (ENG_ROUTINE_ACTIVE_RESTARTS b) (assocGet (s2.eng e).restarts n 0)

/-- Take a routine out of the pending set and start it. -/
def State.startPending (s : State) (e : Eng) (svc : Bool) (x : Nat × W24) : State :=
  let g := s.eng e
  (s.setEng e { g with pend := assocErase g.pend x.1 }).startRoutine e svc x.1 x.2

/-- Dispatch in both contexts where they are free and RUN is 1 (R241, R242, R257). -/
def State.dispatch (s : State) (e : Eng) : State :=
  if !s.bit (ENG_CTRL_RUN (engBase e)) then s
  else
    let s1 := match (s.eng e).svc, s.bestPending e true with
      | none, some x => s.startPending e true x
      | _, _ => s
    let x := s1.eng e
    if x.main.isSome || x.restoreAt.isSome || decide (s1.tm.tick < x.freeAt) then s1
    else match x.owed with
      | (_, n, arg) :: rest =>
        let s2 := s1.setEng e { x with owed := rest }
        if descValid (s2.desc0 e n) then s2.startRoutine e false n arg
        else s2.setBit (ENG_STATUS_REQ_REJECT (engBase e)) true
      | [] =>
        match s1.bestPending e false with
        | some y => s1.startPending e false y
        | none => s1

/-! ### Abandon (R251 to R255) -/

/-- MASK of a routine (Table 11-8). -/
def State.maskBits (s : State) (e : Eng) (n : Nat) : BitVec 5 := BitVec.ofNat 5 (s.engData e (2 * n + 1)).toNat

/-- The main routine is abandoned for causes in its MASK (R251, R252, R255). -/
def State.abandon (s : State) (e : Eng) (causes : BitVec 5) : State :=
  match (s.eng e).main with
  | none => s
  | some c =>
    let hit := causes &&& s.maskBits e c.routine
    if hit = 0 then s
    else if c.committed || (s.eng e).restoreAt.isSome then
      s.setEng e { s.eng e with held := (s.eng e).held ||| hit }
    else
      let s1 := s.engMark e hit
      s1.setEng e { s1.eng e with owed := (s1.eng e).owed ++ s1.handlersFor e c.routine hit }

/-- The causes recognised in this tick (R251). -/
def State.causesTick (s : State) (e : Eng) : State :=
  let k := (s.eng e).causes
  (s.setEng e { s.eng e with causes := 0 }).abandon e k

/-! ### One tick -/

/-- TIMER counts down at a sheet boundary (Table 11-6). -/
def State.timerTick (s : State) (e : Eng) : State :=
  let t := s.ereg e 19
  if isSheet (s.pmOf (engDie e)) && t != 0 then s.setEreg e 19 (t - 1) else s

/-- The restores and staged writes that fall in this tick. -/
def State.restoreTick (s : State) (e : Eng) : State :=
  if (s.eng e).restoreAt = some s.tm.tick then s.engRestore e else s

/-- The contexts of an engine in one tick: the service context first (R242). -/
def State.execTick (s : State) (e : Eng) : State :=
  let x := s.eng e
  let r := s.ctxTick e true true
  let restoring := match x.main with
    | some c => x.restoreAt.isSome && !c.committed
    | none => false
  if restoring then r.2 else (r.2.ctxTick e false (!r.1)).2

/-- One tick of an engine: the timer, restores and staged writes, interrupts, dispatch, microwords. -/
def State.engTick (s : State) (e : Eng) : State :=
  (((((s.timerTick e).restoreTick e).causesTick e).dispatch e).execTick e)

/-! ### Rows that act on an engine from outside its own time -/

/-- The wait of the main context ends now and its microword executes (R243); the wait for a REPLY ends with the
REPLY (R238). -/
def State.waitEndNow (s : State) (e : Eng) : State :=
  let s1 := (s.setBit (ENG_STATUS_TO (engBase e)) false).waitOver e false
  if (s1.ctx e false).isNone then s
  else if s.isReading e false then
    match (s.eng e).main.bind (fun c => c.reading.bind (fun r => r.got)) with
    | some x => s.readTaken e false x.2
    | none => s
  else
    let r := s1.fetch e false
    match r.1 with
    | some d => r.2.execFetched e false d
    | none => r.2.guardEnd e false 5

/-- The wait of the main context ends by timeout and its microword executes (R244). -/
def State.waitOutNow (s : State) (e : Eng) : State :=
  if (s.ctx e false).isNone then s
  else if s.isReading e false then (s.timedOut e).readReply e false 0xFFFFFFFF
  else
    let r := ((s.timedOut e).waitOver e false).fetch e false
    match r.1 with
    | some d => r.2.execFetched e false d
    | none => r.2.guardEnd e false 5

/-- One microword executes at a breakpoint (R257). -/
def State.stepNow (s : State) (e : Eng) : State :=
  if (s.eng e).broken && (s.ctx e false).isSome then
    let r := s.fetch e false
    match r.1 with
    | some d => r.2.execFetched e false d
    | none => r.2.guardEnd e false 5
  else s

/-- The main context goes on from a breakpoint (R257). -/
def State.resumeNow (s : State) (e : Eng) : State :=
  let x := s.eng e
  if x.broken then s.setEng e { x with broken := false, stepReq := true } else s

/-- The whole of a commit (R247): the mark in tick c and what follows at the start of the next. -/
def State.commitNow (s : State) (e : Eng) : State :=
  match (s.eng e).main with
  | none => s
  | some c => if c.committed then s else (s.commitMark e).engRestore e

/-- The whole of an abandon (R252). -/
def State.abandonNow (s : State) (e : Eng) (causes : BitVec 5) : State :=
  let s1 := s.abandon e causes
  if (s.eng e).restoreAt.isNone && (s1.eng e).restoreAt.isSome then s1.engRestore e else s1

/-- The whole of END (R249). -/
def State.endNow (s : State) (e : Eng) (svc : Bool) : State :=
  let s1 := s.ctxEnd e svc
  if !svc && (s.eng e).restoreAt.isNone && (s1.eng e).restoreAt.isSome then s1.engRestore e else s1

end Sys2Proof.Machine
end

