-- ==== Sys2Proof/Machine/Links.lean ====
section
/-!
DEFINITION. The links (chapter 13): line coding, downlink blocks and fast commands, slow control and its
replies, cover parcels, the sorting office's slots and chained devices.
-/
namespace Sys2Proof.Machine

/-! ### Line coding (R284, R290) -/

/-- 32 bits through the scrambler x^58 + x^39 + 1, most significant first: what the register of the last 58
line bits, the newest in bit 0, adds to them. -/
def scrKey (st : Nat) : Nat := (st / 2 ^ 26 % 2 ^ 32) ^^^ (st / 2 ^ 7 % 2 ^ 32)

/-- The register after 32 more line bits. -/
def scrNext (st line : Nat) : Nat := (st * 2 ^ 32 + line % 2 ^ 32) % 2 ^ 58

/-- Descramble a 64-bit block, bit 63 first: the register and the block. -/
def descramble (st : BitVec 58) (line : BitVec 64) : BitVec 58 × BitVec 64 :=
  let hi := line.toNat / 2 ^ 32
  let lo := line.toNat % 2 ^ 32
  let s1 := scrNext st.toNat hi
  (BitVec.ofNat 58 (scrNext s1 lo),
    BitVec.ofNat 64 ((hi ^^^ scrKey st.toNat) * 2 ^ 32 + (lo ^^^ scrKey s1)))

/-- Scramble a 64-bit block, bit 63 first: the register and the line bits. -/
def scramble (st : BitVec 58) (block : BitVec 64) : BitVec 58 × BitVec 64 :=
  let hi := (block.toNat / 2 ^ 32) ^^^ scrKey st.toNat
  let s1 := scrNext st.toNat hi
  let lo := (block.toNat % 2 ^ 32) ^^^ scrKey s1
  (BitVec.ofNat 58 (scrNext s1 lo), BitVec.ofNat 64 (hi * 2 ^ 32 + lo))

/-- The line blocks of parcel blocks i to 3: sync header and scrambled bits; block 0 of a cover parcel has the
header 10 (R290). -/
def lineBlocks (cover : Bool) (p : Nat) : Nat → Nat → BitVec 58 → BitVec 58 × List (BitVec 2 × BitVec 64)
  | 0, _, st => (st, [])
  | n + 1, i, st =>
    let x := scramble st (BitVec.ofNat 64 (p / 2 ^ (64 * (3 - i))))
    let r := lineBlocks cover p n (i + 1) x.1
    (r.1, (if cover && i == 0 then 2 else 1, x.2) :: r.2)

/-- A port sends a parcel in this tick. -/
def State.sendPort (s : State) (p : Nat) (par : Parcel) (cover : Bool) : State :=
  let l := lineBlocks cover par.toNat 4 0 (assocGet s.lnk.scr p 0)
  { s with lnk := { s.lnk with out := assocSet s.lnk.out p par, scr := assocSet s.lnk.scr p l.1,
                               line := assocSet s.lnk.line p l.2 } }

/-! ### Fast commands (R47, R285) -/

/-- The codes of Table 13-1 that act 48 ticks after their block. -/
def fastKnown (code : Nat) : Bool :=
  [0x02, 0x10, 0x11, 0x20, 0x30, 0x40, 0x41, 0x50, 0xE0, 0xE1].contains code

/-- A fast command of a good block is received (R47): IDLE does nothing and an undefined code is counted. -/
def State.fastReceive (s : State) (code : Nat) : State :=
  if code = 0 then s
  else if fastKnown code then
    { s with tm := { s.tm with fast := s.tm.fast ++ [⟨s.tm.tick + 48, BitVec.ofNat 8 code⟩] } }
  else s.inc TIM_FASTCMD_COUNT_UNKNOWN

/-- A defined fast command takes effect at the present postmark (Table 02-13). -/
def State.fastCount (s : State) (code : Nat) : State :=
  ((s.inc TIM_FASTCMD_COUNT_ACCEPTED).setFld TIM_FASTCMD_LAST_CODE code).setFld TIM_FASTCMD_LAST_PM_LOW
    (s.tm.hpm.toNat % 2 ^ 24)

/-! ### POSTMARK_SET (R41 to R43, R287) -/

/-- Slow-control frames that completed within the 96 ticks before tick A lose their reply (R287). -/
def State.dropReplies (s : State) (a : Nat) : State :=
  let late := fun (c : Nat) => decide (a ≤ c + 96)
  let gone := fun (r : ScReply) => late (r.tick - (if r.second then 96 else 64))
  let n := (s.lnk.replies.filter gone).length + (s.lnk.scWait.filter (fun w => late w.done)).length
  ({ s with lnk := { s.lnk with replies := s.lnk.replies.filter (fun r => !gone r),
                                scWait := s.lnk.scWait.filter (fun w => !late w.done) } }).count
    LNK_SLOWCTL_STATUS_DROPPED n

/-- A POSTMARK_SET is discarded (R43). -/
def State.pmReject (s : State) : State := (s.setBit TIM_STATUS_PMSET_REJECT true).raise .tim 1

/-- A POSTMARK_SET whose first block arrived in tick u is decided when its second block has arrived (R43): it is
discarded, or it takes the place of an earlier one and its TIME envelope waits for its lane (R271).  A first block
in the last tick before an earlier one's tick A comes too late as well: that renaming has just been made. -/
def State.pmDecide (s : State) (u : Nat) (lat : BitVec 12) (v : PM) (ok : Bool) : State :=
  let late := match s.tm.pmSet with
    | some p => decide (p.tick + 33 ≤ u) && decide (u ≤ p.tick + 47)
    | none => false
  let after := match s.tm.lastRen with
    | some (a, _) => decide (a = u + 1)
    | none => false
  if !ok || late || after then s.pmReject
  else
    let a := u + 48
    let old := s.tm.hpm + BitVec.ofNat 48 (a - s.tm.tick)
    let new := v + BitVec.ofNat 48 lat.toNat
    let s1 := { s with tm := { s.tm with pmSet := some ⟨u, v, lat⟩ },
                       bar := { s.bar with txH := s.bar.txH.filter (fun d => d.typ != tTIME) } }
    (s1.dropReplies a).sendH ⟨tTIME, 2, hfUnit false .barrier 0, none, old.toNat * 2 ^ 48 + new.toNat, false⟩

/-- The second block of a POSTMARK_SET, or what stands in its place (R41, R43). -/
def State.pmSecond (s : State) (ok : Bool) (vLow reserved : Nat) : State :=
  match s.tm.pmFirst with
  | none => s
  | some f =>
    ({ s with tm := { s.tm with pmFirst := none } }).pmDecide f.tick f.lat
      (BitVec.ofNat 48 (f.vHi.toNat * 256 + vLow % 256)) (ok && reserved == 0)

/-! ### Slow control (R286 to R289) -/

/-- A reply slot (Table 13-3). -/
def replyBits (status tag idx : Nat) (v : Word) : Nat :=
  ((status % 16 * 16 + tag % 16) * 2 ^ 16 + idx % 2 ^ 16) * 2 ^ 32 + v.toNat

/-- Put a reply in the cover of its fixed tick (R289): done is the completion tick. -/
def State.scReply (s : State) (second : Bool) (done status tag idx : Nat) (v : Word) : State :=
  let r : ScReply := ⟨second, done + (if second then 96 else 64), replyBits status tag idx v⟩
  { s with lnk := { s.lnk with replies := s.lnk.replies ++ [r] } }

/-- The fields of a request (Table 13-2). -/
def reqFld (f : ScFrame) (hi lo : Nat) : Nat := bitsOf f.req.toNat hi lo

/-- A host-register request in its completion tick (R288). -/
def State.scHost (s : State) (op tag idx : Nat) (v : Word) (pm : PM) : State :=
  if op = 1 then
    let r := s.readReg .slow idx
    r.2.scReply false s.tm.tick 1 tag idx r.1
  else if op = 2 then (s.writeReg .slow idx v).scReply false s.tm.tick 1 tag idx v
  else
    let r := if (blkOf idx).isSome then s.launchReg .slow idx v pm .plain tag
      else (s.launchCode .host pm 1, s)
    r.2.scReply false s.tm.tick (r.1 + 2) tag idx v

/-- A field-register request waits for the field die (R288). -/
def State.scField (s : State) (op tag idx : Nat) (v : Word) (pm : PM) : State :=
  if !s.barUp then s.scReply true s.tm.tick 10 tag idx 0
  else { s with lnk := { s.lnk with scWait := s.lnk.scWait ++ [⟨tag, op, idx, v, pm, s.tm.tick⟩] } }

/-- Courier is asked to see to an assembled request (Table 11-12, Table 11-6). -/
def State.scAsk (s : State) : State :=
  let s1 := (s.trigger .courier 1).note .courier 0x0B
  if assocHas s1.cou.pend 1 && s1.bit (ENG_CTRL_RUN 0x600) then
    { s1 with lnk := { s1.lnk with scBusy := s1.lnk.scBusy ++ [s1.tm.tick] } }
  else s1

/-- A POSTMARK_SET whose tick A lies ahead stands in the way of a frame that completes now (R287). -/
def State.scBlocked (s : State) : Bool :=
  match s.tm.pmSet with
  | some p => decide (s.tm.tick < p.tick + 48)
  | none => false

/-- A frame completes in this tick (R286 to R288). -/
def State.scServe (s : State) (f : ScFrame) : State :=
  let op := reqFld f 159 156
  let tag := reqFld f 147 144
  let idx := reqFld f 143 128
  let v : Word := BitVec.ofNat 32 (reqFld f 127 96)
  let pm : PM := BitVec.ofNat 48 (reqFld f 95 48)
  let field := decide (0x1000 ≤ idx) && decide (idx < 0x2000)
  if f.damaged || s.scBlocked then s.inc LNK_SLOWCTL_STATUS_DROPPED
  else if op = 0 ∨ reqFld f 155 148 ≠ s.fld LNK_NODE_ADDRESS_NODE ∨ s.bit LNK_CTRL_SC_EN = false then s
  else
    let s1 := s.scAsk
    if 4 ≤ op then s1.scReply f.posB s.tm.tick 11 tag idx 0
    else if field != f.posB then s1.scReply f.posB s.tm.tick 8 tag idx 0
    else if field then s1.scField op tag idx v pm
    else s1.scHost op tag idx v pm

/-- The envelopes of the field requests that completed two ticks ago (R288). -/
def State.scSend (s : State) : State :=
  forEach (s.lnk.scWait.filter (fun w => decide (w.done + 1 = s.tm.tick))) (fun t w =>
    if w.op = 1 then t.sendRead .slow w.tag w.idx false
    else t.sendWrite .slow w.tag w.idx w.val (if w.op = 3 then some w.pm else none)) s

/-- The field die's answer to a request (R288, Table 13-3). -/
def State.scAnswer (s : State) (tag idx : Nat) (v : Word) (status : Nat) : State :=
  match s.lnk.scWait.find? (fun w => w.tag == tag && w.idx == idx) with
  | none => s
  | some w =>
    let s1 := { s with lnk := { s.lnk with scWait := s.lnk.scWait.filter (fun x => x != w) } }
    if status = 7 then s1.scReply true w.done 10 tag idx 0
    else if status = 6 then s1.scReply true w.done 1 tag idx (if w.op = 1 then v else w.val)
    else s1.scReply true w.done (status + 2) tag idx w.val

/-- No REPLY by completion + 88 (R288). -/
def State.scLate (s : State) (w : ScWait) : State :=
  ({ s with lnk := { s.lnk with scWait := s.lnk.scWait.filter (fun x => x != w) } }).scReply true w.done 9
    w.tag w.idx (BitVec.allOnes 32)

/-- Requests whose deadline has passed. -/
def State.scDue (s : State) : List ScWait :=
  s.lnk.scWait.filter (fun w => decide (w.done + 88 ≤ s.tm.tick))

/-- A block of a frame (R286): the frame completes with its fourth block. -/
def State.frameBlock (s : State) (field : Nat) (bad : Bool) : State :=
  let ph := s.tm.hpm.toNat % 64
  let b : ScBlock := ⟨s.tm.tick, field, bad⟩
  let put := fun (fr : List ScBlock) => { s with lnk := { s.lnk with frame := fr } }
  if ph = 61 ∨ ph = 29 then put [b]
  else if ph = 62 ∨ ph = 63 ∨ ph = 30 ∨ ph = 31 then
    (if s.lnk.frame.isEmpty then s else put (s.lnk.frame ++ [b]))
  else if ph = 0 ∨ ph = 32 then
    let fr := s.lnk.frame ++ [b]
    let whole := fr.length == 4 && (fr.head?.map (fun x => x.tick + 3 == s.tm.tick)).getD false
    let req := fr.foldl (fun a x => a * 2 ^ 40 + x.field % 2 ^ 40) 0
    if whole then (put []).scServe ⟨ph == 32, fr.any (fun x => x.bad), BitVec.ofNat 160 req⟩ else put []
  else s

/-! ### Downlink blocks (R284) -/

/-- A block's frank is right (R284). -/
def blockFrankOk (d : Nat) : Bool := crc16 48 (d / 2 ^ 16) == d % 2 ^ 16

/-- Remember MARK of a block (R289). -/
def State.putMark (s : State) (m : Nat) : State :=
  let t := s.tm.tick
  { s with lnk := { s.lnk with marks := s.lnk.marks.filter (fun x => decide (t ≤ x.1 + 64)) ++ [(t, m)] } }

/-- A block while the tick clock runs: header, and the descrambled block (R284, R41). -/
def State.blockLive (s : State) (header : Nat) (d : Nat) : State :=
  let badHdr := header == 0 || header == 3
  let hit := s.injected .lnk 4
  let good := header == 1 && blockFrankOk d && !hit
  let s0 := if hit && !badHdr then s.injectDone .lnk else s
  let s1 := { s0 with tm := { s0.tm with hdrBad := s0.tm.hdrBad ||| (if badHdr then 1 else 0) } }
  let s2 := if badHdr then (s1.inc LNK_DOWN_ERRORS_SYNC).raise .lnk 3
    else if !good then (s1.inc LNK_DOWN_ERRORS_DISCARDED).raise .lnk 3
    else s1
  let code := bitsOf d 63 56
  let field := bitsOf d 55 16
  let second := match s2.tm.pmFirst with
    | some f => decide (f.tick + 1 = s2.tm.tick)
    | none => false
  let first := good && !second && code == 1
  let set := first || second
  let s3 := s2.putMark (if good && !set then bitsOf field 39 8 else 2 ^ 32 - 1)
  let s4 := s3.frameBlock field (!good || set)
  let s5 := if second then s4.pmSecond good (bitsOf field 39 32) (field % 2 ^ 32) else s4
  if first then
    let f : PmFirst :=
      ⟨s5.tm.tick, BitVec.ofNat 40 field, BitVec.ofNat 12 (s5.fld TIM_FIXED_LATENCY_LATENCY)⟩
    { s5 with tm := { s5.tm with pmFirst := some f } }
  else if good then s5.fastReceive code else s5

/-- A downlink block (R284); without the tick clock it counts towards lock (R36). -/
def State.downBlock (s : State) (header : BitVec 2) (line : BitVec 64) : State :=
  let x := descramble s.tm.descr line
  let s1 := { s with tm := { s.tm with descr := x.1 } }
  if s1.tm.clk then s1.blockLive header.toNat x.2.toNat
  else
    let good := header == 1 && blockFrankOk x.2.toNat
    { s1 with tm := { s1.tm with goodRun := if good then min (s1.tm.goodRun + 1) 64 else 0 } }

/-! ### Cover parcels (R289, R292) -/

/-- Pack fields, most significant first: width and value. -/
def packFields (fs : List (Nat × Nat)) : Nat := fs.foldl (fun a f => a * 2 ^ f.1 + f.2 % 2 ^ f.1) 0

/-- The highest severity of the host's mirror bits (R352). -/
def State.mirrorSev (s : State) : Nat :=
  fieldBlks.foldl (fun m b =>
    let bits := (assocGet s.flt.mirror (blkNum b) 0).toNat
    (List.range 16).foldl (fun n i => if bitOf bits i then max n (assocGet s.flt.mirSev (srcKey b i) 0) else n)
      m) 0

/-- The highest unacknowledged severity that the host die sees (R292, R353): its own groups, its mirror bits
and the last HEARTBEAT. -/
def State.seenSev (s : State) : Nat :=
  max (hostBlks.foldl (fun m b => max m (s.maxSev b)) 0) (max s.mirrorSev s.bar.lastHbSev)

/-- ECHO of a cover that leaves now (R289). -/
def State.echo (s : State) : Nat :=
  match s.lnk.marks.find? (fun x => decide (x.1 + 64 = s.tm.tick)) with
  | some x => x.2
  | none => 0

/-- The reply slot of a cover that leaves now (R289). -/
def State.replySlot (s : State) (second : Bool) : Nat :=
  match s.lnk.replies.find? (fun r => r.second == second && decide (r.tick = s.tm.tick)) with
  | some r => r.bits
  | none => 0

/-- The cover parcel of a port (Table 13-6). -/
def State.coverFor (s : State) (p : Nat) : Parcel :=
  let epoch := if s.bit (LNK_PORT_STATUS_RETIRED p) then s.fld (LNK_PORT_STATUS_RETIRED_EPOCH p)
    else s.bar.hostEpoch.toNat
  franked (packFields [(4, 0xF), (42, s.tm.hpm.toNat / 64), (2, epoch), (2, p),
    (1, if s.hostTab then 1 else 0), (8, s.fld LNK_NODE_ADDRESS_NODE), (3, s.glb),
    (4, s.fld GLB_DETERMINISM_REASON), (2, s.seenSev), (3, s.fld PWR_STATE_STATE),
    (1, if s.drapeSent then 1 else 0), (6, s.str.lostN), (6, s.fld LNK_DEADLETTER_COUNT_ENVELOPES),
    (6, s.fld LNK_DEADLETTER_COUNT_PARCELS), (6, 0), (32, s.echo), (56, s.replySlot false),
    (56, s.replySlot true)])

/-- The replies that leave now are counted (Table 13-20). -/
def State.repliesGo (s : State) : State :=
  let now := fun (r : ScReply) => decide (r.tick = s.tm.tick)
  forEach (s.lnk.replies.filter now) (fun t r =>
    ((t.setFld LNK_SLOWCTL_STATUS_SERVED (t.fld LNK_SLOWCTL_STATUS_SERVED + 1)).setFld
      LNK_SLOWCTL_STATUS_LAST_STATUS (bitsOf r.bits 55 52)).setFld LNK_SLOWCTL_STATUS_LAST_TAG
      (bitsOf r.bits 51 48))
    { s with lnk := { s.lnk with replies := s.lnk.replies.filter (fun r => !now r) } }

/-- An UP lane whose transmitter has lost lock sends nothing until it is retired (R299). -/
def State.portDark (s : State) (p : Nat) : Bool :=
  s.bit (LNK_PORT_STATUS_FAILED p) && !s.bit (LNK_PORT_STATUS_RETIRED p) && !s.bit (LNK_PORT_STATUS_LOCK p)

/-- Slot 0 of a sheet (R292): the stream of the sheet is settled and every UP port sends its cover. -/
def State.covers (s : State) : State :=
  if isSheet s.tm.hpm then
    let s1 := s.streamPlan
    (forEach ((List.range 4).filter (fun p => s1.isUp p && !s1.portDark p)) (fun t p => t.sendPort p (t.coverFor p) true)
      s1).repliesGo
  else s

/-! ### Slots (R294) -/

/-- The parcel of one or two HK_RESULT payloads (Table 13-5). -/
def hkParcel (a b : Nat) : Parcel := franked (packFields [(4, 0x3), (96, a), (96, b), (44, 0)])
/-- A status parcel (Table 13-5). -/
def statusParcel (x : QItem) : Parcel := franked (packFields [(4, 0xC), (4, x.src), (96, x.pay), (136, 0)])

/-- Records of a queue that may fill a slot now. -/
def State.ripe (s : State) (q : List QItem) : List QItem := q.filter (fun x => decide (x.tick < s.tm.tick))

/-- An HK slot (R294). -/
def State.hkSlot (s : State) : Parcel × State :=
  match s.ripe s.lnk.hkQ with
  | [] => (0, s)
  | a :: rest =>
    let b := rest.head?
    let n := if b.isSome then 2 else 1
    (hkParcel a.pay ((b.map (fun x => x.pay)).getD 0), { s with lnk := { s.lnk with hkQ := s.lnk.hkQ.drop n } })

/-- A status slot (R294): fault records ahead of status records. -/
def State.stSlot (s : State) : Parcel × State :=
  let q := s.ripe s.lnk.stQ
  let pick := match q.find? (fun x => x.src != 2) with
    | some x => some x
    | none => q.head?
  match pick with
  | none => (0, s)
  | some x => (statusParcel x, { s with lnk := { s.lnk with stQ := dropAt s.lnk.stQ (s.lnk.stQ.idxOf x) } })

/-- A PEER slot (R296): the parcel that port q's peer sent in slot k of sheet S, in this device's sheet S + 64F. -/
def State.peerSlot (s : State) (q k : Nat) : Parcel × State :=
  let sheet := sheetOf s.tm.hpm - BitVec.ofNat 48 (64 * s.fld (LNK_PORT_CFG_FWD q))
  match s.lnk.peers.find? (fun x => x.port == q && x.sheet == sheet) with
  | some x =>
    if x.parcels.isEmpty then (0, s)
    else
      let par := x.parcels.getD k 0
      if x.arrived + k + 4 ≤ s.tm.tick then (par, s)
      else (0, s.deadParcel 5 q (s.fld (LNK_PORT_STATUS_PEER_EPOCH q)) (s.fld (LNK_PORT_STATUS_PEER_NODE q)) k
        (par.toNat / 2 ^ 232) 1)
  | none => (0, s.deadParcel 5 q (s.fld (LNK_PORT_STATUS_PEER_EPOCH q)) (s.fld (LNK_PORT_STATUS_PEER_NODE q)) k 0 1)

/-- The parcel of a stream slot: slot number j among the sheet's STREAM slots (R294). -/
def State.streamSlot (s : State) (p k : Nat) : Parcel := s.str.plan.getD (s.streamSlots.idxOf (k, p)) 0

/-- The parcel of a port's present slot after slot 0 (R294, R299): the lane that has failed or is retired takes
nothing off a queue. -/
def State.slotParcel (s : State) (p : Nat) : Parcel × State :=
  let k := s.tm.hpm.toNat % 64
  if s.bit (LNK_PORT_STATUS_RETIRED p) then (0, s)
  else match s.schedKind s.hostTab p k with
    | 2 => (s.streamSlot p k, s)
    | 3 => if s.laneDown p then (0, s) else (s.dueParcel p, s)
    | 4 => if s.laneDown p then (0, s) else s.hkSlot
    | 5 => if s.laneDown p then (0, s) else s.stSlot
    | 6 => if s.laneDown p then (0, s) else (s.dueParcel p, s)
    | 7 => s.peerSlot (s.schedPort s.hostTab p k) (s.schedSlot s.hostTab p k)
    | _ => (0, s)

/-- An UP port fills its present slot (R294). -/
def State.slotFill (s : State) (p : Nat) : State :=
  if s.isUp p && !isSheet s.tm.hpm then
    let r := s.slotParcel p
    if s.portDark p then r.2 else r.2.sendPort p r.1 false
  else s

/-! ### Chained devices (R296 to R298) -/

/-- The epoch in force on the host die at the tick of a postmark not far back (R297). -/
def State.epochAtPm (s : State) (p : PM) : BitVec 2 :=
  epochAt s.bar.hostEpoch s.bar.prevHostEpoch (s.tm.tick - pmDist p s.tm.hpm)

/-- The reason for which a peer lane-sheet is refused, 0 when it is accepted (R297). -/
def State.peerReason (s : State) (p : Nat) (coverOk : Bool) (cover : Nat) : Nat :=
  if !coverOk then 6
  else if s.bit (LNK_PORT_STATUS_RETIRED p) then 3
  else if bitsOf cover 204 197 ≠ s.fld (LNK_PORT_CFG_EXPECT_NODE p) then 4
  else if BitVec.ofNat 2 (bitsOf cover 209 208) ≠ s.epochAtPm (BitVec.ofNat 48 (bitsOf cover 251 210 * 64)) then 1
  else 0

/-- What a peer cover shows in the port's registers (Tables 13-15, 13-19). -/
def State.peerShown (s : State) (p reason : Nat) (coverOk : Bool) (cover : Nat) : State :=
  let s1 := if coverOk then
      let d := pmDist (BitVec.ofNat 48 (bitsOf cover 251 210 * 64)) s.tm.hpm
      ((s.setFld (LNK_PORT_STATUS_PEER_EPOCH p) (bitsOf cover 209 208)).setFld (LNK_PORT_STATUS_PEER_NODE p)
        (bitsOf cover 204 197)).setFld (LNK_PORT_STATUS_ARRIVAL p) (min d 255)
    else s.inc (LNK_PORT_STATUS_ERRORS p)
  let s2 := (s1.setBit (LNK_PORT_STATUS_COVER_OK p) (reason == 0)).setBit (LNK_PEER_STATE_ACCEPTING p)
    (reason == 0)
  if reason = 0 then s2.setFld (LNK_PEER_STATE_REFUSED_RUN p) 0
  else (s2.setFld (LNK_PEER_STATE_LAST_REASON p) reason).inc (LNK_PEER_STATE_REFUSED_RUN p)

/-- Keep a peer lane-sheet; a refused one has no parcels. -/
def State.keepPeer (s : State) (p : Nat) (sheet : PM) (ps : List Parcel) : State :=
  let near := fun (x : PeerSheet) => decide (s.tm.tick < x.arrived + 320)
  { s with lnk := { s.lnk with peers := s.lnk.peers.filter near ++ [⟨p, sheet, s.tm.tick, ps⟩] } }

/-- A peer's cover is judged (R297): header is the sync header of its first block, rest the 63 parcels that
follow it.  The second sheet in a row refused with reason 6 fails the lane (R298). -/
def State.peerCover (s : State) (p : Nat) (header : Bool) (cover : Parcel) (rest : List Parcel) : State :=
  if s.role p ≠ 1 then s
  else
    let hit := s.injected .lnk 5
    let s0 := if hit then s.injectDone .lnk else s
    let c := cover.toNat
    let ok := header && crc16 240 (c / 2 ^ 16) == c % 2 ^ 16 && !hit
    let reason := s0.peerReason p ok c
    let s1 := s0.peerShown p reason ok c
    if reason = 0 then
      (({ s1 with lnk := { s1.lnk with badRun := assocErase s1.lnk.badRun p } }).keepPeer p
        (BitVec.ofNat 48 (bitsOf c 251 210 * 64)) (cover :: (rest.take 63)))
    else
      let sheet := if ok then BitVec.ofNat 48 (bitsOf c 251 210 * 64) else sheetOf s1.tm.hpm
      let s2 := (s1.keepPeer p sheet []).deadParcel reason p (bitsOf c 209 208) (bitsOf c 204 197) 0
        (c / 2 ^ 232) 64
      let n := if reason = 6 then assocGet s2.lnk.badRun p 0 + 1 else 0
      let s3 := { s2 with lnk := { s2.lnk with badRun := assocPut s2.lnk.badRun p n 0 } }
      if n = 2 then s3.portFail p else s3

end Sys2Proof.Machine
end

