-- ==== Sys2Proof/Machine/Time.lean ====
section
/-!
DEFINITION. The time base (chapter 02): power and reset (R34, R373), the tick clock's release, loss and restart
(R36, R37, R39), the renaming of tick A (R42, R403), fast commands at their effective tick (R47, R285) and
quiet windows (R54, R55).
-/
namespace Sys2Proof.Machine

/-! ### Power-up and reset (R34, R373) -/

/-- The device as power-up and RESET_N leave it: every register and table at its reset value; the flash, the
levels on the pins and the field side's supply are the world's, and the commands that wait stay. -/
def State.coldStart (s : State) : State :=
  let pin := { PinSt.reset with drapeN := s.pin.drapeN, fieldDrapeN := s.pin.fieldDrapeN,
                                fieldPower := s.pin.fieldPower }
  { State.reset with pending := s.pending, free := s.free, pin := pin,
                     cfg := { CfgSt.reset with flash := s.cfg.flash } }

/-- The field die as its own power-up leaves it (R34): registers, tables and all that it holds. -/
def State.fieldCold (s : State) : State :=
  let host := fun (k n : Nat) => decide (k < n)
  { s with regs := s.regs.filter (fun e => host e.1 0x1000),
           wins := s.wins.filter (fun e => host e.1 (0x10 * 2 ^ 24)),
           winAddrs := s.winAddrs.filter (fun e => host e.1 (0x10 * 8)),
           srcs := s.srcs.filter (fun e => host e.1 (0x10 * 16)),
           recTick := s.recTick.filter (fun e => host e.1 0x10),
           fieldQ := [], held := s.held.filter (fun h => !h.field),
           tm := { s.tm with fpm := 0, fieldFast := [], rename := none },
           bar := { s.bar with txF := [], flights := [], freeF := 0, fieldEpoch := 0, prevFieldEpoch := [] },
           pin := { s.pin with laneDrape := false, laneInvalid := false },
           bru := EngSt.reset, pal := PalSt.reset, col := ColSt.reset, nul := NulSt.reset, var := VarSt.reset,
           str := { s.str with old := [], acc := [], waitF := [] }, evt := EvtSt.reset,
           lnk := { s.lnk with fieldTab := false }, hka := HkSt.reset, hkb := HkSt.reset, refOnAt := 0,
           cal := CalSt.reset }

/-- The field side's supply comes or goes (R34). -/
def State.fieldSupply (s : State) (on : Bool) : State :=
  if s.pin.fieldPower == on then s
  else
    let s1 := s.fieldCold
    { s1 with pin := { s1.pin with fieldPower := on } }

/-! ### The tick clock (R36, R37, R39, R325) -/

/-- The downlink receiver sees transitions: NOCLOCK gives way to LOCKING (R325). -/
def State.seesLink (s : State) : State :=
  if s.tm.clk || s.glb != 0 then s else (s.setFld GLB_STATE_STATE 1).setBit LNK_DOWN_STATUS_BLOCK_LOCK false

/-- A tick period within the range of R36, in ps. -/
def periodOk (p : Nat) : Bool := decide (19231 ≤ p) && decide (p ≤ 20833)

/-- The conditions of R36 hold: 64 good blocks in a row and a period within range. -/
def State.lockHolds (s : State) (p : Nat) : Bool :=
  !s.tm.clk && s.glb != 0 && decide (64 ≤ s.tm.goodRun) && periodOk p

/-- The clock runs: lock, block lock and the period show. -/
def State.clockOn (s : State) (p : Nat) : State :=
  let s1 := { s with tm := { s.tm with clk := true, hdrBad := 0 } }
  let s2 := ((s1.setBit TIM_STATUS_LOCK true).setBit TIM_STATUS_BLOCK_SYNC true).setBit TIM_STATUS_FREQ_OK true
  ((((s2.setBit LNK_DOWN_STATUS_BLOCK_LOCK true).setFld TIM_TICK_PERIOD_PERIOD_PS p).setBit TIM_STATUS_PM_VALID
    false).upLocks).setBit MGT_STATUS_CLK true

/-- Start-up begins with the check pass at postmark 0 (R36, R326). -/
def State.startUp (s : State) (p : Nat) : State :=
  let s1 := s.clockOn p
  let s2 := { s1 with tm := { s1.tm with hpm := 0, fpm := 0 } }
  (s2.setGlb 2).setPhase .check

/-- The release of the tick clock (R36). -/
def State.clockRelease (s : State) (p : Nat) : State :=
  if s.lockHolds p && s.glb == 1 then s.startUp p else s

/-- Envelopes that carry the field part of a fast command or a renaming (R37). -/
def carriesFast (typ : BitVec 4) (len : Nat) : Bool :=
  typ == tGAP || typ == tTRIGGER || typ == tTIME || (typ == tCOMMAND && len == 1)

/-- Loss of lock (R37): the clock stops; fast commands and renamings under way are lost, but for a DRAPE, which
is in force at once; an open window closes and calibration drops what it had (R55, R222). -/
def State.lockLost (s : State) : State :=
  if !s.tm.clk then s
  else
    let drape := s.tm.fast.any (fun f => f.code == 0xE0)
    let s1 := match s.gap with
      | some w => if w.isOpen then s.gapCloses (sheetOf s.tm.hpm)
          else ({ s with gap := none }).inc TIM_GAP_COUNT_EMPTY
      | none => s
    let s2 := (s1.calCut.calDiscard).sticky 3
    let gone := fun (d : Draft) => carriesFast d.typ d.len.toNat
    { s2 with
      tm := { s2.tm with clk := false, goodRun := 0, hdrBad := 0, fast := [], fieldFast := [], pmFirst := none,
                         pmSet := none, rename := none },
      bar := { s2.bar with txH := s2.bar.txH.filter (fun d => !gone d),
                           flights := s2.bar.flights.filter (fun f =>
                             f.toHost || !carriesFast f.env.typ f.env.len.toNat) },
      pin := { s2.pin with commanded := s2.pin.commanded || drape } }

/-- READY, RUNNING and SAFE after relock (R39, R140, R194): queues flush, the barrier retrains, the loops go on
from their held amplitudes, and the converters start new passes. -/
def State.relock (s : State) (p : Nat) : State :=
  let s1 := ((s.clockOn p).flushAll).pwrDrop
  let s2 := if s1.glb = 4 then s1 else s1.setGlb 6
  let s3 := { s2 with cfg := { s2.cfg with autoRun := false },
                      nul := { s2.nul with cnt := [], fin := [], sums := [],
                                           badBefore := max s2.nul.badBefore (s2.tm.tick + 8) } }
  ((s3.hkRestartAt .a 7).hkRestartAt .b 7).trainBegin 1

/-- The clock restarts after a loss of lock (R37, R39). -/
def State.clockBack (s : State) (p : Nat) : State :=
  if s.lockHolds p && decide (2 ≤ s.glb) then
    let s1 := s.inc TIM_STATUS_LOCK_LOSS_COUNT
    let s2 := if s1.glb = 4 ∨ s1.glb = 6 ∨ s1.glb = 7 then s1.relock p else s1.startUp p
    s2.raise .tim 0
  else s

/-! ### Renaming tick A (R42, R403) -/

/-- A boundary that a postmark named, after a renaming by d: the first sheet boundary under the new names at or
after that tick. -/
def movedTo (d p : PM) : PM := sheetAtOrAfter (p + d)

/-- What the host die remembers by postmark moves with the names. -/
def State.moveNames (s : State) (d : PM) : State :=
  let mv := movedTo d
  { s with
    lnk := { s.lnk with retire := s.lnk.retire.map (fun x => (x.1, mv x.2)), autoAt := s.lnk.autoAt.map mv },
    bar := { s.bar with swap := s.bar.swap.map (fun w => { w with at_ := mv w.at_ }),
                        shedAt := s.bar.shedAt.map mv },
    gap := s.gap.map (fun w => { w with opens := mv w.opens, closes := w.closes.map mv }),
    tm := { s.tm with fieldFast := s.tm.fieldFast.map (fun x => (x.1 + d, x.2)) } }

/-- The host die's counter takes a new name; parcels and frames under way are dropped (R42, R168, R403). -/
def State.takeName (s : State) (old new : PM) : State :=
  { s with tm := { s.tm with hpm := new, pmSet := none, lastRen := some (s.tm.tick, old) },
           str := { s.str with here := [], waitF := [], acc := [], old := [] },
           lnk := { s.lnk with frame := [] } }

/-- Tick A on the host die (R42). -/
def State.renameHost (s : State) (p : PmSet) : State :=
  let old := s.tm.hpm
  let new := p.v + BitVec.ofNat 48 p.lat.toNat
  let s2 := (s.moveNames (new - old)).takeName old new
  let s3 := (s2.setFld TIM_FIXED_LATENCY_ACTIVE p.lat.toNat).setBit TIM_STATUS_PM_VALID true
  let s4 := (s3.flushAll).pwrDrop
  let s5 := if s4.glb = 7 then s4.haltCmd.sticky 6 else s4
  let s6 := if s.lnk.frame.isEmpty then s5 else s5.inc LNK_SLOWCTL_STATUS_DROPPED
  (s6.setFld TIM_STATUS_PMSET_COUNT (s6.fld TIM_STATUS_PMSET_COUNT + 1)).fastCount 1

/-- Tick A on the field die (R158, R174, R403): the counter takes the new name. -/
def State.renameField (s : State) (new : PM) : State :=
  let s1 := { s with tm := { s.tm with fpm := new, rename := none } }
  (((((s1.nulRename new).varRename).evtRename new).hkRestartAt .a 7)).hkRestartAt .b 7

/-- The renaming that this tick brings, on both dies (R42, R48). -/
def State.renameDue (s : State) : State :=
  let s1 := match s.tm.pmSet with
    | some p => if p.tick + 48 = s.tm.tick then s.renameHost p else s
    | none => s
  match s1.tm.rename with
  | some (old, new) => if s1.pin.fieldPower && old == s1.tm.fpm then s1.renameField new else s1
  | none => s1

/-! ### Fast commands at their effective tick (R46, R47, R285) -/

/-- The field die holds the field part of a fast command for this tick. -/
def State.fieldHas (s : State) (code : BitVec 8) : Bool :=
  s.pin.fieldPower && s.tm.fieldFast.any (fun x => x.1 == s.tm.fpm && x.2 == code)

/-- SHEET_MARK (R46). -/
def State.sheetMark (s : State) : State :=
  let ph := s.tm.hpm.toNat % 64
  if s.bit TIM_SHEET_ALIGN_CHECK_EN then
    let s1 := (s.setFld TIM_SHEET_ALIGN_LAST_PHASE ph).setFld TIM_SHEET_ALIGN_MARK_COUNT
      (s.fld TIM_SHEET_ALIGN_MARK_COUNT + 1)
    if ph = 0 then s1 else (s1.setBit TIM_SHEET_ALIGN_MISMATCH true).raise .tim 2
  else s

/-- SHEET_MARK takes effect. -/
def State.markCmd (s : State) : State := (s.fastCount 0x02).sheetMark

/-- GAP_OPEN takes effect. -/
def State.gapOpenCmd (s : State) : State := (s.fastCount 0x10).gapOpen

/-- GAP_CLOSE takes effect (R54, R223). -/
def State.gapCloseCmd (s : State) : State :=
  let s1 := s.fastCount 0x11
  (if s1.windowOpen then s1.calClose s1.tm.hpm else s1).gapClose s1.tm.hpm

/-- TRIG takes effect. -/
def State.trigCmd (s : State) : State := (s.fastCount 0x20).trigDecide (s.fieldHas 0x20)

/-- CAL_FIRE takes effect: the field die acts where it has the COMMAND (R285). -/
def State.calFireCmd (s : State) : State :=
  let s1 := s.fastCount 0x30
  if s.fieldHas 0x30 then s1.calFire else s1

/-- RUN takes effect. -/
def State.runFast (s : State) : State := (s.fastCount 0x40).runCmd

/-- HALT takes effect. -/
def State.haltFast (s : State) : State := (s.fastCount 0x41).haltCmd

/-- The field die's epoch after EPOCH_ADVANCE; Brush's EPOCH wait does not exist, Courier's ends (R300). -/
def State.fieldEpochNext (s : State) : State := s.setFieldEpoch (s.bar.fieldEpoch + 1)

/-- EPOCH_ADVANCE takes effect on both dies (R300). -/
def State.epochCmd (s : State) : State :=
  let s1 := (s.fastCount 0x50).epochNext
  if s.fieldHas 0x50 then s1.fieldEpochNext else s1

/-- DRAPE and UNDRAPE take effect (R28). -/
def State.drapeCmd (s : State) (on : Bool) : State :=
  (s.fastCount (if on then 0xE0 else 0xE1)).commandDrape on

/-- A fast command acts (Table 13-1). -/
def State.fastAct (s : State) (code : BitVec 8) : State :=
  match code.toNat with
  | 0x02 => s.markCmd
  | 0x10 => s.gapOpenCmd
  | 0x11 => s.gapCloseCmd
  | 0x20 => s.trigCmd
  | 0x30 => s.calFireCmd
  | 0x40 => s.runFast
  | 0x41 => s.haltFast
  | 0x50 => s.epochCmd
  | 0xE0 => s.drapeCmd true
  | 0xE1 => s.drapeCmd false
  | _ => s

/-- The epoch that a COMMAND EPOCH names for this tick on the field die (R280). -/
def State.fieldEpochDue (s : State) : State :=
  match s.tm.fieldFast.find? (fun x => x.1 == s.tm.fpm && decide (0xF0 ≤ x.2.toNat)) with
  | some x => s.setFieldEpoch (BitVec.ofNat 2 x.2.toNat)
  | none => s

/-- The fast commands of this tick, on both dies (R47, R48). -/
def State.fastDue (s : State) : State :=
  let now := s.tm.fast.filter (fun f => f.due == s.tm.tick)
  let s1 := forEach now (fun t f => t.fastAct f.code) s
  let s2 := s1.fieldEpochDue
  { s2 with tm := { s2.tm with fast := s2.tm.fast.filter (fun f => f.due != s2.tm.tick),
                               fieldFast := s2.tm.fieldFast.filter (fun x => x.1 != s2.tm.fpm) } }

/-! ### Quiet windows (R54, R55) -/

/-- The opening boundary of a pending window (R54, R212, R217). -/
def State.windowOpens (s : State) : State :=
  match s.gap with
  | some w => if w.isOpen then s else s.gapOpens.calOpen
  | none => s

/-- A closing boundary has come (R54, R222): pending results are applied, and a store follows where the image
asks for it (R229). -/
def State.windowCloses (s : State) : State :=
  match s.gap with
  | some w =>
    match w.closes with
    | some b =>
      let applies := !s.cal.pend.isEmpty && s.traceOk
      let s1 := (s.gapCloses b).calApply b
      if applies && s.bit CAL_CTRL_AUTO_STORE then s1.storeRequest else s1
    | none => s
  | none => s

/-- A window reaches its limit (R55). -/
def State.gapForced (s : State) : State :=
  match s.gap with
  | some w =>
    if w.isOpen && w.closes.isNone then
      let s1 := ((s.calClose s.tm.hpm).setBit TIM_GAP_STATUS_FORCED true).raise .tim 3
      s1.gapClose s1.tm.hpm
    else s
  | none => s

/-- The window's limit lies n ticks ahead. -/
def State.gapLimitIn (s : State) (n : Nat) : Bool := s.gapLimitAt (s.tm.hpm + BitVec.ofNat 48 n)

/-- Quiet windows in one tick, after its fast commands (R54, R55, R223). -/
def State.windowTick (s : State) : State :=
  let s0 := if s.gap.isSome && s.tm.fast.any (fun f => f.code == 0x11 && f.due == s.tm.tick + 36) then
      s.cause .courier 0
    else s
  let s1 := if s0.gapLimitIn 36 then ((s0.calClose (s0.tm.hpm + 36)).cause .courier 0).cause .brush 0 else s0
  let s2 := if s1.gapLimitIn 0 then s1.gapForced else s1
  let opens := match s2.gap with
    | some w => !w.isOpen && w.opens == s2.tm.hpm
    | none => false
  let closes := match s2.gap with
    | some w => (match w.closes with
      | some b => pmGe s2.tm.hpm b
      | none => false)
    | none => false
  if opens then s2.windowOpens else if closes then s2.windowCloses else s2

end Sys2Proof.Machine
end

