-- ==== Sys2Proof/Machine/Mgt.lean ====
section
/-!
DEFINITION. The management port (chapter 14): frames, the pair hold and the write hold, reads, the write buffer,
bulk access and the port without the tick clock.
-/
namespace Sys2Proof.Machine

/-- A raise of the MGT fault group, which is in the tick domain (R313). -/
def State.mgtRaise (s : State) (n : Nat) : State := if s.tm.clk then s.raise .mgt n else s

/-- A frame begins: it is counted, and a half-word that the last one broke off is reported (R308). -/
def State.mgtFrame (s : State) : State :=
  let s1 := { s with mgt := { s.mgt with abort := false, wait := none, out := [] } }
  let s2 := if s.mgt.abort then (s1.setBit MGT_STATUS_FRAME true).mgtRaise 2 else s1
  s2.setFld MGT_STATUS_TRANSACTIONS (s2.fld MGT_STATUS_TRANSACTIONS + 1)

/-! ### Reads (R309, R311 to R314) -/

/-- Registers served in the MSCK domain (Table 14-3). -/
def mgtLocal (i : Nat) : Bool := decide (i ≤ 2) || (decide (0x400 ≤ i) && decide (i ≤ 0x406))

/-- An index on the field die. -/
def mgtField (i : Nat) : Bool := decide (0x1000 ≤ i) && decide (i < 0x2000)

/-- What such a register shows: GLB_STATE reads NOCLOCK while a stopped clock has not restarted (R37). -/
def State.mgtShown (s : State) (i : Nat) : Word :=
  if i = GLB_STATE ∧ s.tm.clk = false ∧ 2 ≤ s.glb then fldPut GLB_STATE_STATE (s.reg GLB_STATE) 0
  else s.shown .mgt i

/-- Half-words leave on MSDO. -/
def State.mgtSend (s : State) (h : Nat) : State :=
  { s with mgt := { s.mgt with out := s.mgt.out ++ [BitVec.ofNat 16 h] } }

/-- RD_HI where the hold answers, or a live read where it does not (R309). -/
def State.mgtHigh (s : State) (i : Nat) (live : Word) : State :=
  if s.bit MGT_STATUS_HOLD_VALID ∧ s.fld MGT_PAIR_HOLD_INDEX = i then
    (s.mgtSend (s.fld MGT_PAIR_HOLD_HIGH)).setBit MGT_STATUS_HOLD_VALID false
  else (s.mgtSend (live.toNat / 2 ^ 16)).setBit MGT_STATUS_UNPAIRED true

/-- A value reaches the port: its low half goes and its high half fills the pair hold, or it is the high half of a
live read (R309). -/
def State.mgtPut (s : State) (r : MgtRead) (v : Word) : State :=
  if r.high then (s.mgtSend (v.toNat / 2 ^ 16)).setBit MGT_STATUS_UNPAIRED true
  else
    let s1 := s.mgtSend (v.toNat % 2 ^ 16)
    let s2 := if r.idx = MGT_PAIR_HOLD then s1
      else ((s1.setFld MGT_PAIR_HOLD_INDEX r.idx).setFld MGT_PAIR_HOLD_HIGH (v.toNat / 2 ^ 16)).setBit
        MGT_STATUS_HOLD_VALID true
    if r.full then s2.mgtHigh r.idx v else s2

/-- A word of a space-1 transfer has gone: the address moves on (R314). -/
def State.bulkStep (s : State) : State :=
  if s.bit MGT_BULK_SPACE_INC then s.setFld MGT_BULK_ADDR_ADDR (s.fld MGT_BULK_ADDR_ADDR + 1) else s

/-- Deliver the value of a read, a space-1 transfer with it. -/
def State.mgtDone (s : State) (r : MgtRead) (v : Word) : State :=
  let s1 := s.mgtPut r v
  if r.idx = MGT_BULK_DATA ∧ r.high = false ∧ s.fld MGT_BULK_SPACE_SPACE = 1 then
    (s1.setReg MGT_BULK_DATA v).bulkStep
  else s1

/-- A space-2 access is rejected (R314). -/
def State.bulkBad (s : State) : State := (s.setBit MGT_BULK_SPACE_REJECT true).mgtRaise 3

/-- The flash is closed to space 2 (R314). -/
def State.bulkShut (s : State) : Bool := s.glb == 2 || s.cfg.store.isSome

/-- A space-2 read (R314). -/
def State.bulkRead (s : State) (r : MgtRead) : State :=
  let a := s.fld MGT_BULK_ADDR_ADDR / 4 * 4
  if s.bulkShut then s.bulkBad.mgtPut r (BitVec.allOnes 32)
  else
    let v : Word := BitVec.ofNat 32 (s.flashLe a 4)
    ((s.mgtPut r v).setReg MGT_BULK_DATA v).setFld MGT_BULK_ADDR_ADDR (a + 4)

/-- The register that a frame's index reaches (R314). -/
def State.mgtTarget (s : State) (i : Nat) : Nat :=
  if i = MGT_BULK_DATA ∧ s.fld MGT_BULK_SPACE_SPACE = 1 then s.fld MGT_BULK_ADDR_ADDR % 2 ^ 16 else i

/-- A read that needs the tick clock where the port holds it absent (R313). -/
def State.mgtNoClock (s : State) (r : MgtRead) : State :=
  ((s.setBit MGT_STATUS_NOCLK true).inc MGT_TIMEOUT_COUNT_NOCLK).mgtDone r (BitVec.allOnes 32)

/-- Serve a read now, if it can be (R311 to R314). -/
def State.mgtServe (s : State) (r : MgtRead) : Option State :=
  let space := s.fld MGT_BULK_SPACE_SPACE
  if r.idx = MGT_BULK_DATA ∧ r.high = true then some (s.mgtPut r (s.reg MGT_BULK_DATA))
  else if r.idx = MGT_BULK_DATA ∧ space = 2 then some (s.bulkRead r)
  else if r.idx = MGT_BULK_DATA ∧ space ≠ 1 then some (s.mgtPut r 0)
  else if mgtLocal r.tgt then some (s.mgtDone r (s.mgtShown r.tgt))
  else if !s.tm.clk then (if s.bit MGT_STATUS_CLK then none else some (s.mgtNoClock r))
  else if mgtField r.tgt then
    (if s.barUp then none
     else some ((s.setBit MGT_STATUS_NOBAR true).mgtDone r (BitVec.allOnes 32)))
  else if !s.mgt.buf.isEmpty then none
  else if r.high then some (s.mgtPut r (s.shown .mgt r.tgt))
  else
    let x := s.readReg .mgt r.tgt
    some (x.2.mgtDone r x.1)

/-- A read and the n pairs of the same index that follow it: as many as can be served now; the next one waits. -/
def State.mgtRun : Nat → State → MgtRead → State
  | n, s, r =>
    let r0 := { r with tgt := s.mgtTarget r.idx, left := n, done := s.tm.tick, sent := false }
    match s.mgtServe r0 with
    | none => { s with mgt := { s.mgt with wait := some r0 } }
    | some s1 =>
      match n with
      | 0 => s1
      | k + 1 => s1.mgtRun k r

/-- A waiting read has its value; the pairs that follow it go on. -/
def State.mgtValue (s : State) (r : MgtRead) (v : Word) : State :=
  let s1 := { s with mgt := { s.mgt with wait := none } }
  let s2 := s1.mgtDone r v
  match r.left with
  | 0 => s2
  | k + 1 => s2.mgtRun k r

/-- The frame RD_LO of index i. -/
def State.mgtRdLo (s : State) (i : Nat) : State := s.mgtFrame.mgtRun 0 ⟨i, i, false, false, 0, 0, false⟩

/-- The frame RD_HI of index i (R309). -/
def State.mgtRdHi (s : State) (i : Nat) : State :=
  let s1 := s.mgtFrame
  if s1.bit MGT_STATUS_HOLD_VALID ∧ s1.fld MGT_PAIR_HOLD_INDEX = i then s1.mgtHigh i 0
  else s1.mgtRun 0 ⟨i, i, true, false, 0, 0, false⟩

/-- The frame RD, or RDN of n pairs, of index i. -/
def State.mgtRd (s : State) (i n : Nat) : State :=
  match n with
  | 0 => s.mgtFrame
  | k + 1 => s.mgtFrame.mgtRun k ⟨i, i, false, true, 0, 0, false⟩

/-- The REPLY to a READ of the port (R312). -/
def State.mgtAnswer (s : State) (i : Nat) (v : Word) (status : Nat) : State :=
  match s.mgt.wait with
  | some r =>
    if r.sent && r.tgt == i then
      (if status = 7 then (s.setBit MGT_STATUS_TIMEOUT true).mgtValue r (BitVec.allOnes 32)
       else s.mgtValue r v)
    else s
  | none => s

/-- No REPLY by completion + 88 (R312). -/
def State.mgtTimeout (s : State) : State :=
  match s.mgt.wait with
  | some r =>
    if mgtField r.tgt && decide (r.done + 88 ≤ s.tm.tick) then
      (((s.setBit MGT_STATUS_TIMEOUT true).inc MGT_TIMEOUT_COUNT_REPLY).mgtRaise 1).mgtValue r
        (BitVec.allOnes 32)
    else s
  | none => s

/-- The port holds the tick clock absent (R313): a read that waits for it completes. -/
def State.mgtAbsent (s : State) : State :=
  if s.tm.clk then s
  else
    let s1 := s.setBit MGT_STATUS_CLK false
    match s1.mgt.wait with
    | some r =>
      ((s1.setBit MGT_STATUS_NOCLK true).inc MGT_TIMEOUT_COUNT_NOCLK).mgtValue r (BitVec.allOnes 32)
    | none => s1

/-! ### Writes (R310, R311, R315, R52) -/

/-- An index of the MGT block. -/
def inMgt (i : Nat) : Bool := i / 0x100 == 4

/-- ARM takes a write of the port (R52): its launch postmark, and ARM ends unless BURST is set. -/
def State.mgtArm (s : State) (i : Nat) : Option PM × State :=
  if s.bit TIM_LAUNCH_ACTION_ARM && !inMgt i && i / 0x100 != 1 then
    (some (BitVec.ofNat 48 ((s.reg TIM_LAUNCH_HI).toNat % 2 ^ 16 * 2 ^ 32 + (s.reg TIM_LAUNCH_LO).toNat)),
      if s.bit TIM_LAUNCH_ACTION_BURST then s else s.setBit TIM_LAUNCH_ACTION_ARM false)
  else (none, s)

/-- The outcome of a launched write of the port (R52). -/
def State.mgtLaunched (s : State) (code : Nat) : State :=
  let s1 := (s.setFld TIM_LAUNCH_STATUS_LAST_STATUS code).setBit TIM_LAUNCH_STATUS_LAST_PENDING false
  if code = 0 then s1 else s1.inc TIM_LAUNCH_STATUS_REJECT_COUNT

/-- A write leaves the buffer (R311). -/
def State.mgtApply (s : State) (w : MgtWr) : State :=
  if (blkOf w.idx).isNone then s
  else if mgtField w.idx then
    (if !s.barUp then s.setBit MGT_STATUS_NOBAR true
     else
      let s1 := s.sendWrite .mgt 0 w.idx w.val w.launch
      if w.launch.isSome then s1.setBit TIM_LAUNCH_STATUS_LAST_PENDING true else s1)
  else match w.launch with
    | none => s.writeReg .mgt w.idx w.val
    | some pm =>
      let r := s.launchReg .mgt w.idx w.val pm .armed 0
      r.2.mgtLaunched r.1

/-- The buffer passes one write in a tick (R311). -/
def State.mgtDrain (s : State) : State :=
  match s.mgt.buf with
  | [] => s
  | w :: rest =>
    if s.tm.clk && decide (s.mgt.next ≤ s.tm.tick) then
      ({ s with mgt := { s.mgt with buf := rest, next := s.tm.tick + 1 } }).mgtApply w
    else s

/-- A write of the port to a register that needs the tick domain (R310, R311, R313). -/
def State.mgtTickWrite (s : State) (i : Nat) (v : Word) : State :=
  if !s.bit MGT_CTRL_WR_EN && !inMgt i then (s.setBit MGT_STATUS_BLOCKED true).mgtRaise 0
  else if !s.bit MGT_STATUS_CLK && !s.tm.clk then s.setBit MGT_STATUS_NOCLK true
  else if 16 ≤ s.mgt.buf.length then (s.setBit MGT_STATUS_OVERFLOW true).mgtRaise 0
  else
    let a := s.mgtArm i
    ({ a.2 with mgt := { a.2.mgt with buf := a.2.mgt.buf ++ [MgtWr.mk i v a.1] } }).mgtDrain

/-- A space-2 write programs four bytes that are erased (R314). -/
def State.bulkWrite (s : State) (v : Word) : State :=
  let a := s.fld MGT_BULK_ADDR_ADDR / 4 * 4
  if s.bulkShut || s.meetsSlot a 4 then s.bulkBad
  else
    let bs := ((List.range 4).zip (leBytes 4 v.toNat)).map (fun x => x.2 &&& s.flashByte (a + x.1))
    (s.flashPut a bs).setFld MGT_BULK_ADDR_ADDR (a + 4)

/-- A whole 32-bit write of the port (R310, R314, R315). -/
def State.mgtWrite (s : State) (i : Nat) (v : Word) : State :=
  if i = MGT_BULK_DATA then
    (let s1 := s.setReg MGT_BULK_DATA v
     match s.fld MGT_BULK_SPACE_SPACE with
     | 1 =>
       let t := s1.fld MGT_BULK_ADDR_ADDR % 2 ^ 16
       (if mgtLocal t && inMgt t then s1.applyWhole t v ⟨.mgt, false⟩ 0 else s1.mgtTickWrite t v).bulkStep
     | 2 => s1.bulkWrite v
     | _ => s1)
  else if mgtLocal i && inMgt i then s.applyWhole i v ⟨.mgt, false⟩ 0
  else s.mgtTickWrite i v

/-- The frame WR_LO (R310). -/
def State.mgtWrLo (s : State) (i : Nat) (h : BitVec 16) : State :=
  let s1 := s.mgtFrame
  { s1 with mgt := { s1.mgt with hold := some (i, h) } }

/-- WR_HI of a frame (R310). -/
def State.mgtPair (s : State) (i : Nat) (h : BitVec 16) : State :=
  match s.mgt.hold with
  | some (j, lo) =>
    if j = i then
      ({ s with mgt := { s.mgt with hold := none } }).mgtWrite i
        (BitVec.ofNat 32 (h.toNat * 2 ^ 16 + lo.toNat))
    else s.setBit MGT_STATUS_UNPAIRED_WR true
  | none => s.setBit MGT_STATUS_UNPAIRED_WR true

/-- The frame WR_HI. -/
def State.mgtWrHi (s : State) (i : Nat) (h : BitVec 16) : State := s.mgtFrame.mgtPair i h

/-- The frames WR and WRN: whole values of one index. -/
def State.mgtWrAll (s : State) (i : Nat) (vs : List Word) : State :=
  forEach vs (fun t v => ({ t with mgt := { t.mgt with hold := none } }).mgtWrite i v) s.mgtFrame

/-- The commands of Table 14-1. -/
def mgtCommands : List Nat := [0x10, 0x11, 0x12, 0x13, 0x20, 0x21, 0x22, 0x23]

/-- A frame with an undefined command (R307). -/
def State.mgtBad (s : State) (code : Nat) : State :=
  if mgtCommands.contains code then s
  else (s.mgtFrame.setBit MGT_STATUS_BAD_CMD true).mgtRaise 2

/-- MSEL_N rises inside a half-word (R308). -/
def State.mgtBreak (s : State) : State :=
  { s with mgt := { s.mgt with abort := true, wait := none } }

/-- The port in one tick: the buffer passes a write, and a read that waits goes on (R311, R312). -/
def State.mgtTick (s : State) : State :=
  let s1 := s.mgtDrain
  match s1.mgt.wait with
  | none => s1
  | some r =>
    if r.sent then s1.mgtTimeout
    else if !s1.mgt.buf.isEmpty then s1
    else if mgtField r.tgt then
      (if r.done + 88 ≤ s1.tm.tick then s1.mgtTimeout
       else if r.done + 1 ≤ s1.tm.tick then
         ({ s1 with mgt := { s1.mgt with wait := some { r with sent := true } } }).sendRead .mgt 0 r.tgt r.high
       else s1)
    else ({ s1 with mgt := { s1.mgt with wait := none } }).mgtRun r.left r

end Sys2Proof.Machine
end

