-- ==== Sys2Proof/Machine/Recv.lean ====
section
/-!
DEFINITION. Envelopes at their receiving end (R268, R272, R273): what each type does once it has passed the
checks, on the field die and on the host die.
-/
namespace Sys2Proof.Machine

/-- The master of a code (R267). -/
def masterOf : Nat → Master
  | 0 => .slow | 1 => .mgt | 2 => .courier | 3 => .brush
  | 4 => .datapath | 5 => .loader | 6 => .barrier | _ => .selftest

/-- MASTER of a host→field envelope's UNIT field. -/
def unitMaster (u : BitVec 8) : Master := masterOf (bitsOf u.toNat 6 4)
/-- LAUNCH of a host→field envelope's UNIT field. -/
def unitLaunch (u : BitVec 8) : Bool := bitOf u.toNat 7
/-- TAG of a host→field envelope's UNIT field. -/
def unitTag (u : BitVec 8) : Nat := u.toNat % 16

/-- The first postmark at or after p whose bits [23:0] are those of an envelope (R268). -/
def extendPm (p : PM) (low : BitVec 24) : PM :=
  p + BitVec.ofNat 48 ((low.toNat + 2 ^ 24 - p.toNat % 2 ^ 24) % 2 ^ 24)

/-- The postmark nearest before or at p whose bits [23:0] are those of an envelope. -/
def extendBack (p : PM) (low : BitVec 24) : PM :=
  p - BitVec.ofNat 48 ((p.toNat % 2 ^ 24 + 2 ^ 24 - low.toNat) % 2 ^ 24)

/-- Receive an envelope at an end and, when it passes and is of the kind a command names, let it act.  Nothing
reaches an end that has no clock or no supply, and nothing crosses in training but a TIME (R264, R265). -/
def State.accept (s : State) (toHost : Bool) (x : Rx) (kind : Env → Bool) (act : State → Env → State) : State :=
  if !s.tm.clk || !s.pin.fieldPower then s
  else
    let r := s.receive toHost x
    if r.1 && kind x.env then act r.2 x.env else r.2

/-! ### On the field die -/

/-- The field die refuses register access: field self-test or field load runs (R268). -/
def State.fieldBusy (s : State) : Bool :=
  s.cfg.phase == Phase.fieldTest || s.cfg.phase == Phase.load || s.cfg.phase == Phase.loadWait

/-- A launched WRITE reaches the field queue (R25, R49): the notice of a table switch (R295) and the power command
(R364) have places of their own there. -/
def State.fieldLaunch (s : State) (m : Master) (tag idx : Nat) (v : Word) (pm : PM) : Nat × State :=
  if idx = LNK_SCHED_SEL then s.launchWrite .field ⟨pm, idx, v, m, 0, .schedSwitch, tag⟩
  else if idx = PWR_STATE then s.launchWrite .field ⟨pm, idx, v, m, 0, .plain, tag⟩
  else if (blkOf idx).isNone then (s.launchCode .field pm 1, s)
  else s.launchReg m idx v pm (if m = .mgt then .armed else .plain) tag

/-- A WRITE (R268). -/
def State.takeWrite (s : State) (e : Env) : State :=
  let idx := envBits e 95 80
  let v : Word := BitVec.ofNat 32 (envBits e 79 48)
  let m := unitMaster e.unit
  if s.fieldBusy && m != .loader then s.sendReply idx v 7 e.unit
  else if unitLaunch e.unit then
    let r := s.fieldLaunch m (unitTag e.unit) idx v (BitVec.ofNat 48 (envBits e 47 0))
    r.2.sendReply idx v r.1 e.unit
  else
    let no := s.refusedWrite m idx v
    (s.writeReg m idx v).sendReply idx v (if no then 4 else 6) e.unit

/-- A READ, or a peek without side effects (R268). -/
def State.takeRead (s : State) (e : Env) : State :=
  let idx := envBits e 15 0
  let m := unitMaster e.unit
  if s.fieldBusy then s.sendReply idx 0 7 e.unit
  else
    let v := s.shown m idx
    (if unitLaunch e.unit then s else s.readEffect m idx).sendReply idx v 6 e.unit

/-- The field die holds the field part of a fast command for its effective postmark (R268, R271). -/
def State.fieldHold (s : State) (pm : PM) (code : Nat) : State :=
  { s with tm := { s.tm with fieldFast := s.tm.fieldFast ++ [(pm, BitVec.ofNat 8 code)] } }

/-- A 1-beat COMMAND, or a TRIGGER. -/
def State.takeFast (s : State) (e : Env) : State := s.fieldHold (extendPm s.tm.fpm e.pm) (envBits e 15 8)

/-- A GAP envelope (R271): with GAP_CLOSE the field die knows the closing boundary, and Brush recognises the close
(R223, Table 11-7). -/
def State.takeGap (s : State) (e : Env) : State :=
  let h := extendPm s.tm.fpm e.pm
  if envBits e 15 8 = 0x11 ∧ s.gap.isSome = true then (s.calClose h).cause .brush 0 else s

/-- COMMAND LANE_SWAP (R277): the field die answers, for the general lane on the spare physical lane. -/
def State.takeSwap (s : State) (e : Env) : State :=
  if envBits e 51 48 = 11 then
    let d : Draft := ⟨tREPLY, 2, 0xFC, none,
      (((0x1C00 * 2 ^ 32) * 2 ^ 3 + 6) * 2 ^ 8 + e.unit.toNat) * 2 ^ 37, true⟩
    let env := draftEnv d s.bar.fieldEpoch (s.tm.fpm + 1)
    { s with bar := { s.bar with flights := s.bar.flights ++ [⟨true, s.tm.tick + 12, env⟩] } }
  else s.sendReply 0x1C00 0 6 e.unit

/-- COMMAND EPOCH (R280, R300). -/
def State.takeEpoch (s : State) (e : Env) : State :=
  s.fieldHold (BitVec.ofNat 48 (envBits e 47 0)) (0xF0 + envBits e 49 48)

/-- COMMAND SHED (R279). -/
def State.takeShed (s : State) (e : Env) : State :=
  { s with bar := { s.bar with shedAt := some (BitVec.ofNat 48 (envBits e 47 0)) } }

/-- A TIME (R265, R268): in training it sets the counter, else it is the pending rename. -/
def State.takeTime (s : State) (e : Env) : State :=
  let old : PM := BitVec.ofNat 48 (envBits e 95 48)
  let new : PM := BitVec.ofNat 48 (envBits e 47 0)
  if old = BitVec.allOnes 48 then
    ({ s with tm := { s.tm with fpm := new } }).setBit FBA_STATUS_ALIGNED true
  else { s with tm := { s.tm with rename := some (old, new) } }

/-! ### On the host die -/

/-- The deadline of a sheet has passed on the host die (R21). -/
def State.pastDeadline (s : State) (slot : PM) : Bool :=
  pmGe s.tm.hpm slot && decide (160 < pmDist slot s.tm.hpm)

/-- A READINGS (R21, R269). -/
def State.takeReadings (s : State) (e : Env) : State :=
  let bits := e.payload / 2 ^ 64
  let c := bitsOf bits 1630 1624
  let slot := extendBack s.tm.hpm e.pm
  if s.pastDeadline slot then s.deadEnvelope 0 e
  else if s.str.here.any (fun b => b.slot == slot && b.col == c) then s
  else { s with str := { s.str with here := s.str.here ++ [⟨slot, c, bits, false, e.unit.toNat⟩] } }

/-- An EVENT (R180, R184). -/
def State.takeEvent (s : State) (e : Env) : State :=
  { s with evt := { s.evt with due := eventHere s.tm.hpm (BitVec.ofNat 256 e.payload) s.evt.due } }

/-- What a full queue dropped raises NOTE (R294). -/
def State.droppedRaise (r : State × Bool) : State := if r.2 then r.1.raise .lnk 2 else r.1

/-- The 96 bits that a 2-beat envelope carries. -/
def payload96 (e : Env) : Nat := e.payload % 2 ^ 96

/-- An HK_RESULT (R198, R294). -/
def State.takeHk (s : State) (e : Env) : State :=
  State.droppedRaise (s.pushHk ⟨s.tm.tick, 0, payload96 e, e.unit.toNat⟩)

/-- A STATUS record goes into the status queue (R294). -/
def State.takeStatus (s : State) (e : Env) : State :=
  (State.droppedRaise (s.pushStatus ⟨s.tm.tick, 2, payload96 e, e.unit.toNat⟩)).note .courier 0x0A

/-- STATUS LANE_FAIL (R277). -/
def State.takeLaneFail (s : State) (e : Env) : State := (s.takeStatus e).swapAnswer false

/-- STATUS FLT_ACKED (R352). -/
def State.takeAcked (s : State) (e : Env) : State :=
  match blkOf (0x1000 + 0x100 * envBits e 67 64) with
  | some b => (s.clearMirror b (envBits e 63 48)).note .courier 0x0A
  | none => s

/-- The mirror of a field block's IRQ_ENABLE admits a source and a severity (R352). -/
def State.mirrorAdmits (s : State) (b : Blk) (i sev : Nat) : Bool :=
  let w := s.irqMirror (IRQ_ENABLE (blkBase b))
  bitOf (fldGet (IRQ_ENABLE_SRC_EN (blkBase b)) w) i && bitOf (fldGet (IRQ_ENABLE_SEV_EN (blkBase b)) w) sev

/-- A mirror bit sets, with the highest severity told of since it was clear. -/
def State.setMirror (s : State) (b : Blk) (i sev : Nat) : State :=
  let n := blkNum b
  let m := (assocGet s.flt.mirror n 0).toNat
  let k := srcKey b i
  let top := if bitOf m i then max sev (assocGet s.flt.mirSev k 0) else sev
  let f := { s.flt with mirror := assocPut s.flt.mirror n (BitVec.ofNat 16 (m ||| 2 ^ i)) 0,
                        mirSev := assocPut s.flt.mirSev k top 0 }
  { s with flt := f }

/-- A FAULT_NOTICE (R348, R351, R352, Table 11-7). -/
def State.takeNotice (s : State) (e : Env) : State :=
  let sev := envBits e 87 86
  let i := envBits e 85 80 % 16
  let s1 := State.droppedRaise (s.pushStatus ⟨s.tm.tick, 1, payload96 e, e.unit.toNat⟩)
  let s2 := match blkOf (envBits e 95 88 * 0x100) with
    | some b => if s1.mirrorAdmits b i sev then s1.setMirror b i sev else s1
    | none => s1
  let s3 := (s2.trigger .courier 2).note .courier 0x09
  let s4 := if 2 ≤ sev then s3.cause .courier 1 else s3
  if sev = 3 then s4.safeSoon 5 else s4

/-- The REPLY to a map change that FAULT_POLICY launched (R349): answered LATE or FULL, it is launched again 2048
ticks later. -/
def State.swapReply (s : State) (idx : Nat) (v : Word) (code : Nat) : State :=
  match s.flt.swapSent.find? (fun w => w.idx == idx && w.val == v) with
  | none => s
  | some w =>
    let s1 := { s with flt := { s.flt with swapSent := s.flt.swapSent.filter (fun x => x != w) } }
    if code = 1 ∨ code = 3 then s1.swapSend { w with launch := w.launch.map (fun p => p + 2048) } else s1

/-- A REPLY to Courier (R238, R245, R349, R364). -/
def State.courierReply (s : State) (launched : Bool) (tag idx : Nat) (v : Word) (status : Nat) : State :=
  if !launched then s.readAnswer .courier (tag == 1) idx v
  else if idx = PWR_STATE then s.powerAnswer status
  else if s.flt.swapSent.any (fun w => w.idx == idx && w.val == v) then s.swapReply idx v status
  else if status = 0 then s else s.launchedBy .courier status

/-- A REPLY with LAUNCH = 1 answers a peek of the port, not a launched write: its STATUS is 6, or 7 while a peek of
the index waits (R268, R309). -/
def State.peekReply (s : State) (idx status : Nat) : Bool :=
  status == 6 || (status == 7 && (match s.mgt.wait with
    | some r => r.sent && r.high && r.tgt == idx
    | none => false))

/-- A REPLY to the management port (R52, R312). -/
def State.mgtReply (s : State) (launched : Bool) (idx : Nat) (v : Word) (status : Nat) : State :=
  if launched && !s.peekReply idx status then
    (let s1 := if status ≤ 5 then s.mgtLaunched status else s.setBit TIM_LAUNCH_STATUS_LAST_PENDING false
     if status = 3 then s1.launchRaise .mgt idx 3 else s1)
  else s.mgtAnswer idx v status

/-- A REPLY (R268): it goes to the master that its request names. -/
def State.takeReply (s : State) (e : Env) : State :=
  let idx := envBits e 95 80
  let v : Word := BitVec.ofNat 32 (envBits e 79 48)
  let status := envBits e 47 45
  let req : BitVec 8 := BitVec.ofNat 8 (envBits e 44 37)
  match unitMaster req with
  | .slow => s.scAnswer (unitTag req) idx v status
  | .mgt => s.mgtReply (unitLaunch req) idx v status
  | .courier => (s.courierReply (unitLaunch req) (unitTag req) idx v status).note .courier 0x08
  | .barrier => if unitLaunch req then s else s.swapAnswer true
  | _ => s

/-- The findings of a BIST_REPORT (R330). -/
def bistFindings (e : Env) : List Finding :=
  let n := payBits e.len.toNat
  let k := bitsOf e.payload (n - 2) (n - 5)
  (List.range (min k 12)).map (fun i =>
    let w := e.payload / 2 ^ (n - 48 - 32 * i)
    ⟨BitVec.ofNat 8 (w / 2 ^ 24), BitVec.ofNat 8 (w / 2 ^ 16), BitVec.ofNat 16 w⟩)

/-- A BIST_REPORT (R329, R330): the host's list takes the findings; field load follows, or SAFE. -/
def State.takeBist (s : State) (e : Env) : State :=
  let pass := bitOf e.payload (payBits e.len.toNat - 1)
  let s1 := forEach (bistFindings e) (fun t f => t.addFinding f (f.test != 0x10 || f.detail == 3)) s
  if s1.cfg.phase != Phase.fieldTest then s1
  else if pass then
    (((s1.setBit GLB_BIST_RESULT_DONE true).setBit GLB_BIST_RESULT_PASS
      (s1.fld GLB_BIST_RESULT_FAILED == 0)).setGlb 5).setPhase .load
  else s1.stepFailed 4

/-! ### Delivery by type -/

/-- Types and codes that the rows name. -/
def isType (t : BitVec 4) (e : Env) : Bool := e.typ == t
/-- A 2-beat COMMAND or a STATUS with a code. -/
def isCode (t : BitVec 4) (c : Nat) (e : Env) : Bool := e.typ == t && e.len == 2 && envBits e 95 88 == c
/-- A STATUS that Brush's routines send (Table 12-5). -/
def isBrushStatus (e : Env) : Bool := e.typ == tSTATUS && decide (0x10 ≤ envBits e 95 88)
/-- A 1-beat COMMAND. -/
def isShort (e : Env) : Bool := e.typ == tCOMMAND && e.len == 1

/-- What an envelope does on the field die. -/
def State.fieldTake (s : State) (e : Env) : State :=
  match e.typ with
  | 0x9 => s.takeWrite e
  | 0xA => s.takeRead e
  | 0xC => s.takeTime e
  | 0xD => s.takeGap e
  | 0xE => s.takeFast e
  | 0xB =>
    if e.len = 1 then s.takeFast e
    else match envBits e 95 88 with
      | 1 => s.takeSwap e
      | 2 => s.takeEpoch e
      | _ => s.takeShed e
  | _ => s

/-- What an envelope does on the host die. -/
def State.hostTake (s : State) (e : Env) : State :=
  match e.typ with
  | 0x1 => s.takeReadings e
  | 0x2 => s.takeEvent e
  | 0x3 => s.takeHk e
  | 0x4 =>
    (match envBits e 95 88 with
      | 1 => s.takeLaneFail e
      | 2 => s.takeAcked e
      | _ => s.takeStatus e)
  | 0x5 => s.takeNotice e
  | 0x6 => s.takeReply e
  | 0x7 => s.takeBist e
  | 0x8 => s.heartbeatIn e
  | _ => s

/-- An envelope of the device's own arrives: a wrong frank comes of a lane that fails (R273). -/
def State.deliver (s : State) (f : Flight) : State :=
  let x : Rx := ⟨f.env, !envFrankOk f.env⟩
  s.accept f.toHost x (fun _ => true) (fun t e => if f.toHost then t.hostTake e else t.fieldTake e)

/-- The host→field envelopes that a tick delivers (R272): each waits for every earlier one. -/
def ripeField (t : Nat) : List Flight → List Flight
  | [] => []
  | f :: fs => if f.toHost then ripeField t fs else if f.due ≤ t then f :: ripeField t fs else []

/-- Deliver what arrives in this tick: host→field in order, field→host as it comes. -/
def State.deliveries (s : State) : State :=
  let down := ripeField s.tm.tick s.bar.flights
  let up := s.bar.flights.filter (fun f => f.toHost && decide (f.due ≤ s.tm.tick))
  let s1 := { s with bar := { s.bar with flights := s.bar.flights.filter (fun f =>
    if f.toHost then decide (s.tm.tick < f.due) else !down.contains f) } }
  forEach (down ++ up) (fun t f => t.deliver f) s1

/-- A spare swap that FAULT_POLICY launched takes effect on the field die (R346, R349): the sources whose raise it
answers lose LATCH and LSEV, and the host its mirror bits. -/
def State.swapCorrected (s : State) : State :=
  forEach fieldBlks (fun t b =>
    forEach (List.range 16) (fun u i =>
      let x := u.src b i
      let late := match x.last with
        | some t0 =>
          let at_ := sheetAtOrAfter (u.tm.fpm - BitVec.ofNat 48 (u.tm.tick - t0) + 2048)
          pmGe u.tm.fpm at_ && pmDist at_ u.tm.fpm % 2048 == 0
        | none => false
      if bitOf (u.fld (FLT_LATCH_LATCH (blkBase b))) i && x.pol.action == 2 && late then
        (u.clearMirror b (2 ^ i)).ackMask b (2 ^ i)
      else u) t) s

/-- The launch entry is a spare swap of Courier's (R349). -/
def isSwapEntry (e : LEntry) : Bool :=
  e.master == .courier && ((e.idx == COL_SPARE_CTRL && bitsOf e.val.toNat 17 16 == 1) ||
    (e.idx == 0x11E1 && decide (0x200 ≤ e.wa) && decide (e.wa < 0x240) && decide (64 ≤ bitsOf e.val.toNat 14 8)))

end Sys2Proof.Machine
end

