-- ==== Sys2Proof/Machine/Image.lean ====
section
/-!
DEFINITION. The configuration image (R318 to R324): its header, sections and items, the checks of Table 15-7 and
of Table 11-11, and what an item does.
-/
namespace Sys2Proof.Machine

/-! ### Header and sections (Tables 15-2, 15-3) -/

/-- A section: type, format, offset of its header, body length and the CRC-32 that it states. -/
structure Sect where
  typ : Nat
  fmt : Nat
  at_ : Nat
  len : Nat
  crc : Nat
deriving DecidableEq, Repr

/-- Image length L. -/
def State.imgLen (s : State) : Nat := s.flashLe 8 4

/-- n sections from an offset on. -/
def State.sectsFrom (s : State) : Nat → Nat → List Sect
  | 0, _ => []
  | n + 1, a =>
    let len := s.flashLe (a + 4) 4
    ⟨s.flashLe a 2, s.flashLe (a + 2) 2, a, len, s.flashLe (a + 8) 4⟩ :: s.sectsFrom n (a + 16 + len)

/-- The sections of the image. -/
def State.sects (s : State) : List Sect := s.sectsFrom (s.flashLe 6 2) 0x20

/-- The header is right (reason 1). -/
def State.headOk (s : State) : Bool :=
  s.flashLe 0 4 == 0x494B574E && s.flashLe 4 2 == 1 && crc32 (s.flashBytes 0 0x1C) == s.flashLe 0x1C 4

/-- The offset just after the last section. -/
def imgEnd (xs : List Sect) : Nat :=
  match xs.getLast? with
  | some x => x.at_ + 16 + x.len
  | none => 0x20

/-- A section's CRC is right; the body's stated length lies within 4 MiB. -/
def State.sectOk (s : State) (x : Sect) : Bool :=
  decide (x.len ≤ 0x400000) && crc32 (s.flashBytes (x.at_ + 16) x.len) == x.crc

/-- Types are known and strictly ascending, formats right (reason 4): the first section that is not. -/
def typesBad : Nat → List Sect → Option Nat
  | _, [] => none
  | last, x :: xs =>
    if x.typ ≤ last ∨ 0x0E < x.typ ∨ x.fmt ≠ 1 then some x.at_ else typesBad x.typ xs

/-- The required sections (Table 15-4). -/
def requiredTypes : List Nat := [0x01, 0x02, 0x03, 0x04, 0x06, 0x07, 0x09, 0x0A, 0x0B, 0x0C, 0x0D]

/-- Sections whose body is a list of items. -/
def hasItems (t : Nat) : Bool :=
  [0x01, 0x02, 0x03, 0x04, 0x07, 0x08, 0x09, 0x0A, 0x0B, 0x0C, 0x0D].contains t

/-! ### Items (Table 15-5) -/

/-- An item of a section body. -/
inductive Item where
  | reg (idx : Nat) (v : Word)
  | table (idx first : Nat) (ws : List W24)
  | option (code v : Nat)
  | endStd (version crc : Nat)
deriving DecidableEq, Repr

/-- N table words from a flash address. -/
def State.tableWords (s : State) (a n : Nat) : List W24 :=
  (List.range n).map (fun i => BitVec.ofNat 24 (s.flashLe (a + 3 * i) 3))

/-- The items from an offset to the end of a body, with their offsets, and the offset of the first one that is
reserved or overruns (reason 6). -/
def State.itemsFrom (s : State) : Nat → Nat → Nat → List (Nat × Item) × Option Nat
  | 0, a, stop => ([], if a = stop then none else some a)
  | n + 1, a, stop =>
    if stop ≤ a then ([], if a = stop then none else some a)
    else
      let w := s.flashLe a 4
      let mid := bitsOf w 27 16
      let go := fun (x : Item) (len : Nat) =>
        if stop < a + len then ([], some a)
        else
          let r := s.itemsFrom n (a + len) stop
          ((a, x) :: r.1, r.2)
      match w / 2 ^ 28 with
      | 1 => if mid = 0 then go (.reg (w % 65536) (BitVec.ofNat 32 (s.flashLe (a + 4) 4))) 8 else ([], some a)
      | 2 =>
        let k := s.flashLe (a + 8) 4
        let first := s.flashLe (a + 4) 4
        if mid = 0 ∧ first < 2 ^ 24 ∧ 1 ≤ k ∧ k ≤ 2 ^ 20 then
          go (.table (w % 65536) first (s.tableWords (a + 12) k)) (12 + (3 * k + 3) / 4 * 4)
        else ([], some a)
      | 3 => go (.option mid (w % 65536)) 4
      | 4 => if mid = 0 then go (.endStd (w % 65536) (s.flashLe (a + 4) 4)) 8 else ([], some a)
      | _ => ([], some a)

/-- The items of a section. -/
def State.items (s : State) (x : Sect) : List (Nat × Item) × Option Nat :=
  if hasItems x.typ then s.itemsFrom (x.len / 4 + 1) (x.at_ + 16) (x.at_ + 16 + x.len)
  else if (x.typ = 0x05 ∧ x.len ≠ 12288) ∨ (x.typ = 0x06 ∧ x.len ≠ 49152) then ([], some x.at_)
  else ([], none)

/-! ### Targets (Table 15-4) -/

/-- A value holds nothing outside a set of bits. -/
def within (v : Word) (mask : Nat) : Bool := v.toNat &&& (2 ^ 32 - 1 - mask) == 0

/-- A fault policy or an interrupt enable of some block. -/
def policyReg (i : Nat) : Bool := (blkOf i).isSome && (i % 0x100 == 0xF7 || i % 0x100 == 0xFA)

/-- A section may write a register with a value. -/
def regAllowed (t i : Nat) (v : Word) : Bool :=
  let among := fun (lo hi : Nat) => decide (lo ≤ i) && decide (i ≤ hi)
  match t with
  | 0x03 => (i == PAL_CTRL && within v 0x100) || i == EXC_SLEW || i == ROW_SPARE_CTRL
  | 0x04 =>
    i == COL_CTRL || i == COL_ENABLE || i == COL_ROVER_CTRL || i == NUL_CTRL || i == NUL_LIMIT ||
      i == NUL_CONVERGE || ((i == NUL_LOOP_GAIN || i == NUL_DAC_RANGE) && bitOf v.toNat 31) ||
      among CAL_CTRL CAL_DEFER_LIMIT
  | 0x07 => i == VAR_T_DEFAULT || i == VAR_T_CADENCE
  | 0x08 => among EVT_CTRL EVT_TRIG_OFFSET
  | 0x09 =>
    ((i == 0x1700 || i == 0x1800) && within v 1) || i == 0x1702 || i == 0x1802 || among 0x1710 0x171F ||
      among 0x1810 0x181F || i == HKS_REFBUF || i == HKS_EXC_CTRL || i == HKS_CHECK_CTRL ||
      i == HKS_REDUNDANT_SEL
  | 0x0A =>
    i == LNK_CTRL || i == LNK_NODE_ADDRESS || (among 0x0304 0x0307 && within v 0xC3FF0000) || i == STR_CTRL ||
      i == STR_DECIMATION || i == STR_COLUMN_MASK || i == TIM_FIXED_LATENCY ||
      (i == TIM_GAP_STATUS && within v 0xFFF00000)
  | 0x0B =>
    policyReg i || (i == BAR_LANE_MAP && within v (fldMask BAR_LANE_MAP_DEGRADE).toNat) || i == GLB_ALIVE_CTRL
  | 0x0C => among 0x0700 0x0703
  | 0x0D => i == EXC_DRAPE_CODE || i == EXC_REST_CODE || i == NUL_DRAPE_CODE
  | _ => false

/-- A section may write n window words from an address on; user tells the user part of a code section (R322). -/
def tableAllowed (t i first n : Nat) (user : Bool) : Bool :=
  let inside := fun (win lo hi : Nat) => i == win && decide (lo ≤ first) && decide (first + n ≤ hi + 1)
  match t with
  | 0x01 | 0x02 =>
    let w := if t = 1 then 0x06E0 else 0x1BE0
    if user then inside w 0x2800 0x3FFF || inside w 0x4400 0x47FF
    else inside w 0 0x27FF || inside w 0x4000 0x43FF
  | 0x03 => inside 0x11E0 0 0x23F
  | 0x04 => inside 0x12E0 0 0x41F || inside 0x13E0 0x3000 0x187FF || inside 0x1AE0 0xA00 0xA12
  | 0x07 => inside 0x14E0 0x8000 0x801F
  | 0x08 => inside 0x16E0 0 0x27FF
  | 0x0A => inside 0x03E0 0 0x1FF
  | _ => false

/-- A section may hold an option (Table 15-6). -/
def optionAllowed (t code : Nat) : Bool :=
  match t with
  | 0x03 => code == 0x001
  | 0x0A => code == 0x002
  | 0x0B => (decide (0x010 ≤ code) && decide (code ≤ 0x014)) || (decide (0x018 ≤ code) && decide (code ≤ 0x01A))
      || code == 0x01C || code == 0x01D
  | _ => false

/-- The first item that writes what Table 15-4 does not give its section, or an END_STD out of place (reason 7). -/
def targetsBad (t : Nat) : Bool → List (Nat × Item) → Option Nat
  | _, [] => none
  | user, (a, x) :: xs =>
    match x with
    | .reg i v => if regAllowed t i v then targetsBad t user xs else some a
    | .table i first ws => if tableAllowed t i first ws.length user then targetsBad t user xs else some a
    | .option c _ => if optionAllowed t c then targetsBad t user xs else some a
    | .endStd _ _ => if t ≤ 2 ∧ user = false then targetsBad t true xs else some a

/-- The END_STD of a code section with its offset. -/
def endOf (xs : List (Nat × Item)) : Option (Nat × Nat × Nat) :=
  xs.findSome? (fun x => match x.2 with
    | .endStd v c => some (x.1, v, c)
    | _ => none)

/-! ### What an item does (R321) -/

/-- The loader as a writer: no boundary holds its writes. -/
def asLoader : Writer := ⟨.loader, true⟩

/-- A REG item: settings whose rules look at other items are stored as they stand, for the rules are checked over
the whole image (R321, reason 8). -/
def State.loadReg (s : State) (i : Nat) (v : Word) : State :=
  let n := v.toNat
  let p := bitsOf n 29 24
  if i = NUL_LOOP_GAIN then
    let s1 := s.setFld NUL_LOOP_GAIN_PIN p
    if bitOf n 31 && decide (p < 34) then
      { s1 with nul := { s1.nul with gain := assocPut s1.nul.gain p (n % 16) 3 } }
    else s1
  else if i = NUL_DAC_RANGE then
    let s1 := s.setFld NUL_DAC_RANGE_PIN p
    if bitOf n 31 && decide (p < 34) && n % 4 != 3 then
      { s1 with nul := { s1.nul with range := assocPut s1.nul.range p (n % 4) 1 } }
    else s1
  else if (0x1710 ≤ i ∧ i < 0x1720) ∨ (0x1810 ≤ i ∧ i < 0x1820) then s.setReg i (seqStored v)
  else if i = STR_DECIMATION then s.setReg i (decStored v)
  else if i = COL_ENABLE then s.setReg i (BitVec.ofNat 32 (n &&& s.enableMask))
  else if i = STR_COLUMN_MASK ∨ i = STR_CTRL ∨ i = HKS_EXC_CTRL ∨ i = 0x1700 ∨ i = 0x1800 then s.storeRw i v
  else (s.seeIrq i v).applyWhole i v asLoader 0

/-- A word of a TABLE item. -/
def State.loadWord (s : State) (b : Blk) (a : Nat) (w : W24) : State :=
  let n := w.toNat
  match b with
  | .pal => s.setWinN .pal a (n &&& (if 0x200 ≤ a then 0x7F7F else palWordMask (a % 0x100)))
  | .col =>
    if 0x200 ≤ a then s.setWinN .col a (n &&& trimMask (a % 2))
    else if 0x100 ≤ a then s.setWinN .col a (n &&& 0x3F3F)
    else s.setWin .col a w
  | .nul => s.setWinN .nul a (if 0x3000 ≤ a ∧ a < 0x10000 then n % 2 ^ 21 else n)
  | .lnk => s.setWinN .lnk a (n &&& 0xF000FF)
  | .cou => s.setWin .cou a w
  | .bru => s.setWin .bru a w
  | _ => s.winWrite b a (BitVec.ofNat 32 n) asLoader

/-- Window words from an address on. -/
def State.loadWords (s : State) (b : Blk) : Nat → List W24 → State
  | _, [] => s
  | a, w :: ws => (s.loadWord b a w).loadWords b (a + 1) ws

/-- The units that an option marks optional (Table 15-6). -/
def optionUnits (code v : Nat) : List Nat :=
  let bits := (List.range 16).filter (fun i => bitOf v i)
  if code ≤ 0x014 then bits.map (fun i => 0x40 + 16 * (code - 0x010) + i)
  else if code ≤ 0x01A then bits.map (fun i => 16 * (code - 0x018) + i)
  else if code = 0x01C then (bits.filter (fun i => decide (i < 4))).map (fun i => 0x100 + i)
  else (bits.filter (fun i => decide (i < 4))).map (fun i => 0xD0 + i)

/-- An option (Table 15-6); it takes effect at the end of its load step. -/
def State.loadOption (s : State) (code v : Nat) : State :=
  if code = 0x001 then { s with cfg := { s.cfg with palBank := bitOf v 0 } }
  else if code = 0x002 then { s with cfg := { s.cfg with schedTab := bitOf v 0 } }
  else { s with cfg := { s.cfg with optional := s.cfg.optional ++ optionUnits code v } }

/-- An item as the loader applies it. -/
def State.loadItem (s : State) (x : Item) : State :=
  match x with
  | .reg i v => s.loadReg i v
  | .table i first ws =>
    (match blkOf i with
      | some b => (s.loadWords b first ws).setWinAddr b (masterCode .loader) (first + ws.length)
      | none => s)
  | .option c v => s.loadOption c v
  | .endStd _ _ => s

/-- An item has its target on the field die. -/
def itemField (x : Item) : Bool :=
  match x with
  | .reg i _ => decide (0x1000 ≤ i)
  | .table i _ _ => decide (0x1000 ≤ i)
  | _ => false

/-- The body of PRIMER or VARNISH_COEF. -/
def State.loadBody (s : State) (x : Sect) : State :=
  if x.typ = 0x05 then
    forEach ((List.range 4096).zip (s.tableWords (x.at_ + 16) 4096)) (fun u e => u.setWin .nul (0x1000 + e.1) e.2) s
  else if x.typ = 0x06 then
    forEach ((List.range 16384).zip (s.tableWords (x.at_ + 16) 16384)) (fun u e => u.setWin .var e.1 e.2) s
  else s

/-- The items of a section on one die. -/
def State.loadSect (s : State) (field : Bool) (x : Sect) : State :=
  let its := ((s.items x).1.map (fun e => e.2)).filter (fun e => itemField e == field)
  let s1 := forEach its (fun t e => t.loadItem e) s
  if field then s1.loadBody x else s1

/-! ### The checks of Table 11-11 -/

/-- A place on a path: address and return addresses. -/
abbrev Place := Nat × List Nat

/-- The fields of a stored microword. -/
def State.wordAt (s : State) (e : Eng) (a : Nat) : Fetched := fieldsOf (s.microBits e a % 2 ^ 88)

/-- Where a path goes from a place: a branch may be taken or not, and RET follows the address that CALL pushed
(R260). -/
def State.nextPlaces (s : State) (e : Eng) (p : Place) : List Place :=
  let f := s.wordAt e p.1
  let go := (f.m.next.toNat, p.2)
  let on := ((p.1 + 1) % 4096, p.2)
  match f.op with
  | some .call => if 8 ≤ p.2.length then [] else [(f.m.next.toNat, (p.1 + 1) % 4096 :: p.2)]
  | some .ret =>
    (match p.2 with
      | r :: rest => [(r, rest)]
      | [] => [])
  | some .end_ => []
  | none => []
  | _ => if f.m.cond = 0 then [go] else if f.m.cond = 1 then [on] else [go, on]

/-- Items 5 and 6: within n microwords every path ends in END, and every word may stand there. -/
def State.pathsEnd (s : State) (e : Eng) (svc : Bool) : Nat → List Place → Bool
  | 0, ps => ps.isEmpty
  | n + 1, ps =>
    ps.all (fun p =>
      let f := s.wordAt e p.1
      tailOk e svc f && (f.op == some .end_ || !(s.nextPlaces e p).isEmpty)) &&
      s.pathsEnd e svc n (ps.flatMap (fun p => s.nextPlaces e p)).eraseDups

/-- A place before the commit with the staging writes and excursions on the way to it. -/
structure Walk where
  place : Place
  stage : Nat
  exc   : Nat
deriving DecidableEq, Repr

/-- Item 4: the places before the commit that can be reached, unless some path has too many writes; a cycle with
a WRREG has. -/
def State.walk (s : State) (e : Eng) : Nat → List Walk → List Walk → Option (List Walk)
  | 0, _, _ => none
  | _ + 1, [], seen => some seen
  | n + 1, w :: ws, seen =>
    if seen.contains w then s.walk e n ws seen
    else
      let f := s.wordAt e w.place.1
      let wr := f.op == some .wrreg
      let st := w.stage + (if wr && !f.m.stencil then 1 else 0)
      let ex := w.exc + (if wr && f.m.stencil then 1 else 0)
      if 32 < st ∨ 16 < ex then none
      else if f.m.commit then s.walk e n ws (w :: seen)
      else s.walk e n ((s.nextPlaces e w.place).map (fun p => ⟨p, st, ex⟩) ++ ws) (w :: seen)

/-- Places that a check of R260 visits at most. -/
def walkFuel : Nat := 2 ^ 24

/-- Items 4 and 5 for a routine's entry. -/
def State.routineOk (s : State) (e : Eng) (entry : Nat) : Bool :=
  match s.walk e walkFuel [⟨(entry, []), 0, 0⟩] [] with
  | none => false
  | some seen =>
    (seen.filter (fun w => (s.wordAt e w.place.1).m.commit)).all (fun w =>
      (s.wordAt e w.place.1).op == some .end_ || s.pathsEnd e false 64 (s.nextPlaces e w.place))

/-- Items 1 and 2 for every microword. -/
def State.wordsOk (s : State) (e : Eng) : Bool :=
  (List.range 4096).all (fun a =>
    match checkWord (s.microBits e a) with
    | .good d => wordOk e (fieldsOf d) d
    | _ => false)

/-- Item 3: descriptors and handler words. -/
def State.descsOk (s : State) (e : Eng) : Bool :=
  (List.range 64).all (fun n =>
    let d := s.desc0 e n
    !descValid d || ((decide ((descEntry d).toNat < 0xA00) == decide (n < 48)) && !(descService d && descUrgent d))) &&
  (List.range 5).all (fun k =>
    let h := fun (a lo : Nat) =>
      let w := (s.engData e (a + k)).toNat
      let d := s.desc0 e (w % 64)
      !bitOf w 23 || (descValid d && !descService d && decide (lo ≤ w % 64))
    h 0x80 0 && h 0x400 48)

/-- Every check of Table 11-11 on an engine's stores. -/
def State.codeOk (s : State) (e : Eng) : Bool :=
  s.wordsOk e && s.descsOk e &&
    (List.range 64).all (fun n =>
      let d := s.desc0 e n
      let a := (descEntry d).toNat
      !descValid d || (if descService d then s.pathsEnd e true 64 [(a, [])] else s.routineOk e a))

/-! ### The value rules (reason 8) -/

/-- A REG item breaks a value range of a field map.  A range for which the field map says what another value
stores is not broken by that value: the loader's write stores it (R321). -/
def valueBad (i : Nat) (v : Word) : Bool :=
  (decide (0x304 ≤ i) && decide (i ≤ 0x307) && bitsOf v.toNat 31 30 == 3) ||
    (i == EVT_PRETRIGGER && decide (256 < fldGet EVT_PRETRIGGER_COUNT v)) ||
    (i == EVT_TRIG_OFFSET && (fldGet EVT_TRIG_OFFSET_OFFSET v == 0 || decide (960 < fldGet EVT_TRIG_OFFSET_OFFSET v)))

/-- The trace settings words keep their ranges (Table 10-15). -/
def State.nominalsOk (s : State) : Bool :=
  decide (1000 ≤ s.winN .cal 0xA10) && decide (s.winN .cal 0xA10 ≤ 100000) &&
    decide (25000 ≤ s.winN .cal 0xA12) && decide (s.winN .cal 0xA12 ≤ 50000)

/-- The map entries keep R70. -/
def State.mapsOk (s : State) : Bool :=
  (List.range 64).all (fun r => mapRule 64 68 (s.rowDrv r) (s.rowPin r) (s.otherRows r) == 0) &&
    (List.range 32).all (fun c => mapRule 32 34 (s.colFe c) (s.colPin c) (s.otherCols c) == 0)

/-- Both palette banks keep R81. -/
def State.bankOk (s : State) : Bool := (s.bankCheck 0).isNone && (s.bankCheck 0x100).isNone

/-- Settings words of the pin units that the column map names keep R103, loop gains R134 and sequence entries
R189. -/
def State.settingsOk (s : State) : Bool :=
  (List.range 32).all (fun c => settingsValid (s.winN .col (s.colPin c))) &&
    (List.range 34).all (fun p => decide (gMin (s.pinDext p) ≤ s.gainOf p)) &&
    (List.range 16).all (fun n =>
      seqValid .a s.excOwner (s.reg (hkSeqIdx .a n)) && seqValid .b s.excOwner (s.reg (hkSeqIdx .b n)))

/-- Both schedule tables keep R293, and the stream fits the slots of the one active at load (R31). -/
def State.linksOk (s : State) : Bool :=
  (s.schedCheck s.portView false).isNone && (s.schedCheck s.portView true).isNone &&
    decide (s.strNeed ≤ (s.kindSlots s.cfg.schedTab 2).length)

/-- The first section whose value rules fail (reason 8), judged on the state that the image gives. -/
def State.rulesBad (s : State) (its : List (Sect × List (Nat × Item))) : Option Nat :=
  let at_ := fun (t : Nat) => ((its.find? (fun x => x.1.typ == t)).map (fun x => x.1.at_)).getD 0
  let value := (its.flatMap (fun x => x.2)).findSome? (fun e => match e.2 with
    | .reg i v => if valueBad i v then some e.1 else none
    | _ => none)
  match value with
  | some a => some a
  | none =>
    if !s.bankOk then some (at_ 3)
    else if !s.mapsOk || !s.nominalsOk then some (at_ 4)
    else if !s.settingsOk then some (at_ 4)
    else if !s.linksOk then some (at_ 0x0A)
    else none

/-! ### The check pass (R323, Table 15-7) -/

/-- The library CRC of a code section is right and known, and the versions agree (R322, reason 10). -/
def State.libraryOk (s : State) (x : Sect) (its : List (Nat × Item)) : Option Nat :=
  match endOf its with
  | none => none
  | some (a, v, c) =>
    if crc32 (s.flashBytes (x.at_ + 16) (a - (x.at_ + 16))) = c ∧
        Config.romAccepts (BitVec.ofNat 32 c) (BitVec.ofNat 16 v) (x.typ == 2) = true then some v
    else none

/-- The state that an image gives, from reset, whichever die holds the target. -/
def State.imageState (s : State) (xs : List Sect) : State :=
  let t0 := { State.reset with cfg := { CfgSt.reset with flash := s.cfg.flash } }
  forEach xs (fun t x => (t.loadSect false x).loadSect true x) t0

/-- The reason for which an image fails and the offset of what failed (R323): the first check of Table 15-7 that
fails; inverted tells that checker 6 inverts the CRC of the first section. -/
def State.imageFails (s : State) (inverted : Bool) : Option (Nat × Nat) :=
  let xs := s.sects
  let its := xs.map (fun x => (x, s.items x))
  let code := its.filter (fun x => decide (x.1.typ ≤ 2))
  let libs := code.map (fun x => s.libraryOk x.1 x.2.1)
  if !s.headOk then some (1, 0)
  else if 0x400000 < s.imgLen ∨ imgEnd xs ≠ s.imgLen then some (2, 0)
  else match (if inverted then xs.head? else xs.find? (fun x => !s.sectOk x)) with
  | some x => some (3, x.at_)
  | none =>
  match typesBad 0 xs with
  | some a => some (4, a)
  | none =>
  if !requiredTypes.all (fun t => xs.any (fun x => x.typ == t)) then some (5, 0)
  else match its.findSome? (fun x => x.2.2) with
  | some a => some (6, a)
  | none =>
  match its.findSome? (fun x =>
      match targetsBad x.1.typ false x.2.1 with
      | some a => some a
      | none => if x.1.typ ≤ 2 ∧ (endOf x.2.1).isNone = true then some x.1.at_ else none) with
  | some a => some (7, a)
  | none =>
  let t := s.imageState xs
  match t.rulesBad (its.map (fun x => (x.1, x.2.1))) with
  | some a => some (8, a)
  | none =>
  if !t.codeOk .courier ∨ !t.codeOk .brush then
    some (9, (if t.codeOk .courier then xs.getD 1 ⟨0, 0, 0, 0, 0⟩ else xs.getD 0 ⟨0, 0, 0, 0, 0⟩).at_)
  else match libs with
  | [some a, some b] => if a = b then none else some (10, (xs.getD 1 ⟨0, 0, 0, 0, 0⟩).at_)
  | none :: _ => some (10, (xs.getD 0 ⟨0, 0, 0, 0, 0⟩).at_)
  | _ => some (10, (xs.getD 1 ⟨0, 0, 0, 0, 0⟩).at_)

end Sys2Proof.Machine
end

