-- ==== Sys2Proof/Machine/Load.lean ====
section
/-!
DEFINITION. The steps of start-up (R324 to R332, Table 15-9): the check pass, self-tests, training, field load
with the calibration slot (R230), the end of field load and the entry into READY.
-/
namespace Sys2Proof.Machine

/-- Window words of a block from lo to hi take their reset values (Table 18-18). -/
def State.clearTable (s : State) (b : Blk) (lo hi : Nat) : State :=
  { s with wins := s.wins.filter (fun e => decide (e.1 < winKey b lo) || decide (winKey b hi < e.1)) }

/-- A section's items have been applied. -/
def State.sectLoaded (s : State) (t : Nat) : State :=
  let f := s.fld CFG_SECTION_STATUS_LOADED
  if bitOf f (t - 1) then s else s.setFld CFG_SECTION_STATUS_LOADED (f + 2 ^ (t - 1))

/-! ### The check pass (R323, R324) -/

/-- The fault group and source of a self-test finding (R355): the block that holds the unit. -/
def findingSource (f : Finding) : Blk × Nat :=
  match f.test.toNat with
  | 0x00 => (.cfg, 0)
  | 0x04 => (.lnk, 6)
  | 0x06 => (.bar, 3)
  | 0x12 => (.pal, 5)
  | 0x13 => (.col, 7)
  | 0x14 => (.nul, 7)
  | 0x15 => (.var, 4)
  | 0x16 => if f.unit = 0xD1 then (.hkb, 4) else (.hka, 4)
  | 0x18 => (.hks, 3)
  | 0x1A => (.cal, 7)
  | n => if n < 0x10 then (.glb, 0) else (.fgl, 0)

/-- A self-test finding raises (R339): master self-test, the finding's UNIT where Table 12-4 has it, and its DETAIL,
or the port, as the address. -/
def State.findingRaise (s : State) (f : Finding) : State :=
  let x := findingSource f
  let port := f.test == 0x04
  s.raiseWith x.1 x.2 ⟨if port then 0xFF else f.unit.toNat, if port then f.unit.toNat else f.detail.toNat, 7, 3,
    none, false⟩

/-- A load fails (R323): CFG_STATUS names the reason, and SAFE follows. -/
def State.loadFails (s : State) (reason offset : Nat) : State :=
  let s1 := ((s.setBit CFG_STATUS_FAIL true).setFld CFG_STATUS_REASON reason).setFld CFG_STATUS_OFFSET offset
  let f : Finding := ⟨0x00, 0xFF, BitVec.ofNat 16 reason⟩
  ((s1.addFinding f true).findingRaise f).stepFailed 1

/-- The results of the last start-up are cleared, and what was isolated is not any more (R336, R347, Table
15-14). -/
def State.loadBegin (s : State) : State :=
  let s1 := { s with flt := { s.flt with iso := [], isoNext := [], failed := [] },
                     cfg := { s.cfg with optional := [], palBank := false, schedTab := false, autoRun := false } }
  (((s1.clearFindings.setBit GLB_STATE_DEGRADED false).setReg CFG_STATUS 0).setReg CFG_SECTION_STATUS
    0).engStart .courier

/-- The units that the image's map entries name (R335). -/
def State.mapUnits (s : State) : List Nat :=
  ((List.range 64).flatMap (fun r => [0x40 + s.rowDrv r, 0x40 + s.rowPin r]) ++
    (List.range 32).flatMap (fun c => [s.colFe c, s.colPin c])).eraseDups

/-- The CRC-32 of R230 over the section CRCs of PALETTE and COLUMNS. -/
def sectCrc (xs : List Sect) : Nat :=
  crc32 ((xs.filter (fun x => x.typ == 0x03 || x.typ == 0x04)).flatMap (fun x => leBytes 4 x.crc))

/-- The library version of an image (R322). -/
def State.libVersion (s : State) (xs : List Sect) : Nat :=
  match xs.find? (fun x => x.typ == 0x01) with
  | some x =>
    (match endOf (s.items x).1 with
      | some (_, v, _) => v
      | none => 0)
  | none => 0

/-- What an image in order gives on the host die (R321, R324). -/
def State.hostLoad (s : State) : State :=
  let xs := s.sects
  let img := s.imageState xs
  let bits := xs.foldl (fun m x => m ||| 2 ^ (x.typ - 1)) 0
  let s1 := (s.clearTable .cou 0 0x47FF).clearTable .lnk 0 0x1FF
  let s2 := forEach xs (fun t x => t.loadSect false x) s1
  let s3 := { s2 with cfg := { s2.cfg with named := img.mapUnits, loopCrc := sectCrc xs,
                                           autoRun := bitOf (s.flashLe 0x10 4) 0 } }
  let s4 := ((s3.setFld CFG_SECTION_STATUS_PRESENT bits).setFld GLB_IMAGE_INFO_IMAGE_ID (s.flashLe 0x0C
    2)).setFld GLB_IMAGE_INFO_LIB_VERSION (s.libVersion xs)
  ((s4.setBit LNK_SCHED_SEL_ACTIVE s4.cfg.schedTab).sectLoaded 0x01).sectLoaded 0x0C

/-- The check pass (R323, R324): the image loads, and host self-test follows, or SAFE. -/
def State.checkPass (s : State) : State :=
  if s.cfg.phase != Phase.check then s
  else
    let inverted := s.injected .cfg 6
    let s0 := if inverted then s.injectDone .cfg else s
    let s1 := s0.loadBegin
    match s1.imageFails inverted with
    | some (r, a) => s1.loadFails r a
    | none => ((s1.hostLoad.setGlb 3).setPhase .hostTest).request .courier 0 0

/-! ### Self-tests (R329, R330, R339) -/

/-- Host self-test ends with its findings (R329): barrier training follows, or SAFE. -/
def State.hostTest (s : State) (fs : List Finding) : State :=
  if s.cfg.phase != Phase.hostTest then s
  else
    let s1 := forEach fs (fun t f => (t.addFinding f true).findingRaise f) s
    if fs.isEmpty then ((s1.fieldRegsReset).setPhase .training).trainBegin 1 else s1.stepFailed 2

/-- CLEAR_CODES in SAFE before field load (R332): the drape codes of an image that gives them. -/
def State.clearCodes (s : State) : State :=
  if !s.headOk then s
  else match s.sects.find? (fun x => x.typ == 0x0D && s.sectOk x) with
    | none => s
    | some x =>
      let its := s.items x
      if its.2.isSome || (targetsBad 0x0D false its.1).isSome then s
      else (s.loadSect true x).sectLoaded 0x0D

/-- SAFE was entered before field load and the barrier is trained (R332). -/
def State.clearsCodes (s : State) : Bool := s.glb == 4 && !s.bit FGL_STATUS_LOADED && s.barUp

/-- The finding of a training that lost lanes (Table 15-10): field→host lanes in bits 12 to 0, host→field lanes in
bits 15 to 13. -/
def laneFinding (f2h h2f : Nat) : Finding :=
  ⟨0x06, 0xFF, BitVec.ofNat 16 ((8191 - f2h % 8192) + (7 - h2f % 8) * 8192)⟩

/-- Field self-test begins (R324, Table 11-12): BRUSH_CODE goes into Brush's stores. -/
def State.fieldTestBegin (s : State) : State :=
  let s1 := s.clearTable .bru 0 0x47FF
  let s2 := match s1.sects.find? (fun x => x.typ == 0x02) with
    | some x => (s1.loadSect true x).sectLoaded 0x02
    | none => s1
  (((s2.engStart .brush).setBit FGL_STATUS_TESTING true).setPhase .fieldTest).request .brush 0 0

/-- A training attempt ends (R264) with what follows for start-up (R329) and for SAFE (R332). -/
def State.trainingEnds (s : State) (f2h h2f : Nat) : State :=
  if s.bar.trainStart.isNone then s
  else
    let r := s.trainEnd f2h h2f
    let f := laneFinding f2h h2f
    match r.1 with
    | none => r.2
    | some true =>
      if r.2.cfg.phase == Phase.training then
        (if f.detail = 0 then r.2 else r.2.addFinding f false).fieldTestBegin
      else if r.2.clearsCodes then r.2.clearCodes
      else r.2
    | some false =>
      if r.2.cfg.phase == Phase.training then ((r.2.addFinding f true).findingRaise f).stepFailed 3
      else r.2.raise .bar 3

/-- Copies of the factory record that field self-test finds bad, bit 0 for copy 0 and bit 1 for copy 1 (R213): those
of a FACTORY finding and those that checker 8 of FGL spoils. -/
def State.factoryBad (s : State) (fs : List Finding) : Nat :=
  let told := fs.foldl (fun m f => if f.test = 0x10 then m ||| f.detail.toNat % 4 else m) 0
  if s.injected .fgl 8 then told ||| (if s.bit (FLT_INJECT_MODE (blkBase .fgl)) then 3 else 1) else told

/-- What the factory record in use gives (R4, R213, R215, Table 15-21). -/
def State.factoryLoad (s : State) (bad : Nat) : State :=
  let ok := decide (bad ≠ 3)
  let le := fun (a : Nat) => (List.range 4).foldl (fun m i => m + (Config.factoryByte (a + i)).toNat * 256 ^ i) 0
  let s1 := ((s.setReg 0x0009 (BitVec.ofNat 32 (if ok then le 0x10 else 0))).setReg 0x000A (BitVec.ofNat 32 (if ok
    then le 0x14 else 0))).setBit CFG_FACTORY_STATUS_VALID ok
  let s2 := s1.setFld CFG_FACTORY_STATUS_COPY (if bad % 2 = 0 then 1 else if ok then 2 else 0)
  ((s2.setBit CFG_FACTORY_STATUS_COPY0_BAD (bitOf bad 0)).setBit CFG_FACTORY_STATUS_COPY1_BAD (bitOf bad 1)).setFld
    CFG_FACTORY_STATUS_REVISION (if ok then Config.siliconRevision.toNat else 0)

/-- The BIST_REPORT of some findings (R330): at most twelve. -/
def bistDraft (pass : Bool) (fs : List Finding) : Draft :=
  let xs := fs.take 12
  let k := xs.length
  let len := (80 + 32 * k + 79) / 80
  let n := payBits len
  let body := xs.foldl (fun m f => m * 2 ^ 32 + (f.test.toNat * 2 ^ 24 + f.unit.toNat * 2 ^ 16 + f.detail.toNat)) 0
  let head := (if pass then 2 ^ 15 else 0) + k * 2 ^ 11
  ⟨tBIST, BitVec.ofNat 10 len, 0xFF, none, (head * 2 ^ (32 * k) + body) * 2 ^ (n - 16 - 32 * k), false⟩

/-- Field self-test ends with its findings (R213, R329, R330): Brush reports them. -/
def State.fieldTest (s : State) (fs : List Finding) : State :=
  if s.cfg.phase != Phase.fieldTest then s
  else
    let bad := s.factoryBad fs
    let s0 := if s.injected .fgl 8 then s.injectDone .fgl else s
    let rest := fs.filter (fun f => f.test != 0x10)
    let all := (if bad = 0 then [] else [⟨0x10, 0xFF, BitVec.ofNat 16 bad⟩]) ++ rest
    let failing := if bad = 3 then all else rest
    let s1 := forEach failing (fun t f => t.findingRaise f) (s0.factoryLoad bad)
    let bits := failing.foldl (fun m f => m ||| 2 ^ (f.test.toNat - 0x10)) 0
    let s2 := (((s1.setBit FGL_BIST_RESULT_DONE true).setBit FGL_BIST_RESULT_PASS failing.isEmpty).setFld
      FGL_BIST_RESULT_COUNT (min failing.length 63)).setFld FGL_BIST_RESULT_FAILED bits
    (s2.setBit FGL_STATUS_TESTING false).sendF (bistDraft failing.isEmpty all)

/-! ### Field load (R230, R324, R326) -/

/-- The tables of Table 15-4 on the field die take their reset values before their sections are applied (Table
18-18). -/
def State.fieldTablesReset (s : State) : State :=
  let s1 := (((s.clearTable .pal 0 0x23F).clearTable .col 0 0x41F).clearTable .nul 0x1000 0x1FFF).clearTable .nul
    0x3000 0x187FF
  let s2 := (((s1.clearTable .cal 0 0x43F).clearTable .cal 0xA00 0xA12).clearTable .var 0 0x801F).clearTable .evt 0
    0x27FF
  { s2 with nul := { s2.nul with gain := [], range := [], primerBad := [], wordBad := [] },
            var := { s2.var with badWord := [] }, evt := { s2.evt with badWord := [] } }

/-- Words of 3 bytes from the flash into registers: HK factors of one converter (Tables 10-1, 10-5). -/
def State.factorRegs (s : State) (base : Nat) (byte : Nat → Nat) : State :=
  forEach (List.range 16) (fun t k =>
    t.setReg (base + 0x20 + k) (BitVec.ofNat 32 (byte (3 * k) + byte (3 * k + 1) * 256 + byte (3 * k + 2) * 65536))) s

/-- A record of the slot (R230, Table 10-6); with loop data where the slot's image is the one in use. -/
def State.slotRecordIn (s : State) (loop : Bool) (a : Nat) : State :=
  let w := fun (k : Nat) => BitVec.ofNat 24 (s.flashLe (a + 3 * k) 3)
  let head := (w 0).toNat
  let f := bitsOf head 23 18
  let g := bitsOf head 17 15
  if 34 ≤ f then s
  else
    let q := 32 * f + 4 * g
    let marks := (if bitOf head 14 then 2 ^ 23 else 0) + (if loop && bitOf head 13 then 2 ^ 22 else 0)
    let s1 := (s.setWin .col (0x200 + 16 * f + 2 * g) (w 1)).setWin .col (0x201 + 16 * f + 2 * g) (w 2)
    let s2 := (s1.setWinN .cal q ((w 134).toNat % 2 ^ 22 + marks)).setWin .cal (q + 1) (w 135)
    let s3 := (s2.setWin .cal (q + 2) (w 136)).setWin .cal (q + 3) (w 137)
    if !loop then s3
    else
      let s4 := forEach (List.range 3) (fun t n => t.setWin .nul (rhoAddr f g n) (w (3 + n))) s3
      forEach (List.range 128) (fun t k => t.setWin .nul (rotAddr f g 0 + k) (w (6 + k))) s4

/-- The calibration slot at field load (R208, R230, R139). -/
def State.slotLoad (s : State) : State :=
  let n := s.slotChoice
  let b := slotBase n
  let primed := (s.sects).any (fun x => x.typ == 0x05)
  let s0 := s.setFld NUL_PRIMER_CTRL_SOURCE (if primed then 1 else 0)
  let s1 := ((s0.setFld GLB_CAL_SLOT_LOADED n).setFld GLB_CAL_SLOT_ACTIVE n).setBit GLB_CAL_SLOT_LOOP_MATCH false
  if n = 0 then
    ((s1.factorRegs 0x1700 (fun i => (Config.factoryByte (0x20 + i)).toNat)).factorRegs 0x1800 (fun i =>
      (Config.factoryByte (0x50 + i)).toNat)).slotInfo
  else
    let loop := s.flashLe (b + 0x14) 4 == s.cfg.loopCrc
    let s2 := (s1.factorRegs 0x1700 (fun i => s.flashByte (b + 0x20 + i))).factorRegs 0x1800 (fun i =>
      s.flashByte (b + 0x50 + i))
    let s3 := forEach (List.range (s.flashLe (b + 6) 2)) (fun t k => t.slotRecordIn loop (b + 0x3080 + 414 * k)) s2
    let s4 := if loop then
        (forEach ((List.range 4096).zip (s.tableWords (b + 0x80) 4096)) (fun t e =>
          t.setWin .nul (0x1000 + e.1) e.2) s3).setFld NUL_PRIMER_CTRL_SOURCE (n + 1)
      else s3
    (s4.setBit GLB_CAL_SLOT_LOOP_MATCH loop).slotInfo

/-- Every field target but Brush's stores is written (R324), the pigeonholes are cleared (R173), and the slot is
read (R230); units that a degraded start isolates stay so (R335). -/
def State.fieldTargets (s : State) : State :=
  let xs := s.sects.filter (fun x => x.typ != 0x02)
  let s1 := forEach xs (fun t x => t.loadSect true x) s.fieldTablesReset
  let s2 := forEach (xs.filter (fun x => x.typ != 0x0E)) (fun t x => t.sectLoaded x.typ) s1
  let s3 := { s2.ringClear with lnk := { s2.ringClear.lnk with fieldTab := s.cfg.schedTab } }
  let s4 := (s3.setBit PAL_STATUS_ACTIVE_BANK s.cfg.palBank).slotLoad
  forEach s4.flt.iso (fun t u => t.isolate u) s4

/-- Field load reaches its last target (R324): refused tells that the field die refused a write or did not answer
it. -/
def State.fieldLoads (s : State) (refused : Bool) : State :=
  if s.cfg.phase != Phase.load then s
  else if refused || !s.barUp then s.loadFails 12 0
  else match s.sects.find? (fun x => x.typ != 0x01 && x.typ != 0x0C && x.typ != 0x0E && !s.sectOk x) with
    | some x => s.loadFails 13 x.at_
    | none => ((s.fieldTargets).setBit CFG_STATUS_DONE true).setPhase .loadWait

/-- The reference buffer holds field load up no more (R326). -/
def State.refHolds (s : State) : Bool := !s.bit HKS_REFBUF_EN || s.bit HKS_REFBUF_STATUS_READY

/-- Field load ends (R93, R326): the rows come off their clamps and ramp to the REST code. -/
def State.fieldLoadEnds (s : State) : State :=
  if s.cfg.phase == Phase.loadWait && s.refHolds then
    ((s.setBit FGL_STATUS_LOADED true).releaseRows).setPhase .ramp
  else s

/-! ### READY (R326 to R328) -/

/-- The ramp is complete (R326). -/
def State.rampEnds (s : State) : State :=
  if s.cfg.phase == Phase.ramp && !bitOf s.rampStatus.toNat 31 then s.setPhase .primer else s

/-- A primer word held to ±NUL_LIMIT. -/
def State.limitPrimer (s : State) (a : Nat) : State :=
  let v := s.nulSigned a
  let x := clampInt (-s.nulLimit) s.nulLimit v
  if x = v then s else s.setWinN .nul a (unsgn 24 x)

/-- The primer check (R326). -/
def State.primerChecks (s : State) : State :=
  let s1 := s.rampEnds
  if s1.cfg.phase != Phase.primer then s
  else (forEach (List.range 4096) (fun t k => t.limitPrimer (0x1000 + k)) s1).setPhase .waitReady

/-- READY is due in this tick (R327). -/
def State.readyDue (s : State) : Bool :=
  s.cfg.phase == Phase.waitReady && isSheet s.tm.hpm && !bitOf s.rampStatus.toNat 31 &&
    s.bit (ENG_CTRL_RUN 0x600) && s.bit (ENG_CTRL_RUN 0x1B00)

/-- The device enters READY (R327). -/
def State.readyEnters (s : State) : State := if s.readyDue then (s.setGlb 6).setPhase .done else s

/-- AUTO_RUN (R328). -/
def State.autoRuns (s : State) : State :=
  if s.cfg.autoRun && s.glb == 6 && s.bit TIM_STATUS_PM_VALID && s.tm.hpm.toNat % 2 ^ 22 == 0 then s.goRunning
  else s

end Sys2Proof.Machine
end

