-- ==== Sys2Proof/Machine/Watch.lean ====
section
/-!
DEFINITION. What watches the machine sheet by sheet: rovers (R117 to R119), persistent flags (R113, R131), quiet
recovery (R345), isolation under ACTION 1 (R347), ALIVE and IRQ_N (R353), supplies and temperature (R376, R392).
-/
namespace Sys2Proof.Machine

/-! ### Rovers (R117 to R119) -/

/-- A dwell begins on the next eligible column (R117). -/
def State.roverStart (s : State) (g : Nat) : State :=
  let rv := s.rover g
  if rv.dwelling || !s.mayRove g || s.glb != 7 then s
  else match s.nextTap g rv.next with
    | some c =>
      ((s.setRover g { rv with dwelling := true, col := c, start := s.tm.fpm, d := [], n := [] }).setFld
        (COL_ROVER_STATUS_STATE g) 1).setFld (COL_ROVER_STATUS_COLUMN g) c
    | none => s.setFld (COL_ROVER_STATUS_STATE g) 0

/-- A row's mean difference is larger than another's: |D|/n as a fraction. -/
def ratioMore (a b : Int × Nat) : Bool := decide (b.1.natAbs * a.2 < a.1.natAbs * b.2)

/-- The row with the largest |D|/n_used, the lowest of equals. -/
def worstRow : List (Nat × Int × Nat) → Option (Nat × Int × Nat)
  | [] => none
  | x :: xs =>
    match worstRow xs with
    | some y => if ratioMore y.2 x.2 then some y else some x
    | none => some x

/-- A mismatch (R119): it is counted, and recorded where the record is free. -/
def State.roverMismatch (s : State) (g : Nat) (x : Nat × Int × Nat) : State :=
  let s1 := s.inc (COL_ROVER_STATUS_MISMATCHES g)
  if s.bit COL_ROVER_MISMATCH_VALID then s1
  else
    let mean := clampInt (-(2 ^ 18)) (2 ^ 18 - 1) (meanOf x.2.1 x.2.2)
    let s2 := ((s1.setBit COL_ROVER_MISMATCH_VALID true).setFld COL_ROVER_MISMATCH_GROUP g).setFld
      COL_ROVER_MISMATCH_COLUMN (s1.rover g).col
    let s3 := ((s2.setFld COL_ROVER_MISMATCH_ROW x.1).setFld COL_ROVER_MISMATCH_MEAN (unsgn 19 mean)).setBit
      CAL_STATUS_CHECK_PENDING (s2.bit CAL_CTRL_VERDICT_EN)
    ({ s3 with cal := { s3.cal with checked := false } }).raise .col 1

/-- A dwell ends (R118, R119). -/
def State.roverEnd (s : State) (g : Nat) : State :=
  let rv := s.rover g
  if !rv.dwelling then s
  else
    let rows := (List.range 64).map (fun r => (r, assocGet rv.d r 0, assocGet rv.n r 0))
    let tol := s.fld COL_ROVER_CTRL_TOL
    let bad := rows.filter (fun x => decide (1024 ≤ x.2.2) && decide (tol * x.2.2 < x.2.1.natAbs))
    let s1 := match worstRow bad with
      | some x => s.roverMismatch g x
      | none => s
    let s2 := if rows.any (fun x => decide (x.2.2 < 1024)) then s1.inc (COL_ROVER_STATUS_INCONCLUSIVE g) else s1
    ((s2.setRover g { rv with dwelling := false, d := [], n := [], next := (rv.col + 1) % 32 }).setFld
      (COL_ROVER_STATUS_STATE g) 0).note .brush 0x16

/-- A rover in one tick: a dwell that may not go on stops, and dwells begin and end at multiples of 2^18. -/
def State.roverTick (s : State) (g : Nat) : State :=
  let s1 := if (s.rover g).dwelling && !s.mayRove g then
      s.setRover g { s.rover g with dwelling := false, d := [], n := [] }
    else s
  if !isSheet s1.tm.fpm then s1
  else
    let due := s1.tm.fpm.toNat % 2 ^ 18 == 0
    let s2 := if due && (s1.rover g).dwelling then s1.roverEnd g else s1
    let s3 := if due then s2.roverStart g else s2
    let rv := s3.rover g
    s3.setFld (COL_ROVER_STATUS_STATE g) (if s3.serves (32 + g) then 3 else if !rv.dwelling then 0
      else if pmDist rv.start s3.tm.fpm < 1024 then 1 else 2)

/-! ### Persistent flags (R113, R131) -/

/-- A channel has carried SAT for 1024 sheets in a row (R131). -/
def State.satPersists (s : State) (c : Nat) : State := (s.raiseUnit .nul 0 (s.colFe c)).standing .nul 0 true

/-- A column has carried OVR for 1024 sheets in a row (R113). -/
def State.ovrPersists (s : State) (c : Nat) : State := (s.raiseUnit .col 0 (s.colFe c)).standing .col 0 true

/-- The live flags of a sheet at tick 70, with the runs that reach 1024 (R113, R131). -/
def State.flagsAt70 (s : State) : State :=
  let s1 := s.statusAt70
  let sat := s1.nul.satRun.filter (fun e => e.2 == 1024)
  let ovr := (List.range 32).filter (fun c => (s1.colCh c).ovrRun == 1024)
  let s2 := forEach sat (fun t e => t.satPersists (e.1 / 64)) s1
  let s3 := forEach ovr (fun t c => t.ovrPersists c) s2
  let s4 := s3.standing .nul 0 (s3.nul.satRun.any (fun e => decide (1024 ≤ e.2)))
  s4.standing .col 0 ((List.range 32).any (fun c => decide (1024 ≤ (s4.colCh c).ovrRun)))

/-! ### Quiet recovery (R345) and isolation (R347) -/

/-- A source has been quiet long enough (R345): ACTIVE, LEVEL and CNT clear, and the recovery is counted. -/
def State.recover (s : State) (b : Blk) (i : Nat) : State :=
  let base := blkBase b
  let act := s.fld (FLT_STATUS_ACTIVE base)
  let s1 := s.setSrc b i { s.src b i with level := 0, cnt := 0, quiet := 0 }
  let s2 := s1.setFld (FLT_STATUS_ACTIVE base) (if bitOf act i then act - 2 ^ i else act)
  (s2.inc (FLT_RECOVERIES_COUNT base)).setFld (FLT_RECOVERIES_LAST base) i

/-- A source at the end of a sheet (R345, R351): the sheet is counted as quiet or not. -/
def State.sourceSheet (s : State) (b : Blk) (i : Nat) : State :=
  let x := s.src b i
  let live := bitOf (s.fld (FLT_STATUS_ACTIVE (blkBase b))) i || x.level != 0 || x.cnt != 0
  let n := if x.noisy || x.holds || !live then 0 else x.quiet + 1
  let s1 := s.setSrc b i { x with quiet := n, noisy := false, noticed := none }
  if x.pol.qexp ≠ 0 ∧ n = 2 ^ x.pol.qexp.toNat then s1.recover b i else s1

/-- The blocks of a die. -/
def dieBlks : Die → List Blk
  | .host => hostBlks
  | .field => fieldBlks

/-- The sources of a die at the end of a sheet. -/
def State.sourcesSheet (s : State) (d : Die) : State :=
  forEach (dieBlks d) (fun t b => forEach ((List.range 16).filter (fun i => assocHas t.srcs (srcKey b i)))
    (fun u i => u.sourceSheet b i) t) s

/-- Units that ACTION 1 or 2 isolates at this sheet boundary (R347): COL_ENABLE keeps the bit of a column whose
front end is isolated so. -/
def State.isolateNext (s : State) : State :=
  let us := s.flt.isoNext
  let s1 := { s with flt := { s.flt with isoNext := [] } }
  forEach us (fun t u =>
    if 0x40 ≤ u then t.isolate u
    else if t.flt.iso.contains u then t
    else { t with flt := { t.flt with iso := t.flt.iso ++ [u] } }) s1

/-! ### ALIVE and IRQ_N (R353) -/

/-- ALIVE is held low (R353). -/
def State.aliveHold (s : State) : Bool :=
  decide (2 ≤ s.seenSev) || (s.src .cou 6).holds || decide (s.glb ≤ 4) || !s.bit GLB_ALIVE_CTRL_EN

/-- ALIVE in one tick (R353): low in the tick after a hold begins, high again at the first multiple of 2^14 after
every hold has ended, else inverted at the rate that the severity asks for. -/
def State.aliveTick (s : State) : State :=
  let hold := s.aliveHold
  let slow := s.seenSev == 1
  let p := s.tm.hpm.toNat
  let invert := p % (if slow then 2 ^ 16 else 2 ^ 14) == 0
  let level :=
    if s.pin.aliveHeld then !hold && p % 2 ^ 14 == 0
    else if invert then !s.pin.alive
    else s.pin.alive
  let held := hold || (s.pin.aliveHeld && !level)
  let s1 := { s with pin := { s.pin with alive := level, aliveHeld := held } }
  (s1.setBit GLB_ALIVE_CTRL_LEVEL level).setBit GLB_ALIVE_CTRL_SLOW (slow && !hold)

/-- IRQ_N is low while a block requests an interrupt (R352). -/
def State.irqTick (s : State) : State := { s with pin := { s.pin with irqN := s.blockIrq == 0 } }

/-! ### Supplies, temperature, power (R376, R392, Table 17-8) -/

/-- A rail leaves or re-enters its operating range (R376). -/
def State.supplyMoves (s : State) (d : Die) (rail : Nat) (l : RailLevel) : State :=
  let f := fun (x y : Fld) => match d with
    | .field => x
    | .host => y
  let src : Blk × Nat := match d with
    | .field => (.fgl, 1)
    | .host => (.pwr, 1)
  let okF := f FGL_SUPPLY_STATUS_OK PWR_SUPPLY_STATUS_OK
  let put := fun (t : State) (x : Fld) (on : Bool) =>
    let v := t.fld x
    if bitOf v rail == on then t else t.setFld x (if on then v + 2 ^ rail else v - 2 ^ rail)
  let s1 := put s okF (l == .ok)
  match l with
  | .ok => s1.standing src.1 src.2 ((s1.src src.1 src.2).holds && s1.fld okF != 15)
  | .low => ((put s1 (f FGL_SUPPLY_STATUS_LOW PWR_SUPPLY_STATUS_LOW) true).raise src.1 src.2).standing src.1 src.2 true
  | .high =>
    ((put s1 (f FGL_SUPPLY_STATUS_HIGH PWR_SUPPLY_STATUS_HIGH) true).raise src.1 src.2).standing src.1 src.2 true

/-- FGL_DIE_TEMP is updated (Table 15-22, R392). -/
def State.dieTemp (s : State) (t : Nat) : State :=
  let hot := decide (2000 < sgn 16 t)
  let was := (s.src .fgl 2).holds
  let s1 := s.setFld FGL_DIE_TEMP_NOW t
  let s2 := if sgn 16 (s1.fld FGL_DIE_TEMP_PEAK) < sgn 16 t then s1.setFld FGL_DIE_TEMP_PEAK t else s1
  (if hot && !was then s2.raise .fgl 2 else s2).standing .fgl 2 hot

/-- PWR_ESTIMATE is updated (Table 17-8): a free value. -/
def State.estimateTick (s : State) : State :=
  let v := (Config.powerEstimate s.free).toNat
  let s1 := ({ s with free := s.free + 1 }).setFld PWR_ESTIMATE_NOW v
  if s1.fld PWR_ESTIMATE_PEAK < v then s1.setFld PWR_ESTIMATE_PEAK v else s1

/-! ### Courier's stall (R355) -/

/-- A slow-control request has waited for Courier too long (R355). -/
def State.stalls (s : State) : State := (s.raise .cou 6).standing .cou 6 true

/-- Requests that Courier has left for more than 64 ticks (R355). -/
def State.stallTick (s : State) : State :=
  if s.lnk.scBusy.any (fun t => decide (t + 64 < s.tm.tick)) && !(s.src .cou 6).holds then s.stalls else s

end Sys2Proof.Machine
end

