-- ==== Sys2Proof/Machine/Tick.lean ====
section
/-!
DEFINITION. One tick of both dies (R11, R16, R48): what the device does of itself, in the order of R48 and then of
the chapters, by the operations that the commands of the same names use.
-/
namespace Sys2Proof.Machine

/-! ### Ends of the device's own copies (R83, R139, R159) -/

/-- The palette copy ends (R83). -/
def State.palCopyEnd (s : State) : State :=
  (s.palCopyRest.setBit PAL_STATUS_COPY_BUSY false).dropTimers (fun i => i == .palCopyDone)

/-- The coefficient copy ends (R159). -/
def State.varCopyEnds (s : State) : State := s.varCopyEnd.dropTimers (fun i => i == .varCopyDone)

/-- The capture ends (R139). -/
def State.captureEnd (s : State) : State :=
  if s.nul.capture.isNone then s
  else
    let s1 := s.captureRest
    let s2 := { s1 with nul := { s1.nul with capture := none } }
    ((s2.setBit NUL_PRIMER_CTRL_CAPTURE_BUSY false).note .brush 0x13).dropTimers (fun i => i == .captureDone)

/-- A command of the device's own comes due. -/
def State.runTimer (s : State) (i : Instr) : State :=
  match i with
  | .palCopyDone => s.palCopyEnd
  | .varCopyDone => s.varCopyEnds
  | .captureDone => s.captureEnd
  | _ => s

/-- The device's own commands of this tick. -/
def State.timersDue (s : State) : State :=
  let due := s.timers.filter (fun e => decide (e.1 ≤ s.tm.tick))
  forEach due (fun t e => t.runTimer e.2) { s with timers := s.timers.filter (fun e => decide (s.tm.tick < e.1)) }

/-! ### Launch queues and held writes (R48, R50) -/

/-- The first entry of a die's queue whose postmark this tick bears is applied and leaves the queue (R50); a spare
swap of the fault policy corrects the raise that it answers (R346). -/
def State.launchOne (s : State) (d : Die) : State :=
  match (s.queue d).findIdx? (fun e => e.pm == s.pmOf d) with
  | none => s
  | some n =>
    match (s.queue d)[n]? with
    | none => s
    | some e =>
      let s1 := (s.setQueue d (dropAt (s.queue d) n)).applyEntry e
      if isSwapEntry e then s1.swapCorrected else s1

/-- Every entry that this tick bears, in order of arrival. -/
def State.launchAll (d : Die) : Nat → State → State
  | 0, s => s
  | n + 1, s => (s.launchOne d).launchAll d n

/-- The first held write of a die whose boundary this tick is (R48). -/
def State.heldOne (s : State) (d : Die) : State :=
  match s.held.findIdx? (fun h => h.field == (d == Die.field) && s.heldDue h) with
  | none => s
  | some n =>
    match s.held[n]? with
    | none => s
    | some h => ({ s with held := dropAt s.held n }).applyHeld h

/-- Every held write whose boundary this tick is, in order of arrival. -/
def State.heldAll (d : Die) : Nat → State → State
  | 0, s => s
  | n + 1, s => (s.heldOne d).heldAll d n

/-- The writes of a tick: launch entries of both dies, then held writes (R48). -/
def State.writesDue (s : State) : State :=
  let s1 := State.launchAll .host s.hostQ.length s
  let s2 := if s1.pin.fieldPower then State.launchAll .field s1.fieldQ.length s1 else s1
  let s3 := State.heldAll .host s2.held.length s2
  if s3.pin.fieldPower then State.heldAll .field s3.held.length s3 else s3

/-! ### The parts of a tick -/

/-- The next tick begins: the counters move on. -/
def State.advance (s : State) : State :=
  let f := if s.pin.fieldPower then s.tm.fpm + 1 else s.tm.fpm
  { s with tm := { s.tm with tick := s.tm.tick + 1, hpm := s.tm.hpm + 1, fpm := f,
                             hdrBad := s.tm.hdrBad <<< (1 : Nat) } }

/-- What the start of a sheet does before anything acts in it: sources, records of flags, isolation. -/
def State.sheetBegins (s : State) : State :=
  let s1 := if isSheet s.tm.hpm then s.sourcesSheet .host else s
  let s2 := if isSheet s1.tm.fpm && s1.pin.fieldPower then
      (((s1.sourcesSheet .field).rollRows).rollCols).rollNul
    else s1
  if isSheet s2.tm.hpm then s2.isolateNext else s2

/-- SAFE is entered where something asked for it (R329, R348), with CLEAR_CODES where the image gives them (R332)
and training where the barrier has none (R329). -/
def State.safeTick (s : State) : State :=
  match s.flt.safeDue with
  | none => s
  | some c =>
    let s1 := ({ s with flt := { s.flt with safeDue := none } }).safeEntry c
    let s2 := if s1.clearsCodes then s1.clearCodes else s1
    if s2.glb == 4 && !s2.bit BAR_STATUS_TRAINED && s2.bar.trainStart.isNone then s2.trainBegin 1 else s2

/-- The state machine of the device at a sheet boundary (R8, R327, R328, R55). -/
def State.stateTick (s : State) : State :=
  let s1 := ((s.fieldLoadEnds).rampEnds).readyEnters.autoRuns
  if isSheet s1.tm.hpm then s1.liveClear else s1

/-- Excitation and power in one tick, after the writes (R48, R88, R362). -/
def State.driveTick (s : State) : State :=
  let s1 := if isSheet s.tm.hpm then s.powerDecide else s
  let s2 := if isStroke s1.tm.fpm && s1.pin.fieldPower && !s1.pal.clamps then s1.slew (isSheet s1.tm.fpm) else s1
  s2.loopStartDue.powerTick

/-- The barrier at a sheet boundary and between (R277 to R280): swaps, heartbeats, training. -/
def State.barrierTick (s : State) : State :=
  let s1 := (s.laneSwapApply).swapLate.trainPhase
  if isSheet s1.tm.hpm then
    let r := s1.heartbeatCount
    if r.1 then r.2.raise .bar 5 else r.2
  else s1

/-- Columns whose fixed tick this is: the first at tick `first`, the next ones 2 ticks later each (R20). -/
def columnAt (first ph : Nat) : Option Nat :=
  let n := (ph + 128 - first) % 64
  if n % 2 = 0 then some (n / 2) else none

/-- The datapath in one tick (R20): flags at tick 70, columns at 74 + 2c, records at 75 + 2c, copies, captures and
the cadence. -/
def State.dataTick (s : State) : State :=
  let ph := s.tm.fpm.toNat % 64
  let s1 := if ph = 6 then s.flagsAt70 else s
  let s2 := match columnAt 74 ph with
    | some c => s1.columnComplete c
    | none => s1
  let s3 := match columnAt 75 ph with
    | some c => s2.recordsComplete c
    | none => s2
  let s4 := ((s3.captureTick).palCopyTick).varCopyTick
  if s4.tm.fpm.toNat % 2 ^ s4.fld VAR_T_CADENCE_EXP = 0 ∧ isSheet s4.tm.fpm = true ∧
      s4.bit FGL_STATUS_LOADED = true then s4.cadenceLatch else s4

/-- Housekeeping in one tick (R187, R193, R203). -/
def State.houseTick (s : State) : State :=
  let s1 := if s.refDue then s.refReady else s
  let s2 := if isSheet s1.tm.fpm then (s1.passBegin .a).passBegin .b else s1
  (s2.hkBegin .a).hkBegin .b

/-- Calibration and rovers in one tick (R117, R216 to R225). -/
def State.calTick (s : State) : State :=
  let s1 := if s.calDue then s.calDone else s
  let s2 := s1.releaseAway
  let s3 := if isSheet s2.tm.fpm then s2.calDispatch.calSheet else s2
  ((s3.setBit CAL_STATUS_CHECK_PENDING s3.checkWaits).roverTick 0).roverTick 1

/-- Port lanes whose retirement is due in this tick (R299). -/
def State.retireTick (s : State) : State :=
  forEach (s.lnk.retire.filter (fun x => x.2 == s.tm.hpm)) (fun t x => t.portRetires x.1) s

/-- The sorting office in one tick (R21, R292, R294): the deadline, covers, slots. -/
def State.officeTick (s : State) : State :=
  let s1 := if s.tm.hpm.toNat % 64 = 32 then s.sheetDeadline else s
  let s2 := s1.fragHeader
  let s3 := { s2 with lnk := { s2.lnk with out := [], line := [] } }
  (forEach (List.range 4) (fun t p => t.slotFill p) s3.covers).dropDue

/-- Requests that wait for envelopes in one tick (R288, R311, R312). -/
def State.requestTick (s : State) : State :=
  let s1 := forEach s.scDue (fun t w => t.scLate w) s.scSend
  s1.mgtTick

/-- Figures that the device keeps up of itself (Tables 02-10, 17-8). -/
def State.figuresTick (s : State) : State :=
  let s1 := if isSheet s.tm.hpm then s.setFld TIM_LAUNCH_STATUS_FIELD_OCC (min 127 s.fieldQ.length) else s
  if s1.tm.hpm.toNat % 2 ^ 14 = 0 then s1.estimateTick else s1

/-- The field die's share of a tick. -/
def State.fieldPart (s : State) (f : State → State) : State := if s.pin.fieldPower then f s else s

/-- One tick while the clock runs. -/
def State.tickBody (s : State) : State :=
  let s1 := (s.advance.renameDue).laneTick.sheetBegins
  let s2 := ((s1.fastDue).windowTick).barrierTick.sendTick
  let s3 := s2.timersDue.writesDue.retireTick.safeTick.stateTick
  let s4 := (s3.driveTick).deliveries
  let s5 := s4.fieldPart (fun t => ((t.dataTick).houseTick.calTick).assignSlots)
  let s6 := (s5.officeTick).storeTick
  let s7 := (s6.engTick .courier).fieldPart (fun t => t.engTick .brush)
  (((s7.stallTick).requestTick).figuresTick).aliveTick.irqTick

/-- One tick of the device: nothing without the tick clock (R37); 16 invalid sync headers among the last 64 stop
it. -/
def State.tickStep (s : State) : State :=
  if !s.tm.clk then s
  else if 16 ≤ popCount 64 s.tm.hdrBad.toNat then s.lockLost
  else s.tickBody

end Sys2Proof.Machine
end

