-- ==== Sys2Proof/Machine/Guards.lean ====
section
/-!
DEFINITION. When a command of a die can act at all: the host die's work needs the tick clock (R37), the field
die's its supply too (R34).
-/
namespace Sys2Proof.Machine

/-- Work of the tick domain: nothing happens while the tick clock stands (R37). -/
def State.onTick (s : State) (f : State → State) : State := if s.tm.clk then f s else s

/-- Work of the field die: it needs the tick clock and the field side's supply (R34, R37). -/
def State.onField (s : State) (f : State → State) : State := if s.tm.clk && s.pin.fieldPower then f s else s

/-- Work of a die. -/
def State.onDie (s : State) : Die → (State → State) → State
  | .host, f => s.onTick f
  | .field, f => s.onField f

/-- Work of an engine on its die (R23). -/
def State.onEngine (s : State) (e : Eng) (f : State → State) : State := s.onDie (engDie e) f

/-- Work at a register index: 0x1000 to 0x1FFF lie on the field die (R369). -/
def State.onIndex (s : State) (i : Nat) (f : State → State) : State :=
  s.onDie (if decide (0x1000 ≤ i) && decide (i < 0x2000) then .field else .host) f

/-- Work of a block on its die (R369). -/
def State.onBlock (s : State) (b : Blk) (f : State → State) : State := s.onIndex (blkBase b) f

/-- Work that needs no clock. -/
def State.always (s : State) (f : State → State) : State := f s

/-- A write that acts whole in this tick, at its boundary. -/
def wholeWrite : WPart := ⟨true, true⟩

/-- The scheduled transition leads to a deeper state and its host part is launched (R361, R364). -/
def State.goesDeeper (s : State) : Bool :=
  s.bit PWR_STATE_SCHEDULED && s.pwr.launched && decide (s.fld PWR_STATE_STATE < s.fld PWR_STATE_TARGET)

/-- The scheduled transition is a wake and its host part is launched (R360, R364). -/
def State.goesUp (s : State) : Bool :=
  s.bit PWR_STATE_SCHEDULED && s.pwr.launched && decide (s.fld PWR_STATE_TARGET < s.fld PWR_STATE_STATE)

end Sys2Proof.Machine
end

