-- ==== Sys2Proof/Machine/CmdBar.lean ====
section
/-!
DEFINITION. The meanings of the commands of the barrier (chapter 12): training, envelopes, lanes.
-/
namespace Sys2Proof.Machine

/-- BARRIER_TRAINING (R264). -/
def execBarrierTraining (s : State) : Host.Outcome State Fault Refusal :=
  .next (s.onTick (fun t => if t.bar.trainStart.isSome then t else t.trainBegin 1))

/-- TRAINING_END (R264). -/
def execTrainingEnd (f2h : BitVec 13) (h2f : BitVec 3) (s : State) : Host.Outcome State Fault Refusal :=
  .next (s.onTick (fun t => t.trainingEnds f2h.toNat h2f.toNat))

/-- BAR_RETRAIN (R266). -/
def execBarRetrain (s : State) : Host.Outcome State Fault Refusal :=
  .next (s.onTick (fun t => t.retrain))

/-- READINGS_ENVELOPE (R269). -/
def execReadingsEnvelope (x : Rx) (s : State) : Host.Outcome State Fault Refusal :=
  .next (s.accept true x (isType tREADINGS) (fun u e => u.takeReadings e))

/-- EVENT_ENVELOPE (R184). -/
def execEventEnvelope (x : Rx) (s : State) : Host.Outcome State Fault Refusal :=
  .next (s.accept true x (isType tEVENT) (fun u e => u.takeEvent e))

/-- HK_RESULT_ENVELOPE (R198). -/
def execHkResultEnvelope (x : Rx) (s : State) : Host.Outcome State Fault Refusal :=
  .next (s.accept true x (isType tHKRESULT) (fun u e => u.takeHk e))

/-- STATUS_ENVELOPE (R268). -/
def execStatusEnvelope (x : Rx) (s : State) : Host.Outcome State Fault Refusal :=
  .next (s.accept true x isBrushStatus (fun u e => u.takeStatus e))

/-- STATUS_LANE_FAIL (R277). -/
def execStatusLaneFail (x : Rx) (s : State) : Host.Outcome State Fault Refusal :=
  .next (s.accept true x (isCode tSTATUS 1) (fun u e => u.takeLaneFail e))

/-- STATUS_FLT_ACKED (R352). -/
def execStatusFltAcked (x : Rx) (s : State) : Host.Outcome State Fault Refusal :=
  .next (s.accept true x (isCode tSTATUS 2) (fun u e => u.takeAcked e))

/-- FAULT_NOTICE (R351). -/
def execFaultNotice (x : Rx) (s : State) : Host.Outcome State Fault Refusal :=
  .next (s.accept true x (isType tFAULT) (fun u e => u.takeNotice e))

/-- REPLY_ENVELOPE (R268). -/
def execReplyEnvelope (x : Rx) (s : State) : Host.Outcome State Fault Refusal :=
  .next (s.accept true x (isType tREPLY) (fun u e => u.takeReply e))

/-- BIST_REPORT (R330). -/
def execBistReport (x : Rx) (s : State) : Host.Outcome State Fault Refusal :=
  .next (s.accept true x (isType tBIST) (fun u e => u.takeBist e))

/-- HEARTBEAT (R265). -/
def execHeartbeat (x : Rx) (s : State) : Host.Outcome State Fault Refusal :=
  .next (s.accept true x (isType tHEART) (fun u e => u.heartbeatIn e))

/-- WRITE_ENVELOPE (R268). -/
def execWriteEnvelope (x : Rx) (s : State) : Host.Outcome State Fault Refusal :=
  .next (s.accept false x (isType tWRITE) (fun u e => u.takeWrite e))

/-- READ_ENVELOPE (R268). -/
def execReadEnvelope (x : Rx) (s : State) : Host.Outcome State Fault Refusal :=
  .next (s.accept false x (isType tREAD) (fun u e => u.takeRead e))

/-- COMMAND_ENVELOPE (R271). -/
def execCommandEnvelope (x : Rx) (s : State) : Host.Outcome State Fault Refusal :=
  .next (s.accept false x isShort (fun u e => u.takeFast e))

/-- COMMAND_LANE_SWAP (R277). -/
def execCommandLaneSwap (x : Rx) (s : State) : Host.Outcome State Fault Refusal :=
  .next (s.accept false x (isCode tCOMMAND 1) (fun u e => u.takeSwap e))

/-- COMMAND_EPOCH (R300). -/
def execCommandEpoch (x : Rx) (s : State) : Host.Outcome State Fault Refusal :=
  .next (s.accept false x (isCode tCOMMAND 2) (fun u e => u.takeEpoch e))

/-- COMMAND_SHED (R279). -/
def execCommandShed (x : Rx) (s : State) : Host.Outcome State Fault Refusal :=
  .next (s.accept false x (isCode tCOMMAND 3) (fun u e => u.takeShed e))

/-- TIME_ENVELOPE (R268). -/
def execTimeEnvelope (x : Rx) (s : State) : Host.Outcome State Fault Refusal :=
  .next (s.accept false x (isType tTIME) (fun u e => u.takeTime e))

/-- GAP_ENVELOPE (R271). -/
def execGapEnvelope (x : Rx) (s : State) : Host.Outcome State Fault Refusal :=
  .next (s.accept false x (isType tGAP) (fun u e => u.takeGap e))

/-- TRIGGER_ENVELOPE (R271). -/
def execTriggerEnvelope (x : Rx) (s : State) : Host.Outcome State Fault Refusal :=
  .next (s.accept false x (isType tTRIGGER) (fun u e => u.takeFast e))

/-- BARRIER_LANE_FAIL (R276). -/
def execBarrierLaneFail (toHost : Bool) (lane : Fin 13) (errors : BitVec 16)
    (s : State) : Host.Outcome State Fault Refusal :=
  .next (s.onField (fun t => t.laneFail toHost lane.val errors.toNat))

/-- LANE_SWAP_APPLY (R277). -/
def execLaneSwapApply (s : State) : Host.Outcome State Fault Refusal :=
  .next (s.onTick (fun t => t.laneSwapApply))

/-- LANE_SWAP_DEADLINE (R277). -/
def execLaneSwapDeadline (s : State) : Host.Outcome State Fault Refusal :=
  .next (s.onTick (fun t => t.swapLate))

/-- HEARTBEAT_MISSED (R278). -/
def execHeartbeatMissed (s : State) : Host.Outcome State Fault Refusal :=
  .next (s.onTick (fun t => t.raise .bar 5))

/-- RETIRED_TABLE_WRITE (R281). -/
def execRetiredTableWrite (word : Fin 11) (value : W24) (wr : Writer)
    (s : State) : Host.Outcome State Fault Refusal :=
  .next (s.onTick (fun t => t.retiredWrite word.val value wr.launched))

end Sys2Proof.Machine
end

