-- ==== Sys2Proof/Machine/CmdCal.lean ====
section
/-!
DEFINITION. The meanings of the commands of calibration, the slots and the flash (chapters 10 and 15).
-/
namespace Sys2Proof.Machine

/-- TRACE_CHECK (R212). -/
def execTraceCheck (s : State) : Host.Outcome State Fault Refusal :=
  .next (s.onField (fun t => t.traceStart))

/-- COLUMN_STEP (R218). -/
def execColumnStep (c : Fin 32) (s : State) : Host.Outcome State Fault Refusal :=
  .next (s.onField (fun t => t.stepBegin c.val))

/-- CAL_STEP_DONE (R220). -/
def execCalStepDone (s : State) : Host.Outcome State Fault Refusal :=
  .next (s.onField (fun t => t.calDone))

/-- CAL_STEP_CUT (R223). -/
def execCalStepCut (s : State) : Host.Outcome State Fault Refusal :=
  .next (s.onField (fun t => t.calCut))

/-- ROVER_CHECK (R225). -/
def execRoverCheck (s : State) : Host.Outcome State Fault Refusal :=
  .next (s.onField (fun t => t.checkBegin))

/-- CAL_RESULTS_APPLY (R222). -/
def execCalResultsApply (s : State) : Host.Outcome State Fault Refusal :=
  .next (s.onField (fun t => t.calApply t.tm.fpm))

/-- SLOT_STORE (R229). -/
def execSlotStore (s : State) : Host.Outcome State Fault Refusal :=
  .next (s.onTick (fun t => t.storeRequest))

/-- SLOT_DISCARD (R229). -/
def execSlotDiscard (s : State) : Host.Outcome State Fault Refusal :=
  .next (s.onTick (fun t => t.slotDiscard))

/-- FLASH_ERASE_4K (R317). -/
def execFlashErase4k (addr : W24) (s : State) : Host.Outcome State Fault Refusal :=
  .next (s.onTick (fun t => t.flashStart 1 addr.toNat))

/-- FLASH_ERASE_64K (R317). -/
def execFlashErase64k (addr : W24) (s : State) : Host.Outcome State Fault Refusal :=
  .next (s.onTick (fun t => t.flashStart 2 addr.toNat))

/-- FLASH_READ_JEDEC (R317). -/
def execFlashReadJedec (s : State) : Host.Outcome State Fault Refusal :=
  .next (s.onTick (fun t => t.flashStart 3 0))

/-- FLASH_DONE (R317). -/
def execFlashDone (ok : Bool) (jedec : W24) (s : State) : Host.Outcome State Fault Refusal :=
  .next (s.flashEnd ok jedec)

end Sys2Proof.Machine
end

