-- ==== Sys2Proof/Machine/CmdCol.lean ====
section
/-!
DEFINITION. The meanings of the commands of the columns and their rovers (chapter 05).
-/
namespace Sys2Proof.Machine

/-- COL_MAP_WRITE (R73). -/
def execColMapWrite (c : Fin 32) (word : W24) (w : Writer) (s : State) : Host.Outcome State Fault Refusal :=
  .next (s.onField (fun t => t.colWinWrite (0x100 + c.val) word w))

/-- COL_SPARE_SWAP (R116). -/
def execColSpareSwap (c : Fin 32) (w : Writer) (s : State) : Host.Outcome State Fault Refusal :=
  .next (s.onField (fun t => t.spareCtrl (BitVec.ofNat 32 (2 ^ 16 + c.val)) w wholeWrite))

/-- COL_SPARE_RESTORE (R116). -/
def execColSpareRestore (c : Fin 32) (w : Writer) (s : State) : Host.Outcome State Fault Refusal :=
  .next (s.onField (fun t => t.spareCtrl (BitVec.ofNat 32 (2 ^ 17 + c.val)) w wholeWrite))

/-- COL_SETTINGS_WRITE (R103). -/
def execColSettingsWrite (p : Fin 34) (word : W24) (w : Writer) (s : State) : Host.Outcome State Fault Refusal :=
  .next (s.onField (fun t => t.settingsWrite p.val word w.m w.launched))

/-- TRIM_SET_WRITE (R107). -/
def execTrimSetWrite (f : Fin 34) (g : Fin 8) (w : Fin 2) (word : W24) (wr : Writer)
    (s : State) : Host.Outcome State Fault Refusal :=
  .next (s.onField (fun t => t.trimWrite f.val g.val w.val word wr.launched))

/-- ROVER_DWELL_START (R117). -/
def execRoverDwellStart (g : Fin 2) (s : State) : Host.Outcome State Fault Refusal :=
  .next (s.onField (fun t => t.roverStart g.val))

/-- ROVER_DWELL_END (R119). -/
def execRoverDwellEnd (g : Fin 2) (s : State) : Host.Outcome State Fault Refusal :=
  .next (s.onField (fun t => t.roverEnd g.val))

/-- PERSISTENT_OVERRANGE (R113). -/
def execPersistentOverrange (c : Fin 32) (s : State) : Host.Outcome State Fault Refusal :=
  .next (s.onField (fun t => t.ovrPersists c.val))

end Sys2Proof.Machine
end

