-- ==== Sys2Proof/Machine/CmdData.lean ====
section
/-!
DEFINITION. The meanings of the commands of readings, varnish, the stream, events and the sorting office's slots (chapters 07, 08 and 13).
-/
namespace Sys2Proof.Machine

/-- COLUMN_READINGS_COMPLETE (R173). -/
def execColumnReadingsComplete (c : Fin 32) (s : State) : Host.Outcome State Fault Refusal :=
  .next (s.onField (fun t => t.columnComplete c.val))

/-- EVENT_RECORD_COMPLETE (R183). -/
def execEventRecordComplete (c : Fin 32) (s : State) : Host.Outcome State Fault Refusal :=
  .next (s.onField (fun t => t.recordsComplete c.val))

/-- VAR_CLAMP_COUNT_READ (R149). -/
def execVarClampCountRead (m : Master) (s : State) : Host.Outcome State Fault Refusal :=
  .next (s.onField (fun t => (t.readReg m VAR_CLAMP_COUNT).2))

/-- VAR_COPY (R159). -/
def execVarCopy (w : Writer) (s : State) : Host.Outcome State Fault Refusal :=
  .next (s.onField (fun t => t.varCopy w.m))

/-- VAR_COPY_DONE (R159). -/
def execVarCopyDone (s : State) : Host.Outcome State Fault Refusal :=
  .next (s.onField (fun t => if t.bit VAR_CTRL_COPY_BUSY then t.varCopyEnds else t))

/-- VAR_SWAP (R160). -/
def execVarSwap (w : Writer) (s : State) : Host.Outcome State Fault Refusal :=
  .next (s.onField (fun t => t.varSwap w.m w.launched))

/-- VAR_MEMORY_ERROR (R162). -/
def execVarMemoryError (addr : BitVec 16) (s : State) : Host.Outcome State Fault Refusal :=
  .next (s.onField (fun t => t.varWordError addr.toNat))

/-- HANDOVER_COPY (R155). -/
def execHandoverCopy (s_ : Fin 32) (result : W24) (stamp : PM) (status : BitVec 3)
    (s : State) : Host.Outcome State Fault Refusal :=
  .next (s.onField (fun t => t.handCopy s_.val ⟨result, stamp, status⟩))

/-- CADENCE_LATCH (R156). -/
def execCadenceLatch (s : State) : Host.Outcome State Fault Refusal :=
  .next (s.onField (fun t => t.cadenceLatch))

/-- SHEET_DEADLINE (R21). -/
def execSheetDeadline (s : State) : Host.Outcome State Fault Refusal :=
  .next (s.onTick (fun t => t.sheetDeadline))

/-- COVER_PARCEL (R292). -/
def execCoverParcel (s : State) : Host.Outcome State Fault Refusal :=
  .next (s.onTick (fun t => t.covers))

/-- SLOT_FILL (R294). -/
def execSlotFill (p : Fin 4) (s : State) : Host.Outcome State Fault Refusal :=
  .next (s.onTick (fun t => t.slotFill p.val))

/-- FRAGMENT_HEADER (R178). -/
def execFragmentHeader (s : State) : Host.Outcome State Fault Refusal :=
  .next (s.onTick (fun t => t.fragHeader))

/-- STR_DECIMATION_CHANGE (R171). -/
def execStrDecimationChange (mask : Bool) (value : Word) (w : Writer)
    (s : State) : Host.Outcome State Fault Refusal :=
  .next (s.onField (fun t => t.strChange mask value w.launched))

/-- PIGEONHOLE_MEMORY_ERROR (R175). -/
def execPigeonholeMemoryError (addr : BitVec 23) (s : State) : Host.Outcome State Fault Refusal :=
  .next (s.onField (fun t => t.evtWordError addr.toNat))

end Sys2Proof.Machine
end

