-- ==== Sys2Proof/Machine/CmdEng.lean ====
section
/-!
DEFINITION. The meanings of the commands of the engines Courier and Brush (chapter 11).
-/
namespace Sys2Proof.Machine

/-- ROUTINE_REQUEST (R240). -/
def execRoutineRequest (e : Eng) (routine : Fin 64) (arg : W24) (s : State) : Host.Outcome State Fault Refusal :=
  .next (s.onEngine e (fun t => t.request e routine.val arg))

/-- ROUTINE_DISPATCH (R241). -/
def execRoutineDispatch (e : Eng) (s : State) : Host.Outcome State Fault Refusal :=
  .next (s.onEngine e (fun t => t.dispatch e))

/-- ROUTINE_ABANDON (R252). -/
def execRoutineAbandon (e : Eng) (causes : BitVec 5) (s : State) : Host.Outcome State Fault Refusal :=
  .next (s.onEngine e (fun t => t.abandonNow e causes))

/-- ENGINE_WAIT_END (R243). -/
def execEngineWaitEnd (e : Eng) (s : State) : Host.Outcome State Fault Refusal :=
  .next (s.onEngine e (fun t => t.waitEndNow e))

/-- ENGINE_WAIT_TIMEOUT (R244). -/
def execEngineWaitTimeout (e : Eng) (s : State) : Host.Outcome State Fault Refusal :=
  .next (s.onEngine e (fun t => t.waitOutNow e))

/-- NOP (R237). -/
def execMwNop (e : Eng) (svc : Bool) (m : Micro) (s : State) : Host.Outcome State Fault Refusal :=
  .next (s.onEngine e (fun t => t.micro e svc .nop m))

/-- MOV (R237). -/
def execMwMov (e : Eng) (svc : Bool) (m : Micro) (s : State) : Host.Outcome State Fault Refusal :=
  .next (s.onEngine e (fun t => t.micro e svc .mov m))

/-- ADD (R237). -/
def execMwAdd (e : Eng) (svc : Bool) (m : Micro) (s : State) : Host.Outcome State Fault Refusal :=
  .next (s.onEngine e (fun t => t.micro e svc .add m))

/-- SUB (R237). -/
def execMwSub (e : Eng) (svc : Bool) (m : Micro) (s : State) : Host.Outcome State Fault Refusal :=
  .next (s.onEngine e (fun t => t.micro e svc .sub m))

/-- AND (R237). -/
def execMwAnd (e : Eng) (svc : Bool) (m : Micro) (s : State) : Host.Outcome State Fault Refusal :=
  .next (s.onEngine e (fun t => t.micro e svc .and m))

/-- OR (R237). -/
def execMwOr (e : Eng) (svc : Bool) (m : Micro) (s : State) : Host.Outcome State Fault Refusal :=
  .next (s.onEngine e (fun t => t.micro e svc .or m))

/-- XOR (R237). -/
def execMwXor (e : Eng) (svc : Bool) (m : Micro) (s : State) : Host.Outcome State Fault Refusal :=
  .next (s.onEngine e (fun t => t.micro e svc .xor m))

/-- SHL (R237). -/
def execMwShl (e : Eng) (svc : Bool) (m : Micro) (s : State) : Host.Outcome State Fault Refusal :=
  .next (s.onEngine e (fun t => t.micro e svc .shl m))

/-- SHR (R237). -/
def execMwShr (e : Eng) (svc : Bool) (m : Micro) (s : State) : Host.Outcome State Fault Refusal :=
  .next (s.onEngine e (fun t => t.micro e svc .shr m))

/-- ASR (R237). -/
def execMwAsr (e : Eng) (svc : Bool) (m : Micro) (s : State) : Host.Outcome State Fault Refusal :=
  .next (s.onEngine e (fun t => t.micro e svc .asr m))

/-- MULL (R237). -/
def execMwMull (e : Eng) (svc : Bool) (m : Micro) (s : State) : Host.Outcome State Fault Refusal :=
  .next (s.onEngine e (fun t => t.micro e svc .mull m))

/-- MULH (R237). -/
def execMwMulh (e : Eng) (svc : Bool) (m : Micro) (s : State) : Host.Outcome State Fault Refusal :=
  .next (s.onEngine e (fun t => t.micro e svc .mulh m))

/-- CMP (R237). -/
def execMwCmp (e : Eng) (svc : Bool) (m : Micro) (s : State) : Host.Outcome State Fault Refusal :=
  .next (s.onEngine e (fun t => t.micro e svc .cmp m))

/-- TEST (R237). -/
def execMwTest (e : Eng) (svc : Bool) (m : Micro) (s : State) : Host.Outcome State Fault Refusal :=
  .next (s.onEngine e (fun t => t.micro e svc .test m))

/-- LD (R237). -/
def execMwLd (e : Eng) (svc : Bool) (m : Micro) (s : State) : Host.Outcome State Fault Refusal :=
  .next (s.onEngine e (fun t => t.micro e svc .ld m))

/-- ST (R234). -/
def execMwSt (e : Eng) (svc : Bool) (m : Micro) (s : State) : Host.Outcome State Fault Refusal :=
  .next (s.onEngine e (fun t => t.micro e svc .st m))

/-- RDREG (R238). -/
def execMwRdreg (e : Eng) (svc : Bool) (m : Micro) (s : State) : Host.Outcome State Fault Refusal :=
  .next (s.onEngine e (fun t => t.micro e svc .rdreg m))

/-- WRREG (R245). -/
def execMwWrreg (e : Eng) (svc : Bool) (m : Micro) (s : State) : Host.Outcome State Fault Refusal :=
  .next (s.onEngine e (fun t => t.micro e svc .wrreg m))

/-- EXCURSION (R246). -/
def execExcursion (e : Eng) (svc : Bool) (m : Micro) (s : State) : Host.Outcome State Fault Refusal :=
  .next (s.onEngine e (fun t => t.micro e svc .wrreg { m with stencil := true }))

/-- COMMIT (R247). -/
def execCommit (e : Eng) (s : State) : Host.Outcome State Fault Refusal :=
  .next (s.onEngine e (fun t => t.commitNow e))

/-- SETTIMER (R237). -/
def execMwSettimer (e : Eng) (svc : Bool) (m : Micro) (s : State) : Host.Outcome State Fault Refusal :=
  .next (s.onEngine e (fun t => t.micro e svc .settimer m))

/-- REQ (R240). -/
def execMwReq (e : Eng) (svc : Bool) (m : Micro) (s : State) : Host.Outcome State Fault Refusal :=
  .next (s.onEngine e (fun t => t.micro e svc .req m))

/-- CALL (R237). -/
def execMwCall (e : Eng) (svc : Bool) (m : Micro) (s : State) : Host.Outcome State Fault Refusal :=
  .next (s.onEngine e (fun t => t.micro e svc .call m))

/-- RET (R237). -/
def execMwRet (e : Eng) (svc : Bool) (m : Micro) (s : State) : Host.Outcome State Fault Refusal :=
  .next (s.onEngine e (fun t => t.micro e svc .ret m))

/-- END (R249). -/
def execMwEnd (e : Eng) (svc : Bool) (m : Micro) (s : State) : Host.Outcome State Fault Refusal :=
  .next (s.onEngine e (fun t => t.micro e svc .end_ m))

/-- ENGINE_HALT (R257). -/
def execEngineHalt (e : Eng) (s : State) : Host.Outcome State Fault Refusal :=
  .next (s.onEngine e (fun t => t.engCtrl e 0))

/-- ENGINE_RUN (R257). -/
def execEngineRun (e : Eng) (s : State) : Host.Outcome State Fault Refusal :=
  .next (s.onEngine e (fun t => t.engCtrl e 1))

/-- ENGINE_STEP (R257). -/
def execEngineStep (e : Eng) (s : State) : Host.Outcome State Fault Refusal :=
  .next (s.onEngine e (fun t => t.stepNow e))

/-- ENGINE_RESUME (R257). -/
def execEngineResume (e : Eng) (s : State) : Host.Outcome State Fault Refusal :=
  .next (s.onEngine e (fun t => t.resumeNow e))

/-- BREAKPOINT_HIT (R257). -/
def execBreakpointHit (e : Eng) (s : State) : Host.Outcome State Fault Refusal :=
  .next (s.onEngine e (fun t => if t.atBreak e then t.breakHit e else t))

end Sys2Proof.Machine
end

