-- ==== Sys2Proof/Machine/CmdExc.lean ====
section
/-!
DEFINITION. The meanings of the commands of excitation (chapters 03 and 04).
-/
namespace Sys2Proof.Machine

/-- PAL_BANK_LAUNCH (R84). -/
def execPalBankLaunch (m : Master) (hi : Word) (s : State) : Host.Outcome State Fault Refusal :=
  .next (s.onField (fun t => t.palSubmit m hi))

/-- PAL_COPY (R83). -/
def execPalCopy (s : State) : Host.Outcome State Fault Refusal :=
  .next (s.onField (fun t => t.palCopy))

/-- PAL_COPY_DONE (R83). -/
def execPalCopyDone (s : State) : Host.Outcome State Fault Refusal :=
  .next (s.onField (fun t => if t.bit PAL_STATUS_COPY_BUSY then t.palCopyEnd else t))

/-- SWAP_CANCEL (R85). -/
def execSwapCancel (s : State) : Host.Outcome State Fault Refusal :=
  .next (s.onField (fun t => t.swapCancel))

/-- SLEW_STROKE (R88). -/
def execSlewStroke (s : State) : Host.Outcome State Fault Refusal :=
  .next (s.onField (fun t => if t.pal.clamps then t else t.slew (isSheet t.tm.fpm)))

/-- ROW_OVERLOAD (R98). -/
def execRowOverload (d : Fin 68) (s : State) : Host.Outcome State Fault Refusal :=
  .next (s.onField (fun t => if (t.drv d.val).ovl then t else (t.overload d.val).strokesHold d.val))

/-- OVL_LATCH_CLEAR (R98). -/
def execOvlLatchClear (d : Fin 68) (w : Writer) (s : State) : Host.Outcome State Fault Refusal :=
  .next (s.onField (fun t => t.clearOvl d.val w.launched))

/-- ROW_SPARE_PREP (R99). -/
def execRowSparePrep (value : Word) (w : Writer) (s : State) : Host.Outcome State Fault Refusal :=
  .next (s.onField (fun t => t.palWrite ROW_SPARE_CTRL value w wholeWrite))

/-- ROW_MAP_WRITE (R73). -/
def execRowMapWrite (r : Fin 64) (word : W24) (w : Writer) (s : State) : Host.Outcome State Fault Refusal :=
  .next (s.onField (fun t => t.palWinWrite (0x200 + r.val) word w))

end Sys2Proof.Machine
end

