-- ==== Sys2Proof/Machine/CmdFlt.lean ====
section
/-!
DEFINITION. The meanings of the commands of faults (chapter 16).
-/
namespace Sys2Proof.Machine

/-- FLT_ACK_SOURCES (R344). -/
def execFltAckSources (b : Blk) (sources : BitVec 16) (s : State) : Host.Outcome State Fault Refusal :=
  .next (s.onBlock b (fun t => t.ackMask b sources.toNat))

/-- FLT_ACK_FIRST (R344). -/
def execFltAckFirst (b : Blk) (s : State) : Host.Outcome State Fault Refusal :=
  .next (s.onBlock b (fun t => t.ackFirst b))

/-- QUIET_RECOVERY (R345). -/
def execQuietRecovery (b : Blk) (source : Fin 16) (s : State) : Host.Outcome State Fault Refusal :=
  .next (s.onBlock b (fun t =>
    let x := t.src b source.val
    if x.pol.qexp = 0 || x.holds then t else t.recover b source.val))

/-- FLT_POLICY_WRITE (R357). -/
def execFltPolicyWrite (b : Blk) (value : Word) (s : State) : Host.Outcome State Fault Refusal :=
  .next (s.onBlock b (fun t => t.policyWrite b value))

/-- FLT_INJECT_GO (R354). -/
def execFltInjectGo (b : Blk) (value : Word) (w : Writer) (s : State) : Host.Outcome State Fault Refusal :=
  .next (s.onBlock b (fun t => (t.injectGo b value).param w.launched true))

/-- FLT_INJECT_STOP (R354). -/
def execFltInjectStop (b : Blk) (w : Writer) (s : State) : Host.Outcome State Fault Refusal :=
  .next (s.onBlock b (fun t => (t.injectStop b).param w.launched true))

/-- SCRUB_WORD (R340). -/
def execScrubWord (b : Blk) (addr : W24) (single : Bool) (s : State) : Host.Outcome State Fault Refusal :=
  .next (s.onBlock b (fun t => if checkedWord b addr.toNat then t.tableError b addr.toNat single else t))

/-- ALIVE_TOGGLE (R353). -/
def execAliveToggle (s : State) : Host.Outcome State Fault Refusal :=
  .next (s.onTick (fun t => t.aliveTick))

end Sys2Proof.Machine
end

