-- ==== Sys2Proof/Machine/CmdGlb.lean ====
section
/-!
DEFINITION. The meanings of the commands of start-up, loading and SAFE (chapter 15).
-/
namespace Sys2Proof.Machine

/-- CHECK_PASS (R324). -/
def execCheckPass (s : State) : Host.Outcome State Fault Refusal :=
  .next (s.onTick (fun t => t.checkPass))

/-- HOST_SELF_TEST (R329). -/
def execHostSelfTest (findings : List Finding) (s : State) : Host.Outcome State Fault Refusal :=
  .next (s.onTick (fun t => t.hostTest findings))

/-- FIELD_SELF_TEST (R330). -/
def execFieldSelfTest (findings : List Finding) (s : State) : Host.Outcome State Fault Refusal :=
  .next (s.onField (fun t => t.fieldTest findings))

/-- FIELD_LOAD (R324). -/
def execFieldLoad (refused : Bool) (s : State) : Host.Outcome State Fault Refusal :=
  .next (s.onTick (fun t => t.fieldLoads refused))

/-- FIELD_LOAD_END (R93). -/
def execFieldLoadEnd (s : State) : Host.Outcome State Fault Refusal :=
  .next (s.onField (fun t => t.fieldLoadEnds))

/-- PRIMER_CHECK (R326). -/
def execPrimerCheck (s : State) : Host.Outcome State Fault Refusal :=
  .next (s.onField (fun t => t.primerChecks))

/-- READY_ENTRY (R327). -/
def execReadyEntry (s : State) : Host.Outcome State Fault Refusal :=
  .next (s.onTick (fun t => t.readyEnters))

/-- AUTO_RUN (R328). -/
def execAutoRun (s : State) : Host.Outcome State Fault Refusal :=
  .next (s.onTick (fun t => t.autoRuns.loopStartDue))

/-- GLB_RETEST (R334). -/
def execGlbRetest (s : State) : Host.Outcome State Fault Refusal :=
  .next (s.onTick (fun t => t.glbCommand 1))

/-- GLB_START_DEGRADED (R335). -/
def execGlbStartDegraded (s : State) : Host.Outcome State Fault Refusal :=
  .next (s.onTick (fun t => t.glbCommand 2))

/-- GLB_ENTER_SAFE (R331). -/
def execGlbEnterSafe (s : State) : Host.Outcome State Fault Refusal :=
  .next (s.onTick (fun t => t.glbCommand 3))

/-- GLB_COMMAND_BAD_KEY (R333). -/
def execGlbCommandBadKey (value : Word) (s : State) : Host.Outcome State Fault Refusal :=
  .next (s.onTick (fun t => if value.toNat / 2 ^ 24 = 0xC5 then t else t.badKey))

end Sys2Proof.Machine
end

