-- ==== Sys2Proof/Machine/CmdHk.lean ====
section
/-!
DEFINITION. The meanings of the commands of housekeeping (chapter 09).
-/
namespace Sys2Proof.Machine

/-- HK_PASS_START (R193). -/
def execHkPassStart (x : Hk) (s : State) : Host.Outcome State Fault Refusal :=
  .next (s.onField (fun t => t.passBegin x))

/-- HK_CONVERSION_DONE (R187). -/
def execHkConversionDone (x : Hk) (raw : W24) (overload : Bool) (s : State) : Host.Outcome State Fault Refusal :=
  .next (s.onField (fun t => t.convDone x raw overload))

/-- HK_DATA_READ (R197). -/
def execHkDataRead (x : Hk) (s : State) : Host.Outcome State Fault Refusal :=
  .next (s.onField (fun t => (t.hkRead x).2))

/-- HK_RUN_CHANGE (R193). -/
def execHkRunChange (x : Hk) (run : Bool) (w : Writer) (s : State) : Host.Outcome State Fault Refusal :=
  .next (s.onField (fun t => t.hkRun x (run && !t.flt.iso.contains (0xD0 + hkNum x)) w.launched))

/-- HK_RESTART (R194). -/
def execHkRestart (x : Hk) (w : Writer) (s : State) : Host.Outcome State Fault Refusal :=
  .next (s.onField (fun t => t.hkRestart x w.launched))

/-- HK_URGENT (R199). -/
def execHkUrgent (x : Hk) (entry : Fin 16) (w : Writer) (s : State) : Host.Outcome State Fault Refusal :=
  .next (s.onField (fun t => t.urgentReq x entry.val w.launched))

/-- HK_CAL_START (R206). -/
def execHkCalStart (x : Hk) (gains : BitVec 8) (tol : BitVec 16) (w : Writer)
    (s : State) : Host.Outcome State Fault Refusal :=
  .next (s.onField (fun t => (t.calStart x gains.toNat tol.toNat).param w.launched true))

/-- HK_CAL_CANCEL (R208). -/
def execHkCalCancel (x : Hk) (s : State) : Host.Outcome State Fault Refusal :=
  .next (s.onField (fun t => t.calInterrupt x 6))

/-- HK_CAL_GAIN_DONE (R207). -/
def execHkCalGainDone (x : Hk) (s : State) : Host.Outcome State Fault Refusal :=
  .next (s.onField (fun t => t.calGainDone x))

/-- REFBUF_READY (R203). -/
def execRefbufReady (s : State) : Host.Outcome State Fault Refusal :=
  .next (s.onField (fun t => t.refReady))

/-- HK_EXC_OVERLOAD (R205). -/
def execHkExcOverload (s : State) : Host.Outcome State Fault Refusal :=
  .next (s.onField (fun t => if t.bit HKS_EXC_CTRL_EN && !t.bit HKS_EXC_STATUS_OVERLOAD then t.excOverload else t))

/-- HK_EXC_OVERLOAD_CLEAR (R205). -/
def execHkExcOverloadClear (s : State) : Host.Outcome State Fault Refusal :=
  .next (s.onField (fun t => t.excClear))

/-- HK_REDUNDANT_SEL (R202). -/
def execHkRedundantSel (value : Word) (w : Writer) (s : State) : Host.Outcome State Fault Refusal :=
  .next (s.onField (fun t => t.redundantSel value w.launched))

end Sys2Proof.Machine
end

