-- ==== Sys2Proof/Machine/CmdLnk.lean ====
section
/-!
DEFINITION. The meanings of the commands of the link ports (chapter 13).
-/
namespace Sys2Proof.Machine

/-- LNK_SCHED_LAUNCH (R295). -/
def execLnkSchedLaunch (m : Master) (hi : Word) (s : State) : Host.Outcome State Fault Refusal :=
  .next (s.onTick (fun t => t.schedSubmit m hi))

/-- PORT_LANE_FAIL (R298). -/
def execPortLaneFail (p : Fin 4) (lock : Bool) (s : State) : Host.Outcome State Fault Refusal :=
  .next (s.onTick (fun t => t.portEvent p.val lock))

/-- FORCE_FAIL (R298). -/
def execForceFail (p : Fin 4) (s : State) : Host.Outcome State Fault Refusal :=
  .next (s.onTick (fun t => t.portFail p.val))

/-- PORT_RETIRE (R299). -/
def execPortRetire (p : Fin 4) (s : State) : Host.Outcome State Fault Refusal :=
  .next (s.onTick (fun t => t.portRetires p.val))

/-- READMIT (R301). -/
def execReadmit (p : Fin 4) (w : Writer) (s : State) : Host.Outcome State Fault Refusal :=
  .next (s.onTick (fun t => t.portReadmit p.val w.launched))

/-- LNK_EPOCH_SET (R300). -/
def execLnkEpochSet (epoch : BitVec 2) (w : Writer) (s : State) : Host.Outcome State Fault Refusal :=
  .next (s.onTick (fun t => t.epochSet epoch w.launched))

/-- PEER_COVER (R297). -/
def execPeerCover (p : Fin 4) (header : Bool) (cover : Parcel) (rest : List Parcel)
    (s : State) : Host.Outcome State Fault Refusal :=
  .next (s.onTick (fun t => t.peerCover p.val header cover rest))

/-- EYE_UPDATE (R303). -/
def execEyeUpdate (receiver : Fin 5) (width : BitVec 8) (height : BitVec 12)
    (s : State) : Host.Outcome State Fault Refusal :=
  .next (s.onTick (fun t => t.eye receiver.val width.toNat height.toNat))

/-- PEER_SHEET_LOCK (R290). -/
def execPeerSheetLock (p : Fin 4) (s : State) : Host.Outcome State Fault Refusal :=
  .next (s.onTick (fun t => t.peerLock p.val))

end Sys2Proof.Machine
end

