-- ==== Sys2Proof/Machine/CmdMgt.lean ====
section
/-!
DEFINITION. The meanings of the commands of the management port (chapter 14).
-/
namespace Sys2Proof.Machine

/-- RD_LO (R309). -/
def execRdLo (index : BitVec 16) (s : State) : Host.Outcome State Fault Refusal :=
  .next (s.mgtRdLo index.toNat)

/-- RD_HI (R309). -/
def execRdHi (index : BitVec 16) (s : State) : Host.Outcome State Fault Refusal :=
  .next (s.mgtRdHi index.toNat)

/-- RD (R307). -/
def execRd (index : BitVec 16) (s : State) : Host.Outcome State Fault Refusal :=
  .next (s.mgtRd index.toNat 1)

/-- RDN (R311). -/
def execRdn (index : BitVec 16) (pairs : Nat) (s : State) : Host.Outcome State Fault Refusal :=
  .next (s.mgtRd index.toNat pairs)

/-- WR_LO (R310). -/
def execWrLo (index : BitVec 16) (half : BitVec 16) (s : State) : Host.Outcome State Fault Refusal :=
  .next (s.mgtWrLo index.toNat half)

/-- WR_HI (R310). -/
def execWrHi (index : BitVec 16) (half : BitVec 16) (s : State) : Host.Outcome State Fault Refusal :=
  .next (s.mgtWrHi index.toNat half)

/-- WR (R307). -/
def execWr (index : BitVec 16) (value : Word) (s : State) : Host.Outcome State Fault Refusal :=
  .next (s.mgtWrAll index.toNat [value])

/-- WRN (R307). -/
def execWrn (index : BitVec 16) (values : List Word) (s : State) : Host.Outcome State Fault Refusal :=
  .next (s.mgtWrAll index.toNat values)

/-- MGT_BAD_COMMAND (R307). -/
def execMgtBadCommand (code : BitVec 8) (s : State) : Host.Outcome State Fault Refusal :=
  .next (s.mgtBad code.toNat)

/-- MGT_FRAME_ABORT (R308). -/
def execMgtFrameAbort (s : State) : Host.Outcome State Fault Refusal :=
  .next (s.mgtBreak)

/-- MGT_WRITE_BUFFER_DRAIN (R311). -/
def execMgtWriteBufferDrain (s : State) : Host.Outcome State Fault Refusal :=
  .next (s.mgtDrain)

/-- MGT_REPLY_TIMEOUT (R312). -/
def execMgtReplyTimeout (s : State) : Host.Outcome State Fault Refusal :=
  .next (s.onTick (fun t => t.mgtTimeout))

/-- MGT_CLOCK_ABSENT (R313). -/
def execMgtClockAbsent (s : State) : Host.Outcome State Fault Refusal :=
  .next (s.mgtAbsent)

end Sys2Proof.Machine
end

