-- ==== Sys2Proof/Machine/CmdNul.lean ====
section
/-!
DEFINITION. The meanings of the commands of nulling (chapter 06).
-/
namespace Sys2Proof.Machine

/-- LOOP_STROKE_UPDATE (R128). -/
def execLoopStrokeUpdate (f : Fin 34) (y : Vector Sample 64) (comparator : BitVec 64)
    (s : State) : Host.Outcome State Fault Refusal :=
  .next (s.onField (fun t =>
    let ys := y.toList.map (fun (x : Sample) => x.toInt)
    (t.strokeUpdate f.val ys comparator).calSample f.val ys))

/-- PERSISTENT_SAT (R131). -/
def execPersistentSat (c : Fin 32) (_r : Fin 64) (s : State) : Host.Outcome State Fault Refusal :=
  .next (s.onField (fun t => t.satPersists c.val))

/-- LOOP_START (R137). -/
def execLoopStart (s : State) : Host.Outcome State Fault Refusal :=
  .next (s.onField (fun t => t.loopStart))

/-- NUL_REPRIME (R136). -/
def execNulReprime (w : Writer) (s : State) : Host.Outcome State Fault Refusal :=
  .next (s.onField (fun t => (t.nulWrite NUL_PRIMER_CTRL (BitVec.ofNat 32 1) w wholeWrite).loopStart))

/-- NUL_CAPTURE (R139). -/
def execNulCapture (w : Writer) (s : State) : Host.Outcome State Fault Refusal :=
  .next (s.onField (fun t => t.captureReq w.m w.launched))

/-- CAPTURE_DONE (R139). -/
def execCaptureDone (s : State) : Host.Outcome State Fault Refusal :=
  .next (s.onField (fun t => t.captureEnd))

/-- NUL_LOOP_GAIN_WRITE (R134). -/
def execNulLoopGainWrite (p : BitVec 6) (g : BitVec 4) (w : Writer)
    (s : State) : Host.Outcome State Fault Refusal :=
  .next (s.onField (fun t => t.gainReg (BitVec.ofNat 32 (2 ^ 31 + p.toNat * 2 ^ 24 + g.toNat)) w wholeWrite))

/-- NULLING_RANGE_CHANGE (R141). -/
def execNullingRangeChange (p : BitVec 6) (n : BitVec 2) (w : Writer)
    (s : State) : Host.Outcome State Fault Refusal :=
  .next (s.onField (fun t => t.rangeReg (BitVec.ofNat 32 (2 ^ 31 + p.toNat * 2 ^ 24 + n.toNat)) w wholeWrite))

/-- NUL_MEMORY_ERROR (R143). -/
def execNulMemoryError (addr : BitVec 20) (s : State) : Host.Outcome State Fault Refusal :=
  .next (s.onField (fun t => t.nulWordError addr.toNat))

end Sys2Proof.Machine
end

