-- ==== Sys2Proof/Machine/CmdPwr.lean ====
section
/-!
DEFINITION. The meanings of the commands of power, supplies and temperature (chapters 17 and 18).
-/
namespace Sys2Proof.Machine

/-- POWER_DECISION (R362). -/
def execPowerDecision (s : State) : Host.Outcome State Fault Refusal :=
  .next (s.onTick (fun t => t.powerDecide))

/-- POWER_TRANSITION_LAUNCH (R364). -/
def execPowerTransitionLaunch (status : BitVec 3) (s : State) : Host.Outcome State Fault Refusal :=
  .next (s.onTick (fun t => t.powerAnswer status.toNat))

/-- POWER_ENTRY (R361). -/
def execPowerEntry (s : State) : Host.Outcome State Fault Refusal :=
  .next (s.onTick (fun t => if t.goesDeeper then t.powerEnter else t))

/-- POWER_WAKE (R360). -/
def execPowerWake (s : State) : Host.Outcome State Fault Refusal :=
  .next (s.onTick (fun t => if t.goesUp then t.powerWakes else t))

/-- POWER_TRANSITION_COMPLETE (R365). -/
def execPowerTransitionComplete (s : State) : Host.Outcome State Fault Refusal :=
  .next (s.onTick (fun t => t.pwrEnd))

/-- SUPPLY_EXCURSION (R376). -/
def execSupplyExcursion (d : Die) (rail : Fin 4) (level : RailLevel)
    (s : State) : Host.Outcome State Fault Refusal :=
  .next (s.always (fun t => if d == .field && !t.pin.fieldPower then t else t.supplyMoves d rail.val level))

/-- DIE_TEMPERATURE_UPDATE (R392). -/
def execDieTemperatureUpdate (t_ : BitVec 16) (s : State) : Host.Outcome State Fault Refusal :=
  .next (s.onField (fun t => t.dieTemp t_.toNat))

/-- COURIER_STALL (R355). -/
def execCourierStall (s : State) : Host.Outcome State Fault Refusal :=
  .next (s.onTick (fun t => t.stalls))

end Sys2Proof.Machine
end

