-- ==== Sys2Proof/Machine/CmdReg.lean ====
section
/-!
DEFINITION. The meanings of the commands of register access (chapters 02, 13, 18): slow control, launch queues, held writes, window access.
-/
namespace Sys2Proof.Machine

/-- SLOWCTL_READ (R288). -/
def execSlowctlRead (f : ScFrame) (s : State) : Host.Outcome State Fault Refusal :=
  .next (s.onTick (fun t => if reqFld f 159 156 = 2 ∨ reqFld f 159 156 = 3 then t else t.scServe f))

/-- SLOWCTL_WRITE (R288). -/
def execSlowctlWrite (f : ScFrame) (s : State) : Host.Outcome State Fault Refusal :=
  .next (s.onTick (fun t => if reqFld f 159 156 = 2 then t.scServe f else t))

/-- SLOWCTL_LAUNCHED_WRITE (R288). -/
def execSlowctlLaunchedWrite (f : ScFrame) (s : State) : Host.Outcome State Fault Refusal :=
  .next (s.onTick (fun t => if reqFld f 159 156 = 3 then t.scServe f else t))

/-- SLOWCTL_REPLY_TIMEOUT (R288). -/
def execSlowctlReplyTimeout (tag : BitVec 4) (s : State) : Host.Outcome State Fault Refusal :=
  .next (s.onTick (fun t =>
    match t.lnk.scWait.find? (fun w => w.tag == tag.toNat) with
    | some w => t.scLate w
    | none => t))

/-- LAUNCH_ENTRY_APPLY (R50). -/
def execLaunchEntryApply (d : Die) (s : State) : Host.Outcome State Fault Refusal :=
  .next (s.onDie d (fun t => t.launchOne d))

/-- HELD_WRITE_APPLY (R48). -/
def execHeldWriteApply (d : Die) (s : State) : Host.Outcome State Fault Refusal :=
  .next (s.onDie d (fun t => t.heldOne d))

/-- REGISTER_WRITE (R48). -/
def execRegisterWrite (m : Master) (index : BitVec 16) (value : Word)
    (s : State) : Host.Outcome State Fault Refusal :=
  .next (s.onIndex (index.toNat) (fun t => t.writeReg m index.toNat value))

/-- WIN_DATA_ACCESS (R372). -/
def execWinDataAccess (m : Master) (b : Blk) (write : Option Word) (s : State) : Host.Outcome State Fault Refusal :=
  .next (s.onBlock b (fun t =>
    match write with
    | some v => t.writeReg m (blkBase b + 0xE1) v
    | none => (t.readReg m (blkBase b + 0xE1)).2))

/-- TIM_LAUNCH_ARM (R52). -/
def execTimLaunchArm (burst : Bool) (s : State) : Host.Outcome State Fault Refusal :=
  .next (s.onTick (fun t => t.launchAction (BitVec.ofNat 32 (if burst then 3 else 1))))

/-- TIM_LAUNCH_FLUSH (R50). -/
def execTimLaunchFlush (s : State) : Host.Outcome State Fault Refusal :=
  .next (s.onTick (fun t => t.flushArmed))

end Sys2Proof.Machine
end

