-- ==== Sys2Proof/Machine/CmdTime.lean ====
section
/-!
DEFINITION. The meanings of the commands of the time base (chapter 02) and the drape (chapter 01): power and reset, the tick clock, downlink blocks, fast commands, quiet windows.
-/
namespace Sys2Proof.Machine

/-- POWER_UP (R373). -/
def execPowerUp (s : State) : Host.Outcome State Fault Refusal :=
  .next (s.coldStart)

/-- RESET_N (R373). -/
def execResetN (s : State) : Host.Outcome State Fault Refusal :=
  .next (s.coldStart)

/-- FIELD_SIDE_POWER (R34). -/
def execFieldSidePower (on : Bool) (s : State) : Host.Outcome State Fault Refusal :=
  .next (s.fieldSupply on)

/-- DOWNLINK_TRANSITIONS_SEEN (R325). -/
def execDownlinkTransitionsSeen (s : State) : Host.Outcome State Fault Refusal :=
  .next (s.seesLink)

/-- TICK_CLOCK_RELEASE (R36). -/
def execTickClockRelease (period : BitVec 16) (s : State) : Host.Outcome State Fault Refusal :=
  .next (s.clockRelease period.toNat)

/-- LOSS_OF_LOCK (R37). -/
def execLossOfLock (s : State) : Host.Outcome State Fault Refusal :=
  .next (s.lockLost)

/-- CLOCK_RESTART (R39). -/
def execClockRestart (period : BitVec 16) (s : State) : Host.Outcome State Fault Refusal :=
  .next (s.clockBack period.toNat)

/-- DOWNLINK_BLOCK (R284). -/
def execDownlinkBlock (header : BitVec 2) (line : BitVec 64) (s : State) : Host.Outcome State Fault Refusal :=
  .next (s.downBlock header line)

/-- IDLE (R285). -/
def execIdle (s : State) : Host.Outcome State Fault Refusal :=
  .next (s.onTick (fun t => t.fastReceive 0))

/-- POSTMARK_SET (R41). -/
def execPostmarkSet (v : PM) (secondOk : Bool) (reserved : BitVec 32)
    (s : State) : Host.Outcome State Fault Refusal :=
  .next (s.onTick (fun t => t.pmDecide (t.tm.tick - 1) (BitVec.ofNat 12 (t.fld TIM_FIXED_LATENCY_LATENCY)) v
    (secondOk && reserved == 0)))

/-- POSTMARK_RENAME (R42). -/
def execPostmarkRename (s : State) : Host.Outcome State Fault Refusal :=
  .next (s.onTick (fun t => t.renameDue))

/-- SHEET_MARK (R46). -/
def execSheetMark (s : State) : Host.Outcome State Fault Refusal :=
  .next (s.onTick (fun t => t.markCmd))

/-- GAP_OPEN (R54). -/
def execGapOpen (s : State) : Host.Outcome State Fault Refusal :=
  .next (s.onTick (fun t => t.gapOpenCmd))

/-- GAP_CLOSE (R54). -/
def execGapClose (s : State) : Host.Outcome State Fault Refusal :=
  .next (s.onTick (fun t => t.gapCloseCmd))

/-- QUIET_WINDOW_OPEN (R54). -/
def execQuietWindowOpen (s : State) : Host.Outcome State Fault Refusal :=
  .next (s.onTick (fun t => t.windowOpens))

/-- QUIET_WINDOW_CLOSE (R54). -/
def execQuietWindowClose (s : State) : Host.Outcome State Fault Refusal :=
  .next (s.onTick (fun t => t.windowCloses))

/-- GAP_LIMIT_CLOSE (R55). -/
def execGapLimitClose (s : State) : Host.Outcome State Fault Refusal :=
  .next (s.onTick (fun t => t.gapForced))

/-- TRIG (R177). -/
def execTrig (s : State) : Host.Outcome State Fault Refusal :=
  .next (s.onTick (fun t => t.trigCmd))

/-- CAL_FIRE (R285). -/
def execCalFire (s : State) : Host.Outcome State Fault Refusal :=
  .next (s.onTick (fun t => t.calFireCmd))

/-- RUN (R328). -/
def execRun (s : State) : Host.Outcome State Fault Refusal :=
  .next (s.onTick (fun t => t.runFast.loopStartDue))

/-- HALT (R285). -/
def execHalt (s : State) : Host.Outcome State Fault Refusal :=
  .next (s.onTick (fun t => t.haltFast))

/-- EPOCH_ADVANCE (R300). -/
def execEpochAdvance (s : State) : Host.Outcome State Fault Refusal :=
  .next (s.onTick (fun t => t.epochCmd))

/-- DRAPE (R28). -/
def execDrape (s : State) : Host.Outcome State Fault Refusal :=
  .next (s.onTick (fun t => t.drapeCmd true))

/-- UNDRAPE (R28). -/
def execUndrape (s : State) : Host.Outcome State Fault Refusal :=
  .next (s.onTick (fun t => t.drapeCmd false))

/-- DRAPE_N_CHANGE (R28). -/
def execDrapeNChange (level : Bool) (s : State) : Host.Outcome State Fault Refusal :=
  .next (s.drapePin level)

/-- FIELD_DRAPE_N_CHANGE (R38). -/
def execFieldDrapeNChange (level : Bool) (s : State) : Host.Outcome State Fault Refusal :=
  .next (s.fieldDrapePin level)

/-- DRAPE_LANE_INVALID (R274). -/
def execDrapeLaneInvalid (s : State) : Host.Outcome State Fault Refusal :=
  .next (s.onField (fun t => if t.pin.laneInvalid then t else t.drapeInvalid))

end Sys2Proof.Machine
end

