-- ==== Sys2Proof/Machine/Dispatch.lean ====
section
/-!
DEFINITION. The meaning of every command: one arm for each constructor of Instr, in the order of
spec/opcode_table.json.
-/
namespace Sys2Proof.Machine

/-- A command's effect on everything but the queue. -/
def exec (i : Instr) (s : State) : Host.Outcome State Fault Refusal :=
  match i with
  | .powerUp => Sys2Proof.Machine.execPowerUp s
  | .resetN => Sys2Proof.Machine.execResetN s
  | .fieldSidePower on => Sys2Proof.Machine.execFieldSidePower on s
  | .downlinkTransitionsSeen => Sys2Proof.Machine.execDownlinkTransitionsSeen s
  | .tickClockRelease period => Sys2Proof.Machine.execTickClockRelease period s
  | .lossOfLock => Sys2Proof.Machine.execLossOfLock s
  | .clockRestart period => Sys2Proof.Machine.execClockRestart period s
  | .downlinkBlock header line => Sys2Proof.Machine.execDownlinkBlock header line s
  | .idle => Sys2Proof.Machine.execIdle s
  | .postmarkSet v secondOk reserved => Sys2Proof.Machine.execPostmarkSet v secondOk reserved s
  | .postmarkRename => Sys2Proof.Machine.execPostmarkRename s
  | .sheetMark => Sys2Proof.Machine.execSheetMark s
  | .gapOpen => Sys2Proof.Machine.execGapOpen s
  | .gapClose => Sys2Proof.Machine.execGapClose s
  | .quietWindowOpen => Sys2Proof.Machine.execQuietWindowOpen s
  | .quietWindowClose => Sys2Proof.Machine.execQuietWindowClose s
  | .gapLimitClose => Sys2Proof.Machine.execGapLimitClose s
  | .trig => Sys2Proof.Machine.execTrig s
  | .calFire => Sys2Proof.Machine.execCalFire s
  | .run => Sys2Proof.Machine.execRun s
  | .halt => Sys2Proof.Machine.execHalt s
  | .epochAdvance => Sys2Proof.Machine.execEpochAdvance s
  | .drape => Sys2Proof.Machine.execDrape s
  | .undrape => Sys2Proof.Machine.execUndrape s
  | .drapeNChange level => Sys2Proof.Machine.execDrapeNChange level s
  | .fieldDrapeNChange level => Sys2Proof.Machine.execFieldDrapeNChange level s
  | .drapeLaneInvalid => Sys2Proof.Machine.execDrapeLaneInvalid s
  | .slowctlRead f => Sys2Proof.Machine.execSlowctlRead f s
  | .slowctlWrite f => Sys2Proof.Machine.execSlowctlWrite f s
  | .slowctlLaunchedWrite f => Sys2Proof.Machine.execSlowctlLaunchedWrite f s
  | .slowctlReplyTimeout tag => Sys2Proof.Machine.execSlowctlReplyTimeout tag s
  | .launchEntryApply d => Sys2Proof.Machine.execLaunchEntryApply d s
  | .heldWriteApply d => Sys2Proof.Machine.execHeldWriteApply d s
  | .registerWrite m index value => Sys2Proof.Machine.execRegisterWrite m index value s
  | .winDataAccess m b write => Sys2Proof.Machine.execWinDataAccess m b write s
  | .timLaunchArm burst => Sys2Proof.Machine.execTimLaunchArm burst s
  | .timLaunchFlush => Sys2Proof.Machine.execTimLaunchFlush s
  | .rdLo index => Sys2Proof.Machine.execRdLo index s
  | .rdHi index => Sys2Proof.Machine.execRdHi index s
  | .rd index => Sys2Proof.Machine.execRd index s
  | .rdn index pairs => Sys2Proof.Machine.execRdn index pairs s
  | .wrLo index half => Sys2Proof.Machine.execWrLo index half s
  | .wrHi index half => Sys2Proof.Machine.execWrHi index half s
  | .wr index value => Sys2Proof.Machine.execWr index value s
  | .wrn index values => Sys2Proof.Machine.execWrn index values s
  | .mgtBadCommand code => Sys2Proof.Machine.execMgtBadCommand code s
  | .mgtFrameAbort => Sys2Proof.Machine.execMgtFrameAbort s
  | .mgtWriteBufferDrain => Sys2Proof.Machine.execMgtWriteBufferDrain s
  | .mgtReplyTimeout => Sys2Proof.Machine.execMgtReplyTimeout s
  | .mgtClockAbsent => Sys2Proof.Machine.execMgtClockAbsent s
  | .palBankLaunch m hi => Sys2Proof.Machine.execPalBankLaunch m hi s
  | .palCopy => Sys2Proof.Machine.execPalCopy s
  | .palCopyDone => Sys2Proof.Machine.execPalCopyDone s
  | .swapCancel => Sys2Proof.Machine.execSwapCancel s
  | .slewStroke => Sys2Proof.Machine.execSlewStroke s
  | .rowOverload d => Sys2Proof.Machine.execRowOverload d s
  | .ovlLatchClear d w => Sys2Proof.Machine.execOvlLatchClear d w s
  | .rowSparePrep value w => Sys2Proof.Machine.execRowSparePrep value w s
  | .rowMapWrite r word w => Sys2Proof.Machine.execRowMapWrite r word w s
  | .colMapWrite c word w => Sys2Proof.Machine.execColMapWrite c word w s
  | .colSpareSwap c w => Sys2Proof.Machine.execColSpareSwap c w s
  | .colSpareRestore c w => Sys2Proof.Machine.execColSpareRestore c w s
  | .colSettingsWrite p word w => Sys2Proof.Machine.execColSettingsWrite p word w s
  | .trimSetWrite f g w word wr => Sys2Proof.Machine.execTrimSetWrite f g w word wr s
  | .roverDwellStart g => Sys2Proof.Machine.execRoverDwellStart g s
  | .roverDwellEnd g => Sys2Proof.Machine.execRoverDwellEnd g s
  | .loopStrokeUpdate f y comparator => Sys2Proof.Machine.execLoopStrokeUpdate f y comparator s
  | .persistentSat c r => Sys2Proof.Machine.execPersistentSat c r s
  | .persistentOverrange c => Sys2Proof.Machine.execPersistentOverrange c s
  | .loopStart => Sys2Proof.Machine.execLoopStart s
  | .nulReprime w => Sys2Proof.Machine.execNulReprime w s
  | .nulCapture w => Sys2Proof.Machine.execNulCapture w s
  | .captureDone => Sys2Proof.Machine.execCaptureDone s
  | .nulLoopGainWrite p g w => Sys2Proof.Machine.execNulLoopGainWrite p g w s
  | .nullingRangeChange p n w => Sys2Proof.Machine.execNullingRangeChange p n w s
  | .nulMemoryError addr => Sys2Proof.Machine.execNulMemoryError addr s
  | .columnReadingsComplete c => Sys2Proof.Machine.execColumnReadingsComplete c s
  | .eventRecordComplete c => Sys2Proof.Machine.execEventRecordComplete c s
  | .varClampCountRead m => Sys2Proof.Machine.execVarClampCountRead m s
  | .varCopy w => Sys2Proof.Machine.execVarCopy w s
  | .varCopyDone => Sys2Proof.Machine.execVarCopyDone s
  | .varSwap w => Sys2Proof.Machine.execVarSwap w s
  | .varMemoryError addr => Sys2Proof.Machine.execVarMemoryError addr s
  | .handoverCopy src result stamp status => Sys2Proof.Machine.execHandoverCopy src result stamp status s
  | .cadenceLatch => Sys2Proof.Machine.execCadenceLatch s
  | .sheetDeadline => Sys2Proof.Machine.execSheetDeadline s
  | .coverParcel => Sys2Proof.Machine.execCoverParcel s
  | .slotFill p => Sys2Proof.Machine.execSlotFill p s
  | .fragmentHeader => Sys2Proof.Machine.execFragmentHeader s
  | .strDecimationChange mask value w => Sys2Proof.Machine.execStrDecimationChange mask value w s
  | .pigeonholeMemoryError addr => Sys2Proof.Machine.execPigeonholeMemoryError addr s
  | .hkPassStart x => Sys2Proof.Machine.execHkPassStart x s
  | .hkConversionDone x raw overload => Sys2Proof.Machine.execHkConversionDone x raw overload s
  | .hkDataRead x => Sys2Proof.Machine.execHkDataRead x s
  | .hkRunChange x run w => Sys2Proof.Machine.execHkRunChange x run w s
  | .hkRestart x w => Sys2Proof.Machine.execHkRestart x w s
  | .hkUrgent x entry w => Sys2Proof.Machine.execHkUrgent x entry w s
  | .hkCalStart x gains tol w => Sys2Proof.Machine.execHkCalStart x gains tol w s
  | .hkCalCancel x => Sys2Proof.Machine.execHkCalCancel x s
  | .hkCalGainDone x => Sys2Proof.Machine.execHkCalGainDone x s
  | .refbufReady => Sys2Proof.Machine.execRefbufReady s
  | .hkExcOverload => Sys2Proof.Machine.execHkExcOverload s
  | .hkExcOverloadClear => Sys2Proof.Machine.execHkExcOverloadClear s
  | .hkRedundantSel value w => Sys2Proof.Machine.execHkRedundantSel value w s
  | .traceCheck => Sys2Proof.Machine.execTraceCheck s
  | .columnStep c => Sys2Proof.Machine.execColumnStep c s
  | .calStepDone => Sys2Proof.Machine.execCalStepDone s
  | .calStepCut => Sys2Proof.Machine.execCalStepCut s
  | .roverCheck => Sys2Proof.Machine.execRoverCheck s
  | .calResultsApply => Sys2Proof.Machine.execCalResultsApply s
  | .slotStore => Sys2Proof.Machine.execSlotStore s
  | .slotDiscard => Sys2Proof.Machine.execSlotDiscard s
  | .flashErase4k addr => Sys2Proof.Machine.execFlashErase4k addr s
  | .flashErase64k addr => Sys2Proof.Machine.execFlashErase64k addr s
  | .flashReadJedec => Sys2Proof.Machine.execFlashReadJedec s
  | .flashDone ok jedec => Sys2Proof.Machine.execFlashDone ok jedec s
  | .routineRequest e routine arg => Sys2Proof.Machine.execRoutineRequest e routine arg s
  | .routineDispatch e => Sys2Proof.Machine.execRoutineDispatch e s
  | .routineAbandon e causes => Sys2Proof.Machine.execRoutineAbandon e causes s
  | .engineWaitEnd e => Sys2Proof.Machine.execEngineWaitEnd e s
  | .engineWaitTimeout e => Sys2Proof.Machine.execEngineWaitTimeout e s
  | .mwNop e svc m => Sys2Proof.Machine.execMwNop e svc m s
  | .mwMov e svc m => Sys2Proof.Machine.execMwMov e svc m s
  | .mwAdd e svc m => Sys2Proof.Machine.execMwAdd e svc m s
  | .mwSub e svc m => Sys2Proof.Machine.execMwSub e svc m s
  | .mwAnd e svc m => Sys2Proof.Machine.execMwAnd e svc m s
  | .mwOr e svc m => Sys2Proof.Machine.execMwOr e svc m s
  | .mwXor e svc m => Sys2Proof.Machine.execMwXor e svc m s
  | .mwShl e svc m => Sys2Proof.Machine.execMwShl e svc m s
  | .mwShr e svc m => Sys2Proof.Machine.execMwShr e svc m s
  | .mwAsr e svc m => Sys2Proof.Machine.execMwAsr e svc m s
  | .mwMull e svc m => Sys2Proof.Machine.execMwMull e svc m s
  | .mwMulh e svc m => Sys2Proof.Machine.execMwMulh e svc m s
  | .mwCmp e svc m => Sys2Proof.Machine.execMwCmp e svc m s
  | .mwTest e svc m => Sys2Proof.Machine.execMwTest e svc m s
  | .mwLd e svc m => Sys2Proof.Machine.execMwLd e svc m s
  | .mwSt e svc m => Sys2Proof.Machine.execMwSt e svc m s
  | .mwRdreg e svc m => Sys2Proof.Machine.execMwRdreg e svc m s
  | .mwWrreg e svc m => Sys2Proof.Machine.execMwWrreg e svc m s
  | .excursion e svc m => Sys2Proof.Machine.execExcursion e svc m s
  | .commit e => Sys2Proof.Machine.execCommit e s
  | .mwSettimer e svc m => Sys2Proof.Machine.execMwSettimer e svc m s
  | .mwReq e svc m => Sys2Proof.Machine.execMwReq e svc m s
  | .mwCall e svc m => Sys2Proof.Machine.execMwCall e svc m s
  | .mwRet e svc m => Sys2Proof.Machine.execMwRet e svc m s
  | .mwEnd e svc m => Sys2Proof.Machine.execMwEnd e svc m s
  | .engineHalt e => Sys2Proof.Machine.execEngineHalt e s
  | .engineRun e => Sys2Proof.Machine.execEngineRun e s
  | .engineStep e => Sys2Proof.Machine.execEngineStep e s
  | .engineResume e => Sys2Proof.Machine.execEngineResume e s
  | .breakpointHit e => Sys2Proof.Machine.execBreakpointHit e s
  | .barrierTraining => Sys2Proof.Machine.execBarrierTraining s
  | .trainingEnd f2h h2f => Sys2Proof.Machine.execTrainingEnd f2h h2f s
  | .barRetrain => Sys2Proof.Machine.execBarRetrain s
  | .readingsEnvelope x => Sys2Proof.Machine.execReadingsEnvelope x s
  | .eventEnvelope x => Sys2Proof.Machine.execEventEnvelope x s
  | .hkResultEnvelope x => Sys2Proof.Machine.execHkResultEnvelope x s
  | .statusEnvelope x => Sys2Proof.Machine.execStatusEnvelope x s
  | .statusLaneFail x => Sys2Proof.Machine.execStatusLaneFail x s
  | .statusFltAcked x => Sys2Proof.Machine.execStatusFltAcked x s
  | .faultNotice x => Sys2Proof.Machine.execFaultNotice x s
  | .replyEnvelope x => Sys2Proof.Machine.execReplyEnvelope x s
  | .bistReport x => Sys2Proof.Machine.execBistReport x s
  | .heartbeat x => Sys2Proof.Machine.execHeartbeat x s
  | .writeEnvelope x => Sys2Proof.Machine.execWriteEnvelope x s
  | .readEnvelope x => Sys2Proof.Machine.execReadEnvelope x s
  | .commandEnvelope x => Sys2Proof.Machine.execCommandEnvelope x s
  | .commandLaneSwap x => Sys2Proof.Machine.execCommandLaneSwap x s
  | .commandEpoch x => Sys2Proof.Machine.execCommandEpoch x s
  | .commandShed x => Sys2Proof.Machine.execCommandShed x s
  | .timeEnvelope x => Sys2Proof.Machine.execTimeEnvelope x s
  | .gapEnvelope x => Sys2Proof.Machine.execGapEnvelope x s
  | .triggerEnvelope x => Sys2Proof.Machine.execTriggerEnvelope x s
  | .barrierLaneFail toHost lane errors => Sys2Proof.Machine.execBarrierLaneFail toHost lane errors s
  | .laneSwapApply => Sys2Proof.Machine.execLaneSwapApply s
  | .heartbeatMissed => Sys2Proof.Machine.execHeartbeatMissed s
  | .retiredTableWrite word value wr => Sys2Proof.Machine.execRetiredTableWrite word value wr s
  | .lnkSchedLaunch m hi => Sys2Proof.Machine.execLnkSchedLaunch m hi s
  | .portLaneFail p lock => Sys2Proof.Machine.execPortLaneFail p lock s
  | .forceFail p => Sys2Proof.Machine.execForceFail p s
  | .portRetire p => Sys2Proof.Machine.execPortRetire p s
  | .readmit p w => Sys2Proof.Machine.execReadmit p w s
  | .lnkEpochSet epoch w => Sys2Proof.Machine.execLnkEpochSet epoch w s
  | .peerCover p header cover rest => Sys2Proof.Machine.execPeerCover p header cover rest s
  | .eyeUpdate receiver width height => Sys2Proof.Machine.execEyeUpdate receiver width height s
  | .checkPass => Sys2Proof.Machine.execCheckPass s
  | .hostSelfTest findings => Sys2Proof.Machine.execHostSelfTest findings s
  | .fieldSelfTest findings => Sys2Proof.Machine.execFieldSelfTest findings s
  | .fieldLoad refused => Sys2Proof.Machine.execFieldLoad refused s
  | .fieldLoadEnd => Sys2Proof.Machine.execFieldLoadEnd s
  | .primerCheck => Sys2Proof.Machine.execPrimerCheck s
  | .readyEntry => Sys2Proof.Machine.execReadyEntry s
  | .autoRun => Sys2Proof.Machine.execAutoRun s
  | .glbRetest => Sys2Proof.Machine.execGlbRetest s
  | .glbStartDegraded => Sys2Proof.Machine.execGlbStartDegraded s
  | .glbEnterSafe => Sys2Proof.Machine.execGlbEnterSafe s
  | .glbCommandBadKey value => Sys2Proof.Machine.execGlbCommandBadKey value s
  | .fltAckSources b sources => Sys2Proof.Machine.execFltAckSources b sources s
  | .fltAckFirst b => Sys2Proof.Machine.execFltAckFirst b s
  | .quietRecovery b source => Sys2Proof.Machine.execQuietRecovery b source s
  | .fltPolicyWrite b value => Sys2Proof.Machine.execFltPolicyWrite b value s
  | .fltInjectGo b value w => Sys2Proof.Machine.execFltInjectGo b value w s
  | .fltInjectStop b w => Sys2Proof.Machine.execFltInjectStop b w s
  | .scrubWord b addr single => Sys2Proof.Machine.execScrubWord b addr single s
  | .aliveToggle => Sys2Proof.Machine.execAliveToggle s
  | .powerDecision => Sys2Proof.Machine.execPowerDecision s
  | .powerTransitionLaunch status => Sys2Proof.Machine.execPowerTransitionLaunch status s
  | .powerEntry => Sys2Proof.Machine.execPowerEntry s
  | .powerWake => Sys2Proof.Machine.execPowerWake s
  | .powerTransitionComplete => Sys2Proof.Machine.execPowerTransitionComplete s
  | .supplyExcursion d rail level => Sys2Proof.Machine.execSupplyExcursion d rail level s
  | .dieTemperatureUpdate t => Sys2Proof.Machine.execDieTemperatureUpdate t s
  | .courierStall => Sys2Proof.Machine.execCourierStall s
  | .peerSheetLock p => Sys2Proof.Machine.execPeerSheetLock p s
  | .laneSwapDeadline => Sys2Proof.Machine.execLaneSwapDeadline s

end Sys2Proof.Machine
end

