-- ==== Sys2Proof/Safety.lean ====
section
/-!
DEFINITION. What a safe run is, in the terms that statements use: the properties of a state that every step keeps,
and the parts of a state that an operation may change.
-/
namespace Sys2Proof.Machine

/-- What an unlisted key of the window tables reads as: the reset value of the block's word. -/
def winDefault (k : Nat) : W24 :=
  match blkOf (k / 2 ^ 24 * 0x100) with
  | some b => winReset b (k % 2 ^ 24)
  | none => 0

/-- What an unlisted key of the sources reads as: a source with its default policy (Table 16-4). -/
def srcDefault (k : Nat) : Source :=
  match blkOf (k / 16 * 0x100) with
  | some b => defSource (defPolicy b (k % 16))
  | none => defSource (plainPolicy 0)

/-- The flash in its canonical form: addresses rise strictly, and no byte reads as an erased one (R317). -/
abbrev flashWf (f : List Host.Cell) : Prop := assocWf (fun _ => 0xFF) f

/-- Registers, window tables, window addresses, fault sources and the flash are each in their one canonical form:
keys rise strictly, and no entry equals what an unlisted key reads as. -/
abbrev State.wf (s : State) : Prop :=
  assocWf regReset s.regs ∧ assocWf winDefault s.wins ∧ assocWf (fun _ => 0) s.winAddrs ∧
    assocWf srcDefault s.srcs ∧ flashWf s.cfg.flash

/-! ### What an operation changes -/

/-- The parts of a state that a footprint names: single registers and ranges of them, the registers of every fault
group, those of the field die, all of them, the window tables of each block, and the other fields of State. -/
inductive Part where
  | reg (i : Nat)
  | regs (lo n : Nat)
  | flt | fieldDie | anyReg
  | win (b : Blk)
  | anyWin
  | winAddrs | srcs | recTick | timers | hostQ | fieldQ | held | gap | tm | bar | pin | faults | cou | bru
  | pal | pwr | col | nul | var | str | evt | lnk | hka | hkb | refOnAt | cal | mgt | cfg | flash | free
deriving DecidableEq, Repr

/-- The place of a register in a footprint; indices past the register map share one. -/
def regPart (i : Nat) : Nat := min i 0x2000

/-- n places from lo on. -/
def span (lo n : Nat) : Nat := (2 ^ n - 1) * 2 ^ lo

/-- The blocks of the register map. -/
def allBlks : List Blk :=
  [.glb, .tim, .bar, .lnk, .mgt, .cfg, .cou, .pwr, .fgl, .pal, .col, .nul, .var, .str, .evt, .hka, .hkb, .hks, .cal,
    .bru, .fba]

/-- Every register of every fault group (R341). -/
def fltSpan : Nat := allBlks.foldl (fun m b => m ||| span (blkBase b + 0xF0) 0x10) 0

/-- The places of a part in a footprint: bit i stands for register i, bits from 0x2020 on for the window tables, bits
from 0x2041 on for the other fields of State. -/
def Part.places : Part → Nat
  | .reg i => 2 ^ regPart i
  | .regs lo n => span lo n
  | .flt => fltSpan
  | .fieldDie => span 0x1000 0x1001
  | .anyReg => span 0 0x2001
  | .win b => 2 ^ (0x2020 + blkNum b)
  | .anyWin => span 0x2020 32
  | .winAddrs => 2 ^ 0x2041 | .srcs => 2 ^ 0x2042 | .recTick => 2 ^ 0x2043 | .timers => 2 ^ 0x2044
  | .hostQ => 2 ^ 0x2045 | .fieldQ => 2 ^ 0x2046 | .held => 2 ^ 0x2047 | .gap => 2 ^ 0x2048
  | .tm => 2 ^ 0x2049 | .bar => 2 ^ 0x204A | .pin => 2 ^ 0x204B | .faults => 2 ^ 0x204C | .cou => 2 ^ 0x204D
  | .bru => 2 ^ 0x204E | .pal => 2 ^ 0x204F | .pwr => 2 ^ 0x2050 | .col => 2 ^ 0x2051 | .nul => 2 ^ 0x2052
  | .var => 2 ^ 0x2053 | .str => 2 ^ 0x2054 | .evt => 2 ^ 0x2055 | .lnk => 2 ^ 0x2056 | .hka => 2 ^ 0x2057
  | .hkb => 2 ^ 0x2058 | .refOnAt => 2 ^ 0x2059 | .cal => 2 ^ 0x205A | .mgt => 2 ^ 0x205B
  | .cfg => 2 ^ 0x205C | .flash => 2 ^ 0x205D | .free => 2 ^ 0x205E

/-- A footprint: the parts that an operation may change. -/
def foot (ps : List Part) : Nat := ps.foldl (fun m p => m ||| p.places) 0

/-- t differs from s in the parts of M at most, and is in canonical form where s is. -/
structure Keeps (M : Nat) (s t : State) : Prop where
  wf       : s.wf → t.wf
  pending  : t.pending = s.pending
  reg      : ∀ i, M.testBit (regPart i) = false → t.reg i = s.reg i
  win      : ∀ b a, M.testBit (0x2020 + blkNum b) = false → t.win b a = s.win b a
  winAddrs : M.testBit 0x2041 = false → t.winAddrs = s.winAddrs
  srcs     : M.testBit 0x2042 = false → t.srcs = s.srcs
  recTick  : M.testBit 0x2043 = false → t.recTick = s.recTick
  timers   : M.testBit 0x2044 = false → t.timers = s.timers
  hostQ    : M.testBit 0x2045 = false → t.hostQ = s.hostQ
  fieldQ   : M.testBit 0x2046 = false → t.fieldQ = s.fieldQ
  held     : M.testBit 0x2047 = false → t.held = s.held
  gap      : M.testBit 0x2048 = false → t.gap = s.gap
  tm       : M.testBit 0x2049 = false → t.tm = s.tm
  bar      : M.testBit 0x204A = false → t.bar = s.bar
  pin      : M.testBit 0x204B = false → t.pin = s.pin
  flt      : M.testBit 0x204C = false → t.flt = s.flt
  cou      : M.testBit 0x204D = false → t.cou = s.cou
  bru      : M.testBit 0x204E = false → t.bru = s.bru
  pal      : M.testBit 0x204F = false → t.pal = s.pal
  pwr      : M.testBit 0x2050 = false → t.pwr = s.pwr
  col      : M.testBit 0x2051 = false → t.col = s.col
  nul      : M.testBit 0x2052 = false → t.nul = s.nul
  var      : M.testBit 0x2053 = false → t.var = s.var
  str      : M.testBit 0x2054 = false → t.str = s.str
  evt      : M.testBit 0x2055 = false → t.evt = s.evt
  lnk      : M.testBit 0x2056 = false → t.lnk = s.lnk
  hka      : M.testBit 0x2057 = false → t.hka = s.hka
  hkb      : M.testBit 0x2058 = false → t.hkb = s.hkb
  refOnAt  : M.testBit 0x2059 = false → t.refOnAt = s.refOnAt
  cal      : M.testBit 0x205A = false → t.cal = s.cal
  mgt      : M.testBit 0x205B = false → t.mgt = s.mgt
  cfg      : M.testBit 0x205C = false → { t.cfg with flash := [] } = { s.cfg with flash := [] }
  flash    : M.testBit 0x205D = false → t.cfg.flash = s.cfg.flash
  free     : M.testBit 0x205E = false → t.free = s.free

/-! ### Registers that are only stored -/

/-- n indices from lo on. -/
def indices (lo n : Nat) : List Nat := (List.range n).map (fun k => lo + k)

/-- Registers whose write does nothing but store their fields, on arrival (Tables 18-2 to 18-16). -/
def instantRegs : List Nat :=
  indices 0x0000 5 ++ indices 0x0006 8 ++ indices 0x0100 9 ++ indices 0x010A 4 ++ indices 0x0200 6 ++ [0x0207] ++
    indices 0x0301 3 ++ indices 0x0308 10 ++ indices 0x0314 4 ++ indices 0x0400 7 ++ [0x0500, 0x0501] ++
    indices 0x0503 3 ++ [0x0507, 0x0508] ++ indices 0x0601 3 ++ indices 0x0605 5 ++ indices 0x1000 5 ++
    indices 0x1B01 3 ++ indices 0x1B05 5 ++ indices 0x1C00 4

/-- Registers whose RW fields do nothing but take their values, at a stroke or sheet boundary (R48). -/
def boundaryRegs : List Nat :=
  [0x0300, 0x0706, 0x1104, 0x1106, 0x1109, 0x1200, 0x1300, 0x1302, 0x1303, 0x1401, 0x1402, 0x1500, 0x1600, 0x1601, 0x1602,
    0x1603, 0x1604] ++ indices 0x1A02 5

/-- Bit j of a register after a write of v: an RW bit takes the bit of the value as the field limits have it, a W1C
bit clears where v is 1, another stays (R13). -/
def State.bitWritten (s : State) (i : Nat) (v : Word) (j : Nat) : Bool :=
  if (maskOf i (fun r => r.rw)).testBit j then (storedValue i v).getLsbD j
  else (s.reg i).getLsbD j && !((maskOf i (fun r => r.w1c)).testBit j && v.getLsbD j)

end Sys2Proof.Machine
end

