-- ==== Sys2Proof/Terms.lean ====
section
/-!
DEFINITION. Terms that several statements use.
-/
namespace Sys2Proof.Machine

/-- c is the conversion of converter x that starts in the state's tick from its beginning, for an entry of a kind: its
word, the factors of its gain, nothing summed yet, and bit 29 where READY is 0 (R187, R188, R191, R196). -/
def State.beginsConv (s : State) (x : Hk) (kind : HkKind) (n : Nat) (c : HkConv) : Prop :=
  c.kind = kind ∧ c.entry = n ∧ c.word = s.convWord x kind n ∧ c.k = 0 ∧ c.sum = 0 ∧
    c.ns = (!s.bit HKS_REFBUF_STATUS_READY) ∧ c.start = s.tm.tick ∧ c.ticks = convTicks (seqTime c.word) ∧
    c.ofs = sgn 24 (s.fld (HKx_CAL_OFS_OFS (hkBase x) (seqGain c.word))) ∧
    c.gainf = s.fld (HKx_CAL_GAIN_GAINF (hkBase x) (seqGain c.word))

/-- The window word of a destination code (Table 11-3, Table 11-19): W0 to W15, XH, LPL and LPH; the other codes store
nothing. -/
def resultPlace (d : Nat) : Option Nat :=
  if d < 16 then some (0x4A00 + d)
  else if d = 18 then some 0x4A10
  else if d = 21 then some 0x4A11
  else if d = 22 then some 0x4A12
  else none

/-- What a destination code keeps of a result: XH takes bits [7:0] (Table 11-3). -/
def resultKept (d : Nat) (v : W24) : W24 := if d = 18 then v &&& 0xFF else v

/-- t is s after a microword of a context that stored v in the window word at a place, if one is named, left the flags
f, changed no other word, nothing else of _STATUS and nothing beyond, and then branched (R239). -/
def State.ran (s t : State) (e : Eng) (svc : Bool) (m : Micro) (place : Option Nat) (v : W24) (f : EFlags) : Prop :=
  Keeps (foot [.win (engBlk e), .reg (ENG_STATUS (engBase e)), .reg (ENG_PC (engBase e))]) s t ∧
    (∀ a, a < 0x10000 → t.win (engBlk e) a = if place = some a then v else s.win (engBlk e) a) ∧
    t.flags e = f ∧
    (∀ g ∈ [ENG_STATUS_STAGE_OVF (engBase e), ENG_STATUS_STENCIL_OVF (engBase e), ENG_STATUS_STORE_PROT (engBase e),
      ENG_STATUS_REQ_REJECT (engBase e), ENG_STATUS_LAUNCH_REJECT (engBase e), ENG_STATUS_GUARD (engBase e),
      ENG_STATUS_WIN_REJECT (engBase e), ENG_STATUS_TO (engBase e), ENG_STATUS_SERVICE_BUSY (engBase e),
      ENG_STATUS_STATE (engBase e), ENG_STATUS_ROUTINE (engBase e)], t.fld g = s.fld g) ∧
    t.epc e svc = (if t.condHolds e m.cond.toNat then m.next.toNat else (s.epc e svc + 1) % 4096) ∧
    t.epc e (!svc) = s.epc e (!svc)

/-- The microwords of a context run: its die has its clock and supply, it holds a routine, no field read holds it up, and
the microword is no commit point of the main context (COMMIT has its own rule). -/
def State.runs (s : State) (e : Eng) (svc : Bool) (m : Micro) : Prop :=
  s.tm.clk = true ∧ (e = .brush → s.pin.fieldPower = true) ∧ (s.ctx e svc).isSome = true ∧
    s.isReading e svc = false ∧ (m.commit = false ∨ svc = true)

end Sys2Proof.Machine
end

