-- ==== Sys2Proof/Certificates/Slice0/Obligations.lean ====
section
/-!
DEFINITION. The statements about the model: what each command does and leaves alone, what every step keeps, and the
codes that words carry.
-/
open Sys2Proof Sys2Proof.Machine

/-- A step takes the command at the front of the queue and runs it with the rest. For every command c, every state s
and every rest of a queue: a step of s with c at the front of its queue is exec of c on s with the rest of the queue.
The queue is the model's own (log entry 1). (00_scope.md, spec/opcode_table.json) -/
def Obligations.StepRunsFrontCommand : Prop :=
  ∀ (c : Instr) (rest : List Instr) (s : State),
    step { s with pending := c :: rest } = exec c { s with pending := rest }

/-- With no command waiting a step is one tick: postmarks advance by one while the clock runs, and nothing happens
without it. For every state with an empty queue: a step answers a next state whose queue is empty; without the tick
clock that state is the state itself; with the clock and fewer than 16 invalid sync headers among the last 64 blocks
the step is one tick of the device, and where loss of lock is due the clock stops. That a step on an empty queue is
one tick is the model's choice (log entry 1). (R37, R40, 02_time_and_postmarks.md) -/
def Obligations.IdleStepIsOneTick : Prop :=
  ∀ s : State, s.pending = [] →
    ∃ t, step s = .next t ∧ t.pending = [] ∧
      (s.tm.clk = false → t = s) ∧
      (s.tm.clk = true → 16 ≤ popCount 64 s.tm.hdrBad.toNat → t.tm.clk = false ∧ t.tm.hpm = s.tm.hpm) ∧
      (s.tm.clk = true → popCount 64 s.tm.hdrBad.toNat < 16 → t = s.tickBody)

/-- Every command on every state completes, and none touches the queue. For every command c, with operands of any
value, and every state s, exec of c on s answers a next state, neither a fault nor a refusal; its queue is that of s,
and where s is in canonical form so is it. (00_scope.md, spec/opcode_table.json) -/
def Obligations.EveryCommandCompletesWithItsQueue : Prop :=
  ∀ (c : Instr) (s : State), ∃ t, exec c s = .next t ∧ t.pending = s.pending ∧ (s.wf → t.wf)

/-- The state after reset is in canonical form, with an empty queue, every register at its reset value and no tick
clock. The state after reset lists nothing: its queue is empty, every register reads its reset value of the register
map, every window word its own reset value, the tick clock stands, and its tables are in canonical form. Reset values
that no rule gives are the model's (log entry 10). (R373, 18_register_map.md) -/
def Obligations.ResetIsCanonical : Prop :=
  State.reset.wf ∧ State.reset.pending = [] ∧ State.reset.tm.clk = false ∧
    (∀ i, State.reset.reg i = regReset i) ∧ (∀ b a, State.reset.win b a = winReset b (a % 2 ^ 24)) ∧
    (∀ a, (∀ e ∈ State.reset.cfg.flash, e.1 ≠ a))

/-- Every step from a state in canonical form leads to one: registers, window tables, window addresses, fault sources
and flash. For every state s in canonical form (in the register table, the window tables, the window addresses, the
fault sources and the flash the keys rise strictly and no entry equals what an unlisted key reads as): if a step of s,
whatever command is in front or none, answers next t, then t is in canonical form too. So equal contents are equal
data in every state that a run reaches. (R11, R317, R371, 18_register_map.md) -/
def Obligations.EveryStepKeepsCanonicalForm : Prop :=
  ∀ s t : State, s.wf → step s = .next t → t.wf

/-- POWER_UP and RESET_N bring every register and table to its reset value and stop the clock; the flash stays.
POWER_UP and RESET_N on every state answer the same next state t: every register reads its reset value, every window
word its own, GLB_STATE reads NOCLOCK, the tick clock stands, both launch queues, the held writes and the device's own
timers are empty, no quiet window is known and no commanded drape is in force; the flash, the levels on the pins, the
field side's supply and the queue are as they were. (R373, R317, R12, 15_configuration_and_startup.md) -/
def Obligations.PowerUpAndResetRestoreResetValues : Prop :=
  ∀ s : State, ∃ t, exec .powerUp s = .next t ∧ exec .resetN s = .next t ∧
    (∀ i, t.reg i = regReset i) ∧ (∀ b a, t.win b a = winReset b (a % 2 ^ 24)) ∧ t.glb = 0 ∧ t.tm.clk = false ∧
    t.hostQ = [] ∧ t.fieldQ = [] ∧ t.held = [] ∧ t.timers = [] ∧ t.gap = none ∧ t.pin.commanded = false ∧
    t.cfg.flash = s.cfg.flash ∧ t.pin.drapeN = s.pin.drapeN ∧ t.pin.fieldDrapeN = s.pin.fieldDrapeN ∧
    t.pin.fieldPower = s.pin.fieldPower ∧ t.pending = s.pending

/-- FIELD_SIDE_POWER: a change of the supply resets the field die and leaves the host die's registers and tables as
they were. FIELD_SIDE_POWER with the level that the supply has changes nothing. With the other level the next state t
has that level; every register from index 0x1000 on reads its reset value, the field die's window tables too, its
launch queue is empty, the palette's rows are on their clamps; every register below 0x1000, the host die's window
tables, the host launch queue, the tick clock and the host postmark are as they were. (R34, R373, 01_architecture.md)
-/
def Obligations.FieldSupplyResetsOnlyTheFieldDie : Prop :=
  ∀ (s : State) (on : Bool),
    (s.pin.fieldPower = on → exec (.fieldSidePower on) s = .next s) ∧
    (s.pin.fieldPower ≠ on → ∃ t, exec (.fieldSidePower on) s = .next t ∧ Keeps (foot [.fieldDie, .anyWin, .recTick,
        .fieldQ, .held, .tm, .bar, .pin, .bru, .pal, .col, .nul, .var, .str, .evt, .lnk, .hka, .hkb, .refOnAt, .cal,
        .winAddrs, .srcs]) s t ∧
      t.pin.fieldPower = on ∧ (∀ i, 0x1000 ≤ i → t.reg i = regReset i) ∧ (∀ i, i < 0x1000 → t.reg i = s.reg i) ∧
      (∀ b a, 0x10 ≤ blkNum b → t.win b a = winReset b (a % 2 ^ 24)) ∧
      (∀ b a, blkNum b < 0x10 → t.win b a = s.win b a) ∧
      t.fieldQ = [] ∧ t.pal.clamps = true ∧ t.hostQ = s.hostQ ∧ t.tm.clk = s.tm.clk ∧ t.tm.hpm = s.tm.hpm ∧
      t.pending = s.pending)

/-- Transitions give LOCKING, release starts the clock at postmark 0, and the clock restarts after a loss of lock.
Without the tick clock: DOWNLINK_TRANSITIONS_SEEN in NOCLOCK makes GLB_STATE LOCKING (1). TICK_CLOCK_RELEASE in
LOCKING, after 64 good blocks and with a period of 19231 to 20833 ps, starts the clock: GLB_STATE is LOADING (2), both
postmarks are 0, PM_VALID reads 0, LOCK reads 1 and TIM_TICK_PERIOD holds the period. CLOCK_RESTART under the same
conditions in a later state starts the clock and counts LOCK_LOSS_COUNT, saturating; READY and RUNNING become READY
and SAFE stays, and PM_VALID reads 0. (R36, R37, R39, R325, 15_configuration_and_startup.md) -/
def Obligations.ClockReleaseAndRestart : Prop :=
  (∀ s : State, s.tm.clk = false → s.glb = 0 → ∃ t, exec .downlinkTransitionsSeen s = .next t ∧
    Keeps (foot [.reg GLB_STATE, .reg LNK_DOWN_STATUS]) s t ∧ t.glb = 1) ∧
  (∀ (s : State) (p : BitVec 16), s.tm.clk = false → s.glb = 1 → 64 ≤ s.tm.goodRun → 19231 ≤ p.toNat →
    p.toNat ≤ 20833 → ∃ t, exec (.tickClockRelease p) s = .next t ∧ Keeps (foot [.reg GLB_STATE, .reg GLB_DETERMINISM,
        .reg TIM_STATUS, .reg TIM_TICK_PERIOD, .reg LNK_DOWN_STATUS, .reg MGT_STATUS, .regs 0x0308 4, .tm, .cou, .bru,
        .cfg]) s t ∧
    t.tm.clk = true ∧ t.tm.hpm = 0 ∧ t.tm.fpm = 0 ∧ t.glb = 2 ∧ t.bit TIM_STATUS_PM_VALID = false ∧
    t.bit TIM_STATUS_LOCK = true ∧ t.fld TIM_TICK_PERIOD_PERIOD_PS = p.toNat) ∧
  (∀ (s : State) (p : BitVec 16), s.tm.clk = false → 2 ≤ s.glb → 64 ≤ s.tm.goodRun → 19231 ≤ p.toNat →
    p.toNat ≤ 20833 → ∃ t, exec (.clockRestart p) s = .next t ∧ t.tm.clk = true ∧
    t.bit TIM_STATUS_PM_VALID = false ∧
    t.fld TIM_STATUS_LOCK_LOSS_COUNT = min (s.fld TIM_STATUS_LOCK_LOSS_COUNT + 1)
      (2 ^ TIM_STATUS_LOCK_LOSS_COUNT.len - 1) ∧
    (s.glb = 6 ∨ s.glb = 7 → t.glb = 6 ∧ t.tm.hpm = s.tm.hpm) ∧ (s.glb = 4 → t.glb = 4 ∧ t.tm.hpm = s.tm.hpm) ∧
    (s.glb ≠ 4 → s.glb ≠ 6 → s.glb ≠ 7 → t.glb = 2 ∧ t.tm.hpm = 0))

/-- LOSS_OF_LOCK stops the clock and drops fast commands and a POSTMARK_SET under way; a DRAPE under way is in force
at once. LOSS_OF_LOCK with the clock running: the clock stands, no fast command, no field part of one and no
POSTMARK_SET waits, no quiet window is open or pending, no calibration result waits, sticky reason 3 is set in
GLB_DETERMINISM, a commanded drape is in force if it was or if a DRAPE was under way, and the host postmark and
GLB_STATE hold what they held. Without the clock it changes nothing. (R37, R55, R222, R28) -/
def Obligations.LossOfLockStopsTheClock : Prop :=
  (∀ s : State, s.tm.clk = false → exec .lossOfLock s = .next s) ∧
  (∀ s : State, s.tm.clk = true → ∃ t, exec .lossOfLock s = .next t ∧ Keeps (foot [.reg GLB_DETERMINISM, .reg
      TIM_GAP_STATUS, .reg TIM_GAP_COUNT, .reg LNK_DEADLETTER_COUNT, .reg (ENG_STATUS 0x600), .reg CAL_STATUS, .reg
      CAL_DEFER_COUNT, .reg (ENG_STATUS 0x1B00), .flt, .win .lnk, .win .nul, .win .cal, .recTick, .gap, .tm, .bar,
      .pin, .faults, .cou, .bru, .col, .nul, .lnk, .cal] ||| foot [.free, .srcs]) s t ∧
    t.tm.clk = false ∧ t.tm.fast = [] ∧ t.tm.fieldFast = [] ∧ t.tm.pmSet = none ∧ t.tm.hpm = s.tm.hpm ∧
    t.gap = none ∧ t.cal.pend = [] ∧ t.glb = s.glb ∧ t.fld GLB_DETERMINISM_STICKY / 2 ^ 3 % 2 = 1 ∧
    t.pin.commanded = (s.pin.commanded || s.tm.fast.any (fun f => f.code == 0xE0)))

/-- A downlink block without the clock counts towards lock or starts the count again; IDLE does nothing. Without the
tick clock, DOWNLINK_BLOCK with header 01 and a right frank of the descrambled block makes the run of good blocks one
longer, up to 64; with any other header or a wrong frank the run is 0; nothing else changes but the descrambler. IDLE
changes nothing, with or without the clock. (R36, R284, R285, 13_links.md) -/
def Obligations.DownlinkBlockCountsTowardsLock : Prop :=
  (∀ (s : State) (h : BitVec 2) (l : BitVec 64), s.tm.clk = false → ∃ t, exec (.downlinkBlock h l) s = .next t ∧
    t.tm.goodRun = (if h = 1 ∧ blockFrankOk (descramble s.tm.descr l).2.toNat = true then
      min (s.tm.goodRun + 1) 64 else 0) ∧ t.tm.descr = (descramble s.tm.descr l).1 ∧
    t = { s with tm := t.tm } ∧ t.tm.hpm = s.tm.hpm ∧ t.tm.fast = s.tm.fast) ∧
  (∀ s : State, exec .idle s = .next s)

/-- POSTMARK_SET is held until its tick A, where POSTMARK_RENAME gives V + L; a bad one is discarded. With the clock
running and no renaming under way or just made: POSTMARK_SET with a good second block and reserved bits 0 is held as
the renaming under way, with the LATENCY of this tick; with a bad second block or reserved bits it is discarded,
PMSET_REJECT reads 1 and no renaming is under way. POSTMARK_RENAME at tick A of a held one gives the host die the
postmark V + L, copies L to ACTIVE, sets PM_VALID, counts PMSET_COUNT modulo its width, empties the host launch queue,
puts CODE 1 and bits 23 to 0 of V + L into TIM_FASTCMD_LAST, and takes RUNNING to READY. (R41, R42, R43,
02_time_and_postmarks.md) -/
def Obligations.PostmarkSetRenamesAtTickA : Prop :=
  (∀ (s : State) (v : PM), s.tm.clk = true → s.tm.pmSet = none → s.tm.lastRen = none →
    ∃ t, exec (.postmarkSet v true 0) s = .next t ∧
      t.tm.pmSet = some ⟨s.tm.tick - 1, v, BitVec.ofNat 12 (s.fld TIM_FIXED_LATENCY_LATENCY)⟩ ∧
      t.tm.hpm = s.tm.hpm ∧ Keeps (foot [.reg GLB_DETERMINISM, .reg TIM_STATUS, .reg LNK_DEADLETTER_COUNT, .reg
          LNK_SLOWCTL_STATUS, .reg (ENG_STATUS 0x600), .reg (ENG_STATUS 0x1B00), .flt, .win .lnk, .recTick, .tm, .bar,
          .faults, .cou, .bru, .lnk, .free, .srcs]) s t) ∧
  (∀ (s : State) (v : PM) (ok : Bool) (r : BitVec 32), s.tm.clk = true → s.tm.pmSet = none → ok = false ∨ r ≠ 0 →
    ∃ t, exec (.postmarkSet v ok r) s = .next t ∧ t.tm.pmSet = none ∧ t.bit TIM_STATUS_PMSET_REJECT = true) ∧
  (∀ (s : State) (p : PmSet), s.tm.clk = true → s.tm.pmSet = some p → p.tick + 48 = s.tm.tick →
    ∃ t, exec .postmarkRename s = .next t ∧ t.tm.hpm = p.v + BitVec.ofNat 48 p.lat.toNat ∧ t.tm.pmSet = none ∧
      t.fld TIM_FIXED_LATENCY_ACTIVE = p.lat.toNat ∧ t.bit TIM_STATUS_PM_VALID = true ∧ t.hostQ = [] ∧
      t.fld TIM_STATUS_PMSET_COUNT =
        (s.fld TIM_STATUS_PMSET_COUNT + 1) % 2 ^ TIM_STATUS_PMSET_COUNT.len ∧
      t.fld TIM_FASTCMD_LAST_CODE = 1 ∧ t.fld TIM_FASTCMD_LAST_PM_LOW = t.tm.hpm.toNat % 2 ^ 24 ∧
      (s.glb = 7 → t.glb = 6) ∧ (s.glb ≠ 7 → t.glb = s.glb))

/-- Each fast command that takes effect is counted and named in TIM_FASTCMD_LAST, and has its own effect. With the
clock running, each of the ten fast commands that act answers a next state in which ACCEPTED has counted, saturating,
and TIM_FASTCMD_LAST holds its code and bits 23 to 0 of the postmark. Beside that: SHEET_MARK with CHECK_EN stores the
phase and counts MARK_COUNT modulo its width; GAP_OPEN with no window known makes one pending from the next sheet
boundary; GAP_CLOSE on a pending window closes it as empty; TRIG at a name that no reason refuses counts
EVT_COUNT.TRIG; CAL_FIRE with an open window, where the field die has it, asks for a trace check; RUN in READY gives
RUNNING; HALT in RUNNING gives READY; EPOCH_ADVANCE makes the host epoch the next one modulo 4; DRAPE puts a commanded
drape in force and UNDRAPE ends it. The model's log entries name where the field part of a command stands. (R47, R285,
R46, R54, R28, R300, R328, R177, R56) -/
def Obligations.FastCommandsTakeEffect : Prop :=
  ∀ s : State, s.tm.clk = true →
    (∀ c ∈ [(Instr.sheetMark, 0x02), (.gapOpen, 0x10), (.gapClose, 0x11), (.trig, 0x20), (.calFire, 0x30), (.run, 0x40),
        (.halt, 0x41), (.epochAdvance, 0x50), (.drape, 0xE0), (.undrape, 0xE1)],
      ∃ t, exec c.1 s = .next t ∧ t.pending = s.pending ∧ t.fld TIM_FASTCMD_LAST_CODE = c.2 ∧
        t.fld TIM_FASTCMD_LAST_PM_LOW = s.tm.hpm.toNat % 2 ^ 24 ∧
        t.fld TIM_FASTCMD_COUNT_ACCEPTED = min (s.fld TIM_FASTCMD_COUNT_ACCEPTED + 1)
          (2 ^ TIM_FASTCMD_COUNT_ACCEPTED.len - 1)) ∧
    (s.bit TIM_SHEET_ALIGN_CHECK_EN = true → ∃ t, exec .sheetMark s = .next t ∧ Keeps (foot [.reg GLB_DETERMINISM,
        .reg TIM_SHEET_ALIGN, .reg TIM_FASTCMD_COUNT, .reg TIM_FASTCMD_LAST, .reg LNK_DEADLETTER_COUNT, .reg
        (ENG_STATUS 0x600), .reg (ENG_STATUS 0x1B00), .flt, .win .lnk, .recTick, .bar, .faults, .cou, .bru, .lnk,
        .free, .srcs]) s t ∧
      t.fld TIM_SHEET_ALIGN_LAST_PHASE = s.tm.hpm.toNat % 64 ∧
      t.fld TIM_SHEET_ALIGN_MARK_COUNT =
        (s.fld TIM_SHEET_ALIGN_MARK_COUNT + 1) % 2 ^ TIM_SHEET_ALIGN_MARK_COUNT.len ∧
      (s.tm.hpm.toNat % 64 ≠ 0 → t.bit TIM_SHEET_ALIGN_MISMATCH = true) ∧
      (s.tm.hpm.toNat % 64 = 0 → t.bit TIM_SHEET_ALIGN_MISMATCH = s.bit TIM_SHEET_ALIGN_MISMATCH)) ∧
    (s.gap = none → ∃ t, exec .gapOpen s = .next t ∧ Keeps (foot [.reg TIM_GAP_COUNT, .reg TIM_FASTCMD_COUNT, .reg
        TIM_FASTCMD_LAST, .gap]) s t ∧
      t.gap = some ⟨sheetAtOrAfter s.tm.hpm, none, false⟩) ∧
    (∀ w, s.gap = some w → w.isOpen = false → w.closes = none → ∃ t, exec .gapClose s = .next t ∧
      Keeps (foot [.reg GLB_DETERMINISM, .reg TIM_GAP_COUNT, .reg TIM_FASTCMD_COUNT, .reg TIM_FASTCMD_LAST, .reg
          LNK_DEADLETTER_COUNT, .reg (ENG_STATUS 0x600), .reg CAL_STATUS, .reg CAL_DEFER_COUNT, .reg (ENG_STATUS
          0x1B00), .flt, .win .lnk, .win .nul, .win .cal, .recTick, .gap, .bar, .faults, .cou, .bru, .col, .nul, .lnk,
          .cal, .free] ||| foot [.srcs]) s t ∧ t.gap = none ∧
      t.fld TIM_GAP_COUNT_EMPTY = min (s.fld TIM_GAP_COUNT_EMPTY + 1) (2 ^ TIM_GAP_COUNT_EMPTY.len - 1)) ∧
    (s.trigReason (s.fragFor s.tm.hpm) = 0 → ∃ t, exec .trig s = .next t ∧ Keeps (foot [.reg GLB_DETERMINISM, .reg
        TIM_FASTCMD_COUNT, .reg TIM_FASTCMD_LAST, .reg LNK_DEADLETTER_COUNT, .reg (ENG_STATUS 0x600), .reg EVT_COUNT,
        .reg EVT_LOST, .reg EVT_STATUS, .reg (ENG_STATUS 0x1B00), .flt, .win .lnk, .recTick, .bar, .faults, .cou,
        .bru, .evt, .lnk, .free, .srcs]) s t ∧
      t.fld EVT_COUNT_TRIG = min (s.fld EVT_COUNT_TRIG + 1) (2 ^ EVT_COUNT_TRIG.len - 1)) ∧
    (s.windowOpen = true → s.fieldHas 0x30 = true → ∃ t, exec .calFire s = .next t ∧ Keeps (foot [.reg
        TIM_FASTCMD_COUNT, .reg TIM_FASTCMD_LAST, .cal]) s t ∧
      t.cal.fire = true) ∧
    (s.glb = 6 → ∃ t, exec .run s = .next t ∧ Keeps (foot [.reg GLB_STATE, .reg GLB_DETERMINISM, .reg
        TIM_FASTCMD_COUNT, .reg TIM_FASTCMD_LAST, .reg (ENG_BREAK 0x600), .reg NUL_PRIMER_CTRL, .reg (ENG_BREAK
        0x1B00), .win .nul, .cou, .bru, .col, .nul, .cfg]) s t ∧ t.glb = 7) ∧
    (s.glb = 7 → ∃ t, exec .halt s = .next t ∧ Keeps (foot [.reg GLB_STATE, .reg GLB_DETERMINISM, .reg
        TIM_FASTCMD_COUNT, .reg TIM_FASTCMD_LAST, .cou, .bru]) s t ∧ t.glb = 6) ∧
    (∃ t, exec .epochAdvance s = .next t ∧ Keeps (foot [.reg TIM_FASTCMD_COUNT, .reg TIM_FASTCMD_LAST, .reg LNK_EPOCH,
        .reg (ENG_STATUS 0x600), .reg (ENG_STATUS 0x1B00), .bar, .cou, .bru, .free]) s t ∧ t.bar.hostEpoch =
        s.bar.hostEpoch + 1) ∧
    (∃ t, exec .drape s = .next t ∧ Keeps (foot [.reg GLB_DETERMINISM, .reg TIM_FASTCMD_COUNT, .reg TIM_FASTCMD_LAST,
        .reg LNK_DEADLETTER_COUNT, .reg (ENG_STATUS 0x600), .reg CAL_STATUS, .reg CAL_DEFER_COUNT, .reg (ENG_STATUS
        0x1B00), .flt, .win .lnk, .win .nul, .win .cal, .recTick, .bar, .pin, .faults, .cou, .bru, .pal, .pwr, .col,
        .nul, .lnk, .cal] ||| foot [.free, .srcs]) s t ∧ t.pin.commanded = true) ∧
    (∃ t, exec .undrape s = .next t ∧ Keeps (foot [.reg GLB_DETERMINISM, .reg TIM_FASTCMD_COUNT, .reg
        TIM_FASTCMD_LAST, .reg LNK_DEADLETTER_COUNT, .reg (ENG_STATUS 0x600), .reg CAL_STATUS, .reg CAL_DEFER_COUNT,
        .reg (ENG_STATUS 0x1B00), .flt, .win .lnk, .win .nul, .win .cal, .recTick, .bar, .pin, .faults, .cou, .bru,
        .pal, .pwr, .col, .nul, .lnk, .cal] ||| foot [.free, .srcs]) s t ∧ t.pin.commanded = false)

/-- A pending window opens and counts; a closing one is gone with its sheets in LAST_SHEETS; one at its limit is
forced. With the clock running: QUIET_WINDOW_OPEN on a pending window makes it open and counts WINDOWS, saturating.
QUIET_WINDOW_CLOSE on a window with its closing boundary b known, with no calibration result waiting, leaves no window
and LAST_SHEETS holds the number of sheets from its opening to b, at most 65535. GAP_LIMIT_CLOSE on an open window
without a closing boundary sets FORCED and gives the window a closing boundary. (R54, R55, R56,
02_time_and_postmarks.md) -/
def Obligations.QuietWindowsOpenAndClose : Prop :=
  ∀ (s : State) (w : Gap), s.tm.clk = true → s.gap = some w →
    (w.isOpen = false → ∃ t, exec .quietWindowOpen s = .next t ∧ Keeps (foot [.reg GLB_DETERMINISM, .reg
        TIM_GAP_COUNT, .reg LNK_DEADLETTER_COUNT, .reg (ENG_STATUS 0x600), .reg (HKx_CTRL 0x1700), .reg (HKx_STATUS
        0x1700), .reg (HKx_OVERRUN_COUNT 0x1700), .reg (HKx_CTRL 0x1800), .reg (HKx_STATUS 0x1800), .reg
        (HKx_OVERRUN_COUNT 0x1800), .reg HKS_EXC_STATUS, .reg CAL_TRACE_STATUS, .reg (ENG_STATUS 0x1B00), .flt, .win
        .lnk, .recTick, .gap, .bar, .faults, .cou, .bru, .lnk, .hka, .hkb] ||| foot [.cal, .free, .srcs]) s t ∧
      t.gap = some { w with isOpen := true } ∧
      t.fld TIM_GAP_COUNT_WINDOWS = min (s.fld TIM_GAP_COUNT_WINDOWS + 1) (2 ^ TIM_GAP_COUNT_WINDOWS.len - 1)) ∧
    (∀ b, w.closes = some b → s.cal.pend = [] → ∃ t, exec .quietWindowClose s = .next t ∧
      Keeps (foot [.reg GLB_DETERMINISM, .reg TIM_GAP_STATUS, .reg TIM_GAP_COUNT, .reg LNK_DEADLETTER_COUNT, .reg
          CFG_STORE_STATUS, .reg (ENG_STATUS 0x600), .reg NUL_PRIMER_CTRL, .reg CAL_STATUS, .reg CAL_DEFER_COUNT, .reg
          CAL_LAST_POSTMARK_LO, .reg CAL_LAST_POSTMARK_HI, .reg (ENG_STATUS 0x1B00), .flt, .win .lnk, .win .col, .win
          .nul, .win .cal, .recTick, .gap, .bar, .faults, .cou, .bru, .nul] ||| foot [.lnk, .cal, .cfg, .free, .srcs])
          s t ∧ t.gap = none ∧
      t.fld TIM_GAP_STATUS_LAST_SHEETS = min (gapSheets w.opens b) 65535) ∧
    (w.isOpen = true → w.closes = none → ∃ t, exec .gapLimitClose s = .next t ∧ Keeps (foot [.reg GLB_DETERMINISM,
        .reg TIM_GAP_STATUS, .reg TIM_GAP_COUNT, .reg LNK_DEADLETTER_COUNT, .reg (ENG_STATUS 0x600), .reg CAL_STATUS,
        .reg CAL_DEFER_COUNT, .reg (ENG_STATUS 0x1B00), .flt, .win .lnk, .win .nul, .win .cal, .recTick, .gap, .bar,
        .faults, .cou, .bru, .col, .nul, .lnk, .cal, .free, .srcs]) s t ∧
      t.bit TIM_GAP_STATUS_FORCED = true ∧ ∃ b, t.gap = some { w with closes := some b })

/-- DRAPE_N and FIELD_DRAPE_N take their levels; FIELD_DRAPE_N low drapes at once; an invalid drape lane drapes the
field die. DRAPE_N_CHANGE stores the level and changes nothing else: the host die sees it after its synchroniser.
FIELD_DRAPE_N_CHANGE stores the level, and with level 0 the field die is draped, with and without the clock; where the
lane signals no drape, level 1 ends it. DRAPE_LANE_INVALID with the clock and the field supply, in a state where the
lane was valid, marks the lane invalid, counts INVALID_DRAPE, saturating, and the field die is draped. (R28, R38,
R274, R96) -/
def Obligations.DrapePinsAndLane : Prop :=
  (∀ (s : State) (level : Bool), exec (.drapeNChange level) s = .next { s with pin := { s.pin with drapeN := level }
      }) ∧
  (∀ (s : State) (level : Bool), ∃ t, exec (.fieldDrapeNChange level) s = .next t ∧
    Keeps (foot [.reg GLB_DETERMINISM, .reg LNK_DEADLETTER_COUNT, .reg (ENG_STATUS 0x600), .reg CAL_STATUS, .reg
        CAL_DEFER_COUNT, .reg (ENG_STATUS 0x1B00), .flt, .win .lnk, .win .nul, .win .cal, .recTick, .bar, .pin,
        .faults, .cou, .bru, .pal, .pwr, .col, .nul, .lnk, .cal, .free, .srcs]) s t ∧ t.pin = { s.pin with fieldDrapeN
        := level } ∧
    (level = false → t.draped = true) ∧
    (level = true → s.pin.laneDrape = false → s.pin.laneInvalid = false → t.draped = false)) ∧
  (∀ s : State, s.tm.clk = true → s.pin.fieldPower = true → s.pin.laneInvalid = false →
    ∃ t, exec .drapeLaneInvalid s = .next t ∧ Keeps (foot [.reg GLB_DETERMINISM, .reg LNK_DEADLETTER_COUNT, .reg
        (ENG_STATUS 0x600), .reg CAL_STATUS, .reg CAL_DEFER_COUNT, .reg (ENG_STATUS 0x1B00), .reg FBA_STATUS, .flt,
        .win .lnk, .win .nul, .win .cal, .recTick, .bar, .pin, .faults, .cou, .bru, .pal, .pwr, .col, .nul, .lnk,
        .cal, .free] ||| foot [.srcs]) s t ∧ t.pin.laneInvalid = true ∧
      t.draped = true ∧
      t.fld FBA_STATUS_INVALID_DRAPE = min (s.fld FBA_STATUS_INVALID_DRAPE + 1)
        (2 ^ FBA_STATUS_INVALID_DRAPE.len - 1))

/-- Slow-control frames: a read is answered at its fixed tick, a field index waits, wrong and reserved ones get their
status, damaged ones are dropped. SLOWCTL_READ carries every frame whose OP is neither WRITE nor launched WRITE. With
the clock: a damaged frame, or one that a POSTMARK_SET stands in the way of, counts DROPPED. Otherwise, with the right
NODE and SC_EN = 1: OP 4 to 15 is answered with STATUS 11; an index of the other frame with STATUS 8; a READ of a host
index with STATUS 1 and what the index shows once Courier has been asked; a field index waits for the field die where
the barrier is up and is answered with STATUS 10 where it is not. A reply leaves 64 ticks after completion for frame
A, 96 for frame B, behind the replies that wait. (R286, R287, R288, R289, 13_links.md) -/
def Obligations.SlowControlFramesAreServed : Prop :=
  ∀ (s : State) (f : ScFrame), s.tm.clk = true → reqFld f 159 156 ≠ 2 → reqFld f 159 156 ≠ 3 →
    ((f.damaged = true ∨ s.scBlocked = true) → ∃ t, exec (.slowctlRead f) s = .next t ∧
      Keeps (foot [.reg LNK_SLOWCTL_STATUS]) s t ∧ t.fld LNK_SLOWCTL_STATUS_DROPPED =
        min (s.fld LNK_SLOWCTL_STATUS_DROPPED + 1) (2 ^ LNK_SLOWCTL_STATUS_DROPPED.len - 1)) ∧
    (f.damaged = false → s.scBlocked = false → reqFld f 155 148 = s.fld LNK_NODE_ADDRESS_NODE →
      s.bit LNK_CTRL_SC_EN = true → reqFld f 159 156 ≠ 0 → ∃ t, exec (.slowctlRead f) s = .next t ∧
      Keeps (foot [.anyReg, .anyWin, .recTick, .timers, .hostQ, .fieldQ, .held, .gap, .tm, .bar, .faults, .cou, .bru,
          .pal, .pwr, .col, .nul, .var, .str, .evt, .lnk, .hka, .hkb, .refOnAt] ||| foot [.cal, .mgt, .cfg, .flash,
          .free, .winAddrs, .srcs]) s t ∧
      let idx := reqFld f 143 128
      let fieldIdx : Bool := decide (0x1000 ≤ idx) && decide (idx < 0x2000)
      let due := s.tm.tick + if f.posB then 96 else 64
      (4 ≤ reqFld f 159 156 →
        t.lnk.replies = s.lnk.replies ++ [⟨f.posB, due, replyBits 11 (reqFld f 147 144) idx 0⟩]) ∧
      (reqFld f 159 156 = 1 → fieldIdx ≠ f.posB →
        t.lnk.replies = s.lnk.replies ++ [⟨f.posB, due, replyBits 8 (reqFld f 147 144) idx 0⟩]) ∧
      (reqFld f 159 156 = 1 → fieldIdx = false → f.posB = false →
        t.lnk.replies = s.lnk.replies ++ [⟨f.posB, due, replyBits 1 (reqFld f 147 144) idx (s.scAsk.shown .slow
            idx)⟩]) ∧
      (reqFld f 159 156 = 1 → fieldIdx = true → f.posB = true →
        (s.barUp = false →
          t.lnk.replies = s.lnk.replies ++ [⟨f.posB, due, replyBits 10 (reqFld f 147 144) idx 0⟩]) ∧
        (s.barUp = true → t.lnk.replies = s.lnk.replies ∧
          t.lnk.scWait = s.lnk.scWait ++ [⟨reqFld f 147 144, 1, idx, BitVec.ofNat 32 (reqFld f 127 96),
            BitVec.ofNat 48 (reqFld f 95 48), s.tm.tick⟩])))

/-- Slow-control writes act as host writes and answer; a launched one answers its code plus 2; a late field answer is
STATUS 9. With the clock, for an undamaged frame that no POSTMARK_SET stands in the way of, with the right NODE, SC_EN
= 1, in frame A and with a host index: SLOWCTL_WRITE is the unlaunched write of the value by slow control, once
Courier has been asked, and a reply with STATUS 1 and the value that leaves 64 ticks later; SLOWCTL_LAUNCHED_WRITE is
decided by Table 02-2, and its reply carries the code plus 2. With a field index in frame B and the barrier up, either
waits for the field die. SLOWCTL_REPLY_TIMEOUT for a TAG that a request waits under ends that wait with STATUS 9 and
all ones, 96 ticks after the request. (R48, R49, R287, R288, R289) -/
def Obligations.SlowControlWritesAndTimeouts : Prop :=
  (∀ (s : State) (f : ScFrame), s.tm.clk = true → f.damaged = false → s.scBlocked = false →
    reqFld f 155 148 = s.fld LNK_NODE_ADDRESS_NODE → s.bit LNK_CTRL_SC_EN = true →
    let idx := reqFld f 143 128
    let tag := reqFld f 147 144
    let v : Word := BitVec.ofNat 32 (reqFld f 127 96)
    let pm : PM := BitVec.ofNat 48 (reqFld f 95 48)
    let fieldIdx : Bool := decide (0x1000 ≤ idx) && decide (idx < 0x2000)
    (reqFld f 159 156 = 2 → fieldIdx = false → f.posB = false →
      ∃ t, exec (.slowctlWrite f) s = .next t ∧ Keeps (foot [.anyReg, .anyWin, .recTick, .timers, .hostQ, .fieldQ,
          .held, .gap, .tm, .bar, .faults, .cou, .bru, .pal, .pwr, .col, .nul, .var, .str, .evt, .lnk, .hka, .hkb,
          .refOnAt] ||| foot [.cal, .mgt, .cfg, .flash, .free, .winAddrs, .srcs]) s t ∧
        t = (s.scAsk.writeReg .slow idx v).scReply false s.tm.tick 1 tag idx v) ∧
    (reqFld f 159 156 = 3 → fieldIdx = false → f.posB = false → (blkOf idx).isSome = true →
      ∃ t, exec (.slowctlLaunchedWrite f) s = .next t ∧ Keeps (foot [.anyReg, .anyWin, .recTick, .timers, .hostQ,
          .fieldQ, .held, .gap, .tm, .bar, .faults, .cou, .bru, .pal, .pwr, .col, .nul, .var, .str, .evt, .lnk, .hka,
          .hkb, .refOnAt] ||| foot [.cal, .mgt, .cfg, .flash, .free, .winAddrs, .srcs]) s t ∧
        t = (s.scAsk.launchReg .slow idx v pm .plain tag).2.scReply false s.tm.tick
          ((s.scAsk.launchReg .slow idx v pm .plain tag).1 + 2) tag idx v) ∧
    (fieldIdx = true → f.posB = true → s.barUp = true →
      (reqFld f 159 156 = 2 → ∃ t, exec (.slowctlWrite f) s = .next t ∧
        t.lnk.scWait = s.lnk.scWait ++ [⟨tag, 2, idx, v, pm, s.tm.tick⟩] ∧ t.lnk.replies = s.lnk.replies) ∧
      (reqFld f 159 156 = 3 → ∃ t, exec (.slowctlLaunchedWrite f) s = .next t ∧
        t.lnk.scWait = s.lnk.scWait ++ [⟨tag, 3, idx, v, pm, s.tm.tick⟩] ∧ t.lnk.replies = s.lnk.replies))) ∧
  (∀ (s : State) (tag : BitVec 4) (w : ScWait), s.tm.clk = true →
    s.lnk.scWait.find? (fun x => x.tag == tag.toNat) = some w →
    ∃ t, exec (.slowctlReplyTimeout tag) s = .next t ∧ Keeps (foot [.lnk]) s t ∧
      t.lnk.replies = s.lnk.replies ++ [⟨true, w.done + 96, replyBits 9 w.tag w.idx (BitVec.allOnes 32)⟩] ∧
      t.lnk.scWait = s.lnk.scWait.filter (fun x => x != w))

/-- REGISTER_WRITE of a plain register: RW bits take the value, W1C bits written as 1 clear, and nothing else of the
state changes. For every register of the list instantRegs (those of the GLB, TIM, BAR, LNK, MGT, CFG, COU, BRU, FGL
and FBA blocks whose write does nothing but store their fields on arrival), every master and every value, with the
clock and the field supply: REGISTER_WRITE answers a next state in which each RW bit of the register holds the bit of
the value (its limited fields held to their range), each W1C bit written as 1 is 0, every other bit is as it was, and
nothing else of the state has changed. (R12, R13, R48, 18_register_map.md) -/
def Obligations.PlainRegisterWritesStoreTheirBits : Prop :=
  ∀ i ∈ instantRegs, ∀ (s : State) (m : Master) (v : Word), s.tm.clk = true → s.pin.fieldPower = true →
    ∃ t, exec (.registerWrite m (BitVec.ofNat 16 i) v) s = .next t ∧ Keeps (foot [.reg i]) s t ∧
      ∀ j < 32, (t.reg i).getLsbD j = s.bitWritten i v j

/-- A write that needs a boundary changes no field on arrival and waits; HELD_WRITE_APPLY stores it at the boundary.
For every register of the list boundaryRegs, with the clock and the field supply: REGISTER_WRITE by any master clears
the W1C bits written as 1, changes no other bit of the register, and appends the write to the held writes with this
tick as its arrival. HELD_WRITE_APPLY, where the first held write of that die whose boundary this tick is names such a
register: each RW bit takes the bit of the stored value, every other bit stays, that write leaves the held writes, and
beside the register only GLB_DETERMINISM, the fault record and the power state may change. With no held write due it
changes nothing. (R48, R402, R8, 02_time_and_postmarks.md) -/
def Obligations.WritesWaitForTheirBoundary : Prop :=
  (∀ i ∈ boundaryRegs, ∀ (s : State) (m : Master) (v : Word), s.tm.clk = true → s.pin.fieldPower = true →
    ∃ t, exec (.registerWrite m (BitVec.ofNat 16 i) v) s = .next t ∧ Keeps (foot [.reg i, .held]) s t ∧
      (∀ j < 32, (t.reg i).getLsbD j =
        ((s.reg i).getLsbD j && !((maskOf i (fun r => r.w1c)).testBit j && v.getLsbD j))) ∧
      t.held = s.held ++ [⟨decide (0x1000 ≤ i), s.wrAlign i v 0 != 16, s.tm.tick, i, v, m, 0⟩]) ∧
  (∀ (s : State) (d : Die) (n : Nat) (h : HeldWr), s.tm.clk = true → s.pin.fieldPower = true →
    s.held.findIdx? (fun h => h.field == (d == Die.field) && s.heldDue h) = some n → s.held[n]? = some h →
    h.idx ∈ boundaryRegs → ∃ t, exec (.heldWriteApply d) s = .next t ∧
      Keeps (foot [.reg h.idx, .reg GLB_DETERMINISM, .faults, .pwr, .held]) s t ∧
      t.held = s.held.take n ++ s.held.drop (n + 1) ∧
      ∀ j < 32, (t.reg h.idx).getLsbD j =
        if (maskOf h.idx (fun r => r.rw)).testBit j then (storedValue h.idx h.val).getLsbD j
        else (s.reg h.idx).getLsbD j) ∧
  (∀ (s : State) (d : Die), s.held.findIdx? (fun h => h.field == (d == Die.field) && s.heldDue h) = none →
    exec (.heldWriteApply d) s = .next s)

/-- LAUNCH_ENTRY_APPLY applies the first entry whose postmark this tick bears, whole, and it leaves its queue. With
the clock and the field supply, where the n-th entry is the first of the queue of a die whose postmark is that of the
die, is a plain or an armed entry and names a register of instantRegs or boundaryRegs: LAUNCH_ENTRY_APPLY answers a
next state in which every bit of the register is as the write leaves it (RW and W1C bits together), the queue has lost
that entry and no other, the other queue and the held writes are as they were, and no window table has changed. With
no entry for this tick it changes nothing. (R50, R49, R48, 02_time_and_postmarks.md) -/
def Obligations.LaunchedWritesApplyAtTheirPostmark : Prop :=
  (∀ (s : State) (d : Die) (n : Nat) (e : LEntry), s.tm.clk = true → s.pin.fieldPower = true →
    (s.queue d).findIdx? (fun e => e.pm == s.pmOf d) = some n → (s.queue d)[n]? = some e →
    e.kind = .plain ∨ e.kind = .armed → e.idx ∈ instantRegs ++ boundaryRegs →
    ∃ t, exec (.launchEntryApply d) s = .next t ∧
      Keeps (foot [.reg e.idx, .reg GLB_DETERMINISM, .hostQ, .fieldQ, .faults, .cou, .bru, .pwr]) s t ∧
      t.queue d = (s.queue d).take n ++ (s.queue d).drop (n + 1) ∧ t.held = s.held ∧
      (d = .host → t.fieldQ = s.fieldQ) ∧ (d = .field → t.hostQ = s.hostQ) ∧
      ∀ j < 32, (t.reg e.idx).getLsbD j = s.bitWritten e.idx e.val j) ∧
  (∀ (s : State) (d : Die), (s.queue d).findIdx? (fun e => e.pm == s.pmOf d) = none →
    exec (.launchEntryApply d) s = .next s)

/-- A launched write is decided by Table 02-2: UNSET, ALIGN, LATE, FAR and FULL in this order, else QUEUED at the end
of its queue. For every die, entry and state: the decision of a launched write that is not a SET of LNK_EPOCH is code
5 without PM_VALID; else 4 where the postmark is no multiple of the spacing the target needs; else 1 where the
distance d from the postmark of the die is 0 or at least 2^47; else 2 where d exceeds 2^40; else 3 where the queue
holds 64 entries or more; else 0. With code 0 the entry, with its postmark, index, value and master, is the last of
the queue and the other queue is as it was; with another code both queues are as they were. (R49, R300,
02_time_and_postmarks.md) -/
def Obligations.LaunchAcceptanceFollowsTheTable : Prop :=
  ∀ (s : State) (d : Die) (e : LEntry), e.idx ≠ LNK_EPOCH ∨ e.val.getLsbD 31 = false →
    let dist := (e.pm - s.pmOf d).toNat
    let code : Nat :=
      if s.bit TIM_STATUS_PM_VALID = false then 5
      else if e.pm.toNat % s.wrAlign e.idx e.val e.wa ≠ 0 then 4
      else if dist = 0 ∨ 2 ^ 47 ≤ dist then 1
      else if 2 ^ 40 < dist then 2
      else if 64 ≤ (s.queue d).length then 3 else 0
    (s.launchWrite d e).1 = code ∧
    (code = 0 → (s.launchWrite d e).2.queue d = s.queue d ++ [e]) ∧
    (code ≠ 0 → (s.launchWrite d e).2.queue d = s.queue d) ∧
    (d = .host → (s.launchWrite d e).2.fieldQ = s.fieldQ) ∧ (d = .field → (s.launchWrite d e).2.hostQ = s.hostQ)

/-- WIN_DATA_ACCESS uses and advances only the copy of its master, and a write reaches the word where the table takes
it. With the clock and the field supply, for every block with a window and every master: WIN_DATA_ACCESS, a read or a
write, advances the window address of that master by 1 modulo its width and leaves every other copy, of any block, as
it was. A write stores a primer word while no CAPTURE runs; a data word of an engine at 0x4400 to 0x47FF by a master
that is not the engine; a word of the inactive coefficient bank while no copy runs (two bits of an eighth word); and
sets WIN_REJECT, storing nothing, for a word of the active one. (R371, R372, R82, R159, R234, R296) -/
def Obligations.WindowAccessMovesTheMastersAddress : Prop :=
  (∀ (s : State) (m : Master) (b : Blk) (wr : Option Word), s.tm.clk = true → s.pin.fieldPower = true → winWidth b ≠ 0 →
    ∃ t, exec (.winDataAccess m b wr) s = .next t ∧ Keeps (foot [.anyReg, .anyWin, .recTick, .timers, .hostQ, .fieldQ,
        .held, .gap, .tm, .bar, .faults, .cou, .bru, .pal, .pwr, .col, .nul, .var, .str, .evt, .lnk, .hka, .hkb,
        .refOnAt] ||| foot [.cal, .mgt, .cfg, .flash, .free, .winAddrs, .srcs]) s t ∧
      t.winAddr b (masterCode m) = (s.winAddr b (masterCode m) + 1) % 2 ^ winWidth b ∧
      ∀ c k, k < 8 → (c ≠ b ∨ k ≠ masterCode m) → t.winAddr c k = s.winAddr c k) ∧
  (∀ (s : State) (m : Master) (v : Word), s.tm.clk = true → s.pin.fieldPower = true →
    (∀ a, s.winAddr .nul (masterCode m) = a → 0x1000 ≤ a → a < 0x2000 → s.bit NUL_PRIMER_CTRL_CAPTURE_BUSY = false →
      ∃ t, exec (.winDataAccess m .nul (some v)) s = .next t ∧ t.win .nul a = BitVec.ofNat 24 v.toNat) ∧
    (∀ e a, s.winAddr (engBlk e) (masterCode m) = a → 0x4400 ≤ a → a < 0x4800 → masterEng m ≠ some e →
      ∃ t, exec (.winDataAccess m (engBlk e) (some v)) s = .next t ∧ t.win (engBlk e) a = BitVec.ofNat 24 v.toNat) ∧
    (∀ a, s.winAddr .var (masterCode m) = a → a < 0x8000 →
      ((if a < 0x4000 then 0 else 0x4000) ≠ s.varActive → s.bit VAR_CTRL_COPY_BUSY = false →
        ∃ t, exec (.winDataAccess m .var (some v)) s = .next t ∧
          t.winN .var a = if a % 8 = 7 then v.toNat % 4 else v.toNat % 2 ^ 24) ∧
      ((if a < 0x4000 then 0 else 0x4000) = s.varActive →
        ∃ t, exec (.winDataAccess m .var (some v)) s = .next t ∧ t.win .var a = s.win .var a ∧
          t.bit VAR_CTRL_WIN_REJECT = true)))

/-- TIM_LAUNCH_ARM sets ARM and BURST; TIM_LAUNCH_FLUSH removes the armed entries of both queues, in order, and counts
them. With the clock: TIM_LAUNCH_ARM sets ARM, gives BURST the stated level and changes nothing but TIM_LAUNCH_ACTION.
TIM_LAUNCH_FLUSH leaves in each queue exactly the entries that were not queued through ARM, in their order, counts the
removed ones in REJECT_COUNT, saturating, and changes beside that only the marks of the engines' waits. (R50, R52,
02_time_and_postmarks.md) -/
def Obligations.LaunchArmAndFlush : Prop :=
  (∀ (s : State) (burst : Bool), s.tm.clk = true → ∃ t, exec (.timLaunchArm burst) s = .next t ∧
    Keeps (foot [.reg TIM_LAUNCH_ACTION]) s t ∧ t.bit TIM_LAUNCH_ACTION_ARM = true ∧
    t.bit TIM_LAUNCH_ACTION_BURST = burst) ∧
  (∀ s : State, s.tm.clk = true → ∃ t, exec .timLaunchFlush s = .next t ∧ Keeps (foot [.reg TIM_LAUNCH_STATUS, .reg
      LNK_SCHED_SEL, .reg PAL_STATUS, .hostQ, .fieldQ, .cou, .bru]) s t ∧
    t.hostQ = s.hostQ.filter (fun e => e.kind != .armed) ∧ t.fieldQ = s.fieldQ.filter (fun e => e.kind != .armed) ∧
    t.bit PAL_STATUS_SWAP_PENDING = s.bit PAL_STATUS_SWAP_PENDING ∧
    t.bit LNK_SCHED_SEL_PENDING = s.bit LNK_SCHED_SEL_PENDING ∧
    t.fld TIM_LAUNCH_STATUS_REJECT_COUNT = min (s.fld TIM_LAUNCH_STATUS_REJECT_COUNT +
      (s.hostQ.filter (fun e => e.kind == .armed)).length + (s.fieldQ.filter (fun e => e.kind == .armed)).length)
      (2 ^ TIM_LAUNCH_STATUS_REJECT_COUNT.len - 1))

/-- RD_LO fills the pair hold, RD_HI takes it, RD and RDN send both halves; beside the hold only the port's status
changes. With no broken half-word to report, for an index i of 0 to 2 (which the port serves with and without the tick
clock) and the value v that it shows: RD_LO sends bits 15 to 0 of v, puts bits 31 to 16 into HOLD.HIGH and i into
HOLD.INDEX and sets HOLD_VALID; RD sends both halves and leaves HOLD_VALID 0; RDN of n pairs sends them n times. RD_HI
of any index that the valid hold names sends HOLD.HIGH and clears HOLD_VALID; HIGH and INDEX keep their values. Each
frame counts TRANSACTIONS modulo 2^16, and nothing beside MGT_STATUS, MGT_PAIR_HOLD and the port's own state changes.
(R307, R308, R309, R313, 14_management_port.md) -/
def Obligations.ManagementReadsSendTheirHalves : Prop :=
  ∀ (s : State) (i : BitVec 16), s.mgt.abort = false →
    (i.toNat ≤ 2 →
      let lo : BitVec 16 := BitVec.ofNat 16 ((s.mgtShown i.toNat).toNat % 2 ^ 16)
      let hi : BitVec 16 := BitVec.ofNat 16 ((s.mgtShown i.toNat).toNat / 2 ^ 16)
      (∃ t, exec (.rdLo i) s = .next t ∧ Keeps (foot [.reg MGT_STATUS, .reg MGT_PAIR_HOLD, .mgt]) s t ∧
        t.mgt.out = [lo] ∧ t.fld MGT_PAIR_HOLD_INDEX = i.toNat ∧ t.fld MGT_PAIR_HOLD_HIGH = hi.toNat ∧
        t.bit MGT_STATUS_HOLD_VALID = true ∧
        t.fld MGT_STATUS_TRANSACTIONS = (s.fld MGT_STATUS_TRANSACTIONS + 1) % 2 ^ 16) ∧
      (∃ t, exec (.rd i) s = .next t ∧ Keeps (foot [.reg MGT_STATUS, .reg MGT_PAIR_HOLD, .mgt]) s t ∧
        t.mgt.out = [lo, hi] ∧ t.fld MGT_PAIR_HOLD_INDEX = i.toNat ∧ t.fld MGT_PAIR_HOLD_HIGH = hi.toNat ∧
        t.bit MGT_STATUS_HOLD_VALID = false ∧
        t.fld MGT_STATUS_TRANSACTIONS = (s.fld MGT_STATUS_TRANSACTIONS + 1) % 2 ^ 16) ∧
      (∀ n, ∃ t, exec (.rdn i n) s = .next t ∧ Keeps (foot [.reg MGT_STATUS, .reg MGT_PAIR_HOLD, .mgt]) s t ∧
        t.mgt.out = (List.replicate n [lo, hi]).flatten ∧
        t.fld MGT_STATUS_TRANSACTIONS = (s.fld MGT_STATUS_TRANSACTIONS + 1) % 2 ^ 16)) ∧
    (s.bit MGT_STATUS_HOLD_VALID = true → s.fld MGT_PAIR_HOLD_INDEX = i.toNat →
      ∃ t, exec (.rdHi i) s = .next t ∧ Keeps (foot [.reg MGT_STATUS, .mgt]) s t ∧
        t.mgt.out = [BitVec.ofNat 16 (s.fld MGT_PAIR_HOLD_HIGH)] ∧ t.bit MGT_STATUS_HOLD_VALID = false ∧
        t.fld MGT_STATUS_TRANSACTIONS = (s.fld MGT_STATUS_TRANSACTIONS + 1) % 2 ^ 16)

/-- WR_LO is held, WR_HI with the held half writes 32 bits at once, WR and WRN write whole values, WRN one a tick
through the buffer. With no broken half-word to report. WR_LO puts the index and the half-word into the write hold and
changes beside that only MGT_STATUS and the port's own state. WR_HI without a held half of its index sets UNPAIRED_WR
and writes nothing. WR_HI with one, WR, and WRN of a list, with the clock and the field supply, WR_EN = 1, ARM = 0, an
empty buffer that may pass a write in this tick, and a host register i of instantRegs outside the MGT block: the first
(or only) 32-bit value is written to i, every bit as a write leaves it, and the other values of a WRN, at most 16,
wait in the buffer in their order. With WR_EN = 0 a WR writes nothing: BLOCKED sets, and beside that only the raise of
MGT source 0 changes anything. (R307, R310, R311, R52, 14_management_port.md) -/
def Obligations.ManagementWritesPairTheirHalves : Prop :=
  ∀ (s : State) (i h : BitVec 16), s.mgt.abort = false →
    (∃ t, exec (.wrLo i h) s = .next t ∧ Keeps (foot [.reg MGT_STATUS, .mgt]) s t ∧
      t.mgt.hold = some (i.toNat, h) ∧ t.mgt.buf = s.mgt.buf) ∧
    ((∀ lo, s.mgt.hold ≠ some (i.toNat, lo)) → ∃ t, exec (.wrHi i h) s = .next t ∧
      Keeps (foot [.reg MGT_STATUS, .mgt]) s t ∧ t.bit MGT_STATUS_UNPAIRED_WR = true ∧ t.mgt.buf = s.mgt.buf) ∧
    (i.toNat ∈ instantRegs → i.toNat < 0x1000 → inMgt i.toNat = false → s.tm.clk = true →
      s.pin.fieldPower = true → s.mgt.buf = [] → s.mgt.next ≤ s.tm.tick →
      s.bit TIM_LAUNCH_ACTION_ARM = false →
      (s.bit MGT_CTRL_WR_EN = true →
        (∀ lo, s.mgt.hold = some (i.toNat, lo) → ∃ t, exec (.wrHi i h) s = .next t ∧
          Keeps (foot [.reg MGT_STATUS, .reg i.toNat, .mgt]) s t ∧ t.mgt.hold = none ∧ t.mgt.buf = [] ∧
          ∀ j < 32, (t.reg i.toNat).getLsbD j =
            s.bitWritten i.toNat (BitVec.ofNat 32 (h.toNat * 2 ^ 16 + lo.toNat)) j) ∧
        (∀ v, ∃ t, exec (.wr i v) s = .next t ∧ Keeps (foot [.reg MGT_STATUS, .reg i.toNat, .mgt]) s t ∧
          t.mgt.buf = [] ∧ ∀ j < 32, (t.reg i.toNat).getLsbD j = s.bitWritten i.toNat v j) ∧
        (∀ v vs, vs.length ≤ 16 → ∃ t, exec (.wrn i (v :: vs)) s = .next t ∧
          Keeps (foot [.reg MGT_STATUS, .reg i.toNat, .mgt]) s t ∧
          t.mgt.buf = vs.map (fun x => ⟨i.toNat, x, none⟩) ∧ t.mgt.next = s.tm.tick + 1 ∧
          ∀ j < 32, (t.reg i.toNat).getLsbD j = s.bitWritten i.toNat v j)) ∧
      (s.bit MGT_CTRL_WR_EN = false → ∀ v, ∃ t, exec (.wr i v) s = .next t ∧
        Keeps (foot [.reg GLB_DETERMINISM, .reg LNK_DEADLETTER_COUNT, .reg MGT_STATUS, .reg (ENG_STATUS 0x600), .reg
            (ENG_STATUS 0x1B00), .flt, .win .lnk, .recTick, .bar, .faults, .cou, .bru, .lnk, .mgt, .free, .srcs]) s t
            ∧ t.mgt.buf = [] ∧ t.bit MGT_STATUS_BLOCKED = true))

/-- An undefined command sets BAD_CMD, a broken half-word is remembered, the buffer passes its first write, late reads
read all ones. MGT_BAD_COMMAND with a code outside Table 14-1 counts TRANSACTIONS and sets BAD_CMD; with a code of the
table it changes nothing. MGT_FRAME_ABORT marks the broken half-word and ends the wait of a read, and nothing else
changes. MGT_WRITE_BUFFER_DRAIN with the clock, where a tick may pass a write and the first one names a host register
of instantRegs without ARM: it is written, it alone leaves the buffer, and the next one waits for the next tick.
MGT_REPLY_TIMEOUT, 88 ticks or more after a low-half read of a field register (no window transfer) completed: TIMEOUT
sets, REPLY counts, saturating, FFFF leaves, HOLD.HIGH is FFFF, and the wait is over; earlier it changes nothing.
MGT_CLOCK_ABSENT without the clock clears CLK, and a low-half read that waits reads FFFF with NOCLK set and counted;
with the clock it changes nothing. (R307, R308, R311, R312, R313, 14_management_port.md) -/
def Obligations.ManagementPortBufferAndLimits : Prop :=
  (∀ (s : State) (c : BitVec 8), s.mgt.abort = false →
    (c.toNat ∉ mgtCommands → ∃ t, exec (.mgtBadCommand c) s = .next t ∧ Keeps (foot [.reg GLB_DETERMINISM, .reg
        LNK_DEADLETTER_COUNT, .reg MGT_STATUS, .reg (ENG_STATUS 0x600), .reg (ENG_STATUS 0x1B00), .flt, .win .lnk,
        .recTick, .bar, .faults, .cou, .bru, .lnk, .mgt, .free, .srcs]) s t ∧
      t.bit MGT_STATUS_BAD_CMD = true ∧
      t.fld MGT_STATUS_TRANSACTIONS = (s.fld MGT_STATUS_TRANSACTIONS + 1) % 2 ^ 16) ∧
    (c.toNat ∈ mgtCommands → exec (.mgtBadCommand c) s = .next s)) ∧
  (∀ s : State, exec .mgtFrameAbort s = .next { s with mgt := { s.mgt with abort := true, wait := none } }) ∧
  (∀ (s : State) (w : MgtWr) (rest : List MgtWr), s.mgt.buf = w :: rest → s.tm.clk = true →
    s.mgt.next ≤ s.tm.tick → w.idx ∈ instantRegs → w.idx < 0x1000 → w.launch = none →
    ∃ t, exec .mgtWriteBufferDrain s = .next t ∧ Keeps (foot [.reg w.idx, .mgt]) s t ∧ t.mgt.buf = rest ∧
      t.mgt.next = s.tm.tick + 1 ∧ ∀ j < 32, (t.reg w.idx).getLsbD j = s.bitWritten w.idx w.val j) ∧
  (∀ (s : State) (r : MgtRead), s.tm.clk = true → s.mgt.wait = some r → mgtField r.tgt = true →
    r.idx < 2 ^ 16 → r.idx ≠ MGT_PAIR_HOLD → r.idx ≠ MGT_BULK_DATA → r.high = false → r.full = false → r.left = 0 →
    (r.done + 88 ≤ s.tm.tick → ∃ t, exec .mgtReplyTimeout s = .next t ∧ Keeps (foot [.anyReg, .win .lnk, .recTick,
        .tm, .bar, .faults, .cou, .bru, .nul, .var, .evt, .lnk, .mgt, .free, .winAddrs, .srcs]) s t ∧
      t.bit MGT_STATUS_TIMEOUT = true ∧ t.mgt.wait = none ∧ t.mgt.out = s.mgt.out ++ [0xFFFF] ∧
      t.fld MGT_PAIR_HOLD_INDEX = r.idx ∧ t.fld MGT_PAIR_HOLD_HIGH = 0xFFFF ∧
      t.bit MGT_STATUS_HOLD_VALID = true ∧
      t.fld MGT_TIMEOUT_COUNT_REPLY = min (s.fld MGT_TIMEOUT_COUNT_REPLY + 1) (2 ^ 16 - 1)) ∧
    (s.tm.tick < r.done + 88 → exec .mgtReplyTimeout s = .next s)) ∧
  (∀ s : State, s.tm.clk = false →
    (s.mgt.wait = none → ∃ t, exec .mgtClockAbsent s = .next t ∧ Keeps (foot [.reg MGT_STATUS]) s t ∧
      t.bit MGT_STATUS_CLK = false) ∧
    (∀ r : MgtRead, s.mgt.wait = some r → r.idx < 2 ^ 16 → r.idx ≠ MGT_PAIR_HOLD → r.idx ≠ MGT_BULK_DATA →
      r.high = false → r.full = false → r.left = 0 → ∃ t, exec .mgtClockAbsent s = .next t ∧
      Keeps (foot [.reg MGT_STATUS, .reg MGT_TIMEOUT_COUNT, .reg MGT_PAIR_HOLD, .mgt]) s t ∧
      t.bit MGT_STATUS_CLK = false ∧ t.bit MGT_STATUS_NOCLK = true ∧ t.mgt.wait = none ∧
      t.mgt.out = s.mgt.out ++ [0xFFFF] ∧
      t.fld MGT_TIMEOUT_COUNT_NOCLK = min (s.fld MGT_TIMEOUT_COUNT_NOCLK + 1) (2 ^ 16 - 1))) ∧
  (∀ s : State, s.tm.clk = true → exec .mgtClockAbsent s = .next s)

/-- A bank launch queues its swap or names why not, COPY makes the inactive bank equal to the active one, a cancel
removes the swap. With the clock and the field supply. PAL_BANK_LAUNCH with no swap pending, no copy under way, an
inactive bank that passes its check and a postmark that Table 02-2 accepts: the swap is the last entry of the field
queue, SWAP_PENDING reads 1 and SWAP_STATUS 0; with a swap pending SWAP_DOUBLE sets; with a bank that fails,
SWAP_STATUS reads 7, BANK_CHECK the reason and CHECK_ENTRY the pin unit; in both the field queue stays. PAL_COPY with
neither pending sets COPY_BUSY and begins at word 0; otherwise it sets WIN_REJECT and no word changes. PAL_COPY_DONE
of a running copy: every word from the one that it has reached up to 135 is in the inactive bank as the active one has
it, COPY_BUSY reads 0 and the active bank is as it was. SWAP_CANCEL removes every pending swap and no other entry, and
clears SWAP_PENDING; with none it changes nothing. (R83, R84, R85, R81, R49, 04_palette_and_excitation.md) -/
def Obligations.PaletteBankSwapAndCopy : Prop :=
  ∀ s : State, s.tm.clk = true → s.pin.fieldPower = true →
    (∀ (m : Master) (hi : Word),
      let pm : PM := BitVec.ofNat 48 (hi.toNat % 65536 * 2 ^ 32 + (s.reg PAL_BANK_LAUNCH_LO).toNat)
      (s.swapPending = false → s.bit PAL_STATUS_COPY_BUSY = false → s.bankCheck s.inactiveBank = none →
        s.launchCode .field pm 64 = 0 → ∃ t, exec (.palBankLaunch m hi) s = .next t ∧
        Keeps (foot [.reg PAL_BANK_LAUNCH_HI, .reg PAL_STATUS, .hostQ, .fieldQ]) s t ∧ t.hostQ = s.hostQ ∧
        t.fieldQ = s.fieldQ ++ [⟨pm, PAL_BANK_LAUNCH_HI, hi, m, 0, .bankSwap, 0⟩] ∧
        t.bit PAL_STATUS_SWAP_PENDING = true ∧ t.fld PAL_STATUS_SWAP_STATUS = 0) ∧
      (s.swapPending = true → ∃ t, exec (.palBankLaunch m hi) s = .next t ∧ Keeps (foot [.reg GLB_DETERMINISM, .reg
          LNK_DEADLETTER_COUNT, .reg (ENG_STATUS 0x600), .reg PAL_STATUS, .reg PAL_BANK_LAUNCH_HI, .reg (ENG_STATUS
          0x1B00), .flt, .win .lnk, .recTick, .hostQ, .fieldQ, .bar, .faults, .cou, .bru, .lnk, .free, .srcs]) s t ∧
        t.fieldQ = s.fieldQ ∧ t.bit PAL_STATUS_SWAP_DOUBLE = true) ∧
      (∀ p reason, s.swapPending = false → s.bit PAL_STATUS_COPY_BUSY = false →
        s.bankCheck s.inactiveBank = some (p, reason) → ∃ t, exec (.palBankLaunch m hi) s = .next t ∧
        t.fieldQ = s.fieldQ ∧ t.fld PAL_STATUS_SWAP_STATUS = 7 ∧ t.fld PAL_STATUS_BANK_CHECK = reason % 16 ∧
        t.fld PAL_STATUS_CHECK_ENTRY = p % 128)) ∧
    (s.swapPending = false → s.bit PAL_STATUS_COPY_BUSY = false → ∃ t, exec .palCopy s = .next t ∧
      Keeps (foot [.reg PAL_STATUS, .timers, .pal]) s t ∧ t.bit PAL_STATUS_COPY_BUSY = true ∧
      t.pal.copyPos = some 0 ∧ t.timers = s.timers ++ [(s.tm.tick + 136, .palCopyDone)]) ∧
    (s.swapPending = true ∨ s.bit PAL_STATUS_COPY_BUSY = true → ∃ t, exec .palCopy s = .next t ∧
      Keeps (foot [.reg PAL_STATUS]) s t ∧ t.bit PAL_STATUS_WIN_REJECT = true) ∧
    (∀ k, s.bit PAL_STATUS_COPY_BUSY = true → s.pal.copyPos = some k → ∃ t, exec .palCopyDone s = .next t ∧
      Keeps (foot [.reg PAL_STATUS, .win .pal, .timers, .pal]) s t ∧ t.bit PAL_STATUS_COPY_BUSY = false ∧ t.activeBank
          = s.activeBank ∧
      (∀ a, k ≤ a → a < 136 → t.win .pal (s.inactiveBank + a) = s.win .pal (s.activeBank + a)) ∧
      ∀ a < 136, t.win .pal (s.activeBank + a) = s.win .pal (s.activeBank + a)) ∧
    (s.swapPending = true → ∃ t, exec .swapCancel s = .next t ∧ Keeps (foot [.reg PAL_STATUS, .fieldQ]) s t ∧
      t.fieldQ = s.fieldQ.filter (fun e => e.kind != .bankSwap) ∧ t.bit PAL_STATUS_SWAP_PENDING = false) ∧
    (s.swapPending = false → exec .swapCancel s = .next s)

/-- SLEW_STROKE moves every amplitude towards its goal by at most STEP once an interval; carriers change only at zero
on a sheet. With the clock, the field supply and the clamps released, where no driver serves twice: SLEW_STROKE
changes only the drivers' state. For a driver d of a pin unit with entry e of the active bank: draped, its A and C are
0. Not draped, without overload and not in SWITCH, with goal G the level of e (AMPL, or floor(AMPL x FRACTION / 128)
where the rest fraction is the goal) when e is enabled with the carrier, phase and range that d synthesises, else 0:
at A = G, C is 0 and A stays; away from G with C + 1 below the interval, C counts and A stays; otherwise A moves by
min(STEP, |G - A|) and C is 0. At A = 0 at a sheet boundary an enabled entry with another carrier, phase or range is
taken, and SWITCH begins with W = 4; otherwise carrier, phase and range stay. With the clamps on nothing changes.
(R86, R87, R88, R79, R93, 04_palette_and_excitation.md) -/
def Obligations.RowAmplitudesSlewToTheirGoals : Prop :=
  (∀ s : State, s.tm.clk = true → s.pin.fieldPower = true → s.pal.clamps = true → exec .slewStroke s = .next s) ∧
  (∀ s : State, s.tm.clk = true → s.pin.fieldPower = true → s.pal.clamps = false →
    (s.runners.map (fun x => x.1)).Nodup → ∃ t, exec .slewStroke s = .next t ∧ Keeps (foot [.pal]) s t ∧
    ∀ x ∈ s.runners,
      let e := s.palEntry s.activeBank x.2
      let d := s.drv x.1
      let d' := t.drv x.1
      let same : Prop := e.k = d.k ∧ e.phase = d.ph ∧ e.range = d.rg
      let goal := if e.en = true ∧ same then s.level e else 0
      (s.draped = true → d'.a = 0 ∧ d'.c = 0) ∧
      (s.draped = false → d.ovl = false → d.w = 0 →
        (d.a = goal → d'.a = d.a ∧ d'.c = 0) ∧
        (d.a ≠ goal → d.c + 1 < s.slewInterval → d'.a = d.a ∧ d'.c = d.c + 1) ∧
        (d.a < goal → s.slewInterval ≤ d.c + 1 → d'.a = d.a + min s.slewStep (goal - d.a) ∧ d'.c = 0) ∧
        (goal < d.a → s.slewInterval ≤ d.c + 1 → d'.a = d.a - min s.slewStep (d.a - goal) ∧ d'.c = 0) ∧
        (d'.a = 0 → e.en = true → ¬ same → isSheet s.tm.fpm = true →
          d'.k = e.k ∧ d'.ph = e.phase ∧ d'.rg = e.range ∧ d'.w = 4) ∧
        (d'.a ≠ 0 ∨ e.en = false ∨ same ∨ isSheet s.tm.fpm = false →
          d'.k = d.k ∧ d'.ph = d.ph ∧ d'.rg = d.rg ∧ d'.w = 0)))

/-- An overload takes a driver to zero and is latched; clearing, spare preparation and launched row map writes do what
they say. With the clock and the field supply. ROW_OVERLOAD of a driver that is not off: it is off with OVL_LATCH, A =
C = 0, COUNT counts, saturating, LATCH reads 1 and FIRST_DRV names it where LATCH was 0; of one that is off nothing
changes. OVL_LATCH_CLEAR clears the latch of that driver alone; without one it changes nothing. ROW_SPARE_PREP writes
ROW_SPARE_CTRL, bit by bit, and beside that only a stickied reason. A launched ROW_MAP_WRITE that breaks R70 sets
REJECT, names the item and the row, and the map stays; one that is sound and changes its entry stores driver and pin
unit and counts CHANGE_COUNT, saturating; an unlaunched one leaves the map. (R98, R99, R73, R70, R100,
04_palette_and_excitation.md) -/
def Obligations.RowOverloadSparesAndMap : Prop :=
  ∀ s : State, s.tm.clk = true → s.pin.fieldPower = true →
    (∀ d : Fin 68,
      ((s.drv d.val).ovl = true → exec (.rowOverload d) s = .next s) ∧
      ((s.drv d.val).ovl = false → ∃ t, exec (.rowOverload d) s = .next t ∧ Keeps (foot [.reg GLB_DETERMINISM, .reg
          LNK_DEADLETTER_COUNT, .reg (ENG_STATUS 0x600), .reg EXC_OVERLOAD_STATUS, .reg (ENG_STATUS 0x1B00), .flt,
          .win .lnk, .recTick, .bar, .faults, .cou, .bru, .pal, .nul, .lnk, .free, .srcs]) s t ∧
        t.drv d.val = { s.drv d.val with ovl := true, ltch := true, a := 0, c := 0, hist := (s.drv d.val).hist ||| 3 } ∧
        (∀ e, e ≠ d.val → t.drv e = s.drv e) ∧ t.bit EXC_OVERLOAD_STATUS_LATCH = true ∧
        t.fld EXC_OVERLOAD_STATUS_COUNT = min (s.fld EXC_OVERLOAD_STATUS_COUNT + 1) 255 ∧
        (s.bit EXC_OVERLOAD_STATUS_LATCH = false → t.fld EXC_OVERLOAD_STATUS_FIRST_DRV = d.val) ∧
        (s.bit EXC_OVERLOAD_STATUS_LATCH = true →
          t.fld EXC_OVERLOAD_STATUS_FIRST_DRV = s.fld EXC_OVERLOAD_STATUS_FIRST_DRV))) ∧
    (∀ (d : Fin 68) (w : Writer),
      ((s.drv d.val).ltch = false → exec (.ovlLatchClear d w) s = .next s) ∧
      ((s.drv d.val).ltch = true → ∃ t, exec (.ovlLatchClear d w) s = .next t ∧ Keeps (foot [.reg GLB_DETERMINISM,
          .faults, .pal, .srcs]) s t ∧
        t.drv d.val = { s.drv d.val with ltch := false } ∧ ∀ e, e ≠ d.val → t.drv e = s.drv e)) ∧
    (∀ (v : Word) (w : Writer), ∃ t, exec (.rowSparePrep v w) s = .next t ∧
      Keeps (foot [.reg ROW_SPARE_CTRL, .reg GLB_DETERMINISM, .faults]) s t ∧
      ∀ j < 32, (t.reg ROW_SPARE_CTRL).getLsbD j = s.bitWritten ROW_SPARE_CTRL v j) ∧
    (∀ (r : Fin 64) (word : W24) (m : Master),
      let u := bitsOf word.toNat 14 8
      let p := bitsOf word.toNat 6 0
      let rule := mapRule 64 68 u p (s.otherRows r.val)
      (rule ≠ 0 → ∃ t, exec (.rowMapWrite r word ⟨m, true⟩) s = .next t ∧ Keeps (foot [.reg GLB_DETERMINISM, .reg
          LNK_DEADLETTER_COUNT, .reg (ENG_STATUS 0x600), .reg PAL_STATUS, .reg ROW_MAP_STATUS, .reg ROW_SPARE_CTRL,
          .reg (ENG_STATUS 0x1B00), .flt, .win .lnk, .win .pal, .recTick, .bar, .faults, .cou, .bru, .pal, .lnk,
          .free, .srcs]) s t ∧
        t.bit ROW_MAP_STATUS_REJECT = true ∧ t.fld ROW_MAP_STATUS_REJECT_RULE = rule % 8 ∧
        t.fld ROW_MAP_STATUS_LAST_ROW = r.val ∧ ∀ a, t.win .pal a = s.win .pal a) ∧
      (rule = 0 → u ≠ s.rowDrv r.val ∨ p ≠ s.rowPin r.val → ∃ t, exec (.rowMapWrite r word ⟨m, true⟩) s = .next t ∧
        Keeps (foot [.reg ROW_MAP_STATUS, .reg ROW_SPARE_CTRL, .win .pal, .pal]) s t ∧
        t.winN .pal (0x200 + r.val) = u * 256 + p ∧ (∀ a, a < 2 ^ 24 → a ≠ 0x200 + r.val → t.win .pal a = s.win .pal
            a) ∧
        t.fld ROW_MAP_STATUS_CHANGE_COUNT = min (s.fld ROW_MAP_STATUS_CHANGE_COUNT + 1) 255 ∧
        t.fld ROW_MAP_STATUS_LAST_ROW = r.val) ∧
      (∃ t, exec (.rowMapWrite r word ⟨m, false⟩) s = .next t ∧ ∀ a, t.win .pal a = s.win .pal a))

/-- Launched column map writes, spare swaps and restores store sound entries alone; settings and trims store their
bits or say why not. With the clock and the field supply. A launched COL_MAP_WRITE that breaks R70 or names a pin unit
without valid settings sets REJECT with the item (7 for the settings) and the column, and the map stays; a sound one
that changes its entry stores front end and pin unit, counts CHANGE_COUNT, saturating, names the column and changes no
other word of the window; an unlaunched one leaves the map. A launched COL_SPARE_SWAP is such a write of the spare of
the pin unit's group with the same pin, COL_SPARE_RESTORE of the pin unit itself. COL_SETTINGS_WRITE of a valid word
that leaves MODE and bit 8 of an enabled pin unit stores its defined bits in that word alone; an invalid one sets
SET_REJECT with reason 2, one that changes them on an enabled unit with reason 1, and stores nothing. TRIM_SET_WRITE
stores the defined bits of its word in that word alone. (R73, R103, R105, R106, R107, R116, 05_column_front_ends.md)
-/
def Obligations.ColumnMapSettingsAndTrims : Prop :=
  ∀ s : State, s.tm.clk = true → s.pin.fieldPower = true →
    (∀ (c : Fin 32) (word : W24) (m : Master),
      let u := bitsOf word.toNat 13 8
      let p := bitsOf word.toNat 5 0
      let rule0 := mapRule 32 34 u p (s.otherCols c.val)
      let rule := if rule0 = 0 ∧ settingsValid (s.winN .col p) = false then 7 else rule0
      (rule ≠ 0 → ∃ t, exec (.colMapWrite c word ⟨m, true⟩) s = .next t ∧ Keeps (foot [.reg GLB_DETERMINISM, .reg
          LNK_DEADLETTER_COUNT, .reg (ENG_STATUS 0x600), .reg COL_MAP_STATUS, .reg COL_ROVER_STATUS, .reg (ENG_STATUS
          0x1B00), .flt, .win .lnk, .win .col, .recTick, .bar, .faults, .cou, .bru, .col, .lnk, .free, .srcs]) s t ∧
        t.bit COL_MAP_STATUS_REJECT = true ∧ t.fld COL_MAP_STATUS_REJECT_RULE = rule % 8 ∧
        t.fld COL_MAP_STATUS_LAST_COL = c.val ∧ ∀ a, t.win .col a = s.win .col a) ∧
      (rule = 0 → u ≠ s.colFe c.val ∨ p ≠ s.colPin c.val → ∃ t, exec (.colMapWrite c word ⟨m, true⟩) s = .next t ∧
        Keeps (foot [.reg COL_MAP_STATUS, .reg COL_ROVER_STATUS, .win .col, .col]) s t ∧
        t.winN .col (0x100 + c.val) = u * 256 + p ∧ (∀ a, a < 2 ^ 24 → a ≠ 0x100 + c.val → t.win .col a = s.win .col
            a) ∧
        t.fld COL_MAP_STATUS_CHANGE_COUNT = min (s.fld COL_MAP_STATUS_CHANGE_COUNT + 1)
          (2 ^ COL_MAP_STATUS_CHANGE_COUNT.len - 1) ∧ t.fld COL_MAP_STATUS_LAST_COL = c.val) ∧
      (∃ t, exec (.colMapWrite c word ⟨m, false⟩) s = .next t ∧ ∀ a, t.win .col a = s.win .col a)) ∧
    (∀ (c : Fin 32) (m : Master) (k : Instr × Nat), k ∈ [(Instr.colSpareSwap c ⟨m, true⟩, groupSpare 32 (s.colPin
        c.val)),
        (.colSpareRestore c ⟨m, true⟩, s.colPin c.val)] →
      mapRule 32 34 k.2 (s.colPin c.val) (s.otherCols c.val) = 0 → settingsValid (s.winN .col (s.colPin c.val)) = true →
      k.2 ≠ s.colFe c.val → ∃ t, exec k.1 s = .next t ∧
      Keeps (foot [.reg COL_SPARE_CTRL, .reg COL_MAP_STATUS, .reg COL_ROVER_STATUS, .win .col, .col]) s t ∧
      t.winN .col (0x100 + c.val) = k.2 * 256 + s.colPin c.val ∧
      ∀ a, a < 2 ^ 24 → a ≠ 0x100 + c.val → t.win .col a = s.win .col a) ∧
    (∀ (p : Fin 34) (word : W24) (w : Writer),
      let x := word.toNat &&& 0x0F010F
      let old := s.winN .col p.val
      (settingsValid x = true → s.pinEnabled p.val = false ∨ (bitOf x 3 = bitOf old 3 ∧ bitOf x 8 = bitOf old 8) →
        ∃ t, exec (.colSettingsWrite p word w) s = .next t ∧ Keeps (foot [.reg GLB_DETERMINISM, .faults, .win .col,
            .col]) s t ∧
        t.winN .col p.val = x ∧ ∀ a, a < 2 ^ 24 → a ≠ p.val → t.win .col a = s.win .col a) ∧
      (settingsValid x = false → ∃ t, exec (.colSettingsWrite p word w) s = .next t ∧
        t.bit COL_MAP_STATUS_SET_REJECT = true ∧ t.fld COL_MAP_STATUS_SET_REASON = 2 ∧ ∀ a, t.win .col a = s.win .col
            a) ∧
      (settingsValid x = true → s.pinEnabled p.val = true → bitOf x 3 ≠ bitOf old 3 ∨ bitOf x 8 ≠ bitOf old 8 →
        ∃ t, exec (.colSettingsWrite p word w) s = .next t ∧ Keeps (foot [.reg GLB_DETERMINISM, .reg
            LNK_DEADLETTER_COUNT, .reg (ENG_STATUS 0x600), .reg COL_MAP_STATUS, .reg (ENG_STATUS 0x1B00), .flt, .win
            .lnk, .win .col, .recTick, .bar, .faults, .cou, .bru, .col, .lnk, .free, .srcs]) s t ∧
        t.bit COL_MAP_STATUS_SET_REJECT = true ∧ t.fld COL_MAP_STATUS_SET_REASON = 1 ∧
        ∀ a, t.win .col a = s.win .col a)) ∧
    (∀ (f : Fin 34) (g : Fin 8) (k : Fin 2) (word : W24) (w : Writer),
      let a := 0x200 + 16 * f.val + 2 * g.val + k.val
      ∃ t, exec (.trimSetWrite f g k word w) s = .next t ∧ Keeps (foot [.reg GLB_DETERMINISM, .win .col, .faults,
          .col]) s t ∧
        t.winN .col a = word.toNat &&& trimMask k.val ∧ ∀ b, b < 2 ^ 24 → b ≠ a → t.win .col b = s.win .col b)

/-- A dwell begins on the next eligible column and ends with the search moved on; 1024 sheets of OVR raise COL source
0. With the clock and the field supply. ROVER_DWELL_START in RUNNING of a spare that may rove and does not dwell: with
an eligible column c the dwell begins on c at this postmark, without sums, and COL_ROVER_STATUS shows STATE 1 and c;
with none it shows STATE 0. Otherwise nothing changes. ROVER_DWELL_END of a dwell: the rover dwells no more, has no
sums and seeks from the next column on, STATE reads 0, INCONCLUSIVE counts, saturating, where some row used fewer than
1024 sheets, and where no row with 1024 or more exceeds TOL, COL_ROVER_MISMATCH is as it was; without a dwell nothing
changes. PERSISTENT_OVERRANGE, where source 0 of COL has not been raised in this tick, sets its LATCH and ACTIVE bits
and its condition stands. (R113, R117, R119, 05_column_front_ends.md) -/
def Obligations.RoversAndOverrange : Prop :=
  (∀ (s : State) (g : Fin 2), s.tm.clk = true → s.pin.fieldPower = true →
    ((s.rover g.val).dwelling = true ∨ s.mayRove g.val = false ∨ s.glb ≠ 7 → exec (.roverDwellStart g) s = .next s) ∧
    ((s.rover g.val).dwelling = false → s.mayRove g.val = true → s.glb = 7 →
      (∀ c, s.nextTap g.val (s.rover g.val).next = some c → ∃ t, exec (.roverDwellStart g) s = .next t ∧
        Keeps (foot [.reg COL_ROVER_STATUS, .col]) s t ∧
        t.rover g.val = ⟨true, c, s.tm.fpm, [], [], (s.rover g.val).next⟩ ∧
        t.fld (COL_ROVER_STATUS_STATE g.val) = 1 ∧ t.fld (COL_ROVER_STATUS_COLUMN g.val) = c) ∧
      (s.nextTap g.val (s.rover g.val).next = none → ∃ t, exec (.roverDwellStart g) s = .next t ∧
        Keeps (foot [.reg COL_ROVER_STATUS]) s t ∧ t.fld (COL_ROVER_STATUS_STATE g.val) = 0))) ∧
  (∀ (s : State) (g : Fin 2), s.tm.clk = true → s.pin.fieldPower = true →
    ((s.rover g.val).dwelling = false → exec (.roverDwellEnd g) s = .next s) ∧
    ((s.rover g.val).dwelling = true → ∃ t, exec (.roverDwellEnd g) s = .next t ∧ Keeps (foot [.reg GLB_DETERMINISM,
        .reg LNK_DEADLETTER_COUNT, .reg (ENG_STATUS 0x600), .reg COL_ROVER_STATUS, .reg COL_ROVER_MISMATCH, .reg
        CAL_STATUS, .reg (ENG_STATUS 0x1B00), .flt, .win .lnk, .recTick, .bar, .faults, .cou, .bru, .col, .lnk, .cal,
        .free, .srcs]) s t ∧
      t.rover g.val = { s.rover g.val with dwelling := false, d := [], n := [], next := ((s.rover g.val).col + 1) % 32
          } ∧
      t.fld (COL_ROVER_STATUS_STATE g.val) = 0 ∧
      let rows := (List.range 64).map (fun r => (assocGet (s.rover g.val).d r 0, assocGet (s.rover g.val).n r 0))
      ((∀ x ∈ rows, 1024 ≤ x.2) → t.fld (COL_ROVER_STATUS_INCONCLUSIVE g.val) = s.fld (COL_ROVER_STATUS_INCONCLUSIVE
          g.val)) ∧
      ((∃ x ∈ rows, x.2 < 1024) → t.fld (COL_ROVER_STATUS_INCONCLUSIVE g.val) =
        min (s.fld (COL_ROVER_STATUS_INCONCLUSIVE g.val) + 1) (2 ^ (COL_ROVER_STATUS_INCONCLUSIVE g.val).len - 1)) ∧
      ((∀ x ∈ rows, 1024 ≤ x.2 → x.1.natAbs ≤ s.fld COL_ROVER_CTRL_TOL * x.2) →
        t.reg COL_ROVER_MISMATCH = s.reg COL_ROVER_MISMATCH))) ∧
  (∀ (s : State) (c : Fin 32), s.tm.clk = true → s.pin.fieldPower = true → (s.src .col 0).last ≠ some s.tm.tick →
    ∃ t, exec (.persistentOverrange c) s = .next t ∧ Keeps (foot [.reg GLB_DETERMINISM, .reg LNK_DEADLETTER_COUNT,
        .reg (ENG_STATUS 0x600), .reg (ENG_STATUS 0x1B00), .flt, .win .lnk, .recTick, .bar, .faults, .cou, .bru, .lnk,
        .free, .srcs]) s t ∧
      bitOf (t.fld (FLT_LATCH_LATCH (blkBase .col))) 0 = true ∧
      bitOf (t.fld (FLT_STATUS_ACTIVE (blkBase .col))) 0 = true ∧ (t.src .col 0).holds = true)

/-- At a stroke's end each amplitude of the served column moves by its scaled residual; a frozen one stays, an
inactive one is 0. LOOP_STROKE_UPDATE of front end f, with the clock and the field supply, active rows on distinct
carriers, and c the first column that f serves. With w the sums of the channel's last four strokes (of this one alone
right after a renumbering), rI and rQ their rotated residuals by the rotation words of f's range code, and M and E of
the rho word: a channel whose row is inactive or whose amplitude word is bad has amplitudes 0, count 0 and DONE clear.
A channel of an active row whose column or which itself is frozen keeps both amplitudes (clamped to NUL_LIMIT), its
count and DONE; else A_I and A_Q take A + scale(M * r, E + G), clamped to plus or minus NUL_LIMIT, the count goes up
by one, to 8 at most, where both residuals are below NUL_CONVERGE and to 0 otherwise, and DONE is set at 8. Frozen is
the model's colFrozen (R129) with this stroke's clip in front end f's record. A front end that serves no column and is
no dwelling rover changes no amplitude. Every other window word, register and part beside the footprint stays. (R124,
R125, R128, R129, R130, 06_demodulation_and_nulling.md) -/
def Obligations.NullingStrokeUpdatesItsAmplitudes : Prop :=
  ∀ (s : State) (f : Fin 34) (y : Vector Sample 64) (cmp : BitVec 64), s.tm.clk = true → s.pin.fieldPower = true →
    let ys := y.toList.map (fun (x : Sample) => x.toInt)
    let clip := (List.range 64).any (fun k => clipped (ys.getD k 0) (cmp.getLsbD k) (s.bit COL_CTRL_FE_OVL_EN)
      (s.fld COL_CTRL_OVR_MARGIN))
    let u := s.setFe f.val { s.fe f.val with
      clipStr := ((s.fe f.val).clipStr <<< 1) ||| (if clip then 1 else 0),
      clip := (s.fe f.val).clip ||| (if clip then 1 else 0) }
    (∀ c, c < 32 → s.colFe c = f.val → (∀ d, d < c → s.colFe d ≠ f.val) →
      (∀ r q, r < 64 → q < 64 → r ≠ q → s.rowActive r = true → s.rowActive q = true →
        (s.drv (s.rowDrv r)).k ≠ (s.drv (s.rowDrv q)).k) →
      ∃ t, exec (.loopStrokeUpdate f y cmp) s = .next t ∧ Keeps (foot [.reg GLB_DETERMINISM, .reg
          LNK_DEADLETTER_COUNT, .reg (ENG_STATUS 0x600), .reg NUL_DAC_RANGE, .reg (ENG_STATUS 0x1B00), .flt, .win
          .lnk, .win .nul, .recTick, .bar, .faults, .cou, .bru, .col, .nul, .lnk, .cal, .free, .srcs]) s t ∧
        (∀ a, 0x1000 ≤ a → a < 2 ^ 24 → t.win .nul a = s.win .nul a) ∧
        ∀ r, r < 64 →
          let ch := c * 64 + r
          let p := s.colPin c
          let g := s.rangeCode p
          let d := s.drv (s.rowDrv r)
          let old := if s.tm.tick - 15 < s.nul.renTick then [] else assocGet s.nul.sums (64 * f.val + r) []
          let w := windowSums (sumsOf d.k d.ph (s.tm.fpm.toNat % 64 / 16 * 64) ys :: old.take 3)
          let rI := residI (s.nulSigned (rotAddr f.val g r)) (s.nulSigned (rotAddr f.val g r + 1)) w.1 w.2
          let rQ := residQ (s.nulSigned (rotAddr f.val g r)) (s.nulSigned (rotAddr f.val g r + 1)) w.1 w.2
          let rho := s.winN .nul (rhoAddr f.val g (s.rangeOf p))
          let frozen := u.colFrozen c || decide (s.tm.tick - 63 < assocGet s.nul.chBad ch 0)
          let lim := s.nulLimit
          (s.rowActive r = false ∨ s.nul.zeroCh.contains ch = true →
            t.amp ch 0 = 0 ∧ t.amp ch 1 = 0 ∧ t.cntOf ch = 0 ∧ t.doneOf ch = false) ∧
          (s.rowActive r = true → s.nul.zeroCh.contains ch = false → frozen = true →
            t.amp ch 0 = clampInt (-lim) lim (s.amp ch 0) ∧ t.amp ch 1 = clampInt (-lim) lim (s.amp ch 1) ∧
            t.cntOf ch = s.cntOf ch ∧ t.doneOf ch = s.doneOf ch) ∧
          (s.rowActive r = true → s.nul.zeroCh.contains ch = false → frozen = false →
            t.amp ch 0 = clampInt (-lim) lim
              (s.amp ch 0 + scaleInt ((rho % 65536 : Nat) * rI) (bitsOf rho 20 16 + s.gainOf p)) ∧
            t.amp ch 1 = clampInt (-lim) lim
              (s.amp ch 1 + scaleInt ((rho % 65536 : Nat) * rQ) (bitsOf rho 20 16 + s.gainOf p)) ∧
            t.cntOf ch = (if max rI.natAbs rQ.natAbs < s.fld NUL_CONVERGE_THRESH then min (s.cntOf ch + 1) 8
              else 0) ∧
            t.doneOf ch = (s.doneOf ch || t.cntOf ch == 8))) ∧
    ((∀ c, c < 32 → s.colFe c ≠ f.val) → ¬ (32 ≤ f.val ∧ (s.rover (f.val - 32)).dwelling = true) →
      ∃ t, exec (.loopStrokeUpdate f y cmp) s = .next t ∧ Keeps (foot [.reg GLB_DETERMINISM, .reg
          LNK_DEADLETTER_COUNT, .reg (ENG_STATUS 0x600), .reg NUL_DAC_RANGE, .reg (ENG_STATUS 0x1B00), .flt, .win
          .lnk, .win .nul, .recTick, .bar, .faults, .cou, .bru, .col, .nul, .lnk, .cal, .free, .srcs]) s t ∧
        ∀ a, t.win .nul a = s.win .nul a)

/-- A loop start loads every channel from the primer; a capture is taken up or rejected, and its end leaves the
snapshot in the primer. With the clock and the field supply. LOOP_START and NUL_REPRIME leave the loop started in this
tick and count START_COUNT, saturating; every channel has count 0 and DONE clear, and its amplitudes are 0 where its
row is inactive and else its primer words (0 where a memory error stands) times the driver's present amplitude over
the entry's target, as R137 rounds and limits; every window word beside the amplitudes stays. NUL_CAPTURE in RUNNING
with every serving driver in STEADY, OFF or HIGHZ and no capture under way begins one with nothing taken and sets
CAPTURE_BUSY; else it sets CAPTURE_REJECT and raises source 4 of NUL, where that has not been raised in this tick.
CAPTURE_DONE without a capture changes nothing; with one, the primer words not yet written take the snapshot's values
(a 0 where it lists none), every other window word stays, no capture is under way, BUSY reads 0, and no CAPTURE_DONE
waits any more. (R136, R137, R139, 06_demodulation_and_nulling.md) -/
def Obligations.LoopStartsAndCaptures : Prop :=
  ∀ s : State, s.tm.clk = true → s.pin.fieldPower = true →
    (∀ (w : Writer) (i : Instr), i ∈ [Instr.loopStart, .nulReprime w] → ∃ t, exec i s = .next t ∧
      Keeps (foot [.reg NUL_PRIMER_CTRL, .reg GLB_DETERMINISM, .faults, .win .nul, .col, .nul]) s t ∧
      t.nul.started = true ∧ t.nul.startTick = s.tm.tick ∧ t.nul.reprime = false ∧ t.nul.primerBad = [] ∧
      t.fld NUL_PRIMER_CTRL_START_COUNT = min (s.fld NUL_PRIMER_CTRL_START_COUNT + 1) 255 ∧
      (∀ a, 0x1000 ≤ a → a < 2 ^ 24 → t.win .nul a = s.win .nul a) ∧
      ∀ ch, ch < 2048 → t.cntOf ch = 0 ∧ t.doneOf ch = false ∧ ∀ x, x < 2 →
        t.amp ch x = if s.rowActive (ch % 64) = true then
          primed (s.primer ch x) (s.drv (s.rowDrv (ch % 64))).a
            (s.palEntry s.activeBank (s.rowPin (ch % 64))).ampl s.nulLimit else 0) ∧
    (∀ w : Writer, s.glb = 7 → s.bit NUL_PRIMER_CTRL_CAPTURE_BUSY = false →
      (∀ r, r < 64 → s.drvState (s.rowDrv r) = 0 ∨ s.drvState (s.rowDrv r) = 3 ∨ s.drvState (s.rowDrv r) = 4) →
      ∃ t, exec (.nulCapture w) s = .next t ∧
        Keeps (foot [.reg NUL_PRIMER_CTRL, .reg GLB_DETERMINISM, .faults, .nul]) s t ∧
        t.nul = { s.nul with capture := some ⟨s.tm.tick, [], false, 0⟩ } ∧
        t.bit NUL_PRIMER_CTRL_CAPTURE_BUSY = true ∧
        t.bit NUL_PRIMER_CTRL_CAPTURE_REJECT = s.bit NUL_PRIMER_CTRL_CAPTURE_REJECT) ∧
    (∀ w : Writer, s.glb ≠ 7 ∨ s.bit NUL_PRIMER_CTRL_CAPTURE_BUSY = true ∨
        (∃ r, r < 64 ∧ s.drvState (s.rowDrv r) ≠ 0 ∧ s.drvState (s.rowDrv r) ≠ 3 ∧ s.drvState (s.rowDrv r) ≠ 4) →
      ∃ t, exec (.nulCapture w) s = .next t ∧ Keeps (foot [.reg GLB_DETERMINISM, .reg LNK_DEADLETTER_COUNT, .reg
          (ENG_STATUS 0x600), .reg NUL_PRIMER_CTRL, .reg (ENG_STATUS 0x1B00), .flt, .win .lnk, .recTick, .bar,
          .faults, .cou, .bru, .nul, .lnk, .free, .srcs]) s t ∧ t.nul = s.nul ∧
        t.bit NUL_PRIMER_CTRL_CAPTURE_REJECT = true ∧ ((s.src .nul 4).last ≠ some s.tm.tick →
          bitOf (t.fld (FLT_LATCH_LATCH (blkBase .nul))) 4 = true)) ∧
    (s.nul.capture = none → exec .captureDone s = .next s) ∧
    (∀ k, s.nul.capture = some k → ∃ t, exec .captureDone s = .next t ∧ Keeps (foot [.reg NUL_PRIMER_CTRL, .win .nul,
        .timers, .cou, .bru, .nul]) s t ∧
      (∀ j x, j < 2048 → x < 2 → t.win .nul (0x1000 + 2 * j + x) =
        if k.doneN ≤ j then assocGet k.vals (winKey .nul (2 * j + x)) 0 else s.win .nul (0x1000 + 2 * j + x)) ∧
      (∀ a, a < 2 ^ 24 → a < 0x1000 ∨ 0x2000 ≤ a → t.win .nul a = s.win .nul a) ∧
      t.nul = { s.nul with capture := none } ∧ t.bit NUL_PRIMER_CTRL_CAPTURE_BUSY = false ∧
      ∀ e ∈ t.timers, e.2 ≠ .captureDone)

/-- Gain and range writes take effect on their pin unit or are turned away; a range change rescales; memory errors and
lasting SAT raise. With the clock and the field supply. NUL_LOOP_GAIN_WRITE below G_min for the pin unit's external
delay sets REJECT, changes no gain and raises source 3 of NUL; else it stores G for that pin unit alone; for a pin
unit past 33 it changes no gain. NULLING_RANGE_CHANGE to another range of 0 to 2 stores it for its pin unit alone, and
every amplitude of a column mapped to that unit becomes the rescaled one, limited to NUL_LIMIT, every other window
word staying; to range 3, to the same range or past pin unit 33 it changes no range and no amplitude. NUL_MEMORY_ERROR
raises source 6 of NUL and notes an amplitude word's channel, a primer word or a rotation or rho word. PERSISTENT_SAT
raises source 0 of NUL, whose condition stands. A raise shows as the source's LATCH and ACTIVE bits, where it is the
source's first in this tick. (R131, R134, R141, R143, 06_demodulation_and_nulling.md) -/
def Obligations.NullingSettingsAndErrors : Prop :=
  ∀ s : State, s.tm.clk = true → s.pin.fieldPower = true →
    (∀ (p : BitVec 6) (g : BitVec 4) (w : Writer),
      (p.toNat < 34 → gMin (s.pinDext p.toNat) ≤ g.toNat → ∃ t, exec (.nulLoopGainWrite p g w) s = .next t ∧
        Keeps (foot [.reg NUL_LOOP_GAIN, .reg GLB_DETERMINISM, .faults, .nul]) s t ∧
        ∀ q, q < 34 → t.gainOf q = if q = p.toNat then g.toNat else s.gainOf q) ∧
      (p.toNat < 34 → g.toNat < gMin (s.pinDext p.toNat) → ∃ t, exec (.nulLoopGainWrite p g w) s = .next t ∧
        Keeps (foot [.anyReg, .win .lnk, .recTick, .bar, .faults, .cou, .bru, .nul, .lnk, .free, .srcs]) s t ∧ t.bit
            NUL_LOOP_GAIN_REJECT = true ∧ t.nul = s.nul ∧
        ((s.src .nul 3).last ≠ some s.tm.tick → bitOf (t.fld (FLT_LATCH_LATCH (blkBase .nul))) 3 = true ∧
          bitOf (t.fld (FLT_STATUS_ACTIVE (blkBase .nul))) 3 = true)) ∧
      (34 ≤ p.toNat → ∃ t, exec (.nulLoopGainWrite p g w) s = .next t ∧
        Keeps (foot [.reg NUL_LOOP_GAIN]) s t ∧ t.fld NUL_LOOP_GAIN_PIN = p.toNat)) ∧
    (∀ (p : BitVec 6) (n : BitVec 2) (w : Writer),
      (p.toNat < 34 → n.toNat < 3 → s.rangeOf p.toNat ≠ n.toNat → ∃ t, exec (.nullingRangeChange p n w) s = .next t ∧
        Keeps (foot [.reg GLB_DETERMINISM, .reg NUL_DAC_RANGE, .win .nul, .faults, .col, .nul]) s t ∧
        (∀ q, q < 34 → t.rangeOf q = if q = p.toNat then n.toNat else s.rangeOf q) ∧
        (∀ c r x, c < 32 → r < 64 → x < 2 → t.amp (c * 64 + r) x = if s.colPin c = p.toNat then
          clampInt (-s.nulLimit) s.nulLimit (rescale (s.amp (c * 64 + r) x) (s.rangeOf p.toNat) n.toNat)
          else s.amp (c * 64 + r) x) ∧
        ∀ a, 0x1000 ≤ a → a < 2 ^ 24 → t.win .nul a = s.win .nul a) ∧
      (34 ≤ p.toNat ∨ n.toNat = 3 ∨ s.rangeOf p.toNat = n.toNat → ∃ t, exec (.nullingRangeChange p n w) s = .next t ∧
        Keeps (foot [.reg NUL_DAC_RANGE]) s t ∧ t.fld NUL_DAC_RANGE_PIN = p.toNat)) ∧
    (∀ a : BitVec 20, ∃ t, exec (.nulMemoryError a) s = .next t ∧ Keeps (foot [.reg GLB_DETERMINISM, .reg
        LNK_DEADLETTER_COUNT, .reg (ENG_STATUS 0x600), .reg (ENG_STATUS 0x1B00), .flt, .win .lnk, .recTick, .bar,
        .faults, .cou, .bru, .nul, .lnk, .free, .srcs]) s t ∧
      t.nul.zeroCh = s.nul.zeroCh ++ (if a.toNat < 0x1000 then [a.toNat / 2] else []) ∧
      t.nul.primerBad = s.nul.primerBad ++ (if 0x1000 ≤ a.toNat ∧ a.toNat < 0x2000 then [a.toNat] else []) ∧
      t.nul.wordBad = s.nul.wordBad ++ (if 0x3000 ≤ a.toNat then [a.toNat] else []) ∧
      ((s.src .nul 6).last ≠ some s.tm.tick → bitOf (t.fld (FLT_LATCH_LATCH (blkBase .nul))) 6 = true ∧
        bitOf (t.fld (FLT_STATUS_ACTIVE (blkBase .nul))) 6 = true)) ∧
    (∀ (c : Fin 32) (r : Fin 64), ∃ t, exec (.persistentSat c r) s = .next t ∧ Keeps (foot [.reg GLB_DETERMINISM, .reg
        LNK_DEADLETTER_COUNT, .reg (ENG_STATUS 0x600), .reg (ENG_STATUS 0x1B00), .flt, .win .lnk, .recTick, .bar,
        .faults, .cou, .bru, .lnk, .free, .srcs]) s t ∧
      (t.src .nul 0).holds = true ∧
      ((s.src .nul 0).last ≠ some s.tm.tick → bitOf (t.fld (FLT_LATCH_LATCH (blkBase .nul))) 0 = true ∧
        bitOf (t.fld (FLT_STATUS_ACTIVE (blkBase .nul))) 0 = true))

/-- COPY, SWAP and a copy's end act on the varnish banks or are turned away; a memory error is kept; a read of the
clamp counts clears them. With the clock and the field supply. VAR_COPY with no copy under way sets COPY_BUSY, starts
at word 0 and puts VAR_COPY_DONE 4096 ticks ahead; under way it sets WIN_REJECT and raises source 1 of VAR, and the
copy goes on. VAR_COPY_DONE with BUSY and the copy at group k gives every word of the inactive bank from 4k on the
active bank's word, keeps every other word of the window, clears BUSY and the position; without BUSY nothing changes.
VAR_SWAP with BUSY clear turns ACTIVE_BANK over and changes no word; with BUSY set it sets SWAP_REJECT and raises
source 1. VAR_MEMORY_ERROR of a coefficient or map word keeps the word as bad, in a copy store's word drops that copy,
and raises source 3; elsewhere nothing changes. VAR_CLAMP_COUNT_READ leaves POS and NEG 0. A raise shows as the LATCH
bit, where it is the source's first in this tick. (R149, R159, R160, R162, 07_varnish.md) -/
def Obligations.VarnishBanksAndMemoryErrors : Prop :=
  ∀ s : State, s.tm.clk = true → s.pin.fieldPower = true →
    (∀ w : Writer, (s.bit VAR_CTRL_COPY_BUSY = false → ∃ t, exec (.varCopy w) s = .next t ∧
        Keeps (foot [.reg VAR_CTRL, .timers, .var]) s t ∧ t.bit VAR_CTRL_COPY_BUSY = true ∧
        t.var = { s.var with copyPos := some 0 } ∧ t.timers = s.timers ++ [(s.tm.tick + 4096, .varCopyDone)]) ∧
      (s.bit VAR_CTRL_COPY_BUSY = true → ∃ t, exec (.varCopy w) s = .next t ∧ Keeps (foot [.reg GLB_DETERMINISM, .reg
          LNK_DEADLETTER_COUNT, .reg (ENG_STATUS 0x600), .reg VAR_CTRL, .reg (ENG_STATUS 0x1B00), .flt, .win .lnk,
          .recTick, .timers, .bar, .faults, .cou, .bru, .var, .lnk, .free, .srcs]) s t ∧
        t.bit VAR_CTRL_WIN_REJECT = true ∧ t.bit VAR_CTRL_COPY_BUSY = true ∧ t.var = s.var ∧
        ((s.src .var 1).last ≠ some s.tm.tick → bitOf (t.fld (FLT_LATCH_LATCH (blkBase .var))) 1 = true))) ∧
    (s.bit VAR_CTRL_COPY_BUSY = false → exec .varCopyDone s = .next s) ∧
    (∀ k, s.bit VAR_CTRL_COPY_BUSY = true → s.var.copyPos = some k → ∃ t, exec .varCopyDone s = .next t ∧
      Keeps (foot [.reg VAR_CTRL, .win .var, .timers, .var]) s t ∧ t.bit VAR_CTRL_COPY_BUSY = false ∧ t.var.copyPos =
          none ∧
      (∀ i, 4 * k ≤ i → i < 0x4000 → t.win .var (s.varInactive + i) = s.win .var (s.varActive + i)) ∧
      ∀ a, a < 2 ^ 24 → a < s.varInactive + 4 * k ∨ s.varInactive + 0x4000 ≤ a → t.win .var a = s.win .var a) ∧
    (∀ w : Writer, (s.bit VAR_CTRL_COPY_BUSY = false → ∃ t, exec (.varSwap w) s = .next t ∧
        Keeps (foot [.reg VAR_CTRL, .reg GLB_DETERMINISM, .faults]) s t ∧
        t.bit VAR_CTRL_ACTIVE_BANK = !s.bit VAR_CTRL_ACTIVE_BANK) ∧
      (s.bit VAR_CTRL_COPY_BUSY = true → ∃ t, exec (.varSwap w) s = .next t ∧ Keeps (foot [.reg GLB_DETERMINISM, .reg
          LNK_DEADLETTER_COUNT, .reg (ENG_STATUS 0x600), .reg VAR_CTRL, .reg (ENG_STATUS 0x1B00), .flt, .win .lnk,
          .recTick, .bar, .faults, .cou, .bru, .lnk, .free, .srcs]) s t ∧
        t.bit VAR_CTRL_SWAP_REJECT = true ∧ t.bit VAR_CTRL_ACTIVE_BANK = s.bit VAR_CTRL_ACTIVE_BANK ∧
        ((s.src .var 1).last ≠ some s.tm.tick → bitOf (t.fld (FLT_LATCH_LATCH (blkBase .var))) 1 = true))) ∧
    (∀ a : BitVec 16, (a.toNat < 0x8020 → ∃ t, exec (.varMemoryError a) s = .next t ∧ Keeps (foot [.reg
        GLB_DETERMINISM, .reg LNK_DEADLETTER_COUNT, .reg (ENG_STATUS 0x600), .reg (ENG_STATUS 0x1B00), .flt, .win
        .lnk, .recTick, .bar, .faults, .cou, .bru, .var, .lnk, .free, .srcs]) s t ∧
        t.var = { s.var with badWord := if a.toNat ∈ s.var.badWord then s.var.badWord
          else s.var.badWord ++ [a.toNat] } ∧
        ((s.src .var 3).last ≠ some s.tm.tick → bitOf (t.fld (FLT_LATCH_LATCH (blkBase .var))) 3 = true)) ∧
      (0x8100 ≤ a.toNat ∧ a.toNat < 0x8140 → ∃ t, exec (.varMemoryError a) s = .next t ∧
        Keeps (foot [.reg GLB_DETERMINISM, .reg LNK_DEADLETTER_COUNT, .reg (ENG_STATUS 0x600), .reg (ENG_STATUS
            0x1B00), .flt, .win .lnk, .recTick, .bar, .faults, .cou, .bru, .var, .lnk, .free, .srcs]) s t ∧
        (∀ i, t.copies i = if i = (a.toNat - 0x8100) / 2 then
          (s.copies i).take (a.toNat % 2) ++ (s.copies i).drop (a.toNat % 2 + 1) else s.copies i) ∧
        ((s.src .var 3).last ≠ some s.tm.tick → bitOf (t.fld (FLT_LATCH_LATCH (blkBase .var))) 3 = true)) ∧
      (0x8020 ≤ a.toNat ∧ a.toNat < 0x8100 ∨ 0x8140 ≤ a.toNat → exec (.varMemoryError a) s = .next s)) ∧
    (∀ m : Master, ∃ t, exec (.varClampCountRead m) s = .next t ∧ Keeps (foot [.reg VAR_CLAMP_COUNT]) s t ∧
      t.reg VAR_CLAMP_COUNT = 0)

/-- A copy enters its source's store unless it is late; at a cadence boundary every source becomes FRESH, stays in
DEFAULT or is HELD. With the clock and the field supply. HANDOVER_COPY of a result that no converter holds waiting and
that no POSTMARK_SET has overtaken: with a stamp at most 1024 ticks old the source's store holds it as the newest and
the one before it, no more, and every other store stays; later, the stores stay, LATE is set, LATE_COUNT counts,
saturating, and source 0 of VAR is raised (its LATCH bit, where it is the source's first in this tick). CADENCE_LATCH
counts LATCH_COUNT, saturating; each source i whose candidate (the newest copy stamped at or before b - 1024 and later
than the stamp last latched) has status 0 takes its result as the code in use, STATE FRESH, AGE 0 and its stamp; any
other stays as it is in DEFAULT and else keeps its code, is HELD and counts AGE up to 255. No other word of the window
changes, and no store. (R155, R156, 07_varnish.md) -/
def Obligations.TemperatureHandOverAndLatch : Prop :=
  (∀ (s : State) (i : Fin 32) (code : W24) (stamp : PM) (status : BitVec 3),
    s.tm.clk = true → s.pin.fieldPower = true →
    (i.val, VCopy.mk code stamp status) ∉ s.hka.hand → (i.val, VCopy.mk code stamp status) ∉ s.hkb.hand →
    (i.val, stamp) ∉ s.var.stale →
    (pmDist stamp s.tm.fpm ≤ 1024 → ∃ t, exec (.handoverCopy i code stamp status) s = .next t ∧
      Keeps (foot [.var]) s t ∧
      (∀ j, t.copies j = if j = i.val then ⟨code, stamp, status⟩ :: (s.copies j).take 1 else s.copies j) ∧
      t.var.latched = s.var.latched) ∧
    (1024 < pmDist stamp s.tm.fpm → ∃ t, exec (.handoverCopy i code stamp status) s = .next t ∧
      Keeps (foot [.reg GLB_DETERMINISM, .reg LNK_DEADLETTER_COUNT, .reg (ENG_STATUS 0x600), .reg VAR_T_STATUS, .reg
          (HKx_DATA 0x1700), .reg (HKx_DATA 0x1800), .reg (ENG_STATUS 0x1B00), .flt, .win .lnk, .recTick, .bar,
          .faults, .cou, .bru, .var, .lnk, .hka, .hkb, .free, .srcs]) s t ∧ t.var = s.var ∧ t.bit VAR_T_STATUS_LATE =
          true ∧
      t.fld VAR_T_STATUS_LATE_COUNT = min (s.fld VAR_T_STATUS_LATE_COUNT + 1) 255 ∧
      ((s.src .var 0).last ≠ some s.tm.tick → bitOf (t.fld (FLT_LATCH_LATCH (blkBase .var))) 0 = true))) ∧
  (∀ s : State, s.tm.clk = true → s.pin.fieldPower = true → ∃ t, exec .cadenceLatch s = .next t ∧
    Keeps (foot [.reg VAR_T_STATUS, .win .var, .var]) s t ∧
    t.fld VAR_T_STATUS_LATCH_COUNT = min (s.fld VAR_T_STATUS_LATCH_COUNT + 1) 255 ∧
    (∀ i, i < 32 →
      let cand := (s.copies i).find? (fun k => pmGe (s.tm.fpm - 1024) k.stamp &&
        (match s.var.latched.find? (fun e => e.1 == i) with
          | none => true
          | some e => pmLater k.stamp e.2))
      (∀ k, cand = some k → k.status = 0 → t.win .var (0x8100 + 2 * i) = k.code ∧
        t.winN .var (0x8101 + 2 * i) = 2 ^ 22 ∧ ∀ d, assocGet t.var.latched i d = k.stamp) ∧
      (cand = none ∨ (∃ k, cand = some k ∧ k.status ≠ 0) →
        t.win .var (0x8100 + 2 * i) = s.win .var (0x8100 + 2 * i) ∧
        (∀ d, assocGet t.var.latched i d = assocGet s.var.latched i d) ∧
        t.winN .var (0x8101 + 2 * i) = if s.srcState i = 0 then s.winN .var (0x8101 + 2 * i)
          else 2 * 2 ^ 22 + min 255 (bitsOf (s.winN .var (0x8101 + 2 * i)) 15 8 + 1) * 256)) ∧
    (∀ a, a < 2 ^ 24 → a < 0x8100 ∨ 0x8140 ≤ a → t.win .var a = s.win .var a) ∧ t.var.copies = s.var.copies)

/-- A column's readings go into the flag table, the clamp counts and, once loaded, the ring; a complete record enters
the event queue. With the clock and the field supply. COLUMN_READINGS_COMPLETE with a snapshot of the column for the
sheet 74 + 2c ticks back: with y, fl and the clamp that varnish gives each row, the flag word of every channel takes
fl as its last flags and adds it to the latched ones, CLAMP_COUNT counts the clamped rows of each sign, saturating,
the snapshot goes, and once field load is done the ring holds every y at the sheet's slot. EVENT_RECORD_COMPLETE takes
the column's records whose completion tick has come out of the waiting ones; with none, nothing else changes; with
exactly one, and room for it in the queue, the queue ends with it, its energy, its readings from PRE sheets before its
trigger on and the next sequence number, and EVT_COUNT_RECORDS counts, saturating. (R115, R149, R173, R174, R183,
R184, 08_streaming_and_events.md) -/
def Obligations.ReadingsAndRecordsComplete : Prop :=
  (∀ (s : State) (c : Fin 32), s.tm.clk = true → s.pin.fieldPower = true → ∀ x,
    (s.nul.snaps.filter (fun x => x.1 % 32 == c.val)).find?
      (fun x => x.2.sheet == sheetOf (s.tm.fpm - BitVec.ofNat 48 (74 + 2 * c.val))) = some x →
    ∃ t, exec (.columnReadingsComplete c) s = .next t ∧ Keeps (foot [.reg VAR_CLAMP_COUNT, .win .nul, .win .evt, .bar,
        .nul, .str, .evt]) s t ∧
      t.nul = { s.nul with snaps := assocErase s.nul.snaps x.1 } ∧
      (∀ r, r < 64 → t.winN .nul (0x2000 + (64 * c.val + r)) =
        ((bitsOf (s.winN .nul (0x2000 + (64 * c.val + r))) 15 8 ||| (evalChannel x.2 r).2.1) * 256 +
          (evalChannel x.2 r).2.1) % 2 ^ 24) ∧
      t.fld VAR_CLAMP_COUNT_POS = min (s.fld VAR_CLAMP_COUNT_POS +
        ((List.range 64).filter (fun r => (evalChannel x.2 r).2.2 == 1)).length) 65535 ∧
      t.fld VAR_CLAMP_COUNT_NEG = min (s.fld VAR_CLAMP_COUNT_NEG +
        ((List.range 64).filter (fun r => (evalChannel x.2 r).2.2 == 2)).length) 65535 ∧
      (s.bit FGL_STATUS_LOADED = true → ∀ r, r < 64 →
        t.winN .evt (ringAddr (64 * c.val + r) x.2.sheet) = (evalChannel x.2 r).1 % 2 ^ 24) ∧
      (s.bit FGL_STATUS_LOADED = false → ∀ a, t.win .evt a = s.win .evt a)) ∧
  (∀ (s : State) (c : Fin 32), s.tm.clk = true → s.pin.fieldPower = true →
    let ready := fun (r : Rec) => r.ch / 64 == c.val && pmGe s.tm.fpm (r.done + BitVec.ofNat 48 (75 + 2 * c.val))
    (s.evt.recs.filter ready = [] → ∃ t, exec (.eventRecordComplete c) s = .next t ∧ Keeps (foot [.evt]) s t ∧
      t.evt.recs = s.evt.recs ∧ t.evt.queue = s.evt.queue) ∧
    (∀ r, s.evt.recs.filter ready = [r] → s.queueParcels + recParcels ⟨r, s.energy r, (List.range r.count).map
          (fun j => BitVec.ofNat 24 (s.ringRead r.ch (r.t - BitVec.ofNat 48 (64 * r.pre) + BitVec.ofNat 48 (64 * j)))),
          s.evt.recSeq + 1, 0⟩ ≤ 4096 →
      ∃ t, exec (.eventRecordComplete c) s = .next t ∧ Keeps (foot [.reg EVT_COUNT, .evt]) s t ∧
        t.evt.recs = s.evt.recs.filter (fun r => !ready r) ∧ t.evt.recSeq = s.evt.recSeq + 1 ∧
        t.evt.queue = s.evt.queue ++ [⟨r, s.energy r, (List.range r.count).map (fun j => BitVec.ofNat 24
          (s.ringRead r.ch (r.t - BitVec.ofNat 48 (64 * r.pre) + BitVec.ofNat 48 (64 * j)))),
          s.evt.recSeq + 1, 0⟩] ∧
        t.fld EVT_COUNT_RECORDS = min (s.fld EVT_COUNT_RECORDS + 1) (2 ^ EVT_COUNT_RECORDS.len - 1)))

/-- FLT_ACK clears LATCH and LSEV of the named sources alone, a raise of the same tick coming after it; FIRST clears
VALID, ESCALATED and ALSO. With the clock and the field supply, for every block. FLT_ACK_SOURCES: a source that
SOURCES does not name keeps everything; a named one not raised in this tick has LATCH 0 and LSEV 0 and keeps LEVEL,
CNT and all else; a named one raised in this tick keeps its LATCH bit, the raise is no second fault, and its level is
what that raise alone makes of the level before it. ACTIVE, the ALSO bits, every other register beside LATCH and the
count of escalations, every source of another block and every part of the state beside the sources and the barrier
(whose STATUS envelope tells the host) stay; GLB_DETERMINISM is among them. FLT_ACK_FIRST: VALID, ESCALATED and every
ALSO bit read 0, the other fields of FIRST_WHO and LATCH keep their values, and no other register nor any other part
of the state changes. (R344, R342) -/
def Obligations.FaultAcknowledgement : Prop :=
  ∀ (s : State) (b : Blk), s.tm.clk = true → s.pin.fieldPower = true →
    (∀ mask : BitVec 16, ∃ t, exec (.fltAckSources b mask) s = .next t ∧
      Keeps (foot [.reg (FLT_LATCH (blkBase b)), .reg (FLT_COUNT (blkBase b)), .bar, .srcs]) s t ∧
      t.fld (FLT_LATCH_ALSO (blkBase b)) = s.fld (FLT_LATCH_ALSO (blkBase b)) ∧
      (∀ i, i < 16 →
        (mask.getLsbD i = false → bitOf (t.fld (FLT_LATCH_LATCH (blkBase b))) i =
            bitOf (s.fld (FLT_LATCH_LATCH (blkBase b))) i ∧ t.src b i = s.src b i) ∧
        (mask.getLsbD i = true → (s.src b i).last ≠ some s.tm.tick →
          bitOf (t.fld (FLT_LATCH_LATCH (blkBase b))) i = false ∧ t.src b i = { s.src b i with lsev := 0 }) ∧
        (mask.getLsbD i = true → (s.src b i).last = some s.tm.tick →
          bitOf (t.fld (FLT_LATCH_LATCH (blkBase b))) i = bitOf (s.fld (FLT_LATCH_LATCH (blkBase b))) i ∧
          (t.src b i).second = false ∧ (t.src b i).cnt = (s.src b i).cnt ∧
          (t.src b i).level = min ((s.src b i).lvl0 + ((s.src b i).esc - if (s.src b i).second then 1 else 0)) 3)) ∧
      ∀ c i, c ≠ b → i < 16 → t.src c i = s.src c i) ∧
    (∃ t, exec (.fltAckFirst b) s = .next t ∧
      Keeps (foot [.reg (FLT_LATCH (blkBase b)), .reg (FLT_FIRST_WHO (blkBase b))]) s t ∧
      t.bit (FLT_FIRST_WHO_VALID (blkBase b)) = false ∧ t.bit (FLT_FIRST_WHO_ESCALATED (blkBase b)) = false ∧
      t.fld (FLT_LATCH_ALSO (blkBase b)) = 0 ∧
      ∀ f ∈ [FLT_LATCH_LATCH (blkBase b), FLT_FIRST_WHO_SEVERITY (blkBase b), FLT_FIRST_WHO_MASTER (blkBase b),
        FLT_FIRST_WHO_ACCESS (blkBase b), FLT_FIRST_WHO_SOURCE (blkBase b)], t.fld f = s.fld f)

/-- GLB_ID reads 0x4C592048 for every master in every state, and over the management port with or without a tick
clock. For every state and every master a read of GLB_ID gives 0x4C592048: the vendor code 0x4C59 in bits 31 to 16,
the part code 0x2048 in bits 15 to 0. It does so after any write to GLB_ID as well. RD and RDN of the management port,
whether the tick clock runs or not and whatever GLB_STATE holds, send 0x2048 and then 0x4C59, where no broken
half-word is to be reported. (R2) -/
def Obligations.TheIdentityIsFixedAndAlwaysRead : Prop :=
  (∀ (s : State) (m : Master), (s.readReg m 0).1 = 0x4C592048 ∧
    bitsOf (s.readReg m 0).1.toNat 31 16 = 0x4C59 ∧ bitsOf (s.readReg m 0).1.toNat 15 0 = 0x2048 ∧
    ∀ v : Word, ((s.writeReg m 0 v).readReg m 0).1 = 0x4C592048) ∧
  (∀ s : State, s.mgt.abort = false →
    (∃ t, exec (.rd 0) s = .next t ∧ t.mgt.out = [0x2048, 0x4C59]) ∧
    ∀ n, ∃ t, exec (.rdn 0 n) s = .next t ∧ t.mgt.out = (List.replicate n [(0x2048 : BitVec 16), 0x4C59]).flatten)

/-- Tick 160 fills in the missing blocks as LOST; slot 0 sends the covers; each later slot sends what its table entry
names. With the clock. SHEET_DEADLINE: not LOADED, nothing changes; LOADED, the blocks on the host die are those that
were there followed by one for every column of the sheet at hpm - 160 without one, with LOST set and the bits of R165
(COLUMN, FLAG_OR 0x80, ATTENTION all ones, readings 0x800000). COVER_PARCEL off slot 0 changes nothing; in slot 0
every UP lane that is not dark sends the cover parcel of Table 13-6, another keeps what it sent, replies that leave
now are taken off, and with the stream off there is no plan. SLOT_FILL on a lane that is not UP, or in slot 0, changes
nothing; a retired lane sends an idle parcel; an UP lane that is not dark sends the stream parcel at the rank of its
slot (KIND 2), the trigger or event parcel with this tick (3, 6) or an idle one, two HK records (4) or the oldest
fault record, else the oldest record (5) that entered before this tick, which leave their queue; a lane that is down
takes nothing off a queue and sends an idle parcel there; a peer slot (7) sends the peer's parcel of sheet S + 64 FWD
in time, else an idle one; no other port sends anything. (R21, R165, R292, R294, 08_streaming_and_events.md) -/
def Obligations.StreamDeadlineCoversAndSlots : Prop :=
  (∀ s : State, s.tm.clk = true →
    (s.bit FGL_STATUS_LOADED = false → exec .sheetDeadline s = .next s) ∧
    (s.bit FGL_STATUS_LOADED = true → ∃ t, exec .sheetDeadline s = .next t ∧ Keeps (foot [.str]) s t ∧
      t.str = { s.str with here := t.str.here } ∧ t.str.here = s.str.here ++ ((s.blocksDue (sheetOf (s.tm.hpm -
          160))).filter (fun x =>
        !s.str.here.any (fun b => b.slot == sheetOf (s.tm.hpm - 160) && b.col == x.1))).map
          (fun x => ⟨sheetOf (s.tm.hpm - 160), x.1, lostBlock x.2 x.1, true, 0⟩))) ∧
  (∀ (d : Bool) (c r : Nat), c < 32 → r < 64 →
    bitsOf (lostBlock d c) 1631 1631 = (if d then 1 else 0) ∧ bitsOf (lostBlock d c) 1628 1624 = c ∧
    bitsOf (lostBlock d c) 1623 1616 = 0x80 ∧ bitsOf (lostBlock d c) 1615 1552 = 2 ^ 64 - 1 ∧
    bitsOf (lostBlock d c) (1551 - 24 * r) (1528 - 24 * r) = 0x800000) ∧
  (∀ s : State, s.tm.clk = true →
    (isSheet s.tm.hpm = false → exec .coverParcel s = .next s) ∧
    (isSheet s.tm.hpm = true → ∃ t, exec .coverParcel s = .next t ∧ Keeps (foot [.reg GLB_DETERMINISM, .reg
        LNK_DEADLETTER_COUNT, .reg LNK_SLOWCTL_STATUS, .reg (ENG_STATUS 0x600), .reg STR_SHEET_COUNT, .reg
        STR_SKIPPED_COUNT, .reg (ENG_STATUS 0x1B00), .flt, .win .lnk, .recTick, .bar, .faults, .cou, .bru, .str, .lnk,
        .free, .srcs]) s t ∧
      (∀ p, p < 4 → s.isUp p = true → s.portDark p = false →
        ∀ w : Nat, w = (assocGet t.lnk.out p 0).toNat →
        bitsOf w 255 252 = 0xF ∧ bitsOf w 251 210 = t.tm.hpm.toNat / 64 ∧
        bitsOf w 209 208 = (if t.bit (LNK_PORT_STATUS_RETIRED p) then t.fld (LNK_PORT_STATUS_RETIRED_EPOCH p)
          else t.bar.hostEpoch.toNat) ∧
        bitsOf w 207 206 = p ∧ bitsOf w 205 205 = (if t.hostTab then 1 else 0) ∧
        bitsOf w 204 197 = t.fld LNK_NODE_ADDRESS_NODE ∧ bitsOf w 196 194 = t.glb ∧
        bitsOf w 193 190 = t.fld GLB_DETERMINISM_REASON ∧ bitsOf w 189 188 = t.seenSev % 4 ∧
        bitsOf w 187 185 = t.fld PWR_STATE_STATE ∧ bitsOf w 184 184 = (if t.drapeSent then 1 else 0) ∧
        bitsOf w 183 178 = t.str.lostN % 64 ∧ bitsOf w 177 172 = t.fld LNK_DEADLETTER_COUNT_ENVELOPES % 64 ∧
        bitsOf w 171 166 = t.fld LNK_DEADLETTER_COUNT_PARCELS % 64 ∧ bitsOf w 165 160 = 0 ∧
        bitsOf w 159 128 = t.echo % 2 ^ 32 ∧ bitsOf w 127 72 = s.replySlot false % 2 ^ 56 ∧
        bitsOf w 71 16 = s.replySlot true % 2 ^ 56 ∧ bitsOf w 15 0 = crc16 240 (bitsOf w 255 16)) ∧
      (∀ p, p < 4 → s.isUp p = false ∨ s.portDark p = true → assocGet t.lnk.out p 0 = assocGet s.lnk.out p 0) ∧
      t.lnk.replies = s.lnk.replies.filter (fun r => !decide (r.tick = s.tm.tick)) ∧
      (s.bit STR_CTRL_EN = false ∨ (s.glb ≠ 6 ∧ s.glb ≠ 7) → t.str.live = false ∧ t.str.plan = [] ∧ t.str.lostN = 0))) ∧
  (∀ (s : State) (p : Fin 4), s.tm.clk = true →
    (s.isUp p.val = false ∨ isSheet s.tm.hpm = true → exec (.slotFill p) s = .next s) ∧
    (s.isUp p.val = true → isSheet s.tm.hpm = false → s.portDark p.val = false →
      ∃ t, exec (.slotFill p) s = .next t ∧ Keeps (foot [.reg LNK_DEADLETTER_COUNT, .win .lnk, .lnk]) s t ∧
      (∀ q, q < 4 → q ≠ p.val → assocGet t.lnk.out q 0 = assocGet s.lnk.out q 0 ∧
        assocGet t.lnk.line q [] = assocGet s.lnk.line q []) ∧
      ∀ (k : Nat) (kind : Nat) (par : Parcel), k = s.tm.hpm.toNat % 64 → kind = s.schedKind s.hostTab p.val k →
        par = assocGet t.lnk.out p.val 0 →
      (s.bit (LNK_PORT_STATUS_RETIRED p.val) = true ∨ kind ∉ [2, 3, 4, 5, 6, 7] →
        par = 0 ∧ t.lnk.hkQ = s.lnk.hkQ ∧ t.lnk.stQ = s.lnk.stQ) ∧
      (s.bit (LNK_PORT_STATUS_RETIRED p.val) = false →
        (kind = 2 → par = s.str.plan.getD (s.streamSlots.idxOf (k, p.val)) 0) ∧
        (kind ∈ [3, 4, 5, 6] → s.bit (LNK_PORT_STATUS_FAILED p.val) = true →
          par = 0 ∧ t.lnk.hkQ = s.lnk.hkQ ∧ t.lnk.stQ = s.lnk.stQ) ∧
        (s.bit (LNK_PORT_STATUS_FAILED p.val) = false →
          (kind = 3 ∨ kind = 6 →
            (∀ d, s.evt.due.find? (fun d => d.pm == s.tm.hpm && d.port == p.val) = some d → d.here = true →
              par = d.parcel) ∧
            (s.evt.due.find? (fun d => d.pm == s.tm.hpm && d.port == p.val) = none → par = 0)) ∧
          (kind = 4 →
            (s.ripe s.lnk.hkQ = [] → par = 0 ∧ t.lnk.hkQ = s.lnk.hkQ) ∧
            (∀ a, s.ripe s.lnk.hkQ = [a] → par = hkParcel a.pay 0 ∧ t.lnk.hkQ = s.lnk.hkQ.drop 1) ∧
            (∀ a b l, s.ripe s.lnk.hkQ = a :: b :: l → par = hkParcel a.pay b.pay ∧
              t.lnk.hkQ = s.lnk.hkQ.drop 2)) ∧
          (kind = 5 →
            (s.ripe s.lnk.stQ = [] → par = 0 ∧ t.lnk.stQ = s.lnk.stQ) ∧
            (∀ x, (s.ripe s.lnk.stQ).find? (fun x => x.src != 2) = some x → par = statusParcel x ∧
              t.lnk.stQ = dropAt s.lnk.stQ (s.lnk.stQ.idxOf x)) ∧
            (∀ x l, s.ripe s.lnk.stQ = x :: l → (∀ y ∈ s.ripe s.lnk.stQ, y.src = 2) → par = statusParcel x ∧
              t.lnk.stQ = dropAt s.lnk.stQ (s.lnk.stQ.idxOf x)))) ∧
        (kind = 7 → ∀ q j, q = s.schedPort s.hostTab p.val k → j = s.schedSlot s.hostTab p.val k →
          (∀ x : PeerSheet, s.lnk.peers.find? (fun x => x.port == q &&
              x.sheet == sheetOf s.tm.hpm - BitVec.ofNat 48 (64 * s.fld (LNK_PORT_CFG_FWD q))) = some x →
            (x.parcels ≠ [] → x.arrived + j + 4 ≤ s.tm.tick → par = x.parcels.getD j 0) ∧
            (x.parcels ≠ [] → s.tm.tick < x.arrived + j + 4 → par = 0 ∧ t.fld LNK_DEADLETTER_COUNT_PARCELS =
              (s.fld LNK_DEADLETTER_COUNT_PARCELS + 1) % 2 ^ LNK_DEADLETTER_COUNT_PARCELS.len) ∧
            (x.parcels = [] → par = 0)) ∧
          (s.lnk.peers.find? (fun x => x.port == q &&
              x.sheet == sheetOf s.tm.hpm - BitVec.ofNat 48 (64 * s.fld (LNK_PORT_CFG_FWD q))) = none →
            par = 0 ∧ t.fld LNK_DEADLETTER_COUNT_PARCELS =
              (s.fld LNK_DEADLETTER_COUNT_PARCELS + 1) % 2 ^ LNK_DEADLETTER_COUNT_PARCELS.len)))))

/-- A header takes its trigger slot or its fragment is lost; a stream setting changes at its boundary; a bad
pigeonhole word reads as R175 says. FRAGMENT_HEADER with the clock: with no header due at this tick nothing changes;
where the port is UP and the slot is a TRIG slot, the header parcel of Table 08-4 (KIND 0xA and each further field in
its bits, with its frank) takes the slot, the count of refused TRIGs returns to 0, and the fragment waits for its
data, or goes with none left; otherwise the fragment goes, the count rises, saturating, and one parcel is logged.
STR_DECIMATION_CHANGE with clock and field supply: the value in force changes nothing; another is stored (MIN_VALID
held to 1 to 256, EXP to 8), the setting before it is kept in front of the earlier ones, four at most, unless one of
this boundary is there, DEC_CHANGE counts the old blocks that are not sent, saturating, and unlaunched in RUNNING
sticky reason 0x5 is set, else GLB_DETERMINISM stays. PIGEONHOLE_MEMORY_ERROR keeps the word as bad once and raises
source 1 of EVT; a bad reading reads as 0x800000 and its summary bit as 1, a bad summary word as FLAG_OR 0x40 with
ATTENTION all ones (after the horizon). (R171, R175, R178, R302, 08_streaming_and_events.md) -/
def Obligations.FragmentsDecimationAndBadWords : Prop :=
  (∀ s : State, s.tm.clk = true →
    (s.evt.frags.find? (fun f => f.header && f.at_ == s.tm.hpm) = none → exec .fragmentHeader s = .next s) ∧
    ∀ f : Frag, s.evt.frags.find? (fun f => f.header && f.at_ == s.tm.hpm) = some f →
      (s.isUp f.port = true ∧ s.schedKind s.hostTab f.port (s.tm.hpm.toNat % 64) = 6 →
        ∃ t, exec .fragmentHeader s = .next t ∧ Keeps (foot [.evt]) s t ∧ t.evt.lostTrg = 0 ∧
          t.evt.due = ⟨s.tm.hpm, f.port, true, fragHeaderParcel f s.evt.lostTrg, true, true⟩ :: s.evt.due ∧
          t.evt.frags = (s.evt.frags.map (fun x => if x = f then { x with header := false } else x)).filter
            (fun x => x.header || decide (x.next < x.d))) ∧
      (¬ (s.isUp f.port = true ∧ s.schedKind s.hostTab f.port (s.tm.hpm.toNat % 64) = 6) →
        ∃ t, exec .fragmentHeader s = .next t ∧ Keeps (foot [.reg LNK_DEADLETTER_COUNT, .win .lnk, .evt]) s t ∧
          t.evt = { s.evt with frags := s.evt.frags.filter (fun k => k != f), lostTrg := min 65535 (s.evt.lostTrg + 1)
              } ∧
          t.fld LNK_DEADLETTER_COUNT_PARCELS = (s.fld LNK_DEADLETTER_COUNT_PARCELS + 1) % 2 ^ 16)) ∧
  (∀ (f : Frag) (lost w : Nat), f.cF < 32 → f.cL < 32 → f.rF < 64 → f.rL < 64 → w = (fragHeaderParcel f lost).toNat →
    bitsOf w 255 252 = 0xA ∧ bitsOf w 251 236 = f.seq % 2 ^ 16 ∧ bitsOf w 235 188 = f.t.toNat ∧
    bitsOf w 187 140 = f.first.toNat ∧ bitsOf w 139 135 = f.len % 2 ^ 5 ∧ bitsOf w 134 132 = f.region % 2 ^ 3 ∧
    bitsOf w 131 127 = f.cF ∧ bitsOf w 126 122 = f.cL ∧ bitsOf w 121 116 = f.rF ∧ bitsOf w 115 110 = f.rL ∧
    bitsOf w 109 96 = f.d % 2 ^ 14 ∧ bitsOf w 95 80 = lost % 2 ^ 16 ∧ bitsOf w 79 16 = 0 ∧
    bitsOf w 15 0 = crc16 240 (bitsOf w 255 16)) ∧
  (∀ v : Word, fldGet STR_DECIMATION_EXP (decStored v) = min (fldGet STR_DECIMATION_EXP v) 8 ∧
    fldGet STR_DECIMATION_MIN_VALID (decStored v) = max 1 (min (fldGet STR_DECIMATION_MIN_VALID v) 256)) ∧
  (∀ (s : State) (mask : Bool) (v x : Word) (i e : Nat) (w : Writer), s.tm.clk = true → s.pin.fieldPower = true →
    i = (if mask then STR_COLUMN_MASK else STR_DECIMATION) → x = (if mask then v else decStored v) →
    e = (if mask then s.strExp else min (fldGet STR_DECIMATION_EXP v) 8) →
    (s.reg i = x → exec (.strDecimationChange mask v w) s = .next s) ∧
    (s.reg i ≠ x → ∃ t, exec (.strDecimationChange mask v w) s = .next t ∧
      Keeps (foot [.reg i, .reg STR_SKIPPED_COUNT, .reg GLB_DETERMINISM, .str, .faults]) s t ∧ t.reg i = x ∧
      t.str = { s.str with old := t.str.old } ∧
      t.str.old = (if s.str.old.head?.map (fun o => o.until_) = some s.tm.fpm then s.str.old
        else (⟨s.tm.fpm, BitVec.ofNat 32 s.strMask, s.strExp, s.fld STR_DECIMATION_MIN_VALID⟩ :: s.str.old).take 4) ∧
      t.fld STR_SKIPPED_COUNT_DEC_CHANGE =
        min (s.fld STR_SKIPPED_COUNT_DEC_CHANGE + skippedAt s.strMask s.strExp e) 65535 ∧
      (w.launched = false → s.glb = 7 → bitOf (t.fld GLB_DETERMINISM_STICKY) 5 = true) ∧
      (w.launched = true ∨ s.glb ≠ 7 → t.reg GLB_DETERMINISM = s.reg GLB_DETERMINISM))) ∧
  (∀ (s : State) (a : BitVec 23), s.tm.clk = true → s.pin.fieldPower = true →
    ∃ t, exec (.pigeonholeMemoryError a) s = .next t ∧ Keeps (foot [.reg GLB_DETERMINISM, .reg LNK_DEADLETTER_COUNT,
        .reg (ENG_STATUS 0x600), .reg (ENG_STATUS 0x1B00), .flt, .win .lnk, .recTick, .bar, .faults, .cou, .bru, .evt,
        .lnk, .free, .srcs]) s t ∧
      t.evt = { s.evt with badWord := if a.toNat ∈ s.evt.badWord then s.evt.badWord
        else s.evt.badWord ++ [a.toNat] } ∧
      ((s.src .evt 1).last ≠ some s.tm.tick → bitOf (t.fld (FLT_LATCH_LATCH (blkBase .evt))) 1 = true) ∧
      (∀ ch sheet, ringAddr ch sheet = a.toNat → t.ringRead ch sheet = 0x800000) ∧
      (∀ c r sheet, r < 64 → ringAddr (64 * c + r) sheet = a.toNat → bitOf (t.summary c sheet).2 r = true) ∧
      ∀ c sheet k, k < 3 → sumAddr c sheet k = a.toNat → t.beforeHorizon sheet = false →
        t.summary c sheet = (0x40, 2 ^ 64 - 1))

/-- A pass starts with the check or entry 0; a conversion goes on, gives its result and makes way for what comes next.
With the clock and the field supply, for either converter; the other keeps its state. HK_PASS_START of a converter
that converts, may not run or calibrates changes nothing; else it takes LENGTH and starts the check conversion (EN) or
entry 0, with its word, factors, and bit 29 from READY. HK_CONVERSION_DONE of an entry with conversions left adds the
calibrated code of a counted one to the sum, or takes it off in the negative half of EXC 3, and starts the next in
this tick; of the last one writes RESULT (the sum shifted, to even, clamped to plus or minus 0x7FFFFF), ENTRY, OVR,
REF_NS, CHECK, STAMP and LAST_URGENT, sets NEW unless it is forwarded, and where NEW stood sets OVERRUN and counts it,
saturating; then comes the next entry, or a new pass with PASS_COUNT one up, or after an urgent one the pending
request, else what it interrupted, else nothing. A check conversion gives entry 0 the turn; settled, its code is kept,
and with both converters' codes DIFF holds their difference and VALID is set: beyond TOL, MISMATCH and both flags are
set, else its own flag clears. A calibration conversion adds its raw code to the sum of its quarter; the 64th ends the
gain as HK_CAL_GAIN_DONE does. (R187, R192, R193, R196, R199, R201, 09_housekeeping.md) -/
def Obligations.ConvertersRunTheirPasses : Prop :=
  ∀ (s : State) (x : Hk) (b : Nat), s.tm.clk = true → s.pin.fieldPower = true → b = hkBase x →
    ((s.hk x).conv ≠ none ∨ s.hkMayRun x = false ∨ (s.hk x).gains ≠ [] → exec (.hkPassStart x) s = .next s) ∧
    ((s.hk x).conv = none → s.hkMayRun x = true → (s.hk x).gains = [] →
      ∃ t c, exec (.hkPassStart x) s = .next t ∧ Keeps (foot [.reg (HKx_CTRL 0x1700), .reg (HKx_STATUS 0x1700), .reg
          (HKx_CTRL 0x1800), .reg (HKx_STATUS 0x1800), .reg HKS_EXC_STATUS, .hka, .hkb, .srcs]) s t ∧ t.hk (hkOther x)
          = s.hk (hkOther x) ∧
        (t.hk x).len = s.fld (HKx_SEQ_LENGTH_LENGTH b) ∧
        t.hk x = { s.hk x with conv := some c, next := none, resume := none, pass := false, len := (t.hk x).len } ∧
        s.beginsConv x (if s.bit HKS_CHECK_CTRL_EN then .check else .entry) 0 c ∧
        t.fld (HKx_CTRL_ACTIVITY b) = (if s.bit HKS_CHECK_CTRL_EN then 1 else 2)) ∧
    ∀ (c : HkConv) (raw : W24) (ovld : Bool), (s.hk x).conv = some c →
      (c.kind = .entry ∨ c.kind = .urgent →
        ∀ (sum : Int) (ovr : Bool),
        sum = (if seqCounted c.word c.k then
          (if seqExc c.word = 3 ∧ seqIndex c.word c.k % 2 = 0 then c.sum - hkCode c raw else c.sum + hkCode c raw)
          else c.sum) →
        ovr = (c.ovr || (seqCounted c.word c.k && (ovld || decide (0x7F0000 ≤ (sgn 24 raw.toNat).natAbs)))) →
        (c.k + 1 < seqTotal c.word →
          ∃ t c', exec (.hkConversionDone x raw ovld) s = .next t ∧ Keeps (foot [.anyReg, .win .lnk, .win .cal,
              .recTick, .bar, .faults, .cou, .bru, .var, .lnk, .hka, .hkb, .cal, .free, .srcs]) s t ∧
            t.hk (hkOther x) = s.hk (hkOther x) ∧ t.hk x = { s.hk x with conv := some c', next := none } ∧
            c'.kind = c.kind ∧ c'.entry = c.entry ∧ c'.word = c.word ∧ c'.k = c.k + 1 ∧ c'.sum = sum ∧
            c'.start = s.tm.tick ∧ c'.ticks = convTicks (seqTime c.word) ∧ (ovr = true → c'.ovr = true)) ∧
        (seqTotal c.word ≤ c.k + 1 →
          ∃ t, exec (.hkConversionDone x raw ovld) s = .next t ∧ Keeps (foot [.anyReg, .win .lnk, .win .cal, .recTick,
              .bar, .faults, .cou, .bru, .var, .lnk, .hka, .hkb, .cal, .free, .srcs]) s t ∧
            t.hk (hkOther x) = s.hk (hkOther x) ∧ (t.hk x).conv = none ∧
            t.fld (HKx_DATA_RESULT b) = unsgn 24 (clampInt (-0x7FFFFF) 0x7FFFFF
              (if seqShift c.word = 0 then sum else rne sum (seqShift c.word))) ∧
            t.fld (HKx_DATA_ENTRY b) = c.entry % 16 ∧ t.bit (HKx_DATA_OVR b) = ovr ∧ t.bit (HKx_DATA_REF_NS b) = c.ns ∧
            t.bit (HKx_DATA_CHECK b) = (if x = .a then s.bit HKS_CHECK_STATUS_FLAG_A else s.bit
                HKS_CHECK_STATUS_FLAG_B) ∧
            t.bit (HKx_DATA_NEW b) = (!seqFwd c.word) ∧ t.fld (HKx_STATUS_STAMP b) = s.tm.fpm.toNat % 2 ^ 24 ∧
            t.bit (HKx_STATUS_LAST_URGENT b) = (c.kind == .urgent) ∧
            t.bit (HKx_STATUS_OVERRUN b) = (s.bit (HKx_STATUS_OVERRUN b) || s.bit (HKx_DATA_NEW b)) ∧
            t.fld (HKx_OVERRUN_COUNT_COUNT b) = (if s.bit (HKx_DATA_NEW b) then
              min (s.fld (HKx_OVERRUN_COUNT_COUNT b) + 1) 65535 else s.fld (HKx_OVERRUN_COUNT_COUNT b)) ∧
            (c.kind = .entry → c.entry + 1 < (s.hk x).len →
              (t.hk x).next = some (.entry, c.entry + 1) ∧ (t.hk x).pass = (s.hk x).pass) ∧
            (c.kind = .entry → (s.hk x).len ≤ c.entry + 1 → (t.hk x).next = none ∧ (t.hk x).pass = true ∧
              t.fld (HKx_SEQ_LENGTH_PASS_COUNT b) = (s.fld (HKx_SEQ_LENGTH_PASS_COUNT b) + 1) % 2 ^ 16) ∧
            (c.kind = .urgent → ∀ e, (s.hk x).urg = some e → (t.hk x).next = some (.urgent, e) ∧
              (t.hk x).urg = none ∧ (t.hk x).resume = (s.hk x).resume ∧ t.bit (HKx_STATUS_URG_PENDING b) = false) ∧
            (c.kind = .urgent → (s.hk x).urg = none → (t.hk x).next = (s.hk x).resume ∧ (t.hk x).resume = none))) ∧
      (c.kind = .check → ∃ t, exec (.hkConversionDone x raw ovld) s = .next t ∧ Keeps (foot [.anyReg, .win .lnk, .win
          .cal, .recTick, .bar, .faults, .cou, .bru, .var, .lnk, .hka, .hkb, .cal, .free, .srcs]) s t ∧
        t.hk (hkOther x) = s.hk (hkOther x) ∧ (t.hk x).conv = none ∧
        (t.hk x).next = (if 0 < (s.hk x).len then some (.entry, 0) else none) ∧
        (t.hk x).check = (if c.ns then (s.hk x).check else some (hkCode c raw)) ∧
        (c.ns = true → t.reg HKS_CHECK_STATUS = s.reg HKS_CHECK_STATUS ∧ t.reg HKS_CHECK_DIFF = s.reg HKS_CHECK_DIFF) ∧
        (c.ns = false → ∀ va vb, t.hka.check = some va → t.hkb.check = some vb →
          t.bit HKS_CHECK_STATUS_VALID = true ∧
          t.fld HKS_CHECK_DIFF_DIFF = unsgn 24 (clampInt (-0x800000) 0x7FFFFF (va - vb)) ∧
          (s.fld HKS_CHECK_CTRL_TOL < (va - vb).natAbs → t.bit HKS_CHECK_STATUS_MISMATCH = true ∧
            t.bit HKS_CHECK_STATUS_FLAG_A = true ∧ t.bit HKS_CHECK_STATUS_FLAG_B = true) ∧
          ((va - vb).natAbs ≤ s.fld HKS_CHECK_CTRL_TOL →
            t.bit HKS_CHECK_STATUS_MISMATCH = s.bit HKS_CHECK_STATUS_MISMATCH ∧
            t.bit HKS_CHECK_STATUS_FLAG_A = (if x = .a then false else s.bit HKS_CHECK_STATUS_FLAG_A) ∧
            t.bit HKS_CHECK_STATUS_FLAG_B = (if x = .a then s.bit HKS_CHECK_STATUS_FLAG_B else false)))) ∧
      (c.kind = .cal → ∀ sums : List Int,
        sums = (s.hk x).sums.set (c.k / 16) ((s.hk x).sums.getD (c.k / 16) 0 + sgn 24 raw.toNat) →
        (c.k + 1 < 64 → ∃ t c', exec (.hkConversionDone x raw ovld) s = .next t ∧
          Keeps (foot [.anyReg, .win .lnk, .win .cal, .recTick, .bar, .faults, .cou, .bru, .var, .lnk, .hka, .hkb,
              .cal, .free, .srcs]) s t ∧ t.hk (hkOther x) = s.hk (hkOther x) ∧
          t.hk x = { s.hk x with conv := some c', next := none, sums := sums } ∧ c'.kind = .cal ∧ c'.entry = c.entry ∧
          c'.k = c.k + 1 ∧ c'.start = s.tm.tick ∧ c'.ticks = convTicks (seqTime c.word)) ∧
        (64 ≤ c.k + 1 → exec (.hkConversionDone x raw ovld) s =
          exec (.hkCalGainDone x) (s.setHk x { s.hk x with sums := sums })))

/-- A read consumes a result; RUN, RESTART and URGENT start, stop and interrupt a converter; what does not fit is
rejected. With the clock and the field supply, for either converter; the other keeps its state. HK_DATA_READ clears
NEW alone. HK_RUN_CHANGE stores RUN (0 for an isolated converter): the value that stands changes nothing of the
converter; from 1 to 0 it abandons the conversion, counted in ABANDON, saturating, ends a calibration with LAST_RESULT
7, and leaves nothing running, next, interrupted, or pending, with ACTIVITY 0 (5 when halted); from 0 to 1 an idle
converter that may run and has no gain left starts a pass. HK_RESTART abandons and ends in the same way and starts a
pass where the converter may run. HK_URGENT of a halted, stopped or calibrating converter, or with an urgent entry
running or about to start and another pending, sets URG_REJECT and raises source 1 of its block (its LATCH bit, where
it is the source's first in this tick); with an urgent entry and none pending it becomes pending; else the running
conversion is abandoned and counted, what it was is to start again, and the entry starts in this tick. (R193, R194,
R197, R199, R200, R208, 09_housekeeping.md) -/
def Obligations.ConvertersObeyTheirCommands : Prop :=
  ∀ (s : State) (x : Hk) (b : Nat), s.tm.clk = true → s.pin.fieldPower = true → b = hkBase x →
    (∃ t, exec (.hkDataRead x) s = .next t ∧ Keeps (foot [.reg (HKx_DATA b)]) s t ∧ t.bit (HKx_DATA_NEW b) = false ∧
      ∀ f ∈ [HKx_DATA_RESULT b, HKx_DATA_ENTRY b, HKx_DATA_OVR b, HKx_DATA_REF_NS b, HKx_DATA_CHECK b],
        t.fld f = s.fld f) ∧
    (∀ (run r : Bool) (w : Writer), r = (run && !s.flt.iso.contains (0xD0 + hkNum x)) →
      ∃ t, exec (.hkRunChange x run w) s = .next t ∧ Keeps (foot [.reg GLB_DETERMINISM, .reg (HKx_CTRL 0x1700), .reg
          (HKx_STATUS 0x1700), .reg (HKx_OVERRUN_COUNT 0x1700), .reg (HKx_CAL_STATUS 0x1700), .reg (HKx_CTRL 0x1800),
          .reg (HKx_STATUS 0x1800), .reg (HKx_OVERRUN_COUNT 0x1800), .reg (HKx_CAL_STATUS 0x1800), .reg
          HKS_EXC_STATUS, .faults, .cou, .bru, .hka, .hkb, .srcs]) s t ∧
        t.hk (hkOther x) = s.hk (hkOther x) ∧ t.bit (HKx_CTRL_RUN b) = r ∧
        (s.bit (HKx_CTRL_RUN b) = r → t.hk x = s.hk x) ∧
        (s.bit (HKx_CTRL_RUN b) = true → r = false →
          (t.hk x).conv = none ∧ (t.hk x).next = none ∧ (t.hk x).resume = none ∧ (t.hk x).pass = false ∧
          (t.hk x).urg = none ∧ t.bit (HKx_STATUS_URG_PENDING b) = false ∧
          t.fld (HKx_CTRL_ACTIVITY b) = (if (s.hk x).halted then 5 else 0) ∧
          ((s.hk x).conv ≠ none →
            t.fld (HKx_OVERRUN_COUNT_ABANDON b) = min (s.fld (HKx_OVERRUN_COUNT_ABANDON b) + 1) 65535) ∧
          (s.bit (HKx_CAL_STATUS_BUSY b) = true → t.bit (HKx_CAL_STATUS_BUSY b) = false ∧
            t.fld (HKx_CAL_STATUS_LAST_RESULT b) = 7 ∧ (t.hk x).gains = [])) ∧
        (s.bit (HKx_CTRL_RUN b) = false → r = true → (s.hk x).conv ≠ none ∨ (s.hk x).next ≠ none →
          t.hk x = s.hk x) ∧
        (s.bit (HKx_CTRL_RUN b) = false → r = true → (s.hk x).conv = none → (s.hk x).next = none →
          s.bit FGL_STATUS_LOADED = true → (s.hk x).halted = false → (s.hk x).off = false → (s.hk x).gains = [] →
          ∃ c, (t.hk x).conv = some c ∧ s.beginsConv x (if s.bit HKS_CHECK_CTRL_EN then .check else .entry) 0 c)) ∧
    (∀ w : Writer, ∃ t, exec (.hkRestart x w) s = .next t ∧ Keeps (foot [.reg GLB_DETERMINISM, .reg (HKx_CTRL 0x1700),
        .reg (HKx_STATUS 0x1700), .reg (HKx_OVERRUN_COUNT 0x1700), .reg (HKx_CAL_STATUS 0x1700), .reg (HKx_CTRL
        0x1800), .reg (HKx_STATUS 0x1800), .reg (HKx_OVERRUN_COUNT 0x1800), .reg (HKx_CAL_STATUS 0x1800), .reg
        HKS_EXC_STATUS, .faults, .cou, .bru, .hka, .hkb, .srcs]) s t ∧
      t.hk (hkOther x) = s.hk (hkOther x) ∧ (t.hk x).resume = none ∧ (t.hk x).urg = none ∧ (t.hk x).next = none ∧
      t.bit (HKx_STATUS_URG_PENDING b) = false ∧
      ((s.hk x).conv ≠ none →
        t.fld (HKx_OVERRUN_COUNT_ABANDON b) = min (s.fld (HKx_OVERRUN_COUNT_ABANDON b) + 1) 65535) ∧
      (s.bit (HKx_CAL_STATUS_BUSY b) = true → t.bit (HKx_CAL_STATUS_BUSY b) = false ∧
        t.fld (HKx_CAL_STATUS_LAST_RESULT b) = 7 ∧ (t.hk x).gains = []) ∧
      (s.hkMayRun x = false → (t.hk x).conv = none) ∧
      (s.hkMayRun x = true → s.bit (HKx_CAL_STATUS_BUSY b) = true ∨ (s.hk x).gains = [] →
        ∃ c, (t.hk x).conv = some c ∧ s.beginsConv x (if s.bit HKS_CHECK_CTRL_EN then .check else .entry) 0 c)) ∧
    ∀ (e : Fin 16) (w : Writer) (urgent : Prop), (urgent ↔ (∃ c, (s.hk x).conv = some c ∧ c.kind = .urgent) ∨
        ∃ n, (s.hk x).next = some (.urgent, n)) →
      ((s.hk x).halted = true ∨ (s.hk x).off = true ∨ s.bit (HKx_CAL_STATUS_BUSY b) = true ∨
          (urgent ∧ (s.hk x).urg ≠ none) →
        ∃ t, exec (.hkUrgent x e w) s = .next t ∧ Keeps (foot [.reg GLB_DETERMINISM, .reg LNK_DEADLETTER_COUNT, .reg
            (ENG_STATUS 0x600), .reg (HKx_CTRL 0x1700), .reg (HKx_STATUS 0x1700), .reg (HKx_OVERRUN_COUNT 0x1700),
            .reg (HKx_CTRL 0x1800), .reg (HKx_STATUS 0x1800), .reg (HKx_OVERRUN_COUNT 0x1800), .reg HKS_EXC_STATUS,
            .reg (ENG_STATUS 0x1B00), .flt, .win .lnk, .recTick, .bar, .faults, .cou, .bru, .lnk, .hka, .hkb, .free,
            .srcs]) s t ∧ t.hka = s.hka ∧ t.hkb = s.hkb ∧
          t.bit (HKx_STATUS_URG_REJECT b) = true ∧
          ((s.src (hkBlk x) 1).last ≠ some s.tm.tick →
            bitOf (t.fld (FLT_LATCH_LATCH (blkBase (hkBlk x)))) 1 = true)) ∧
      ((s.hk x).halted = false → (s.hk x).off = false → s.bit (HKx_CAL_STATUS_BUSY b) = false →
        (urgent → (s.hk x).urg = none → ∃ t, exec (.hkUrgent x e w) s = .next t ∧ Keeps (foot [.reg GLB_DETERMINISM,
            .reg LNK_DEADLETTER_COUNT, .reg (ENG_STATUS 0x600), .reg (HKx_CTRL 0x1700), .reg (HKx_STATUS 0x1700), .reg
            (HKx_OVERRUN_COUNT 0x1700), .reg (HKx_CTRL 0x1800), .reg (HKx_STATUS 0x1800), .reg (HKx_OVERRUN_COUNT
            0x1800), .reg HKS_EXC_STATUS, .reg (ENG_STATUS 0x1B00), .flt, .win .lnk, .recTick, .bar, .faults, .cou,
            .bru, .lnk, .hka, .hkb, .free, .srcs]) s t ∧
          t.hk (hkOther x) = s.hk (hkOther x) ∧ t.hk x = { s.hk x with urg := some e.val } ∧
          t.bit (HKx_STATUS_URG_PENDING b) = true) ∧
        (¬ urgent → ∃ t c, exec (.hkUrgent x e w) s = .next t ∧ Keeps (foot [.reg GLB_DETERMINISM, .reg
            LNK_DEADLETTER_COUNT, .reg (ENG_STATUS 0x600), .reg (HKx_CTRL 0x1700), .reg (HKx_STATUS 0x1700), .reg
            (HKx_OVERRUN_COUNT 0x1700), .reg (HKx_CTRL 0x1800), .reg (HKx_STATUS 0x1800), .reg (HKx_OVERRUN_COUNT
            0x1800), .reg HKS_EXC_STATUS, .reg (ENG_STATUS 0x1B00), .flt, .win .lnk, .recTick, .bar, .faults, .cou,
            .bru, .lnk, .hka, .hkb, .free, .srcs]) s t ∧
          t.hk (hkOther x) = s.hk (hkOther x) ∧ (t.hk x).conv = some c ∧ s.beginsConv x .urgent e.val c ∧
          (t.hk x).next = none ∧ (t.hk x).urg = (s.hk x).urg ∧
          (∀ c0, (s.hk x).conv = some c0 → (t.hk x).resume = some (c0.kind, c0.entry) ∧
            t.fld (HKx_OVERRUN_COUNT_ABANDON b) = min (s.fld (HKx_OVERRUN_COUNT_ABANDON b) + 1) 65535) ∧
          ((s.hk x).conv = none → (s.hk x).pass = true →
            (t.hk x).resume = some (if s.bit HKS_CHECK_CTRL_EN then .check else .entry, 0)) ∧
          ((s.hk x).conv = none → (s.hk x).pass = false → (t.hk x).resume = (s.hk x).next)))

/-- Each arithmetic, logic, compare and timer microword stores its result, sets its flags and branches. For either
engine and either context that runs, A and B being the values of SRCA and SRCB (Table 11-3): MOV, ADD, SUB, AND, OR,
XOR, SHL, SHR, ASR, MULL and MULH store the result of Table 11-4 in the destination and set Z and N from it, C and V
as the table says (ADD: the carry out of bit 23 and signed overflow; SUB: the borrow and signed overflow; the others
clear both); CMP and TEST set the flags of A − B and of A and B and store nothing; NOP keeps the flags; SETTIMER
stores A in TIMER and keeps the flags. Shift counts are B mod 32, and 24 or more gives 0, or the sign. The products
are the exact signed product's bits [23:0] and [47:24]. XH takes bits [7:0]; code 16 discards the result, and so do
the destination codes that Table 11-3 reserves, which is the model's reading (the loader rejects them). The context's
address becomes NEXT where COND is true with the new flags, else PC + 1. No other window word, no other field of
_STATUS, no other register and nothing else of the state changes. (R233, R237, R239, 11_engines.md) -/
def Obligations.MicrowordsCompute : Prop :=
  ∀ (s : State) (e : Eng) (svc : Bool) (m : Micro) (a b r : W24), s.runs e svc m →
    a = s.source e svc m.srca.toNat m.imm → b = s.source e svc m.srcb.toNat m.imm →
    (∃ t, exec (.mwNop e svc m) s = .next t ∧ s.ran t e svc m none 0 (s.flags e)) ∧
    (∀ p ∈ [(Instr.mwMov e svc m, a), (.mwAnd e svc m, a &&& b), (.mwOr e svc m, a ||| b), (.mwXor e svc m, a ^^^ b),
        (.mwShl e svc m, if b.toNat % 32 < 24 then a <<< (b.toNat % 32) else 0),
        (.mwShr e svc m, if b.toNat % 32 < 24 then a >>> (b.toNat % 32) else 0),
        (.mwAsr e svc m, if b.toNat % 32 < 24 then a.sshiftRight (b.toNat % 32) else a.sshiftRight 24),
        (.mwMull e svc m, BitVec.ofInt 24 (a.toInt * b.toInt)),
        (.mwMulh e svc m, BitVec.ofInt 24 ((a.toInt * b.toInt).fdiv (2 ^ 24)))],
      ∃ t, exec p.1 s = .next t ∧ s.ran t e svc m (resultPlace m.dst.toNat) (resultKept m.dst.toNat p.2)
        ⟨decide (p.2 = 0), p.2.getLsbD 23, false, false⟩) ∧
    (r = a + b → ∃ t, exec (.mwAdd e svc m) s = .next t ∧
      s.ran t e svc m (resultPlace m.dst.toNat) (resultKept m.dst.toNat r)
        ⟨decide (r = 0), r.getLsbD 23, decide (2 ^ 24 ≤ a.toNat + b.toNat), decide (r.toInt ≠ a.toInt + b.toInt)⟩) ∧
    (r = a - b → ∀ f : EFlags,
      f = ⟨decide (r = 0), r.getLsbD 23, decide (a.toNat < b.toNat), decide (r.toInt ≠ a.toInt - b.toInt)⟩ →
      (∃ t, exec (.mwSub e svc m) s = .next t ∧
        s.ran t e svc m (resultPlace m.dst.toNat) (resultKept m.dst.toNat r) f) ∧
      ∃ t, exec (.mwCmp e svc m) s = .next t ∧ s.ran t e svc m none 0 f) ∧
    (r = a &&& b → ∃ t, exec (.mwTest e svc m) s = .next t ∧
      s.ran t e svc m none 0 ⟨decide (r = 0), r.getLsbD 23, false, false⟩) ∧
    ∃ t, exec (.mwSettimer e svc m) s = .next t ∧ s.ran t e svc m (some 0x4A13) a (s.flags e)
end

