-- ==== Sys2Proof/Laws/Assoc.lean ====
section
/-!
SUPPORT. Laws of the sparse tables: a read after a write, and that writing, erasing and filtering keep the canonical
form.
-/
set_option Elab.async false
set_option linter.unusedTactic false
set_option linter.unreachableTactic false
namespace Sys2Proof.Machine

variable {α : Type}

@[simp] theorem assocGet_erase (t : Assoc α) (i j : Nat) (d : α) :
    assocGet (assocErase t i) j d = if i = j then d else assocGet t j d := by
  induction t with
  | nil => simp [assocErase, assocGet]
  | cons e t ih =>
    obtain ⟨k, w⟩ := e
    by_cases h : k = i
    · subst h
      by_cases hj : k = j
      · simp only [assocErase, if_true, ih, if_pos hj]
      · simp [assocErase, assocGet, ih, hj]
    · by_cases hj : k = j
      · subst hj
        simp [assocErase, assocGet, h, Ne.symm h]
      · simp [assocErase, assocGet, h, hj, ih]

@[simp] theorem assocGet_set (t : Assoc α) (i j : Nat) (v d : α) :
    assocGet (assocSet t i v) j d = if i = j then v else assocGet t j d := by
  induction t with
  | nil => simp [assocSet, assocGet]
  | cons e t ih =>
    obtain ⟨k, w⟩ := e
    simp only [assocSet]
    split
    · simp [assocGet]
    · split
      · next _ h => subst h; by_cases hj : i = j <;> simp [assocGet, hj]
      · next _ h =>
        by_cases hj : k = j
        · subst hj; simp [assocGet, h]
        · simp [assocGet, hj, ih]

theorem assocGet_put_same [DecidableEq α] (t : Assoc α) (i : Nat) (v d : α) :
    assocGet (assocPut t i v d) i d = v := by
  unfold assocPut; split <;> simp [*]

theorem assocGet_put_other [DecidableEq α] (t : Assoc α) {i j : Nat} (v d e : α) (h : i ≠ j) :
    assocGet (assocPut t i v d) j e = assocGet t j e := by
  unfold assocPut; split <;> simp [h]

theorem mem_assocErase {t : Assoc α} {i : Nat} {e : Nat × α} (h : e ∈ assocErase t i) : e ∈ t := by
  induction t with
  | nil => simp [assocErase] at h
  | cons x t ih =>
    obtain ⟨k, w⟩ := x
    simp only [assocErase] at h
    split at h
    · exact List.mem_cons_of_mem _ (ih h)
    · rcases List.mem_cons.1 h with h | h
      · exact h ▸ List.mem_cons_self ..
      · exact List.mem_cons_of_mem _ (ih h)

theorem mem_assocSet {t : Assoc α} {i : Nat} {v : α} {e : Nat × α} (h : e ∈ assocSet t i v) :
    e = (i, v) ∨ e ∈ t := by
  induction t with
  | nil => simpa [assocSet] using h
  | cons x t ih =>
    obtain ⟨k, w⟩ := x
    simp only [assocSet] at h
    split at h
    · simpa using h
    · split at h
      · rcases List.mem_cons.1 h with h | h
        · exact .inl h
        · exact .inr (List.mem_cons_of_mem _ h)
      · rcases List.mem_cons.1 h with h | h
        · exact .inr (h ▸ List.mem_cons_self ..)
        · rcases ih h with h | h
          · exact .inl h
          · exact .inr (List.mem_cons_of_mem _ h)

theorem assocErase_rising {t : Assoc α} (i : Nat) (h : t.Pairwise (fun a b => a.1 < b.1)) :
    (assocErase t i).Pairwise (fun a b => a.1 < b.1) := by
  induction t with
  | nil => simp [assocErase]
  | cons x t ih =>
    obtain ⟨k, w⟩ := x
    rw [List.pairwise_cons] at h
    simp only [assocErase]
    split
    · exact ih h.2
    · exact List.pairwise_cons.2 ⟨fun e he => h.1 e (mem_assocErase he), ih h.2⟩

theorem assocSet_rising {t : Assoc α} (i : Nat) (v : α) (h : t.Pairwise (fun a b => a.1 < b.1)) :
    (assocSet t i v).Pairwise (fun a b => a.1 < b.1) := by
  induction t with
  | nil => simp [assocSet]
  | cons x t ih =>
    obtain ⟨k, w⟩ := x
    have h' := List.pairwise_cons.1 h
    simp only [assocSet]
    split
    · next hk =>
      refine List.pairwise_cons.2 ⟨fun e he => ?_, h⟩
      rcases List.mem_cons.1 he with he | he
      · subst he; exact hk
      · exact Nat.lt_trans hk (h'.1 e he)
    · split
      · next _ hk => subst hk; exact List.pairwise_cons.2 ⟨h'.1, h'.2⟩
      · next hk hk' =>
        refine List.pairwise_cons.2 ⟨fun e he => ?_, ih h'.2⟩
        rcases mem_assocSet he with he | he
        · subst he; show k < i; omega
        · exact h'.1 e he

theorem assocWf_erase {d : Nat → α} {t : Assoc α} (i : Nat) (h : assocWf d t) : assocWf d (assocErase t i) :=
  ⟨assocErase_rising i h.1, fun e he => h.2 e (mem_assocErase he)⟩

theorem assocWf_put [DecidableEq α] {d : Nat → α} {t : Assoc α} (i : Nat) (v : α) (h : assocWf d t) :
    assocWf d (assocPut t i v (d i)) := by
  unfold assocPut
  split
  · exact assocWf_erase i h
  · next hv =>
    refine ⟨assocSet_rising i v h.1, fun e he => ?_⟩
    rcases mem_assocSet he with he | he
    · subst he; exact hv
    · exact h.2 e he

theorem assocWf_filter {d : Nat → α} {t : Assoc α} (p : Nat × α → Bool) (h : assocWf d t) :
    assocWf d (t.filter p) :=
  ⟨h.1.filter p, fun e he => h.2 e (List.mem_filter.1 he).1⟩

theorem assocGet_filter (p : Nat → Bool) (t : Assoc α) (i : Nat) (d : α) :
    assocGet (t.filter (fun e => p e.1)) i d = if p i then assocGet t i d else d := by
  induction t with
  | nil => simp [assocGet]
  | cons e t ih =>
    obtain ⟨k, w⟩ := e
    by_cases hk : k = i
    · subst hk
      by_cases hp : p k <;> simp [List.filter, assocGet, hp, ih]
    · by_cases hp : p k <;> simp [List.filter, assocGet, hp, ih, hk]

end Sys2Proof.Machine
end

