-- ==== Sys2Proof/Laws/Keeps.lean ====
section
/-!
SUPPORT. The laws of footprints: operations one after the other, repetition, choice.
-/
set_option Elab.async false
set_option linter.unusedTactic false
set_option linter.unreachableTactic false
namespace Sys2Proof.Machine

theorem Keeps.refl (M : Nat) (s : State) : Keeps M s s := by
  constructor <;> intros <;> first | rfl | assumption

theorem testBit_sub {G M k : Nat} (h : G ||| M = M) (hk : M.testBit k = false) : G.testBit k = false := by
  have := congrArg (fun n => n.testBit k) h
  simp only [Nat.testBit_or, hk, Bool.or_false] at this
  exact this

/-- Two operations one after the other, the second with a smaller footprint. -/
theorem Keeps.step {G M : Nat} {s t u : State} (hg : Keeps G t u) (hm : G ||| M = M) (h : Keeps M s t) :
    Keeps M s u where
  wf w := hg.wf (h.wf w)
  pending := hg.pending.trans h.pending
  reg i k := (hg.reg i (testBit_sub hm k)).trans (h.reg i k)
  win b a k := (hg.win b a (testBit_sub hm k)).trans (h.win b a k)
  winAddrs k := (hg.winAddrs (testBit_sub hm k)).trans (h.winAddrs k)
  srcs k := (hg.srcs (testBit_sub hm k)).trans (h.srcs k)
  recTick k := (hg.recTick (testBit_sub hm k)).trans (h.recTick k)
  timers k := (hg.timers (testBit_sub hm k)).trans (h.timers k)
  hostQ k := (hg.hostQ (testBit_sub hm k)).trans (h.hostQ k)
  fieldQ k := (hg.fieldQ (testBit_sub hm k)).trans (h.fieldQ k)
  held k := (hg.held (testBit_sub hm k)).trans (h.held k)
  gap k := (hg.gap (testBit_sub hm k)).trans (h.gap k)
  tm k := (hg.tm (testBit_sub hm k)).trans (h.tm k)
  bar k := (hg.bar (testBit_sub hm k)).trans (h.bar k)
  pin k := (hg.pin (testBit_sub hm k)).trans (h.pin k)
  flt k := (hg.flt (testBit_sub hm k)).trans (h.flt k)
  cou k := (hg.cou (testBit_sub hm k)).trans (h.cou k)
  bru k := (hg.bru (testBit_sub hm k)).trans (h.bru k)
  pal k := (hg.pal (testBit_sub hm k)).trans (h.pal k)
  pwr k := (hg.pwr (testBit_sub hm k)).trans (h.pwr k)
  col k := (hg.col (testBit_sub hm k)).trans (h.col k)
  nul k := (hg.nul (testBit_sub hm k)).trans (h.nul k)
  var k := (hg.var (testBit_sub hm k)).trans (h.var k)
  str k := (hg.str (testBit_sub hm k)).trans (h.str k)
  evt k := (hg.evt (testBit_sub hm k)).trans (h.evt k)
  lnk k := (hg.lnk (testBit_sub hm k)).trans (h.lnk k)
  hka k := (hg.hka (testBit_sub hm k)).trans (h.hka k)
  hkb k := (hg.hkb (testBit_sub hm k)).trans (h.hkb k)
  refOnAt k := (hg.refOnAt (testBit_sub hm k)).trans (h.refOnAt k)
  cal k := (hg.cal (testBit_sub hm k)).trans (h.cal k)
  mgt k := (hg.mgt (testBit_sub hm k)).trans (h.mgt k)
  cfg k := (hg.cfg (testBit_sub hm k)).trans (h.cfg k)
  flash k := (hg.flash (testBit_sub hm k)).trans (h.flash k)
  free k := (hg.free (testBit_sub hm k)).trans (h.free k)

theorem Keeps.mono {G M : Nat} {s t : State} (hg : Keeps G s t) (hm : G ||| M = M) : Keeps M s t :=
  hg.step hm (Keeps.refl M s)

theorem Keeps.trans {M : Nat} {s t u : State} (h : Keeps M s t) (hg : Keeps M t u) : Keeps M s u :=
  hg.step (Nat.or_self M) h

/-- A repetition keeps what each round keeps. -/
theorem Keeps.forEach {α : Type} {M : Nat} {s : State} (xs : List α) (f : State → α → State)
    (hf : ∀ (t : State) (x : α), Keeps M s t → Keeps M s (f t x)) {t : State} (h : Keeps M s t) :
    Keeps M s (forEach xs f t) := by
  unfold Machine.forEach
  induction xs generalizing t with
  | nil => exact h
  | cons x xs ih => exact ih (hf t x h)

theorem Keeps.foldl {α : Type} {M : Nat} {s : State} (xs : List α) (f : State → α → State)
    (hf : ∀ (t : State) (x : α), Keeps M s t → Keeps M s (f t x)) {t : State} (h : Keeps M s t) :
    Keeps M s (xs.foldl f t) := Keeps.forEach xs f hf h

theorem Keeps.foldl_fst {α β : Type} {M : Nat} {s : State} (xs : List α) (f : State × β → α → State × β)
    (hf : ∀ (a : State × β) (x : α), Keeps M s a.1 → Keeps M s (f a x).1) {a : State × β} (h : Keeps M s a.1) :
    Keeps M s (xs.foldl f a).1 := by
  induction xs generalizing a with
  | nil => exact h
  | cons x xs ih => exact ih (hf a x h)

theorem Keeps.foldl_snd {α β : Type} {M : Nat} {s : State} (xs : List α) (f : β × State → α → β × State)
    (hf : ∀ (a : β × State) (x : α), Keeps M s a.2 → Keeps M s (f a x).2) {a : β × State} (h : Keeps M s a.2) :
    Keeps M s (xs.foldl f a).2 := by
  induction xs generalizing a with
  | nil => exact h
  | cons x xs ih => exact ih (hf a x h)

theorem Keeps.ite {M : Nat} {s t u : State} {c : Prop} [Decidable c] (ht : Keeps M s t) (hu : Keeps M s u) :
    Keeps M s (if c then t else u) := by
  split <;> assumption

end Sys2Proof.Machine
end

