-- ==== Sys2Proof/Laws/KeepsOps.lean ====
section
/-!
SUPPORT. The footprints of the primitive operations: one register, one field, one window word, one window address, one
fault source.
-/
set_option Elab.async false
set_option linter.unusedTactic false
set_option linter.unreachableTactic false
namespace Sys2Proof.Machine

/-! ### Reads after writes -/

theorem State.reg_setReg_same (s : State) (i : Nat) (v : Word) : (s.setReg i v).reg i = v :=
  assocGet_put_same ..

theorem State.reg_setReg_other (s : State) {i j : Nat} (v : Word) (h : i ≠ j) : (s.setReg i v).reg j = s.reg j :=
  assocGet_put_other _ _ _ _ h

theorem blkNum_inj {a b : Blk} (h : blkNum a = blkNum b) : a = b := by
  cases a <;> cases b <;> first | rfl | exact absurd h (by decide +kernel)

theorem key_div {n : Nat} (hn : 0 < n) (b a : Nat) : (b * n + a % n) / n = b := by
  rw [Nat.mul_comm, Nat.mul_add_div hn, Nat.div_eq_of_lt (Nat.mod_lt _ hn), Nat.add_zero]

theorem key_mod (n b a : Nat) : (b * n + a % n) % n = a % n := by
  rw [Nat.mul_comm, Nat.mul_add_mod, Nat.mod_mod]

theorem blkOf_num (b : Blk) : blkOf (blkNum b * 0x100) = some b := by cases b <;> rfl

theorem winKey_eq (b : Blk) (a : Nat) : winKey b a = blkNum b * 2 ^ 24 + a % 2 ^ 24 := rfl

theorem winKey_div (b : Blk) (a : Nat) : winKey b a / 2 ^ 24 = blkNum b := by
  rw [winKey_eq]
  exact key_div (Nat.two_pow_pos 24) (blkNum b) a

theorem winKey_mod (b : Blk) (a : Nat) : winKey b a % 2 ^ 24 = a % 2 ^ 24 := by
  rw [winKey_eq]
  exact key_mod (2 ^ 24) (blkNum b) a

theorem winKey_inj {a b : Blk} {x y : Nat} (h : winKey a x = winKey b y) : a = b ∧ x % 2 ^ 24 = y % 2 ^ 24 :=
  ⟨blkNum_inj (by rw [← winKey_div a x, h, winKey_div]), by rw [← winKey_mod a x, h, winKey_mod]⟩

theorem winDefault_at {b : Blk} {y k : Nat} (h1 : k / 2 ^ 24 = blkNum b) (h2 : k % 2 ^ 24 = y) :
    winDefault k = winReset b y := by
  unfold winDefault
  rw [h1, h2, blkOf_num]

theorem winDefault_key (b : Blk) (a : Nat) : winDefault (winKey b a) = winReset b (a % 2 ^ 24) :=
  winDefault_at (winKey_div b a) (winKey_mod b a)

theorem State.win_setWin_same (s : State) (b : Blk) (a : Nat) (v : W24) : (s.setWin b a v).win b a = v :=
  assocGet_put_same ..

theorem State.win_setWin_other (s : State) {b c : Blk} {a x : Nat} (v : W24) (h : winKey b a ≠ winKey c x) :
    (s.setWin b a v).win c x = s.win c x := assocGet_put_other _ _ _ _ h

theorem srcDefault_key (b : Blk) (i : Nat) : srcDefault (srcKey b i) = defSource (defPolicy b (i % 16)) := by
  have h1 : srcKey b i / 16 = blkNum b := by unfold srcKey; omega
  have h2 : srcKey b i % 16 = i % 16 := by unfold srcKey; omega
  unfold srcDefault
  rw [h1, h2, blkOf_num]

/-! ### Footprints -/

theorem State.setReg_keeps (s : State) (i : Nat) (v : Word) : Keeps (2 ^ regPart i) s (s.setReg i v) := by
  constructor <;> intros <;> try rfl
  case wf w => exact ⟨assocWf_put i v w.1, w.2⟩
  case reg j h =>
    refine s.reg_setReg_other v ?_
    rintro rfl
    simp [Nat.testBit_two_pow_self] at h

theorem State.setFld_keeps (s : State) (f : Fld) (v : Nat) : Keeps (2 ^ regPart f.reg) s (s.setFld f v) :=
  s.setReg_keeps ..

theorem State.setBit_keeps (s : State) (f : Fld) (b : Bool) : Keeps (2 ^ regPart f.reg) s (s.setBit f b) :=
  s.setFld_keeps ..

theorem State.count_keeps (s : State) (f : Fld) (n : Nat) : Keeps (2 ^ regPart f.reg) s (s.count f n) :=
  s.setFld_keeps ..

theorem State.inc_keeps (s : State) (f : Fld) : Keeps (2 ^ regPart f.reg) s (s.inc f) := s.count_keeps ..

theorem State.setWin_keeps (s : State) (b : Blk) (a : Nat) (v : W24) :
    Keeps (2 ^ (0x2020 + blkNum b)) s (s.setWin b a v) := by
  constructor <;> intros <;> try rfl
  case wf w =>
    have h := assocWf_put (winKey b a) v w.2.1
    rw [winDefault_key] at h
    exact ⟨w.1, h, w.2.2⟩
  case win c x h =>
    refine s.win_setWin_other v fun hk => ?_
    rw [(winKey_inj hk).1] at h
    simp [Nat.testBit_two_pow_self] at h

theorem State.setWinN_keeps (s : State) (b : Blk) (a v : Nat) : Keeps (2 ^ (0x2020 + blkNum b)) s (s.setWinN b a v) :=
  s.setWin_keeps ..

theorem State.setWinAddr_keeps (s : State) (b : Blk) (m a : Nat) : Keeps (2 ^ 0x2041) s (s.setWinAddr b m a) := by
  constructor <;> intros <;> first | rfl | skip
  case wf w => exact ⟨w.1, w.2.1, assocWf_put (d := fun _ => 0) _ _ w.2.2.1, w.2.2.2⟩
  case winAddrs h => exact absurd h (by decide +kernel)

theorem State.setSrc_keeps (s : State) (b : Blk) (i : Nat) (x : Source) : Keeps (2 ^ 0x2042) s (s.setSrc b i x) := by
  constructor <;> intros <;> first | rfl | skip
  case wf w =>
    have h := assocWf_put (srcKey b i) x w.2.2.2.1
    rw [srcDefault_key] at h
    exact ⟨w.1, w.2.1, w.2.2.1, h, w.2.2.2.2⟩
  case srcs h => exact absurd h (by decide +kernel)

theorem Keeps.one {α : Type} {a b c : α} {k : Bool} (h : k = true ∨ a = b) (h' : k = false → b = c)
    (hk : k = false) : a = c := by
  rcases h with h | h
  · rw [hk] at h; cases h
  · exact h.trans (h' hk)

/-- A change of fields that hold no table: which fields may differ is for M to say. -/
theorem Keeps.upd {M : Nat} {s t : State}
    {recTick : Assoc Nat}
    {timers : List (Nat × Instr)}
    {hostQ : List LEntry}
    {fieldQ : List LEntry}
    {held : List HeldWr}
    {gap : Option Gap}
    {tm : TimeSt}
    {bar : BarSt}
    {pin : PinSt}
    {flt : FltSt}
    {cou : EngSt}
    {bru : EngSt}
    {pal : PalSt}
    {pwr : PwrSt}
    {col : ColSt}
    {nul : NulSt}
    {var : VarSt}
    {str : StrSt}
    {evt : EvtSt}
    {lnk : LnkSt}
    {hka : HkSt}
    {hkb : HkSt}
    {refOnAt : Nat}
    {cal : CalSt}
    {mgt : MgtSt}
    {cfg : CfgSt}
    {free : Nat}
    (h : Keeps M s t)
    (ff : cfg.flash = t.cfg.flash := by rfl)
    (f67 : M.testBit 0x2043 = true ∨ recTick = t.recTick := by first | exact .inl (by decide +kernel) | exact .inr rfl)
    (f68 : M.testBit 0x2044 = true ∨ timers = t.timers := by first | exact .inl (by decide +kernel) | exact .inr rfl)
    (f69 : M.testBit 0x2045 = true ∨ hostQ = t.hostQ := by first | exact .inl (by decide +kernel) | exact .inr rfl)
    (f70 : M.testBit 0x2046 = true ∨ fieldQ = t.fieldQ := by first | exact .inl (by decide +kernel) | exact .inr rfl)
    (f71 : M.testBit 0x2047 = true ∨ held = t.held := by first | exact .inl (by decide +kernel) | exact .inr rfl)
    (f72 : M.testBit 0x2048 = true ∨ gap = t.gap := by first | exact .inl (by decide +kernel) | exact .inr rfl)
    (f73 : M.testBit 0x2049 = true ∨ tm = t.tm := by first | exact .inl (by decide +kernel) | exact .inr rfl)
    (f74 : M.testBit 0x204A = true ∨ bar = t.bar := by first | exact .inl (by decide +kernel) | exact .inr rfl)
    (f75 : M.testBit 0x204B = true ∨ pin = t.pin := by first | exact .inl (by decide +kernel) | exact .inr rfl)
    (f76 : M.testBit 0x204C = true ∨ flt = t.flt := by first | exact .inl (by decide +kernel) | exact .inr rfl)
    (f77 : M.testBit 0x204D = true ∨ cou = t.cou := by first | exact .inl (by decide +kernel) | exact .inr rfl)
    (f78 : M.testBit 0x204E = true ∨ bru = t.bru := by first | exact .inl (by decide +kernel) | exact .inr rfl)
    (f79 : M.testBit 0x204F = true ∨ pal = t.pal := by first | exact .inl (by decide +kernel) | exact .inr rfl)
    (f80 : M.testBit 0x2050 = true ∨ pwr = t.pwr := by first | exact .inl (by decide +kernel) | exact .inr rfl)
    (f81 : M.testBit 0x2051 = true ∨ col = t.col := by first | exact .inl (by decide +kernel) | exact .inr rfl)
    (f82 : M.testBit 0x2052 = true ∨ nul = t.nul := by first | exact .inl (by decide +kernel) | exact .inr rfl)
    (f83 : M.testBit 0x2053 = true ∨ var = t.var := by first | exact .inl (by decide +kernel) | exact .inr rfl)
    (f84 : M.testBit 0x2054 = true ∨ str = t.str := by first | exact .inl (by decide +kernel) | exact .inr rfl)
    (f85 : M.testBit 0x2055 = true ∨ evt = t.evt := by first | exact .inl (by decide +kernel) | exact .inr rfl)
    (f86 : M.testBit 0x2056 = true ∨ lnk = t.lnk := by first | exact .inl (by decide +kernel) | exact .inr rfl)
    (f87 : M.testBit 0x2057 = true ∨ hka = t.hka := by first | exact .inl (by decide +kernel) | exact .inr rfl)
    (f88 : M.testBit 0x2058 = true ∨ hkb = t.hkb := by first | exact .inl (by decide +kernel) | exact .inr rfl)
    (f89 : M.testBit 0x2059 = true ∨ refOnAt = t.refOnAt := by first | exact .inl (by decide +kernel) | exact .inr rfl)
    (f90 : M.testBit 0x205A = true ∨ cal = t.cal := by first | exact .inl (by decide +kernel) | exact .inr rfl)
    (f91 : M.testBit 0x205B = true ∨ mgt = t.mgt := by first | exact .inl (by decide +kernel) | exact .inr rfl)
    (f92 : M.testBit 0x205C = true ∨ cfg = t.cfg := by first | exact .inl (by decide +kernel) | exact .inr rfl)
    (f94 : M.testBit 0x205E = true ∨ free = t.free := by first | exact .inl (by decide +kernel) | exact .inr rfl)
    : Keeps M s ⟨t.pending, t.regs, t.wins, t.winAddrs, t.srcs, recTick, timers, hostQ, fieldQ, held, gap,
      tm, bar, pin, flt, cou, bru, pal, pwr, col, nul, var, str, evt, lnk, hka, hkb, refOnAt, cal, mgt, cfg, free⟩ where
  wf w := by
    have w' := h.wf w
    exact ⟨w'.1, w'.2.1, w'.2.2.1, w'.2.2.2.1, ff ▸ w'.2.2.2.2⟩
  pending := h.pending
  reg := h.reg
  win := h.win
  winAddrs := h.winAddrs
  srcs := h.srcs
  recTick := Keeps.one f67 h.recTick
  timers := Keeps.one f68 h.timers
  hostQ := Keeps.one f69 h.hostQ
  fieldQ := Keeps.one f70 h.fieldQ
  held := Keeps.one f71 h.held
  gap := Keeps.one f72 h.gap
  tm := Keeps.one f73 h.tm
  bar := Keeps.one f74 h.bar
  pin := Keeps.one f75 h.pin
  flt := Keeps.one f76 h.flt
  cou := Keeps.one f77 h.cou
  bru := Keeps.one f78 h.bru
  pal := Keeps.one f79 h.pal
  pwr := Keeps.one f80 h.pwr
  col := Keeps.one f81 h.col
  nul := Keeps.one f82 h.nul
  var := Keeps.one f83 h.var
  str := Keeps.one f84 h.str
  evt := Keeps.one f85 h.evt
  lnk := Keeps.one f86 h.lnk
  hka := Keeps.one f87 h.hka
  hkb := Keeps.one f88 h.hkb
  refOnAt := Keeps.one f89 h.refOnAt
  cal := Keeps.one f90 h.cal
  mgt := Keeps.one f91 h.mgt
  cfg k := Keeps.one (f92.imp_right (congrArg (fun c : CfgSt => { c with flash := [] }))) h.cfg k
  free := Keeps.one f94 h.free
  flash k := ff.trans (h.flash k)

/-! ### Parts of register names that depend on an operand -/

/-- One place of a span of them. -/
theorem span_or {lo n k : Nat} (h1 : lo ≤ k) (h2 : k < lo + n) : 2 ^ k ||| span lo n = span lo n := by
  apply Nat.eq_of_testBit_eq
  intro j
  rw [Nat.testBit_or, Nat.testBit_two_pow]
  by_cases hj : k = j
  · subst hj
    have : (span lo n).testBit k = true := by
      unfold span
      rw [Nat.mul_comm, Nat.testBit_two_pow_mul, Nat.testBit_two_pow_sub_one]
      simp only [Bool.and_eq_true, decide_eq_true_eq]
      omega
    simp [this]
  · simp [hj]

theorem sub_of {G M K : Nat} (h : G ||| M = M) (hk : K ||| G = G) : K ||| M = M := by
  rw [← h, ← Nat.or_assoc, hk]

theorem flt_place (b : Blk) : ∀ k < 16, 2 ^ (blkBase b + (0xF0 + k)) ||| fltSpan = fltSpan := by
  cases b <;> decide +kernel

theorem blkBase_le (b : Blk) : blkBase b ≤ 0x1C00 := by cases b <;> decide

theorem sub_flt {M : Nat} (b : Blk) {k : Nat} (h : 0xF0 ≤ k ∧ k < 0x100 ∧ fltSpan ||| M = M) :
    2 ^ regPart (blkBase b + k) ||| M = M := by
  have h1 := blkBase_le b
  have h2 : regPart (blkBase b + k) = blkBase b + (0xF0 + (k - 0xF0)) := by unfold regPart; omega
  rw [h2]
  exact sub_of h.2.2 (flt_place b _ (by omega))

theorem sub_eng {M : Nat} (e : Eng) {k : Nat}
    (h : 2 ^ regPart (0x600 + k) ||| M = M ∧ 2 ^ regPart (0x1B00 + k) ||| M = M) :
    2 ^ regPart (engBase e + k) ||| M = M := by
  cases e
  · exact h.1
  · exact h.2

theorem sub_hk {M : Nat} (x : Hk) {k : Nat}
    (h : 2 ^ regPart (0x1700 + k) ||| M = M ∧ 2 ^ regPart (0x1800 + k) ||| M = M) :
    2 ^ regPart (hkBase x + k) ||| M = M := by
  cases x
  · exact h.1
  · exact h.2

theorem sub_port {M : Nat} (k p : Nat) (h : ∀ j < 4, 2 ^ regPart (k + j) ||| M = M) :
    2 ^ regPart (k + p % 4) ||| M = M := h _ (Nat.mod_lt _ (by decide))

theorem sub_hkg {M : Nat} (x : Hk) {k : Nat} (g n : Nat) (h : 0 < n ∧ ∀ j < n, 2 ^ regPart (0x1700 + k + j) ||| M = M ∧
    2 ^ regPart (0x1800 + k + j) ||| M = M) : 2 ^ regPart (hkBase x + k + g % n) ||| M = M := by
  have h1 := h.2 _ (Nat.mod_lt g h.1)
  cases x
  · exact h1.1
  · exact h1.2

theorem sub_any {M : Nat} (i : Nat) (h : span 0 0x2001 ||| M = M) : 2 ^ regPart i ||| M = M :=
  sub_of h (span_or (Nat.zero_le _) (by unfold regPart; omega))

theorem sub_win {M : Nat} (b : Blk) (h : span 0x2020 32 ||| M = M) : 2 ^ (0x2020 + blkNum b) ||| M = M :=
  sub_of h (span_or (Nat.le_add_right ..) (by have h1 : blkNum b < 32 := by cases b <;> decide
                                              omega))

/-- Every part. -/
def anything : Nat := 2 ^ 0x205F - 1

end Sys2Proof.Machine
end

