-- ==== Sys2Proof/Laws/KeepsTables.lean ====
section
/-!
SUPPORT. Footprints of the few operations that write a table whole: banks that move, tables that are cleared, flash
ranges, power-up.
-/
set_option Elab.async false
set_option linter.unusedTactic false
set_option linter.unreachableTactic false
namespace Sys2Proof.Machine

/-- A change of the window tables. -/
theorem Keeps.setWins {M : Nat} {s t : State} (h : Keeps M s t) (w : Assoc W24)
    (hw : assocWf winDefault t.wins → assocWf winDefault w)
    (hg : ∀ b a, M.testBit (0x2020 + blkNum b) = false →
      assocGet w (winKey b a) (winReset b (a % 2 ^ 24)) = t.win b a) : Keeps M s { t with wins := w } :=
  { h with
    wf := fun c => ⟨(h.wf c).1, hw (h.wf c).2.1, (h.wf c).2.2⟩
    win := fun b a k => (hg b a k).trans (h.win b a k) }

/-- A change of the flash. -/
theorem Keeps.setFlash {M : Nat} {s t : State} (h : Keeps M s t) (f : List Host.Cell)
    (hf : flashWf t.cfg.flash → flashWf f) (hm : M.testBit 0x205D = true) :
    Keeps M s { t with cfg := { t.cfg with flash := f } } :=
  { h with
    wf := fun c => ⟨(h.wf c).1, (h.wf c).2.1, (h.wf c).2.2.1, (h.wf c).2.2.2.1, hf (h.wf c).2.2.2.2⟩
    flash := fun k => absurd hm (by rw [k]; decide) }

/-! ### The flash -/

theorem mem_cellsAt {a : Nat} {bs : List Nat} {e : Host.Cell} (h : e ∈ cellsAt a bs) :
    a ≤ e.1 ∧ e.1 < a + bs.length ∧ e.2 ≠ 0xFF := by
  induction bs generalizing a with
  | nil => simp [cellsAt] at h
  | cons b bs ih =>
    simp only [cellsAt] at h
    split at h
    · have := ih h
      refine ⟨by omega, ?_, this.2.2⟩
      simp only [List.length_cons]; omega
    · next hb =>
      rcases List.mem_cons.1 h with h | h
      · subst h
        refine ⟨Nat.le_refl _, by simp only [List.length_cons]; omega, fun hv => hb ?_⟩
        have := congrArg BitVec.toNat hv
        simpa using this
      · have := ih h
        refine ⟨by omega, ?_, this.2.2⟩
        simp only [List.length_cons]; omega

theorem cellsAt_rising (a : Nat) (bs : List Nat) : (cellsAt a bs).Pairwise (fun x y => x.1 < y.1) := by
  induction bs generalizing a with
  | nil => simp [cellsAt]
  | cons b bs ih =>
    simp only [cellsAt]
    split
    · exact ih _
    · refine List.pairwise_cons.2 ⟨fun e he => ?_, ih _⟩
      have := (mem_cellsAt he).1
      show a < e.1
      omega

theorem flashWf_put {f : List Host.Cell} (a : Nat) (bs : List Nat) (h : flashWf f) :
    flashWf (f.filter (fun e => decide (e.1 < a)) ++ cellsAt a bs ++
      f.filter (fun e => decide (a + bs.length ≤ e.1))) := by
  refine ⟨?_, fun e he => ?_⟩
  · refine List.pairwise_append.2 ⟨List.pairwise_append.2 ⟨h.1.filter _, cellsAt_rising a bs, ?_⟩, h.1.filter _, ?_⟩
    · intro x hx y hy
      have h1 := of_decide_eq_true (List.mem_filter.1 hx).2
      have h2 := (mem_cellsAt hy).1
      omega
    · intro x hx y hy
      have h2 := of_decide_eq_true (List.mem_filter.1 hy).2
      rcases List.mem_append.1 hx with hx | hx
      · have h1 := of_decide_eq_true (List.mem_filter.1 hx).2
        omega
      · have h1 := (mem_cellsAt hx).2.1
        omega
  · rcases List.mem_append.1 he with he | he
    · rcases List.mem_append.1 he with he | he
      · exact h.2 e (List.mem_filter.1 he).1
      · exact (mem_cellsAt he).2.2
    · exact h.2 e (List.mem_filter.1 he).1

theorem State.flashPut_keeps (s : State) (a : Nat) (bs : List Nat) : Keeps (foot [.flash]) s (s.flashPut a bs) :=
  (Keeps.refl _ s).setFlash _ (flashWf_put a bs) (by decide +kernel)

theorem State.flashErase_keeps (s : State) (a n : Nat) : Keeps (foot [.flash]) s (s.flashErase a n) :=
  (Keeps.refl _ s).setFlash _ (assocWf_filter _) (by decide +kernel)

/-! ### Window tables -/

/-- Dropping entries of one block keeps the other blocks' words. -/
theorem Keeps.filterWins {M : Nat} {s t : State} (h : Keeps M s t) (p : Nat → Bool)
    (hp : ∀ b a, M.testBit (0x2020 + blkNum b) = false → p (winKey b a) = true) :
    Keeps M s { t with wins := t.wins.filter (fun e => p e.1) } :=
  h.setWins _ (assocWf_filter _) fun b a k => by rw [assocGet_filter, if_pos (hp b a k)]; rfl

theorem winKey_lt {b : Blk} {n x : Nat} (h : x / 2 ^ 24 < blkNum b) : x < winKey b n := by
  have h1 := winKey_div b n
  rcases Nat.lt_or_ge x (winKey b n) with h2 | h2
  · exact h2
  · have := Nat.div_le_div_right (c := 2 ^ 24) h2
    omega

theorem lt_winKey {b : Blk} {n x : Nat} (h : blkNum b < x / 2 ^ 24) : winKey b n < x := by
  have h1 := winKey_div b n
  rcases Nat.lt_or_ge (winKey b n) x with h2 | h2
  · exact h2
  · have := Nat.div_le_div_right (c := 2 ^ 24) h2
    omega

/-- Keys of another block lie outside a block's range. -/
theorem winKey_outside {b c : Blk} (h : c ≠ b) (lo hi a : Nat) :
    winKey c a < winKey b lo ∨ winKey b hi < winKey c a := by
  have hn : blkNum c ≠ blkNum b := fun e => h (blkNum_inj e)
  rcases Nat.lt_or_gt_of_ne hn with h1 | h1
  · exact .inl (winKey_lt (by rw [winKey_div]; exact h1))
  · exact .inr (lt_winKey (by rw [winKey_div]; exact h1))

theorem State.clearTable_keeps (s : State) (b : Blk) (lo hi : Nat) :
    Keeps (2 ^ (0x2020 + blkNum b)) s (s.clearTable b lo hi) := by
  refine (Keeps.refl _ s).filterWins (fun k => decide (k < winKey b lo) || decide (winKey b hi < k)) ?_
  intro c a k
  have hc : c ≠ b := by rintro rfl; simp [Nat.testBit_two_pow_self] at k
  rcases winKey_outside hc lo hi a with h | h <;> simp [h]

theorem State.ringClear_keeps (s : State) : Keeps (foot [.win .evt, .evt]) s s.ringClear := by
  have h : Keeps (foot [.win .evt, .evt]) s
      { s with wins := s.wins.filter (fun e => !(decide (winKey .evt 0x100000 ≤ e.1) &&
        decide (e.1 < winKey .evt 0x800000))) } := by
    refine (Keeps.refl _ s).filterWins (fun k => !(decide (winKey .evt 0x100000 ≤ k) &&
      decide (k < winKey .evt 0x800000))) ?_
    intro c a k
    have hc : c ≠ .evt := by rintro rfl; exact absurd k (by decide +kernel)
    rcases winKey_outside hc 0x100000 0x800000 a with h | h
    · simp [Nat.not_le.2 h]
    · simp [Nat.le_of_lt h]
  exact Keeps.upd h

/-- Entries moved to the place of others keep a table canonical. -/
theorem assocWf_move {α : Type} {d : Nat → α} {t : Assoc α} (ks kd n : Nat)
    (hd : ∀ x, x < n → d (ks + x) = d (kd + x)) (h : assocWf d t) :
    assocWf d ((t.filter (fun e => !(decide (kd ≤ e.1) && decide (e.1 < kd + n)))).filter (fun e => decide (e.1 < kd)) ++
      (t.filter (fun e => decide (ks ≤ e.1) && decide (e.1 < ks + n))).map (fun e => (e.1 - ks + kd, e.2)) ++
      (t.filter (fun e => !(decide (kd ≤ e.1) && decide (e.1 < kd + n)))).filter (fun e => decide (kd ≤ e.1))) := by
  have hm : ∀ e ∈ (t.filter (fun e => decide (ks ≤ e.1) && decide (e.1 < ks + n))).map
      (fun e => (e.1 - ks + kd, e.2)), kd ≤ e.1 ∧ e.1 < kd + n ∧ e.2 ≠ d e.1 := by
    intro e he
    obtain ⟨x, hx, rfl⟩ := List.mem_map.1 he
    have hx' := List.mem_filter.1 hx
    simp only [Bool.and_eq_true, decide_eq_true_eq] at hx'
    obtain ⟨hxt, h1, h2⟩ := hx'
    refine ⟨Nat.le_add_left _ _, by show x.1 - ks + kd < kd + n; omega, ?_⟩
    show x.2 ≠ d (x.1 - ks + kd)
    rw [Nat.add_comm, ← hd (x.1 - ks) (by omega), Nat.add_sub_cancel' h1]
    exact h.2 x hxt
  have hb : ∀ e ∈ (t.filter (fun e => !(decide (kd ≤ e.1) && decide (e.1 < kd + n)))).filter
      (fun e => decide (e.1 < kd)), e.1 < kd := fun e he => of_decide_eq_true (List.mem_filter.1 he).2
  have ha : ∀ e ∈ (t.filter (fun e => !(decide (kd ≤ e.1) && decide (e.1 < kd + n)))).filter
      (fun e => decide (kd ≤ e.1)), kd + n ≤ e.1 := by
    intro e he
    have h2 := (List.mem_filter.1 (List.mem_filter.1 he).1).2
    have h1 := (List.mem_filter.1 he).2
    simp only [decide_eq_true_eq, Bool.not_eq_true', Bool.and_eq_false_imp, decide_eq_false_iff_not] at h1 h2
    have := h2 h1
    omega
  refine ⟨?_, fun e he => ?_⟩
  · refine List.pairwise_append.2 ⟨List.pairwise_append.2 ⟨(h.1.filter _).filter _, ?_, ?_⟩, (h.1.filter _).filter _, ?_⟩
    · rw [List.pairwise_map]
      refine List.Pairwise.imp_of_mem (R := fun x y => x.1 < y.1) ?_ (h.1.filter _)
      intro x y hx hy hxy
      have h1 := (List.mem_filter.1 hx).2
      have h2 := (List.mem_filter.1 hy).2
      simp only [Bool.and_eq_true, decide_eq_true_eq] at h1 h2
      show x.1 - ks + kd < y.1 - ks + kd
      omega
    · intro x hx y hy
      have := hb x hx
      have := hm y hy
      omega
    · intro x hx y hy
      have := ha y hy
      rcases List.mem_append.1 hx with hx | hx
      · have := hb x hx
        omega
      · have := hm x hx
        omega
  · rcases List.mem_append.1 he with he | he
    · rcases List.mem_append.1 he with he | he
      · exact h.2 e (List.mem_filter.1 (List.mem_filter.1 he).1).1
      · exact (hm e he).2.2
    · exact h.2 e (List.mem_filter.1 (List.mem_filter.1 he).1).1

theorem assocGet_append {α : Type} (t u : Assoc α) (i : Nat) (d : α) :
    assocGet (t ++ u) i d = assocGet t i (assocGet u i d) := by
  induction t with
  | nil => rfl
  | cons e t ih =>
    simp only [List.cons_append, assocGet, ih]

theorem assocGet_absent {α : Type} {t : Assoc α} {i : Nat} {d : α} (h : ∀ e ∈ t, e.1 ≠ i) : assocGet t i d = d := by
  induction t with
  | nil => rfl
  | cons e t ih =>
    simp only [assocGet]
    rw [if_neg (h e (List.mem_cons_self ..))]
    exact ih fun x hx => h x (List.mem_cons_of_mem _ hx)

theorem State.varMoveBank_keeps_of (s : State) {src dst : Nat} (lo : Nat)
    (hb : src = 0 ∧ dst = 0x4000 ∨ src = 0x4000 ∧ dst = 0) :
    Keeps (foot [.win .var, .var]) s (s.varMoveBank src dst lo) := by
  have hk : ∀ x lo, x ≤ 0x4000 → lo ≤ 0x4000 → winKey .var (x + lo) = 0x14000000 + x + lo := by
    intro x lo h1 h2
    rw [winKey_eq, Nat.mod_eq_of_lt (by omega), Nat.add_assoc]; rfl
  have hd : ∀ x, x < 0x4000 - lo →
      winDefault (winKey .var (src + lo) + x) = winDefault (winKey .var (dst + lo) + x) := by
    intro x hx
    rw [hk src lo (by omega) (by omega), hk dst lo (by omega) (by omega),
      winDefault_at (b := .var) (y := src + (lo + x)) (by show _ = 0x14; omega) (by omega),
      winDefault_at (b := .var) (y := dst + (lo + x)) (by show _ = 0x14; omega) (by omega)]
    simp only [winReset]
    have h1 : (src + (lo + x) < 0x8000 ∧ (src + (lo + x)) % 8 = 1) ↔
        (dst + (lo + x) < 0x8000 ∧ (dst + (lo + x)) % 8 = 1) := by omega
    simp only [h1]
  have h : Keeps (foot [.win .var, .var]) s { s with wins := _ } := (Keeps.refl _ s).setWins _
    (fun w => assocWf_move (winKey .var (src + lo)) (winKey .var (dst + lo)) (0x4000 - lo) hd w) fun c a k => by
      have hc : c ≠ .var := by rintro rfl; exact absurd k (by decide +kernel)
      have hout : winKey c a < winKey .var (dst + lo) ∨ winKey .var (dst + lo) + (0x4000 - lo) ≤ winKey c a := by
        rcases Nat.lt_or_ge 0x4000 lo with h1 | h1
        · omega
        · have h2 := winKey_outside hc (dst + lo) (dst + 0x4000) a
          rw [hk dst lo (by omega) h1, hk dst 0x4000 (by omega) (by omega)] at h2
          rw [hk dst lo (by omega) h1]
          omega
      rw [assocGet_append, assocGet_append,
        assocGet_filter (fun k => decide (k < winKey .var (dst + lo))),
        assocGet_filter (fun k => !(decide (winKey .var (dst + lo) ≤ k) &&
          decide (k < winKey .var (dst + lo) + (0x4000 - lo)))),
        assocGet_filter (fun k => decide (winKey .var (dst + lo) ≤ k)),
        assocGet_filter (fun k => !(decide (winKey .var (dst + lo) ≤ k) &&
          decide (k < winKey .var (dst + lo) + (0x4000 - lo)))),
        assocGet_absent (t := List.map _ _) (by
          intro e he
          obtain ⟨x, hx, rfl⟩ := List.mem_map.1 he
          have hx' := (List.mem_filter.1 hx).2
          simp only [Bool.and_eq_true, decide_eq_true_eq] at hx'
          show x.1 - winKey .var (src + lo) + winKey .var (dst + lo) ≠ winKey c a
          omega)]
      rcases hout with h1 | h1
      · have h2 : ¬ winKey .var (dst + lo) ≤ winKey c a := by omega
        simp [h1, h2, State.win]
      · have h2 : ¬ winKey c a < winKey .var (dst + lo) + (0x4000 - lo) := by omega
        have h3 : ¬ winKey c a < winKey .var (dst + lo) := by omega
        have h4 : winKey .var (dst + lo) ≤ winKey c a := by omega
        simp [h2, h3, h4, State.win]
  exact Keeps.upd h

theorem State.varMoveBank_keeps (s : State) (lo : Nat) :
    Keeps (foot [.win .var, .var]) s (s.varMoveBank s.varActive s.varInactive lo) := by
  refine s.varMoveBank_keeps_of lo ?_
  unfold State.varActive State.varInactive
  split
  · exact .inr ⟨rfl, rfl⟩
  · exact .inl ⟨rfl, rfl⟩

/-! ### Registers -/

/-- Dropping entries of registers. -/
theorem Keeps.filterRegs {M : Nat} {s t : State} (h : Keeps M s t) (p : Nat → Bool)
    (hp : ∀ i, M.testBit (regPart i) = false → p i = true) :
    Keeps M s { t with regs := t.regs.filter (fun e => p e.1) } :=
  { h with
    wf := fun c => ⟨assocWf_filter _ (h.wf c).1, (h.wf c).2⟩
    reg := fun i k => by
      refine Eq.trans ?_ (h.reg i k)
      show assocGet (t.regs.filter (fun e => p e.1)) i (regReset i) = _
      rw [assocGet_filter, if_pos (hp i k)]; rfl }

/-- Registers outside a span of them. -/
theorem outside_span {M lo n i : Nat} (hm : span lo n ||| M = M) (k : M.testBit (regPart i) = false) :
    regPart i < lo ∨ lo + n ≤ regPart i := by
  rcases Nat.lt_or_ge (regPart i) lo with h1 | h1
  · exact .inl h1
  rcases Nat.lt_or_ge (regPart i) (lo + n) with h2 | h2
  · have h3 := congrArg (fun m => m.testBit (regPart i)) (sub_of hm (span_or h1 h2))
    simp [Nat.testBit_or, k, Nat.testBit_two_pow_self] at h3
  · exact .inr h2

/-- Registers outside the field die. -/
theorem outside_field {M i : Nat} (hm : span 0x1000 0x1001 ||| M = M) (k : M.testBit (regPart i) = false) :
    i < 0x1000 := by
  have h := outside_span hm k
  unfold regPart at h
  omega

theorem State.fieldRegsReset_keeps (s : State) : Keeps (foot [.fieldDie]) s s.fieldRegsReset := by
  refine (Keeps.refl _ s).filterRegs (fun i => decide (i < 0x1000) || decide (0xF0 ≤ i % 0x100)) ?_
  intro i k
  simp [outside_field (by decide +kernel) k]

/-! ### Power-up -/

theorem State.reset_wf : State.reset.wf := by decide

/-- Every part but the flash. -/
def allButFlash : Nat := foot [.anyReg, .anyWin, .winAddrs, .srcs, .recTick, .timers, .hostQ, .fieldQ, .held, .gap, .tm,
  .bar, .pin, .faults, .cou, .bru, .pal] |||
  foot [.pwr, .col, .nul, .var, .str, .evt, .lnk, .hka, .hkb, .refOnAt, .cal, .mgt, .cfg, .free]

theorem State.coldStart_keeps (s : State) : Keeps allButFlash s s.coldStart := by
  constructor
  case wf => exact fun c => ⟨reset_wf.1, reset_wf.2.1, reset_wf.2.2.1, reset_wf.2.2.2.1, c.2.2.2.2⟩
  case pending => rfl
  case flash => exact fun _ => rfl
  case reg =>
    intro i k
    have h := outside_span (lo := 0) (n := 0x2001) (by decide +kernel) k
    unfold regPart at h
    omega
  case win =>
    intro b a k
    have h := testBit_sub (sub_win (M := allButFlash) b (by decide +kernel)) k
    simp [Nat.testBit_two_pow_self] at h
  all_goals exact fun h => absurd h (by decide +kernel)

/-- What the field die's own power-up can change. -/
def fieldSide : Nat := foot [.fieldDie, .anyWin, .winAddrs, .srcs, .recTick, .fieldQ, .held, .tm, .bar, .pin, .bru] |||
  foot [.pal, .col, .nul, .var, .str, .evt, .lnk, .hka, .hkb, .refOnAt, .cal]

theorem State.fieldCold_keeps (s : State) : Keeps fieldSide s s.fieldCold := by
  have h1 := (Keeps.refl fieldSide s).filterRegs (fun k => decide (k < 0x1000)) (fun i k => by
      simp [outside_field (by decide +kernel) k])
  have h2 := h1.filterWins (fun k => decide (k < 0x10 * 2 ^ 24)) (fun b a k => by
      have h := testBit_sub (sub_win (M := fieldSide) b (by decide +kernel)) k
      simp [Nat.testBit_two_pow_self] at h)
  have h3 : Keeps fieldSide s
      { s with regs := s.regs.filter (fun e => decide (e.1 < 0x1000)),
               wins := s.wins.filter (fun e => decide (e.1 < 0x10 * 2 ^ 24)),
               winAddrs := s.winAddrs.filter (fun e => decide (e.1 < 0x10 * 8)),
               srcs := s.srcs.filter (fun e => decide (e.1 < 0x10 * 16)) } :=
    { h2 with
      wf := fun c => ⟨(h2.wf c).1, (h2.wf c).2.1, assocWf_filter _ c.2.2.1, assocWf_filter _ c.2.2.2.1, (h2.wf c).2.2.2.2⟩
      winAddrs := fun k => absurd k (by decide +kernel)
      srcs := fun k => absurd k (by decide +kernel) }
  exact Keeps.upd h3

end Sys2Proof.Machine
end

