-- ==== Sys2Proof/Laws/KeepsPrim.lean ====
section
/-!
SUPPORT. Footprints of the operations of Machine/Ops.lean: which parts of a state each can change.
-/
set_option Elab.async false
set_option linter.unusedTactic false
set_option linter.unreachableTactic false
namespace Sys2Proof.Machine

theorem State.after_keeps (s : State) (n : Nat) (i : Instr) :
    Keeps (foot [.timers]) s (State.after s n i) := by
  unfold State.after
  repeat' first
    | with_reducible assumption
    | with_reducible apply Keeps.refl
    | with_reducible apply Keeps.ite
    | (with_reducible apply Keeps.forEach; intro _ _ _)
    | (with_reducible apply Keeps.foldl_fst; intro _ _ _)
    | (with_reducible apply Keeps.foldl_snd; intro _ _ _)
    | (with_reducible apply Keeps.foldl; intro _ _ _)
    | split
    | refine Keeps.upd ?_

theorem State.dropTimers_keeps (s : State) (p : Instr → Bool) :
    Keeps (foot [.timers]) s (State.dropTimers s p) := by
  unfold State.dropTimers
  repeat' first
    | with_reducible assumption
    | with_reducible apply Keeps.refl
    | with_reducible apply Keeps.ite
    | (with_reducible apply Keeps.forEach; intro _ _ _)
    | (with_reducible apply Keeps.foldl_fst; intro _ _ _)
    | (with_reducible apply Keeps.foldl_snd; intro _ _ _)
    | (with_reducible apply Keeps.foldl; intro _ _ _)
    | split
    | refine Keeps.upd ?_

end Sys2Proof.Machine
end

