-- ==== Sys2Proof/Laws/KeepsWire.lean ====
section
/-!
SUPPORT. Footprints of the operations of Machine/Wire.lean: which parts of a state each can change.
-/
set_option Elab.async false
set_option linter.unusedTactic false
set_option linter.unreachableTactic false
namespace Sys2Proof.Machine

theorem State.launchEnv_keeps (s : State) (toHost : Bool) (broken : Bool) (e : Env) :
    Keeps (foot [.bar]) s (State.launchEnv s toHost broken e) := by
  unfold State.launchEnv
  extract_lets a1
  try clear_value a1
  repeat' first
    | with_reducible assumption
    | with_reducible apply Keeps.refl
    | with_reducible apply Keeps.ite
    | (with_reducible apply Keeps.forEach; intro _ _ _)
    | (with_reducible apply Keeps.foldl_fst; intro _ _ _)
    | (with_reducible apply Keeps.foldl_snd; intro _ _ _)
    | (with_reducible apply Keeps.foldl; intro _ _ _)
    | split
    | refine Keeps.upd ?_

theorem State.sendF_keeps (s : State) (d : Draft) :
    Keeps (foot [.bar]) s (State.sendF s d) := by
  unfold State.sendF
  extract_lets a1
  try clear_value a1
  repeat' first
    | with_reducible assumption
    | with_reducible apply Keeps.refl
    | with_reducible apply Keeps.ite
    | (with_reducible apply Keeps.forEach; intro _ _ _)
    | (with_reducible apply Keeps.foldl_fst; intro _ _ _)
    | (with_reducible apply Keeps.foldl_snd; intro _ _ _)
    | (with_reducible apply Keeps.foldl; intro _ _ _)
    | split
    | refine Keeps.upd ?_

theorem State.sendStatus_keeps (s : State) (code : Nat) (operand : Nat) (pm : PM) (first : Bool) :
    Keeps (foot [.bar]) s (State.sendStatus s code operand pm first) := by
  unfold State.sendStatus
  repeat' first
    | with_reducible assumption
    | with_reducible apply Keeps.refl
    | with_reducible apply Keeps.ite
    | (apply Keeps.step; with_reducible apply State.sendF_keeps)
    | (with_reducible apply Keeps.forEach; intro _ _ _)
    | (with_reducible apply Keeps.foldl_fst; intro _ _ _)
    | (with_reducible apply Keeps.foldl_snd; intro _ _ _)
    | (with_reducible apply Keeps.foldl; intro _ _ _)
    | decide +kernel
    | exact sub_flt _ (by decide +kernel)
    | exact sub_eng _ (by decide +kernel)
    | exact sub_hk _ (by decide +kernel)
    | exact sub_port _ _ (by decide +kernel)
    | exact sub_win _ (by decide +kernel)
    | exact sub_any _ (by decide +kernel)
    | split

theorem State.sendReply_keeps (s : State) (idx : Nat) (v : Word) (status : Nat) (reqUnit : BitVec 8) :
    Keeps (foot [.bar]) s (State.sendReply s idx v status reqUnit) := by
  unfold State.sendReply
  repeat' first
    | with_reducible assumption
    | with_reducible apply Keeps.refl
    | with_reducible apply Keeps.ite
    | (apply Keeps.step; with_reducible apply State.sendF_keeps)
    | (with_reducible apply Keeps.forEach; intro _ _ _)
    | (with_reducible apply Keeps.foldl_fst; intro _ _ _)
    | (with_reducible apply Keeps.foldl_snd; intro _ _ _)
    | (with_reducible apply Keeps.foldl; intro _ _ _)
    | decide +kernel
    | exact sub_flt _ (by decide +kernel)
    | exact sub_eng _ (by decide +kernel)
    | exact sub_hk _ (by decide +kernel)
    | exact sub_port _ _ (by decide +kernel)
    | exact sub_win _ (by decide +kernel)
    | exact sub_any _ (by decide +kernel)
    | split

theorem State.setFieldEpoch_keeps (s : State) (e : BitVec 2) :
    Keeps (foot [.bar]) s (State.setFieldEpoch s e) := by
  unfold State.setFieldEpoch
  extract_lets a1
  try clear_value a1
  repeat' first
    | with_reducible assumption
    | with_reducible apply Keeps.refl
    | with_reducible apply Keeps.ite
    | (with_reducible apply Keeps.forEach; intro _ _ _)
    | (with_reducible apply Keeps.foldl_fst; intro _ _ _)
    | (with_reducible apply Keeps.foldl_snd; intro _ _ _)
    | (with_reducible apply Keeps.foldl; intro _ _ _)
    | split
    | refine Keeps.upd ?_

theorem State.sendH_keeps (s : State) (d : Draft) :
    Keeps (foot [.bar]) s (State.sendH s d) := by
  unfold State.sendH
  extract_lets a1
  try clear_value a1
  repeat' first
    | with_reducible assumption
    | with_reducible apply Keeps.refl
    | with_reducible apply Keeps.ite
    | (with_reducible apply Keeps.forEach; intro _ _ _)
    | (with_reducible apply Keeps.foldl_fst; intro _ _ _)
    | (with_reducible apply Keeps.foldl_snd; intro _ _ _)
    | (with_reducible apply Keeps.foldl; intro _ _ _)
    | split
    | refine Keeps.upd ?_

theorem State.sendCommand_keeps (s : State) (op : Nat) (operand : Nat) (pm : PM) :
    Keeps (foot [.bar]) s (State.sendCommand s op operand pm) := by
  unfold State.sendCommand
  repeat' first
    | with_reducible assumption
    | with_reducible apply Keeps.refl
    | with_reducible apply Keeps.ite
    | (apply Keeps.step; with_reducible apply State.sendH_keeps)
    | (with_reducible apply Keeps.forEach; intro _ _ _)
    | (with_reducible apply Keeps.foldl_fst; intro _ _ _)
    | (with_reducible apply Keeps.foldl_snd; intro _ _ _)
    | (with_reducible apply Keeps.foldl; intro _ _ _)
    | decide +kernel
    | exact sub_flt _ (by decide +kernel)
    | exact sub_eng _ (by decide +kernel)
    | exact sub_hk _ (by decide +kernel)
    | exact sub_port _ _ (by decide +kernel)
    | exact sub_win _ (by decide +kernel)
    | exact sub_any _ (by decide +kernel)
    | split

theorem State.setHostEpoch_keeps (s : State) (e : BitVec 2) :
    Keeps (foot [.bar]) s (State.setHostEpoch s e) := by
  unfold State.setHostEpoch
  extract_lets a1
  try clear_value a1
  repeat' first
    | with_reducible assumption
    | with_reducible apply Keeps.refl
    | with_reducible apply Keeps.ite
    | (with_reducible apply Keeps.forEach; intro _ _ _)
    | (with_reducible apply Keeps.foldl_fst; intro _ _ _)
    | (with_reducible apply Keeps.foldl_snd; intro _ _ _)
    | (with_reducible apply Keeps.foldl; intro _ _ _)
    | split
    | refine Keeps.upd ?_

theorem State.seeIrq_keeps (s : State) (idx : Nat) (v : Word) :
    Keeps (foot [.faults]) s (State.seeIrq s idx v) := by
  unfold State.seeIrq
  extract_lets a1 a2
  try clear_value a1
  try clear_value a2
  repeat' first
    | with_reducible assumption
    | with_reducible apply Keeps.refl
    | with_reducible apply Keeps.ite
    | (with_reducible apply Keeps.forEach; intro _ _ _)
    | (with_reducible apply Keeps.foldl_fst; intro _ _ _)
    | (with_reducible apply Keeps.foldl_snd; intro _ _ _)
    | (with_reducible apply Keeps.foldl; intro _ _ _)
    | split
    | refine Keeps.upd ?_

theorem State.sendRead_keeps (s : State) (m : Master) (tag : Nat) (idx : Nat) (peek : Bool) :
    Keeps (foot [.bar]) s (State.sendRead s m tag idx peek) := by
  unfold State.sendRead
  repeat' first
    | with_reducible assumption
    | with_reducible apply Keeps.refl
    | with_reducible apply Keeps.ite
    | (apply Keeps.step; with_reducible apply State.sendH_keeps)
    | (with_reducible apply Keeps.forEach; intro _ _ _)
    | (with_reducible apply Keeps.foldl_fst; intro _ _ _)
    | (with_reducible apply Keeps.foldl_snd; intro _ _ _)
    | (with_reducible apply Keeps.foldl; intro _ _ _)
    | decide +kernel
    | exact sub_flt _ (by decide +kernel)
    | exact sub_eng _ (by decide +kernel)
    | exact sub_hk _ (by decide +kernel)
    | exact sub_port _ _ (by decide +kernel)
    | exact sub_win _ (by decide +kernel)
    | exact sub_any _ (by decide +kernel)
    | split

theorem State.sendWrite_keeps (s : State) (m : Master) (tag : Nat) (idx : Nat) (v : Word) (launch : Option PM) :
    Keeps (foot [.bar, .faults]) s (State.sendWrite s m tag idx v launch) := by
  unfold State.sendWrite
  repeat' first
    | with_reducible assumption
    | with_reducible apply Keeps.refl
    | with_reducible apply Keeps.ite
    | (apply Keeps.step; with_reducible apply State.sendH_keeps)
    | (apply Keeps.step; with_reducible apply State.seeIrq_keeps)
    | (with_reducible apply Keeps.forEach; intro _ _ _)
    | (with_reducible apply Keeps.foldl_fst; intro _ _ _)
    | (with_reducible apply Keeps.foldl_snd; intro _ _ _)
    | (with_reducible apply Keeps.foldl; intro _ _ _)
    | decide +kernel
    | exact sub_flt _ (by decide +kernel)
    | exact sub_eng _ (by decide +kernel)
    | exact sub_hk _ (by decide +kernel)
    | exact sub_port _ _ (by decide +kernel)
    | exact sub_win _ (by decide +kernel)
    | exact sub_any _ (by decide +kernel)
    | split

end Sys2Proof.Machine
end

