-- ==== Sys2Proof/Laws/KeepsOffice.lean ====
section
/-!
SUPPORT. Footprints of the operations of Machine/Office.lean: which parts of a state each can change.
-/
set_option Elab.async false
set_option linter.unusedTactic false
set_option linter.unreachableTactic false
namespace Sys2Proof.Machine

theorem State.deadEntry_keeps (s : State) (w0 : Nat) (w2 : Nat) :
    Keeps (foot [.reg LNK_DEADLETTER_COUNT, .win .lnk]) s (State.deadEntry s w0 w2) := by
  unfold State.deadEntry
  extract_lets a1 a2
  try clear_value a1
  try clear_value a2
  repeat' first
    | with_reducible assumption
    | with_reducible apply Keeps.refl
    | with_reducible apply Keeps.ite
    | (apply Keeps.step; with_reducible apply State.setFld_keeps)
    | (apply Keeps.step; with_reducible apply State.setWinN_keeps)
    | (with_reducible apply Keeps.forEach; intro _ _ _)
    | (with_reducible apply Keeps.foldl_fst; intro _ _ _)
    | (with_reducible apply Keeps.foldl_snd; intro _ _ _)
    | (with_reducible apply Keeps.foldl; intro _ _ _)
    | decide +kernel
    | exact sub_flt _ (by decide +kernel)
    | exact sub_eng _ (by decide +kernel)
    | exact sub_hk _ (by decide +kernel)
    | exact sub_port _ _ (by decide +kernel)
    | exact sub_win _ (by decide +kernel)
    | exact sub_any _ (by decide +kernel)
    | split

theorem State.deadParcel_keeps (s : State) (reason : Nat) (port : Nat) (epoch : Nat) (unit : Nat) (slot : Nat) (w2 : Nat) (n : Nat) :
    Keeps (foot [.reg LNK_DEADLETTER_COUNT, .win .lnk]) s (State.deadParcel s reason port epoch unit slot w2 n) := by
  unfold State.deadParcel
  extract_lets a1
  try clear_value a1
  repeat' first
    | with_reducible assumption
    | with_reducible apply Keeps.refl
    | with_reducible apply Keeps.ite
    | (apply Keeps.step; with_reducible apply State.setFld_keeps)
    | (apply Keeps.step; with_reducible apply State.deadEntry_keeps)
    | (with_reducible apply Keeps.forEach; intro _ _ _)
    | (with_reducible apply Keeps.foldl_fst; intro _ _ _)
    | (with_reducible apply Keeps.foldl_snd; intro _ _ _)
    | (with_reducible apply Keeps.foldl; intro _ _ _)
    | decide +kernel
    | exact sub_flt _ (by decide +kernel)
    | exact sub_eng _ (by decide +kernel)
    | exact sub_hk _ (by decide +kernel)
    | exact sub_port _ _ (by decide +kernel)
    | exact sub_win _ (by decide +kernel)
    | exact sub_any _ (by decide +kernel)
    | split

theorem State.deadRecord_keeps (s : State) (x : QItem) :
    Keeps (foot [.reg LNK_DEADLETTER_COUNT, .win .lnk]) s (State.deadRecord s x) := by
  unfold State.deadRecord
  repeat' first
    | with_reducible assumption
    | with_reducible apply Keeps.refl
    | with_reducible apply Keeps.ite
    | (apply Keeps.step; with_reducible apply State.deadParcel_keeps)
    | (with_reducible apply Keeps.forEach; intro _ _ _)
    | (with_reducible apply Keeps.foldl_fst; intro _ _ _)
    | (with_reducible apply Keeps.foldl_snd; intro _ _ _)
    | (with_reducible apply Keeps.foldl; intro _ _ _)
    | decide +kernel
    | exact sub_flt _ (by decide +kernel)
    | exact sub_eng _ (by decide +kernel)
    | exact sub_hk _ (by decide +kernel)
    | exact sub_port _ _ (by decide +kernel)
    | exact sub_win _ (by decide +kernel)
    | exact sub_any _ (by decide +kernel)
    | split

theorem State.pushStatus_keeps (s : State) (x : QItem) :
    Keeps (foot [.reg LNK_DEADLETTER_COUNT, .win .lnk, .lnk]) s (State.pushStatus s x).1 := by
  unfold State.pushStatus
  extract_lets a1 a2 a3
  try clear_value a1
  try clear_value a2
  have ha3 : Keeps (foot [.reg LNK_DEADLETTER_COUNT, .win .lnk, .lnk]) s a3 := by
    unfold a3
    repeat' first
      | with_reducible assumption
      | with_reducible apply Keeps.refl
      | split
      | with_reducible apply Keeps.ite
      | (apply Keeps.step; with_reducible apply State.deadRecord_keeps)
      | (with_reducible apply Keeps.forEach; intro _ _ _)
      | (with_reducible apply Keeps.foldl_fst; intro _ _ _)
      | (with_reducible apply Keeps.foldl_snd; intro _ _ _)
      | (with_reducible apply Keeps.foldl; intro _ _ _)
      | decide +kernel
      | exact sub_flt _ (by decide +kernel)
      | exact sub_eng _ (by decide +kernel)
      | exact sub_hk _ (by decide +kernel)
      | exact sub_port _ _ (by decide +kernel)
      | exact sub_win _ (by decide +kernel)
      | exact sub_any _ (by decide +kernel)
      | refine Keeps.upd ?_
  try clear_value a3
  repeat' first
    | with_reducible assumption
    | with_reducible apply Keeps.refl
    | split
    | with_reducible apply Keeps.ite
    | (apply Keeps.step; with_reducible apply State.deadRecord_keeps)
    | (with_reducible apply Keeps.forEach; intro _ _ _)
    | (with_reducible apply Keeps.foldl_fst; intro _ _ _)
    | (with_reducible apply Keeps.foldl_snd; intro _ _ _)
    | (with_reducible apply Keeps.foldl; intro _ _ _)
    | decide +kernel
    | exact sub_flt _ (by decide +kernel)
    | exact sub_eng _ (by decide +kernel)
    | exact sub_hk _ (by decide +kernel)
    | exact sub_port _ _ (by decide +kernel)
    | exact sub_win _ (by decide +kernel)
    | exact sub_any _ (by decide +kernel)
    | refine Keeps.upd ?_

theorem State.pushHk_keeps (s : State) (x : QItem) :
    Keeps (foot [.reg LNK_DEADLETTER_COUNT, .win .lnk, .lnk]) s (State.pushHk s x).1 := by
  unfold State.pushHk
  extract_lets a1 a2 a3
  try clear_value a1
  try clear_value a2
  have ha3 : Keeps (foot [.reg LNK_DEADLETTER_COUNT, .win .lnk, .lnk]) s a3 := by
    unfold a3
    repeat' first
      | with_reducible assumption
      | with_reducible apply Keeps.refl
      | split
      | with_reducible apply Keeps.ite
      | (apply Keeps.step; with_reducible apply State.deadRecord_keeps)
      | (with_reducible apply Keeps.forEach; intro _ _ _)
      | (with_reducible apply Keeps.foldl_fst; intro _ _ _)
      | (with_reducible apply Keeps.foldl_snd; intro _ _ _)
      | (with_reducible apply Keeps.foldl; intro _ _ _)
      | decide +kernel
      | exact sub_flt _ (by decide +kernel)
      | exact sub_eng _ (by decide +kernel)
      | exact sub_hk _ (by decide +kernel)
      | exact sub_port _ _ (by decide +kernel)
      | exact sub_win _ (by decide +kernel)
      | exact sub_any _ (by decide +kernel)
      | refine Keeps.upd ?_
  try clear_value a3
  repeat' first
    | with_reducible assumption
    | with_reducible apply Keeps.refl
    | split
    | with_reducible apply Keeps.ite
    | (apply Keeps.step; with_reducible apply State.deadRecord_keeps)
    | (with_reducible apply Keeps.forEach; intro _ _ _)
    | (with_reducible apply Keeps.foldl_fst; intro _ _ _)
    | (with_reducible apply Keeps.foldl_snd; intro _ _ _)
    | (with_reducible apply Keeps.foldl; intro _ _ _)
    | decide +kernel
    | exact sub_flt _ (by decide +kernel)
    | exact sub_eng _ (by decide +kernel)
    | exact sub_hk _ (by decide +kernel)
    | exact sub_port _ _ (by decide +kernel)
    | exact sub_win _ (by decide +kernel)
    | exact sub_any _ (by decide +kernel)
    | refine Keeps.upd ?_

theorem State.deadEnvelope_keeps (s : State) (reason : Nat) (e : Env) :
    Keeps (foot [.reg LNK_DEADLETTER_COUNT, .win .lnk]) s (State.deadEnvelope s reason e) := by
  unfold State.deadEnvelope
  extract_lets a1 a2
  try clear_value a1
  try clear_value a2
  repeat' first
    | with_reducible assumption
    | with_reducible apply Keeps.refl
    | with_reducible apply Keeps.ite
    | (apply Keeps.step; with_reducible apply State.setFld_keeps)
    | (apply Keeps.step; with_reducible apply State.deadEntry_keeps)
    | (with_reducible apply Keeps.forEach; intro _ _ _)
    | (with_reducible apply Keeps.foldl_fst; intro _ _ _)
    | (with_reducible apply Keeps.foldl_snd; intro _ _ _)
    | (with_reducible apply Keeps.foldl; intro _ _ _)
    | decide +kernel
    | exact sub_flt _ (by decide +kernel)
    | exact sub_eng _ (by decide +kernel)
    | exact sub_hk _ (by decide +kernel)
    | exact sub_port _ _ (by decide +kernel)
    | exact sub_win _ (by decide +kernel)
    | exact sub_any _ (by decide +kernel)
    | split

end Sys2Proof.Machine
end

