-- ==== Sys2Proof/Laws/KeepsFault.lean ====
section
/-!
SUPPORT. Footprints of the operations of Machine/Fault.lean: which parts of a state each can change.
-/
set_option Elab.async false
set_option linter.unusedTactic false
set_option linter.unreachableTactic false
namespace Sys2Proof.Machine

theorem State.fillRecord_keeps (s : State) (b : Blk) (i : Nat) (sev : Nat) (esc : Bool) (r : RaiseInfo) :
    Keeps (foot [.flt, .recTick]) s (State.fillRecord s b i sev esc r) := by
  unfold State.fillRecord
  extract_lets a1 a2 a3 a4 a5 a6
  try clear_value a2
  have ha3 : Keeps (foot [.flt, .recTick]) s a3 := by
    unfold a3
    repeat' first
      | with_reducible assumption
      | with_reducible apply Keeps.refl
      | with_reducible apply Keeps.ite
      | (apply Keeps.step; with_reducible apply State.setReg_keeps)
      | (with_reducible apply Keeps.forEach; intro _ _ _)
      | (with_reducible apply Keeps.foldl_fst; intro _ _ _)
      | (with_reducible apply Keeps.foldl_snd; intro _ _ _)
      | (with_reducible apply Keeps.foldl; intro _ _ _)
      | decide +kernel
      | exact sub_flt _ (by decide +kernel)
      | exact sub_eng _ (by decide +kernel)
      | exact sub_hk _ (by decide +kernel)
      | exact sub_port _ _ (by decide +kernel)
      | exact sub_win _ (by decide +kernel)
      | exact sub_any _ (by decide +kernel)
      | split
      | refine Keeps.upd ?_
  try clear_value a3
  have ha4 : Keeps (foot [.flt, .recTick]) s a4 := by
    unfold a4
    repeat' first
      | with_reducible assumption
      | with_reducible apply Keeps.refl
      | with_reducible apply Keeps.ite
      | (apply Keeps.step; with_reducible apply State.setReg_keeps)
      | (with_reducible apply Keeps.forEach; intro _ _ _)
      | (with_reducible apply Keeps.foldl_fst; intro _ _ _)
      | (with_reducible apply Keeps.foldl_snd; intro _ _ _)
      | (with_reducible apply Keeps.foldl; intro _ _ _)
      | decide +kernel
      | exact sub_flt _ (by decide +kernel)
      | exact sub_eng _ (by decide +kernel)
      | exact sub_hk _ (by decide +kernel)
      | exact sub_port _ _ (by decide +kernel)
      | exact sub_win _ (by decide +kernel)
      | exact sub_any _ (by decide +kernel)
      | split
      | refine Keeps.upd ?_
  try clear_value a4
  have ha5 : Keeps (foot [.flt, .recTick]) s a5 := by
    unfold a5
    repeat' first
      | with_reducible assumption
      | with_reducible apply Keeps.refl
      | with_reducible apply Keeps.ite
      | (apply Keeps.step; with_reducible apply State.setReg_keeps)
      | (with_reducible apply Keeps.forEach; intro _ _ _)
      | (with_reducible apply Keeps.foldl_fst; intro _ _ _)
      | (with_reducible apply Keeps.foldl_snd; intro _ _ _)
      | (with_reducible apply Keeps.foldl; intro _ _ _)
      | decide +kernel
      | exact sub_flt _ (by decide +kernel)
      | exact sub_eng _ (by decide +kernel)
      | exact sub_hk _ (by decide +kernel)
      | exact sub_port _ _ (by decide +kernel)
      | exact sub_win _ (by decide +kernel)
      | exact sub_any _ (by decide +kernel)
      | split
      | refine Keeps.upd ?_
  try clear_value a5
  have ha6 : Keeps (foot [.flt, .recTick]) s a6 := by
    unfold a6
    repeat' first
      | with_reducible assumption
      | with_reducible apply Keeps.refl
      | with_reducible apply Keeps.ite
      | (apply Keeps.step; with_reducible apply State.setReg_keeps)
      | (with_reducible apply Keeps.forEach; intro _ _ _)
      | (with_reducible apply Keeps.foldl_fst; intro _ _ _)
      | (with_reducible apply Keeps.foldl_snd; intro _ _ _)
      | (with_reducible apply Keeps.foldl; intro _ _ _)
      | decide +kernel
      | exact sub_flt _ (by decide +kernel)
      | exact sub_eng _ (by decide +kernel)
      | exact sub_hk _ (by decide +kernel)
      | exact sub_port _ _ (by decide +kernel)
      | exact sub_win _ (by decide +kernel)
      | exact sub_any _ (by decide +kernel)
      | split
      | refine Keeps.upd ?_
  try clear_value a6
  repeat' first
    | with_reducible assumption
    | with_reducible apply Keeps.refl
    | with_reducible apply Keeps.ite
    | (apply Keeps.step; with_reducible apply State.setReg_keeps)
    | (with_reducible apply Keeps.forEach; intro _ _ _)
    | (with_reducible apply Keeps.foldl_fst; intro _ _ _)
    | (with_reducible apply Keeps.foldl_snd; intro _ _ _)
    | (with_reducible apply Keeps.foldl; intro _ _ _)
    | decide +kernel
    | exact sub_flt _ (by decide +kernel)
    | exact sub_eng _ (by decide +kernel)
    | exact sub_hk _ (by decide +kernel)
    | exact sub_port _ _ (by decide +kernel)
    | exact sub_win _ (by decide +kernel)
    | exact sub_any _ (by decide +kernel)
    | split
    | refine Keeps.upd ?_

theorem State.also_keeps (s : State) (b : Blk) (i : Nat) :
    Keeps (foot [.flt]) s (State.also s b i) := by
  unfold State.also
  extract_lets a1
  repeat' first
    | with_reducible assumption
    | with_reducible apply Keeps.refl
    | (show _ ||| _ = _; unfold a1; split <;> decide +kernel)
    | with_reducible apply Keeps.ite
    | (apply Keeps.step; with_reducible apply State.setFld_keeps)
    | (with_reducible apply Keeps.forEach; intro _ _ _)
    | (with_reducible apply Keeps.foldl_fst; intro _ _ _)
    | (with_reducible apply Keeps.foldl_snd; intro _ _ _)
    | (with_reducible apply Keeps.foldl; intro _ _ _)
    | decide +kernel
    | exact sub_flt _ (by decide +kernel)
    | exact sub_eng _ (by decide +kernel)
    | exact sub_hk _ (by decide +kernel)
    | exact sub_port _ _ (by decide +kernel)
    | exact sub_win _ (by decide +kernel)
    | exact sub_any _ (by decide +kernel)
    | split

theorem State.record_keeps (s : State) (b : Blk) (i : Nat) (sev : Nat) (esc : Bool) (r : RaiseInfo) :
    Keeps (foot [.flt, .recTick]) s (State.record s b i sev esc r) := by
  unfold State.record
  extract_lets a1 a2 a3
  try clear_value a2
  try clear_value a3
  repeat' first
    | with_reducible assumption
    | with_reducible apply Keeps.refl
    | with_reducible apply Keeps.ite
    | (apply Keeps.step; with_reducible apply State.fillRecord_keeps)
    | (apply Keeps.step; with_reducible apply State.also_keeps)
    | (with_reducible apply Keeps.forEach; intro _ _ _)
    | (with_reducible apply Keeps.foldl_fst; intro _ _ _)
    | (with_reducible apply Keeps.foldl_snd; intro _ _ _)
    | (with_reducible apply Keeps.foldl; intro _ _ _)
    | decide +kernel
    | exact sub_flt _ (by decide +kernel)
    | exact sub_eng _ (by decide +kernel)
    | exact sub_hk _ (by decide +kernel)
    | exact sub_port _ _ (by decide +kernel)
    | exact sub_win _ (by decide +kernel)
    | exact sub_any _ (by decide +kernel)
    | split

theorem State.sticky_keeps (s : State) (code : Nat) :
    Keeps (foot [.reg GLB_DETERMINISM, .faults]) s (State.sticky s code) := by
  unfold State.sticky
  extract_lets a1 a2 a3 a4 a5
  try clear_value a1
  try clear_value a2
  have ha3 : Keeps (foot [.reg GLB_DETERMINISM, .faults]) s a3 := by
    unfold a3
    repeat' first
      | with_reducible assumption
      | with_reducible apply Keeps.refl
      | with_reducible apply Keeps.ite
      | (apply Keeps.step; with_reducible apply State.setFld_keeps)
      | (with_reducible apply Keeps.forEach; intro _ _ _)
      | (with_reducible apply Keeps.foldl_fst; intro _ _ _)
      | (with_reducible apply Keeps.foldl_snd; intro _ _ _)
      | (with_reducible apply Keeps.foldl; intro _ _ _)
      | decide +kernel
      | exact sub_flt _ (by decide +kernel)
      | exact sub_eng _ (by decide +kernel)
      | exact sub_hk _ (by decide +kernel)
      | exact sub_port _ _ (by decide +kernel)
      | exact sub_win _ (by decide +kernel)
      | exact sub_any _ (by decide +kernel)
      | split
      | refine Keeps.upd ?_
  try clear_value a3
  have ha4 : Keeps (foot [.reg GLB_DETERMINISM, .faults]) s a4 := by
    unfold a4
    repeat' first
      | with_reducible assumption
      | with_reducible apply Keeps.refl
      | with_reducible apply Keeps.ite
      | (apply Keeps.step; with_reducible apply State.setFld_keeps)
      | (with_reducible apply Keeps.forEach; intro _ _ _)
      | (with_reducible apply Keeps.foldl_fst; intro _ _ _)
      | (with_reducible apply Keeps.foldl_snd; intro _ _ _)
      | (with_reducible apply Keeps.foldl; intro _ _ _)
      | decide +kernel
      | exact sub_flt _ (by decide +kernel)
      | exact sub_eng _ (by decide +kernel)
      | exact sub_hk _ (by decide +kernel)
      | exact sub_port _ _ (by decide +kernel)
      | exact sub_win _ (by decide +kernel)
      | exact sub_any _ (by decide +kernel)
      | split
      | refine Keeps.upd ?_
  try clear_value a4
  try clear_value a5
  repeat' first
    | with_reducible assumption
    | with_reducible apply Keeps.refl
    | with_reducible apply Keeps.ite
    | (apply Keeps.step; with_reducible apply State.setFld_keeps)
    | (with_reducible apply Keeps.forEach; intro _ _ _)
    | (with_reducible apply Keeps.foldl_fst; intro _ _ _)
    | (with_reducible apply Keeps.foldl_snd; intro _ _ _)
    | (with_reducible apply Keeps.foldl; intro _ _ _)
    | decide +kernel
    | exact sub_flt _ (by decide +kernel)
    | exact sub_eng _ (by decide +kernel)
    | exact sub_hk _ (by decide +kernel)
    | exact sub_port _ _ (by decide +kernel)
    | exact sub_win _ (by decide +kernel)
    | exact sub_any _ (by decide +kernel)
    | split
    | refine Keeps.upd ?_

theorem State.actRaise_keeps (s : State) (b : Blk) (act : Nat) (sev : Nat) (r : RaiseInfo) :
    Keeps (foot [.reg GLB_DETERMINISM, .faults]) s (State.actRaise s b act sev r) := by
  unfold State.actRaise
  extract_lets a1 a2 a3
  try clear_value a1
  have ha2 : Keeps (foot [.reg GLB_DETERMINISM, .faults]) s a2 := by
    unfold a2
    repeat' first
      | with_reducible assumption
      | with_reducible apply Keeps.refl
      | with_reducible apply Keeps.ite
      | (apply Keeps.step; with_reducible apply State.sticky_keeps)
      | (with_reducible apply Keeps.forEach; intro _ _ _)
      | (with_reducible apply Keeps.foldl_fst; intro _ _ _)
      | (with_reducible apply Keeps.foldl_snd; intro _ _ _)
      | (with_reducible apply Keeps.foldl; intro _ _ _)
      | decide +kernel
      | exact sub_flt _ (by decide +kernel)
      | exact sub_eng _ (by decide +kernel)
      | exact sub_hk _ (by decide +kernel)
      | exact sub_port _ _ (by decide +kernel)
      | exact sub_win _ (by decide +kernel)
      | exact sub_any _ (by decide +kernel)
      | split
      | refine Keeps.upd ?_
  try clear_value a2
  try clear_value a3
  repeat' first
    | with_reducible assumption
    | with_reducible apply Keeps.refl
    | with_reducible apply Keeps.ite
    | (apply Keeps.step; with_reducible apply State.sticky_keeps)
    | (with_reducible apply Keeps.forEach; intro _ _ _)
    | (with_reducible apply Keeps.foldl_fst; intro _ _ _)
    | (with_reducible apply Keeps.foldl_snd; intro _ _ _)
    | (with_reducible apply Keeps.foldl; intro _ _ _)
    | decide +kernel
    | exact sub_flt _ (by decide +kernel)
    | exact sub_eng _ (by decide +kernel)
    | exact sub_hk _ (by decide +kernel)
    | exact sub_port _ _ (by decide +kernel)
    | exact sub_win _ (by decide +kernel)
    | exact sub_any _ (by decide +kernel)
    | split
    | refine Keeps.upd ?_

theorem State.setEng_keeps (s : State) (e : Eng) (x : EngSt) :
    Keeps (foot [.cou, .bru]) s (State.setEng s e x) := by
  unfold State.setEng
  repeat' first
    | with_reducible assumption
    | with_reducible apply Keeps.refl
    | with_reducible apply Keeps.ite
    | (with_reducible apply Keeps.forEach; intro _ _ _)
    | (with_reducible apply Keeps.foldl_fst; intro _ _ _)
    | (with_reducible apply Keeps.foldl_snd; intro _ _ _)
    | (with_reducible apply Keeps.foldl; intro _ _ _)
    | split
    | refine Keeps.upd ?_

theorem State.cause_keeps (s : State) (e : Eng) (k : Nat) :
    Keeps (foot [.cou, .bru]) s (State.cause s e k) := by
  unfold State.cause
  extract_lets a1
  try clear_value a1
  repeat' first
    | with_reducible assumption
    | with_reducible apply Keeps.refl
    | with_reducible apply Keeps.ite
    | (apply Keeps.step; with_reducible apply State.setEng_keeps)
    | (with_reducible apply Keeps.forEach; intro _ _ _)
    | (with_reducible apply Keeps.foldl_fst; intro _ _ _)
    | (with_reducible apply Keeps.foldl_snd; intro _ _ _)
    | (with_reducible apply Keeps.foldl; intro _ _ _)
    | decide +kernel
    | exact sub_flt _ (by decide +kernel)
    | exact sub_eng _ (by decide +kernel)
    | exact sub_hk _ (by decide +kernel)
    | exact sub_port _ _ (by decide +kernel)
    | exact sub_win _ (by decide +kernel)
    | exact sub_any _ (by decide +kernel)
    | split

theorem State.safeSoon_keeps (s : State) (cause : Nat) :
    Keeps (foot [.faults]) s (State.safeSoon s cause) := by
  unfold State.safeSoon
  extract_lets a1
  try clear_value a1
  repeat' first
    | with_reducible assumption
    | with_reducible apply Keeps.refl
    | with_reducible apply Keeps.ite
    | (with_reducible apply Keeps.forEach; intro _ _ _)
    | (with_reducible apply Keeps.foldl_fst; intro _ _ _)
    | (with_reducible apply Keeps.foldl_snd; intro _ _ _)
    | (with_reducible apply Keeps.foldl; intro _ _ _)
    | split
    | refine Keeps.upd ?_

theorem State.note_keeps (s : State) (e : Eng) (wait : Nat) :
    Keeps (foot [.cou, .bru]) s (State.note s e wait) := by
  unfold State.note
  extract_lets a1
  try clear_value a1
  repeat' first
    | with_reducible assumption
    | with_reducible apply Keeps.refl
    | with_reducible apply Keeps.ite
    | (apply Keeps.step; with_reducible apply State.setEng_keeps)
    | (with_reducible apply Keeps.forEach; intro _ _ _)
    | (with_reducible apply Keeps.foldl_fst; intro _ _ _)
    | (with_reducible apply Keeps.foldl_snd; intro _ _ _)
    | (with_reducible apply Keeps.foldl; intro _ _ _)
    | decide +kernel
    | exact sub_flt _ (by decide +kernel)
    | exact sub_eng _ (by decide +kernel)
    | exact sub_hk _ (by decide +kernel)
    | exact sub_port _ _ (by decide +kernel)
    | exact sub_win _ (by decide +kernel)
    | exact sub_any _ (by decide +kernel)
    | split

theorem State.request_keeps (s : State) (e : Eng) (n : Nat) (arg : W24) :
    Keeps (foot [.reg (ENG_STATUS 0x600), .reg (ENG_STATUS 0x1B00), .cou, .bru]) s (State.request s e n arg) := by
  unfold State.request
  extract_lets a1 a2 a3
  try clear_value a1
  try clear_value a2
  have ha3 : Keeps (foot [.reg (ENG_STATUS 0x600), .reg (ENG_STATUS 0x1B00), .cou, .bru]) s a3 := by
    unfold a3
    repeat' first
      | with_reducible assumption
      | with_reducible apply Keeps.refl
      | with_reducible apply Keeps.ite
      | (apply Keeps.step; with_reducible apply State.setBit_keeps)
      | (apply Keeps.step; with_reducible apply State.note_keeps)
      | (apply Keeps.step; with_reducible apply State.setEng_keeps)
      | (apply Keeps.step; with_reducible apply State.cause_keeps)
      | (with_reducible apply Keeps.forEach; intro _ _ _)
      | (with_reducible apply Keeps.foldl_fst; intro _ _ _)
      | (with_reducible apply Keeps.foldl_snd; intro _ _ _)
      | (with_reducible apply Keeps.foldl; intro _ _ _)
      | decide +kernel
      | exact sub_eng _ (by decide +kernel)
      | exact sub_flt _ (by decide +kernel)
      | exact sub_hk _ (by decide +kernel)
      | exact sub_port _ _ (by decide +kernel)
      | exact sub_win _ (by decide +kernel)
      | exact sub_any _ (by decide +kernel)
      | split
  try clear_value a3
  repeat' first
    | with_reducible assumption
    | with_reducible apply Keeps.refl
    | with_reducible apply Keeps.ite
    | (apply Keeps.step; with_reducible apply State.setBit_keeps)
    | (apply Keeps.step; with_reducible apply State.note_keeps)
    | (apply Keeps.step; with_reducible apply State.setEng_keeps)
    | (apply Keeps.step; with_reducible apply State.cause_keeps)
    | (with_reducible apply Keeps.forEach; intro _ _ _)
    | (with_reducible apply Keeps.foldl_fst; intro _ _ _)
    | (with_reducible apply Keeps.foldl_snd; intro _ _ _)
    | (with_reducible apply Keeps.foldl; intro _ _ _)
    | decide +kernel
    | exact sub_eng _ (by decide +kernel)
    | exact sub_flt _ (by decide +kernel)
    | exact sub_hk _ (by decide +kernel)
    | exact sub_port _ _ (by decide +kernel)
    | exact sub_win _ (by decide +kernel)
    | exact sub_any _ (by decide +kernel)
    | split

theorem State.trigger_keeps (s : State) (e : Eng) (n : Nat) :
    Keeps (foot [.reg (ENG_STATUS 0x600), .reg (ENG_STATUS 0x1B00), .cou, .bru, .free]) s (State.trigger s e n) := by
  unfold State.trigger
  extract_lets a1
  have ha1 : Keeps (foot [.reg (ENG_STATUS 0x600), .reg (ENG_STATUS 0x1B00), .cou, .bru, .free]) s a1 := by
    unfold a1
    repeat' first
      | with_reducible assumption
      | with_reducible apply Keeps.refl
      | with_reducible apply Keeps.ite
      | (apply Keeps.step; with_reducible apply State.request_keeps)
      | (with_reducible apply Keeps.forEach; intro _ _ _)
      | (with_reducible apply Keeps.foldl_fst; intro _ _ _)
      | (with_reducible apply Keeps.foldl_snd; intro _ _ _)
      | (with_reducible apply Keeps.foldl; intro _ _ _)
      | decide +kernel
      | exact sub_flt _ (by decide +kernel)
      | exact sub_eng _ (by decide +kernel)
      | exact sub_hk _ (by decide +kernel)
      | exact sub_port _ _ (by decide +kernel)
      | exact sub_win _ (by decide +kernel)
      | exact sub_any _ (by decide +kernel)
      | split
      | refine Keeps.upd ?_
  try clear_value a1
  repeat' first
    | with_reducible assumption
    | with_reducible apply Keeps.refl
    | with_reducible apply Keeps.ite
    | (apply Keeps.step; with_reducible apply State.request_keeps)
    | (with_reducible apply Keeps.forEach; intro _ _ _)
    | (with_reducible apply Keeps.foldl_fst; intro _ _ _)
    | (with_reducible apply Keeps.foldl_snd; intro _ _ _)
    | (with_reducible apply Keeps.foldl; intro _ _ _)
    | decide +kernel
    | exact sub_flt _ (by decide +kernel)
    | exact sub_eng _ (by decide +kernel)
    | exact sub_hk _ (by decide +kernel)
    | exact sub_port _ _ (by decide +kernel)
    | exact sub_win _ (by decide +kernel)
    | exact sub_any _ (by decide +kernel)
    | split
    | refine Keeps.upd ?_

theorem State.noticeRaise_keeps (s : State) (b : Blk) (i : Nat) (sev : Nat) (r : RaiseInfo) :
    Keeps (foot [.bar, .srcs]) s (State.noticeRaise s b i sev r) := by
  unfold State.noticeRaise
  extract_lets a1 a2 a3 a4 a5 a6
  try clear_value a2
  try clear_value a3
  try clear_value a4
  try clear_value a5
  try clear_value a6
  repeat' first
    | with_reducible assumption
    | with_reducible apply Keeps.refl
    | with_reducible apply Keeps.ite
    | (apply Keeps.step; with_reducible apply State.sendF_keeps)
    | (apply Keeps.step; with_reducible apply State.setSrc_keeps)
    | (with_reducible apply Keeps.forEach; intro _ _ _)
    | (with_reducible apply Keeps.foldl_fst; intro _ _ _)
    | (with_reducible apply Keeps.foldl_snd; intro _ _ _)
    | (with_reducible apply Keeps.foldl; intro _ _ _)
    | decide +kernel
    | exact sub_flt _ (by decide +kernel)
    | exact sub_eng _ (by decide +kernel)
    | exact sub_hk _ (by decide +kernel)
    | exact sub_port _ _ (by decide +kernel)
    | exact sub_win _ (by decide +kernel)
    | exact sub_any _ (by decide +kernel)
    | split

theorem State.raiseCore_keeps (s : State) (b : Blk) (i : Nat) (r : RaiseInfo) :
    Keeps (foot [.reg GLB_DETERMINISM, .reg (ENG_STATUS 0x600), .reg (ENG_STATUS 0x1B00), .flt, .recTick, .bar, .faults, .cou, .bru, .free, .srcs]) s (State.raiseCore s b i r) := by
  unfold State.raiseCore
  extract_lets a1 a2 a3 a4 a5 a6 a7 a8 a9 a10 a11 a12 a13 a14 a15 a16 a17 a18 a19 a20 a21
  try clear_value a1
  try clear_value a3
  try clear_value a4
  try clear_value a5
  try clear_value a6
  try clear_value a7
  try clear_value a8
  try clear_value a9
  try clear_value a10
  try clear_value a11
  try clear_value a12
  have ha13 : Keeps (foot [.reg GLB_DETERMINISM, .reg (ENG_STATUS 0x600), .reg (ENG_STATUS 0x1B00), .flt, .recTick, .bar, .faults, .cou, .bru, .free, .srcs]) s a13 := by
    unfold a13
    repeat' first
      | with_reducible assumption
      | with_reducible apply Keeps.refl
      | with_reducible apply Keeps.ite
      | (apply Keeps.step; with_reducible apply State.setFld_keeps)
      | (apply Keeps.step; with_reducible apply State.setSrc_keeps)
      | (apply Keeps.step; with_reducible apply State.inc_keeps)
      | (apply Keeps.step; with_reducible apply State.record_keeps)
      | (apply Keeps.step; with_reducible apply State.actRaise_keeps)
      | (apply Keeps.step; with_reducible apply State.cause_keeps)
      | (apply Keeps.step; with_reducible apply State.safeSoon_keeps)
      | (apply Keeps.step; with_reducible apply State.trigger_keeps)
      | (apply Keeps.step; with_reducible apply State.note_keeps)
      | (apply Keeps.step; with_reducible apply State.noticeRaise_keeps)
      | (with_reducible apply Keeps.forEach; intro _ _ _)
      | (with_reducible apply Keeps.foldl_fst; intro _ _ _)
      | (with_reducible apply Keeps.foldl_snd; intro _ _ _)
      | (with_reducible apply Keeps.foldl; intro _ _ _)
      | decide +kernel
      | exact sub_flt _ (by decide +kernel)
      | exact sub_eng _ (by decide +kernel)
      | exact sub_hk _ (by decide +kernel)
      | exact sub_port _ _ (by decide +kernel)
      | exact sub_win _ (by decide +kernel)
      | exact sub_any _ (by decide +kernel)
      | split
  try clear_value a13
  have ha14 : Keeps (foot [.reg GLB_DETERMINISM, .reg (ENG_STATUS 0x600), .reg (ENG_STATUS 0x1B00), .flt, .recTick, .bar, .faults, .cou, .bru, .free, .srcs]) s a14 := by
    unfold a14
    repeat' first
      | with_reducible assumption
      | with_reducible apply Keeps.refl
      | with_reducible apply Keeps.ite
      | (apply Keeps.step; with_reducible apply State.setFld_keeps)
      | (apply Keeps.step; with_reducible apply State.setSrc_keeps)
      | (apply Keeps.step; with_reducible apply State.inc_keeps)
      | (apply Keeps.step; with_reducible apply State.record_keeps)
      | (apply Keeps.step; with_reducible apply State.actRaise_keeps)
      | (apply Keeps.step; with_reducible apply State.cause_keeps)
      | (apply Keeps.step; with_reducible apply State.safeSoon_keeps)
      | (apply Keeps.step; with_reducible apply State.trigger_keeps)
      | (apply Keeps.step; with_reducible apply State.note_keeps)
      | (apply Keeps.step; with_reducible apply State.noticeRaise_keeps)
      | (with_reducible apply Keeps.forEach; intro _ _ _)
      | (with_reducible apply Keeps.foldl_fst; intro _ _ _)
      | (with_reducible apply Keeps.foldl_snd; intro _ _ _)
      | (with_reducible apply Keeps.foldl; intro _ _ _)
      | decide +kernel
      | exact sub_flt _ (by decide +kernel)
      | exact sub_eng _ (by decide +kernel)
      | exact sub_hk _ (by decide +kernel)
      | exact sub_port _ _ (by decide +kernel)
      | exact sub_win _ (by decide +kernel)
      | exact sub_any _ (by decide +kernel)
      | split
  try clear_value a14
  have ha15 : Keeps (foot [.reg GLB_DETERMINISM, .reg (ENG_STATUS 0x600), .reg (ENG_STATUS 0x1B00), .flt, .recTick, .bar, .faults, .cou, .bru, .free, .srcs]) s a15 := by
    unfold a15
    repeat' first
      | with_reducible assumption
      | with_reducible apply Keeps.refl
      | with_reducible apply Keeps.ite
      | (apply Keeps.step; with_reducible apply State.setFld_keeps)
      | (apply Keeps.step; with_reducible apply State.setSrc_keeps)
      | (apply Keeps.step; with_reducible apply State.inc_keeps)
      | (apply Keeps.step; with_reducible apply State.record_keeps)
      | (apply Keeps.step; with_reducible apply State.actRaise_keeps)
      | (apply Keeps.step; with_reducible apply State.cause_keeps)
      | (apply Keeps.step; with_reducible apply State.safeSoon_keeps)
      | (apply Keeps.step; with_reducible apply State.trigger_keeps)
      | (apply Keeps.step; with_reducible apply State.note_keeps)
      | (apply Keeps.step; with_reducible apply State.noticeRaise_keeps)
      | (with_reducible apply Keeps.forEach; intro _ _ _)
      | (with_reducible apply Keeps.foldl_fst; intro _ _ _)
      | (with_reducible apply Keeps.foldl_snd; intro _ _ _)
      | (with_reducible apply Keeps.foldl; intro _ _ _)
      | decide +kernel
      | exact sub_flt _ (by decide +kernel)
      | exact sub_eng _ (by decide +kernel)
      | exact sub_hk _ (by decide +kernel)
      | exact sub_port _ _ (by decide +kernel)
      | exact sub_win _ (by decide +kernel)
      | exact sub_any _ (by decide +kernel)
      | split
  try clear_value a15
  have ha16 : Keeps (foot [.reg GLB_DETERMINISM, .reg (ENG_STATUS 0x600), .reg (ENG_STATUS 0x1B00), .flt, .recTick, .bar, .faults, .cou, .bru, .free, .srcs]) s a16 := by
    unfold a16
    repeat' first
      | with_reducible assumption
      | with_reducible apply Keeps.refl
      | with_reducible apply Keeps.ite
      | (apply Keeps.step; with_reducible apply State.setFld_keeps)
      | (apply Keeps.step; with_reducible apply State.setSrc_keeps)
      | (apply Keeps.step; with_reducible apply State.inc_keeps)
      | (apply Keeps.step; with_reducible apply State.record_keeps)
      | (apply Keeps.step; with_reducible apply State.actRaise_keeps)
      | (apply Keeps.step; with_reducible apply State.cause_keeps)
      | (apply Keeps.step; with_reducible apply State.safeSoon_keeps)
      | (apply Keeps.step; with_reducible apply State.trigger_keeps)
      | (apply Keeps.step; with_reducible apply State.note_keeps)
      | (apply Keeps.step; with_reducible apply State.noticeRaise_keeps)
      | (with_reducible apply Keeps.forEach; intro _ _ _)
      | (with_reducible apply Keeps.foldl_fst; intro _ _ _)
      | (with_reducible apply Keeps.foldl_snd; intro _ _ _)
      | (with_reducible apply Keeps.foldl; intro _ _ _)
      | decide +kernel
      | exact sub_flt _ (by decide +kernel)
      | exact sub_eng _ (by decide +kernel)
      | exact sub_hk _ (by decide +kernel)
      | exact sub_port _ _ (by decide +kernel)
      | exact sub_win _ (by decide +kernel)
      | exact sub_any _ (by decide +kernel)
      | split
  try clear_value a16
  have ha17 : Keeps (foot [.reg GLB_DETERMINISM, .reg (ENG_STATUS 0x600), .reg (ENG_STATUS 0x1B00), .flt, .recTick, .bar, .faults, .cou, .bru, .free, .srcs]) s a17 := by
    unfold a17
    repeat' first
      | with_reducible assumption
      | with_reducible apply Keeps.refl
      | with_reducible apply Keeps.ite
      | (apply Keeps.step; with_reducible apply State.setFld_keeps)
      | (apply Keeps.step; with_reducible apply State.setSrc_keeps)
      | (apply Keeps.step; with_reducible apply State.inc_keeps)
      | (apply Keeps.step; with_reducible apply State.record_keeps)
      | (apply Keeps.step; with_reducible apply State.actRaise_keeps)
      | (apply Keeps.step; with_reducible apply State.cause_keeps)
      | (apply Keeps.step; with_reducible apply State.safeSoon_keeps)
      | (apply Keeps.step; with_reducible apply State.trigger_keeps)
      | (apply Keeps.step; with_reducible apply State.note_keeps)
      | (apply Keeps.step; with_reducible apply State.noticeRaise_keeps)
      | (with_reducible apply Keeps.forEach; intro _ _ _)
      | (with_reducible apply Keeps.foldl_fst; intro _ _ _)
      | (with_reducible apply Keeps.foldl_snd; intro _ _ _)
      | (with_reducible apply Keeps.foldl; intro _ _ _)
      | decide +kernel
      | exact sub_flt _ (by decide +kernel)
      | exact sub_eng _ (by decide +kernel)
      | exact sub_hk _ (by decide +kernel)
      | exact sub_port _ _ (by decide +kernel)
      | exact sub_win _ (by decide +kernel)
      | exact sub_any _ (by decide +kernel)
      | split
  try clear_value a17
  have ha18 : Keeps (foot [.reg GLB_DETERMINISM, .reg (ENG_STATUS 0x600), .reg (ENG_STATUS 0x1B00), .flt, .recTick, .bar, .faults, .cou, .bru, .free, .srcs]) s a18 := by
    unfold a18
    repeat' first
      | with_reducible assumption
      | with_reducible apply Keeps.refl
      | with_reducible apply Keeps.ite
      | (apply Keeps.step; with_reducible apply State.setFld_keeps)
      | (apply Keeps.step; with_reducible apply State.setSrc_keeps)
      | (apply Keeps.step; with_reducible apply State.inc_keeps)
      | (apply Keeps.step; with_reducible apply State.record_keeps)
      | (apply Keeps.step; with_reducible apply State.actRaise_keeps)
      | (apply Keeps.step; with_reducible apply State.cause_keeps)
      | (apply Keeps.step; with_reducible apply State.safeSoon_keeps)
      | (apply Keeps.step; with_reducible apply State.trigger_keeps)
      | (apply Keeps.step; with_reducible apply State.note_keeps)
      | (apply Keeps.step; with_reducible apply State.noticeRaise_keeps)
      | (with_reducible apply Keeps.forEach; intro _ _ _)
      | (with_reducible apply Keeps.foldl_fst; intro _ _ _)
      | (with_reducible apply Keeps.foldl_snd; intro _ _ _)
      | (with_reducible apply Keeps.foldl; intro _ _ _)
      | decide +kernel
      | exact sub_flt _ (by decide +kernel)
      | exact sub_eng _ (by decide +kernel)
      | exact sub_hk _ (by decide +kernel)
      | exact sub_port _ _ (by decide +kernel)
      | exact sub_win _ (by decide +kernel)
      | exact sub_any _ (by decide +kernel)
      | split
  try clear_value a18
  have ha19 : Keeps (foot [.reg GLB_DETERMINISM, .reg (ENG_STATUS 0x600), .reg (ENG_STATUS 0x1B00), .flt, .recTick, .bar, .faults, .cou, .bru, .free, .srcs]) s a19 := by
    unfold a19
    repeat' first
      | with_reducible assumption
      | with_reducible apply Keeps.refl
      | with_reducible apply Keeps.ite
      | (apply Keeps.step; with_reducible apply State.setFld_keeps)
      | (apply Keeps.step; with_reducible apply State.setSrc_keeps)
      | (apply Keeps.step; with_reducible apply State.inc_keeps)
      | (apply Keeps.step; with_reducible apply State.record_keeps)
      | (apply Keeps.step; with_reducible apply State.actRaise_keeps)
      | (apply Keeps.step; with_reducible apply State.cause_keeps)
      | (apply Keeps.step; with_reducible apply State.safeSoon_keeps)
      | (apply Keeps.step; with_reducible apply State.trigger_keeps)
      | (apply Keeps.step; with_reducible apply State.note_keeps)
      | (apply Keeps.step; with_reducible apply State.noticeRaise_keeps)
      | (with_reducible apply Keeps.forEach; intro _ _ _)
      | (with_reducible apply Keeps.foldl_fst; intro _ _ _)
      | (with_reducible apply Keeps.foldl_snd; intro _ _ _)
      | (with_reducible apply Keeps.foldl; intro _ _ _)
      | decide +kernel
      | exact sub_flt _ (by decide +kernel)
      | exact sub_eng _ (by decide +kernel)
      | exact sub_hk _ (by decide +kernel)
      | exact sub_port _ _ (by decide +kernel)
      | exact sub_win _ (by decide +kernel)
      | exact sub_any _ (by decide +kernel)
      | split
  try clear_value a19
  have ha20 : Keeps (foot [.reg GLB_DETERMINISM, .reg (ENG_STATUS 0x600), .reg (ENG_STATUS 0x1B00), .flt, .recTick, .bar, .faults, .cou, .bru, .free, .srcs]) s a20 := by
    unfold a20
    repeat' first
      | with_reducible assumption
      | with_reducible apply Keeps.refl
      | with_reducible apply Keeps.ite
      | (apply Keeps.step; with_reducible apply State.setFld_keeps)
      | (apply Keeps.step; with_reducible apply State.setSrc_keeps)
      | (apply Keeps.step; with_reducible apply State.inc_keeps)
      | (apply Keeps.step; with_reducible apply State.record_keeps)
      | (apply Keeps.step; with_reducible apply State.actRaise_keeps)
      | (apply Keeps.step; with_reducible apply State.cause_keeps)
      | (apply Keeps.step; with_reducible apply State.safeSoon_keeps)
      | (apply Keeps.step; with_reducible apply State.trigger_keeps)
      | (apply Keeps.step; with_reducible apply State.note_keeps)
      | (apply Keeps.step; with_reducible apply State.noticeRaise_keeps)
      | (with_reducible apply Keeps.forEach; intro _ _ _)
      | (with_reducible apply Keeps.foldl_fst; intro _ _ _)
      | (with_reducible apply Keeps.foldl_snd; intro _ _ _)
      | (with_reducible apply Keeps.foldl; intro _ _ _)
      | decide +kernel
      | exact sub_flt _ (by decide +kernel)
      | exact sub_eng _ (by decide +kernel)
      | exact sub_hk _ (by decide +kernel)
      | exact sub_port _ _ (by decide +kernel)
      | exact sub_win _ (by decide +kernel)
      | exact sub_any _ (by decide +kernel)
      | split
  try clear_value a20
  have ha21 : Keeps (foot [.reg GLB_DETERMINISM, .reg (ENG_STATUS 0x600), .reg (ENG_STATUS 0x1B00), .flt, .recTick, .bar, .faults, .cou, .bru, .free, .srcs]) s a21 := by
    unfold a21
    repeat' first
      | with_reducible assumption
      | with_reducible apply Keeps.refl
      | with_reducible apply Keeps.ite
      | (apply Keeps.step; with_reducible apply State.setFld_keeps)
      | (apply Keeps.step; with_reducible apply State.setSrc_keeps)
      | (apply Keeps.step; with_reducible apply State.inc_keeps)
      | (apply Keeps.step; with_reducible apply State.record_keeps)
      | (apply Keeps.step; with_reducible apply State.actRaise_keeps)
      | (apply Keeps.step; with_reducible apply State.cause_keeps)
      | (apply Keeps.step; with_reducible apply State.safeSoon_keeps)
      | (apply Keeps.step; with_reducible apply State.trigger_keeps)
      | (apply Keeps.step; with_reducible apply State.note_keeps)
      | (apply Keeps.step; with_reducible apply State.noticeRaise_keeps)
      | (with_reducible apply Keeps.forEach; intro _ _ _)
      | (with_reducible apply Keeps.foldl_fst; intro _ _ _)
      | (with_reducible apply Keeps.foldl_snd; intro _ _ _)
      | (with_reducible apply Keeps.foldl; intro _ _ _)
      | decide +kernel
      | exact sub_flt _ (by decide +kernel)
      | exact sub_eng _ (by decide +kernel)
      | exact sub_hk _ (by decide +kernel)
      | exact sub_port _ _ (by decide +kernel)
      | exact sub_win _ (by decide +kernel)
      | exact sub_any _ (by decide +kernel)
      | split
  try clear_value a21
  repeat' first
    | with_reducible assumption
    | with_reducible apply Keeps.refl
    | with_reducible apply Keeps.ite
    | (apply Keeps.step; with_reducible apply State.setFld_keeps)
    | (apply Keeps.step; with_reducible apply State.setSrc_keeps)
    | (apply Keeps.step; with_reducible apply State.inc_keeps)
    | (apply Keeps.step; with_reducible apply State.record_keeps)
    | (apply Keeps.step; with_reducible apply State.actRaise_keeps)
    | (apply Keeps.step; with_reducible apply State.cause_keeps)
    | (apply Keeps.step; with_reducible apply State.safeSoon_keeps)
    | (apply Keeps.step; with_reducible apply State.trigger_keeps)
    | (apply Keeps.step; with_reducible apply State.note_keeps)
    | (apply Keeps.step; with_reducible apply State.noticeRaise_keeps)
    | (with_reducible apply Keeps.forEach; intro _ _ _)
    | (with_reducible apply Keeps.foldl_fst; intro _ _ _)
    | (with_reducible apply Keeps.foldl_snd; intro _ _ _)
    | (with_reducible apply Keeps.foldl; intro _ _ _)
    | decide +kernel
    | exact sub_flt _ (by decide +kernel)
    | exact sub_eng _ (by decide +kernel)
    | exact sub_hk _ (by decide +kernel)
    | exact sub_port _ _ (by decide +kernel)
    | exact sub_win _ (by decide +kernel)
    | exact sub_any _ (by decide +kernel)
    | split

theorem State.queueRaise_keeps (s : State) (b : Blk) (i : Nat) (r : RaiseInfo) :
    Keeps (foot [.reg LNK_DEADLETTER_COUNT, .win .lnk, .lnk]) s (State.queueRaise s b i r).1 := by
  unfold State.queueRaise
  extract_lets a1 a2
  try clear_value a1
  try clear_value a2
  repeat' first
    | with_reducible assumption
    | with_reducible apply Keeps.refl
    | split
    | with_reducible apply Keeps.ite
    | (apply Keeps.step; with_reducible apply State.pushStatus_keeps)
    | (with_reducible apply Keeps.forEach; intro _ _ _)
    | (with_reducible apply Keeps.foldl_fst; intro _ _ _)
    | (with_reducible apply Keeps.foldl_snd; intro _ _ _)
    | (with_reducible apply Keeps.foldl; intro _ _ _)
    | decide +kernel
    | exact sub_flt _ (by decide +kernel)
    | exact sub_eng _ (by decide +kernel)
    | exact sub_hk _ (by decide +kernel)
    | exact sub_port _ _ (by decide +kernel)
    | exact sub_win _ (by decide +kernel)
    | exact sub_any _ (by decide +kernel)

theorem State.raiseWith_keeps (s : State) (b : Blk) (i : Nat) (r : RaiseInfo) :
    Keeps (foot [.reg GLB_DETERMINISM, .reg LNK_DEADLETTER_COUNT, .reg (ENG_STATUS 0x600), .reg (ENG_STATUS 0x1B00), .flt, .win .lnk, .recTick, .bar, .faults, .cou, .bru, .lnk, .free, .srcs]) s (State.raiseWith s b i r) := by
  unfold State.raiseWith
  extract_lets a1 a2 a3
  try clear_value a1
  have ha2 : Keeps (foot [.reg GLB_DETERMINISM, .reg LNK_DEADLETTER_COUNT, .reg (ENG_STATUS 0x600), .reg (ENG_STATUS 0x1B00), .flt, .win .lnk, .recTick, .bar, .faults, .cou, .bru, .lnk, .free, .srcs]) s a2 := by
    unfold a2
    repeat' first
      | with_reducible assumption
      | with_reducible apply Keeps.refl
      | with_reducible apply Keeps.ite
      | (apply Keeps.step; with_reducible apply State.raiseCore_keeps)
      | (apply Keeps.step; with_reducible apply State.queueRaise_keeps)
      | (with_reducible apply Keeps.forEach; intro _ _ _)
      | (with_reducible apply Keeps.foldl_fst; intro _ _ _)
      | (with_reducible apply Keeps.foldl_snd; intro _ _ _)
      | (with_reducible apply Keeps.foldl; intro _ _ _)
      | decide +kernel
      | exact sub_flt _ (by decide +kernel)
      | exact sub_eng _ (by decide +kernel)
      | exact sub_hk _ (by decide +kernel)
      | exact sub_port _ _ (by decide +kernel)
      | exact sub_win _ (by decide +kernel)
      | exact sub_any _ (by decide +kernel)
      | split
  try clear_value a2
  have ha3 : Keeps (foot [.reg GLB_DETERMINISM, .reg LNK_DEADLETTER_COUNT, .reg (ENG_STATUS 0x600), .reg (ENG_STATUS 0x1B00), .flt, .win .lnk, .recTick, .bar, .faults, .cou, .bru, .lnk, .free, .srcs]) s a3.1 := by
    unfold a3
    repeat' first
      | with_reducible assumption
      | with_reducible apply Keeps.refl
      | with_reducible apply Keeps.ite
      | (apply Keeps.step; with_reducible apply State.raiseCore_keeps)
      | (apply Keeps.step; with_reducible apply State.queueRaise_keeps)
      | (with_reducible apply Keeps.forEach; intro _ _ _)
      | (with_reducible apply Keeps.foldl_fst; intro _ _ _)
      | (with_reducible apply Keeps.foldl_snd; intro _ _ _)
      | (with_reducible apply Keeps.foldl; intro _ _ _)
      | decide +kernel
      | exact sub_flt _ (by decide +kernel)
      | exact sub_eng _ (by decide +kernel)
      | exact sub_hk _ (by decide +kernel)
      | exact sub_port _ _ (by decide +kernel)
      | exact sub_win _ (by decide +kernel)
      | exact sub_any _ (by decide +kernel)
      | split
  try clear_value a3
  repeat' first
    | with_reducible assumption
    | with_reducible apply Keeps.refl
    | with_reducible apply Keeps.ite
    | (apply Keeps.step; with_reducible apply State.raiseCore_keeps)
    | (apply Keeps.step; with_reducible apply State.queueRaise_keeps)
    | (with_reducible apply Keeps.forEach; intro _ _ _)
    | (with_reducible apply Keeps.foldl_fst; intro _ _ _)
    | (with_reducible apply Keeps.foldl_snd; intro _ _ _)
    | (with_reducible apply Keeps.foldl; intro _ _ _)
    | decide +kernel
    | exact sub_flt _ (by decide +kernel)
    | exact sub_eng _ (by decide +kernel)
    | exact sub_hk _ (by decide +kernel)
    | exact sub_port _ _ (by decide +kernel)
    | exact sub_win _ (by decide +kernel)
    | exact sub_any _ (by decide +kernel)
    | split

theorem State.raiseUnit_keeps (s : State) (b : Blk) (i : Nat) (u : Nat) :
    Keeps (foot [.reg GLB_DETERMINISM, .reg LNK_DEADLETTER_COUNT, .reg (ENG_STATUS 0x600), .reg (ENG_STATUS 0x1B00), .flt, .win .lnk, .recTick, .bar, .faults, .cou, .bru, .lnk, .free, .srcs]) s (State.raiseUnit s b i u) := by
  unfold State.raiseUnit
  repeat' first
    | with_reducible assumption
    | with_reducible apply Keeps.refl
    | with_reducible apply Keeps.ite
    | (apply Keeps.step; with_reducible apply State.raiseWith_keeps)
    | (with_reducible apply Keeps.forEach; intro _ _ _)
    | (with_reducible apply Keeps.foldl_fst; intro _ _ _)
    | (with_reducible apply Keeps.foldl_snd; intro _ _ _)
    | (with_reducible apply Keeps.foldl; intro _ _ _)
    | decide +kernel
    | exact sub_flt _ (by decide +kernel)
    | exact sub_eng _ (by decide +kernel)
    | exact sub_hk _ (by decide +kernel)
    | exact sub_port _ _ (by decide +kernel)
    | exact sub_win _ (by decide +kernel)
    | exact sub_any _ (by decide +kernel)
    | split

theorem State.raise_keeps (s : State) (b : Blk) (i : Nat) :
    Keeps (foot [.reg GLB_DETERMINISM, .reg LNK_DEADLETTER_COUNT, .reg (ENG_STATUS 0x600), .reg (ENG_STATUS 0x1B00), .flt, .win .lnk, .recTick, .bar, .faults, .cou, .bru, .lnk, .free, .srcs]) s (State.raise s b i) := by
  unfold State.raise
  repeat' first
    | with_reducible assumption
    | with_reducible apply Keeps.refl
    | with_reducible apply Keeps.ite
    | (apply Keeps.step; with_reducible apply State.raiseWith_keeps)
    | (with_reducible apply Keeps.forEach; intro _ _ _)
    | (with_reducible apply Keeps.foldl_fst; intro _ _ _)
    | (with_reducible apply Keeps.foldl_snd; intro _ _ _)
    | (with_reducible apply Keeps.foldl; intro _ _ _)
    | decide +kernel
    | exact sub_flt _ (by decide +kernel)
    | exact sub_eng _ (by decide +kernel)
    | exact sub_hk _ (by decide +kernel)
    | exact sub_port _ _ (by decide +kernel)
    | exact sub_win _ (by decide +kernel)
    | exact sub_any _ (by decide +kernel)
    | split

theorem State.ackOne_keeps (s : State) (b : Blk) (i : Nat) :
    Keeps (foot [.flt, .srcs]) s (State.ackOne s b i) := by
  unfold State.ackOne
  extract_lets a1 a2 a3 a4 a5 a6 a7
  try clear_value a1
  try clear_value a3
  try clear_value a4
  have ha5 : Keeps (foot [.flt, .srcs]) s a5 := by
    unfold a5
    repeat' first
      | with_reducible assumption
      | with_reducible apply Keeps.refl
      | with_reducible apply Keeps.ite
      | (apply Keeps.step; with_reducible apply State.setSrc_keeps)
      | (apply Keeps.step; with_reducible apply State.setFld_keeps)
      | (with_reducible apply Keeps.forEach; intro _ _ _)
      | (with_reducible apply Keeps.foldl_fst; intro _ _ _)
      | (with_reducible apply Keeps.foldl_snd; intro _ _ _)
      | (with_reducible apply Keeps.foldl; intro _ _ _)
      | decide +kernel
      | exact sub_flt _ (by decide +kernel)
      | exact sub_eng _ (by decide +kernel)
      | exact sub_hk _ (by decide +kernel)
      | exact sub_port _ _ (by decide +kernel)
      | exact sub_win _ (by decide +kernel)
      | exact sub_any _ (by decide +kernel)
      | split
  try clear_value a5
  have ha6 : Keeps (foot [.flt, .srcs]) s a6 := by
    unfold a6
    repeat' first
      | with_reducible assumption
      | with_reducible apply Keeps.refl
      | with_reducible apply Keeps.ite
      | (apply Keeps.step; with_reducible apply State.setSrc_keeps)
      | (apply Keeps.step; with_reducible apply State.setFld_keeps)
      | (with_reducible apply Keeps.forEach; intro _ _ _)
      | (with_reducible apply Keeps.foldl_fst; intro _ _ _)
      | (with_reducible apply Keeps.foldl_snd; intro _ _ _)
      | (with_reducible apply Keeps.foldl; intro _ _ _)
      | decide +kernel
      | exact sub_flt _ (by decide +kernel)
      | exact sub_eng _ (by decide +kernel)
      | exact sub_hk _ (by decide +kernel)
      | exact sub_port _ _ (by decide +kernel)
      | exact sub_win _ (by decide +kernel)
      | exact sub_any _ (by decide +kernel)
      | split
  try clear_value a6
  try clear_value a7
  repeat' first
    | with_reducible assumption
    | with_reducible apply Keeps.refl
    | with_reducible apply Keeps.ite
    | (apply Keeps.step; with_reducible apply State.setSrc_keeps)
    | (apply Keeps.step; with_reducible apply State.setFld_keeps)
    | (with_reducible apply Keeps.forEach; intro _ _ _)
    | (with_reducible apply Keeps.foldl_fst; intro _ _ _)
    | (with_reducible apply Keeps.foldl_snd; intro _ _ _)
    | (with_reducible apply Keeps.foldl; intro _ _ _)
    | decide +kernel
    | exact sub_flt _ (by decide +kernel)
    | exact sub_eng _ (by decide +kernel)
    | exact sub_hk _ (by decide +kernel)
    | exact sub_port _ _ (by decide +kernel)
    | exact sub_win _ (by decide +kernel)
    | exact sub_any _ (by decide +kernel)
    | split

theorem State.ackFirst_keeps (s : State) (b : Blk) :
    Keeps (foot [.flt]) s (State.ackFirst s b) := by
  unfold State.ackFirst
  extract_lets a1
  repeat' first
    | with_reducible assumption
    | with_reducible apply Keeps.refl
    | with_reducible apply Keeps.ite
    | (apply Keeps.step; with_reducible apply State.setFld_keeps)
    | (apply Keeps.step; with_reducible apply State.setBit_keeps)
    | (with_reducible apply Keeps.forEach; intro _ _ _)
    | (with_reducible apply Keeps.foldl_fst; intro _ _ _)
    | (with_reducible apply Keeps.foldl_snd; intro _ _ _)
    | (with_reducible apply Keeps.foldl; intro _ _ _)
    | decide +kernel
    | exact sub_flt _ (by decide +kernel)
    | exact sub_eng _ (by decide +kernel)
    | exact sub_hk _ (by decide +kernel)
    | exact sub_port _ _ (by decide +kernel)
    | exact sub_win _ (by decide +kernel)
    | exact sub_any _ (by decide +kernel)
    | split

theorem State.standing_keeps (s : State) (b : Blk) (i : Nat) (on : Bool) :
    Keeps (foot [.srcs]) s (State.standing s b i on) := by
  unfold State.standing
  extract_lets a1
  try clear_value a1
  repeat' first
    | with_reducible assumption
    | with_reducible apply Keeps.refl
    | with_reducible apply Keeps.ite
    | (apply Keeps.step; with_reducible apply State.setSrc_keeps)
    | (with_reducible apply Keeps.forEach; intro _ _ _)
    | (with_reducible apply Keeps.foldl_fst; intro _ _ _)
    | (with_reducible apply Keeps.foldl_snd; intro _ _ _)
    | (with_reducible apply Keeps.foldl; intro _ _ _)
    | decide +kernel
    | exact sub_flt _ (by decide +kernel)
    | exact sub_eng _ (by decide +kernel)
    | exact sub_hk _ (by decide +kernel)
    | exact sub_port _ _ (by decide +kernel)
    | exact sub_win _ (by decide +kernel)
    | exact sub_any _ (by decide +kernel)
    | split

theorem State.clearMirror_keeps (s : State) (b : Blk) (mask : Nat) :
    Keeps (foot [.faults]) s (State.clearMirror s b mask) := by
  unfold State.clearMirror
  extract_lets a1 a2 a3
  try clear_value a1
  try clear_value a2
  try clear_value a3
  repeat' first
    | with_reducible assumption
    | with_reducible apply Keeps.refl
    | with_reducible apply Keeps.ite
    | (with_reducible apply Keeps.forEach; intro _ _ _)
    | (with_reducible apply Keeps.foldl_fst; intro _ _ _)
    | (with_reducible apply Keeps.foldl_snd; intro _ _ _)
    | (with_reducible apply Keeps.foldl; intro _ _ _)
    | split
    | refine Keeps.upd ?_

theorem State.showReason_keeps (s : State) :
    Keeps (foot [.reg GLB_DETERMINISM]) s (State.showReason s) := by
  unfold State.showReason
  repeat' first
    | with_reducible assumption
    | with_reducible apply Keeps.refl
    | with_reducible apply Keeps.ite
    | (apply Keeps.step; with_reducible apply State.setFld_keeps)
    | (with_reducible apply Keeps.forEach; intro _ _ _)
    | (with_reducible apply Keeps.foldl_fst; intro _ _ _)
    | (with_reducible apply Keeps.foldl_snd; intro _ _ _)
    | (with_reducible apply Keeps.foldl; intro _ _ _)
    | decide +kernel
    | exact sub_flt _ (by decide +kernel)
    | exact sub_eng _ (by decide +kernel)
    | exact sub_hk _ (by decide +kernel)
    | exact sub_port _ _ (by decide +kernel)
    | exact sub_win _ (by decide +kernel)
    | exact sub_any _ (by decide +kernel)
    | split

theorem State.live_keeps (s : State) (code : Nat) :
    Keeps (foot [.reg GLB_DETERMINISM]) s (State.live s code) := by
  unfold State.live
  repeat' first
    | with_reducible assumption
    | with_reducible apply Keeps.refl
    | with_reducible apply Keeps.ite
    | (apply Keeps.step; with_reducible apply State.showReason_keeps)
    | (apply Keeps.step; with_reducible apply State.setFld_keeps)
    | (with_reducible apply Keeps.forEach; intro _ _ _)
    | (with_reducible apply Keeps.foldl_fst; intro _ _ _)
    | (with_reducible apply Keeps.foldl_snd; intro _ _ _)
    | (with_reducible apply Keeps.foldl; intro _ _ _)
    | decide +kernel
    | exact sub_flt _ (by decide +kernel)
    | exact sub_eng _ (by decide +kernel)
    | exact sub_hk _ (by decide +kernel)
    | exact sub_port _ _ (by decide +kernel)
    | exact sub_win _ (by decide +kernel)
    | exact sub_any _ (by decide +kernel)
    | split

theorem State.ackMask_keeps (s : State) (b : Blk) (mask : Nat) :
    Keeps (foot [.flt, .bar, .srcs]) s (State.ackMask s b mask) := by
  unfold State.ackMask
  extract_lets a1 a2
  try clear_value a1
  have ha2 : Keeps (foot [.flt, .bar, .srcs]) s a2 := by
    unfold a2
    repeat' first
      | with_reducible assumption
      | with_reducible apply Keeps.refl
      | with_reducible apply Keeps.ite
      | (apply Keeps.step; with_reducible apply State.ackOne_keeps)
      | (apply Keeps.step; with_reducible apply State.sendStatus_keeps)
      | (with_reducible apply Keeps.forEach; intro _ _ _)
      | (with_reducible apply Keeps.foldl_fst; intro _ _ _)
      | (with_reducible apply Keeps.foldl_snd; intro _ _ _)
      | (with_reducible apply Keeps.foldl; intro _ _ _)
      | decide +kernel
      | exact sub_flt _ (by decide +kernel)
      | exact sub_eng _ (by decide +kernel)
      | exact sub_hk _ (by decide +kernel)
      | exact sub_port _ _ (by decide +kernel)
      | exact sub_win _ (by decide +kernel)
      | exact sub_any _ (by decide +kernel)
      | split
  try clear_value a2
  repeat' first
    | with_reducible assumption
    | with_reducible apply Keeps.refl
    | with_reducible apply Keeps.ite
    | (apply Keeps.step; with_reducible apply State.ackOne_keeps)
    | (apply Keeps.step; with_reducible apply State.sendStatus_keeps)
    | (with_reducible apply Keeps.forEach; intro _ _ _)
    | (with_reducible apply Keeps.foldl_fst; intro _ _ _)
    | (with_reducible apply Keeps.foldl_snd; intro _ _ _)
    | (with_reducible apply Keeps.foldl; intro _ _ _)
    | decide +kernel
    | exact sub_flt _ (by decide +kernel)
    | exact sub_eng _ (by decide +kernel)
    | exact sub_hk _ (by decide +kernel)
    | exact sub_port _ _ (by decide +kernel)
    | exact sub_win _ (by decide +kernel)
    | exact sub_any _ (by decide +kernel)
    | split

end Sys2Proof.Machine
end

