-- ==== Sys2Proof/Laws/KeepsPal.lean ====
section
/-!
SUPPORT. Footprints of the operations of Machine/Pal.lean: which parts of a state each can change.
-/
set_option Elab.async false
set_option linter.unusedTactic false
set_option linter.unreachableTactic false
namespace Sys2Proof.Machine

theorem State.palBankWrite_keeps (s : State) (a : Nat) (v : W24) :
    Keeps (foot [.reg PAL_STATUS, .win .pal]) s (State.palBankWrite s a v) := by
  unfold State.palBankWrite
  extract_lets a1
  try clear_value a1
  repeat' first
    | with_reducible assumption
    | with_reducible apply Keeps.refl
    | with_reducible apply Keeps.ite
    | (apply Keeps.step; with_reducible apply State.setBit_keeps)
    | (apply Keeps.step; with_reducible apply State.setWinN_keeps)
    | (with_reducible apply Keeps.forEach; intro _ _ _)
    | (with_reducible apply Keeps.foldl_fst; intro _ _ _)
    | (with_reducible apply Keeps.foldl_snd; intro _ _ _)
    | (with_reducible apply Keeps.foldl; intro _ _ _)
    | decide +kernel
    | exact sub_flt _ (by decide +kernel)
    | exact sub_eng _ (by decide +kernel)
    | exact sub_hk _ (by decide +kernel)
    | exact sub_port _ _ (by decide +kernel)
    | exact sub_win _ (by decide +kernel)
    | exact sub_any _ (by decide +kernel)
    | split

theorem State.palCopy_keeps (s : State) :
    Keeps (foot [.reg PAL_STATUS, .timers, .pal]) s (State.palCopy s) := by
  unfold State.palCopy
  extract_lets a1 a2
  have ha1 : Keeps (foot [.reg PAL_STATUS, .timers, .pal]) s a1 := by
    unfold a1
    repeat' first
      | with_reducible assumption
      | with_reducible apply Keeps.refl
      | with_reducible apply Keeps.ite
      | (apply Keeps.step; with_reducible apply State.setBit_keeps)
      | (apply Keeps.step; with_reducible apply State.after_keeps)
      | (with_reducible apply Keeps.forEach; intro _ _ _)
      | (with_reducible apply Keeps.foldl_fst; intro _ _ _)
      | (with_reducible apply Keeps.foldl_snd; intro _ _ _)
      | (with_reducible apply Keeps.foldl; intro _ _ _)
      | decide +kernel
      | exact sub_flt _ (by decide +kernel)
      | exact sub_eng _ (by decide +kernel)
      | exact sub_hk _ (by decide +kernel)
      | exact sub_port _ _ (by decide +kernel)
      | exact sub_win _ (by decide +kernel)
      | exact sub_any _ (by decide +kernel)
      | split
      | refine Keeps.upd ?_
  try clear_value a1
  try clear_value a2
  repeat' first
    | with_reducible assumption
    | with_reducible apply Keeps.refl
    | with_reducible apply Keeps.ite
    | (apply Keeps.step; with_reducible apply State.setBit_keeps)
    | (apply Keeps.step; with_reducible apply State.after_keeps)
    | (with_reducible apply Keeps.forEach; intro _ _ _)
    | (with_reducible apply Keeps.foldl_fst; intro _ _ _)
    | (with_reducible apply Keeps.foldl_snd; intro _ _ _)
    | (with_reducible apply Keeps.foldl; intro _ _ _)
    | decide +kernel
    | exact sub_flt _ (by decide +kernel)
    | exact sub_eng _ (by decide +kernel)
    | exact sub_hk _ (by decide +kernel)
    | exact sub_port _ _ (by decide +kernel)
    | exact sub_win _ (by decide +kernel)
    | exact sub_any _ (by decide +kernel)
    | split
    | refine Keeps.upd ?_

theorem State.rollRows_keeps (s : State) :
    Keeps (foot [.pal]) s (State.rollRows s) := by
  unfold State.rollRows
  extract_lets a1
  try clear_value a1
  repeat' first
    | with_reducible assumption
    | with_reducible apply Keeps.refl
    | with_reducible apply Keeps.ite
    | (with_reducible apply Keeps.forEach; intro _ _ _)
    | (with_reducible apply Keeps.foldl_fst; intro _ _ _)
    | (with_reducible apply Keeps.foldl_snd; intro _ _ _)
    | (with_reducible apply Keeps.foldl; intro _ _ _)
    | split
    | refine Keeps.upd ?_

theorem State.param_keeps (s : State) (launched : Bool) (changed : Bool) :
    Keeps (foot [.reg GLB_DETERMINISM, .faults]) s (State.param s launched changed) := by
  unfold State.param
  repeat' first
    | with_reducible assumption
    | with_reducible apply Keeps.refl
    | with_reducible apply Keeps.ite
    | (apply Keeps.step; with_reducible apply State.sticky_keeps)
    | (with_reducible apply Keeps.forEach; intro _ _ _)
    | (with_reducible apply Keeps.foldl_fst; intro _ _ _)
    | (with_reducible apply Keeps.foldl_snd; intro _ _ _)
    | (with_reducible apply Keeps.foldl; intro _ _ _)
    | decide +kernel
    | exact sub_flt _ (by decide +kernel)
    | exact sub_eng _ (by decide +kernel)
    | exact sub_hk _ (by decide +kernel)
    | exact sub_port _ _ (by decide +kernel)
    | exact sub_win _ (by decide +kernel)
    | exact sub_any _ (by decide +kernel)
    | split

theorem State.setDrv_keeps (s : State) (d : Nat) (x : Drv) :
    Keeps (foot [.pal]) s (State.setDrv s d x) := by
  unfold State.setDrv
  extract_lets a1
  try clear_value a1
  repeat' first
    | with_reducible assumption
    | with_reducible apply Keeps.refl
    | with_reducible apply Keeps.ite
    | (with_reducible apply Keeps.forEach; intro _ _ _)
    | (with_reducible apply Keeps.foldl_fst; intro _ _ _)
    | (with_reducible apply Keeps.foldl_snd; intro _ _ _)
    | (with_reducible apply Keeps.foldl; intro _ _ _)
    | split
    | refine Keeps.upd ?_

theorem State.clearOvl_keeps (s : State) (d : Nat) (launched : Bool) :
    Keeps (foot [.reg GLB_DETERMINISM, .faults, .pal, .srcs]) s (State.clearOvl s d launched) := by
  unfold State.clearOvl
  extract_lets a1 a2
  try clear_value a1
  have ha2 : Keeps (foot [.reg GLB_DETERMINISM, .faults, .pal, .srcs]) s a2 := by
    unfold a2
    repeat' first
      | with_reducible assumption
      | with_reducible apply Keeps.refl
      | with_reducible apply Keeps.ite
      | (apply Keeps.step; with_reducible apply State.param_keeps)
      | (apply Keeps.step; with_reducible apply State.setDrv_keeps)
      | (apply Keeps.step; with_reducible apply State.standing_keeps)
      | (with_reducible apply Keeps.forEach; intro _ _ _)
      | (with_reducible apply Keeps.foldl_fst; intro _ _ _)
      | (with_reducible apply Keeps.foldl_snd; intro _ _ _)
      | (with_reducible apply Keeps.foldl; intro _ _ _)
      | decide +kernel
      | exact sub_flt _ (by decide +kernel)
      | exact sub_eng _ (by decide +kernel)
      | exact sub_hk _ (by decide +kernel)
      | exact sub_port _ _ (by decide +kernel)
      | exact sub_win _ (by decide +kernel)
      | exact sub_any _ (by decide +kernel)
      | split
  try clear_value a2
  repeat' first
    | with_reducible assumption
    | with_reducible apply Keeps.refl
    | with_reducible apply Keeps.ite
    | (apply Keeps.step; with_reducible apply State.param_keeps)
    | (apply Keeps.step; with_reducible apply State.setDrv_keeps)
    | (apply Keeps.step; with_reducible apply State.standing_keeps)
    | (with_reducible apply Keeps.forEach; intro _ _ _)
    | (with_reducible apply Keeps.foldl_fst; intro _ _ _)
    | (with_reducible apply Keeps.foldl_snd; intro _ _ _)
    | (with_reducible apply Keeps.foldl; intro _ _ _)
    | decide +kernel
    | exact sub_flt _ (by decide +kernel)
    | exact sub_eng _ (by decide +kernel)
    | exact sub_hk _ (by decide +kernel)
    | exact sub_port _ _ (by decide +kernel)
    | exact sub_win _ (by decide +kernel)
    | exact sub_any _ (by decide +kernel)
    | split

theorem State.slew_keeps (s : State) (sheet : Bool) :
    Keeps (foot [.pal]) s (State.slew s sheet) := by
  unfold State.slew
  extract_lets a1 a2 a3 a4 a5 a6 a7
  try clear_value a1
  try clear_value a2
  try clear_value a3
  try clear_value a4
  have ha5 : Keeps (foot [.pal]) s a5 := by
    unfold a5
    repeat' first
      | with_reducible assumption
      | with_reducible apply Keeps.refl
      | with_reducible apply Keeps.ite
      | (apply Keeps.step; with_reducible apply State.setDrv_keeps)
      | (with_reducible apply Keeps.forEach; intro _ _ _)
      | (with_reducible apply Keeps.foldl_fst; intro _ _ _)
      | (with_reducible apply Keeps.foldl_snd; intro _ _ _)
      | (with_reducible apply Keeps.foldl; intro _ _ _)
      | decide +kernel
      | exact sub_flt _ (by decide +kernel)
      | exact sub_eng _ (by decide +kernel)
      | exact sub_hk _ (by decide +kernel)
      | exact sub_port _ _ (by decide +kernel)
      | exact sub_win _ (by decide +kernel)
      | exact sub_any _ (by decide +kernel)
      | split
      | refine Keeps.upd ?_
  try clear_value a5
  try clear_value a6
  try clear_value a7
  repeat' first
    | with_reducible assumption
    | with_reducible apply Keeps.refl
    | with_reducible apply Keeps.ite
    | (apply Keeps.step; with_reducible apply State.setDrv_keeps)
    | (with_reducible apply Keeps.forEach; intro _ _ _)
    | (with_reducible apply Keeps.foldl_fst; intro _ _ _)
    | (with_reducible apply Keeps.foldl_snd; intro _ _ _)
    | (with_reducible apply Keeps.foldl; intro _ _ _)
    | decide +kernel
    | exact sub_flt _ (by decide +kernel)
    | exact sub_eng _ (by decide +kernel)
    | exact sub_hk _ (by decide +kernel)
    | exact sub_port _ _ (by decide +kernel)
    | exact sub_win _ (by decide +kernel)
    | exact sub_any _ (by decide +kernel)
    | split
    | refine Keeps.upd ?_

theorem State.palCopyRest_keeps (s : State) :
    Keeps (foot [.win .pal, .pal]) s (State.palCopyRest s) := by
  unfold State.palCopyRest
  repeat' first
    | with_reducible assumption
    | with_reducible apply Keeps.refl
    | with_reducible apply Keeps.ite
    | (apply Keeps.step; with_reducible apply State.setWin_keeps)
    | (with_reducible apply Keeps.forEach; intro _ _ _)
    | (with_reducible apply Keeps.foldl_fst; intro _ _ _)
    | (with_reducible apply Keeps.foldl_snd; intro _ _ _)
    | (with_reducible apply Keeps.foldl; intro _ _ _)
    | decide +kernel
    | exact sub_flt _ (by decide +kernel)
    | exact sub_eng _ (by decide +kernel)
    | exact sub_hk _ (by decide +kernel)
    | exact sub_port _ _ (by decide +kernel)
    | exact sub_win _ (by decide +kernel)
    | exact sub_any _ (by decide +kernel)
    | split
    | refine Keeps.upd ?_

theorem State.rowMapWrite_keeps (s : State) (r : Nat) (word : W24) (m : Master) :
    Keeps (foot [.reg GLB_DETERMINISM, .reg LNK_DEADLETTER_COUNT, .reg (ENG_STATUS 0x600), .reg ROW_MAP_STATUS, .reg ROW_SPARE_CTRL, .reg (ENG_STATUS 0x1B00), .flt, .win .lnk, .win .pal, .recTick, .bar, .faults, .cou, .bru, .pal, .lnk, .free, .srcs]) s (State.rowMapWrite s r word m) := by
  unfold State.rowMapWrite
  extract_lets a1 a2 a3 a4 a5 a6 a7 a8 a9 a10
  try clear_value a1
  try clear_value a2
  try clear_value a3
  try clear_value a4
  try clear_value a5
  try clear_value a6
  try clear_value a7
  try clear_value a8
  have ha9 : Keeps (foot [.reg GLB_DETERMINISM, .reg LNK_DEADLETTER_COUNT, .reg (ENG_STATUS 0x600), .reg ROW_MAP_STATUS, .reg ROW_SPARE_CTRL, .reg (ENG_STATUS 0x1B00), .flt, .win .lnk, .win .pal, .recTick, .bar, .faults, .cou, .bru, .pal, .lnk, .free, .srcs]) s a9 := by
    unfold a9
    repeat' first
      | with_reducible assumption
      | with_reducible apply Keeps.refl
      | with_reducible apply Keeps.ite
      | (apply Keeps.step; with_reducible apply State.raiseWith_keeps)
      | (apply Keeps.step; with_reducible apply State.setFld_keeps)
      | (apply Keeps.step; with_reducible apply State.setBit_keeps)
      | (apply Keeps.step; with_reducible apply State.setDrv_keeps)
      | (apply Keeps.step; with_reducible apply State.setWinN_keeps)
      | (apply Keeps.step; with_reducible apply State.inc_keeps)
      | (with_reducible apply Keeps.forEach; intro _ _ _)
      | (with_reducible apply Keeps.foldl_fst; intro _ _ _)
      | (with_reducible apply Keeps.foldl_snd; intro _ _ _)
      | (with_reducible apply Keeps.foldl; intro _ _ _)
      | decide +kernel
      | (dsimp only [ROW_SPARE_CTRL_PREP_EN]; decide +kernel)
      | exact sub_flt _ (by decide +kernel)
      | exact sub_eng _ (by decide +kernel)
      | exact sub_hk _ (by decide +kernel)
      | exact sub_port _ _ (by decide +kernel)
      | exact sub_win _ (by decide +kernel)
      | exact sub_any _ (by decide +kernel)
      | split
  try clear_value a9
  have ha10 : Keeps (foot [.reg GLB_DETERMINISM, .reg LNK_DEADLETTER_COUNT, .reg (ENG_STATUS 0x600), .reg ROW_MAP_STATUS, .reg ROW_SPARE_CTRL, .reg (ENG_STATUS 0x1B00), .flt, .win .lnk, .win .pal, .recTick, .bar, .faults, .cou, .bru, .pal, .lnk, .free, .srcs]) s a10 := by
    unfold a10
    repeat' first
      | with_reducible assumption
      | with_reducible apply Keeps.refl
      | with_reducible apply Keeps.ite
      | (apply Keeps.step; with_reducible apply State.raiseWith_keeps)
      | (apply Keeps.step; with_reducible apply State.setFld_keeps)
      | (apply Keeps.step; with_reducible apply State.setBit_keeps)
      | (apply Keeps.step; with_reducible apply State.setDrv_keeps)
      | (apply Keeps.step; with_reducible apply State.setWinN_keeps)
      | (apply Keeps.step; with_reducible apply State.inc_keeps)
      | (with_reducible apply Keeps.forEach; intro _ _ _)
      | (with_reducible apply Keeps.foldl_fst; intro _ _ _)
      | (with_reducible apply Keeps.foldl_snd; intro _ _ _)
      | (with_reducible apply Keeps.foldl; intro _ _ _)
      | decide +kernel
      | (dsimp only [ROW_SPARE_CTRL_PREP_EN]; decide +kernel)
      | exact sub_flt _ (by decide +kernel)
      | exact sub_eng _ (by decide +kernel)
      | exact sub_hk _ (by decide +kernel)
      | exact sub_port _ _ (by decide +kernel)
      | exact sub_win _ (by decide +kernel)
      | exact sub_any _ (by decide +kernel)
      | split
  try clear_value a10
  repeat' first
    | with_reducible assumption
    | with_reducible apply Keeps.refl
    | with_reducible apply Keeps.ite
    | (apply Keeps.step; with_reducible apply State.raiseWith_keeps)
    | (apply Keeps.step; with_reducible apply State.setFld_keeps)
    | (apply Keeps.step; with_reducible apply State.setBit_keeps)
    | (apply Keeps.step; with_reducible apply State.setDrv_keeps)
    | (apply Keeps.step; with_reducible apply State.setWinN_keeps)
    | (apply Keeps.step; with_reducible apply State.inc_keeps)
    | (with_reducible apply Keeps.forEach; intro _ _ _)
    | (with_reducible apply Keeps.foldl_fst; intro _ _ _)
    | (with_reducible apply Keeps.foldl_snd; intro _ _ _)
    | (with_reducible apply Keeps.foldl; intro _ _ _)
    | decide +kernel
    | (dsimp only [ROW_SPARE_CTRL_PREP_EN]; decide +kernel)
    | exact sub_flt _ (by decide +kernel)
    | exact sub_eng _ (by decide +kernel)
    | exact sub_hk _ (by decide +kernel)
    | exact sub_port _ _ (by decide +kernel)
    | exact sub_win _ (by decide +kernel)
    | exact sub_any _ (by decide +kernel)
    | split

theorem State.overload_keeps (s : State) (d : Nat) :
    Keeps (foot [.reg GLB_DETERMINISM, .reg LNK_DEADLETTER_COUNT, .reg (ENG_STATUS 0x600), .reg EXC_OVERLOAD_STATUS, .reg (ENG_STATUS 0x1B00), .flt, .win .lnk, .recTick, .bar, .faults, .cou, .bru, .pal, .lnk, .free, .srcs]) s (State.overload s d) := by
  unfold State.overload
  extract_lets a1 a2 a3
  try clear_value a1
  have ha2 : Keeps (foot [.reg GLB_DETERMINISM, .reg LNK_DEADLETTER_COUNT, .reg (ENG_STATUS 0x600), .reg EXC_OVERLOAD_STATUS, .reg (ENG_STATUS 0x1B00), .flt, .win .lnk, .recTick, .bar, .faults, .cou, .bru, .pal, .lnk, .free, .srcs]) s a2 := by
    unfold a2
    repeat' first
      | with_reducible assumption
      | with_reducible apply Keeps.refl
      | with_reducible apply Keeps.ite
      | (apply Keeps.step; with_reducible apply State.setDrv_keeps)
      | (apply Keeps.step; with_reducible apply State.setFld_keeps)
      | (apply Keeps.step; with_reducible apply State.setBit_keeps)
      | (apply Keeps.step; with_reducible apply State.standing_keeps)
      | (apply Keeps.step; with_reducible apply State.raiseUnit_keeps)
      | (apply Keeps.step; with_reducible apply State.inc_keeps)
      | (with_reducible apply Keeps.forEach; intro _ _ _)
      | (with_reducible apply Keeps.foldl_fst; intro _ _ _)
      | (with_reducible apply Keeps.foldl_snd; intro _ _ _)
      | (with_reducible apply Keeps.foldl; intro _ _ _)
      | decide +kernel
      | exact sub_flt _ (by decide +kernel)
      | exact sub_eng _ (by decide +kernel)
      | exact sub_hk _ (by decide +kernel)
      | exact sub_port _ _ (by decide +kernel)
      | exact sub_win _ (by decide +kernel)
      | exact sub_any _ (by decide +kernel)
      | split
  try clear_value a2
  have ha3 : Keeps (foot [.reg GLB_DETERMINISM, .reg LNK_DEADLETTER_COUNT, .reg (ENG_STATUS 0x600), .reg EXC_OVERLOAD_STATUS, .reg (ENG_STATUS 0x1B00), .flt, .win .lnk, .recTick, .bar, .faults, .cou, .bru, .pal, .lnk, .free, .srcs]) s a3 := by
    unfold a3
    repeat' first
      | with_reducible assumption
      | with_reducible apply Keeps.refl
      | with_reducible apply Keeps.ite
      | (apply Keeps.step; with_reducible apply State.setDrv_keeps)
      | (apply Keeps.step; with_reducible apply State.setFld_keeps)
      | (apply Keeps.step; with_reducible apply State.setBit_keeps)
      | (apply Keeps.step; with_reducible apply State.standing_keeps)
      | (apply Keeps.step; with_reducible apply State.raiseUnit_keeps)
      | (apply Keeps.step; with_reducible apply State.inc_keeps)
      | (with_reducible apply Keeps.forEach; intro _ _ _)
      | (with_reducible apply Keeps.foldl_fst; intro _ _ _)
      | (with_reducible apply Keeps.foldl_snd; intro _ _ _)
      | (with_reducible apply Keeps.foldl; intro _ _ _)
      | decide +kernel
      | exact sub_flt _ (by decide +kernel)
      | exact sub_eng _ (by decide +kernel)
      | exact sub_hk _ (by decide +kernel)
      | exact sub_port _ _ (by decide +kernel)
      | exact sub_win _ (by decide +kernel)
      | exact sub_any _ (by decide +kernel)
      | split
  try clear_value a3
  repeat' first
    | with_reducible assumption
    | with_reducible apply Keeps.refl
    | with_reducible apply Keeps.ite
    | (apply Keeps.step; with_reducible apply State.setDrv_keeps)
    | (apply Keeps.step; with_reducible apply State.setFld_keeps)
    | (apply Keeps.step; with_reducible apply State.setBit_keeps)
    | (apply Keeps.step; with_reducible apply State.standing_keeps)
    | (apply Keeps.step; with_reducible apply State.raiseUnit_keeps)
    | (apply Keeps.step; with_reducible apply State.inc_keeps)
    | (with_reducible apply Keeps.forEach; intro _ _ _)
    | (with_reducible apply Keeps.foldl_fst; intro _ _ _)
    | (with_reducible apply Keeps.foldl_snd; intro _ _ _)
    | (with_reducible apply Keeps.foldl; intro _ _ _)
    | decide +kernel
    | exact sub_flt _ (by decide +kernel)
    | exact sub_eng _ (by decide +kernel)
    | exact sub_hk _ (by decide +kernel)
    | exact sub_port _ _ (by decide +kernel)
    | exact sub_win _ (by decide +kernel)
    | exact sub_any _ (by decide +kernel)
    | split

theorem State.releaseRows_keeps (s : State) :
    Keeps (foot [.pal]) s (State.releaseRows s) := by
  unfold State.releaseRows
  extract_lets a1 a2 a3
  try clear_value a1
  have ha2 : Keeps (foot [.pal]) s a2 := by
    unfold a2
    repeat' first
      | with_reducible assumption
      | with_reducible apply Keeps.refl
      | with_reducible apply Keeps.ite
      | (apply Keeps.step; with_reducible apply State.setDrv_keeps)
      | (with_reducible apply Keeps.forEach; intro _ _ _)
      | (with_reducible apply Keeps.foldl_fst; intro _ _ _)
      | (with_reducible apply Keeps.foldl_snd; intro _ _ _)
      | (with_reducible apply Keeps.foldl; intro _ _ _)
      | decide +kernel
      | exact sub_flt _ (by decide +kernel)
      | exact sub_eng _ (by decide +kernel)
      | exact sub_hk _ (by decide +kernel)
      | exact sub_port _ _ (by decide +kernel)
      | exact sub_win _ (by decide +kernel)
      | exact sub_any _ (by decide +kernel)
      | split
      | refine Keeps.upd ?_
  try clear_value a2
  try clear_value a3
  repeat' first
    | with_reducible assumption
    | with_reducible apply Keeps.refl
    | with_reducible apply Keeps.ite
    | (apply Keeps.step; with_reducible apply State.setDrv_keeps)
    | (with_reducible apply Keeps.forEach; intro _ _ _)
    | (with_reducible apply Keeps.foldl_fst; intro _ _ _)
    | (with_reducible apply Keeps.foldl_snd; intro _ _ _)
    | (with_reducible apply Keeps.foldl; intro _ _ _)
    | decide +kernel
    | exact sub_flt _ (by decide +kernel)
    | exact sub_eng _ (by decide +kernel)
    | exact sub_hk _ (by decide +kernel)
    | exact sub_port _ _ (by decide +kernel)
    | exact sub_win _ (by decide +kernel)
    | exact sub_any _ (by decide +kernel)
    | split
    | refine Keeps.upd ?_

theorem State.bankSwap_keeps (s : State) :
    Keeps (foot [.reg PAL_STATUS]) s (State.bankSwap s) := by
  unfold State.bankSwap
  repeat' first
    | with_reducible assumption
    | with_reducible apply Keeps.refl
    | with_reducible apply Keeps.ite
    | (apply Keeps.step; with_reducible apply State.setBit_keeps)
    | (apply Keeps.step; with_reducible apply State.inc_keeps)
    | (with_reducible apply Keeps.forEach; intro _ _ _)
    | (with_reducible apply Keeps.foldl_fst; intro _ _ _)
    | (with_reducible apply Keeps.foldl_snd; intro _ _ _)
    | (with_reducible apply Keeps.foldl; intro _ _ _)
    | decide +kernel
    | exact sub_flt _ (by decide +kernel)
    | exact sub_eng _ (by decide +kernel)
    | exact sub_hk _ (by decide +kernel)
    | exact sub_port _ _ (by decide +kernel)
    | exact sub_win _ (by decide +kernel)
    | exact sub_any _ (by decide +kernel)
    | split

theorem State.palCopyTick_keeps (s : State) :
    Keeps (foot [.win .pal, .pal]) s (State.palCopyTick s) := by
  unfold State.palCopyTick
  repeat' first
    | with_reducible assumption
    | with_reducible apply Keeps.refl
    | with_reducible apply Keeps.ite
    | (apply Keeps.step; with_reducible apply State.setWin_keeps)
    | (with_reducible apply Keeps.forEach; intro _ _ _)
    | (with_reducible apply Keeps.foldl_fst; intro _ _ _)
    | (with_reducible apply Keeps.foldl_snd; intro _ _ _)
    | (with_reducible apply Keeps.foldl; intro _ _ _)
    | decide +kernel
    | exact sub_flt _ (by decide +kernel)
    | exact sub_eng _ (by decide +kernel)
    | exact sub_hk _ (by decide +kernel)
    | exact sub_port _ _ (by decide +kernel)
    | exact sub_win _ (by decide +kernel)
    | exact sub_any _ (by decide +kernel)
    | split
    | refine Keeps.upd ?_

theorem State.swapCancel_keeps (s : State) :
    Keeps (foot [.reg PAL_STATUS, .fieldQ]) s (State.swapCancel s) := by
  unfold State.swapCancel
  repeat' first
    | with_reducible assumption
    | with_reducible apply Keeps.refl
    | with_reducible apply Keeps.ite
    | (apply Keeps.step; with_reducible apply State.setBit_keeps)
    | (with_reducible apply Keeps.forEach; intro _ _ _)
    | (with_reducible apply Keeps.foldl_fst; intro _ _ _)
    | (with_reducible apply Keeps.foldl_snd; intro _ _ _)
    | (with_reducible apply Keeps.foldl; intro _ _ _)
    | decide +kernel
    | exact sub_flt _ (by decide +kernel)
    | exact sub_eng _ (by decide +kernel)
    | exact sub_hk _ (by decide +kernel)
    | exact sub_port _ _ (by decide +kernel)
    | exact sub_win _ (by decide +kernel)
    | exact sub_any _ (by decide +kernel)
    | split
    | refine Keeps.upd ?_

end Sys2Proof.Machine
end

