-- ==== Sys2Proof/Laws/KeepsCol.lean ====
section
/-!
SUPPORT. Footprints of the operations of Machine/Col.lean: which parts of a state each can change.
-/
set_option Elab.async false
set_option linter.unusedTactic false
set_option linter.unreachableTactic false
namespace Sys2Proof.Machine

theorem State.enableWrite_keeps (s : State) (v : Word) (launched : Bool) :
    Keeps (foot [.reg GLB_DETERMINISM, .reg COL_ENABLE, .faults]) s (State.enableWrite s v launched) := by
  unfold State.enableWrite
  extract_lets a1
  try clear_value a1
  repeat' first
    | with_reducible assumption
    | with_reducible apply Keeps.refl
    | with_reducible apply Keeps.ite
    | (apply Keeps.step; with_reducible apply State.param_keeps)
    | (apply Keeps.step; with_reducible apply State.setReg_keeps)
    | (with_reducible apply Keeps.forEach; intro _ _ _)
    | (with_reducible apply Keeps.foldl_fst; intro _ _ _)
    | (with_reducible apply Keeps.foldl_snd; intro _ _ _)
    | (with_reducible apply Keeps.foldl; intro _ _ _)
    | decide +kernel
    | exact sub_flt _ (by decide +kernel)
    | exact sub_eng _ (by decide +kernel)
    | exact sub_hk _ (by decide +kernel)
    | exact sub_port _ _ (by decide +kernel)
    | exact sub_win _ (by decide +kernel)
    | exact sub_any _ (by decide +kernel)
    | split

theorem State.rollCols_keeps (s : State) :
    Keeps (foot [.col]) s (State.rollCols s) := by
  unfold State.rollCols
  extract_lets a1 a2 a3 a4
  try clear_value a1
  try clear_value a2
  try clear_value a3
  try clear_value a4
  repeat' first
    | with_reducible assumption
    | with_reducible apply Keeps.refl
    | with_reducible apply Keeps.ite
    | (with_reducible apply Keeps.forEach; intro _ _ _)
    | (with_reducible apply Keeps.foldl_fst; intro _ _ _)
    | (with_reducible apply Keeps.foldl_snd; intro _ _ _)
    | (with_reducible apply Keeps.foldl; intro _ _ _)
    | split
    | refine Keeps.upd ?_

theorem State.setRover_keeps (s : State) (g : Nat) (x : Rover) :
    Keeps (foot [.col]) s (State.setRover s g x) := by
  unfold State.setRover
  extract_lets a1
  try clear_value a1
  repeat' first
    | with_reducible assumption
    | with_reducible apply Keeps.refl
    | with_reducible apply Keeps.ite
    | (with_reducible apply Keeps.forEach; intro _ _ _)
    | (with_reducible apply Keeps.foldl_fst; intro _ _ _)
    | (with_reducible apply Keeps.foldl_snd; intro _ _ _)
    | (with_reducible apply Keeps.foldl; intro _ _ _)
    | split
    | refine Keeps.upd ?_

theorem State.setColCh_keeps (s : State) (c : Nat) (x : ColCh) :
    Keeps (foot [.col]) s (State.setColCh s c x) := by
  unfold State.setColCh
  extract_lets a1
  try clear_value a1
  repeat' first
    | with_reducible assumption
    | with_reducible apply Keeps.refl
    | with_reducible apply Keeps.ite
    | (with_reducible apply Keeps.forEach; intro _ _ _)
    | (with_reducible apply Keeps.foldl_fst; intro _ _ _)
    | (with_reducible apply Keeps.foldl_snd; intro _ _ _)
    | (with_reducible apply Keeps.foldl; intro _ _ _)
    | split
    | refine Keeps.upd ?_

theorem State.holdCol_keeps (s : State) (c : Nat) (ticks : Nat) :
    Keeps (foot [.col]) s (State.holdCol s c ticks) := by
  unfold State.holdCol
  extract_lets a1
  try clear_value a1
  repeat' first
    | with_reducible assumption
    | with_reducible apply Keeps.refl
    | with_reducible apply Keeps.ite
    | (apply Keeps.step; with_reducible apply State.setColCh_keeps)
    | (with_reducible apply Keeps.forEach; intro _ _ _)
    | (with_reducible apply Keeps.foldl_fst; intro _ _ _)
    | (with_reducible apply Keeps.foldl_snd; intro _ _ _)
    | (with_reducible apply Keeps.foldl; intro _ _ _)
    | decide +kernel
    | exact sub_flt _ (by decide +kernel)
    | exact sub_eng _ (by decide +kernel)
    | exact sub_hk _ (by decide +kernel)
    | exact sub_port _ _ (by decide +kernel)
    | exact sub_win _ (by decide +kernel)
    | exact sub_any _ (by decide +kernel)
    | split

theorem State.colMapWrite_keeps (s : State) (c : Nat) (word : W24) (m : Master) :
    Keeps (foot [.reg GLB_DETERMINISM, .reg LNK_DEADLETTER_COUNT, .reg (ENG_STATUS 0x600), .reg COL_MAP_STATUS, .reg COL_ROVER_STATUS, .reg (ENG_STATUS 0x1B00), .flt, .win .lnk, .win .col, .recTick, .bar, .faults, .cou, .bru, .col, .lnk, .free, .srcs]) s (State.colMapWrite s c word m) := by
  unfold State.colMapWrite
  extract_lets a1 a2 a3 a4 a5 a6 a7 a8 a9 a10
  try clear_value a1
  try clear_value a2
  try clear_value a3
  try clear_value a4
  try clear_value a5
  try clear_value a6
  have ha7 : Keeps (foot [.reg GLB_DETERMINISM, .reg LNK_DEADLETTER_COUNT, .reg (ENG_STATUS 0x600), .reg COL_MAP_STATUS, .reg COL_ROVER_STATUS, .reg (ENG_STATUS 0x1B00), .flt, .win .lnk, .win .col, .recTick, .bar, .faults, .cou, .bru, .col, .lnk, .free, .srcs]) s a7 := by
    unfold a7
    repeat' first
      | with_reducible assumption
      | with_reducible apply Keeps.refl
      | with_reducible apply Keeps.ite
      | (apply Keeps.step; with_reducible apply State.raiseWith_keeps)
      | (apply Keeps.step; with_reducible apply State.setFld_keeps)
      | (apply Keeps.step; with_reducible apply State.setBit_keeps)
      | (apply Keeps.step; with_reducible apply State.holdCol_keeps)
      | (apply Keeps.step; with_reducible apply State.setWinN_keeps)
      | (apply Keeps.step; with_reducible apply State.setRover_keeps)
      | (apply Keeps.step; with_reducible apply State.inc_keeps)
      | (with_reducible apply Keeps.forEach; intro _ _ _)
      | (with_reducible apply Keeps.foldl_fst; intro _ _ _)
      | (with_reducible apply Keeps.foldl_snd; intro _ _ _)
      | (with_reducible apply Keeps.foldl; intro _ _ _)
      | decide +kernel
      | (dsimp only [COL_ROVER_STATUS_COLUMN, COL_ROVER_STATUS_STATE]; decide +kernel)
      | exact sub_flt _ (by decide +kernel)
      | exact sub_eng _ (by decide +kernel)
      | exact sub_hk _ (by decide +kernel)
      | exact sub_port _ _ (by decide +kernel)
      | exact sub_win _ (by decide +kernel)
      | exact sub_any _ (by decide +kernel)
      | split
      | refine Keeps.upd ?_
  try clear_value a7
  have ha8 : Keeps (foot [.reg GLB_DETERMINISM, .reg LNK_DEADLETTER_COUNT, .reg (ENG_STATUS 0x600), .reg COL_MAP_STATUS, .reg COL_ROVER_STATUS, .reg (ENG_STATUS 0x1B00), .flt, .win .lnk, .win .col, .recTick, .bar, .faults, .cou, .bru, .col, .lnk, .free, .srcs]) s a8 := by
    unfold a8
    repeat' first
      | with_reducible assumption
      | with_reducible apply Keeps.refl
      | with_reducible apply Keeps.ite
      | (apply Keeps.step; with_reducible apply State.raiseWith_keeps)
      | (apply Keeps.step; with_reducible apply State.setFld_keeps)
      | (apply Keeps.step; with_reducible apply State.setBit_keeps)
      | (apply Keeps.step; with_reducible apply State.holdCol_keeps)
      | (apply Keeps.step; with_reducible apply State.setWinN_keeps)
      | (apply Keeps.step; with_reducible apply State.setRover_keeps)
      | (apply Keeps.step; with_reducible apply State.inc_keeps)
      | (with_reducible apply Keeps.forEach; intro _ _ _)
      | (with_reducible apply Keeps.foldl_fst; intro _ _ _)
      | (with_reducible apply Keeps.foldl_snd; intro _ _ _)
      | (with_reducible apply Keeps.foldl; intro _ _ _)
      | decide +kernel
      | (dsimp only [COL_ROVER_STATUS_COLUMN, COL_ROVER_STATUS_STATE]; decide +kernel)
      | exact sub_flt _ (by decide +kernel)
      | exact sub_eng _ (by decide +kernel)
      | exact sub_hk _ (by decide +kernel)
      | exact sub_port _ _ (by decide +kernel)
      | exact sub_win _ (by decide +kernel)
      | exact sub_any _ (by decide +kernel)
      | split
      | refine Keeps.upd ?_
  try clear_value a8
  try clear_value a9
  have ha10 : Keeps (foot [.reg GLB_DETERMINISM, .reg LNK_DEADLETTER_COUNT, .reg (ENG_STATUS 0x600), .reg COL_MAP_STATUS, .reg COL_ROVER_STATUS, .reg (ENG_STATUS 0x1B00), .flt, .win .lnk, .win .col, .recTick, .bar, .faults, .cou, .bru, .col, .lnk, .free, .srcs]) s a10 := by
    unfold a10
    repeat' first
      | with_reducible assumption
      | with_reducible apply Keeps.refl
      | with_reducible apply Keeps.ite
      | (apply Keeps.step; with_reducible apply State.raiseWith_keeps)
      | (apply Keeps.step; with_reducible apply State.setFld_keeps)
      | (apply Keeps.step; with_reducible apply State.setBit_keeps)
      | (apply Keeps.step; with_reducible apply State.holdCol_keeps)
      | (apply Keeps.step; with_reducible apply State.setWinN_keeps)
      | (apply Keeps.step; with_reducible apply State.setRover_keeps)
      | (apply Keeps.step; with_reducible apply State.inc_keeps)
      | (with_reducible apply Keeps.forEach; intro _ _ _)
      | (with_reducible apply Keeps.foldl_fst; intro _ _ _)
      | (with_reducible apply Keeps.foldl_snd; intro _ _ _)
      | (with_reducible apply Keeps.foldl; intro _ _ _)
      | decide +kernel
      | (dsimp only [COL_ROVER_STATUS_COLUMN, COL_ROVER_STATUS_STATE]; decide +kernel)
      | exact sub_flt _ (by decide +kernel)
      | exact sub_eng _ (by decide +kernel)
      | exact sub_hk _ (by decide +kernel)
      | exact sub_port _ _ (by decide +kernel)
      | exact sub_win _ (by decide +kernel)
      | exact sub_any _ (by decide +kernel)
      | split
      | refine Keeps.upd ?_
  try clear_value a10
  repeat' first
    | with_reducible assumption
    | with_reducible apply Keeps.refl
    | with_reducible apply Keeps.ite
    | (apply Keeps.step; with_reducible apply State.raiseWith_keeps)
    | (apply Keeps.step; with_reducible apply State.setFld_keeps)
    | (apply Keeps.step; with_reducible apply State.setBit_keeps)
    | (apply Keeps.step; with_reducible apply State.holdCol_keeps)
    | (apply Keeps.step; with_reducible apply State.setWinN_keeps)
    | (apply Keeps.step; with_reducible apply State.setRover_keeps)
    | (apply Keeps.step; with_reducible apply State.inc_keeps)
    | (with_reducible apply Keeps.forEach; intro _ _ _)
    | (with_reducible apply Keeps.foldl_fst; intro _ _ _)
    | (with_reducible apply Keeps.foldl_snd; intro _ _ _)
    | (with_reducible apply Keeps.foldl; intro _ _ _)
    | decide +kernel
    | (dsimp only [COL_ROVER_STATUS_COLUMN, COL_ROVER_STATUS_STATE]; decide +kernel)
    | exact sub_flt _ (by decide +kernel)
    | exact sub_eng _ (by decide +kernel)
    | exact sub_hk _ (by decide +kernel)
    | exact sub_port _ _ (by decide +kernel)
    | exact sub_win _ (by decide +kernel)
    | exact sub_any _ (by decide +kernel)
    | split
    | refine Keeps.upd ?_

theorem State.spareRestore_keeps (s : State) (c : Nat) (m : Master) :
    Keeps (foot [.reg GLB_DETERMINISM, .reg LNK_DEADLETTER_COUNT, .reg (ENG_STATUS 0x600), .reg COL_MAP_STATUS, .reg COL_ROVER_STATUS, .reg (ENG_STATUS 0x1B00), .flt, .win .lnk, .win .col, .recTick, .bar, .faults, .cou, .bru, .col, .lnk, .free, .srcs]) s (State.spareRestore s c m) := by
  unfold State.spareRestore
  extract_lets a1
  try clear_value a1
  repeat' first
    | with_reducible assumption
    | with_reducible apply Keeps.refl
    | with_reducible apply Keeps.ite
    | (apply Keeps.step; with_reducible apply State.colMapWrite_keeps)
    | (with_reducible apply Keeps.forEach; intro _ _ _)
    | (with_reducible apply Keeps.foldl_fst; intro _ _ _)
    | (with_reducible apply Keeps.foldl_snd; intro _ _ _)
    | (with_reducible apply Keeps.foldl; intro _ _ _)
    | decide +kernel
    | exact sub_flt _ (by decide +kernel)
    | exact sub_eng _ (by decide +kernel)
    | exact sub_hk _ (by decide +kernel)
    | exact sub_port _ _ (by decide +kernel)
    | exact sub_win _ (by decide +kernel)
    | exact sub_any _ (by decide +kernel)
    | split

theorem State.spareSwap_keeps (s : State) (c : Nat) (m : Master) :
    Keeps (foot [.reg GLB_DETERMINISM, .reg LNK_DEADLETTER_COUNT, .reg (ENG_STATUS 0x600), .reg COL_MAP_STATUS, .reg COL_ROVER_STATUS, .reg (ENG_STATUS 0x1B00), .flt, .win .lnk, .win .col, .recTick, .bar, .faults, .cou, .bru, .col, .lnk, .free, .srcs]) s (State.spareSwap s c m) := by
  unfold State.spareSwap
  extract_lets a1
  try clear_value a1
  repeat' first
    | with_reducible assumption
    | with_reducible apply Keeps.refl
    | with_reducible apply Keeps.ite
    | (apply Keeps.step; with_reducible apply State.colMapWrite_keeps)
    | (with_reducible apply Keeps.forEach; intro _ _ _)
    | (with_reducible apply Keeps.foldl_fst; intro _ _ _)
    | (with_reducible apply Keeps.foldl_snd; intro _ _ _)
    | (with_reducible apply Keeps.foldl; intro _ _ _)
    | decide +kernel
    | exact sub_flt _ (by decide +kernel)
    | exact sub_eng _ (by decide +kernel)
    | exact sub_hk _ (by decide +kernel)
    | exact sub_port _ _ (by decide +kernel)
    | exact sub_win _ (by decide +kernel)
    | exact sub_any _ (by decide +kernel)
    | split

theorem State.trimWrite_keeps (s : State) (f : Nat) (g : Nat) (w : Nat) (word : W24) (launched : Bool) :
    Keeps (foot [.reg GLB_DETERMINISM, .win .col, .faults, .col]) s (State.trimWrite s f g w word launched) := by
  unfold State.trimWrite
  extract_lets a1 a2 a3 a4 a5
  try clear_value a1
  try clear_value a2
  try clear_value a3
  have ha4 : Keeps (foot [.reg GLB_DETERMINISM, .win .col, .faults, .col]) s a4 := by
    unfold a4
    repeat' first
      | with_reducible assumption
      | with_reducible apply Keeps.refl
      | with_reducible apply Keeps.ite
      | (apply Keeps.step; with_reducible apply State.setWinN_keeps)
      | (apply Keeps.step; with_reducible apply State.holdCol_keeps)
      | (apply Keeps.step; with_reducible apply State.param_keeps)
      | (with_reducible apply Keeps.forEach; intro _ _ _)
      | (with_reducible apply Keeps.foldl_fst; intro _ _ _)
      | (with_reducible apply Keeps.foldl_snd; intro _ _ _)
      | (with_reducible apply Keeps.foldl; intro _ _ _)
      | decide +kernel
      | exact sub_flt _ (by decide +kernel)
      | exact sub_eng _ (by decide +kernel)
      | exact sub_hk _ (by decide +kernel)
      | exact sub_port _ _ (by decide +kernel)
      | exact sub_win _ (by decide +kernel)
      | exact sub_any _ (by decide +kernel)
      | split
  try clear_value a4
  have ha5 : Keeps (foot [.reg GLB_DETERMINISM, .win .col, .faults, .col]) s a5 := by
    unfold a5
    repeat' first
      | with_reducible assumption
      | with_reducible apply Keeps.refl
      | with_reducible apply Keeps.ite
      | (apply Keeps.step; with_reducible apply State.setWinN_keeps)
      | (apply Keeps.step; with_reducible apply State.holdCol_keeps)
      | (apply Keeps.step; with_reducible apply State.param_keeps)
      | (with_reducible apply Keeps.forEach; intro _ _ _)
      | (with_reducible apply Keeps.foldl_fst; intro _ _ _)
      | (with_reducible apply Keeps.foldl_snd; intro _ _ _)
      | (with_reducible apply Keeps.foldl; intro _ _ _)
      | decide +kernel
      | exact sub_flt _ (by decide +kernel)
      | exact sub_eng _ (by decide +kernel)
      | exact sub_hk _ (by decide +kernel)
      | exact sub_port _ _ (by decide +kernel)
      | exact sub_win _ (by decide +kernel)
      | exact sub_any _ (by decide +kernel)
      | split
  try clear_value a5
  repeat' first
    | with_reducible assumption
    | with_reducible apply Keeps.refl
    | with_reducible apply Keeps.ite
    | (apply Keeps.step; with_reducible apply State.setWinN_keeps)
    | (apply Keeps.step; with_reducible apply State.holdCol_keeps)
    | (apply Keeps.step; with_reducible apply State.param_keeps)
    | (with_reducible apply Keeps.forEach; intro _ _ _)
    | (with_reducible apply Keeps.foldl_fst; intro _ _ _)
    | (with_reducible apply Keeps.foldl_snd; intro _ _ _)
    | (with_reducible apply Keeps.foldl; intro _ _ _)
    | decide +kernel
    | exact sub_flt _ (by decide +kernel)
    | exact sub_eng _ (by decide +kernel)
    | exact sub_hk _ (by decide +kernel)
    | exact sub_port _ _ (by decide +kernel)
    | exact sub_win _ (by decide +kernel)
    | exact sub_any _ (by decide +kernel)
    | split

theorem State.setFe_keeps (s : State) (f : Nat) (x : FeSt) :
    Keeps (foot [.col]) s (State.setFe s f x) := by
  unfold State.setFe
  extract_lets a1
  try clear_value a1
  repeat' first
    | with_reducible assumption
    | with_reducible apply Keeps.refl
    | with_reducible apply Keeps.ite
    | (with_reducible apply Keeps.forEach; intro _ _ _)
    | (with_reducible apply Keeps.foldl_fst; intro _ _ _)
    | (with_reducible apply Keeps.foldl_snd; intro _ _ _)
    | (with_reducible apply Keeps.foldl; intro _ _ _)
    | split
    | refine Keeps.upd ?_

theorem State.settingsWrite_keeps (s : State) (p : Nat) (word : W24) (m : Master) (launched : Bool) :
    Keeps (foot [.reg GLB_DETERMINISM, .reg LNK_DEADLETTER_COUNT, .reg (ENG_STATUS 0x600), .reg COL_MAP_STATUS, .reg (ENG_STATUS 0x1B00), .flt, .win .lnk, .win .col, .recTick, .bar, .faults, .cou, .bru, .col, .lnk, .free, .srcs]) s (State.settingsWrite s p word m launched) := by
  unfold State.settingsWrite
  extract_lets a1 a2 a3 a4 a5 a6
  try clear_value a1
  try clear_value a2
  have ha3 : ∀ x0, Keeps (foot [.reg GLB_DETERMINISM, .reg LNK_DEADLETTER_COUNT, .reg (ENG_STATUS 0x600), .reg COL_MAP_STATUS, .reg (ENG_STATUS 0x1B00), .flt, .win .lnk, .win .col, .recTick, .bar, .faults, .cou, .bru, .col, .lnk, .free, .srcs]) s (a3 x0) := by
    intro x0
    dsimp only [a3]
    repeat' first
      | with_reducible assumption
      | with_reducible apply Keeps.refl
      | with_reducible apply Keeps.ite
      | (apply Keeps.step; with_reducible apply State.raiseWith_keeps)
      | (apply Keeps.step; with_reducible apply State.setFld_keeps)
      | (apply Keeps.step; with_reducible apply State.setBit_keeps)
      | (apply Keeps.step; with_reducible apply State.setWinN_keeps)
      | (apply Keeps.step; with_reducible apply State.holdCol_keeps)
      | (apply Keeps.step; with_reducible apply State.param_keeps)
      | (with_reducible apply Keeps.forEach; intro _ _ _)
      | (with_reducible apply Keeps.foldl_fst; intro _ _ _)
      | (with_reducible apply Keeps.foldl_snd; intro _ _ _)
      | (with_reducible apply Keeps.foldl; intro _ _ _)
      | decide +kernel
      | exact sub_flt _ (by decide +kernel)
      | exact sub_eng _ (by decide +kernel)
      | exact sub_hk _ (by decide +kernel)
      | exact sub_port _ _ (by decide +kernel)
      | exact sub_win _ (by decide +kernel)
      | exact sub_any _ (by decide +kernel)
      | split
  try clear_value a3
  have ha4 : Keeps (foot [.reg GLB_DETERMINISM, .reg LNK_DEADLETTER_COUNT, .reg (ENG_STATUS 0x600), .reg COL_MAP_STATUS, .reg (ENG_STATUS 0x1B00), .flt, .win .lnk, .win .col, .recTick, .bar, .faults, .cou, .bru, .col, .lnk, .free, .srcs]) s a4 := by
    unfold a4
    repeat' first
      | with_reducible assumption
      | with_reducible apply Keeps.refl
      | with_reducible apply ha3
      | with_reducible apply Keeps.ite
      | (apply Keeps.step; with_reducible apply State.raiseWith_keeps)
      | (apply Keeps.step; with_reducible apply State.setFld_keeps)
      | (apply Keeps.step; with_reducible apply State.setBit_keeps)
      | (apply Keeps.step; with_reducible apply State.setWinN_keeps)
      | (apply Keeps.step; with_reducible apply State.holdCol_keeps)
      | (apply Keeps.step; with_reducible apply State.param_keeps)
      | (with_reducible apply Keeps.forEach; intro _ _ _)
      | (with_reducible apply Keeps.foldl_fst; intro _ _ _)
      | (with_reducible apply Keeps.foldl_snd; intro _ _ _)
      | (with_reducible apply Keeps.foldl; intro _ _ _)
      | decide +kernel
      | exact sub_flt _ (by decide +kernel)
      | exact sub_eng _ (by decide +kernel)
      | exact sub_hk _ (by decide +kernel)
      | exact sub_port _ _ (by decide +kernel)
      | exact sub_win _ (by decide +kernel)
      | exact sub_any _ (by decide +kernel)
      | split
  try clear_value a4
  try clear_value a5
  have ha6 : Keeps (foot [.reg GLB_DETERMINISM, .reg LNK_DEADLETTER_COUNT, .reg (ENG_STATUS 0x600), .reg COL_MAP_STATUS, .reg (ENG_STATUS 0x1B00), .flt, .win .lnk, .win .col, .recTick, .bar, .faults, .cou, .bru, .col, .lnk, .free, .srcs]) s a6 := by
    unfold a6
    repeat' first
      | with_reducible assumption
      | with_reducible apply Keeps.refl
      | with_reducible apply ha3
      | with_reducible apply Keeps.ite
      | (apply Keeps.step; with_reducible apply State.raiseWith_keeps)
      | (apply Keeps.step; with_reducible apply State.setFld_keeps)
      | (apply Keeps.step; with_reducible apply State.setBit_keeps)
      | (apply Keeps.step; with_reducible apply State.setWinN_keeps)
      | (apply Keeps.step; with_reducible apply State.holdCol_keeps)
      | (apply Keeps.step; with_reducible apply State.param_keeps)
      | (with_reducible apply Keeps.forEach; intro _ _ _)
      | (with_reducible apply Keeps.foldl_fst; intro _ _ _)
      | (with_reducible apply Keeps.foldl_snd; intro _ _ _)
      | (with_reducible apply Keeps.foldl; intro _ _ _)
      | decide +kernel
      | exact sub_flt _ (by decide +kernel)
      | exact sub_eng _ (by decide +kernel)
      | exact sub_hk _ (by decide +kernel)
      | exact sub_port _ _ (by decide +kernel)
      | exact sub_win _ (by decide +kernel)
      | exact sub_any _ (by decide +kernel)
      | split
  try clear_value a6
  repeat' first
    | with_reducible assumption
    | with_reducible apply Keeps.refl
    | with_reducible apply ha3
    | with_reducible apply Keeps.ite
    | (apply Keeps.step; with_reducible apply State.raiseWith_keeps)
    | (apply Keeps.step; with_reducible apply State.setFld_keeps)
    | (apply Keeps.step; with_reducible apply State.setBit_keeps)
    | (apply Keeps.step; with_reducible apply State.setWinN_keeps)
    | (apply Keeps.step; with_reducible apply State.holdCol_keeps)
    | (apply Keeps.step; with_reducible apply State.param_keeps)
    | (with_reducible apply Keeps.forEach; intro _ _ _)
    | (with_reducible apply Keeps.foldl_fst; intro _ _ _)
    | (with_reducible apply Keeps.foldl_snd; intro _ _ _)
    | (with_reducible apply Keeps.foldl; intro _ _ _)
    | decide +kernel
    | exact sub_flt _ (by decide +kernel)
    | exact sub_eng _ (by decide +kernel)
    | exact sub_hk _ (by decide +kernel)
    | exact sub_port _ _ (by decide +kernel)
    | exact sub_win _ (by decide +kernel)
    | exact sub_any _ (by decide +kernel)
    | split

end Sys2Proof.Machine
end

