-- ==== Sys2Proof/Laws/KeepsNulling.lean ====
section
/-!
SUPPORT. Footprints of the operations of Machine/Nulling.lean: which parts of a state each can change.
-/
set_option Elab.async false
set_option linter.unusedTactic false
set_option linter.unreachableTactic false
namespace Sys2Proof.Machine

theorem State.setConv_keeps (s : State) (ch : Nat) (cnt : Nat) (done : Bool) :
    Keeps (foot [.nul]) s (State.setConv s ch cnt done) := by
  unfold State.setConv
  extract_lets a1
  try clear_value a1
  repeat' first
    | with_reducible assumption
    | with_reducible apply Keeps.refl
    | with_reducible apply Keeps.ite
    | (with_reducible apply Keeps.forEach; intro _ _ _)
    | (with_reducible apply Keeps.foldl_fst; intro _ _ _)
    | (with_reducible apply Keeps.foldl_snd; intro _ _ _)
    | (with_reducible apply Keeps.foldl; intro _ _ _)
    | split
    | refine Keeps.upd ?_

theorem State.setAmp_keeps (s : State) (ch : Nat) (w : Nat) (v : Int) :
    Keeps (foot [.win .nul, .nul]) s (State.setAmp s ch w v) := by
  unfold State.setAmp
  extract_lets a1 a2 a3 a4 a5
  try clear_value a1
  try clear_value a2
  try clear_value a3
  try clear_value a4
  try clear_value a5
  repeat' first
    | with_reducible assumption
    | with_reducible apply Keeps.refl
    | with_reducible apply Keeps.ite
    | (apply Keeps.step; with_reducible apply State.setWin_keeps)
    | (with_reducible apply Keeps.forEach; intro _ _ _)
    | (with_reducible apply Keeps.foldl_fst; intro _ _ _)
    | (with_reducible apply Keeps.foldl_snd; intro _ _ _)
    | (with_reducible apply Keeps.foldl; intro _ _ _)
    | decide +kernel
    | exact sub_flt _ (by decide +kernel)
    | exact sub_eng _ (by decide +kernel)
    | exact sub_hk _ (by decide +kernel)
    | exact sub_port _ _ (by decide +kernel)
    | exact sub_win _ (by decide +kernel)
    | exact sub_any _ (by decide +kernel)
    | split
    | refine Keeps.upd ?_

theorem State.channelStroke_keeps (s : State) (c : Nat) (r : Nat) (f : Nat) (frozenCol : Bool) (sheetEnd : Bool) (actives : List Nat) :
    Keeps (foot [.reg GLB_DETERMINISM, .reg LNK_DEADLETTER_COUNT, .reg (ENG_STATUS 0x600), .reg (ENG_STATUS 0x1B00), .flt, .win .lnk, .win .nul, .recTick, .bar, .faults, .cou, .bru, .nul, .lnk, .free, .srcs]) s (State.channelStroke s c r f frozenCol sheetEnd actives).1 := by
  unfold State.channelStroke
  extract_lets a1 a2 a3 a4 a5 a6 a7 a8 a9 a10 a11 a12 a13 a14 a15 a16 a17 a18 a19 a20 a21 a22 a23 a24 a25 a26 a27 a28 a29 a30 a31 a32 a33 a34 a35
  try clear_value a1
  try clear_value a2
  try clear_value a3
  try clear_value a4
  try clear_value a5
  try clear_value a6
  try clear_value a7
  try clear_value a8
  try clear_value a9
  try clear_value a10
  try clear_value a11
  try clear_value a12
  try clear_value a13
  try clear_value a14
  try clear_value a15
  try clear_value a16
  try clear_value a17
  try clear_value a18
  try clear_value a19
  try clear_value a20
  try clear_value a21
  try clear_value a22
  try clear_value a23
  try clear_value a24
  try clear_value a25
  have ha26 : Keeps (foot [.reg GLB_DETERMINISM, .reg LNK_DEADLETTER_COUNT, .reg (ENG_STATUS 0x600), .reg (ENG_STATUS 0x1B00), .flt, .win .lnk, .win .nul, .recTick, .bar, .faults, .cou, .bru, .nul, .lnk, .free, .srcs]) s a26 := by
    unfold a26
    repeat' first
      | with_reducible assumption
      | with_reducible apply Keeps.refl
      | split
      | with_reducible apply Keeps.ite
      | (apply Keeps.step; with_reducible apply State.setConv_keeps)
      | (apply Keeps.step; with_reducible apply State.setAmp_keeps)
      | (apply Keeps.step; with_reducible apply State.raise_keeps)
      | (with_reducible apply Keeps.forEach; intro _ _ _)
      | (with_reducible apply Keeps.foldl_fst; intro _ _ _)
      | (with_reducible apply Keeps.foldl_snd; intro _ _ _)
      | (with_reducible apply Keeps.foldl; intro _ _ _)
      | decide +kernel
      | exact sub_flt _ (by decide +kernel)
      | exact sub_eng _ (by decide +kernel)
      | exact sub_hk _ (by decide +kernel)
      | exact sub_port _ _ (by decide +kernel)
      | exact sub_win _ (by decide +kernel)
      | exact sub_any _ (by decide +kernel)
      | refine Keeps.upd ?_
  try clear_value a26
  try clear_value a27
  have ha28 : Keeps (foot [.reg GLB_DETERMINISM, .reg LNK_DEADLETTER_COUNT, .reg (ENG_STATUS 0x600), .reg (ENG_STATUS 0x1B00), .flt, .win .lnk, .win .nul, .recTick, .bar, .faults, .cou, .bru, .nul, .lnk, .free, .srcs]) s a28 := by
    unfold a28
    repeat' first
      | with_reducible assumption
      | with_reducible apply Keeps.refl
      | split
      | with_reducible apply Keeps.ite
      | (apply Keeps.step; with_reducible apply State.setConv_keeps)
      | (apply Keeps.step; with_reducible apply State.setAmp_keeps)
      | (apply Keeps.step; with_reducible apply State.raise_keeps)
      | (with_reducible apply Keeps.forEach; intro _ _ _)
      | (with_reducible apply Keeps.foldl_fst; intro _ _ _)
      | (with_reducible apply Keeps.foldl_snd; intro _ _ _)
      | (with_reducible apply Keeps.foldl; intro _ _ _)
      | decide +kernel
      | exact sub_flt _ (by decide +kernel)
      | exact sub_eng _ (by decide +kernel)
      | exact sub_hk _ (by decide +kernel)
      | exact sub_port _ _ (by decide +kernel)
      | exact sub_win _ (by decide +kernel)
      | exact sub_any _ (by decide +kernel)
      | refine Keeps.upd ?_
  try clear_value a28
  try clear_value a29
  try clear_value a30
  have ha31 : Keeps (foot [.reg GLB_DETERMINISM, .reg LNK_DEADLETTER_COUNT, .reg (ENG_STATUS 0x600), .reg (ENG_STATUS 0x1B00), .flt, .win .lnk, .win .nul, .recTick, .bar, .faults, .cou, .bru, .nul, .lnk, .free, .srcs]) s a31 := by
    unfold a31
    repeat' first
      | with_reducible assumption
      | with_reducible apply Keeps.refl
      | split
      | with_reducible apply Keeps.ite
      | (apply Keeps.step; with_reducible apply State.setConv_keeps)
      | (apply Keeps.step; with_reducible apply State.setAmp_keeps)
      | (apply Keeps.step; with_reducible apply State.raise_keeps)
      | (with_reducible apply Keeps.forEach; intro _ _ _)
      | (with_reducible apply Keeps.foldl_fst; intro _ _ _)
      | (with_reducible apply Keeps.foldl_snd; intro _ _ _)
      | (with_reducible apply Keeps.foldl; intro _ _ _)
      | decide +kernel
      | exact sub_flt _ (by decide +kernel)
      | exact sub_eng _ (by decide +kernel)
      | exact sub_hk _ (by decide +kernel)
      | exact sub_port _ _ (by decide +kernel)
      | exact sub_win _ (by decide +kernel)
      | exact sub_any _ (by decide +kernel)
      | refine Keeps.upd ?_
  try clear_value a31
  try clear_value a32
  try clear_value a33
  have ha34 : Keeps (foot [.reg GLB_DETERMINISM, .reg LNK_DEADLETTER_COUNT, .reg (ENG_STATUS 0x600), .reg (ENG_STATUS 0x1B00), .flt, .win .lnk, .win .nul, .recTick, .bar, .faults, .cou, .bru, .nul, .lnk, .free, .srcs]) s a34 := by
    unfold a34
    repeat' first
      | with_reducible assumption
      | with_reducible apply Keeps.refl
      | split
      | with_reducible apply Keeps.ite
      | (apply Keeps.step; with_reducible apply State.setConv_keeps)
      | (apply Keeps.step; with_reducible apply State.setAmp_keeps)
      | (apply Keeps.step; with_reducible apply State.raise_keeps)
      | (with_reducible apply Keeps.forEach; intro _ _ _)
      | (with_reducible apply Keeps.foldl_fst; intro _ _ _)
      | (with_reducible apply Keeps.foldl_snd; intro _ _ _)
      | (with_reducible apply Keeps.foldl; intro _ _ _)
      | decide +kernel
      | exact sub_flt _ (by decide +kernel)
      | exact sub_eng _ (by decide +kernel)
      | exact sub_hk _ (by decide +kernel)
      | exact sub_port _ _ (by decide +kernel)
      | exact sub_win _ (by decide +kernel)
      | exact sub_any _ (by decide +kernel)
      | refine Keeps.upd ?_
  try clear_value a34
  have ha35 : Keeps (foot [.reg GLB_DETERMINISM, .reg LNK_DEADLETTER_COUNT, .reg (ENG_STATUS 0x600), .reg (ENG_STATUS 0x1B00), .flt, .win .lnk, .win .nul, .recTick, .bar, .faults, .cou, .bru, .nul, .lnk, .free, .srcs]) s a35 := by
    unfold a35
    repeat' first
      | with_reducible assumption
      | with_reducible apply Keeps.refl
      | split
      | with_reducible apply Keeps.ite
      | (apply Keeps.step; with_reducible apply State.setConv_keeps)
      | (apply Keeps.step; with_reducible apply State.setAmp_keeps)
      | (apply Keeps.step; with_reducible apply State.raise_keeps)
      | (with_reducible apply Keeps.forEach; intro _ _ _)
      | (with_reducible apply Keeps.foldl_fst; intro _ _ _)
      | (with_reducible apply Keeps.foldl_snd; intro _ _ _)
      | (with_reducible apply Keeps.foldl; intro _ _ _)
      | decide +kernel
      | exact sub_flt _ (by decide +kernel)
      | exact sub_eng _ (by decide +kernel)
      | exact sub_hk _ (by decide +kernel)
      | exact sub_port _ _ (by decide +kernel)
      | exact sub_win _ (by decide +kernel)
      | exact sub_any _ (by decide +kernel)
      | refine Keeps.upd ?_
  try clear_value a35
  repeat' first
    | with_reducible assumption
    | with_reducible apply Keeps.refl
    | split
    | with_reducible apply Keeps.ite
    | (apply Keeps.step; with_reducible apply State.setConv_keeps)
    | (apply Keeps.step; with_reducible apply State.setAmp_keeps)
    | (apply Keeps.step; with_reducible apply State.raise_keeps)
    | (with_reducible apply Keeps.forEach; intro _ _ _)
    | (with_reducible apply Keeps.foldl_fst; intro _ _ _)
    | (with_reducible apply Keeps.foldl_snd; intro _ _ _)
    | (with_reducible apply Keeps.foldl; intro _ _ _)
    | decide +kernel
    | exact sub_flt _ (by decide +kernel)
    | exact sub_eng _ (by decide +kernel)
    | exact sub_hk _ (by decide +kernel)
    | exact sub_port _ _ (by decide +kernel)
    | exact sub_win _ (by decide +kernel)
    | exact sub_any _ (by decide +kernel)
    | refine Keeps.upd ?_

theorem State.noteClamp_keeps (s : State) (c : Nat) :
    Keeps (foot [.reg GLB_DETERMINISM, .reg LNK_DEADLETTER_COUNT, .reg (ENG_STATUS 0x600), .reg NUL_DAC_RANGE, .reg (ENG_STATUS 0x1B00), .flt, .win .lnk, .recTick, .bar, .faults, .cou, .bru, .nul, .lnk, .free, .srcs]) s (State.noteClamp s c) := by
  unfold State.noteClamp
  extract_lets a1 a2 a3 a4 a5 a6 a7
  try clear_value a1
  try clear_value a2
  have ha3 : Keeps (foot [.reg GLB_DETERMINISM, .reg LNK_DEADLETTER_COUNT, .reg (ENG_STATUS 0x600), .reg NUL_DAC_RANGE, .reg (ENG_STATUS 0x1B00), .flt, .win .lnk, .recTick, .bar, .faults, .cou, .bru, .nul, .lnk, .free, .srcs]) s a3 := by
    unfold a3
    repeat' first
      | with_reducible assumption
      | with_reducible apply Keeps.refl
      | with_reducible apply Keeps.ite
      | (apply Keeps.step; with_reducible apply State.raiseUnit_keeps)
      | (apply Keeps.step; with_reducible apply State.inc_keeps)
      | (with_reducible apply Keeps.forEach; intro _ _ _)
      | (with_reducible apply Keeps.foldl_fst; intro _ _ _)
      | (with_reducible apply Keeps.foldl_snd; intro _ _ _)
      | (with_reducible apply Keeps.foldl; intro _ _ _)
      | decide +kernel
      | exact sub_flt _ (by decide +kernel)
      | exact sub_eng _ (by decide +kernel)
      | exact sub_hk _ (by decide +kernel)
      | exact sub_port _ _ (by decide +kernel)
      | exact sub_win _ (by decide +kernel)
      | exact sub_any _ (by decide +kernel)
      | split
      | refine Keeps.upd ?_
  try clear_value a3
  try clear_value a4
  have ha5 : Keeps (foot [.reg GLB_DETERMINISM, .reg LNK_DEADLETTER_COUNT, .reg (ENG_STATUS 0x600), .reg NUL_DAC_RANGE, .reg (ENG_STATUS 0x1B00), .flt, .win .lnk, .recTick, .bar, .faults, .cou, .bru, .nul, .lnk, .free, .srcs]) s a5 := by
    unfold a5
    repeat' first
      | with_reducible assumption
      | with_reducible apply Keeps.refl
      | with_reducible apply Keeps.ite
      | (apply Keeps.step; with_reducible apply State.raiseUnit_keeps)
      | (apply Keeps.step; with_reducible apply State.inc_keeps)
      | (with_reducible apply Keeps.forEach; intro _ _ _)
      | (with_reducible apply Keeps.foldl_fst; intro _ _ _)
      | (with_reducible apply Keeps.foldl_snd; intro _ _ _)
      | (with_reducible apply Keeps.foldl; intro _ _ _)
      | decide +kernel
      | exact sub_flt _ (by decide +kernel)
      | exact sub_eng _ (by decide +kernel)
      | exact sub_hk _ (by decide +kernel)
      | exact sub_port _ _ (by decide +kernel)
      | exact sub_win _ (by decide +kernel)
      | exact sub_any _ (by decide +kernel)
      | split
      | refine Keeps.upd ?_
  try clear_value a5
  try clear_value a6
  have ha7 : Keeps (foot [.reg GLB_DETERMINISM, .reg LNK_DEADLETTER_COUNT, .reg (ENG_STATUS 0x600), .reg NUL_DAC_RANGE, .reg (ENG_STATUS 0x1B00), .flt, .win .lnk, .recTick, .bar, .faults, .cou, .bru, .nul, .lnk, .free, .srcs]) s a7 := by
    unfold a7
    repeat' first
      | with_reducible assumption
      | with_reducible apply Keeps.refl
      | with_reducible apply Keeps.ite
      | (apply Keeps.step; with_reducible apply State.raiseUnit_keeps)
      | (apply Keeps.step; with_reducible apply State.inc_keeps)
      | (with_reducible apply Keeps.forEach; intro _ _ _)
      | (with_reducible apply Keeps.foldl_fst; intro _ _ _)
      | (with_reducible apply Keeps.foldl_snd; intro _ _ _)
      | (with_reducible apply Keeps.foldl; intro _ _ _)
      | decide +kernel
      | exact sub_flt _ (by decide +kernel)
      | exact sub_eng _ (by decide +kernel)
      | exact sub_hk _ (by decide +kernel)
      | exact sub_port _ _ (by decide +kernel)
      | exact sub_win _ (by decide +kernel)
      | exact sub_any _ (by decide +kernel)
      | split
      | refine Keeps.upd ?_
  try clear_value a7
  repeat' first
    | with_reducible assumption
    | with_reducible apply Keeps.refl
    | with_reducible apply Keeps.ite
    | (apply Keeps.step; with_reducible apply State.raiseUnit_keeps)
    | (apply Keeps.step; with_reducible apply State.inc_keeps)
    | (with_reducible apply Keeps.forEach; intro _ _ _)
    | (with_reducible apply Keeps.foldl_fst; intro _ _ _)
    | (with_reducible apply Keeps.foldl_snd; intro _ _ _)
    | (with_reducible apply Keeps.foldl; intro _ _ _)
    | decide +kernel
    | exact sub_flt _ (by decide +kernel)
    | exact sub_eng _ (by decide +kernel)
    | exact sub_hk _ (by decide +kernel)
    | exact sub_port _ _ (by decide +kernel)
    | exact sub_win _ (by decide +kernel)
    | exact sub_any _ (by decide +kernel)
    | split
    | refine Keeps.upd ?_

theorem State.takeSnap_keeps (s : State) (c : Nat) (xs : List Int) (fl : List Nat) :
    Keeps (foot [.nul]) s (State.takeSnap s c xs fl) := by
  unfold State.takeSnap
  extract_lets a1 a2 a3 a4 a5 a6 a7 a8 a9 a10 a11
  try clear_value a1
  try clear_value a2
  try clear_value a3
  try clear_value a4
  try clear_value a5
  try clear_value a6
  try clear_value a7
  try clear_value a8
  try clear_value a9
  try clear_value a10
  try clear_value a11
  repeat' first
    | with_reducible assumption
    | with_reducible apply Keeps.refl
    | with_reducible apply Keeps.ite
    | (with_reducible apply Keeps.forEach; intro _ _ _)
    | (with_reducible apply Keeps.foldl_fst; intro _ _ _)
    | (with_reducible apply Keeps.foldl_snd; intro _ _ _)
    | (with_reducible apply Keeps.foldl; intro _ _ _)
    | split
    | refine Keeps.upd ?_

theorem State.columnStroke_keeps (s : State) (c : Nat) (f : Nat) :
    Keeps (foot [.reg GLB_DETERMINISM, .reg LNK_DEADLETTER_COUNT, .reg (ENG_STATUS 0x600), .reg NUL_DAC_RANGE, .reg (ENG_STATUS 0x1B00), .flt, .win .lnk, .win .nul, .recTick, .bar, .faults, .cou, .bru, .nul, .lnk, .free, .srcs]) s (State.columnStroke s c f) := by
  unfold State.columnStroke
  extract_lets a1 a2 a3 a4 a5 a6 a7 a8
  try clear_value a1
  try clear_value a2
  try clear_value a3
  try clear_value a4
  have ha5 : Keeps (foot [.reg GLB_DETERMINISM, .reg LNK_DEADLETTER_COUNT, .reg (ENG_STATUS 0x600), .reg NUL_DAC_RANGE, .reg (ENG_STATUS 0x1B00), .flt, .win .lnk, .win .nul, .recTick, .bar, .faults, .cou, .bru, .nul, .lnk, .free, .srcs]) s a5 := by
    unfold a5
    repeat' first
      | with_reducible assumption
      | with_reducible apply Keeps.refl
      | with_reducible apply Keeps.ite
      | (apply Keeps.step; with_reducible apply State.channelStroke_keeps)
      | (apply Keeps.step; with_reducible apply State.noteClamp_keeps)
      | (apply Keeps.step; with_reducible apply State.takeSnap_keeps)
      | (with_reducible apply Keeps.forEach; intro _ _ _)
      | (with_reducible apply Keeps.foldl_fst; intro _ _ _)
      | (with_reducible apply Keeps.foldl_snd; intro _ _ _)
      | (with_reducible apply Keeps.foldl; intro _ _ _)
      | decide +kernel
      | exact sub_flt _ (by decide +kernel)
      | exact sub_eng _ (by decide +kernel)
      | exact sub_hk _ (by decide +kernel)
      | exact sub_port _ _ (by decide +kernel)
      | exact sub_win _ (by decide +kernel)
      | exact sub_any _ (by decide +kernel)
      | split
      | refine Keeps.upd ?_
  try clear_value a5
  have ha6 : Keeps (foot [.reg GLB_DETERMINISM, .reg LNK_DEADLETTER_COUNT, .reg (ENG_STATUS 0x600), .reg NUL_DAC_RANGE, .reg (ENG_STATUS 0x1B00), .flt, .win .lnk, .win .nul, .recTick, .bar, .faults, .cou, .bru, .nul, .lnk, .free, .srcs]) s a6.1 := by
    unfold a6
    repeat' first
      | with_reducible assumption
      | with_reducible apply Keeps.refl
      | with_reducible apply Keeps.ite
      | (apply Keeps.step; with_reducible apply State.channelStroke_keeps)
      | (apply Keeps.step; with_reducible apply State.noteClamp_keeps)
      | (apply Keeps.step; with_reducible apply State.takeSnap_keeps)
      | (with_reducible apply Keeps.forEach; intro _ _ _)
      | (with_reducible apply Keeps.foldl_fst; intro _ _ _)
      | (with_reducible apply Keeps.foldl_snd; intro _ _ _)
      | (with_reducible apply Keeps.foldl; intro _ _ _)
      | decide +kernel
      | exact sub_flt _ (by decide +kernel)
      | exact sub_eng _ (by decide +kernel)
      | exact sub_hk _ (by decide +kernel)
      | exact sub_port _ _ (by decide +kernel)
      | exact sub_win _ (by decide +kernel)
      | exact sub_any _ (by decide +kernel)
      | split
      | refine Keeps.upd ?_
  try clear_value a6
  have ha7 : Keeps (foot [.reg GLB_DETERMINISM, .reg LNK_DEADLETTER_COUNT, .reg (ENG_STATUS 0x600), .reg NUL_DAC_RANGE, .reg (ENG_STATUS 0x1B00), .flt, .win .lnk, .win .nul, .recTick, .bar, .faults, .cou, .bru, .nul, .lnk, .free, .srcs]) s a7 := by
    unfold a7
    repeat' first
      | with_reducible assumption
      | with_reducible apply Keeps.refl
      | with_reducible apply Keeps.ite
      | (apply Keeps.step; with_reducible apply State.channelStroke_keeps)
      | (apply Keeps.step; with_reducible apply State.noteClamp_keeps)
      | (apply Keeps.step; with_reducible apply State.takeSnap_keeps)
      | (with_reducible apply Keeps.forEach; intro _ _ _)
      | (with_reducible apply Keeps.foldl_fst; intro _ _ _)
      | (with_reducible apply Keeps.foldl_snd; intro _ _ _)
      | (with_reducible apply Keeps.foldl; intro _ _ _)
      | decide +kernel
      | exact sub_flt _ (by decide +kernel)
      | exact sub_eng _ (by decide +kernel)
      | exact sub_hk _ (by decide +kernel)
      | exact sub_port _ _ (by decide +kernel)
      | exact sub_win _ (by decide +kernel)
      | exact sub_any _ (by decide +kernel)
      | split
      | refine Keeps.upd ?_
  try clear_value a7
  try clear_value a8
  repeat' first
    | with_reducible assumption
    | with_reducible apply Keeps.refl
    | with_reducible apply Keeps.ite
    | (apply Keeps.step; with_reducible apply State.channelStroke_keeps)
    | (apply Keeps.step; with_reducible apply State.noteClamp_keeps)
    | (apply Keeps.step; with_reducible apply State.takeSnap_keeps)
    | (with_reducible apply Keeps.forEach; intro _ _ _)
    | (with_reducible apply Keeps.foldl_fst; intro _ _ _)
    | (with_reducible apply Keeps.foldl_snd; intro _ _ _)
    | (with_reducible apply Keeps.foldl; intro _ _ _)
    | decide +kernel
    | exact sub_flt _ (by decide +kernel)
    | exact sub_eng _ (by decide +kernel)
    | exact sub_hk _ (by decide +kernel)
    | exact sub_port _ _ (by decide +kernel)
    | exact sub_win _ (by decide +kernel)
    | exact sub_any _ (by decide +kernel)
    | split
    | refine Keeps.upd ?_

theorem State.openStroke_keeps (s : State) :
    Keeps (foot [.nul]) s (State.openStroke s) := by
  unfold State.openStroke
  extract_lets a1
  try clear_value a1
  repeat' first
    | with_reducible assumption
    | with_reducible apply Keeps.refl
    | with_reducible apply Keeps.ite
    | (with_reducible apply Keeps.forEach; intro _ _ _)
    | (with_reducible apply Keeps.foldl_fst; intro _ _ _)
    | (with_reducible apply Keeps.foldl_snd; intro _ _ _)
    | (with_reducible apply Keeps.foldl; intro _ _ _)
    | split
    | refine Keeps.upd ?_

theorem State.captureWord_keeps (s : State) (vals : Assoc W24) (k : Nat) :
    Keeps (foot [.win .nul]) s (State.captureWord s vals k) := by
  unfold State.captureWord
  repeat' first
    | with_reducible assumption
    | with_reducible apply Keeps.refl
    | with_reducible apply Keeps.ite
    | (apply Keeps.step; with_reducible apply State.setWin_keeps)
    | (with_reducible apply Keeps.forEach; intro _ _ _)
    | (with_reducible apply Keeps.foldl_fst; intro _ _ _)
    | (with_reducible apply Keeps.foldl_snd; intro _ _ _)
    | (with_reducible apply Keeps.foldl; intro _ _ _)
    | decide +kernel
    | exact sub_flt _ (by decide +kernel)
    | exact sub_eng _ (by decide +kernel)
    | exact sub_hk _ (by decide +kernel)
    | exact sub_port _ _ (by decide +kernel)
    | exact sub_win _ (by decide +kernel)
    | exact sub_any _ (by decide +kernel)
    | split

theorem State.captureTick_keeps (s : State) :
    Keeps (foot [.win .nul, .timers, .nul]) s (State.captureTick s) := by
  unfold State.captureTick
  extract_lets a1 a2 a3
  try clear_value a1
  have ha2 : Keeps (foot [.win .nul, .timers, .nul]) s a2 := by
    unfold a2
    repeat' first
      | with_reducible assumption
      | with_reducible apply Keeps.refl
      | with_reducible apply Keeps.ite
      | (apply Keeps.step; with_reducible apply State.captureWord_keeps)
      | (apply Keeps.step; with_reducible apply State.after_keeps)
      | (with_reducible apply Keeps.forEach; intro _ _ _)
      | (with_reducible apply Keeps.foldl_fst; intro _ _ _)
      | (with_reducible apply Keeps.foldl_snd; intro _ _ _)
      | (with_reducible apply Keeps.foldl; intro _ _ _)
      | decide +kernel
      | exact sub_flt _ (by decide +kernel)
      | exact sub_eng _ (by decide +kernel)
      | exact sub_hk _ (by decide +kernel)
      | exact sub_port _ _ (by decide +kernel)
      | exact sub_win _ (by decide +kernel)
      | exact sub_any _ (by decide +kernel)
      | split
      | refine Keeps.upd ?_
  try clear_value a2
  try clear_value a3
  repeat' first
    | with_reducible assumption
    | with_reducible apply Keeps.refl
    | with_reducible apply Keeps.ite
    | (apply Keeps.step; with_reducible apply State.captureWord_keeps)
    | (apply Keeps.step; with_reducible apply State.after_keeps)
    | (with_reducible apply Keeps.forEach; intro _ _ _)
    | (with_reducible apply Keeps.foldl_fst; intro _ _ _)
    | (with_reducible apply Keeps.foldl_snd; intro _ _ _)
    | (with_reducible apply Keeps.foldl; intro _ _ _)
    | decide +kernel
    | exact sub_flt _ (by decide +kernel)
    | exact sub_eng _ (by decide +kernel)
    | exact sub_hk _ (by decide +kernel)
    | exact sub_port _ _ (by decide +kernel)
    | exact sub_win _ (by decide +kernel)
    | exact sub_any _ (by decide +kernel)
    | split
    | refine Keeps.upd ?_

theorem State.nulRename_keeps (s : State) (p : PM) :
    Keeps (foot [.col, .nul]) s (State.nulRename s p) := by
  unfold State.nulRename
  extract_lets a1 a2 a3
  try clear_value a1
  try clear_value a2
  have ha3 : Keeps (foot [.col, .nul]) s a3 := by
    unfold a3
    repeat' first
      | with_reducible assumption
      | with_reducible apply Keeps.refl
      | with_reducible apply Keeps.ite
      | (apply Keeps.step; with_reducible apply State.setColCh_keeps)
      | (with_reducible apply Keeps.forEach; intro _ _ _)
      | (with_reducible apply Keeps.foldl_fst; intro _ _ _)
      | (with_reducible apply Keeps.foldl_snd; intro _ _ _)
      | (with_reducible apply Keeps.foldl; intro _ _ _)
      | decide +kernel
      | exact sub_flt _ (by decide +kernel)
      | exact sub_eng _ (by decide +kernel)
      | exact sub_hk _ (by decide +kernel)
      | exact sub_port _ _ (by decide +kernel)
      | exact sub_win _ (by decide +kernel)
      | exact sub_any _ (by decide +kernel)
      | split
      | refine Keeps.upd ?_
  try clear_value a3
  repeat' first
    | with_reducible assumption
    | with_reducible apply Keeps.refl
    | with_reducible apply Keeps.ite
    | (apply Keeps.step; with_reducible apply State.setColCh_keeps)
    | (with_reducible apply Keeps.forEach; intro _ _ _)
    | (with_reducible apply Keeps.foldl_fst; intro _ _ _)
    | (with_reducible apply Keeps.foldl_snd; intro _ _ _)
    | (with_reducible apply Keeps.foldl; intro _ _ _)
    | decide +kernel
    | exact sub_flt _ (by decide +kernel)
    | exact sub_eng _ (by decide +kernel)
    | exact sub_hk _ (by decide +kernel)
    | exact sub_port _ _ (by decide +kernel)
    | exact sub_win _ (by decide +kernel)
    | exact sub_any _ (by decide +kernel)
    | split
    | refine Keeps.upd ?_

theorem State.statusAt70_keeps (s : State) :
    Keeps (foot [.reg COL_OVR_STATUS, .reg COL_OVR_LIVE, .reg NUL_SAT_STATUS, .reg NUL_UNCV_STATUS, .reg NUL_HOLD_STATUS, .col, .nul]) s (State.statusAt70 s) := by
  unfold State.statusAt70
  extract_lets a1 a2 a3 a4 a5 a6 a7 a8 a9 a10
  try clear_value a1
  try clear_value a2
  try clear_value a3
  try clear_value a4
  have ha5 : Keeps (foot [.reg COL_OVR_STATUS, .reg COL_OVR_LIVE, .reg NUL_SAT_STATUS, .reg NUL_UNCV_STATUS, .reg NUL_HOLD_STATUS, .col, .nul]) s a5 := by
    unfold a5
    repeat' first
      | with_reducible assumption
      | with_reducible apply Keeps.refl
      | with_reducible apply Keeps.ite
      | (apply Keeps.step; with_reducible apply State.setFld_keeps)
      | (apply Keeps.step; with_reducible apply State.setColCh_keeps)
      | (with_reducible apply Keeps.forEach; intro _ _ _)
      | (with_reducible apply Keeps.foldl_fst; intro _ _ _)
      | (with_reducible apply Keeps.foldl_snd; intro _ _ _)
      | (with_reducible apply Keeps.foldl; intro _ _ _)
      | decide +kernel
      | exact sub_flt _ (by decide +kernel)
      | exact sub_eng _ (by decide +kernel)
      | exact sub_hk _ (by decide +kernel)
      | exact sub_port _ _ (by decide +kernel)
      | exact sub_win _ (by decide +kernel)
      | exact sub_any _ (by decide +kernel)
      | split
      | refine Keeps.upd ?_
  try clear_value a5
  have ha6 : Keeps (foot [.reg COL_OVR_STATUS, .reg COL_OVR_LIVE, .reg NUL_SAT_STATUS, .reg NUL_UNCV_STATUS, .reg NUL_HOLD_STATUS, .col, .nul]) s a6 := by
    unfold a6
    repeat' first
      | with_reducible assumption
      | with_reducible apply Keeps.refl
      | with_reducible apply Keeps.ite
      | (apply Keeps.step; with_reducible apply State.setFld_keeps)
      | (apply Keeps.step; with_reducible apply State.setColCh_keeps)
      | (with_reducible apply Keeps.forEach; intro _ _ _)
      | (with_reducible apply Keeps.foldl_fst; intro _ _ _)
      | (with_reducible apply Keeps.foldl_snd; intro _ _ _)
      | (with_reducible apply Keeps.foldl; intro _ _ _)
      | decide +kernel
      | exact sub_flt _ (by decide +kernel)
      | exact sub_eng _ (by decide +kernel)
      | exact sub_hk _ (by decide +kernel)
      | exact sub_port _ _ (by decide +kernel)
      | exact sub_win _ (by decide +kernel)
      | exact sub_any _ (by decide +kernel)
      | split
      | refine Keeps.upd ?_
  try clear_value a6
  have ha7 : Keeps (foot [.reg COL_OVR_STATUS, .reg COL_OVR_LIVE, .reg NUL_SAT_STATUS, .reg NUL_UNCV_STATUS, .reg NUL_HOLD_STATUS, .col, .nul]) s a7 := by
    unfold a7
    repeat' first
      | with_reducible assumption
      | with_reducible apply Keeps.refl
      | with_reducible apply Keeps.ite
      | (apply Keeps.step; with_reducible apply State.setFld_keeps)
      | (apply Keeps.step; with_reducible apply State.setColCh_keeps)
      | (with_reducible apply Keeps.forEach; intro _ _ _)
      | (with_reducible apply Keeps.foldl_fst; intro _ _ _)
      | (with_reducible apply Keeps.foldl_snd; intro _ _ _)
      | (with_reducible apply Keeps.foldl; intro _ _ _)
      | decide +kernel
      | exact sub_flt _ (by decide +kernel)
      | exact sub_eng _ (by decide +kernel)
      | exact sub_hk _ (by decide +kernel)
      | exact sub_port _ _ (by decide +kernel)
      | exact sub_win _ (by decide +kernel)
      | exact sub_any _ (by decide +kernel)
      | split
      | refine Keeps.upd ?_
  try clear_value a7
  have ha8 : Keeps (foot [.reg COL_OVR_STATUS, .reg COL_OVR_LIVE, .reg NUL_SAT_STATUS, .reg NUL_UNCV_STATUS, .reg NUL_HOLD_STATUS, .col, .nul]) s a8 := by
    unfold a8
    repeat' first
      | with_reducible assumption
      | with_reducible apply Keeps.refl
      | with_reducible apply Keeps.ite
      | (apply Keeps.step; with_reducible apply State.setFld_keeps)
      | (apply Keeps.step; with_reducible apply State.setColCh_keeps)
      | (with_reducible apply Keeps.forEach; intro _ _ _)
      | (with_reducible apply Keeps.foldl_fst; intro _ _ _)
      | (with_reducible apply Keeps.foldl_snd; intro _ _ _)
      | (with_reducible apply Keeps.foldl; intro _ _ _)
      | decide +kernel
      | exact sub_flt _ (by decide +kernel)
      | exact sub_eng _ (by decide +kernel)
      | exact sub_hk _ (by decide +kernel)
      | exact sub_port _ _ (by decide +kernel)
      | exact sub_win _ (by decide +kernel)
      | exact sub_any _ (by decide +kernel)
      | split
      | refine Keeps.upd ?_
  try clear_value a8
  try clear_value a9
  try clear_value a10
  repeat' first
    | with_reducible assumption
    | with_reducible apply Keeps.refl
    | with_reducible apply Keeps.ite
    | (apply Keeps.step; with_reducible apply State.setFld_keeps)
    | (apply Keeps.step; with_reducible apply State.setColCh_keeps)
    | (with_reducible apply Keeps.forEach; intro _ _ _)
    | (with_reducible apply Keeps.foldl_fst; intro _ _ _)
    | (with_reducible apply Keeps.foldl_snd; intro _ _ _)
    | (with_reducible apply Keeps.foldl; intro _ _ _)
    | decide +kernel
    | exact sub_flt _ (by decide +kernel)
    | exact sub_eng _ (by decide +kernel)
    | exact sub_hk _ (by decide +kernel)
    | exact sub_port _ _ (by decide +kernel)
    | exact sub_win _ (by decide +kernel)
    | exact sub_any _ (by decide +kernel)
    | split
    | refine Keeps.upd ?_

theorem State.captureReq_keeps (s : State) (m : Master) (launched : Bool) :
    Keeps (foot [.reg GLB_DETERMINISM, .reg LNK_DEADLETTER_COUNT, .reg (ENG_STATUS 0x600), .reg NUL_PRIMER_CTRL, .reg (ENG_STATUS 0x1B00), .flt, .win .lnk, .recTick, .bar, .faults, .cou, .bru, .nul, .lnk, .free, .srcs]) s (State.captureReq s m launched) := by
  unfold State.captureReq
  extract_lets a1 a2
  try clear_value a1
  try clear_value a2
  repeat' first
    | with_reducible assumption
    | with_reducible apply Keeps.refl
    | with_reducible apply Keeps.ite
    | (apply Keeps.step; with_reducible apply State.raiseWith_keeps)
    | (apply Keeps.step; with_reducible apply State.setBit_keeps)
    | (apply Keeps.step; with_reducible apply State.param_keeps)
    | (with_reducible apply Keeps.forEach; intro _ _ _)
    | (with_reducible apply Keeps.foldl_fst; intro _ _ _)
    | (with_reducible apply Keeps.foldl_snd; intro _ _ _)
    | (with_reducible apply Keeps.foldl; intro _ _ _)
    | decide +kernel
    | exact sub_flt _ (by decide +kernel)
    | exact sub_eng _ (by decide +kernel)
    | exact sub_hk _ (by decide +kernel)
    | exact sub_port _ _ (by decide +kernel)
    | exact sub_win _ (by decide +kernel)
    | exact sub_any _ (by decide +kernel)
    | split
    | refine Keeps.upd ?_

theorem State.strokesHold_keeps (s : State) (d : Nat) :
    Keeps (foot [.nul]) s (State.strokesHold s d) := by
  unfold State.strokesHold
  extract_lets a1 a2 a3
  try clear_value a1
  try clear_value a2
  try clear_value a3
  repeat' first
    | with_reducible assumption
    | with_reducible apply Keeps.refl
    | with_reducible apply Keeps.ite
    | (with_reducible apply Keeps.forEach; intro _ _ _)
    | (with_reducible apply Keeps.foldl_fst; intro _ _ _)
    | (with_reducible apply Keeps.foldl_snd; intro _ _ _)
    | (with_reducible apply Keeps.foldl; intro _ _ _)
    | split
    | refine Keeps.upd ?_

theorem State.roverSheet_keeps (s : State) (g : Nat) :
    Keeps (foot [.col]) s (State.roverSheet s g) := by
  unfold State.roverSheet
  extract_lets a1 a2 a3 a4 a5 a6 a7 a8 a9 a10 a11 a12
  try clear_value a1
  try clear_value a3
  try clear_value a4
  try clear_value a5
  try clear_value a6
  try clear_value a7
  try clear_value a8
  try clear_value a9
  try clear_value a10
  try clear_value a11
  try clear_value a12
  repeat' first
    | with_reducible assumption
    | with_reducible apply Keeps.refl
    | (show _ ||| _ = _; unfold a2; split <;> decide +kernel)
    | with_reducible apply Keeps.ite
    | (apply Keeps.step; with_reducible apply State.setRover_keeps)
    | (with_reducible apply Keeps.forEach; intro _ _ _)
    | (with_reducible apply Keeps.foldl_fst; intro _ _ _)
    | (with_reducible apply Keeps.foldl_snd; intro _ _ _)
    | (with_reducible apply Keeps.foldl; intro _ _ _)
    | decide +kernel
    | exact sub_flt _ (by decide +kernel)
    | exact sub_eng _ (by decide +kernel)
    | exact sub_hk _ (by decide +kernel)
    | exact sub_port _ _ (by decide +kernel)
    | exact sub_win _ (by decide +kernel)
    | exact sub_any _ (by decide +kernel)
    | split

theorem State.rangeChange_keeps (s : State) (p : Nat) (n : Nat) (launched : Bool) :
    Keeps (foot [.reg GLB_DETERMINISM, .win .nul, .faults, .col, .nul]) s (State.rangeChange s p n launched) := by
  unfold State.rangeChange
  extract_lets a1 a2 a3 a4 a5 a6
  try clear_value a1
  try clear_value a2
  try clear_value a3
  have ha4 : Keeps (foot [.reg GLB_DETERMINISM, .win .nul, .faults, .col, .nul]) s a4 := by
    unfold a4
    repeat' first
      | with_reducible assumption
      | with_reducible apply Keeps.refl
      | with_reducible apply Keeps.ite
      | (apply Keeps.step; with_reducible apply State.setAmp_keeps)
      | (apply Keeps.step; with_reducible apply State.holdCol_keeps)
      | (apply Keeps.step; with_reducible apply State.param_keeps)
      | (with_reducible apply Keeps.forEach; intro _ _ _)
      | (with_reducible apply Keeps.foldl_fst; intro _ _ _)
      | (with_reducible apply Keeps.foldl_snd; intro _ _ _)
      | (with_reducible apply Keeps.foldl; intro _ _ _)
      | decide +kernel
      | exact sub_flt _ (by decide +kernel)
      | exact sub_eng _ (by decide +kernel)
      | exact sub_hk _ (by decide +kernel)
      | exact sub_port _ _ (by decide +kernel)
      | exact sub_win _ (by decide +kernel)
      | exact sub_any _ (by decide +kernel)
      | split
      | refine Keeps.upd ?_
  try clear_value a4
  try clear_value a5
  have ha6 : Keeps (foot [.reg GLB_DETERMINISM, .win .nul, .faults, .col, .nul]) s a6 := by
    unfold a6
    repeat' first
      | with_reducible assumption
      | with_reducible apply Keeps.refl
      | with_reducible apply Keeps.ite
      | (apply Keeps.step; with_reducible apply State.setAmp_keeps)
      | (apply Keeps.step; with_reducible apply State.holdCol_keeps)
      | (apply Keeps.step; with_reducible apply State.param_keeps)
      | (with_reducible apply Keeps.forEach; intro _ _ _)
      | (with_reducible apply Keeps.foldl_fst; intro _ _ _)
      | (with_reducible apply Keeps.foldl_snd; intro _ _ _)
      | (with_reducible apply Keeps.foldl; intro _ _ _)
      | decide +kernel
      | exact sub_flt _ (by decide +kernel)
      | exact sub_eng _ (by decide +kernel)
      | exact sub_hk _ (by decide +kernel)
      | exact sub_port _ _ (by decide +kernel)
      | exact sub_win _ (by decide +kernel)
      | exact sub_any _ (by decide +kernel)
      | split
      | refine Keeps.upd ?_
  try clear_value a6
  repeat' first
    | with_reducible assumption
    | with_reducible apply Keeps.refl
    | with_reducible apply Keeps.ite
    | (apply Keeps.step; with_reducible apply State.setAmp_keeps)
    | (apply Keeps.step; with_reducible apply State.holdCol_keeps)
    | (apply Keeps.step; with_reducible apply State.param_keeps)
    | (with_reducible apply Keeps.forEach; intro _ _ _)
    | (with_reducible apply Keeps.foldl_fst; intro _ _ _)
    | (with_reducible apply Keeps.foldl_snd; intro _ _ _)
    | (with_reducible apply Keeps.foldl; intro _ _ _)
    | decide +kernel
    | exact sub_flt _ (by decide +kernel)
    | exact sub_eng _ (by decide +kernel)
    | exact sub_hk _ (by decide +kernel)
    | exact sub_port _ _ (by decide +kernel)
    | exact sub_win _ (by decide +kernel)
    | exact sub_any _ (by decide +kernel)
    | split
    | refine Keeps.upd ?_

theorem State.gainWrite_keeps (s : State) (p : Nat) (g : Nat) (m : Master) (launched : Bool) :
    Keeps (foot [.reg GLB_DETERMINISM, .reg LNK_DEADLETTER_COUNT, .reg (ENG_STATUS 0x600), .reg NUL_LOOP_GAIN, .reg (ENG_STATUS 0x1B00), .flt, .win .lnk, .recTick, .bar, .faults, .cou, .bru, .nul, .lnk, .free, .srcs]) s (State.gainWrite s p g m launched) := by
  unfold State.gainWrite
  extract_lets a1
  try clear_value a1
  repeat' first
    | with_reducible assumption
    | with_reducible apply Keeps.refl
    | with_reducible apply Keeps.ite
    | (apply Keeps.step; with_reducible apply State.raiseWith_keeps)
    | (apply Keeps.step; with_reducible apply State.setBit_keeps)
    | (apply Keeps.step; with_reducible apply State.param_keeps)
    | (with_reducible apply Keeps.forEach; intro _ _ _)
    | (with_reducible apply Keeps.foldl_fst; intro _ _ _)
    | (with_reducible apply Keeps.foldl_snd; intro _ _ _)
    | (with_reducible apply Keeps.foldl; intro _ _ _)
    | decide +kernel
    | exact sub_flt _ (by decide +kernel)
    | exact sub_eng _ (by decide +kernel)
    | exact sub_hk _ (by decide +kernel)
    | exact sub_port _ _ (by decide +kernel)
    | exact sub_win _ (by decide +kernel)
    | exact sub_any _ (by decide +kernel)
    | split
    | refine Keeps.upd ?_

theorem State.captureRest_keeps (s : State) :
    Keeps (foot [.win .nul]) s (State.captureRest s) := by
  unfold State.captureRest
  repeat' first
    | with_reducible assumption
    | with_reducible apply Keeps.refl
    | with_reducible apply Keeps.ite
    | (apply Keeps.step; with_reducible apply State.captureWord_keeps)
    | (with_reducible apply Keeps.forEach; intro _ _ _)
    | (with_reducible apply Keeps.foldl_fst; intro _ _ _)
    | (with_reducible apply Keeps.foldl_snd; intro _ _ _)
    | (with_reducible apply Keeps.foldl; intro _ _ _)
    | decide +kernel
    | exact sub_flt _ (by decide +kernel)
    | exact sub_eng _ (by decide +kernel)
    | exact sub_hk _ (by decide +kernel)
    | exact sub_port _ _ (by decide +kernel)
    | exact sub_win _ (by decide +kernel)
    | exact sub_any _ (by decide +kernel)
    | split

theorem State.rollNul_keeps (s : State) :
    Keeps (foot [.reg GLB_DETERMINISM, .reg LNK_DEADLETTER_COUNT, .reg (ENG_STATUS 0x600), .reg NUL_DAC_RANGE, .reg (ENG_STATUS 0x1B00), .flt, .win .lnk, .recTick, .bar, .faults, .cou, .bru, .nul, .lnk, .free, .srcs]) s (State.rollNul s) := by
  unfold State.rollNul
  extract_lets a1 a2 a3 a4
  try clear_value a1
  try clear_value a2
  try clear_value a3
  have ha4 : Keeps (foot [.reg GLB_DETERMINISM, .reg LNK_DEADLETTER_COUNT, .reg (ENG_STATUS 0x600), .reg NUL_DAC_RANGE, .reg (ENG_STATUS 0x1B00), .flt, .win .lnk, .recTick, .bar, .faults, .cou, .bru, .nul, .lnk, .free, .srcs]) s a4 := by
    unfold a4
    repeat' first
      | with_reducible assumption
      | with_reducible apply Keeps.refl
      | with_reducible apply Keeps.ite
      | (apply Keeps.step; with_reducible apply State.raiseUnit_keeps)
      | (apply Keeps.step; with_reducible apply State.inc_keeps)
      | (with_reducible apply Keeps.forEach; intro _ _ _)
      | (with_reducible apply Keeps.foldl_fst; intro _ _ _)
      | (with_reducible apply Keeps.foldl_snd; intro _ _ _)
      | (with_reducible apply Keeps.foldl; intro _ _ _)
      | decide +kernel
      | exact sub_flt _ (by decide +kernel)
      | exact sub_eng _ (by decide +kernel)
      | exact sub_hk _ (by decide +kernel)
      | exact sub_port _ _ (by decide +kernel)
      | exact sub_win _ (by decide +kernel)
      | exact sub_any _ (by decide +kernel)
      | split
      | refine Keeps.upd ?_
  try clear_value a4
  repeat' first
    | with_reducible assumption
    | with_reducible apply Keeps.refl
    | with_reducible apply Keeps.ite
    | (apply Keeps.step; with_reducible apply State.raiseUnit_keeps)
    | (apply Keeps.step; with_reducible apply State.inc_keeps)
    | (with_reducible apply Keeps.forEach; intro _ _ _)
    | (with_reducible apply Keeps.foldl_fst; intro _ _ _)
    | (with_reducible apply Keeps.foldl_snd; intro _ _ _)
    | (with_reducible apply Keeps.foldl; intro _ _ _)
    | decide +kernel
    | exact sub_flt _ (by decide +kernel)
    | exact sub_eng _ (by decide +kernel)
    | exact sub_hk _ (by decide +kernel)
    | exact sub_port _ _ (by decide +kernel)
    | exact sub_win _ (by decide +kernel)
    | exact sub_any _ (by decide +kernel)
    | split
    | refine Keeps.upd ?_

theorem State.strokeUpdate_keeps (s : State) (f : Nat) (y : List Int) (comp : BitVec 64) :
    Keeps (foot [.reg GLB_DETERMINISM, .reg LNK_DEADLETTER_COUNT, .reg (ENG_STATUS 0x600), .reg NUL_DAC_RANGE, .reg (ENG_STATUS 0x1B00), .flt, .win .lnk, .win .nul, .recTick, .bar, .faults, .cou, .bru, .col, .nul, .lnk, .free, .srcs]) s (State.strokeUpdate s f y comp) := by
  unfold State.strokeUpdate
  extract_lets a1 a2 a3 a4 a5 a6 a7 a8 a9 a10
  try clear_value a1
  try clear_value a2
  try clear_value a3
  try clear_value a4
  have ha5 : Keeps (foot [.reg GLB_DETERMINISM, .reg LNK_DEADLETTER_COUNT, .reg (ENG_STATUS 0x600), .reg NUL_DAC_RANGE, .reg (ENG_STATUS 0x1B00), .flt, .win .lnk, .win .nul, .recTick, .bar, .faults, .cou, .bru, .col, .nul, .lnk, .free, .srcs]) s a5 := by
    unfold a5
    repeat' first
      | with_reducible assumption
      | with_reducible apply Keeps.refl
      | with_reducible apply Keeps.ite
      | (apply Keeps.step; with_reducible apply State.setFe_keeps)
      | (apply Keeps.step; with_reducible apply State.openStroke_keeps)
      | (apply Keeps.step; with_reducible apply State.columnStroke_keeps)
      | (apply Keeps.step; with_reducible apply State.roverSheet_keeps)
      | (with_reducible apply Keeps.forEach; intro _ _ _)
      | (with_reducible apply Keeps.foldl_fst; intro _ _ _)
      | (with_reducible apply Keeps.foldl_snd; intro _ _ _)
      | (with_reducible apply Keeps.foldl; intro _ _ _)
      | decide +kernel
      | exact sub_flt _ (by decide +kernel)
      | exact sub_eng _ (by decide +kernel)
      | exact sub_hk _ (by decide +kernel)
      | exact sub_port _ _ (by decide +kernel)
      | exact sub_win _ (by decide +kernel)
      | exact sub_any _ (by decide +kernel)
      | split
      | refine Keeps.upd ?_
  try clear_value a5
  try clear_value a6
  try clear_value a7
  try clear_value a8
  try clear_value a9
  have ha10 : Keeps (foot [.reg GLB_DETERMINISM, .reg LNK_DEADLETTER_COUNT, .reg (ENG_STATUS 0x600), .reg NUL_DAC_RANGE, .reg (ENG_STATUS 0x1B00), .flt, .win .lnk, .win .nul, .recTick, .bar, .faults, .cou, .bru, .col, .nul, .lnk, .free, .srcs]) s a10 := by
    unfold a10
    repeat' first
      | with_reducible assumption
      | with_reducible apply Keeps.refl
      | with_reducible apply Keeps.ite
      | (apply Keeps.step; with_reducible apply State.setFe_keeps)
      | (apply Keeps.step; with_reducible apply State.openStroke_keeps)
      | (apply Keeps.step; with_reducible apply State.columnStroke_keeps)
      | (apply Keeps.step; with_reducible apply State.roverSheet_keeps)
      | (with_reducible apply Keeps.forEach; intro _ _ _)
      | (with_reducible apply Keeps.foldl_fst; intro _ _ _)
      | (with_reducible apply Keeps.foldl_snd; intro _ _ _)
      | (with_reducible apply Keeps.foldl; intro _ _ _)
      | decide +kernel
      | exact sub_flt _ (by decide +kernel)
      | exact sub_eng _ (by decide +kernel)
      | exact sub_hk _ (by decide +kernel)
      | exact sub_port _ _ (by decide +kernel)
      | exact sub_win _ (by decide +kernel)
      | exact sub_any _ (by decide +kernel)
      | split
      | refine Keeps.upd ?_
  try clear_value a10
  repeat' first
    | with_reducible assumption
    | with_reducible apply Keeps.refl
    | with_reducible apply Keeps.ite
    | (apply Keeps.step; with_reducible apply State.setFe_keeps)
    | (apply Keeps.step; with_reducible apply State.openStroke_keeps)
    | (apply Keeps.step; with_reducible apply State.columnStroke_keeps)
    | (apply Keeps.step; with_reducible apply State.roverSheet_keeps)
    | (with_reducible apply Keeps.forEach; intro _ _ _)
    | (with_reducible apply Keeps.foldl_fst; intro _ _ _)
    | (with_reducible apply Keeps.foldl_snd; intro _ _ _)
    | (with_reducible apply Keeps.foldl; intro _ _ _)
    | decide +kernel
    | exact sub_flt _ (by decide +kernel)
    | exact sub_eng _ (by decide +kernel)
    | exact sub_hk _ (by decide +kernel)
    | exact sub_port _ _ (by decide +kernel)
    | exact sub_win _ (by decide +kernel)
    | exact sub_any _ (by decide +kernel)
    | split
    | refine Keeps.upd ?_

theorem State.loopStart_keeps (s : State) :
    Keeps (foot [.reg NUL_PRIMER_CTRL, .win .nul, .col, .nul]) s (State.loopStart s) := by
  unfold State.loopStart
  extract_lets a1 a2 a3
  have ha1 : Keeps (foot [.reg NUL_PRIMER_CTRL, .win .nul, .col, .nul]) s a1 := by
    unfold a1
    repeat' first
      | with_reducible assumption
      | with_reducible apply Keeps.refl
      | with_reducible apply Keeps.ite
      | (apply Keeps.step; with_reducible apply State.setConv_keeps)
      | (apply Keeps.step; with_reducible apply State.setAmp_keeps)
      | (apply Keeps.step; with_reducible apply State.setColCh_keeps)
      | (apply Keeps.step; with_reducible apply State.inc_keeps)
      | (with_reducible apply Keeps.forEach; intro _ _ _)
      | (with_reducible apply Keeps.foldl_fst; intro _ _ _)
      | (with_reducible apply Keeps.foldl_snd; intro _ _ _)
      | (with_reducible apply Keeps.foldl; intro _ _ _)
      | decide +kernel
      | exact sub_flt _ (by decide +kernel)
      | exact sub_eng _ (by decide +kernel)
      | exact sub_hk _ (by decide +kernel)
      | exact sub_port _ _ (by decide +kernel)
      | exact sub_win _ (by decide +kernel)
      | exact sub_any _ (by decide +kernel)
      | split
      | refine Keeps.upd ?_
  try clear_value a1
  have ha2 : Keeps (foot [.reg NUL_PRIMER_CTRL, .win .nul, .col, .nul]) s a2 := by
    unfold a2
    repeat' first
      | with_reducible assumption
      | with_reducible apply Keeps.refl
      | with_reducible apply Keeps.ite
      | (apply Keeps.step; with_reducible apply State.setConv_keeps)
      | (apply Keeps.step; with_reducible apply State.setAmp_keeps)
      | (apply Keeps.step; with_reducible apply State.setColCh_keeps)
      | (apply Keeps.step; with_reducible apply State.inc_keeps)
      | (with_reducible apply Keeps.forEach; intro _ _ _)
      | (with_reducible apply Keeps.foldl_fst; intro _ _ _)
      | (with_reducible apply Keeps.foldl_snd; intro _ _ _)
      | (with_reducible apply Keeps.foldl; intro _ _ _)
      | decide +kernel
      | exact sub_flt _ (by decide +kernel)
      | exact sub_eng _ (by decide +kernel)
      | exact sub_hk _ (by decide +kernel)
      | exact sub_port _ _ (by decide +kernel)
      | exact sub_win _ (by decide +kernel)
      | exact sub_any _ (by decide +kernel)
      | split
      | refine Keeps.upd ?_
  try clear_value a2
  try clear_value a3
  repeat' first
    | with_reducible assumption
    | with_reducible apply Keeps.refl
    | with_reducible apply Keeps.ite
    | (apply Keeps.step; with_reducible apply State.setConv_keeps)
    | (apply Keeps.step; with_reducible apply State.setAmp_keeps)
    | (apply Keeps.step; with_reducible apply State.setColCh_keeps)
    | (apply Keeps.step; with_reducible apply State.inc_keeps)
    | (with_reducible apply Keeps.forEach; intro _ _ _)
    | (with_reducible apply Keeps.foldl_fst; intro _ _ _)
    | (with_reducible apply Keeps.foldl_snd; intro _ _ _)
    | (with_reducible apply Keeps.foldl; intro _ _ _)
    | decide +kernel
    | exact sub_flt _ (by decide +kernel)
    | exact sub_eng _ (by decide +kernel)
    | exact sub_hk _ (by decide +kernel)
    | exact sub_port _ _ (by decide +kernel)
    | exact sub_win _ (by decide +kernel)
    | exact sub_any _ (by decide +kernel)
    | split
    | refine Keeps.upd ?_

theorem State.nulWordError_keeps (s : State) (a : Nat) :
    Keeps (foot [.reg GLB_DETERMINISM, .reg LNK_DEADLETTER_COUNT, .reg (ENG_STATUS 0x600), .reg (ENG_STATUS 0x1B00), .flt, .win .lnk, .recTick, .bar, .faults, .cou, .bru, .nul, .lnk, .free, .srcs]) s (State.nulWordError s a) := by
  unfold State.nulWordError
  extract_lets a1 a2 a3 a4
  try clear_value a1
  try clear_value a2
  have ha3 : Keeps (foot [.reg GLB_DETERMINISM, .reg LNK_DEADLETTER_COUNT, .reg (ENG_STATUS 0x600), .reg (ENG_STATUS 0x1B00), .flt, .win .lnk, .recTick, .bar, .faults, .cou, .bru, .nul, .lnk, .free, .srcs]) s a3 := by
    unfold a3
    repeat' first
      | with_reducible assumption
      | with_reducible apply Keeps.refl
      | with_reducible apply Keeps.ite
      | (apply Keeps.step; with_reducible apply State.raiseWith_keeps)
      | (with_reducible apply Keeps.forEach; intro _ _ _)
      | (with_reducible apply Keeps.foldl_fst; intro _ _ _)
      | (with_reducible apply Keeps.foldl_snd; intro _ _ _)
      | (with_reducible apply Keeps.foldl; intro _ _ _)
      | decide +kernel
      | exact sub_flt _ (by decide +kernel)
      | exact sub_eng _ (by decide +kernel)
      | exact sub_hk _ (by decide +kernel)
      | exact sub_port _ _ (by decide +kernel)
      | exact sub_win _ (by decide +kernel)
      | exact sub_any _ (by decide +kernel)
      | split
      | refine Keeps.upd ?_
  try clear_value a3
  try clear_value a4
  repeat' first
    | with_reducible assumption
    | with_reducible apply Keeps.refl
    | with_reducible apply Keeps.ite
    | (apply Keeps.step; with_reducible apply State.raiseWith_keeps)
    | (with_reducible apply Keeps.forEach; intro _ _ _)
    | (with_reducible apply Keeps.foldl_fst; intro _ _ _)
    | (with_reducible apply Keeps.foldl_snd; intro _ _ _)
    | (with_reducible apply Keeps.foldl; intro _ _ _)
    | decide +kernel
    | exact sub_flt _ (by decide +kernel)
    | exact sub_eng _ (by decide +kernel)
    | exact sub_hk _ (by decide +kernel)
    | exact sub_port _ _ (by decide +kernel)
    | exact sub_win _ (by decide +kernel)
    | exact sub_any _ (by decide +kernel)
    | split
    | refine Keeps.upd ?_

end Sys2Proof.Machine
end

