-- ==== Sys2Proof/Laws/KeepsVarnish.lean ====
section
/-!
SUPPORT. Footprints of the operations of Machine/Varnish.lean: which parts of a state each can change.
-/
set_option Elab.async false
set_option linter.unusedTactic false
set_option linter.unreachableTactic false
namespace Sys2Proof.Machine


theorem State.latchSource_keeps (s : State) (b : PM) (i : Nat) :
    Keeps (foot [.win .var, .var]) s (State.latchSource s b i) := by
  unfold State.latchSource
  extract_lets a1 a2
  try clear_value a1
  try clear_value a2
  repeat' first
    | with_reducible assumption
    | with_reducible apply Keeps.refl
    | with_reducible apply Keeps.ite
    | (apply Keeps.step; with_reducible apply State.setWinN_keeps)
    | (apply Keeps.step; with_reducible apply State.setWin_keeps)
    | (with_reducible apply Keeps.forEach; intro _ _ _)
    | (with_reducible apply Keeps.foldl_fst; intro _ _ _)
    | (with_reducible apply Keeps.foldl_snd; intro _ _ _)
    | (with_reducible apply Keeps.foldl; intro _ _ _)
    | decide +kernel
    | exact sub_flt _ (by decide +kernel)
    | exact sub_eng _ (by decide +kernel)
    | exact sub_hk _ (by decide +kernel)
    | exact sub_port _ _ (by decide +kernel)
    | exact sub_win _ (by decide +kernel)
    | exact sub_any _ (by decide +kernel)
    | split
    | refine Keeps.upd ?_

theorem State.cadenceLatch_keeps (s : State) :
    Keeps (foot [.reg VAR_T_STATUS, .win .var, .var]) s (State.cadenceLatch s) := by
  unfold State.cadenceLatch
  extract_lets a1
  try clear_value a1
  repeat' first
    | with_reducible assumption
    | with_reducible apply Keeps.refl
    | with_reducible apply Keeps.ite
    | (apply Keeps.step; with_reducible apply State.inc_keeps)
    | (apply Keeps.step; with_reducible apply State.latchSource_keeps)
    | (with_reducible apply Keeps.forEach; intro _ _ _)
    | (with_reducible apply Keeps.foldl_fst; intro _ _ _)
    | (with_reducible apply Keeps.foldl_snd; intro _ _ _)
    | (with_reducible apply Keeps.foldl; intro _ _ _)
    | decide +kernel
    | exact sub_flt _ (by decide +kernel)
    | exact sub_eng _ (by decide +kernel)
    | exact sub_hk _ (by decide +kernel)
    | exact sub_port _ _ (by decide +kernel)
    | exact sub_win _ (by decide +kernel)
    | exact sub_any _ (by decide +kernel)
    | split

theorem State.dropCopy_keeps (s : State) (i : Nat) (k : Nat) :
    Keeps (foot [.var]) s (State.dropCopy s i k) := by
  unfold State.dropCopy
  extract_lets a1
  try clear_value a1
  repeat' first
    | with_reducible assumption
    | with_reducible apply Keeps.refl
    | with_reducible apply Keeps.ite
    | (with_reducible apply Keeps.forEach; intro _ _ _)
    | (with_reducible apply Keeps.foldl_fst; intro _ _ _)
    | (with_reducible apply Keeps.foldl_snd; intro _ _ _)
    | (with_reducible apply Keeps.foldl; intro _ _ _)
    | split
    | refine Keeps.upd ?_

theorem State.varBankWrite_keeps (s : State) (a : Nat) (v : W24) (m : Master) :
    Keeps (foot [.reg GLB_DETERMINISM, .reg LNK_DEADLETTER_COUNT, .reg (ENG_STATUS 0x600), .reg VAR_CTRL, .reg (ENG_STATUS 0x1B00), .flt, .win .lnk, .win .var, .recTick, .bar, .faults, .cou, .bru, .var, .lnk, .free, .srcs]) s (State.varBankWrite s a v m) := by
  unfold State.varBankWrite
  extract_lets a1 a2 a3
  try clear_value a1
  have ha2 : Keeps (foot [.reg GLB_DETERMINISM, .reg LNK_DEADLETTER_COUNT, .reg (ENG_STATUS 0x600), .reg VAR_CTRL, .reg (ENG_STATUS 0x1B00), .flt, .win .lnk, .win .var, .recTick, .bar, .faults, .cou, .bru, .var, .lnk, .free, .srcs]) s a2 := by
    unfold a2
    repeat' first
      | with_reducible assumption
      | with_reducible apply Keeps.refl
      | with_reducible apply Keeps.ite
      | (apply Keeps.step; with_reducible apply State.raiseWith_keeps)
      | (apply Keeps.step; with_reducible apply State.setBit_keeps)
      | (apply Keeps.step; with_reducible apply State.setWinN_keeps)
      | (with_reducible apply Keeps.forEach; intro _ _ _)
      | (with_reducible apply Keeps.foldl_fst; intro _ _ _)
      | (with_reducible apply Keeps.foldl_snd; intro _ _ _)
      | (with_reducible apply Keeps.foldl; intro _ _ _)
      | decide +kernel
      | exact sub_flt _ (by decide +kernel)
      | exact sub_eng _ (by decide +kernel)
      | exact sub_hk _ (by decide +kernel)
      | exact sub_port _ _ (by decide +kernel)
      | exact sub_win _ (by decide +kernel)
      | exact sub_any _ (by decide +kernel)
      | split
      | refine Keeps.upd ?_
  try clear_value a2
  try clear_value a3
  repeat' first
    | with_reducible assumption
    | with_reducible apply Keeps.refl
    | with_reducible apply Keeps.ite
    | (apply Keeps.step; with_reducible apply State.raiseWith_keeps)
    | (apply Keeps.step; with_reducible apply State.setBit_keeps)
    | (apply Keeps.step; with_reducible apply State.setWinN_keeps)
    | (with_reducible apply Keeps.forEach; intro _ _ _)
    | (with_reducible apply Keeps.foldl_fst; intro _ _ _)
    | (with_reducible apply Keeps.foldl_snd; intro _ _ _)
    | (with_reducible apply Keeps.foldl; intro _ _ _)
    | decide +kernel
    | exact sub_flt _ (by decide +kernel)
    | exact sub_eng _ (by decide +kernel)
    | exact sub_hk _ (by decide +kernel)
    | exact sub_port _ _ (by decide +kernel)
    | exact sub_win _ (by decide +kernel)
    | exact sub_any _ (by decide +kernel)
    | split
    | refine Keeps.upd ?_

theorem State.varMove_keeps (s : State) (src : Nat) (dst : Nat) :
    Keeps (foot [.win .var, .var]) s (State.varMove s src dst) := by
  unfold State.varMove
  extract_lets a1 a2 a3
  have ha1 : Keeps (foot [.win .var, .var]) s a1 := by
    unfold a1
    repeat' first
      | with_reducible assumption
      | with_reducible apply Keeps.refl
      | with_reducible apply Keeps.ite
      | (apply Keeps.step; with_reducible apply State.setWin_keeps)
      | (with_reducible apply Keeps.forEach; intro _ _ _)
      | (with_reducible apply Keeps.foldl_fst; intro _ _ _)
      | (with_reducible apply Keeps.foldl_snd; intro _ _ _)
      | (with_reducible apply Keeps.foldl; intro _ _ _)
      | decide +kernel
      | exact sub_flt _ (by decide +kernel)
      | exact sub_eng _ (by decide +kernel)
      | exact sub_hk _ (by decide +kernel)
      | exact sub_port _ _ (by decide +kernel)
      | exact sub_win _ (by decide +kernel)
      | exact sub_any _ (by decide +kernel)
      | split
      | refine Keeps.upd ?_
  try clear_value a1
  try clear_value a2
  try clear_value a3
  repeat' first
    | with_reducible assumption
    | with_reducible apply Keeps.refl
    | with_reducible apply Keeps.ite
    | (apply Keeps.step; with_reducible apply State.setWin_keeps)
    | (with_reducible apply Keeps.forEach; intro _ _ _)
    | (with_reducible apply Keeps.foldl_fst; intro _ _ _)
    | (with_reducible apply Keeps.foldl_snd; intro _ _ _)
    | (with_reducible apply Keeps.foldl; intro _ _ _)
    | decide +kernel
    | exact sub_flt _ (by decide +kernel)
    | exact sub_eng _ (by decide +kernel)
    | exact sub_hk _ (by decide +kernel)
    | exact sub_port _ _ (by decide +kernel)
    | exact sub_win _ (by decide +kernel)
    | exact sub_any _ (by decide +kernel)
    | split
    | refine Keeps.upd ?_

theorem State.varSwap_keeps (s : State) (m : Master) (launched : Bool) :
    Keeps (foot [.reg GLB_DETERMINISM, .reg LNK_DEADLETTER_COUNT, .reg (ENG_STATUS 0x600), .reg VAR_CTRL, .reg (ENG_STATUS 0x1B00), .flt, .win .lnk, .recTick, .bar, .faults, .cou, .bru, .lnk, .free, .srcs]) s (State.varSwap s m launched) := by
  unfold State.varSwap
  repeat' first
    | with_reducible assumption
    | with_reducible apply Keeps.refl
    | with_reducible apply Keeps.ite
    | (apply Keeps.step; with_reducible apply State.raiseWith_keeps)
    | (apply Keeps.step; with_reducible apply State.setBit_keeps)
    | (apply Keeps.step; with_reducible apply State.param_keeps)
    | (with_reducible apply Keeps.forEach; intro _ _ _)
    | (with_reducible apply Keeps.foldl_fst; intro _ _ _)
    | (with_reducible apply Keeps.foldl_snd; intro _ _ _)
    | (with_reducible apply Keeps.foldl; intro _ _ _)
    | decide +kernel
    | exact sub_flt _ (by decide +kernel)
    | exact sub_eng _ (by decide +kernel)
    | exact sub_hk _ (by decide +kernel)
    | exact sub_port _ _ (by decide +kernel)
    | exact sub_win _ (by decide +kernel)
    | exact sub_any _ (by decide +kernel)
    | split

theorem State.varCopy_keeps (s : State) (m : Master) :
    Keeps (foot [.reg GLB_DETERMINISM, .reg LNK_DEADLETTER_COUNT, .reg (ENG_STATUS 0x600), .reg VAR_CTRL, .reg (ENG_STATUS 0x1B00), .flt, .win .lnk, .recTick, .timers, .bar, .faults, .cou, .bru, .var, .lnk, .free, .srcs]) s (State.varCopy s m) := by
  unfold State.varCopy
  extract_lets a1 a2
  have ha1 : Keeps (foot [.reg GLB_DETERMINISM, .reg LNK_DEADLETTER_COUNT, .reg (ENG_STATUS 0x600), .reg VAR_CTRL, .reg (ENG_STATUS 0x1B00), .flt, .win .lnk, .recTick, .timers, .bar, .faults, .cou, .bru, .var, .lnk, .free, .srcs]) s a1 := by
    unfold a1
    repeat' first
      | with_reducible assumption
      | with_reducible apply Keeps.refl
      | with_reducible apply Keeps.ite
      | (apply Keeps.step; with_reducible apply State.raiseWith_keeps)
      | (apply Keeps.step; with_reducible apply State.setBit_keeps)
      | (apply Keeps.step; with_reducible apply State.after_keeps)
      | (with_reducible apply Keeps.forEach; intro _ _ _)
      | (with_reducible apply Keeps.foldl_fst; intro _ _ _)
      | (with_reducible apply Keeps.foldl_snd; intro _ _ _)
      | (with_reducible apply Keeps.foldl; intro _ _ _)
      | decide +kernel
      | exact sub_flt _ (by decide +kernel)
      | exact sub_eng _ (by decide +kernel)
      | exact sub_hk _ (by decide +kernel)
      | exact sub_port _ _ (by decide +kernel)
      | exact sub_win _ (by decide +kernel)
      | exact sub_any _ (by decide +kernel)
      | split
      | refine Keeps.upd ?_
  try clear_value a1
  try clear_value a2
  repeat' first
    | with_reducible assumption
    | with_reducible apply Keeps.refl
    | with_reducible apply Keeps.ite
    | (apply Keeps.step; with_reducible apply State.raiseWith_keeps)
    | (apply Keeps.step; with_reducible apply State.setBit_keeps)
    | (apply Keeps.step; with_reducible apply State.after_keeps)
    | (with_reducible apply Keeps.forEach; intro _ _ _)
    | (with_reducible apply Keeps.foldl_fst; intro _ _ _)
    | (with_reducible apply Keeps.foldl_snd; intro _ _ _)
    | (with_reducible apply Keeps.foldl; intro _ _ _)
    | decide +kernel
    | exact sub_flt _ (by decide +kernel)
    | exact sub_eng _ (by decide +kernel)
    | exact sub_hk _ (by decide +kernel)
    | exact sub_port _ _ (by decide +kernel)
    | exact sub_win _ (by decide +kernel)
    | exact sub_any _ (by decide +kernel)
    | split
    | refine Keeps.upd ?_

theorem State.varWordError_keeps (s : State) (a : Nat) :
    Keeps (foot [.reg GLB_DETERMINISM, .reg LNK_DEADLETTER_COUNT, .reg (ENG_STATUS 0x600), .reg (ENG_STATUS 0x1B00), .flt, .win .lnk, .recTick, .bar, .faults, .cou, .bru, .var, .lnk, .free, .srcs]) s (State.varWordError s a) := by
  unfold State.varWordError
  extract_lets a1 a2 a3 a4
  try clear_value a1
  try clear_value a2
  have ha3 : Keeps (foot [.reg GLB_DETERMINISM, .reg LNK_DEADLETTER_COUNT, .reg (ENG_STATUS 0x600), .reg (ENG_STATUS 0x1B00), .flt, .win .lnk, .recTick, .bar, .faults, .cou, .bru, .var, .lnk, .free, .srcs]) s a3 := by
    unfold a3
    repeat' first
      | with_reducible assumption
      | with_reducible apply Keeps.refl
      | with_reducible apply Keeps.ite
      | (apply Keeps.step; with_reducible apply State.raiseWith_keeps)
      | (apply Keeps.step; with_reducible apply State.dropCopy_keeps)
      | (with_reducible apply Keeps.forEach; intro _ _ _)
      | (with_reducible apply Keeps.foldl_fst; intro _ _ _)
      | (with_reducible apply Keeps.foldl_snd; intro _ _ _)
      | (with_reducible apply Keeps.foldl; intro _ _ _)
      | decide +kernel
      | exact sub_flt _ (by decide +kernel)
      | exact sub_eng _ (by decide +kernel)
      | exact sub_hk _ (by decide +kernel)
      | exact sub_port _ _ (by decide +kernel)
      | exact sub_win _ (by decide +kernel)
      | exact sub_any _ (by decide +kernel)
      | split
      | refine Keeps.upd ?_
  try clear_value a3
  try clear_value a4
  repeat' first
    | with_reducible assumption
    | with_reducible apply Keeps.refl
    | with_reducible apply Keeps.ite
    | (apply Keeps.step; with_reducible apply State.raiseWith_keeps)
    | (apply Keeps.step; with_reducible apply State.dropCopy_keeps)
    | (with_reducible apply Keeps.forEach; intro _ _ _)
    | (with_reducible apply Keeps.foldl_fst; intro _ _ _)
    | (with_reducible apply Keeps.foldl_snd; intro _ _ _)
    | (with_reducible apply Keeps.foldl; intro _ _ _)
    | decide +kernel
    | exact sub_flt _ (by decide +kernel)
    | exact sub_eng _ (by decide +kernel)
    | exact sub_hk _ (by decide +kernel)
    | exact sub_port _ _ (by decide +kernel)
    | exact sub_win _ (by decide +kernel)
    | exact sub_any _ (by decide +kernel)
    | split
    | refine Keeps.upd ?_

theorem State.handover_keeps (s : State) (i : Nat) (code : W24) (stamp : PM) (status : BitVec 3) :
    Keeps (foot [.reg GLB_DETERMINISM, .reg LNK_DEADLETTER_COUNT, .reg (ENG_STATUS 0x600), .reg VAR_T_STATUS, .reg (ENG_STATUS 0x1B00), .flt, .win .lnk, .recTick, .bar, .faults, .cou, .bru, .var, .lnk, .free, .srcs]) s (State.handover s i code stamp status) := by
  unfold State.handover
  extract_lets a1
  try clear_value a1
  repeat' first
    | with_reducible assumption
    | with_reducible apply Keeps.refl
    | with_reducible apply Keeps.ite
    | (apply Keeps.step; with_reducible apply State.raise_keeps)
    | (apply Keeps.step; with_reducible apply State.setBit_keeps)
    | (apply Keeps.step; with_reducible apply State.inc_keeps)
    | (with_reducible apply Keeps.forEach; intro _ _ _)
    | (with_reducible apply Keeps.foldl_fst; intro _ _ _)
    | (with_reducible apply Keeps.foldl_snd; intro _ _ _)
    | (with_reducible apply Keeps.foldl; intro _ _ _)
    | decide +kernel
    | exact sub_flt _ (by decide +kernel)
    | exact sub_eng _ (by decide +kernel)
    | exact sub_hk _ (by decide +kernel)
    | exact sub_port _ _ (by decide +kernel)
    | exact sub_win _ (by decide +kernel)
    | exact sub_any _ (by decide +kernel)
    | split
    | refine Keeps.upd ?_

theorem State.varCopyEnd_keeps (s : State) :
    Keeps (foot [.reg VAR_CTRL, .win .var, .var]) s (State.varCopyEnd s) := by
  unfold State.varCopyEnd
  extract_lets a1 a2
  have ha1 : Keeps (foot [.reg VAR_CTRL, .win .var, .var]) s a1 := by
    unfold a1
    repeat' first
      | with_reducible assumption
      | with_reducible apply Keeps.refl
      | with_reducible apply Keeps.ite
      | (apply Keeps.step; with_reducible apply State.varMoveBank_keeps)
      | (apply Keeps.step; with_reducible apply State.setBit_keeps)
      | (with_reducible apply Keeps.forEach; intro _ _ _)
      | (with_reducible apply Keeps.foldl_fst; intro _ _ _)
      | (with_reducible apply Keeps.foldl_snd; intro _ _ _)
      | (with_reducible apply Keeps.foldl; intro _ _ _)
      | decide +kernel
      | exact sub_flt _ (by decide +kernel)
      | exact sub_eng _ (by decide +kernel)
      | exact sub_hk _ (by decide +kernel)
      | exact sub_port _ _ (by decide +kernel)
      | exact sub_win _ (by decide +kernel)
      | exact sub_any _ (by decide +kernel)
      | split
      | refine Keeps.upd ?_
  try clear_value a1
  try clear_value a2
  repeat' first
    | with_reducible assumption
    | with_reducible apply Keeps.refl
    | with_reducible apply Keeps.ite
    | (apply Keeps.step; with_reducible apply State.varMoveBank_keeps)
    | (apply Keeps.step; with_reducible apply State.setBit_keeps)
    | (with_reducible apply Keeps.forEach; intro _ _ _)
    | (with_reducible apply Keeps.foldl_fst; intro _ _ _)
    | (with_reducible apply Keeps.foldl_snd; intro _ _ _)
    | (with_reducible apply Keeps.foldl; intro _ _ _)
    | decide +kernel
    | exact sub_flt _ (by decide +kernel)
    | exact sub_eng _ (by decide +kernel)
    | exact sub_hk _ (by decide +kernel)
    | exact sub_port _ _ (by decide +kernel)
    | exact sub_win _ (by decide +kernel)
    | exact sub_any _ (by decide +kernel)
    | split
    | refine Keeps.upd ?_

theorem State.tmapWrite_keeps (s : State) (c : Nat) (v : W24) (launched : Bool) :
    Keeps (foot [.reg GLB_DETERMINISM, .win .var, .faults, .var]) s (State.tmapWrite s c v launched) := by
  unfold State.tmapWrite
  extract_lets a1 a2 a3 a4 a5
  try clear_value a1
  try clear_value a2
  try clear_value a3
  have ha4 : Keeps (foot [.reg GLB_DETERMINISM, .win .var, .faults, .var]) s a4 := by
    unfold a4
    repeat' first
      | with_reducible assumption
      | with_reducible apply Keeps.refl
      | with_reducible apply Keeps.ite
      | (apply Keeps.step; with_reducible apply State.setWinN_keeps)
      | (apply Keeps.step; with_reducible apply State.param_keeps)
      | (with_reducible apply Keeps.forEach; intro _ _ _)
      | (with_reducible apply Keeps.foldl_fst; intro _ _ _)
      | (with_reducible apply Keeps.foldl_snd; intro _ _ _)
      | (with_reducible apply Keeps.foldl; intro _ _ _)
      | decide +kernel
      | exact sub_flt _ (by decide +kernel)
      | exact sub_eng _ (by decide +kernel)
      | exact sub_hk _ (by decide +kernel)
      | exact sub_port _ _ (by decide +kernel)
      | exact sub_win _ (by decide +kernel)
      | exact sub_any _ (by decide +kernel)
      | split
      | refine Keeps.upd ?_
  try clear_value a4
  try clear_value a5
  repeat' first
    | with_reducible assumption
    | with_reducible apply Keeps.refl
    | with_reducible apply Keeps.ite
    | (apply Keeps.step; with_reducible apply State.setWinN_keeps)
    | (apply Keeps.step; with_reducible apply State.param_keeps)
    | (with_reducible apply Keeps.forEach; intro _ _ _)
    | (with_reducible apply Keeps.foldl_fst; intro _ _ _)
    | (with_reducible apply Keeps.foldl_snd; intro _ _ _)
    | (with_reducible apply Keeps.foldl; intro _ _ _)
    | decide +kernel
    | exact sub_flt _ (by decide +kernel)
    | exact sub_eng _ (by decide +kernel)
    | exact sub_hk _ (by decide +kernel)
    | exact sub_port _ _ (by decide +kernel)
    | exact sub_win _ (by decide +kernel)
    | exact sub_any _ (by decide +kernel)
    | split
    | refine Keeps.upd ?_

theorem State.varDefault_keeps (s : State) :
    Keeps (foot [.win .var, .var]) s (State.varDefault s) := by
  unfold State.varDefault
  extract_lets a1 a2
  have ha1 : Keeps (foot [.win .var, .var]) s a1 := by
    unfold a1
    repeat' first
      | with_reducible assumption
      | with_reducible apply Keeps.refl
      | with_reducible apply Keeps.ite
      | (apply Keeps.step; with_reducible apply State.setWin_keeps)
      | (with_reducible apply Keeps.forEach; intro _ _ _)
      | (with_reducible apply Keeps.foldl_fst; intro _ _ _)
      | (with_reducible apply Keeps.foldl_snd; intro _ _ _)
      | (with_reducible apply Keeps.foldl; intro _ _ _)
      | decide +kernel
      | exact sub_flt _ (by decide +kernel)
      | exact sub_eng _ (by decide +kernel)
      | exact sub_hk _ (by decide +kernel)
      | exact sub_port _ _ (by decide +kernel)
      | exact sub_win _ (by decide +kernel)
      | exact sub_any _ (by decide +kernel)
      | split
      | refine Keeps.upd ?_
  try clear_value a1
  try clear_value a2
  repeat' first
    | with_reducible assumption
    | with_reducible apply Keeps.refl
    | with_reducible apply Keeps.ite
    | (apply Keeps.step; with_reducible apply State.setWin_keeps)
    | (with_reducible apply Keeps.forEach; intro _ _ _)
    | (with_reducible apply Keeps.foldl_fst; intro _ _ _)
    | (with_reducible apply Keeps.foldl_snd; intro _ _ _)
    | (with_reducible apply Keeps.foldl; intro _ _ _)
    | decide +kernel
    | exact sub_flt _ (by decide +kernel)
    | exact sub_eng _ (by decide +kernel)
    | exact sub_hk _ (by decide +kernel)
    | exact sub_port _ _ (by decide +kernel)
    | exact sub_win _ (by decide +kernel)
    | exact sub_any _ (by decide +kernel)
    | split
    | refine Keeps.upd ?_

theorem State.varCopyTick_keeps (s : State) :
    Keeps (foot [.win .var, .var]) s (State.varCopyTick s) := by
  unfold State.varCopyTick
  repeat' first
    | with_reducible assumption
    | with_reducible apply Keeps.refl
    | with_reducible apply Keeps.ite
    | (apply Keeps.step; with_reducible apply State.varMove_keeps)
    | (with_reducible apply Keeps.forEach; intro _ _ _)
    | (with_reducible apply Keeps.foldl_fst; intro _ _ _)
    | (with_reducible apply Keeps.foldl_snd; intro _ _ _)
    | (with_reducible apply Keeps.foldl; intro _ _ _)
    | decide +kernel
    | exact sub_flt _ (by decide +kernel)
    | exact sub_eng _ (by decide +kernel)
    | exact sub_hk _ (by decide +kernel)
    | exact sub_port _ _ (by decide +kernel)
    | exact sub_win _ (by decide +kernel)
    | exact sub_any _ (by decide +kernel)
    | split
    | refine Keeps.upd ?_

end Sys2Proof.Machine
end

