-- ==== Sys2Proof/Laws/KeepsHouse.lean ====
section
/-!
SUPPORT. Footprints of the operations of Machine/House.lean: which parts of a state each can change.
-/
set_option Elab.async false
set_option linter.unusedTactic false
set_option linter.unreachableTactic false
namespace Sys2Proof.Machine

theorem State.setHk_keeps (s : State) (x : Hk) (h : HkSt) :
    Keeps (foot [.hka, .hkb]) s (State.setHk s x h) := by
  unfold State.setHk
  repeat' first
    | with_reducible assumption
    | with_reducible apply Keeps.refl
    | with_reducible apply Keeps.ite
    | (with_reducible apply Keeps.forEach; intro _ _ _)
    | (with_reducible apply Keeps.foldl_fst; intro _ _ _)
    | (with_reducible apply Keeps.foldl_snd; intro _ _ _)
    | (with_reducible apply Keeps.foldl; intro _ _ _)
    | split
    | refine Keeps.upd ?_

theorem State.excPins_keeps (s : State) (x : Hk) :
    Keeps (foot [.reg HKS_EXC_STATUS]) s (State.excPins s x) := by
  unfold State.excPins
  extract_lets a1
  try clear_value a1
  repeat' first
    | with_reducible assumption
    | with_reducible apply Keeps.refl
    | with_reducible apply Keeps.ite
    | (apply Keeps.step; with_reducible apply State.setFld_keeps)
    | (with_reducible apply Keeps.forEach; intro _ _ _)
    | (with_reducible apply Keeps.foldl_fst; intro _ _ _)
    | (with_reducible apply Keeps.foldl_snd; intro _ _ _)
    | (with_reducible apply Keeps.foldl; intro _ _ _)
    | decide +kernel
    | exact sub_flt _ (by decide +kernel)
    | exact sub_eng _ (by decide +kernel)
    | exact sub_hk _ (by decide +kernel)
    | exact sub_port _ _ (by decide +kernel)
    | exact sub_win _ (by decide +kernel)
    | exact sub_any _ (by decide +kernel)
    | split

theorem State.calEnd_keeps (s : State) (x : Hk) (reason : Option Nat) :
    Keeps (foot [.reg (HKx_CTRL 0x1700), .reg (HKx_CAL_STATUS 0x1700), .reg (HKx_CTRL 0x1800), .reg (HKx_CAL_STATUS 0x1800), .reg HKS_EXC_STATUS, .cou, .bru, .hka, .hkb]) s (State.calEnd s x reason) := by
  unfold State.calEnd
  extract_lets a1 a2 a3 a4
  try clear_value a2
  have ha3 : Keeps (foot [.reg (HKx_CTRL 0x1700), .reg (HKx_CAL_STATUS 0x1700), .reg (HKx_CTRL 0x1800), .reg (HKx_CAL_STATUS 0x1800), .reg HKS_EXC_STATUS, .cou, .bru, .hka, .hkb]) s a3 := by
    unfold a3
    repeat' first
      | with_reducible assumption
      | with_reducible apply Keeps.refl
      | with_reducible apply Keeps.ite
      | (apply Keeps.step; with_reducible apply State.setHk_keeps)
      | (apply Keeps.step; with_reducible apply State.setFld_keeps)
      | (apply Keeps.step; with_reducible apply State.inc_keeps)
      | (apply Keeps.step; with_reducible apply State.setBit_keeps)
      | (apply Keeps.step; with_reducible apply State.note_keeps)
      | (apply Keeps.step; with_reducible apply State.excPins_keeps)
      | (with_reducible apply Keeps.forEach; intro _ _ _)
      | (with_reducible apply Keeps.foldl_fst; intro _ _ _)
      | (with_reducible apply Keeps.foldl_snd; intro _ _ _)
      | (with_reducible apply Keeps.foldl; intro _ _ _)
      | decide +kernel
      | exact sub_hk _ (by decide +kernel)
      | exact sub_flt _ (by decide +kernel)
      | exact sub_eng _ (by decide +kernel)
      | exact sub_port _ _ (by decide +kernel)
      | exact sub_win _ (by decide +kernel)
      | exact sub_any _ (by decide +kernel)
      | split
  try clear_value a3
  have ha4 : Keeps (foot [.reg (HKx_CTRL 0x1700), .reg (HKx_CAL_STATUS 0x1700), .reg (HKx_CTRL 0x1800), .reg (HKx_CAL_STATUS 0x1800), .reg HKS_EXC_STATUS, .cou, .bru, .hka, .hkb]) s a4 := by
    unfold a4
    repeat' first
      | with_reducible assumption
      | with_reducible apply Keeps.refl
      | with_reducible apply Keeps.ite
      | (apply Keeps.step; with_reducible apply State.setHk_keeps)
      | (apply Keeps.step; with_reducible apply State.setFld_keeps)
      | (apply Keeps.step; with_reducible apply State.inc_keeps)
      | (apply Keeps.step; with_reducible apply State.setBit_keeps)
      | (apply Keeps.step; with_reducible apply State.note_keeps)
      | (apply Keeps.step; with_reducible apply State.excPins_keeps)
      | (with_reducible apply Keeps.forEach; intro _ _ _)
      | (with_reducible apply Keeps.foldl_fst; intro _ _ _)
      | (with_reducible apply Keeps.foldl_snd; intro _ _ _)
      | (with_reducible apply Keeps.foldl; intro _ _ _)
      | decide +kernel
      | exact sub_hk _ (by decide +kernel)
      | exact sub_flt _ (by decide +kernel)
      | exact sub_eng _ (by decide +kernel)
      | exact sub_port _ _ (by decide +kernel)
      | exact sub_win _ (by decide +kernel)
      | exact sub_any _ (by decide +kernel)
      | split
  try clear_value a4
  repeat' first
    | with_reducible assumption
    | with_reducible apply Keeps.refl
    | with_reducible apply Keeps.ite
    | (apply Keeps.step; with_reducible apply State.setHk_keeps)
    | (apply Keeps.step; with_reducible apply State.setFld_keeps)
    | (apply Keeps.step; with_reducible apply State.inc_keeps)
    | (apply Keeps.step; with_reducible apply State.setBit_keeps)
    | (apply Keeps.step; with_reducible apply State.note_keeps)
    | (apply Keeps.step; with_reducible apply State.excPins_keeps)
    | (with_reducible apply Keeps.forEach; intro _ _ _)
    | (with_reducible apply Keeps.foldl_fst; intro _ _ _)
    | (with_reducible apply Keeps.foldl_snd; intro _ _ _)
    | (with_reducible apply Keeps.foldl; intro _ _ _)
    | decide +kernel
    | exact sub_hk _ (by decide +kernel)
    | exact sub_flt _ (by decide +kernel)
    | exact sub_eng _ (by decide +kernel)
    | exact sub_port _ _ (by decide +kernel)
    | exact sub_win _ (by decide +kernel)
    | exact sub_any _ (by decide +kernel)
    | split

theorem State.calInterrupt_keeps (s : State) (x : Hk) (reason : Nat) :
    Keeps (foot [.reg (HKx_CTRL 0x1700), .reg (HKx_CAL_STATUS 0x1700), .reg (HKx_CTRL 0x1800), .reg (HKx_CAL_STATUS 0x1800), .reg HKS_EXC_STATUS, .cou, .bru, .hka, .hkb]) s (State.calInterrupt s x reason) := by
  unfold State.calInterrupt
  repeat' first
    | with_reducible assumption
    | with_reducible apply Keeps.refl
    | with_reducible apply Keeps.ite
    | (apply Keeps.step; with_reducible apply State.calEnd_keeps)
    | (with_reducible apply Keeps.forEach; intro _ _ _)
    | (with_reducible apply Keeps.foldl_fst; intro _ _ _)
    | (with_reducible apply Keeps.foldl_snd; intro _ _ _)
    | (with_reducible apply Keeps.foldl; intro _ _ _)
    | decide +kernel
    | exact sub_flt _ (by decide +kernel)
    | exact sub_eng _ (by decide +kernel)
    | exact sub_hk _ (by decide +kernel)
    | exact sub_port _ _ (by decide +kernel)
    | exact sub_win _ (by decide +kernel)
    | exact sub_any _ (by decide +kernel)
    | split

theorem State.excRearm_keeps (s : State) :
    Keeps (foot [.reg HKS_EXC_STATUS, .srcs]) s (State.excRearm s) := by
  unfold State.excRearm
  repeat' first
    | with_reducible assumption
    | with_reducible apply Keeps.refl
    | with_reducible apply Keeps.ite
    | (apply Keeps.step; with_reducible apply State.standing_keeps)
    | (apply Keeps.step; with_reducible apply State.setBit_keeps)
    | (with_reducible apply Keeps.forEach; intro _ _ _)
    | (with_reducible apply Keeps.foldl_fst; intro _ _ _)
    | (with_reducible apply Keeps.foldl_snd; intro _ _ _)
    | (with_reducible apply Keeps.foldl; intro _ _ _)
    | decide +kernel
    | exact sub_flt _ (by decide +kernel)
    | exact sub_eng _ (by decide +kernel)
    | exact sub_hk _ (by decide +kernel)
    | exact sub_port _ _ (by decide +kernel)
    | exact sub_win _ (by decide +kernel)
    | exact sub_any _ (by decide +kernel)
    | split

theorem State.startConv_keeps (s : State) (x : Hk) (kind : HkKind) (n : Nat) (w : Word) (k : Nat) (sum : Int) (ovr : Bool) (ns : Bool) :
    Keeps (foot [.reg (HKx_CTRL 0x1700), .reg (HKx_STATUS 0x1700), .reg (HKx_CTRL 0x1800), .reg (HKx_STATUS 0x1800), .reg HKS_EXC_STATUS, .hka, .hkb, .srcs]) s (State.startConv s x kind n w k sum ovr ns) := by
  unfold State.startConv
  extract_lets a1 a2 a3 a4 a5 a6 a7 a8 a9
  have ha1 : Keeps (foot [.reg (HKx_CTRL 0x1700), .reg (HKx_STATUS 0x1700), .reg (HKx_CTRL 0x1800), .reg (HKx_STATUS 0x1800), .reg HKS_EXC_STATUS, .hka, .hkb, .srcs]) s a1 := by
    unfold a1
    repeat' first
      | with_reducible assumption
      | with_reducible apply Keeps.refl
      | with_reducible apply Keeps.ite
      | (apply Keeps.step; with_reducible apply State.excRearm_keeps)
      | (apply Keeps.step; with_reducible apply State.setHk_keeps)
      | (apply Keeps.step; with_reducible apply State.setFld_keeps)
      | (apply Keeps.step; with_reducible apply State.excPins_keeps)
      | (with_reducible apply Keeps.forEach; intro _ _ _)
      | (with_reducible apply Keeps.foldl_fst; intro _ _ _)
      | (with_reducible apply Keeps.foldl_snd; intro _ _ _)
      | (with_reducible apply Keeps.foldl; intro _ _ _)
      | decide +kernel
      | exact sub_hk _ (by decide +kernel)
      | exact sub_flt _ (by decide +kernel)
      | exact sub_eng _ (by decide +kernel)
      | exact sub_port _ _ (by decide +kernel)
      | exact sub_win _ (by decide +kernel)
      | exact sub_any _ (by decide +kernel)
      | split
  try clear_value a1
  try clear_value a3
  try clear_value a4
  try clear_value a5
  try clear_value a6
  have ha7 : Keeps (foot [.reg (HKx_CTRL 0x1700), .reg (HKx_STATUS 0x1700), .reg (HKx_CTRL 0x1800), .reg (HKx_STATUS 0x1800), .reg HKS_EXC_STATUS, .hka, .hkb, .srcs]) s a7 := by
    unfold a7
    repeat' first
      | with_reducible assumption
      | with_reducible apply Keeps.refl
      | with_reducible apply Keeps.ite
      | (apply Keeps.step; with_reducible apply State.excRearm_keeps)
      | (apply Keeps.step; with_reducible apply State.setHk_keeps)
      | (apply Keeps.step; with_reducible apply State.setFld_keeps)
      | (apply Keeps.step; with_reducible apply State.excPins_keeps)
      | (with_reducible apply Keeps.forEach; intro _ _ _)
      | (with_reducible apply Keeps.foldl_fst; intro _ _ _)
      | (with_reducible apply Keeps.foldl_snd; intro _ _ _)
      | (with_reducible apply Keeps.foldl; intro _ _ _)
      | decide +kernel
      | exact sub_hk _ (by decide +kernel)
      | exact sub_flt _ (by decide +kernel)
      | exact sub_eng _ (by decide +kernel)
      | exact sub_port _ _ (by decide +kernel)
      | exact sub_win _ (by decide +kernel)
      | exact sub_any _ (by decide +kernel)
      | split
  try clear_value a7
  have ha8 : Keeps (foot [.reg (HKx_CTRL 0x1700), .reg (HKx_STATUS 0x1700), .reg (HKx_CTRL 0x1800), .reg (HKx_STATUS 0x1800), .reg HKS_EXC_STATUS, .hka, .hkb, .srcs]) s a8 := by
    unfold a8
    repeat' first
      | with_reducible assumption
      | with_reducible apply Keeps.refl
      | with_reducible apply Keeps.ite
      | (apply Keeps.step; with_reducible apply State.excRearm_keeps)
      | (apply Keeps.step; with_reducible apply State.setHk_keeps)
      | (apply Keeps.step; with_reducible apply State.setFld_keeps)
      | (apply Keeps.step; with_reducible apply State.excPins_keeps)
      | (with_reducible apply Keeps.forEach; intro _ _ _)
      | (with_reducible apply Keeps.foldl_fst; intro _ _ _)
      | (with_reducible apply Keeps.foldl_snd; intro _ _ _)
      | (with_reducible apply Keeps.foldl; intro _ _ _)
      | decide +kernel
      | exact sub_hk _ (by decide +kernel)
      | exact sub_flt _ (by decide +kernel)
      | exact sub_eng _ (by decide +kernel)
      | exact sub_port _ _ (by decide +kernel)
      | exact sub_win _ (by decide +kernel)
      | exact sub_any _ (by decide +kernel)
      | split
  try clear_value a8
  have ha9 : Keeps (foot [.reg (HKx_CTRL 0x1700), .reg (HKx_STATUS 0x1700), .reg (HKx_CTRL 0x1800), .reg (HKx_STATUS 0x1800), .reg HKS_EXC_STATUS, .hka, .hkb, .srcs]) s a9 := by
    unfold a9
    repeat' first
      | with_reducible assumption
      | with_reducible apply Keeps.refl
      | with_reducible apply Keeps.ite
      | (apply Keeps.step; with_reducible apply State.excRearm_keeps)
      | (apply Keeps.step; with_reducible apply State.setHk_keeps)
      | (apply Keeps.step; with_reducible apply State.setFld_keeps)
      | (apply Keeps.step; with_reducible apply State.excPins_keeps)
      | (with_reducible apply Keeps.forEach; intro _ _ _)
      | (with_reducible apply Keeps.foldl_fst; intro _ _ _)
      | (with_reducible apply Keeps.foldl_snd; intro _ _ _)
      | (with_reducible apply Keeps.foldl; intro _ _ _)
      | decide +kernel
      | exact sub_hk _ (by decide +kernel)
      | exact sub_flt _ (by decide +kernel)
      | exact sub_eng _ (by decide +kernel)
      | exact sub_port _ _ (by decide +kernel)
      | exact sub_win _ (by decide +kernel)
      | exact sub_any _ (by decide +kernel)
      | split
  try clear_value a9
  repeat' first
    | with_reducible assumption
    | with_reducible apply Keeps.refl
    | with_reducible apply Keeps.ite
    | (apply Keeps.step; with_reducible apply State.excRearm_keeps)
    | (apply Keeps.step; with_reducible apply State.setHk_keeps)
    | (apply Keeps.step; with_reducible apply State.setFld_keeps)
    | (apply Keeps.step; with_reducible apply State.excPins_keeps)
    | (with_reducible apply Keeps.forEach; intro _ _ _)
    | (with_reducible apply Keeps.foldl_fst; intro _ _ _)
    | (with_reducible apply Keeps.foldl_snd; intro _ _ _)
    | (with_reducible apply Keeps.foldl; intro _ _ _)
    | decide +kernel
    | exact sub_hk _ (by decide +kernel)
    | exact sub_flt _ (by decide +kernel)
    | exact sub_eng _ (by decide +kernel)
    | exact sub_port _ _ (by decide +kernel)
    | exact sub_win _ (by decide +kernel)
    | exact sub_any _ (by decide +kernel)
    | split

theorem State.startKind_keeps (s : State) (x : Hk) (kind : HkKind) (n : Nat) :
    Keeps (foot [.reg (HKx_CTRL 0x1700), .reg (HKx_STATUS 0x1700), .reg (HKx_CTRL 0x1800), .reg (HKx_STATUS 0x1800), .reg HKS_EXC_STATUS, .hka, .hkb, .srcs]) s (State.startKind s x kind n) := by
  unfold State.startKind
  repeat' first
    | with_reducible assumption
    | with_reducible apply Keeps.refl
    | with_reducible apply Keeps.ite
    | (apply Keeps.step; with_reducible apply State.startConv_keeps)
    | (with_reducible apply Keeps.forEach; intro _ _ _)
    | (with_reducible apply Keeps.foldl_fst; intro _ _ _)
    | (with_reducible apply Keeps.foldl_snd; intro _ _ _)
    | (with_reducible apply Keeps.foldl; intro _ _ _)
    | decide +kernel
    | exact sub_flt _ (by decide +kernel)
    | exact sub_eng _ (by decide +kernel)
    | exact sub_hk _ (by decide +kernel)
    | exact sub_port _ _ (by decide +kernel)
    | exact sub_win _ (by decide +kernel)
    | exact sub_any _ (by decide +kernel)
    | split

theorem State.passStart_keeps (s : State) (x : Hk) :
    Keeps (foot [.reg (HKx_CTRL 0x1700), .reg (HKx_STATUS 0x1700), .reg (HKx_CTRL 0x1800), .reg (HKx_STATUS 0x1800), .reg HKS_EXC_STATUS, .hka, .hkb, .srcs]) s (State.passStart s x) := by
  unfold State.passStart
  extract_lets a1 a2
  try clear_value a1
  have ha2 : Keeps (foot [.reg (HKx_CTRL 0x1700), .reg (HKx_STATUS 0x1700), .reg (HKx_CTRL 0x1800), .reg (HKx_STATUS 0x1800), .reg HKS_EXC_STATUS, .hka, .hkb, .srcs]) s a2 := by
    unfold a2
    repeat' first
      | with_reducible assumption
      | with_reducible apply Keeps.refl
      | with_reducible apply Keeps.ite
      | (apply Keeps.step; with_reducible apply State.setHk_keeps)
      | (apply Keeps.step; with_reducible apply State.startKind_keeps)
      | (with_reducible apply Keeps.forEach; intro _ _ _)
      | (with_reducible apply Keeps.foldl_fst; intro _ _ _)
      | (with_reducible apply Keeps.foldl_snd; intro _ _ _)
      | (with_reducible apply Keeps.foldl; intro _ _ _)
      | decide +kernel
      | exact sub_flt _ (by decide +kernel)
      | exact sub_eng _ (by decide +kernel)
      | exact sub_hk _ (by decide +kernel)
      | exact sub_port _ _ (by decide +kernel)
      | exact sub_win _ (by decide +kernel)
      | exact sub_any _ (by decide +kernel)
      | split
  try clear_value a2
  repeat' first
    | with_reducible assumption
    | with_reducible apply Keeps.refl
    | with_reducible apply Keeps.ite
    | (apply Keeps.step; with_reducible apply State.setHk_keeps)
    | (apply Keeps.step; with_reducible apply State.startKind_keeps)
    | (with_reducible apply Keeps.forEach; intro _ _ _)
    | (with_reducible apply Keeps.foldl_fst; intro _ _ _)
    | (with_reducible apply Keeps.foldl_snd; intro _ _ _)
    | (with_reducible apply Keeps.foldl; intro _ _ _)
    | decide +kernel
    | exact sub_flt _ (by decide +kernel)
    | exact sub_eng _ (by decide +kernel)
    | exact sub_hk _ (by decide +kernel)
    | exact sub_port _ _ (by decide +kernel)
    | exact sub_win _ (by decide +kernel)
    | exact sub_any _ (by decide +kernel)
    | split

theorem State.hkIdle_keeps (s : State) (x : Hk) :
    Keeps (foot [.reg (HKx_CTRL 0x1700), .reg (HKx_CTRL 0x1800), .reg HKS_EXC_STATUS, .hka, .hkb]) s (State.hkIdle s x) := by
  unfold State.hkIdle
  extract_lets a1
  try clear_value a1
  repeat' first
    | with_reducible assumption
    | with_reducible apply Keeps.refl
    | with_reducible apply Keeps.ite
    | (apply Keeps.step; with_reducible apply State.excPins_keeps)
    | (apply Keeps.step; with_reducible apply State.setFld_keeps)
    | (apply Keeps.step; with_reducible apply State.setHk_keeps)
    | (with_reducible apply Keeps.forEach; intro _ _ _)
    | (with_reducible apply Keeps.foldl_fst; intro _ _ _)
    | (with_reducible apply Keeps.foldl_snd; intro _ _ _)
    | (with_reducible apply Keeps.foldl; intro _ _ _)
    | decide +kernel
    | exact sub_hk _ (by decide +kernel)
    | exact sub_flt _ (by decide +kernel)
    | exact sub_eng _ (by decide +kernel)
    | exact sub_port _ _ (by decide +kernel)
    | exact sub_win _ (by decide +kernel)
    | exact sub_any _ (by decide +kernel)
    | split

theorem State.hkAbandon_keeps (s : State) (x : Hk) :
    Keeps (foot [.reg (HKx_CTRL 0x1700), .reg (HKx_OVERRUN_COUNT 0x1700), .reg (HKx_CTRL 0x1800), .reg (HKx_OVERRUN_COUNT 0x1800), .reg HKS_EXC_STATUS, .hka, .hkb]) s (State.hkAbandon s x) := by
  unfold State.hkAbandon
  repeat' first
    | with_reducible assumption
    | with_reducible apply Keeps.refl
    | with_reducible apply Keeps.ite
    | (apply Keeps.step; with_reducible apply State.hkIdle_keeps)
    | (apply Keeps.step; with_reducible apply State.inc_keeps)
    | (with_reducible apply Keeps.forEach; intro _ _ _)
    | (with_reducible apply Keeps.foldl_fst; intro _ _ _)
    | (with_reducible apply Keeps.foldl_snd; intro _ _ _)
    | (with_reducible apply Keeps.foldl; intro _ _ _)
    | decide +kernel
    | exact sub_hk _ (by decide +kernel)
    | exact sub_flt _ (by decide +kernel)
    | exact sub_eng _ (by decide +kernel)
    | exact sub_port _ _ (by decide +kernel)
    | exact sub_win _ (by decide +kernel)
    | exact sub_any _ (by decide +kernel)
    | split

theorem State.hkRestartAt_keeps (s : State) (x : Hk) (reason : Nat) :
    Keeps (foot [.reg (HKx_CTRL 0x1700), .reg (HKx_STATUS 0x1700), .reg (HKx_OVERRUN_COUNT 0x1700), .reg (HKx_CAL_STATUS 0x1700), .reg (HKx_CTRL 0x1800), .reg (HKx_STATUS 0x1800), .reg (HKx_OVERRUN_COUNT 0x1800), .reg (HKx_CAL_STATUS 0x1800), .reg HKS_EXC_STATUS, .cou, .bru, .hka, .hkb]) s (State.hkRestartAt s x reason) := by
  unfold State.hkRestartAt
  extract_lets a1 a2 a3
  have ha1 : Keeps (foot [.reg (HKx_CTRL 0x1700), .reg (HKx_STATUS 0x1700), .reg (HKx_OVERRUN_COUNT 0x1700), .reg (HKx_CAL_STATUS 0x1700), .reg (HKx_CTRL 0x1800), .reg (HKx_STATUS 0x1800), .reg (HKx_OVERRUN_COUNT 0x1800), .reg (HKx_CAL_STATUS 0x1800), .reg HKS_EXC_STATUS, .cou, .bru, .hka, .hkb]) s a1 := by
    unfold a1
    repeat' first
      | with_reducible assumption
      | with_reducible apply Keeps.refl
      | with_reducible apply Keeps.ite
      | (apply Keeps.step; with_reducible apply State.hkAbandon_keeps)
      | (apply Keeps.step; with_reducible apply State.calInterrupt_keeps)
      | (apply Keeps.step; with_reducible apply State.setFld_keeps)
      | (apply Keeps.step; with_reducible apply State.setBit_keeps)
      | (apply Keeps.step; with_reducible apply State.setHk_keeps)
      | (with_reducible apply Keeps.forEach; intro _ _ _)
      | (with_reducible apply Keeps.foldl_fst; intro _ _ _)
      | (with_reducible apply Keeps.foldl_snd; intro _ _ _)
      | (with_reducible apply Keeps.foldl; intro _ _ _)
      | decide +kernel
      | exact sub_hk _ (by decide +kernel)
      | exact sub_flt _ (by decide +kernel)
      | exact sub_eng _ (by decide +kernel)
      | exact sub_port _ _ (by decide +kernel)
      | exact sub_win _ (by decide +kernel)
      | exact sub_any _ (by decide +kernel)
      | split
  try clear_value a1
  have ha2 : Keeps (foot [.reg (HKx_CTRL 0x1700), .reg (HKx_STATUS 0x1700), .reg (HKx_OVERRUN_COUNT 0x1700), .reg (HKx_CAL_STATUS 0x1700), .reg (HKx_CTRL 0x1800), .reg (HKx_STATUS 0x1800), .reg (HKx_OVERRUN_COUNT 0x1800), .reg (HKx_CAL_STATUS 0x1800), .reg HKS_EXC_STATUS, .cou, .bru, .hka, .hkb]) s a2 := by
    unfold a2
    repeat' first
      | with_reducible assumption
      | with_reducible apply Keeps.refl
      | with_reducible apply Keeps.ite
      | (apply Keeps.step; with_reducible apply State.hkAbandon_keeps)
      | (apply Keeps.step; with_reducible apply State.calInterrupt_keeps)
      | (apply Keeps.step; with_reducible apply State.setFld_keeps)
      | (apply Keeps.step; with_reducible apply State.setBit_keeps)
      | (apply Keeps.step; with_reducible apply State.setHk_keeps)
      | (with_reducible apply Keeps.forEach; intro _ _ _)
      | (with_reducible apply Keeps.foldl_fst; intro _ _ _)
      | (with_reducible apply Keeps.foldl_snd; intro _ _ _)
      | (with_reducible apply Keeps.foldl; intro _ _ _)
      | decide +kernel
      | exact sub_hk _ (by decide +kernel)
      | exact sub_flt _ (by decide +kernel)
      | exact sub_eng _ (by decide +kernel)
      | exact sub_port _ _ (by decide +kernel)
      | exact sub_win _ (by decide +kernel)
      | exact sub_any _ (by decide +kernel)
      | split
  try clear_value a2
  try clear_value a3
  repeat' first
    | with_reducible assumption
    | with_reducible apply Keeps.refl
    | with_reducible apply Keeps.ite
    | (apply Keeps.step; with_reducible apply State.hkAbandon_keeps)
    | (apply Keeps.step; with_reducible apply State.calInterrupt_keeps)
    | (apply Keeps.step; with_reducible apply State.setFld_keeps)
    | (apply Keeps.step; with_reducible apply State.setBit_keeps)
    | (apply Keeps.step; with_reducible apply State.setHk_keeps)
    | (with_reducible apply Keeps.forEach; intro _ _ _)
    | (with_reducible apply Keeps.foldl_fst; intro _ _ _)
    | (with_reducible apply Keeps.foldl_snd; intro _ _ _)
    | (with_reducible apply Keeps.foldl; intro _ _ _)
    | decide +kernel
    | exact sub_hk _ (by decide +kernel)
    | exact sub_flt _ (by decide +kernel)
    | exact sub_eng _ (by decide +kernel)
    | exact sub_port _ _ (by decide +kernel)
    | exact sub_win _ (by decide +kernel)
    | exact sub_any _ (by decide +kernel)
    | split

theorem State.hkRestart_keeps (s : State) (x : Hk) (launched : Bool) :
    Keeps (foot [.reg GLB_DETERMINISM, .reg (HKx_CTRL 0x1700), .reg (HKx_STATUS 0x1700), .reg (HKx_OVERRUN_COUNT 0x1700), .reg (HKx_CAL_STATUS 0x1700), .reg (HKx_CTRL 0x1800), .reg (HKx_STATUS 0x1800), .reg (HKx_OVERRUN_COUNT 0x1800), .reg (HKx_CAL_STATUS 0x1800), .reg HKS_EXC_STATUS, .faults, .cou, .bru, .hka, .hkb, .srcs]) s (State.hkRestart s x launched) := by
  unfold State.hkRestart
  repeat' first
    | with_reducible assumption
    | with_reducible apply Keeps.refl
    | with_reducible apply Keeps.ite
    | (apply Keeps.step; with_reducible apply State.param_keeps)
    | (apply Keeps.step; with_reducible apply State.passStart_keeps)
    | (apply Keeps.step; with_reducible apply State.hkRestartAt_keeps)
    | (with_reducible apply Keeps.forEach; intro _ _ _)
    | (with_reducible apply Keeps.foldl_fst; intro _ _ _)
    | (with_reducible apply Keeps.foldl_snd; intro _ _ _)
    | (with_reducible apply Keeps.foldl; intro _ _ _)
    | decide +kernel
    | exact sub_flt _ (by decide +kernel)
    | exact sub_eng _ (by decide +kernel)
    | exact sub_hk _ (by decide +kernel)
    | exact sub_port _ _ (by decide +kernel)
    | exact sub_win _ (by decide +kernel)
    | exact sub_any _ (by decide +kernel)
    | split

theorem State.traceEnd_keeps (s : State) (reason : Nat) (r : Option Nat) :
    Keeps (foot [.reg GLB_DETERMINISM, .reg LNK_DEADLETTER_COUNT, .reg (ENG_STATUS 0x600), .reg CAL_TRACE_STATUS, .reg (ENG_STATUS 0x1B00), .flt, .win .lnk, .recTick, .bar, .faults, .cou, .bru, .lnk, .cal, .free, .srcs]) s (State.traceEnd s reason r) := by
  unfold State.traceEnd
  extract_lets a1 a2 a3
  try clear_value a1
  have ha2 : Keeps (foot [.reg GLB_DETERMINISM, .reg LNK_DEADLETTER_COUNT, .reg (ENG_STATUS 0x600), .reg CAL_TRACE_STATUS, .reg (ENG_STATUS 0x1B00), .flt, .win .lnk, .recTick, .bar, .faults, .cou, .bru, .lnk, .cal, .free, .srcs]) s a2 := by
    unfold a2
    repeat' first
      | with_reducible assumption
      | with_reducible apply Keeps.refl
      | with_reducible apply Keeps.ite
      | (apply Keeps.step; with_reducible apply State.setBit_keeps)
      | (apply Keeps.step; with_reducible apply State.setFld_keeps)
      | (apply Keeps.step; with_reducible apply State.raise_keeps)
      | (with_reducible apply Keeps.forEach; intro _ _ _)
      | (with_reducible apply Keeps.foldl_fst; intro _ _ _)
      | (with_reducible apply Keeps.foldl_snd; intro _ _ _)
      | (with_reducible apply Keeps.foldl; intro _ _ _)
      | decide +kernel
      | exact sub_flt _ (by decide +kernel)
      | exact sub_eng _ (by decide +kernel)
      | exact sub_hk _ (by decide +kernel)
      | exact sub_port _ _ (by decide +kernel)
      | exact sub_win _ (by decide +kernel)
      | exact sub_any _ (by decide +kernel)
      | split
      | refine Keeps.upd ?_
  try clear_value a2
  have ha3 : Keeps (foot [.reg GLB_DETERMINISM, .reg LNK_DEADLETTER_COUNT, .reg (ENG_STATUS 0x600), .reg CAL_TRACE_STATUS, .reg (ENG_STATUS 0x1B00), .flt, .win .lnk, .recTick, .bar, .faults, .cou, .bru, .lnk, .cal, .free, .srcs]) s a3 := by
    unfold a3
    repeat' first
      | with_reducible assumption
      | with_reducible apply Keeps.refl
      | with_reducible apply Keeps.ite
      | (apply Keeps.step; with_reducible apply State.setBit_keeps)
      | (apply Keeps.step; with_reducible apply State.setFld_keeps)
      | (apply Keeps.step; with_reducible apply State.raise_keeps)
      | (with_reducible apply Keeps.forEach; intro _ _ _)
      | (with_reducible apply Keeps.foldl_fst; intro _ _ _)
      | (with_reducible apply Keeps.foldl_snd; intro _ _ _)
      | (with_reducible apply Keeps.foldl; intro _ _ _)
      | decide +kernel
      | exact sub_flt _ (by decide +kernel)
      | exact sub_eng _ (by decide +kernel)
      | exact sub_hk _ (by decide +kernel)
      | exact sub_port _ _ (by decide +kernel)
      | exact sub_win _ (by decide +kernel)
      | exact sub_any _ (by decide +kernel)
      | split
      | refine Keeps.upd ?_
  try clear_value a3
  repeat' first
    | with_reducible assumption
    | with_reducible apply Keeps.refl
    | with_reducible apply Keeps.ite
    | (apply Keeps.step; with_reducible apply State.setBit_keeps)
    | (apply Keeps.step; with_reducible apply State.setFld_keeps)
    | (apply Keeps.step; with_reducible apply State.raise_keeps)
    | (with_reducible apply Keeps.forEach; intro _ _ _)
    | (with_reducible apply Keeps.foldl_fst; intro _ _ _)
    | (with_reducible apply Keeps.foldl_snd; intro _ _ _)
    | (with_reducible apply Keeps.foldl; intro _ _ _)
    | decide +kernel
    | exact sub_flt _ (by decide +kernel)
    | exact sub_eng _ (by decide +kernel)
    | exact sub_hk _ (by decide +kernel)
    | exact sub_port _ _ (by decide +kernel)
    | exact sub_win _ (by decide +kernel)
    | exact sub_any _ (by decide +kernel)
    | split
    | refine Keeps.upd ?_

theorem State.traceResult_keeps (s : State) (x : Hk) (c : HkConv) (v : Int) (status : Nat) :
    Keeps (foot [.reg GLB_DETERMINISM, .reg LNK_DEADLETTER_COUNT, .reg (ENG_STATUS 0x600), .reg CAL_TRACE_STATUS, .reg (ENG_STATUS 0x1B00), .flt, .win .lnk, .recTick, .bar, .faults, .cou, .bru, .lnk, .cal, .free, .srcs]) s (State.traceResult s x c v status) := by
  unfold State.traceResult
  extract_lets a1 a2 a3 a4 a5 a6
  try clear_value a1
  try clear_value a2
  try clear_value a3
  try clear_value a4
  try clear_value a5
  try clear_value a6
  repeat' first
    | with_reducible assumption
    | with_reducible apply Keeps.refl
    | with_reducible apply Keeps.ite
    | (apply Keeps.step; with_reducible apply State.traceEnd_keeps)
    | (with_reducible apply Keeps.forEach; intro _ _ _)
    | (with_reducible apply Keeps.foldl_fst; intro _ _ _)
    | (with_reducible apply Keeps.foldl_snd; intro _ _ _)
    | (with_reducible apply Keeps.foldl; intro _ _ _)
    | decide +kernel
    | exact sub_flt _ (by decide +kernel)
    | exact sub_eng _ (by decide +kernel)
    | exact sub_hk _ (by decide +kernel)
    | exact sub_port _ _ (by decide +kernel)
    | exact sub_win _ (by decide +kernel)
    | exact sub_any _ (by decide +kernel)
    | split

theorem State.refReady_keeps (s : State) :
    Keeps (foot [.reg HKS_REFBUF_STATUS]) s (State.refReady s) := by
  unfold State.refReady
  repeat' first
    | with_reducible assumption
    | with_reducible apply Keeps.refl
    | with_reducible apply Keeps.ite
    | (apply Keeps.step; with_reducible apply State.setBit_keeps)
    | (with_reducible apply Keeps.forEach; intro _ _ _)
    | (with_reducible apply Keeps.foldl_fst; intro _ _ _)
    | (with_reducible apply Keeps.foldl_snd; intro _ _ _)
    | (with_reducible apply Keeps.foldl; intro _ _ _)
    | decide +kernel
    | exact sub_flt _ (by decide +kernel)
    | exact sub_eng _ (by decide +kernel)
    | exact sub_hk _ (by decide +kernel)
    | exact sub_port _ _ (by decide +kernel)
    | exact sub_win _ (by decide +kernel)
    | exact sub_any _ (by decide +kernel)
    | split

theorem State.urgentReq_keeps (s : State) (x : Hk) (e : Nat) (launched : Bool) :
    Keeps (foot [.reg GLB_DETERMINISM, .reg LNK_DEADLETTER_COUNT, .reg (ENG_STATUS 0x600), .reg (HKx_CTRL 0x1700), .reg (HKx_STATUS 0x1700), .reg (HKx_OVERRUN_COUNT 0x1700), .reg (HKx_CTRL 0x1800), .reg (HKx_STATUS 0x1800), .reg (HKx_OVERRUN_COUNT 0x1800), .reg HKS_EXC_STATUS, .reg (ENG_STATUS 0x1B00), .flt, .win .lnk, .recTick, .bar, .faults, .cou, .bru, .lnk, .hka, .hkb, .free, .srcs]) s (State.urgentReq s x e launched) := by
  unfold State.urgentReq
  extract_lets a1 a2 a3 a4 a5 a6 a7 a8
  try clear_value a2
  have ha3 : Keeps (foot [.reg GLB_DETERMINISM, .reg LNK_DEADLETTER_COUNT, .reg (ENG_STATUS 0x600), .reg (HKx_CTRL 0x1700), .reg (HKx_STATUS 0x1700), .reg (HKx_OVERRUN_COUNT 0x1700), .reg (HKx_CTRL 0x1800), .reg (HKx_STATUS 0x1800), .reg (HKx_OVERRUN_COUNT 0x1800), .reg HKS_EXC_STATUS, .reg (ENG_STATUS 0x1B00), .flt, .win .lnk, .recTick, .bar, .faults, .cou, .bru, .lnk, .hka, .hkb, .free, .srcs]) s a3 := by
    unfold a3
    repeat' first
      | with_reducible assumption
      | with_reducible apply Keeps.refl
      | with_reducible apply Keeps.ite
      | (apply Keeps.step; with_reducible apply State.raise_keeps)
      | (apply Keeps.step; with_reducible apply State.setBit_keeps)
      | (apply Keeps.step; with_reducible apply State.param_keeps)
      | (apply Keeps.step; with_reducible apply State.setHk_keeps)
      | (apply Keeps.step; with_reducible apply State.hkAbandon_keeps)
      | (apply Keeps.step; with_reducible apply State.startKind_keeps)
      | (with_reducible apply Keeps.forEach; intro _ _ _)
      | (with_reducible apply Keeps.foldl_fst; intro _ _ _)
      | (with_reducible apply Keeps.foldl_snd; intro _ _ _)
      | (with_reducible apply Keeps.foldl; intro _ _ _)
      | decide +kernel
      | exact sub_hk _ (by decide +kernel)
      | exact sub_flt _ (by decide +kernel)
      | exact sub_eng _ (by decide +kernel)
      | exact sub_port _ _ (by decide +kernel)
      | exact sub_win _ (by decide +kernel)
      | exact sub_any _ (by decide +kernel)
      | split
  try clear_value a3
  try clear_value a4
  try clear_value a5
  have ha6 : Keeps (foot [.reg GLB_DETERMINISM, .reg LNK_DEADLETTER_COUNT, .reg (ENG_STATUS 0x600), .reg (HKx_CTRL 0x1700), .reg (HKx_STATUS 0x1700), .reg (HKx_OVERRUN_COUNT 0x1700), .reg (HKx_CTRL 0x1800), .reg (HKx_STATUS 0x1800), .reg (HKx_OVERRUN_COUNT 0x1800), .reg HKS_EXC_STATUS, .reg (ENG_STATUS 0x1B00), .flt, .win .lnk, .recTick, .bar, .faults, .cou, .bru, .lnk, .hka, .hkb, .free, .srcs]) s a6 := by
    unfold a6
    repeat' first
      | with_reducible assumption
      | with_reducible apply Keeps.refl
      | with_reducible apply Keeps.ite
      | (apply Keeps.step; with_reducible apply State.raise_keeps)
      | (apply Keeps.step; with_reducible apply State.setBit_keeps)
      | (apply Keeps.step; with_reducible apply State.param_keeps)
      | (apply Keeps.step; with_reducible apply State.setHk_keeps)
      | (apply Keeps.step; with_reducible apply State.hkAbandon_keeps)
      | (apply Keeps.step; with_reducible apply State.startKind_keeps)
      | (with_reducible apply Keeps.forEach; intro _ _ _)
      | (with_reducible apply Keeps.foldl_fst; intro _ _ _)
      | (with_reducible apply Keeps.foldl_snd; intro _ _ _)
      | (with_reducible apply Keeps.foldl; intro _ _ _)
      | decide +kernel
      | exact sub_hk _ (by decide +kernel)
      | exact sub_flt _ (by decide +kernel)
      | exact sub_eng _ (by decide +kernel)
      | exact sub_port _ _ (by decide +kernel)
      | exact sub_win _ (by decide +kernel)
      | exact sub_any _ (by decide +kernel)
      | split
  try clear_value a6
  try clear_value a7
  have ha8 : Keeps (foot [.reg GLB_DETERMINISM, .reg LNK_DEADLETTER_COUNT, .reg (ENG_STATUS 0x600), .reg (HKx_CTRL 0x1700), .reg (HKx_STATUS 0x1700), .reg (HKx_OVERRUN_COUNT 0x1700), .reg (HKx_CTRL 0x1800), .reg (HKx_STATUS 0x1800), .reg (HKx_OVERRUN_COUNT 0x1800), .reg HKS_EXC_STATUS, .reg (ENG_STATUS 0x1B00), .flt, .win .lnk, .recTick, .bar, .faults, .cou, .bru, .lnk, .hka, .hkb, .free, .srcs]) s a8 := by
    unfold a8
    repeat' first
      | with_reducible assumption
      | with_reducible apply Keeps.refl
      | with_reducible apply Keeps.ite
      | (apply Keeps.step; with_reducible apply State.raise_keeps)
      | (apply Keeps.step; with_reducible apply State.setBit_keeps)
      | (apply Keeps.step; with_reducible apply State.param_keeps)
      | (apply Keeps.step; with_reducible apply State.setHk_keeps)
      | (apply Keeps.step; with_reducible apply State.hkAbandon_keeps)
      | (apply Keeps.step; with_reducible apply State.startKind_keeps)
      | (with_reducible apply Keeps.forEach; intro _ _ _)
      | (with_reducible apply Keeps.foldl_fst; intro _ _ _)
      | (with_reducible apply Keeps.foldl_snd; intro _ _ _)
      | (with_reducible apply Keeps.foldl; intro _ _ _)
      | decide +kernel
      | exact sub_hk _ (by decide +kernel)
      | exact sub_flt _ (by decide +kernel)
      | exact sub_eng _ (by decide +kernel)
      | exact sub_port _ _ (by decide +kernel)
      | exact sub_win _ (by decide +kernel)
      | exact sub_any _ (by decide +kernel)
      | split
  try clear_value a8
  repeat' first
    | with_reducible assumption
    | with_reducible apply Keeps.refl
    | with_reducible apply Keeps.ite
    | (apply Keeps.step; with_reducible apply State.raise_keeps)
    | (apply Keeps.step; with_reducible apply State.setBit_keeps)
    | (apply Keeps.step; with_reducible apply State.param_keeps)
    | (apply Keeps.step; with_reducible apply State.setHk_keeps)
    | (apply Keeps.step; with_reducible apply State.hkAbandon_keeps)
    | (apply Keeps.step; with_reducible apply State.startKind_keeps)
    | (with_reducible apply Keeps.forEach; intro _ _ _)
    | (with_reducible apply Keeps.foldl_fst; intro _ _ _)
    | (with_reducible apply Keeps.foldl_snd; intro _ _ _)
    | (with_reducible apply Keeps.foldl; intro _ _ _)
    | decide +kernel
    | exact sub_hk _ (by decide +kernel)
    | exact sub_flt _ (by decide +kernel)
    | exact sub_eng _ (by decide +kernel)
    | exact sub_port _ _ (by decide +kernel)
    | exact sub_win _ (by decide +kernel)
    | exact sub_any _ (by decide +kernel)
    | split

theorem State.urgentAfter_keeps (s : State) (x : Hk) :
    Keeps (foot [.reg (HKx_CTRL 0x1700), .reg (HKx_STATUS 0x1700), .reg (HKx_CTRL 0x1800), .reg (HKx_STATUS 0x1800), .reg HKS_EXC_STATUS, .hka, .hkb]) s (State.urgentAfter s x) := by
  unfold State.urgentAfter
  extract_lets a1
  try clear_value a1
  repeat' first
    | with_reducible assumption
    | with_reducible apply Keeps.refl
    | with_reducible apply Keeps.ite
    | (apply Keeps.step; with_reducible apply State.setBit_keeps)
    | (apply Keeps.step; with_reducible apply State.setHk_keeps)
    | (apply Keeps.step; with_reducible apply State.hkIdle_keeps)
    | (with_reducible apply Keeps.forEach; intro _ _ _)
    | (with_reducible apply Keeps.foldl_fst; intro _ _ _)
    | (with_reducible apply Keeps.foldl_snd; intro _ _ _)
    | (with_reducible apply Keeps.foldl; intro _ _ _)
    | decide +kernel
    | exact sub_hk _ (by decide +kernel)
    | exact sub_flt _ (by decide +kernel)
    | exact sub_eng _ (by decide +kernel)
    | exact sub_port _ _ (by decide +kernel)
    | exact sub_win _ (by decide +kernel)
    | exact sub_any _ (by decide +kernel)
    | split

theorem State.hkAdvance_keeps (s : State) (x : Hk) (after : Option Nat) :
    Keeps (foot [.reg (HKx_SEQ_LENGTH 0x1700), .reg (HKx_SEQ_LENGTH 0x1800), .hka, .hkb]) s (State.hkAdvance s x after) := by
  unfold State.hkAdvance
  extract_lets a1 a2
  try clear_value a1
  try clear_value a2
  repeat' first
    | with_reducible assumption
    | with_reducible apply Keeps.refl
    | with_reducible apply Keeps.ite
    | (apply Keeps.step; with_reducible apply State.setHk_keeps)
    | (apply Keeps.step; with_reducible apply State.setFld_keeps)
    | (with_reducible apply Keeps.forEach; intro _ _ _)
    | (with_reducible apply Keeps.foldl_fst; intro _ _ _)
    | (with_reducible apply Keeps.foldl_snd; intro _ _ _)
    | (with_reducible apply Keeps.foldl; intro _ _ _)
    | decide +kernel
    | exact sub_hk _ (by decide +kernel)
    | exact sub_flt _ (by decide +kernel)
    | exact sub_eng _ (by decide +kernel)
    | exact sub_port _ _ (by decide +kernel)
    | exact sub_win _ (by decide +kernel)
    | exact sub_any _ (by decide +kernel)
    | split

theorem State.markExc_keeps (s : State) (x : Hk) :
    Keeps (foot [.hka, .hkb]) s (State.markExc s x) := by
  unfold State.markExc
  extract_lets a1
  try clear_value a1
  repeat' first
    | with_reducible assumption
    | with_reducible apply Keeps.refl
    | with_reducible apply Keeps.ite
    | (apply Keeps.step; with_reducible apply State.setHk_keeps)
    | (with_reducible apply Keeps.forEach; intro _ _ _)
    | (with_reducible apply Keeps.foldl_fst; intro _ _ _)
    | (with_reducible apply Keeps.foldl_snd; intro _ _ _)
    | (with_reducible apply Keeps.foldl; intro _ _ _)
    | decide +kernel
    | exact sub_flt _ (by decide +kernel)
    | exact sub_eng _ (by decide +kernel)
    | exact sub_hk _ (by decide +kernel)
    | exact sub_port _ _ (by decide +kernel)
    | exact sub_win _ (by decide +kernel)
    | exact sub_any _ (by decide +kernel)
    | split

theorem State.excOverload_keeps (s : State) :
    Keeps (foot [.reg GLB_DETERMINISM, .reg LNK_DEADLETTER_COUNT, .reg (ENG_STATUS 0x600), .reg HKS_EXC_STATUS, .reg (ENG_STATUS 0x1B00), .flt, .win .lnk, .recTick, .bar, .faults, .cou, .bru, .lnk, .hka, .hkb, .free, .srcs]) s (State.excOverload s) := by
  unfold State.excOverload
  extract_lets a1
  have ha1 : Keeps (foot [.reg GLB_DETERMINISM, .reg LNK_DEADLETTER_COUNT, .reg (ENG_STATUS 0x600), .reg HKS_EXC_STATUS, .reg (ENG_STATUS 0x1B00), .flt, .win .lnk, .recTick, .bar, .faults, .cou, .bru, .lnk, .hka, .hkb, .free, .srcs]) s a1 := by
    unfold a1
    repeat' first
      | with_reducible assumption
      | with_reducible apply Keeps.refl
      | with_reducible apply Keeps.ite
      | (apply Keeps.step; with_reducible apply State.setFld_keeps)
      | (apply Keeps.step; with_reducible apply State.setBit_keeps)
      | (apply Keeps.step; with_reducible apply State.standing_keeps)
      | (apply Keeps.step; with_reducible apply State.raise_keeps)
      | (apply Keeps.step; with_reducible apply State.inc_keeps)
      | (apply Keeps.step; with_reducible apply State.markExc_keeps)
      | (with_reducible apply Keeps.forEach; intro _ _ _)
      | (with_reducible apply Keeps.foldl_fst; intro _ _ _)
      | (with_reducible apply Keeps.foldl_snd; intro _ _ _)
      | (with_reducible apply Keeps.foldl; intro _ _ _)
      | decide +kernel
      | exact sub_flt _ (by decide +kernel)
      | exact sub_eng _ (by decide +kernel)
      | exact sub_hk _ (by decide +kernel)
      | exact sub_port _ _ (by decide +kernel)
      | exact sub_win _ (by decide +kernel)
      | exact sub_any _ (by decide +kernel)
      | split
  try clear_value a1
  repeat' first
    | with_reducible assumption
    | with_reducible apply Keeps.refl
    | with_reducible apply Keeps.ite
    | (apply Keeps.step; with_reducible apply State.setFld_keeps)
    | (apply Keeps.step; with_reducible apply State.setBit_keeps)
    | (apply Keeps.step; with_reducible apply State.standing_keeps)
    | (apply Keeps.step; with_reducible apply State.raise_keeps)
    | (apply Keeps.step; with_reducible apply State.inc_keeps)
    | (apply Keeps.step; with_reducible apply State.markExc_keeps)
    | (with_reducible apply Keeps.forEach; intro _ _ _)
    | (with_reducible apply Keeps.foldl_fst; intro _ _ _)
    | (with_reducible apply Keeps.foldl_snd; intro _ _ _)
    | (with_reducible apply Keeps.foldl; intro _ _ _)
    | decide +kernel
    | exact sub_flt _ (by decide +kernel)
    | exact sub_eng _ (by decide +kernel)
    | exact sub_hk _ (by decide +kernel)
    | exact sub_port _ _ (by decide +kernel)
    | exact sub_win _ (by decide +kernel)
    | exact sub_any _ (by decide +kernel)
    | split

theorem State.calNext_keeps (s : State) (x : Hk) :
    Keeps (foot [.reg (HKx_CTRL 0x1700), .reg (HKx_STATUS 0x1700), .reg (HKx_CAL_STATUS 0x1700), .reg (HKx_CTRL 0x1800), .reg (HKx_STATUS 0x1800), .reg (HKx_CAL_STATUS 0x1800), .reg HKS_EXC_STATUS, .cou, .bru, .hka, .hkb, .srcs]) s (State.calNext s x) := by
  unfold State.calNext
  extract_lets a1
  try clear_value a1
  repeat' first
    | with_reducible assumption
    | with_reducible apply Keeps.refl
    | with_reducible apply Keeps.ite
    | (apply Keeps.step; with_reducible apply State.calEnd_keeps)
    | (apply Keeps.step; with_reducible apply State.setFld_keeps)
    | (apply Keeps.step; with_reducible apply State.setHk_keeps)
    | (apply Keeps.step; with_reducible apply State.startKind_keeps)
    | (with_reducible apply Keeps.forEach; intro _ _ _)
    | (with_reducible apply Keeps.foldl_fst; intro _ _ _)
    | (with_reducible apply Keeps.foldl_snd; intro _ _ _)
    | (with_reducible apply Keeps.foldl; intro _ _ _)
    | decide +kernel
    | exact sub_hk _ (by decide +kernel)
    | exact sub_flt _ (by decide +kernel)
    | exact sub_eng _ (by decide +kernel)
    | exact sub_port _ _ (by decide +kernel)
    | exact sub_win _ (by decide +kernel)
    | exact sub_any _ (by decide +kernel)
    | split

theorem State.calStart_keeps (s : State) (x : Hk) (gains : Nat) (tol : Nat) :
    Keeps (foot [.reg (HKx_CTRL 0x1700), .reg (HKx_STATUS 0x1700), .reg (HKx_OVERRUN_COUNT 0x1700), .reg (HKx_CAL_STATUS 0x1700), .reg (HKx_CTRL 0x1800), .reg (HKx_STATUS 0x1800), .reg (HKx_OVERRUN_COUNT 0x1800), .reg (HKx_CAL_STATUS 0x1800), .reg HKS_EXC_STATUS, .cou, .bru, .hka, .hkb, .srcs]) s (State.calStart s x gains tol) := by
  unfold State.calStart
  extract_lets a1 a2 a3 a4 a5 a6 a7 a8
  try clear_value a2
  try clear_value a3
  have ha4 : Keeps (foot [.reg (HKx_CTRL 0x1700), .reg (HKx_STATUS 0x1700), .reg (HKx_OVERRUN_COUNT 0x1700), .reg (HKx_CAL_STATUS 0x1700), .reg (HKx_CTRL 0x1800), .reg (HKx_STATUS 0x1800), .reg (HKx_OVERRUN_COUNT 0x1800), .reg (HKx_CAL_STATUS 0x1800), .reg HKS_EXC_STATUS, .cou, .bru, .hka, .hkb, .srcs]) s a4 := by
    unfold a4
    repeat' first
      | with_reducible assumption
      | with_reducible apply Keeps.refl
      | with_reducible apply Keeps.ite
      | (apply Keeps.step; with_reducible apply State.hkAbandon_keeps)
      | (apply Keeps.step; with_reducible apply State.setHk_keeps)
      | (apply Keeps.step; with_reducible apply State.setFld_keeps)
      | (apply Keeps.step; with_reducible apply State.setBit_keeps)
      | (apply Keeps.step; with_reducible apply State.calEnd_keeps)
      | (apply Keeps.step; with_reducible apply State.calNext_keeps)
      | (with_reducible apply Keeps.forEach; intro _ _ _)
      | (with_reducible apply Keeps.foldl_fst; intro _ _ _)
      | (with_reducible apply Keeps.foldl_snd; intro _ _ _)
      | (with_reducible apply Keeps.foldl; intro _ _ _)
      | decide +kernel
      | exact sub_hk _ (by decide +kernel)
      | exact sub_flt _ (by decide +kernel)
      | exact sub_eng _ (by decide +kernel)
      | exact sub_port _ _ (by decide +kernel)
      | exact sub_win _ (by decide +kernel)
      | exact sub_any _ (by decide +kernel)
      | split
  try clear_value a4
  try clear_value a5
  try clear_value a6
  have ha7 : Keeps (foot [.reg (HKx_CTRL 0x1700), .reg (HKx_STATUS 0x1700), .reg (HKx_OVERRUN_COUNT 0x1700), .reg (HKx_CAL_STATUS 0x1700), .reg (HKx_CTRL 0x1800), .reg (HKx_STATUS 0x1800), .reg (HKx_OVERRUN_COUNT 0x1800), .reg (HKx_CAL_STATUS 0x1800), .reg HKS_EXC_STATUS, .cou, .bru, .hka, .hkb, .srcs]) s a7 := by
    unfold a7
    repeat' first
      | with_reducible assumption
      | with_reducible apply Keeps.refl
      | with_reducible apply Keeps.ite
      | (apply Keeps.step; with_reducible apply State.hkAbandon_keeps)
      | (apply Keeps.step; with_reducible apply State.setHk_keeps)
      | (apply Keeps.step; with_reducible apply State.setFld_keeps)
      | (apply Keeps.step; with_reducible apply State.setBit_keeps)
      | (apply Keeps.step; with_reducible apply State.calEnd_keeps)
      | (apply Keeps.step; with_reducible apply State.calNext_keeps)
      | (with_reducible apply Keeps.forEach; intro _ _ _)
      | (with_reducible apply Keeps.foldl_fst; intro _ _ _)
      | (with_reducible apply Keeps.foldl_snd; intro _ _ _)
      | (with_reducible apply Keeps.foldl; intro _ _ _)
      | decide +kernel
      | exact sub_hk _ (by decide +kernel)
      | exact sub_flt _ (by decide +kernel)
      | exact sub_eng _ (by decide +kernel)
      | exact sub_port _ _ (by decide +kernel)
      | exact sub_win _ (by decide +kernel)
      | exact sub_any _ (by decide +kernel)
      | split
  try clear_value a7
  have ha8 : Keeps (foot [.reg (HKx_CTRL 0x1700), .reg (HKx_STATUS 0x1700), .reg (HKx_OVERRUN_COUNT 0x1700), .reg (HKx_CAL_STATUS 0x1700), .reg (HKx_CTRL 0x1800), .reg (HKx_STATUS 0x1800), .reg (HKx_OVERRUN_COUNT 0x1800), .reg (HKx_CAL_STATUS 0x1800), .reg HKS_EXC_STATUS, .cou, .bru, .hka, .hkb, .srcs]) s a8 := by
    unfold a8
    repeat' first
      | with_reducible assumption
      | with_reducible apply Keeps.refl
      | with_reducible apply Keeps.ite
      | (apply Keeps.step; with_reducible apply State.hkAbandon_keeps)
      | (apply Keeps.step; with_reducible apply State.setHk_keeps)
      | (apply Keeps.step; with_reducible apply State.setFld_keeps)
      | (apply Keeps.step; with_reducible apply State.setBit_keeps)
      | (apply Keeps.step; with_reducible apply State.calEnd_keeps)
      | (apply Keeps.step; with_reducible apply State.calNext_keeps)
      | (with_reducible apply Keeps.forEach; intro _ _ _)
      | (with_reducible apply Keeps.foldl_fst; intro _ _ _)
      | (with_reducible apply Keeps.foldl_snd; intro _ _ _)
      | (with_reducible apply Keeps.foldl; intro _ _ _)
      | decide +kernel
      | exact sub_hk _ (by decide +kernel)
      | exact sub_flt _ (by decide +kernel)
      | exact sub_eng _ (by decide +kernel)
      | exact sub_port _ _ (by decide +kernel)
      | exact sub_win _ (by decide +kernel)
      | exact sub_any _ (by decide +kernel)
      | split
  try clear_value a8
  repeat' first
    | with_reducible assumption
    | with_reducible apply Keeps.refl
    | with_reducible apply Keeps.ite
    | (apply Keeps.step; with_reducible apply State.hkAbandon_keeps)
    | (apply Keeps.step; with_reducible apply State.setHk_keeps)
    | (apply Keeps.step; with_reducible apply State.setFld_keeps)
    | (apply Keeps.step; with_reducible apply State.setBit_keeps)
    | (apply Keeps.step; with_reducible apply State.calEnd_keeps)
    | (apply Keeps.step; with_reducible apply State.calNext_keeps)
    | (with_reducible apply Keeps.forEach; intro _ _ _)
    | (with_reducible apply Keeps.foldl_fst; intro _ _ _)
    | (with_reducible apply Keeps.foldl_snd; intro _ _ _)
    | (with_reducible apply Keeps.foldl; intro _ _ _)
    | decide +kernel
    | exact sub_hk _ (by decide +kernel)
    | exact sub_flt _ (by decide +kernel)
    | exact sub_eng _ (by decide +kernel)
    | exact sub_port _ _ (by decide +kernel)
    | exact sub_win _ (by decide +kernel)
    | exact sub_any _ (by decide +kernel)
    | split

theorem State.excCtrlWrite_keeps (s : State) (v : Word) (m : Master) (launched : Bool) :
    Keeps (foot [.reg GLB_DETERMINISM, .reg LNK_DEADLETTER_COUNT, .reg (ENG_STATUS 0x600), .reg HKS_EXC_CTRL, .reg HKS_EXC_STATUS, .reg (ENG_STATUS 0x1B00), .flt, .win .lnk, .recTick, .bar, .faults, .cou, .bru, .lnk, .free, .srcs]) s (State.excCtrlWrite s v m launched) := by
  unfold State.excCtrlWrite
  extract_lets a1 a2 a3 a4
  try clear_value a1
  try clear_value a2
  try clear_value a3
  try clear_value a4
  repeat' first
    | with_reducible assumption
    | with_reducible apply Keeps.refl
    | with_reducible apply Keeps.ite
    | (apply Keeps.step; with_reducible apply State.raiseWith_keeps)
    | (apply Keeps.step; with_reducible apply State.setBit_keeps)
    | (apply Keeps.step; with_reducible apply State.param_keeps)
    | (apply Keeps.step; with_reducible apply State.setReg_keeps)
    | (with_reducible apply Keeps.forEach; intro _ _ _)
    | (with_reducible apply Keeps.foldl_fst; intro _ _ _)
    | (with_reducible apply Keeps.foldl_snd; intro _ _ _)
    | (with_reducible apply Keeps.foldl; intro _ _ _)
    | decide +kernel
    | exact sub_flt _ (by decide +kernel)
    | exact sub_eng _ (by decide +kernel)
    | exact sub_hk _ (by decide +kernel)
    | exact sub_port _ _ (by decide +kernel)
    | exact sub_win _ (by decide +kernel)
    | exact sub_any _ (by decide +kernel)
    | split

theorem State.excClear_keeps (s : State) :
    Keeps (foot [.reg HKS_EXC_STATUS]) s (State.excClear s) := by
  unfold State.excClear
  repeat' first
    | with_reducible assumption
    | with_reducible apply Keeps.refl
    | with_reducible apply Keeps.ite
    | (apply Keeps.step; with_reducible apply State.setBit_keeps)
    | (with_reducible apply Keeps.forEach; intro _ _ _)
    | (with_reducible apply Keeps.foldl_fst; intro _ _ _)
    | (with_reducible apply Keeps.foldl_snd; intro _ _ _)
    | (with_reducible apply Keeps.foldl; intro _ _ _)
    | decide +kernel
    | exact sub_flt _ (by decide +kernel)
    | exact sub_eng _ (by decide +kernel)
    | exact sub_hk _ (by decide +kernel)
    | exact sub_port _ _ (by decide +kernel)
    | exact sub_win _ (by decide +kernel)
    | exact sub_any _ (by decide +kernel)
    | split

theorem State.checkDone_keeps (s : State) (x : Hk) (v : Int) (ns : Bool) :
    Keeps (foot [.reg GLB_DETERMINISM, .reg LNK_DEADLETTER_COUNT, .reg (ENG_STATUS 0x600), .reg HKS_CHECK_STATUS, .reg HKS_CHECK_DIFF, .reg (ENG_STATUS 0x1B00), .flt, .win .lnk, .recTick, .bar, .faults, .cou, .bru, .lnk, .hka, .hkb, .free, .srcs]) s (State.checkDone s x v ns) := by
  unfold State.checkDone
  extract_lets a1 a2
  try clear_value a1
  have ha2 : Keeps (foot [.reg GLB_DETERMINISM, .reg LNK_DEADLETTER_COUNT, .reg (ENG_STATUS 0x600), .reg HKS_CHECK_STATUS, .reg HKS_CHECK_DIFF, .reg (ENG_STATUS 0x1B00), .flt, .win .lnk, .recTick, .bar, .faults, .cou, .bru, .lnk, .hka, .hkb, .free, .srcs]) s a2 := by
    unfold a2
    repeat' first
      | with_reducible assumption
      | with_reducible apply Keeps.refl
      | with_reducible apply Keeps.ite
      | (apply Keeps.step; with_reducible apply State.setHk_keeps)
      | (apply Keeps.step; with_reducible apply State.setFld_keeps)
      | (apply Keeps.step; with_reducible apply State.setBit_keeps)
      | (apply Keeps.step; with_reducible apply State.raise_keeps)
      | (apply Keeps.step; with_reducible apply State.inc_keeps)
      | (with_reducible apply Keeps.forEach; intro _ _ _)
      | (with_reducible apply Keeps.foldl_fst; intro _ _ _)
      | (with_reducible apply Keeps.foldl_snd; intro _ _ _)
      | (with_reducible apply Keeps.foldl; intro _ _ _)
      | decide +kernel
      | exact sub_flt _ (by decide +kernel)
      | exact sub_eng _ (by decide +kernel)
      | exact sub_hk _ (by decide +kernel)
      | exact sub_port _ _ (by decide +kernel)
      | exact sub_win _ (by decide +kernel)
      | exact sub_any _ (by decide +kernel)
      | split
  try clear_value a2
  repeat' first
    | with_reducible assumption
    | with_reducible apply Keeps.refl
    | with_reducible apply Keeps.ite
    | (apply Keeps.step; with_reducible apply State.setHk_keeps)
    | (apply Keeps.step; with_reducible apply State.setFld_keeps)
    | (apply Keeps.step; with_reducible apply State.setBit_keeps)
    | (apply Keeps.step; with_reducible apply State.raise_keeps)
    | (apply Keeps.step; with_reducible apply State.inc_keeps)
    | (with_reducible apply Keeps.forEach; intro _ _ _)
    | (with_reducible apply Keeps.foldl_fst; intro _ _ _)
    | (with_reducible apply Keeps.foldl_snd; intro _ _ _)
    | (with_reducible apply Keeps.foldl; intro _ _ _)
    | decide +kernel
    | exact sub_flt _ (by decide +kernel)
    | exact sub_eng _ (by decide +kernel)
    | exact sub_hk _ (by decide +kernel)
    | exact sub_port _ _ (by decide +kernel)
    | exact sub_win _ (by decide +kernel)
    | exact sub_any _ (by decide +kernel)
    | split

theorem State.varRename_keeps (s : State) :
    Keeps (foot [.var, .hka, .hkb]) s (State.varRename s) := by
  unfold State.varRename
  extract_lets a1 a2 a3 a4 a5
  try clear_value a1
  try clear_value a2
  try clear_value a3
  try clear_value a4
  try clear_value a5
  repeat' first
    | with_reducible assumption
    | with_reducible apply Keeps.refl
    | with_reducible apply Keeps.ite
    | (with_reducible apply Keeps.forEach; intro _ _ _)
    | (with_reducible apply Keeps.foldl_fst; intro _ _ _)
    | (with_reducible apply Keeps.foldl_snd; intro _ _ _)
    | (with_reducible apply Keeps.foldl; intro _ _ _)
    | split
    | refine Keeps.upd ?_

theorem State.markNs_keeps (s : State) (x : Hk) :
    Keeps (foot [.hka, .hkb]) s (State.markNs s x) := by
  unfold State.markNs
  extract_lets a1
  try clear_value a1
  repeat' first
    | with_reducible assumption
    | with_reducible apply Keeps.refl
    | with_reducible apply Keeps.ite
    | (apply Keeps.step; with_reducible apply State.setHk_keeps)
    | (with_reducible apply Keeps.forEach; intro _ _ _)
    | (with_reducible apply Keeps.foldl_fst; intro _ _ _)
    | (with_reducible apply Keeps.foldl_snd; intro _ _ _)
    | (with_reducible apply Keeps.foldl; intro _ _ _)
    | decide +kernel
    | exact sub_flt _ (by decide +kernel)
    | exact sub_eng _ (by decide +kernel)
    | exact sub_hk _ (by decide +kernel)
    | exact sub_port _ _ (by decide +kernel)
    | exact sub_win _ (by decide +kernel)
    | exact sub_any _ (by decide +kernel)
    | split

theorem State.refUpdate_keeps (s : State) :
    Keeps (foot [.reg (HKx_CTRL 0x1700), .reg (HKx_CAL_STATUS 0x1700), .reg (HKx_CTRL 0x1800), .reg (HKx_CAL_STATUS 0x1800), .reg HKS_REFBUF_STATUS, .reg HKS_EXC_STATUS, .cou, .bru, .hka, .hkb, .refOnAt]) s (State.refUpdate s) := by
  unfold State.refUpdate
  extract_lets a1 a2
  try clear_value a1
  have ha2 : Keeps (foot [.reg (HKx_CTRL 0x1700), .reg (HKx_CAL_STATUS 0x1700), .reg (HKx_CTRL 0x1800), .reg (HKx_CAL_STATUS 0x1800), .reg HKS_REFBUF_STATUS, .reg HKS_EXC_STATUS, .cou, .bru, .hka, .hkb, .refOnAt]) s a2 := by
    unfold a2
    repeat' first
      | with_reducible assumption
      | with_reducible apply Keeps.refl
      | with_reducible apply Keeps.ite
      | (apply Keeps.step; with_reducible apply State.setBit_keeps)
      | (apply Keeps.step; with_reducible apply State.calInterrupt_keeps)
      | (apply Keeps.step; with_reducible apply State.markNs_keeps)
      | (with_reducible apply Keeps.forEach; intro _ _ _)
      | (with_reducible apply Keeps.foldl_fst; intro _ _ _)
      | (with_reducible apply Keeps.foldl_snd; intro _ _ _)
      | (with_reducible apply Keeps.foldl; intro _ _ _)
      | decide +kernel
      | exact sub_flt _ (by decide +kernel)
      | exact sub_eng _ (by decide +kernel)
      | exact sub_hk _ (by decide +kernel)
      | exact sub_port _ _ (by decide +kernel)
      | exact sub_win _ (by decide +kernel)
      | exact sub_any _ (by decide +kernel)
      | split
      | refine Keeps.upd ?_
  try clear_value a2
  repeat' first
    | with_reducible assumption
    | with_reducible apply Keeps.refl
    | with_reducible apply Keeps.ite
    | (apply Keeps.step; with_reducible apply State.setBit_keeps)
    | (apply Keeps.step; with_reducible apply State.calInterrupt_keeps)
    | (apply Keeps.step; with_reducible apply State.markNs_keeps)
    | (with_reducible apply Keeps.forEach; intro _ _ _)
    | (with_reducible apply Keeps.foldl_fst; intro _ _ _)
    | (with_reducible apply Keeps.foldl_snd; intro _ _ _)
    | (with_reducible apply Keeps.foldl; intro _ _ _)
    | decide +kernel
    | exact sub_flt _ (by decide +kernel)
    | exact sub_eng _ (by decide +kernel)
    | exact sub_hk _ (by decide +kernel)
    | exact sub_port _ _ (by decide +kernel)
    | exact sub_win _ (by decide +kernel)
    | exact sub_any _ (by decide +kernel)
    | split
    | refine Keeps.upd ?_

theorem State.hkSleep_keeps (s : State) :
    Keeps (foot [.reg (HKx_CTRL 0x1700), .reg (HKx_STATUS 0x1700), .reg (HKx_OVERRUN_COUNT 0x1700), .reg (HKx_CAL_STATUS 0x1700), .reg (HKx_CTRL 0x1800), .reg (HKx_STATUS 0x1800), .reg (HKx_OVERRUN_COUNT 0x1800), .reg (HKx_CAL_STATUS 0x1800), .reg HKS_REFBUF_STATUS, .reg HKS_EXC_STATUS, .cou, .bru, .pwr, .hka, .hkb, .refOnAt]) s (State.hkSleep s) := by
  unfold State.hkSleep
  extract_lets a1 a2 a3 a4 a5
  have ha1 : Keeps (foot [.reg (HKx_CTRL 0x1700), .reg (HKx_STATUS 0x1700), .reg (HKx_OVERRUN_COUNT 0x1700), .reg (HKx_CAL_STATUS 0x1700), .reg (HKx_CTRL 0x1800), .reg (HKx_STATUS 0x1800), .reg (HKx_OVERRUN_COUNT 0x1800), .reg (HKx_CAL_STATUS 0x1800), .reg HKS_REFBUF_STATUS, .reg HKS_EXC_STATUS, .cou, .bru, .pwr, .hka, .hkb, .refOnAt]) s a1 := by
    unfold a1
    repeat' first
      | with_reducible assumption
      | with_reducible apply Keeps.refl
      | with_reducible apply Keeps.ite
      | (apply Keeps.step; with_reducible apply State.hkRestartAt_keeps)
      | (apply Keeps.step; with_reducible apply State.excPins_keeps)
      | (apply Keeps.step; with_reducible apply State.refUpdate_keeps)
      | (with_reducible apply Keeps.forEach; intro _ _ _)
      | (with_reducible apply Keeps.foldl_fst; intro _ _ _)
      | (with_reducible apply Keeps.foldl_snd; intro _ _ _)
      | (with_reducible apply Keeps.foldl; intro _ _ _)
      | decide +kernel
      | exact sub_flt _ (by decide +kernel)
      | exact sub_eng _ (by decide +kernel)
      | exact sub_hk _ (by decide +kernel)
      | exact sub_port _ _ (by decide +kernel)
      | exact sub_win _ (by decide +kernel)
      | exact sub_any _ (by decide +kernel)
      | split
      | refine Keeps.upd ?_
  try clear_value a1
  try clear_value a2
  try clear_value a3
  try clear_value a4
  have ha5 : Keeps (foot [.reg (HKx_CTRL 0x1700), .reg (HKx_STATUS 0x1700), .reg (HKx_OVERRUN_COUNT 0x1700), .reg (HKx_CAL_STATUS 0x1700), .reg (HKx_CTRL 0x1800), .reg (HKx_STATUS 0x1800), .reg (HKx_OVERRUN_COUNT 0x1800), .reg (HKx_CAL_STATUS 0x1800), .reg HKS_REFBUF_STATUS, .reg HKS_EXC_STATUS, .cou, .bru, .pwr, .hka, .hkb, .refOnAt]) s a5 := by
    unfold a5
    repeat' first
      | with_reducible assumption
      | with_reducible apply Keeps.refl
      | with_reducible apply Keeps.ite
      | (apply Keeps.step; with_reducible apply State.hkRestartAt_keeps)
      | (apply Keeps.step; with_reducible apply State.excPins_keeps)
      | (apply Keeps.step; with_reducible apply State.refUpdate_keeps)
      | (with_reducible apply Keeps.forEach; intro _ _ _)
      | (with_reducible apply Keeps.foldl_fst; intro _ _ _)
      | (with_reducible apply Keeps.foldl_snd; intro _ _ _)
      | (with_reducible apply Keeps.foldl; intro _ _ _)
      | decide +kernel
      | exact sub_flt _ (by decide +kernel)
      | exact sub_eng _ (by decide +kernel)
      | exact sub_hk _ (by decide +kernel)
      | exact sub_port _ _ (by decide +kernel)
      | exact sub_win _ (by decide +kernel)
      | exact sub_any _ (by decide +kernel)
      | split
      | refine Keeps.upd ?_
  try clear_value a5
  repeat' first
    | with_reducible assumption
    | with_reducible apply Keeps.refl
    | with_reducible apply Keeps.ite
    | (apply Keeps.step; with_reducible apply State.hkRestartAt_keeps)
    | (apply Keeps.step; with_reducible apply State.excPins_keeps)
    | (apply Keeps.step; with_reducible apply State.refUpdate_keeps)
    | (with_reducible apply Keeps.forEach; intro _ _ _)
    | (with_reducible apply Keeps.foldl_fst; intro _ _ _)
    | (with_reducible apply Keeps.foldl_snd; intro _ _ _)
    | (with_reducible apply Keeps.foldl; intro _ _ _)
    | decide +kernel
    | exact sub_flt _ (by decide +kernel)
    | exact sub_eng _ (by decide +kernel)
    | exact sub_hk _ (by decide +kernel)
    | exact sub_port _ _ (by decide +kernel)
    | exact sub_win _ (by decide +kernel)
    | exact sub_any _ (by decide +kernel)
    | split
    | refine Keeps.upd ?_

theorem State.hkHalt_keeps (s : State) (x : Hk) :
    Keeps (foot [.reg (HKx_CTRL 0x1700), .reg (HKx_STATUS 0x1700), .reg (HKx_OVERRUN_COUNT 0x1700), .reg (HKx_CAL_STATUS 0x1700), .reg (HKx_CTRL 0x1800), .reg (HKx_STATUS 0x1800), .reg (HKx_OVERRUN_COUNT 0x1800), .reg (HKx_CAL_STATUS 0x1800), .reg HKS_EXC_STATUS, .cou, .bru, .hka, .hkb]) s (State.hkHalt s x) := by
  unfold State.hkHalt
  extract_lets a1 a2
  have ha1 : Keeps (foot [.reg (HKx_CTRL 0x1700), .reg (HKx_STATUS 0x1700), .reg (HKx_OVERRUN_COUNT 0x1700), .reg (HKx_CAL_STATUS 0x1700), .reg (HKx_CTRL 0x1800), .reg (HKx_STATUS 0x1800), .reg (HKx_OVERRUN_COUNT 0x1800), .reg (HKx_CAL_STATUS 0x1800), .reg HKS_EXC_STATUS, .cou, .bru, .hka, .hkb]) s a1 := by
    unfold a1
    repeat' first
      | with_reducible assumption
      | with_reducible apply Keeps.refl
      | with_reducible apply Keeps.ite
      | (apply Keeps.step; with_reducible apply State.hkRestartAt_keeps)
      | (apply Keeps.step; with_reducible apply State.setFld_keeps)
      | (apply Keeps.step; with_reducible apply State.setHk_keeps)
      | (with_reducible apply Keeps.forEach; intro _ _ _)
      | (with_reducible apply Keeps.foldl_fst; intro _ _ _)
      | (with_reducible apply Keeps.foldl_snd; intro _ _ _)
      | (with_reducible apply Keeps.foldl; intro _ _ _)
      | decide +kernel
      | exact sub_hk _ (by decide +kernel)
      | exact sub_flt _ (by decide +kernel)
      | exact sub_eng _ (by decide +kernel)
      | exact sub_port _ _ (by decide +kernel)
      | exact sub_win _ (by decide +kernel)
      | exact sub_any _ (by decide +kernel)
      | split
  try clear_value a1
  try clear_value a2
  repeat' first
    | with_reducible assumption
    | with_reducible apply Keeps.refl
    | with_reducible apply Keeps.ite
    | (apply Keeps.step; with_reducible apply State.hkRestartAt_keeps)
    | (apply Keeps.step; with_reducible apply State.setFld_keeps)
    | (apply Keeps.step; with_reducible apply State.setHk_keeps)
    | (with_reducible apply Keeps.forEach; intro _ _ _)
    | (with_reducible apply Keeps.foldl_fst; intro _ _ _)
    | (with_reducible apply Keeps.foldl_snd; intro _ _ _)
    | (with_reducible apply Keeps.foldl; intro _ _ _)
    | decide +kernel
    | exact sub_hk _ (by decide +kernel)
    | exact sub_flt _ (by decide +kernel)
    | exact sub_eng _ (by decide +kernel)
    | exact sub_port _ _ (by decide +kernel)
    | exact sub_win _ (by decide +kernel)
    | exact sub_any _ (by decide +kernel)
    | split

theorem State.refWake_keeps (s : State) :
    Keeps (foot [.reg (HKx_CTRL 0x1700), .reg (HKx_CAL_STATUS 0x1700), .reg (HKx_CTRL 0x1800), .reg (HKx_CAL_STATUS 0x1800), .reg HKS_REFBUF_STATUS, .reg HKS_EXC_STATUS, .cou, .bru, .pwr, .hka, .hkb, .refOnAt]) s (State.refWake s) := by
  unfold State.refWake
  extract_lets a1
  try clear_value a1
  repeat' first
    | with_reducible assumption
    | with_reducible apply Keeps.refl
    | with_reducible apply Keeps.ite
    | (apply Keeps.step; with_reducible apply State.refUpdate_keeps)
    | (with_reducible apply Keeps.forEach; intro _ _ _)
    | (with_reducible apply Keeps.foldl_fst; intro _ _ _)
    | (with_reducible apply Keeps.foldl_snd; intro _ _ _)
    | (with_reducible apply Keeps.foldl; intro _ _ _)
    | decide +kernel
    | exact sub_flt _ (by decide +kernel)
    | exact sub_eng _ (by decide +kernel)
    | exact sub_hk _ (by decide +kernel)
    | exact sub_port _ _ (by decide +kernel)
    | exact sub_win _ (by decide +kernel)
    | exact sub_any _ (by decide +kernel)
    | split
    | refine Keeps.upd ?_

theorem State.hkBegin_keeps (s : State) (x : Hk) :
    Keeps (foot [.reg (HKx_CTRL 0x1700), .reg (HKx_STATUS 0x1700), .reg (HKx_CTRL 0x1800), .reg (HKx_STATUS 0x1800), .reg HKS_EXC_STATUS, .hka, .hkb, .srcs]) s (State.hkBegin s x) := by
  unfold State.hkBegin
  extract_lets a1
  try clear_value a1
  repeat' first
    | with_reducible assumption
    | with_reducible apply Keeps.refl
    | with_reducible apply Keeps.ite
    | (apply Keeps.step; with_reducible apply State.startKind_keeps)
    | (apply Keeps.step; with_reducible apply State.passStart_keeps)
    | (with_reducible apply Keeps.forEach; intro _ _ _)
    | (with_reducible apply Keeps.foldl_fst; intro _ _ _)
    | (with_reducible apply Keeps.foldl_snd; intro _ _ _)
    | (with_reducible apply Keeps.foldl; intro _ _ _)
    | decide +kernel
    | exact sub_flt _ (by decide +kernel)
    | exact sub_eng _ (by decide +kernel)
    | exact sub_hk _ (by decide +kernel)
    | exact sub_port _ _ (by decide +kernel)
    | exact sub_win _ (by decide +kernel)
    | exact sub_any _ (by decide +kernel)
    | split

theorem State.hkConsume_keeps (s : State) (x : Hk) :
    Keeps (foot [.reg (HKx_DATA 0x1700), .reg (HKx_DATA 0x1800)]) s (State.hkConsume s x) := by
  unfold State.hkConsume
  repeat' first
    | with_reducible assumption
    | with_reducible apply Keeps.refl
    | with_reducible apply Keeps.ite
    | (apply Keeps.step; with_reducible apply State.setBit_keeps)
    | (with_reducible apply Keeps.forEach; intro _ _ _)
    | (with_reducible apply Keeps.foldl_fst; intro _ _ _)
    | (with_reducible apply Keeps.foldl_snd; intro _ _ _)
    | (with_reducible apply Keeps.foldl; intro _ _ _)
    | decide +kernel
    | exact sub_hk _ (by decide +kernel)
    | exact sub_flt _ (by decide +kernel)
    | exact sub_eng _ (by decide +kernel)
    | exact sub_port _ _ (by decide +kernel)
    | exact sub_win _ (by decide +kernel)
    | exact sub_any _ (by decide +kernel)
    | split

theorem State.handOne_keeps (s : State) (x : Hk) (i : Nat) (k : VCopy) :
    Keeps (foot [.reg GLB_DETERMINISM, .reg LNK_DEADLETTER_COUNT, .reg (ENG_STATUS 0x600), .reg VAR_T_STATUS, .reg (HKx_DATA 0x1700), .reg (HKx_DATA 0x1800), .reg (ENG_STATUS 0x1B00), .flt, .win .lnk, .recTick, .bar, .faults, .cou, .bru, .var, .lnk, .free, .srcs]) s (State.handOne s x i k) := by
  unfold State.handOne
  extract_lets a1 a2
  have ha2 : Keeps (foot [.reg GLB_DETERMINISM, .reg LNK_DEADLETTER_COUNT, .reg (ENG_STATUS 0x600), .reg VAR_T_STATUS, .reg (HKx_DATA 0x1700), .reg (HKx_DATA 0x1800), .reg (ENG_STATUS 0x1B00), .flt, .win .lnk, .recTick, .bar, .faults, .cou, .bru, .var, .lnk, .free, .srcs]) s a2 := by
    unfold a2
    repeat' first
      | with_reducible assumption
      | with_reducible apply Keeps.refl
      | with_reducible apply Keeps.ite
      | (apply Keeps.step; with_reducible apply State.handover_keeps)
      | (apply Keeps.step; with_reducible apply State.hkConsume_keeps)
      | (with_reducible apply Keeps.forEach; intro _ _ _)
      | (with_reducible apply Keeps.foldl_fst; intro _ _ _)
      | (with_reducible apply Keeps.foldl_snd; intro _ _ _)
      | (with_reducible apply Keeps.foldl; intro _ _ _)
      | decide +kernel
      | exact sub_flt _ (by decide +kernel)
      | exact sub_eng _ (by decide +kernel)
      | exact sub_hk _ (by decide +kernel)
      | exact sub_port _ _ (by decide +kernel)
      | exact sub_win _ (by decide +kernel)
      | exact sub_any _ (by decide +kernel)
      | split
  try clear_value a2
  repeat' first
    | with_reducible assumption
    | with_reducible apply Keeps.refl
    | with_reducible apply Keeps.ite
    | (apply Keeps.step; with_reducible apply State.handover_keeps)
    | (apply Keeps.step; with_reducible apply State.hkConsume_keeps)
    | (with_reducible apply Keeps.forEach; intro _ _ _)
    | (with_reducible apply Keeps.foldl_fst; intro _ _ _)
    | (with_reducible apply Keeps.foldl_snd; intro _ _ _)
    | (with_reducible apply Keeps.foldl; intro _ _ _)
    | decide +kernel
    | exact sub_flt _ (by decide +kernel)
    | exact sub_eng _ (by decide +kernel)
    | exact sub_hk _ (by decide +kernel)
    | exact sub_port _ _ (by decide +kernel)
    | exact sub_win _ (by decide +kernel)
    | exact sub_any _ (by decide +kernel)
    | split

theorem State.handAll_keeps (s : State) (x : Hk) :
    Keeps (foot [.reg GLB_DETERMINISM, .reg LNK_DEADLETTER_COUNT, .reg (ENG_STATUS 0x600), .reg VAR_T_STATUS, .reg (HKx_DATA 0x1700), .reg (HKx_DATA 0x1800), .reg (ENG_STATUS 0x1B00), .flt, .win .lnk, .recTick, .bar, .faults, .cou, .bru, .var, .lnk, .hka, .hkb, .free, .srcs]) s (State.handAll s x) := by
  unfold State.handAll
  extract_lets a1 a2
  try clear_value a1
  try clear_value a2
  repeat' first
    | with_reducible assumption
    | with_reducible apply Keeps.refl
    | with_reducible apply Keeps.ite
    | (apply Keeps.step; with_reducible apply State.handOne_keeps)
    | (apply Keeps.step; with_reducible apply State.setHk_keeps)
    | (with_reducible apply Keeps.forEach; intro _ _ _)
    | (with_reducible apply Keeps.foldl_fst; intro _ _ _)
    | (with_reducible apply Keeps.foldl_snd; intro _ _ _)
    | (with_reducible apply Keeps.foldl; intro _ _ _)
    | decide +kernel
    | exact sub_flt _ (by decide +kernel)
    | exact sub_eng _ (by decide +kernel)
    | exact sub_hk _ (by decide +kernel)
    | exact sub_port _ _ (by decide +kernel)
    | exact sub_win _ (by decide +kernel)
    | exact sub_any _ (by decide +kernel)
    | split

theorem State.redundantSel_keeps (s : State) (v : Word) (launched : Bool) :
    Keeps (foot [.reg GLB_DETERMINISM, .reg HKS_REDUNDANT_SEL, .faults]) s (State.redundantSel s v launched) := by
  unfold State.redundantSel
  extract_lets a1
  try clear_value a1
  repeat' first
    | with_reducible assumption
    | with_reducible apply Keeps.refl
    | with_reducible apply Keeps.ite
    | (apply Keeps.step; with_reducible apply State.param_keeps)
    | (apply Keeps.step; with_reducible apply State.setReg_keeps)
    | (with_reducible apply Keeps.forEach; intro _ _ _)
    | (with_reducible apply Keeps.foldl_fst; intro _ _ _)
    | (with_reducible apply Keeps.foldl_snd; intro _ _ _)
    | (with_reducible apply Keeps.foldl; intro _ _ _)
    | decide +kernel
    | exact sub_flt _ (by decide +kernel)
    | exact sub_eng _ (by decide +kernel)
    | exact sub_hk _ (by decide +kernel)
    | exact sub_port _ _ (by decide +kernel)
    | exact sub_win _ (by decide +kernel)
    | exact sub_any _ (by decide +kernel)
    | split

theorem State.passBegin_keeps (s : State) (x : Hk) :
    Keeps (foot [.reg (HKx_CTRL 0x1700), .reg (HKx_STATUS 0x1700), .reg (HKx_CTRL 0x1800), .reg (HKx_STATUS 0x1800), .reg HKS_EXC_STATUS, .hka, .hkb, .srcs]) s (State.passBegin s x) := by
  unfold State.passBegin
  repeat' first
    | with_reducible assumption
    | with_reducible apply Keeps.refl
    | with_reducible apply Keeps.ite
    | (apply Keeps.step; with_reducible apply State.passStart_keeps)
    | (with_reducible apply Keeps.forEach; intro _ _ _)
    | (with_reducible apply Keeps.foldl_fst; intro _ _ _)
    | (with_reducible apply Keeps.foldl_snd; intro _ _ _)
    | (with_reducible apply Keeps.foldl; intro _ _ _)
    | decide +kernel
    | exact sub_flt _ (by decide +kernel)
    | exact sub_eng _ (by decide +kernel)
    | exact sub_hk _ (by decide +kernel)
    | exact sub_port _ _ (by decide +kernel)
    | exact sub_win _ (by decide +kernel)
    | exact sub_any _ (by decide +kernel)
    | split

theorem State.hkRead_keeps (s : State) (x : Hk) :
    Keeps (foot [.reg (HKx_DATA 0x1700), .reg (HKx_DATA 0x1800)]) s (State.hkRead s x).2 := by
  unfold State.hkRead
  repeat' first
    | with_reducible assumption
    | with_reducible apply Keeps.refl
    | split
    | with_reducible apply Keeps.ite
    | (apply Keeps.step; with_reducible apply State.hkConsume_keeps)
    | (with_reducible apply Keeps.forEach; intro _ _ _)
    | (with_reducible apply Keeps.foldl_fst; intro _ _ _)
    | (with_reducible apply Keeps.foldl_snd; intro _ _ _)
    | (with_reducible apply Keeps.foldl; intro _ _ _)
    | decide +kernel
    | exact sub_flt _ (by decide +kernel)
    | exact sub_eng _ (by decide +kernel)
    | exact sub_hk _ (by decide +kernel)
    | exact sub_port _ _ (by decide +kernel)
    | exact sub_win _ (by decide +kernel)
    | exact sub_any _ (by decide +kernel)

theorem State.hkRun_keeps (s : State) (x : Hk) (run : Bool) (launched : Bool) :
    Keeps (foot [.reg GLB_DETERMINISM, .reg (HKx_CTRL 0x1700), .reg (HKx_STATUS 0x1700), .reg (HKx_OVERRUN_COUNT 0x1700), .reg (HKx_CAL_STATUS 0x1700), .reg (HKx_CTRL 0x1800), .reg (HKx_STATUS 0x1800), .reg (HKx_OVERRUN_COUNT 0x1800), .reg (HKx_CAL_STATUS 0x1800), .reg HKS_EXC_STATUS, .faults, .cou, .bru, .hka, .hkb, .srcs]) s (State.hkRun s x run launched) := by
  unfold State.hkRun
  extract_lets a1 a2 a3
  try clear_value a2
  have ha3 : Keeps (foot [.reg GLB_DETERMINISM, .reg (HKx_CTRL 0x1700), .reg (HKx_STATUS 0x1700), .reg (HKx_OVERRUN_COUNT 0x1700), .reg (HKx_CAL_STATUS 0x1700), .reg (HKx_CTRL 0x1800), .reg (HKx_STATUS 0x1800), .reg (HKx_OVERRUN_COUNT 0x1800), .reg (HKx_CAL_STATUS 0x1800), .reg HKS_EXC_STATUS, .faults, .cou, .bru, .hka, .hkb, .srcs]) s a3 := by
    unfold a3
    repeat' first
      | with_reducible assumption
      | with_reducible apply Keeps.refl
      | (show _ ||| _ = _; unfold a1; split <;> decide +kernel)
      | with_reducible apply Keeps.ite
      | (apply Keeps.step; with_reducible apply State.param_keeps)
      | (apply Keeps.step; with_reducible apply State.setBit_keeps)
      | (apply Keeps.step; with_reducible apply State.passStart_keeps)
      | (apply Keeps.step; with_reducible apply State.hkRestartAt_keeps)
      | (with_reducible apply Keeps.forEach; intro _ _ _)
      | (with_reducible apply Keeps.foldl_fst; intro _ _ _)
      | (with_reducible apply Keeps.foldl_snd; intro _ _ _)
      | (with_reducible apply Keeps.foldl; intro _ _ _)
      | decide +kernel
      | exact sub_hk _ (by decide +kernel)
      | exact sub_flt _ (by decide +kernel)
      | exact sub_eng _ (by decide +kernel)
      | exact sub_port _ _ (by decide +kernel)
      | exact sub_win _ (by decide +kernel)
      | exact sub_any _ (by decide +kernel)
      | split
  try clear_value a3
  repeat' first
    | with_reducible assumption
    | with_reducible apply Keeps.refl
    | (show _ ||| _ = _; unfold a1; split <;> decide +kernel)
    | with_reducible apply Keeps.ite
    | (apply Keeps.step; with_reducible apply State.param_keeps)
    | (apply Keeps.step; with_reducible apply State.setBit_keeps)
    | (apply Keeps.step; with_reducible apply State.passStart_keeps)
    | (apply Keeps.step; with_reducible apply State.hkRestartAt_keeps)
    | (with_reducible apply Keeps.forEach; intro _ _ _)
    | (with_reducible apply Keeps.foldl_fst; intro _ _ _)
    | (with_reducible apply Keeps.foldl_snd; intro _ _ _)
    | (with_reducible apply Keeps.foldl; intro _ _ _)
    | decide +kernel
    | exact sub_hk _ (by decide +kernel)
    | exact sub_flt _ (by decide +kernel)
    | exact sub_eng _ (by decide +kernel)
    | exact sub_port _ _ (by decide +kernel)
    | exact sub_win _ (by decide +kernel)
    | exact sub_any _ (by decide +kernel)
    | split

theorem State.calGainDone_keeps (s : State) (x : Hk) :
    Keeps (foot [.anyReg, .win .lnk, .win .cal, .recTick, .bar, .faults, .cou, .bru, .lnk, .hka, .hkb, .free, .srcs]) s (State.calGainDone s x) := by
  unfold State.calGainDone
  extract_lets a1 a2 a3 a4 a5
  try clear_value a2 a3 a4 a5
  split
  · exact Keeps.refl _ _
  extract_lets s1 s2
  have h1 : Keeps (foot [.anyReg, .win .lnk, .win .cal, .recTick, .bar, .faults, .cou, .bru, .lnk, .hka, .hkb, .free, .srcs]) s s1 := by
    apply Keeps.step
    · with_reducible apply State.setFld_keeps
    · exact sub_hk _ (by decide +kernel)
    apply Keeps.step
    · with_reducible apply State.setHk_keeps
    · decide +kernel
    exact Keeps.refl _ _
  try clear_value s1
  have h2 : Keeps (foot [.anyReg, .win .lnk, .win .cal, .recTick, .bar, .faults, .cou, .bru, .lnk, .hka, .hkb, .free, .srcs]) s s2 := by
    unfold s2
    with_reducible apply Keeps.ite
    · apply Keeps.step
      · with_reducible apply State.setWinN_keeps
      · decide +kernel
      apply Keeps.step
      · with_reducible apply State.setFld_keeps
      · exact sub_hk _ (by decide +kernel)
      apply Keeps.step
      · with_reducible apply State.setFld_keeps
      · exact sub_hkg _ _ _ (by decide +kernel)
      apply Keeps.step
      · with_reducible apply State.setFld_keeps
      · exact sub_hkg _ _ _ (by decide +kernel)
      exact h1
    · apply Keeps.step
      · with_reducible apply State.raise_keeps
      · decide +kernel
      apply Keeps.step
      · with_reducible apply State.setFld_keeps
      · exact sub_hk _ (by decide +kernel)
      exact h1
  try clear_value s2
  apply Keeps.step
  · with_reducible apply State.calNext_keeps
  · decide +kernel
  exact h2


theorem State.hkResult_keeps (s : State) (x : Hk) (c : HkConv) :
    Keeps (foot [.reg GLB_DETERMINISM, .reg LNK_DEADLETTER_COUNT, .reg (ENG_STATUS 0x600), .reg (HKx_STATUS 0x1700), .reg (HKx_DATA 0x1700), .reg (HKx_OVERRUN_COUNT 0x1700), .reg (HKx_STATUS 0x1800), .reg (HKx_DATA 0x1800), .reg (HKx_OVERRUN_COUNT 0x1800), .reg CAL_TRACE_STATUS, .reg (ENG_STATUS 0x1B00), .flt, .win .lnk, .recTick, .bar, .faults, .cou, .bru, .var, .lnk, .hka, .hkb, .cal, .free] ||| foot [.srcs]) s (State.hkResult s x c) := by
  unfold State.hkResult
  extract_lets a1 a2 a3 a4 a5 a6 a7 a8 a9 a10 a11 a12 a13 a14 a15 a16
  try clear_value a2
  try clear_value a3
  try clear_value a4
  try clear_value a5
  try clear_value a6
  have ha7 : Keeps (foot [.reg GLB_DETERMINISM, .reg LNK_DEADLETTER_COUNT, .reg (ENG_STATUS 0x600), .reg (HKx_STATUS 0x1700), .reg (HKx_DATA 0x1700), .reg (HKx_OVERRUN_COUNT 0x1700), .reg (HKx_STATUS 0x1800), .reg (HKx_DATA 0x1800), .reg (HKx_OVERRUN_COUNT 0x1800), .reg CAL_TRACE_STATUS, .reg (ENG_STATUS 0x1B00), .flt, .win .lnk, .recTick, .bar, .faults, .cou, .bru, .var, .lnk, .hka, .hkb, .cal, .free] ||| foot [.srcs]) s a7 := by
    unfold a7
    repeat' first
      | with_reducible assumption
      | with_reducible apply Keeps.refl
      | with_reducible apply Keeps.ite
      | (apply Keeps.step; with_reducible apply State.raise_keeps)
      | (apply Keeps.step; with_reducible apply State.inc_keeps)
      | (apply Keeps.step; with_reducible apply State.setBit_keeps)
      | (apply Keeps.step; with_reducible apply State.note_keeps)
      | (apply Keeps.step; with_reducible apply State.setFld_keeps)
      | (apply Keeps.step; with_reducible apply State.setReg_keeps)
      | (apply Keeps.step; with_reducible apply State.hkConsume_keeps)
      | (apply Keeps.step; with_reducible apply State.sendF_keeps)
      | (apply Keeps.step; with_reducible apply State.traceResult_keeps)
      | (apply Keeps.step; with_reducible apply State.trigger_keeps)
      | (apply Keeps.step; with_reducible apply State.setHk_keeps)
      | (with_reducible apply Keeps.forEach; intro _ _ _)
      | (with_reducible apply Keeps.foldl_fst; intro _ _ _)
      | (with_reducible apply Keeps.foldl_snd; intro _ _ _)
      | (with_reducible apply Keeps.foldl; intro _ _ _)
      | decide +kernel
      | exact sub_hk _ (by decide +kernel)
      | exact sub_flt _ (by decide +kernel)
      | exact sub_eng _ (by decide +kernel)
      | exact sub_port _ _ (by decide +kernel)
      | exact sub_win _ (by decide +kernel)
      | exact sub_any _ (by decide +kernel)
      | split
      | refine Keeps.upd ?_
  try clear_value a7
  have ha8 : Keeps (foot [.reg GLB_DETERMINISM, .reg LNK_DEADLETTER_COUNT, .reg (ENG_STATUS 0x600), .reg (HKx_STATUS 0x1700), .reg (HKx_DATA 0x1700), .reg (HKx_OVERRUN_COUNT 0x1700), .reg (HKx_STATUS 0x1800), .reg (HKx_DATA 0x1800), .reg (HKx_OVERRUN_COUNT 0x1800), .reg CAL_TRACE_STATUS, .reg (ENG_STATUS 0x1B00), .flt, .win .lnk, .recTick, .bar, .faults, .cou, .bru, .var, .lnk, .hka, .hkb, .cal, .free] ||| foot [.srcs]) s a8 := by
    unfold a8
    repeat' first
      | with_reducible assumption
      | with_reducible apply Keeps.refl
      | with_reducible apply Keeps.ite
      | (apply Keeps.step; with_reducible apply State.raise_keeps)
      | (apply Keeps.step; with_reducible apply State.inc_keeps)
      | (apply Keeps.step; with_reducible apply State.setBit_keeps)
      | (apply Keeps.step; with_reducible apply State.note_keeps)
      | (apply Keeps.step; with_reducible apply State.setFld_keeps)
      | (apply Keeps.step; with_reducible apply State.setReg_keeps)
      | (apply Keeps.step; with_reducible apply State.hkConsume_keeps)
      | (apply Keeps.step; with_reducible apply State.sendF_keeps)
      | (apply Keeps.step; with_reducible apply State.traceResult_keeps)
      | (apply Keeps.step; with_reducible apply State.trigger_keeps)
      | (apply Keeps.step; with_reducible apply State.setHk_keeps)
      | (with_reducible apply Keeps.forEach; intro _ _ _)
      | (with_reducible apply Keeps.foldl_fst; intro _ _ _)
      | (with_reducible apply Keeps.foldl_snd; intro _ _ _)
      | (with_reducible apply Keeps.foldl; intro _ _ _)
      | decide +kernel
      | exact sub_hk _ (by decide +kernel)
      | exact sub_flt _ (by decide +kernel)
      | exact sub_eng _ (by decide +kernel)
      | exact sub_port _ _ (by decide +kernel)
      | exact sub_win _ (by decide +kernel)
      | exact sub_any _ (by decide +kernel)
      | split
      | refine Keeps.upd ?_
  try clear_value a8
  try clear_value a9
  have ha10 : Keeps (foot [.reg GLB_DETERMINISM, .reg LNK_DEADLETTER_COUNT, .reg (ENG_STATUS 0x600), .reg (HKx_STATUS 0x1700), .reg (HKx_DATA 0x1700), .reg (HKx_OVERRUN_COUNT 0x1700), .reg (HKx_STATUS 0x1800), .reg (HKx_DATA 0x1800), .reg (HKx_OVERRUN_COUNT 0x1800), .reg CAL_TRACE_STATUS, .reg (ENG_STATUS 0x1B00), .flt, .win .lnk, .recTick, .bar, .faults, .cou, .bru, .var, .lnk, .hka, .hkb, .cal, .free] ||| foot [.srcs]) s a10 := by
    unfold a10
    repeat' first
      | with_reducible assumption
      | with_reducible apply Keeps.refl
      | with_reducible apply Keeps.ite
      | (apply Keeps.step; with_reducible apply State.raise_keeps)
      | (apply Keeps.step; with_reducible apply State.inc_keeps)
      | (apply Keeps.step; with_reducible apply State.setBit_keeps)
      | (apply Keeps.step; with_reducible apply State.note_keeps)
      | (apply Keeps.step; with_reducible apply State.setFld_keeps)
      | (apply Keeps.step; with_reducible apply State.setReg_keeps)
      | (apply Keeps.step; with_reducible apply State.hkConsume_keeps)
      | (apply Keeps.step; with_reducible apply State.sendF_keeps)
      | (apply Keeps.step; with_reducible apply State.traceResult_keeps)
      | (apply Keeps.step; with_reducible apply State.trigger_keeps)
      | (apply Keeps.step; with_reducible apply State.setHk_keeps)
      | (with_reducible apply Keeps.forEach; intro _ _ _)
      | (with_reducible apply Keeps.foldl_fst; intro _ _ _)
      | (with_reducible apply Keeps.foldl_snd; intro _ _ _)
      | (with_reducible apply Keeps.foldl; intro _ _ _)
      | decide +kernel
      | exact sub_hk _ (by decide +kernel)
      | exact sub_flt _ (by decide +kernel)
      | exact sub_eng _ (by decide +kernel)
      | exact sub_port _ _ (by decide +kernel)
      | exact sub_win _ (by decide +kernel)
      | exact sub_any _ (by decide +kernel)
      | split
      | refine Keeps.upd ?_
  try clear_value a10
  try clear_value a11
  try clear_value a12
  have ha13 : Keeps (foot [.reg GLB_DETERMINISM, .reg LNK_DEADLETTER_COUNT, .reg (ENG_STATUS 0x600), .reg (HKx_STATUS 0x1700), .reg (HKx_DATA 0x1700), .reg (HKx_OVERRUN_COUNT 0x1700), .reg (HKx_STATUS 0x1800), .reg (HKx_DATA 0x1800), .reg (HKx_OVERRUN_COUNT 0x1800), .reg CAL_TRACE_STATUS, .reg (ENG_STATUS 0x1B00), .flt, .win .lnk, .recTick, .bar, .faults, .cou, .bru, .var, .lnk, .hka, .hkb, .cal, .free] ||| foot [.srcs]) s a13 := by
    unfold a13
    repeat' first
      | with_reducible assumption
      | with_reducible apply Keeps.refl
      | with_reducible apply Keeps.ite
      | (apply Keeps.step; with_reducible apply State.raise_keeps)
      | (apply Keeps.step; with_reducible apply State.inc_keeps)
      | (apply Keeps.step; with_reducible apply State.setBit_keeps)
      | (apply Keeps.step; with_reducible apply State.note_keeps)
      | (apply Keeps.step; with_reducible apply State.setFld_keeps)
      | (apply Keeps.step; with_reducible apply State.setReg_keeps)
      | (apply Keeps.step; with_reducible apply State.hkConsume_keeps)
      | (apply Keeps.step; with_reducible apply State.sendF_keeps)
      | (apply Keeps.step; with_reducible apply State.traceResult_keeps)
      | (apply Keeps.step; with_reducible apply State.trigger_keeps)
      | (apply Keeps.step; with_reducible apply State.setHk_keeps)
      | (with_reducible apply Keeps.forEach; intro _ _ _)
      | (with_reducible apply Keeps.foldl_fst; intro _ _ _)
      | (with_reducible apply Keeps.foldl_snd; intro _ _ _)
      | (with_reducible apply Keeps.foldl; intro _ _ _)
      | decide +kernel
      | exact sub_hk _ (by decide +kernel)
      | exact sub_flt _ (by decide +kernel)
      | exact sub_eng _ (by decide +kernel)
      | exact sub_port _ _ (by decide +kernel)
      | exact sub_win _ (by decide +kernel)
      | exact sub_any _ (by decide +kernel)
      | split
      | refine Keeps.upd ?_
  try clear_value a13
  try clear_value a14
  have ha15 : Keeps (foot [.reg GLB_DETERMINISM, .reg LNK_DEADLETTER_COUNT, .reg (ENG_STATUS 0x600), .reg (HKx_STATUS 0x1700), .reg (HKx_DATA 0x1700), .reg (HKx_OVERRUN_COUNT 0x1700), .reg (HKx_STATUS 0x1800), .reg (HKx_DATA 0x1800), .reg (HKx_OVERRUN_COUNT 0x1800), .reg CAL_TRACE_STATUS, .reg (ENG_STATUS 0x1B00), .flt, .win .lnk, .recTick, .bar, .faults, .cou, .bru, .var, .lnk, .hka, .hkb, .cal, .free] ||| foot [.srcs]) s a15 := by
    unfold a15
    repeat' first
      | with_reducible assumption
      | with_reducible apply Keeps.refl
      | with_reducible apply Keeps.ite
      | (apply Keeps.step; with_reducible apply State.raise_keeps)
      | (apply Keeps.step; with_reducible apply State.inc_keeps)
      | (apply Keeps.step; with_reducible apply State.setBit_keeps)
      | (apply Keeps.step; with_reducible apply State.note_keeps)
      | (apply Keeps.step; with_reducible apply State.setFld_keeps)
      | (apply Keeps.step; with_reducible apply State.setReg_keeps)
      | (apply Keeps.step; with_reducible apply State.hkConsume_keeps)
      | (apply Keeps.step; with_reducible apply State.sendF_keeps)
      | (apply Keeps.step; with_reducible apply State.traceResult_keeps)
      | (apply Keeps.step; with_reducible apply State.trigger_keeps)
      | (apply Keeps.step; with_reducible apply State.setHk_keeps)
      | (with_reducible apply Keeps.forEach; intro _ _ _)
      | (with_reducible apply Keeps.foldl_fst; intro _ _ _)
      | (with_reducible apply Keeps.foldl_snd; intro _ _ _)
      | (with_reducible apply Keeps.foldl; intro _ _ _)
      | decide +kernel
      | exact sub_hk _ (by decide +kernel)
      | exact sub_flt _ (by decide +kernel)
      | exact sub_eng _ (by decide +kernel)
      | exact sub_port _ _ (by decide +kernel)
      | exact sub_win _ (by decide +kernel)
      | exact sub_any _ (by decide +kernel)
      | split
      | refine Keeps.upd ?_
  try clear_value a15
  try clear_value a16
  repeat' first
    | with_reducible assumption
    | with_reducible apply Keeps.refl
    | with_reducible apply Keeps.ite
    | (apply Keeps.step; with_reducible apply State.raise_keeps)
    | (apply Keeps.step; with_reducible apply State.inc_keeps)
    | (apply Keeps.step; with_reducible apply State.setBit_keeps)
    | (apply Keeps.step; with_reducible apply State.note_keeps)
    | (apply Keeps.step; with_reducible apply State.setFld_keeps)
    | (apply Keeps.step; with_reducible apply State.setReg_keeps)
    | (apply Keeps.step; with_reducible apply State.hkConsume_keeps)
    | (apply Keeps.step; with_reducible apply State.sendF_keeps)
    | (apply Keeps.step; with_reducible apply State.traceResult_keeps)
    | (apply Keeps.step; with_reducible apply State.trigger_keeps)
    | (apply Keeps.step; with_reducible apply State.setHk_keeps)
    | (with_reducible apply Keeps.forEach; intro _ _ _)
    | (with_reducible apply Keeps.foldl_fst; intro _ _ _)
    | (with_reducible apply Keeps.foldl_snd; intro _ _ _)
    | (with_reducible apply Keeps.foldl; intro _ _ _)
    | decide +kernel
    | exact sub_hk _ (by decide +kernel)
    | exact sub_flt _ (by decide +kernel)
    | exact sub_eng _ (by decide +kernel)
    | exact sub_port _ _ (by decide +kernel)
    | exact sub_win _ (by decide +kernel)
    | exact sub_any _ (by decide +kernel)
    | split
    | refine Keeps.upd ?_

theorem State.convDone_keeps (s0 : State) (x : Hk) (raw : W24) (overload : Bool) :
    Keeps (foot [.anyReg, .win .lnk, .win .cal, .recTick, .bar, .faults, .cou, .bru, .var, .lnk, .hka, .hkb, .cal, .free, .srcs]) s0 (State.convDone s0 x raw overload) := by
  unfold State.convDone
  extract_lets a1 a2 a3
  have ha1 : Keeps (foot [.anyReg, .win .lnk, .win .cal, .recTick, .bar, .faults, .cou, .bru, .var, .lnk, .hka, .hkb, .cal, .free, .srcs]) s0 a1 := by
    unfold a1
    repeat' first
      | with_reducible assumption
      | with_reducible apply Keeps.refl
      | with_reducible apply Keeps.ite
      | (apply Keeps.step; with_reducible apply State.hkBegin_keeps)
      | (apply Keeps.step; with_reducible apply State.hkAdvance_keeps)
      | (apply Keeps.step; with_reducible apply State.checkDone_keeps)
      | (apply Keeps.step; with_reducible apply State.setHk_keeps)
      | (apply Keeps.step; with_reducible apply State.startConv_keeps)
      | (apply Keeps.step; with_reducible apply State.calGainDone_keeps)
      | (apply Keeps.step; with_reducible apply State.hkResult_keeps)
      | (apply Keeps.step; with_reducible apply State.urgentAfter_keeps)
      | (with_reducible apply Keeps.forEach; intro _ _ _)
      | (with_reducible apply Keeps.foldl_fst; intro _ _ _)
      | (with_reducible apply Keeps.foldl_snd; intro _ _ _)
      | (with_reducible apply Keeps.foldl; intro _ _ _)
      | decide +kernel
      | exact sub_flt _ (by decide +kernel)
      | exact sub_eng _ (by decide +kernel)
      | exact sub_hk _ (by decide +kernel)
      | exact sub_port _ _ (by decide +kernel)
      | exact sub_win _ (by decide +kernel)
      | exact sub_any _ (by decide +kernel)
      | split
  try clear_value a1
  try clear_value a2
  try clear_value a3
  repeat' first
    | with_reducible assumption
    | with_reducible apply Keeps.refl
    | with_reducible apply Keeps.ite
    | (apply Keeps.step; with_reducible apply State.hkBegin_keeps)
    | (apply Keeps.step; with_reducible apply State.hkAdvance_keeps)
    | (apply Keeps.step; with_reducible apply State.checkDone_keeps)
    | (apply Keeps.step; with_reducible apply State.setHk_keeps)
    | (apply Keeps.step; with_reducible apply State.startConv_keeps)
    | (apply Keeps.step; with_reducible apply State.calGainDone_keeps)
    | (apply Keeps.step; with_reducible apply State.hkResult_keeps)
    | (apply Keeps.step; with_reducible apply State.urgentAfter_keeps)
    | (with_reducible apply Keeps.forEach; intro _ _ _)
    | (with_reducible apply Keeps.foldl_fst; intro _ _ _)
    | (with_reducible apply Keeps.foldl_snd; intro _ _ _)
    | (with_reducible apply Keeps.foldl; intro _ _ _)
    | decide +kernel
    | exact sub_flt _ (by decide +kernel)
    | exact sub_eng _ (by decide +kernel)
    | exact sub_hk _ (by decide +kernel)
    | exact sub_port _ _ (by decide +kernel)
    | exact sub_win _ (by decide +kernel)
    | exact sub_any _ (by decide +kernel)
    | split

theorem State.handCopy_keeps (s : State) (i : Nat) (k : VCopy) :
    Keeps (foot [.reg GLB_DETERMINISM, .reg LNK_DEADLETTER_COUNT, .reg (ENG_STATUS 0x600), .reg VAR_T_STATUS, .reg (HKx_DATA 0x1700), .reg (HKx_DATA 0x1800), .reg (ENG_STATUS 0x1B00), .flt, .win .lnk, .recTick, .bar, .faults, .cou, .bru, .var, .lnk, .hka, .hkb, .free, .srcs]) s (State.handCopy s i k) := by
  unfold State.handCopy
  extract_lets a1
  have ha1 : ∀ x0 x1, Keeps (foot [.reg GLB_DETERMINISM, .reg LNK_DEADLETTER_COUNT, .reg (ENG_STATUS 0x600), .reg VAR_T_STATUS, .reg (HKx_DATA 0x1700), .reg (HKx_DATA 0x1800), .reg (ENG_STATUS 0x1B00), .flt, .win .lnk, .recTick, .bar, .faults, .cou, .bru, .var, .lnk, .hka, .hkb, .free, .srcs]) s x0 → Keeps (foot [.reg GLB_DETERMINISM, .reg LNK_DEADLETTER_COUNT, .reg (ENG_STATUS 0x600), .reg VAR_T_STATUS, .reg (HKx_DATA 0x1700), .reg (HKx_DATA 0x1800), .reg (ENG_STATUS 0x1B00), .flt, .win .lnk, .recTick, .bar, .faults, .cou, .bru, .var, .lnk, .hka, .hkb, .free, .srcs]) s (a1 x0 x1) := by
    intro x0 x1 _
    dsimp only [a1]
    repeat' first
      | with_reducible assumption
      | with_reducible apply Keeps.refl
      | with_reducible apply Keeps.ite
      | (apply Keeps.step; with_reducible apply State.handOne_keeps)
      | (apply Keeps.step; with_reducible apply State.setHk_keeps)
      | (apply Keeps.step; with_reducible apply State.handover_keeps)
      | (with_reducible apply Keeps.forEach; intro _ _ _)
      | (with_reducible apply Keeps.foldl_fst; intro _ _ _)
      | (with_reducible apply Keeps.foldl_snd; intro _ _ _)
      | (with_reducible apply Keeps.foldl; intro _ _ _)
      | decide +kernel
      | exact sub_flt _ (by decide +kernel)
      | exact sub_eng _ (by decide +kernel)
      | exact sub_hk _ (by decide +kernel)
      | exact sub_port _ _ (by decide +kernel)
      | exact sub_win _ (by decide +kernel)
      | exact sub_any _ (by decide +kernel)
      | split
  try clear_value a1
  repeat' first
    | with_reducible assumption
    | with_reducible apply Keeps.refl
    | with_reducible apply ha1
    | with_reducible apply Keeps.ite
    | (apply Keeps.step; with_reducible apply State.handOne_keeps)
    | (apply Keeps.step; with_reducible apply State.setHk_keeps)
    | (apply Keeps.step; with_reducible apply State.handover_keeps)
    | (with_reducible apply Keeps.forEach; intro _ _ _)
    | (with_reducible apply Keeps.foldl_fst; intro _ _ _)
    | (with_reducible apply Keeps.foldl_snd; intro _ _ _)
    | (with_reducible apply Keeps.foldl; intro _ _ _)
    | decide +kernel
    | exact sub_flt _ (by decide +kernel)
    | exact sub_eng _ (by decide +kernel)
    | exact sub_hk _ (by decide +kernel)
    | exact sub_port _ _ (by decide +kernel)
    | exact sub_win _ (by decide +kernel)
    | exact sub_any _ (by decide +kernel)
    | split

theorem State.hkWake_keeps (s : State) :
    Keeps (foot [.reg (HKx_CTRL 0x1700), .reg (HKx_STATUS 0x1700), .reg (HKx_CTRL 0x1800), .reg (HKx_STATUS 0x1800), .reg HKS_EXC_STATUS, .pwr, .hka, .hkb, .srcs]) s (State.hkWake s) := by
  unfold State.hkWake
  extract_lets a1 a2 a3 a4
  try clear_value a1
  try clear_value a2
  try clear_value a3
  have ha4 : Keeps (foot [.reg (HKx_CTRL 0x1700), .reg (HKx_STATUS 0x1700), .reg (HKx_CTRL 0x1800), .reg (HKx_STATUS 0x1800), .reg HKS_EXC_STATUS, .pwr, .hka, .hkb, .srcs]) s a4 := by
    unfold a4
    repeat' first
      | with_reducible assumption
      | with_reducible apply Keeps.refl
      | with_reducible apply Keeps.ite
      | (apply Keeps.step; with_reducible apply State.passStart_keeps)
      | (apply Keeps.step; with_reducible apply State.excPins_keeps)
      | (with_reducible apply Keeps.forEach; intro _ _ _)
      | (with_reducible apply Keeps.foldl_fst; intro _ _ _)
      | (with_reducible apply Keeps.foldl_snd; intro _ _ _)
      | (with_reducible apply Keeps.foldl; intro _ _ _)
      | decide +kernel
      | exact sub_flt _ (by decide +kernel)
      | exact sub_eng _ (by decide +kernel)
      | exact sub_hk _ (by decide +kernel)
      | exact sub_port _ _ (by decide +kernel)
      | exact sub_win _ (by decide +kernel)
      | exact sub_any _ (by decide +kernel)
      | split
      | refine Keeps.upd ?_
  try clear_value a4
  repeat' first
    | with_reducible assumption
    | with_reducible apply Keeps.refl
    | with_reducible apply Keeps.ite
    | (apply Keeps.step; with_reducible apply State.passStart_keeps)
    | (apply Keeps.step; with_reducible apply State.excPins_keeps)
    | (with_reducible apply Keeps.forEach; intro _ _ _)
    | (with_reducible apply Keeps.foldl_fst; intro _ _ _)
    | (with_reducible apply Keeps.foldl_snd; intro _ _ _)
    | (with_reducible apply Keeps.foldl; intro _ _ _)
    | decide +kernel
    | exact sub_flt _ (by decide +kernel)
    | exact sub_eng _ (by decide +kernel)
    | exact sub_hk _ (by decide +kernel)
    | exact sub_port _ _ (by decide +kernel)
    | exact sub_win _ (by decide +kernel)
    | exact sub_any _ (by decide +kernel)
    | split
    | refine Keeps.upd ?_

theorem State.seqWrite_keeps (s : State) (x : Hk) (n : Nat) (w : Word) (m : Master) (launched : Bool) :
    Keeps (foot [.reg GLB_DETERMINISM, .reg LNK_DEADLETTER_COUNT, .reg (ENG_STATUS 0x600), .reg (HKx_SEQ_LENGTH 0x1700), .reg (HKx_SEQ_LENGTH 0x1800), .reg (ENG_STATUS 0x1B00), .regs 0x1710 16, .regs 0x1810 16, .flt, .win .lnk, .recTick, .bar, .faults, .cou, .bru, .lnk, .free, .srcs]) s (State.seqWrite s x n w m launched) := by
  unfold State.seqWrite
  extract_lets a1
  try clear_value a1
  repeat' first
    | with_reducible assumption
    | with_reducible apply Keeps.refl
    | with_reducible apply Keeps.ite
    | (apply Keeps.step; with_reducible apply State.raiseWith_keeps)
    | (apply Keeps.step; with_reducible apply State.setBit_keeps)
    | (apply Keeps.step; with_reducible apply State.param_keeps)
    | (apply Keeps.step; with_reducible apply State.setReg_keeps)
    | (with_reducible apply Keeps.forEach; intro _ _ _)
    | (with_reducible apply Keeps.foldl_fst; intro _ _ _)
    | (with_reducible apply Keeps.foldl_snd; intro _ _ _)
    | (with_reducible apply Keeps.foldl; intro _ _ _)
    | decide +kernel
    | exact sub_hkg _ _ _ (by decide +kernel)
    | exact sub_hk _ (by decide +kernel)
    | exact sub_flt _ (by decide +kernel)
    | exact sub_eng _ (by decide +kernel)
    | exact sub_port _ _ (by decide +kernel)
    | exact sub_win _ (by decide +kernel)
    | exact sub_any _ (by decide +kernel)
    | split

end Sys2Proof.Machine
end

