-- ==== Sys2Proof/Laws/KeepsMode.lean ====
section
/-!
SUPPORT. Footprints of the operations of Machine/Mode.lean: which parts of a state each can change.
-/
set_option Elab.async false
set_option linter.unusedTactic false
set_option linter.unreachableTactic false
namespace Sys2Proof.Machine

theorem State.liveClear_keeps (s : State) :
    Keeps (foot [.reg GLB_DETERMINISM]) s (State.liveClear s) := by
  unfold State.liveClear
  extract_lets a1
  try clear_value a1
  repeat' first
    | with_reducible assumption
    | with_reducible apply Keeps.refl
    | with_reducible apply Keeps.ite
    | (apply Keeps.step; with_reducible apply State.showReason_keeps)
    | (apply Keeps.step; with_reducible apply State.setFld_keeps)
    | (with_reducible apply Keeps.forEach; intro _ _ _)
    | (with_reducible apply Keeps.foldl_fst; intro _ _ _)
    | (with_reducible apply Keeps.foldl_snd; intro _ _ _)
    | (with_reducible apply Keeps.foldl; intro _ _ _)
    | decide +kernel
    | exact sub_flt _ (by decide +kernel)
    | exact sub_eng _ (by decide +kernel)
    | exact sub_hk _ (by decide +kernel)
    | exact sub_port _ _ (by decide +kernel)
    | exact sub_win _ (by decide +kernel)
    | exact sub_any _ (by decide +kernel)
    | split

theorem State.pwrExempt_keeps (s : State) :
    Keeps (foot [.pwr]) s (State.pwrExempt s) := by
  unfold State.pwrExempt
  extract_lets a1
  try clear_value a1
  repeat' first
    | with_reducible assumption
    | with_reducible apply Keeps.refl
    | with_reducible apply Keeps.ite
    | (with_reducible apply Keeps.forEach; intro _ _ _)
    | (with_reducible apply Keeps.foldl_fst; intro _ _ _)
    | (with_reducible apply Keeps.foldl_snd; intro _ _ _)
    | (with_reducible apply Keeps.foldl; intro _ _ _)
    | split
    | refine Keeps.upd ?_

theorem State.drapeOn_keeps (s : State) :
    Keeps (foot [.reg GLB_DETERMINISM, .reg LNK_DEADLETTER_COUNT, .reg (ENG_STATUS 0x600), .reg CAL_STATUS, .reg CAL_DEFER_COUNT, .reg (ENG_STATUS 0x1B00), .flt, .win .lnk, .win .nul, .win .cal, .recTick, .bar, .faults, .cou, .bru, .pal, .pwr, .col, .nul, .lnk, .cal, .free, .srcs]) s (State.drapeOn s) := by
  unfold State.drapeOn
  extract_lets a1
  have ha1 : Keeps (foot [.reg GLB_DETERMINISM, .reg LNK_DEADLETTER_COUNT, .reg (ENG_STATUS 0x600), .reg CAL_STATUS, .reg CAL_DEFER_COUNT, .reg (ENG_STATUS 0x1B00), .flt, .win .lnk, .win .nul, .win .cal, .recTick, .bar, .faults, .cou, .bru, .pal, .pwr, .col, .nul, .lnk, .cal, .free, .srcs]) s a1 := by
    unfold a1
    repeat' first
      | with_reducible assumption
      | with_reducible apply Keeps.refl
      | with_reducible apply Keeps.ite
      | (apply Keeps.step; with_reducible apply State.setDrv_keeps)
      | (apply Keeps.step; with_reducible apply State.pwrExempt_keeps)
      | (apply Keeps.step; with_reducible apply State.cause_keeps)
      | (apply Keeps.step; with_reducible apply State.calCut_keeps)
      | (with_reducible apply Keeps.forEach; intro _ _ _)
      | (with_reducible apply Keeps.foldl_fst; intro _ _ _)
      | (with_reducible apply Keeps.foldl_snd; intro _ _ _)
      | (with_reducible apply Keeps.foldl; intro _ _ _)
      | decide +kernel
      | exact sub_flt _ (by decide +kernel)
      | exact sub_eng _ (by decide +kernel)
      | exact sub_hk _ (by decide +kernel)
      | exact sub_port _ _ (by decide +kernel)
      | exact sub_win _ (by decide +kernel)
      | exact sub_any _ (by decide +kernel)
      | split
  try clear_value a1
  repeat' first
    | with_reducible assumption
    | with_reducible apply Keeps.refl
    | with_reducible apply Keeps.ite
    | (apply Keeps.step; with_reducible apply State.setDrv_keeps)
    | (apply Keeps.step; with_reducible apply State.pwrExempt_keeps)
    | (apply Keeps.step; with_reducible apply State.cause_keeps)
    | (apply Keeps.step; with_reducible apply State.calCut_keeps)
    | (with_reducible apply Keeps.forEach; intro _ _ _)
    | (with_reducible apply Keeps.foldl_fst; intro _ _ _)
    | (with_reducible apply Keeps.foldl_snd; intro _ _ _)
    | (with_reducible apply Keeps.foldl; intro _ _ _)
    | decide +kernel
    | exact sub_flt _ (by decide +kernel)
    | exact sub_eng _ (by decide +kernel)
    | exact sub_hk _ (by decide +kernel)
    | exact sub_port _ _ (by decide +kernel)
    | exact sub_win _ (by decide +kernel)
    | exact sub_any _ (by decide +kernel)
    | split

theorem State.drapeOff_keeps (s : State) :
    Keeps (foot [.nul]) s (State.drapeOff s) := by
  unfold State.drapeOff
  extract_lets a1
  try clear_value a1
  repeat' first
    | with_reducible assumption
    | with_reducible apply Keeps.refl
    | with_reducible apply Keeps.ite
    | (with_reducible apply Keeps.forEach; intro _ _ _)
    | (with_reducible apply Keeps.foldl_fst; intro _ _ _)
    | (with_reducible apply Keeps.foldl_snd; intro _ _ _)
    | (with_reducible apply Keeps.foldl; intro _ _ _)
    | split
    | refine Keeps.upd ?_

theorem State.syncDrape_keeps (s : State) (was : Bool) :
    Keeps (foot [.reg GLB_DETERMINISM, .reg LNK_DEADLETTER_COUNT, .reg (ENG_STATUS 0x600), .reg CAL_STATUS, .reg CAL_DEFER_COUNT, .reg (ENG_STATUS 0x1B00), .flt, .win .lnk, .win .nul, .win .cal, .recTick, .bar, .faults, .cou, .bru, .pal, .pwr, .col, .nul, .lnk, .cal, .free, .srcs]) s (State.syncDrape s was) := by
  unfold State.syncDrape
  repeat' first
    | with_reducible assumption
    | with_reducible apply Keeps.refl
    | with_reducible apply Keeps.ite
    | (apply Keeps.step; with_reducible apply State.drapeOn_keeps)
    | (apply Keeps.step; with_reducible apply State.drapeOff_keeps)
    | (with_reducible apply Keeps.forEach; intro _ _ _)
    | (with_reducible apply Keeps.foldl_fst; intro _ _ _)
    | (with_reducible apply Keeps.foldl_snd; intro _ _ _)
    | (with_reducible apply Keeps.foldl; intro _ _ _)
    | decide +kernel
    | exact sub_flt _ (by decide +kernel)
    | exact sub_eng _ (by decide +kernel)
    | exact sub_hk _ (by decide +kernel)
    | exact sub_port _ _ (by decide +kernel)
    | exact sub_win _ (by decide +kernel)
    | exact sub_any _ (by decide +kernel)
    | split

theorem State.fieldDrapePin_keeps (s : State) (level : Bool) :
    Keeps (foot [.reg GLB_DETERMINISM, .reg LNK_DEADLETTER_COUNT, .reg (ENG_STATUS 0x600), .reg CAL_STATUS, .reg CAL_DEFER_COUNT, .reg (ENG_STATUS 0x1B00), .flt, .win .lnk, .win .nul, .win .cal, .recTick, .bar, .pin, .faults, .cou, .bru, .pal, .pwr, .col, .nul, .lnk, .cal, .free, .srcs]) s (State.fieldDrapePin s level) := by
  unfold State.fieldDrapePin
  extract_lets a1
  try clear_value a1
  repeat' first
    | with_reducible assumption
    | with_reducible apply Keeps.refl
    | with_reducible apply Keeps.ite
    | (apply Keeps.step; with_reducible apply State.syncDrape_keeps)
    | (with_reducible apply Keeps.forEach; intro _ _ _)
    | (with_reducible apply Keeps.foldl_fst; intro _ _ _)
    | (with_reducible apply Keeps.foldl_snd; intro _ _ _)
    | (with_reducible apply Keeps.foldl; intro _ _ _)
    | decide +kernel
    | exact sub_flt _ (by decide +kernel)
    | exact sub_eng _ (by decide +kernel)
    | exact sub_hk _ (by decide +kernel)
    | exact sub_port _ _ (by decide +kernel)
    | exact sub_win _ (by decide +kernel)
    | exact sub_any _ (by decide +kernel)
    | split
    | refine Keeps.upd ?_

theorem State.engMark_keeps (s : State) (e : Eng) (causes : BitVec 5) :
    Keeps (foot [.reg GLB_DETERMINISM, .reg LNK_DEADLETTER_COUNT, .reg (ENG_STATUS 0x600), .reg (ENG_WAIT_COND 0x600), .reg (ENG_ROUTINE_ACTIVE 0x600), .reg (ENG_ABANDON_COUNT 0x600), .reg (ENG_STATUS 0x1B00), .reg (ENG_WAIT_COND 0x1B00), .reg (ENG_ROUTINE_ACTIVE 0x1B00), .reg (ENG_ABANDON_COUNT 0x1B00), .flt, .win .lnk, .recTick, .bar, .faults, .cou, .bru, .lnk, .free, .srcs]) s (State.engMark s e causes) := by
  unfold State.engMark
  extract_lets a1 a2
  try clear_value a1
  repeat' first
    | with_reducible assumption
    | with_reducible apply Keeps.refl
    | with_reducible apply Keeps.ite
    | (apply Keeps.step; with_reducible apply State.setEng_keeps)
    | (apply Keeps.step; with_reducible apply State.setFld_keeps)
    | (apply Keeps.step; with_reducible apply State.inc_keeps)
    | (apply Keeps.step; with_reducible apply State.setBit_keeps)
    | (apply Keeps.step; with_reducible apply State.raise_keeps)
    | (with_reducible apply Keeps.forEach; intro _ _ _)
    | (with_reducible apply Keeps.foldl_fst; intro _ _ _)
    | (with_reducible apply Keeps.foldl_snd; intro _ _ _)
    | (with_reducible apply Keeps.foldl; intro _ _ _)
    | decide +kernel
    | exact sub_eng _ (by decide +kernel)
    | exact sub_flt _ (by decide +kernel)
    | exact sub_hk _ (by decide +kernel)
    | exact sub_port _ _ (by decide +kernel)
    | exact sub_win _ (by decide +kernel)
    | exact sub_any _ (by decide +kernel)
    | split

theorem State.drapeInvalid_keeps (s : State) :
    Keeps (foot [.reg GLB_DETERMINISM, .reg LNK_DEADLETTER_COUNT, .reg (ENG_STATUS 0x600), .reg CAL_STATUS, .reg CAL_DEFER_COUNT, .reg (ENG_STATUS 0x1B00), .reg FBA_STATUS, .flt, .win .lnk, .win .nul, .win .cal, .recTick, .bar, .pin, .faults, .cou, .bru, .pal, .pwr, .col, .nul, .lnk, .cal, .free] ||| foot [.srcs]) s (State.drapeInvalid s) := by
  unfold State.drapeInvalid
  extract_lets a1 a2
  try clear_value a1
  have ha2 : Keeps (foot [.reg GLB_DETERMINISM, .reg LNK_DEADLETTER_COUNT, .reg (ENG_STATUS 0x600), .reg CAL_STATUS, .reg CAL_DEFER_COUNT, .reg (ENG_STATUS 0x1B00), .reg FBA_STATUS, .flt, .win .lnk, .win .nul, .win .cal, .recTick, .bar, .pin, .faults, .cou, .bru, .pal, .pwr, .col, .nul, .lnk, .cal, .free] ||| foot [.srcs]) s a2 := by
    unfold a2
    repeat' first
      | with_reducible assumption
      | with_reducible apply Keeps.refl
      | with_reducible apply Keeps.ite
      | (apply Keeps.step; with_reducible apply State.inc_keeps)
      | (apply Keeps.step; with_reducible apply State.raise_keeps)
      | (apply Keeps.step; with_reducible apply State.standing_keeps)
      | (apply Keeps.step; with_reducible apply State.syncDrape_keeps)
      | (with_reducible apply Keeps.forEach; intro _ _ _)
      | (with_reducible apply Keeps.foldl_fst; intro _ _ _)
      | (with_reducible apply Keeps.foldl_snd; intro _ _ _)
      | (with_reducible apply Keeps.foldl; intro _ _ _)
      | decide +kernel
      | exact sub_flt _ (by decide +kernel)
      | exact sub_eng _ (by decide +kernel)
      | exact sub_hk _ (by decide +kernel)
      | exact sub_port _ _ (by decide +kernel)
      | exact sub_win _ (by decide +kernel)
      | exact sub_any _ (by decide +kernel)
      | split
      | refine Keeps.upd ?_
  try clear_value a2
  repeat' first
    | with_reducible assumption
    | with_reducible apply Keeps.refl
    | with_reducible apply Keeps.ite
    | (apply Keeps.step; with_reducible apply State.inc_keeps)
    | (apply Keeps.step; with_reducible apply State.raise_keeps)
    | (apply Keeps.step; with_reducible apply State.standing_keeps)
    | (apply Keeps.step; with_reducible apply State.syncDrape_keeps)
    | (with_reducible apply Keeps.forEach; intro _ _ _)
    | (with_reducible apply Keeps.foldl_fst; intro _ _ _)
    | (with_reducible apply Keeps.foldl_snd; intro _ _ _)
    | (with_reducible apply Keeps.foldl; intro _ _ _)
    | decide +kernel
    | exact sub_flt _ (by decide +kernel)
    | exact sub_eng _ (by decide +kernel)
    | exact sub_hk _ (by decide +kernel)
    | exact sub_port _ _ (by decide +kernel)
    | exact sub_win _ (by decide +kernel)
    | exact sub_any _ (by decide +kernel)
    | split
    | refine Keeps.upd ?_

theorem State.setGlb_keeps (s : State) (n : Nat) :
    Keeps (foot [.reg GLB_STATE, .reg GLB_DETERMINISM, .cou, .bru]) s (State.setGlb s n) := by
  unfold State.setGlb
  extract_lets a1
  have ha1 : Keeps (foot [.reg GLB_STATE, .reg GLB_DETERMINISM, .cou, .bru]) s a1 := by
    unfold a1
    repeat' first
      | with_reducible assumption
      | with_reducible apply Keeps.refl
      | with_reducible apply Keeps.ite
      | (apply Keeps.step; with_reducible apply State.note_keeps)
      | (apply Keeps.step; with_reducible apply State.setFld_keeps)
      | (apply Keeps.step; with_reducible apply State.live_keeps)
      | (with_reducible apply Keeps.forEach; intro _ _ _)
      | (with_reducible apply Keeps.foldl_fst; intro _ _ _)
      | (with_reducible apply Keeps.foldl_snd; intro _ _ _)
      | (with_reducible apply Keeps.foldl; intro _ _ _)
      | decide +kernel
      | exact sub_flt _ (by decide +kernel)
      | exact sub_eng _ (by decide +kernel)
      | exact sub_hk _ (by decide +kernel)
      | exact sub_port _ _ (by decide +kernel)
      | exact sub_win _ (by decide +kernel)
      | exact sub_any _ (by decide +kernel)
      | split
  try clear_value a1
  repeat' first
    | with_reducible assumption
    | with_reducible apply Keeps.refl
    | with_reducible apply Keeps.ite
    | (apply Keeps.step; with_reducible apply State.note_keeps)
    | (apply Keeps.step; with_reducible apply State.setFld_keeps)
    | (apply Keeps.step; with_reducible apply State.live_keeps)
    | (with_reducible apply Keeps.forEach; intro _ _ _)
    | (with_reducible apply Keeps.foldl_fst; intro _ _ _)
    | (with_reducible apply Keeps.foldl_snd; intro _ _ _)
    | (with_reducible apply Keeps.foldl; intro _ _ _)
    | decide +kernel
    | exact sub_flt _ (by decide +kernel)
    | exact sub_eng _ (by decide +kernel)
    | exact sub_hk _ (by decide +kernel)
    | exact sub_port _ _ (by decide +kernel)
    | exact sub_win _ (by decide +kernel)
    | exact sub_any _ (by decide +kernel)
    | split

theorem State.haltCmd_keeps (s : State) :
    Keeps (foot [.reg GLB_STATE, .reg GLB_DETERMINISM, .cou, .bru]) s (State.haltCmd s) := by
  unfold State.haltCmd
  repeat' first
    | with_reducible assumption
    | with_reducible apply Keeps.refl
    | with_reducible apply Keeps.ite
    | (apply Keeps.step; with_reducible apply State.setGlb_keeps)
    | (with_reducible apply Keeps.forEach; intro _ _ _)
    | (with_reducible apply Keeps.foldl_fst; intro _ _ _)
    | (with_reducible apply Keeps.foldl_snd; intro _ _ _)
    | (with_reducible apply Keeps.foldl; intro _ _ _)
    | decide +kernel
    | exact sub_flt _ (by decide +kernel)
    | exact sub_eng _ (by decide +kernel)
    | exact sub_hk _ (by decide +kernel)
    | exact sub_port _ _ (by decide +kernel)
    | exact sub_win _ (by decide +kernel)
    | exact sub_any _ (by decide +kernel)
    | split

theorem State.drapePin_keeps (s : State) (level : Bool) :
    Keeps (foot [.pin]) s (State.drapePin s level) := by
  unfold State.drapePin
  extract_lets a1
  try clear_value a1
  repeat' first
    | with_reducible assumption
    | with_reducible apply Keeps.refl
    | with_reducible apply Keeps.ite
    | (with_reducible apply Keeps.forEach; intro _ _ _)
    | (with_reducible apply Keeps.foldl_fst; intro _ _ _)
    | (with_reducible apply Keeps.foldl_snd; intro _ _ _)
    | (with_reducible apply Keeps.foldl; intro _ _ _)
    | split
    | refine Keeps.upd ?_

theorem State.goRunning_keeps (s : State) :
    Keeps (foot [.reg GLB_STATE, .reg GLB_DETERMINISM, .reg (ENG_BREAK 0x600), .reg (ENG_BREAK 0x1B00), .cou, .bru, .nul, .cfg]) s (State.goRunning s) := by
  unfold State.goRunning
  extract_lets a1 a2 a3 a4 a5
  have ha1 : Keeps (foot [.reg GLB_STATE, .reg GLB_DETERMINISM, .reg (ENG_BREAK 0x600), .reg (ENG_BREAK 0x1B00), .cou, .bru, .nul, .cfg]) s a1 := by
    unfold a1
    repeat' first
      | with_reducible assumption
      | with_reducible apply Keeps.refl
      | with_reducible apply Keeps.ite
      | (apply Keeps.step; with_reducible apply State.setGlb_keeps)
      | (apply Keeps.step; with_reducible apply State.setFld_keeps)
      | (apply Keeps.step; with_reducible apply State.setBit_keeps)
      | (apply Keeps.step; with_reducible apply State.showReason_keeps)
      | (apply Keeps.step; with_reducible apply State.liveClear_keeps)
      | (with_reducible apply Keeps.forEach; intro _ _ _)
      | (with_reducible apply Keeps.foldl_fst; intro _ _ _)
      | (with_reducible apply Keeps.foldl_snd; intro _ _ _)
      | (with_reducible apply Keeps.foldl; intro _ _ _)
      | decide +kernel
      | exact sub_eng _ (by decide +kernel)
      | exact sub_flt _ (by decide +kernel)
      | exact sub_hk _ (by decide +kernel)
      | exact sub_port _ _ (by decide +kernel)
      | exact sub_win _ (by decide +kernel)
      | exact sub_any _ (by decide +kernel)
      | split
      | refine Keeps.upd ?_
  try clear_value a1
  have ha2 : Keeps (foot [.reg GLB_STATE, .reg GLB_DETERMINISM, .reg (ENG_BREAK 0x600), .reg (ENG_BREAK 0x1B00), .cou, .bru, .nul, .cfg]) s a2 := by
    unfold a2
    repeat' first
      | with_reducible assumption
      | with_reducible apply Keeps.refl
      | with_reducible apply Keeps.ite
      | (apply Keeps.step; with_reducible apply State.setGlb_keeps)
      | (apply Keeps.step; with_reducible apply State.setFld_keeps)
      | (apply Keeps.step; with_reducible apply State.setBit_keeps)
      | (apply Keeps.step; with_reducible apply State.showReason_keeps)
      | (apply Keeps.step; with_reducible apply State.liveClear_keeps)
      | (with_reducible apply Keeps.forEach; intro _ _ _)
      | (with_reducible apply Keeps.foldl_fst; intro _ _ _)
      | (with_reducible apply Keeps.foldl_snd; intro _ _ _)
      | (with_reducible apply Keeps.foldl; intro _ _ _)
      | decide +kernel
      | exact sub_eng _ (by decide +kernel)
      | exact sub_flt _ (by decide +kernel)
      | exact sub_hk _ (by decide +kernel)
      | exact sub_port _ _ (by decide +kernel)
      | exact sub_win _ (by decide +kernel)
      | exact sub_any _ (by decide +kernel)
      | split
      | refine Keeps.upd ?_
  try clear_value a2
  try clear_value a3
  have ha5 : Keeps (foot [.reg GLB_STATE, .reg GLB_DETERMINISM, .reg (ENG_BREAK 0x600), .reg (ENG_BREAK 0x1B00), .cou, .bru, .nul, .cfg]) s a5 := by
    unfold a5
    repeat' first
      | with_reducible assumption
      | with_reducible apply Keeps.refl
      | with_reducible apply Keeps.ite
      | (apply Keeps.step; with_reducible apply State.setGlb_keeps)
      | (apply Keeps.step; with_reducible apply State.setFld_keeps)
      | (apply Keeps.step; with_reducible apply State.setBit_keeps)
      | (apply Keeps.step; with_reducible apply State.showReason_keeps)
      | (apply Keeps.step; with_reducible apply State.liveClear_keeps)
      | (with_reducible apply Keeps.forEach; intro _ _ _)
      | (with_reducible apply Keeps.foldl_fst; intro _ _ _)
      | (with_reducible apply Keeps.foldl_snd; intro _ _ _)
      | (with_reducible apply Keeps.foldl; intro _ _ _)
      | decide +kernel
      | exact sub_eng _ (by decide +kernel)
      | exact sub_flt _ (by decide +kernel)
      | exact sub_hk _ (by decide +kernel)
      | exact sub_port _ _ (by decide +kernel)
      | exact sub_win _ (by decide +kernel)
      | exact sub_any _ (by decide +kernel)
      | split
      | refine Keeps.upd ?_
  try clear_value a5
  repeat' first
    | with_reducible assumption
    | with_reducible apply Keeps.refl
    | with_reducible apply Keeps.ite
    | (apply Keeps.step; with_reducible apply State.setGlb_keeps)
    | (apply Keeps.step; with_reducible apply State.setFld_keeps)
    | (apply Keeps.step; with_reducible apply State.setBit_keeps)
    | (apply Keeps.step; with_reducible apply State.showReason_keeps)
    | (apply Keeps.step; with_reducible apply State.liveClear_keeps)
    | (with_reducible apply Keeps.forEach; intro _ _ _)
    | (with_reducible apply Keeps.foldl_fst; intro _ _ _)
    | (with_reducible apply Keeps.foldl_snd; intro _ _ _)
    | (with_reducible apply Keeps.foldl; intro _ _ _)
    | decide +kernel
    | exact sub_eng _ (by decide +kernel)
    | exact sub_flt _ (by decide +kernel)
    | exact sub_hk _ (by decide +kernel)
    | exact sub_port _ _ (by decide +kernel)
    | exact sub_win _ (by decide +kernel)
    | exact sub_any _ (by decide +kernel)
    | split
    | refine Keeps.upd ?_

theorem State.runCmd_keeps (s : State) :
    Keeps (foot [.reg GLB_STATE, .reg GLB_DETERMINISM, .reg (ENG_BREAK 0x600), .reg (ENG_BREAK 0x1B00), .cou, .bru, .nul, .cfg]) s (State.runCmd s) := by
  unfold State.runCmd
  repeat' first
    | with_reducible assumption
    | with_reducible apply Keeps.refl
    | with_reducible apply Keeps.ite
    | (apply Keeps.step; with_reducible apply State.goRunning_keeps)
    | (with_reducible apply Keeps.forEach; intro _ _ _)
    | (with_reducible apply Keeps.foldl_fst; intro _ _ _)
    | (with_reducible apply Keeps.foldl_snd; intro _ _ _)
    | (with_reducible apply Keeps.foldl; intro _ _ _)
    | decide +kernel
    | exact sub_flt _ (by decide +kernel)
    | exact sub_eng _ (by decide +kernel)
    | exact sub_hk _ (by decide +kernel)
    | exact sub_port _ _ (by decide +kernel)
    | exact sub_win _ (by decide +kernel)
    | exact sub_any _ (by decide +kernel)
    | split

theorem State.engStart_keeps (s : State) (e : Eng) :
    Keeps (foot [.reg (ENG_CTRL 0x600), .reg (ENG_STATUS 0x600), .reg (ENG_CTRL 0x1B00), .reg (ENG_STATUS 0x1B00)]) s (State.engStart s e) := by
  unfold State.engStart
  extract_lets a1 a2
  have ha2 : Keeps (foot [.reg (ENG_CTRL 0x600), .reg (ENG_STATUS 0x600), .reg (ENG_CTRL 0x1B00), .reg (ENG_STATUS 0x1B00)]) s a2 := by
    unfold a2
    repeat' first
      | with_reducible assumption
      | with_reducible apply Keeps.refl
      | with_reducible apply Keeps.ite
      | (apply Keeps.step; with_reducible apply State.setBit_keeps)
      | (apply Keeps.step; with_reducible apply State.setFld_keeps)
      | (with_reducible apply Keeps.forEach; intro _ _ _)
      | (with_reducible apply Keeps.foldl_fst; intro _ _ _)
      | (with_reducible apply Keeps.foldl_snd; intro _ _ _)
      | (with_reducible apply Keeps.foldl; intro _ _ _)
      | decide +kernel
      | exact sub_eng _ (by decide +kernel)
      | exact sub_flt _ (by decide +kernel)
      | exact sub_hk _ (by decide +kernel)
      | exact sub_port _ _ (by decide +kernel)
      | exact sub_win _ (by decide +kernel)
      | exact sub_any _ (by decide +kernel)
      | split
  try clear_value a2
  repeat' first
    | with_reducible assumption
    | with_reducible apply Keeps.refl
    | with_reducible apply Keeps.ite
    | (apply Keeps.step; with_reducible apply State.setBit_keeps)
    | (apply Keeps.step; with_reducible apply State.setFld_keeps)
    | (with_reducible apply Keeps.forEach; intro _ _ _)
    | (with_reducible apply Keeps.foldl_fst; intro _ _ _)
    | (with_reducible apply Keeps.foldl_snd; intro _ _ _)
    | (with_reducible apply Keeps.foldl; intro _ _ _)
    | decide +kernel
    | exact sub_eng _ (by decide +kernel)
    | exact sub_flt _ (by decide +kernel)
    | exact sub_hk _ (by decide +kernel)
    | exact sub_port _ _ (by decide +kernel)
    | exact sub_win _ (by decide +kernel)
    | exact sub_any _ (by decide +kernel)
    | split

theorem State.engStop_keeps (s : State) (e : Eng) :
    Keeps (foot [.reg GLB_DETERMINISM, .reg LNK_DEADLETTER_COUNT, .reg (ENG_CTRL 0x600), .reg (ENG_STATUS 0x600), .reg (ENG_WAIT_COND 0x600), .reg (ENG_ROUTINE_ACTIVE 0x600), .reg (ENG_ABANDON_COUNT 0x600), .reg (ENG_CTRL 0x1B00), .reg (ENG_STATUS 0x1B00), .reg (ENG_WAIT_COND 0x1B00), .reg (ENG_ROUTINE_ACTIVE 0x1B00), .reg (ENG_ABANDON_COUNT 0x1B00), .flt, .win .lnk, .recTick, .bar, .faults, .cou, .bru, .lnk, .free, .srcs]) s (State.engStop s e) := by
  unfold State.engStop
  extract_lets a1 a2
  have ha2 : Keeps (foot [.reg GLB_DETERMINISM, .reg LNK_DEADLETTER_COUNT, .reg (ENG_CTRL 0x600), .reg (ENG_STATUS 0x600), .reg (ENG_WAIT_COND 0x600), .reg (ENG_ROUTINE_ACTIVE 0x600), .reg (ENG_ABANDON_COUNT 0x600), .reg (ENG_CTRL 0x1B00), .reg (ENG_STATUS 0x1B00), .reg (ENG_WAIT_COND 0x1B00), .reg (ENG_ROUTINE_ACTIVE 0x1B00), .reg (ENG_ABANDON_COUNT 0x1B00), .flt, .win .lnk, .recTick, .bar, .faults, .cou, .bru, .lnk, .free, .srcs]) s a2 := by
    unfold a2
    repeat' first
      | with_reducible assumption
      | with_reducible apply Keeps.refl
      | with_reducible apply Keeps.ite
      | (apply Keeps.step; with_reducible apply State.engMark_keeps)
      | (apply Keeps.step; with_reducible apply State.setBit_keeps)
      | (apply Keeps.step; with_reducible apply State.setFld_keeps)
      | (with_reducible apply Keeps.forEach; intro _ _ _)
      | (with_reducible apply Keeps.foldl_fst; intro _ _ _)
      | (with_reducible apply Keeps.foldl_snd; intro _ _ _)
      | (with_reducible apply Keeps.foldl; intro _ _ _)
      | decide +kernel
      | exact sub_eng _ (by decide +kernel)
      | exact sub_flt _ (by decide +kernel)
      | exact sub_hk _ (by decide +kernel)
      | exact sub_port _ _ (by decide +kernel)
      | exact sub_win _ (by decide +kernel)
      | exact sub_any _ (by decide +kernel)
      | split
  try clear_value a2
  repeat' first
    | with_reducible assumption
    | with_reducible apply Keeps.refl
    | with_reducible apply Keeps.ite
    | (apply Keeps.step; with_reducible apply State.engMark_keeps)
    | (apply Keeps.step; with_reducible apply State.setBit_keeps)
    | (apply Keeps.step; with_reducible apply State.setFld_keeps)
    | (with_reducible apply Keeps.forEach; intro _ _ _)
    | (with_reducible apply Keeps.foldl_fst; intro _ _ _)
    | (with_reducible apply Keeps.foldl_snd; intro _ _ _)
    | (with_reducible apply Keeps.foldl; intro _ _ _)
    | decide +kernel
    | exact sub_eng _ (by decide +kernel)
    | exact sub_flt _ (by decide +kernel)
    | exact sub_hk _ (by decide +kernel)
    | exact sub_port _ _ (by decide +kernel)
    | exact sub_win _ (by decide +kernel)
    | exact sub_any _ (by decide +kernel)
    | split

theorem State.setRun_keeps (s : State) (r : PwrRun) :
    Keeps (foot [.pwr]) s (State.setRun s r) := by
  unfold State.setRun
  extract_lets a1
  try clear_value a1
  repeat' first
    | with_reducible assumption
    | with_reducible apply Keeps.refl
    | with_reducible apply Keeps.ite
    | (with_reducible apply Keeps.forEach; intro _ _ _)
    | (with_reducible apply Keeps.foldl_fst; intro _ _ _)
    | (with_reducible apply Keeps.foldl_snd; intro _ _ _)
    | (with_reducible apply Keeps.foldl; intro _ _ _)
    | split
    | refine Keeps.upd ?_

theorem State.pwrEnd_keeps (s : State) :
    Keeps (foot [.reg GLB_DETERMINISM, .reg LNK_DEADLETTER_COUNT, .reg (ENG_STATUS 0x600), .reg PWR_STATE, .reg (ENG_STATUS 0x1B00), .flt, .win .lnk, .recTick, .bar, .faults, .cou, .bru, .pwr, .lnk, .free, .srcs]) s (State.pwrEnd s) := by
  unfold State.pwrEnd
  extract_lets a1 a2
  try clear_value a1
  have ha2 : Keeps (foot [.reg GLB_DETERMINISM, .reg LNK_DEADLETTER_COUNT, .reg (ENG_STATUS 0x600), .reg PWR_STATE, .reg (ENG_STATUS 0x1B00), .flt, .win .lnk, .recTick, .bar, .faults, .cou, .bru, .pwr, .lnk, .free, .srcs]) s a2 := by
    unfold a2
    repeat' first
      | with_reducible assumption
      | with_reducible apply Keeps.refl
      | with_reducible apply Keeps.ite
      | (apply Keeps.step; with_reducible apply State.setBit_keeps)
      | (apply Keeps.step; with_reducible apply State.raise_keeps)
      | (with_reducible apply Keeps.forEach; intro _ _ _)
      | (with_reducible apply Keeps.foldl_fst; intro _ _ _)
      | (with_reducible apply Keeps.foldl_snd; intro _ _ _)
      | (with_reducible apply Keeps.foldl; intro _ _ _)
      | decide +kernel
      | exact sub_flt _ (by decide +kernel)
      | exact sub_eng _ (by decide +kernel)
      | exact sub_hk _ (by decide +kernel)
      | exact sub_port _ _ (by decide +kernel)
      | exact sub_win _ (by decide +kernel)
      | exact sub_any _ (by decide +kernel)
      | split
      | refine Keeps.upd ?_
  try clear_value a2
  repeat' first
    | with_reducible assumption
    | with_reducible apply Keeps.refl
    | with_reducible apply Keeps.ite
    | (apply Keeps.step; with_reducible apply State.setBit_keeps)
    | (apply Keeps.step; with_reducible apply State.raise_keeps)
    | (with_reducible apply Keeps.forEach; intro _ _ _)
    | (with_reducible apply Keeps.foldl_fst; intro _ _ _)
    | (with_reducible apply Keeps.foldl_snd; intro _ _ _)
    | (with_reducible apply Keeps.foldl; intro _ _ _)
    | decide +kernel
    | exact sub_flt _ (by decide +kernel)
    | exact sub_eng _ (by decide +kernel)
    | exact sub_hk _ (by decide +kernel)
    | exact sub_port _ _ (by decide +kernel)
    | exact sub_win _ (by decide +kernel)
    | exact sub_any _ (by decide +kernel)
    | split
    | refine Keeps.upd ?_

theorem State.entryTick_keeps (s : State) (r : PwrRun) :
    Keeps (foot [.reg GLB_DETERMINISM, .reg LNK_DEADLETTER_COUNT, .reg (ENG_STATUS 0x600), .reg PWR_STATE, .reg (HKx_CTRL 0x1700), .reg (HKx_STATUS 0x1700), .reg (HKx_OVERRUN_COUNT 0x1700), .reg (HKx_CAL_STATUS 0x1700), .reg (HKx_CTRL 0x1800), .reg (HKx_STATUS 0x1800), .reg (HKx_OVERRUN_COUNT 0x1800), .reg (HKx_CAL_STATUS 0x1800), .reg HKS_REFBUF_STATUS, .reg HKS_EXC_STATUS, .reg (ENG_STATUS 0x1B00), .flt, .win .lnk, .recTick, .bar, .faults, .cou, .bru, .pwr, .lnk] ||| foot [.hka, .hkb, .refOnAt, .free, .srcs]) s (State.entryTick s r) := by
  unfold State.entryTick
  repeat' first
    | with_reducible assumption
    | with_reducible apply Keeps.refl
    | with_reducible apply Keeps.ite
    | (apply Keeps.step; with_reducible apply State.setRun_keeps)
    | (apply Keeps.step; with_reducible apply State.pwrEnd_keeps)
    | (apply Keeps.step; with_reducible apply State.hkSleep_keeps)
    | (with_reducible apply Keeps.forEach; intro _ _ _)
    | (with_reducible apply Keeps.foldl_fst; intro _ _ _)
    | (with_reducible apply Keeps.foldl_snd; intro _ _ _)
    | (with_reducible apply Keeps.foldl; intro _ _ _)
    | decide +kernel
    | exact sub_flt _ (by decide +kernel)
    | exact sub_eng _ (by decide +kernel)
    | exact sub_hk _ (by decide +kernel)
    | exact sub_port _ _ (by decide +kernel)
    | exact sub_win _ (by decide +kernel)
    | exact sub_any _ (by decide +kernel)
    | split

theorem State.powerDecide_keeps (s : State) :
    Keeps (foot [.reg (ENG_STATUS 0x600), .reg PWR_STATE, .reg (ENG_STATUS 0x1B00), .cou, .bru, .pwr]) s (State.powerDecide s) := by
  unfold State.powerDecide
  extract_lets a1 a2 a3 a4 a5
  have ha1 : Keeps (foot [.reg (ENG_STATUS 0x600), .reg PWR_STATE, .reg (ENG_STATUS 0x1B00), .cou, .bru, .pwr]) s a1 := by
    unfold a1
    repeat' first
      | with_reducible assumption
      | with_reducible apply Keeps.refl
      | with_reducible apply Keeps.ite
      | (apply Keeps.step; with_reducible apply State.setBit_keeps)
      | (apply Keeps.step; with_reducible apply State.setFld_keeps)
      | (apply Keeps.step; with_reducible apply State.request_keeps)
      | (with_reducible apply Keeps.forEach; intro _ _ _)
      | (with_reducible apply Keeps.foldl_fst; intro _ _ _)
      | (with_reducible apply Keeps.foldl_snd; intro _ _ _)
      | (with_reducible apply Keeps.foldl; intro _ _ _)
      | decide +kernel
      | exact sub_flt _ (by decide +kernel)
      | exact sub_eng _ (by decide +kernel)
      | exact sub_hk _ (by decide +kernel)
      | exact sub_port _ _ (by decide +kernel)
      | exact sub_win _ (by decide +kernel)
      | exact sub_any _ (by decide +kernel)
      | split
      | refine Keeps.upd ?_
  try clear_value a1
  try clear_value a2
  have ha3 : Keeps (foot [.reg (ENG_STATUS 0x600), .reg PWR_STATE, .reg (ENG_STATUS 0x1B00), .cou, .bru, .pwr]) s a3 := by
    unfold a3
    repeat' first
      | with_reducible assumption
      | with_reducible apply Keeps.refl
      | with_reducible apply Keeps.ite
      | (apply Keeps.step; with_reducible apply State.setBit_keeps)
      | (apply Keeps.step; with_reducible apply State.setFld_keeps)
      | (apply Keeps.step; with_reducible apply State.request_keeps)
      | (with_reducible apply Keeps.forEach; intro _ _ _)
      | (with_reducible apply Keeps.foldl_fst; intro _ _ _)
      | (with_reducible apply Keeps.foldl_snd; intro _ _ _)
      | (with_reducible apply Keeps.foldl; intro _ _ _)
      | decide +kernel
      | exact sub_flt _ (by decide +kernel)
      | exact sub_eng _ (by decide +kernel)
      | exact sub_hk _ (by decide +kernel)
      | exact sub_port _ _ (by decide +kernel)
      | exact sub_win _ (by decide +kernel)
      | exact sub_any _ (by decide +kernel)
      | split
      | refine Keeps.upd ?_
  try clear_value a3
  try clear_value a4
  have ha5 : Keeps (foot [.reg (ENG_STATUS 0x600), .reg PWR_STATE, .reg (ENG_STATUS 0x1B00), .cou, .bru, .pwr]) s a5 := by
    unfold a5
    repeat' first
      | with_reducible assumption
      | with_reducible apply Keeps.refl
      | with_reducible apply Keeps.ite
      | (apply Keeps.step; with_reducible apply State.setBit_keeps)
      | (apply Keeps.step; with_reducible apply State.setFld_keeps)
      | (apply Keeps.step; with_reducible apply State.request_keeps)
      | (with_reducible apply Keeps.forEach; intro _ _ _)
      | (with_reducible apply Keeps.foldl_fst; intro _ _ _)
      | (with_reducible apply Keeps.foldl_snd; intro _ _ _)
      | (with_reducible apply Keeps.foldl; intro _ _ _)
      | decide +kernel
      | exact sub_flt _ (by decide +kernel)
      | exact sub_eng _ (by decide +kernel)
      | exact sub_hk _ (by decide +kernel)
      | exact sub_port _ _ (by decide +kernel)
      | exact sub_win _ (by decide +kernel)
      | exact sub_any _ (by decide +kernel)
      | split
      | refine Keeps.upd ?_
  try clear_value a5
  repeat' first
    | with_reducible assumption
    | with_reducible apply Keeps.refl
    | with_reducible apply Keeps.ite
    | (apply Keeps.step; with_reducible apply State.setBit_keeps)
    | (apply Keeps.step; with_reducible apply State.setFld_keeps)
    | (apply Keeps.step; with_reducible apply State.request_keeps)
    | (with_reducible apply Keeps.forEach; intro _ _ _)
    | (with_reducible apply Keeps.foldl_fst; intro _ _ _)
    | (with_reducible apply Keeps.foldl_snd; intro _ _ _)
    | (with_reducible apply Keeps.foldl; intro _ _ _)
    | decide +kernel
    | exact sub_flt _ (by decide +kernel)
    | exact sub_eng _ (by decide +kernel)
    | exact sub_hk _ (by decide +kernel)
    | exact sub_port _ _ (by decide +kernel)
    | exact sub_win _ (by decide +kernel)
    | exact sub_any _ (by decide +kernel)
    | split
    | refine Keeps.upd ?_

theorem State.laneArrives_keeps (s : State) :
    Keeps (foot [.reg GLB_DETERMINISM, .reg LNK_DEADLETTER_COUNT, .reg (ENG_STATUS 0x600), .reg CAL_STATUS, .reg CAL_DEFER_COUNT, .reg (ENG_STATUS 0x1B00), .flt, .win .lnk, .win .nul, .win .cal, .recTick, .bar, .pin, .faults, .cou, .bru, .pal, .pwr, .col, .nul, .lnk, .cal, .free, .srcs]) s (State.laneArrives s) := by
  unfold State.laneArrives
  extract_lets a1
  try clear_value a1
  repeat' first
    | with_reducible assumption
    | with_reducible apply Keeps.refl
    | with_reducible apply Keeps.ite
    | (apply Keeps.step; with_reducible apply State.syncDrape_keeps)
    | (with_reducible apply Keeps.forEach; intro _ _ _)
    | (with_reducible apply Keeps.foldl_fst; intro _ _ _)
    | (with_reducible apply Keeps.foldl_snd; intro _ _ _)
    | (with_reducible apply Keeps.foldl; intro _ _ _)
    | decide +kernel
    | exact sub_flt _ (by decide +kernel)
    | exact sub_eng _ (by decide +kernel)
    | exact sub_hk _ (by decide +kernel)
    | exact sub_port _ _ (by decide +kernel)
    | exact sub_win _ (by decide +kernel)
    | exact sub_any _ (by decide +kernel)
    | split
    | refine Keeps.upd ?_

theorem State.laneTick_keeps (s : State) :
    Keeps (foot [.reg GLB_DETERMINISM, .reg LNK_DEADLETTER_COUNT, .reg (ENG_STATUS 0x600), .reg CAL_STATUS, .reg CAL_DEFER_COUNT, .reg (ENG_STATUS 0x1B00), .flt, .win .lnk, .win .nul, .win .cal, .recTick, .bar, .pin, .faults, .cou, .bru, .pal, .pwr, .col, .nul, .lnk, .cal, .free, .srcs]) s (State.laneTick s) := by
  unfold State.laneTick
  extract_lets a1 a2 a3 a4
  try clear_value a1
  try clear_value a2
  try clear_value a3
  try clear_value a4
  repeat' first
    | with_reducible assumption
    | with_reducible apply Keeps.refl
    | with_reducible apply Keeps.ite
    | (apply Keeps.step; with_reducible apply State.laneArrives_keeps)
    | (with_reducible apply Keeps.forEach; intro _ _ _)
    | (with_reducible apply Keeps.foldl_fst; intro _ _ _)
    | (with_reducible apply Keeps.foldl_snd; intro _ _ _)
    | (with_reducible apply Keeps.foldl; intro _ _ _)
    | decide +kernel
    | exact sub_flt _ (by decide +kernel)
    | exact sub_eng _ (by decide +kernel)
    | exact sub_hk _ (by decide +kernel)
    | exact sub_port _ _ (by decide +kernel)
    | exact sub_win _ (by decide +kernel)
    | exact sub_any _ (by decide +kernel)
    | split
    | refine Keeps.upd ?_

theorem State.pwrDrop_keeps (s : State) :
    Keeps (foot [.reg PWR_STATE, .pwr]) s (State.pwrDrop s) := by
  unfold State.pwrDrop
  extract_lets a1
  try clear_value a1
  repeat' first
    | with_reducible assumption
    | with_reducible apply Keeps.refl
    | with_reducible apply Keeps.ite
    | (apply Keeps.step; with_reducible apply State.setBit_keeps)
    | (with_reducible apply Keeps.forEach; intro _ _ _)
    | (with_reducible apply Keeps.foldl_fst; intro _ _ _)
    | (with_reducible apply Keeps.foldl_snd; intro _ _ _)
    | (with_reducible apply Keeps.foldl; intro _ _ _)
    | decide +kernel
    | exact sub_flt _ (by decide +kernel)
    | exact sub_eng _ (by decide +kernel)
    | exact sub_hk _ (by decide +kernel)
    | exact sub_port _ _ (by decide +kernel)
    | exact sub_win _ (by decide +kernel)
    | exact sub_any _ (by decide +kernel)
    | split
    | refine Keeps.upd ?_

theorem State.pwrBegin_keeps (s : State) (wake : Bool) :
    Keeps (foot [.reg GLB_DETERMINISM, .reg PWR_STATE, .pwr]) s (State.pwrBegin s wake) := by
  unfold State.pwrBegin
  extract_lets a1 a2 a3 a4 a5 a6 a7 a8 a9
  try clear_value a1
  try clear_value a2
  try clear_value a3
  have ha4 : Keeps (foot [.reg GLB_DETERMINISM, .reg PWR_STATE, .pwr]) s a4 := by
    unfold a4
    repeat' first
      | with_reducible assumption
      | with_reducible apply Keeps.refl
      | with_reducible apply Keeps.ite
      | (apply Keeps.step; with_reducible apply State.pwrDrop_keeps)
      | (apply Keeps.step; with_reducible apply State.live_keeps)
      | (apply Keeps.step; with_reducible apply State.setBit_keeps)
      | (apply Keeps.step; with_reducible apply State.setFld_keeps)
      | (with_reducible apply Keeps.forEach; intro _ _ _)
      | (with_reducible apply Keeps.foldl_fst; intro _ _ _)
      | (with_reducible apply Keeps.foldl_snd; intro _ _ _)
      | (with_reducible apply Keeps.foldl; intro _ _ _)
      | decide +kernel
      | exact sub_flt _ (by decide +kernel)
      | exact sub_eng _ (by decide +kernel)
      | exact sub_hk _ (by decide +kernel)
      | exact sub_port _ _ (by decide +kernel)
      | exact sub_win _ (by decide +kernel)
      | exact sub_any _ (by decide +kernel)
      | split
      | refine Keeps.upd ?_
  try clear_value a4
  try clear_value a5
  try clear_value a6
  try clear_value a7
  have ha8 : Keeps (foot [.reg GLB_DETERMINISM, .reg PWR_STATE, .pwr]) s a8 := by
    unfold a8
    repeat' first
      | with_reducible assumption
      | with_reducible apply Keeps.refl
      | with_reducible apply Keeps.ite
      | (apply Keeps.step; with_reducible apply State.pwrDrop_keeps)
      | (apply Keeps.step; with_reducible apply State.live_keeps)
      | (apply Keeps.step; with_reducible apply State.setBit_keeps)
      | (apply Keeps.step; with_reducible apply State.setFld_keeps)
      | (with_reducible apply Keeps.forEach; intro _ _ _)
      | (with_reducible apply Keeps.foldl_fst; intro _ _ _)
      | (with_reducible apply Keeps.foldl_snd; intro _ _ _)
      | (with_reducible apply Keeps.foldl; intro _ _ _)
      | decide +kernel
      | exact sub_flt _ (by decide +kernel)
      | exact sub_eng _ (by decide +kernel)
      | exact sub_hk _ (by decide +kernel)
      | exact sub_port _ _ (by decide +kernel)
      | exact sub_win _ (by decide +kernel)
      | exact sub_any _ (by decide +kernel)
      | split
      | refine Keeps.upd ?_
  try clear_value a8
  try clear_value a9
  repeat' first
    | with_reducible assumption
    | with_reducible apply Keeps.refl
    | with_reducible apply Keeps.ite
    | (apply Keeps.step; with_reducible apply State.pwrDrop_keeps)
    | (apply Keeps.step; with_reducible apply State.live_keeps)
    | (apply Keeps.step; with_reducible apply State.setBit_keeps)
    | (apply Keeps.step; with_reducible apply State.setFld_keeps)
    | (with_reducible apply Keeps.forEach; intro _ _ _)
    | (with_reducible apply Keeps.foldl_fst; intro _ _ _)
    | (with_reducible apply Keeps.foldl_snd; intro _ _ _)
    | (with_reducible apply Keeps.foldl; intro _ _ _)
    | decide +kernel
    | exact sub_flt _ (by decide +kernel)
    | exact sub_eng _ (by decide +kernel)
    | exact sub_hk _ (by decide +kernel)
    | exact sub_port _ _ (by decide +kernel)
    | exact sub_win _ (by decide +kernel)
    | exact sub_any _ (by decide +kernel)
    | split
    | refine Keeps.upd ?_

theorem State.powerWakes_keeps (s : State) :
    Keeps (foot [.reg GLB_DETERMINISM, .reg PWR_STATE, .reg (HKx_CTRL 0x1700), .reg (HKx_CAL_STATUS 0x1700), .reg (HKx_CTRL 0x1800), .reg (HKx_CAL_STATUS 0x1800), .reg HKS_REFBUF_STATUS, .reg HKS_EXC_STATUS, .cou, .bru, .pwr, .hka, .hkb, .refOnAt]) s (State.powerWakes s) := by
  unfold State.powerWakes
  extract_lets a1 a2 a3 a4
  try clear_value a1
  try clear_value a2
  have ha3 : Keeps (foot [.reg GLB_DETERMINISM, .reg PWR_STATE, .reg (HKx_CTRL 0x1700), .reg (HKx_CAL_STATUS 0x1700), .reg (HKx_CTRL 0x1800), .reg (HKx_CAL_STATUS 0x1800), .reg HKS_REFBUF_STATUS, .reg HKS_EXC_STATUS, .cou, .bru, .pwr, .hka, .hkb, .refOnAt]) s a3 := by
    unfold a3
    repeat' first
      | with_reducible assumption
      | with_reducible apply Keeps.refl
      | with_reducible apply Keeps.ite
      | (apply Keeps.step; with_reducible apply State.pwrBegin_keeps)
      | (apply Keeps.step; with_reducible apply State.refWake_keeps)
      | (with_reducible apply Keeps.forEach; intro _ _ _)
      | (with_reducible apply Keeps.foldl_fst; intro _ _ _)
      | (with_reducible apply Keeps.foldl_snd; intro _ _ _)
      | (with_reducible apply Keeps.foldl; intro _ _ _)
      | decide +kernel
      | exact sub_flt _ (by decide +kernel)
      | exact sub_eng _ (by decide +kernel)
      | exact sub_hk _ (by decide +kernel)
      | exact sub_port _ _ (by decide +kernel)
      | exact sub_win _ (by decide +kernel)
      | exact sub_any _ (by decide +kernel)
      | split
      | refine Keeps.upd ?_
  try clear_value a3
  try clear_value a4
  repeat' first
    | with_reducible assumption
    | with_reducible apply Keeps.refl
    | with_reducible apply Keeps.ite
    | (apply Keeps.step; with_reducible apply State.pwrBegin_keeps)
    | (apply Keeps.step; with_reducible apply State.refWake_keeps)
    | (with_reducible apply Keeps.forEach; intro _ _ _)
    | (with_reducible apply Keeps.foldl_fst; intro _ _ _)
    | (with_reducible apply Keeps.foldl_snd; intro _ _ _)
    | (with_reducible apply Keeps.foldl; intro _ _ _)
    | decide +kernel
    | exact sub_flt _ (by decide +kernel)
    | exact sub_eng _ (by decide +kernel)
    | exact sub_hk _ (by decide +kernel)
    | exact sub_port _ _ (by decide +kernel)
    | exact sub_win _ (by decide +kernel)
    | exact sub_any _ (by decide +kernel)
    | split
    | refine Keeps.upd ?_

theorem State.pwrOff_keeps (s : State) :
    Keeps (foot [.reg PWR_STATE, .reg (HKx_CTRL 0x1700), .reg (HKx_CAL_STATUS 0x1700), .reg (HKx_CTRL 0x1800), .reg (HKx_CAL_STATUS 0x1800), .reg HKS_REFBUF_STATUS, .reg HKS_EXC_STATUS, .cou, .bru, .pwr, .hka, .hkb, .refOnAt]) s (State.pwrOff s) := by
  unfold State.pwrOff
  extract_lets a1 a2 a3 a4 a5
  have ha1 : Keeps (foot [.reg PWR_STATE, .reg (HKx_CTRL 0x1700), .reg (HKx_CAL_STATUS 0x1700), .reg (HKx_CTRL 0x1800), .reg (HKx_CAL_STATUS 0x1800), .reg HKS_REFBUF_STATUS, .reg HKS_EXC_STATUS, .cou, .bru, .pwr, .hka, .hkb, .refOnAt]) s a1 := by
    unfold a1
    repeat' first
      | with_reducible assumption
      | with_reducible apply Keeps.refl
      | with_reducible apply Keeps.ite
      | (apply Keeps.step; with_reducible apply State.setFld_keeps)
      | (apply Keeps.step; with_reducible apply State.setBit_keeps)
      | (apply Keeps.step; with_reducible apply State.pwrDrop_keeps)
      | (apply Keeps.step; with_reducible apply State.refUpdate_keeps)
      | (with_reducible apply Keeps.forEach; intro _ _ _)
      | (with_reducible apply Keeps.foldl_fst; intro _ _ _)
      | (with_reducible apply Keeps.foldl_snd; intro _ _ _)
      | (with_reducible apply Keeps.foldl; intro _ _ _)
      | decide +kernel
      | exact sub_flt _ (by decide +kernel)
      | exact sub_eng _ (by decide +kernel)
      | exact sub_hk _ (by decide +kernel)
      | exact sub_port _ _ (by decide +kernel)
      | exact sub_win _ (by decide +kernel)
      | exact sub_any _ (by decide +kernel)
      | split
      | refine Keeps.upd ?_
  try clear_value a1
  try clear_value a2
  try clear_value a3
  try clear_value a4
  have ha5 : Keeps (foot [.reg PWR_STATE, .reg (HKx_CTRL 0x1700), .reg (HKx_CAL_STATUS 0x1700), .reg (HKx_CTRL 0x1800), .reg (HKx_CAL_STATUS 0x1800), .reg HKS_REFBUF_STATUS, .reg HKS_EXC_STATUS, .cou, .bru, .pwr, .hka, .hkb, .refOnAt]) s a5 := by
    unfold a5
    repeat' first
      | with_reducible assumption
      | with_reducible apply Keeps.refl
      | with_reducible apply Keeps.ite
      | (apply Keeps.step; with_reducible apply State.setFld_keeps)
      | (apply Keeps.step; with_reducible apply State.setBit_keeps)
      | (apply Keeps.step; with_reducible apply State.pwrDrop_keeps)
      | (apply Keeps.step; with_reducible apply State.refUpdate_keeps)
      | (with_reducible apply Keeps.forEach; intro _ _ _)
      | (with_reducible apply Keeps.foldl_fst; intro _ _ _)
      | (with_reducible apply Keeps.foldl_snd; intro _ _ _)
      | (with_reducible apply Keeps.foldl; intro _ _ _)
      | decide +kernel
      | exact sub_flt _ (by decide +kernel)
      | exact sub_eng _ (by decide +kernel)
      | exact sub_hk _ (by decide +kernel)
      | exact sub_port _ _ (by decide +kernel)
      | exact sub_win _ (by decide +kernel)
      | exact sub_any _ (by decide +kernel)
      | split
      | refine Keeps.upd ?_
  try clear_value a5
  repeat' first
    | with_reducible assumption
    | with_reducible apply Keeps.refl
    | with_reducible apply Keeps.ite
    | (apply Keeps.step; with_reducible apply State.setFld_keeps)
    | (apply Keeps.step; with_reducible apply State.setBit_keeps)
    | (apply Keeps.step; with_reducible apply State.pwrDrop_keeps)
    | (apply Keeps.step; with_reducible apply State.refUpdate_keeps)
    | (with_reducible apply Keeps.forEach; intro _ _ _)
    | (with_reducible apply Keeps.foldl_fst; intro _ _ _)
    | (with_reducible apply Keeps.foldl_snd; intro _ _ _)
    | (with_reducible apply Keeps.foldl; intro _ _ _)
    | decide +kernel
    | exact sub_flt _ (by decide +kernel)
    | exact sub_eng _ (by decide +kernel)
    | exact sub_hk _ (by decide +kernel)
    | exact sub_port _ _ (by decide +kernel)
    | exact sub_win _ (by decide +kernel)
    | exact sub_any _ (by decide +kernel)
    | split
    | refine Keeps.upd ?_

theorem State.pwrReturn_keeps (s : State) (r : PwrRun) :
    Keeps (foot [.reg PWR_STATE, .reg NUL_PRIMER_CTRL, .win .nul, .col, .nul]) s (State.pwrReturn s r) := by
  unfold State.pwrReturn
  extract_lets a1
  have ha1 : Keeps (foot [.reg PWR_STATE, .reg NUL_PRIMER_CTRL, .win .nul, .col, .nul]) s a1 := by
    unfold a1
    repeat' first
      | with_reducible assumption
      | with_reducible apply Keeps.refl
      | with_reducible apply Keeps.ite
      | (apply Keeps.step; with_reducible apply State.setFld_keeps)
      | (apply Keeps.step; with_reducible apply State.loopStart_keeps)
      | (with_reducible apply Keeps.forEach; intro _ _ _)
      | (with_reducible apply Keeps.foldl_fst; intro _ _ _)
      | (with_reducible apply Keeps.foldl_snd; intro _ _ _)
      | (with_reducible apply Keeps.foldl; intro _ _ _)
      | decide +kernel
      | exact sub_flt _ (by decide +kernel)
      | exact sub_eng _ (by decide +kernel)
      | exact sub_hk _ (by decide +kernel)
      | exact sub_port _ _ (by decide +kernel)
      | exact sub_win _ (by decide +kernel)
      | exact sub_any _ (by decide +kernel)
      | split
  try clear_value a1
  repeat' first
    | with_reducible assumption
    | with_reducible apply Keeps.refl
    | with_reducible apply Keeps.ite
    | (apply Keeps.step; with_reducible apply State.setFld_keeps)
    | (apply Keeps.step; with_reducible apply State.loopStart_keeps)
    | (with_reducible apply Keeps.forEach; intro _ _ _)
    | (with_reducible apply Keeps.foldl_fst; intro _ _ _)
    | (with_reducible apply Keeps.foldl_snd; intro _ _ _)
    | (with_reducible apply Keeps.foldl; intro _ _ _)
    | decide +kernel
    | exact sub_flt _ (by decide +kernel)
    | exact sub_eng _ (by decide +kernel)
    | exact sub_hk _ (by decide +kernel)
    | exact sub_port _ _ (by decide +kernel)
    | exact sub_win _ (by decide +kernel)
    | exact sub_any _ (by decide +kernel)
    | split

theorem State.loopStartDue_keeps (s : State) :
    Keeps (foot [.reg NUL_PRIMER_CTRL, .win .nul, .col, .nul]) s (State.loopStartDue s) := by
  unfold State.loopStartDue
  repeat' first
    | with_reducible assumption
    | with_reducible apply Keeps.refl
    | with_reducible apply Keeps.ite
    | (apply Keeps.step; with_reducible apply State.loopStart_keeps)
    | (with_reducible apply Keeps.forEach; intro _ _ _)
    | (with_reducible apply Keeps.foldl_fst; intro _ _ _)
    | (with_reducible apply Keeps.foldl_snd; intro _ _ _)
    | (with_reducible apply Keeps.foldl; intro _ _ _)
    | decide +kernel
    | exact sub_flt _ (by decide +kernel)
    | exact sub_eng _ (by decide +kernel)
    | exact sub_hk _ (by decide +kernel)
    | exact sub_port _ _ (by decide +kernel)
    | exact sub_win _ (by decide +kernel)
    | exact sub_any _ (by decide +kernel)
    | split

theorem State.wakeTick_keeps (s : State) (r : PwrRun) :
    Keeps (foot [.reg GLB_DETERMINISM, .reg LNK_DEADLETTER_COUNT, .reg (ENG_STATUS 0x600), .reg PWR_STATE, .reg NUL_PRIMER_CTRL, .reg (ENG_STATUS 0x1B00), .flt, .win .lnk, .win .nul, .recTick, .bar, .faults, .cou, .bru, .pwr, .col, .nul, .lnk, .free, .srcs]) s (State.wakeTick s r) := by
  unfold State.wakeTick
  extract_lets a1 a2 a3 a4 a5 a6 a7 a8 a9
  try clear_value a1
  try clear_value a2
  try clear_value a3
  have ha4 : Keeps (foot [.reg GLB_DETERMINISM, .reg LNK_DEADLETTER_COUNT, .reg (ENG_STATUS 0x600), .reg PWR_STATE, .reg NUL_PRIMER_CTRL, .reg (ENG_STATUS 0x1B00), .flt, .win .lnk, .win .nul, .recTick, .bar, .faults, .cou, .bru, .pwr, .col, .nul, .lnk, .free, .srcs]) s a4 := by
    unfold a4
    repeat' first
      | with_reducible assumption
      | with_reducible apply Keeps.refl
      | with_reducible apply Keeps.ite
      | (apply Keeps.step; with_reducible apply State.setRun_keeps)
      | (apply Keeps.step; with_reducible apply State.pwrReturn_keeps)
      | (apply Keeps.step; with_reducible apply State.pwrEnd_keeps)
      | (with_reducible apply Keeps.forEach; intro _ _ _)
      | (with_reducible apply Keeps.foldl_fst; intro _ _ _)
      | (with_reducible apply Keeps.foldl_snd; intro _ _ _)
      | (with_reducible apply Keeps.foldl; intro _ _ _)
      | decide +kernel
      | exact sub_flt _ (by decide +kernel)
      | exact sub_eng _ (by decide +kernel)
      | exact sub_hk _ (by decide +kernel)
      | exact sub_port _ _ (by decide +kernel)
      | exact sub_win _ (by decide +kernel)
      | exact sub_any _ (by decide +kernel)
      | split
      | refine Keeps.upd ?_
  try clear_value a4
  try clear_value a5
  try clear_value a7
  have ha8 : Keeps (foot [.reg GLB_DETERMINISM, .reg LNK_DEADLETTER_COUNT, .reg (ENG_STATUS 0x600), .reg PWR_STATE, .reg NUL_PRIMER_CTRL, .reg (ENG_STATUS 0x1B00), .flt, .win .lnk, .win .nul, .recTick, .bar, .faults, .cou, .bru, .pwr, .col, .nul, .lnk, .free, .srcs]) s a8 := by
    unfold a8
    repeat' first
      | with_reducible assumption
      | with_reducible apply Keeps.refl
      | with_reducible apply Keeps.ite
      | (apply Keeps.step; with_reducible apply State.setRun_keeps)
      | (apply Keeps.step; with_reducible apply State.pwrReturn_keeps)
      | (apply Keeps.step; with_reducible apply State.pwrEnd_keeps)
      | (with_reducible apply Keeps.forEach; intro _ _ _)
      | (with_reducible apply Keeps.foldl_fst; intro _ _ _)
      | (with_reducible apply Keeps.foldl_snd; intro _ _ _)
      | (with_reducible apply Keeps.foldl; intro _ _ _)
      | decide +kernel
      | exact sub_flt _ (by decide +kernel)
      | exact sub_eng _ (by decide +kernel)
      | exact sub_hk _ (by decide +kernel)
      | exact sub_port _ _ (by decide +kernel)
      | exact sub_win _ (by decide +kernel)
      | exact sub_any _ (by decide +kernel)
      | split
      | refine Keeps.upd ?_
  try clear_value a8
  have ha9 : Keeps (foot [.reg GLB_DETERMINISM, .reg LNK_DEADLETTER_COUNT, .reg (ENG_STATUS 0x600), .reg PWR_STATE, .reg NUL_PRIMER_CTRL, .reg (ENG_STATUS 0x1B00), .flt, .win .lnk, .win .nul, .recTick, .bar, .faults, .cou, .bru, .pwr, .col, .nul, .lnk, .free, .srcs]) s a9 := by
    unfold a9
    repeat' first
      | with_reducible assumption
      | with_reducible apply Keeps.refl
      | with_reducible apply Keeps.ite
      | (apply Keeps.step; with_reducible apply State.setRun_keeps)
      | (apply Keeps.step; with_reducible apply State.pwrReturn_keeps)
      | (apply Keeps.step; with_reducible apply State.pwrEnd_keeps)
      | (with_reducible apply Keeps.forEach; intro _ _ _)
      | (with_reducible apply Keeps.foldl_fst; intro _ _ _)
      | (with_reducible apply Keeps.foldl_snd; intro _ _ _)
      | (with_reducible apply Keeps.foldl; intro _ _ _)
      | decide +kernel
      | exact sub_flt _ (by decide +kernel)
      | exact sub_eng _ (by decide +kernel)
      | exact sub_hk _ (by decide +kernel)
      | exact sub_port _ _ (by decide +kernel)
      | exact sub_win _ (by decide +kernel)
      | exact sub_any _ (by decide +kernel)
      | split
      | refine Keeps.upd ?_
  try clear_value a9
  repeat' first
    | with_reducible assumption
    | with_reducible apply Keeps.refl
    | with_reducible apply Keeps.ite
    | (apply Keeps.step; with_reducible apply State.setRun_keeps)
    | (apply Keeps.step; with_reducible apply State.pwrReturn_keeps)
    | (apply Keeps.step; with_reducible apply State.pwrEnd_keeps)
    | (with_reducible apply Keeps.forEach; intro _ _ _)
    | (with_reducible apply Keeps.foldl_fst; intro _ _ _)
    | (with_reducible apply Keeps.foldl_snd; intro _ _ _)
    | (with_reducible apply Keeps.foldl; intro _ _ _)
    | decide +kernel
    | exact sub_flt _ (by decide +kernel)
    | exact sub_eng _ (by decide +kernel)
    | exact sub_hk _ (by decide +kernel)
    | exact sub_port _ _ (by decide +kernel)
    | exact sub_win _ (by decide +kernel)
    | exact sub_any _ (by decide +kernel)
    | split
    | refine Keeps.upd ?_

theorem State.powerRunTick_keeps (s : State) :
    Keeps (foot [.reg GLB_DETERMINISM, .reg LNK_DEADLETTER_COUNT, .reg (ENG_STATUS 0x600), .reg PWR_STATE, .reg NUL_PRIMER_CTRL, .reg (HKx_CTRL 0x1700), .reg (HKx_STATUS 0x1700), .reg (HKx_OVERRUN_COUNT 0x1700), .reg (HKx_CAL_STATUS 0x1700), .reg (HKx_CTRL 0x1800), .reg (HKx_STATUS 0x1800), .reg (HKx_OVERRUN_COUNT 0x1800), .reg (HKx_CAL_STATUS 0x1800), .reg HKS_REFBUF_STATUS, .reg HKS_EXC_STATUS, .reg (ENG_STATUS 0x1B00), .flt, .win .lnk, .win .nul, .recTick, .bar, .faults, .cou, .bru] ||| foot [.pwr, .col, .nul, .lnk, .hka, .hkb, .refOnAt, .free, .srcs]) s (State.powerRunTick s) := by
  unfold State.powerRunTick
  extract_lets a1
  have ha1 : Keeps (foot [.reg GLB_DETERMINISM, .reg LNK_DEADLETTER_COUNT, .reg (ENG_STATUS 0x600), .reg PWR_STATE, .reg NUL_PRIMER_CTRL, .reg (HKx_CTRL 0x1700), .reg (HKx_STATUS 0x1700), .reg (HKx_OVERRUN_COUNT 0x1700), .reg (HKx_CAL_STATUS 0x1700), .reg (HKx_CTRL 0x1800), .reg (HKx_STATUS 0x1800), .reg (HKx_OVERRUN_COUNT 0x1800), .reg (HKx_CAL_STATUS 0x1800), .reg HKS_REFBUF_STATUS, .reg HKS_EXC_STATUS, .reg (ENG_STATUS 0x1B00), .flt, .win .lnk, .win .nul, .recTick, .bar, .faults, .cou, .bru] ||| foot [.pwr, .col, .nul, .lnk, .hka, .hkb, .refOnAt, .free, .srcs]) s a1 := by
    unfold a1
    repeat' first
      | with_reducible assumption
      | with_reducible apply Keeps.refl
      | with_reducible apply Keeps.ite
      | (apply Keeps.step; with_reducible apply State.hkWake_keeps)
      | (apply Keeps.step; with_reducible apply State.wakeTick_keeps)
      | (apply Keeps.step; with_reducible apply State.entryTick_keeps)
      | (with_reducible apply Keeps.forEach; intro _ _ _)
      | (with_reducible apply Keeps.foldl_fst; intro _ _ _)
      | (with_reducible apply Keeps.foldl_snd; intro _ _ _)
      | (with_reducible apply Keeps.foldl; intro _ _ _)
      | decide +kernel
      | exact sub_flt _ (by decide +kernel)
      | exact sub_eng _ (by decide +kernel)
      | exact sub_hk _ (by decide +kernel)
      | exact sub_port _ _ (by decide +kernel)
      | exact sub_win _ (by decide +kernel)
      | exact sub_any _ (by decide +kernel)
      | split
  try clear_value a1
  repeat' first
    | with_reducible assumption
    | with_reducible apply Keeps.refl
    | with_reducible apply Keeps.ite
    | (apply Keeps.step; with_reducible apply State.hkWake_keeps)
    | (apply Keeps.step; with_reducible apply State.wakeTick_keeps)
    | (apply Keeps.step; with_reducible apply State.entryTick_keeps)
    | (with_reducible apply Keeps.forEach; intro _ _ _)
    | (with_reducible apply Keeps.foldl_fst; intro _ _ _)
    | (with_reducible apply Keeps.foldl_snd; intro _ _ _)
    | (with_reducible apply Keeps.foldl; intro _ _ _)
    | decide +kernel
    | exact sub_flt _ (by decide +kernel)
    | exact sub_eng _ (by decide +kernel)
    | exact sub_hk _ (by decide +kernel)
    | exact sub_port _ _ (by decide +kernel)
    | exact sub_win _ (by decide +kernel)
    | exact sub_any _ (by decide +kernel)
    | split

theorem State.powerEnter_keeps (s : State) :
    Keeps (foot [.reg GLB_DETERMINISM, .reg LNK_DEADLETTER_COUNT, .reg (ENG_STATUS 0x600), .reg PWR_STATE, .reg CAL_STATUS, .reg CAL_DEFER_COUNT, .reg (ENG_STATUS 0x1B00), .flt, .win .lnk, .win .nul, .win .cal, .recTick, .bar, .faults, .cou, .bru, .pwr, .col, .nul, .lnk, .cal, .free, .srcs]) s (State.powerEnter s) := by
  unfold State.powerEnter
  extract_lets a1 a2 a3
  try clear_value a1
  have ha2 : Keeps (foot [.reg GLB_DETERMINISM, .reg LNK_DEADLETTER_COUNT, .reg (ENG_STATUS 0x600), .reg PWR_STATE, .reg CAL_STATUS, .reg CAL_DEFER_COUNT, .reg (ENG_STATUS 0x1B00), .flt, .win .lnk, .win .nul, .win .cal, .recTick, .bar, .faults, .cou, .bru, .pwr, .col, .nul, .lnk, .cal, .free, .srcs]) s a2 := by
    unfold a2
    repeat' first
      | with_reducible assumption
      | with_reducible apply Keeps.refl
      | with_reducible apply Keeps.ite
      | (apply Keeps.step; with_reducible apply State.calCut_keeps)
      | (apply Keeps.step; with_reducible apply State.setFld_keeps)
      | (apply Keeps.step; with_reducible apply State.pwrBegin_keeps)
      | (apply Keeps.step; with_reducible apply State.pwrEnd_keeps)
      | (with_reducible apply Keeps.forEach; intro _ _ _)
      | (with_reducible apply Keeps.foldl_fst; intro _ _ _)
      | (with_reducible apply Keeps.foldl_snd; intro _ _ _)
      | (with_reducible apply Keeps.foldl; intro _ _ _)
      | decide +kernel
      | exact sub_flt _ (by decide +kernel)
      | exact sub_eng _ (by decide +kernel)
      | exact sub_hk _ (by decide +kernel)
      | exact sub_port _ _ (by decide +kernel)
      | exact sub_win _ (by decide +kernel)
      | exact sub_any _ (by decide +kernel)
      | split
      | refine Keeps.upd ?_
  try clear_value a2
  try clear_value a3
  repeat' first
    | with_reducible assumption
    | with_reducible apply Keeps.refl
    | with_reducible apply Keeps.ite
    | (apply Keeps.step; with_reducible apply State.calCut_keeps)
    | (apply Keeps.step; with_reducible apply State.setFld_keeps)
    | (apply Keeps.step; with_reducible apply State.pwrBegin_keeps)
    | (apply Keeps.step; with_reducible apply State.pwrEnd_keeps)
    | (with_reducible apply Keeps.forEach; intro _ _ _)
    | (with_reducible apply Keeps.foldl_fst; intro _ _ _)
    | (with_reducible apply Keeps.foldl_snd; intro _ _ _)
    | (with_reducible apply Keeps.foldl; intro _ _ _)
    | decide +kernel
    | exact sub_flt _ (by decide +kernel)
    | exact sub_eng _ (by decide +kernel)
    | exact sub_hk _ (by decide +kernel)
    | exact sub_port _ _ (by decide +kernel)
    | exact sub_win _ (by decide +kernel)
    | exact sub_any _ (by decide +kernel)
    | split
    | refine Keeps.upd ?_

theorem State.powerAtT_keeps (s : State) :
    Keeps (foot [.reg GLB_DETERMINISM, .reg LNK_DEADLETTER_COUNT, .reg (ENG_STATUS 0x600), .reg PWR_STATE, .reg PWR_REQUEST, .reg (HKx_CTRL 0x1700), .reg (HKx_CAL_STATUS 0x1700), .reg (HKx_CTRL 0x1800), .reg (HKx_CAL_STATUS 0x1800), .reg HKS_REFBUF_STATUS, .reg HKS_EXC_STATUS, .reg CAL_STATUS, .reg CAL_DEFER_COUNT, .reg (ENG_STATUS 0x1B00), .flt, .win .lnk, .win .nul, .win .cal, .recTick, .bar, .faults, .cou, .bru, .pwr] ||| foot [.col, .nul, .lnk, .hka, .hkb, .refOnAt, .cal, .free, .srcs]) s (State.powerAtT s) := by
  unfold State.powerAtT
  repeat' first
    | with_reducible assumption
    | with_reducible apply Keeps.refl
    | with_reducible apply Keeps.ite
    | (apply Keeps.step; with_reducible apply State.powerEnter_keeps)
    | (apply Keeps.step; with_reducible apply State.powerWakes_keeps)
    | (apply Keeps.step; with_reducible apply State.setBit_keeps)
    | (apply Keeps.step; with_reducible apply State.pwrDrop_keeps)
    | (with_reducible apply Keeps.forEach; intro _ _ _)
    | (with_reducible apply Keeps.foldl_fst; intro _ _ _)
    | (with_reducible apply Keeps.foldl_snd; intro _ _ _)
    | (with_reducible apply Keeps.foldl; intro _ _ _)
    | decide +kernel
    | exact sub_flt _ (by decide +kernel)
    | exact sub_eng _ (by decide +kernel)
    | exact sub_hk _ (by decide +kernel)
    | exact sub_port _ _ (by decide +kernel)
    | exact sub_win _ (by decide +kernel)
    | exact sub_any _ (by decide +kernel)
    | split

theorem State.powerTick_keeps (s : State) :
    Keeps (foot [.reg GLB_DETERMINISM, .reg LNK_DEADLETTER_COUNT, .reg (ENG_STATUS 0x600), .reg PWR_STATE, .reg PWR_REQUEST, .reg NUL_PRIMER_CTRL, .reg (HKx_CTRL 0x1700), .reg (HKx_STATUS 0x1700), .reg (HKx_OVERRUN_COUNT 0x1700), .reg (HKx_CAL_STATUS 0x1700), .reg (HKx_CTRL 0x1800), .reg (HKx_STATUS 0x1800), .reg (HKx_OVERRUN_COUNT 0x1800), .reg (HKx_CAL_STATUS 0x1800), .reg HKS_REFBUF_STATUS, .reg HKS_EXC_STATUS, .reg CAL_STATUS, .reg CAL_DEFER_COUNT, .reg (ENG_STATUS 0x1B00), .flt, .win .lnk, .win .nul, .win .cal, .recTick] ||| foot [.bar, .faults, .cou, .bru, .pwr, .col, .nul, .lnk, .hka, .hkb, .refOnAt, .cal, .free, .srcs]) s (State.powerTick s) := by
  unfold State.powerTick
  repeat' first
    | with_reducible assumption
    | with_reducible apply Keeps.refl
    | with_reducible apply Keeps.ite
    | (apply Keeps.step; with_reducible apply State.powerRunTick_keeps)
    | (apply Keeps.step; with_reducible apply State.powerAtT_keeps)
    | (with_reducible apply Keeps.forEach; intro _ _ _)
    | (with_reducible apply Keeps.foldl_fst; intro _ _ _)
    | (with_reducible apply Keeps.foldl_snd; intro _ _ _)
    | (with_reducible apply Keeps.foldl; intro _ _ _)
    | decide +kernel
    | exact sub_flt _ (by decide +kernel)
    | exact sub_eng _ (by decide +kernel)
    | exact sub_hk _ (by decide +kernel)
    | exact sub_port _ _ (by decide +kernel)
    | exact sub_win _ (by decide +kernel)
    | exact sub_any _ (by decide +kernel)
    | split

theorem State.powerAnswer_keeps (s : State) (status : Nat) :
    Keeps (foot [.reg PWR_STATE, .reg PWR_REQUEST, .pwr]) s (State.powerAnswer s status) := by
  unfold State.powerAnswer
  extract_lets a1
  try clear_value a1
  repeat' first
    | with_reducible assumption
    | with_reducible apply Keeps.refl
    | with_reducible apply Keeps.ite
    | (apply Keeps.step; with_reducible apply State.setBit_keeps)
    | (apply Keeps.step; with_reducible apply State.pwrDrop_keeps)
    | (with_reducible apply Keeps.forEach; intro _ _ _)
    | (with_reducible apply Keeps.foldl_fst; intro _ _ _)
    | (with_reducible apply Keeps.foldl_snd; intro _ _ _)
    | (with_reducible apply Keeps.foldl; intro _ _ _)
    | decide +kernel
    | exact sub_flt _ (by decide +kernel)
    | exact sub_eng _ (by decide +kernel)
    | exact sub_hk _ (by decide +kernel)
    | exact sub_port _ _ (by decide +kernel)
    | exact sub_win _ (by decide +kernel)
    | exact sub_any _ (by decide +kernel)
    | split
    | refine Keeps.upd ?_

theorem State.commandDrape_keeps (s : State) (on : Bool) :
    Keeps (foot [.reg GLB_DETERMINISM, .reg LNK_DEADLETTER_COUNT, .reg (ENG_STATUS 0x600), .reg CAL_STATUS, .reg CAL_DEFER_COUNT, .reg (ENG_STATUS 0x1B00), .flt, .win .lnk, .win .nul, .win .cal, .recTick, .bar, .pin, .faults, .cou, .bru, .pal, .pwr, .col, .nul, .lnk, .cal, .free, .srcs]) s (State.commandDrape s on) := by
  unfold State.commandDrape
  extract_lets a1
  try clear_value a1
  repeat' first
    | with_reducible assumption
    | with_reducible apply Keeps.refl
    | with_reducible apply Keeps.ite
    | (apply Keeps.step; with_reducible apply State.laneArrives_keeps)
    | (with_reducible apply Keeps.forEach; intro _ _ _)
    | (with_reducible apply Keeps.foldl_fst; intro _ _ _)
    | (with_reducible apply Keeps.foldl_snd; intro _ _ _)
    | (with_reducible apply Keeps.foldl; intro _ _ _)
    | decide +kernel
    | exact sub_flt _ (by decide +kernel)
    | exact sub_eng _ (by decide +kernel)
    | exact sub_hk _ (by decide +kernel)
    | exact sub_port _ _ (by decide +kernel)
    | exact sub_win _ (by decide +kernel)
    | exact sub_any _ (by decide +kernel)
    | split
    | refine Keeps.upd ?_

theorem State.safeEntry_keeps (s : State) (cause : Nat) :
    Keeps (foot [.reg GLB_STATE, .reg GLB_DETERMINISM, .reg LNK_DEADLETTER_COUNT, .reg (ENG_CTRL 0x600), .reg (ENG_STATUS 0x600), .reg (ENG_WAIT_COND 0x600), .reg (ENG_ROUTINE_ACTIVE 0x600), .reg (ENG_ABANDON_COUNT 0x600), .reg PWR_STATE, .reg FGL_STATUS, .reg (HKx_CTRL 0x1700), .reg (HKx_STATUS 0x1700), .reg (HKx_OVERRUN_COUNT 0x1700), .reg (HKx_CAL_STATUS 0x1700), .reg (HKx_CTRL 0x1800), .reg (HKx_STATUS 0x1800), .reg (HKx_OVERRUN_COUNT 0x1800), .reg (HKx_CAL_STATUS 0x1800), .reg HKS_REFBUF_STATUS, .reg HKS_EXC_STATUS, .reg CAL_STATUS, .reg CAL_DEFER_COUNT, .reg (ENG_CTRL 0x1B00), .reg (ENG_STATUS 0x1B00)] ||| foot [.reg (ENG_WAIT_COND 0x1B00), .reg (ENG_ROUTINE_ACTIVE 0x1B00), .reg (ENG_ABANDON_COUNT 0x1B00), .flt, .win .lnk, .win .nul, .win .cal, .recTick, .bar, .faults, .cou, .bru, .pwr, .col, .nul, .lnk, .hka, .hkb, .refOnAt, .cal, .free, .srcs]) s (State.safeEntry s cause) := by
  unfold State.safeEntry
  extract_lets a1 a2 a3 a4 a5
  have ha1 : Keeps (foot [.reg GLB_STATE, .reg GLB_DETERMINISM, .reg LNK_DEADLETTER_COUNT, .reg (ENG_CTRL 0x600), .reg (ENG_STATUS 0x600), .reg (ENG_WAIT_COND 0x600), .reg (ENG_ROUTINE_ACTIVE 0x600), .reg (ENG_ABANDON_COUNT 0x600), .reg PWR_STATE, .reg FGL_STATUS, .reg (HKx_CTRL 0x1700), .reg (HKx_STATUS 0x1700), .reg (HKx_OVERRUN_COUNT 0x1700), .reg (HKx_CAL_STATUS 0x1700), .reg (HKx_CTRL 0x1800), .reg (HKx_STATUS 0x1800), .reg (HKx_OVERRUN_COUNT 0x1800), .reg (HKx_CAL_STATUS 0x1800), .reg HKS_REFBUF_STATUS, .reg HKS_EXC_STATUS, .reg CAL_STATUS, .reg CAL_DEFER_COUNT, .reg (ENG_CTRL 0x1B00), .reg (ENG_STATUS 0x1B00)] ||| foot [.reg (ENG_WAIT_COND 0x1B00), .reg (ENG_ROUTINE_ACTIVE 0x1B00), .reg (ENG_ABANDON_COUNT 0x1B00), .flt, .win .lnk, .win .nul, .win .cal, .recTick, .bar, .faults, .cou, .bru, .pwr, .col, .nul, .lnk, .hka, .hkb, .refOnAt, .cal, .free, .srcs]) s a1 := by
    unfold a1
    repeat' first
      | with_reducible assumption
      | with_reducible apply Keeps.refl
      | with_reducible apply Keeps.ite
      | (apply Keeps.step; with_reducible apply State.setGlb_keeps)
      | (apply Keeps.step; with_reducible apply State.setFld_keeps)
      | (apply Keeps.step; with_reducible apply State.pwrOff_keeps)
      | (apply Keeps.step; with_reducible apply State.engStop_keeps)
      | (apply Keeps.step; with_reducible apply State.setBit_keeps)
      | (apply Keeps.step; with_reducible apply State.calCut_keeps)
      | (apply Keeps.step; with_reducible apply State.hkHalt_keeps)
      | (with_reducible apply Keeps.forEach; intro _ _ _)
      | (with_reducible apply Keeps.foldl_fst; intro _ _ _)
      | (with_reducible apply Keeps.foldl_snd; intro _ _ _)
      | (with_reducible apply Keeps.foldl; intro _ _ _)
      | decide +kernel
      | exact sub_flt _ (by decide +kernel)
      | exact sub_eng _ (by decide +kernel)
      | exact sub_hk _ (by decide +kernel)
      | exact sub_port _ _ (by decide +kernel)
      | exact sub_win _ (by decide +kernel)
      | exact sub_any _ (by decide +kernel)
      | split
      | refine Keeps.upd ?_
  try clear_value a1
  have ha2 : Keeps (foot [.reg GLB_STATE, .reg GLB_DETERMINISM, .reg LNK_DEADLETTER_COUNT, .reg (ENG_CTRL 0x600), .reg (ENG_STATUS 0x600), .reg (ENG_WAIT_COND 0x600), .reg (ENG_ROUTINE_ACTIVE 0x600), .reg (ENG_ABANDON_COUNT 0x600), .reg PWR_STATE, .reg FGL_STATUS, .reg (HKx_CTRL 0x1700), .reg (HKx_STATUS 0x1700), .reg (HKx_OVERRUN_COUNT 0x1700), .reg (HKx_CAL_STATUS 0x1700), .reg (HKx_CTRL 0x1800), .reg (HKx_STATUS 0x1800), .reg (HKx_OVERRUN_COUNT 0x1800), .reg (HKx_CAL_STATUS 0x1800), .reg HKS_REFBUF_STATUS, .reg HKS_EXC_STATUS, .reg CAL_STATUS, .reg CAL_DEFER_COUNT, .reg (ENG_CTRL 0x1B00), .reg (ENG_STATUS 0x1B00)] ||| foot [.reg (ENG_WAIT_COND 0x1B00), .reg (ENG_ROUTINE_ACTIVE 0x1B00), .reg (ENG_ABANDON_COUNT 0x1B00), .flt, .win .lnk, .win .nul, .win .cal, .recTick, .bar, .faults, .cou, .bru, .pwr, .col, .nul, .lnk, .hka, .hkb, .refOnAt, .cal, .free, .srcs]) s a2 := by
    unfold a2
    repeat' first
      | with_reducible assumption
      | with_reducible apply Keeps.refl
      | with_reducible apply Keeps.ite
      | (apply Keeps.step; with_reducible apply State.setGlb_keeps)
      | (apply Keeps.step; with_reducible apply State.setFld_keeps)
      | (apply Keeps.step; with_reducible apply State.pwrOff_keeps)
      | (apply Keeps.step; with_reducible apply State.engStop_keeps)
      | (apply Keeps.step; with_reducible apply State.setBit_keeps)
      | (apply Keeps.step; with_reducible apply State.calCut_keeps)
      | (apply Keeps.step; with_reducible apply State.hkHalt_keeps)
      | (with_reducible apply Keeps.forEach; intro _ _ _)
      | (with_reducible apply Keeps.foldl_fst; intro _ _ _)
      | (with_reducible apply Keeps.foldl_snd; intro _ _ _)
      | (with_reducible apply Keeps.foldl; intro _ _ _)
      | decide +kernel
      | exact sub_flt _ (by decide +kernel)
      | exact sub_eng _ (by decide +kernel)
      | exact sub_hk _ (by decide +kernel)
      | exact sub_port _ _ (by decide +kernel)
      | exact sub_win _ (by decide +kernel)
      | exact sub_any _ (by decide +kernel)
      | split
      | refine Keeps.upd ?_
  try clear_value a2
  have ha3 : Keeps (foot [.reg GLB_STATE, .reg GLB_DETERMINISM, .reg LNK_DEADLETTER_COUNT, .reg (ENG_CTRL 0x600), .reg (ENG_STATUS 0x600), .reg (ENG_WAIT_COND 0x600), .reg (ENG_ROUTINE_ACTIVE 0x600), .reg (ENG_ABANDON_COUNT 0x600), .reg PWR_STATE, .reg FGL_STATUS, .reg (HKx_CTRL 0x1700), .reg (HKx_STATUS 0x1700), .reg (HKx_OVERRUN_COUNT 0x1700), .reg (HKx_CAL_STATUS 0x1700), .reg (HKx_CTRL 0x1800), .reg (HKx_STATUS 0x1800), .reg (HKx_OVERRUN_COUNT 0x1800), .reg (HKx_CAL_STATUS 0x1800), .reg HKS_REFBUF_STATUS, .reg HKS_EXC_STATUS, .reg CAL_STATUS, .reg CAL_DEFER_COUNT, .reg (ENG_CTRL 0x1B00), .reg (ENG_STATUS 0x1B00)] ||| foot [.reg (ENG_WAIT_COND 0x1B00), .reg (ENG_ROUTINE_ACTIVE 0x1B00), .reg (ENG_ABANDON_COUNT 0x1B00), .flt, .win .lnk, .win .nul, .win .cal, .recTick, .bar, .faults, .cou, .bru, .pwr, .col, .nul, .lnk, .hka, .hkb, .refOnAt, .cal, .free, .srcs]) s a3 := by
    unfold a3
    repeat' first
      | with_reducible assumption
      | with_reducible apply Keeps.refl
      | with_reducible apply Keeps.ite
      | (apply Keeps.step; with_reducible apply State.setGlb_keeps)
      | (apply Keeps.step; with_reducible apply State.setFld_keeps)
      | (apply Keeps.step; with_reducible apply State.pwrOff_keeps)
      | (apply Keeps.step; with_reducible apply State.engStop_keeps)
      | (apply Keeps.step; with_reducible apply State.setBit_keeps)
      | (apply Keeps.step; with_reducible apply State.calCut_keeps)
      | (apply Keeps.step; with_reducible apply State.hkHalt_keeps)
      | (with_reducible apply Keeps.forEach; intro _ _ _)
      | (with_reducible apply Keeps.foldl_fst; intro _ _ _)
      | (with_reducible apply Keeps.foldl_snd; intro _ _ _)
      | (with_reducible apply Keeps.foldl; intro _ _ _)
      | decide +kernel
      | exact sub_flt _ (by decide +kernel)
      | exact sub_eng _ (by decide +kernel)
      | exact sub_hk _ (by decide +kernel)
      | exact sub_port _ _ (by decide +kernel)
      | exact sub_win _ (by decide +kernel)
      | exact sub_any _ (by decide +kernel)
      | split
      | refine Keeps.upd ?_
  try clear_value a3
  try clear_value a4
  have ha5 : Keeps (foot [.reg GLB_STATE, .reg GLB_DETERMINISM, .reg LNK_DEADLETTER_COUNT, .reg (ENG_CTRL 0x600), .reg (ENG_STATUS 0x600), .reg (ENG_WAIT_COND 0x600), .reg (ENG_ROUTINE_ACTIVE 0x600), .reg (ENG_ABANDON_COUNT 0x600), .reg PWR_STATE, .reg FGL_STATUS, .reg (HKx_CTRL 0x1700), .reg (HKx_STATUS 0x1700), .reg (HKx_OVERRUN_COUNT 0x1700), .reg (HKx_CAL_STATUS 0x1700), .reg (HKx_CTRL 0x1800), .reg (HKx_STATUS 0x1800), .reg (HKx_OVERRUN_COUNT 0x1800), .reg (HKx_CAL_STATUS 0x1800), .reg HKS_REFBUF_STATUS, .reg HKS_EXC_STATUS, .reg CAL_STATUS, .reg CAL_DEFER_COUNT, .reg (ENG_CTRL 0x1B00), .reg (ENG_STATUS 0x1B00)] ||| foot [.reg (ENG_WAIT_COND 0x1B00), .reg (ENG_ROUTINE_ACTIVE 0x1B00), .reg (ENG_ABANDON_COUNT 0x1B00), .flt, .win .lnk, .win .nul, .win .cal, .recTick, .bar, .faults, .cou, .bru, .pwr, .col, .nul, .lnk, .hka, .hkb, .refOnAt, .cal, .free, .srcs]) s a5 := by
    unfold a5
    repeat' first
      | with_reducible assumption
      | with_reducible apply Keeps.refl
      | with_reducible apply Keeps.ite
      | (apply Keeps.step; with_reducible apply State.setGlb_keeps)
      | (apply Keeps.step; with_reducible apply State.setFld_keeps)
      | (apply Keeps.step; with_reducible apply State.pwrOff_keeps)
      | (apply Keeps.step; with_reducible apply State.engStop_keeps)
      | (apply Keeps.step; with_reducible apply State.setBit_keeps)
      | (apply Keeps.step; with_reducible apply State.calCut_keeps)
      | (apply Keeps.step; with_reducible apply State.hkHalt_keeps)
      | (with_reducible apply Keeps.forEach; intro _ _ _)
      | (with_reducible apply Keeps.foldl_fst; intro _ _ _)
      | (with_reducible apply Keeps.foldl_snd; intro _ _ _)
      | (with_reducible apply Keeps.foldl; intro _ _ _)
      | decide +kernel
      | exact sub_flt _ (by decide +kernel)
      | exact sub_eng _ (by decide +kernel)
      | exact sub_hk _ (by decide +kernel)
      | exact sub_port _ _ (by decide +kernel)
      | exact sub_win _ (by decide +kernel)
      | exact sub_any _ (by decide +kernel)
      | split
      | refine Keeps.upd ?_
  try clear_value a5
  repeat' first
    | with_reducible assumption
    | with_reducible apply Keeps.refl
    | with_reducible apply Keeps.ite
    | (apply Keeps.step; with_reducible apply State.setGlb_keeps)
    | (apply Keeps.step; with_reducible apply State.setFld_keeps)
    | (apply Keeps.step; with_reducible apply State.pwrOff_keeps)
    | (apply Keeps.step; with_reducible apply State.engStop_keeps)
    | (apply Keeps.step; with_reducible apply State.setBit_keeps)
    | (apply Keeps.step; with_reducible apply State.calCut_keeps)
    | (apply Keeps.step; with_reducible apply State.hkHalt_keeps)
    | (with_reducible apply Keeps.forEach; intro _ _ _)
    | (with_reducible apply Keeps.foldl_fst; intro _ _ _)
    | (with_reducible apply Keeps.foldl_snd; intro _ _ _)
    | (with_reducible apply Keeps.foldl; intro _ _ _)
    | decide +kernel
    | exact sub_flt _ (by decide +kernel)
    | exact sub_eng _ (by decide +kernel)
    | exact sub_hk _ (by decide +kernel)
    | exact sub_port _ _ (by decide +kernel)
    | exact sub_win _ (by decide +kernel)
    | exact sub_any _ (by decide +kernel)
    | split
    | refine Keeps.upd ?_

theorem State.drapeValid_keeps (s : State) :
    Keeps (foot [.reg GLB_DETERMINISM, .reg LNK_DEADLETTER_COUNT, .reg (ENG_STATUS 0x600), .reg CAL_STATUS, .reg CAL_DEFER_COUNT, .reg (ENG_STATUS 0x1B00), .flt, .win .lnk, .win .nul, .win .cal, .recTick, .bar, .pin, .faults, .cou, .bru, .pal, .pwr, .col, .nul, .lnk, .cal, .free, .srcs]) s (State.drapeValid s) := by
  unfold State.drapeValid
  extract_lets a1
  try clear_value a1
  repeat' first
    | with_reducible assumption
    | with_reducible apply Keeps.refl
    | with_reducible apply Keeps.ite
    | (apply Keeps.step; with_reducible apply State.standing_keeps)
    | (apply Keeps.step; with_reducible apply State.syncDrape_keeps)
    | (with_reducible apply Keeps.forEach; intro _ _ _)
    | (with_reducible apply Keeps.foldl_fst; intro _ _ _)
    | (with_reducible apply Keeps.foldl_snd; intro _ _ _)
    | (with_reducible apply Keeps.foldl; intro _ _ _)
    | decide +kernel
    | exact sub_flt _ (by decide +kernel)
    | exact sub_eng _ (by decide +kernel)
    | exact sub_hk _ (by decide +kernel)
    | exact sub_port _ _ (by decide +kernel)
    | exact sub_win _ (by decide +kernel)
    | exact sub_any _ (by decide +kernel)
    | split
    | refine Keeps.upd ?_

end Sys2Proof.Machine
end

