-- ==== Sys2Proof/Laws/KeepsStart.lean ====
section
/-!
SUPPORT. Footprints of the operations of Machine/Start.lean: which parts of a state each can change.
-/
set_option Elab.async false
set_option linter.unusedTactic false
set_option linter.unreachableTactic false
namespace Sys2Proof.Machine

theorem State.storeFail_keeps (s : State) (step : Nat) :
    Keeps (foot [.reg GLB_DETERMINISM, .reg LNK_DEADLETTER_COUNT, .reg CFG_STORE_STATUS, .reg (ENG_STATUS 0x600), .reg (ENG_STATUS 0x1B00), .flt, .win .lnk, .recTick, .bar, .faults, .cou, .bru, .lnk, .cfg, .free, .srcs]) s (State.storeFail s step) := by
  unfold State.storeFail
  extract_lets a1 a2
  have ha2 : Keeps (foot [.reg GLB_DETERMINISM, .reg LNK_DEADLETTER_COUNT, .reg CFG_STORE_STATUS, .reg (ENG_STATUS 0x600), .reg (ENG_STATUS 0x1B00), .flt, .win .lnk, .recTick, .bar, .faults, .cou, .bru, .lnk, .cfg, .free, .srcs]) s a2 := by
    unfold a2
    repeat' first
      | with_reducible assumption
      | with_reducible apply Keeps.refl
      | with_reducible apply Keeps.ite
      | (apply Keeps.step; with_reducible apply State.raise_keeps)
      | (apply Keeps.step; with_reducible apply State.inc_keeps)
      | (apply Keeps.step; with_reducible apply State.setFld_keeps)
      | (apply Keeps.step; with_reducible apply State.setBit_keeps)
      | (with_reducible apply Keeps.forEach; intro _ _ _)
      | (with_reducible apply Keeps.foldl_fst; intro _ _ _)
      | (with_reducible apply Keeps.foldl_snd; intro _ _ _)
      | (with_reducible apply Keeps.foldl; intro _ _ _)
      | decide +kernel
      | exact sub_flt _ (by decide +kernel)
      | exact sub_eng _ (by decide +kernel)
      | exact sub_hk _ (by decide +kernel)
      | exact sub_port _ _ (by decide +kernel)
      | exact sub_win _ (by decide +kernel)
      | exact sub_any _ (by decide +kernel)
      | split
      | refine Keeps.upd ?_
  try clear_value a2
  repeat' first
    | with_reducible assumption
    | with_reducible apply Keeps.refl
    | with_reducible apply Keeps.ite
    | (apply Keeps.step; with_reducible apply State.raise_keeps)
    | (apply Keeps.step; with_reducible apply State.inc_keeps)
    | (apply Keeps.step; with_reducible apply State.setFld_keeps)
    | (apply Keeps.step; with_reducible apply State.setBit_keeps)
    | (with_reducible apply Keeps.forEach; intro _ _ _)
    | (with_reducible apply Keeps.foldl_fst; intro _ _ _)
    | (with_reducible apply Keeps.foldl_snd; intro _ _ _)
    | (with_reducible apply Keeps.foldl; intro _ _ _)
    | decide +kernel
    | exact sub_flt _ (by decide +kernel)
    | exact sub_eng _ (by decide +kernel)
    | exact sub_hk _ (by decide +kernel)
    | exact sub_port _ _ (by decide +kernel)
    | exact sub_win _ (by decide +kernel)
    | exact sub_any _ (by decide +kernel)
    | split
    | refine Keeps.upd ?_

theorem State.addFinding_keeps (s : State) (f : Finding) (failing : Bool) :
    Keeps (foot [.reg GLB_BIST_RESULT, .reg GLB_BIST_DETAIL, .win .glb]) s (State.addFinding s f failing) := by
  unfold State.addFinding
  extract_lets a1 a2 a3 a4
  try clear_value a1
  have ha2 : Keeps (foot [.reg GLB_BIST_RESULT, .reg GLB_BIST_DETAIL, .win .glb]) s a2 := by
    unfold a2
    repeat' first
      | with_reducible assumption
      | with_reducible apply Keeps.refl
      | with_reducible apply Keeps.ite
      | (apply Keeps.step; with_reducible apply State.setFld_keeps)
      | (apply Keeps.step; with_reducible apply State.setWinN_keeps)
      | (with_reducible apply Keeps.forEach; intro _ _ _)
      | (with_reducible apply Keeps.foldl_fst; intro _ _ _)
      | (with_reducible apply Keeps.foldl_snd; intro _ _ _)
      | (with_reducible apply Keeps.foldl; intro _ _ _)
      | decide +kernel
      | exact sub_flt _ (by decide +kernel)
      | exact sub_eng _ (by decide +kernel)
      | exact sub_hk _ (by decide +kernel)
      | exact sub_port _ _ (by decide +kernel)
      | exact sub_win _ (by decide +kernel)
      | exact sub_any _ (by decide +kernel)
      | split
  try clear_value a2
  have ha3 : Keeps (foot [.reg GLB_BIST_RESULT, .reg GLB_BIST_DETAIL, .win .glb]) s a3 := by
    unfold a3
    repeat' first
      | with_reducible assumption
      | with_reducible apply Keeps.refl
      | with_reducible apply Keeps.ite
      | (apply Keeps.step; with_reducible apply State.setFld_keeps)
      | (apply Keeps.step; with_reducible apply State.setWinN_keeps)
      | (with_reducible apply Keeps.forEach; intro _ _ _)
      | (with_reducible apply Keeps.foldl_fst; intro _ _ _)
      | (with_reducible apply Keeps.foldl_snd; intro _ _ _)
      | (with_reducible apply Keeps.foldl; intro _ _ _)
      | decide +kernel
      | exact sub_flt _ (by decide +kernel)
      | exact sub_eng _ (by decide +kernel)
      | exact sub_hk _ (by decide +kernel)
      | exact sub_port _ _ (by decide +kernel)
      | exact sub_win _ (by decide +kernel)
      | exact sub_any _ (by decide +kernel)
      | split
  try clear_value a3
  try clear_value a4
  repeat' first
    | with_reducible assumption
    | with_reducible apply Keeps.refl
    | with_reducible apply Keeps.ite
    | (apply Keeps.step; with_reducible apply State.setFld_keeps)
    | (apply Keeps.step; with_reducible apply State.setWinN_keeps)
    | (with_reducible apply Keeps.forEach; intro _ _ _)
    | (with_reducible apply Keeps.foldl_fst; intro _ _ _)
    | (with_reducible apply Keeps.foldl_snd; intro _ _ _)
    | (with_reducible apply Keeps.foldl; intro _ _ _)
    | decide +kernel
    | exact sub_flt _ (by decide +kernel)
    | exact sub_eng _ (by decide +kernel)
    | exact sub_hk _ (by decide +kernel)
    | exact sub_port _ _ (by decide +kernel)
    | exact sub_win _ (by decide +kernel)
    | exact sub_any _ (by decide +kernel)
    | split

theorem State.upLocks_keeps (s : State) :
    Keeps (foot [.regs 0x0308 4]) s (State.upLocks s) := by
  unfold State.upLocks
  repeat' first
    | with_reducible assumption
    | with_reducible apply Keeps.refl
    | with_reducible apply Keeps.ite
    | (apply Keeps.step; with_reducible apply State.setBit_keeps)
    | (with_reducible apply Keeps.forEach; intro _ _ _)
    | (with_reducible apply Keeps.foldl_fst; intro _ _ _)
    | (with_reducible apply Keeps.foldl_snd; intro _ _ _)
    | (with_reducible apply Keeps.foldl; intro _ _ _)
    | decide +kernel
    | exact sub_port _ _ (by decide +kernel)
    | exact sub_flt _ (by decide +kernel)
    | exact sub_eng _ (by decide +kernel)
    | exact sub_hk _ (by decide +kernel)
    | exact sub_win _ (by decide +kernel)
    | exact sub_any _ (by decide +kernel)
    | split

theorem State.isolate_keeps (s : State) (u : Nat) :
    Keeps (foot [.reg GLB_DETERMINISM, .reg LNK_DEADLETTER_COUNT, .reg (ENG_STATUS 0x600), .reg COL_ENABLE, .reg (HKx_CTRL 0x1700), .reg (HKx_STATUS 0x1700), .reg (HKx_OVERRUN_COUNT 0x1700), .reg (HKx_CAL_STATUS 0x1700), .reg (HKx_CTRL 0x1800), .reg (HKx_STATUS 0x1800), .reg (HKx_OVERRUN_COUNT 0x1800), .reg (HKx_CAL_STATUS 0x1800), .reg HKS_EXC_CTRL, .reg HKS_EXC_STATUS, .reg CAL_CTRL, .reg CAL_STATUS, .reg CAL_DEFER_COUNT, .reg (ENG_STATUS 0x1B00), .regs 0x0304 4, .regs 0x0308 4, .flt, .win .lnk, .win .nul, .win .cal] ||| foot [.recTick, .bar, .faults, .cou, .bru, .pal, .col, .nul, .lnk, .hka, .hkb, .cal, .free, .srcs]) s (State.isolate s u) := by
  unfold State.isolate
  extract_lets a1 a2 a3
  try clear_value a1
  have ha2 : Keeps (foot [.reg GLB_DETERMINISM, .reg LNK_DEADLETTER_COUNT, .reg (ENG_STATUS 0x600), .reg COL_ENABLE, .reg (HKx_CTRL 0x1700), .reg (HKx_STATUS 0x1700), .reg (HKx_OVERRUN_COUNT 0x1700), .reg (HKx_CAL_STATUS 0x1700), .reg (HKx_CTRL 0x1800), .reg (HKx_STATUS 0x1800), .reg (HKx_OVERRUN_COUNT 0x1800), .reg (HKx_CAL_STATUS 0x1800), .reg HKS_EXC_CTRL, .reg HKS_EXC_STATUS, .reg CAL_CTRL, .reg CAL_STATUS, .reg CAL_DEFER_COUNT, .reg (ENG_STATUS 0x1B00), .regs 0x0304 4, .regs 0x0308 4, .flt, .win .lnk, .win .nul, .win .cal] ||| foot [.recTick, .bar, .faults, .cou, .bru, .pal, .col, .nul, .lnk, .hka, .hkb, .cal, .free, .srcs]) s a2 := by
    unfold a2
    repeat' first
      | with_reducible assumption
      | with_reducible apply Keeps.refl
      | with_reducible apply Keeps.ite
      | (apply Keeps.step; with_reducible apply State.setBit_keeps)
      | (apply Keeps.step; with_reducible apply State.setFld_keeps)
      | (apply Keeps.step; with_reducible apply State.hkRestartAt_keeps)
      | (apply Keeps.step; with_reducible apply State.excPins_keeps)
      | (apply Keeps.step; with_reducible apply State.calCut_keeps)
      | (apply Keeps.step; with_reducible apply State.setDrv_keeps)
      | (apply Keeps.step; with_reducible apply State.setReg_keeps)
      | (with_reducible apply Keeps.forEach; intro _ _ _)
      | (with_reducible apply Keeps.foldl_fst; intro _ _ _)
      | (with_reducible apply Keeps.foldl_snd; intro _ _ _)
      | (with_reducible apply Keeps.foldl; intro _ _ _)
      | decide +kernel
      | exact sub_port _ _ (by decide +kernel)
      | exact sub_flt _ (by decide +kernel)
      | exact sub_eng _ (by decide +kernel)
      | exact sub_hk _ (by decide +kernel)
      | exact sub_win _ (by decide +kernel)
      | exact sub_any _ (by decide +kernel)
      | split
      | refine Keeps.upd ?_
  try clear_value a2
  try clear_value a3
  repeat' first
    | with_reducible assumption
    | with_reducible apply Keeps.refl
    | with_reducible apply Keeps.ite
    | (apply Keeps.step; with_reducible apply State.setBit_keeps)
    | (apply Keeps.step; with_reducible apply State.setFld_keeps)
    | (apply Keeps.step; with_reducible apply State.hkRestartAt_keeps)
    | (apply Keeps.step; with_reducible apply State.excPins_keeps)
    | (apply Keeps.step; with_reducible apply State.calCut_keeps)
    | (apply Keeps.step; with_reducible apply State.setDrv_keeps)
    | (apply Keeps.step; with_reducible apply State.setReg_keeps)
    | (with_reducible apply Keeps.forEach; intro _ _ _)
    | (with_reducible apply Keeps.foldl_fst; intro _ _ _)
    | (with_reducible apply Keeps.foldl_snd; intro _ _ _)
    | (with_reducible apply Keeps.foldl; intro _ _ _)
    | decide +kernel
    | exact sub_port _ _ (by decide +kernel)
    | exact sub_flt _ (by decide +kernel)
    | exact sub_eng _ (by decide +kernel)
    | exact sub_hk _ (by decide +kernel)
    | exact sub_win _ (by decide +kernel)
    | exact sub_any _ (by decide +kernel)
    | split
    | refine Keeps.upd ?_

theorem Keeps.setStore {M : Nat} {s t : State} (g : Option StoreSt) (hm : M.testBit 0x205C = true) (h : Keeps M s t) :
    Keeps M s { t with cfg := { t.cfg with store := g } } :=
  Keeps.upd h rfl (f92 := .inl hm)

theorem State.storeBegin_keeps (s : State) :
    Keeps (foot [.reg GLB_DETERMINISM, .reg LNK_DEADLETTER_COUNT, .reg CFG_STORE_STATUS, .reg (ENG_STATUS 0x600), .reg NUL_PRIMER_CTRL, .reg (ENG_STATUS 0x1B00), .flt, .win .lnk, .recTick, .bar, .faults, .cou, .bru, .nul, .lnk, .cfg, .free, .srcs]) s (State.storeBegin s) := by
  unfold State.storeBegin
  apply Keeps.setStore
  · decide +kernel
  have h1 : Keeps (foot [.reg GLB_DETERMINISM, .reg LNK_DEADLETTER_COUNT, .reg CFG_STORE_STATUS, .reg (ENG_STATUS 0x600), .reg NUL_PRIMER_CTRL, .reg (ENG_STATUS 0x1B00), .flt, .win .lnk, .recTick, .bar, .faults, .cou, .bru, .nul, .lnk, .cfg, .free, .srcs]) s (s.setBit CFG_STORE_STATUS_BUSY true) := (s.setBit_keeps _ _).mono (by decide +kernel)
  apply Keeps.ite
  · exact (State.captureReq_keeps _ _ _).step (by decide +kernel) h1
  · exact h1

theorem State.storeRequest_keeps (s : State) :
    Keeps (foot [.reg GLB_DETERMINISM, .reg LNK_DEADLETTER_COUNT, .reg CFG_STORE_STATUS, .reg (ENG_STATUS 0x600), .reg NUL_PRIMER_CTRL, .reg (ENG_STATUS 0x1B00), .flt, .win .lnk, .recTick, .bar, .faults, .cou, .bru, .nul, .lnk, .cfg, .free, .srcs]) s (State.storeRequest s) := by
  unfold State.storeRequest
  extract_lets a1
  repeat' first
    | with_reducible assumption
    | with_reducible apply Keeps.refl
    | with_reducible apply Keeps.ite
    | (apply Keeps.step; with_reducible apply State.setBit_keeps)
    | (apply Keeps.step; with_reducible apply State.storeBegin_keeps)
    | (apply Keeps.step; with_reducible apply State.request_keeps)
    | (with_reducible apply Keeps.forEach; intro _ _ _)
    | (with_reducible apply Keeps.foldl_fst; intro _ _ _)
    | (with_reducible apply Keeps.foldl_snd; intro _ _ _)
    | (with_reducible apply Keeps.foldl; intro _ _ _)
    | decide +kernel
    | exact sub_flt _ (by decide +kernel)
    | exact sub_eng _ (by decide +kernel)
    | exact sub_hk _ (by decide +kernel)
    | exact sub_port _ _ (by decide +kernel)
    | exact sub_win _ (by decide +kernel)
    | exact sub_any _ (by decide +kernel)
    | split
    | refine Keeps.upd ?_



theorem State.slotInfo_keeps (s : State) :
    Keeps (foot [.reg CFG_SLOT_A_INFO, .reg CFG_SLOT_B_INFO]) s (State.slotInfo s) := by
  unfold State.slotInfo
  extract_lets a1
  try clear_value a1
  repeat' first
    | with_reducible assumption
    | with_reducible apply Keeps.refl
    | with_reducible apply Keeps.ite
    | (apply Keeps.step; with_reducible apply State.setReg_keeps)
    | (with_reducible apply Keeps.forEach; intro _ _ _)
    | (with_reducible apply Keeps.foldl_fst; intro _ _ _)
    | (with_reducible apply Keeps.foldl_snd; intro _ _ _)
    | (with_reducible apply Keeps.foldl; intro _ _ _)
    | decide +kernel
    | exact sub_flt _ (by decide +kernel)
    | exact sub_eng _ (by decide +kernel)
    | exact sub_hk _ (by decide +kernel)
    | exact sub_port _ _ (by decide +kernel)
    | exact sub_win _ (by decide +kernel)
    | exact sub_any _ (by decide +kernel)
    | split

theorem State.storeEnd_keeps (s : State) (kept : Bool) :
    Keeps (foot [.reg GLB_CAL_SLOT, .reg GLB_DETERMINISM, .reg LNK_DEADLETTER_COUNT, .reg CFG_SLOT_A_INFO, .reg CFG_SLOT_B_INFO, .reg CFG_STORE_STATUS, .reg (ENG_STATUS 0x600), .reg NUL_PRIMER_CTRL, .reg (ENG_STATUS 0x1B00), .flt, .win .lnk, .recTick, .bar, .faults, .cou, .bru, .nul, .lnk, .cfg, .flash, .free, .srcs]) s (State.storeEnd s kept) := by
  unfold State.storeEnd
  extract_lets a1 a2 a3 a4 a5 a6 a7 a8 a9 a10
  try clear_value a1
  try clear_value a2
  try clear_value a3
  try clear_value a4
  have ha6 : Keeps (foot [.reg GLB_CAL_SLOT, .reg GLB_DETERMINISM, .reg LNK_DEADLETTER_COUNT, .reg CFG_SLOT_A_INFO, .reg CFG_SLOT_B_INFO, .reg CFG_STORE_STATUS, .reg (ENG_STATUS 0x600), .reg NUL_PRIMER_CTRL, .reg (ENG_STATUS 0x1B00), .flt, .win .lnk, .recTick, .bar, .faults, .cou, .bru, .nul, .lnk, .cfg, .flash, .free, .srcs]) s a6 := by
    unfold a6
    repeat' first
      | with_reducible assumption
      | with_reducible apply Keeps.refl
      | with_reducible apply Keeps.ite
      | (apply Keeps.step; with_reducible apply State.flashPut_keeps)
      | (apply Keeps.step; with_reducible apply State.flashErase_keeps)
      | (apply Keeps.step; with_reducible apply State.slotInfo_keeps)
      | (apply Keeps.step; with_reducible apply State.setFld_keeps)
      | (apply Keeps.step; with_reducible apply State.setBit_keeps)
      | (apply Keeps.step; with_reducible apply State.inc_keeps)
      | (apply Keeps.step; with_reducible apply State.storeBegin_keeps)
      | (with_reducible apply Keeps.forEach; intro _ _ _)
      | (with_reducible apply Keeps.foldl_fst; intro _ _ _)
      | (with_reducible apply Keeps.foldl_snd; intro _ _ _)
      | (with_reducible apply Keeps.foldl; intro _ _ _)
      | decide +kernel
      | exact sub_flt _ (by decide +kernel)
      | exact sub_eng _ (by decide +kernel)
      | exact sub_hk _ (by decide +kernel)
      | exact sub_port _ _ (by decide +kernel)
      | exact sub_win _ (by decide +kernel)
      | exact sub_any _ (by decide +kernel)
      | split
      | refine Keeps.upd ?_
  try clear_value a6
  have ha7 : Keeps (foot [.reg GLB_CAL_SLOT, .reg GLB_DETERMINISM, .reg LNK_DEADLETTER_COUNT, .reg CFG_SLOT_A_INFO, .reg CFG_SLOT_B_INFO, .reg CFG_STORE_STATUS, .reg (ENG_STATUS 0x600), .reg NUL_PRIMER_CTRL, .reg (ENG_STATUS 0x1B00), .flt, .win .lnk, .recTick, .bar, .faults, .cou, .bru, .nul, .lnk, .cfg, .flash, .free, .srcs]) s a7 := by
    unfold a7
    repeat' first
      | with_reducible assumption
      | with_reducible apply Keeps.refl
      | with_reducible apply Keeps.ite
      | (apply Keeps.step; with_reducible apply State.flashPut_keeps)
      | (apply Keeps.step; with_reducible apply State.flashErase_keeps)
      | (apply Keeps.step; with_reducible apply State.slotInfo_keeps)
      | (apply Keeps.step; with_reducible apply State.setFld_keeps)
      | (apply Keeps.step; with_reducible apply State.setBit_keeps)
      | (apply Keeps.step; with_reducible apply State.inc_keeps)
      | (apply Keeps.step; with_reducible apply State.storeBegin_keeps)
      | (with_reducible apply Keeps.forEach; intro _ _ _)
      | (with_reducible apply Keeps.foldl_fst; intro _ _ _)
      | (with_reducible apply Keeps.foldl_snd; intro _ _ _)
      | (with_reducible apply Keeps.foldl; intro _ _ _)
      | decide +kernel
      | exact sub_flt _ (by decide +kernel)
      | exact sub_eng _ (by decide +kernel)
      | exact sub_hk _ (by decide +kernel)
      | exact sub_port _ _ (by decide +kernel)
      | exact sub_win _ (by decide +kernel)
      | exact sub_any _ (by decide +kernel)
      | split
      | refine Keeps.upd ?_
  try clear_value a7
  have ha8 : Keeps (foot [.reg GLB_CAL_SLOT, .reg GLB_DETERMINISM, .reg LNK_DEADLETTER_COUNT, .reg CFG_SLOT_A_INFO, .reg CFG_SLOT_B_INFO, .reg CFG_STORE_STATUS, .reg (ENG_STATUS 0x600), .reg NUL_PRIMER_CTRL, .reg (ENG_STATUS 0x1B00), .flt, .win .lnk, .recTick, .bar, .faults, .cou, .bru, .nul, .lnk, .cfg, .flash, .free, .srcs]) s a8 := by
    unfold a8
    repeat' first
      | with_reducible assumption
      | with_reducible apply Keeps.refl
      | with_reducible apply Keeps.ite
      | (apply Keeps.step; with_reducible apply State.flashPut_keeps)
      | (apply Keeps.step; with_reducible apply State.flashErase_keeps)
      | (apply Keeps.step; with_reducible apply State.slotInfo_keeps)
      | (apply Keeps.step; with_reducible apply State.setFld_keeps)
      | (apply Keeps.step; with_reducible apply State.setBit_keeps)
      | (apply Keeps.step; with_reducible apply State.inc_keeps)
      | (apply Keeps.step; with_reducible apply State.storeBegin_keeps)
      | (with_reducible apply Keeps.forEach; intro _ _ _)
      | (with_reducible apply Keeps.foldl_fst; intro _ _ _)
      | (with_reducible apply Keeps.foldl_snd; intro _ _ _)
      | (with_reducible apply Keeps.foldl; intro _ _ _)
      | decide +kernel
      | exact sub_flt _ (by decide +kernel)
      | exact sub_eng _ (by decide +kernel)
      | exact sub_hk _ (by decide +kernel)
      | exact sub_port _ _ (by decide +kernel)
      | exact sub_win _ (by decide +kernel)
      | exact sub_any _ (by decide +kernel)
      | split
      | refine Keeps.upd ?_
  try clear_value a8
  have ha10 : Keeps (foot [.reg GLB_CAL_SLOT, .reg GLB_DETERMINISM, .reg LNK_DEADLETTER_COUNT, .reg CFG_SLOT_A_INFO, .reg CFG_SLOT_B_INFO, .reg CFG_STORE_STATUS, .reg (ENG_STATUS 0x600), .reg NUL_PRIMER_CTRL, .reg (ENG_STATUS 0x1B00), .flt, .win .lnk, .recTick, .bar, .faults, .cou, .bru, .nul, .lnk, .cfg, .flash, .free, .srcs]) s a10 := by
    unfold a10
    repeat' first
      | with_reducible assumption
      | with_reducible apply Keeps.refl
      | with_reducible apply Keeps.ite
      | (apply Keeps.step; with_reducible apply State.flashPut_keeps)
      | (apply Keeps.step; with_reducible apply State.flashErase_keeps)
      | (apply Keeps.step; with_reducible apply State.slotInfo_keeps)
      | (apply Keeps.step; with_reducible apply State.setFld_keeps)
      | (apply Keeps.step; with_reducible apply State.setBit_keeps)
      | (apply Keeps.step; with_reducible apply State.inc_keeps)
      | (apply Keeps.step; with_reducible apply State.storeBegin_keeps)
      | (with_reducible apply Keeps.forEach; intro _ _ _)
      | (with_reducible apply Keeps.foldl_fst; intro _ _ _)
      | (with_reducible apply Keeps.foldl_snd; intro _ _ _)
      | (with_reducible apply Keeps.foldl; intro _ _ _)
      | decide +kernel
      | exact sub_flt _ (by decide +kernel)
      | exact sub_eng _ (by decide +kernel)
      | exact sub_hk _ (by decide +kernel)
      | exact sub_port _ _ (by decide +kernel)
      | exact sub_win _ (by decide +kernel)
      | exact sub_any _ (by decide +kernel)
      | split
      | refine Keeps.upd ?_
  try clear_value a10
  repeat' first
    | with_reducible assumption
    | with_reducible apply Keeps.refl
    | with_reducible apply Keeps.ite
    | (apply Keeps.step; with_reducible apply State.flashPut_keeps)
    | (apply Keeps.step; with_reducible apply State.flashErase_keeps)
    | (apply Keeps.step; with_reducible apply State.slotInfo_keeps)
    | (apply Keeps.step; with_reducible apply State.setFld_keeps)
    | (apply Keeps.step; with_reducible apply State.setBit_keeps)
    | (apply Keeps.step; with_reducible apply State.inc_keeps)
    | (apply Keeps.step; with_reducible apply State.storeBegin_keeps)
    | (with_reducible apply Keeps.forEach; intro _ _ _)
    | (with_reducible apply Keeps.foldl_fst; intro _ _ _)
    | (with_reducible apply Keeps.foldl_snd; intro _ _ _)
    | (with_reducible apply Keeps.foldl; intro _ _ _)
    | decide +kernel
    | exact sub_flt _ (by decide +kernel)
    | exact sub_eng _ (by decide +kernel)
    | exact sub_hk _ (by decide +kernel)
    | exact sub_port _ _ (by decide +kernel)
    | exact sub_win _ (by decide +kernel)
    | exact sub_any _ (by decide +kernel)
    | split
    | refine Keeps.upd ?_

theorem State.setPhase_keeps (s : State) (p : Phase) :
    Keeps (foot [.cfg]) s (State.setPhase s p) := by
  unfold State.setPhase
  extract_lets a1
  repeat' first
    | with_reducible assumption
    | with_reducible apply Keeps.refl
    | with_reducible apply Keeps.ite
    | (with_reducible apply Keeps.forEach; intro _ _ _)
    | (with_reducible apply Keeps.foldl_fst; intro _ _ _)
    | (with_reducible apply Keeps.foldl_snd; intro _ _ _)
    | (with_reducible apply Keeps.foldl; intro _ _ _)
    | split
    | refine Keeps.upd ?_

theorem State.eligible_keeps (s : State) :
    Keeps (foot [.reg GLB_BIST_RESULT]) s (State.eligible s) := by
  unfold State.eligible
  repeat' first
    | with_reducible assumption
    | with_reducible apply Keeps.refl
    | with_reducible apply Keeps.ite
    | (apply Keeps.step; with_reducible apply State.setBit_keeps)
    | (with_reducible apply Keeps.forEach; intro _ _ _)
    | (with_reducible apply Keeps.foldl_fst; intro _ _ _)
    | (with_reducible apply Keeps.foldl_snd; intro _ _ _)
    | (with_reducible apply Keeps.foldl; intro _ _ _)
    | decide +kernel
    | exact sub_flt _ (by decide +kernel)
    | exact sub_eng _ (by decide +kernel)
    | exact sub_hk _ (by decide +kernel)
    | exact sub_port _ _ (by decide +kernel)
    | exact sub_win _ (by decide +kernel)
    | exact sub_any _ (by decide +kernel)
    | split

theorem State.eraseRefused_keeps (s : State) :
    Keeps (foot [.reg GLB_DETERMINISM, .reg LNK_DEADLETTER_COUNT, .reg CFG_FLASH_STATUS, .reg (ENG_STATUS 0x600), .reg (ENG_STATUS 0x1B00), .flt, .win .lnk, .recTick, .bar, .faults, .cou, .bru, .lnk, .free, .srcs]) s (State.eraseRefused s) := by
  unfold State.eraseRefused
  repeat' first
    | with_reducible assumption
    | with_reducible apply Keeps.refl
    | with_reducible apply Keeps.ite
    | (apply Keeps.step; with_reducible apply State.raise_keeps)
    | (apply Keeps.step; with_reducible apply State.setBit_keeps)
    | (with_reducible apply Keeps.forEach; intro _ _ _)
    | (with_reducible apply Keeps.foldl_fst; intro _ _ _)
    | (with_reducible apply Keeps.foldl_snd; intro _ _ _)
    | (with_reducible apply Keeps.foldl; intro _ _ _)
    | decide +kernel
    | exact sub_flt _ (by decide +kernel)
    | exact sub_eng _ (by decide +kernel)
    | exact sub_hk _ (by decide +kernel)
    | exact sub_port _ _ (by decide +kernel)
    | exact sub_win _ (by decide +kernel)
    | exact sub_any _ (by decide +kernel)
    | split


theorem State.flashEnd_keeps (s : State) (ok : Bool) (jedec : W24) :
    Keeps (foot [.reg GLB_DETERMINISM, .reg LNK_DEADLETTER_COUNT, .reg CFG_FLASH_STATUS, .reg CFG_STORE_STATUS, .reg (ENG_STATUS 0x600), .reg (ENG_STATUS 0x1B00), .flt, .win .lnk, .recTick, .bar, .faults, .cou, .bru, .lnk, .cfg, .flash, .free, .srcs]) s (State.flashEnd s ok jedec) := by
  unfold State.flashEnd
  extract_lets a1 a2
  have ha2 : Keeps (foot [.reg GLB_DETERMINISM, .reg LNK_DEADLETTER_COUNT, .reg CFG_FLASH_STATUS, .reg CFG_STORE_STATUS, .reg (ENG_STATUS 0x600), .reg (ENG_STATUS 0x1B00), .flt, .win .lnk, .recTick, .bar, .faults, .cou, .bru, .lnk, .cfg, .flash, .free, .srcs]) s a2 := by
    unfold a2
    repeat' first
      | with_reducible assumption
      | with_reducible apply Keeps.refl
      | with_reducible apply Keeps.ite
      | (apply Keeps.step; with_reducible apply State.raise_keeps)
      | (apply Keeps.step; with_reducible apply State.storeFail_keeps)
      | (apply Keeps.step; with_reducible apply State.note_keeps)
      | (apply Keeps.step; with_reducible apply State.setBit_keeps)
      | (apply Keeps.step; with_reducible apply State.flashErase_keeps)
      | (apply Keeps.step; with_reducible apply State.setFld_keeps)
      | (with_reducible apply Keeps.forEach; intro _ _ _)
      | (with_reducible apply Keeps.foldl_fst; intro _ _ _)
      | (with_reducible apply Keeps.foldl_snd; intro _ _ _)
      | (with_reducible apply Keeps.foldl; intro _ _ _)
      | decide +kernel
      | exact sub_flt _ (by decide +kernel)
      | exact sub_eng _ (by decide +kernel)
      | exact sub_hk _ (by decide +kernel)
      | exact sub_port _ _ (by decide +kernel)
      | exact sub_win _ (by decide +kernel)
      | exact sub_any _ (by decide +kernel)
      | split
      | refine Keeps.upd ?_
  try clear_value a2
  repeat' first
    | with_reducible assumption
    | with_reducible apply Keeps.refl
    | with_reducible apply Keeps.ite
    | (apply Keeps.step; with_reducible apply State.raise_keeps)
    | (apply Keeps.step; with_reducible apply State.storeFail_keeps)
    | (apply Keeps.step; with_reducible apply State.note_keeps)
    | (apply Keeps.step; with_reducible apply State.setBit_keeps)
    | (apply Keeps.step; with_reducible apply State.flashErase_keeps)
    | (apply Keeps.step; with_reducible apply State.setFld_keeps)
    | (with_reducible apply Keeps.forEach; intro _ _ _)
    | (with_reducible apply Keeps.foldl_fst; intro _ _ _)
    | (with_reducible apply Keeps.foldl_snd; intro _ _ _)
    | (with_reducible apply Keeps.foldl; intro _ _ _)
    | decide +kernel
    | exact sub_flt _ (by decide +kernel)
    | exact sub_eng _ (by decide +kernel)
    | exact sub_hk _ (by decide +kernel)
    | exact sub_port _ _ (by decide +kernel)
    | exact sub_win _ (by decide +kernel)
    | exact sub_any _ (by decide +kernel)
    | split
    | refine Keeps.upd ?_

theorem State.badKey_keeps (s : State) :
    Keeps (foot [.reg GLB_COMMAND]) s (State.badKey s) := by
  unfold State.badKey
  repeat' first
    | with_reducible assumption
    | with_reducible apply Keeps.refl
    | with_reducible apply Keeps.ite
    | (apply Keeps.step; with_reducible apply State.setFld_keeps)
    | (with_reducible apply Keeps.forEach; intro _ _ _)
    | (with_reducible apply Keeps.foldl_fst; intro _ _ _)
    | (with_reducible apply Keeps.foldl_snd; intro _ _ _)
    | (with_reducible apply Keeps.foldl; intro _ _ _)
    | decide +kernel
    | exact sub_flt _ (by decide +kernel)
    | exact sub_eng _ (by decide +kernel)
    | exact sub_hk _ (by decide +kernel)
    | exact sub_port _ _ (by decide +kernel)
    | exact sub_win _ (by decide +kernel)
    | exact sub_any _ (by decide +kernel)
    | split

theorem State.retestFaults_keeps (s : State) :
    Keeps (foot [.flt, .srcs]) s (State.retestFaults s) := by
  unfold State.retestFaults
  extract_lets a1
  have ha1 : ∀ x0 x1 x2, Keeps (foot [.flt, .srcs]) s x1 → Keeps (foot [.flt, .srcs]) s (a1 x0 x1 x2) := by
    intro x0 x1 x2 _
    dsimp only [a1]
    repeat' first
      | with_reducible assumption
      | with_reducible apply Keeps.refl
      | with_reducible apply Keeps.ite
      | (apply Keeps.step; with_reducible apply State.setSrc_keeps)
      | (apply Keeps.step; with_reducible apply State.setFld_keeps)
      | (apply Keeps.step; with_reducible apply State.setBit_keeps)
      | (with_reducible apply Keeps.forEach; intro _ _ _)
      | (with_reducible apply Keeps.foldl_fst; intro _ _ _)
      | (with_reducible apply Keeps.foldl_snd; intro _ _ _)
      | (with_reducible apply Keeps.foldl; intro _ _ _)
      | decide +kernel
      | exact sub_flt _ (by decide +kernel)
      | exact sub_eng _ (by decide +kernel)
      | exact sub_hk _ (by decide +kernel)
      | exact sub_port _ _ (by decide +kernel)
      | exact sub_win _ (by decide +kernel)
      | exact sub_any _ (by decide +kernel)
      | split
  try clear_value a1
  repeat' first
    | with_reducible assumption
    | with_reducible apply Keeps.refl
    | with_reducible apply ha1
    | with_reducible apply Keeps.ite
    | (apply Keeps.step; with_reducible apply State.setSrc_keeps)
    | (apply Keeps.step; with_reducible apply State.setFld_keeps)
    | (apply Keeps.step; with_reducible apply State.setBit_keeps)
    | (with_reducible apply Keeps.forEach; intro _ _ _)
    | (with_reducible apply Keeps.foldl_fst; intro _ _ _)
    | (with_reducible apply Keeps.foldl_snd; intro _ _ _)
    | (with_reducible apply Keeps.foldl; intro _ _ _)
    | decide +kernel
    | exact sub_flt _ (by decide +kernel)
    | exact sub_eng _ (by decide +kernel)
    | exact sub_hk _ (by decide +kernel)
    | exact sub_port _ _ (by decide +kernel)
    | exact sub_win _ (by decide +kernel)
    | exact sub_any _ (by decide +kernel)
    | split

theorem State.storeTick_keeps (s : State) :
    Keeps (foot [.reg GLB_CAL_SLOT, .reg GLB_DETERMINISM, .reg LNK_DEADLETTER_COUNT, .reg CFG_SLOT_A_INFO, .reg CFG_SLOT_B_INFO, .reg CFG_STORE_STATUS, .reg (ENG_STATUS 0x600), .reg NUL_PRIMER_CTRL, .reg (ENG_STATUS 0x1B00), .flt, .win .lnk, .recTick, .bar, .faults, .cou, .bru, .nul, .lnk, .cfg, .flash, .free, .srcs]) s (State.storeTick s) := by
  unfold State.storeTick
  repeat' first
    | with_reducible assumption
    | with_reducible apply Keeps.refl
    | with_reducible apply Keeps.ite
    | (apply Keeps.step; with_reducible apply State.storeEnd_keeps)
    | (with_reducible apply Keeps.forEach; intro _ _ _)
    | (with_reducible apply Keeps.foldl_fst; intro _ _ _)
    | (with_reducible apply Keeps.foldl_snd; intro _ _ _)
    | (with_reducible apply Keeps.foldl; intro _ _ _)
    | decide +kernel
    | exact sub_flt _ (by decide +kernel)
    | exact sub_eng _ (by decide +kernel)
    | exact sub_hk _ (by decide +kernel)
    | exact sub_port _ _ (by decide +kernel)
    | exact sub_win _ (by decide +kernel)
    | exact sub_any _ (by decide +kernel)
    | split

theorem State.stepFailed_keeps (s : State) (cause : Nat) :
    Keeps (foot [.reg GLB_BIST_RESULT, .faults, .cfg]) s (State.stepFailed s cause) := by
  unfold State.stepFailed
  extract_lets a1 a2 a3
  try clear_value a1
  have ha3 : Keeps (foot [.reg GLB_BIST_RESULT, .faults, .cfg]) s a3 := by
    unfold a3
    repeat' first
      | with_reducible assumption
      | with_reducible apply Keeps.refl
      | with_reducible apply Keeps.ite
      | (apply Keeps.step; with_reducible apply State.eligible_keeps)
      | (apply Keeps.step; with_reducible apply State.setBit_keeps)
      | (with_reducible apply Keeps.forEach; intro _ _ _)
      | (with_reducible apply Keeps.foldl_fst; intro _ _ _)
      | (with_reducible apply Keeps.foldl_snd; intro _ _ _)
      | (with_reducible apply Keeps.foldl; intro _ _ _)
      | decide +kernel
      | exact sub_flt _ (by decide +kernel)
      | exact sub_eng _ (by decide +kernel)
      | exact sub_hk _ (by decide +kernel)
      | exact sub_port _ _ (by decide +kernel)
      | exact sub_win _ (by decide +kernel)
      | exact sub_any _ (by decide +kernel)
      | split
      | refine Keeps.upd ?_
  try clear_value a3
  repeat' first
    | with_reducible assumption
    | with_reducible apply Keeps.refl
    | with_reducible apply Keeps.ite
    | (apply Keeps.step; with_reducible apply State.eligible_keeps)
    | (apply Keeps.step; with_reducible apply State.setBit_keeps)
    | (with_reducible apply Keeps.forEach; intro _ _ _)
    | (with_reducible apply Keeps.foldl_fst; intro _ _ _)
    | (with_reducible apply Keeps.foldl_snd; intro _ _ _)
    | (with_reducible apply Keeps.foldl; intro _ _ _)
    | decide +kernel
    | exact sub_flt _ (by decide +kernel)
    | exact sub_eng _ (by decide +kernel)
    | exact sub_hk _ (by decide +kernel)
    | exact sub_port _ _ (by decide +kernel)
    | exact sub_win _ (by decide +kernel)
    | exact sub_any _ (by decide +kernel)
    | split
    | refine Keeps.upd ?_

theorem State.retestRegs_keeps (s : State) :
    Keeps (foot [.anyReg]) s (State.retestRegs s) := by
  unfold State.retestRegs
  extract_lets a1
  try clear_value a1
  repeat' first
    | with_reducible assumption
    | with_reducible apply Keeps.refl
    | with_reducible apply Keeps.ite
    | (apply Keeps.step; with_reducible apply State.setReg_keeps)
    | (with_reducible apply Keeps.forEach; intro _ _ _)
    | (with_reducible apply Keeps.foldl_fst; intro _ _ _)
    | (with_reducible apply Keeps.foldl_snd; intro _ _ _)
    | (with_reducible apply Keeps.foldl; intro _ _ _)
    | decide +kernel
    | exact sub_flt _ (by decide +kernel)
    | exact sub_eng _ (by decide +kernel)
    | exact sub_hk _ (by decide +kernel)
    | exact sub_port _ _ (by decide +kernel)
    | exact sub_win _ (by decide +kernel)
    | exact sub_any _ (by decide +kernel)
    | split

theorem State.retest_keeps (s : State) :
    Keeps (foot [.anyReg, .win .lnk, .win .nul, .win .var, .win .cal, .recTick, .hostQ, .fieldQ, .gap, .bar, .faults, .cou, .bru, .pal, .pwr, .col, .nul, .var, .lnk, .hka, .hkb, .refOnAt, .cal, .mgt] ||| foot [.cfg, .free, .srcs]) s (State.retest s) := by
  unfold State.retest
  extract_lets a1 a2 a3 a4 a5 a6 a7 a8 a9 a10 a11 a12 a13
  have ha1 : Keeps (foot [.anyReg, .win .lnk, .win .nul, .win .var, .win .cal, .recTick, .hostQ, .fieldQ, .gap, .bar, .faults, .cou, .bru, .pal, .pwr, .col, .nul, .var, .lnk, .hka, .hkb, .refOnAt, .cal, .mgt] ||| foot [.cfg, .free, .srcs]) s a1 := by
    unfold a1
    repeat' first
      | with_reducible assumption
      | with_reducible apply Keeps.refl
      | with_reducible apply Keeps.ite
      | (apply Keeps.step; with_reducible apply State.flushAll_keeps)
      | (apply Keeps.step; with_reducible apply State.engStop_keeps)
      | (apply Keeps.step; with_reducible apply State.gapCloses_keeps)
      | (apply Keeps.step; with_reducible apply State.varDefault_keeps)
      | (apply Keeps.step; with_reducible apply State.calDiscard_keeps)
      | (apply Keeps.step; with_reducible apply State.calCut_keeps)
      | (apply Keeps.step; with_reducible apply State.hkRestartAt_keeps)
      | (apply Keeps.step; with_reducible apply State.setFld_keeps)
      | (apply Keeps.step; with_reducible apply State.setBit_keeps)
      | (apply Keeps.step; with_reducible apply State.pwrOff_keeps)
      | (apply Keeps.step; with_reducible apply State.setPhase_keeps)
      | (apply Keeps.step; with_reducible apply State.setGlb_keeps)
      | (apply Keeps.step; with_reducible apply State.upLocks_keeps)
      | (apply Keeps.step; with_reducible apply State.retestFaults_keeps)
      | (apply Keeps.step; with_reducible apply State.retestRegs_keeps)
      | (with_reducible apply Keeps.forEach; intro _ _ _)
      | (with_reducible apply Keeps.foldl_fst; intro _ _ _)
      | (with_reducible apply Keeps.foldl_snd; intro _ _ _)
      | (with_reducible apply Keeps.foldl; intro _ _ _)
      | decide +kernel
      | exact sub_flt _ (by decide +kernel)
      | exact sub_eng _ (by decide +kernel)
      | exact sub_hk _ (by decide +kernel)
      | exact sub_port _ _ (by decide +kernel)
      | exact sub_win _ (by decide +kernel)
      | exact sub_any _ (by decide +kernel)
      | split
      | refine Keeps.upd ?_
  try clear_value a1
  have ha2 : Keeps (foot [.anyReg, .win .lnk, .win .nul, .win .var, .win .cal, .recTick, .hostQ, .fieldQ, .gap, .bar, .faults, .cou, .bru, .pal, .pwr, .col, .nul, .var, .lnk, .hka, .hkb, .refOnAt, .cal, .mgt] ||| foot [.cfg, .free, .srcs]) s a2 := by
    unfold a2
    repeat' first
      | with_reducible assumption
      | with_reducible apply Keeps.refl
      | with_reducible apply Keeps.ite
      | (apply Keeps.step; with_reducible apply State.flushAll_keeps)
      | (apply Keeps.step; with_reducible apply State.engStop_keeps)
      | (apply Keeps.step; with_reducible apply State.gapCloses_keeps)
      | (apply Keeps.step; with_reducible apply State.varDefault_keeps)
      | (apply Keeps.step; with_reducible apply State.calDiscard_keeps)
      | (apply Keeps.step; with_reducible apply State.calCut_keeps)
      | (apply Keeps.step; with_reducible apply State.hkRestartAt_keeps)
      | (apply Keeps.step; with_reducible apply State.setFld_keeps)
      | (apply Keeps.step; with_reducible apply State.setBit_keeps)
      | (apply Keeps.step; with_reducible apply State.pwrOff_keeps)
      | (apply Keeps.step; with_reducible apply State.setPhase_keeps)
      | (apply Keeps.step; with_reducible apply State.setGlb_keeps)
      | (apply Keeps.step; with_reducible apply State.upLocks_keeps)
      | (apply Keeps.step; with_reducible apply State.retestFaults_keeps)
      | (apply Keeps.step; with_reducible apply State.retestRegs_keeps)
      | (with_reducible apply Keeps.forEach; intro _ _ _)
      | (with_reducible apply Keeps.foldl_fst; intro _ _ _)
      | (with_reducible apply Keeps.foldl_snd; intro _ _ _)
      | (with_reducible apply Keeps.foldl; intro _ _ _)
      | decide +kernel
      | exact sub_flt _ (by decide +kernel)
      | exact sub_eng _ (by decide +kernel)
      | exact sub_hk _ (by decide +kernel)
      | exact sub_port _ _ (by decide +kernel)
      | exact sub_win _ (by decide +kernel)
      | exact sub_any _ (by decide +kernel)
      | split
      | refine Keeps.upd ?_
  try clear_value a2
  have ha3 : Keeps (foot [.anyReg, .win .lnk, .win .nul, .win .var, .win .cal, .recTick, .hostQ, .fieldQ, .gap, .bar, .faults, .cou, .bru, .pal, .pwr, .col, .nul, .var, .lnk, .hka, .hkb, .refOnAt, .cal, .mgt] ||| foot [.cfg, .free, .srcs]) s a3 := by
    unfold a3
    repeat' first
      | with_reducible assumption
      | with_reducible apply Keeps.refl
      | with_reducible apply Keeps.ite
      | (apply Keeps.step; with_reducible apply State.flushAll_keeps)
      | (apply Keeps.step; with_reducible apply State.engStop_keeps)
      | (apply Keeps.step; with_reducible apply State.gapCloses_keeps)
      | (apply Keeps.step; with_reducible apply State.varDefault_keeps)
      | (apply Keeps.step; with_reducible apply State.calDiscard_keeps)
      | (apply Keeps.step; with_reducible apply State.calCut_keeps)
      | (apply Keeps.step; with_reducible apply State.hkRestartAt_keeps)
      | (apply Keeps.step; with_reducible apply State.setFld_keeps)
      | (apply Keeps.step; with_reducible apply State.setBit_keeps)
      | (apply Keeps.step; with_reducible apply State.pwrOff_keeps)
      | (apply Keeps.step; with_reducible apply State.setPhase_keeps)
      | (apply Keeps.step; with_reducible apply State.setGlb_keeps)
      | (apply Keeps.step; with_reducible apply State.upLocks_keeps)
      | (apply Keeps.step; with_reducible apply State.retestFaults_keeps)
      | (apply Keeps.step; with_reducible apply State.retestRegs_keeps)
      | (with_reducible apply Keeps.forEach; intro _ _ _)
      | (with_reducible apply Keeps.foldl_fst; intro _ _ _)
      | (with_reducible apply Keeps.foldl_snd; intro _ _ _)
      | (with_reducible apply Keeps.foldl; intro _ _ _)
      | decide +kernel
      | exact sub_flt _ (by decide +kernel)
      | exact sub_eng _ (by decide +kernel)
      | exact sub_hk _ (by decide +kernel)
      | exact sub_port _ _ (by decide +kernel)
      | exact sub_win _ (by decide +kernel)
      | exact sub_any _ (by decide +kernel)
      | split
      | refine Keeps.upd ?_
  try clear_value a3
  try clear_value a4
  try clear_value a5
  try clear_value a6
  try clear_value a7
  try clear_value a8
  try clear_value a9
  try clear_value a10
  have ha12 : Keeps (foot [.anyReg, .win .lnk, .win .nul, .win .var, .win .cal, .recTick, .hostQ, .fieldQ, .gap, .bar, .faults, .cou, .bru, .pal, .pwr, .col, .nul, .var, .lnk, .hka, .hkb, .refOnAt, .cal, .mgt] ||| foot [.cfg, .free, .srcs]) s a12 := by
    unfold a12
    repeat' first
      | with_reducible assumption
      | with_reducible apply Keeps.refl
      | with_reducible apply Keeps.ite
      | (apply Keeps.step; with_reducible apply State.flushAll_keeps)
      | (apply Keeps.step; with_reducible apply State.engStop_keeps)
      | (apply Keeps.step; with_reducible apply State.gapCloses_keeps)
      | (apply Keeps.step; with_reducible apply State.varDefault_keeps)
      | (apply Keeps.step; with_reducible apply State.calDiscard_keeps)
      | (apply Keeps.step; with_reducible apply State.calCut_keeps)
      | (apply Keeps.step; with_reducible apply State.hkRestartAt_keeps)
      | (apply Keeps.step; with_reducible apply State.setFld_keeps)
      | (apply Keeps.step; with_reducible apply State.setBit_keeps)
      | (apply Keeps.step; with_reducible apply State.pwrOff_keeps)
      | (apply Keeps.step; with_reducible apply State.setPhase_keeps)
      | (apply Keeps.step; with_reducible apply State.setGlb_keeps)
      | (apply Keeps.step; with_reducible apply State.upLocks_keeps)
      | (apply Keeps.step; with_reducible apply State.retestFaults_keeps)
      | (apply Keeps.step; with_reducible apply State.retestRegs_keeps)
      | (with_reducible apply Keeps.forEach; intro _ _ _)
      | (with_reducible apply Keeps.foldl_fst; intro _ _ _)
      | (with_reducible apply Keeps.foldl_snd; intro _ _ _)
      | (with_reducible apply Keeps.foldl; intro _ _ _)
      | decide +kernel
      | exact sub_flt _ (by decide +kernel)
      | exact sub_eng _ (by decide +kernel)
      | exact sub_hk _ (by decide +kernel)
      | exact sub_port _ _ (by decide +kernel)
      | exact sub_win _ (by decide +kernel)
      | exact sub_any _ (by decide +kernel)
      | split
      | refine Keeps.upd ?_
  try clear_value a12
  have ha13 : Keeps (foot [.anyReg, .win .lnk, .win .nul, .win .var, .win .cal, .recTick, .hostQ, .fieldQ, .gap, .bar, .faults, .cou, .bru, .pal, .pwr, .col, .nul, .var, .lnk, .hka, .hkb, .refOnAt, .cal, .mgt] ||| foot [.cfg, .free, .srcs]) s a13 := by
    unfold a13
    repeat' first
      | with_reducible assumption
      | with_reducible apply Keeps.refl
      | with_reducible apply Keeps.ite
      | (apply Keeps.step; with_reducible apply State.flushAll_keeps)
      | (apply Keeps.step; with_reducible apply State.engStop_keeps)
      | (apply Keeps.step; with_reducible apply State.gapCloses_keeps)
      | (apply Keeps.step; with_reducible apply State.varDefault_keeps)
      | (apply Keeps.step; with_reducible apply State.calDiscard_keeps)
      | (apply Keeps.step; with_reducible apply State.calCut_keeps)
      | (apply Keeps.step; with_reducible apply State.hkRestartAt_keeps)
      | (apply Keeps.step; with_reducible apply State.setFld_keeps)
      | (apply Keeps.step; with_reducible apply State.setBit_keeps)
      | (apply Keeps.step; with_reducible apply State.pwrOff_keeps)
      | (apply Keeps.step; with_reducible apply State.setPhase_keeps)
      | (apply Keeps.step; with_reducible apply State.setGlb_keeps)
      | (apply Keeps.step; with_reducible apply State.upLocks_keeps)
      | (apply Keeps.step; with_reducible apply State.retestFaults_keeps)
      | (apply Keeps.step; with_reducible apply State.retestRegs_keeps)
      | (with_reducible apply Keeps.forEach; intro _ _ _)
      | (with_reducible apply Keeps.foldl_fst; intro _ _ _)
      | (with_reducible apply Keeps.foldl_snd; intro _ _ _)
      | (with_reducible apply Keeps.foldl; intro _ _ _)
      | decide +kernel
      | exact sub_flt _ (by decide +kernel)
      | exact sub_eng _ (by decide +kernel)
      | exact sub_hk _ (by decide +kernel)
      | exact sub_port _ _ (by decide +kernel)
      | exact sub_win _ (by decide +kernel)
      | exact sub_any _ (by decide +kernel)
      | split
      | refine Keeps.upd ?_
  try clear_value a13
  repeat' first
    | with_reducible assumption
    | with_reducible apply Keeps.refl
    | with_reducible apply Keeps.ite
    | (apply Keeps.step; with_reducible apply State.flushAll_keeps)
    | (apply Keeps.step; with_reducible apply State.engStop_keeps)
    | (apply Keeps.step; with_reducible apply State.gapCloses_keeps)
    | (apply Keeps.step; with_reducible apply State.varDefault_keeps)
    | (apply Keeps.step; with_reducible apply State.calDiscard_keeps)
    | (apply Keeps.step; with_reducible apply State.calCut_keeps)
    | (apply Keeps.step; with_reducible apply State.hkRestartAt_keeps)
    | (apply Keeps.step; with_reducible apply State.setFld_keeps)
    | (apply Keeps.step; with_reducible apply State.setBit_keeps)
    | (apply Keeps.step; with_reducible apply State.pwrOff_keeps)
    | (apply Keeps.step; with_reducible apply State.setPhase_keeps)
    | (apply Keeps.step; with_reducible apply State.setGlb_keeps)
    | (apply Keeps.step; with_reducible apply State.upLocks_keeps)
    | (apply Keeps.step; with_reducible apply State.retestFaults_keeps)
    | (apply Keeps.step; with_reducible apply State.retestRegs_keeps)
    | (with_reducible apply Keeps.forEach; intro _ _ _)
    | (with_reducible apply Keeps.foldl_fst; intro _ _ _)
    | (with_reducible apply Keeps.foldl_snd; intro _ _ _)
    | (with_reducible apply Keeps.foldl; intro _ _ _)
    | decide +kernel
    | exact sub_flt _ (by decide +kernel)
    | exact sub_eng _ (by decide +kernel)
    | exact sub_hk _ (by decide +kernel)
    | exact sub_port _ _ (by decide +kernel)
    | exact sub_win _ (by decide +kernel)
    | exact sub_any _ (by decide +kernel)
    | split
    | refine Keeps.upd ?_

theorem State.startDegraded_keeps (s : State) :
    Keeps (foot [.reg GLB_STATE, .reg GLB_BIST_RESULT, .reg GLB_DETERMINISM, .reg TIM_STATUS, .reg BAR_STATUS, .reg BAR_LANE_MAP, .reg BAR_TRAIN, .reg LNK_DEADLETTER_COUNT, .reg (ENG_CTRL 0x600), .reg (ENG_STATUS 0x600), .reg FGL_STATUS, .reg COL_ENABLE, .reg (HKx_CTRL 0x1700), .reg (HKx_STATUS 0x1700), .reg (HKx_OVERRUN_COUNT 0x1700), .reg (HKx_CAL_STATUS 0x1700), .reg (HKx_CTRL 0x1800), .reg (HKx_STATUS 0x1800), .reg (HKx_OVERRUN_COUNT 0x1800), .reg (HKx_CAL_STATUS 0x1800), .reg HKS_EXC_CTRL, .reg HKS_EXC_STATUS, .reg CAL_CTRL, .reg CAL_STATUS] ||| foot [.reg CAL_DEFER_COUNT, .reg (ENG_CTRL 0x1B00), .reg (ENG_STATUS 0x1B00), .reg FBA_STATUS, .reg FBA_LANE_STATUS, .regs 0x0304 4, .regs 0x0308 4, .flt, .win .lnk, .win .nul, .win .cal, .recTick, .bar, .faults, .cou, .bru, .pal, .col, .nul, .lnk, .hka, .hkb, .cal, .cfg] ||| foot [.free, .srcs]) s (State.startDegraded s) := by
  unfold State.startDegraded
  extract_lets a1 a2 a3 a4 a5 a6 a7 a8
  have ha1 : Keeps (foot [.reg GLB_STATE, .reg GLB_BIST_RESULT, .reg GLB_DETERMINISM, .reg TIM_STATUS, .reg BAR_STATUS, .reg BAR_LANE_MAP, .reg BAR_TRAIN, .reg LNK_DEADLETTER_COUNT, .reg (ENG_CTRL 0x600), .reg (ENG_STATUS 0x600), .reg FGL_STATUS, .reg COL_ENABLE, .reg (HKx_CTRL 0x1700), .reg (HKx_STATUS 0x1700), .reg (HKx_OVERRUN_COUNT 0x1700), .reg (HKx_CAL_STATUS 0x1700), .reg (HKx_CTRL 0x1800), .reg (HKx_STATUS 0x1800), .reg (HKx_OVERRUN_COUNT 0x1800), .reg (HKx_CAL_STATUS 0x1800), .reg HKS_EXC_CTRL, .reg HKS_EXC_STATUS, .reg CAL_CTRL, .reg CAL_STATUS] ||| foot [.reg CAL_DEFER_COUNT, .reg (ENG_CTRL 0x1B00), .reg (ENG_STATUS 0x1B00), .reg FBA_STATUS, .reg FBA_LANE_STATUS, .regs 0x0304 4, .regs 0x0308 4, .flt, .win .lnk, .win .nul, .win .cal, .recTick, .bar, .faults, .cou, .bru, .pal, .col, .nul, .lnk, .hka, .hkb, .cal, .cfg] ||| foot [.free, .srcs]) s a1 := by
    unfold a1
    repeat' first
      | with_reducible assumption
      | with_reducible apply Keeps.refl
      | with_reducible apply Keeps.ite
      | (apply Keeps.step; with_reducible apply State.isolate_keeps)
      | (apply Keeps.step; with_reducible apply State.setFld_keeps)
      | (apply Keeps.step; with_reducible apply State.setBit_keeps)
      | (apply Keeps.step; with_reducible apply State.setGlb_keeps)
      | (apply Keeps.step; with_reducible apply State.setPhase_keeps)
      | (apply Keeps.step; with_reducible apply State.trainBegin_keeps)
      | (apply Keeps.step; with_reducible apply State.engStart_keeps)
      | (with_reducible apply Keeps.forEach; intro _ _ _)
      | (with_reducible apply Keeps.foldl_fst; intro _ _ _)
      | (with_reducible apply Keeps.foldl_snd; intro _ _ _)
      | (with_reducible apply Keeps.foldl; intro _ _ _)
      | decide +kernel
      | exact sub_flt _ (by decide +kernel)
      | exact sub_eng _ (by decide +kernel)
      | exact sub_hk _ (by decide +kernel)
      | exact sub_port _ _ (by decide +kernel)
      | exact sub_win _ (by decide +kernel)
      | exact sub_any _ (by decide +kernel)
      | split
      | refine Keeps.upd ?_
  try clear_value a1
  try clear_value a2
  have ha3 : Keeps (foot [.reg GLB_STATE, .reg GLB_BIST_RESULT, .reg GLB_DETERMINISM, .reg TIM_STATUS, .reg BAR_STATUS, .reg BAR_LANE_MAP, .reg BAR_TRAIN, .reg LNK_DEADLETTER_COUNT, .reg (ENG_CTRL 0x600), .reg (ENG_STATUS 0x600), .reg FGL_STATUS, .reg COL_ENABLE, .reg (HKx_CTRL 0x1700), .reg (HKx_STATUS 0x1700), .reg (HKx_OVERRUN_COUNT 0x1700), .reg (HKx_CAL_STATUS 0x1700), .reg (HKx_CTRL 0x1800), .reg (HKx_STATUS 0x1800), .reg (HKx_OVERRUN_COUNT 0x1800), .reg (HKx_CAL_STATUS 0x1800), .reg HKS_EXC_CTRL, .reg HKS_EXC_STATUS, .reg CAL_CTRL, .reg CAL_STATUS] ||| foot [.reg CAL_DEFER_COUNT, .reg (ENG_CTRL 0x1B00), .reg (ENG_STATUS 0x1B00), .reg FBA_STATUS, .reg FBA_LANE_STATUS, .regs 0x0304 4, .regs 0x0308 4, .flt, .win .lnk, .win .nul, .win .cal, .recTick, .bar, .faults, .cou, .bru, .pal, .col, .nul, .lnk, .hka, .hkb, .cal, .cfg] ||| foot [.free, .srcs]) s a3 := by
    unfold a3
    repeat' first
      | with_reducible assumption
      | with_reducible apply Keeps.refl
      | with_reducible apply Keeps.ite
      | (apply Keeps.step; with_reducible apply State.isolate_keeps)
      | (apply Keeps.step; with_reducible apply State.setFld_keeps)
      | (apply Keeps.step; with_reducible apply State.setBit_keeps)
      | (apply Keeps.step; with_reducible apply State.setGlb_keeps)
      | (apply Keeps.step; with_reducible apply State.setPhase_keeps)
      | (apply Keeps.step; with_reducible apply State.trainBegin_keeps)
      | (apply Keeps.step; with_reducible apply State.engStart_keeps)
      | (with_reducible apply Keeps.forEach; intro _ _ _)
      | (with_reducible apply Keeps.foldl_fst; intro _ _ _)
      | (with_reducible apply Keeps.foldl_snd; intro _ _ _)
      | (with_reducible apply Keeps.foldl; intro _ _ _)
      | decide +kernel
      | exact sub_flt _ (by decide +kernel)
      | exact sub_eng _ (by decide +kernel)
      | exact sub_hk _ (by decide +kernel)
      | exact sub_port _ _ (by decide +kernel)
      | exact sub_win _ (by decide +kernel)
      | exact sub_any _ (by decide +kernel)
      | split
      | refine Keeps.upd ?_
  try clear_value a3
  try clear_value a4
  try clear_value a5
  have ha6 : Keeps (foot [.reg GLB_STATE, .reg GLB_BIST_RESULT, .reg GLB_DETERMINISM, .reg TIM_STATUS, .reg BAR_STATUS, .reg BAR_LANE_MAP, .reg BAR_TRAIN, .reg LNK_DEADLETTER_COUNT, .reg (ENG_CTRL 0x600), .reg (ENG_STATUS 0x600), .reg FGL_STATUS, .reg COL_ENABLE, .reg (HKx_CTRL 0x1700), .reg (HKx_STATUS 0x1700), .reg (HKx_OVERRUN_COUNT 0x1700), .reg (HKx_CAL_STATUS 0x1700), .reg (HKx_CTRL 0x1800), .reg (HKx_STATUS 0x1800), .reg (HKx_OVERRUN_COUNT 0x1800), .reg (HKx_CAL_STATUS 0x1800), .reg HKS_EXC_CTRL, .reg HKS_EXC_STATUS, .reg CAL_CTRL, .reg CAL_STATUS] ||| foot [.reg CAL_DEFER_COUNT, .reg (ENG_CTRL 0x1B00), .reg (ENG_STATUS 0x1B00), .reg FBA_STATUS, .reg FBA_LANE_STATUS, .regs 0x0304 4, .regs 0x0308 4, .flt, .win .lnk, .win .nul, .win .cal, .recTick, .bar, .faults, .cou, .bru, .pal, .col, .nul, .lnk, .hka, .hkb, .cal, .cfg] ||| foot [.free, .srcs]) s a6 := by
    unfold a6
    repeat' first
      | with_reducible assumption
      | with_reducible apply Keeps.refl
      | with_reducible apply Keeps.ite
      | (apply Keeps.step; with_reducible apply State.isolate_keeps)
      | (apply Keeps.step; with_reducible apply State.setFld_keeps)
      | (apply Keeps.step; with_reducible apply State.setBit_keeps)
      | (apply Keeps.step; with_reducible apply State.setGlb_keeps)
      | (apply Keeps.step; with_reducible apply State.setPhase_keeps)
      | (apply Keeps.step; with_reducible apply State.trainBegin_keeps)
      | (apply Keeps.step; with_reducible apply State.engStart_keeps)
      | (with_reducible apply Keeps.forEach; intro _ _ _)
      | (with_reducible apply Keeps.foldl_fst; intro _ _ _)
      | (with_reducible apply Keeps.foldl_snd; intro _ _ _)
      | (with_reducible apply Keeps.foldl; intro _ _ _)
      | decide +kernel
      | exact sub_flt _ (by decide +kernel)
      | exact sub_eng _ (by decide +kernel)
      | exact sub_hk _ (by decide +kernel)
      | exact sub_port _ _ (by decide +kernel)
      | exact sub_win _ (by decide +kernel)
      | exact sub_any _ (by decide +kernel)
      | split
      | refine Keeps.upd ?_
  try clear_value a6
  have ha7 : Keeps (foot [.reg GLB_STATE, .reg GLB_BIST_RESULT, .reg GLB_DETERMINISM, .reg TIM_STATUS, .reg BAR_STATUS, .reg BAR_LANE_MAP, .reg BAR_TRAIN, .reg LNK_DEADLETTER_COUNT, .reg (ENG_CTRL 0x600), .reg (ENG_STATUS 0x600), .reg FGL_STATUS, .reg COL_ENABLE, .reg (HKx_CTRL 0x1700), .reg (HKx_STATUS 0x1700), .reg (HKx_OVERRUN_COUNT 0x1700), .reg (HKx_CAL_STATUS 0x1700), .reg (HKx_CTRL 0x1800), .reg (HKx_STATUS 0x1800), .reg (HKx_OVERRUN_COUNT 0x1800), .reg (HKx_CAL_STATUS 0x1800), .reg HKS_EXC_CTRL, .reg HKS_EXC_STATUS, .reg CAL_CTRL, .reg CAL_STATUS] ||| foot [.reg CAL_DEFER_COUNT, .reg (ENG_CTRL 0x1B00), .reg (ENG_STATUS 0x1B00), .reg FBA_STATUS, .reg FBA_LANE_STATUS, .regs 0x0304 4, .regs 0x0308 4, .flt, .win .lnk, .win .nul, .win .cal, .recTick, .bar, .faults, .cou, .bru, .pal, .col, .nul, .lnk, .hka, .hkb, .cal, .cfg] ||| foot [.free, .srcs]) s a7 := by
    unfold a7
    repeat' first
      | with_reducible assumption
      | with_reducible apply Keeps.refl
      | with_reducible apply Keeps.ite
      | (apply Keeps.step; with_reducible apply State.isolate_keeps)
      | (apply Keeps.step; with_reducible apply State.setFld_keeps)
      | (apply Keeps.step; with_reducible apply State.setBit_keeps)
      | (apply Keeps.step; with_reducible apply State.setGlb_keeps)
      | (apply Keeps.step; with_reducible apply State.setPhase_keeps)
      | (apply Keeps.step; with_reducible apply State.trainBegin_keeps)
      | (apply Keeps.step; with_reducible apply State.engStart_keeps)
      | (with_reducible apply Keeps.forEach; intro _ _ _)
      | (with_reducible apply Keeps.foldl_fst; intro _ _ _)
      | (with_reducible apply Keeps.foldl_snd; intro _ _ _)
      | (with_reducible apply Keeps.foldl; intro _ _ _)
      | decide +kernel
      | exact sub_flt _ (by decide +kernel)
      | exact sub_eng _ (by decide +kernel)
      | exact sub_hk _ (by decide +kernel)
      | exact sub_port _ _ (by decide +kernel)
      | exact sub_win _ (by decide +kernel)
      | exact sub_any _ (by decide +kernel)
      | split
      | refine Keeps.upd ?_
  try clear_value a7
  have ha8 : Keeps (foot [.reg GLB_STATE, .reg GLB_BIST_RESULT, .reg GLB_DETERMINISM, .reg TIM_STATUS, .reg BAR_STATUS, .reg BAR_LANE_MAP, .reg BAR_TRAIN, .reg LNK_DEADLETTER_COUNT, .reg (ENG_CTRL 0x600), .reg (ENG_STATUS 0x600), .reg FGL_STATUS, .reg COL_ENABLE, .reg (HKx_CTRL 0x1700), .reg (HKx_STATUS 0x1700), .reg (HKx_OVERRUN_COUNT 0x1700), .reg (HKx_CAL_STATUS 0x1700), .reg (HKx_CTRL 0x1800), .reg (HKx_STATUS 0x1800), .reg (HKx_OVERRUN_COUNT 0x1800), .reg (HKx_CAL_STATUS 0x1800), .reg HKS_EXC_CTRL, .reg HKS_EXC_STATUS, .reg CAL_CTRL, .reg CAL_STATUS] ||| foot [.reg CAL_DEFER_COUNT, .reg (ENG_CTRL 0x1B00), .reg (ENG_STATUS 0x1B00), .reg FBA_STATUS, .reg FBA_LANE_STATUS, .regs 0x0304 4, .regs 0x0308 4, .flt, .win .lnk, .win .nul, .win .cal, .recTick, .bar, .faults, .cou, .bru, .pal, .col, .nul, .lnk, .hka, .hkb, .cal, .cfg] ||| foot [.free, .srcs]) s a8 := by
    unfold a8
    repeat' first
      | with_reducible assumption
      | with_reducible apply Keeps.refl
      | with_reducible apply Keeps.ite
      | (apply Keeps.step; with_reducible apply State.isolate_keeps)
      | (apply Keeps.step; with_reducible apply State.setFld_keeps)
      | (apply Keeps.step; with_reducible apply State.setBit_keeps)
      | (apply Keeps.step; with_reducible apply State.setGlb_keeps)
      | (apply Keeps.step; with_reducible apply State.setPhase_keeps)
      | (apply Keeps.step; with_reducible apply State.trainBegin_keeps)
      | (apply Keeps.step; with_reducible apply State.engStart_keeps)
      | (with_reducible apply Keeps.forEach; intro _ _ _)
      | (with_reducible apply Keeps.foldl_fst; intro _ _ _)
      | (with_reducible apply Keeps.foldl_snd; intro _ _ _)
      | (with_reducible apply Keeps.foldl; intro _ _ _)
      | decide +kernel
      | exact sub_flt _ (by decide +kernel)
      | exact sub_eng _ (by decide +kernel)
      | exact sub_hk _ (by decide +kernel)
      | exact sub_port _ _ (by decide +kernel)
      | exact sub_win _ (by decide +kernel)
      | exact sub_any _ (by decide +kernel)
      | split
      | refine Keeps.upd ?_
  try clear_value a8
  repeat' first
    | with_reducible assumption
    | with_reducible apply Keeps.refl
    | with_reducible apply Keeps.ite
    | (apply Keeps.step; with_reducible apply State.isolate_keeps)
    | (apply Keeps.step; with_reducible apply State.setFld_keeps)
    | (apply Keeps.step; with_reducible apply State.setBit_keeps)
    | (apply Keeps.step; with_reducible apply State.setGlb_keeps)
    | (apply Keeps.step; with_reducible apply State.setPhase_keeps)
    | (apply Keeps.step; with_reducible apply State.trainBegin_keeps)
    | (apply Keeps.step; with_reducible apply State.engStart_keeps)
    | (with_reducible apply Keeps.forEach; intro _ _ _)
    | (with_reducible apply Keeps.foldl_fst; intro _ _ _)
    | (with_reducible apply Keeps.foldl_snd; intro _ _ _)
    | (with_reducible apply Keeps.foldl; intro _ _ _)
    | decide +kernel
    | exact sub_flt _ (by decide +kernel)
    | exact sub_eng _ (by decide +kernel)
    | exact sub_hk _ (by decide +kernel)
    | exact sub_port _ _ (by decide +kernel)
    | exact sub_win _ (by decide +kernel)
    | exact sub_any _ (by decide +kernel)
    | split
    | refine Keeps.upd ?_

theorem State.enterSafe_keeps (s : State) :
    Keeps (foot [.reg GLB_STATE, .reg GLB_DETERMINISM, .reg LNK_DEADLETTER_COUNT, .reg (ENG_CTRL 0x600), .reg (ENG_STATUS 0x600), .reg (ENG_WAIT_COND 0x600), .reg (ENG_ROUTINE_ACTIVE 0x600), .reg (ENG_ABANDON_COUNT 0x600), .reg PWR_STATE, .reg FGL_STATUS, .reg (HKx_CTRL 0x1700), .reg (HKx_STATUS 0x1700), .reg (HKx_OVERRUN_COUNT 0x1700), .reg (HKx_CAL_STATUS 0x1700), .reg (HKx_CTRL 0x1800), .reg (HKx_STATUS 0x1800), .reg (HKx_OVERRUN_COUNT 0x1800), .reg (HKx_CAL_STATUS 0x1800), .reg HKS_REFBUF_STATUS, .reg HKS_EXC_STATUS, .reg CAL_STATUS, .reg CAL_DEFER_COUNT, .reg (ENG_CTRL 0x1B00), .reg (ENG_STATUS 0x1B00)] ||| foot [.reg (ENG_WAIT_COND 0x1B00), .reg (ENG_ROUTINE_ACTIVE 0x1B00), .reg (ENG_ABANDON_COUNT 0x1B00), .flt, .win .lnk, .win .nul, .win .cal, .recTick, .bar, .faults, .cou, .bru, .pwr, .col, .nul, .lnk, .hka, .hkb, .refOnAt, .cal, .free, .srcs]) s (State.enterSafe s) := by
  unfold State.enterSafe
  repeat' first
    | with_reducible assumption
    | with_reducible apply Keeps.refl
    | with_reducible apply Keeps.ite
    | (apply Keeps.step; with_reducible apply State.raise_keeps)
    | (apply Keeps.step; with_reducible apply State.safeEntry_keeps)
    | (with_reducible apply Keeps.forEach; intro _ _ _)
    | (with_reducible apply Keeps.foldl_fst; intro _ _ _)
    | (with_reducible apply Keeps.foldl_snd; intro _ _ _)
    | (with_reducible apply Keeps.foldl; intro _ _ _)
    | decide +kernel
    | exact sub_flt _ (by decide +kernel)
    | exact sub_eng _ (by decide +kernel)
    | exact sub_hk _ (by decide +kernel)
    | exact sub_port _ _ (by decide +kernel)
    | exact sub_win _ (by decide +kernel)
    | exact sub_any _ (by decide +kernel)
    | split

theorem State.glbCommand_keeps (s : State) (cmd : Nat) :
    Keeps (foot [.anyReg, .win .lnk, .win .nul, .win .var, .win .cal, .recTick, .hostQ, .fieldQ, .gap, .bar, .faults, .cou, .bru, .pal, .pwr, .col, .nul, .var, .lnk, .hka, .hkb, .refOnAt, .cal, .mgt] ||| foot [.cfg, .free, .srcs]) s (State.glbCommand s cmd) := by
  unfold State.glbCommand
  extract_lets a1 a2
  try clear_value a1
  have ha2 : Keeps (foot [.anyReg, .win .lnk, .win .nul, .win .var, .win .cal, .recTick, .hostQ, .fieldQ, .gap, .bar, .faults, .cou, .bru, .pal, .pwr, .col, .nul, .var, .lnk, .hka, .hkb, .refOnAt, .cal, .mgt] ||| foot [.cfg, .free, .srcs]) s a2 := by
    unfold a2
    repeat' first
      | with_reducible assumption
      | with_reducible apply Keeps.refl
      | with_reducible apply Keeps.ite
      | (apply Keeps.step; with_reducible apply State.setFld_keeps)
      | (apply Keeps.step; with_reducible apply State.retest_keeps)
      | (apply Keeps.step; with_reducible apply State.startDegraded_keeps)
      | (apply Keeps.step; with_reducible apply State.enterSafe_keeps)
      | (with_reducible apply Keeps.forEach; intro _ _ _)
      | (with_reducible apply Keeps.foldl_fst; intro _ _ _)
      | (with_reducible apply Keeps.foldl_snd; intro _ _ _)
      | (with_reducible apply Keeps.foldl; intro _ _ _)
      | decide +kernel
      | exact sub_flt _ (by decide +kernel)
      | exact sub_eng _ (by decide +kernel)
      | exact sub_hk _ (by decide +kernel)
      | exact sub_port _ _ (by decide +kernel)
      | exact sub_win _ (by decide +kernel)
      | exact sub_any _ (by decide +kernel)
      | split
  try clear_value a2
  repeat' first
    | with_reducible assumption
    | with_reducible apply Keeps.refl
    | with_reducible apply Keeps.ite
    | (apply Keeps.step; with_reducible apply State.setFld_keeps)
    | (apply Keeps.step; with_reducible apply State.retest_keeps)
    | (apply Keeps.step; with_reducible apply State.startDegraded_keeps)
    | (apply Keeps.step; with_reducible apply State.enterSafe_keeps)
    | (with_reducible apply Keeps.forEach; intro _ _ _)
    | (with_reducible apply Keeps.foldl_fst; intro _ _ _)
    | (with_reducible apply Keeps.foldl_snd; intro _ _ _)
    | (with_reducible apply Keeps.foldl; intro _ _ _)
    | decide +kernel
    | exact sub_flt _ (by decide +kernel)
    | exact sub_eng _ (by decide +kernel)
    | exact sub_hk _ (by decide +kernel)
    | exact sub_port _ _ (by decide +kernel)
    | exact sub_win _ (by decide +kernel)
    | exact sub_any _ (by decide +kernel)
    | split

theorem State.flashStart_keeps (s : State) (op : Nat) (addr : Nat) :
    Keeps (foot [.reg GLB_DETERMINISM, .reg LNK_DEADLETTER_COUNT, .reg CFG_FLASH_STATUS, .reg (ENG_STATUS 0x600), .reg (ENG_STATUS 0x1B00), .flt, .win .lnk, .recTick, .bar, .faults, .cou, .bru, .lnk, .cfg, .free, .srcs]) s (State.flashStart s op addr) := by
  unfold State.flashStart
  extract_lets a1 a2 a3
  try clear_value a1
  try clear_value a2
  repeat' first
    | with_reducible assumption
    | with_reducible apply Keeps.refl
    | with_reducible apply Keeps.ite
    | (apply Keeps.step; with_reducible apply State.eraseRefused_keeps)
    | (apply Keeps.step; with_reducible apply State.setBit_keeps)
    | (with_reducible apply Keeps.forEach; intro _ _ _)
    | (with_reducible apply Keeps.foldl_fst; intro _ _ _)
    | (with_reducible apply Keeps.foldl_snd; intro _ _ _)
    | (with_reducible apply Keeps.foldl; intro _ _ _)
    | decide +kernel
    | exact sub_flt _ (by decide +kernel)
    | exact sub_eng _ (by decide +kernel)
    | exact sub_hk _ (by decide +kernel)
    | exact sub_port _ _ (by decide +kernel)
    | exact sub_win _ (by decide +kernel)
    | exact sub_any _ (by decide +kernel)
    | split
    | refine Keeps.upd ?_

theorem State.clearFindings_keeps (s : State) :
    Keeps (foot [.reg GLB_BIST_RESULT, .reg GLB_BIST_DETAIL, .win .glb]) s (State.clearFindings s) := by
  unfold State.clearFindings
  repeat' first
    | with_reducible assumption
    | with_reducible apply Keeps.refl
    | with_reducible apply Keeps.ite
    | (apply Keeps.step; with_reducible apply State.setWinN_keeps)
    | (apply Keeps.step; with_reducible apply State.setReg_keeps)
    | (with_reducible apply Keeps.forEach; intro _ _ _)
    | (with_reducible apply Keeps.foldl_fst; intro _ _ _)
    | (with_reducible apply Keeps.foldl_snd; intro _ _ _)
    | (with_reducible apply Keeps.foldl; intro _ _ _)
    | decide +kernel
    | exact sub_flt _ (by decide +kernel)
    | exact sub_eng _ (by decide +kernel)
    | exact sub_hk _ (by decide +kernel)
    | exact sub_port _ _ (by decide +kernel)
    | exact sub_win _ (by decide +kernel)
    | exact sub_any _ (by decide +kernel)
    | split

theorem State.slotDiscard_keeps (s : State) :
    Keeps (foot [.reg GLB_CAL_SLOT, .reg CFG_SLOT_A_INFO, .reg CFG_SLOT_B_INFO, .flash]) s (State.slotDiscard s) := by
  unfold State.slotDiscard
  repeat' first
    | with_reducible assumption
    | with_reducible apply Keeps.refl
    | with_reducible apply Keeps.ite
    | (apply Keeps.step; with_reducible apply State.slotInfo_keeps)
    | (apply Keeps.step; with_reducible apply State.setFld_keeps)
    | (apply Keeps.step; with_reducible apply State.flashErase_keeps)
    | (with_reducible apply Keeps.forEach; intro _ _ _)
    | (with_reducible apply Keeps.foldl_fst; intro _ _ _)
    | (with_reducible apply Keeps.foldl_snd; intro _ _ _)
    | (with_reducible apply Keeps.foldl; intro _ _ _)
    | decide +kernel
    | exact sub_flt _ (by decide +kernel)
    | exact sub_eng _ (by decide +kernel)
    | exact sub_hk _ (by decide +kernel)
    | exact sub_port _ _ (by decide +kernel)
    | exact sub_win _ (by decide +kernel)
    | exact sub_any _ (by decide +kernel)
    | split

end Sys2Proof.Machine
end

