-- ==== Sys2Proof/Laws/KeepsWrite.lean ====
section
/-!
SUPPORT. Footprints of the operations of Machine/Write.lean: which parts of a state each can change.
-/
set_option Elab.async false
set_option linter.unusedTactic false
set_option linter.unreachableTactic false
namespace Sys2Proof.Machine

theorem State.storeW1c_keeps (s : State) (i : Nat) (v : Word) :
    Keeps (foot [.anyReg]) s (State.storeW1c s i v) := by
  unfold State.storeW1c
  extract_lets a1
  try clear_value a1
  repeat' first
    | with_reducible assumption
    | with_reducible apply Keeps.refl
    | with_reducible apply Keeps.ite
    | (apply Keeps.step; with_reducible apply State.setReg_keeps)
    | (with_reducible apply Keeps.forEach; intro _ _ _)
    | (with_reducible apply Keeps.foldl_fst; intro _ _ _)
    | (with_reducible apply Keeps.foldl_snd; intro _ _ _)
    | (with_reducible apply Keeps.foldl; intro _ _ _)
    | decide +kernel
    | exact sub_flt _ (by decide +kernel)
    | exact sub_eng _ (by decide +kernel)
    | exact sub_hk _ (by decide +kernel)
    | exact sub_port _ _ (by decide +kernel)
    | exact sub_win _ (by decide +kernel)
    | exact sub_any _ (by decide +kernel)
    | split

theorem State.storeRw_keeps (s : State) (i : Nat) (v : Word) :
    Keeps (foot [.anyReg]) s (State.storeRw s i v) := by
  unfold State.storeRw
  extract_lets a1 a2
  try clear_value a1
  try clear_value a2
  repeat' first
    | with_reducible assumption
    | with_reducible apply Keeps.refl
    | with_reducible apply Keeps.ite
    | (apply Keeps.step; with_reducible apply State.setReg_keeps)
    | (with_reducible apply Keeps.forEach; intro _ _ _)
    | (with_reducible apply Keeps.foldl_fst; intro _ _ _)
    | (with_reducible apply Keeps.foldl_snd; intro _ _ _)
    | (with_reducible apply Keeps.foldl; intro _ _ _)
    | decide +kernel
    | exact sub_flt _ (by decide +kernel)
    | exact sub_eng _ (by decide +kernel)
    | exact sub_hk _ (by decide +kernel)
    | exact sub_port _ _ (by decide +kernel)
    | exact sub_win _ (by decide +kernel)
    | exact sub_any _ (by decide +kernel)
    | split

theorem State.plainWrite_keeps (s : State) (i : Nat) (v : Word) (w : Writer) (k : WPart) (isParam : Bool) :
    Keeps (foot [.anyReg, .faults]) s (State.plainWrite s i v w k isParam) := by
  unfold State.plainWrite
  extract_lets a1 a2
  have ha1 : Keeps (foot [.anyReg, .faults]) s a1 := by
    unfold a1
    repeat' first
      | with_reducible assumption
      | with_reducible apply Keeps.refl
      | with_reducible apply Keeps.ite
      | (apply Keeps.step; with_reducible apply State.storeW1c_keeps)
      | (apply Keeps.step; with_reducible apply State.storeRw_keeps)
      | (apply Keeps.step; with_reducible apply State.param_keeps)
      | (with_reducible apply Keeps.forEach; intro _ _ _)
      | (with_reducible apply Keeps.foldl_fst; intro _ _ _)
      | (with_reducible apply Keeps.foldl_snd; intro _ _ _)
      | (with_reducible apply Keeps.foldl; intro _ _ _)
      | decide +kernel
      | exact sub_flt _ (by decide +kernel)
      | exact sub_eng _ (by decide +kernel)
      | exact sub_hk _ (by decide +kernel)
      | exact sub_port _ _ (by decide +kernel)
      | exact sub_win _ (by decide +kernel)
      | exact sub_any _ (by decide +kernel)
      | split
  try clear_value a1
  have ha2 : Keeps (foot [.anyReg, .faults]) s a2 := by
    unfold a2
    repeat' first
      | with_reducible assumption
      | with_reducible apply Keeps.refl
      | with_reducible apply Keeps.ite
      | (apply Keeps.step; with_reducible apply State.storeW1c_keeps)
      | (apply Keeps.step; with_reducible apply State.storeRw_keeps)
      | (apply Keeps.step; with_reducible apply State.param_keeps)
      | (with_reducible apply Keeps.forEach; intro _ _ _)
      | (with_reducible apply Keeps.foldl_fst; intro _ _ _)
      | (with_reducible apply Keeps.foldl_snd; intro _ _ _)
      | (with_reducible apply Keeps.foldl; intro _ _ _)
      | decide +kernel
      | exact sub_flt _ (by decide +kernel)
      | exact sub_eng _ (by decide +kernel)
      | exact sub_hk _ (by decide +kernel)
      | exact sub_port _ _ (by decide +kernel)
      | exact sub_win _ (by decide +kernel)
      | exact sub_any _ (by decide +kernel)
      | split
  try clear_value a2
  repeat' first
    | with_reducible assumption
    | with_reducible apply Keeps.refl
    | with_reducible apply Keeps.ite
    | (apply Keeps.step; with_reducible apply State.storeW1c_keeps)
    | (apply Keeps.step; with_reducible apply State.storeRw_keeps)
    | (apply Keeps.step; with_reducible apply State.param_keeps)
    | (with_reducible apply Keeps.forEach; intro _ _ _)
    | (with_reducible apply Keeps.foldl_fst; intro _ _ _)
    | (with_reducible apply Keeps.foldl_snd; intro _ _ _)
    | (with_reducible apply Keeps.foldl; intro _ _ _)
    | decide +kernel
    | exact sub_flt _ (by decide +kernel)
    | exact sub_eng _ (by decide +kernel)
    | exact sub_hk _ (by decide +kernel)
    | exact sub_port _ _ (by decide +kernel)
    | exact sub_win _ (by decide +kernel)
    | exact sub_any _ (by decide +kernel)
    | split

theorem State.calWrite_keeps (s : State) (i : Nat) (v : Word) (w : Writer) (k : WPart) :
    Keeps (foot [.anyReg, .faults]) s (State.calWrite s i v w k) := by
  unfold State.calWrite
  extract_lets a1
  try clear_value a1
  repeat' first
    | with_reducible assumption
    | with_reducible apply Keeps.refl
    | with_reducible apply Keeps.ite
    | (apply Keeps.step; with_reducible apply State.plainWrite_keeps)
    | (with_reducible apply Keeps.forEach; intro _ _ _)
    | (with_reducible apply Keeps.foldl_fst; intro _ _ _)
    | (with_reducible apply Keeps.foldl_snd; intro _ _ _)
    | (with_reducible apply Keeps.foldl; intro _ _ _)
    | decide +kernel
    | exact sub_flt _ (by decide +kernel)
    | exact sub_eng _ (by decide +kernel)
    | exact sub_hk _ (by decide +kernel)
    | exact sub_port _ _ (by decide +kernel)
    | exact sub_win _ (by decide +kernel)
    | exact sub_any _ (by decide +kernel)
    | split

theorem State.evtWinWrite_keeps (s : State) (a : Nat) (v : W24) (w : Writer) :
    Keeps (foot [.reg GLB_DETERMINISM, .win .evt, .faults, .evt]) s (State.evtWinWrite s a v w) := by
  unfold State.evtWinWrite
  extract_lets a1 a2 a3
  try clear_value a1
  have ha2 : Keeps (foot [.reg GLB_DETERMINISM, .win .evt, .faults, .evt]) s a2 := by
    unfold a2
    repeat' first
      | with_reducible assumption
      | with_reducible apply Keeps.refl
      | with_reducible apply Keeps.ite
      | (apply Keeps.step; with_reducible apply State.setWinN_keeps)
      | (apply Keeps.step; with_reducible apply State.param_keeps)
      | (with_reducible apply Keeps.forEach; intro _ _ _)
      | (with_reducible apply Keeps.foldl_fst; intro _ _ _)
      | (with_reducible apply Keeps.foldl_snd; intro _ _ _)
      | (with_reducible apply Keeps.foldl; intro _ _ _)
      | decide +kernel
      | exact sub_flt _ (by decide +kernel)
      | exact sub_eng _ (by decide +kernel)
      | exact sub_hk _ (by decide +kernel)
      | exact sub_port _ _ (by decide +kernel)
      | exact sub_win _ (by decide +kernel)
      | exact sub_any _ (by decide +kernel)
      | split
      | refine Keeps.upd ?_
  try clear_value a2
  try clear_value a3
  repeat' first
    | with_reducible assumption
    | with_reducible apply Keeps.refl
    | with_reducible apply Keeps.ite
    | (apply Keeps.step; with_reducible apply State.setWinN_keeps)
    | (apply Keeps.step; with_reducible apply State.param_keeps)
    | (with_reducible apply Keeps.forEach; intro _ _ _)
    | (with_reducible apply Keeps.foldl_fst; intro _ _ _)
    | (with_reducible apply Keeps.foldl_snd; intro _ _ _)
    | (with_reducible apply Keeps.foldl; intro _ _ _)
    | decide +kernel
    | exact sub_flt _ (by decide +kernel)
    | exact sub_eng _ (by decide +kernel)
    | exact sub_hk _ (by decide +kernel)
    | exact sub_port _ _ (by decide +kernel)
    | exact sub_win _ (by decide +kernel)
    | exact sub_any _ (by decide +kernel)
    | split
    | refine Keeps.upd ?_

theorem State.gainReg_keeps (s : State) (v : Word) (w : Writer) (k : WPart) :
    Keeps (foot [.anyReg, .win .lnk, .recTick, .bar, .faults, .cou, .bru, .nul, .lnk, .free, .srcs]) s (State.gainReg s v w k) := by
  unfold State.gainReg
  extract_lets a1 a2 a3
  have ha1 : Keeps (foot [.anyReg, .win .lnk, .recTick, .bar, .faults, .cou, .bru, .nul, .lnk, .free, .srcs]) s a1 := by
    unfold a1
    repeat' first
      | with_reducible assumption
      | with_reducible apply Keeps.refl
      | with_reducible apply Keeps.ite
      | (apply Keeps.step; with_reducible apply State.storeW1c_keeps)
      | (apply Keeps.step; with_reducible apply State.setFld_keeps)
      | (apply Keeps.step; with_reducible apply State.gainWrite_keeps)
      | (with_reducible apply Keeps.forEach; intro _ _ _)
      | (with_reducible apply Keeps.foldl_fst; intro _ _ _)
      | (with_reducible apply Keeps.foldl_snd; intro _ _ _)
      | (with_reducible apply Keeps.foldl; intro _ _ _)
      | decide +kernel
      | exact sub_flt _ (by decide +kernel)
      | exact sub_eng _ (by decide +kernel)
      | exact sub_hk _ (by decide +kernel)
      | exact sub_port _ _ (by decide +kernel)
      | exact sub_win _ (by decide +kernel)
      | exact sub_any _ (by decide +kernel)
      | split
  try clear_value a1
  try clear_value a2
  have ha3 : Keeps (foot [.anyReg, .win .lnk, .recTick, .bar, .faults, .cou, .bru, .nul, .lnk, .free, .srcs]) s a3 := by
    unfold a3
    repeat' first
      | with_reducible assumption
      | with_reducible apply Keeps.refl
      | with_reducible apply Keeps.ite
      | (apply Keeps.step; with_reducible apply State.storeW1c_keeps)
      | (apply Keeps.step; with_reducible apply State.setFld_keeps)
      | (apply Keeps.step; with_reducible apply State.gainWrite_keeps)
      | (with_reducible apply Keeps.forEach; intro _ _ _)
      | (with_reducible apply Keeps.foldl_fst; intro _ _ _)
      | (with_reducible apply Keeps.foldl_snd; intro _ _ _)
      | (with_reducible apply Keeps.foldl; intro _ _ _)
      | decide +kernel
      | exact sub_flt _ (by decide +kernel)
      | exact sub_eng _ (by decide +kernel)
      | exact sub_hk _ (by decide +kernel)
      | exact sub_port _ _ (by decide +kernel)
      | exact sub_win _ (by decide +kernel)
      | exact sub_any _ (by decide +kernel)
      | split
  try clear_value a3
  repeat' first
    | with_reducible assumption
    | with_reducible apply Keeps.refl
    | with_reducible apply Keeps.ite
    | (apply Keeps.step; with_reducible apply State.storeW1c_keeps)
    | (apply Keeps.step; with_reducible apply State.setFld_keeps)
    | (apply Keeps.step; with_reducible apply State.gainWrite_keeps)
    | (with_reducible apply Keeps.forEach; intro _ _ _)
    | (with_reducible apply Keeps.foldl_fst; intro _ _ _)
    | (with_reducible apply Keeps.foldl_snd; intro _ _ _)
    | (with_reducible apply Keeps.foldl; intro _ _ _)
    | decide +kernel
    | exact sub_flt _ (by decide +kernel)
    | exact sub_eng _ (by decide +kernel)
    | exact sub_hk _ (by decide +kernel)
    | exact sub_port _ _ (by decide +kernel)
    | exact sub_win _ (by decide +kernel)
    | exact sub_any _ (by decide +kernel)
    | split

theorem State.fltWrite_keeps (s : State) (b : Blk) (off : Nat) (v : Word) (w : Writer) (k : WPart) :
    Keeps (foot [.anyReg, .bar, .faults, .srcs]) s (State.fltWrite s b off v w k) := by
  unfold State.fltWrite
  extract_lets a1
  have ha1 : Keeps (foot [.anyReg, .bar, .faults, .srcs]) s a1 := by
    unfold a1
    repeat' first
      | with_reducible assumption
      | with_reducible apply Keeps.refl
      | with_reducible apply Keeps.ite
      | (apply Keeps.step; with_reducible apply State.policyWrite_keeps)
      | (apply Keeps.step; with_reducible apply State.param_keeps)
      | (apply Keeps.step; with_reducible apply State.injectWrite_keeps)
      | (apply Keeps.step; with_reducible apply State.ackMask_keeps)
      | (apply Keeps.step; with_reducible apply State.ackFirst_keeps)
      | (apply Keeps.step; with_reducible apply State.plainWrite_keeps)
      | (with_reducible apply Keeps.forEach; intro _ _ _)
      | (with_reducible apply Keeps.foldl_fst; intro _ _ _)
      | (with_reducible apply Keeps.foldl_snd; intro _ _ _)
      | (with_reducible apply Keeps.foldl; intro _ _ _)
      | decide +kernel
      | exact sub_flt _ (by decide +kernel)
      | exact sub_eng _ (by decide +kernel)
      | exact sub_hk _ (by decide +kernel)
      | exact sub_port _ _ (by decide +kernel)
      | exact sub_win _ (by decide +kernel)
      | exact sub_any _ (by decide +kernel)
      | split
  try clear_value a1
  repeat' first
    | with_reducible assumption
    | with_reducible apply Keeps.refl
    | with_reducible apply Keeps.ite
    | (apply Keeps.step; with_reducible apply State.policyWrite_keeps)
    | (apply Keeps.step; with_reducible apply State.param_keeps)
    | (apply Keeps.step; with_reducible apply State.injectWrite_keeps)
    | (apply Keeps.step; with_reducible apply State.ackMask_keeps)
    | (apply Keeps.step; with_reducible apply State.ackFirst_keeps)
    | (apply Keeps.step; with_reducible apply State.plainWrite_keeps)
    | (with_reducible apply Keeps.forEach; intro _ _ _)
    | (with_reducible apply Keeps.foldl_fst; intro _ _ _)
    | (with_reducible apply Keeps.foldl_snd; intro _ _ _)
    | (with_reducible apply Keeps.foldl; intro _ _ _)
    | decide +kernel
    | exact sub_flt _ (by decide +kernel)
    | exact sub_eng _ (by decide +kernel)
    | exact sub_hk _ (by decide +kernel)
    | exact sub_port _ _ (by decide +kernel)
    | exact sub_win _ (by decide +kernel)
    | exact sub_any _ (by decide +kernel)
    | split

theorem State.loopWord_keeps (s : State) (f : Nat) (g : Nat) (a : Nat) (v : Nat) (launched : Bool) :
    Keeps (foot [.reg GLB_DETERMINISM, .win .nul, .faults, .col, .nul]) s (State.loopWord s f g a v launched) := by
  unfold State.loopWord
  extract_lets a1 a2 a3 a4
  try clear_value a1
  try clear_value a2
  have ha3 : Keeps (foot [.reg GLB_DETERMINISM, .win .nul, .faults, .col, .nul]) s a3 := by
    unfold a3
    repeat' first
      | with_reducible assumption
      | with_reducible apply Keeps.refl
      | with_reducible apply Keeps.ite
      | (apply Keeps.step; with_reducible apply State.goodWord_keeps)
      | (apply Keeps.step; with_reducible apply State.holdCol_keeps)
      | (apply Keeps.step; with_reducible apply State.param_keeps)
      | (with_reducible apply Keeps.forEach; intro _ _ _)
      | (with_reducible apply Keeps.foldl_fst; intro _ _ _)
      | (with_reducible apply Keeps.foldl_snd; intro _ _ _)
      | (with_reducible apply Keeps.foldl; intro _ _ _)
      | decide +kernel
      | exact sub_flt _ (by decide +kernel)
      | exact sub_eng _ (by decide +kernel)
      | exact sub_hk _ (by decide +kernel)
      | exact sub_port _ _ (by decide +kernel)
      | exact sub_win _ (by decide +kernel)
      | exact sub_any _ (by decide +kernel)
      | split
  try clear_value a3
  have ha4 : Keeps (foot [.reg GLB_DETERMINISM, .win .nul, .faults, .col, .nul]) s a4 := by
    unfold a4
    repeat' first
      | with_reducible assumption
      | with_reducible apply Keeps.refl
      | with_reducible apply Keeps.ite
      | (apply Keeps.step; with_reducible apply State.goodWord_keeps)
      | (apply Keeps.step; with_reducible apply State.holdCol_keeps)
      | (apply Keeps.step; with_reducible apply State.param_keeps)
      | (with_reducible apply Keeps.forEach; intro _ _ _)
      | (with_reducible apply Keeps.foldl_fst; intro _ _ _)
      | (with_reducible apply Keeps.foldl_snd; intro _ _ _)
      | (with_reducible apply Keeps.foldl; intro _ _ _)
      | decide +kernel
      | exact sub_flt _ (by decide +kernel)
      | exact sub_eng _ (by decide +kernel)
      | exact sub_hk _ (by decide +kernel)
      | exact sub_port _ _ (by decide +kernel)
      | exact sub_win _ (by decide +kernel)
      | exact sub_any _ (by decide +kernel)
      | split
  try clear_value a4
  repeat' first
    | with_reducible assumption
    | with_reducible apply Keeps.refl
    | with_reducible apply Keeps.ite
    | (apply Keeps.step; with_reducible apply State.goodWord_keeps)
    | (apply Keeps.step; with_reducible apply State.holdCol_keeps)
    | (apply Keeps.step; with_reducible apply State.param_keeps)
    | (with_reducible apply Keeps.forEach; intro _ _ _)
    | (with_reducible apply Keeps.foldl_fst; intro _ _ _)
    | (with_reducible apply Keeps.foldl_snd; intro _ _ _)
    | (with_reducible apply Keeps.foldl; intro _ _ _)
    | decide +kernel
    | exact sub_flt _ (by decide +kernel)
    | exact sub_eng _ (by decide +kernel)
    | exact sub_hk _ (by decide +kernel)
    | exact sub_port _ _ (by decide +kernel)
    | exact sub_win _ (by decide +kernel)
    | exact sub_any _ (by decide +kernel)
    | split

theorem State.nulWinWrite_keeps (s : State) (a : Nat) (v : W24) (w : Writer) :
    Keeps (foot [.reg GLB_DETERMINISM, .reg LNK_DEADLETTER_COUNT, .reg (ENG_STATUS 0x600), .reg NUL_PRIMER_CTRL, .reg (ENG_STATUS 0x1B00), .flt, .win .lnk, .win .nul, .recTick, .bar, .faults, .cou, .bru, .col, .nul, .lnk, .free, .srcs]) s (State.nulWinWrite s a v w) := by
  unfold State.nulWinWrite
  extract_lets a1 a2 a3
  have ha1 : Keeps (foot [.reg GLB_DETERMINISM, .reg LNK_DEADLETTER_COUNT, .reg (ENG_STATUS 0x600), .reg NUL_PRIMER_CTRL, .reg (ENG_STATUS 0x1B00), .flt, .win .lnk, .win .nul, .recTick, .bar, .faults, .cou, .bru, .col, .nul, .lnk, .free, .srcs]) s a1 := by
    unfold a1
    repeat' first
      | with_reducible assumption
      | with_reducible apply Keeps.refl
      | with_reducible apply Keeps.ite
      | (apply Keeps.step; with_reducible apply State.raiseWith_keeps)
      | (apply Keeps.step; with_reducible apply State.setBit_keeps)
      | (apply Keeps.step; with_reducible apply State.setWin_keeps)
      | (apply Keeps.step; with_reducible apply State.setWinN_keeps)
      | (apply Keeps.step; with_reducible apply State.loopWord_keeps)
      | (with_reducible apply Keeps.forEach; intro _ _ _)
      | (with_reducible apply Keeps.foldl_fst; intro _ _ _)
      | (with_reducible apply Keeps.foldl_snd; intro _ _ _)
      | (with_reducible apply Keeps.foldl; intro _ _ _)
      | decide +kernel
      | exact sub_flt _ (by decide +kernel)
      | exact sub_eng _ (by decide +kernel)
      | exact sub_hk _ (by decide +kernel)
      | exact sub_port _ _ (by decide +kernel)
      | exact sub_win _ (by decide +kernel)
      | exact sub_any _ (by decide +kernel)
      | split
      | refine Keeps.upd ?_
  try clear_value a1
  try clear_value a2
  try clear_value a3
  repeat' first
    | with_reducible assumption
    | with_reducible apply Keeps.refl
    | with_reducible apply Keeps.ite
    | (apply Keeps.step; with_reducible apply State.raiseWith_keeps)
    | (apply Keeps.step; with_reducible apply State.setBit_keeps)
    | (apply Keeps.step; with_reducible apply State.setWin_keeps)
    | (apply Keeps.step; with_reducible apply State.setWinN_keeps)
    | (apply Keeps.step; with_reducible apply State.loopWord_keeps)
    | (with_reducible apply Keeps.forEach; intro _ _ _)
    | (with_reducible apply Keeps.foldl_fst; intro _ _ _)
    | (with_reducible apply Keeps.foldl_snd; intro _ _ _)
    | (with_reducible apply Keeps.foldl; intro _ _ _)
    | decide +kernel
    | exact sub_flt _ (by decide +kernel)
    | exact sub_eng _ (by decide +kernel)
    | exact sub_hk _ (by decide +kernel)
    | exact sub_port _ _ (by decide +kernel)
    | exact sub_win _ (by decide +kernel)
    | exact sub_any _ (by decide +kernel)
    | split
    | refine Keeps.upd ?_

theorem State.pwrWrite_keeps (s : State) (i : Nat) (v : Word) (w : Writer) (k : WPart) :
    Keeps (foot [.anyReg, .win .lnk, .recTick, .bar, .faults, .cou, .bru, .lnk, .free, .srcs]) s (State.pwrWrite s i v w k) := by
  unfold State.pwrWrite
  extract_lets a1 a2
  have ha1 : Keeps (foot [.anyReg, .win .lnk, .recTick, .bar, .faults, .cou, .bru, .lnk, .free, .srcs]) s a1 := by
    unfold a1
    repeat' first
      | with_reducible assumption
      | with_reducible apply Keeps.refl
      | with_reducible apply Keeps.ite
      | (apply Keeps.step; with_reducible apply State.plainWrite_keeps)
      | (apply Keeps.step; with_reducible apply State.raiseWith_keeps)
      | (with_reducible apply Keeps.forEach; intro _ _ _)
      | (with_reducible apply Keeps.foldl_fst; intro _ _ _)
      | (with_reducible apply Keeps.foldl_snd; intro _ _ _)
      | (with_reducible apply Keeps.foldl; intro _ _ _)
      | decide +kernel
      | exact sub_flt _ (by decide +kernel)
      | exact sub_eng _ (by decide +kernel)
      | exact sub_hk _ (by decide +kernel)
      | exact sub_port _ _ (by decide +kernel)
      | exact sub_win _ (by decide +kernel)
      | exact sub_any _ (by decide +kernel)
      | split
  try clear_value a1
  repeat' first
    | with_reducible assumption
    | with_reducible apply Keeps.refl
    | with_reducible apply Keeps.ite
    | (apply Keeps.step; with_reducible apply State.plainWrite_keeps)
    | (apply Keeps.step; with_reducible apply State.raiseWith_keeps)
    | (with_reducible apply Keeps.forEach; intro _ _ _)
    | (with_reducible apply Keeps.foldl_fst; intro _ _ _)
    | (with_reducible apply Keeps.foldl_snd; intro _ _ _)
    | (with_reducible apply Keeps.foldl; intro _ _ _)
    | decide +kernel
    | exact sub_flt _ (by decide +kernel)
    | exact sub_eng _ (by decide +kernel)
    | exact sub_hk _ (by decide +kernel)
    | exact sub_port _ _ (by decide +kernel)
    | exact sub_win _ (by decide +kernel)
    | exact sub_any _ (by decide +kernel)
    | split

theorem State.palSubmit_keeps (s : State) (m : Master) (hi : Word) :
    Keeps (foot [.reg GLB_DETERMINISM, .reg LNK_DEADLETTER_COUNT, .reg (ENG_STATUS 0x600), .reg PAL_STATUS, .reg PAL_BANK_LAUNCH_HI, .reg (ENG_STATUS 0x1B00), .flt, .win .lnk, .recTick, .hostQ, .fieldQ, .bar, .faults, .cou, .bru, .lnk, .free, .srcs]) s (State.palSubmit s m hi) := by
  unfold State.palSubmit
  extract_lets a1 a2 a3 a4 a5
  have ha1 : Keeps (foot [.reg GLB_DETERMINISM, .reg LNK_DEADLETTER_COUNT, .reg (ENG_STATUS 0x600), .reg PAL_STATUS, .reg PAL_BANK_LAUNCH_HI, .reg (ENG_STATUS 0x1B00), .flt, .win .lnk, .recTick, .hostQ, .fieldQ, .bar, .faults, .cou, .bru, .lnk, .free, .srcs]) s a1 := by
    unfold a1
    repeat' first
      | with_reducible assumption
      | with_reducible apply Keeps.refl
      | with_reducible apply Keeps.ite
      | (apply Keeps.step; with_reducible apply State.setReg_keeps)
      | (apply Keeps.step; with_reducible apply State.raiseWith_keeps)
      | (apply Keeps.step; with_reducible apply State.setBit_keeps)
      | (apply Keeps.step; with_reducible apply State.setFld_keeps)
      | (apply Keeps.step; with_reducible apply State.enqueue_keeps)
      | (apply Keeps.step; with_reducible apply State.launchRaise_keeps)
      | (with_reducible apply Keeps.forEach; intro _ _ _)
      | (with_reducible apply Keeps.foldl_fst; intro _ _ _)
      | (with_reducible apply Keeps.foldl_snd; intro _ _ _)
      | (with_reducible apply Keeps.foldl; intro _ _ _)
      | decide +kernel
      | exact sub_flt _ (by decide +kernel)
      | exact sub_eng _ (by decide +kernel)
      | exact sub_hk _ (by decide +kernel)
      | exact sub_port _ _ (by decide +kernel)
      | exact sub_win _ (by decide +kernel)
      | exact sub_any _ (by decide +kernel)
      | split
  try clear_value a1
  try clear_value a2
  have ha3 : ∀ x0, Keeps (foot [.reg GLB_DETERMINISM, .reg LNK_DEADLETTER_COUNT, .reg (ENG_STATUS 0x600), .reg PAL_STATUS, .reg PAL_BANK_LAUNCH_HI, .reg (ENG_STATUS 0x1B00), .flt, .win .lnk, .recTick, .hostQ, .fieldQ, .bar, .faults, .cou, .bru, .lnk, .free, .srcs]) s x0 → Keeps (foot [.reg GLB_DETERMINISM, .reg LNK_DEADLETTER_COUNT, .reg (ENG_STATUS 0x600), .reg PAL_STATUS, .reg PAL_BANK_LAUNCH_HI, .reg (ENG_STATUS 0x1B00), .flt, .win .lnk, .recTick, .hostQ, .fieldQ, .bar, .faults, .cou, .bru, .lnk, .free, .srcs]) s (a3 x0) := by
    intro x0 _
    dsimp only [a3]
    repeat' first
      | with_reducible assumption
      | with_reducible apply Keeps.refl
      | with_reducible apply Keeps.ite
      | (apply Keeps.step; with_reducible apply State.setReg_keeps)
      | (apply Keeps.step; with_reducible apply State.raiseWith_keeps)
      | (apply Keeps.step; with_reducible apply State.setBit_keeps)
      | (apply Keeps.step; with_reducible apply State.setFld_keeps)
      | (apply Keeps.step; with_reducible apply State.enqueue_keeps)
      | (apply Keeps.step; with_reducible apply State.launchRaise_keeps)
      | (with_reducible apply Keeps.forEach; intro _ _ _)
      | (with_reducible apply Keeps.foldl_fst; intro _ _ _)
      | (with_reducible apply Keeps.foldl_snd; intro _ _ _)
      | (with_reducible apply Keeps.foldl; intro _ _ _)
      | decide +kernel
      | exact sub_flt _ (by decide +kernel)
      | exact sub_eng _ (by decide +kernel)
      | exact sub_hk _ (by decide +kernel)
      | exact sub_port _ _ (by decide +kernel)
      | exact sub_win _ (by decide +kernel)
      | exact sub_any _ (by decide +kernel)
      | split
  try clear_value a3
  try clear_value a4
  have ha5 : Keeps (foot [.reg GLB_DETERMINISM, .reg LNK_DEADLETTER_COUNT, .reg (ENG_STATUS 0x600), .reg PAL_STATUS, .reg PAL_BANK_LAUNCH_HI, .reg (ENG_STATUS 0x1B00), .flt, .win .lnk, .recTick, .hostQ, .fieldQ, .bar, .faults, .cou, .bru, .lnk, .free, .srcs]) s a5 := by
    unfold a5
    repeat' first
      | with_reducible assumption
      | with_reducible apply Keeps.refl
      | with_reducible apply ha3
      | with_reducible apply Keeps.ite
      | (apply Keeps.step; with_reducible apply State.setReg_keeps)
      | (apply Keeps.step; with_reducible apply State.raiseWith_keeps)
      | (apply Keeps.step; with_reducible apply State.setBit_keeps)
      | (apply Keeps.step; with_reducible apply State.setFld_keeps)
      | (apply Keeps.step; with_reducible apply State.enqueue_keeps)
      | (apply Keeps.step; with_reducible apply State.launchRaise_keeps)
      | (with_reducible apply Keeps.forEach; intro _ _ _)
      | (with_reducible apply Keeps.foldl_fst; intro _ _ _)
      | (with_reducible apply Keeps.foldl_snd; intro _ _ _)
      | (with_reducible apply Keeps.foldl; intro _ _ _)
      | decide +kernel
      | exact sub_flt _ (by decide +kernel)
      | exact sub_eng _ (by decide +kernel)
      | exact sub_hk _ (by decide +kernel)
      | exact sub_port _ _ (by decide +kernel)
      | exact sub_win _ (by decide +kernel)
      | exact sub_any _ (by decide +kernel)
      | split
  try clear_value a5
  repeat' first
    | with_reducible assumption
    | with_reducible apply Keeps.refl
    | with_reducible apply ha3
    | with_reducible apply Keeps.ite
    | (apply Keeps.step; with_reducible apply State.setReg_keeps)
    | (apply Keeps.step; with_reducible apply State.raiseWith_keeps)
    | (apply Keeps.step; with_reducible apply State.setBit_keeps)
    | (apply Keeps.step; with_reducible apply State.setFld_keeps)
    | (apply Keeps.step; with_reducible apply State.enqueue_keeps)
    | (apply Keeps.step; with_reducible apply State.launchRaise_keeps)
    | (with_reducible apply Keeps.forEach; intro _ _ _)
    | (with_reducible apply Keeps.foldl_fst; intro _ _ _)
    | (with_reducible apply Keeps.foldl_snd; intro _ _ _)
    | (with_reducible apply Keeps.foldl; intro _ _ _)
    | decide +kernel
    | exact sub_flt _ (by decide +kernel)
    | exact sub_eng _ (by decide +kernel)
    | exact sub_hk _ (by decide +kernel)
    | exact sub_port _ _ (by decide +kernel)
    | exact sub_win _ (by decide +kernel)
    | exact sub_any _ (by decide +kernel)
    | split

theorem State.palWrite_keeps (s : State) (i : Nat) (v : Word) (w : Writer) (k : WPart) :
    Keeps (foot [.anyReg, .win .lnk, .recTick, .timers, .hostQ, .fieldQ, .bar, .faults, .cou, .bru, .pal, .pwr, .lnk, .free, .srcs]) s (State.palWrite s i v w k) := by
  unfold State.palWrite
  extract_lets a1 a2 a3
  have ha1 : Keeps (foot [.anyReg, .win .lnk, .recTick, .timers, .hostQ, .fieldQ, .bar, .faults, .cou, .bru, .pal, .pwr, .lnk, .free, .srcs]) s a1 := by
    unfold a1
    repeat' first
      | with_reducible assumption
      | with_reducible apply Keeps.refl
      | with_reducible apply Keeps.ite
      | (apply Keeps.step; with_reducible apply State.swapCancel_keeps)
      | (apply Keeps.step; with_reducible apply State.palCopy_keeps)
      | (apply Keeps.step; with_reducible apply State.plainWrite_keeps)
      | (apply Keeps.step; with_reducible apply State.palSubmit_keeps)
      | (apply Keeps.step; with_reducible apply State.pwrExempt_keeps)
      | (with_reducible apply Keeps.forEach; intro _ _ _)
      | (with_reducible apply Keeps.foldl_fst; intro _ _ _)
      | (with_reducible apply Keeps.foldl_snd; intro _ _ _)
      | (with_reducible apply Keeps.foldl; intro _ _ _)
      | decide +kernel
      | exact sub_flt _ (by decide +kernel)
      | exact sub_eng _ (by decide +kernel)
      | exact sub_hk _ (by decide +kernel)
      | exact sub_port _ _ (by decide +kernel)
      | exact sub_win _ (by decide +kernel)
      | exact sub_any _ (by decide +kernel)
      | split
  try clear_value a1
  have ha2 : Keeps (foot [.anyReg, .win .lnk, .recTick, .timers, .hostQ, .fieldQ, .bar, .faults, .cou, .bru, .pal, .pwr, .lnk, .free, .srcs]) s a2 := by
    unfold a2
    repeat' first
      | with_reducible assumption
      | with_reducible apply Keeps.refl
      | with_reducible apply Keeps.ite
      | (apply Keeps.step; with_reducible apply State.swapCancel_keeps)
      | (apply Keeps.step; with_reducible apply State.palCopy_keeps)
      | (apply Keeps.step; with_reducible apply State.plainWrite_keeps)
      | (apply Keeps.step; with_reducible apply State.palSubmit_keeps)
      | (apply Keeps.step; with_reducible apply State.pwrExempt_keeps)
      | (with_reducible apply Keeps.forEach; intro _ _ _)
      | (with_reducible apply Keeps.foldl_fst; intro _ _ _)
      | (with_reducible apply Keeps.foldl_snd; intro _ _ _)
      | (with_reducible apply Keeps.foldl; intro _ _ _)
      | decide +kernel
      | exact sub_flt _ (by decide +kernel)
      | exact sub_eng _ (by decide +kernel)
      | exact sub_hk _ (by decide +kernel)
      | exact sub_port _ _ (by decide +kernel)
      | exact sub_win _ (by decide +kernel)
      | exact sub_any _ (by decide +kernel)
      | split
  try clear_value a2
  have ha3 : Keeps (foot [.anyReg, .win .lnk, .recTick, .timers, .hostQ, .fieldQ, .bar, .faults, .cou, .bru, .pal, .pwr, .lnk, .free, .srcs]) s a3 := by
    unfold a3
    repeat' first
      | with_reducible assumption
      | with_reducible apply Keeps.refl
      | with_reducible apply Keeps.ite
      | (apply Keeps.step; with_reducible apply State.swapCancel_keeps)
      | (apply Keeps.step; with_reducible apply State.palCopy_keeps)
      | (apply Keeps.step; with_reducible apply State.plainWrite_keeps)
      | (apply Keeps.step; with_reducible apply State.palSubmit_keeps)
      | (apply Keeps.step; with_reducible apply State.pwrExempt_keeps)
      | (with_reducible apply Keeps.forEach; intro _ _ _)
      | (with_reducible apply Keeps.foldl_fst; intro _ _ _)
      | (with_reducible apply Keeps.foldl_snd; intro _ _ _)
      | (with_reducible apply Keeps.foldl; intro _ _ _)
      | decide +kernel
      | exact sub_flt _ (by decide +kernel)
      | exact sub_eng _ (by decide +kernel)
      | exact sub_hk _ (by decide +kernel)
      | exact sub_port _ _ (by decide +kernel)
      | exact sub_win _ (by decide +kernel)
      | exact sub_any _ (by decide +kernel)
      | split
  try clear_value a3
  repeat' first
    | with_reducible assumption
    | with_reducible apply Keeps.refl
    | with_reducible apply Keeps.ite
    | (apply Keeps.step; with_reducible apply State.swapCancel_keeps)
    | (apply Keeps.step; with_reducible apply State.palCopy_keeps)
    | (apply Keeps.step; with_reducible apply State.plainWrite_keeps)
    | (apply Keeps.step; with_reducible apply State.palSubmit_keeps)
    | (apply Keeps.step; with_reducible apply State.pwrExempt_keeps)
    | (with_reducible apply Keeps.forEach; intro _ _ _)
    | (with_reducible apply Keeps.foldl_fst; intro _ _ _)
    | (with_reducible apply Keeps.foldl_snd; intro _ _ _)
    | (with_reducible apply Keeps.foldl; intro _ _ _)
    | decide +kernel
    | exact sub_flt _ (by decide +kernel)
    | exact sub_eng _ (by decide +kernel)
    | exact sub_hk _ (by decide +kernel)
    | exact sub_port _ _ (by decide +kernel)
    | exact sub_win _ (by decide +kernel)
    | exact sub_any _ (by decide +kernel)
    | split

theorem State.strWrite_keeps (s : State) (i : Nat) (v : Word) (w : Writer) (k : WPart) :
    Keeps (foot [.anyReg, .faults, .str]) s (State.strWrite s i v w k) := by
  unfold State.strWrite
  repeat' first
    | with_reducible assumption
    | with_reducible apply Keeps.refl
    | with_reducible apply Keeps.ite
    | (apply Keeps.step; with_reducible apply State.strChange_keeps)
    | (apply Keeps.step; with_reducible apply State.plainWrite_keeps)
    | (with_reducible apply Keeps.forEach; intro _ _ _)
    | (with_reducible apply Keeps.foldl_fst; intro _ _ _)
    | (with_reducible apply Keeps.foldl_snd; intro _ _ _)
    | (with_reducible apply Keeps.foldl; intro _ _ _)
    | decide +kernel
    | exact sub_flt _ (by decide +kernel)
    | exact sub_eng _ (by decide +kernel)
    | exact sub_hk _ (by decide +kernel)
    | exact sub_port _ _ (by decide +kernel)
    | exact sub_win _ (by decide +kernel)
    | exact sub_any _ (by decide +kernel)
    | split

theorem State.engCtrl_keeps (s : State) (e : Eng) (v : Word) :
    Keeps (foot [.reg GLB_DETERMINISM, .reg LNK_DEADLETTER_COUNT, .reg (ENG_CTRL 0x600), .reg (ENG_STATUS 0x600), .reg (ENG_WAIT_COND 0x600), .reg (ENG_ROUTINE_ACTIVE 0x600), .reg (ENG_ABANDON_COUNT 0x600), .reg (ENG_CTRL 0x1B00), .reg (ENG_STATUS 0x1B00), .reg (ENG_WAIT_COND 0x1B00), .reg (ENG_ROUTINE_ACTIVE 0x1B00), .reg (ENG_ABANDON_COUNT 0x1B00), .flt, .win .lnk, .recTick, .bar, .faults, .cou, .bru, .lnk, .free, .srcs]) s (State.engCtrl s e v) := by
  unfold State.engCtrl
  extract_lets a1 a2 a3 a4 a5 a6
  try clear_value a2
  have ha3 : Keeps (foot [.reg GLB_DETERMINISM, .reg LNK_DEADLETTER_COUNT, .reg (ENG_CTRL 0x600), .reg (ENG_STATUS 0x600), .reg (ENG_WAIT_COND 0x600), .reg (ENG_ROUTINE_ACTIVE 0x600), .reg (ENG_ABANDON_COUNT 0x600), .reg (ENG_CTRL 0x1B00), .reg (ENG_STATUS 0x1B00), .reg (ENG_WAIT_COND 0x1B00), .reg (ENG_ROUTINE_ACTIVE 0x1B00), .reg (ENG_ABANDON_COUNT 0x1B00), .flt, .win .lnk, .recTick, .bar, .faults, .cou, .bru, .lnk, .free, .srcs]) s a3 := by
    unfold a3
    repeat' first
      | with_reducible assumption
      | with_reducible apply Keeps.refl
      | with_reducible apply Keeps.ite
      | (apply Keeps.step; with_reducible apply State.setEng_keeps)
      | (apply Keeps.step; with_reducible apply State.engStart_keeps)
      | (apply Keeps.step; with_reducible apply State.standing_keeps)
      | (apply Keeps.step; with_reducible apply State.engStop_keeps)
      | (apply Keeps.step; with_reducible apply State.raise_keeps)
      | (with_reducible apply Keeps.forEach; intro _ _ _)
      | (with_reducible apply Keeps.foldl_fst; intro _ _ _)
      | (with_reducible apply Keeps.foldl_snd; intro _ _ _)
      | (with_reducible apply Keeps.foldl; intro _ _ _)
      | decide +kernel
      | exact sub_flt _ (by decide +kernel)
      | exact sub_eng _ (by decide +kernel)
      | exact sub_hk _ (by decide +kernel)
      | exact sub_port _ _ (by decide +kernel)
      | exact sub_win _ (by decide +kernel)
      | exact sub_any _ (by decide +kernel)
      | split
  try clear_value a3
  try clear_value a4
  have ha5 : Keeps (foot [.reg GLB_DETERMINISM, .reg LNK_DEADLETTER_COUNT, .reg (ENG_CTRL 0x600), .reg (ENG_STATUS 0x600), .reg (ENG_WAIT_COND 0x600), .reg (ENG_ROUTINE_ACTIVE 0x600), .reg (ENG_ABANDON_COUNT 0x600), .reg (ENG_CTRL 0x1B00), .reg (ENG_STATUS 0x1B00), .reg (ENG_WAIT_COND 0x1B00), .reg (ENG_ROUTINE_ACTIVE 0x1B00), .reg (ENG_ABANDON_COUNT 0x1B00), .flt, .win .lnk, .recTick, .bar, .faults, .cou, .bru, .lnk, .free, .srcs]) s a5 := by
    unfold a5
    repeat' first
      | with_reducible assumption
      | with_reducible apply Keeps.refl
      | with_reducible apply Keeps.ite
      | (apply Keeps.step; with_reducible apply State.setEng_keeps)
      | (apply Keeps.step; with_reducible apply State.engStart_keeps)
      | (apply Keeps.step; with_reducible apply State.standing_keeps)
      | (apply Keeps.step; with_reducible apply State.engStop_keeps)
      | (apply Keeps.step; with_reducible apply State.raise_keeps)
      | (with_reducible apply Keeps.forEach; intro _ _ _)
      | (with_reducible apply Keeps.foldl_fst; intro _ _ _)
      | (with_reducible apply Keeps.foldl_snd; intro _ _ _)
      | (with_reducible apply Keeps.foldl; intro _ _ _)
      | decide +kernel
      | exact sub_flt _ (by decide +kernel)
      | exact sub_eng _ (by decide +kernel)
      | exact sub_hk _ (by decide +kernel)
      | exact sub_port _ _ (by decide +kernel)
      | exact sub_win _ (by decide +kernel)
      | exact sub_any _ (by decide +kernel)
      | split
  try clear_value a5
  have ha6 : Keeps (foot [.reg GLB_DETERMINISM, .reg LNK_DEADLETTER_COUNT, .reg (ENG_CTRL 0x600), .reg (ENG_STATUS 0x600), .reg (ENG_WAIT_COND 0x600), .reg (ENG_ROUTINE_ACTIVE 0x600), .reg (ENG_ABANDON_COUNT 0x600), .reg (ENG_CTRL 0x1B00), .reg (ENG_STATUS 0x1B00), .reg (ENG_WAIT_COND 0x1B00), .reg (ENG_ROUTINE_ACTIVE 0x1B00), .reg (ENG_ABANDON_COUNT 0x1B00), .flt, .win .lnk, .recTick, .bar, .faults, .cou, .bru, .lnk, .free, .srcs]) s a6 := by
    unfold a6
    repeat' first
      | with_reducible assumption
      | with_reducible apply Keeps.refl
      | with_reducible apply Keeps.ite
      | (apply Keeps.step; with_reducible apply State.setEng_keeps)
      | (apply Keeps.step; with_reducible apply State.engStart_keeps)
      | (apply Keeps.step; with_reducible apply State.standing_keeps)
      | (apply Keeps.step; with_reducible apply State.engStop_keeps)
      | (apply Keeps.step; with_reducible apply State.raise_keeps)
      | (with_reducible apply Keeps.forEach; intro _ _ _)
      | (with_reducible apply Keeps.foldl_fst; intro _ _ _)
      | (with_reducible apply Keeps.foldl_snd; intro _ _ _)
      | (with_reducible apply Keeps.foldl; intro _ _ _)
      | decide +kernel
      | exact sub_flt _ (by decide +kernel)
      | exact sub_eng _ (by decide +kernel)
      | exact sub_hk _ (by decide +kernel)
      | exact sub_port _ _ (by decide +kernel)
      | exact sub_win _ (by decide +kernel)
      | exact sub_any _ (by decide +kernel)
      | split
  try clear_value a6
  repeat' first
    | with_reducible assumption
    | with_reducible apply Keeps.refl
    | with_reducible apply Keeps.ite
    | (apply Keeps.step; with_reducible apply State.setEng_keeps)
    | (apply Keeps.step; with_reducible apply State.engStart_keeps)
    | (apply Keeps.step; with_reducible apply State.standing_keeps)
    | (apply Keeps.step; with_reducible apply State.engStop_keeps)
    | (apply Keeps.step; with_reducible apply State.raise_keeps)
    | (with_reducible apply Keeps.forEach; intro _ _ _)
    | (with_reducible apply Keeps.foldl_fst; intro _ _ _)
    | (with_reducible apply Keeps.foldl_snd; intro _ _ _)
    | (with_reducible apply Keeps.foldl; intro _ _ _)
    | decide +kernel
    | exact sub_flt _ (by decide +kernel)
    | exact sub_eng _ (by decide +kernel)
    | exact sub_hk _ (by decide +kernel)
    | exact sub_port _ _ (by decide +kernel)
    | exact sub_win _ (by decide +kernel)
    | exact sub_any _ (by decide +kernel)
    | split

theorem State.lnkWinWrite_keeps (s : State) (a : Nat) (v : W24) (w : Writer) :
    Keeps (foot [.reg GLB_DETERMINISM, .reg LNK_SCHED_SEL, .reg LNK_DEADLETTER_COUNT, .reg (ENG_STATUS 0x600), .reg (ENG_STATUS 0x1B00), .flt, .win .lnk, .recTick, .bar, .faults, .cou, .bru, .lnk, .free, .srcs]) s (State.lnkWinWrite s a v w) := by
  unfold State.lnkWinWrite
  repeat' first
    | with_reducible assumption
    | with_reducible apply Keeps.refl
    | with_reducible apply Keeps.ite
    | (apply Keeps.step; with_reducible apply State.raiseWith_keeps)
    | (apply Keeps.step; with_reducible apply State.setBit_keeps)
    | (apply Keeps.step; with_reducible apply State.setWinN_keeps)
    | (with_reducible apply Keeps.forEach; intro _ _ _)
    | (with_reducible apply Keeps.foldl_fst; intro _ _ _)
    | (with_reducible apply Keeps.foldl_snd; intro _ _ _)
    | (with_reducible apply Keeps.foldl; intro _ _ _)
    | decide +kernel
    | exact sub_flt _ (by decide +kernel)
    | exact sub_eng _ (by decide +kernel)
    | exact sub_hk _ (by decide +kernel)
    | exact sub_port _ _ (by decide +kernel)
    | exact sub_win _ (by decide +kernel)
    | exact sub_any _ (by decide +kernel)
    | split

theorem State.lnkWrite_keeps (s : State) (i : Nat) (v : Word) (w : Writer) (k : WPart) :
    Keeps (foot [.anyReg, .win .lnk, .recTick, .hostQ, .fieldQ, .bar, .faults, .cou, .bru, .lnk, .free, .srcs]) s (State.lnkWrite s i v w k) := by
  unfold State.lnkWrite
  extract_lets a1 a2 a3 a4
  try clear_value a1
  have ha2 : Keeps (foot [.anyReg, .win .lnk, .recTick, .hostQ, .fieldQ, .bar, .faults, .cou, .bru, .lnk, .free, .srcs]) s a2 := by
    unfold a2
    repeat' first
      | with_reducible assumption
      | with_reducible apply Keeps.refl
      | with_reducible apply Keeps.ite
      | (apply Keeps.step; with_reducible apply State.storeW1c_keeps)
      | (apply Keeps.step; with_reducible apply State.portFail_keeps)
      | (apply Keeps.step; with_reducible apply State.portFields_keeps)
      | (apply Keeps.step; with_reducible apply State.portReadmit_keeps)
      | (apply Keeps.step; with_reducible apply State.epochSet_keeps)
      | (apply Keeps.step; with_reducible apply State.epochNotice_keeps)
      | (apply Keeps.step; with_reducible apply State.schedSubmit_keeps)
      | (apply Keeps.step; with_reducible apply State.plainWrite_keeps)
      | (with_reducible apply Keeps.forEach; intro _ _ _)
      | (with_reducible apply Keeps.foldl_fst; intro _ _ _)
      | (with_reducible apply Keeps.foldl_snd; intro _ _ _)
      | (with_reducible apply Keeps.foldl; intro _ _ _)
      | decide +kernel
      | exact sub_flt _ (by decide +kernel)
      | exact sub_eng _ (by decide +kernel)
      | exact sub_hk _ (by decide +kernel)
      | exact sub_port _ _ (by decide +kernel)
      | exact sub_win _ (by decide +kernel)
      | exact sub_any _ (by decide +kernel)
      | split
  try clear_value a2
  have ha3 : Keeps (foot [.anyReg, .win .lnk, .recTick, .hostQ, .fieldQ, .bar, .faults, .cou, .bru, .lnk, .free, .srcs]) s a3 := by
    unfold a3
    repeat' first
      | with_reducible assumption
      | with_reducible apply Keeps.refl
      | with_reducible apply Keeps.ite
      | (apply Keeps.step; with_reducible apply State.storeW1c_keeps)
      | (apply Keeps.step; with_reducible apply State.portFail_keeps)
      | (apply Keeps.step; with_reducible apply State.portFields_keeps)
      | (apply Keeps.step; with_reducible apply State.portReadmit_keeps)
      | (apply Keeps.step; with_reducible apply State.epochSet_keeps)
      | (apply Keeps.step; with_reducible apply State.epochNotice_keeps)
      | (apply Keeps.step; with_reducible apply State.schedSubmit_keeps)
      | (apply Keeps.step; with_reducible apply State.plainWrite_keeps)
      | (with_reducible apply Keeps.forEach; intro _ _ _)
      | (with_reducible apply Keeps.foldl_fst; intro _ _ _)
      | (with_reducible apply Keeps.foldl_snd; intro _ _ _)
      | (with_reducible apply Keeps.foldl; intro _ _ _)
      | decide +kernel
      | exact sub_flt _ (by decide +kernel)
      | exact sub_eng _ (by decide +kernel)
      | exact sub_hk _ (by decide +kernel)
      | exact sub_port _ _ (by decide +kernel)
      | exact sub_win _ (by decide +kernel)
      | exact sub_any _ (by decide +kernel)
      | split
  try clear_value a3
  have ha4 : Keeps (foot [.anyReg, .win .lnk, .recTick, .hostQ, .fieldQ, .bar, .faults, .cou, .bru, .lnk, .free, .srcs]) s a4 := by
    unfold a4
    repeat' first
      | with_reducible assumption
      | with_reducible apply Keeps.refl
      | with_reducible apply Keeps.ite
      | (apply Keeps.step; with_reducible apply State.storeW1c_keeps)
      | (apply Keeps.step; with_reducible apply State.portFail_keeps)
      | (apply Keeps.step; with_reducible apply State.portFields_keeps)
      | (apply Keeps.step; with_reducible apply State.portReadmit_keeps)
      | (apply Keeps.step; with_reducible apply State.epochSet_keeps)
      | (apply Keeps.step; with_reducible apply State.epochNotice_keeps)
      | (apply Keeps.step; with_reducible apply State.schedSubmit_keeps)
      | (apply Keeps.step; with_reducible apply State.plainWrite_keeps)
      | (with_reducible apply Keeps.forEach; intro _ _ _)
      | (with_reducible apply Keeps.foldl_fst; intro _ _ _)
      | (with_reducible apply Keeps.foldl_snd; intro _ _ _)
      | (with_reducible apply Keeps.foldl; intro _ _ _)
      | decide +kernel
      | exact sub_flt _ (by decide +kernel)
      | exact sub_eng _ (by decide +kernel)
      | exact sub_hk _ (by decide +kernel)
      | exact sub_port _ _ (by decide +kernel)
      | exact sub_win _ (by decide +kernel)
      | exact sub_any _ (by decide +kernel)
      | split
  try clear_value a4
  repeat' first
    | with_reducible assumption
    | with_reducible apply Keeps.refl
    | with_reducible apply Keeps.ite
    | (apply Keeps.step; with_reducible apply State.storeW1c_keeps)
    | (apply Keeps.step; with_reducible apply State.portFail_keeps)
    | (apply Keeps.step; with_reducible apply State.portFields_keeps)
    | (apply Keeps.step; with_reducible apply State.portReadmit_keeps)
    | (apply Keeps.step; with_reducible apply State.epochSet_keeps)
    | (apply Keeps.step; with_reducible apply State.epochNotice_keeps)
    | (apply Keeps.step; with_reducible apply State.schedSubmit_keeps)
    | (apply Keeps.step; with_reducible apply State.plainWrite_keeps)
    | (with_reducible apply Keeps.forEach; intro _ _ _)
    | (with_reducible apply Keeps.foldl_fst; intro _ _ _)
    | (with_reducible apply Keeps.foldl_snd; intro _ _ _)
    | (with_reducible apply Keeps.foldl; intro _ _ _)
    | decide +kernel
    | exact sub_flt _ (by decide +kernel)
    | exact sub_eng _ (by decide +kernel)
    | exact sub_hk _ (by decide +kernel)
    | exact sub_port _ _ (by decide +kernel)
    | exact sub_win _ (by decide +kernel)
    | exact sub_any _ (by decide +kernel)
    | split

theorem State.hkWrite_keeps (s : State) (x : Hk) (off : Nat) (v : Word) (w : Writer) (k : WPart) :
    Keeps (foot [.anyReg, .win .lnk, .recTick, .bar, .faults, .cou, .bru, .lnk, .hka, .hkb, .free, .srcs]) s (State.hkWrite s x off v w k) := by
  unfold State.hkWrite
  extract_lets a1 a2 a3 a4 a5 a6
  try clear_value a2
  try clear_value a3
  have ha4 : Keeps (foot [.anyReg, .win .lnk, .recTick, .bar, .faults, .cou, .bru, .lnk, .hka, .hkb, .free, .srcs]) s a4 := by
    unfold a4
    repeat' first
      | with_reducible assumption
      | with_reducible apply Keeps.refl
      | with_reducible apply Keeps.ite
      | (apply Keeps.step; with_reducible apply State.hkRun_keeps)
      | (apply Keeps.step; with_reducible apply State.hkRestart_keeps)
      | (apply Keeps.step; with_reducible apply State.storeRw_keeps)
      | (apply Keeps.step; with_reducible apply State.urgentReq_keeps)
      | (apply Keeps.step; with_reducible apply State.param_keeps)
      | (apply Keeps.step; with_reducible apply State.calStart_keeps)
      | (apply Keeps.step; with_reducible apply State.calInterrupt_keeps)
      | (apply Keeps.step; with_reducible apply State.seqWrite_keeps)
      | (apply Keeps.step; with_reducible apply State.plainWrite_keeps)
      | (with_reducible apply Keeps.forEach; intro _ _ _)
      | (with_reducible apply Keeps.foldl_fst; intro _ _ _)
      | (with_reducible apply Keeps.foldl_snd; intro _ _ _)
      | (with_reducible apply Keeps.foldl; intro _ _ _)
      | decide +kernel
      | exact sub_flt _ (by decide +kernel)
      | exact sub_eng _ (by decide +kernel)
      | exact sub_hk _ (by decide +kernel)
      | exact sub_port _ _ (by decide +kernel)
      | exact sub_win _ (by decide +kernel)
      | exact sub_any _ (by decide +kernel)
      | split
  try clear_value a4
  have ha5 : Keeps (foot [.anyReg, .win .lnk, .recTick, .bar, .faults, .cou, .bru, .lnk, .hka, .hkb, .free, .srcs]) s a5 := by
    unfold a5
    repeat' first
      | with_reducible assumption
      | with_reducible apply Keeps.refl
      | with_reducible apply Keeps.ite
      | (apply Keeps.step; with_reducible apply State.hkRun_keeps)
      | (apply Keeps.step; with_reducible apply State.hkRestart_keeps)
      | (apply Keeps.step; with_reducible apply State.storeRw_keeps)
      | (apply Keeps.step; with_reducible apply State.urgentReq_keeps)
      | (apply Keeps.step; with_reducible apply State.param_keeps)
      | (apply Keeps.step; with_reducible apply State.calStart_keeps)
      | (apply Keeps.step; with_reducible apply State.calInterrupt_keeps)
      | (apply Keeps.step; with_reducible apply State.seqWrite_keeps)
      | (apply Keeps.step; with_reducible apply State.plainWrite_keeps)
      | (with_reducible apply Keeps.forEach; intro _ _ _)
      | (with_reducible apply Keeps.foldl_fst; intro _ _ _)
      | (with_reducible apply Keeps.foldl_snd; intro _ _ _)
      | (with_reducible apply Keeps.foldl; intro _ _ _)
      | decide +kernel
      | exact sub_flt _ (by decide +kernel)
      | exact sub_eng _ (by decide +kernel)
      | exact sub_hk _ (by decide +kernel)
      | exact sub_port _ _ (by decide +kernel)
      | exact sub_win _ (by decide +kernel)
      | exact sub_any _ (by decide +kernel)
      | split
  try clear_value a5
  have ha6 : Keeps (foot [.anyReg, .win .lnk, .recTick, .bar, .faults, .cou, .bru, .lnk, .hka, .hkb, .free, .srcs]) s a6 := by
    unfold a6
    repeat' first
      | with_reducible assumption
      | with_reducible apply Keeps.refl
      | with_reducible apply Keeps.ite
      | (apply Keeps.step; with_reducible apply State.hkRun_keeps)
      | (apply Keeps.step; with_reducible apply State.hkRestart_keeps)
      | (apply Keeps.step; with_reducible apply State.storeRw_keeps)
      | (apply Keeps.step; with_reducible apply State.urgentReq_keeps)
      | (apply Keeps.step; with_reducible apply State.param_keeps)
      | (apply Keeps.step; with_reducible apply State.calStart_keeps)
      | (apply Keeps.step; with_reducible apply State.calInterrupt_keeps)
      | (apply Keeps.step; with_reducible apply State.seqWrite_keeps)
      | (apply Keeps.step; with_reducible apply State.plainWrite_keeps)
      | (with_reducible apply Keeps.forEach; intro _ _ _)
      | (with_reducible apply Keeps.foldl_fst; intro _ _ _)
      | (with_reducible apply Keeps.foldl_snd; intro _ _ _)
      | (with_reducible apply Keeps.foldl; intro _ _ _)
      | decide +kernel
      | exact sub_flt _ (by decide +kernel)
      | exact sub_eng _ (by decide +kernel)
      | exact sub_hk _ (by decide +kernel)
      | exact sub_port _ _ (by decide +kernel)
      | exact sub_win _ (by decide +kernel)
      | exact sub_any _ (by decide +kernel)
      | split
  try clear_value a6
  repeat' first
    | with_reducible assumption
    | with_reducible apply Keeps.refl
    | with_reducible apply Keeps.ite
    | (apply Keeps.step; with_reducible apply State.hkRun_keeps)
    | (apply Keeps.step; with_reducible apply State.hkRestart_keeps)
    | (apply Keeps.step; with_reducible apply State.storeRw_keeps)
    | (apply Keeps.step; with_reducible apply State.urgentReq_keeps)
    | (apply Keeps.step; with_reducible apply State.param_keeps)
    | (apply Keeps.step; with_reducible apply State.calStart_keeps)
    | (apply Keeps.step; with_reducible apply State.calInterrupt_keeps)
    | (apply Keeps.step; with_reducible apply State.seqWrite_keeps)
    | (apply Keeps.step; with_reducible apply State.plainWrite_keeps)
    | (with_reducible apply Keeps.forEach; intro _ _ _)
    | (with_reducible apply Keeps.foldl_fst; intro _ _ _)
    | (with_reducible apply Keeps.foldl_snd; intro _ _ _)
    | (with_reducible apply Keeps.foldl; intro _ _ _)
    | decide +kernel
    | exact sub_flt _ (by decide +kernel)
    | exact sub_eng _ (by decide +kernel)
    | exact sub_hk _ (by decide +kernel)
    | exact sub_port _ _ (by decide +kernel)
    | exact sub_win _ (by decide +kernel)
    | exact sub_any _ (by decide +kernel)
    | split

theorem State.bumpAddr_keeps (s : State) (m : Master) (i : Nat) :
    Keeps (foot [.winAddrs]) s (State.bumpAddr s m i) := by
  unfold State.bumpAddr
  repeat' first
    | with_reducible assumption
    | with_reducible apply Keeps.refl
    | with_reducible apply Keeps.ite
    | (apply Keeps.step; with_reducible apply State.setWinAddr_keeps)
    | (with_reducible apply Keeps.forEach; intro _ _ _)
    | (with_reducible apply Keeps.foldl_fst; intro _ _ _)
    | (with_reducible apply Keeps.foldl_snd; intro _ _ _)
    | (with_reducible apply Keeps.foldl; intro _ _ _)
    | decide +kernel
    | exact sub_flt _ (by decide +kernel)
    | exact sub_eng _ (by decide +kernel)
    | exact sub_hk _ (by decide +kernel)
    | exact sub_port _ _ (by decide +kernel)
    | exact sub_win _ (by decide +kernel)
    | exact sub_any _ (by decide +kernel)
    | split

theorem State.launchReg_keeps (s : State) (m : Master) (i : Nat) (v : Word) (pm : PM) (kind : LKind) (tag : Nat) :
    Keeps (foot [.reg GLB_DETERMINISM, .reg LNK_DEADLETTER_COUNT, .reg (ENG_STATUS 0x600), .reg (ENG_STATUS 0x1B00), .flt, .win .lnk, .recTick, .hostQ, .fieldQ, .bar, .faults, .cou, .bru, .lnk, .free, .winAddrs, .srcs]) s (State.launchReg s m i v pm kind tag).2 := by
  unfold State.launchReg
  extract_lets a1 a2
  try clear_value a1
  have ha2 : Keeps (foot [.reg GLB_DETERMINISM, .reg LNK_DEADLETTER_COUNT, .reg (ENG_STATUS 0x600), .reg (ENG_STATUS 0x1B00), .flt, .win .lnk, .recTick, .hostQ, .fieldQ, .bar, .faults, .cou, .bru, .lnk, .free, .winAddrs, .srcs]) s a2.2 := by
    unfold a2
    repeat' first
      | with_reducible assumption
      | with_reducible apply Keeps.refl
      | split
      | with_reducible apply Keeps.ite
      | (apply Keeps.step; with_reducible apply State.launchWrite_keeps)
      | (apply Keeps.step; with_reducible apply State.bumpAddr_keeps)
      | (apply Keeps.step; with_reducible apply State.epochNotice_keeps)
      | (with_reducible apply Keeps.forEach; intro _ _ _)
      | (with_reducible apply Keeps.foldl_fst; intro _ _ _)
      | (with_reducible apply Keeps.foldl_snd; intro _ _ _)
      | (with_reducible apply Keeps.foldl; intro _ _ _)
      | decide +kernel
      | exact sub_flt _ (by decide +kernel)
      | exact sub_eng _ (by decide +kernel)
      | exact sub_hk _ (by decide +kernel)
      | exact sub_port _ _ (by decide +kernel)
      | exact sub_win _ (by decide +kernel)
      | exact sub_any _ (by decide +kernel)
  try clear_value a2
  repeat' first
    | with_reducible assumption
    | with_reducible apply Keeps.refl
    | split
    | with_reducible apply Keeps.ite
    | (apply Keeps.step; with_reducible apply State.launchWrite_keeps)
    | (apply Keeps.step; with_reducible apply State.bumpAddr_keeps)
    | (apply Keeps.step; with_reducible apply State.epochNotice_keeps)
    | (with_reducible apply Keeps.forEach; intro _ _ _)
    | (with_reducible apply Keeps.foldl_fst; intro _ _ _)
    | (with_reducible apply Keeps.foldl_snd; intro _ _ _)
    | (with_reducible apply Keeps.foldl; intro _ _ _)
    | decide +kernel
    | exact sub_flt _ (by decide +kernel)
    | exact sub_eng _ (by decide +kernel)
    | exact sub_hk _ (by decide +kernel)
    | exact sub_port _ _ (by decide +kernel)
    | exact sub_win _ (by decide +kernel)
    | exact sub_any _ (by decide +kernel)

theorem State.engWinWrite_keeps (s : State) (e : Eng) (a : Nat) (v : W24) (m : Master) :
    Keeps (foot [.reg GLB_DETERMINISM, .reg LNK_DEADLETTER_COUNT, .reg (ENG_STATUS 0x600), .reg (ENG_STATUS 0x1B00), .flt, .anyWin, .recTick, .bar, .faults, .cou, .bru, .lnk, .free, .srcs]) s (State.engWinWrite s e a v m) := by
  unfold State.engWinWrite
  extract_lets a1 a2
  try clear_value a2
  repeat' first
    | with_reducible assumption
    | with_reducible apply Keeps.refl
    | with_reducible apply Keeps.ite
    | (apply Keeps.step; with_reducible apply State.raiseWith_keeps)
    | (apply Keeps.step; with_reducible apply State.setBit_keeps)
    | (apply Keeps.step; with_reducible apply State.setWin_keeps)
    | (with_reducible apply Keeps.forEach; intro _ _ _)
    | (with_reducible apply Keeps.foldl_fst; intro _ _ _)
    | (with_reducible apply Keeps.foldl_snd; intro _ _ _)
    | (with_reducible apply Keeps.foldl; intro _ _ _)
    | decide +kernel
    | exact sub_eng _ (by decide +kernel)
    | exact sub_flt _ (by decide +kernel)
    | exact sub_hk _ (by decide +kernel)
    | exact sub_port _ _ (by decide +kernel)
    | exact sub_win _ (by decide +kernel)
    | exact sub_any _ (by decide +kernel)
    | split

theorem State.palWinWrite_keeps (s : State) (a : Nat) (v : W24) (w : Writer) :
    Keeps (foot [.reg GLB_DETERMINISM, .reg LNK_DEADLETTER_COUNT, .reg (ENG_STATUS 0x600), .reg PAL_STATUS, .reg ROW_MAP_STATUS, .reg ROW_SPARE_CTRL, .reg (ENG_STATUS 0x1B00), .flt, .win .lnk, .win .pal, .recTick, .bar, .faults, .cou, .bru, .pal, .lnk, .free, .srcs]) s (State.palWinWrite s a v w) := by
  unfold State.palWinWrite
  repeat' first
    | with_reducible assumption
    | with_reducible apply Keeps.refl
    | with_reducible apply Keeps.ite
    | (apply Keeps.step; with_reducible apply State.palBankWrite_keeps)
    | (apply Keeps.step; with_reducible apply State.rowMapWrite_keeps)
    | (apply Keeps.step; with_reducible apply State.raiseWith_keeps)
    | (apply Keeps.step; with_reducible apply State.clearOvl_keeps)
    | (with_reducible apply Keeps.forEach; intro _ _ _)
    | (with_reducible apply Keeps.foldl_fst; intro _ _ _)
    | (with_reducible apply Keeps.foldl_snd; intro _ _ _)
    | (with_reducible apply Keeps.foldl; intro _ _ _)
    | decide +kernel
    | exact sub_flt _ (by decide +kernel)
    | exact sub_eng _ (by decide +kernel)
    | exact sub_hk _ (by decide +kernel)
    | exact sub_port _ _ (by decide +kernel)
    | exact sub_win _ (by decide +kernel)
    | exact sub_any _ (by decide +kernel)
    | split

theorem State.colWinWrite_keeps (s : State) (a : Nat) (v : W24) (w : Writer) :
    Keeps (foot [.reg GLB_DETERMINISM, .reg LNK_DEADLETTER_COUNT, .reg (ENG_STATUS 0x600), .reg COL_MAP_STATUS, .reg COL_ROVER_STATUS, .reg (ENG_STATUS 0x1B00), .flt, .win .lnk, .win .col, .recTick, .bar, .faults, .cou, .bru, .col, .lnk, .free, .srcs]) s (State.colWinWrite s a v w) := by
  unfold State.colWinWrite
  repeat' first
    | with_reducible assumption
    | with_reducible apply Keeps.refl
    | with_reducible apply Keeps.ite
    | (apply Keeps.step; with_reducible apply State.settingsWrite_keeps)
    | (apply Keeps.step; with_reducible apply State.colMapWrite_keeps)
    | (apply Keeps.step; with_reducible apply State.raiseWith_keeps)
    | (apply Keeps.step; with_reducible apply State.trimWrite_keeps)
    | (with_reducible apply Keeps.forEach; intro _ _ _)
    | (with_reducible apply Keeps.foldl_fst; intro _ _ _)
    | (with_reducible apply Keeps.foldl_snd; intro _ _ _)
    | (with_reducible apply Keeps.foldl; intro _ _ _)
    | decide +kernel
    | exact sub_flt _ (by decide +kernel)
    | exact sub_eng _ (by decide +kernel)
    | exact sub_hk _ (by decide +kernel)
    | exact sub_port _ _ (by decide +kernel)
    | exact sub_win _ (by decide +kernel)
    | exact sub_any _ (by decide +kernel)
    | split

theorem State.varWinWrite_keeps (s : State) (a : Nat) (v : W24) (w : Writer) :
    Keeps (foot [.reg GLB_DETERMINISM, .reg LNK_DEADLETTER_COUNT, .reg (ENG_STATUS 0x600), .reg VAR_CTRL, .reg (ENG_STATUS 0x1B00), .flt, .win .lnk, .win .var, .recTick, .bar, .faults, .cou, .bru, .var, .lnk, .free, .srcs]) s (State.varWinWrite s a v w) := by
  unfold State.varWinWrite
  repeat' first
    | with_reducible assumption
    | with_reducible apply Keeps.refl
    | with_reducible apply Keeps.ite
    | (apply Keeps.step; with_reducible apply State.varBankWrite_keeps)
    | (apply Keeps.step; with_reducible apply State.tmapWrite_keeps)
    | (with_reducible apply Keeps.forEach; intro _ _ _)
    | (with_reducible apply Keeps.foldl_fst; intro _ _ _)
    | (with_reducible apply Keeps.foldl_snd; intro _ _ _)
    | (with_reducible apply Keeps.foldl; intro _ _ _)
    | decide +kernel
    | exact sub_flt _ (by decide +kernel)
    | exact sub_eng _ (by decide +kernel)
    | exact sub_hk _ (by decide +kernel)
    | exact sub_port _ _ (by decide +kernel)
    | exact sub_win _ (by decide +kernel)
    | exact sub_any _ (by decide +kernel)
    | split

theorem State.calWinWrite_keeps (s : State) (a : Nat) (v : W24) (w : Writer) :
    Keeps (foot [.reg GLB_DETERMINISM, .win .cal, .faults]) s (State.calWinWrite s a v w) := by
  unfold State.calWinWrite
  extract_lets a1
  try clear_value a1
  repeat' first
    | with_reducible assumption
    | with_reducible apply Keeps.refl
    | with_reducible apply Keeps.ite
    | (apply Keeps.step; with_reducible apply State.param_keeps)
    | (apply Keeps.step; with_reducible apply State.setWinN_keeps)
    | (with_reducible apply Keeps.forEach; intro _ _ _)
    | (with_reducible apply Keeps.foldl_fst; intro _ _ _)
    | (with_reducible apply Keeps.foldl_snd; intro _ _ _)
    | (with_reducible apply Keeps.foldl; intro _ _ _)
    | decide +kernel
    | exact sub_flt _ (by decide +kernel)
    | exact sub_eng _ (by decide +kernel)
    | exact sub_hk _ (by decide +kernel)
    | exact sub_port _ _ (by decide +kernel)
    | exact sub_win _ (by decide +kernel)
    | exact sub_any _ (by decide +kernel)
    | split

theorem State.winWrite_keeps (s : State) (b : Blk) (a : Nat) (v : Word) (w : Writer) :
    Keeps (foot [.reg GLB_DETERMINISM, .reg LNK_SCHED_SEL, .reg LNK_DEADLETTER_COUNT, .reg (ENG_STATUS 0x600), .reg PAL_STATUS, .reg ROW_MAP_STATUS, .reg ROW_SPARE_CTRL, .reg COL_MAP_STATUS, .reg COL_ROVER_STATUS, .reg NUL_PRIMER_CTRL, .reg VAR_CTRL, .reg (ENG_STATUS 0x1B00), .flt, .anyWin, .recTick, .bar, .faults, .cou, .bru, .pal, .col, .nul, .var, .evt] ||| foot [.lnk, .free, .srcs]) s (State.winWrite s b a v w) := by
  unfold State.winWrite
  extract_lets a1
  try clear_value a1
  repeat' first
    | with_reducible assumption
    | with_reducible apply Keeps.refl
    | with_reducible apply Keeps.ite
    | (apply Keeps.step; with_reducible apply State.retiredWrite_keeps)
    | (apply Keeps.step; with_reducible apply State.lnkWinWrite_keeps)
    | (apply Keeps.step; with_reducible apply State.engWinWrite_keeps)
    | (apply Keeps.step; with_reducible apply State.palWinWrite_keeps)
    | (apply Keeps.step; with_reducible apply State.colWinWrite_keeps)
    | (apply Keeps.step; with_reducible apply State.nulWinWrite_keeps)
    | (apply Keeps.step; with_reducible apply State.varWinWrite_keeps)
    | (apply Keeps.step; with_reducible apply State.evtWinWrite_keeps)
    | (apply Keeps.step; with_reducible apply State.calWinWrite_keeps)
    | (with_reducible apply Keeps.forEach; intro _ _ _)
    | (with_reducible apply Keeps.foldl_fst; intro _ _ _)
    | (with_reducible apply Keeps.foldl_snd; intro _ _ _)
    | (with_reducible apply Keeps.foldl; intro _ _ _)
    | decide +kernel
    | exact sub_flt _ (by decide +kernel)
    | exact sub_eng _ (by decide +kernel)
    | exact sub_hk _ (by decide +kernel)
    | exact sub_port _ _ (by decide +kernel)
    | exact sub_win _ (by decide +kernel)
    | exact sub_any _ (by decide +kernel)
    | split

theorem State.glbWrite_keeps (s : State) (i : Nat) (v : Word) (w : Writer) (k : WPart) :
    Keeps (foot [.anyReg, .win .lnk, .win .nul, .win .var, .win .cal, .recTick, .hostQ, .fieldQ, .gap, .bar, .faults, .cou, .bru, .pal, .pwr, .col, .nul, .var, .lnk, .hka, .hkb, .refOnAt, .cal, .mgt] ||| foot [.cfg, .free, .srcs]) s (State.glbWrite s i v w k) := by
  unfold State.glbWrite
  extract_lets a1
  try clear_value a1
  repeat' first
    | with_reducible assumption
    | with_reducible apply Keeps.refl
    | with_reducible apply Keeps.ite
    | (apply Keeps.step; with_reducible apply State.badKey_keeps)
    | (apply Keeps.step; with_reducible apply State.glbCommand_keeps)
    | (apply Keeps.step; with_reducible apply State.plainWrite_keeps)
    | (with_reducible apply Keeps.forEach; intro _ _ _)
    | (with_reducible apply Keeps.foldl_fst; intro _ _ _)
    | (with_reducible apply Keeps.foldl_snd; intro _ _ _)
    | (with_reducible apply Keeps.foldl; intro _ _ _)
    | decide +kernel
    | exact sub_flt _ (by decide +kernel)
    | exact sub_eng _ (by decide +kernel)
    | exact sub_hk _ (by decide +kernel)
    | exact sub_port _ _ (by decide +kernel)
    | exact sub_win _ (by decide +kernel)
    | exact sub_any _ (by decide +kernel)
    | split

theorem State.launchAction_keeps (s : State) (v : Word) :
    Keeps (foot [.anyReg, .hostQ, .fieldQ, .cou, .bru]) s (State.launchAction s v) := by
  unfold State.launchAction
  extract_lets a1
  have ha1 : Keeps (foot [.anyReg, .hostQ, .fieldQ, .cou, .bru]) s a1 := by
    unfold a1
    repeat' first
      | with_reducible assumption
      | with_reducible apply Keeps.refl
      | with_reducible apply Keeps.ite
      | (apply Keeps.step; with_reducible apply State.storeRw_keeps)
      | (apply Keeps.step; with_reducible apply State.flushArmed_keeps)
      | (with_reducible apply Keeps.forEach; intro _ _ _)
      | (with_reducible apply Keeps.foldl_fst; intro _ _ _)
      | (with_reducible apply Keeps.foldl_snd; intro _ _ _)
      | (with_reducible apply Keeps.foldl; intro _ _ _)
      | decide +kernel
      | exact sub_flt _ (by decide +kernel)
      | exact sub_eng _ (by decide +kernel)
      | exact sub_hk _ (by decide +kernel)
      | exact sub_port _ _ (by decide +kernel)
      | exact sub_win _ (by decide +kernel)
      | exact sub_any _ (by decide +kernel)
      | split
  try clear_value a1
  repeat' first
    | with_reducible assumption
    | with_reducible apply Keeps.refl
    | with_reducible apply Keeps.ite
    | (apply Keeps.step; with_reducible apply State.storeRw_keeps)
    | (apply Keeps.step; with_reducible apply State.flushArmed_keeps)
    | (with_reducible apply Keeps.forEach; intro _ _ _)
    | (with_reducible apply Keeps.foldl_fst; intro _ _ _)
    | (with_reducible apply Keeps.foldl_snd; intro _ _ _)
    | (with_reducible apply Keeps.foldl; intro _ _ _)
    | decide +kernel
    | exact sub_flt _ (by decide +kernel)
    | exact sub_eng _ (by decide +kernel)
    | exact sub_hk _ (by decide +kernel)
    | exact sub_port _ _ (by decide +kernel)
    | exact sub_win _ (by decide +kernel)
    | exact sub_any _ (by decide +kernel)
    | split

theorem State.retrain_keeps (s : State) :
    Keeps (foot [.reg TIM_STATUS, .reg BAR_STATUS, .reg BAR_LANE_MAP, .reg BAR_TRAIN, .reg FBA_STATUS, .reg FBA_LANE_STATUS, .bar]) s (State.retrain s) := by
  unfold State.retrain
  repeat' first
    | with_reducible assumption
    | with_reducible apply Keeps.refl
    | with_reducible apply Keeps.ite
    | (apply Keeps.step; with_reducible apply State.trainBegin_keeps)
    | (apply Keeps.step; with_reducible apply State.setBit_keeps)
    | (with_reducible apply Keeps.forEach; intro _ _ _)
    | (with_reducible apply Keeps.foldl_fst; intro _ _ _)
    | (with_reducible apply Keeps.foldl_snd; intro _ _ _)
    | (with_reducible apply Keeps.foldl; intro _ _ _)
    | decide +kernel
    | exact sub_flt _ (by decide +kernel)
    | exact sub_eng _ (by decide +kernel)
    | exact sub_hk _ (by decide +kernel)
    | exact sub_port _ _ (by decide +kernel)
    | exact sub_win _ (by decide +kernel)
    | exact sub_any _ (by decide +kernel)
    | split

theorem State.barWrite_keeps (s : State) (i : Nat) (v : Word) (w : Writer) (k : WPart) :
    Keeps (foot [.anyReg, .bar, .faults]) s (State.barWrite s i v w k) := by
  unfold State.barWrite
  extract_lets a1
  have ha1 : Keeps (foot [.anyReg, .bar, .faults]) s a1 := by
    unfold a1
    repeat' first
      | with_reducible assumption
      | with_reducible apply Keeps.refl
      | with_reducible apply Keeps.ite
      | (apply Keeps.step; with_reducible apply State.plainWrite_keeps)
      | (apply Keeps.step; with_reducible apply State.retrain_keeps)
      | (with_reducible apply Keeps.forEach; intro _ _ _)
      | (with_reducible apply Keeps.foldl_fst; intro _ _ _)
      | (with_reducible apply Keeps.foldl_snd; intro _ _ _)
      | (with_reducible apply Keeps.foldl; intro _ _ _)
      | decide +kernel
      | exact sub_flt _ (by decide +kernel)
      | exact sub_eng _ (by decide +kernel)
      | exact sub_hk _ (by decide +kernel)
      | exact sub_port _ _ (by decide +kernel)
      | exact sub_win _ (by decide +kernel)
      | exact sub_any _ (by decide +kernel)
      | split
  try clear_value a1
  repeat' first
    | with_reducible assumption
    | with_reducible apply Keeps.refl
    | with_reducible apply Keeps.ite
    | (apply Keeps.step; with_reducible apply State.plainWrite_keeps)
    | (apply Keeps.step; with_reducible apply State.retrain_keeps)
    | (with_reducible apply Keeps.forEach; intro _ _ _)
    | (with_reducible apply Keeps.foldl_fst; intro _ _ _)
    | (with_reducible apply Keeps.foldl_snd; intro _ _ _)
    | (with_reducible apply Keeps.foldl; intro _ _ _)
    | decide +kernel
    | exact sub_flt _ (by decide +kernel)
    | exact sub_eng _ (by decide +kernel)
    | exact sub_hk _ (by decide +kernel)
    | exact sub_port _ _ (by decide +kernel)
    | exact sub_win _ (by decide +kernel)
    | exact sub_any _ (by decide +kernel)
    | split

theorem State.cfgWrite_keeps (s : State) (i : Nat) (v : Word) (w : Writer) (k : WPart) :
    Keeps (foot [.anyReg, .win .lnk, .recTick, .bar, .faults, .cou, .bru, .nul, .lnk, .cfg, .flash, .free, .srcs]) s (State.cfgWrite s i v w k) := by
  unfold State.cfgWrite
  extract_lets a1 a2 a3
  have ha1 : Keeps (foot [.anyReg, .win .lnk, .recTick, .bar, .faults, .cou, .bru, .nul, .lnk, .cfg, .flash, .free, .srcs]) s a1 := by
    unfold a1
    repeat' first
      | with_reducible assumption
      | with_reducible apply Keeps.refl
      | with_reducible apply Keeps.ite
      | (apply Keeps.step; with_reducible apply State.plainWrite_keeps)
      | (apply Keeps.step; with_reducible apply State.flashStart_keeps)
      | (apply Keeps.step; with_reducible apply State.slotDiscard_keeps)
      | (apply Keeps.step; with_reducible apply State.storeRequest_keeps)
      | (with_reducible apply Keeps.forEach; intro _ _ _)
      | (with_reducible apply Keeps.foldl_fst; intro _ _ _)
      | (with_reducible apply Keeps.foldl_snd; intro _ _ _)
      | (with_reducible apply Keeps.foldl; intro _ _ _)
      | decide +kernel
      | exact sub_flt _ (by decide +kernel)
      | exact sub_eng _ (by decide +kernel)
      | exact sub_hk _ (by decide +kernel)
      | exact sub_port _ _ (by decide +kernel)
      | exact sub_win _ (by decide +kernel)
      | exact sub_any _ (by decide +kernel)
      | split
  try clear_value a1
  have ha3 : Keeps (foot [.anyReg, .win .lnk, .recTick, .bar, .faults, .cou, .bru, .nul, .lnk, .cfg, .flash, .free, .srcs]) s a3 := by
    unfold a3
    repeat' first
      | with_reducible assumption
      | with_reducible apply Keeps.refl
      | with_reducible apply Keeps.ite
      | (apply Keeps.step; with_reducible apply State.plainWrite_keeps)
      | (apply Keeps.step; with_reducible apply State.flashStart_keeps)
      | (apply Keeps.step; with_reducible apply State.slotDiscard_keeps)
      | (apply Keeps.step; with_reducible apply State.storeRequest_keeps)
      | (with_reducible apply Keeps.forEach; intro _ _ _)
      | (with_reducible apply Keeps.foldl_fst; intro _ _ _)
      | (with_reducible apply Keeps.foldl_snd; intro _ _ _)
      | (with_reducible apply Keeps.foldl; intro _ _ _)
      | decide +kernel
      | exact sub_flt _ (by decide +kernel)
      | exact sub_eng _ (by decide +kernel)
      | exact sub_hk _ (by decide +kernel)
      | exact sub_port _ _ (by decide +kernel)
      | exact sub_win _ (by decide +kernel)
      | exact sub_any _ (by decide +kernel)
      | split
  try clear_value a3
  repeat' first
    | with_reducible assumption
    | with_reducible apply Keeps.refl
    | with_reducible apply Keeps.ite
    | (apply Keeps.step; with_reducible apply State.plainWrite_keeps)
    | (apply Keeps.step; with_reducible apply State.flashStart_keeps)
    | (apply Keeps.step; with_reducible apply State.slotDiscard_keeps)
    | (apply Keeps.step; with_reducible apply State.storeRequest_keeps)
    | (with_reducible apply Keeps.forEach; intro _ _ _)
    | (with_reducible apply Keeps.foldl_fst; intro _ _ _)
    | (with_reducible apply Keeps.foldl_snd; intro _ _ _)
    | (with_reducible apply Keeps.foldl; intro _ _ _)
    | decide +kernel
    | exact sub_flt _ (by decide +kernel)
    | exact sub_eng _ (by decide +kernel)
    | exact sub_hk _ (by decide +kernel)
    | exact sub_port _ _ (by decide +kernel)
    | exact sub_win _ (by decide +kernel)
    | exact sub_any _ (by decide +kernel)
    | split

theorem State.engRequest_keeps (s : State) (e : Eng) (v : Word) :
    Keeps (foot [.anyReg, .cou, .bru]) s (State.engRequest s e v) := by
  unfold State.engRequest
  extract_lets a1
  have ha1 : Keeps (foot [.anyReg, .cou, .bru]) s a1 := by
    unfold a1
    repeat' first
      | with_reducible assumption
      | with_reducible apply Keeps.refl
      | with_reducible apply Keeps.ite
      | (apply Keeps.step; with_reducible apply State.storeRw_keeps)
      | (apply Keeps.step; with_reducible apply State.request_keeps)
      | (with_reducible apply Keeps.forEach; intro _ _ _)
      | (with_reducible apply Keeps.foldl_fst; intro _ _ _)
      | (with_reducible apply Keeps.foldl_snd; intro _ _ _)
      | (with_reducible apply Keeps.foldl; intro _ _ _)
      | decide +kernel
      | exact sub_flt _ (by decide +kernel)
      | exact sub_eng _ (by decide +kernel)
      | exact sub_hk _ (by decide +kernel)
      | exact sub_port _ _ (by decide +kernel)
      | exact sub_win _ (by decide +kernel)
      | exact sub_any _ (by decide +kernel)
      | split
  try clear_value a1
  repeat' first
    | with_reducible assumption
    | with_reducible apply Keeps.refl
    | with_reducible apply Keeps.ite
    | (apply Keeps.step; with_reducible apply State.storeRw_keeps)
    | (apply Keeps.step; with_reducible apply State.request_keeps)
    | (with_reducible apply Keeps.forEach; intro _ _ _)
    | (with_reducible apply Keeps.foldl_fst; intro _ _ _)
    | (with_reducible apply Keeps.foldl_snd; intro _ _ _)
    | (with_reducible apply Keeps.foldl; intro _ _ _)
    | decide +kernel
    | exact sub_flt _ (by decide +kernel)
    | exact sub_eng _ (by decide +kernel)
    | exact sub_hk _ (by decide +kernel)
    | exact sub_port _ _ (by decide +kernel)
    | exact sub_win _ (by decide +kernel)
    | exact sub_any _ (by decide +kernel)
    | split

theorem State.engWrite_keeps (s : State) (e : Eng) (off : Nat) (v : Word) (w : Writer) (k : WPart) :
    Keeps (foot [.anyReg, .win .lnk, .recTick, .bar, .faults, .cou, .bru, .lnk, .free, .srcs]) s (State.engWrite s e off v w k) := by
  unfold State.engWrite
  extract_lets a1 a2 a3
  try clear_value a2
  try clear_value a3
  repeat' first
    | with_reducible assumption
    | with_reducible apply Keeps.refl
    | with_reducible apply Keeps.ite
    | (apply Keeps.step; with_reducible apply State.engCtrl_keeps)
    | (apply Keeps.step; with_reducible apply State.engRequest_keeps)
    | (apply Keeps.step; with_reducible apply State.plainWrite_keeps)
    | (with_reducible apply Keeps.forEach; intro _ _ _)
    | (with_reducible apply Keeps.foldl_fst; intro _ _ _)
    | (with_reducible apply Keeps.foldl_snd; intro _ _ _)
    | (with_reducible apply Keeps.foldl; intro _ _ _)
    | decide +kernel
    | exact sub_flt _ (by decide +kernel)
    | exact sub_eng _ (by decide +kernel)
    | exact sub_hk _ (by decide +kernel)
    | exact sub_port _ _ (by decide +kernel)
    | exact sub_win _ (by decide +kernel)
    | exact sub_any _ (by decide +kernel)
    | split

theorem State.spareCtrl_keeps (s : State) (v : Word) (w : Writer) (k : WPart) :
    Keeps (foot [.anyReg, .win .lnk, .win .col, .recTick, .bar, .faults, .cou, .bru, .col, .lnk, .free, .srcs]) s (State.spareCtrl s v w k) := by
  unfold State.spareCtrl
  extract_lets a1 a2 a3
  try clear_value a1
  try clear_value a2
  have ha3 : Keeps (foot [.anyReg, .win .lnk, .win .col, .recTick, .bar, .faults, .cou, .bru, .col, .lnk, .free, .srcs]) s a3 := by
    unfold a3
    repeat' first
      | with_reducible assumption
      | with_reducible apply Keeps.refl
      | with_reducible apply Keeps.ite
      | (apply Keeps.step; with_reducible apply State.storeRw_keeps)
      | (apply Keeps.step; with_reducible apply State.spareSwap_keeps)
      | (apply Keeps.step; with_reducible apply State.spareRestore_keeps)
      | (apply Keeps.step; with_reducible apply State.raiseWith_keeps)
      | (with_reducible apply Keeps.forEach; intro _ _ _)
      | (with_reducible apply Keeps.foldl_fst; intro _ _ _)
      | (with_reducible apply Keeps.foldl_snd; intro _ _ _)
      | (with_reducible apply Keeps.foldl; intro _ _ _)
      | decide +kernel
      | exact sub_flt _ (by decide +kernel)
      | exact sub_eng _ (by decide +kernel)
      | exact sub_hk _ (by decide +kernel)
      | exact sub_port _ _ (by decide +kernel)
      | exact sub_win _ (by decide +kernel)
      | exact sub_any _ (by decide +kernel)
      | split
  try clear_value a3
  repeat' first
    | with_reducible assumption
    | with_reducible apply Keeps.refl
    | with_reducible apply Keeps.ite
    | (apply Keeps.step; with_reducible apply State.storeRw_keeps)
    | (apply Keeps.step; with_reducible apply State.spareSwap_keeps)
    | (apply Keeps.step; with_reducible apply State.spareRestore_keeps)
    | (apply Keeps.step; with_reducible apply State.raiseWith_keeps)
    | (with_reducible apply Keeps.forEach; intro _ _ _)
    | (with_reducible apply Keeps.foldl_fst; intro _ _ _)
    | (with_reducible apply Keeps.foldl_snd; intro _ _ _)
    | (with_reducible apply Keeps.foldl; intro _ _ _)
    | decide +kernel
    | exact sub_flt _ (by decide +kernel)
    | exact sub_eng _ (by decide +kernel)
    | exact sub_hk _ (by decide +kernel)
    | exact sub_port _ _ (by decide +kernel)
    | exact sub_win _ (by decide +kernel)
    | exact sub_any _ (by decide +kernel)
    | split

theorem State.colWrite_keeps (s : State) (i : Nat) (v : Word) (w : Writer) (k : WPart) :
    Keeps (foot [.anyReg, .win .lnk, .win .col, .recTick, .bar, .faults, .cou, .bru, .col, .lnk, .free, .srcs]) s (State.colWrite s i v w k) := by
  unfold State.colWrite
  repeat' first
    | with_reducible assumption
    | with_reducible apply Keeps.refl
    | with_reducible apply Keeps.ite
    | (apply Keeps.step; with_reducible apply State.spareCtrl_keeps)
    | (apply Keeps.step; with_reducible apply State.enableWrite_keeps)
    | (apply Keeps.step; with_reducible apply State.plainWrite_keeps)
    | (with_reducible apply Keeps.forEach; intro _ _ _)
    | (with_reducible apply Keeps.foldl_fst; intro _ _ _)
    | (with_reducible apply Keeps.foldl_snd; intro _ _ _)
    | (with_reducible apply Keeps.foldl; intro _ _ _)
    | decide +kernel
    | exact sub_flt _ (by decide +kernel)
    | exact sub_eng _ (by decide +kernel)
    | exact sub_hk _ (by decide +kernel)
    | exact sub_port _ _ (by decide +kernel)
    | exact sub_win _ (by decide +kernel)
    | exact sub_any _ (by decide +kernel)
    | split

theorem State.rangeReg_keeps (s : State) (v : Word) (w : Writer) (k : WPart) :
    Keeps (foot [.reg GLB_DETERMINISM, .reg NUL_DAC_RANGE, .win .nul, .faults, .col, .nul]) s (State.rangeReg s v w k) := by
  unfold State.rangeReg
  extract_lets a1 a2
  try clear_value a1
  have ha2 : Keeps (foot [.reg GLB_DETERMINISM, .reg NUL_DAC_RANGE, .win .nul, .faults, .col, .nul]) s a2 := by
    unfold a2
    repeat' first
      | with_reducible assumption
      | with_reducible apply Keeps.refl
      | with_reducible apply Keeps.ite
      | (apply Keeps.step; with_reducible apply State.setFld_keeps)
      | (apply Keeps.step; with_reducible apply State.rangeChange_keeps)
      | (with_reducible apply Keeps.forEach; intro _ _ _)
      | (with_reducible apply Keeps.foldl_fst; intro _ _ _)
      | (with_reducible apply Keeps.foldl_snd; intro _ _ _)
      | (with_reducible apply Keeps.foldl; intro _ _ _)
      | decide +kernel
      | exact sub_flt _ (by decide +kernel)
      | exact sub_eng _ (by decide +kernel)
      | exact sub_hk _ (by decide +kernel)
      | exact sub_port _ _ (by decide +kernel)
      | exact sub_win _ (by decide +kernel)
      | exact sub_any _ (by decide +kernel)
      | split
  try clear_value a2
  repeat' first
    | with_reducible assumption
    | with_reducible apply Keeps.refl
    | with_reducible apply Keeps.ite
    | (apply Keeps.step; with_reducible apply State.setFld_keeps)
    | (apply Keeps.step; with_reducible apply State.rangeChange_keeps)
    | (with_reducible apply Keeps.forEach; intro _ _ _)
    | (with_reducible apply Keeps.foldl_fst; intro _ _ _)
    | (with_reducible apply Keeps.foldl_snd; intro _ _ _)
    | (with_reducible apply Keeps.foldl; intro _ _ _)
    | decide +kernel
    | exact sub_flt _ (by decide +kernel)
    | exact sub_eng _ (by decide +kernel)
    | exact sub_hk _ (by decide +kernel)
    | exact sub_port _ _ (by decide +kernel)
    | exact sub_win _ (by decide +kernel)
    | exact sub_any _ (by decide +kernel)
    | split

theorem State.nulWrite_keeps (s : State) (i : Nat) (v : Word) (w : Writer) (k : WPart) :
    Keeps (foot [.anyReg, .win .lnk, .win .nul, .recTick, .bar, .faults, .cou, .bru, .col, .nul, .lnk, .free, .srcs]) s (State.nulWrite s i v w k) := by
  unfold State.nulWrite
  extract_lets a1 a2 a3
  have ha1 : Keeps (foot [.anyReg, .win .lnk, .win .nul, .recTick, .bar, .faults, .cou, .bru, .col, .nul, .lnk, .free, .srcs]) s a1 := by
    unfold a1
    repeat' first
      | with_reducible assumption
      | with_reducible apply Keeps.refl
      | with_reducible apply Keeps.ite
      | (apply Keeps.step; with_reducible apply State.gainReg_keeps)
      | (apply Keeps.step; with_reducible apply State.rangeReg_keeps)
      | (apply Keeps.step; with_reducible apply State.storeW1c_keeps)
      | (apply Keeps.step; with_reducible apply State.param_keeps)
      | (apply Keeps.step; with_reducible apply State.captureReq_keeps)
      | (apply Keeps.step; with_reducible apply State.plainWrite_keeps)
      | (with_reducible apply Keeps.forEach; intro _ _ _)
      | (with_reducible apply Keeps.foldl_fst; intro _ _ _)
      | (with_reducible apply Keeps.foldl_snd; intro _ _ _)
      | (with_reducible apply Keeps.foldl; intro _ _ _)
      | decide +kernel
      | exact sub_flt _ (by decide +kernel)
      | exact sub_eng _ (by decide +kernel)
      | exact sub_hk _ (by decide +kernel)
      | exact sub_port _ _ (by decide +kernel)
      | exact sub_win _ (by decide +kernel)
      | exact sub_any _ (by decide +kernel)
      | split
      | refine Keeps.upd ?_
  try clear_value a1
  try clear_value a2
  have ha3 : Keeps (foot [.anyReg, .win .lnk, .win .nul, .recTick, .bar, .faults, .cou, .bru, .col, .nul, .lnk, .free, .srcs]) s a3 := by
    unfold a3
    repeat' first
      | with_reducible assumption
      | with_reducible apply Keeps.refl
      | with_reducible apply Keeps.ite
      | (apply Keeps.step; with_reducible apply State.gainReg_keeps)
      | (apply Keeps.step; with_reducible apply State.rangeReg_keeps)
      | (apply Keeps.step; with_reducible apply State.storeW1c_keeps)
      | (apply Keeps.step; with_reducible apply State.param_keeps)
      | (apply Keeps.step; with_reducible apply State.captureReq_keeps)
      | (apply Keeps.step; with_reducible apply State.plainWrite_keeps)
      | (with_reducible apply Keeps.forEach; intro _ _ _)
      | (with_reducible apply Keeps.foldl_fst; intro _ _ _)
      | (with_reducible apply Keeps.foldl_snd; intro _ _ _)
      | (with_reducible apply Keeps.foldl; intro _ _ _)
      | decide +kernel
      | exact sub_flt _ (by decide +kernel)
      | exact sub_eng _ (by decide +kernel)
      | exact sub_hk _ (by decide +kernel)
      | exact sub_port _ _ (by decide +kernel)
      | exact sub_win _ (by decide +kernel)
      | exact sub_any _ (by decide +kernel)
      | split
      | refine Keeps.upd ?_
  try clear_value a3
  repeat' first
    | with_reducible assumption
    | with_reducible apply Keeps.refl
    | with_reducible apply Keeps.ite
    | (apply Keeps.step; with_reducible apply State.gainReg_keeps)
    | (apply Keeps.step; with_reducible apply State.rangeReg_keeps)
    | (apply Keeps.step; with_reducible apply State.storeW1c_keeps)
    | (apply Keeps.step; with_reducible apply State.param_keeps)
    | (apply Keeps.step; with_reducible apply State.captureReq_keeps)
    | (apply Keeps.step; with_reducible apply State.plainWrite_keeps)
    | (with_reducible apply Keeps.forEach; intro _ _ _)
    | (with_reducible apply Keeps.foldl_fst; intro _ _ _)
    | (with_reducible apply Keeps.foldl_snd; intro _ _ _)
    | (with_reducible apply Keeps.foldl; intro _ _ _)
    | decide +kernel
    | exact sub_flt _ (by decide +kernel)
    | exact sub_eng _ (by decide +kernel)
    | exact sub_hk _ (by decide +kernel)
    | exact sub_port _ _ (by decide +kernel)
    | exact sub_win _ (by decide +kernel)
    | exact sub_any _ (by decide +kernel)
    | split
    | refine Keeps.upd ?_

theorem State.varWrite_keeps (s : State) (i : Nat) (v : Word) (w : Writer) (k : WPart) :
    Keeps (foot [.anyReg, .win .lnk, .recTick, .timers, .bar, .faults, .cou, .bru, .var, .lnk, .free, .srcs]) s (State.varWrite s i v w k) := by
  unfold State.varWrite
  extract_lets a1 a2
  have ha1 : Keeps (foot [.anyReg, .win .lnk, .recTick, .timers, .bar, .faults, .cou, .bru, .var, .lnk, .free, .srcs]) s a1 := by
    unfold a1
    repeat' first
      | with_reducible assumption
      | with_reducible apply Keeps.refl
      | with_reducible apply Keeps.ite
      | (apply Keeps.step; with_reducible apply State.storeW1c_keeps)
      | (apply Keeps.step; with_reducible apply State.varCopy_keeps)
      | (apply Keeps.step; with_reducible apply State.varSwap_keeps)
      | (apply Keeps.step; with_reducible apply State.plainWrite_keeps)
      | (with_reducible apply Keeps.forEach; intro _ _ _)
      | (with_reducible apply Keeps.foldl_fst; intro _ _ _)
      | (with_reducible apply Keeps.foldl_snd; intro _ _ _)
      | (with_reducible apply Keeps.foldl; intro _ _ _)
      | decide +kernel
      | exact sub_flt _ (by decide +kernel)
      | exact sub_eng _ (by decide +kernel)
      | exact sub_hk _ (by decide +kernel)
      | exact sub_port _ _ (by decide +kernel)
      | exact sub_win _ (by decide +kernel)
      | exact sub_any _ (by decide +kernel)
      | split
  try clear_value a1
  have ha2 : Keeps (foot [.anyReg, .win .lnk, .recTick, .timers, .bar, .faults, .cou, .bru, .var, .lnk, .free, .srcs]) s a2 := by
    unfold a2
    repeat' first
      | with_reducible assumption
      | with_reducible apply Keeps.refl
      | with_reducible apply Keeps.ite
      | (apply Keeps.step; with_reducible apply State.storeW1c_keeps)
      | (apply Keeps.step; with_reducible apply State.varCopy_keeps)
      | (apply Keeps.step; with_reducible apply State.varSwap_keeps)
      | (apply Keeps.step; with_reducible apply State.plainWrite_keeps)
      | (with_reducible apply Keeps.forEach; intro _ _ _)
      | (with_reducible apply Keeps.foldl_fst; intro _ _ _)
      | (with_reducible apply Keeps.foldl_snd; intro _ _ _)
      | (with_reducible apply Keeps.foldl; intro _ _ _)
      | decide +kernel
      | exact sub_flt _ (by decide +kernel)
      | exact sub_eng _ (by decide +kernel)
      | exact sub_hk _ (by decide +kernel)
      | exact sub_port _ _ (by decide +kernel)
      | exact sub_win _ (by decide +kernel)
      | exact sub_any _ (by decide +kernel)
      | split
  try clear_value a2
  repeat' first
    | with_reducible assumption
    | with_reducible apply Keeps.refl
    | with_reducible apply Keeps.ite
    | (apply Keeps.step; with_reducible apply State.storeW1c_keeps)
    | (apply Keeps.step; with_reducible apply State.varCopy_keeps)
    | (apply Keeps.step; with_reducible apply State.varSwap_keeps)
    | (apply Keeps.step; with_reducible apply State.plainWrite_keeps)
    | (with_reducible apply Keeps.forEach; intro _ _ _)
    | (with_reducible apply Keeps.foldl_fst; intro _ _ _)
    | (with_reducible apply Keeps.foldl_snd; intro _ _ _)
    | (with_reducible apply Keeps.foldl; intro _ _ _)
    | decide +kernel
    | exact sub_flt _ (by decide +kernel)
    | exact sub_eng _ (by decide +kernel)
    | exact sub_hk _ (by decide +kernel)
    | exact sub_port _ _ (by decide +kernel)
    | exact sub_win _ (by decide +kernel)
    | exact sub_any _ (by decide +kernel)
    | split

theorem State.hksWrite_keeps (s : State) (i : Nat) (v : Word) (w : Writer) (k : WPart) :
    Keeps (foot [.anyReg, .win .lnk, .recTick, .bar, .faults, .cou, .bru, .pwr, .lnk, .hka, .hkb, .refOnAt, .free, .srcs]) s (State.hksWrite s i v w k) := by
  unfold State.hksWrite
  extract_lets a1 a2
  try clear_value a1
  have ha2 : Keeps (foot [.anyReg, .win .lnk, .recTick, .bar, .faults, .cou, .bru, .pwr, .lnk, .hka, .hkb, .refOnAt, .free, .srcs]) s a2 := by
    unfold a2
    repeat' first
      | with_reducible assumption
      | with_reducible apply Keeps.refl
      | with_reducible apply Keeps.ite
      | (apply Keeps.step; with_reducible apply State.refUpdate_keeps)
      | (apply Keeps.step; with_reducible apply State.pwrExempt_keeps)
      | (apply Keeps.step; with_reducible apply State.plainWrite_keeps)
      | (apply Keeps.step; with_reducible apply State.excCtrlWrite_keeps)
      | (apply Keeps.step; with_reducible apply State.storeW1c_keeps)
      | (apply Keeps.step; with_reducible apply State.excClear_keeps)
      | (apply Keeps.step; with_reducible apply State.redundantSel_keeps)
      | (with_reducible apply Keeps.forEach; intro _ _ _)
      | (with_reducible apply Keeps.foldl_fst; intro _ _ _)
      | (with_reducible apply Keeps.foldl_snd; intro _ _ _)
      | (with_reducible apply Keeps.foldl; intro _ _ _)
      | decide +kernel
      | exact sub_flt _ (by decide +kernel)
      | exact sub_eng _ (by decide +kernel)
      | exact sub_hk _ (by decide +kernel)
      | exact sub_port _ _ (by decide +kernel)
      | exact sub_win _ (by decide +kernel)
      | exact sub_any _ (by decide +kernel)
      | split
  try clear_value a2
  repeat' first
    | with_reducible assumption
    | with_reducible apply Keeps.refl
    | with_reducible apply Keeps.ite
    | (apply Keeps.step; with_reducible apply State.refUpdate_keeps)
    | (apply Keeps.step; with_reducible apply State.pwrExempt_keeps)
    | (apply Keeps.step; with_reducible apply State.plainWrite_keeps)
    | (apply Keeps.step; with_reducible apply State.excCtrlWrite_keeps)
    | (apply Keeps.step; with_reducible apply State.storeW1c_keeps)
    | (apply Keeps.step; with_reducible apply State.excClear_keeps)
    | (apply Keeps.step; with_reducible apply State.redundantSel_keeps)
    | (with_reducible apply Keeps.forEach; intro _ _ _)
    | (with_reducible apply Keeps.foldl_fst; intro _ _ _)
    | (with_reducible apply Keeps.foldl_snd; intro _ _ _)
    | (with_reducible apply Keeps.foldl; intro _ _ _)
    | decide +kernel
    | exact sub_flt _ (by decide +kernel)
    | exact sub_eng _ (by decide +kernel)
    | exact sub_hk _ (by decide +kernel)
    | exact sub_port _ _ (by decide +kernel)
    | exact sub_win _ (by decide +kernel)
    | exact sub_any _ (by decide +kernel)
    | split

theorem State.applyPart_keeps (s : State) (i : Nat) (v : Word) (w : Writer) (wa : Nat) (k : WPart) :
    Keeps (foot [.anyReg, .anyWin, .recTick, .timers, .hostQ, .fieldQ, .gap, .bar, .faults, .cou, .bru, .pal, .pwr, .col, .nul, .var, .str, .evt, .lnk, .hka, .hkb, .refOnAt, .cal, .mgt] ||| foot [.cfg, .flash, .free, .winAddrs, .srcs]) s (State.applyPart s i v w wa k) := by
  unfold State.applyPart
  extract_lets a1
  try clear_value a1
  repeat' first
    | with_reducible assumption
    | with_reducible apply Keeps.refl
    | with_reducible apply Keeps.ite
    | (apply Keeps.step; with_reducible apply State.fltWrite_keeps)
    | (apply Keeps.step; with_reducible apply State.setWinAddr_keeps)
    | (apply Keeps.step; with_reducible apply State.winWrite_keeps)
    | (apply Keeps.step; with_reducible apply State.glbWrite_keeps)
    | (apply Keeps.step; with_reducible apply State.launchAction_keeps)
    | (apply Keeps.step; with_reducible apply State.plainWrite_keeps)
    | (apply Keeps.step; with_reducible apply State.barWrite_keeps)
    | (apply Keeps.step; with_reducible apply State.lnkWrite_keeps)
    | (apply Keeps.step; with_reducible apply State.cfgWrite_keeps)
    | (apply Keeps.step; with_reducible apply State.engWrite_keeps)
    | (apply Keeps.step; with_reducible apply State.pwrWrite_keeps)
    | (apply Keeps.step; with_reducible apply State.palWrite_keeps)
    | (apply Keeps.step; with_reducible apply State.colWrite_keeps)
    | (apply Keeps.step; with_reducible apply State.nulWrite_keeps)
    | (apply Keeps.step; with_reducible apply State.varWrite_keeps)
    | (apply Keeps.step; with_reducible apply State.strWrite_keeps)
    | (apply Keeps.step; with_reducible apply State.hkWrite_keeps)
    | (apply Keeps.step; with_reducible apply State.hksWrite_keeps)
    | (apply Keeps.step; with_reducible apply State.calWrite_keeps)
    | (with_reducible apply Keeps.forEach; intro _ _ _)
    | (with_reducible apply Keeps.foldl_fst; intro _ _ _)
    | (with_reducible apply Keeps.foldl_snd; intro _ _ _)
    | (with_reducible apply Keeps.foldl; intro _ _ _)
    | decide +kernel
    | exact sub_flt _ (by decide +kernel)
    | exact sub_eng _ (by decide +kernel)
    | exact sub_hk _ (by decide +kernel)
    | exact sub_port _ _ (by decide +kernel)
    | exact sub_win _ (by decide +kernel)
    | exact sub_any _ (by decide +kernel)
    | split

theorem State.applyWhole_keeps (s : State) (i : Nat) (v : Word) (w : Writer) (wa : Nat) :
    Keeps (foot [.anyReg, .anyWin, .recTick, .timers, .hostQ, .fieldQ, .gap, .bar, .faults, .cou, .bru, .pal, .pwr, .col, .nul, .var, .str, .evt, .lnk, .hka, .hkb, .refOnAt, .cal, .mgt] ||| foot [.cfg, .flash, .free, .winAddrs, .srcs]) s (State.applyWhole s i v w wa) := by
  unfold State.applyWhole
  repeat' first
    | with_reducible assumption
    | with_reducible apply Keeps.refl
    | with_reducible apply Keeps.ite
    | (apply Keeps.step; with_reducible apply State.applyPart_keeps)
    | (with_reducible apply Keeps.forEach; intro _ _ _)
    | (with_reducible apply Keeps.foldl_fst; intro _ _ _)
    | (with_reducible apply Keeps.foldl_snd; intro _ _ _)
    | (with_reducible apply Keeps.foldl; intro _ _ _)
    | decide +kernel
    | exact sub_flt _ (by decide +kernel)
    | exact sub_eng _ (by decide +kernel)
    | exact sub_hk _ (by decide +kernel)
    | exact sub_port _ _ (by decide +kernel)
    | exact sub_win _ (by decide +kernel)
    | exact sub_any _ (by decide +kernel)
    | split

theorem State.applyHeld_keeps (s : State) (h : HeldWr) :
    Keeps (foot [.anyReg, .anyWin, .recTick, .timers, .hostQ, .fieldQ, .gap, .bar, .faults, .cou, .bru, .pal, .pwr, .col, .nul, .var, .str, .evt, .lnk, .hka, .hkb, .refOnAt, .cal, .mgt] ||| foot [.cfg, .flash, .free, .winAddrs, .srcs]) s (State.applyHeld s h) := by
  unfold State.applyHeld
  repeat' first
    | with_reducible assumption
    | with_reducible apply Keeps.refl
    | with_reducible apply Keeps.ite
    | (apply Keeps.step; with_reducible apply State.applyPart_keeps)
    | (with_reducible apply Keeps.forEach; intro _ _ _)
    | (with_reducible apply Keeps.foldl_fst; intro _ _ _)
    | (with_reducible apply Keeps.foldl_snd; intro _ _ _)
    | (with_reducible apply Keeps.foldl; intro _ _ _)
    | decide +kernel
    | exact sub_flt _ (by decide +kernel)
    | exact sub_eng _ (by decide +kernel)
    | exact sub_hk _ (by decide +kernel)
    | exact sub_port _ _ (by decide +kernel)
    | exact sub_win _ (by decide +kernel)
    | exact sub_any _ (by decide +kernel)
    | split

theorem State.writeReg_keeps (s : State) (m : Master) (i : Nat) (v : Word) :
    Keeps (foot [.anyReg, .anyWin, .recTick, .timers, .hostQ, .fieldQ, .held, .gap, .bar, .faults, .cou, .bru, .pal, .pwr, .col, .nul, .var, .str, .evt, .lnk, .hka, .hkb, .refOnAt, .cal] ||| foot [.mgt, .cfg, .flash, .free, .winAddrs, .srcs]) s (State.writeReg s m i v) := by
  unfold State.writeReg
  extract_lets a1 a2 a3
  try clear_value a1
  try clear_value a2
  have ha3 : Keeps (foot [.anyReg, .anyWin, .recTick, .timers, .hostQ, .fieldQ, .held, .gap, .bar, .faults, .cou, .bru, .pal, .pwr, .col, .nul, .var, .str, .evt, .lnk, .hka, .hkb, .refOnAt, .cal] ||| foot [.mgt, .cfg, .flash, .free, .winAddrs, .srcs]) s a3 := by
    unfold a3
    repeat' first
      | with_reducible assumption
      | with_reducible apply Keeps.refl
      | with_reducible apply Keeps.ite
      | (apply Keeps.step; with_reducible apply State.applyPart_keeps)
      | (apply Keeps.step; with_reducible apply State.holdParts_keeps)
      | (apply Keeps.step; with_reducible apply State.bumpAddr_keeps)
      | (with_reducible apply Keeps.forEach; intro _ _ _)
      | (with_reducible apply Keeps.foldl_fst; intro _ _ _)
      | (with_reducible apply Keeps.foldl_snd; intro _ _ _)
      | (with_reducible apply Keeps.foldl; intro _ _ _)
      | decide +kernel
      | exact sub_flt _ (by decide +kernel)
      | exact sub_eng _ (by decide +kernel)
      | exact sub_hk _ (by decide +kernel)
      | exact sub_port _ _ (by decide +kernel)
      | exact sub_win _ (by decide +kernel)
      | exact sub_any _ (by decide +kernel)
      | split
  try clear_value a3
  repeat' first
    | with_reducible assumption
    | with_reducible apply Keeps.refl
    | with_reducible apply Keeps.ite
    | (apply Keeps.step; with_reducible apply State.applyPart_keeps)
    | (apply Keeps.step; with_reducible apply State.holdParts_keeps)
    | (apply Keeps.step; with_reducible apply State.bumpAddr_keeps)
    | (with_reducible apply Keeps.forEach; intro _ _ _)
    | (with_reducible apply Keeps.foldl_fst; intro _ _ _)
    | (with_reducible apply Keeps.foldl_snd; intro _ _ _)
    | (with_reducible apply Keeps.foldl; intro _ _ _)
    | decide +kernel
    | exact sub_flt _ (by decide +kernel)
    | exact sub_eng _ (by decide +kernel)
    | exact sub_hk _ (by decide +kernel)
    | exact sub_port _ _ (by decide +kernel)
    | exact sub_win _ (by decide +kernel)
    | exact sub_any _ (by decide +kernel)
    | split

theorem State.launchCause_keeps (s : State) (i : Nat) (wa : Nat) :
    Keeps (foot [.cou, .bru]) s (State.launchCause s i wa) := by
  unfold State.launchCause
  extract_lets a1 a2
  try clear_value a1
  try clear_value a2
  repeat' first
    | with_reducible assumption
    | with_reducible apply Keeps.refl
    | with_reducible apply Keeps.ite
    | (apply Keeps.step; with_reducible apply State.cause_keeps)
    | (apply Keeps.step; with_reducible apply State.setEng_keeps)
    | (with_reducible apply Keeps.forEach; intro _ _ _)
    | (with_reducible apply Keeps.foldl_fst; intro _ _ _)
    | (with_reducible apply Keeps.foldl_snd; intro _ _ _)
    | (with_reducible apply Keeps.foldl; intro _ _ _)
    | decide +kernel
    | exact sub_flt _ (by decide +kernel)
    | exact sub_eng _ (by decide +kernel)
    | exact sub_hk _ (by decide +kernel)
    | exact sub_port _ _ (by decide +kernel)
    | exact sub_win _ (by decide +kernel)
    | exact sub_any _ (by decide +kernel)
    | split

theorem State.applyEntry_keeps (s0 : State) (e : LEntry) :
    Keeps (foot [.anyReg, .anyWin, .recTick, .timers, .hostQ, .fieldQ, .gap, .bar, .faults, .cou, .bru, .pal, .pwr, .col, .nul, .var, .str, .evt, .lnk, .hka, .hkb, .refOnAt, .cal, .mgt] ||| foot [.cfg, .flash, .free, .winAddrs, .srcs]) s0 (State.applyEntry s0 e) := by
  unfold State.applyEntry
  extract_lets a1 a2
  have ha1 : Keeps (foot [.anyReg, .anyWin, .recTick, .timers, .hostQ, .fieldQ, .gap, .bar, .faults, .cou, .bru, .pal, .pwr, .col, .nul, .var, .str, .evt, .lnk, .hka, .hkb, .refOnAt, .cal, .mgt] ||| foot [.cfg, .flash, .free, .winAddrs, .srcs]) s0 a1 := by
    unfold a1
    repeat' first
      | with_reducible assumption
      | with_reducible apply Keeps.refl
      | with_reducible apply Keeps.ite
      | (apply Keeps.step; with_reducible apply State.launchCause_keeps)
      | (apply Keeps.step; with_reducible apply State.bankSwap_keeps)
      | (apply Keeps.step; with_reducible apply State.hostSwitch_keeps)
      | (apply Keeps.step; with_reducible apply State.fieldSwitch_keeps)
      | (apply Keeps.step; with_reducible apply State.applyWhole_keeps)
      | (apply Keeps.step; with_reducible apply State.leftQueue_keeps)
      | (with_reducible apply Keeps.forEach; intro _ _ _)
      | (with_reducible apply Keeps.foldl_fst; intro _ _ _)
      | (with_reducible apply Keeps.foldl_snd; intro _ _ _)
      | (with_reducible apply Keeps.foldl; intro _ _ _)
      | decide +kernel
      | exact sub_flt _ (by decide +kernel)
      | exact sub_eng _ (by decide +kernel)
      | exact sub_hk _ (by decide +kernel)
      | exact sub_port _ _ (by decide +kernel)
      | exact sub_win _ (by decide +kernel)
      | exact sub_any _ (by decide +kernel)
      | split
  try clear_value a1
  have ha2 : Keeps (foot [.anyReg, .anyWin, .recTick, .timers, .hostQ, .fieldQ, .gap, .bar, .faults, .cou, .bru, .pal, .pwr, .col, .nul, .var, .str, .evt, .lnk, .hka, .hkb, .refOnAt, .cal, .mgt] ||| foot [.cfg, .flash, .free, .winAddrs, .srcs]) s0 a2 := by
    unfold a2
    repeat' first
      | with_reducible assumption
      | with_reducible apply Keeps.refl
      | with_reducible apply Keeps.ite
      | (apply Keeps.step; with_reducible apply State.launchCause_keeps)
      | (apply Keeps.step; with_reducible apply State.bankSwap_keeps)
      | (apply Keeps.step; with_reducible apply State.hostSwitch_keeps)
      | (apply Keeps.step; with_reducible apply State.fieldSwitch_keeps)
      | (apply Keeps.step; with_reducible apply State.applyWhole_keeps)
      | (apply Keeps.step; with_reducible apply State.leftQueue_keeps)
      | (with_reducible apply Keeps.forEach; intro _ _ _)
      | (with_reducible apply Keeps.foldl_fst; intro _ _ _)
      | (with_reducible apply Keeps.foldl_snd; intro _ _ _)
      | (with_reducible apply Keeps.foldl; intro _ _ _)
      | decide +kernel
      | exact sub_flt _ (by decide +kernel)
      | exact sub_eng _ (by decide +kernel)
      | exact sub_hk _ (by decide +kernel)
      | exact sub_port _ _ (by decide +kernel)
      | exact sub_win _ (by decide +kernel)
      | exact sub_any _ (by decide +kernel)
      | split
  try clear_value a2
  repeat' first
    | with_reducible assumption
    | with_reducible apply Keeps.refl
    | with_reducible apply Keeps.ite
    | (apply Keeps.step; with_reducible apply State.launchCause_keeps)
    | (apply Keeps.step; with_reducible apply State.bankSwap_keeps)
    | (apply Keeps.step; with_reducible apply State.hostSwitch_keeps)
    | (apply Keeps.step; with_reducible apply State.fieldSwitch_keeps)
    | (apply Keeps.step; with_reducible apply State.applyWhole_keeps)
    | (apply Keeps.step; with_reducible apply State.leftQueue_keeps)
    | (with_reducible apply Keeps.forEach; intro _ _ _)
    | (with_reducible apply Keeps.foldl_fst; intro _ _ _)
    | (with_reducible apply Keeps.foldl_snd; intro _ _ _)
    | (with_reducible apply Keeps.foldl; intro _ _ _)
    | decide +kernel
    | exact sub_flt _ (by decide +kernel)
    | exact sub_eng _ (by decide +kernel)
    | exact sub_hk _ (by decide +kernel)
    | exact sub_port _ _ (by decide +kernel)
    | exact sub_win _ (by decide +kernel)
    | exact sub_any _ (by decide +kernel)
    | split

end Sys2Proof.Machine
end

