-- ==== Sys2Proof/Laws/KeepsEngine.lean ====
section
/-!
SUPPORT. Footprints of the operations of Machine/Engine.lean: which parts of a state each can change.
-/
set_option Elab.async false
set_option linter.unusedTactic false
set_option linter.unreachableTactic false
namespace Sys2Proof.Machine

theorem State.result_keeps (s : State) (e : Eng) (m : Micro) (r : W24) (f : EFlags) :
    Keeps (foot [.reg (ENG_STATUS 0x600), .reg (ENG_STATUS 0x1B00), .anyWin]) s (State.result s e m r f) := by
  unfold State.result
  repeat' first
    | with_reducible assumption
    | with_reducible apply Keeps.refl
    | with_reducible apply Keeps.ite
    | (apply Keeps.step; with_reducible apply State.setFlags_keeps)
    | (apply Keeps.step; with_reducible apply State.setDest_keeps)
    | (with_reducible apply Keeps.forEach; intro _ _ _)
    | (with_reducible apply Keeps.foldl_fst; intro _ _ _)
    | (with_reducible apply Keeps.foldl_snd; intro _ _ _)
    | (with_reducible apply Keeps.foldl; intro _ _ _)
    | decide +kernel
    | exact sub_flt _ (by decide +kernel)
    | exact sub_eng _ (by decide +kernel)
    | exact sub_hk _ (by decide +kernel)
    | exact sub_port _ _ (by decide +kernel)
    | exact sub_win _ (by decide +kernel)
    | exact sub_any _ (by decide +kernel)
    | split

theorem State.setCtx_keeps (s : State) (e : Eng) (svc : Bool) (c : Option Ctx) :
    Keeps (foot [.reg (ENG_STATUS 0x600), .reg (ENG_STATUS 0x1B00), .cou, .bru]) s (State.setCtx s e svc c) := by
  unfold State.setCtx
  extract_lets a1
  try clear_value a1
  repeat' first
    | with_reducible assumption
    | with_reducible apply Keeps.refl
    | with_reducible apply Keeps.ite
    | (apply Keeps.step; with_reducible apply State.setBit_keeps)
    | (apply Keeps.step; with_reducible apply State.setEng_keeps)
    | (with_reducible apply Keeps.forEach; intro _ _ _)
    | (with_reducible apply Keeps.foldl_fst; intro _ _ _)
    | (with_reducible apply Keeps.foldl_snd; intro _ _ _)
    | (with_reducible apply Keeps.foldl; intro _ _ _)
    | decide +kernel
    | exact sub_eng _ (by decide +kernel)
    | exact sub_flt _ (by decide +kernel)
    | exact sub_hk _ (by decide +kernel)
    | exact sub_port _ _ (by decide +kernel)
    | exact sub_win _ (by decide +kernel)
    | exact sub_any _ (by decide +kernel)
    | split

theorem State.freeMain_keeps (s : State) (e : Eng) :
    Keeps (foot [.reg (ENG_STATUS 0x600), .reg (ENG_WAIT_COND 0x600), .reg (ENG_ROUTINE_ACTIVE 0x600), .reg (ENG_STATUS 0x1B00), .reg (ENG_WAIT_COND 0x1B00), .reg (ENG_ROUTINE_ACTIVE 0x1B00), .cou, .bru]) s (State.freeMain s e) := by
  unfold State.freeMain
  extract_lets a1 a2
  have ha2 : Keeps (foot [.reg (ENG_STATUS 0x600), .reg (ENG_WAIT_COND 0x600), .reg (ENG_ROUTINE_ACTIVE 0x600), .reg (ENG_STATUS 0x1B00), .reg (ENG_WAIT_COND 0x1B00), .reg (ENG_ROUTINE_ACTIVE 0x1B00), .cou, .bru]) s a2 := by
    unfold a2
    repeat' first
      | with_reducible assumption
      | with_reducible apply Keeps.refl
      | with_reducible apply Keeps.ite
      | (apply Keeps.step; with_reducible apply State.setCtx_keeps)
      | (apply Keeps.step; with_reducible apply State.setFld_keeps)
      | (apply Keeps.step; with_reducible apply State.setBit_keeps)
      | (with_reducible apply Keeps.forEach; intro _ _ _)
      | (with_reducible apply Keeps.foldl_fst; intro _ _ _)
      | (with_reducible apply Keeps.foldl_snd; intro _ _ _)
      | (with_reducible apply Keeps.foldl; intro _ _ _)
      | decide +kernel
      | exact sub_eng _ (by decide +kernel)
      | exact sub_flt _ (by decide +kernel)
      | exact sub_hk _ (by decide +kernel)
      | exact sub_port _ _ (by decide +kernel)
      | exact sub_win _ (by decide +kernel)
      | exact sub_any _ (by decide +kernel)
      | split
  try clear_value a2
  repeat' first
    | with_reducible assumption
    | with_reducible apply Keeps.refl
    | with_reducible apply Keeps.ite
    | (apply Keeps.step; with_reducible apply State.setCtx_keeps)
    | (apply Keeps.step; with_reducible apply State.setFld_keeps)
    | (apply Keeps.step; with_reducible apply State.setBit_keeps)
    | (with_reducible apply Keeps.forEach; intro _ _ _)
    | (with_reducible apply Keeps.foldl_fst; intro _ _ _)
    | (with_reducible apply Keeps.foldl_snd; intro _ _ _)
    | (with_reducible apply Keeps.foldl; intro _ _ _)
    | decide +kernel
    | exact sub_eng _ (by decide +kernel)
    | exact sub_flt _ (by decide +kernel)
    | exact sub_hk _ (by decide +kernel)
    | exact sub_port _ _ (by decide +kernel)
    | exact sub_win _ (by decide +kernel)
    | exact sub_any _ (by decide +kernel)
    | split

theorem State.mainEnd_keeps (s : State) (e : Eng) :
    Keeps (foot [.reg (ENG_STATUS 0x600), .reg (ENG_WAIT_COND 0x600), .reg (ENG_ROUTINE_ACTIVE 0x600), .reg (ENG_STATUS 0x1B00), .reg (ENG_WAIT_COND 0x1B00), .reg (ENG_ROUTINE_ACTIVE 0x1B00), .cou, .bru]) s (State.mainEnd s e) := by
  unfold State.mainEnd
  extract_lets a1 a2
  try clear_value a2
  repeat' first
    | with_reducible assumption
    | with_reducible apply Keeps.refl
    | with_reducible apply Keeps.ite
    | (apply Keeps.step; with_reducible apply State.setEng_keeps)
    | (apply Keeps.step; with_reducible apply State.setFld_keeps)
    | (apply Keeps.step; with_reducible apply State.freeMain_keeps)
    | (with_reducible apply Keeps.forEach; intro _ _ _)
    | (with_reducible apply Keeps.foldl_fst; intro _ _ _)
    | (with_reducible apply Keeps.foldl_snd; intro _ _ _)
    | (with_reducible apply Keeps.foldl; intro _ _ _)
    | decide +kernel
    | exact sub_eng _ (by decide +kernel)
    | exact sub_flt _ (by decide +kernel)
    | exact sub_hk _ (by decide +kernel)
    | exact sub_port _ _ (by decide +kernel)
    | exact sub_win _ (by decide +kernel)
    | exact sub_any _ (by decide +kernel)
    | split

theorem State.ctxEnd_keeps (s : State) (e : Eng) (svc : Bool) :
    Keeps (foot [.reg (ENG_STATUS 0x600), .reg (ENG_WAIT_COND 0x600), .reg (ENG_ROUTINE_ACTIVE 0x600), .reg (ENG_STATUS 0x1B00), .reg (ENG_WAIT_COND 0x1B00), .reg (ENG_ROUTINE_ACTIVE 0x1B00), .cou, .bru]) s (State.ctxEnd s e svc) := by
  unfold State.ctxEnd
  repeat' first
    | with_reducible assumption
    | with_reducible apply Keeps.refl
    | with_reducible apply Keeps.ite
    | (apply Keeps.step; with_reducible apply State.setCtx_keeps)
    | (apply Keeps.step; with_reducible apply State.mainEnd_keeps)
    | (with_reducible apply Keeps.forEach; intro _ _ _)
    | (with_reducible apply Keeps.foldl_fst; intro _ _ _)
    | (with_reducible apply Keeps.foldl_snd; intro _ _ _)
    | (with_reducible apply Keeps.foldl; intro _ _ _)
    | decide +kernel
    | exact sub_flt _ (by decide +kernel)
    | exact sub_eng _ (by decide +kernel)
    | exact sub_hk _ (by decide +kernel)
    | exact sub_port _ _ (by decide +kernel)
    | exact sub_win _ (by decide +kernel)
    | exact sub_any _ (by decide +kernel)
    | split

theorem State.guardEnd_keeps (s : State) (e : Eng) (svc : Bool) (source : Nat) :
    Keeps (foot [.reg GLB_DETERMINISM, .reg LNK_DEADLETTER_COUNT, .reg (ENG_STATUS 0x600), .reg (ENG_WAIT_COND 0x600), .reg (ENG_ROUTINE_ACTIVE 0x600), .reg (ENG_STATUS 0x1B00), .reg (ENG_WAIT_COND 0x1B00), .reg (ENG_ROUTINE_ACTIVE 0x1B00), .flt, .win .lnk, .recTick, .bar, .faults, .cou, .bru, .lnk, .free, .srcs]) s (State.guardEnd s e svc source) := by
  unfold State.guardEnd
  repeat' first
    | with_reducible assumption
    | with_reducible apply Keeps.refl
    | with_reducible apply Keeps.ite
    | (apply Keeps.step; with_reducible apply State.ctxEnd_keeps)
    | (apply Keeps.step; with_reducible apply State.raise_keeps)
    | (apply Keeps.step; with_reducible apply State.setBit_keeps)
    | (with_reducible apply Keeps.forEach; intro _ _ _)
    | (with_reducible apply Keeps.foldl_fst; intro _ _ _)
    | (with_reducible apply Keeps.foldl_snd; intro _ _ _)
    | (with_reducible apply Keeps.foldl; intro _ _ _)
    | decide +kernel
    | exact sub_eng _ (by decide +kernel)
    | exact sub_flt _ (by decide +kernel)
    | exact sub_hk _ (by decide +kernel)
    | exact sub_port _ _ (by decide +kernel)
    | exact sub_win _ (by decide +kernel)
    | exact sub_any _ (by decide +kernel)
    | split

theorem State.engLoad_keeps (s : State) (e : Eng) (svc : Bool) (m : Micro) (a : W24) :
    Keeps (foot [.reg GLB_DETERMINISM, .reg LNK_DEADLETTER_COUNT, .reg (ENG_STATUS 0x600), .reg (ENG_WAIT_COND 0x600), .reg (ENG_ROUTINE_ACTIVE 0x600), .reg (ENG_STATUS 0x1B00), .reg (ENG_WAIT_COND 0x1B00), .reg (ENG_ROUTINE_ACTIVE 0x1B00), .flt, .anyWin, .recTick, .bar, .faults, .cou, .bru, .lnk, .free, .srcs]) s (State.engLoad s e svc m a) := by
  unfold State.engLoad
  extract_lets a1 a2 a3 a4
  try clear_value a1
  try clear_value a2
  try clear_value a3
  have ha4 : Keeps (foot [.reg GLB_DETERMINISM, .reg LNK_DEADLETTER_COUNT, .reg (ENG_STATUS 0x600), .reg (ENG_WAIT_COND 0x600), .reg (ENG_ROUTINE_ACTIVE 0x600), .reg (ENG_STATUS 0x1B00), .reg (ENG_WAIT_COND 0x1B00), .reg (ENG_ROUTINE_ACTIVE 0x1B00), .flt, .anyWin, .recTick, .bar, .faults, .cou, .bru, .lnk, .free, .srcs]) s a4 := by
    unfold a4
    repeat' first
      | with_reducible assumption
      | with_reducible apply Keeps.refl
      | with_reducible apply Keeps.ite
      | (apply Keeps.step; with_reducible apply State.injectDone_keeps)
      | (apply Keeps.step; with_reducible apply State.guardEnd_keeps)
      | (apply Keeps.step; with_reducible apply State.result_keeps)
      | (apply Keeps.step; with_reducible apply State.raise_keeps)
      | (with_reducible apply Keeps.forEach; intro _ _ _)
      | (with_reducible apply Keeps.foldl_fst; intro _ _ _)
      | (with_reducible apply Keeps.foldl_snd; intro _ _ _)
      | (with_reducible apply Keeps.foldl; intro _ _ _)
      | decide +kernel
      | exact sub_flt _ (by decide +kernel)
      | exact sub_eng _ (by decide +kernel)
      | exact sub_hk _ (by decide +kernel)
      | exact sub_port _ _ (by decide +kernel)
      | exact sub_win _ (by decide +kernel)
      | exact sub_any _ (by decide +kernel)
      | split
  try clear_value a4
  repeat' first
    | with_reducible assumption
    | with_reducible apply Keeps.refl
    | with_reducible apply Keeps.ite
    | (apply Keeps.step; with_reducible apply State.injectDone_keeps)
    | (apply Keeps.step; with_reducible apply State.guardEnd_keeps)
    | (apply Keeps.step; with_reducible apply State.result_keeps)
    | (apply Keeps.step; with_reducible apply State.raise_keeps)
    | (with_reducible apply Keeps.forEach; intro _ _ _)
    | (with_reducible apply Keeps.foldl_fst; intro _ _ _)
    | (with_reducible apply Keeps.foldl_snd; intro _ _ _)
    | (with_reducible apply Keeps.foldl; intro _ _ _)
    | decide +kernel
    | exact sub_flt _ (by decide +kernel)
    | exact sub_eng _ (by decide +kernel)
    | exact sub_hk _ (by decide +kernel)
    | exact sub_port _ _ (by decide +kernel)
    | exact sub_win _ (by decide +kernel)
    | exact sub_any _ (by decide +kernel)
    | split

theorem State.engStore_keeps (s : State) (e : Eng) (svc : Bool) (a : W24) (b : W24) (imm : W24) :
    Keeps (foot [.reg GLB_DETERMINISM, .reg LNK_DEADLETTER_COUNT, .reg (ENG_STATUS 0x600), .reg (ENG_STATUS 0x1B00), .flt, .anyWin, .recTick, .bar, .faults, .cou, .bru, .lnk, .free, .srcs]) s (State.engStore s e svc a b imm) := by
  unfold State.engStore
  extract_lets a1 a2
  try clear_value a1
  try clear_value a2
  repeat' first
    | with_reducible assumption
    | with_reducible apply Keeps.refl
    | with_reducible apply Keeps.ite
    | (apply Keeps.step; with_reducible apply State.raiseWith_keeps)
    | (apply Keeps.step; with_reducible apply State.setBit_keeps)
    | (apply Keeps.step; with_reducible apply State.setWin_keeps)
    | (with_reducible apply Keeps.forEach; intro _ _ _)
    | (with_reducible apply Keeps.foldl_fst; intro _ _ _)
    | (with_reducible apply Keeps.foldl_snd; intro _ _ _)
    | (with_reducible apply Keeps.foldl; intro _ _ _)
    | decide +kernel
    | exact sub_eng _ (by decide +kernel)
    | exact sub_flt _ (by decide +kernel)
    | exact sub_hk _ (by decide +kernel)
    | exact sub_port _ _ (by decide +kernel)
    | exact sub_win _ (by decide +kernel)
    | exact sub_any _ (by decide +kernel)
    | split

theorem State.readDone_keeps (s : State) (e : Eng) (m : Micro) (v : Word) :
    Keeps (foot [.reg (ENG_STATUS 0x600), .reg (ENG_STATUS 0x1B00), .anyWin]) s (State.readDone s e m v) := by
  unfold State.readDone
  extract_lets a1
  try clear_value a1
  repeat' first
    | with_reducible assumption
    | with_reducible apply Keeps.refl
    | with_reducible apply Keeps.ite
    | (apply Keeps.step; with_reducible apply State.result_keeps)
    | (apply Keeps.step; with_reducible apply State.setEreg_keeps)
    | (with_reducible apply Keeps.forEach; intro _ _ _)
    | (with_reducible apply Keeps.foldl_fst; intro _ _ _)
    | (with_reducible apply Keeps.foldl_snd; intro _ _ _)
    | (with_reducible apply Keeps.foldl; intro _ _ _)
    | decide +kernel
    | exact sub_flt _ (by decide +kernel)
    | exact sub_eng _ (by decide +kernel)
    | exact sub_hk _ (by decide +kernel)
    | exact sub_port _ _ (by decide +kernel)
    | exact sub_win _ (by decide +kernel)
    | exact sub_any _ (by decide +kernel)
    | split

theorem State.rdreg_keeps (s : State) (e : Eng) (svc : Bool) (m : Micro) (i : Nat) :
    Keeps (foot [.anyReg, .anyWin, .recTick, .tm, .bar, .faults, .cou, .bru, .nul, .var, .evt, .lnk, .free, .winAddrs, .srcs]) s (State.rdreg s e svc m i) := by
  unfold State.rdreg
  extract_lets a1 a2
  have ha1 : Keeps (foot [.anyReg, .anyWin, .recTick, .tm, .bar, .faults, .cou, .bru, .nul, .var, .evt, .lnk, .free, .winAddrs, .srcs]) s a1 := by
    unfold a1
    repeat' first
      | with_reducible assumption
      | with_reducible apply Keeps.refl
      | with_reducible apply Keeps.ite
      | (apply Keeps.step; with_reducible apply State.readDone_keeps)
      | (apply Keeps.step; with_reducible apply State.setBit_keeps)
      | (apply Keeps.step; with_reducible apply State.sendRead_keeps)
      | (apply Keeps.step; with_reducible apply State.setCtx_keeps)
      | (apply Keeps.step; with_reducible apply State.readReg_keeps)
      | (with_reducible apply Keeps.forEach; intro _ _ _)
      | (with_reducible apply Keeps.foldl_fst; intro _ _ _)
      | (with_reducible apply Keeps.foldl_snd; intro _ _ _)
      | (with_reducible apply Keeps.foldl; intro _ _ _)
      | decide +kernel
      | exact sub_eng _ (by decide +kernel)
      | exact sub_flt _ (by decide +kernel)
      | exact sub_hk _ (by decide +kernel)
      | exact sub_port _ _ (by decide +kernel)
      | exact sub_win _ (by decide +kernel)
      | exact sub_any _ (by decide +kernel)
      | split
  try clear_value a1
  have ha2 : Keeps (foot [.anyReg, .anyWin, .recTick, .tm, .bar, .faults, .cou, .bru, .nul, .var, .evt, .lnk, .free, .winAddrs, .srcs]) s a2.2 := by
    unfold a2
    repeat' first
      | with_reducible assumption
      | with_reducible apply Keeps.refl
      | with_reducible apply Keeps.ite
      | (apply Keeps.step; with_reducible apply State.readDone_keeps)
      | (apply Keeps.step; with_reducible apply State.setBit_keeps)
      | (apply Keeps.step; with_reducible apply State.sendRead_keeps)
      | (apply Keeps.step; with_reducible apply State.setCtx_keeps)
      | (apply Keeps.step; with_reducible apply State.readReg_keeps)
      | (with_reducible apply Keeps.forEach; intro _ _ _)
      | (with_reducible apply Keeps.foldl_fst; intro _ _ _)
      | (with_reducible apply Keeps.foldl_snd; intro _ _ _)
      | (with_reducible apply Keeps.foldl; intro _ _ _)
      | decide +kernel
      | exact sub_eng _ (by decide +kernel)
      | exact sub_flt _ (by decide +kernel)
      | exact sub_hk _ (by decide +kernel)
      | exact sub_port _ _ (by decide +kernel)
      | exact sub_win _ (by decide +kernel)
      | exact sub_any _ (by decide +kernel)
      | split
  try clear_value a2
  repeat' first
    | with_reducible assumption
    | with_reducible apply Keeps.refl
    | with_reducible apply Keeps.ite
    | (apply Keeps.step; with_reducible apply State.readDone_keeps)
    | (apply Keeps.step; with_reducible apply State.setBit_keeps)
    | (apply Keeps.step; with_reducible apply State.sendRead_keeps)
    | (apply Keeps.step; with_reducible apply State.setCtx_keeps)
    | (apply Keeps.step; with_reducible apply State.readReg_keeps)
    | (with_reducible apply Keeps.forEach; intro _ _ _)
    | (with_reducible apply Keeps.foldl_fst; intro _ _ _)
    | (with_reducible apply Keeps.foldl_snd; intro _ _ _)
    | (with_reducible apply Keeps.foldl; intro _ _ _)
    | decide +kernel
    | exact sub_eng _ (by decide +kernel)
    | exact sub_flt _ (by decide +kernel)
    | exact sub_hk _ (by decide +kernel)
    | exact sub_port _ _ (by decide +kernel)
    | exact sub_win _ (by decide +kernel)
    | exact sub_any _ (by decide +kernel)
    | split

theorem State.countLaunch_keeps (s : State) (e : Eng) :
    Keeps (foot [.cou, .bru]) s (State.countLaunch s e) := by
  unfold State.countLaunch
  extract_lets a1
  try clear_value a1
  repeat' first
    | with_reducible assumption
    | with_reducible apply Keeps.refl
    | with_reducible apply Keeps.ite
    | (apply Keeps.step; with_reducible apply State.setEng_keeps)
    | (with_reducible apply Keeps.forEach; intro _ _ _)
    | (with_reducible apply Keeps.foldl_fst; intro _ _ _)
    | (with_reducible apply Keeps.foldl_snd; intro _ _ _)
    | (with_reducible apply Keeps.foldl; intro _ _ _)
    | decide +kernel
    | exact sub_flt _ (by decide +kernel)
    | exact sub_eng _ (by decide +kernel)
    | exact sub_hk _ (by decide +kernel)
    | exact sub_port _ _ (by decide +kernel)
    | exact sub_win _ (by decide +kernel)
    | exact sub_any _ (by decide +kernel)
    | split

theorem State.launchedBy_keeps (s : State) (e : Eng) (code : Nat) :
    Keeps (foot [.reg (ENG_STATUS 0x600), .reg (ENG_STATUS 0x1B00), .cou, .bru]) s (State.launchedBy s e code) := by
  unfold State.launchedBy
  repeat' first
    | with_reducible assumption
    | with_reducible apply Keeps.refl
    | with_reducible apply Keeps.ite
    | (apply Keeps.step; with_reducible apply State.note_keeps)
    | (apply Keeps.step; with_reducible apply State.setBit_keeps)
    | (with_reducible apply Keeps.forEach; intro _ _ _)
    | (with_reducible apply Keeps.foldl_fst; intro _ _ _)
    | (with_reducible apply Keeps.foldl_snd; intro _ _ _)
    | (with_reducible apply Keeps.foldl; intro _ _ _)
    | decide +kernel
    | exact sub_eng _ (by decide +kernel)
    | exact sub_flt _ (by decide +kernel)
    | exact sub_hk _ (by decide +kernel)
    | exact sub_port _ _ (by decide +kernel)
    | exact sub_win _ (by decide +kernel)
    | exact sub_any _ (by decide +kernel)
    | split

theorem State.engOut_keeps (s : State) (e : Eng) (i : Nat) (v : Word) (launch : Option PM) :
    Keeps (foot [.anyReg, .anyWin, .recTick, .timers, .hostQ, .fieldQ, .held, .gap, .bar, .faults, .cou, .bru, .pal, .pwr, .col, .nul, .var, .str, .evt, .lnk, .hka, .hkb, .refOnAt, .cal] ||| foot [.mgt, .cfg, .flash, .free, .winAddrs, .srcs]) s (State.engOut s e i v launch) := by
  unfold State.engOut
  extract_lets a1 a2 a3
  try clear_value a1
  have ha2 : Keeps (foot [.anyReg, .anyWin, .recTick, .timers, .hostQ, .fieldQ, .held, .gap, .bar, .faults, .cou, .bru, .pal, .pwr, .col, .nul, .var, .str, .evt, .lnk, .hka, .hkb, .refOnAt, .cal] ||| foot [.mgt, .cfg, .flash, .free, .winAddrs, .srcs]) s a2 := by
    unfold a2
    repeat' first
      | with_reducible assumption
      | with_reducible apply Keeps.refl
      | with_reducible apply Keeps.ite
      | (apply Keeps.step; with_reducible apply State.setBit_keeps)
      | (apply Keeps.step; with_reducible apply State.countLaunch_keeps)
      | (apply Keeps.step; with_reducible apply State.sendWrite_keeps)
      | (apply Keeps.step; with_reducible apply State.launchReg_keeps)
      | (apply Keeps.step; with_reducible apply State.launchedBy_keeps)
      | (apply Keeps.step; with_reducible apply State.writeReg_keeps)
      | (with_reducible apply Keeps.forEach; intro _ _ _)
      | (with_reducible apply Keeps.foldl_fst; intro _ _ _)
      | (with_reducible apply Keeps.foldl_snd; intro _ _ _)
      | (with_reducible apply Keeps.foldl; intro _ _ _)
      | decide +kernel
      | exact sub_eng _ (by decide +kernel)
      | exact sub_flt _ (by decide +kernel)
      | exact sub_hk _ (by decide +kernel)
      | exact sub_port _ _ (by decide +kernel)
      | exact sub_win _ (by decide +kernel)
      | exact sub_any _ (by decide +kernel)
      | split
  try clear_value a2
  try clear_value a3
  repeat' first
    | with_reducible assumption
    | with_reducible apply Keeps.refl
    | with_reducible apply Keeps.ite
    | (apply Keeps.step; with_reducible apply State.setBit_keeps)
    | (apply Keeps.step; with_reducible apply State.countLaunch_keeps)
    | (apply Keeps.step; with_reducible apply State.sendWrite_keeps)
    | (apply Keeps.step; with_reducible apply State.launchReg_keeps)
    | (apply Keeps.step; with_reducible apply State.launchedBy_keeps)
    | (apply Keeps.step; with_reducible apply State.writeReg_keeps)
    | (with_reducible apply Keeps.forEach; intro _ _ _)
    | (with_reducible apply Keeps.foldl_fst; intro _ _ _)
    | (with_reducible apply Keeps.foldl_snd; intro _ _ _)
    | (with_reducible apply Keeps.foldl; intro _ _ _)
    | decide +kernel
    | exact sub_eng _ (by decide +kernel)
    | exact sub_flt _ (by decide +kernel)
    | exact sub_hk _ (by decide +kernel)
    | exact sub_port _ _ (by decide +kernel)
    | exact sub_win _ (by decide +kernel)
    | exact sub_any _ (by decide +kernel)
    | split

theorem State.excurse_keeps (s : State) (e : Eng) (i : Nat) (v : Word) :
    Keeps (foot [.anyReg, .anyWin, .recTick, .timers, .hostQ, .fieldQ, .held, .gap, .bar, .faults, .cou, .bru, .pal, .pwr, .col, .nul, .var, .str, .evt, .lnk, .hka, .hkb, .refOnAt, .cal] ||| foot [.mgt, .cfg, .flash, .free, .winAddrs, .srcs]) s (State.excurse s e i v) := by
  unfold State.excurse
  extract_lets a1 a2 a3 a4 a5
  try clear_value a2
  try clear_value a3
  have ha4 : Keeps (foot [.anyReg, .anyWin, .recTick, .timers, .hostQ, .fieldQ, .held, .gap, .bar, .faults, .cou, .bru, .pal, .pwr, .col, .nul, .var, .str, .evt, .lnk, .hka, .hkb, .refOnAt, .cal] ||| foot [.mgt, .cfg, .flash, .free, .winAddrs, .srcs]) s a4 := by
    unfold a4
    repeat' first
      | with_reducible assumption
      | with_reducible apply Keeps.refl
      | with_reducible apply Keeps.ite
      | (apply Keeps.step; with_reducible apply State.guardEnd_keeps)
      | (apply Keeps.step; with_reducible apply State.setBit_keeps)
      | (apply Keeps.step; with_reducible apply State.setEng_keeps)
      | (apply Keeps.step; with_reducible apply State.setFld_keeps)
      | (apply Keeps.step; with_reducible apply State.engOut_keeps)
      | (with_reducible apply Keeps.forEach; intro _ _ _)
      | (with_reducible apply Keeps.foldl_fst; intro _ _ _)
      | (with_reducible apply Keeps.foldl_snd; intro _ _ _)
      | (with_reducible apply Keeps.foldl; intro _ _ _)
      | decide +kernel
      | exact sub_eng _ (by decide +kernel)
      | exact sub_flt _ (by decide +kernel)
      | exact sub_hk _ (by decide +kernel)
      | exact sub_port _ _ (by decide +kernel)
      | exact sub_win _ (by decide +kernel)
      | exact sub_any _ (by decide +kernel)
      | split
  try clear_value a4
  have ha5 : Keeps (foot [.anyReg, .anyWin, .recTick, .timers, .hostQ, .fieldQ, .held, .gap, .bar, .faults, .cou, .bru, .pal, .pwr, .col, .nul, .var, .str, .evt, .lnk, .hka, .hkb, .refOnAt, .cal] ||| foot [.mgt, .cfg, .flash, .free, .winAddrs, .srcs]) s a5 := by
    unfold a5
    repeat' first
      | with_reducible assumption
      | with_reducible apply Keeps.refl
      | with_reducible apply Keeps.ite
      | (apply Keeps.step; with_reducible apply State.guardEnd_keeps)
      | (apply Keeps.step; with_reducible apply State.setBit_keeps)
      | (apply Keeps.step; with_reducible apply State.setEng_keeps)
      | (apply Keeps.step; with_reducible apply State.setFld_keeps)
      | (apply Keeps.step; with_reducible apply State.engOut_keeps)
      | (with_reducible apply Keeps.forEach; intro _ _ _)
      | (with_reducible apply Keeps.foldl_fst; intro _ _ _)
      | (with_reducible apply Keeps.foldl_snd; intro _ _ _)
      | (with_reducible apply Keeps.foldl; intro _ _ _)
      | decide +kernel
      | exact sub_eng _ (by decide +kernel)
      | exact sub_flt _ (by decide +kernel)
      | exact sub_hk _ (by decide +kernel)
      | exact sub_port _ _ (by decide +kernel)
      | exact sub_win _ (by decide +kernel)
      | exact sub_any _ (by decide +kernel)
      | split
  try clear_value a5
  repeat' first
    | with_reducible assumption
    | with_reducible apply Keeps.refl
    | with_reducible apply Keeps.ite
    | (apply Keeps.step; with_reducible apply State.guardEnd_keeps)
    | (apply Keeps.step; with_reducible apply State.setBit_keeps)
    | (apply Keeps.step; with_reducible apply State.setEng_keeps)
    | (apply Keeps.step; with_reducible apply State.setFld_keeps)
    | (apply Keeps.step; with_reducible apply State.engOut_keeps)
    | (with_reducible apply Keeps.forEach; intro _ _ _)
    | (with_reducible apply Keeps.foldl_fst; intro _ _ _)
    | (with_reducible apply Keeps.foldl_snd; intro _ _ _)
    | (with_reducible apply Keeps.foldl; intro _ _ _)
    | decide +kernel
    | exact sub_eng _ (by decide +kernel)
    | exact sub_flt _ (by decide +kernel)
    | exact sub_hk _ (by decide +kernel)
    | exact sub_port _ _ (by decide +kernel)
    | exact sub_win _ (by decide +kernel)
    | exact sub_any _ (by decide +kernel)
    | split

theorem State.stage_keeps (s : State) (e : Eng) (i : Nat) (v : Word) (launch : Option PM) :
    Keeps (foot [.reg GLB_DETERMINISM, .reg LNK_DEADLETTER_COUNT, .reg (ENG_STATUS 0x600), .reg (ENG_WAIT_COND 0x600), .reg (ENG_ROUTINE_ACTIVE 0x600), .reg (ENG_STAGE_DEPTH 0x600), .reg (ENG_STATUS 0x1B00), .reg (ENG_WAIT_COND 0x1B00), .reg (ENG_ROUTINE_ACTIVE 0x1B00), .reg (ENG_STAGE_DEPTH 0x1B00), .flt, .win .lnk, .recTick, .bar, .faults, .cou, .bru, .lnk, .free, .winAddrs, .srcs]) s (State.stage s e i v launch) := by
  unfold State.stage
  extract_lets a1 a2 a3
  try clear_value a2
  have ha3 : Keeps (foot [.reg GLB_DETERMINISM, .reg LNK_DEADLETTER_COUNT, .reg (ENG_STATUS 0x600), .reg (ENG_WAIT_COND 0x600), .reg (ENG_ROUTINE_ACTIVE 0x600), .reg (ENG_STAGE_DEPTH 0x600), .reg (ENG_STATUS 0x1B00), .reg (ENG_WAIT_COND 0x1B00), .reg (ENG_ROUTINE_ACTIVE 0x1B00), .reg (ENG_STAGE_DEPTH 0x1B00), .flt, .win .lnk, .recTick, .bar, .faults, .cou, .bru, .lnk, .free, .winAddrs, .srcs]) s a3 := by
    unfold a3
    repeat' first
      | with_reducible assumption
      | with_reducible apply Keeps.refl
      | with_reducible apply Keeps.ite
      | (apply Keeps.step; with_reducible apply State.guardEnd_keeps)
      | (apply Keeps.step; with_reducible apply State.setBit_keeps)
      | (apply Keeps.step; with_reducible apply State.bumpAddr_keeps)
      | (apply Keeps.step; with_reducible apply State.setEng_keeps)
      | (apply Keeps.step; with_reducible apply State.setFld_keeps)
      | (with_reducible apply Keeps.forEach; intro _ _ _)
      | (with_reducible apply Keeps.foldl_fst; intro _ _ _)
      | (with_reducible apply Keeps.foldl_snd; intro _ _ _)
      | (with_reducible apply Keeps.foldl; intro _ _ _)
      | decide +kernel
      | exact sub_eng _ (by decide +kernel)
      | exact sub_flt _ (by decide +kernel)
      | exact sub_hk _ (by decide +kernel)
      | exact sub_port _ _ (by decide +kernel)
      | exact sub_win _ (by decide +kernel)
      | exact sub_any _ (by decide +kernel)
      | split
  try clear_value a3
  repeat' first
    | with_reducible assumption
    | with_reducible apply Keeps.refl
    | with_reducible apply Keeps.ite
    | (apply Keeps.step; with_reducible apply State.guardEnd_keeps)
    | (apply Keeps.step; with_reducible apply State.setBit_keeps)
    | (apply Keeps.step; with_reducible apply State.bumpAddr_keeps)
    | (apply Keeps.step; with_reducible apply State.setEng_keeps)
    | (apply Keeps.step; with_reducible apply State.setFld_keeps)
    | (with_reducible apply Keeps.forEach; intro _ _ _)
    | (with_reducible apply Keeps.foldl_fst; intro _ _ _)
    | (with_reducible apply Keeps.foldl_snd; intro _ _ _)
    | (with_reducible apply Keeps.foldl; intro _ _ _)
    | decide +kernel
    | exact sub_eng _ (by decide +kernel)
    | exact sub_flt _ (by decide +kernel)
    | exact sub_hk _ (by decide +kernel)
    | exact sub_port _ _ (by decide +kernel)
    | exact sub_win _ (by decide +kernel)
    | exact sub_any _ (by decide +kernel)
    | split

theorem State.wrreg_keeps (s : State) (e : Eng) (svc : Bool) (m : Micro) (i : Nat) (v : Word) :
    Keeps (foot [.anyReg, .anyWin, .recTick, .timers, .hostQ, .fieldQ, .held, .gap, .bar, .faults, .cou, .bru, .pal, .pwr, .col, .nul, .var, .str, .evt, .lnk, .hka, .hkb, .refOnAt, .cal] ||| foot [.mgt, .cfg, .flash, .free, .winAddrs, .srcs]) s (State.wrreg s e svc m i v) := by
  unfold State.wrreg
  extract_lets a1 a2
  try clear_value a1
  try clear_value a2
  repeat' first
    | with_reducible assumption
    | with_reducible apply Keeps.refl
    | with_reducible apply Keeps.ite
    | (apply Keeps.step; with_reducible apply State.setBit_keeps)
    | (apply Keeps.step; with_reducible apply State.engOut_keeps)
    | (apply Keeps.step; with_reducible apply State.excurse_keeps)
    | (apply Keeps.step; with_reducible apply State.stage_keeps)
    | (with_reducible apply Keeps.forEach; intro _ _ _)
    | (with_reducible apply Keeps.foldl_fst; intro _ _ _)
    | (with_reducible apply Keeps.foldl_snd; intro _ _ _)
    | (with_reducible apply Keeps.foldl; intro _ _ _)
    | decide +kernel
    | exact sub_eng _ (by decide +kernel)
    | exact sub_flt _ (by decide +kernel)
    | exact sub_hk _ (by decide +kernel)
    | exact sub_port _ _ (by decide +kernel)
    | exact sub_win _ (by decide +kernel)
    | exact sub_any _ (by decide +kernel)
    | split

theorem State.microOp_keeps (s : State) (e : Eng) (svc : Bool) (op : MOp) (m : Micro) :
    Keeps (foot [.anyReg, .anyWin, .recTick, .timers, .hostQ, .fieldQ, .held, .gap, .tm, .bar, .faults, .cou, .bru, .pal, .pwr, .col, .nul, .var, .str, .evt, .lnk, .hka, .hkb, .refOnAt] ||| foot [.cal, .mgt, .cfg, .flash, .free, .winAddrs, .srcs]) s (State.microOp s e svc op m) := by
  unfold State.microOp
  extract_lets a1 a2 a3 a4
  try clear_value a1
  try clear_value a2
  have ha3 : ∀ x0, Keeps (foot [.anyReg, .anyWin, .recTick, .timers, .hostQ, .fieldQ, .held, .gap, .tm, .bar, .faults, .cou, .bru, .pal, .pwr, .col, .nul, .var, .str, .evt, .lnk, .hka, .hkb, .refOnAt] ||| foot [.cal, .mgt, .cfg, .flash, .free, .winAddrs, .srcs]) s (a3 x0) := by
    intro x0
    dsimp only [a3]
    repeat' first
      | with_reducible assumption
      | with_reducible apply Keeps.refl
      | with_reducible apply Keeps.ite
      | (apply Keeps.step; with_reducible apply State.result_keeps)
      | (apply Keeps.step; with_reducible apply State.setFlags_keeps)
      | (apply Keeps.step; with_reducible apply State.engLoad_keeps)
      | (apply Keeps.step; with_reducible apply State.engStore_keeps)
      | (apply Keeps.step; with_reducible apply State.rdreg_keeps)
      | (apply Keeps.step; with_reducible apply State.wrreg_keeps)
      | (apply Keeps.step; with_reducible apply State.setEreg_keeps)
      | (apply Keeps.step; with_reducible apply State.request_keeps)
      | (apply Keeps.step; with_reducible apply State.guardEnd_keeps)
      | (apply Keeps.step; with_reducible apply State.setEng_keeps)
      | (apply Keeps.step; with_reducible apply State.ctxEnd_keeps)
      | (with_reducible apply Keeps.forEach; intro _ _ _)
      | (with_reducible apply Keeps.foldl_fst; intro _ _ _)
      | (with_reducible apply Keeps.foldl_snd; intro _ _ _)
      | (with_reducible apply Keeps.foldl; intro _ _ _)
      | decide +kernel
      | exact sub_flt _ (by decide +kernel)
      | exact sub_eng _ (by decide +kernel)
      | exact sub_hk _ (by decide +kernel)
      | exact sub_port _ _ (by decide +kernel)
      | exact sub_win _ (by decide +kernel)
      | exact sub_any _ (by decide +kernel)
      | split
  try clear_value a3
  try clear_value a4
  repeat' first
    | with_reducible assumption
    | with_reducible apply Keeps.refl
    | with_reducible apply ha3
    | with_reducible apply Keeps.ite
    | (apply Keeps.step; with_reducible apply State.result_keeps)
    | (apply Keeps.step; with_reducible apply State.setFlags_keeps)
    | (apply Keeps.step; with_reducible apply State.engLoad_keeps)
    | (apply Keeps.step; with_reducible apply State.engStore_keeps)
    | (apply Keeps.step; with_reducible apply State.rdreg_keeps)
    | (apply Keeps.step; with_reducible apply State.wrreg_keeps)
    | (apply Keeps.step; with_reducible apply State.setEreg_keeps)
    | (apply Keeps.step; with_reducible apply State.request_keeps)
    | (apply Keeps.step; with_reducible apply State.guardEnd_keeps)
    | (apply Keeps.step; with_reducible apply State.setEng_keeps)
    | (apply Keeps.step; with_reducible apply State.ctxEnd_keeps)
    | (with_reducible apply Keeps.forEach; intro _ _ _)
    | (with_reducible apply Keeps.foldl_fst; intro _ _ _)
    | (with_reducible apply Keeps.foldl_snd; intro _ _ _)
    | (with_reducible apply Keeps.foldl; intro _ _ _)
    | decide +kernel
    | exact sub_flt _ (by decide +kernel)
    | exact sub_eng _ (by decide +kernel)
    | exact sub_hk _ (by decide +kernel)
    | exact sub_port _ _ (by decide +kernel)
    | exact sub_win _ (by decide +kernel)
    | exact sub_any _ (by decide +kernel)
    | split

theorem State.setEpc_keeps (s : State) (e : Eng) (svc : Bool) (a : Nat) :
    Keeps (foot [.reg (ENG_PC 0x600), .reg (ENG_PC 0x1B00)]) s (State.setEpc s e svc a) := by
  unfold State.setEpc
  repeat' first
    | with_reducible assumption
    | with_reducible apply Keeps.refl
    | with_reducible apply Keeps.ite
    | (apply Keeps.step; with_reducible apply State.setFld_keeps)
    | (with_reducible apply Keeps.forEach; intro _ _ _)
    | (with_reducible apply Keeps.foldl_fst; intro _ _ _)
    | (with_reducible apply Keeps.foldl_snd; intro _ _ _)
    | (with_reducible apply Keeps.foldl; intro _ _ _)
    | decide +kernel
    | exact sub_eng _ (by decide +kernel)
    | exact sub_flt _ (by decide +kernel)
    | exact sub_hk _ (by decide +kernel)
    | exact sub_port _ _ (by decide +kernel)
    | exact sub_win _ (by decide +kernel)
    | exact sub_any _ (by decide +kernel)
    | split

theorem State.microBranch_keeps (s : State) (s1 : State) (e : Eng) (svc : Bool) (op : MOp) (m : Micro) :
    Keeps (foot [.reg GLB_DETERMINISM, .reg LNK_DEADLETTER_COUNT, .reg (ENG_STATUS 0x600), .reg (ENG_PC 0x600), .reg (ENG_WAIT_COND 0x600), .reg (ENG_ROUTINE_ACTIVE 0x600), .reg (ENG_STATUS 0x1B00), .reg (ENG_PC 0x1B00), .reg (ENG_WAIT_COND 0x1B00), .reg (ENG_ROUTINE_ACTIVE 0x1B00), .flt, .win .lnk, .recTick, .bar, .faults, .cou, .bru, .lnk, .free, .srcs]) s1 (State.microBranch s s1 e svc op m) := by
  unfold State.microBranch
  extract_lets a1 a2
  try clear_value a1
  try clear_value a2
  repeat' first
    | with_reducible assumption
    | with_reducible apply Keeps.refl
    | with_reducible apply Keeps.ite
    | (apply Keeps.step; with_reducible apply State.setEpc_keeps)
    | (apply Keeps.step; with_reducible apply State.setEng_keeps)
    | (apply Keeps.step; with_reducible apply State.guardEnd_keeps)
    | (with_reducible apply Keeps.forEach; intro _ _ _)
    | (with_reducible apply Keeps.foldl_fst; intro _ _ _)
    | (with_reducible apply Keeps.foldl_snd; intro _ _ _)
    | (with_reducible apply Keeps.foldl; intro _ _ _)
    | decide +kernel
    | exact sub_flt _ (by decide +kernel)
    | exact sub_eng _ (by decide +kernel)
    | exact sub_hk _ (by decide +kernel)
    | exact sub_port _ _ (by decide +kernel)
    | exact sub_win _ (by decide +kernel)
    | exact sub_any _ (by decide +kernel)
    | split

theorem State.commitMark_keeps (s : State) (e : Eng) :
    Keeps (foot [.reg GLB_DETERMINISM, .reg LNK_DEADLETTER_COUNT, .reg (ENG_STATUS 0x600), .reg (ENG_WAIT_COND 0x600), .reg (ENG_ROUTINE_ACTIVE 0x600), .reg (ENG_STATUS 0x1B00), .reg (ENG_WAIT_COND 0x1B00), .reg (ENG_ROUTINE_ACTIVE 0x1B00), .flt, .win .lnk, .recTick, .bar, .faults, .cou, .bru, .lnk, .free, .srcs]) s (State.commitMark s e) := by
  unfold State.commitMark
  extract_lets a1
  try clear_value a1
  repeat' first
    | with_reducible assumption
    | with_reducible apply Keeps.refl
    | with_reducible apply Keeps.ite
    | (apply Keeps.step; with_reducible apply State.guardEnd_keeps)
    | (apply Keeps.step; with_reducible apply State.setEng_keeps)
    | (apply Keeps.step; with_reducible apply State.setFld_keeps)
    | (apply Keeps.step; with_reducible apply State.setBit_keeps)
    | (with_reducible apply Keeps.forEach; intro _ _ _)
    | (with_reducible apply Keeps.foldl_fst; intro _ _ _)
    | (with_reducible apply Keeps.foldl_snd; intro _ _ _)
    | (with_reducible apply Keeps.foldl; intro _ _ _)
    | decide +kernel
    | exact sub_eng _ (by decide +kernel)
    | exact sub_flt _ (by decide +kernel)
    | exact sub_hk _ (by decide +kernel)
    | exact sub_port _ _ (by decide +kernel)
    | exact sub_win _ (by decide +kernel)
    | exact sub_any _ (by decide +kernel)
    | split

theorem State.microEnd_keeps (s : State) (s1 : State) (e : Eng) (svc : Bool) (op : MOp) (m : Micro) :
    Keeps (foot [.reg GLB_DETERMINISM, .reg LNK_DEADLETTER_COUNT, .reg (ENG_STATUS 0x600), .reg (ENG_PC 0x600), .reg (ENG_WAIT_COND 0x600), .reg (ENG_ROUTINE_ACTIVE 0x600), .reg (ENG_STATUS 0x1B00), .reg (ENG_PC 0x1B00), .reg (ENG_WAIT_COND 0x1B00), .reg (ENG_ROUTINE_ACTIVE 0x1B00), .flt, .win .lnk, .recTick, .bar, .faults, .cou, .bru, .lnk, .free, .srcs]) s1 (State.microEnd s s1 e svc op m) := by
  unfold State.microEnd
  have h : Keeps (foot [.reg GLB_DETERMINISM, .reg LNK_DEADLETTER_COUNT, .reg (ENG_STATUS 0x600), .reg (ENG_PC 0x600), .reg (ENG_WAIT_COND 0x600), .reg (ENG_ROUTINE_ACTIVE 0x600), .reg (ENG_STATUS 0x1B00), .reg (ENG_PC 0x1B00), .reg (ENG_WAIT_COND 0x1B00), .reg (ENG_ROUTINE_ACTIVE 0x1B00), .flt, .win .lnk, .recTick, .bar, .faults, .cou, .bru, .lnk, .free, .srcs]) s1 (s.microBranch s1 e svc op m) := (State.microBranch_keeps _ _ _ _ _ _).mono (by decide +kernel)
  exact Keeps.ite ((State.commitMark_keeps _ _).step (by decide +kernel) h) h

theorem State.micro_keeps (s : State) (e : Eng) (svc : Bool) (op : MOp) (m : Micro) :
    Keeps (foot [.anyReg, .anyWin, .recTick, .timers, .hostQ, .fieldQ, .held, .gap, .tm, .bar, .faults, .cou, .bru, .pal, .pwr, .col, .nul, .var, .str, .evt, .lnk, .hka, .hkb, .refOnAt] ||| foot [.cal, .mgt, .cfg, .flash, .free, .winAddrs, .srcs]) s (State.micro s e svc op m) := by
  unfold State.micro
  extract_lets a1
  have ha1 : Keeps (foot [.anyReg, .anyWin, .recTick, .timers, .hostQ, .fieldQ, .held, .gap, .tm, .bar, .faults, .cou, .bru, .pal, .pwr, .col, .nul, .var, .str, .evt, .lnk, .hka, .hkb, .refOnAt] ||| foot [.cal, .mgt, .cfg, .flash, .free, .winAddrs, .srcs]) s a1 := by
    unfold a1
    repeat' first
      | with_reducible assumption
      | with_reducible apply Keeps.refl
      | with_reducible apply Keeps.ite
      | (apply Keeps.step; with_reducible apply State.microOp_keeps)
      | (apply Keeps.step; with_reducible apply State.microEnd_keeps)
      | (with_reducible apply Keeps.forEach; intro _ _ _)
      | (with_reducible apply Keeps.foldl_fst; intro _ _ _)
      | (with_reducible apply Keeps.foldl_snd; intro _ _ _)
      | (with_reducible apply Keeps.foldl; intro _ _ _)
      | decide +kernel
      | exact sub_flt _ (by decide +kernel)
      | exact sub_eng _ (by decide +kernel)
      | exact sub_hk _ (by decide +kernel)
      | exact sub_port _ _ (by decide +kernel)
      | exact sub_win _ (by decide +kernel)
      | exact sub_any _ (by decide +kernel)
      | split
  try clear_value a1
  repeat' first
    | with_reducible assumption
    | with_reducible apply Keeps.refl
    | with_reducible apply Keeps.ite
    | (apply Keeps.step; with_reducible apply State.microOp_keeps)
    | (apply Keeps.step; with_reducible apply State.microEnd_keeps)
    | (with_reducible apply Keeps.forEach; intro _ _ _)
    | (with_reducible apply Keeps.foldl_fst; intro _ _ _)
    | (with_reducible apply Keeps.foldl_snd; intro _ _ _)
    | (with_reducible apply Keeps.foldl; intro _ _ _)
    | decide +kernel
    | exact sub_flt _ (by decide +kernel)
    | exact sub_eng _ (by decide +kernel)
    | exact sub_hk _ (by decide +kernel)
    | exact sub_port _ _ (by decide +kernel)
    | exact sub_win _ (by decide +kernel)
    | exact sub_any _ (by decide +kernel)
    | split

theorem State.readOver_keeps (s : State) (e : Eng) (svc : Bool) (c : Ctx) :
    Keeps (foot [.reg (ENG_STATUS 0x600), .reg (ENG_WAIT_COND 0x600), .reg (ENG_STATUS 0x1B00), .reg (ENG_WAIT_COND 0x1B00), .cou, .bru]) s (State.readOver s e svc c) := by
  unfold State.readOver
  extract_lets a1 a2
  have ha2 : Keeps (foot [.reg (ENG_STATUS 0x600), .reg (ENG_WAIT_COND 0x600), .reg (ENG_STATUS 0x1B00), .reg (ENG_WAIT_COND 0x1B00), .cou, .bru]) s a2 := by
    unfold a2
    repeat' first
      | with_reducible assumption
      | with_reducible apply Keeps.refl
      | with_reducible apply Keeps.ite
      | (apply Keeps.step; with_reducible apply State.setCtx_keeps)
      | (apply Keeps.step; with_reducible apply State.setFld_keeps)
      | (apply Keeps.step; with_reducible apply State.setBit_keeps)
      | (with_reducible apply Keeps.forEach; intro _ _ _)
      | (with_reducible apply Keeps.foldl_fst; intro _ _ _)
      | (with_reducible apply Keeps.foldl_snd; intro _ _ _)
      | (with_reducible apply Keeps.foldl; intro _ _ _)
      | decide +kernel
      | exact sub_eng _ (by decide +kernel)
      | exact sub_flt _ (by decide +kernel)
      | exact sub_hk _ (by decide +kernel)
      | exact sub_port _ _ (by decide +kernel)
      | exact sub_win _ (by decide +kernel)
      | exact sub_any _ (by decide +kernel)
      | split
  try clear_value a2
  repeat' first
    | with_reducible assumption
    | with_reducible apply Keeps.refl
    | with_reducible apply Keeps.ite
    | (apply Keeps.step; with_reducible apply State.setCtx_keeps)
    | (apply Keeps.step; with_reducible apply State.setFld_keeps)
    | (apply Keeps.step; with_reducible apply State.setBit_keeps)
    | (with_reducible apply Keeps.forEach; intro _ _ _)
    | (with_reducible apply Keeps.foldl_fst; intro _ _ _)
    | (with_reducible apply Keeps.foldl_snd; intro _ _ _)
    | (with_reducible apply Keeps.foldl; intro _ _ _)
    | decide +kernel
    | exact sub_eng _ (by decide +kernel)
    | exact sub_flt _ (by decide +kernel)
    | exact sub_hk _ (by decide +kernel)
    | exact sub_port _ _ (by decide +kernel)
    | exact sub_win _ (by decide +kernel)
    | exact sub_any _ (by decide +kernel)
    | split

theorem State.readReply_keeps (s : State) (e : Eng) (svc : Bool) (v : Word) :
    Keeps (foot [.reg GLB_DETERMINISM, .reg LNK_DEADLETTER_COUNT, .reg (ENG_STATUS 0x600), .reg (ENG_PC 0x600), .reg (ENG_WAIT_COND 0x600), .reg (ENG_ROUTINE_ACTIVE 0x600), .reg (ENG_STATUS 0x1B00), .reg (ENG_PC 0x1B00), .reg (ENG_WAIT_COND 0x1B00), .reg (ENG_ROUTINE_ACTIVE 0x1B00), .flt, .anyWin, .recTick, .bar, .faults, .cou, .bru, .lnk, .free, .srcs]) s (State.readReply s e svc v) := by
  unfold State.readReply
  repeat' first
    | with_reducible assumption
    | with_reducible apply Keeps.refl
    | with_reducible apply Keeps.ite
    | (apply Keeps.step; with_reducible apply State.microEnd_keeps)
    | (apply Keeps.step; with_reducible apply State.readDone_keeps)
    | (apply Keeps.step; with_reducible apply State.readOver_keeps)
    | (with_reducible apply Keeps.forEach; intro _ _ _)
    | (with_reducible apply Keeps.foldl_fst; intro _ _ _)
    | (with_reducible apply Keeps.foldl_snd; intro _ _ _)
    | (with_reducible apply Keeps.foldl; intro _ _ _)
    | decide +kernel
    | exact sub_flt _ (by decide +kernel)
    | exact sub_eng _ (by decide +kernel)
    | exact sub_hk _ (by decide +kernel)
    | exact sub_port _ _ (by decide +kernel)
    | exact sub_win _ (by decide +kernel)
    | exact sub_any _ (by decide +kernel)
    | split

theorem State.swapSend_keeps (s : State) (w : Staged) :
    Keeps (foot [.bar, .faults]) s (State.swapSend s w) := by
  unfold State.swapSend
  extract_lets a1 a2 a3
  have ha1 : Keeps (foot [.bar, .faults]) s a1 := by
    unfold a1
    repeat' first
      | with_reducible assumption
      | with_reducible apply Keeps.refl
      | with_reducible apply Keeps.ite
      | (apply Keeps.step; with_reducible apply State.sendWrite_keeps)
      | (with_reducible apply Keeps.forEach; intro _ _ _)
      | (with_reducible apply Keeps.foldl_fst; intro _ _ _)
      | (with_reducible apply Keeps.foldl_snd; intro _ _ _)
      | (with_reducible apply Keeps.foldl; intro _ _ _)
      | decide +kernel
      | exact sub_flt _ (by decide +kernel)
      | exact sub_eng _ (by decide +kernel)
      | exact sub_hk _ (by decide +kernel)
      | exact sub_port _ _ (by decide +kernel)
      | exact sub_win _ (by decide +kernel)
      | exact sub_any _ (by decide +kernel)
      | split
      | refine Keeps.upd ?_
  try clear_value a1
  have ha2 : Keeps (foot [.bar, .faults]) s a2 := by
    unfold a2
    repeat' first
      | with_reducible assumption
      | with_reducible apply Keeps.refl
      | with_reducible apply Keeps.ite
      | (apply Keeps.step; with_reducible apply State.sendWrite_keeps)
      | (with_reducible apply Keeps.forEach; intro _ _ _)
      | (with_reducible apply Keeps.foldl_fst; intro _ _ _)
      | (with_reducible apply Keeps.foldl_snd; intro _ _ _)
      | (with_reducible apply Keeps.foldl; intro _ _ _)
      | decide +kernel
      | exact sub_flt _ (by decide +kernel)
      | exact sub_eng _ (by decide +kernel)
      | exact sub_hk _ (by decide +kernel)
      | exact sub_port _ _ (by decide +kernel)
      | exact sub_win _ (by decide +kernel)
      | exact sub_any _ (by decide +kernel)
      | split
      | refine Keeps.upd ?_
  try clear_value a2
  try clear_value a3
  repeat' first
    | with_reducible assumption
    | with_reducible apply Keeps.refl
    | with_reducible apply Keeps.ite
    | (apply Keeps.step; with_reducible apply State.sendWrite_keeps)
    | (with_reducible apply Keeps.forEach; intro _ _ _)
    | (with_reducible apply Keeps.foldl_fst; intro _ _ _)
    | (with_reducible apply Keeps.foldl_snd; intro _ _ _)
    | (with_reducible apply Keeps.foldl; intro _ _ _)
    | decide +kernel
    | exact sub_flt _ (by decide +kernel)
    | exact sub_eng _ (by decide +kernel)
    | exact sub_hk _ (by decide +kernel)
    | exact sub_port _ _ (by decide +kernel)
    | exact sub_win _ (by decide +kernel)
    | exact sub_any _ (by decide +kernel)
    | split
    | refine Keeps.upd ?_

theorem State.abandon_keeps (s : State) (e : Eng) (causes : BitVec 5) :
    Keeps (foot [.reg GLB_DETERMINISM, .reg LNK_DEADLETTER_COUNT, .reg (ENG_STATUS 0x600), .reg (ENG_WAIT_COND 0x600), .reg (ENG_ROUTINE_ACTIVE 0x600), .reg (ENG_ABANDON_COUNT 0x600), .reg (ENG_STATUS 0x1B00), .reg (ENG_WAIT_COND 0x1B00), .reg (ENG_ROUTINE_ACTIVE 0x1B00), .reg (ENG_ABANDON_COUNT 0x1B00), .flt, .win .lnk, .recTick, .bar, .faults, .cou, .bru, .lnk, .free, .srcs]) s (State.abandon s e causes) := by
  unfold State.abandon
  extract_lets a1
  try clear_value a1
  repeat' first
    | with_reducible assumption
    | with_reducible apply Keeps.refl
    | with_reducible apply Keeps.ite
    | (apply Keeps.step; with_reducible apply State.setEng_keeps)
    | (apply Keeps.step; with_reducible apply State.engMark_keeps)
    | (with_reducible apply Keeps.forEach; intro _ _ _)
    | (with_reducible apply Keeps.foldl_fst; intro _ _ _)
    | (with_reducible apply Keeps.foldl_snd; intro _ _ _)
    | (with_reducible apply Keeps.foldl; intro _ _ _)
    | decide +kernel
    | exact sub_flt _ (by decide +kernel)
    | exact sub_eng _ (by decide +kernel)
    | exact sub_hk _ (by decide +kernel)
    | exact sub_port _ _ (by decide +kernel)
    | exact sub_win _ (by decide +kernel)
    | exact sub_any _ (by decide +kernel)
    | split

theorem State.execFetched_keeps (s : State) (e : Eng) (svc : Bool) (d : Nat) :
    Keeps (foot [.anyReg, .anyWin, .recTick, .timers, .hostQ, .fieldQ, .held, .gap, .tm, .bar, .faults, .cou, .bru, .pal, .pwr, .col, .nul, .var, .str, .evt, .lnk, .hka, .hkb, .refOnAt] ||| foot [.cal, .mgt, .cfg, .flash, .free, .winAddrs, .srcs]) s (State.execFetched s e svc d) := by
  unfold State.execFetched
  extract_lets a1
  try clear_value a1
  repeat' first
    | with_reducible assumption
    | with_reducible apply Keeps.refl
    | with_reducible apply Keeps.ite
    | (apply Keeps.step; with_reducible apply State.guardEnd_keeps)
    | (apply Keeps.step; with_reducible apply State.micro_keeps)
    | (with_reducible apply Keeps.forEach; intro _ _ _)
    | (with_reducible apply Keeps.foldl_fst; intro _ _ _)
    | (with_reducible apply Keeps.foldl_snd; intro _ _ _)
    | (with_reducible apply Keeps.foldl; intro _ _ _)
    | decide +kernel
    | exact sub_flt _ (by decide +kernel)
    | exact sub_eng _ (by decide +kernel)
    | exact sub_hk _ (by decide +kernel)
    | exact sub_port _ _ (by decide +kernel)
    | exact sub_win _ (by decide +kernel)
    | exact sub_any _ (by decide +kernel)
    | split

theorem State.timedOut_keeps (s : State) (e : Eng) :
    Keeps (foot [.reg GLB_DETERMINISM, .reg LNK_DEADLETTER_COUNT, .reg (ENG_STATUS 0x600), .reg (ENG_WAIT_COND 0x600), .reg (ENG_STATUS 0x1B00), .reg (ENG_WAIT_COND 0x1B00), .flt, .win .lnk, .recTick, .bar, .faults, .cou, .bru, .lnk, .free, .srcs]) s (State.timedOut s e) := by
  unfold State.timedOut
  extract_lets a1
  repeat' first
    | with_reducible assumption
    | with_reducible apply Keeps.refl
    | with_reducible apply Keeps.ite
    | (apply Keeps.step; with_reducible apply State.raise_keeps)
    | (apply Keeps.step; with_reducible apply State.inc_keeps)
    | (apply Keeps.step; with_reducible apply State.setBit_keeps)
    | (with_reducible apply Keeps.forEach; intro _ _ _)
    | (with_reducible apply Keeps.foldl_fst; intro _ _ _)
    | (with_reducible apply Keeps.foldl_snd; intro _ _ _)
    | (with_reducible apply Keeps.foldl; intro _ _ _)
    | decide +kernel
    | exact sub_eng _ (by decide +kernel)
    | exact sub_flt _ (by decide +kernel)
    | exact sub_hk _ (by decide +kernel)
    | exact sub_port _ _ (by decide +kernel)
    | exact sub_win _ (by decide +kernel)
    | exact sub_any _ (by decide +kernel)
    | split

theorem State.fetch_keeps (s : State) (e : Eng) (svc : Bool) :
    Keeps (foot [.reg GLB_DETERMINISM, .reg LNK_DEADLETTER_COUNT, .reg (ENG_STATUS 0x600), .reg (ENG_STATUS 0x1B00), .flt, .win .lnk, .recTick, .bar, .faults, .cou, .bru, .lnk, .free, .srcs]) s (State.fetch s e svc).2 := by
  unfold State.fetch
  extract_lets a1 a2 a3 a4
  try clear_value a1
  try clear_value a2
  have ha3 : Keeps (foot [.reg GLB_DETERMINISM, .reg LNK_DEADLETTER_COUNT, .reg (ENG_STATUS 0x600), .reg (ENG_STATUS 0x1B00), .flt, .win .lnk, .recTick, .bar, .faults, .cou, .bru, .lnk, .free, .srcs]) s a3 := by
    unfold a3
    repeat' first
      | with_reducible assumption
      | with_reducible apply Keeps.refl
      | split
      | with_reducible apply Keeps.ite
      | (apply Keeps.step; with_reducible apply State.injectDone_keeps)
      | (apply Keeps.step; with_reducible apply State.raise_keeps)
      | (with_reducible apply Keeps.forEach; intro _ _ _)
      | (with_reducible apply Keeps.foldl_fst; intro _ _ _)
      | (with_reducible apply Keeps.foldl_snd; intro _ _ _)
      | (with_reducible apply Keeps.foldl; intro _ _ _)
      | decide +kernel
      | exact sub_flt _ (by decide +kernel)
      | exact sub_eng _ (by decide +kernel)
      | exact sub_hk _ (by decide +kernel)
      | exact sub_port _ _ (by decide +kernel)
      | exact sub_win _ (by decide +kernel)
      | exact sub_any _ (by decide +kernel)
  try clear_value a3
  try clear_value a4
  repeat' first
    | with_reducible assumption
    | with_reducible apply Keeps.refl
    | split
    | with_reducible apply Keeps.ite
    | (apply Keeps.step; with_reducible apply State.injectDone_keeps)
    | (apply Keeps.step; with_reducible apply State.raise_keeps)
    | (with_reducible apply Keeps.forEach; intro _ _ _)
    | (with_reducible apply Keeps.foldl_fst; intro _ _ _)
    | (with_reducible apply Keeps.foldl_snd; intro _ _ _)
    | (with_reducible apply Keeps.foldl; intro _ _ _)
    | decide +kernel
    | exact sub_flt _ (by decide +kernel)
    | exact sub_eng _ (by decide +kernel)
    | exact sub_hk _ (by decide +kernel)
    | exact sub_port _ _ (by decide +kernel)
    | exact sub_win _ (by decide +kernel)
    | exact sub_any _ (by decide +kernel)

theorem State.setWait_keeps (s : State) (e : Eng) (svc : Bool) (t0 : Option Nat) :
    Keeps (foot [.reg (ENG_STATUS 0x600), .reg (ENG_STATUS 0x1B00), .cou, .bru]) s (State.setWait s e svc t0) := by
  unfold State.setWait
  repeat' first
    | with_reducible assumption
    | with_reducible apply Keeps.refl
    | with_reducible apply Keeps.ite
    | (apply Keeps.step; with_reducible apply State.setCtx_keeps)
    | (with_reducible apply Keeps.forEach; intro _ _ _)
    | (with_reducible apply Keeps.foldl_fst; intro _ _ _)
    | (with_reducible apply Keeps.foldl_snd; intro _ _ _)
    | (with_reducible apply Keeps.foldl; intro _ _ _)
    | decide +kernel
    | exact sub_flt _ (by decide +kernel)
    | exact sub_eng _ (by decide +kernel)
    | exact sub_hk _ (by decide +kernel)
    | exact sub_port _ _ (by decide +kernel)
    | exact sub_win _ (by decide +kernel)
    | exact sub_any _ (by decide +kernel)
    | split

theorem State.waitOver_keeps (s : State) (e : Eng) (svc : Bool) :
    Keeps (foot [.reg (ENG_STATUS 0x600), .reg (ENG_WAIT_COND 0x600), .reg (ENG_STATUS 0x1B00), .reg (ENG_WAIT_COND 0x1B00), .cou, .bru]) s (State.waitOver s e svc) := by
  unfold State.waitOver
  extract_lets a1 a2
  have ha2 : Keeps (foot [.reg (ENG_STATUS 0x600), .reg (ENG_WAIT_COND 0x600), .reg (ENG_STATUS 0x1B00), .reg (ENG_WAIT_COND 0x1B00), .cou, .bru]) s a2 := by
    unfold a2
    repeat' first
      | with_reducible assumption
      | with_reducible apply Keeps.refl
      | with_reducible apply Keeps.ite
      | (apply Keeps.step; with_reducible apply State.setWait_keeps)
      | (apply Keeps.step; with_reducible apply State.setFld_keeps)
      | (apply Keeps.step; with_reducible apply State.setBit_keeps)
      | (with_reducible apply Keeps.forEach; intro _ _ _)
      | (with_reducible apply Keeps.foldl_fst; intro _ _ _)
      | (with_reducible apply Keeps.foldl_snd; intro _ _ _)
      | (with_reducible apply Keeps.foldl; intro _ _ _)
      | decide +kernel
      | exact sub_eng _ (by decide +kernel)
      | exact sub_flt _ (by decide +kernel)
      | exact sub_hk _ (by decide +kernel)
      | exact sub_port _ _ (by decide +kernel)
      | exact sub_win _ (by decide +kernel)
      | exact sub_any _ (by decide +kernel)
      | split
  try clear_value a2
  repeat' first
    | with_reducible assumption
    | with_reducible apply Keeps.refl
    | with_reducible apply Keeps.ite
    | (apply Keeps.step; with_reducible apply State.setWait_keeps)
    | (apply Keeps.step; with_reducible apply State.setFld_keeps)
    | (apply Keeps.step; with_reducible apply State.setBit_keeps)
    | (with_reducible apply Keeps.forEach; intro _ _ _)
    | (with_reducible apply Keeps.foldl_fst; intro _ _ _)
    | (with_reducible apply Keeps.foldl_snd; intro _ _ _)
    | (with_reducible apply Keeps.foldl; intro _ _ _)
    | decide +kernel
    | exact sub_eng _ (by decide +kernel)
    | exact sub_flt _ (by decide +kernel)
    | exact sub_hk _ (by decide +kernel)
    | exact sub_port _ _ (by decide +kernel)
    | exact sub_win _ (by decide +kernel)
    | exact sub_any _ (by decide +kernel)
    | split

theorem State.waitOutNow_keeps (s : State) (e : Eng) :
    Keeps (foot [.anyReg, .anyWin, .recTick, .timers, .hostQ, .fieldQ, .held, .gap, .tm, .bar, .faults, .cou, .bru, .pal, .pwr, .col, .nul, .var, .str, .evt, .lnk, .hka, .hkb, .refOnAt] ||| foot [.cal, .mgt, .cfg, .flash, .free, .winAddrs, .srcs]) s (State.waitOutNow s e) := by
  unfold State.waitOutNow
  extract_lets a1
  have ha1 : Keeps (foot [.anyReg, .anyWin, .recTick, .timers, .hostQ, .fieldQ, .held, .gap, .tm, .bar, .faults, .cou, .bru, .pal, .pwr, .col, .nul, .var, .str, .evt, .lnk, .hka, .hkb, .refOnAt] ||| foot [.cal, .mgt, .cfg, .flash, .free, .winAddrs, .srcs]) s a1.2 := by
    unfold a1
    repeat' first
      | with_reducible assumption
      | with_reducible apply Keeps.refl
      | with_reducible apply Keeps.ite
      | (apply Keeps.step; with_reducible apply State.readReply_keeps)
      | (apply Keeps.step; with_reducible apply State.timedOut_keeps)
      | (apply Keeps.step; with_reducible apply State.fetch_keeps)
      | (apply Keeps.step; with_reducible apply State.waitOver_keeps)
      | (apply Keeps.step; with_reducible apply State.execFetched_keeps)
      | (apply Keeps.step; with_reducible apply State.guardEnd_keeps)
      | (with_reducible apply Keeps.forEach; intro _ _ _)
      | (with_reducible apply Keeps.foldl_fst; intro _ _ _)
      | (with_reducible apply Keeps.foldl_snd; intro _ _ _)
      | (with_reducible apply Keeps.foldl; intro _ _ _)
      | decide +kernel
      | exact sub_flt _ (by decide +kernel)
      | exact sub_eng _ (by decide +kernel)
      | exact sub_hk _ (by decide +kernel)
      | exact sub_port _ _ (by decide +kernel)
      | exact sub_win _ (by decide +kernel)
      | exact sub_any _ (by decide +kernel)
      | split
  try clear_value a1
  repeat' first
    | with_reducible assumption
    | with_reducible apply Keeps.refl
    | with_reducible apply Keeps.ite
    | (apply Keeps.step; with_reducible apply State.readReply_keeps)
    | (apply Keeps.step; with_reducible apply State.timedOut_keeps)
    | (apply Keeps.step; with_reducible apply State.fetch_keeps)
    | (apply Keeps.step; with_reducible apply State.waitOver_keeps)
    | (apply Keeps.step; with_reducible apply State.execFetched_keeps)
    | (apply Keeps.step; with_reducible apply State.guardEnd_keeps)
    | (with_reducible apply Keeps.forEach; intro _ _ _)
    | (with_reducible apply Keeps.foldl_fst; intro _ _ _)
    | (with_reducible apply Keeps.foldl_snd; intro _ _ _)
    | (with_reducible apply Keeps.foldl; intro _ _ _)
    | decide +kernel
    | exact sub_flt _ (by decide +kernel)
    | exact sub_eng _ (by decide +kernel)
    | exact sub_hk _ (by decide +kernel)
    | exact sub_port _ _ (by decide +kernel)
    | exact sub_win _ (by decide +kernel)
    | exact sub_any _ (by decide +kernel)
    | split

theorem State.withAddr_keeps {M : Nat} {s0 : State} (s : State) (e : Eng) (i wa : Nat) (f : State → State)
    (hm : foot [.bar, .faults, .winAddrs] ||| M = M) (hf : ∀ t, Keeps M s0 t → Keeps M s0 (f t)) (h : Keeps M s0 s) :
    Keeps M s0 (State.withAddr s e i wa f) := by
  have hs : ∀ (t : State) (m : Master) (n j : Nat) (v : Word) (p : Option PM), Keeps M s0 t →
      Keeps M s0 (t.sendWrite m n j v p) := fun t m n j v p ht =>
    ((t.sendWrite_keeps m n j v p).mono (M := foot [.bar, .faults, .winAddrs]) (by decide +kernel)).step hm ht
  have hw : ∀ (t : State) (b : Blk) (k a : Nat), Keeps M s0 t → Keeps M s0 (t.setWinAddr b k a) := fun t b k a ht =>
    ((t.setWinAddr_keeps b k a).mono (M := foot [.bar, .faults, .winAddrs]) (by decide +kernel)).step hm ht
  unfold State.withAddr
  split
  · exact hf _ h
  split
  · exact hs _ _ _ _ _ _ (hf _ (hs _ _ _ _ _ _ h))
  split
  · exact hw _ _ _ _ (hf _ (hw _ _ _ _ h))
  · exact hf _ h

theorem State.unstencil_keeps (s : State) (e : Eng) :
    Keeps (foot [.anyReg, .anyWin, .recTick, .timers, .hostQ, .fieldQ, .held, .gap, .bar, .faults, .cou, .bru, .pal, .pwr, .col, .nul, .var, .str, .evt, .lnk, .hka, .hkb, .refOnAt, .cal] ||| foot [.mgt, .cfg, .flash, .free, .winAddrs, .srcs]) s (State.unstencil s e) := by
  unfold State.unstencil
  extract_lets a1 a2 a3
  try clear_value a1
  have ha2 : Keeps (foot [.anyReg, .anyWin, .recTick, .timers, .hostQ, .fieldQ, .held, .gap, .bar, .faults, .cou, .bru, .pal, .pwr, .col, .nul, .var, .str, .evt, .lnk, .hka, .hkb, .refOnAt, .cal] ||| foot [.mgt, .cfg, .flash, .free, .winAddrs, .srcs]) s a2 := by
    unfold a2
    repeat' first
      | with_reducible assumption
      | with_reducible apply Keeps.refl
      | with_reducible apply Keeps.ite
      | with_reducible apply State.withAddr_keeps
      | (apply Keeps.step; with_reducible apply State.engOut_keeps)
      | (apply Keeps.step; with_reducible apply State.setEng_keeps)
      | (with_reducible apply Keeps.forEach; intro _ _ _)
      | (intro _ _)
      | (with_reducible apply Keeps.foldl_fst; intro _ _ _)
      | (with_reducible apply Keeps.foldl_snd; intro _ _ _)
      | (with_reducible apply Keeps.foldl; intro _ _ _)
      | decide +kernel
      | exact sub_flt _ (by decide +kernel)
      | exact sub_eng _ (by decide +kernel)
      | exact sub_hk _ (by decide +kernel)
      | exact sub_port _ _ (by decide +kernel)
      | exact sub_win _ (by decide +kernel)
      | exact sub_any _ (by decide +kernel)
      | split
  try clear_value a2
  try clear_value a3
  repeat' first
    | with_reducible assumption
    | with_reducible apply Keeps.refl
    | with_reducible apply Keeps.ite
    | with_reducible apply State.withAddr_keeps
    | (apply Keeps.step; with_reducible apply State.engOut_keeps)
    | (apply Keeps.step; with_reducible apply State.setEng_keeps)
    | (with_reducible apply Keeps.forEach; intro _ _ _)
    | (intro _ _)
    | (with_reducible apply Keeps.foldl_fst; intro _ _ _)
    | (with_reducible apply Keeps.foldl_snd; intro _ _ _)
    | (with_reducible apply Keeps.foldl; intro _ _ _)
    | decide +kernel
    | exact sub_flt _ (by decide +kernel)
    | exact sub_eng _ (by decide +kernel)
    | exact sub_hk _ (by decide +kernel)
    | exact sub_port _ _ (by decide +kernel)
    | exact sub_win _ (by decide +kernel)
    | exact sub_any _ (by decide +kernel)
    | split

theorem State.applyStaged_keeps (s : State) (e : Eng) :
    Keeps (foot [.anyReg, .anyWin, .recTick, .timers, .hostQ, .fieldQ, .held, .gap, .bar, .faults, .cou, .bru, .pal, .pwr, .col, .nul, .var, .str, .evt, .lnk, .hka, .hkb, .refOnAt, .cal] ||| foot [.mgt, .cfg, .flash, .free, .winAddrs, .srcs]) s (State.applyStaged s e) := by
  unfold State.applyStaged
  extract_lets a1 a2 a3
  try clear_value a1
  have ha2 : Keeps (foot [.anyReg, .anyWin, .recTick, .timers, .hostQ, .fieldQ, .held, .gap, .bar, .faults, .cou, .bru, .pal, .pwr, .col, .nul, .var, .str, .evt, .lnk, .hka, .hkb, .refOnAt, .cal] ||| foot [.mgt, .cfg, .flash, .free, .winAddrs, .srcs]) s a2 := by
    unfold a2
    repeat' first
      | with_reducible assumption
      | with_reducible apply Keeps.refl
      | with_reducible apply Keeps.ite
      | with_reducible apply State.withAddr_keeps
      | (apply Keeps.step; with_reducible apply State.engOut_keeps)
      | (apply Keeps.step; with_reducible apply State.setEng_keeps)
      | (with_reducible apply Keeps.forEach; intro _ _ _)
      | (intro _ _)
      | (with_reducible apply Keeps.foldl_fst; intro _ _ _)
      | (with_reducible apply Keeps.foldl_snd; intro _ _ _)
      | (with_reducible apply Keeps.foldl; intro _ _ _)
      | decide +kernel
      | exact sub_flt _ (by decide +kernel)
      | exact sub_eng _ (by decide +kernel)
      | exact sub_hk _ (by decide +kernel)
      | exact sub_port _ _ (by decide +kernel)
      | exact sub_win _ (by decide +kernel)
      | exact sub_any _ (by decide +kernel)
      | split
  try clear_value a2
  try clear_value a3
  repeat' first
    | with_reducible assumption
    | with_reducible apply Keeps.refl
    | with_reducible apply Keeps.ite
    | with_reducible apply State.withAddr_keeps
    | (apply Keeps.step; with_reducible apply State.engOut_keeps)
    | (apply Keeps.step; with_reducible apply State.setEng_keeps)
    | (with_reducible apply Keeps.forEach; intro _ _ _)
    | (intro _ _)
    | (with_reducible apply Keeps.foldl_fst; intro _ _ _)
    | (with_reducible apply Keeps.foldl_snd; intro _ _ _)
    | (with_reducible apply Keeps.foldl; intro _ _ _)
    | decide +kernel
    | exact sub_flt _ (by decide +kernel)
    | exact sub_eng _ (by decide +kernel)
    | exact sub_hk _ (by decide +kernel)
    | exact sub_port _ _ (by decide +kernel)
    | exact sub_win _ (by decide +kernel)
    | exact sub_any _ (by decide +kernel)
    | split

theorem State.engRestore_keeps (s : State) (e : Eng) :
    Keeps (foot [.anyReg, .anyWin, .recTick, .timers, .hostQ, .fieldQ, .held, .gap, .bar, .faults, .cou, .bru, .pal, .pwr, .col, .nul, .var, .str, .evt, .lnk, .hka, .hkb, .refOnAt, .cal] ||| foot [.mgt, .cfg, .flash, .free, .winAddrs, .srcs]) s (State.engRestore s e) := by
  unfold State.engRestore
  extract_lets a1 a2
  have ha1 : Keeps (foot [.anyReg, .anyWin, .recTick, .timers, .hostQ, .fieldQ, .held, .gap, .bar, .faults, .cou, .bru, .pal, .pwr, .col, .nul, .var, .str, .evt, .lnk, .hka, .hkb, .refOnAt, .cal] ||| foot [.mgt, .cfg, .flash, .free, .winAddrs, .srcs]) s a1 := by
    unfold a1
    repeat' first
      | with_reducible assumption
      | with_reducible apply Keeps.refl
      | with_reducible apply Keeps.ite
      | (apply Keeps.step; with_reducible apply State.unstencil_keeps)
      | (apply Keeps.step; with_reducible apply State.applyStaged_keeps)
      | (apply Keeps.step; with_reducible apply State.setEng_keeps)
      | (apply Keeps.step; with_reducible apply State.freeMain_keeps)
      | (apply Keeps.step; with_reducible apply State.note_keeps)
      | (with_reducible apply Keeps.forEach; intro _ _ _)
      | (with_reducible apply Keeps.foldl_fst; intro _ _ _)
      | (with_reducible apply Keeps.foldl_snd; intro _ _ _)
      | (with_reducible apply Keeps.foldl; intro _ _ _)
      | decide +kernel
      | exact sub_flt _ (by decide +kernel)
      | exact sub_eng _ (by decide +kernel)
      | exact sub_hk _ (by decide +kernel)
      | exact sub_port _ _ (by decide +kernel)
      | exact sub_win _ (by decide +kernel)
      | exact sub_any _ (by decide +kernel)
      | split
  try clear_value a1
  try clear_value a2
  repeat' first
    | with_reducible assumption
    | with_reducible apply Keeps.refl
    | with_reducible apply Keeps.ite
    | (apply Keeps.step; with_reducible apply State.unstencil_keeps)
    | (apply Keeps.step; with_reducible apply State.applyStaged_keeps)
    | (apply Keeps.step; with_reducible apply State.setEng_keeps)
    | (apply Keeps.step; with_reducible apply State.freeMain_keeps)
    | (apply Keeps.step; with_reducible apply State.note_keeps)
    | (with_reducible apply Keeps.forEach; intro _ _ _)
    | (with_reducible apply Keeps.foldl_fst; intro _ _ _)
    | (with_reducible apply Keeps.foldl_snd; intro _ _ _)
    | (with_reducible apply Keeps.foldl; intro _ _ _)
    | decide +kernel
    | exact sub_flt _ (by decide +kernel)
    | exact sub_eng _ (by decide +kernel)
    | exact sub_hk _ (by decide +kernel)
    | exact sub_port _ _ (by decide +kernel)
    | exact sub_win _ (by decide +kernel)
    | exact sub_any _ (by decide +kernel)
    | split

theorem State.causesTick_keeps (s : State) (e : Eng) :
    Keeps (foot [.reg GLB_DETERMINISM, .reg LNK_DEADLETTER_COUNT, .reg (ENG_STATUS 0x600), .reg (ENG_WAIT_COND 0x600), .reg (ENG_ROUTINE_ACTIVE 0x600), .reg (ENG_ABANDON_COUNT 0x600), .reg (ENG_STATUS 0x1B00), .reg (ENG_WAIT_COND 0x1B00), .reg (ENG_ROUTINE_ACTIVE 0x1B00), .reg (ENG_ABANDON_COUNT 0x1B00), .flt, .win .lnk, .recTick, .bar, .faults, .cou, .bru, .lnk, .free, .srcs]) s (State.causesTick s e) := by
  unfold State.causesTick
  extract_lets a1 a2
  try clear_value a1
  try clear_value a2
  repeat' first
    | with_reducible assumption
    | with_reducible apply Keeps.refl
    | with_reducible apply Keeps.ite
    | (apply Keeps.step; with_reducible apply State.abandon_keeps)
    | (apply Keeps.step; with_reducible apply State.setEng_keeps)
    | (with_reducible apply Keeps.forEach; intro _ _ _)
    | (with_reducible apply Keeps.foldl_fst; intro _ _ _)
    | (with_reducible apply Keeps.foldl_snd; intro _ _ _)
    | (with_reducible apply Keeps.foldl; intro _ _ _)
    | decide +kernel
    | exact sub_flt _ (by decide +kernel)
    | exact sub_eng _ (by decide +kernel)
    | exact sub_hk _ (by decide +kernel)
    | exact sub_port _ _ (by decide +kernel)
    | exact sub_win _ (by decide +kernel)
    | exact sub_any _ (by decide +kernel)
    | split

theorem State.readAnswer_keeps (s : State) (e : Eng) (svc : Bool) (i : Nat) (v : Word) :
    Keeps (foot [.reg (ENG_STATUS 0x600), .reg (ENG_STATUS 0x1B00), .cou, .bru]) s (State.readAnswer s e svc i v) := by
  unfold State.readAnswer
  repeat' first
    | with_reducible assumption
    | with_reducible apply Keeps.refl
    | with_reducible apply Keeps.ite
    | (apply Keeps.step; with_reducible apply State.setCtx_keeps)
    | (with_reducible apply Keeps.forEach; intro _ _ _)
    | (with_reducible apply Keeps.foldl_fst; intro _ _ _)
    | (with_reducible apply Keeps.foldl_snd; intro _ _ _)
    | (with_reducible apply Keeps.foldl; intro _ _ _)
    | decide +kernel
    | exact sub_flt _ (by decide +kernel)
    | exact sub_eng _ (by decide +kernel)
    | exact sub_hk _ (by decide +kernel)
    | exact sub_port _ _ (by decide +kernel)
    | exact sub_win _ (by decide +kernel)
    | exact sub_any _ (by decide +kernel)
    | split

theorem State.breakHit_keeps (s : State) (e : Eng) :
    Keeps (foot [.reg (ENG_STATUS 0x600), .reg (ENG_BREAK 0x600), .reg (ENG_STATUS 0x1B00), .reg (ENG_BREAK 0x1B00), .cou, .bru]) s (State.breakHit s e) := by
  unfold State.breakHit
  extract_lets a1 a2
  try clear_value a2
  repeat' first
    | with_reducible assumption
    | with_reducible apply Keeps.refl
    | with_reducible apply Keeps.ite
    | (apply Keeps.step; with_reducible apply State.setFld_keeps)
    | (apply Keeps.step; with_reducible apply State.setBit_keeps)
    | (apply Keeps.step; with_reducible apply State.setEng_keeps)
    | (with_reducible apply Keeps.forEach; intro _ _ _)
    | (with_reducible apply Keeps.foldl_fst; intro _ _ _)
    | (with_reducible apply Keeps.foldl_snd; intro _ _ _)
    | (with_reducible apply Keeps.foldl; intro _ _ _)
    | decide +kernel
    | exact sub_eng _ (by decide +kernel)
    | exact sub_flt _ (by decide +kernel)
    | exact sub_hk _ (by decide +kernel)
    | exact sub_port _ _ (by decide +kernel)
    | exact sub_win _ (by decide +kernel)
    | exact sub_any _ (by decide +kernel)
    | split

theorem State.restoreTick_keeps (s : State) (e : Eng) :
    Keeps (foot [.anyReg, .anyWin, .recTick, .timers, .hostQ, .fieldQ, .held, .gap, .bar, .faults, .cou, .bru, .pal, .pwr, .col, .nul, .var, .str, .evt, .lnk, .hka, .hkb, .refOnAt, .cal] ||| foot [.mgt, .cfg, .flash, .free, .winAddrs, .srcs]) s (State.restoreTick s e) := by
  unfold State.restoreTick
  repeat' first
    | with_reducible assumption
    | with_reducible apply Keeps.refl
    | with_reducible apply Keeps.ite
    | (apply Keeps.step; with_reducible apply State.engRestore_keeps)
    | (with_reducible apply Keeps.forEach; intro _ _ _)
    | (with_reducible apply Keeps.foldl_fst; intro _ _ _)
    | (with_reducible apply Keeps.foldl_snd; intro _ _ _)
    | (with_reducible apply Keeps.foldl; intro _ _ _)
    | decide +kernel
    | exact sub_flt _ (by decide +kernel)
    | exact sub_eng _ (by decide +kernel)
    | exact sub_hk _ (by decide +kernel)
    | exact sub_port _ _ (by decide +kernel)
    | exact sub_win _ (by decide +kernel)
    | exact sub_any _ (by decide +kernel)
    | split

theorem State.slowWork_keeps (s : State) :
    Keeps (foot [.lnk, .srcs]) s (State.slowWork s) := by
  unfold State.slowWork
  extract_lets a1 a2
  try clear_value a1
  have ha2 : Keeps (foot [.lnk, .srcs]) s a2 := by
    unfold a2
    repeat' first
      | with_reducible assumption
      | with_reducible apply Keeps.refl
      | with_reducible apply Keeps.ite
      | (apply Keeps.step; with_reducible apply State.standing_keeps)
      | (with_reducible apply Keeps.forEach; intro _ _ _)
      | (with_reducible apply Keeps.foldl_fst; intro _ _ _)
      | (with_reducible apply Keeps.foldl_snd; intro _ _ _)
      | (with_reducible apply Keeps.foldl; intro _ _ _)
      | decide +kernel
      | exact sub_flt _ (by decide +kernel)
      | exact sub_eng _ (by decide +kernel)
      | exact sub_hk _ (by decide +kernel)
      | exact sub_port _ _ (by decide +kernel)
      | exact sub_win _ (by decide +kernel)
      | exact sub_any _ (by decide +kernel)
      | split
      | refine Keeps.upd ?_
  try clear_value a2
  repeat' first
    | with_reducible assumption
    | with_reducible apply Keeps.refl
    | with_reducible apply Keeps.ite
    | (apply Keeps.step; with_reducible apply State.standing_keeps)
    | (with_reducible apply Keeps.forEach; intro _ _ _)
    | (with_reducible apply Keeps.foldl_fst; intro _ _ _)
    | (with_reducible apply Keeps.foldl_snd; intro _ _ _)
    | (with_reducible apply Keeps.foldl; intro _ _ _)
    | decide +kernel
    | exact sub_flt _ (by decide +kernel)
    | exact sub_eng _ (by decide +kernel)
    | exact sub_hk _ (by decide +kernel)
    | exact sub_port _ _ (by decide +kernel)
    | exact sub_win _ (by decide +kernel)
    | exact sub_any _ (by decide +kernel)
    | split
    | refine Keeps.upd ?_

theorem State.retireAt_keeps (s : State) (u : Nat) (at_ : PM) :
    Keeps (foot [.reg GLB_DETERMINISM, .reg LNK_DEADLETTER_COUNT, .reg (ENG_STATUS 0x600), .reg (ENG_STATUS 0x1B00), .flt, .win .lnk, .recTick, .hostQ, .fieldQ, .bar, .faults, .cou, .bru, .lnk, .free, .srcs]) s (State.retireAt s u at_) := by
  unfold State.retireAt
  extract_lets a1 a2 a3
  try clear_value a1
  try clear_value a2
  try clear_value a3
  repeat' first
    | with_reducible assumption
    | with_reducible apply Keeps.refl
    | with_reducible apply Keeps.ite
    | (apply Keeps.step; with_reducible apply State.launchWrite_keeps)
    | (with_reducible apply Keeps.forEach; intro _ _ _)
    | (with_reducible apply Keeps.foldl_fst; intro _ _ _)
    | (with_reducible apply Keeps.foldl_snd; intro _ _ _)
    | (with_reducible apply Keeps.foldl; intro _ _ _)
    | decide +kernel
    | exact sub_flt _ (by decide +kernel)
    | exact sub_eng _ (by decide +kernel)
    | exact sub_hk _ (by decide +kernel)
    | exact sub_port _ _ (by decide +kernel)
    | exact sub_win _ (by decide +kernel)
    | exact sub_any _ (by decide +kernel)
    | split

theorem State.faultPolicy_keeps (s : State) :
    Keeps (foot [.reg GLB_DETERMINISM, .reg LNK_DEADLETTER_COUNT, .reg (ENG_STATUS 0x600), .reg (ENG_STATUS 0x1B00), .flt, .win .lnk, .recTick, .hostQ, .fieldQ, .bar, .faults, .cou, .bru, .lnk, .free, .srcs]) s (State.faultPolicy s) := by
  unfold State.faultPolicy
  extract_lets a1 a2 a3
  try clear_value a1
  try clear_value a2
  have ha3 : Keeps (foot [.reg GLB_DETERMINISM, .reg LNK_DEADLETTER_COUNT, .reg (ENG_STATUS 0x600), .reg (ENG_STATUS 0x1B00), .flt, .win .lnk, .recTick, .hostQ, .fieldQ, .bar, .faults, .cou, .bru, .lnk, .free, .srcs]) s a3 := by
    unfold a3
    repeat' first
      | with_reducible assumption
      | with_reducible apply Keeps.refl
      | with_reducible apply Keeps.ite
      | (apply Keeps.step; with_reducible apply State.retireAt_keeps)
      | (apply Keeps.step; with_reducible apply State.swapSend_keeps)
      | (with_reducible apply Keeps.forEach; intro _ _ _)
      | (with_reducible apply Keeps.foldl_fst; intro _ _ _)
      | (with_reducible apply Keeps.foldl_snd; intro _ _ _)
      | (with_reducible apply Keeps.foldl; intro _ _ _)
      | decide +kernel
      | exact sub_flt _ (by decide +kernel)
      | exact sub_eng _ (by decide +kernel)
      | exact sub_hk _ (by decide +kernel)
      | exact sub_port _ _ (by decide +kernel)
      | exact sub_win _ (by decide +kernel)
      | exact sub_any _ (by decide +kernel)
      | split
      | refine Keeps.upd ?_
  try clear_value a3
  repeat' first
    | with_reducible assumption
    | with_reducible apply Keeps.refl
    | with_reducible apply Keeps.ite
    | (apply Keeps.step; with_reducible apply State.retireAt_keeps)
    | (apply Keeps.step; with_reducible apply State.swapSend_keeps)
    | (with_reducible apply Keeps.forEach; intro _ _ _)
    | (with_reducible apply Keeps.foldl_fst; intro _ _ _)
    | (with_reducible apply Keeps.foldl_snd; intro _ _ _)
    | (with_reducible apply Keeps.foldl; intro _ _ _)
    | decide +kernel
    | exact sub_flt _ (by decide +kernel)
    | exact sub_eng _ (by decide +kernel)
    | exact sub_hk _ (by decide +kernel)
    | exact sub_port _ _ (by decide +kernel)
    | exact sub_win _ (by decide +kernel)
    | exact sub_any _ (by decide +kernel)
    | split
    | refine Keeps.upd ?_

theorem State.powerRoutine_keeps (s : State) :
    Keeps (foot [.bar, .faults]) s (State.powerRoutine s) := by
  unfold State.powerRoutine
  repeat' first
    | with_reducible assumption
    | with_reducible apply Keeps.refl
    | with_reducible apply Keeps.ite
    | (apply Keeps.step; with_reducible apply State.sendWrite_keeps)
    | (with_reducible apply Keeps.forEach; intro _ _ _)
    | (with_reducible apply Keeps.foldl_fst; intro _ _ _)
    | (with_reducible apply Keeps.foldl_snd; intro _ _ _)
    | (with_reducible apply Keeps.foldl; intro _ _ _)
    | decide +kernel
    | exact sub_flt _ (by decide +kernel)
    | exact sub_eng _ (by decide +kernel)
    | exact sub_hk _ (by decide +kernel)
    | exact sub_port _ _ (by decide +kernel)
    | exact sub_win _ (by decide +kernel)
    | exact sub_any _ (by decide +kernel)
    | split

theorem State.standardWork_keeps (s : State) (e : Eng) (n : Nat) :
    Keeps (foot [.reg GLB_DETERMINISM, .reg LNK_DEADLETTER_COUNT, .reg (ENG_STATUS 0x600), .reg (ENG_STATUS 0x1B00), .flt, .win .lnk, .recTick, .hostQ, .fieldQ, .bar, .faults, .cou, .bru, .lnk, .free, .srcs]) s (State.standardWork s e n) := by
  unfold State.standardWork
  repeat' first
    | with_reducible assumption
    | with_reducible apply Keeps.refl
    | with_reducible apply Keeps.ite
    | (apply Keeps.step; with_reducible apply State.slowWork_keeps)
    | (apply Keeps.step; with_reducible apply State.faultPolicy_keeps)
    | (apply Keeps.step; with_reducible apply State.powerRoutine_keeps)
    | (with_reducible apply Keeps.forEach; intro _ _ _)
    | (with_reducible apply Keeps.foldl_fst; intro _ _ _)
    | (with_reducible apply Keeps.foldl_snd; intro _ _ _)
    | (with_reducible apply Keeps.foldl; intro _ _ _)
    | decide +kernel
    | exact sub_flt _ (by decide +kernel)
    | exact sub_eng _ (by decide +kernel)
    | exact sub_hk _ (by decide +kernel)
    | exact sub_port _ _ (by decide +kernel)
    | exact sub_win _ (by decide +kernel)
    | exact sub_any _ (by decide +kernel)
    | split

theorem State.startRoutine_keeps (s : State) (e : Eng) (svc : Bool) (n : Nat) (arg : W24) :
    Keeps (foot [.reg GLB_DETERMINISM, .reg LNK_DEADLETTER_COUNT, .reg (ENG_STATUS 0x600), .reg (ENG_PC 0x600), .reg (ENG_ROUTINE_ACTIVE 0x600), .reg (ENG_STATUS 0x1B00), .reg (ENG_PC 0x1B00), .reg (ENG_ROUTINE_ACTIVE 0x1B00), .flt, .win .lnk, .recTick, .hostQ, .fieldQ, .bar, .faults, .cou, .bru, .lnk, .free, .srcs]) s (State.startRoutine s e svc n arg) := by
  unfold State.startRoutine
  extract_lets a1 a2 a3 a4
  have ha2 : Keeps (foot [.reg GLB_DETERMINISM, .reg LNK_DEADLETTER_COUNT, .reg (ENG_STATUS 0x600), .reg (ENG_PC 0x600), .reg (ENG_ROUTINE_ACTIVE 0x600), .reg (ENG_STATUS 0x1B00), .reg (ENG_PC 0x1B00), .reg (ENG_ROUTINE_ACTIVE 0x1B00), .flt, .win .lnk, .recTick, .hostQ, .fieldQ, .bar, .faults, .cou, .bru, .lnk, .free, .srcs]) s a2 := by
    unfold a2
    repeat' first
      | with_reducible assumption
      | with_reducible apply Keeps.refl
      | with_reducible apply Keeps.ite
      | (apply Keeps.step; with_reducible apply State.standardWork_keeps)
      | (apply Keeps.step; with_reducible apply State.setEpc_keeps)
      | (apply Keeps.step; with_reducible apply State.setCtx_keeps)
      | (apply Keeps.step; with_reducible apply State.setFld_keeps)
      | (apply Keeps.step; with_reducible apply State.setEng_keeps)
      | (apply Keeps.step; with_reducible apply State.setBit_keeps)
      | (with_reducible apply Keeps.forEach; intro _ _ _)
      | (with_reducible apply Keeps.foldl_fst; intro _ _ _)
      | (with_reducible apply Keeps.foldl_snd; intro _ _ _)
      | (with_reducible apply Keeps.foldl; intro _ _ _)
      | decide +kernel
      | exact sub_eng _ (by decide +kernel)
      | exact sub_flt _ (by decide +kernel)
      | exact sub_hk _ (by decide +kernel)
      | exact sub_port _ _ (by decide +kernel)
      | exact sub_win _ (by decide +kernel)
      | exact sub_any _ (by decide +kernel)
      | split
  try clear_value a2
  try clear_value a3
  have ha4 : Keeps (foot [.reg GLB_DETERMINISM, .reg LNK_DEADLETTER_COUNT, .reg (ENG_STATUS 0x600), .reg (ENG_PC 0x600), .reg (ENG_ROUTINE_ACTIVE 0x600), .reg (ENG_STATUS 0x1B00), .reg (ENG_PC 0x1B00), .reg (ENG_ROUTINE_ACTIVE 0x1B00), .flt, .win .lnk, .recTick, .hostQ, .fieldQ, .bar, .faults, .cou, .bru, .lnk, .free, .srcs]) s a4 := by
    unfold a4
    repeat' first
      | with_reducible assumption
      | with_reducible apply Keeps.refl
      | with_reducible apply Keeps.ite
      | (apply Keeps.step; with_reducible apply State.standardWork_keeps)
      | (apply Keeps.step; with_reducible apply State.setEpc_keeps)
      | (apply Keeps.step; with_reducible apply State.setCtx_keeps)
      | (apply Keeps.step; with_reducible apply State.setFld_keeps)
      | (apply Keeps.step; with_reducible apply State.setEng_keeps)
      | (apply Keeps.step; with_reducible apply State.setBit_keeps)
      | (with_reducible apply Keeps.forEach; intro _ _ _)
      | (with_reducible apply Keeps.foldl_fst; intro _ _ _)
      | (with_reducible apply Keeps.foldl_snd; intro _ _ _)
      | (with_reducible apply Keeps.foldl; intro _ _ _)
      | decide +kernel
      | exact sub_eng _ (by decide +kernel)
      | exact sub_flt _ (by decide +kernel)
      | exact sub_hk _ (by decide +kernel)
      | exact sub_port _ _ (by decide +kernel)
      | exact sub_win _ (by decide +kernel)
      | exact sub_any _ (by decide +kernel)
      | split
  try clear_value a4
  repeat' first
    | with_reducible assumption
    | with_reducible apply Keeps.refl
    | with_reducible apply Keeps.ite
    | (apply Keeps.step; with_reducible apply State.standardWork_keeps)
    | (apply Keeps.step; with_reducible apply State.setEpc_keeps)
    | (apply Keeps.step; with_reducible apply State.setCtx_keeps)
    | (apply Keeps.step; with_reducible apply State.setFld_keeps)
    | (apply Keeps.step; with_reducible apply State.setEng_keeps)
    | (apply Keeps.step; with_reducible apply State.setBit_keeps)
    | (with_reducible apply Keeps.forEach; intro _ _ _)
    | (with_reducible apply Keeps.foldl_fst; intro _ _ _)
    | (with_reducible apply Keeps.foldl_snd; intro _ _ _)
    | (with_reducible apply Keeps.foldl; intro _ _ _)
    | decide +kernel
    | exact sub_eng _ (by decide +kernel)
    | exact sub_flt _ (by decide +kernel)
    | exact sub_hk _ (by decide +kernel)
    | exact sub_port _ _ (by decide +kernel)
    | exact sub_win _ (by decide +kernel)
    | exact sub_any _ (by decide +kernel)
    | split

theorem State.startPending_keeps (s : State) (e : Eng) (svc : Bool) (x : Nat × W24) :
    Keeps (foot [.reg GLB_DETERMINISM, .reg LNK_DEADLETTER_COUNT, .reg (ENG_STATUS 0x600), .reg (ENG_PC 0x600), .reg (ENG_ROUTINE_ACTIVE 0x600), .reg (ENG_STATUS 0x1B00), .reg (ENG_PC 0x1B00), .reg (ENG_ROUTINE_ACTIVE 0x1B00), .flt, .win .lnk, .recTick, .hostQ, .fieldQ, .bar, .faults, .cou, .bru, .lnk, .free, .srcs]) s (State.startPending s e svc x) := by
  unfold State.startPending
  extract_lets a1
  try clear_value a1
  repeat' first
    | with_reducible assumption
    | with_reducible apply Keeps.refl
    | with_reducible apply Keeps.ite
    | (apply Keeps.step; with_reducible apply State.startRoutine_keeps)
    | (apply Keeps.step; with_reducible apply State.setEng_keeps)
    | (with_reducible apply Keeps.forEach; intro _ _ _)
    | (with_reducible apply Keeps.foldl_fst; intro _ _ _)
    | (with_reducible apply Keeps.foldl_snd; intro _ _ _)
    | (with_reducible apply Keeps.foldl; intro _ _ _)
    | decide +kernel
    | exact sub_flt _ (by decide +kernel)
    | exact sub_eng _ (by decide +kernel)
    | exact sub_hk _ (by decide +kernel)
    | exact sub_port _ _ (by decide +kernel)
    | exact sub_win _ (by decide +kernel)
    | exact sub_any _ (by decide +kernel)
    | split

theorem State.readTaken_keeps (s : State) (e : Eng) (svc : Bool) (v : Word) :
    Keeps (foot [.reg GLB_DETERMINISM, .reg LNK_DEADLETTER_COUNT, .reg (ENG_STATUS 0x600), .reg (ENG_PC 0x600), .reg (ENG_WAIT_COND 0x600), .reg (ENG_ROUTINE_ACTIVE 0x600), .reg (ENG_STATUS 0x1B00), .reg (ENG_PC 0x1B00), .reg (ENG_WAIT_COND 0x1B00), .reg (ENG_ROUTINE_ACTIVE 0x1B00), .flt, .anyWin, .recTick, .bar, .faults, .cou, .bru, .lnk, .free, .srcs]) s (State.readTaken s e svc v) := by
  unfold State.readTaken
  repeat' first
    | with_reducible assumption
    | with_reducible apply Keeps.refl
    | with_reducible apply Keeps.ite
    | (apply Keeps.step; with_reducible apply State.readReply_keeps)
    | (apply Keeps.step; with_reducible apply State.setBit_keeps)
    | (with_reducible apply Keeps.forEach; intro _ _ _)
    | (with_reducible apply Keeps.foldl_fst; intro _ _ _)
    | (with_reducible apply Keeps.foldl_snd; intro _ _ _)
    | (with_reducible apply Keeps.foldl; intro _ _ _)
    | decide +kernel
    | exact sub_eng _ (by decide +kernel)
    | exact sub_flt _ (by decide +kernel)
    | exact sub_hk _ (by decide +kernel)
    | exact sub_port _ _ (by decide +kernel)
    | exact sub_win _ (by decide +kernel)
    | exact sub_any _ (by decide +kernel)
    | split

theorem State.showWait_keeps (s : State) (e : Eng) (w : Nat) (t0 : Nat) :
    Keeps (foot [.reg (ENG_STATUS 0x600), .reg (ENG_WAIT_COND 0x600), .reg (ENG_STATUS 0x1B00), .reg (ENG_WAIT_COND 0x1B00)]) s (State.showWait s e w t0) := by
  unfold State.showWait
  extract_lets a1
  repeat' first
    | with_reducible assumption
    | with_reducible apply Keeps.refl
    | with_reducible apply Keeps.ite
    | (apply Keeps.step; with_reducible apply State.setFld_keeps)
    | (apply Keeps.step; with_reducible apply State.setBit_keeps)
    | (with_reducible apply Keeps.forEach; intro _ _ _)
    | (with_reducible apply Keeps.foldl_fst; intro _ _ _)
    | (with_reducible apply Keeps.foldl_snd; intro _ _ _)
    | (with_reducible apply Keeps.foldl; intro _ _ _)
    | decide +kernel
    | exact sub_eng _ (by decide +kernel)
    | exact sub_flt _ (by decide +kernel)
    | exact sub_hk _ (by decide +kernel)
    | exact sub_port _ _ (by decide +kernel)
    | exact sub_win _ (by decide +kernel)
    | exact sub_any _ (by decide +kernel)
    | split

theorem State.readTick_keeps (s : State) (e : Eng) (svc : Bool) (mayRun : Bool) (c : Ctx) :
    Keeps (foot [.reg GLB_DETERMINISM, .reg LNK_DEADLETTER_COUNT, .reg (ENG_STATUS 0x600), .reg (ENG_PC 0x600), .reg (ENG_WAIT_COND 0x600), .reg (ENG_ROUTINE_ACTIVE 0x600), .reg (ENG_STATUS 0x1B00), .reg (ENG_PC 0x1B00), .reg (ENG_WAIT_COND 0x1B00), .reg (ENG_ROUTINE_ACTIVE 0x1B00), .flt, .anyWin, .recTick, .bar, .faults, .cou, .bru, .lnk, .free, .srcs]) s (State.readTick s e svc mayRun c).2 := by
  unfold State.readTick
  extract_lets a1
  try clear_value a1
  repeat' first
    | with_reducible assumption
    | with_reducible apply Keeps.refl
    | split
    | with_reducible apply Keeps.ite
    | (apply Keeps.step; with_reducible apply State.readTaken_keeps)
    | (apply Keeps.step; with_reducible apply State.readReply_keeps)
    | (apply Keeps.step; with_reducible apply State.timedOut_keeps)
    | (apply Keeps.step; with_reducible apply State.showWait_keeps)
    | (with_reducible apply Keeps.forEach; intro _ _ _)
    | (with_reducible apply Keeps.foldl_fst; intro _ _ _)
    | (with_reducible apply Keeps.foldl_snd; intro _ _ _)
    | (with_reducible apply Keeps.foldl; intro _ _ _)
    | decide +kernel
    | exact sub_flt _ (by decide +kernel)
    | exact sub_eng _ (by decide +kernel)
    | exact sub_hk _ (by decide +kernel)
    | exact sub_port _ _ (by decide +kernel)
    | exact sub_win _ (by decide +kernel)
    | exact sub_any _ (by decide +kernel)

theorem State.ctxTick_keeps (s : State) (e : Eng) (svc mayRun : Bool) :
    Keeps (foot [.anyReg, .anyWin, .recTick, .timers, .hostQ, .fieldQ, .held, .gap, .tm, .bar, .faults, .cou, .bru, .pal, .pwr, .col, .nul, .var, .str, .evt, .lnk, .hka, .hkb, .refOnAt] ||| foot [.cal, .mgt, .cfg, .flash, .free, .winAddrs, .srcs]) s (State.ctxTick s e svc mayRun).2 := by
  unfold State.ctxTick
  split
  · exact Keeps.refl _ _
  split
  · exact (State.readTick_keeps _ _ _ _ _).mono (by decide +kernel)
  extract_lets x w0 w t0 out s1 s2 src s3 r s4
  clear_value x w0 w t0 out
  split
  · show Keeps _ s (ite _ _ _)
    exact Keeps.ite (Keeps.refl _ _) ((State.breakHit_keeps _ _).mono (by decide +kernel))
  split
  · split
    · exact (State.setWait_keeps _ _ _ _).mono (by decide +kernel)
    have h1 : Keeps (foot [.anyReg, .anyWin, .recTick, .timers, .hostQ, .fieldQ, .held, .gap, .tm, .bar, .faults, .cou, .bru, .pal, .pwr, .col, .nul, .var, .str, .evt, .lnk, .hka, .hkb, .refOnAt] ||| foot [.cal, .mgt, .cfg, .flash, .free, .winAddrs, .srcs]) s s1 := by
      unfold s1
      refine Keeps.ite ((State.timedOut_keeps _ _).mono (by decide +kernel)) (Keeps.ite (Keeps.refl _ _) ?_)
      exact (State.setBit_keeps _ _ _).mono (sub_eng _ (by decide +kernel))
    have h2 : Keeps (foot [.anyReg, .anyWin, .recTick, .timers, .hostQ, .fieldQ, .held, .gap, .tm, .bar, .faults, .cou, .bru, .pal, .pwr, .col, .nul, .var, .str, .evt, .lnk, .hka, .hkb, .refOnAt] ||| foot [.cal, .mgt, .cfg, .flash, .free, .winAddrs, .srcs]) s s2 := (State.waitOver_keeps _ _ _).step (by decide +kernel) h1
    have h3 : Keeps (foot [.anyReg, .anyWin, .recTick, .timers, .hostQ, .fieldQ, .held, .gap, .tm, .bar, .faults, .cou, .bru, .pal, .pwr, .col, .nul, .var, .str, .evt, .lnk, .hka, .hkb, .refOnAt] ||| foot [.cal, .mgt, .cfg, .flash, .free, .winAddrs, .srcs]) s s3 := Keeps.ite h2 ((State.setEng_keeps _ _ _).step (by decide +kernel) h2)
    have h4 : Keeps (foot [.anyReg, .anyWin, .recTick, .timers, .hostQ, .fieldQ, .held, .gap, .tm, .bar, .faults, .cou, .bru, .pal, .pwr, .col, .nul, .var, .str, .evt, .lnk, .hka, .hkb, .refOnAt] ||| foot [.cal, .mgt, .cfg, .flash, .free, .winAddrs, .srcs]) s r.2 := (State.fetch_keeps _ _ _).step (by decide +kernel) h3
    clear_value r
    show Keeps _ s (match r.1 with
      | some d => r.2.execFetched e svc d
      | none => r.2.guardEnd e svc 5)
    split
    · exact (State.execFetched_keeps _ _ _ _).step (by decide +kernel) h4
    · exact (State.guardEnd_keeps _ _ _ _).step (by decide +kernel) h4
  · have h1 : Keeps (foot [.anyReg, .anyWin, .recTick, .timers, .hostQ, .fieldQ, .held, .gap, .tm, .bar, .faults, .cou, .bru, .pal, .pwr, .col, .nul, .var, .str, .evt, .lnk, .hka, .hkb, .refOnAt] ||| foot [.cal, .mgt, .cfg, .flash, .free, .winAddrs, .srcs]) s s4 := (State.setWait_keeps _ _ _ _).mono (by decide +kernel)
    show Keeps _ s (ite _ _ _)
    exact Keeps.ite h1 ((State.showWait_keeps _ _ _ _).step (by decide +kernel) h1)

theorem State.abandonNow_keeps (s : State) (e : Eng) (causes : BitVec 5) :
    Keeps (foot [.anyReg, .anyWin, .recTick, .timers, .hostQ, .fieldQ, .held, .gap, .bar, .faults, .cou, .bru, .pal, .pwr, .col, .nul, .var, .str, .evt, .lnk, .hka, .hkb, .refOnAt, .cal] ||| foot [.mgt, .cfg, .flash, .free, .winAddrs, .srcs]) s (State.abandonNow s e causes) := by
  unfold State.abandonNow
  extract_lets a1
  have ha1 : Keeps (foot [.anyReg, .anyWin, .recTick, .timers, .hostQ, .fieldQ, .held, .gap, .bar, .faults, .cou, .bru, .pal, .pwr, .col, .nul, .var, .str, .evt, .lnk, .hka, .hkb, .refOnAt, .cal] ||| foot [.mgt, .cfg, .flash, .free, .winAddrs, .srcs]) s a1 := by
    unfold a1
    repeat' first
      | with_reducible assumption
      | with_reducible apply Keeps.refl
      | with_reducible apply Keeps.ite
      | (apply Keeps.step; with_reducible apply State.abandon_keeps)
      | (apply Keeps.step; with_reducible apply State.engRestore_keeps)
      | (with_reducible apply Keeps.forEach; intro _ _ _)
      | (with_reducible apply Keeps.foldl_fst; intro _ _ _)
      | (with_reducible apply Keeps.foldl_snd; intro _ _ _)
      | (with_reducible apply Keeps.foldl; intro _ _ _)
      | decide +kernel
      | exact sub_flt _ (by decide +kernel)
      | exact sub_eng _ (by decide +kernel)
      | exact sub_hk _ (by decide +kernel)
      | exact sub_port _ _ (by decide +kernel)
      | exact sub_win _ (by decide +kernel)
      | exact sub_any _ (by decide +kernel)
      | split
  try clear_value a1
  repeat' first
    | with_reducible assumption
    | with_reducible apply Keeps.refl
    | with_reducible apply Keeps.ite
    | (apply Keeps.step; with_reducible apply State.abandon_keeps)
    | (apply Keeps.step; with_reducible apply State.engRestore_keeps)
    | (with_reducible apply Keeps.forEach; intro _ _ _)
    | (with_reducible apply Keeps.foldl_fst; intro _ _ _)
    | (with_reducible apply Keeps.foldl_snd; intro _ _ _)
    | (with_reducible apply Keeps.foldl; intro _ _ _)
    | decide +kernel
    | exact sub_flt _ (by decide +kernel)
    | exact sub_eng _ (by decide +kernel)
    | exact sub_hk _ (by decide +kernel)
    | exact sub_port _ _ (by decide +kernel)
    | exact sub_win _ (by decide +kernel)
    | exact sub_any _ (by decide +kernel)
    | split

theorem State.stepNow_keeps (s : State) (e : Eng) :
    Keeps (foot [.anyReg, .anyWin, .recTick, .timers, .hostQ, .fieldQ, .held, .gap, .tm, .bar, .faults, .cou, .bru, .pal, .pwr, .col, .nul, .var, .str, .evt, .lnk, .hka, .hkb, .refOnAt] ||| foot [.cal, .mgt, .cfg, .flash, .free, .winAddrs, .srcs]) s (State.stepNow s e) := by
  unfold State.stepNow
  extract_lets a1
  have ha1 : Keeps (foot [.anyReg, .anyWin, .recTick, .timers, .hostQ, .fieldQ, .held, .gap, .tm, .bar, .faults, .cou, .bru, .pal, .pwr, .col, .nul, .var, .str, .evt, .lnk, .hka, .hkb, .refOnAt] ||| foot [.cal, .mgt, .cfg, .flash, .free, .winAddrs, .srcs]) s a1.2 := by
    unfold a1
    repeat' first
      | with_reducible assumption
      | with_reducible apply Keeps.refl
      | with_reducible apply Keeps.ite
      | (apply Keeps.step; with_reducible apply State.fetch_keeps)
      | (apply Keeps.step; with_reducible apply State.execFetched_keeps)
      | (apply Keeps.step; with_reducible apply State.guardEnd_keeps)
      | (with_reducible apply Keeps.forEach; intro _ _ _)
      | (with_reducible apply Keeps.foldl_fst; intro _ _ _)
      | (with_reducible apply Keeps.foldl_snd; intro _ _ _)
      | (with_reducible apply Keeps.foldl; intro _ _ _)
      | decide +kernel
      | exact sub_flt _ (by decide +kernel)
      | exact sub_eng _ (by decide +kernel)
      | exact sub_hk _ (by decide +kernel)
      | exact sub_port _ _ (by decide +kernel)
      | exact sub_win _ (by decide +kernel)
      | exact sub_any _ (by decide +kernel)
      | split
  try clear_value a1
  repeat' first
    | with_reducible assumption
    | with_reducible apply Keeps.refl
    | with_reducible apply Keeps.ite
    | (apply Keeps.step; with_reducible apply State.fetch_keeps)
    | (apply Keeps.step; with_reducible apply State.execFetched_keeps)
    | (apply Keeps.step; with_reducible apply State.guardEnd_keeps)
    | (with_reducible apply Keeps.forEach; intro _ _ _)
    | (with_reducible apply Keeps.foldl_fst; intro _ _ _)
    | (with_reducible apply Keeps.foldl_snd; intro _ _ _)
    | (with_reducible apply Keeps.foldl; intro _ _ _)
    | decide +kernel
    | exact sub_flt _ (by decide +kernel)
    | exact sub_eng _ (by decide +kernel)
    | exact sub_hk _ (by decide +kernel)
    | exact sub_port _ _ (by decide +kernel)
    | exact sub_win _ (by decide +kernel)
    | exact sub_any _ (by decide +kernel)
    | split

theorem State.commitNow_keeps (s : State) (e : Eng) :
    Keeps (foot [.anyReg, .anyWin, .recTick, .timers, .hostQ, .fieldQ, .held, .gap, .bar, .faults, .cou, .bru, .pal, .pwr, .col, .nul, .var, .str, .evt, .lnk, .hka, .hkb, .refOnAt, .cal] ||| foot [.mgt, .cfg, .flash, .free, .winAddrs, .srcs]) s (State.commitNow s e) := by
  unfold State.commitNow
  repeat' first
    | with_reducible assumption
    | with_reducible apply Keeps.refl
    | with_reducible apply Keeps.ite
    | (apply Keeps.step; with_reducible apply State.engRestore_keeps)
    | (apply Keeps.step; with_reducible apply State.commitMark_keeps)
    | (with_reducible apply Keeps.forEach; intro _ _ _)
    | (with_reducible apply Keeps.foldl_fst; intro _ _ _)
    | (with_reducible apply Keeps.foldl_snd; intro _ _ _)
    | (with_reducible apply Keeps.foldl; intro _ _ _)
    | decide +kernel
    | exact sub_flt _ (by decide +kernel)
    | exact sub_eng _ (by decide +kernel)
    | exact sub_hk _ (by decide +kernel)
    | exact sub_port _ _ (by decide +kernel)
    | exact sub_win _ (by decide +kernel)
    | exact sub_any _ (by decide +kernel)
    | split

theorem State.execTick_keeps (s : State) (e : Eng) :
    Keeps (foot [.anyReg, .anyWin, .recTick, .timers, .hostQ, .fieldQ, .held, .gap, .tm, .bar, .faults, .cou, .bru, .pal, .pwr, .col, .nul, .var, .str, .evt, .lnk, .hka, .hkb, .refOnAt] ||| foot [.cal, .mgt, .cfg, .flash, .free, .winAddrs, .srcs]) s (State.execTick s e) := by
  unfold State.execTick
  extract_lets a1 a2 a3
  try clear_value a1
  have ha2 : Keeps (foot [.anyReg, .anyWin, .recTick, .timers, .hostQ, .fieldQ, .held, .gap, .tm, .bar, .faults, .cou, .bru, .pal, .pwr, .col, .nul, .var, .str, .evt, .lnk, .hka, .hkb, .refOnAt] ||| foot [.cal, .mgt, .cfg, .flash, .free, .winAddrs, .srcs]) s a2.2 := by
    unfold a2
    repeat' first
      | with_reducible assumption
      | with_reducible apply Keeps.refl
      | with_reducible apply Keeps.ite
      | (apply Keeps.step; with_reducible apply State.ctxTick_keeps)
      | (with_reducible apply Keeps.forEach; intro _ _ _)
      | (with_reducible apply Keeps.foldl_fst; intro _ _ _)
      | (with_reducible apply Keeps.foldl_snd; intro _ _ _)
      | (with_reducible apply Keeps.foldl; intro _ _ _)
      | decide +kernel
      | exact sub_flt _ (by decide +kernel)
      | exact sub_eng _ (by decide +kernel)
      | exact sub_hk _ (by decide +kernel)
      | exact sub_port _ _ (by decide +kernel)
      | exact sub_win _ (by decide +kernel)
      | exact sub_any _ (by decide +kernel)
      | split
  try clear_value a2
  try clear_value a3
  repeat' first
    | with_reducible assumption
    | with_reducible apply Keeps.refl
    | with_reducible apply Keeps.ite
    | (apply Keeps.step; with_reducible apply State.ctxTick_keeps)
    | (with_reducible apply Keeps.forEach; intro _ _ _)
    | (with_reducible apply Keeps.foldl_fst; intro _ _ _)
    | (with_reducible apply Keeps.foldl_snd; intro _ _ _)
    | (with_reducible apply Keeps.foldl; intro _ _ _)
    | decide +kernel
    | exact sub_flt _ (by decide +kernel)
    | exact sub_eng _ (by decide +kernel)
    | exact sub_hk _ (by decide +kernel)
    | exact sub_port _ _ (by decide +kernel)
    | exact sub_win _ (by decide +kernel)
    | exact sub_any _ (by decide +kernel)
    | split

theorem State.dispatch_keeps (s : State) (e : Eng) :
    Keeps (foot [.reg GLB_DETERMINISM, .reg LNK_DEADLETTER_COUNT, .reg (ENG_STATUS 0x600), .reg (ENG_PC 0x600), .reg (ENG_ROUTINE_ACTIVE 0x600), .reg (ENG_STATUS 0x1B00), .reg (ENG_PC 0x1B00), .reg (ENG_ROUTINE_ACTIVE 0x1B00), .flt, .win .lnk, .recTick, .hostQ, .fieldQ, .bar, .faults, .cou, .bru, .lnk, .free, .srcs]) s (State.dispatch s e) := by
  unfold State.dispatch
  split
  · exact Keeps.refl _ _
  extract_lets s1 x
  have h1 : Keeps (foot [.reg GLB_DETERMINISM, .reg LNK_DEADLETTER_COUNT, .reg (ENG_STATUS 0x600), .reg (ENG_PC 0x600), .reg (ENG_ROUTINE_ACTIVE 0x600), .reg (ENG_STATUS 0x1B00), .reg (ENG_PC 0x1B00), .reg (ENG_ROUTINE_ACTIVE 0x1B00), .flt, .win .lnk, .recTick, .hostQ, .fieldQ, .bar, .faults, .cou, .bru, .lnk, .free, .srcs]) s s1 := by
    unfold s1
    split
    · exact (State.startPending_keeps _ _ _ _).mono (by decide +kernel)
    · exact Keeps.refl _ _
  refine Keeps.ite h1 ?_
  split
  · next q _ n arg rest _ =>
    have h2 : Keeps (foot [.reg GLB_DETERMINISM, .reg LNK_DEADLETTER_COUNT, .reg (ENG_STATUS 0x600), .reg (ENG_PC 0x600), .reg (ENG_ROUTINE_ACTIVE 0x600), .reg (ENG_STATUS 0x1B00), .reg (ENG_PC 0x1B00), .reg (ENG_ROUTINE_ACTIVE 0x1B00), .flt, .win .lnk, .recTick, .hostQ, .fieldQ, .bar, .faults, .cou, .bru, .lnk, .free, .srcs]) s (s1.setEng e { x with owed := rest }) := (State.setEng_keeps _ _ _).step (by decide +kernel) h1
    exact Keeps.ite ((State.startRoutine_keeps _ _ _ _ _).step (by decide +kernel) h2)
      ((State.setBit_keeps _ _ _).step (sub_eng _ (by decide +kernel)) h2)
  · split
    · exact (State.startPending_keeps _ _ _ _).step (by decide +kernel) h1
    · exact h1

theorem State.timerTick_keeps (s : State) (e : Eng) :
    Keeps (foot [.anyWin]) s (State.timerTick s e) := by
  unfold State.timerTick
  extract_lets a1
  try clear_value a1
  repeat' first
    | with_reducible assumption
    | with_reducible apply Keeps.refl
    | with_reducible apply Keeps.ite
    | (apply Keeps.step; with_reducible apply State.setEreg_keeps)
    | (with_reducible apply Keeps.forEach; intro _ _ _)
    | (with_reducible apply Keeps.foldl_fst; intro _ _ _)
    | (with_reducible apply Keeps.foldl_snd; intro _ _ _)
    | (with_reducible apply Keeps.foldl; intro _ _ _)
    | decide +kernel
    | exact sub_flt _ (by decide +kernel)
    | exact sub_eng _ (by decide +kernel)
    | exact sub_hk _ (by decide +kernel)
    | exact sub_port _ _ (by decide +kernel)
    | exact sub_win _ (by decide +kernel)
    | exact sub_any _ (by decide +kernel)
    | split

theorem State.engTick_keeps (s : State) (e : Eng) :
    Keeps (foot [.anyReg, .anyWin, .recTick, .timers, .hostQ, .fieldQ, .held, .gap, .tm, .bar, .faults, .cou, .bru, .pal, .pwr, .col, .nul, .var, .str, .evt, .lnk, .hka, .hkb, .refOnAt] ||| foot [.cal, .mgt, .cfg, .flash, .free, .winAddrs, .srcs]) s (State.engTick s e) := by
  unfold State.engTick
  repeat' first
    | with_reducible assumption
    | with_reducible apply Keeps.refl
    | with_reducible apply Keeps.ite
    | (apply Keeps.step; with_reducible apply State.execTick_keeps)
    | (apply Keeps.step; with_reducible apply State.dispatch_keeps)
    | (apply Keeps.step; with_reducible apply State.causesTick_keeps)
    | (apply Keeps.step; with_reducible apply State.restoreTick_keeps)
    | (apply Keeps.step; with_reducible apply State.timerTick_keeps)
    | (with_reducible apply Keeps.forEach; intro _ _ _)
    | (with_reducible apply Keeps.foldl_fst; intro _ _ _)
    | (with_reducible apply Keeps.foldl_snd; intro _ _ _)
    | (with_reducible apply Keeps.foldl; intro _ _ _)
    | decide +kernel
    | exact sub_flt _ (by decide +kernel)
    | exact sub_eng _ (by decide +kernel)
    | exact sub_hk _ (by decide +kernel)
    | exact sub_port _ _ (by decide +kernel)
    | exact sub_win _ (by decide +kernel)
    | exact sub_any _ (by decide +kernel)
    | split

theorem State.endNow_keeps (s : State) (e : Eng) (svc : Bool) :
    Keeps (foot [.anyReg, .anyWin, .recTick, .timers, .hostQ, .fieldQ, .held, .gap, .bar, .faults, .cou, .bru, .pal, .pwr, .col, .nul, .var, .str, .evt, .lnk, .hka, .hkb, .refOnAt, .cal] ||| foot [.mgt, .cfg, .flash, .free, .winAddrs, .srcs]) s (State.endNow s e svc) := by
  unfold State.endNow
  extract_lets a1
  have ha1 : Keeps (foot [.anyReg, .anyWin, .recTick, .timers, .hostQ, .fieldQ, .held, .gap, .bar, .faults, .cou, .bru, .pal, .pwr, .col, .nul, .var, .str, .evt, .lnk, .hka, .hkb, .refOnAt, .cal] ||| foot [.mgt, .cfg, .flash, .free, .winAddrs, .srcs]) s a1 := by
    unfold a1
    repeat' first
      | with_reducible assumption
      | with_reducible apply Keeps.refl
      | with_reducible apply Keeps.ite
      | (apply Keeps.step; with_reducible apply State.ctxEnd_keeps)
      | (apply Keeps.step; with_reducible apply State.engRestore_keeps)
      | (with_reducible apply Keeps.forEach; intro _ _ _)
      | (with_reducible apply Keeps.foldl_fst; intro _ _ _)
      | (with_reducible apply Keeps.foldl_snd; intro _ _ _)
      | (with_reducible apply Keeps.foldl; intro _ _ _)
      | decide +kernel
      | exact sub_flt _ (by decide +kernel)
      | exact sub_eng _ (by decide +kernel)
      | exact sub_hk _ (by decide +kernel)
      | exact sub_port _ _ (by decide +kernel)
      | exact sub_win _ (by decide +kernel)
      | exact sub_any _ (by decide +kernel)
      | split
  try clear_value a1
  repeat' first
    | with_reducible assumption
    | with_reducible apply Keeps.refl
    | with_reducible apply Keeps.ite
    | (apply Keeps.step; with_reducible apply State.ctxEnd_keeps)
    | (apply Keeps.step; with_reducible apply State.engRestore_keeps)
    | (with_reducible apply Keeps.forEach; intro _ _ _)
    | (with_reducible apply Keeps.foldl_fst; intro _ _ _)
    | (with_reducible apply Keeps.foldl_snd; intro _ _ _)
    | (with_reducible apply Keeps.foldl; intro _ _ _)
    | decide +kernel
    | exact sub_flt _ (by decide +kernel)
    | exact sub_eng _ (by decide +kernel)
    | exact sub_hk _ (by decide +kernel)
    | exact sub_port _ _ (by decide +kernel)
    | exact sub_win _ (by decide +kernel)
    | exact sub_any _ (by decide +kernel)
    | split

theorem State.waitEndNow_keeps (s : State) (e : Eng) :
    Keeps (foot [.anyReg, .anyWin, .recTick, .timers, .hostQ, .fieldQ, .held, .gap, .tm, .bar, .faults, .cou, .bru, .pal, .pwr, .col, .nul, .var, .str, .evt, .lnk, .hka, .hkb, .refOnAt] ||| foot [.cal, .mgt, .cfg, .flash, .free, .winAddrs, .srcs]) s (State.waitEndNow s e) := by
  unfold State.waitEndNow
  extract_lets a1 a2
  have ha1 : Keeps (foot [.anyReg, .anyWin, .recTick, .timers, .hostQ, .fieldQ, .held, .gap, .tm, .bar, .faults, .cou, .bru, .pal, .pwr, .col, .nul, .var, .str, .evt, .lnk, .hka, .hkb, .refOnAt] ||| foot [.cal, .mgt, .cfg, .flash, .free, .winAddrs, .srcs]) s a1 := by
    unfold a1
    repeat' first
      | with_reducible assumption
      | with_reducible apply Keeps.refl
      | with_reducible apply Keeps.ite
      | (apply Keeps.step; with_reducible apply State.waitOver_keeps)
      | (apply Keeps.step; with_reducible apply State.setBit_keeps)
      | (apply Keeps.step; with_reducible apply State.readTaken_keeps)
      | (apply Keeps.step; with_reducible apply State.fetch_keeps)
      | (apply Keeps.step; with_reducible apply State.execFetched_keeps)
      | (apply Keeps.step; with_reducible apply State.guardEnd_keeps)
      | (with_reducible apply Keeps.forEach; intro _ _ _)
      | (with_reducible apply Keeps.foldl_fst; intro _ _ _)
      | (with_reducible apply Keeps.foldl_snd; intro _ _ _)
      | (with_reducible apply Keeps.foldl; intro _ _ _)
      | decide +kernel
      | exact sub_eng _ (by decide +kernel)
      | exact sub_flt _ (by decide +kernel)
      | exact sub_hk _ (by decide +kernel)
      | exact sub_port _ _ (by decide +kernel)
      | exact sub_win _ (by decide +kernel)
      | exact sub_any _ (by decide +kernel)
      | split
  try clear_value a1
  have ha2 : Keeps (foot [.anyReg, .anyWin, .recTick, .timers, .hostQ, .fieldQ, .held, .gap, .tm, .bar, .faults, .cou, .bru, .pal, .pwr, .col, .nul, .var, .str, .evt, .lnk, .hka, .hkb, .refOnAt] ||| foot [.cal, .mgt, .cfg, .flash, .free, .winAddrs, .srcs]) s a2.2 := by
    unfold a2
    repeat' first
      | with_reducible assumption
      | with_reducible apply Keeps.refl
      | with_reducible apply Keeps.ite
      | (apply Keeps.step; with_reducible apply State.waitOver_keeps)
      | (apply Keeps.step; with_reducible apply State.setBit_keeps)
      | (apply Keeps.step; with_reducible apply State.readTaken_keeps)
      | (apply Keeps.step; with_reducible apply State.fetch_keeps)
      | (apply Keeps.step; with_reducible apply State.execFetched_keeps)
      | (apply Keeps.step; with_reducible apply State.guardEnd_keeps)
      | (with_reducible apply Keeps.forEach; intro _ _ _)
      | (with_reducible apply Keeps.foldl_fst; intro _ _ _)
      | (with_reducible apply Keeps.foldl_snd; intro _ _ _)
      | (with_reducible apply Keeps.foldl; intro _ _ _)
      | decide +kernel
      | exact sub_eng _ (by decide +kernel)
      | exact sub_flt _ (by decide +kernel)
      | exact sub_hk _ (by decide +kernel)
      | exact sub_port _ _ (by decide +kernel)
      | exact sub_win _ (by decide +kernel)
      | exact sub_any _ (by decide +kernel)
      | split
  try clear_value a2
  repeat' first
    | with_reducible assumption
    | with_reducible apply Keeps.refl
    | with_reducible apply Keeps.ite
    | (apply Keeps.step; with_reducible apply State.waitOver_keeps)
    | (apply Keeps.step; with_reducible apply State.setBit_keeps)
    | (apply Keeps.step; with_reducible apply State.readTaken_keeps)
    | (apply Keeps.step; with_reducible apply State.fetch_keeps)
    | (apply Keeps.step; with_reducible apply State.execFetched_keeps)
    | (apply Keeps.step; with_reducible apply State.guardEnd_keeps)
    | (with_reducible apply Keeps.forEach; intro _ _ _)
    | (with_reducible apply Keeps.foldl_fst; intro _ _ _)
    | (with_reducible apply Keeps.foldl_snd; intro _ _ _)
    | (with_reducible apply Keeps.foldl; intro _ _ _)
    | decide +kernel
    | exact sub_eng _ (by decide +kernel)
    | exact sub_flt _ (by decide +kernel)
    | exact sub_hk _ (by decide +kernel)
    | exact sub_port _ _ (by decide +kernel)
    | exact sub_win _ (by decide +kernel)
    | exact sub_any _ (by decide +kernel)
    | split

theorem State.resumeNow_keeps (s : State) (e : Eng) :
    Keeps (foot [.cou, .bru]) s (State.resumeNow s e) := by
  unfold State.resumeNow
  extract_lets a1
  try clear_value a1
  repeat' first
    | with_reducible assumption
    | with_reducible apply Keeps.refl
    | with_reducible apply Keeps.ite
    | (apply Keeps.step; with_reducible apply State.setEng_keeps)
    | (with_reducible apply Keeps.forEach; intro _ _ _)
    | (with_reducible apply Keeps.foldl_fst; intro _ _ _)
    | (with_reducible apply Keeps.foldl_snd; intro _ _ _)
    | (with_reducible apply Keeps.foldl; intro _ _ _)
    | decide +kernel
    | exact sub_flt _ (by decide +kernel)
    | exact sub_eng _ (by decide +kernel)
    | exact sub_hk _ (by decide +kernel)
    | exact sub_port _ _ (by decide +kernel)
    | exact sub_win _ (by decide +kernel)
    | exact sub_any _ (by decide +kernel)
    | split

end Sys2Proof.Machine
end

