-- ==== Sys2Proof/Laws/KeepsLinks.lean ====
section
/-!
SUPPORT. Footprints of the operations of Machine/Links.lean: which parts of a state each can change.
-/
set_option Elab.async false
set_option linter.unusedTactic false
set_option linter.unreachableTactic false
namespace Sys2Proof.Machine

theorem State.pmReject_keeps (s : State) :
    Keeps (foot [.reg GLB_DETERMINISM, .reg TIM_STATUS, .reg LNK_DEADLETTER_COUNT, .reg (ENG_STATUS 0x600), .reg (ENG_STATUS 0x1B00), .flt, .win .lnk, .recTick, .bar, .faults, .cou, .bru, .lnk, .free, .srcs]) s (State.pmReject s) := by
  unfold State.pmReject
  repeat' first
    | with_reducible assumption
    | with_reducible apply Keeps.refl
    | with_reducible apply Keeps.ite
    | (apply Keeps.step; with_reducible apply State.raise_keeps)
    | (apply Keeps.step; with_reducible apply State.setBit_keeps)
    | (with_reducible apply Keeps.forEach; intro _ _ _)
    | (with_reducible apply Keeps.foldl_fst; intro _ _ _)
    | (with_reducible apply Keeps.foldl_snd; intro _ _ _)
    | (with_reducible apply Keeps.foldl; intro _ _ _)
    | decide +kernel
    | exact sub_flt _ (by decide +kernel)
    | exact sub_eng _ (by decide +kernel)
    | exact sub_hk _ (by decide +kernel)
    | exact sub_port _ _ (by decide +kernel)
    | exact sub_win _ (by decide +kernel)
    | exact sub_any _ (by decide +kernel)
    | split

theorem State.dropReplies_keeps (s : State) (a : Nat) :
    Keeps (foot [.reg LNK_SLOWCTL_STATUS, .lnk]) s (State.dropReplies s a) := by
  unfold State.dropReplies
  extract_lets a1 a2 a3 a4
  try clear_value a1
  try clear_value a2
  try clear_value a3
  try clear_value a4
  repeat' first
    | with_reducible assumption
    | with_reducible apply Keeps.refl
    | with_reducible apply Keeps.ite
    | (apply Keeps.step; with_reducible apply State.count_keeps)
    | (with_reducible apply Keeps.forEach; intro _ _ _)
    | (with_reducible apply Keeps.foldl_fst; intro _ _ _)
    | (with_reducible apply Keeps.foldl_snd; intro _ _ _)
    | (with_reducible apply Keeps.foldl; intro _ _ _)
    | decide +kernel
    | exact sub_flt _ (by decide +kernel)
    | exact sub_eng _ (by decide +kernel)
    | exact sub_hk _ (by decide +kernel)
    | exact sub_port _ _ (by decide +kernel)
    | exact sub_win _ (by decide +kernel)
    | exact sub_any _ (by decide +kernel)
    | split
    | refine Keeps.upd ?_

theorem State.pmDecide_keeps (s : State) (u : Nat) (lat : BitVec 12) (v : PM) (ok : Bool) :
    Keeps (foot [.reg GLB_DETERMINISM, .reg TIM_STATUS, .reg LNK_DEADLETTER_COUNT, .reg LNK_SLOWCTL_STATUS, .reg (ENG_STATUS 0x600), .reg (ENG_STATUS 0x1B00), .flt, .win .lnk, .recTick, .tm, .bar, .faults, .cou, .bru, .lnk, .free, .srcs]) s (State.pmDecide s u lat v ok) := by
  unfold State.pmDecide
  extract_lets a1 a2 a3 a4 a5 a6 a7 a8
  try clear_value a1
  try clear_value a2
  try clear_value a3
  try clear_value a4
  try clear_value a5
  try clear_value a6
  try clear_value a7
  have ha8 : Keeps (foot [.reg GLB_DETERMINISM, .reg TIM_STATUS, .reg LNK_DEADLETTER_COUNT, .reg LNK_SLOWCTL_STATUS, .reg (ENG_STATUS 0x600), .reg (ENG_STATUS 0x1B00), .flt, .win .lnk, .recTick, .tm, .bar, .faults, .cou, .bru, .lnk, .free, .srcs]) s a8 := by
    unfold a8
    repeat' first
      | with_reducible assumption
      | with_reducible apply Keeps.refl
      | with_reducible apply Keeps.ite
      | (apply Keeps.step; with_reducible apply State.pmReject_keeps)
      | (apply Keeps.step; with_reducible apply State.sendH_keeps)
      | (apply Keeps.step; with_reducible apply State.dropReplies_keeps)
      | (with_reducible apply Keeps.forEach; intro _ _ _)
      | (with_reducible apply Keeps.foldl_fst; intro _ _ _)
      | (with_reducible apply Keeps.foldl_snd; intro _ _ _)
      | (with_reducible apply Keeps.foldl; intro _ _ _)
      | decide +kernel
      | exact sub_flt _ (by decide +kernel)
      | exact sub_eng _ (by decide +kernel)
      | exact sub_hk _ (by decide +kernel)
      | exact sub_port _ _ (by decide +kernel)
      | exact sub_win _ (by decide +kernel)
      | exact sub_any _ (by decide +kernel)
      | split
      | refine Keeps.upd ?_
  try clear_value a8
  repeat' first
    | with_reducible assumption
    | with_reducible apply Keeps.refl
    | with_reducible apply Keeps.ite
    | (apply Keeps.step; with_reducible apply State.pmReject_keeps)
    | (apply Keeps.step; with_reducible apply State.sendH_keeps)
    | (apply Keeps.step; with_reducible apply State.dropReplies_keeps)
    | (with_reducible apply Keeps.forEach; intro _ _ _)
    | (with_reducible apply Keeps.foldl_fst; intro _ _ _)
    | (with_reducible apply Keeps.foldl_snd; intro _ _ _)
    | (with_reducible apply Keeps.foldl; intro _ _ _)
    | decide +kernel
    | exact sub_flt _ (by decide +kernel)
    | exact sub_eng _ (by decide +kernel)
    | exact sub_hk _ (by decide +kernel)
    | exact sub_port _ _ (by decide +kernel)
    | exact sub_win _ (by decide +kernel)
    | exact sub_any _ (by decide +kernel)
    | split
    | refine Keeps.upd ?_

theorem State.pmSecond_keeps (s : State) (ok : Bool) (vLow : Nat) (reserved : Nat) :
    Keeps (foot [.reg GLB_DETERMINISM, .reg TIM_STATUS, .reg LNK_DEADLETTER_COUNT, .reg LNK_SLOWCTL_STATUS, .reg (ENG_STATUS 0x600), .reg (ENG_STATUS 0x1B00), .flt, .win .lnk, .recTick, .tm, .bar, .faults, .cou, .bru, .lnk, .free, .srcs]) s (State.pmSecond s ok vLow reserved) := by
  unfold State.pmSecond
  extract_lets a1
  try clear_value a1
  repeat' first
    | with_reducible assumption
    | with_reducible apply Keeps.refl
    | with_reducible apply Keeps.ite
    | (apply Keeps.step; with_reducible apply State.pmDecide_keeps)
    | (with_reducible apply Keeps.forEach; intro _ _ _)
    | (with_reducible apply Keeps.foldl_fst; intro _ _ _)
    | (with_reducible apply Keeps.foldl_snd; intro _ _ _)
    | (with_reducible apply Keeps.foldl; intro _ _ _)
    | decide +kernel
    | exact sub_flt _ (by decide +kernel)
    | exact sub_eng _ (by decide +kernel)
    | exact sub_hk _ (by decide +kernel)
    | exact sub_port _ _ (by decide +kernel)
    | exact sub_win _ (by decide +kernel)
    | exact sub_any _ (by decide +kernel)
    | split
    | refine Keeps.upd ?_

theorem State.keepPeer_keeps (s : State) (p : Nat) (sheet : PM) (ps : List Parcel) :
    Keeps (foot [.lnk]) s (State.keepPeer s p sheet ps) := by
  unfold State.keepPeer
  extract_lets a1 a2
  try clear_value a1
  try clear_value a2
  repeat' first
    | with_reducible assumption
    | with_reducible apply Keeps.refl
    | with_reducible apply Keeps.ite
    | (with_reducible apply Keeps.forEach; intro _ _ _)
    | (with_reducible apply Keeps.foldl_fst; intro _ _ _)
    | (with_reducible apply Keeps.foldl_snd; intro _ _ _)
    | (with_reducible apply Keeps.foldl; intro _ _ _)
    | split
    | refine Keeps.upd ?_

theorem State.putMark_keeps (s : State) (m : Nat) :
    Keeps (foot [.lnk]) s (State.putMark s m) := by
  unfold State.putMark
  extract_lets a1 a2
  try clear_value a1
  try clear_value a2
  repeat' first
    | with_reducible assumption
    | with_reducible apply Keeps.refl
    | with_reducible apply Keeps.ite
    | (with_reducible apply Keeps.forEach; intro _ _ _)
    | (with_reducible apply Keeps.foldl_fst; intro _ _ _)
    | (with_reducible apply Keeps.foldl_snd; intro _ _ _)
    | (with_reducible apply Keeps.foldl; intro _ _ _)
    | split
    | refine Keeps.upd ?_

theorem State.scReply_keeps (s : State) (second : Bool) (done : Nat) (status : Nat) (tag : Nat) (idx : Nat) (v : Word) :
    Keeps (foot [.lnk]) s (State.scReply s second done status tag idx v) := by
  unfold State.scReply
  extract_lets a1 a2
  try clear_value a1
  try clear_value a2
  repeat' first
    | with_reducible assumption
    | with_reducible apply Keeps.refl
    | with_reducible apply Keeps.ite
    | (with_reducible apply Keeps.forEach; intro _ _ _)
    | (with_reducible apply Keeps.foldl_fst; intro _ _ _)
    | (with_reducible apply Keeps.foldl_snd; intro _ _ _)
    | (with_reducible apply Keeps.foldl; intro _ _ _)
    | split
    | refine Keeps.upd ?_

theorem State.scAnswer_keeps (s : State) (tag : Nat) (idx : Nat) (v : Word) (status : Nat) :
    Keeps (foot [.lnk]) s (State.scAnswer s tag idx v status) := by
  unfold State.scAnswer
  extract_lets a1
  try clear_value a1
  repeat' first
    | with_reducible assumption
    | with_reducible apply Keeps.refl
    | with_reducible apply Keeps.ite
    | (apply Keeps.step; with_reducible apply State.scReply_keeps)
    | (with_reducible apply Keeps.forEach; intro _ _ _)
    | (with_reducible apply Keeps.foldl_fst; intro _ _ _)
    | (with_reducible apply Keeps.foldl_snd; intro _ _ _)
    | (with_reducible apply Keeps.foldl; intro _ _ _)
    | decide +kernel
    | exact sub_flt _ (by decide +kernel)
    | exact sub_eng _ (by decide +kernel)
    | exact sub_hk _ (by decide +kernel)
    | exact sub_port _ _ (by decide +kernel)
    | exact sub_win _ (by decide +kernel)
    | exact sub_any _ (by decide +kernel)
    | split
    | refine Keeps.upd ?_

theorem State.scAsk_keeps (s : State) :
    Keeps (foot [.reg (ENG_STATUS 0x600), .reg (ENG_STATUS 0x1B00), .cou, .bru, .lnk, .free]) s (State.scAsk s) := by
  unfold State.scAsk
  extract_lets a1 a2
  have ha1 : Keeps (foot [.reg (ENG_STATUS 0x600), .reg (ENG_STATUS 0x1B00), .cou, .bru, .lnk, .free]) s a1 := by
    unfold a1
    repeat' first
      | with_reducible assumption
      | with_reducible apply Keeps.refl
      | with_reducible apply Keeps.ite
      | (apply Keeps.step; with_reducible apply State.note_keeps)
      | (apply Keeps.step; with_reducible apply State.trigger_keeps)
      | (with_reducible apply Keeps.forEach; intro _ _ _)
      | (with_reducible apply Keeps.foldl_fst; intro _ _ _)
      | (with_reducible apply Keeps.foldl_snd; intro _ _ _)
      | (with_reducible apply Keeps.foldl; intro _ _ _)
      | decide +kernel
      | exact sub_flt _ (by decide +kernel)
      | exact sub_eng _ (by decide +kernel)
      | exact sub_hk _ (by decide +kernel)
      | exact sub_port _ _ (by decide +kernel)
      | exact sub_win _ (by decide +kernel)
      | exact sub_any _ (by decide +kernel)
      | split
      | refine Keeps.upd ?_
  try clear_value a1
  try clear_value a2
  repeat' first
    | with_reducible assumption
    | with_reducible apply Keeps.refl
    | with_reducible apply Keeps.ite
    | (apply Keeps.step; with_reducible apply State.note_keeps)
    | (apply Keeps.step; with_reducible apply State.trigger_keeps)
    | (with_reducible apply Keeps.forEach; intro _ _ _)
    | (with_reducible apply Keeps.foldl_fst; intro _ _ _)
    | (with_reducible apply Keeps.foldl_snd; intro _ _ _)
    | (with_reducible apply Keeps.foldl; intro _ _ _)
    | decide +kernel
    | exact sub_flt _ (by decide +kernel)
    | exact sub_eng _ (by decide +kernel)
    | exact sub_hk _ (by decide +kernel)
    | exact sub_port _ _ (by decide +kernel)
    | exact sub_win _ (by decide +kernel)
    | exact sub_any _ (by decide +kernel)
    | split
    | refine Keeps.upd ?_

theorem State.scField_keeps (s : State) (op : Nat) (tag : Nat) (idx : Nat) (v : Word) (pm : PM) :
    Keeps (foot [.lnk]) s (State.scField s op tag idx v pm) := by
  unfold State.scField
  extract_lets a1
  try clear_value a1
  repeat' first
    | with_reducible assumption
    | with_reducible apply Keeps.refl
    | with_reducible apply Keeps.ite
    | (apply Keeps.step; with_reducible apply State.scReply_keeps)
    | (with_reducible apply Keeps.forEach; intro _ _ _)
    | (with_reducible apply Keeps.foldl_fst; intro _ _ _)
    | (with_reducible apply Keeps.foldl_snd; intro _ _ _)
    | (with_reducible apply Keeps.foldl; intro _ _ _)
    | decide +kernel
    | exact sub_flt _ (by decide +kernel)
    | exact sub_eng _ (by decide +kernel)
    | exact sub_hk _ (by decide +kernel)
    | exact sub_port _ _ (by decide +kernel)
    | exact sub_win _ (by decide +kernel)
    | exact sub_any _ (by decide +kernel)
    | split
    | refine Keeps.upd ?_

theorem State.scHost_keeps (s : State) (op : Nat) (tag : Nat) (idx : Nat) (v : Word) (pm : PM) :
    Keeps (foot [.anyReg, .anyWin, .recTick, .timers, .hostQ, .fieldQ, .held, .gap, .tm, .bar, .faults, .cou, .bru, .pal, .pwr, .col, .nul, .var, .str, .evt, .lnk, .hka, .hkb, .refOnAt] ||| foot [.cal, .mgt, .cfg, .flash, .free, .winAddrs, .srcs]) s (State.scHost s op tag idx v pm) := by
  unfold State.scHost
  extract_lets a1 a2
  have ha1 : Keeps (foot [.anyReg, .anyWin, .recTick, .timers, .hostQ, .fieldQ, .held, .gap, .tm, .bar, .faults, .cou, .bru, .pal, .pwr, .col, .nul, .var, .str, .evt, .lnk, .hka, .hkb, .refOnAt] ||| foot [.cal, .mgt, .cfg, .flash, .free, .winAddrs, .srcs]) s a1.2 := by
    unfold a1
    repeat' first
      | with_reducible assumption
      | with_reducible apply Keeps.refl
      | with_reducible apply Keeps.ite
      | (apply Keeps.step; with_reducible apply State.readReg_keeps)
      | (apply Keeps.step; with_reducible apply State.scReply_keeps)
      | (apply Keeps.step; with_reducible apply State.writeReg_keeps)
      | (apply Keeps.step; with_reducible apply State.launchReg_keeps)
      | (with_reducible apply Keeps.forEach; intro _ _ _)
      | (with_reducible apply Keeps.foldl_fst; intro _ _ _)
      | (with_reducible apply Keeps.foldl_snd; intro _ _ _)
      | (with_reducible apply Keeps.foldl; intro _ _ _)
      | decide +kernel
      | exact sub_flt _ (by decide +kernel)
      | exact sub_eng _ (by decide +kernel)
      | exact sub_hk _ (by decide +kernel)
      | exact sub_port _ _ (by decide +kernel)
      | exact sub_win _ (by decide +kernel)
      | exact sub_any _ (by decide +kernel)
      | split
  try clear_value a1
  have ha2 : Keeps (foot [.anyReg, .anyWin, .recTick, .timers, .hostQ, .fieldQ, .held, .gap, .tm, .bar, .faults, .cou, .bru, .pal, .pwr, .col, .nul, .var, .str, .evt, .lnk, .hka, .hkb, .refOnAt] ||| foot [.cal, .mgt, .cfg, .flash, .free, .winAddrs, .srcs]) s a2.2 := by
    unfold a2
    repeat' first
      | with_reducible assumption
      | with_reducible apply Keeps.refl
      | with_reducible apply Keeps.ite
      | (apply Keeps.step; with_reducible apply State.readReg_keeps)
      | (apply Keeps.step; with_reducible apply State.scReply_keeps)
      | (apply Keeps.step; with_reducible apply State.writeReg_keeps)
      | (apply Keeps.step; with_reducible apply State.launchReg_keeps)
      | (with_reducible apply Keeps.forEach; intro _ _ _)
      | (with_reducible apply Keeps.foldl_fst; intro _ _ _)
      | (with_reducible apply Keeps.foldl_snd; intro _ _ _)
      | (with_reducible apply Keeps.foldl; intro _ _ _)
      | decide +kernel
      | exact sub_flt _ (by decide +kernel)
      | exact sub_eng _ (by decide +kernel)
      | exact sub_hk _ (by decide +kernel)
      | exact sub_port _ _ (by decide +kernel)
      | exact sub_win _ (by decide +kernel)
      | exact sub_any _ (by decide +kernel)
      | split
  try clear_value a2
  repeat' first
    | with_reducible assumption
    | with_reducible apply Keeps.refl
    | with_reducible apply Keeps.ite
    | (apply Keeps.step; with_reducible apply State.readReg_keeps)
    | (apply Keeps.step; with_reducible apply State.scReply_keeps)
    | (apply Keeps.step; with_reducible apply State.writeReg_keeps)
    | (apply Keeps.step; with_reducible apply State.launchReg_keeps)
    | (with_reducible apply Keeps.forEach; intro _ _ _)
    | (with_reducible apply Keeps.foldl_fst; intro _ _ _)
    | (with_reducible apply Keeps.foldl_snd; intro _ _ _)
    | (with_reducible apply Keeps.foldl; intro _ _ _)
    | decide +kernel
    | exact sub_flt _ (by decide +kernel)
    | exact sub_eng _ (by decide +kernel)
    | exact sub_hk _ (by decide +kernel)
    | exact sub_port _ _ (by decide +kernel)
    | exact sub_win _ (by decide +kernel)
    | exact sub_any _ (by decide +kernel)
    | split

theorem State.scServe_keeps (s : State) (f : ScFrame) :
    Keeps (foot [.anyReg, .anyWin, .recTick, .timers, .hostQ, .fieldQ, .held, .gap, .tm, .bar, .faults, .cou, .bru, .pal, .pwr, .col, .nul, .var, .str, .evt, .lnk, .hka, .hkb, .refOnAt] ||| foot [.cal, .mgt, .cfg, .flash, .free, .winAddrs, .srcs]) s (State.scServe s f) := by
  unfold State.scServe
  extract_lets a1 a2 a3 a4 a5 a6 a7
  try clear_value a1
  try clear_value a2
  try clear_value a4
  try clear_value a5
  try clear_value a6
  have ha7 : Keeps (foot [.anyReg, .anyWin, .recTick, .timers, .hostQ, .fieldQ, .held, .gap, .tm, .bar, .faults, .cou, .bru, .pal, .pwr, .col, .nul, .var, .str, .evt, .lnk, .hka, .hkb, .refOnAt] ||| foot [.cal, .mgt, .cfg, .flash, .free, .winAddrs, .srcs]) s a7 := by
    unfold a7
    repeat' first
      | with_reducible assumption
      | with_reducible apply Keeps.refl
      | (show _ ||| _ = _; unfold a3; split <;> decide +kernel)
      | with_reducible apply Keeps.ite
      | (apply Keeps.step; with_reducible apply State.inc_keeps)
      | (apply Keeps.step; with_reducible apply State.scAsk_keeps)
      | (apply Keeps.step; with_reducible apply State.scReply_keeps)
      | (apply Keeps.step; with_reducible apply State.scField_keeps)
      | (apply Keeps.step; with_reducible apply State.scHost_keeps)
      | (with_reducible apply Keeps.forEach; intro _ _ _)
      | (with_reducible apply Keeps.foldl_fst; intro _ _ _)
      | (with_reducible apply Keeps.foldl_snd; intro _ _ _)
      | (with_reducible apply Keeps.foldl; intro _ _ _)
      | decide +kernel
      | exact sub_flt _ (by decide +kernel)
      | exact sub_eng _ (by decide +kernel)
      | exact sub_hk _ (by decide +kernel)
      | exact sub_port _ _ (by decide +kernel)
      | exact sub_win _ (by decide +kernel)
      | exact sub_any _ (by decide +kernel)
      | split
  try clear_value a7
  repeat' first
    | with_reducible assumption
    | with_reducible apply Keeps.refl
    | (show _ ||| _ = _; unfold a3; split <;> decide +kernel)
    | with_reducible apply Keeps.ite
    | (apply Keeps.step; with_reducible apply State.inc_keeps)
    | (apply Keeps.step; with_reducible apply State.scAsk_keeps)
    | (apply Keeps.step; with_reducible apply State.scReply_keeps)
    | (apply Keeps.step; with_reducible apply State.scField_keeps)
    | (apply Keeps.step; with_reducible apply State.scHost_keeps)
    | (with_reducible apply Keeps.forEach; intro _ _ _)
    | (with_reducible apply Keeps.foldl_fst; intro _ _ _)
    | (with_reducible apply Keeps.foldl_snd; intro _ _ _)
    | (with_reducible apply Keeps.foldl; intro _ _ _)
    | decide +kernel
    | exact sub_flt _ (by decide +kernel)
    | exact sub_eng _ (by decide +kernel)
    | exact sub_hk _ (by decide +kernel)
    | exact sub_port _ _ (by decide +kernel)
    | exact sub_win _ (by decide +kernel)
    | exact sub_any _ (by decide +kernel)
    | split

theorem State.frameBlock_keeps (s : State) (field : Nat) (bad : Bool) :
    Keeps (foot [.anyReg, .anyWin, .recTick, .timers, .hostQ, .fieldQ, .held, .gap, .tm, .bar, .faults, .cou, .bru, .pal, .pwr, .col, .nul, .var, .str, .evt, .lnk, .hka, .hkb, .refOnAt] ||| foot [.cal, .mgt, .cfg, .flash, .free, .winAddrs, .srcs]) s (State.frameBlock s field bad) := by
  unfold State.frameBlock
  extract_lets a1 a2 a3 a4 a5 a6 a7
  try clear_value a1
  try clear_value a2
  try clear_value a3
  have ha4 : ∀ x0, Keeps (foot [.anyReg, .anyWin, .recTick, .timers, .hostQ, .fieldQ, .held, .gap, .tm, .bar, .faults, .cou, .bru, .pal, .pwr, .col, .nul, .var, .str, .evt, .lnk, .hka, .hkb, .refOnAt] ||| foot [.cal, .mgt, .cfg, .flash, .free, .winAddrs, .srcs]) s (a4 x0) := by
    intro x0
    dsimp only [a4]
    repeat' first
      | with_reducible assumption
      | with_reducible apply Keeps.refl
      | with_reducible apply Keeps.ite
      | (apply Keeps.step; with_reducible apply State.scServe_keeps)
      | (with_reducible apply Keeps.forEach; intro _ _ _)
      | (with_reducible apply Keeps.foldl_fst; intro _ _ _)
      | (with_reducible apply Keeps.foldl_snd; intro _ _ _)
      | (with_reducible apply Keeps.foldl; intro _ _ _)
      | decide +kernel
      | exact sub_flt _ (by decide +kernel)
      | exact sub_eng _ (by decide +kernel)
      | exact sub_hk _ (by decide +kernel)
      | exact sub_port _ _ (by decide +kernel)
      | exact sub_win _ (by decide +kernel)
      | exact sub_any _ (by decide +kernel)
      | split
      | refine Keeps.upd ?_
  try clear_value a4
  try clear_value a5
  try clear_value a6
  try clear_value a7
  repeat' first
    | with_reducible assumption
    | with_reducible apply Keeps.refl
    | with_reducible apply ha4
    | with_reducible apply Keeps.ite
    | (apply Keeps.step; with_reducible apply State.scServe_keeps)
    | (with_reducible apply Keeps.forEach; intro _ _ _)
    | (with_reducible apply Keeps.foldl_fst; intro _ _ _)
    | (with_reducible apply Keeps.foldl_snd; intro _ _ _)
    | (with_reducible apply Keeps.foldl; intro _ _ _)
    | decide +kernel
    | exact sub_flt _ (by decide +kernel)
    | exact sub_eng _ (by decide +kernel)
    | exact sub_hk _ (by decide +kernel)
    | exact sub_port _ _ (by decide +kernel)
    | exact sub_win _ (by decide +kernel)
    | exact sub_any _ (by decide +kernel)
    | split
    | refine Keeps.upd ?_

theorem State.fastReceive_keeps (s : State) (code : Nat) :
    Keeps (foot [.reg TIM_FASTCMD_COUNT, .tm]) s (State.fastReceive s code) := by
  unfold State.fastReceive
  extract_lets a1
  try clear_value a1
  repeat' first
    | with_reducible assumption
    | with_reducible apply Keeps.refl
    | with_reducible apply Keeps.ite
    | (apply Keeps.step; with_reducible apply State.inc_keeps)
    | (with_reducible apply Keeps.forEach; intro _ _ _)
    | (with_reducible apply Keeps.foldl_fst; intro _ _ _)
    | (with_reducible apply Keeps.foldl_snd; intro _ _ _)
    | (with_reducible apply Keeps.foldl; intro _ _ _)
    | decide +kernel
    | exact sub_flt _ (by decide +kernel)
    | exact sub_eng _ (by decide +kernel)
    | exact sub_hk _ (by decide +kernel)
    | exact sub_port _ _ (by decide +kernel)
    | exact sub_win _ (by decide +kernel)
    | exact sub_any _ (by decide +kernel)
    | split
    | refine Keeps.upd ?_

theorem State.blockLive_keeps (s : State) (header : Nat) (d : Nat) :
    Keeps (foot [.anyReg, .anyWin, .recTick, .timers, .hostQ, .fieldQ, .held, .gap, .tm, .bar, .faults, .cou, .bru, .pal, .pwr, .col, .nul, .var, .str, .evt, .lnk, .hka, .hkb, .refOnAt] ||| foot [.cal, .mgt, .cfg, .flash, .free, .winAddrs, .srcs]) s (State.blockLive s header d) := by
  unfold State.blockLive
  extract_lets a1 a2 a3 a4 a5 a6 a7 a8 a9 a10 a11 a12 a13 a14 a15 a16 a17
  try clear_value a1
  try clear_value a2
  try clear_value a3
  have ha4 : Keeps (foot [.anyReg, .anyWin, .recTick, .timers, .hostQ, .fieldQ, .held, .gap, .tm, .bar, .faults, .cou, .bru, .pal, .pwr, .col, .nul, .var, .str, .evt, .lnk, .hka, .hkb, .refOnAt] ||| foot [.cal, .mgt, .cfg, .flash, .free, .winAddrs, .srcs]) s a4 := by
    unfold a4
    repeat' first
      | with_reducible assumption
      | with_reducible apply Keeps.refl
      | with_reducible apply Keeps.ite
      | (apply Keeps.step; with_reducible apply State.injectDone_keeps)
      | (apply Keeps.step; with_reducible apply State.raise_keeps)
      | (apply Keeps.step; with_reducible apply State.inc_keeps)
      | (apply Keeps.step; with_reducible apply State.putMark_keeps)
      | (apply Keeps.step; with_reducible apply State.frameBlock_keeps)
      | (apply Keeps.step; with_reducible apply State.pmSecond_keeps)
      | (apply Keeps.step; with_reducible apply State.fastReceive_keeps)
      | (with_reducible apply Keeps.forEach; intro _ _ _)
      | (with_reducible apply Keeps.foldl_fst; intro _ _ _)
      | (with_reducible apply Keeps.foldl_snd; intro _ _ _)
      | (with_reducible apply Keeps.foldl; intro _ _ _)
      | decide +kernel
      | exact sub_flt _ (by decide +kernel)
      | exact sub_eng _ (by decide +kernel)
      | exact sub_hk _ (by decide +kernel)
      | exact sub_port _ _ (by decide +kernel)
      | exact sub_win _ (by decide +kernel)
      | exact sub_any _ (by decide +kernel)
      | split
      | refine Keeps.upd ?_
  try clear_value a4
  try clear_value a5
  have ha6 : Keeps (foot [.anyReg, .anyWin, .recTick, .timers, .hostQ, .fieldQ, .held, .gap, .tm, .bar, .faults, .cou, .bru, .pal, .pwr, .col, .nul, .var, .str, .evt, .lnk, .hka, .hkb, .refOnAt] ||| foot [.cal, .mgt, .cfg, .flash, .free, .winAddrs, .srcs]) s a6 := by
    unfold a6
    repeat' first
      | with_reducible assumption
      | with_reducible apply Keeps.refl
      | with_reducible apply Keeps.ite
      | (apply Keeps.step; with_reducible apply State.injectDone_keeps)
      | (apply Keeps.step; with_reducible apply State.raise_keeps)
      | (apply Keeps.step; with_reducible apply State.inc_keeps)
      | (apply Keeps.step; with_reducible apply State.putMark_keeps)
      | (apply Keeps.step; with_reducible apply State.frameBlock_keeps)
      | (apply Keeps.step; with_reducible apply State.pmSecond_keeps)
      | (apply Keeps.step; with_reducible apply State.fastReceive_keeps)
      | (with_reducible apply Keeps.forEach; intro _ _ _)
      | (with_reducible apply Keeps.foldl_fst; intro _ _ _)
      | (with_reducible apply Keeps.foldl_snd; intro _ _ _)
      | (with_reducible apply Keeps.foldl; intro _ _ _)
      | decide +kernel
      | exact sub_flt _ (by decide +kernel)
      | exact sub_eng _ (by decide +kernel)
      | exact sub_hk _ (by decide +kernel)
      | exact sub_port _ _ (by decide +kernel)
      | exact sub_win _ (by decide +kernel)
      | exact sub_any _ (by decide +kernel)
      | split
      | refine Keeps.upd ?_
  try clear_value a6
  have ha7 : Keeps (foot [.anyReg, .anyWin, .recTick, .timers, .hostQ, .fieldQ, .held, .gap, .tm, .bar, .faults, .cou, .bru, .pal, .pwr, .col, .nul, .var, .str, .evt, .lnk, .hka, .hkb, .refOnAt] ||| foot [.cal, .mgt, .cfg, .flash, .free, .winAddrs, .srcs]) s a7 := by
    unfold a7
    repeat' first
      | with_reducible assumption
      | with_reducible apply Keeps.refl
      | with_reducible apply Keeps.ite
      | (apply Keeps.step; with_reducible apply State.injectDone_keeps)
      | (apply Keeps.step; with_reducible apply State.raise_keeps)
      | (apply Keeps.step; with_reducible apply State.inc_keeps)
      | (apply Keeps.step; with_reducible apply State.putMark_keeps)
      | (apply Keeps.step; with_reducible apply State.frameBlock_keeps)
      | (apply Keeps.step; with_reducible apply State.pmSecond_keeps)
      | (apply Keeps.step; with_reducible apply State.fastReceive_keeps)
      | (with_reducible apply Keeps.forEach; intro _ _ _)
      | (with_reducible apply Keeps.foldl_fst; intro _ _ _)
      | (with_reducible apply Keeps.foldl_snd; intro _ _ _)
      | (with_reducible apply Keeps.foldl; intro _ _ _)
      | decide +kernel
      | exact sub_flt _ (by decide +kernel)
      | exact sub_eng _ (by decide +kernel)
      | exact sub_hk _ (by decide +kernel)
      | exact sub_port _ _ (by decide +kernel)
      | exact sub_win _ (by decide +kernel)
      | exact sub_any _ (by decide +kernel)
      | split
      | refine Keeps.upd ?_
  try clear_value a7
  try clear_value a8
  try clear_value a9
  try clear_value a10
  try clear_value a11
  try clear_value a12
  have ha13 : Keeps (foot [.anyReg, .anyWin, .recTick, .timers, .hostQ, .fieldQ, .held, .gap, .tm, .bar, .faults, .cou, .bru, .pal, .pwr, .col, .nul, .var, .str, .evt, .lnk, .hka, .hkb, .refOnAt] ||| foot [.cal, .mgt, .cfg, .flash, .free, .winAddrs, .srcs]) s a13 := by
    unfold a13
    repeat' first
      | with_reducible assumption
      | with_reducible apply Keeps.refl
      | with_reducible apply Keeps.ite
      | (apply Keeps.step; with_reducible apply State.injectDone_keeps)
      | (apply Keeps.step; with_reducible apply State.raise_keeps)
      | (apply Keeps.step; with_reducible apply State.inc_keeps)
      | (apply Keeps.step; with_reducible apply State.putMark_keeps)
      | (apply Keeps.step; with_reducible apply State.frameBlock_keeps)
      | (apply Keeps.step; with_reducible apply State.pmSecond_keeps)
      | (apply Keeps.step; with_reducible apply State.fastReceive_keeps)
      | (with_reducible apply Keeps.forEach; intro _ _ _)
      | (with_reducible apply Keeps.foldl_fst; intro _ _ _)
      | (with_reducible apply Keeps.foldl_snd; intro _ _ _)
      | (with_reducible apply Keeps.foldl; intro _ _ _)
      | decide +kernel
      | exact sub_flt _ (by decide +kernel)
      | exact sub_eng _ (by decide +kernel)
      | exact sub_hk _ (by decide +kernel)
      | exact sub_port _ _ (by decide +kernel)
      | exact sub_win _ (by decide +kernel)
      | exact sub_any _ (by decide +kernel)
      | split
      | refine Keeps.upd ?_
  try clear_value a13
  have ha14 : Keeps (foot [.anyReg, .anyWin, .recTick, .timers, .hostQ, .fieldQ, .held, .gap, .tm, .bar, .faults, .cou, .bru, .pal, .pwr, .col, .nul, .var, .str, .evt, .lnk, .hka, .hkb, .refOnAt] ||| foot [.cal, .mgt, .cfg, .flash, .free, .winAddrs, .srcs]) s a14 := by
    unfold a14
    repeat' first
      | with_reducible assumption
      | with_reducible apply Keeps.refl
      | with_reducible apply Keeps.ite
      | (apply Keeps.step; with_reducible apply State.injectDone_keeps)
      | (apply Keeps.step; with_reducible apply State.raise_keeps)
      | (apply Keeps.step; with_reducible apply State.inc_keeps)
      | (apply Keeps.step; with_reducible apply State.putMark_keeps)
      | (apply Keeps.step; with_reducible apply State.frameBlock_keeps)
      | (apply Keeps.step; with_reducible apply State.pmSecond_keeps)
      | (apply Keeps.step; with_reducible apply State.fastReceive_keeps)
      | (with_reducible apply Keeps.forEach; intro _ _ _)
      | (with_reducible apply Keeps.foldl_fst; intro _ _ _)
      | (with_reducible apply Keeps.foldl_snd; intro _ _ _)
      | (with_reducible apply Keeps.foldl; intro _ _ _)
      | decide +kernel
      | exact sub_flt _ (by decide +kernel)
      | exact sub_eng _ (by decide +kernel)
      | exact sub_hk _ (by decide +kernel)
      | exact sub_port _ _ (by decide +kernel)
      | exact sub_win _ (by decide +kernel)
      | exact sub_any _ (by decide +kernel)
      | split
      | refine Keeps.upd ?_
  try clear_value a14
  have ha15 : Keeps (foot [.anyReg, .anyWin, .recTick, .timers, .hostQ, .fieldQ, .held, .gap, .tm, .bar, .faults, .cou, .bru, .pal, .pwr, .col, .nul, .var, .str, .evt, .lnk, .hka, .hkb, .refOnAt] ||| foot [.cal, .mgt, .cfg, .flash, .free, .winAddrs, .srcs]) s a15 := by
    unfold a15
    repeat' first
      | with_reducible assumption
      | with_reducible apply Keeps.refl
      | with_reducible apply Keeps.ite
      | (apply Keeps.step; with_reducible apply State.injectDone_keeps)
      | (apply Keeps.step; with_reducible apply State.raise_keeps)
      | (apply Keeps.step; with_reducible apply State.inc_keeps)
      | (apply Keeps.step; with_reducible apply State.putMark_keeps)
      | (apply Keeps.step; with_reducible apply State.frameBlock_keeps)
      | (apply Keeps.step; with_reducible apply State.pmSecond_keeps)
      | (apply Keeps.step; with_reducible apply State.fastReceive_keeps)
      | (with_reducible apply Keeps.forEach; intro _ _ _)
      | (with_reducible apply Keeps.foldl_fst; intro _ _ _)
      | (with_reducible apply Keeps.foldl_snd; intro _ _ _)
      | (with_reducible apply Keeps.foldl; intro _ _ _)
      | decide +kernel
      | exact sub_flt _ (by decide +kernel)
      | exact sub_eng _ (by decide +kernel)
      | exact sub_hk _ (by decide +kernel)
      | exact sub_port _ _ (by decide +kernel)
      | exact sub_win _ (by decide +kernel)
      | exact sub_any _ (by decide +kernel)
      | split
      | refine Keeps.upd ?_
  try clear_value a15
  try clear_value a16
  try clear_value a17
  repeat' first
    | with_reducible assumption
    | with_reducible apply Keeps.refl
    | with_reducible apply Keeps.ite
    | (apply Keeps.step; with_reducible apply State.injectDone_keeps)
    | (apply Keeps.step; with_reducible apply State.raise_keeps)
    | (apply Keeps.step; with_reducible apply State.inc_keeps)
    | (apply Keeps.step; with_reducible apply State.putMark_keeps)
    | (apply Keeps.step; with_reducible apply State.frameBlock_keeps)
    | (apply Keeps.step; with_reducible apply State.pmSecond_keeps)
    | (apply Keeps.step; with_reducible apply State.fastReceive_keeps)
    | (with_reducible apply Keeps.forEach; intro _ _ _)
    | (with_reducible apply Keeps.foldl_fst; intro _ _ _)
    | (with_reducible apply Keeps.foldl_snd; intro _ _ _)
    | (with_reducible apply Keeps.foldl; intro _ _ _)
    | decide +kernel
    | exact sub_flt _ (by decide +kernel)
    | exact sub_eng _ (by decide +kernel)
    | exact sub_hk _ (by decide +kernel)
    | exact sub_port _ _ (by decide +kernel)
    | exact sub_win _ (by decide +kernel)
    | exact sub_any _ (by decide +kernel)
    | split
    | refine Keeps.upd ?_

theorem State.downBlock_keeps (s : State) (header : BitVec 2) (line : BitVec 64) :
    Keeps (foot [.anyReg, .anyWin, .recTick, .timers, .hostQ, .fieldQ, .held, .gap, .tm, .bar, .faults, .cou, .bru, .pal, .pwr, .col, .nul, .var, .str, .evt, .lnk, .hka, .hkb, .refOnAt] ||| foot [.cal, .mgt, .cfg, .flash, .free, .winAddrs, .srcs]) s (State.downBlock s header line) := by
  unfold State.downBlock
  extract_lets a1 a2 a3 a4 a5
  try clear_value a1
  try clear_value a2
  have ha3 : Keeps (foot [.anyReg, .anyWin, .recTick, .timers, .hostQ, .fieldQ, .held, .gap, .tm, .bar, .faults, .cou, .bru, .pal, .pwr, .col, .nul, .var, .str, .evt, .lnk, .hka, .hkb, .refOnAt] ||| foot [.cal, .mgt, .cfg, .flash, .free, .winAddrs, .srcs]) s a3 := by
    unfold a3
    repeat' first
      | with_reducible assumption
      | with_reducible apply Keeps.refl
      | with_reducible apply Keeps.ite
      | (apply Keeps.step; with_reducible apply State.blockLive_keeps)
      | (with_reducible apply Keeps.forEach; intro _ _ _)
      | (with_reducible apply Keeps.foldl_fst; intro _ _ _)
      | (with_reducible apply Keeps.foldl_snd; intro _ _ _)
      | (with_reducible apply Keeps.foldl; intro _ _ _)
      | decide +kernel
      | exact sub_flt _ (by decide +kernel)
      | exact sub_eng _ (by decide +kernel)
      | exact sub_hk _ (by decide +kernel)
      | exact sub_port _ _ (by decide +kernel)
      | exact sub_win _ (by decide +kernel)
      | exact sub_any _ (by decide +kernel)
      | split
      | refine Keeps.upd ?_
  try clear_value a3
  try clear_value a4
  try clear_value a5
  repeat' first
    | with_reducible assumption
    | with_reducible apply Keeps.refl
    | with_reducible apply Keeps.ite
    | (apply Keeps.step; with_reducible apply State.blockLive_keeps)
    | (with_reducible apply Keeps.forEach; intro _ _ _)
    | (with_reducible apply Keeps.foldl_fst; intro _ _ _)
    | (with_reducible apply Keeps.foldl_snd; intro _ _ _)
    | (with_reducible apply Keeps.foldl; intro _ _ _)
    | decide +kernel
    | exact sub_flt _ (by decide +kernel)
    | exact sub_eng _ (by decide +kernel)
    | exact sub_hk _ (by decide +kernel)
    | exact sub_port _ _ (by decide +kernel)
    | exact sub_win _ (by decide +kernel)
    | exact sub_any _ (by decide +kernel)
    | split
    | refine Keeps.upd ?_

theorem State.peerShown_keeps (s : State) (p : Nat) (reason : Nat) (coverOk : Bool) (cover : Nat) :
    Keeps (foot [.reg LNK_PEER_STATE, .regs 0x0308 4]) s (State.peerShown s p reason coverOk cover) := by
  unfold State.peerShown
  extract_lets a1 a2 a3
  try clear_value a1
  have ha2 : Keeps (foot [.reg LNK_PEER_STATE, .regs 0x0308 4]) s a2 := by
    unfold a2
    repeat' first
      | with_reducible assumption
      | with_reducible apply Keeps.refl
      | with_reducible apply Keeps.ite
      | (apply Keeps.step; with_reducible apply State.setFld_keeps)
      | (apply Keeps.step; with_reducible apply State.inc_keeps)
      | (apply Keeps.step; with_reducible apply State.setBit_keeps)
      | (with_reducible apply Keeps.forEach; intro _ _ _)
      | (with_reducible apply Keeps.foldl_fst; intro _ _ _)
      | (with_reducible apply Keeps.foldl_snd; intro _ _ _)
      | (with_reducible apply Keeps.foldl; intro _ _ _)
      | decide +kernel
      | (dsimp only [LNK_PEER_STATE_ACCEPTING, LNK_PEER_STATE_LAST_REASON, LNK_PEER_STATE_REFUSED_RUN]; decide +kernel)
      | exact sub_port _ _ (by decide +kernel)
      | exact sub_flt _ (by decide +kernel)
      | exact sub_eng _ (by decide +kernel)
      | exact sub_hk _ (by decide +kernel)
      | exact sub_win _ (by decide +kernel)
      | exact sub_any _ (by decide +kernel)
      | split
  try clear_value a2
  have ha3 : Keeps (foot [.reg LNK_PEER_STATE, .regs 0x0308 4]) s a3 := by
    unfold a3
    repeat' first
      | with_reducible assumption
      | with_reducible apply Keeps.refl
      | with_reducible apply Keeps.ite
      | (apply Keeps.step; with_reducible apply State.setFld_keeps)
      | (apply Keeps.step; with_reducible apply State.inc_keeps)
      | (apply Keeps.step; with_reducible apply State.setBit_keeps)
      | (with_reducible apply Keeps.forEach; intro _ _ _)
      | (with_reducible apply Keeps.foldl_fst; intro _ _ _)
      | (with_reducible apply Keeps.foldl_snd; intro _ _ _)
      | (with_reducible apply Keeps.foldl; intro _ _ _)
      | decide +kernel
      | (dsimp only [LNK_PEER_STATE_ACCEPTING, LNK_PEER_STATE_LAST_REASON, LNK_PEER_STATE_REFUSED_RUN]; decide +kernel)
      | exact sub_port _ _ (by decide +kernel)
      | exact sub_flt _ (by decide +kernel)
      | exact sub_eng _ (by decide +kernel)
      | exact sub_hk _ (by decide +kernel)
      | exact sub_win _ (by decide +kernel)
      | exact sub_any _ (by decide +kernel)
      | split
  try clear_value a3
  repeat' first
    | with_reducible assumption
    | with_reducible apply Keeps.refl
    | with_reducible apply Keeps.ite
    | (apply Keeps.step; with_reducible apply State.setFld_keeps)
    | (apply Keeps.step; with_reducible apply State.inc_keeps)
    | (apply Keeps.step; with_reducible apply State.setBit_keeps)
    | (with_reducible apply Keeps.forEach; intro _ _ _)
    | (with_reducible apply Keeps.foldl_fst; intro _ _ _)
    | (with_reducible apply Keeps.foldl_snd; intro _ _ _)
    | (with_reducible apply Keeps.foldl; intro _ _ _)
    | decide +kernel
    | (dsimp only [LNK_PEER_STATE_ACCEPTING, LNK_PEER_STATE_LAST_REASON, LNK_PEER_STATE_REFUSED_RUN]; decide +kernel)
    | exact sub_port _ _ (by decide +kernel)
    | exact sub_flt _ (by decide +kernel)
    | exact sub_eng _ (by decide +kernel)
    | exact sub_hk _ (by decide +kernel)
    | exact sub_win _ (by decide +kernel)
    | exact sub_any _ (by decide +kernel)
    | split

theorem State.hkSlot_keeps (s : State) :
    Keeps (foot [.lnk]) s (State.hkSlot s).2 := by
  unfold State.hkSlot
  extract_lets a1
  try clear_value a1
  repeat' first
    | with_reducible assumption
    | with_reducible apply Keeps.refl
    | split
    | with_reducible apply Keeps.ite
    | (with_reducible apply Keeps.forEach; intro _ _ _)
    | (with_reducible apply Keeps.foldl_fst; intro _ _ _)
    | (with_reducible apply Keeps.foldl_snd; intro _ _ _)
    | (with_reducible apply Keeps.foldl; intro _ _ _)
    | refine Keeps.upd ?_

theorem State.stSlot_keeps (s : State) :
    Keeps (foot [.lnk]) s (State.stSlot s).2 := by
  unfold State.stSlot
  extract_lets a1 a2 a3
  try clear_value a1
  try clear_value a2
  try clear_value a3
  repeat' first
    | with_reducible assumption
    | with_reducible apply Keeps.refl
    | split
    | with_reducible apply Keeps.ite
    | (with_reducible apply Keeps.forEach; intro _ _ _)
    | (with_reducible apply Keeps.foldl_fst; intro _ _ _)
    | (with_reducible apply Keeps.foldl_snd; intro _ _ _)
    | (with_reducible apply Keeps.foldl; intro _ _ _)
    | refine Keeps.upd ?_

theorem State.peerSlot_keeps (s : State) (q : Nat) (k : Nat) :
    Keeps (foot [.reg LNK_DEADLETTER_COUNT, .win .lnk]) s (State.peerSlot s q k).2 := by
  unfold State.peerSlot
  extract_lets a1
  try clear_value a1
  repeat' first
    | with_reducible assumption
    | with_reducible apply Keeps.refl
    | split
    | with_reducible apply Keeps.ite
    | (apply Keeps.step; with_reducible apply State.deadParcel_keeps)
    | (with_reducible apply Keeps.forEach; intro _ _ _)
    | (with_reducible apply Keeps.foldl_fst; intro _ _ _)
    | (with_reducible apply Keeps.foldl_snd; intro _ _ _)
    | (with_reducible apply Keeps.foldl; intro _ _ _)
    | decide +kernel
    | exact sub_flt _ (by decide +kernel)
    | exact sub_eng _ (by decide +kernel)
    | exact sub_hk _ (by decide +kernel)
    | exact sub_port _ _ (by decide +kernel)
    | exact sub_win _ (by decide +kernel)
    | exact sub_any _ (by decide +kernel)

theorem State.slotParcel_keeps (s : State) (p : Nat) :
    Keeps (foot [.reg LNK_DEADLETTER_COUNT, .win .lnk, .lnk]) s (State.slotParcel s p).2 := by
  unfold State.slotParcel
  extract_lets a1
  try clear_value a1
  repeat' first
    | with_reducible assumption
    | with_reducible apply Keeps.refl
    | split
    | with_reducible apply Keeps.ite
    | (apply Keeps.step; with_reducible apply State.hkSlot_keeps)
    | (apply Keeps.step; with_reducible apply State.stSlot_keeps)
    | (apply Keeps.step; with_reducible apply State.peerSlot_keeps)
    | (with_reducible apply Keeps.forEach; intro _ _ _)
    | (with_reducible apply Keeps.foldl_fst; intro _ _ _)
    | (with_reducible apply Keeps.foldl_snd; intro _ _ _)
    | (with_reducible apply Keeps.foldl; intro _ _ _)
    | decide +kernel
    | exact sub_flt _ (by decide +kernel)
    | exact sub_eng _ (by decide +kernel)
    | exact sub_hk _ (by decide +kernel)
    | exact sub_port _ _ (by decide +kernel)
    | exact sub_win _ (by decide +kernel)
    | exact sub_any _ (by decide +kernel)

theorem State.sendPort_keeps (s : State) (p : Nat) (par : Parcel) (cover : Bool) :
    Keeps (foot [.lnk]) s (State.sendPort s p par cover) := by
  unfold State.sendPort
  extract_lets a1 a2
  try clear_value a1
  try clear_value a2
  repeat' first
    | with_reducible assumption
    | with_reducible apply Keeps.refl
    | with_reducible apply Keeps.ite
    | (with_reducible apply Keeps.forEach; intro _ _ _)
    | (with_reducible apply Keeps.foldl_fst; intro _ _ _)
    | (with_reducible apply Keeps.foldl_snd; intro _ _ _)
    | (with_reducible apply Keeps.foldl; intro _ _ _)
    | split
    | refine Keeps.upd ?_

theorem State.slotFill_keeps (s : State) (p : Nat) :
    Keeps (foot [.reg LNK_DEADLETTER_COUNT, .win .lnk, .lnk]) s (State.slotFill s p) := by
  unfold State.slotFill
  extract_lets a1
  have ha1 : Keeps (foot [.reg LNK_DEADLETTER_COUNT, .win .lnk, .lnk]) s a1.2 := by
    unfold a1
    repeat' first
      | with_reducible assumption
      | with_reducible apply Keeps.refl
      | with_reducible apply Keeps.ite
      | (apply Keeps.step; with_reducible apply State.slotParcel_keeps)
      | (apply Keeps.step; with_reducible apply State.sendPort_keeps)
      | (with_reducible apply Keeps.forEach; intro _ _ _)
      | (with_reducible apply Keeps.foldl_fst; intro _ _ _)
      | (with_reducible apply Keeps.foldl_snd; intro _ _ _)
      | (with_reducible apply Keeps.foldl; intro _ _ _)
      | decide +kernel
      | exact sub_flt _ (by decide +kernel)
      | exact sub_eng _ (by decide +kernel)
      | exact sub_hk _ (by decide +kernel)
      | exact sub_port _ _ (by decide +kernel)
      | exact sub_win _ (by decide +kernel)
      | exact sub_any _ (by decide +kernel)
      | split
  try clear_value a1
  repeat' first
    | with_reducible assumption
    | with_reducible apply Keeps.refl
    | with_reducible apply Keeps.ite
    | (apply Keeps.step; with_reducible apply State.slotParcel_keeps)
    | (apply Keeps.step; with_reducible apply State.sendPort_keeps)
    | (with_reducible apply Keeps.forEach; intro _ _ _)
    | (with_reducible apply Keeps.foldl_fst; intro _ _ _)
    | (with_reducible apply Keeps.foldl_snd; intro _ _ _)
    | (with_reducible apply Keeps.foldl; intro _ _ _)
    | decide +kernel
    | exact sub_flt _ (by decide +kernel)
    | exact sub_eng _ (by decide +kernel)
    | exact sub_hk _ (by decide +kernel)
    | exact sub_port _ _ (by decide +kernel)
    | exact sub_win _ (by decide +kernel)
    | exact sub_any _ (by decide +kernel)
    | split

theorem State.peerCover_keeps (s : State) (p : Nat) (header : Bool) (cover : Parcel) (rest : List Parcel) :
    Keeps (foot [.reg GLB_DETERMINISM, .reg TIM_LAUNCH_STATUS, .reg LNK_SCHED_SEL, .reg LNK_DEADLETTER_COUNT, .reg LNK_PEER_STATE, .reg (ENG_STATUS 0x600), .reg PAL_STATUS, .reg (ENG_STATUS 0x1B00), .regs 0x0308 4, .flt, .win .lnk, .recTick, .hostQ, .fieldQ, .bar, .faults, .cou, .bru, .lnk, .free, .srcs]) s (State.peerCover s p header cover rest) := by
  unfold State.peerCover
  extract_lets a1 a2 a3 a4 a5 a6 a7 a8 a9 a10 a11 a12
  try clear_value a1
  have ha2 : Keeps (foot [.reg GLB_DETERMINISM, .reg TIM_LAUNCH_STATUS, .reg LNK_SCHED_SEL, .reg LNK_DEADLETTER_COUNT, .reg LNK_PEER_STATE, .reg (ENG_STATUS 0x600), .reg PAL_STATUS, .reg (ENG_STATUS 0x1B00), .regs 0x0308 4, .flt, .win .lnk, .recTick, .hostQ, .fieldQ, .bar, .faults, .cou, .bru, .lnk, .free, .srcs]) s a2 := by
    unfold a2
    repeat' first
      | with_reducible assumption
      | with_reducible apply Keeps.refl
      | with_reducible apply Keeps.ite
      | (apply Keeps.step; with_reducible apply State.injectDone_keeps)
      | (apply Keeps.step; with_reducible apply State.peerShown_keeps)
      | (apply Keeps.step; with_reducible apply State.keepPeer_keeps)
      | (apply Keeps.step; with_reducible apply State.deadParcel_keeps)
      | (apply Keeps.step; with_reducible apply State.portFail_keeps)
      | (with_reducible apply Keeps.forEach; intro _ _ _)
      | (with_reducible apply Keeps.foldl_fst; intro _ _ _)
      | (with_reducible apply Keeps.foldl_snd; intro _ _ _)
      | (with_reducible apply Keeps.foldl; intro _ _ _)
      | decide +kernel
      | exact sub_flt _ (by decide +kernel)
      | exact sub_eng _ (by decide +kernel)
      | exact sub_hk _ (by decide +kernel)
      | exact sub_port _ _ (by decide +kernel)
      | exact sub_win _ (by decide +kernel)
      | exact sub_any _ (by decide +kernel)
      | split
      | refine Keeps.upd ?_
  try clear_value a2
  try clear_value a3
  try clear_value a4
  try clear_value a5
  have ha6 : Keeps (foot [.reg GLB_DETERMINISM, .reg TIM_LAUNCH_STATUS, .reg LNK_SCHED_SEL, .reg LNK_DEADLETTER_COUNT, .reg LNK_PEER_STATE, .reg (ENG_STATUS 0x600), .reg PAL_STATUS, .reg (ENG_STATUS 0x1B00), .regs 0x0308 4, .flt, .win .lnk, .recTick, .hostQ, .fieldQ, .bar, .faults, .cou, .bru, .lnk, .free, .srcs]) s a6 := by
    unfold a6
    repeat' first
      | with_reducible assumption
      | with_reducible apply Keeps.refl
      | with_reducible apply Keeps.ite
      | (apply Keeps.step; with_reducible apply State.injectDone_keeps)
      | (apply Keeps.step; with_reducible apply State.peerShown_keeps)
      | (apply Keeps.step; with_reducible apply State.keepPeer_keeps)
      | (apply Keeps.step; with_reducible apply State.deadParcel_keeps)
      | (apply Keeps.step; with_reducible apply State.portFail_keeps)
      | (with_reducible apply Keeps.forEach; intro _ _ _)
      | (with_reducible apply Keeps.foldl_fst; intro _ _ _)
      | (with_reducible apply Keeps.foldl_snd; intro _ _ _)
      | (with_reducible apply Keeps.foldl; intro _ _ _)
      | decide +kernel
      | exact sub_flt _ (by decide +kernel)
      | exact sub_eng _ (by decide +kernel)
      | exact sub_hk _ (by decide +kernel)
      | exact sub_port _ _ (by decide +kernel)
      | exact sub_win _ (by decide +kernel)
      | exact sub_any _ (by decide +kernel)
      | split
      | refine Keeps.upd ?_
  try clear_value a6
  try clear_value a7
  try clear_value a8
  have ha9 : Keeps (foot [.reg GLB_DETERMINISM, .reg TIM_LAUNCH_STATUS, .reg LNK_SCHED_SEL, .reg LNK_DEADLETTER_COUNT, .reg LNK_PEER_STATE, .reg (ENG_STATUS 0x600), .reg PAL_STATUS, .reg (ENG_STATUS 0x1B00), .regs 0x0308 4, .flt, .win .lnk, .recTick, .hostQ, .fieldQ, .bar, .faults, .cou, .bru, .lnk, .free, .srcs]) s a9 := by
    unfold a9
    repeat' first
      | with_reducible assumption
      | with_reducible apply Keeps.refl
      | with_reducible apply Keeps.ite
      | (apply Keeps.step; with_reducible apply State.injectDone_keeps)
      | (apply Keeps.step; with_reducible apply State.peerShown_keeps)
      | (apply Keeps.step; with_reducible apply State.keepPeer_keeps)
      | (apply Keeps.step; with_reducible apply State.deadParcel_keeps)
      | (apply Keeps.step; with_reducible apply State.portFail_keeps)
      | (with_reducible apply Keeps.forEach; intro _ _ _)
      | (with_reducible apply Keeps.foldl_fst; intro _ _ _)
      | (with_reducible apply Keeps.foldl_snd; intro _ _ _)
      | (with_reducible apply Keeps.foldl; intro _ _ _)
      | decide +kernel
      | exact sub_flt _ (by decide +kernel)
      | exact sub_eng _ (by decide +kernel)
      | exact sub_hk _ (by decide +kernel)
      | exact sub_port _ _ (by decide +kernel)
      | exact sub_win _ (by decide +kernel)
      | exact sub_any _ (by decide +kernel)
      | split
      | refine Keeps.upd ?_
  try clear_value a9
  try clear_value a10
  try clear_value a11
  have ha12 : Keeps (foot [.reg GLB_DETERMINISM, .reg TIM_LAUNCH_STATUS, .reg LNK_SCHED_SEL, .reg LNK_DEADLETTER_COUNT, .reg LNK_PEER_STATE, .reg (ENG_STATUS 0x600), .reg PAL_STATUS, .reg (ENG_STATUS 0x1B00), .regs 0x0308 4, .flt, .win .lnk, .recTick, .hostQ, .fieldQ, .bar, .faults, .cou, .bru, .lnk, .free, .srcs]) s a12 := by
    unfold a12
    repeat' first
      | with_reducible assumption
      | with_reducible apply Keeps.refl
      | with_reducible apply Keeps.ite
      | (apply Keeps.step; with_reducible apply State.injectDone_keeps)
      | (apply Keeps.step; with_reducible apply State.peerShown_keeps)
      | (apply Keeps.step; with_reducible apply State.keepPeer_keeps)
      | (apply Keeps.step; with_reducible apply State.deadParcel_keeps)
      | (apply Keeps.step; with_reducible apply State.portFail_keeps)
      | (with_reducible apply Keeps.forEach; intro _ _ _)
      | (with_reducible apply Keeps.foldl_fst; intro _ _ _)
      | (with_reducible apply Keeps.foldl_snd; intro _ _ _)
      | (with_reducible apply Keeps.foldl; intro _ _ _)
      | decide +kernel
      | exact sub_flt _ (by decide +kernel)
      | exact sub_eng _ (by decide +kernel)
      | exact sub_hk _ (by decide +kernel)
      | exact sub_port _ _ (by decide +kernel)
      | exact sub_win _ (by decide +kernel)
      | exact sub_any _ (by decide +kernel)
      | split
      | refine Keeps.upd ?_
  try clear_value a12
  repeat' first
    | with_reducible assumption
    | with_reducible apply Keeps.refl
    | with_reducible apply Keeps.ite
    | (apply Keeps.step; with_reducible apply State.injectDone_keeps)
    | (apply Keeps.step; with_reducible apply State.peerShown_keeps)
    | (apply Keeps.step; with_reducible apply State.keepPeer_keeps)
    | (apply Keeps.step; with_reducible apply State.deadParcel_keeps)
    | (apply Keeps.step; with_reducible apply State.portFail_keeps)
    | (with_reducible apply Keeps.forEach; intro _ _ _)
    | (with_reducible apply Keeps.foldl_fst; intro _ _ _)
    | (with_reducible apply Keeps.foldl_snd; intro _ _ _)
    | (with_reducible apply Keeps.foldl; intro _ _ _)
    | decide +kernel
    | exact sub_flt _ (by decide +kernel)
    | exact sub_eng _ (by decide +kernel)
    | exact sub_hk _ (by decide +kernel)
    | exact sub_port _ _ (by decide +kernel)
    | exact sub_win _ (by decide +kernel)
    | exact sub_any _ (by decide +kernel)
    | split
    | refine Keeps.upd ?_

theorem State.repliesGo_keeps (s : State) :
    Keeps (foot [.reg LNK_SLOWCTL_STATUS, .lnk]) s (State.repliesGo s) := by
  unfold State.repliesGo
  extract_lets a1 a2
  try clear_value a1
  try clear_value a2
  repeat' first
    | with_reducible assumption
    | with_reducible apply Keeps.refl
    | with_reducible apply Keeps.ite
    | (apply Keeps.step; with_reducible apply State.setFld_keeps)
    | (with_reducible apply Keeps.forEach; intro _ _ _)
    | (with_reducible apply Keeps.foldl_fst; intro _ _ _)
    | (with_reducible apply Keeps.foldl_snd; intro _ _ _)
    | (with_reducible apply Keeps.foldl; intro _ _ _)
    | decide +kernel
    | exact sub_flt _ (by decide +kernel)
    | exact sub_eng _ (by decide +kernel)
    | exact sub_hk _ (by decide +kernel)
    | exact sub_port _ _ (by decide +kernel)
    | exact sub_win _ (by decide +kernel)
    | exact sub_any _ (by decide +kernel)
    | split
    | refine Keeps.upd ?_

theorem State.fastCount_keeps (s : State) (code : Nat) :
    Keeps (foot [.reg TIM_FASTCMD_COUNT, .reg TIM_FASTCMD_LAST]) s (State.fastCount s code) := by
  unfold State.fastCount
  repeat' first
    | with_reducible assumption
    | with_reducible apply Keeps.refl
    | with_reducible apply Keeps.ite
    | (apply Keeps.step; with_reducible apply State.setFld_keeps)
    | (apply Keeps.step; with_reducible apply State.inc_keeps)
    | (with_reducible apply Keeps.forEach; intro _ _ _)
    | (with_reducible apply Keeps.foldl_fst; intro _ _ _)
    | (with_reducible apply Keeps.foldl_snd; intro _ _ _)
    | (with_reducible apply Keeps.foldl; intro _ _ _)
    | decide +kernel
    | exact sub_flt _ (by decide +kernel)
    | exact sub_eng _ (by decide +kernel)
    | exact sub_hk _ (by decide +kernel)
    | exact sub_port _ _ (by decide +kernel)
    | exact sub_win _ (by decide +kernel)
    | exact sub_any _ (by decide +kernel)
    | split

theorem State.scSend_keeps (s : State) :
    Keeps (foot [.bar, .faults]) s (State.scSend s) := by
  unfold State.scSend
  repeat' first
    | with_reducible assumption
    | with_reducible apply Keeps.refl
    | with_reducible apply Keeps.ite
    | (apply Keeps.step; with_reducible apply State.sendRead_keeps)
    | (apply Keeps.step; with_reducible apply State.sendWrite_keeps)
    | (with_reducible apply Keeps.forEach; intro _ _ _)
    | (with_reducible apply Keeps.foldl_fst; intro _ _ _)
    | (with_reducible apply Keeps.foldl_snd; intro _ _ _)
    | (with_reducible apply Keeps.foldl; intro _ _ _)
    | decide +kernel
    | exact sub_flt _ (by decide +kernel)
    | exact sub_eng _ (by decide +kernel)
    | exact sub_hk _ (by decide +kernel)
    | exact sub_port _ _ (by decide +kernel)
    | exact sub_win _ (by decide +kernel)
    | exact sub_any _ (by decide +kernel)
    | split

theorem State.scLate_keeps (s : State) (w : ScWait) :
    Keeps (foot [.lnk]) s (State.scLate s w) := by
  unfold State.scLate
  extract_lets a1
  try clear_value a1
  repeat' first
    | with_reducible assumption
    | with_reducible apply Keeps.refl
    | with_reducible apply Keeps.ite
    | (apply Keeps.step; with_reducible apply State.scReply_keeps)
    | (with_reducible apply Keeps.forEach; intro _ _ _)
    | (with_reducible apply Keeps.foldl_fst; intro _ _ _)
    | (with_reducible apply Keeps.foldl_snd; intro _ _ _)
    | (with_reducible apply Keeps.foldl; intro _ _ _)
    | decide +kernel
    | exact sub_flt _ (by decide +kernel)
    | exact sub_eng _ (by decide +kernel)
    | exact sub_hk _ (by decide +kernel)
    | exact sub_port _ _ (by decide +kernel)
    | exact sub_win _ (by decide +kernel)
    | exact sub_any _ (by decide +kernel)
    | split
    | refine Keeps.upd ?_

theorem State.covers_keeps (s : State) :
    Keeps (foot [.reg GLB_DETERMINISM, .reg LNK_DEADLETTER_COUNT, .reg LNK_SLOWCTL_STATUS, .reg (ENG_STATUS 0x600), .reg STR_SHEET_COUNT, .reg STR_SKIPPED_COUNT, .reg (ENG_STATUS 0x1B00), .flt, .win .lnk, .recTick, .bar, .faults, .cou, .bru, .str, .lnk, .free, .srcs]) s (State.covers s) := by
  unfold State.covers
  extract_lets a1
  have ha1 : Keeps (foot [.reg GLB_DETERMINISM, .reg LNK_DEADLETTER_COUNT, .reg LNK_SLOWCTL_STATUS, .reg (ENG_STATUS 0x600), .reg STR_SHEET_COUNT, .reg STR_SKIPPED_COUNT, .reg (ENG_STATUS 0x1B00), .flt, .win .lnk, .recTick, .bar, .faults, .cou, .bru, .str, .lnk, .free, .srcs]) s a1 := by
    unfold a1
    repeat' first
      | with_reducible assumption
      | with_reducible apply Keeps.refl
      | with_reducible apply Keeps.ite
      | (apply Keeps.step; with_reducible apply State.streamPlan_keeps)
      | (apply Keeps.step; with_reducible apply State.repliesGo_keeps)
      | (apply Keeps.step; with_reducible apply State.sendPort_keeps)
      | (with_reducible apply Keeps.forEach; intro _ _ _)
      | (with_reducible apply Keeps.foldl_fst; intro _ _ _)
      | (with_reducible apply Keeps.foldl_snd; intro _ _ _)
      | (with_reducible apply Keeps.foldl; intro _ _ _)
      | decide +kernel
      | exact sub_flt _ (by decide +kernel)
      | exact sub_eng _ (by decide +kernel)
      | exact sub_hk _ (by decide +kernel)
      | exact sub_port _ _ (by decide +kernel)
      | exact sub_win _ (by decide +kernel)
      | exact sub_any _ (by decide +kernel)
      | split
  try clear_value a1
  repeat' first
    | with_reducible assumption
    | with_reducible apply Keeps.refl
    | with_reducible apply Keeps.ite
    | (apply Keeps.step; with_reducible apply State.streamPlan_keeps)
    | (apply Keeps.step; with_reducible apply State.repliesGo_keeps)
    | (apply Keeps.step; with_reducible apply State.sendPort_keeps)
    | (with_reducible apply Keeps.forEach; intro _ _ _)
    | (with_reducible apply Keeps.foldl_fst; intro _ _ _)
    | (with_reducible apply Keeps.foldl_snd; intro _ _ _)
    | (with_reducible apply Keeps.foldl; intro _ _ _)
    | decide +kernel
    | exact sub_flt _ (by decide +kernel)
    | exact sub_eng _ (by decide +kernel)
    | exact sub_hk _ (by decide +kernel)
    | exact sub_port _ _ (by decide +kernel)
    | exact sub_win _ (by decide +kernel)
    | exact sub_any _ (by decide +kernel)
    | split

end Sys2Proof.Machine
end

