-- ==== Sys2Proof/Laws/KeepsTime.lean ====
section
/-!
SUPPORT. Footprints of the operations of Machine/Time.lean: which parts of a state each can change.
-/
set_option Elab.async false
set_option linter.unusedTactic false
set_option linter.unreachableTactic false
namespace Sys2Proof.Machine

theorem State.runFast_keeps (s : State) :
    Keeps (foot [.reg GLB_STATE, .reg GLB_DETERMINISM, .reg TIM_FASTCMD_COUNT, .reg TIM_FASTCMD_LAST, .reg (ENG_BREAK 0x600), .reg (ENG_BREAK 0x1B00), .cou, .bru, .nul, .cfg]) s (State.runFast s) := by
  unfold State.runFast
  repeat' first
    | with_reducible assumption
    | with_reducible apply Keeps.refl
    | with_reducible apply Keeps.ite
    | (apply Keeps.step; with_reducible apply State.runCmd_keeps)
    | (apply Keeps.step; with_reducible apply State.fastCount_keeps)
    | (with_reducible apply Keeps.forEach; intro _ _ _)
    | (with_reducible apply Keeps.foldl_fst; intro _ _ _)
    | (with_reducible apply Keeps.foldl_snd; intro _ _ _)
    | (with_reducible apply Keeps.foldl; intro _ _ _)
    | decide +kernel
    | exact sub_flt _ (by decide +kernel)
    | exact sub_eng _ (by decide +kernel)
    | exact sub_hk _ (by decide +kernel)
    | exact sub_port _ _ (by decide +kernel)
    | exact sub_win _ (by decide +kernel)
    | exact sub_any _ (by decide +kernel)
    | split

theorem State.clockOn_keeps (s : State) (p : Nat) :
    Keeps (foot [.reg TIM_STATUS, .reg TIM_TICK_PERIOD, .reg LNK_DOWN_STATUS, .reg MGT_STATUS, .regs 0x0308 4, .tm]) s (State.clockOn s p) := by
  unfold State.clockOn
  extract_lets a1 a2 a3
  try clear_value a1
  have ha2 : Keeps (foot [.reg TIM_STATUS, .reg TIM_TICK_PERIOD, .reg LNK_DOWN_STATUS, .reg MGT_STATUS, .regs 0x0308 4, .tm]) s a2 := by
    unfold a2
    repeat' first
      | with_reducible assumption
      | with_reducible apply Keeps.refl
      | with_reducible apply Keeps.ite
      | (apply Keeps.step; with_reducible apply State.setBit_keeps)
      | (apply Keeps.step; with_reducible apply State.upLocks_keeps)
      | (apply Keeps.step; with_reducible apply State.setFld_keeps)
      | (with_reducible apply Keeps.forEach; intro _ _ _)
      | (with_reducible apply Keeps.foldl_fst; intro _ _ _)
      | (with_reducible apply Keeps.foldl_snd; intro _ _ _)
      | (with_reducible apply Keeps.foldl; intro _ _ _)
      | decide +kernel
      | exact sub_flt _ (by decide +kernel)
      | exact sub_eng _ (by decide +kernel)
      | exact sub_hk _ (by decide +kernel)
      | exact sub_port _ _ (by decide +kernel)
      | exact sub_win _ (by decide +kernel)
      | exact sub_any _ (by decide +kernel)
      | split
      | refine Keeps.upd ?_
  try clear_value a2
  have ha3 : Keeps (foot [.reg TIM_STATUS, .reg TIM_TICK_PERIOD, .reg LNK_DOWN_STATUS, .reg MGT_STATUS, .regs 0x0308 4, .tm]) s a3 := by
    unfold a3
    repeat' first
      | with_reducible assumption
      | with_reducible apply Keeps.refl
      | with_reducible apply Keeps.ite
      | (apply Keeps.step; with_reducible apply State.setBit_keeps)
      | (apply Keeps.step; with_reducible apply State.upLocks_keeps)
      | (apply Keeps.step; with_reducible apply State.setFld_keeps)
      | (with_reducible apply Keeps.forEach; intro _ _ _)
      | (with_reducible apply Keeps.foldl_fst; intro _ _ _)
      | (with_reducible apply Keeps.foldl_snd; intro _ _ _)
      | (with_reducible apply Keeps.foldl; intro _ _ _)
      | decide +kernel
      | exact sub_flt _ (by decide +kernel)
      | exact sub_eng _ (by decide +kernel)
      | exact sub_hk _ (by decide +kernel)
      | exact sub_port _ _ (by decide +kernel)
      | exact sub_win _ (by decide +kernel)
      | exact sub_any _ (by decide +kernel)
      | split
      | refine Keeps.upd ?_
  try clear_value a3
  repeat' first
    | with_reducible assumption
    | with_reducible apply Keeps.refl
    | with_reducible apply Keeps.ite
    | (apply Keeps.step; with_reducible apply State.setBit_keeps)
    | (apply Keeps.step; with_reducible apply State.upLocks_keeps)
    | (apply Keeps.step; with_reducible apply State.setFld_keeps)
    | (with_reducible apply Keeps.forEach; intro _ _ _)
    | (with_reducible apply Keeps.foldl_fst; intro _ _ _)
    | (with_reducible apply Keeps.foldl_snd; intro _ _ _)
    | (with_reducible apply Keeps.foldl; intro _ _ _)
    | decide +kernel
    | exact sub_flt _ (by decide +kernel)
    | exact sub_eng _ (by decide +kernel)
    | exact sub_hk _ (by decide +kernel)
    | exact sub_port _ _ (by decide +kernel)
    | exact sub_win _ (by decide +kernel)
    | exact sub_any _ (by decide +kernel)
    | split
    | refine Keeps.upd ?_

theorem State.startUp_keeps (s : State) (p : Nat) :
    Keeps (foot [.reg GLB_STATE, .reg GLB_DETERMINISM, .reg TIM_STATUS, .reg TIM_TICK_PERIOD, .reg LNK_DOWN_STATUS, .reg MGT_STATUS, .regs 0x0308 4, .tm, .cou, .bru, .cfg]) s (State.startUp s p) := by
  unfold State.startUp
  extract_lets a1 a2 a3
  have ha1 : Keeps (foot [.reg GLB_STATE, .reg GLB_DETERMINISM, .reg TIM_STATUS, .reg TIM_TICK_PERIOD, .reg LNK_DOWN_STATUS, .reg MGT_STATUS, .regs 0x0308 4, .tm, .cou, .bru, .cfg]) s a1 := by
    unfold a1
    repeat' first
      | with_reducible assumption
      | with_reducible apply Keeps.refl
      | with_reducible apply Keeps.ite
      | (apply Keeps.step; with_reducible apply State.clockOn_keeps)
      | (apply Keeps.step; with_reducible apply State.setPhase_keeps)
      | (apply Keeps.step; with_reducible apply State.setGlb_keeps)
      | (with_reducible apply Keeps.forEach; intro _ _ _)
      | (with_reducible apply Keeps.foldl_fst; intro _ _ _)
      | (with_reducible apply Keeps.foldl_snd; intro _ _ _)
      | (with_reducible apply Keeps.foldl; intro _ _ _)
      | decide +kernel
      | exact sub_flt _ (by decide +kernel)
      | exact sub_eng _ (by decide +kernel)
      | exact sub_hk _ (by decide +kernel)
      | exact sub_port _ _ (by decide +kernel)
      | exact sub_win _ (by decide +kernel)
      | exact sub_any _ (by decide +kernel)
      | split
      | refine Keeps.upd ?_
  try clear_value a1
  try clear_value a2
  have ha3 : Keeps (foot [.reg GLB_STATE, .reg GLB_DETERMINISM, .reg TIM_STATUS, .reg TIM_TICK_PERIOD, .reg LNK_DOWN_STATUS, .reg MGT_STATUS, .regs 0x0308 4, .tm, .cou, .bru, .cfg]) s a3 := by
    unfold a3
    repeat' first
      | with_reducible assumption
      | with_reducible apply Keeps.refl
      | with_reducible apply Keeps.ite
      | (apply Keeps.step; with_reducible apply State.clockOn_keeps)
      | (apply Keeps.step; with_reducible apply State.setPhase_keeps)
      | (apply Keeps.step; with_reducible apply State.setGlb_keeps)
      | (with_reducible apply Keeps.forEach; intro _ _ _)
      | (with_reducible apply Keeps.foldl_fst; intro _ _ _)
      | (with_reducible apply Keeps.foldl_snd; intro _ _ _)
      | (with_reducible apply Keeps.foldl; intro _ _ _)
      | decide +kernel
      | exact sub_flt _ (by decide +kernel)
      | exact sub_eng _ (by decide +kernel)
      | exact sub_hk _ (by decide +kernel)
      | exact sub_port _ _ (by decide +kernel)
      | exact sub_win _ (by decide +kernel)
      | exact sub_any _ (by decide +kernel)
      | split
      | refine Keeps.upd ?_
  try clear_value a3
  repeat' first
    | with_reducible assumption
    | with_reducible apply Keeps.refl
    | with_reducible apply Keeps.ite
    | (apply Keeps.step; with_reducible apply State.clockOn_keeps)
    | (apply Keeps.step; with_reducible apply State.setPhase_keeps)
    | (apply Keeps.step; with_reducible apply State.setGlb_keeps)
    | (with_reducible apply Keeps.forEach; intro _ _ _)
    | (with_reducible apply Keeps.foldl_fst; intro _ _ _)
    | (with_reducible apply Keeps.foldl_snd; intro _ _ _)
    | (with_reducible apply Keeps.foldl; intro _ _ _)
    | decide +kernel
    | exact sub_flt _ (by decide +kernel)
    | exact sub_eng _ (by decide +kernel)
    | exact sub_hk _ (by decide +kernel)
    | exact sub_port _ _ (by decide +kernel)
    | exact sub_win _ (by decide +kernel)
    | exact sub_any _ (by decide +kernel)
    | split
    | refine Keeps.upd ?_

theorem State.clockRelease_keeps (s : State) (p : Nat) :
    Keeps (foot [.reg GLB_STATE, .reg GLB_DETERMINISM, .reg TIM_STATUS, .reg TIM_TICK_PERIOD, .reg LNK_DOWN_STATUS, .reg MGT_STATUS, .regs 0x0308 4, .tm, .cou, .bru, .cfg]) s (State.clockRelease s p) := by
  unfold State.clockRelease
  repeat' first
    | with_reducible assumption
    | with_reducible apply Keeps.refl
    | with_reducible apply Keeps.ite
    | (apply Keeps.step; with_reducible apply State.startUp_keeps)
    | (with_reducible apply Keeps.forEach; intro _ _ _)
    | (with_reducible apply Keeps.foldl_fst; intro _ _ _)
    | (with_reducible apply Keeps.foldl_snd; intro _ _ _)
    | (with_reducible apply Keeps.foldl; intro _ _ _)
    | decide +kernel
    | exact sub_flt _ (by decide +kernel)
    | exact sub_eng _ (by decide +kernel)
    | exact sub_hk _ (by decide +kernel)
    | exact sub_port _ _ (by decide +kernel)
    | exact sub_win _ (by decide +kernel)
    | exact sub_any _ (by decide +kernel)
    | split

theorem State.fieldEpochNext_keeps (s : State) :
    Keeps (foot [.bar]) s (State.fieldEpochNext s) := by
  unfold State.fieldEpochNext
  repeat' first
    | with_reducible assumption
    | with_reducible apply Keeps.refl
    | with_reducible apply Keeps.ite
    | (apply Keeps.step; with_reducible apply State.setFieldEpoch_keeps)
    | (with_reducible apply Keeps.forEach; intro _ _ _)
    | (with_reducible apply Keeps.foldl_fst; intro _ _ _)
    | (with_reducible apply Keeps.foldl_snd; intro _ _ _)
    | (with_reducible apply Keeps.foldl; intro _ _ _)
    | decide +kernel
    | exact sub_flt _ (by decide +kernel)
    | exact sub_eng _ (by decide +kernel)
    | exact sub_hk _ (by decide +kernel)
    | exact sub_port _ _ (by decide +kernel)
    | exact sub_win _ (by decide +kernel)
    | exact sub_any _ (by decide +kernel)
    | split

theorem State.sheetMark_keeps (s : State) :
    Keeps (foot [.reg GLB_DETERMINISM, .reg TIM_SHEET_ALIGN, .reg LNK_DEADLETTER_COUNT, .reg (ENG_STATUS 0x600), .reg (ENG_STATUS 0x1B00), .flt, .win .lnk, .recTick, .bar, .faults, .cou, .bru, .lnk, .free, .srcs]) s (State.sheetMark s) := by
  unfold State.sheetMark
  extract_lets a1 a2
  try clear_value a1
  have ha2 : Keeps (foot [.reg GLB_DETERMINISM, .reg TIM_SHEET_ALIGN, .reg LNK_DEADLETTER_COUNT, .reg (ENG_STATUS 0x600), .reg (ENG_STATUS 0x1B00), .flt, .win .lnk, .recTick, .bar, .faults, .cou, .bru, .lnk, .free, .srcs]) s a2 := by
    unfold a2
    repeat' first
      | with_reducible assumption
      | with_reducible apply Keeps.refl
      | with_reducible apply Keeps.ite
      | (apply Keeps.step; with_reducible apply State.setFld_keeps)
      | (apply Keeps.step; with_reducible apply State.raise_keeps)
      | (apply Keeps.step; with_reducible apply State.setBit_keeps)
      | (with_reducible apply Keeps.forEach; intro _ _ _)
      | (with_reducible apply Keeps.foldl_fst; intro _ _ _)
      | (with_reducible apply Keeps.foldl_snd; intro _ _ _)
      | (with_reducible apply Keeps.foldl; intro _ _ _)
      | decide +kernel
      | exact sub_flt _ (by decide +kernel)
      | exact sub_eng _ (by decide +kernel)
      | exact sub_hk _ (by decide +kernel)
      | exact sub_port _ _ (by decide +kernel)
      | exact sub_win _ (by decide +kernel)
      | exact sub_any _ (by decide +kernel)
      | split
  try clear_value a2
  repeat' first
    | with_reducible assumption
    | with_reducible apply Keeps.refl
    | with_reducible apply Keeps.ite
    | (apply Keeps.step; with_reducible apply State.setFld_keeps)
    | (apply Keeps.step; with_reducible apply State.raise_keeps)
    | (apply Keeps.step; with_reducible apply State.setBit_keeps)
    | (with_reducible apply Keeps.forEach; intro _ _ _)
    | (with_reducible apply Keeps.foldl_fst; intro _ _ _)
    | (with_reducible apply Keeps.foldl_snd; intro _ _ _)
    | (with_reducible apply Keeps.foldl; intro _ _ _)
    | decide +kernel
    | exact sub_flt _ (by decide +kernel)
    | exact sub_eng _ (by decide +kernel)
    | exact sub_hk _ (by decide +kernel)
    | exact sub_port _ _ (by decide +kernel)
    | exact sub_win _ (by decide +kernel)
    | exact sub_any _ (by decide +kernel)
    | split

theorem State.markCmd_keeps (s : State) :
    Keeps (foot [.reg GLB_DETERMINISM, .reg TIM_SHEET_ALIGN, .reg TIM_FASTCMD_COUNT, .reg TIM_FASTCMD_LAST, .reg LNK_DEADLETTER_COUNT, .reg (ENG_STATUS 0x600), .reg (ENG_STATUS 0x1B00), .flt, .win .lnk, .recTick, .bar, .faults, .cou, .bru, .lnk, .free, .srcs]) s (State.markCmd s) := by
  unfold State.markCmd
  repeat' first
    | with_reducible assumption
    | with_reducible apply Keeps.refl
    | with_reducible apply Keeps.ite
    | (apply Keeps.step; with_reducible apply State.sheetMark_keeps)
    | (apply Keeps.step; with_reducible apply State.fastCount_keeps)
    | (with_reducible apply Keeps.forEach; intro _ _ _)
    | (with_reducible apply Keeps.foldl_fst; intro _ _ _)
    | (with_reducible apply Keeps.foldl_snd; intro _ _ _)
    | (with_reducible apply Keeps.foldl; intro _ _ _)
    | decide +kernel
    | exact sub_flt _ (by decide +kernel)
    | exact sub_eng _ (by decide +kernel)
    | exact sub_hk _ (by decide +kernel)
    | exact sub_port _ _ (by decide +kernel)
    | exact sub_win _ (by decide +kernel)
    | exact sub_any _ (by decide +kernel)
    | split

theorem State.gapOpenCmd_keeps (s : State) :
    Keeps (foot [.reg TIM_GAP_COUNT, .reg TIM_FASTCMD_COUNT, .reg TIM_FASTCMD_LAST, .gap]) s (State.gapOpenCmd s) := by
  unfold State.gapOpenCmd
  repeat' first
    | with_reducible assumption
    | with_reducible apply Keeps.refl
    | with_reducible apply Keeps.ite
    | (apply Keeps.step; with_reducible apply State.gapOpen_keeps)
    | (apply Keeps.step; with_reducible apply State.fastCount_keeps)
    | (with_reducible apply Keeps.forEach; intro _ _ _)
    | (with_reducible apply Keeps.foldl_fst; intro _ _ _)
    | (with_reducible apply Keeps.foldl_snd; intro _ _ _)
    | (with_reducible apply Keeps.foldl; intro _ _ _)
    | decide +kernel
    | exact sub_flt _ (by decide +kernel)
    | exact sub_eng _ (by decide +kernel)
    | exact sub_hk _ (by decide +kernel)
    | exact sub_port _ _ (by decide +kernel)
    | exact sub_win _ (by decide +kernel)
    | exact sub_any _ (by decide +kernel)
    | split

theorem State.gapCloseCmd_keeps (s : State) :
    Keeps (foot [.reg GLB_DETERMINISM, .reg TIM_GAP_COUNT, .reg TIM_FASTCMD_COUNT, .reg TIM_FASTCMD_LAST, .reg LNK_DEADLETTER_COUNT, .reg (ENG_STATUS 0x600), .reg CAL_STATUS, .reg CAL_DEFER_COUNT, .reg (ENG_STATUS 0x1B00), .flt, .win .lnk, .win .nul, .win .cal, .recTick, .gap, .bar, .faults, .cou, .bru, .col, .nul, .lnk, .cal, .free] ||| foot [.srcs]) s (State.gapCloseCmd s) := by
  unfold State.gapCloseCmd
  extract_lets a1
  have ha1 : Keeps (foot [.reg GLB_DETERMINISM, .reg TIM_GAP_COUNT, .reg TIM_FASTCMD_COUNT, .reg TIM_FASTCMD_LAST, .reg LNK_DEADLETTER_COUNT, .reg (ENG_STATUS 0x600), .reg CAL_STATUS, .reg CAL_DEFER_COUNT, .reg (ENG_STATUS 0x1B00), .flt, .win .lnk, .win .nul, .win .cal, .recTick, .gap, .bar, .faults, .cou, .bru, .col, .nul, .lnk, .cal, .free] ||| foot [.srcs]) s a1 := by
    unfold a1
    repeat' first
      | with_reducible assumption
      | with_reducible apply Keeps.refl
      | with_reducible apply Keeps.ite
      | (apply Keeps.step; with_reducible apply State.fastCount_keeps)
      | (apply Keeps.step; with_reducible apply State.gapClose_keeps)
      | (apply Keeps.step; with_reducible apply State.calClose_keeps)
      | (with_reducible apply Keeps.forEach; intro _ _ _)
      | (with_reducible apply Keeps.foldl_fst; intro _ _ _)
      | (with_reducible apply Keeps.foldl_snd; intro _ _ _)
      | (with_reducible apply Keeps.foldl; intro _ _ _)
      | decide +kernel
      | exact sub_flt _ (by decide +kernel)
      | exact sub_eng _ (by decide +kernel)
      | exact sub_hk _ (by decide +kernel)
      | exact sub_port _ _ (by decide +kernel)
      | exact sub_win _ (by decide +kernel)
      | exact sub_any _ (by decide +kernel)
      | split
  try clear_value a1
  repeat' first
    | with_reducible assumption
    | with_reducible apply Keeps.refl
    | with_reducible apply Keeps.ite
    | (apply Keeps.step; with_reducible apply State.fastCount_keeps)
    | (apply Keeps.step; with_reducible apply State.gapClose_keeps)
    | (apply Keeps.step; with_reducible apply State.calClose_keeps)
    | (with_reducible apply Keeps.forEach; intro _ _ _)
    | (with_reducible apply Keeps.foldl_fst; intro _ _ _)
    | (with_reducible apply Keeps.foldl_snd; intro _ _ _)
    | (with_reducible apply Keeps.foldl; intro _ _ _)
    | decide +kernel
    | exact sub_flt _ (by decide +kernel)
    | exact sub_eng _ (by decide +kernel)
    | exact sub_hk _ (by decide +kernel)
    | exact sub_port _ _ (by decide +kernel)
    | exact sub_win _ (by decide +kernel)
    | exact sub_any _ (by decide +kernel)
    | split

theorem State.trigCmd_keeps (s : State) :
    Keeps (foot [.reg GLB_DETERMINISM, .reg TIM_FASTCMD_COUNT, .reg TIM_FASTCMD_LAST, .reg LNK_DEADLETTER_COUNT, .reg (ENG_STATUS 0x600), .reg EVT_COUNT, .reg EVT_LOST, .reg EVT_STATUS, .reg (ENG_STATUS 0x1B00), .flt, .win .lnk, .recTick, .bar, .faults, .cou, .bru, .evt, .lnk, .free, .srcs]) s (State.trigCmd s) := by
  unfold State.trigCmd
  repeat' first
    | with_reducible assumption
    | with_reducible apply Keeps.refl
    | with_reducible apply Keeps.ite
    | (apply Keeps.step; with_reducible apply State.trigDecide_keeps)
    | (apply Keeps.step; with_reducible apply State.fastCount_keeps)
    | (with_reducible apply Keeps.forEach; intro _ _ _)
    | (with_reducible apply Keeps.foldl_fst; intro _ _ _)
    | (with_reducible apply Keeps.foldl_snd; intro _ _ _)
    | (with_reducible apply Keeps.foldl; intro _ _ _)
    | decide +kernel
    | exact sub_flt _ (by decide +kernel)
    | exact sub_eng _ (by decide +kernel)
    | exact sub_hk _ (by decide +kernel)
    | exact sub_port _ _ (by decide +kernel)
    | exact sub_win _ (by decide +kernel)
    | exact sub_any _ (by decide +kernel)
    | split

theorem State.calFireCmd_keeps (s : State) :
    Keeps (foot [.reg TIM_FASTCMD_COUNT, .reg TIM_FASTCMD_LAST, .cal]) s (State.calFireCmd s) := by
  unfold State.calFireCmd
  extract_lets a1
  have ha1 : Keeps (foot [.reg TIM_FASTCMD_COUNT, .reg TIM_FASTCMD_LAST, .cal]) s a1 := by
    unfold a1
    repeat' first
      | with_reducible assumption
      | with_reducible apply Keeps.refl
      | with_reducible apply Keeps.ite
      | (apply Keeps.step; with_reducible apply State.fastCount_keeps)
      | (apply Keeps.step; with_reducible apply State.calFire_keeps)
      | (with_reducible apply Keeps.forEach; intro _ _ _)
      | (with_reducible apply Keeps.foldl_fst; intro _ _ _)
      | (with_reducible apply Keeps.foldl_snd; intro _ _ _)
      | (with_reducible apply Keeps.foldl; intro _ _ _)
      | decide +kernel
      | exact sub_flt _ (by decide +kernel)
      | exact sub_eng _ (by decide +kernel)
      | exact sub_hk _ (by decide +kernel)
      | exact sub_port _ _ (by decide +kernel)
      | exact sub_win _ (by decide +kernel)
      | exact sub_any _ (by decide +kernel)
      | split
  try clear_value a1
  repeat' first
    | with_reducible assumption
    | with_reducible apply Keeps.refl
    | with_reducible apply Keeps.ite
    | (apply Keeps.step; with_reducible apply State.fastCount_keeps)
    | (apply Keeps.step; with_reducible apply State.calFire_keeps)
    | (with_reducible apply Keeps.forEach; intro _ _ _)
    | (with_reducible apply Keeps.foldl_fst; intro _ _ _)
    | (with_reducible apply Keeps.foldl_snd; intro _ _ _)
    | (with_reducible apply Keeps.foldl; intro _ _ _)
    | decide +kernel
    | exact sub_flt _ (by decide +kernel)
    | exact sub_eng _ (by decide +kernel)
    | exact sub_hk _ (by decide +kernel)
    | exact sub_port _ _ (by decide +kernel)
    | exact sub_win _ (by decide +kernel)
    | exact sub_any _ (by decide +kernel)
    | split

theorem State.haltFast_keeps (s : State) :
    Keeps (foot [.reg GLB_STATE, .reg GLB_DETERMINISM, .reg TIM_FASTCMD_COUNT, .reg TIM_FASTCMD_LAST, .cou, .bru]) s (State.haltFast s) := by
  unfold State.haltFast
  repeat' first
    | with_reducible assumption
    | with_reducible apply Keeps.refl
    | with_reducible apply Keeps.ite
    | (apply Keeps.step; with_reducible apply State.haltCmd_keeps)
    | (apply Keeps.step; with_reducible apply State.fastCount_keeps)
    | (with_reducible apply Keeps.forEach; intro _ _ _)
    | (with_reducible apply Keeps.foldl_fst; intro _ _ _)
    | (with_reducible apply Keeps.foldl_snd; intro _ _ _)
    | (with_reducible apply Keeps.foldl; intro _ _ _)
    | decide +kernel
    | exact sub_flt _ (by decide +kernel)
    | exact sub_eng _ (by decide +kernel)
    | exact sub_hk _ (by decide +kernel)
    | exact sub_port _ _ (by decide +kernel)
    | exact sub_win _ (by decide +kernel)
    | exact sub_any _ (by decide +kernel)
    | split

theorem State.epochCmd_keeps (s : State) :
    Keeps (foot [.reg TIM_FASTCMD_COUNT, .reg TIM_FASTCMD_LAST, .reg LNK_EPOCH, .reg (ENG_STATUS 0x600), .reg (ENG_STATUS 0x1B00), .bar, .cou, .bru, .free]) s (State.epochCmd s) := by
  unfold State.epochCmd
  extract_lets a1
  have ha1 : Keeps (foot [.reg TIM_FASTCMD_COUNT, .reg TIM_FASTCMD_LAST, .reg LNK_EPOCH, .reg (ENG_STATUS 0x600), .reg (ENG_STATUS 0x1B00), .bar, .cou, .bru, .free]) s a1 := by
    unfold a1
    repeat' first
      | with_reducible assumption
      | with_reducible apply Keeps.refl
      | with_reducible apply Keeps.ite
      | (apply Keeps.step; with_reducible apply State.epochNext_keeps)
      | (apply Keeps.step; with_reducible apply State.fastCount_keeps)
      | (apply Keeps.step; with_reducible apply State.fieldEpochNext_keeps)
      | (with_reducible apply Keeps.forEach; intro _ _ _)
      | (with_reducible apply Keeps.foldl_fst; intro _ _ _)
      | (with_reducible apply Keeps.foldl_snd; intro _ _ _)
      | (with_reducible apply Keeps.foldl; intro _ _ _)
      | decide +kernel
      | exact sub_flt _ (by decide +kernel)
      | exact sub_eng _ (by decide +kernel)
      | exact sub_hk _ (by decide +kernel)
      | exact sub_port _ _ (by decide +kernel)
      | exact sub_win _ (by decide +kernel)
      | exact sub_any _ (by decide +kernel)
      | split
  try clear_value a1
  repeat' first
    | with_reducible assumption
    | with_reducible apply Keeps.refl
    | with_reducible apply Keeps.ite
    | (apply Keeps.step; with_reducible apply State.epochNext_keeps)
    | (apply Keeps.step; with_reducible apply State.fastCount_keeps)
    | (apply Keeps.step; with_reducible apply State.fieldEpochNext_keeps)
    | (with_reducible apply Keeps.forEach; intro _ _ _)
    | (with_reducible apply Keeps.foldl_fst; intro _ _ _)
    | (with_reducible apply Keeps.foldl_snd; intro _ _ _)
    | (with_reducible apply Keeps.foldl; intro _ _ _)
    | decide +kernel
    | exact sub_flt _ (by decide +kernel)
    | exact sub_eng _ (by decide +kernel)
    | exact sub_hk _ (by decide +kernel)
    | exact sub_port _ _ (by decide +kernel)
    | exact sub_win _ (by decide +kernel)
    | exact sub_any _ (by decide +kernel)
    | split

theorem State.drapeCmd_keeps (s : State) (on : Bool) :
    Keeps (foot [.reg GLB_DETERMINISM, .reg TIM_FASTCMD_COUNT, .reg TIM_FASTCMD_LAST, .reg LNK_DEADLETTER_COUNT, .reg (ENG_STATUS 0x600), .reg CAL_STATUS, .reg CAL_DEFER_COUNT, .reg (ENG_STATUS 0x1B00), .flt, .win .lnk, .win .nul, .win .cal, .recTick, .bar, .pin, .faults, .cou, .bru, .pal, .pwr, .col, .nul, .lnk, .cal] ||| foot [.free, .srcs]) s (State.drapeCmd s on) := by
  unfold State.drapeCmd
  repeat' first
    | with_reducible assumption
    | with_reducible apply Keeps.refl
    | with_reducible apply Keeps.ite
    | (apply Keeps.step; with_reducible apply State.commandDrape_keeps)
    | (apply Keeps.step; with_reducible apply State.fastCount_keeps)
    | (with_reducible apply Keeps.forEach; intro _ _ _)
    | (with_reducible apply Keeps.foldl_fst; intro _ _ _)
    | (with_reducible apply Keeps.foldl_snd; intro _ _ _)
    | (with_reducible apply Keeps.foldl; intro _ _ _)
    | decide +kernel
    | exact sub_flt _ (by decide +kernel)
    | exact sub_eng _ (by decide +kernel)
    | exact sub_hk _ (by decide +kernel)
    | exact sub_port _ _ (by decide +kernel)
    | exact sub_win _ (by decide +kernel)
    | exact sub_any _ (by decide +kernel)
    | split

theorem State.fastAct_keeps (s : State) (code : BitVec 8) :
    Keeps (foot [.reg GLB_STATE, .reg GLB_DETERMINISM, .reg TIM_SHEET_ALIGN, .reg TIM_GAP_COUNT, .reg TIM_FASTCMD_COUNT, .reg TIM_FASTCMD_LAST, .reg LNK_EPOCH, .reg LNK_DEADLETTER_COUNT, .reg (ENG_STATUS 0x600), .reg (ENG_BREAK 0x600), .reg EVT_COUNT, .reg EVT_LOST, .reg EVT_STATUS, .reg CAL_STATUS, .reg CAL_DEFER_COUNT, .reg (ENG_STATUS 0x1B00), .reg (ENG_BREAK 0x1B00), .flt, .win .lnk, .win .nul, .win .cal, .recTick, .gap, .bar] ||| foot [.pin, .faults, .cou, .bru, .pal, .pwr, .col, .nul, .evt, .lnk, .cal, .cfg, .free, .srcs]) s (State.fastAct s code) := by
  unfold State.fastAct
  repeat' first
    | with_reducible assumption
    | with_reducible apply Keeps.refl
    | with_reducible apply Keeps.ite
    | (apply Keeps.step; with_reducible apply State.markCmd_keeps)
    | (apply Keeps.step; with_reducible apply State.gapOpenCmd_keeps)
    | (apply Keeps.step; with_reducible apply State.gapCloseCmd_keeps)
    | (apply Keeps.step; with_reducible apply State.trigCmd_keeps)
    | (apply Keeps.step; with_reducible apply State.calFireCmd_keeps)
    | (apply Keeps.step; with_reducible apply State.runFast_keeps)
    | (apply Keeps.step; with_reducible apply State.haltFast_keeps)
    | (apply Keeps.step; with_reducible apply State.epochCmd_keeps)
    | (apply Keeps.step; with_reducible apply State.drapeCmd_keeps)
    | (with_reducible apply Keeps.forEach; intro _ _ _)
    | (with_reducible apply Keeps.foldl_fst; intro _ _ _)
    | (with_reducible apply Keeps.foldl_snd; intro _ _ _)
    | (with_reducible apply Keeps.foldl; intro _ _ _)
    | decide +kernel
    | exact sub_flt _ (by decide +kernel)
    | exact sub_eng _ (by decide +kernel)
    | exact sub_hk _ (by decide +kernel)
    | exact sub_port _ _ (by decide +kernel)
    | exact sub_win _ (by decide +kernel)
    | exact sub_any _ (by decide +kernel)
    | split

theorem State.fieldEpochDue_keeps (s : State) :
    Keeps (foot [.bar]) s (State.fieldEpochDue s) := by
  unfold State.fieldEpochDue
  repeat' first
    | with_reducible assumption
    | with_reducible apply Keeps.refl
    | with_reducible apply Keeps.ite
    | (apply Keeps.step; with_reducible apply State.setFieldEpoch_keeps)
    | (with_reducible apply Keeps.forEach; intro _ _ _)
    | (with_reducible apply Keeps.foldl_fst; intro _ _ _)
    | (with_reducible apply Keeps.foldl_snd; intro _ _ _)
    | (with_reducible apply Keeps.foldl; intro _ _ _)
    | decide +kernel
    | exact sub_flt _ (by decide +kernel)
    | exact sub_eng _ (by decide +kernel)
    | exact sub_hk _ (by decide +kernel)
    | exact sub_port _ _ (by decide +kernel)
    | exact sub_win _ (by decide +kernel)
    | exact sub_any _ (by decide +kernel)
    | split

theorem State.fastDue_keeps (s : State) :
    Keeps (foot [.reg GLB_STATE, .reg GLB_DETERMINISM, .reg TIM_SHEET_ALIGN, .reg TIM_GAP_COUNT, .reg TIM_FASTCMD_COUNT, .reg TIM_FASTCMD_LAST, .reg LNK_EPOCH, .reg LNK_DEADLETTER_COUNT, .reg (ENG_STATUS 0x600), .reg (ENG_BREAK 0x600), .reg EVT_COUNT, .reg EVT_LOST, .reg EVT_STATUS, .reg CAL_STATUS, .reg CAL_DEFER_COUNT, .reg (ENG_STATUS 0x1B00), .reg (ENG_BREAK 0x1B00), .flt, .win .lnk, .win .nul, .win .cal, .recTick, .gap, .tm] ||| foot [.bar, .pin, .faults, .cou, .bru, .pal, .pwr, .col, .nul, .evt, .lnk, .cal, .cfg, .free, .srcs]) s (State.fastDue s) := by
  unfold State.fastDue
  extract_lets a1 a2 a3 a4
  try clear_value a1
  have ha2 : Keeps (foot [.reg GLB_STATE, .reg GLB_DETERMINISM, .reg TIM_SHEET_ALIGN, .reg TIM_GAP_COUNT, .reg TIM_FASTCMD_COUNT, .reg TIM_FASTCMD_LAST, .reg LNK_EPOCH, .reg LNK_DEADLETTER_COUNT, .reg (ENG_STATUS 0x600), .reg (ENG_BREAK 0x600), .reg EVT_COUNT, .reg EVT_LOST, .reg EVT_STATUS, .reg CAL_STATUS, .reg CAL_DEFER_COUNT, .reg (ENG_STATUS 0x1B00), .reg (ENG_BREAK 0x1B00), .flt, .win .lnk, .win .nul, .win .cal, .recTick, .gap, .tm] ||| foot [.bar, .pin, .faults, .cou, .bru, .pal, .pwr, .col, .nul, .evt, .lnk, .cal, .cfg, .free, .srcs]) s a2 := by
    unfold a2
    repeat' first
      | with_reducible assumption
      | with_reducible apply Keeps.refl
      | with_reducible apply Keeps.ite
      | (apply Keeps.step; with_reducible apply State.fastAct_keeps)
      | (apply Keeps.step; with_reducible apply State.fieldEpochDue_keeps)
      | (with_reducible apply Keeps.forEach; intro _ _ _)
      | (with_reducible apply Keeps.foldl_fst; intro _ _ _)
      | (with_reducible apply Keeps.foldl_snd; intro _ _ _)
      | (with_reducible apply Keeps.foldl; intro _ _ _)
      | decide +kernel
      | exact sub_flt _ (by decide +kernel)
      | exact sub_eng _ (by decide +kernel)
      | exact sub_hk _ (by decide +kernel)
      | exact sub_port _ _ (by decide +kernel)
      | exact sub_win _ (by decide +kernel)
      | exact sub_any _ (by decide +kernel)
      | split
      | refine Keeps.upd ?_
  try clear_value a2
  have ha3 : Keeps (foot [.reg GLB_STATE, .reg GLB_DETERMINISM, .reg TIM_SHEET_ALIGN, .reg TIM_GAP_COUNT, .reg TIM_FASTCMD_COUNT, .reg TIM_FASTCMD_LAST, .reg LNK_EPOCH, .reg LNK_DEADLETTER_COUNT, .reg (ENG_STATUS 0x600), .reg (ENG_BREAK 0x600), .reg EVT_COUNT, .reg EVT_LOST, .reg EVT_STATUS, .reg CAL_STATUS, .reg CAL_DEFER_COUNT, .reg (ENG_STATUS 0x1B00), .reg (ENG_BREAK 0x1B00), .flt, .win .lnk, .win .nul, .win .cal, .recTick, .gap, .tm] ||| foot [.bar, .pin, .faults, .cou, .bru, .pal, .pwr, .col, .nul, .evt, .lnk, .cal, .cfg, .free, .srcs]) s a3 := by
    unfold a3
    repeat' first
      | with_reducible assumption
      | with_reducible apply Keeps.refl
      | with_reducible apply Keeps.ite
      | (apply Keeps.step; with_reducible apply State.fastAct_keeps)
      | (apply Keeps.step; with_reducible apply State.fieldEpochDue_keeps)
      | (with_reducible apply Keeps.forEach; intro _ _ _)
      | (with_reducible apply Keeps.foldl_fst; intro _ _ _)
      | (with_reducible apply Keeps.foldl_snd; intro _ _ _)
      | (with_reducible apply Keeps.foldl; intro _ _ _)
      | decide +kernel
      | exact sub_flt _ (by decide +kernel)
      | exact sub_eng _ (by decide +kernel)
      | exact sub_hk _ (by decide +kernel)
      | exact sub_port _ _ (by decide +kernel)
      | exact sub_win _ (by decide +kernel)
      | exact sub_any _ (by decide +kernel)
      | split
      | refine Keeps.upd ?_
  try clear_value a3
  try clear_value a4
  repeat' first
    | with_reducible assumption
    | with_reducible apply Keeps.refl
    | with_reducible apply Keeps.ite
    | (apply Keeps.step; with_reducible apply State.fastAct_keeps)
    | (apply Keeps.step; with_reducible apply State.fieldEpochDue_keeps)
    | (with_reducible apply Keeps.forEach; intro _ _ _)
    | (with_reducible apply Keeps.foldl_fst; intro _ _ _)
    | (with_reducible apply Keeps.foldl_snd; intro _ _ _)
    | (with_reducible apply Keeps.foldl; intro _ _ _)
    | decide +kernel
    | exact sub_flt _ (by decide +kernel)
    | exact sub_eng _ (by decide +kernel)
    | exact sub_hk _ (by decide +kernel)
    | exact sub_port _ _ (by decide +kernel)
    | exact sub_win _ (by decide +kernel)
    | exact sub_any _ (by decide +kernel)
    | split
    | refine Keeps.upd ?_

theorem State.moveNames_keeps (s : State) (d : PM) :
    Keeps (foot [.gap, .tm, .bar, .lnk]) s (State.moveNames s d) := by
  unfold State.moveNames
  extract_lets a1 a2 a3 a4
  try clear_value a1
  try clear_value a2
  try clear_value a3
  try clear_value a4
  repeat' first
    | with_reducible assumption
    | with_reducible apply Keeps.refl
    | with_reducible apply Keeps.ite
    | (with_reducible apply Keeps.forEach; intro _ _ _)
    | (with_reducible apply Keeps.foldl_fst; intro _ _ _)
    | (with_reducible apply Keeps.foldl_snd; intro _ _ _)
    | (with_reducible apply Keeps.foldl; intro _ _ _)
    | split
    | refine Keeps.upd ?_

theorem State.takeName_keeps (s : State) (old : PM) (new : PM) :
    Keeps (foot [.tm, .str, .lnk]) s (State.takeName s old new) := by
  unfold State.takeName
  extract_lets a1 a2 a3
  try clear_value a1
  try clear_value a2
  try clear_value a3
  repeat' first
    | with_reducible assumption
    | with_reducible apply Keeps.refl
    | with_reducible apply Keeps.ite
    | (with_reducible apply Keeps.forEach; intro _ _ _)
    | (with_reducible apply Keeps.foldl_fst; intro _ _ _)
    | (with_reducible apply Keeps.foldl_snd; intro _ _ _)
    | (with_reducible apply Keeps.foldl; intro _ _ _)
    | split
    | refine Keeps.upd ?_

theorem State.renameHost_keeps (s : State) (p : PmSet) :
    Keeps (foot [.reg GLB_STATE, .reg GLB_DETERMINISM, .reg TIM_STATUS, .reg TIM_FIXED_LATENCY, .reg TIM_LAUNCH_STATUS, .reg TIM_FASTCMD_COUNT, .reg TIM_FASTCMD_LAST, .reg LNK_SCHED_SEL, .reg LNK_SLOWCTL_STATUS, .reg PWR_STATE, .reg PAL_STATUS, .hostQ, .fieldQ, .gap, .tm, .bar, .faults, .cou, .bru, .pwr, .str, .lnk, .mgt]) s (State.renameHost s p) := by
  unfold State.renameHost
  extract_lets a1 a2 a3 a4 a5 a6 a7
  try clear_value a1
  try clear_value a2
  have ha3 : Keeps (foot [.reg GLB_STATE, .reg GLB_DETERMINISM, .reg TIM_STATUS, .reg TIM_FIXED_LATENCY, .reg TIM_LAUNCH_STATUS, .reg TIM_FASTCMD_COUNT, .reg TIM_FASTCMD_LAST, .reg LNK_SCHED_SEL, .reg LNK_SLOWCTL_STATUS, .reg PWR_STATE, .reg PAL_STATUS, .hostQ, .fieldQ, .gap, .tm, .bar, .faults, .cou, .bru, .pwr, .str, .lnk, .mgt]) s a3 := by
    unfold a3
    repeat' first
      | with_reducible assumption
      | with_reducible apply Keeps.refl
      | with_reducible apply Keeps.ite
      | (apply Keeps.step; with_reducible apply State.takeName_keeps)
      | (apply Keeps.step; with_reducible apply State.moveNames_keeps)
      | (apply Keeps.step; with_reducible apply State.setBit_keeps)
      | (apply Keeps.step; with_reducible apply State.setFld_keeps)
      | (apply Keeps.step; with_reducible apply State.pwrDrop_keeps)
      | (apply Keeps.step; with_reducible apply State.flushAll_keeps)
      | (apply Keeps.step; with_reducible apply State.sticky_keeps)
      | (apply Keeps.step; with_reducible apply State.haltCmd_keeps)
      | (apply Keeps.step; with_reducible apply State.inc_keeps)
      | (apply Keeps.step; with_reducible apply State.fastCount_keeps)
      | (with_reducible apply Keeps.forEach; intro _ _ _)
      | (with_reducible apply Keeps.foldl_fst; intro _ _ _)
      | (with_reducible apply Keeps.foldl_snd; intro _ _ _)
      | (with_reducible apply Keeps.foldl; intro _ _ _)
      | decide +kernel
      | exact sub_flt _ (by decide +kernel)
      | exact sub_eng _ (by decide +kernel)
      | exact sub_hk _ (by decide +kernel)
      | exact sub_port _ _ (by decide +kernel)
      | exact sub_win _ (by decide +kernel)
      | exact sub_any _ (by decide +kernel)
      | split
  try clear_value a3
  have ha4 : Keeps (foot [.reg GLB_STATE, .reg GLB_DETERMINISM, .reg TIM_STATUS, .reg TIM_FIXED_LATENCY, .reg TIM_LAUNCH_STATUS, .reg TIM_FASTCMD_COUNT, .reg TIM_FASTCMD_LAST, .reg LNK_SCHED_SEL, .reg LNK_SLOWCTL_STATUS, .reg PWR_STATE, .reg PAL_STATUS, .hostQ, .fieldQ, .gap, .tm, .bar, .faults, .cou, .bru, .pwr, .str, .lnk, .mgt]) s a4 := by
    unfold a4
    repeat' first
      | with_reducible assumption
      | with_reducible apply Keeps.refl
      | with_reducible apply Keeps.ite
      | (apply Keeps.step; with_reducible apply State.takeName_keeps)
      | (apply Keeps.step; with_reducible apply State.moveNames_keeps)
      | (apply Keeps.step; with_reducible apply State.setBit_keeps)
      | (apply Keeps.step; with_reducible apply State.setFld_keeps)
      | (apply Keeps.step; with_reducible apply State.pwrDrop_keeps)
      | (apply Keeps.step; with_reducible apply State.flushAll_keeps)
      | (apply Keeps.step; with_reducible apply State.sticky_keeps)
      | (apply Keeps.step; with_reducible apply State.haltCmd_keeps)
      | (apply Keeps.step; with_reducible apply State.inc_keeps)
      | (apply Keeps.step; with_reducible apply State.fastCount_keeps)
      | (with_reducible apply Keeps.forEach; intro _ _ _)
      | (with_reducible apply Keeps.foldl_fst; intro _ _ _)
      | (with_reducible apply Keeps.foldl_snd; intro _ _ _)
      | (with_reducible apply Keeps.foldl; intro _ _ _)
      | decide +kernel
      | exact sub_flt _ (by decide +kernel)
      | exact sub_eng _ (by decide +kernel)
      | exact sub_hk _ (by decide +kernel)
      | exact sub_port _ _ (by decide +kernel)
      | exact sub_win _ (by decide +kernel)
      | exact sub_any _ (by decide +kernel)
      | split
  try clear_value a4
  have ha5 : Keeps (foot [.reg GLB_STATE, .reg GLB_DETERMINISM, .reg TIM_STATUS, .reg TIM_FIXED_LATENCY, .reg TIM_LAUNCH_STATUS, .reg TIM_FASTCMD_COUNT, .reg TIM_FASTCMD_LAST, .reg LNK_SCHED_SEL, .reg LNK_SLOWCTL_STATUS, .reg PWR_STATE, .reg PAL_STATUS, .hostQ, .fieldQ, .gap, .tm, .bar, .faults, .cou, .bru, .pwr, .str, .lnk, .mgt]) s a5 := by
    unfold a5
    repeat' first
      | with_reducible assumption
      | with_reducible apply Keeps.refl
      | with_reducible apply Keeps.ite
      | (apply Keeps.step; with_reducible apply State.takeName_keeps)
      | (apply Keeps.step; with_reducible apply State.moveNames_keeps)
      | (apply Keeps.step; with_reducible apply State.setBit_keeps)
      | (apply Keeps.step; with_reducible apply State.setFld_keeps)
      | (apply Keeps.step; with_reducible apply State.pwrDrop_keeps)
      | (apply Keeps.step; with_reducible apply State.flushAll_keeps)
      | (apply Keeps.step; with_reducible apply State.sticky_keeps)
      | (apply Keeps.step; with_reducible apply State.haltCmd_keeps)
      | (apply Keeps.step; with_reducible apply State.inc_keeps)
      | (apply Keeps.step; with_reducible apply State.fastCount_keeps)
      | (with_reducible apply Keeps.forEach; intro _ _ _)
      | (with_reducible apply Keeps.foldl_fst; intro _ _ _)
      | (with_reducible apply Keeps.foldl_snd; intro _ _ _)
      | (with_reducible apply Keeps.foldl; intro _ _ _)
      | decide +kernel
      | exact sub_flt _ (by decide +kernel)
      | exact sub_eng _ (by decide +kernel)
      | exact sub_hk _ (by decide +kernel)
      | exact sub_port _ _ (by decide +kernel)
      | exact sub_win _ (by decide +kernel)
      | exact sub_any _ (by decide +kernel)
      | split
  try clear_value a5
  have ha6 : Keeps (foot [.reg GLB_STATE, .reg GLB_DETERMINISM, .reg TIM_STATUS, .reg TIM_FIXED_LATENCY, .reg TIM_LAUNCH_STATUS, .reg TIM_FASTCMD_COUNT, .reg TIM_FASTCMD_LAST, .reg LNK_SCHED_SEL, .reg LNK_SLOWCTL_STATUS, .reg PWR_STATE, .reg PAL_STATUS, .hostQ, .fieldQ, .gap, .tm, .bar, .faults, .cou, .bru, .pwr, .str, .lnk, .mgt]) s a6 := by
    unfold a6
    repeat' first
      | with_reducible assumption
      | with_reducible apply Keeps.refl
      | with_reducible apply Keeps.ite
      | (apply Keeps.step; with_reducible apply State.takeName_keeps)
      | (apply Keeps.step; with_reducible apply State.moveNames_keeps)
      | (apply Keeps.step; with_reducible apply State.setBit_keeps)
      | (apply Keeps.step; with_reducible apply State.setFld_keeps)
      | (apply Keeps.step; with_reducible apply State.pwrDrop_keeps)
      | (apply Keeps.step; with_reducible apply State.flushAll_keeps)
      | (apply Keeps.step; with_reducible apply State.sticky_keeps)
      | (apply Keeps.step; with_reducible apply State.haltCmd_keeps)
      | (apply Keeps.step; with_reducible apply State.inc_keeps)
      | (apply Keeps.step; with_reducible apply State.fastCount_keeps)
      | (with_reducible apply Keeps.forEach; intro _ _ _)
      | (with_reducible apply Keeps.foldl_fst; intro _ _ _)
      | (with_reducible apply Keeps.foldl_snd; intro _ _ _)
      | (with_reducible apply Keeps.foldl; intro _ _ _)
      | decide +kernel
      | exact sub_flt _ (by decide +kernel)
      | exact sub_eng _ (by decide +kernel)
      | exact sub_hk _ (by decide +kernel)
      | exact sub_port _ _ (by decide +kernel)
      | exact sub_win _ (by decide +kernel)
      | exact sub_any _ (by decide +kernel)
      | split
  try clear_value a6
  have ha7 : Keeps (foot [.reg GLB_STATE, .reg GLB_DETERMINISM, .reg TIM_STATUS, .reg TIM_FIXED_LATENCY, .reg TIM_LAUNCH_STATUS, .reg TIM_FASTCMD_COUNT, .reg TIM_FASTCMD_LAST, .reg LNK_SCHED_SEL, .reg LNK_SLOWCTL_STATUS, .reg PWR_STATE, .reg PAL_STATUS, .hostQ, .fieldQ, .gap, .tm, .bar, .faults, .cou, .bru, .pwr, .str, .lnk, .mgt]) s a7 := by
    unfold a7
    repeat' first
      | with_reducible assumption
      | with_reducible apply Keeps.refl
      | with_reducible apply Keeps.ite
      | (apply Keeps.step; with_reducible apply State.takeName_keeps)
      | (apply Keeps.step; with_reducible apply State.moveNames_keeps)
      | (apply Keeps.step; with_reducible apply State.setBit_keeps)
      | (apply Keeps.step; with_reducible apply State.setFld_keeps)
      | (apply Keeps.step; with_reducible apply State.pwrDrop_keeps)
      | (apply Keeps.step; with_reducible apply State.flushAll_keeps)
      | (apply Keeps.step; with_reducible apply State.sticky_keeps)
      | (apply Keeps.step; with_reducible apply State.haltCmd_keeps)
      | (apply Keeps.step; with_reducible apply State.inc_keeps)
      | (apply Keeps.step; with_reducible apply State.fastCount_keeps)
      | (with_reducible apply Keeps.forEach; intro _ _ _)
      | (with_reducible apply Keeps.foldl_fst; intro _ _ _)
      | (with_reducible apply Keeps.foldl_snd; intro _ _ _)
      | (with_reducible apply Keeps.foldl; intro _ _ _)
      | decide +kernel
      | exact sub_flt _ (by decide +kernel)
      | exact sub_eng _ (by decide +kernel)
      | exact sub_hk _ (by decide +kernel)
      | exact sub_port _ _ (by decide +kernel)
      | exact sub_win _ (by decide +kernel)
      | exact sub_any _ (by decide +kernel)
      | split
  try clear_value a7
  repeat' first
    | with_reducible assumption
    | with_reducible apply Keeps.refl
    | with_reducible apply Keeps.ite
    | (apply Keeps.step; with_reducible apply State.takeName_keeps)
    | (apply Keeps.step; with_reducible apply State.moveNames_keeps)
    | (apply Keeps.step; with_reducible apply State.setBit_keeps)
    | (apply Keeps.step; with_reducible apply State.setFld_keeps)
    | (apply Keeps.step; with_reducible apply State.pwrDrop_keeps)
    | (apply Keeps.step; with_reducible apply State.flushAll_keeps)
    | (apply Keeps.step; with_reducible apply State.sticky_keeps)
    | (apply Keeps.step; with_reducible apply State.haltCmd_keeps)
    | (apply Keeps.step; with_reducible apply State.inc_keeps)
    | (apply Keeps.step; with_reducible apply State.fastCount_keeps)
    | (with_reducible apply Keeps.forEach; intro _ _ _)
    | (with_reducible apply Keeps.foldl_fst; intro _ _ _)
    | (with_reducible apply Keeps.foldl_snd; intro _ _ _)
    | (with_reducible apply Keeps.foldl; intro _ _ _)
    | decide +kernel
    | exact sub_flt _ (by decide +kernel)
    | exact sub_eng _ (by decide +kernel)
    | exact sub_hk _ (by decide +kernel)
    | exact sub_port _ _ (by decide +kernel)
    | exact sub_win _ (by decide +kernel)
    | exact sub_any _ (by decide +kernel)
    | split

theorem State.windowOpens_keeps (s : State) :
    Keeps (foot [.reg GLB_DETERMINISM, .reg TIM_GAP_COUNT, .reg LNK_DEADLETTER_COUNT, .reg (ENG_STATUS 0x600), .reg (HKx_CTRL 0x1700), .reg (HKx_STATUS 0x1700), .reg (HKx_OVERRUN_COUNT 0x1700), .reg (HKx_CTRL 0x1800), .reg (HKx_STATUS 0x1800), .reg (HKx_OVERRUN_COUNT 0x1800), .reg HKS_EXC_STATUS, .reg CAL_TRACE_STATUS, .reg (ENG_STATUS 0x1B00), .flt, .win .lnk, .recTick, .gap, .bar, .faults, .cou, .bru, .lnk, .hka, .hkb] ||| foot [.cal, .free, .srcs]) s (State.windowOpens s) := by
  unfold State.windowOpens
  repeat' first
    | with_reducible assumption
    | with_reducible apply Keeps.refl
    | with_reducible apply Keeps.ite
    | (apply Keeps.step; with_reducible apply State.calOpen_keeps)
    | (apply Keeps.step; with_reducible apply State.gapOpens_keeps)
    | (with_reducible apply Keeps.forEach; intro _ _ _)
    | (with_reducible apply Keeps.foldl_fst; intro _ _ _)
    | (with_reducible apply Keeps.foldl_snd; intro _ _ _)
    | (with_reducible apply Keeps.foldl; intro _ _ _)
    | decide +kernel
    | exact sub_flt _ (by decide +kernel)
    | exact sub_eng _ (by decide +kernel)
    | exact sub_hk _ (by decide +kernel)
    | exact sub_port _ _ (by decide +kernel)
    | exact sub_win _ (by decide +kernel)
    | exact sub_any _ (by decide +kernel)
    | split

theorem State.renameField_keeps (s : State) (new : PM) :
    Keeps (foot [.reg GLB_DETERMINISM, .reg LNK_DEADLETTER_COUNT, .reg (ENG_STATUS 0x600), .reg EVT_LOST, .reg EVT_STATUS, .reg (HKx_CTRL 0x1700), .reg (HKx_STATUS 0x1700), .reg (HKx_OVERRUN_COUNT 0x1700), .reg (HKx_CAL_STATUS 0x1700), .reg (HKx_CTRL 0x1800), .reg (HKx_STATUS 0x1800), .reg (HKx_OVERRUN_COUNT 0x1800), .reg (HKx_CAL_STATUS 0x1800), .reg HKS_EXC_STATUS, .reg (ENG_STATUS 0x1B00), .flt, .win .lnk, .recTick, .tm, .bar, .faults, .cou, .bru, .col] ||| foot [.nul, .var, .evt, .lnk, .hka, .hkb, .free, .srcs]) s (State.renameField s new) := by
  unfold State.renameField
  extract_lets a1 a2
  try clear_value a1
  have ha2 : Keeps (foot [.reg GLB_DETERMINISM, .reg LNK_DEADLETTER_COUNT, .reg (ENG_STATUS 0x600), .reg EVT_LOST, .reg EVT_STATUS, .reg (HKx_CTRL 0x1700), .reg (HKx_STATUS 0x1700), .reg (HKx_OVERRUN_COUNT 0x1700), .reg (HKx_CAL_STATUS 0x1700), .reg (HKx_CTRL 0x1800), .reg (HKx_STATUS 0x1800), .reg (HKx_OVERRUN_COUNT 0x1800), .reg (HKx_CAL_STATUS 0x1800), .reg HKS_EXC_STATUS, .reg (ENG_STATUS 0x1B00), .flt, .win .lnk, .recTick, .tm, .bar, .faults, .cou, .bru, .col] ||| foot [.nul, .var, .evt, .lnk, .hka, .hkb, .free, .srcs]) s a2 := by
    unfold a2
    repeat' first
      | with_reducible assumption
      | with_reducible apply Keeps.refl
      | with_reducible apply Keeps.ite
      | (apply Keeps.step; with_reducible apply State.hkRestartAt_keeps)
      | (apply Keeps.step; with_reducible apply State.evtRename_keeps)
      | (apply Keeps.step; with_reducible apply State.varRename_keeps)
      | (apply Keeps.step; with_reducible apply State.nulRename_keeps)
      | (with_reducible apply Keeps.forEach; intro _ _ _)
      | (with_reducible apply Keeps.foldl_fst; intro _ _ _)
      | (with_reducible apply Keeps.foldl_snd; intro _ _ _)
      | (with_reducible apply Keeps.foldl; intro _ _ _)
      | decide +kernel
      | exact sub_flt _ (by decide +kernel)
      | exact sub_eng _ (by decide +kernel)
      | exact sub_hk _ (by decide +kernel)
      | exact sub_port _ _ (by decide +kernel)
      | exact sub_win _ (by decide +kernel)
      | exact sub_any _ (by decide +kernel)
      | split
      | refine Keeps.upd ?_
  try clear_value a2
  repeat' first
    | with_reducible assumption
    | with_reducible apply Keeps.refl
    | with_reducible apply Keeps.ite
    | (apply Keeps.step; with_reducible apply State.hkRestartAt_keeps)
    | (apply Keeps.step; with_reducible apply State.evtRename_keeps)
    | (apply Keeps.step; with_reducible apply State.varRename_keeps)
    | (apply Keeps.step; with_reducible apply State.nulRename_keeps)
    | (with_reducible apply Keeps.forEach; intro _ _ _)
    | (with_reducible apply Keeps.foldl_fst; intro _ _ _)
    | (with_reducible apply Keeps.foldl_snd; intro _ _ _)
    | (with_reducible apply Keeps.foldl; intro _ _ _)
    | decide +kernel
    | exact sub_flt _ (by decide +kernel)
    | exact sub_eng _ (by decide +kernel)
    | exact sub_hk _ (by decide +kernel)
    | exact sub_port _ _ (by decide +kernel)
    | exact sub_win _ (by decide +kernel)
    | exact sub_any _ (by decide +kernel)
    | split
    | refine Keeps.upd ?_

theorem State.lockLost_keeps (s : State) :
    Keeps (foot [.reg GLB_DETERMINISM, .reg TIM_GAP_STATUS, .reg TIM_GAP_COUNT, .reg LNK_DEADLETTER_COUNT, .reg (ENG_STATUS 0x600), .reg CAL_STATUS, .reg CAL_DEFER_COUNT, .reg (ENG_STATUS 0x1B00), .flt, .win .lnk, .win .nul, .win .cal, .recTick, .gap, .tm, .bar, .pin, .faults, .cou, .bru, .col, .nul, .lnk, .cal] ||| foot [.free, .srcs]) s (State.lockLost s) := by
  unfold State.lockLost
  extract_lets a1 a2 a3 a4 a5 a6 a7
  try clear_value a1
  have ha2 : Keeps (foot [.reg GLB_DETERMINISM, .reg TIM_GAP_STATUS, .reg TIM_GAP_COUNT, .reg LNK_DEADLETTER_COUNT, .reg (ENG_STATUS 0x600), .reg CAL_STATUS, .reg CAL_DEFER_COUNT, .reg (ENG_STATUS 0x1B00), .flt, .win .lnk, .win .nul, .win .cal, .recTick, .gap, .tm, .bar, .pin, .faults, .cou, .bru, .col, .nul, .lnk, .cal] ||| foot [.free, .srcs]) s a2 := by
    unfold a2
    repeat' first
      | with_reducible assumption
      | with_reducible apply Keeps.refl
      | with_reducible apply Keeps.ite
      | (apply Keeps.step; with_reducible apply State.gapCloses_keeps)
      | (apply Keeps.step; with_reducible apply State.inc_keeps)
      | (apply Keeps.step; with_reducible apply State.sticky_keeps)
      | (apply Keeps.step; with_reducible apply State.calDiscard_keeps)
      | (apply Keeps.step; with_reducible apply State.calCut_keeps)
      | (with_reducible apply Keeps.forEach; intro _ _ _)
      | (with_reducible apply Keeps.foldl_fst; intro _ _ _)
      | (with_reducible apply Keeps.foldl_snd; intro _ _ _)
      | (with_reducible apply Keeps.foldl; intro _ _ _)
      | decide +kernel
      | exact sub_flt _ (by decide +kernel)
      | exact sub_eng _ (by decide +kernel)
      | exact sub_hk _ (by decide +kernel)
      | exact sub_port _ _ (by decide +kernel)
      | exact sub_win _ (by decide +kernel)
      | exact sub_any _ (by decide +kernel)
      | split
      | refine Keeps.upd ?_
  try clear_value a2
  have ha3 : Keeps (foot [.reg GLB_DETERMINISM, .reg TIM_GAP_STATUS, .reg TIM_GAP_COUNT, .reg LNK_DEADLETTER_COUNT, .reg (ENG_STATUS 0x600), .reg CAL_STATUS, .reg CAL_DEFER_COUNT, .reg (ENG_STATUS 0x1B00), .flt, .win .lnk, .win .nul, .win .cal, .recTick, .gap, .tm, .bar, .pin, .faults, .cou, .bru, .col, .nul, .lnk, .cal] ||| foot [.free, .srcs]) s a3 := by
    unfold a3
    repeat' first
      | with_reducible assumption
      | with_reducible apply Keeps.refl
      | with_reducible apply Keeps.ite
      | (apply Keeps.step; with_reducible apply State.gapCloses_keeps)
      | (apply Keeps.step; with_reducible apply State.inc_keeps)
      | (apply Keeps.step; with_reducible apply State.sticky_keeps)
      | (apply Keeps.step; with_reducible apply State.calDiscard_keeps)
      | (apply Keeps.step; with_reducible apply State.calCut_keeps)
      | (with_reducible apply Keeps.forEach; intro _ _ _)
      | (with_reducible apply Keeps.foldl_fst; intro _ _ _)
      | (with_reducible apply Keeps.foldl_snd; intro _ _ _)
      | (with_reducible apply Keeps.foldl; intro _ _ _)
      | decide +kernel
      | exact sub_flt _ (by decide +kernel)
      | exact sub_eng _ (by decide +kernel)
      | exact sub_hk _ (by decide +kernel)
      | exact sub_port _ _ (by decide +kernel)
      | exact sub_win _ (by decide +kernel)
      | exact sub_any _ (by decide +kernel)
      | split
      | refine Keeps.upd ?_
  try clear_value a3
  try clear_value a4
  try clear_value a5
  try clear_value a6
  try clear_value a7
  repeat' first
    | with_reducible assumption
    | with_reducible apply Keeps.refl
    | with_reducible apply Keeps.ite
    | (apply Keeps.step; with_reducible apply State.gapCloses_keeps)
    | (apply Keeps.step; with_reducible apply State.inc_keeps)
    | (apply Keeps.step; with_reducible apply State.sticky_keeps)
    | (apply Keeps.step; with_reducible apply State.calDiscard_keeps)
    | (apply Keeps.step; with_reducible apply State.calCut_keeps)
    | (with_reducible apply Keeps.forEach; intro _ _ _)
    | (with_reducible apply Keeps.foldl_fst; intro _ _ _)
    | (with_reducible apply Keeps.foldl_snd; intro _ _ _)
    | (with_reducible apply Keeps.foldl; intro _ _ _)
    | decide +kernel
    | exact sub_flt _ (by decide +kernel)
    | exact sub_eng _ (by decide +kernel)
    | exact sub_hk _ (by decide +kernel)
    | exact sub_port _ _ (by decide +kernel)
    | exact sub_win _ (by decide +kernel)
    | exact sub_any _ (by decide +kernel)
    | split
    | refine Keeps.upd ?_

theorem State.windowCloses_keeps (s : State) :
    Keeps (foot [.reg GLB_DETERMINISM, .reg TIM_GAP_STATUS, .reg TIM_GAP_COUNT, .reg LNK_DEADLETTER_COUNT, .reg CFG_STORE_STATUS, .reg (ENG_STATUS 0x600), .reg NUL_PRIMER_CTRL, .reg CAL_STATUS, .reg CAL_DEFER_COUNT, .reg CAL_LAST_POSTMARK_LO, .reg CAL_LAST_POSTMARK_HI, .reg (ENG_STATUS 0x1B00), .flt, .win .lnk, .win .col, .win .nul, .win .cal, .recTick, .gap, .bar, .faults, .cou, .bru, .nul] ||| foot [.lnk, .cal, .cfg, .free, .srcs]) s (State.windowCloses s) := by
  unfold State.windowCloses
  extract_lets a1
  try clear_value a1
  repeat' first
    | with_reducible assumption
    | with_reducible apply Keeps.refl
    | with_reducible apply Keeps.ite
    | (apply Keeps.step; with_reducible apply State.calApply_keeps)
    | (apply Keeps.step; with_reducible apply State.gapCloses_keeps)
    | (apply Keeps.step; with_reducible apply State.storeRequest_keeps)
    | (with_reducible apply Keeps.forEach; intro _ _ _)
    | (with_reducible apply Keeps.foldl_fst; intro _ _ _)
    | (with_reducible apply Keeps.foldl_snd; intro _ _ _)
    | (with_reducible apply Keeps.foldl; intro _ _ _)
    | decide +kernel
    | exact sub_flt _ (by decide +kernel)
    | exact sub_eng _ (by decide +kernel)
    | exact sub_hk _ (by decide +kernel)
    | exact sub_port _ _ (by decide +kernel)
    | exact sub_win _ (by decide +kernel)
    | exact sub_any _ (by decide +kernel)
    | split

theorem Keeps.setAutoRun {M : Nat} {s t : State} (a : Bool) (n : NulSt) (hm : M.testBit 0x205C = true)
    (hn : M.testBit 0x2052 = true) (h : Keeps M s t) : Keeps M s { t with cfg := { t.cfg with autoRun := a }, nul := n } :=
  Keeps.upd h rfl (f92 := .inl hm) (f82 := .inl hn)

theorem State.relock_keeps (s : State) (p : Nat) :
    Keeps (foot [.reg GLB_STATE, .reg GLB_DETERMINISM, .reg TIM_STATUS, .reg TIM_TICK_PERIOD, .reg TIM_LAUNCH_STATUS, .reg BAR_STATUS, .reg BAR_LANE_MAP, .reg BAR_TRAIN, .reg LNK_DOWN_STATUS, .reg LNK_SCHED_SEL, .reg MGT_STATUS, .reg PWR_STATE, .reg PAL_STATUS, .reg (HKx_CTRL 0x1700), .reg (HKx_STATUS 0x1700), .reg (HKx_OVERRUN_COUNT 0x1700), .reg (HKx_CAL_STATUS 0x1700), .reg (HKx_CTRL 0x1800), .reg (HKx_STATUS 0x1800), .reg (HKx_OVERRUN_COUNT 0x1800), .reg (HKx_CAL_STATUS 0x1800), .reg HKS_EXC_STATUS, .reg FBA_STATUS, .reg FBA_LANE_STATUS] ||| foot [.regs 0x0308 4, .hostQ, .fieldQ, .tm, .bar, .cou, .bru, .pwr, .nul, .hka, .hkb, .mgt, .cfg]) s (State.relock s p) := by
  unfold State.relock
  extract_lets s1 s2 src1 src2 s3
  have h1 : Keeps (foot [.reg GLB_STATE, .reg GLB_DETERMINISM, .reg TIM_STATUS, .reg TIM_TICK_PERIOD, .reg TIM_LAUNCH_STATUS, .reg BAR_STATUS, .reg BAR_LANE_MAP, .reg BAR_TRAIN, .reg LNK_DOWN_STATUS, .reg LNK_SCHED_SEL, .reg MGT_STATUS, .reg PWR_STATE, .reg PAL_STATUS, .reg (HKx_CTRL 0x1700), .reg (HKx_STATUS 0x1700), .reg (HKx_OVERRUN_COUNT 0x1700), .reg (HKx_CAL_STATUS 0x1700), .reg (HKx_CTRL 0x1800), .reg (HKx_STATUS 0x1800), .reg (HKx_OVERRUN_COUNT 0x1800), .reg (HKx_CAL_STATUS 0x1800), .reg HKS_EXC_STATUS, .reg FBA_STATUS, .reg FBA_LANE_STATUS] ||| foot [.regs 0x0308 4, .hostQ, .fieldQ, .tm, .bar, .cou, .bru, .pwr, .nul, .hka, .hkb, .mgt, .cfg]) s s1 := (State.pwrDrop_keeps _).step (by decide +kernel)
    ((State.flushAll_keeps _).step (by decide +kernel) ((State.clockOn_keeps _ _).mono (by decide +kernel)))
  have h2 : Keeps (foot [.reg GLB_STATE, .reg GLB_DETERMINISM, .reg TIM_STATUS, .reg TIM_TICK_PERIOD, .reg TIM_LAUNCH_STATUS, .reg BAR_STATUS, .reg BAR_LANE_MAP, .reg BAR_TRAIN, .reg LNK_DOWN_STATUS, .reg LNK_SCHED_SEL, .reg MGT_STATUS, .reg PWR_STATE, .reg PAL_STATUS, .reg (HKx_CTRL 0x1700), .reg (HKx_STATUS 0x1700), .reg (HKx_OVERRUN_COUNT 0x1700), .reg (HKx_CAL_STATUS 0x1700), .reg (HKx_CTRL 0x1800), .reg (HKx_STATUS 0x1800), .reg (HKx_OVERRUN_COUNT 0x1800), .reg (HKx_CAL_STATUS 0x1800), .reg HKS_EXC_STATUS, .reg FBA_STATUS, .reg FBA_LANE_STATUS] ||| foot [.regs 0x0308 4, .hostQ, .fieldQ, .tm, .bar, .cou, .bru, .pwr, .nul, .hka, .hkb, .mgt, .cfg]) s s2 := Keeps.ite h1 ((State.setGlb_keeps _ _).step (by decide +kernel) h1)
  try clear_value s2
  have h3 : Keeps (foot [.reg GLB_STATE, .reg GLB_DETERMINISM, .reg TIM_STATUS, .reg TIM_TICK_PERIOD, .reg TIM_LAUNCH_STATUS, .reg BAR_STATUS, .reg BAR_LANE_MAP, .reg BAR_TRAIN, .reg LNK_DOWN_STATUS, .reg LNK_SCHED_SEL, .reg MGT_STATUS, .reg PWR_STATE, .reg PAL_STATUS, .reg (HKx_CTRL 0x1700), .reg (HKx_STATUS 0x1700), .reg (HKx_OVERRUN_COUNT 0x1700), .reg (HKx_CAL_STATUS 0x1700), .reg (HKx_CTRL 0x1800), .reg (HKx_STATUS 0x1800), .reg (HKx_OVERRUN_COUNT 0x1800), .reg (HKx_CAL_STATUS 0x1800), .reg HKS_EXC_STATUS, .reg FBA_STATUS, .reg FBA_LANE_STATUS] ||| foot [.regs 0x0308 4, .hostQ, .fieldQ, .tm, .bar, .cou, .bru, .pwr, .nul, .hka, .hkb, .mgt, .cfg]) s s3 := Keeps.setAutoRun _ _ (by decide +kernel) (by decide +kernel) h2
  exact (State.trainBegin_keeps _ _).step (by decide +kernel) ((State.hkRestartAt_keeps _ _ _).step (by decide +kernel)
    ((State.hkRestartAt_keeps _ _ _).step (by decide +kernel) h3))

theorem State.seesLink_keeps (s : State) :
    Keeps (foot [.reg GLB_STATE, .reg LNK_DOWN_STATUS]) s (State.seesLink s) := by
  unfold State.seesLink
  repeat' first
    | with_reducible assumption
    | with_reducible apply Keeps.refl
    | with_reducible apply Keeps.ite
    | (apply Keeps.step; with_reducible apply State.setBit_keeps)
    | (apply Keeps.step; with_reducible apply State.setFld_keeps)
    | (with_reducible apply Keeps.forEach; intro _ _ _)
    | (with_reducible apply Keeps.foldl_fst; intro _ _ _)
    | (with_reducible apply Keeps.foldl_snd; intro _ _ _)
    | (with_reducible apply Keeps.foldl; intro _ _ _)
    | decide +kernel
    | exact sub_flt _ (by decide +kernel)
    | exact sub_eng _ (by decide +kernel)
    | exact sub_hk _ (by decide +kernel)
    | exact sub_port _ _ (by decide +kernel)
    | exact sub_win _ (by decide +kernel)
    | exact sub_any _ (by decide +kernel)
    | split

theorem State.clockBack_keeps (s : State) (p : Nat) :
    Keeps (foot [.reg GLB_STATE, .reg GLB_DETERMINISM, .reg TIM_STATUS, .reg TIM_TICK_PERIOD, .reg TIM_LAUNCH_STATUS, .reg BAR_STATUS, .reg BAR_LANE_MAP, .reg BAR_TRAIN, .reg LNK_DOWN_STATUS, .reg LNK_SCHED_SEL, .reg LNK_DEADLETTER_COUNT, .reg MGT_STATUS, .reg (ENG_STATUS 0x600), .reg PWR_STATE, .reg PAL_STATUS, .reg (HKx_CTRL 0x1700), .reg (HKx_STATUS 0x1700), .reg (HKx_OVERRUN_COUNT 0x1700), .reg (HKx_CAL_STATUS 0x1700), .reg (HKx_CTRL 0x1800), .reg (HKx_STATUS 0x1800), .reg (HKx_OVERRUN_COUNT 0x1800), .reg (HKx_CAL_STATUS 0x1800), .reg HKS_EXC_STATUS] ||| foot [.reg (ENG_STATUS 0x1B00), .reg FBA_STATUS, .reg FBA_LANE_STATUS, .regs 0x0308 4, .flt, .win .lnk, .recTick, .hostQ, .fieldQ, .tm, .bar, .faults, .cou, .bru, .pwr, .nul, .lnk, .hka, .hkb, .mgt, .cfg, .free, .srcs]) s (State.clockBack s p) := by
  unfold State.clockBack
  extract_lets a1 a2
  have ha1 : Keeps (foot [.reg GLB_STATE, .reg GLB_DETERMINISM, .reg TIM_STATUS, .reg TIM_TICK_PERIOD, .reg TIM_LAUNCH_STATUS, .reg BAR_STATUS, .reg BAR_LANE_MAP, .reg BAR_TRAIN, .reg LNK_DOWN_STATUS, .reg LNK_SCHED_SEL, .reg LNK_DEADLETTER_COUNT, .reg MGT_STATUS, .reg (ENG_STATUS 0x600), .reg PWR_STATE, .reg PAL_STATUS, .reg (HKx_CTRL 0x1700), .reg (HKx_STATUS 0x1700), .reg (HKx_OVERRUN_COUNT 0x1700), .reg (HKx_CAL_STATUS 0x1700), .reg (HKx_CTRL 0x1800), .reg (HKx_STATUS 0x1800), .reg (HKx_OVERRUN_COUNT 0x1800), .reg (HKx_CAL_STATUS 0x1800), .reg HKS_EXC_STATUS] ||| foot [.reg (ENG_STATUS 0x1B00), .reg FBA_STATUS, .reg FBA_LANE_STATUS, .regs 0x0308 4, .flt, .win .lnk, .recTick, .hostQ, .fieldQ, .tm, .bar, .faults, .cou, .bru, .pwr, .nul, .lnk, .hka, .hkb, .mgt, .cfg, .free, .srcs]) s a1 := by
    unfold a1
    repeat' first
      | with_reducible assumption
      | with_reducible apply Keeps.refl
      | with_reducible apply Keeps.ite
      | (apply Keeps.step; with_reducible apply State.inc_keeps)
      | (apply Keeps.step; with_reducible apply State.relock_keeps)
      | (apply Keeps.step; with_reducible apply State.startUp_keeps)
      | (apply Keeps.step; with_reducible apply State.raise_keeps)
      | (with_reducible apply Keeps.forEach; intro _ _ _)
      | (with_reducible apply Keeps.foldl_fst; intro _ _ _)
      | (with_reducible apply Keeps.foldl_snd; intro _ _ _)
      | (with_reducible apply Keeps.foldl; intro _ _ _)
      | decide +kernel
      | exact sub_flt _ (by decide +kernel)
      | exact sub_eng _ (by decide +kernel)
      | exact sub_hk _ (by decide +kernel)
      | exact sub_port _ _ (by decide +kernel)
      | exact sub_win _ (by decide +kernel)
      | exact sub_any _ (by decide +kernel)
      | split
  try clear_value a1
  have ha2 : Keeps (foot [.reg GLB_STATE, .reg GLB_DETERMINISM, .reg TIM_STATUS, .reg TIM_TICK_PERIOD, .reg TIM_LAUNCH_STATUS, .reg BAR_STATUS, .reg BAR_LANE_MAP, .reg BAR_TRAIN, .reg LNK_DOWN_STATUS, .reg LNK_SCHED_SEL, .reg LNK_DEADLETTER_COUNT, .reg MGT_STATUS, .reg (ENG_STATUS 0x600), .reg PWR_STATE, .reg PAL_STATUS, .reg (HKx_CTRL 0x1700), .reg (HKx_STATUS 0x1700), .reg (HKx_OVERRUN_COUNT 0x1700), .reg (HKx_CAL_STATUS 0x1700), .reg (HKx_CTRL 0x1800), .reg (HKx_STATUS 0x1800), .reg (HKx_OVERRUN_COUNT 0x1800), .reg (HKx_CAL_STATUS 0x1800), .reg HKS_EXC_STATUS] ||| foot [.reg (ENG_STATUS 0x1B00), .reg FBA_STATUS, .reg FBA_LANE_STATUS, .regs 0x0308 4, .flt, .win .lnk, .recTick, .hostQ, .fieldQ, .tm, .bar, .faults, .cou, .bru, .pwr, .nul, .lnk, .hka, .hkb, .mgt, .cfg, .free, .srcs]) s a2 := by
    unfold a2
    repeat' first
      | with_reducible assumption
      | with_reducible apply Keeps.refl
      | with_reducible apply Keeps.ite
      | (apply Keeps.step; with_reducible apply State.inc_keeps)
      | (apply Keeps.step; with_reducible apply State.relock_keeps)
      | (apply Keeps.step; with_reducible apply State.startUp_keeps)
      | (apply Keeps.step; with_reducible apply State.raise_keeps)
      | (with_reducible apply Keeps.forEach; intro _ _ _)
      | (with_reducible apply Keeps.foldl_fst; intro _ _ _)
      | (with_reducible apply Keeps.foldl_snd; intro _ _ _)
      | (with_reducible apply Keeps.foldl; intro _ _ _)
      | decide +kernel
      | exact sub_flt _ (by decide +kernel)
      | exact sub_eng _ (by decide +kernel)
      | exact sub_hk _ (by decide +kernel)
      | exact sub_port _ _ (by decide +kernel)
      | exact sub_win _ (by decide +kernel)
      | exact sub_any _ (by decide +kernel)
      | split
  try clear_value a2
  repeat' first
    | with_reducible assumption
    | with_reducible apply Keeps.refl
    | with_reducible apply Keeps.ite
    | (apply Keeps.step; with_reducible apply State.inc_keeps)
    | (apply Keeps.step; with_reducible apply State.relock_keeps)
    | (apply Keeps.step; with_reducible apply State.startUp_keeps)
    | (apply Keeps.step; with_reducible apply State.raise_keeps)
    | (with_reducible apply Keeps.forEach; intro _ _ _)
    | (with_reducible apply Keeps.foldl_fst; intro _ _ _)
    | (with_reducible apply Keeps.foldl_snd; intro _ _ _)
    | (with_reducible apply Keeps.foldl; intro _ _ _)
    | decide +kernel
    | exact sub_flt _ (by decide +kernel)
    | exact sub_eng _ (by decide +kernel)
    | exact sub_hk _ (by decide +kernel)
    | exact sub_port _ _ (by decide +kernel)
    | exact sub_win _ (by decide +kernel)
    | exact sub_any _ (by decide +kernel)
    | split

theorem State.gapForced_keeps (s : State) :
    Keeps (foot [.reg GLB_DETERMINISM, .reg TIM_GAP_STATUS, .reg TIM_GAP_COUNT, .reg LNK_DEADLETTER_COUNT, .reg (ENG_STATUS 0x600), .reg CAL_STATUS, .reg CAL_DEFER_COUNT, .reg (ENG_STATUS 0x1B00), .flt, .win .lnk, .win .nul, .win .cal, .recTick, .gap, .bar, .faults, .cou, .bru, .col, .nul, .lnk, .cal, .free, .srcs]) s (State.gapForced s) := by
  unfold State.gapForced
  extract_lets a1
  have ha1 : Keeps (foot [.reg GLB_DETERMINISM, .reg TIM_GAP_STATUS, .reg TIM_GAP_COUNT, .reg LNK_DEADLETTER_COUNT, .reg (ENG_STATUS 0x600), .reg CAL_STATUS, .reg CAL_DEFER_COUNT, .reg (ENG_STATUS 0x1B00), .flt, .win .lnk, .win .nul, .win .cal, .recTick, .gap, .bar, .faults, .cou, .bru, .col, .nul, .lnk, .cal, .free, .srcs]) s a1 := by
    unfold a1
    repeat' first
      | with_reducible assumption
      | with_reducible apply Keeps.refl
      | with_reducible apply Keeps.ite
      | (apply Keeps.step; with_reducible apply State.raise_keeps)
      | (apply Keeps.step; with_reducible apply State.setBit_keeps)
      | (apply Keeps.step; with_reducible apply State.calClose_keeps)
      | (apply Keeps.step; with_reducible apply State.gapClose_keeps)
      | (with_reducible apply Keeps.forEach; intro _ _ _)
      | (with_reducible apply Keeps.foldl_fst; intro _ _ _)
      | (with_reducible apply Keeps.foldl_snd; intro _ _ _)
      | (with_reducible apply Keeps.foldl; intro _ _ _)
      | decide +kernel
      | exact sub_flt _ (by decide +kernel)
      | exact sub_eng _ (by decide +kernel)
      | exact sub_hk _ (by decide +kernel)
      | exact sub_port _ _ (by decide +kernel)
      | exact sub_win _ (by decide +kernel)
      | exact sub_any _ (by decide +kernel)
      | split
  try clear_value a1
  repeat' first
    | with_reducible assumption
    | with_reducible apply Keeps.refl
    | with_reducible apply Keeps.ite
    | (apply Keeps.step; with_reducible apply State.raise_keeps)
    | (apply Keeps.step; with_reducible apply State.setBit_keeps)
    | (apply Keeps.step; with_reducible apply State.calClose_keeps)
    | (apply Keeps.step; with_reducible apply State.gapClose_keeps)
    | (with_reducible apply Keeps.forEach; intro _ _ _)
    | (with_reducible apply Keeps.foldl_fst; intro _ _ _)
    | (with_reducible apply Keeps.foldl_snd; intro _ _ _)
    | (with_reducible apply Keeps.foldl; intro _ _ _)
    | decide +kernel
    | exact sub_flt _ (by decide +kernel)
    | exact sub_eng _ (by decide +kernel)
    | exact sub_hk _ (by decide +kernel)
    | exact sub_port _ _ (by decide +kernel)
    | exact sub_win _ (by decide +kernel)
    | exact sub_any _ (by decide +kernel)
    | split

theorem State.windowTick_keeps (s : State) :
    Keeps (foot [.reg GLB_DETERMINISM, .reg TIM_GAP_STATUS, .reg TIM_GAP_COUNT, .reg LNK_DEADLETTER_COUNT, .reg CFG_STORE_STATUS, .reg (ENG_STATUS 0x600), .reg NUL_PRIMER_CTRL, .reg (HKx_CTRL 0x1700), .reg (HKx_STATUS 0x1700), .reg (HKx_OVERRUN_COUNT 0x1700), .reg (HKx_CTRL 0x1800), .reg (HKx_STATUS 0x1800), .reg (HKx_OVERRUN_COUNT 0x1800), .reg HKS_EXC_STATUS, .reg CAL_STATUS, .reg CAL_DEFER_COUNT, .reg CAL_LAST_POSTMARK_LO, .reg CAL_LAST_POSTMARK_HI, .reg CAL_TRACE_STATUS, .reg (ENG_STATUS 0x1B00), .flt, .win .lnk, .win .col, .win .nul] ||| foot [.win .cal, .recTick, .gap, .bar, .faults, .cou, .bru, .col, .nul, .lnk, .hka, .hkb, .cal, .cfg, .free, .srcs]) s (State.windowTick s) := by
  unfold State.windowTick
  extract_lets a1 a2 a3 a4 a5
  have ha1 : Keeps (foot [.reg GLB_DETERMINISM, .reg TIM_GAP_STATUS, .reg TIM_GAP_COUNT, .reg LNK_DEADLETTER_COUNT, .reg CFG_STORE_STATUS, .reg (ENG_STATUS 0x600), .reg NUL_PRIMER_CTRL, .reg (HKx_CTRL 0x1700), .reg (HKx_STATUS 0x1700), .reg (HKx_OVERRUN_COUNT 0x1700), .reg (HKx_CTRL 0x1800), .reg (HKx_STATUS 0x1800), .reg (HKx_OVERRUN_COUNT 0x1800), .reg HKS_EXC_STATUS, .reg CAL_STATUS, .reg CAL_DEFER_COUNT, .reg CAL_LAST_POSTMARK_LO, .reg CAL_LAST_POSTMARK_HI, .reg CAL_TRACE_STATUS, .reg (ENG_STATUS 0x1B00), .flt, .win .lnk, .win .col, .win .nul] ||| foot [.win .cal, .recTick, .gap, .bar, .faults, .cou, .bru, .col, .nul, .lnk, .hka, .hkb, .cal, .cfg, .free, .srcs]) s a1 := by
    unfold a1
    repeat' first
      | with_reducible assumption
      | with_reducible apply Keeps.refl
      | with_reducible apply Keeps.ite
      | (apply Keeps.step; with_reducible apply State.cause_keeps)
      | (apply Keeps.step; with_reducible apply State.calClose_keeps)
      | (apply Keeps.step; with_reducible apply State.gapForced_keeps)
      | (apply Keeps.step; with_reducible apply State.windowOpens_keeps)
      | (apply Keeps.step; with_reducible apply State.windowCloses_keeps)
      | (with_reducible apply Keeps.forEach; intro _ _ _)
      | (with_reducible apply Keeps.foldl_fst; intro _ _ _)
      | (with_reducible apply Keeps.foldl_snd; intro _ _ _)
      | (with_reducible apply Keeps.foldl; intro _ _ _)
      | decide +kernel
      | exact sub_flt _ (by decide +kernel)
      | exact sub_eng _ (by decide +kernel)
      | exact sub_hk _ (by decide +kernel)
      | exact sub_port _ _ (by decide +kernel)
      | exact sub_win _ (by decide +kernel)
      | exact sub_any _ (by decide +kernel)
      | split
  try clear_value a1
  have ha2 : Keeps (foot [.reg GLB_DETERMINISM, .reg TIM_GAP_STATUS, .reg TIM_GAP_COUNT, .reg LNK_DEADLETTER_COUNT, .reg CFG_STORE_STATUS, .reg (ENG_STATUS 0x600), .reg NUL_PRIMER_CTRL, .reg (HKx_CTRL 0x1700), .reg (HKx_STATUS 0x1700), .reg (HKx_OVERRUN_COUNT 0x1700), .reg (HKx_CTRL 0x1800), .reg (HKx_STATUS 0x1800), .reg (HKx_OVERRUN_COUNT 0x1800), .reg HKS_EXC_STATUS, .reg CAL_STATUS, .reg CAL_DEFER_COUNT, .reg CAL_LAST_POSTMARK_LO, .reg CAL_LAST_POSTMARK_HI, .reg CAL_TRACE_STATUS, .reg (ENG_STATUS 0x1B00), .flt, .win .lnk, .win .col, .win .nul] ||| foot [.win .cal, .recTick, .gap, .bar, .faults, .cou, .bru, .col, .nul, .lnk, .hka, .hkb, .cal, .cfg, .free, .srcs]) s a2 := by
    unfold a2
    repeat' first
      | with_reducible assumption
      | with_reducible apply Keeps.refl
      | with_reducible apply Keeps.ite
      | (apply Keeps.step; with_reducible apply State.cause_keeps)
      | (apply Keeps.step; with_reducible apply State.calClose_keeps)
      | (apply Keeps.step; with_reducible apply State.gapForced_keeps)
      | (apply Keeps.step; with_reducible apply State.windowOpens_keeps)
      | (apply Keeps.step; with_reducible apply State.windowCloses_keeps)
      | (with_reducible apply Keeps.forEach; intro _ _ _)
      | (with_reducible apply Keeps.foldl_fst; intro _ _ _)
      | (with_reducible apply Keeps.foldl_snd; intro _ _ _)
      | (with_reducible apply Keeps.foldl; intro _ _ _)
      | decide +kernel
      | exact sub_flt _ (by decide +kernel)
      | exact sub_eng _ (by decide +kernel)
      | exact sub_hk _ (by decide +kernel)
      | exact sub_port _ _ (by decide +kernel)
      | exact sub_win _ (by decide +kernel)
      | exact sub_any _ (by decide +kernel)
      | split
  try clear_value a2
  have ha3 : Keeps (foot [.reg GLB_DETERMINISM, .reg TIM_GAP_STATUS, .reg TIM_GAP_COUNT, .reg LNK_DEADLETTER_COUNT, .reg CFG_STORE_STATUS, .reg (ENG_STATUS 0x600), .reg NUL_PRIMER_CTRL, .reg (HKx_CTRL 0x1700), .reg (HKx_STATUS 0x1700), .reg (HKx_OVERRUN_COUNT 0x1700), .reg (HKx_CTRL 0x1800), .reg (HKx_STATUS 0x1800), .reg (HKx_OVERRUN_COUNT 0x1800), .reg HKS_EXC_STATUS, .reg CAL_STATUS, .reg CAL_DEFER_COUNT, .reg CAL_LAST_POSTMARK_LO, .reg CAL_LAST_POSTMARK_HI, .reg CAL_TRACE_STATUS, .reg (ENG_STATUS 0x1B00), .flt, .win .lnk, .win .col, .win .nul] ||| foot [.win .cal, .recTick, .gap, .bar, .faults, .cou, .bru, .col, .nul, .lnk, .hka, .hkb, .cal, .cfg, .free, .srcs]) s a3 := by
    unfold a3
    repeat' first
      | with_reducible assumption
      | with_reducible apply Keeps.refl
      | with_reducible apply Keeps.ite
      | (apply Keeps.step; with_reducible apply State.cause_keeps)
      | (apply Keeps.step; with_reducible apply State.calClose_keeps)
      | (apply Keeps.step; with_reducible apply State.gapForced_keeps)
      | (apply Keeps.step; with_reducible apply State.windowOpens_keeps)
      | (apply Keeps.step; with_reducible apply State.windowCloses_keeps)
      | (with_reducible apply Keeps.forEach; intro _ _ _)
      | (with_reducible apply Keeps.foldl_fst; intro _ _ _)
      | (with_reducible apply Keeps.foldl_snd; intro _ _ _)
      | (with_reducible apply Keeps.foldl; intro _ _ _)
      | decide +kernel
      | exact sub_flt _ (by decide +kernel)
      | exact sub_eng _ (by decide +kernel)
      | exact sub_hk _ (by decide +kernel)
      | exact sub_port _ _ (by decide +kernel)
      | exact sub_win _ (by decide +kernel)
      | exact sub_any _ (by decide +kernel)
      | split
  try clear_value a3
  try clear_value a4
  try clear_value a5
  repeat' first
    | with_reducible assumption
    | with_reducible apply Keeps.refl
    | with_reducible apply Keeps.ite
    | (apply Keeps.step; with_reducible apply State.cause_keeps)
    | (apply Keeps.step; with_reducible apply State.calClose_keeps)
    | (apply Keeps.step; with_reducible apply State.gapForced_keeps)
    | (apply Keeps.step; with_reducible apply State.windowOpens_keeps)
    | (apply Keeps.step; with_reducible apply State.windowCloses_keeps)
    | (with_reducible apply Keeps.forEach; intro _ _ _)
    | (with_reducible apply Keeps.foldl_fst; intro _ _ _)
    | (with_reducible apply Keeps.foldl_snd; intro _ _ _)
    | (with_reducible apply Keeps.foldl; intro _ _ _)
    | decide +kernel
    | exact sub_flt _ (by decide +kernel)
    | exact sub_eng _ (by decide +kernel)
    | exact sub_hk _ (by decide +kernel)
    | exact sub_port _ _ (by decide +kernel)
    | exact sub_win _ (by decide +kernel)
    | exact sub_any _ (by decide +kernel)
    | split


theorem State.fieldSupply_keeps (s : State) (on : Bool) :
    Keeps (foot [.fieldDie, .anyWin, .recTick, .fieldQ, .held, .tm, .bar, .pin, .bru, .pal, .col, .nul, .var, .str, .evt, .lnk, .hka, .hkb, .refOnAt, .cal, .winAddrs, .srcs]) s (State.fieldSupply s on) := by
  unfold State.fieldSupply
  extract_lets a1 a2
  have ha1 : Keeps (foot [.fieldDie, .anyWin, .recTick, .fieldQ, .held, .tm, .bar, .pin, .bru, .pal, .col, .nul, .var, .str, .evt, .lnk, .hka, .hkb, .refOnAt, .cal, .winAddrs, .srcs]) s a1 := by
    unfold a1
    repeat' first
      | with_reducible assumption
      | with_reducible apply Keeps.refl
      | with_reducible apply Keeps.ite
      | (apply Keeps.step; with_reducible apply State.fieldCold_keeps)
      | (with_reducible apply Keeps.forEach; intro _ _ _)
      | (with_reducible apply Keeps.foldl_fst; intro _ _ _)
      | (with_reducible apply Keeps.foldl_snd; intro _ _ _)
      | (with_reducible apply Keeps.foldl; intro _ _ _)
      | decide +kernel
      | exact sub_flt _ (by decide +kernel)
      | exact sub_eng _ (by decide +kernel)
      | exact sub_hk _ (by decide +kernel)
      | exact sub_port _ _ (by decide +kernel)
      | exact sub_win _ (by decide +kernel)
      | exact sub_any _ (by decide +kernel)
      | split
      | refine Keeps.upd ?_
  try clear_value a1
  try clear_value a2
  repeat' first
    | with_reducible assumption
    | with_reducible apply Keeps.refl
    | with_reducible apply Keeps.ite
    | (apply Keeps.step; with_reducible apply State.fieldCold_keeps)
    | (with_reducible apply Keeps.forEach; intro _ _ _)
    | (with_reducible apply Keeps.foldl_fst; intro _ _ _)
    | (with_reducible apply Keeps.foldl_snd; intro _ _ _)
    | (with_reducible apply Keeps.foldl; intro _ _ _)
    | decide +kernel
    | exact sub_flt _ (by decide +kernel)
    | exact sub_eng _ (by decide +kernel)
    | exact sub_hk _ (by decide +kernel)
    | exact sub_port _ _ (by decide +kernel)
    | exact sub_win _ (by decide +kernel)
    | exact sub_any _ (by decide +kernel)
    | split
    | refine Keeps.upd ?_

theorem State.renameDue_keeps (s : State) :
    Keeps (foot [.reg GLB_STATE, .reg GLB_DETERMINISM, .reg TIM_STATUS, .reg TIM_FIXED_LATENCY, .reg TIM_LAUNCH_STATUS, .reg TIM_FASTCMD_COUNT, .reg TIM_FASTCMD_LAST, .reg LNK_SCHED_SEL, .reg LNK_DEADLETTER_COUNT, .reg LNK_SLOWCTL_STATUS, .reg (ENG_STATUS 0x600), .reg PWR_STATE, .reg PAL_STATUS, .reg EVT_LOST, .reg EVT_STATUS, .reg (HKx_CTRL 0x1700), .reg (HKx_STATUS 0x1700), .reg (HKx_OVERRUN_COUNT 0x1700), .reg (HKx_CAL_STATUS 0x1700), .reg (HKx_CTRL 0x1800), .reg (HKx_STATUS 0x1800), .reg (HKx_OVERRUN_COUNT 0x1800), .reg (HKx_CAL_STATUS 0x1800), .reg HKS_EXC_STATUS] ||| foot [.reg (ENG_STATUS 0x1B00), .flt, .win .lnk, .recTick, .hostQ, .fieldQ, .gap, .tm, .bar, .faults, .cou, .bru, .pwr, .col, .nul, .var, .str, .evt, .lnk, .hka, .hkb, .mgt, .free, .srcs]) s (State.renameDue s) := by
  unfold State.renameDue
  extract_lets a1
  have ha1 : Keeps (foot [.reg GLB_STATE, .reg GLB_DETERMINISM, .reg TIM_STATUS, .reg TIM_FIXED_LATENCY, .reg TIM_LAUNCH_STATUS, .reg TIM_FASTCMD_COUNT, .reg TIM_FASTCMD_LAST, .reg LNK_SCHED_SEL, .reg LNK_DEADLETTER_COUNT, .reg LNK_SLOWCTL_STATUS, .reg (ENG_STATUS 0x600), .reg PWR_STATE, .reg PAL_STATUS, .reg EVT_LOST, .reg EVT_STATUS, .reg (HKx_CTRL 0x1700), .reg (HKx_STATUS 0x1700), .reg (HKx_OVERRUN_COUNT 0x1700), .reg (HKx_CAL_STATUS 0x1700), .reg (HKx_CTRL 0x1800), .reg (HKx_STATUS 0x1800), .reg (HKx_OVERRUN_COUNT 0x1800), .reg (HKx_CAL_STATUS 0x1800), .reg HKS_EXC_STATUS] ||| foot [.reg (ENG_STATUS 0x1B00), .flt, .win .lnk, .recTick, .hostQ, .fieldQ, .gap, .tm, .bar, .faults, .cou, .bru, .pwr, .col, .nul, .var, .str, .evt, .lnk, .hka, .hkb, .mgt, .free, .srcs]) s a1 := by
    unfold a1
    repeat' first
      | with_reducible assumption
      | with_reducible apply Keeps.refl
      | with_reducible apply Keeps.ite
      | (apply Keeps.step; with_reducible apply State.renameHost_keeps)
      | (apply Keeps.step; with_reducible apply State.renameField_keeps)
      | (with_reducible apply Keeps.forEach; intro _ _ _)
      | (with_reducible apply Keeps.foldl_fst; intro _ _ _)
      | (with_reducible apply Keeps.foldl_snd; intro _ _ _)
      | (with_reducible apply Keeps.foldl; intro _ _ _)
      | decide +kernel
      | exact sub_flt _ (by decide +kernel)
      | exact sub_eng _ (by decide +kernel)
      | exact sub_hk _ (by decide +kernel)
      | exact sub_port _ _ (by decide +kernel)
      | exact sub_win _ (by decide +kernel)
      | exact sub_any _ (by decide +kernel)
      | split
  try clear_value a1
  repeat' first
    | with_reducible assumption
    | with_reducible apply Keeps.refl
    | with_reducible apply Keeps.ite
    | (apply Keeps.step; with_reducible apply State.renameHost_keeps)
    | (apply Keeps.step; with_reducible apply State.renameField_keeps)
    | (with_reducible apply Keeps.forEach; intro _ _ _)
    | (with_reducible apply Keeps.foldl_fst; intro _ _ _)
    | (with_reducible apply Keeps.foldl_snd; intro _ _ _)
    | (with_reducible apply Keeps.foldl; intro _ _ _)
    | decide +kernel
    | exact sub_flt _ (by decide +kernel)
    | exact sub_eng _ (by decide +kernel)
    | exact sub_hk _ (by decide +kernel)
    | exact sub_port _ _ (by decide +kernel)
    | exact sub_win _ (by decide +kernel)
    | exact sub_any _ (by decide +kernel)
    | split


end Sys2Proof.Machine
end

