-- ==== Sys2Proof/Laws/KeepsMgt.lean ====
section
/-!
SUPPORT. Footprints of the operations of Machine/Mgt.lean: which parts of a state each can change.
-/
set_option Elab.async false
set_option linter.unusedTactic false
set_option linter.unreachableTactic false
namespace Sys2Proof.Machine

theorem State.mgtSend_keeps (s : State) (h : Nat) :
    Keeps (foot [.mgt]) s (State.mgtSend s h) := by
  unfold State.mgtSend
  extract_lets a1
  try clear_value a1
  repeat' first
    | with_reducible assumption
    | with_reducible apply Keeps.refl
    | with_reducible apply Keeps.ite
    | (with_reducible apply Keeps.forEach; intro _ _ _)
    | (with_reducible apply Keeps.foldl_fst; intro _ _ _)
    | (with_reducible apply Keeps.foldl_snd; intro _ _ _)
    | (with_reducible apply Keeps.foldl; intro _ _ _)
    | split
    | refine Keeps.upd ?_

theorem State.mgtHigh_keeps (s : State) (i : Nat) (live : Word) :
    Keeps (foot [.reg MGT_STATUS, .mgt]) s (State.mgtHigh s i live) := by
  unfold State.mgtHigh
  repeat' first
    | with_reducible assumption
    | with_reducible apply Keeps.refl
    | with_reducible apply Keeps.ite
    | (apply Keeps.step; with_reducible apply State.setBit_keeps)
    | (apply Keeps.step; with_reducible apply State.mgtSend_keeps)
    | (with_reducible apply Keeps.forEach; intro _ _ _)
    | (with_reducible apply Keeps.foldl_fst; intro _ _ _)
    | (with_reducible apply Keeps.foldl_snd; intro _ _ _)
    | (with_reducible apply Keeps.foldl; intro _ _ _)
    | decide +kernel
    | exact sub_flt _ (by decide +kernel)
    | exact sub_eng _ (by decide +kernel)
    | exact sub_hk _ (by decide +kernel)
    | exact sub_port _ _ (by decide +kernel)
    | exact sub_win _ (by decide +kernel)
    | exact sub_any _ (by decide +kernel)
    | split

theorem State.mgtPut_keeps (s : State) (r : MgtRead) (v : Word) :
    Keeps (foot [.reg MGT_STATUS, .reg MGT_PAIR_HOLD, .mgt]) s (State.mgtPut s r v) := by
  unfold State.mgtPut
  extract_lets a1 a2
  have ha1 : Keeps (foot [.reg MGT_STATUS, .reg MGT_PAIR_HOLD, .mgt]) s a1 := by
    unfold a1
    repeat' first
      | with_reducible assumption
      | with_reducible apply Keeps.refl
      | with_reducible apply Keeps.ite
      | (apply Keeps.step; with_reducible apply State.setBit_keeps)
      | (apply Keeps.step; with_reducible apply State.mgtSend_keeps)
      | (apply Keeps.step; with_reducible apply State.setFld_keeps)
      | (apply Keeps.step; with_reducible apply State.mgtHigh_keeps)
      | (with_reducible apply Keeps.forEach; intro _ _ _)
      | (with_reducible apply Keeps.foldl_fst; intro _ _ _)
      | (with_reducible apply Keeps.foldl_snd; intro _ _ _)
      | (with_reducible apply Keeps.foldl; intro _ _ _)
      | decide +kernel
      | exact sub_flt _ (by decide +kernel)
      | exact sub_eng _ (by decide +kernel)
      | exact sub_hk _ (by decide +kernel)
      | exact sub_port _ _ (by decide +kernel)
      | exact sub_win _ (by decide +kernel)
      | exact sub_any _ (by decide +kernel)
      | split
  try clear_value a1
  have ha2 : Keeps (foot [.reg MGT_STATUS, .reg MGT_PAIR_HOLD, .mgt]) s a2 := by
    unfold a2
    repeat' first
      | with_reducible assumption
      | with_reducible apply Keeps.refl
      | with_reducible apply Keeps.ite
      | (apply Keeps.step; with_reducible apply State.setBit_keeps)
      | (apply Keeps.step; with_reducible apply State.mgtSend_keeps)
      | (apply Keeps.step; with_reducible apply State.setFld_keeps)
      | (apply Keeps.step; with_reducible apply State.mgtHigh_keeps)
      | (with_reducible apply Keeps.forEach; intro _ _ _)
      | (with_reducible apply Keeps.foldl_fst; intro _ _ _)
      | (with_reducible apply Keeps.foldl_snd; intro _ _ _)
      | (with_reducible apply Keeps.foldl; intro _ _ _)
      | decide +kernel
      | exact sub_flt _ (by decide +kernel)
      | exact sub_eng _ (by decide +kernel)
      | exact sub_hk _ (by decide +kernel)
      | exact sub_port _ _ (by decide +kernel)
      | exact sub_win _ (by decide +kernel)
      | exact sub_any _ (by decide +kernel)
      | split
  try clear_value a2
  repeat' first
    | with_reducible assumption
    | with_reducible apply Keeps.refl
    | with_reducible apply Keeps.ite
    | (apply Keeps.step; with_reducible apply State.setBit_keeps)
    | (apply Keeps.step; with_reducible apply State.mgtSend_keeps)
    | (apply Keeps.step; with_reducible apply State.setFld_keeps)
    | (apply Keeps.step; with_reducible apply State.mgtHigh_keeps)
    | (with_reducible apply Keeps.forEach; intro _ _ _)
    | (with_reducible apply Keeps.foldl_fst; intro _ _ _)
    | (with_reducible apply Keeps.foldl_snd; intro _ _ _)
    | (with_reducible apply Keeps.foldl; intro _ _ _)
    | decide +kernel
    | exact sub_flt _ (by decide +kernel)
    | exact sub_eng _ (by decide +kernel)
    | exact sub_hk _ (by decide +kernel)
    | exact sub_port _ _ (by decide +kernel)
    | exact sub_win _ (by decide +kernel)
    | exact sub_any _ (by decide +kernel)
    | split

theorem State.bulkStep_keeps (s : State) :
    Keeps (foot [.reg MGT_BULK_ADDR]) s (State.bulkStep s) := by
  unfold State.bulkStep
  repeat' first
    | with_reducible assumption
    | with_reducible apply Keeps.refl
    | with_reducible apply Keeps.ite
    | (apply Keeps.step; with_reducible apply State.setFld_keeps)
    | (with_reducible apply Keeps.forEach; intro _ _ _)
    | (with_reducible apply Keeps.foldl_fst; intro _ _ _)
    | (with_reducible apply Keeps.foldl_snd; intro _ _ _)
    | (with_reducible apply Keeps.foldl; intro _ _ _)
    | decide +kernel
    | exact sub_flt _ (by decide +kernel)
    | exact sub_eng _ (by decide +kernel)
    | exact sub_hk _ (by decide +kernel)
    | exact sub_port _ _ (by decide +kernel)
    | exact sub_win _ (by decide +kernel)
    | exact sub_any _ (by decide +kernel)
    | split

theorem State.mgtDone_keeps (s : State) (r : MgtRead) (v : Word) :
    Keeps (foot [.reg MGT_STATUS, .reg MGT_PAIR_HOLD, .reg MGT_BULK_ADDR, .reg MGT_BULK_DATA, .mgt]) s (State.mgtDone s r v) := by
  unfold State.mgtDone
  extract_lets a1
  have ha1 : Keeps (foot [.reg MGT_STATUS, .reg MGT_PAIR_HOLD, .reg MGT_BULK_ADDR, .reg MGT_BULK_DATA, .mgt]) s a1 := by
    unfold a1
    repeat' first
      | with_reducible assumption
      | with_reducible apply Keeps.refl
      | with_reducible apply Keeps.ite
      | (apply Keeps.step; with_reducible apply State.mgtPut_keeps)
      | (apply Keeps.step; with_reducible apply State.bulkStep_keeps)
      | (apply Keeps.step; with_reducible apply State.setReg_keeps)
      | (with_reducible apply Keeps.forEach; intro _ _ _)
      | (with_reducible apply Keeps.foldl_fst; intro _ _ _)
      | (with_reducible apply Keeps.foldl_snd; intro _ _ _)
      | (with_reducible apply Keeps.foldl; intro _ _ _)
      | decide +kernel
      | exact sub_flt _ (by decide +kernel)
      | exact sub_eng _ (by decide +kernel)
      | exact sub_hk _ (by decide +kernel)
      | exact sub_port _ _ (by decide +kernel)
      | exact sub_win _ (by decide +kernel)
      | exact sub_any _ (by decide +kernel)
      | split
  try clear_value a1
  repeat' first
    | with_reducible assumption
    | with_reducible apply Keeps.refl
    | with_reducible apply Keeps.ite
    | (apply Keeps.step; with_reducible apply State.mgtPut_keeps)
    | (apply Keeps.step; with_reducible apply State.bulkStep_keeps)
    | (apply Keeps.step; with_reducible apply State.setReg_keeps)
    | (with_reducible apply Keeps.forEach; intro _ _ _)
    | (with_reducible apply Keeps.foldl_fst; intro _ _ _)
    | (with_reducible apply Keeps.foldl_snd; intro _ _ _)
    | (with_reducible apply Keeps.foldl; intro _ _ _)
    | decide +kernel
    | exact sub_flt _ (by decide +kernel)
    | exact sub_eng _ (by decide +kernel)
    | exact sub_hk _ (by decide +kernel)
    | exact sub_port _ _ (by decide +kernel)
    | exact sub_win _ (by decide +kernel)
    | exact sub_any _ (by decide +kernel)
    | split

theorem State.mgtRaise_keeps (s : State) (n : Nat) :
    Keeps (foot [.reg GLB_DETERMINISM, .reg LNK_DEADLETTER_COUNT, .reg (ENG_STATUS 0x600), .reg (ENG_STATUS 0x1B00), .flt, .win .lnk, .recTick, .bar, .faults, .cou, .bru, .lnk, .free, .srcs]) s (State.mgtRaise s n) := by
  unfold State.mgtRaise
  repeat' first
    | with_reducible assumption
    | with_reducible apply Keeps.refl
    | with_reducible apply Keeps.ite
    | (apply Keeps.step; with_reducible apply State.raise_keeps)
    | (with_reducible apply Keeps.forEach; intro _ _ _)
    | (with_reducible apply Keeps.foldl_fst; intro _ _ _)
    | (with_reducible apply Keeps.foldl_snd; intro _ _ _)
    | (with_reducible apply Keeps.foldl; intro _ _ _)
    | decide +kernel
    | exact sub_flt _ (by decide +kernel)
    | exact sub_eng _ (by decide +kernel)
    | exact sub_hk _ (by decide +kernel)
    | exact sub_port _ _ (by decide +kernel)
    | exact sub_win _ (by decide +kernel)
    | exact sub_any _ (by decide +kernel)
    | split

theorem State.bulkBad_keeps (s : State) :
    Keeps (foot [.reg GLB_DETERMINISM, .reg LNK_DEADLETTER_COUNT, .reg MGT_BULK_SPACE, .reg (ENG_STATUS 0x600), .reg (ENG_STATUS 0x1B00), .flt, .win .lnk, .recTick, .bar, .faults, .cou, .bru, .lnk, .free, .srcs]) s (State.bulkBad s) := by
  unfold State.bulkBad
  repeat' first
    | with_reducible assumption
    | with_reducible apply Keeps.refl
    | with_reducible apply Keeps.ite
    | (apply Keeps.step; with_reducible apply State.mgtRaise_keeps)
    | (apply Keeps.step; with_reducible apply State.setBit_keeps)
    | (with_reducible apply Keeps.forEach; intro _ _ _)
    | (with_reducible apply Keeps.foldl_fst; intro _ _ _)
    | (with_reducible apply Keeps.foldl_snd; intro _ _ _)
    | (with_reducible apply Keeps.foldl; intro _ _ _)
    | decide +kernel
    | exact sub_flt _ (by decide +kernel)
    | exact sub_eng _ (by decide +kernel)
    | exact sub_hk _ (by decide +kernel)
    | exact sub_port _ _ (by decide +kernel)
    | exact sub_win _ (by decide +kernel)
    | exact sub_any _ (by decide +kernel)
    | split

theorem State.bulkRead_keeps (s : State) (r : MgtRead) :
    Keeps (foot [.reg GLB_DETERMINISM, .reg LNK_DEADLETTER_COUNT, .reg MGT_STATUS, .reg MGT_PAIR_HOLD, .reg MGT_BULK_ADDR, .reg MGT_BULK_DATA, .reg MGT_BULK_SPACE, .reg (ENG_STATUS 0x600), .reg (ENG_STATUS 0x1B00), .flt, .win .lnk, .recTick, .bar, .faults, .cou, .bru, .lnk, .mgt, .free, .srcs]) s (State.bulkRead s r) := by
  unfold State.bulkRead
  extract_lets a1 a2
  try clear_value a1
  try clear_value a2
  repeat' first
    | with_reducible assumption
    | with_reducible apply Keeps.refl
    | with_reducible apply Keeps.ite
    | (apply Keeps.step; with_reducible apply State.mgtPut_keeps)
    | (apply Keeps.step; with_reducible apply State.bulkBad_keeps)
    | (apply Keeps.step; with_reducible apply State.setFld_keeps)
    | (apply Keeps.step; with_reducible apply State.setReg_keeps)
    | (with_reducible apply Keeps.forEach; intro _ _ _)
    | (with_reducible apply Keeps.foldl_fst; intro _ _ _)
    | (with_reducible apply Keeps.foldl_snd; intro _ _ _)
    | (with_reducible apply Keeps.foldl; intro _ _ _)
    | decide +kernel
    | exact sub_flt _ (by decide +kernel)
    | exact sub_eng _ (by decide +kernel)
    | exact sub_hk _ (by decide +kernel)
    | exact sub_port _ _ (by decide +kernel)
    | exact sub_win _ (by decide +kernel)
    | exact sub_any _ (by decide +kernel)
    | split

theorem State.mgtNoClock_keeps (s : State) (r : MgtRead) :
    Keeps (foot [.reg MGT_STATUS, .reg MGT_PAIR_HOLD, .reg MGT_TIMEOUT_COUNT, .reg MGT_BULK_ADDR, .reg MGT_BULK_DATA, .mgt]) s (State.mgtNoClock s r) := by
  unfold State.mgtNoClock
  repeat' first
    | with_reducible assumption
    | with_reducible apply Keeps.refl
    | with_reducible apply Keeps.ite
    | (apply Keeps.step; with_reducible apply State.mgtDone_keeps)
    | (apply Keeps.step; with_reducible apply State.inc_keeps)
    | (apply Keeps.step; with_reducible apply State.setBit_keeps)
    | (with_reducible apply Keeps.forEach; intro _ _ _)
    | (with_reducible apply Keeps.foldl_fst; intro _ _ _)
    | (with_reducible apply Keeps.foldl_snd; intro _ _ _)
    | (with_reducible apply Keeps.foldl; intro _ _ _)
    | decide +kernel
    | exact sub_flt _ (by decide +kernel)
    | exact sub_eng _ (by decide +kernel)
    | exact sub_hk _ (by decide +kernel)
    | exact sub_port _ _ (by decide +kernel)
    | exact sub_win _ (by decide +kernel)
    | exact sub_any _ (by decide +kernel)
    | split

theorem State.mgtServe_keeps {s t : State} {r : MgtRead} (h : s.mgtServe r = some t) :
    Keeps (foot [.anyReg, .win .lnk, .recTick, .tm, .bar, .faults, .cou, .bru, .nul, .var, .evt, .lnk, .mgt, .free, .winAddrs, .srcs]) s t := by
  have hp : ∀ u v, Keeps (foot [.anyReg, .win .lnk, .recTick, .tm, .bar, .faults, .cou, .bru, .nul, .var, .evt, .lnk, .mgt, .free, .winAddrs, .srcs]) s u → Keeps (foot [.anyReg, .win .lnk, .recTick, .tm, .bar, .faults, .cou, .bru, .nul, .var, .evt, .lnk, .mgt, .free, .winAddrs, .srcs]) s (u.mgtPut r v) := fun u v hu => (State.mgtPut_keeps _ _ _).step (by decide +kernel) hu
  have hd : ∀ u v, Keeps (foot [.anyReg, .win .lnk, .recTick, .tm, .bar, .faults, .cou, .bru, .nul, .var, .evt, .lnk, .mgt, .free, .winAddrs, .srcs]) s u → Keeps (foot [.anyReg, .win .lnk, .recTick, .tm, .bar, .faults, .cou, .bru, .nul, .var, .evt, .lnk, .mgt, .free, .winAddrs, .srcs]) s (u.mgtDone r v) := fun u v hu => (State.mgtDone_keeps _ _ _).step (by decide +kernel) hu
  have h0 : Keeps (foot [.anyReg, .win .lnk, .recTick, .tm, .bar, .faults, .cou, .bru, .nul, .var, .evt, .lnk, .mgt, .free, .winAddrs, .srcs]) s s := Keeps.refl _ _
  unfold State.mgtServe at h
  extract_lets space at h
  try clear_value space
  split at h
  · cases h; exact hp _ _ h0
  split at h
  · cases h; exact (State.bulkRead_keeps _ _).mono (by decide +kernel)
  split at h
  · cases h; exact hp _ _ h0
  split at h
  · cases h; exact hd _ _ h0
  split at h
  · split at h
    · cases h
    · cases h; exact (State.mgtNoClock_keeps _ _).mono (by decide +kernel)
  split at h
  · split at h
    · cases h
    · cases h; exact hd _ _ ((State.setBit_keeps _ _ _).mono (by decide +kernel))
  split at h
  · cases h
  split at h
  · cases h; exact hp _ _ h0
  · cases h; exact hd _ _ ((State.readReg_keeps _ _ _).mono (by decide +kernel))

theorem State.mgtRun_keeps (n : Nat) (s : State) (r : MgtRead) :
    Keeps (foot [.anyReg, .win .lnk, .recTick, .tm, .bar, .faults, .cou, .bru, .nul, .var, .evt, .lnk, .mgt, .free, .winAddrs, .srcs]) s (State.mgtRun n s r) := by
  have hs : ∀ (t u : State) (q : MgtRead), t.mgtServe q = some u → Keeps (foot [.anyReg, .win .lnk, .recTick, .tm, .bar, .faults, .cou, .bru, .nul, .var, .evt, .lnk, .mgt, .free, .winAddrs, .srcs]) t u := fun t u q h =>
    (State.mgtServe_keeps h).mono (by decide +kernel)
  have hw : ∀ (t : State) (q : MgtRead), Keeps (foot [.anyReg, .win .lnk, .recTick, .tm, .bar, .faults, .cou, .bru, .nul, .var, .evt, .lnk, .mgt, .free, .winAddrs, .srcs]) t { t with mgt := { t.mgt with wait := some q } } := fun t q =>
    Keeps.upd (Keeps.refl _ _)
  induction n generalizing s with
  | zero =>
    unfold State.mgtRun
    extract_lets r0
    try clear_value r0
    split
    · exact hw _ _
    · next h => exact hs _ _ _ h
  | succ n ih =>
    unfold State.mgtRun
    extract_lets r0
    try clear_value r0
    split
    · exact hw _ _
    · next h => exact (hs _ _ _ h).trans (ih _)

theorem State.mgtValue_keeps (s : State) (r : MgtRead) (v : Word) :
    Keeps (foot [.anyReg, .win .lnk, .recTick, .tm, .bar, .faults, .cou, .bru, .nul, .var, .evt, .lnk, .mgt, .free, .winAddrs, .srcs]) s (State.mgtValue s r v) := by
  unfold State.mgtValue
  extract_lets a1 a2 a3
  try clear_value a1
  have ha2 : Keeps (foot [.anyReg, .win .lnk, .recTick, .tm, .bar, .faults, .cou, .bru, .nul, .var, .evt, .lnk, .mgt, .free, .winAddrs, .srcs]) s a2 := by
    unfold a2
    repeat' first
      | with_reducible assumption
      | with_reducible apply Keeps.refl
      | with_reducible apply Keeps.ite
      | (apply Keeps.step; with_reducible apply State.mgtDone_keeps)
      | (apply Keeps.step; with_reducible apply State.mgtRun_keeps)
      | (with_reducible apply Keeps.forEach; intro _ _ _)
      | (with_reducible apply Keeps.foldl_fst; intro _ _ _)
      | (with_reducible apply Keeps.foldl_snd; intro _ _ _)
      | (with_reducible apply Keeps.foldl; intro _ _ _)
      | decide +kernel
      | exact sub_flt _ (by decide +kernel)
      | exact sub_eng _ (by decide +kernel)
      | exact sub_hk _ (by decide +kernel)
      | exact sub_port _ _ (by decide +kernel)
      | exact sub_win _ (by decide +kernel)
      | exact sub_any _ (by decide +kernel)
      | split
      | refine Keeps.upd ?_
  try clear_value a2
  have ha3 : Keeps (foot [.anyReg, .win .lnk, .recTick, .tm, .bar, .faults, .cou, .bru, .nul, .var, .evt, .lnk, .mgt, .free, .winAddrs, .srcs]) s a3 := by
    unfold a3
    repeat' first
      | with_reducible assumption
      | with_reducible apply Keeps.refl
      | with_reducible apply Keeps.ite
      | (apply Keeps.step; with_reducible apply State.mgtDone_keeps)
      | (apply Keeps.step; with_reducible apply State.mgtRun_keeps)
      | (with_reducible apply Keeps.forEach; intro _ _ _)
      | (with_reducible apply Keeps.foldl_fst; intro _ _ _)
      | (with_reducible apply Keeps.foldl_snd; intro _ _ _)
      | (with_reducible apply Keeps.foldl; intro _ _ _)
      | decide +kernel
      | exact sub_flt _ (by decide +kernel)
      | exact sub_eng _ (by decide +kernel)
      | exact sub_hk _ (by decide +kernel)
      | exact sub_port _ _ (by decide +kernel)
      | exact sub_win _ (by decide +kernel)
      | exact sub_any _ (by decide +kernel)
      | split
      | refine Keeps.upd ?_
  try clear_value a3
  repeat' first
    | with_reducible assumption
    | with_reducible apply Keeps.refl
    | with_reducible apply Keeps.ite
    | (apply Keeps.step; with_reducible apply State.mgtDone_keeps)
    | (apply Keeps.step; with_reducible apply State.mgtRun_keeps)
    | (with_reducible apply Keeps.forEach; intro _ _ _)
    | (with_reducible apply Keeps.foldl_fst; intro _ _ _)
    | (with_reducible apply Keeps.foldl_snd; intro _ _ _)
    | (with_reducible apply Keeps.foldl; intro _ _ _)
    | decide +kernel
    | exact sub_flt _ (by decide +kernel)
    | exact sub_eng _ (by decide +kernel)
    | exact sub_hk _ (by decide +kernel)
    | exact sub_port _ _ (by decide +kernel)
    | exact sub_win _ (by decide +kernel)
    | exact sub_any _ (by decide +kernel)
    | split
    | refine Keeps.upd ?_

theorem State.mgtBreak_keeps (s : State) :
    Keeps (foot [.mgt]) s (State.mgtBreak s) := by
  unfold State.mgtBreak
  extract_lets a1
  try clear_value a1
  repeat' first
    | with_reducible assumption
    | with_reducible apply Keeps.refl
    | with_reducible apply Keeps.ite
    | (with_reducible apply Keeps.forEach; intro _ _ _)
    | (with_reducible apply Keeps.foldl_fst; intro _ _ _)
    | (with_reducible apply Keeps.foldl_snd; intro _ _ _)
    | (with_reducible apply Keeps.foldl; intro _ _ _)
    | split
    | refine Keeps.upd ?_

theorem State.mgtArm_keeps (s : State) (i : Nat) :
    Keeps (foot [.reg TIM_LAUNCH_ACTION]) s (State.mgtArm s i).2 := by
  unfold State.mgtArm
  repeat' first
    | with_reducible assumption
    | with_reducible apply Keeps.refl
    | split
    | with_reducible apply Keeps.ite
    | (apply Keeps.step; with_reducible apply State.setBit_keeps)
    | (with_reducible apply Keeps.forEach; intro _ _ _)
    | (with_reducible apply Keeps.foldl_fst; intro _ _ _)
    | (with_reducible apply Keeps.foldl_snd; intro _ _ _)
    | (with_reducible apply Keeps.foldl; intro _ _ _)
    | decide +kernel
    | exact sub_flt _ (by decide +kernel)
    | exact sub_eng _ (by decide +kernel)
    | exact sub_hk _ (by decide +kernel)
    | exact sub_port _ _ (by decide +kernel)
    | exact sub_win _ (by decide +kernel)
    | exact sub_any _ (by decide +kernel)

theorem State.mgtLaunched_keeps (s : State) (code : Nat) :
    Keeps (foot [.reg TIM_LAUNCH_STATUS]) s (State.mgtLaunched s code) := by
  unfold State.mgtLaunched
  extract_lets a1
  have ha1 : Keeps (foot [.reg TIM_LAUNCH_STATUS]) s a1 := by
    unfold a1
    repeat' first
      | with_reducible assumption
      | with_reducible apply Keeps.refl
      | with_reducible apply Keeps.ite
      | (apply Keeps.step; with_reducible apply State.setBit_keeps)
      | (apply Keeps.step; with_reducible apply State.setFld_keeps)
      | (apply Keeps.step; with_reducible apply State.inc_keeps)
      | (with_reducible apply Keeps.forEach; intro _ _ _)
      | (with_reducible apply Keeps.foldl_fst; intro _ _ _)
      | (with_reducible apply Keeps.foldl_snd; intro _ _ _)
      | (with_reducible apply Keeps.foldl; intro _ _ _)
      | decide +kernel
      | exact sub_flt _ (by decide +kernel)
      | exact sub_eng _ (by decide +kernel)
      | exact sub_hk _ (by decide +kernel)
      | exact sub_port _ _ (by decide +kernel)
      | exact sub_win _ (by decide +kernel)
      | exact sub_any _ (by decide +kernel)
      | split
  try clear_value a1
  repeat' first
    | with_reducible assumption
    | with_reducible apply Keeps.refl
    | with_reducible apply Keeps.ite
    | (apply Keeps.step; with_reducible apply State.setBit_keeps)
    | (apply Keeps.step; with_reducible apply State.setFld_keeps)
    | (apply Keeps.step; with_reducible apply State.inc_keeps)
    | (with_reducible apply Keeps.forEach; intro _ _ _)
    | (with_reducible apply Keeps.foldl_fst; intro _ _ _)
    | (with_reducible apply Keeps.foldl_snd; intro _ _ _)
    | (with_reducible apply Keeps.foldl; intro _ _ _)
    | decide +kernel
    | exact sub_flt _ (by decide +kernel)
    | exact sub_eng _ (by decide +kernel)
    | exact sub_hk _ (by decide +kernel)
    | exact sub_port _ _ (by decide +kernel)
    | exact sub_win _ (by decide +kernel)
    | exact sub_any _ (by decide +kernel)
    | split

theorem State.mgtApply_keeps (s : State) (w : MgtWr) :
    Keeps (foot [.anyReg, .anyWin, .recTick, .timers, .hostQ, .fieldQ, .held, .gap, .bar, .faults, .cou, .bru, .pal, .pwr, .col, .nul, .var, .str, .evt, .lnk, .hka, .hkb, .refOnAt, .cal] ||| foot [.mgt, .cfg, .flash, .free, .winAddrs, .srcs]) s (State.mgtApply s w) := by
  unfold State.mgtApply
  extract_lets a1
  have ha1 : Keeps (foot [.anyReg, .anyWin, .recTick, .timers, .hostQ, .fieldQ, .held, .gap, .bar, .faults, .cou, .bru, .pal, .pwr, .col, .nul, .var, .str, .evt, .lnk, .hka, .hkb, .refOnAt, .cal] ||| foot [.mgt, .cfg, .flash, .free, .winAddrs, .srcs]) s a1 := by
    unfold a1
    repeat' first
      | with_reducible assumption
      | with_reducible apply Keeps.refl
      | with_reducible apply Keeps.ite
      | (apply Keeps.step; with_reducible apply State.setBit_keeps)
      | (apply Keeps.step; with_reducible apply State.sendWrite_keeps)
      | (apply Keeps.step; with_reducible apply State.writeReg_keeps)
      | (apply Keeps.step; with_reducible apply State.launchReg_keeps)
      | (apply Keeps.step; with_reducible apply State.mgtLaunched_keeps)
      | (with_reducible apply Keeps.forEach; intro _ _ _)
      | (with_reducible apply Keeps.foldl_fst; intro _ _ _)
      | (with_reducible apply Keeps.foldl_snd; intro _ _ _)
      | (with_reducible apply Keeps.foldl; intro _ _ _)
      | decide +kernel
      | exact sub_flt _ (by decide +kernel)
      | exact sub_eng _ (by decide +kernel)
      | exact sub_hk _ (by decide +kernel)
      | exact sub_port _ _ (by decide +kernel)
      | exact sub_win _ (by decide +kernel)
      | exact sub_any _ (by decide +kernel)
      | split
  try clear_value a1
  repeat' first
    | with_reducible assumption
    | with_reducible apply Keeps.refl
    | with_reducible apply Keeps.ite
    | (apply Keeps.step; with_reducible apply State.setBit_keeps)
    | (apply Keeps.step; with_reducible apply State.sendWrite_keeps)
    | (apply Keeps.step; with_reducible apply State.writeReg_keeps)
    | (apply Keeps.step; with_reducible apply State.launchReg_keeps)
    | (apply Keeps.step; with_reducible apply State.mgtLaunched_keeps)
    | (with_reducible apply Keeps.forEach; intro _ _ _)
    | (with_reducible apply Keeps.foldl_fst; intro _ _ _)
    | (with_reducible apply Keeps.foldl_snd; intro _ _ _)
    | (with_reducible apply Keeps.foldl; intro _ _ _)
    | decide +kernel
    | exact sub_flt _ (by decide +kernel)
    | exact sub_eng _ (by decide +kernel)
    | exact sub_hk _ (by decide +kernel)
    | exact sub_port _ _ (by decide +kernel)
    | exact sub_win _ (by decide +kernel)
    | exact sub_any _ (by decide +kernel)
    | split

theorem State.mgtDrain_keeps (s : State) :
    Keeps (foot [.anyReg, .anyWin, .recTick, .timers, .hostQ, .fieldQ, .held, .gap, .bar, .faults, .cou, .bru, .pal, .pwr, .col, .nul, .var, .str, .evt, .lnk, .hka, .hkb, .refOnAt, .cal] ||| foot [.mgt, .cfg, .flash, .free, .winAddrs, .srcs]) s (State.mgtDrain s) := by
  unfold State.mgtDrain
  extract_lets a1
  try clear_value a1
  repeat' first
    | with_reducible assumption
    | with_reducible apply Keeps.refl
    | with_reducible apply Keeps.ite
    | (apply Keeps.step; with_reducible apply State.mgtApply_keeps)
    | (with_reducible apply Keeps.forEach; intro _ _ _)
    | (with_reducible apply Keeps.foldl_fst; intro _ _ _)
    | (with_reducible apply Keeps.foldl_snd; intro _ _ _)
    | (with_reducible apply Keeps.foldl; intro _ _ _)
    | decide +kernel
    | exact sub_flt _ (by decide +kernel)
    | exact sub_eng _ (by decide +kernel)
    | exact sub_hk _ (by decide +kernel)
    | exact sub_port _ _ (by decide +kernel)
    | exact sub_win _ (by decide +kernel)
    | exact sub_any _ (by decide +kernel)
    | split
    | refine Keeps.upd ?_

theorem State.mgtTickWrite_keeps (s : State) (i : Nat) (v : Word) :
    Keeps (foot [.anyReg, .anyWin, .recTick, .timers, .hostQ, .fieldQ, .held, .gap, .bar, .faults, .cou, .bru, .pal, .pwr, .col, .nul, .var, .str, .evt, .lnk, .hka, .hkb, .refOnAt, .cal] ||| foot [.mgt, .cfg, .flash, .free, .winAddrs, .srcs]) s (State.mgtTickWrite s i v) := by
  unfold State.mgtTickWrite
  extract_lets a1 a2 a3
  have ha1 : Keeps (foot [.anyReg, .anyWin, .recTick, .timers, .hostQ, .fieldQ, .held, .gap, .bar, .faults, .cou, .bru, .pal, .pwr, .col, .nul, .var, .str, .evt, .lnk, .hka, .hkb, .refOnAt, .cal] ||| foot [.mgt, .cfg, .flash, .free, .winAddrs, .srcs]) s a1.2 := by
    unfold a1
    repeat' first
      | with_reducible assumption
      | with_reducible apply Keeps.refl
      | with_reducible apply Keeps.ite
      | (apply Keeps.step; with_reducible apply State.mgtRaise_keeps)
      | (apply Keeps.step; with_reducible apply State.setBit_keeps)
      | (apply Keeps.step; with_reducible apply State.mgtArm_keeps)
      | (apply Keeps.step; with_reducible apply State.mgtDrain_keeps)
      | (with_reducible apply Keeps.forEach; intro _ _ _)
      | (with_reducible apply Keeps.foldl_fst; intro _ _ _)
      | (with_reducible apply Keeps.foldl_snd; intro _ _ _)
      | (with_reducible apply Keeps.foldl; intro _ _ _)
      | decide +kernel
      | exact sub_flt _ (by decide +kernel)
      | exact sub_eng _ (by decide +kernel)
      | exact sub_hk _ (by decide +kernel)
      | exact sub_port _ _ (by decide +kernel)
      | exact sub_win _ (by decide +kernel)
      | exact sub_any _ (by decide +kernel)
      | split
      | refine Keeps.upd ?_
  try clear_value a1
  have ha2 : Keeps (foot [.anyReg, .anyWin, .recTick, .timers, .hostQ, .fieldQ, .held, .gap, .bar, .faults, .cou, .bru, .pal, .pwr, .col, .nul, .var, .str, .evt, .lnk, .hka, .hkb, .refOnAt, .cal] ||| foot [.mgt, .cfg, .flash, .free, .winAddrs, .srcs]) s a2 := by
    unfold a2
    repeat' first
      | with_reducible assumption
      | with_reducible apply Keeps.refl
      | with_reducible apply Keeps.ite
      | (apply Keeps.step; with_reducible apply State.mgtRaise_keeps)
      | (apply Keeps.step; with_reducible apply State.setBit_keeps)
      | (apply Keeps.step; with_reducible apply State.mgtArm_keeps)
      | (apply Keeps.step; with_reducible apply State.mgtDrain_keeps)
      | (with_reducible apply Keeps.forEach; intro _ _ _)
      | (with_reducible apply Keeps.foldl_fst; intro _ _ _)
      | (with_reducible apply Keeps.foldl_snd; intro _ _ _)
      | (with_reducible apply Keeps.foldl; intro _ _ _)
      | decide +kernel
      | exact sub_flt _ (by decide +kernel)
      | exact sub_eng _ (by decide +kernel)
      | exact sub_hk _ (by decide +kernel)
      | exact sub_port _ _ (by decide +kernel)
      | exact sub_win _ (by decide +kernel)
      | exact sub_any _ (by decide +kernel)
      | split
      | refine Keeps.upd ?_
  try clear_value a2
  try clear_value a3
  repeat' first
    | with_reducible assumption
    | with_reducible apply Keeps.refl
    | with_reducible apply Keeps.ite
    | (apply Keeps.step; with_reducible apply State.mgtRaise_keeps)
    | (apply Keeps.step; with_reducible apply State.setBit_keeps)
    | (apply Keeps.step; with_reducible apply State.mgtArm_keeps)
    | (apply Keeps.step; with_reducible apply State.mgtDrain_keeps)
    | (with_reducible apply Keeps.forEach; intro _ _ _)
    | (with_reducible apply Keeps.foldl_fst; intro _ _ _)
    | (with_reducible apply Keeps.foldl_snd; intro _ _ _)
    | (with_reducible apply Keeps.foldl; intro _ _ _)
    | decide +kernel
    | exact sub_flt _ (by decide +kernel)
    | exact sub_eng _ (by decide +kernel)
    | exact sub_hk _ (by decide +kernel)
    | exact sub_port _ _ (by decide +kernel)
    | exact sub_win _ (by decide +kernel)
    | exact sub_any _ (by decide +kernel)
    | split
    | refine Keeps.upd ?_

theorem State.bulkWrite_keeps (s : State) (v : Word) :
    Keeps (foot [.reg GLB_DETERMINISM, .reg LNK_DEADLETTER_COUNT, .reg MGT_BULK_ADDR, .reg MGT_BULK_SPACE, .reg (ENG_STATUS 0x600), .reg (ENG_STATUS 0x1B00), .flt, .win .lnk, .recTick, .bar, .faults, .cou, .bru, .lnk, .flash, .free, .srcs]) s (State.bulkWrite s v) := by
  unfold State.bulkWrite
  extract_lets a1 a2
  try clear_value a1
  try clear_value a2
  repeat' first
    | with_reducible assumption
    | with_reducible apply Keeps.refl
    | with_reducible apply Keeps.ite
    | (apply Keeps.step; with_reducible apply State.bulkBad_keeps)
    | (apply Keeps.step; with_reducible apply State.setFld_keeps)
    | (apply Keeps.step; with_reducible apply State.flashPut_keeps)
    | (with_reducible apply Keeps.forEach; intro _ _ _)
    | (with_reducible apply Keeps.foldl_fst; intro _ _ _)
    | (with_reducible apply Keeps.foldl_snd; intro _ _ _)
    | (with_reducible apply Keeps.foldl; intro _ _ _)
    | decide +kernel
    | exact sub_flt _ (by decide +kernel)
    | exact sub_eng _ (by decide +kernel)
    | exact sub_hk _ (by decide +kernel)
    | exact sub_port _ _ (by decide +kernel)
    | exact sub_win _ (by decide +kernel)
    | exact sub_any _ (by decide +kernel)
    | split

theorem State.mgtWrite_keeps (s : State) (i : Nat) (v : Word) :
    Keeps (foot [.anyReg, .anyWin, .recTick, .timers, .hostQ, .fieldQ, .held, .gap, .bar, .faults, .cou, .bru, .pal, .pwr, .col, .nul, .var, .str, .evt, .lnk, .hka, .hkb, .refOnAt, .cal] ||| foot [.mgt, .cfg, .flash, .free, .winAddrs, .srcs]) s (State.mgtWrite s i v) := by
  unfold State.mgtWrite
  extract_lets a1 a2
  have ha1 : Keeps (foot [.anyReg, .anyWin, .recTick, .timers, .hostQ, .fieldQ, .held, .gap, .bar, .faults, .cou, .bru, .pal, .pwr, .col, .nul, .var, .str, .evt, .lnk, .hka, .hkb, .refOnAt, .cal] ||| foot [.mgt, .cfg, .flash, .free, .winAddrs, .srcs]) s a1 := by
    unfold a1
    repeat' first
      | with_reducible assumption
      | with_reducible apply Keeps.refl
      | with_reducible apply Keeps.ite
      | (apply Keeps.step; with_reducible apply State.setReg_keeps)
      | (apply Keeps.step; with_reducible apply State.bulkStep_keeps)
      | (apply Keeps.step; with_reducible apply State.applyWhole_keeps)
      | (apply Keeps.step; with_reducible apply State.mgtTickWrite_keeps)
      | (apply Keeps.step; with_reducible apply State.bulkWrite_keeps)
      | (with_reducible apply Keeps.forEach; intro _ _ _)
      | (with_reducible apply Keeps.foldl_fst; intro _ _ _)
      | (with_reducible apply Keeps.foldl_snd; intro _ _ _)
      | (with_reducible apply Keeps.foldl; intro _ _ _)
      | decide +kernel
      | exact sub_flt _ (by decide +kernel)
      | exact sub_eng _ (by decide +kernel)
      | exact sub_hk _ (by decide +kernel)
      | exact sub_port _ _ (by decide +kernel)
      | exact sub_win _ (by decide +kernel)
      | exact sub_any _ (by decide +kernel)
      | split
  try clear_value a1
  try clear_value a2
  repeat' first
    | with_reducible assumption
    | with_reducible apply Keeps.refl
    | with_reducible apply Keeps.ite
    | (apply Keeps.step; with_reducible apply State.setReg_keeps)
    | (apply Keeps.step; with_reducible apply State.bulkStep_keeps)
    | (apply Keeps.step; with_reducible apply State.applyWhole_keeps)
    | (apply Keeps.step; with_reducible apply State.mgtTickWrite_keeps)
    | (apply Keeps.step; with_reducible apply State.bulkWrite_keeps)
    | (with_reducible apply Keeps.forEach; intro _ _ _)
    | (with_reducible apply Keeps.foldl_fst; intro _ _ _)
    | (with_reducible apply Keeps.foldl_snd; intro _ _ _)
    | (with_reducible apply Keeps.foldl; intro _ _ _)
    | decide +kernel
    | exact sub_flt _ (by decide +kernel)
    | exact sub_eng _ (by decide +kernel)
    | exact sub_hk _ (by decide +kernel)
    | exact sub_port _ _ (by decide +kernel)
    | exact sub_win _ (by decide +kernel)
    | exact sub_any _ (by decide +kernel)
    | split

theorem State.mgtFrame_keeps (s : State) :
    Keeps (foot [.reg GLB_DETERMINISM, .reg LNK_DEADLETTER_COUNT, .reg MGT_STATUS, .reg (ENG_STATUS 0x600), .reg (ENG_STATUS 0x1B00), .flt, .win .lnk, .recTick, .bar, .faults, .cou, .bru, .lnk, .mgt, .free, .srcs]) s (State.mgtFrame s) := by
  unfold State.mgtFrame
  extract_lets a1 a2 a3
  try clear_value a1
  have ha2 : Keeps (foot [.reg GLB_DETERMINISM, .reg LNK_DEADLETTER_COUNT, .reg MGT_STATUS, .reg (ENG_STATUS 0x600), .reg (ENG_STATUS 0x1B00), .flt, .win .lnk, .recTick, .bar, .faults, .cou, .bru, .lnk, .mgt, .free, .srcs]) s a2 := by
    unfold a2
    repeat' first
      | with_reducible assumption
      | with_reducible apply Keeps.refl
      | with_reducible apply Keeps.ite
      | (apply Keeps.step; with_reducible apply State.mgtRaise_keeps)
      | (apply Keeps.step; with_reducible apply State.setBit_keeps)
      | (apply Keeps.step; with_reducible apply State.setFld_keeps)
      | (with_reducible apply Keeps.forEach; intro _ _ _)
      | (with_reducible apply Keeps.foldl_fst; intro _ _ _)
      | (with_reducible apply Keeps.foldl_snd; intro _ _ _)
      | (with_reducible apply Keeps.foldl; intro _ _ _)
      | decide +kernel
      | exact sub_flt _ (by decide +kernel)
      | exact sub_eng _ (by decide +kernel)
      | exact sub_hk _ (by decide +kernel)
      | exact sub_port _ _ (by decide +kernel)
      | exact sub_win _ (by decide +kernel)
      | exact sub_any _ (by decide +kernel)
      | split
      | refine Keeps.upd ?_
  try clear_value a2
  have ha3 : Keeps (foot [.reg GLB_DETERMINISM, .reg LNK_DEADLETTER_COUNT, .reg MGT_STATUS, .reg (ENG_STATUS 0x600), .reg (ENG_STATUS 0x1B00), .flt, .win .lnk, .recTick, .bar, .faults, .cou, .bru, .lnk, .mgt, .free, .srcs]) s a3 := by
    unfold a3
    repeat' first
      | with_reducible assumption
      | with_reducible apply Keeps.refl
      | with_reducible apply Keeps.ite
      | (apply Keeps.step; with_reducible apply State.mgtRaise_keeps)
      | (apply Keeps.step; with_reducible apply State.setBit_keeps)
      | (apply Keeps.step; with_reducible apply State.setFld_keeps)
      | (with_reducible apply Keeps.forEach; intro _ _ _)
      | (with_reducible apply Keeps.foldl_fst; intro _ _ _)
      | (with_reducible apply Keeps.foldl_snd; intro _ _ _)
      | (with_reducible apply Keeps.foldl; intro _ _ _)
      | decide +kernel
      | exact sub_flt _ (by decide +kernel)
      | exact sub_eng _ (by decide +kernel)
      | exact sub_hk _ (by decide +kernel)
      | exact sub_port _ _ (by decide +kernel)
      | exact sub_win _ (by decide +kernel)
      | exact sub_any _ (by decide +kernel)
      | split
      | refine Keeps.upd ?_
  try clear_value a3
  repeat' first
    | with_reducible assumption
    | with_reducible apply Keeps.refl
    | with_reducible apply Keeps.ite
    | (apply Keeps.step; with_reducible apply State.mgtRaise_keeps)
    | (apply Keeps.step; with_reducible apply State.setBit_keeps)
    | (apply Keeps.step; with_reducible apply State.setFld_keeps)
    | (with_reducible apply Keeps.forEach; intro _ _ _)
    | (with_reducible apply Keeps.foldl_fst; intro _ _ _)
    | (with_reducible apply Keeps.foldl_snd; intro _ _ _)
    | (with_reducible apply Keeps.foldl; intro _ _ _)
    | decide +kernel
    | exact sub_flt _ (by decide +kernel)
    | exact sub_eng _ (by decide +kernel)
    | exact sub_hk _ (by decide +kernel)
    | exact sub_port _ _ (by decide +kernel)
    | exact sub_win _ (by decide +kernel)
    | exact sub_any _ (by decide +kernel)
    | split
    | refine Keeps.upd ?_

theorem State.mgtWrAll_keeps (s : State) (i : Nat) (vs : List Word) :
    Keeps (foot [.anyReg, .anyWin, .recTick, .timers, .hostQ, .fieldQ, .held, .gap, .bar, .faults, .cou, .bru, .pal, .pwr, .col, .nul, .var, .str, .evt, .lnk, .hka, .hkb, .refOnAt, .cal] ||| foot [.mgt, .cfg, .flash, .free, .winAddrs, .srcs]) s (State.mgtWrAll s i vs) := by
  unfold State.mgtWrAll
  repeat' first
    | with_reducible assumption
    | with_reducible apply Keeps.refl
    | with_reducible apply Keeps.ite
    | (apply Keeps.step; with_reducible apply State.mgtWrite_keeps)
    | (apply Keeps.step; with_reducible apply State.mgtFrame_keeps)
    | (with_reducible apply Keeps.forEach; intro _ _ _)
    | (with_reducible apply Keeps.foldl_fst; intro _ _ _)
    | (with_reducible apply Keeps.foldl_snd; intro _ _ _)
    | (with_reducible apply Keeps.foldl; intro _ _ _)
    | decide +kernel
    | exact sub_flt _ (by decide +kernel)
    | exact sub_eng _ (by decide +kernel)
    | exact sub_hk _ (by decide +kernel)
    | exact sub_port _ _ (by decide +kernel)
    | exact sub_win _ (by decide +kernel)
    | exact sub_any _ (by decide +kernel)
    | split
    | refine Keeps.upd ?_

theorem State.mgtRdLo_keeps (s : State) (i : Nat) :
    Keeps (foot [.anyReg, .win .lnk, .recTick, .tm, .bar, .faults, .cou, .bru, .nul, .var, .evt, .lnk, .mgt, .free, .winAddrs, .srcs]) s (State.mgtRdLo s i) := by
  unfold State.mgtRdLo
  repeat' first
    | with_reducible assumption
    | with_reducible apply Keeps.refl
    | with_reducible apply Keeps.ite
    | (apply Keeps.step; with_reducible apply State.mgtRun_keeps)
    | (apply Keeps.step; with_reducible apply State.mgtFrame_keeps)
    | (with_reducible apply Keeps.forEach; intro _ _ _)
    | (with_reducible apply Keeps.foldl_fst; intro _ _ _)
    | (with_reducible apply Keeps.foldl_snd; intro _ _ _)
    | (with_reducible apply Keeps.foldl; intro _ _ _)
    | decide +kernel
    | exact sub_flt _ (by decide +kernel)
    | exact sub_eng _ (by decide +kernel)
    | exact sub_hk _ (by decide +kernel)
    | exact sub_port _ _ (by decide +kernel)
    | exact sub_win _ (by decide +kernel)
    | exact sub_any _ (by decide +kernel)
    | split

theorem State.mgtTimeout_keeps (s : State) :
    Keeps (foot [.anyReg, .win .lnk, .recTick, .tm, .bar, .faults, .cou, .bru, .nul, .var, .evt, .lnk, .mgt, .free, .winAddrs, .srcs]) s (State.mgtTimeout s) := by
  unfold State.mgtTimeout
  repeat' first
    | with_reducible assumption
    | with_reducible apply Keeps.refl
    | with_reducible apply Keeps.ite
    | (apply Keeps.step; with_reducible apply State.mgtValue_keeps)
    | (apply Keeps.step; with_reducible apply State.mgtRaise_keeps)
    | (apply Keeps.step; with_reducible apply State.inc_keeps)
    | (apply Keeps.step; with_reducible apply State.setBit_keeps)
    | (with_reducible apply Keeps.forEach; intro _ _ _)
    | (with_reducible apply Keeps.foldl_fst; intro _ _ _)
    | (with_reducible apply Keeps.foldl_snd; intro _ _ _)
    | (with_reducible apply Keeps.foldl; intro _ _ _)
    | decide +kernel
    | exact sub_flt _ (by decide +kernel)
    | exact sub_eng _ (by decide +kernel)
    | exact sub_hk _ (by decide +kernel)
    | exact sub_port _ _ (by decide +kernel)
    | exact sub_win _ (by decide +kernel)
    | exact sub_any _ (by decide +kernel)
    | split

theorem State.mgtTick_keeps (s : State) :
    Keeps (foot [.anyReg, .anyWin, .recTick, .timers, .hostQ, .fieldQ, .held, .gap, .tm, .bar, .faults, .cou, .bru, .pal, .pwr, .col, .nul, .var, .str, .evt, .lnk, .hka, .hkb, .refOnAt] ||| foot [.cal, .mgt, .cfg, .flash, .free, .winAddrs, .srcs]) s (State.mgtTick s) := by
  unfold State.mgtTick
  extract_lets a1 a2
  have ha1 : Keeps (foot [.anyReg, .anyWin, .recTick, .timers, .hostQ, .fieldQ, .held, .gap, .tm, .bar, .faults, .cou, .bru, .pal, .pwr, .col, .nul, .var, .str, .evt, .lnk, .hka, .hkb, .refOnAt] ||| foot [.cal, .mgt, .cfg, .flash, .free, .winAddrs, .srcs]) s a1 := by
    unfold a1
    repeat' first
      | with_reducible assumption
      | with_reducible apply Keeps.refl
      | with_reducible apply Keeps.ite
      | (apply Keeps.step; with_reducible apply State.mgtDrain_keeps)
      | (apply Keeps.step; with_reducible apply State.mgtTimeout_keeps)
      | (apply Keeps.step; with_reducible apply State.sendRead_keeps)
      | (apply Keeps.step; with_reducible apply State.mgtRun_keeps)
      | (with_reducible apply Keeps.forEach; intro _ _ _)
      | (with_reducible apply Keeps.foldl_fst; intro _ _ _)
      | (with_reducible apply Keeps.foldl_snd; intro _ _ _)
      | (with_reducible apply Keeps.foldl; intro _ _ _)
      | decide +kernel
      | exact sub_flt _ (by decide +kernel)
      | exact sub_eng _ (by decide +kernel)
      | exact sub_hk _ (by decide +kernel)
      | exact sub_port _ _ (by decide +kernel)
      | exact sub_win _ (by decide +kernel)
      | exact sub_any _ (by decide +kernel)
      | split
      | refine Keeps.upd ?_
  try clear_value a1
  try clear_value a2
  repeat' first
    | with_reducible assumption
    | with_reducible apply Keeps.refl
    | with_reducible apply Keeps.ite
    | (apply Keeps.step; with_reducible apply State.mgtDrain_keeps)
    | (apply Keeps.step; with_reducible apply State.mgtTimeout_keeps)
    | (apply Keeps.step; with_reducible apply State.sendRead_keeps)
    | (apply Keeps.step; with_reducible apply State.mgtRun_keeps)
    | (with_reducible apply Keeps.forEach; intro _ _ _)
    | (with_reducible apply Keeps.foldl_fst; intro _ _ _)
    | (with_reducible apply Keeps.foldl_snd; intro _ _ _)
    | (with_reducible apply Keeps.foldl; intro _ _ _)
    | decide +kernel
    | exact sub_flt _ (by decide +kernel)
    | exact sub_eng _ (by decide +kernel)
    | exact sub_hk _ (by decide +kernel)
    | exact sub_port _ _ (by decide +kernel)
    | exact sub_win _ (by decide +kernel)
    | exact sub_any _ (by decide +kernel)
    | split
    | refine Keeps.upd ?_

theorem State.mgtRd_keeps (s : State) (i : Nat) (n : Nat) :
    Keeps (foot [.anyReg, .win .lnk, .recTick, .tm, .bar, .faults, .cou, .bru, .nul, .var, .evt, .lnk, .mgt, .free, .winAddrs, .srcs]) s (State.mgtRd s i n) := by
  unfold State.mgtRd
  repeat' first
    | with_reducible assumption
    | with_reducible apply Keeps.refl
    | with_reducible apply Keeps.ite
    | (apply Keeps.step; with_reducible apply State.mgtFrame_keeps)
    | (apply Keeps.step; with_reducible apply State.mgtRun_keeps)
    | (with_reducible apply Keeps.forEach; intro _ _ _)
    | (with_reducible apply Keeps.foldl_fst; intro _ _ _)
    | (with_reducible apply Keeps.foldl_snd; intro _ _ _)
    | (with_reducible apply Keeps.foldl; intro _ _ _)
    | decide +kernel
    | exact sub_flt _ (by decide +kernel)
    | exact sub_eng _ (by decide +kernel)
    | exact sub_hk _ (by decide +kernel)
    | exact sub_port _ _ (by decide +kernel)
    | exact sub_win _ (by decide +kernel)
    | exact sub_any _ (by decide +kernel)
    | split

theorem State.mgtAnswer_keeps (s : State) (i : Nat) (v : Word) (status : Nat) :
    Keeps (foot [.anyReg, .win .lnk, .recTick, .tm, .bar, .faults, .cou, .bru, .nul, .var, .evt, .lnk, .mgt, .free, .winAddrs, .srcs]) s (State.mgtAnswer s i v status) := by
  unfold State.mgtAnswer
  repeat' first
    | with_reducible assumption
    | with_reducible apply Keeps.refl
    | with_reducible apply Keeps.ite
    | (apply Keeps.step; with_reducible apply State.mgtValue_keeps)
    | (apply Keeps.step; with_reducible apply State.setBit_keeps)
    | (with_reducible apply Keeps.forEach; intro _ _ _)
    | (with_reducible apply Keeps.foldl_fst; intro _ _ _)
    | (with_reducible apply Keeps.foldl_snd; intro _ _ _)
    | (with_reducible apply Keeps.foldl; intro _ _ _)
    | decide +kernel
    | exact sub_flt _ (by decide +kernel)
    | exact sub_eng _ (by decide +kernel)
    | exact sub_hk _ (by decide +kernel)
    | exact sub_port _ _ (by decide +kernel)
    | exact sub_win _ (by decide +kernel)
    | exact sub_any _ (by decide +kernel)
    | split

theorem State.mgtAbsent_keeps (s : State) :
    Keeps (foot [.anyReg, .win .lnk, .recTick, .tm, .bar, .faults, .cou, .bru, .nul, .var, .evt, .lnk, .mgt, .free, .winAddrs, .srcs]) s (State.mgtAbsent s) := by
  unfold State.mgtAbsent
  extract_lets a1
  have ha1 : Keeps (foot [.anyReg, .win .lnk, .recTick, .tm, .bar, .faults, .cou, .bru, .nul, .var, .evt, .lnk, .mgt, .free, .winAddrs, .srcs]) s a1 := by
    unfold a1
    repeat' first
      | with_reducible assumption
      | with_reducible apply Keeps.refl
      | with_reducible apply Keeps.ite
      | (apply Keeps.step; with_reducible apply State.setBit_keeps)
      | (apply Keeps.step; with_reducible apply State.mgtValue_keeps)
      | (apply Keeps.step; with_reducible apply State.inc_keeps)
      | (with_reducible apply Keeps.forEach; intro _ _ _)
      | (with_reducible apply Keeps.foldl_fst; intro _ _ _)
      | (with_reducible apply Keeps.foldl_snd; intro _ _ _)
      | (with_reducible apply Keeps.foldl; intro _ _ _)
      | decide +kernel
      | exact sub_flt _ (by decide +kernel)
      | exact sub_eng _ (by decide +kernel)
      | exact sub_hk _ (by decide +kernel)
      | exact sub_port _ _ (by decide +kernel)
      | exact sub_win _ (by decide +kernel)
      | exact sub_any _ (by decide +kernel)
      | split
  try clear_value a1
  repeat' first
    | with_reducible assumption
    | with_reducible apply Keeps.refl
    | with_reducible apply Keeps.ite
    | (apply Keeps.step; with_reducible apply State.setBit_keeps)
    | (apply Keeps.step; with_reducible apply State.mgtValue_keeps)
    | (apply Keeps.step; with_reducible apply State.inc_keeps)
    | (with_reducible apply Keeps.forEach; intro _ _ _)
    | (with_reducible apply Keeps.foldl_fst; intro _ _ _)
    | (with_reducible apply Keeps.foldl_snd; intro _ _ _)
    | (with_reducible apply Keeps.foldl; intro _ _ _)
    | decide +kernel
    | exact sub_flt _ (by decide +kernel)
    | exact sub_eng _ (by decide +kernel)
    | exact sub_hk _ (by decide +kernel)
    | exact sub_port _ _ (by decide +kernel)
    | exact sub_win _ (by decide +kernel)
    | exact sub_any _ (by decide +kernel)
    | split

theorem State.mgtRdHi_keeps (s : State) (i : Nat) :
    Keeps (foot [.anyReg, .win .lnk, .recTick, .tm, .bar, .faults, .cou, .bru, .nul, .var, .evt, .lnk, .mgt, .free, .winAddrs, .srcs]) s (State.mgtRdHi s i) := by
  unfold State.mgtRdHi
  extract_lets a1
  have ha1 : Keeps (foot [.anyReg, .win .lnk, .recTick, .tm, .bar, .faults, .cou, .bru, .nul, .var, .evt, .lnk, .mgt, .free, .winAddrs, .srcs]) s a1 := by
    unfold a1
    repeat' first
      | with_reducible assumption
      | with_reducible apply Keeps.refl
      | with_reducible apply Keeps.ite
      | (apply Keeps.step; with_reducible apply State.mgtFrame_keeps)
      | (apply Keeps.step; with_reducible apply State.mgtHigh_keeps)
      | (apply Keeps.step; with_reducible apply State.mgtRun_keeps)
      | (with_reducible apply Keeps.forEach; intro _ _ _)
      | (with_reducible apply Keeps.foldl_fst; intro _ _ _)
      | (with_reducible apply Keeps.foldl_snd; intro _ _ _)
      | (with_reducible apply Keeps.foldl; intro _ _ _)
      | decide +kernel
      | exact sub_flt _ (by decide +kernel)
      | exact sub_eng _ (by decide +kernel)
      | exact sub_hk _ (by decide +kernel)
      | exact sub_port _ _ (by decide +kernel)
      | exact sub_win _ (by decide +kernel)
      | exact sub_any _ (by decide +kernel)
      | split
  try clear_value a1
  repeat' first
    | with_reducible assumption
    | with_reducible apply Keeps.refl
    | with_reducible apply Keeps.ite
    | (apply Keeps.step; with_reducible apply State.mgtFrame_keeps)
    | (apply Keeps.step; with_reducible apply State.mgtHigh_keeps)
    | (apply Keeps.step; with_reducible apply State.mgtRun_keeps)
    | (with_reducible apply Keeps.forEach; intro _ _ _)
    | (with_reducible apply Keeps.foldl_fst; intro _ _ _)
    | (with_reducible apply Keeps.foldl_snd; intro _ _ _)
    | (with_reducible apply Keeps.foldl; intro _ _ _)
    | decide +kernel
    | exact sub_flt _ (by decide +kernel)
    | exact sub_eng _ (by decide +kernel)
    | exact sub_hk _ (by decide +kernel)
    | exact sub_port _ _ (by decide +kernel)
    | exact sub_win _ (by decide +kernel)
    | exact sub_any _ (by decide +kernel)
    | split

theorem State.mgtPair_keeps (s : State) (i : Nat) (h : BitVec 16) :
    Keeps (foot [.anyReg, .anyWin, .recTick, .timers, .hostQ, .fieldQ, .held, .gap, .bar, .faults, .cou, .bru, .pal, .pwr, .col, .nul, .var, .str, .evt, .lnk, .hka, .hkb, .refOnAt, .cal] ||| foot [.mgt, .cfg, .flash, .free, .winAddrs, .srcs]) s (State.mgtPair s i h) := by
  unfold State.mgtPair
  extract_lets a1
  try clear_value a1
  repeat' first
    | with_reducible assumption
    | with_reducible apply Keeps.refl
    | with_reducible apply Keeps.ite
    | (apply Keeps.step; with_reducible apply State.mgtWrite_keeps)
    | (apply Keeps.step; with_reducible apply State.setBit_keeps)
    | (with_reducible apply Keeps.forEach; intro _ _ _)
    | (with_reducible apply Keeps.foldl_fst; intro _ _ _)
    | (with_reducible apply Keeps.foldl_snd; intro _ _ _)
    | (with_reducible apply Keeps.foldl; intro _ _ _)
    | decide +kernel
    | exact sub_flt _ (by decide +kernel)
    | exact sub_eng _ (by decide +kernel)
    | exact sub_hk _ (by decide +kernel)
    | exact sub_port _ _ (by decide +kernel)
    | exact sub_win _ (by decide +kernel)
    | exact sub_any _ (by decide +kernel)
    | split
    | refine Keeps.upd ?_

theorem State.mgtWrHi_keeps (s : State) (i : Nat) (h : BitVec 16) :
    Keeps (foot [.anyReg, .anyWin, .recTick, .timers, .hostQ, .fieldQ, .held, .gap, .bar, .faults, .cou, .bru, .pal, .pwr, .col, .nul, .var, .str, .evt, .lnk, .hka, .hkb, .refOnAt, .cal] ||| foot [.mgt, .cfg, .flash, .free, .winAddrs, .srcs]) s (State.mgtWrHi s i h) := by
  unfold State.mgtWrHi
  repeat' first
    | with_reducible assumption
    | with_reducible apply Keeps.refl
    | with_reducible apply Keeps.ite
    | (apply Keeps.step; with_reducible apply State.mgtPair_keeps)
    | (apply Keeps.step; with_reducible apply State.mgtFrame_keeps)
    | (with_reducible apply Keeps.forEach; intro _ _ _)
    | (with_reducible apply Keeps.foldl_fst; intro _ _ _)
    | (with_reducible apply Keeps.foldl_snd; intro _ _ _)
    | (with_reducible apply Keeps.foldl; intro _ _ _)
    | decide +kernel
    | exact sub_flt _ (by decide +kernel)
    | exact sub_eng _ (by decide +kernel)
    | exact sub_hk _ (by decide +kernel)
    | exact sub_port _ _ (by decide +kernel)
    | exact sub_win _ (by decide +kernel)
    | exact sub_any _ (by decide +kernel)
    | split

theorem State.mgtWrLo_keeps (s : State) (i : Nat) (h : BitVec 16) :
    Keeps (foot [.reg GLB_DETERMINISM, .reg LNK_DEADLETTER_COUNT, .reg MGT_STATUS, .reg (ENG_STATUS 0x600), .reg (ENG_STATUS 0x1B00), .flt, .win .lnk, .recTick, .bar, .faults, .cou, .bru, .lnk, .mgt, .free, .srcs]) s (State.mgtWrLo s i h) := by
  unfold State.mgtWrLo
  extract_lets a1 a2
  have ha1 : Keeps (foot [.reg GLB_DETERMINISM, .reg LNK_DEADLETTER_COUNT, .reg MGT_STATUS, .reg (ENG_STATUS 0x600), .reg (ENG_STATUS 0x1B00), .flt, .win .lnk, .recTick, .bar, .faults, .cou, .bru, .lnk, .mgt, .free, .srcs]) s a1 := by
    unfold a1
    repeat' first
      | with_reducible assumption
      | with_reducible apply Keeps.refl
      | with_reducible apply Keeps.ite
      | (apply Keeps.step; with_reducible apply State.mgtFrame_keeps)
      | (with_reducible apply Keeps.forEach; intro _ _ _)
      | (with_reducible apply Keeps.foldl_fst; intro _ _ _)
      | (with_reducible apply Keeps.foldl_snd; intro _ _ _)
      | (with_reducible apply Keeps.foldl; intro _ _ _)
      | decide +kernel
      | exact sub_flt _ (by decide +kernel)
      | exact sub_eng _ (by decide +kernel)
      | exact sub_hk _ (by decide +kernel)
      | exact sub_port _ _ (by decide +kernel)
      | exact sub_win _ (by decide +kernel)
      | exact sub_any _ (by decide +kernel)
      | split
      | refine Keeps.upd ?_
  try clear_value a1
  try clear_value a2
  repeat' first
    | with_reducible assumption
    | with_reducible apply Keeps.refl
    | with_reducible apply Keeps.ite
    | (apply Keeps.step; with_reducible apply State.mgtFrame_keeps)
    | (with_reducible apply Keeps.forEach; intro _ _ _)
    | (with_reducible apply Keeps.foldl_fst; intro _ _ _)
    | (with_reducible apply Keeps.foldl_snd; intro _ _ _)
    | (with_reducible apply Keeps.foldl; intro _ _ _)
    | decide +kernel
    | exact sub_flt _ (by decide +kernel)
    | exact sub_eng _ (by decide +kernel)
    | exact sub_hk _ (by decide +kernel)
    | exact sub_port _ _ (by decide +kernel)
    | exact sub_win _ (by decide +kernel)
    | exact sub_any _ (by decide +kernel)
    | split
    | refine Keeps.upd ?_

theorem State.mgtBad_keeps (s : State) (code : Nat) :
    Keeps (foot [.reg GLB_DETERMINISM, .reg LNK_DEADLETTER_COUNT, .reg MGT_STATUS, .reg (ENG_STATUS 0x600), .reg (ENG_STATUS 0x1B00), .flt, .win .lnk, .recTick, .bar, .faults, .cou, .bru, .lnk, .mgt, .free, .srcs]) s (State.mgtBad s code) := by
  unfold State.mgtBad
  repeat' first
    | with_reducible assumption
    | with_reducible apply Keeps.refl
    | with_reducible apply Keeps.ite
    | (apply Keeps.step; with_reducible apply State.mgtRaise_keeps)
    | (apply Keeps.step; with_reducible apply State.setBit_keeps)
    | (apply Keeps.step; with_reducible apply State.mgtFrame_keeps)
    | (with_reducible apply Keeps.forEach; intro _ _ _)
    | (with_reducible apply Keeps.foldl_fst; intro _ _ _)
    | (with_reducible apply Keeps.foldl_snd; intro _ _ _)
    | (with_reducible apply Keeps.foldl; intro _ _ _)
    | decide +kernel
    | exact sub_flt _ (by decide +kernel)
    | exact sub_eng _ (by decide +kernel)
    | exact sub_hk _ (by decide +kernel)
    | exact sub_port _ _ (by decide +kernel)
    | exact sub_win _ (by decide +kernel)
    | exact sub_any _ (by decide +kernel)
    | split

end Sys2Proof.Machine
end

