-- ==== Sys2Proof/Laws/KeepsImage.lean ====
section
/-!
SUPPORT. Footprints of the operations of Machine/Image.lean: which parts of a state each can change.
-/
set_option Elab.async false
set_option linter.unusedTactic false
set_option linter.unreachableTactic false
namespace Sys2Proof.Machine

theorem State.loadWord_keeps (s : State) (b : Blk) (a : Nat) (w : W24) :
    Keeps (foot [.reg GLB_DETERMINISM, .reg LNK_SCHED_SEL, .reg LNK_DEADLETTER_COUNT, .reg (ENG_STATUS 0x600), .reg PAL_STATUS, .reg ROW_MAP_STATUS, .reg ROW_SPARE_CTRL, .reg COL_MAP_STATUS, .reg COL_ROVER_STATUS, .reg NUL_PRIMER_CTRL, .reg VAR_CTRL, .reg (ENG_STATUS 0x1B00), .flt, .anyWin, .recTick, .bar, .faults, .cou, .bru, .pal, .col, .nul, .var, .evt] ||| foot [.lnk, .free, .srcs]) s (State.loadWord s b a w) := by
  unfold State.loadWord
  extract_lets a1
  try clear_value a1
  repeat' first
    | with_reducible assumption
    | with_reducible apply Keeps.refl
    | with_reducible apply Keeps.ite
    | (apply Keeps.step; with_reducible apply State.setWinN_keeps)
    | (apply Keeps.step; with_reducible apply State.setWin_keeps)
    | (apply Keeps.step; with_reducible apply State.winWrite_keeps)
    | (with_reducible apply Keeps.forEach; intro _ _ _)
    | (with_reducible apply Keeps.foldl_fst; intro _ _ _)
    | (with_reducible apply Keeps.foldl_snd; intro _ _ _)
    | (with_reducible apply Keeps.foldl; intro _ _ _)
    | decide +kernel
    | exact sub_flt _ (by decide +kernel)
    | exact sub_eng _ (by decide +kernel)
    | exact sub_hk _ (by decide +kernel)
    | exact sub_port _ _ (by decide +kernel)
    | exact sub_win _ (by decide +kernel)
    | exact sub_any _ (by decide +kernel)
    | split

theorem State.loadWords_keeps (s : State) (b : Blk) (a : Nat) (ws : List W24) :
    Keeps (foot [.reg GLB_DETERMINISM, .reg LNK_SCHED_SEL, .reg LNK_DEADLETTER_COUNT, .reg (ENG_STATUS 0x600), .reg PAL_STATUS, .reg ROW_MAP_STATUS, .reg ROW_SPARE_CTRL, .reg COL_MAP_STATUS, .reg COL_ROVER_STATUS, .reg NUL_PRIMER_CTRL, .reg VAR_CTRL, .reg (ENG_STATUS 0x1B00), .flt, .anyWin, .recTick, .bar, .faults, .cou, .bru, .pal, .col, .nul, .var, .evt] ||| foot [.lnk, .free, .srcs]) s (s.loadWords b a ws) := by
  induction ws generalizing s a with
  | nil => exact Keeps.refl _ _
  | cons w ws ih =>
    unfold State.loadWords
    repeat' first
      | with_reducible assumption
      | with_reducible apply Keeps.refl
      | refine Keeps.trans ?_ (ih _ _)
      | with_reducible apply Keeps.ite
      | (apply Keeps.step; with_reducible apply State.loadWord_keeps)
      | (with_reducible apply Keeps.forEach; intro _ _ _)
      | (with_reducible apply Keeps.foldl_fst; intro _ _ _)
      | (with_reducible apply Keeps.foldl_snd; intro _ _ _)
      | (with_reducible apply Keeps.foldl; intro _ _ _)
      | decide +kernel
      | exact sub_flt _ (by decide +kernel)
      | exact sub_eng _ (by decide +kernel)
      | exact sub_hk _ (by decide +kernel)
      | exact sub_port _ _ (by decide +kernel)
      | exact sub_win _ (by decide +kernel)
      | exact sub_any _ (by decide +kernel)
      | split

theorem State.loadBody_keeps (s : State) (x : Sect) :
    Keeps (foot [.win .nul, .win .var]) s (State.loadBody s x) := by
  unfold State.loadBody
  repeat' first
    | with_reducible assumption
    | with_reducible apply Keeps.refl
    | with_reducible apply Keeps.ite
    | (apply Keeps.step; with_reducible apply State.setWin_keeps)
    | (with_reducible apply Keeps.forEach; intro _ _ _)
    | (with_reducible apply Keeps.foldl_fst; intro _ _ _)
    | (with_reducible apply Keeps.foldl_snd; intro _ _ _)
    | (with_reducible apply Keeps.foldl; intro _ _ _)
    | decide +kernel
    | exact sub_flt _ (by decide +kernel)
    | exact sub_eng _ (by decide +kernel)
    | exact sub_hk _ (by decide +kernel)
    | exact sub_port _ _ (by decide +kernel)
    | exact sub_win _ (by decide +kernel)
    | exact sub_any _ (by decide +kernel)
    | split

theorem State.loadOption_keeps (s : State) (code : Nat) (v : Nat) :
    Keeps (foot [.cfg]) s (State.loadOption s code v) := by
  unfold State.loadOption
  extract_lets a1
  repeat' first
    | with_reducible assumption
    | with_reducible apply Keeps.refl
    | with_reducible apply Keeps.ite
    | (with_reducible apply Keeps.forEach; intro _ _ _)
    | (with_reducible apply Keeps.foldl_fst; intro _ _ _)
    | (with_reducible apply Keeps.foldl_snd; intro _ _ _)
    | (with_reducible apply Keeps.foldl; intro _ _ _)
    | split
    | refine Keeps.upd ?_

theorem State.loadReg_keeps (s : State) (i : Nat) (v : Word) :
    Keeps (foot [.anyReg, .anyWin, .recTick, .timers, .hostQ, .fieldQ, .gap, .bar, .faults, .cou, .bru, .pal, .pwr, .col, .nul, .var, .str, .evt, .lnk, .hka, .hkb, .refOnAt, .cal, .mgt] ||| foot [.cfg, .flash, .free, .winAddrs, .srcs]) s (State.loadReg s i v) := by
  unfold State.loadReg
  extract_lets a1 a2 a3 a4 a5 a6
  try clear_value a1
  try clear_value a2
  have ha3 : Keeps (foot [.anyReg, .anyWin, .recTick, .timers, .hostQ, .fieldQ, .gap, .bar, .faults, .cou, .bru, .pal, .pwr, .col, .nul, .var, .str, .evt, .lnk, .hka, .hkb, .refOnAt, .cal, .mgt] ||| foot [.cfg, .flash, .free, .winAddrs, .srcs]) s a3 := by
    unfold a3
    repeat' first
      | with_reducible assumption
      | with_reducible apply Keeps.refl
      | with_reducible apply Keeps.ite
      | (apply Keeps.step; with_reducible apply State.setFld_keeps)
      | (apply Keeps.step; with_reducible apply State.setReg_keeps)
      | (apply Keeps.step; with_reducible apply State.storeRw_keeps)
      | (apply Keeps.step; with_reducible apply State.applyWhole_keeps)
      | (apply Keeps.step; with_reducible apply State.seeIrq_keeps)
      | (with_reducible apply Keeps.forEach; intro _ _ _)
      | (with_reducible apply Keeps.foldl_fst; intro _ _ _)
      | (with_reducible apply Keeps.foldl_snd; intro _ _ _)
      | (with_reducible apply Keeps.foldl; intro _ _ _)
      | decide +kernel
      | exact sub_flt _ (by decide +kernel)
      | exact sub_eng _ (by decide +kernel)
      | exact sub_hk _ (by decide +kernel)
      | exact sub_port _ _ (by decide +kernel)
      | exact sub_win _ (by decide +kernel)
      | exact sub_any _ (by decide +kernel)
      | split
      | refine Keeps.upd ?_
  try clear_value a3
  try clear_value a4
  have ha5 : Keeps (foot [.anyReg, .anyWin, .recTick, .timers, .hostQ, .fieldQ, .gap, .bar, .faults, .cou, .bru, .pal, .pwr, .col, .nul, .var, .str, .evt, .lnk, .hka, .hkb, .refOnAt, .cal, .mgt] ||| foot [.cfg, .flash, .free, .winAddrs, .srcs]) s a5 := by
    unfold a5
    repeat' first
      | with_reducible assumption
      | with_reducible apply Keeps.refl
      | with_reducible apply Keeps.ite
      | (apply Keeps.step; with_reducible apply State.setFld_keeps)
      | (apply Keeps.step; with_reducible apply State.setReg_keeps)
      | (apply Keeps.step; with_reducible apply State.storeRw_keeps)
      | (apply Keeps.step; with_reducible apply State.applyWhole_keeps)
      | (apply Keeps.step; with_reducible apply State.seeIrq_keeps)
      | (with_reducible apply Keeps.forEach; intro _ _ _)
      | (with_reducible apply Keeps.foldl_fst; intro _ _ _)
      | (with_reducible apply Keeps.foldl_snd; intro _ _ _)
      | (with_reducible apply Keeps.foldl; intro _ _ _)
      | decide +kernel
      | exact sub_flt _ (by decide +kernel)
      | exact sub_eng _ (by decide +kernel)
      | exact sub_hk _ (by decide +kernel)
      | exact sub_port _ _ (by decide +kernel)
      | exact sub_win _ (by decide +kernel)
      | exact sub_any _ (by decide +kernel)
      | split
      | refine Keeps.upd ?_
  try clear_value a5
  try clear_value a6
  repeat' first
    | with_reducible assumption
    | with_reducible apply Keeps.refl
    | with_reducible apply Keeps.ite
    | (apply Keeps.step; with_reducible apply State.setFld_keeps)
    | (apply Keeps.step; with_reducible apply State.setReg_keeps)
    | (apply Keeps.step; with_reducible apply State.storeRw_keeps)
    | (apply Keeps.step; with_reducible apply State.applyWhole_keeps)
    | (apply Keeps.step; with_reducible apply State.seeIrq_keeps)
    | (with_reducible apply Keeps.forEach; intro _ _ _)
    | (with_reducible apply Keeps.foldl_fst; intro _ _ _)
    | (with_reducible apply Keeps.foldl_snd; intro _ _ _)
    | (with_reducible apply Keeps.foldl; intro _ _ _)
    | decide +kernel
    | exact sub_flt _ (by decide +kernel)
    | exact sub_eng _ (by decide +kernel)
    | exact sub_hk _ (by decide +kernel)
    | exact sub_port _ _ (by decide +kernel)
    | exact sub_win _ (by decide +kernel)
    | exact sub_any _ (by decide +kernel)
    | split
    | refine Keeps.upd ?_

theorem State.loadItem_keeps (s : State) (x : Item) :
    Keeps (foot [.anyReg, .anyWin, .recTick, .timers, .hostQ, .fieldQ, .gap, .bar, .faults, .cou, .bru, .pal, .pwr, .col, .nul, .var, .str, .evt, .lnk, .hka, .hkb, .refOnAt, .cal, .mgt] ||| foot [.cfg, .flash, .free, .winAddrs, .srcs]) s (State.loadItem s x) := by
  unfold State.loadItem
  repeat' first
    | with_reducible assumption
    | with_reducible apply Keeps.refl
    | with_reducible apply Keeps.ite
    | (apply Keeps.step; with_reducible apply State.loadReg_keeps)
    | (apply Keeps.step; with_reducible apply State.setWinAddr_keeps)
    | (apply Keeps.step; with_reducible apply State.loadWords_keeps)
    | (apply Keeps.step; with_reducible apply State.loadOption_keeps)
    | (with_reducible apply Keeps.forEach; intro _ _ _)
    | (with_reducible apply Keeps.foldl_fst; intro _ _ _)
    | (with_reducible apply Keeps.foldl_snd; intro _ _ _)
    | (with_reducible apply Keeps.foldl; intro _ _ _)
    | decide +kernel
    | exact sub_flt _ (by decide +kernel)
    | exact sub_eng _ (by decide +kernel)
    | exact sub_hk _ (by decide +kernel)
    | exact sub_port _ _ (by decide +kernel)
    | exact sub_win _ (by decide +kernel)
    | exact sub_any _ (by decide +kernel)
    | split

theorem State.loadSect_keeps (s : State) (field : Bool) (x : Sect) :
    Keeps (foot [.anyReg, .anyWin, .recTick, .timers, .hostQ, .fieldQ, .gap, .bar, .faults, .cou, .bru, .pal, .pwr, .col, .nul, .var, .str, .evt, .lnk, .hka, .hkb, .refOnAt, .cal, .mgt] ||| foot [.cfg, .flash, .free, .winAddrs, .srcs]) s (State.loadSect s field x) := by
  unfold State.loadSect
  extract_lets a1 a2
  try clear_value a1
  have ha2 : Keeps (foot [.anyReg, .anyWin, .recTick, .timers, .hostQ, .fieldQ, .gap, .bar, .faults, .cou, .bru, .pal, .pwr, .col, .nul, .var, .str, .evt, .lnk, .hka, .hkb, .refOnAt, .cal, .mgt] ||| foot [.cfg, .flash, .free, .winAddrs, .srcs]) s a2 := by
    unfold a2
    repeat' first
      | with_reducible assumption
      | with_reducible apply Keeps.refl
      | with_reducible apply Keeps.ite
      | (apply Keeps.step; with_reducible apply State.loadItem_keeps)
      | (apply Keeps.step; with_reducible apply State.loadBody_keeps)
      | (with_reducible apply Keeps.forEach; intro _ _ _)
      | (with_reducible apply Keeps.foldl_fst; intro _ _ _)
      | (with_reducible apply Keeps.foldl_snd; intro _ _ _)
      | (with_reducible apply Keeps.foldl; intro _ _ _)
      | decide +kernel
      | exact sub_flt _ (by decide +kernel)
      | exact sub_eng _ (by decide +kernel)
      | exact sub_hk _ (by decide +kernel)
      | exact sub_port _ _ (by decide +kernel)
      | exact sub_win _ (by decide +kernel)
      | exact sub_any _ (by decide +kernel)
      | split
  try clear_value a2
  repeat' first
    | with_reducible assumption
    | with_reducible apply Keeps.refl
    | with_reducible apply Keeps.ite
    | (apply Keeps.step; with_reducible apply State.loadItem_keeps)
    | (apply Keeps.step; with_reducible apply State.loadBody_keeps)
    | (with_reducible apply Keeps.forEach; intro _ _ _)
    | (with_reducible apply Keeps.foldl_fst; intro _ _ _)
    | (with_reducible apply Keeps.foldl_snd; intro _ _ _)
    | (with_reducible apply Keeps.foldl; intro _ _ _)
    | decide +kernel
    | exact sub_flt _ (by decide +kernel)
    | exact sub_eng _ (by decide +kernel)
    | exact sub_hk _ (by decide +kernel)
    | exact sub_port _ _ (by decide +kernel)
    | exact sub_win _ (by decide +kernel)
    | exact sub_any _ (by decide +kernel)
    | split

end Sys2Proof.Machine
end

