-- ==== Sys2Proof/Laws/KeepsTick.lean ====
section
/-!
SUPPORT. Footprints of the operations of Machine/Tick.lean: which parts of a state each can change.
-/
set_option Elab.async false
set_option linter.unusedTactic false
set_option linter.unreachableTactic false
namespace Sys2Proof.Machine

theorem State.calTick_keeps (s : State) :
    Keeps (foot [.reg GLB_DETERMINISM, .reg LNK_DEADLETTER_COUNT, .reg (ENG_STATUS 0x600), .reg COL_ROVER_STATUS, .reg COL_ROVER_MISMATCH, .reg (HKx_CTRL 0x1700), .reg (HKx_STATUS 0x1700), .reg (HKx_OVERRUN_COUNT 0x1700), .reg (HKx_CTRL 0x1800), .reg (HKx_STATUS 0x1800), .reg (HKx_OVERRUN_COUNT 0x1800), .reg HKS_EXC_STATUS, .reg CAL_STATUS, .reg CAL_DEFER_COUNT, .reg CAL_TRACE_STATUS, .reg (ENG_STATUS 0x1B00), .flt, .win .lnk, .win .nul, .win .cal, .recTick, .bar, .faults, .cou] ||| foot [.bru, .col, .nul, .lnk, .hka, .hkb, .cal, .free, .srcs]) s (State.calTick s) := by
  unfold State.calTick
  extract_lets a1 a2 a3
  have ha1 : Keeps (foot [.reg GLB_DETERMINISM, .reg LNK_DEADLETTER_COUNT, .reg (ENG_STATUS 0x600), .reg COL_ROVER_STATUS, .reg COL_ROVER_MISMATCH, .reg (HKx_CTRL 0x1700), .reg (HKx_STATUS 0x1700), .reg (HKx_OVERRUN_COUNT 0x1700), .reg (HKx_CTRL 0x1800), .reg (HKx_STATUS 0x1800), .reg (HKx_OVERRUN_COUNT 0x1800), .reg HKS_EXC_STATUS, .reg CAL_STATUS, .reg CAL_DEFER_COUNT, .reg CAL_TRACE_STATUS, .reg (ENG_STATUS 0x1B00), .flt, .win .lnk, .win .nul, .win .cal, .recTick, .bar, .faults, .cou] ||| foot [.bru, .col, .nul, .lnk, .hka, .hkb, .cal, .free, .srcs]) s a1 := by
    unfold a1
    repeat' first
      | with_reducible assumption
      | with_reducible apply Keeps.refl
      | with_reducible apply Keeps.ite
      | (apply Keeps.step; with_reducible apply State.calDone_keeps)
      | (apply Keeps.step; with_reducible apply State.releaseAway_keeps)
      | (apply Keeps.step; with_reducible apply State.calSheet_keeps)
      | (apply Keeps.step; with_reducible apply State.calDispatch_keeps)
      | (apply Keeps.step; with_reducible apply State.roverTick_keeps)
      | (apply Keeps.step; with_reducible apply State.setBit_keeps)
      | (with_reducible apply Keeps.forEach; intro _ _ _)
      | (with_reducible apply Keeps.foldl_fst; intro _ _ _)
      | (with_reducible apply Keeps.foldl_snd; intro _ _ _)
      | (with_reducible apply Keeps.foldl; intro _ _ _)
      | decide +kernel
      | exact sub_flt _ (by decide +kernel)
      | exact sub_eng _ (by decide +kernel)
      | exact sub_hk _ (by decide +kernel)
      | exact sub_port _ _ (by decide +kernel)
      | exact sub_win _ (by decide +kernel)
      | exact sub_any _ (by decide +kernel)
      | split
  try clear_value a1
  have ha2 : Keeps (foot [.reg GLB_DETERMINISM, .reg LNK_DEADLETTER_COUNT, .reg (ENG_STATUS 0x600), .reg COL_ROVER_STATUS, .reg COL_ROVER_MISMATCH, .reg (HKx_CTRL 0x1700), .reg (HKx_STATUS 0x1700), .reg (HKx_OVERRUN_COUNT 0x1700), .reg (HKx_CTRL 0x1800), .reg (HKx_STATUS 0x1800), .reg (HKx_OVERRUN_COUNT 0x1800), .reg HKS_EXC_STATUS, .reg CAL_STATUS, .reg CAL_DEFER_COUNT, .reg CAL_TRACE_STATUS, .reg (ENG_STATUS 0x1B00), .flt, .win .lnk, .win .nul, .win .cal, .recTick, .bar, .faults, .cou] ||| foot [.bru, .col, .nul, .lnk, .hka, .hkb, .cal, .free, .srcs]) s a2 := by
    unfold a2
    repeat' first
      | with_reducible assumption
      | with_reducible apply Keeps.refl
      | with_reducible apply Keeps.ite
      | (apply Keeps.step; with_reducible apply State.calDone_keeps)
      | (apply Keeps.step; with_reducible apply State.releaseAway_keeps)
      | (apply Keeps.step; with_reducible apply State.calSheet_keeps)
      | (apply Keeps.step; with_reducible apply State.calDispatch_keeps)
      | (apply Keeps.step; with_reducible apply State.roverTick_keeps)
      | (apply Keeps.step; with_reducible apply State.setBit_keeps)
      | (with_reducible apply Keeps.forEach; intro _ _ _)
      | (with_reducible apply Keeps.foldl_fst; intro _ _ _)
      | (with_reducible apply Keeps.foldl_snd; intro _ _ _)
      | (with_reducible apply Keeps.foldl; intro _ _ _)
      | decide +kernel
      | exact sub_flt _ (by decide +kernel)
      | exact sub_eng _ (by decide +kernel)
      | exact sub_hk _ (by decide +kernel)
      | exact sub_port _ _ (by decide +kernel)
      | exact sub_win _ (by decide +kernel)
      | exact sub_any _ (by decide +kernel)
      | split
  try clear_value a2
  have ha3 : Keeps (foot [.reg GLB_DETERMINISM, .reg LNK_DEADLETTER_COUNT, .reg (ENG_STATUS 0x600), .reg COL_ROVER_STATUS, .reg COL_ROVER_MISMATCH, .reg (HKx_CTRL 0x1700), .reg (HKx_STATUS 0x1700), .reg (HKx_OVERRUN_COUNT 0x1700), .reg (HKx_CTRL 0x1800), .reg (HKx_STATUS 0x1800), .reg (HKx_OVERRUN_COUNT 0x1800), .reg HKS_EXC_STATUS, .reg CAL_STATUS, .reg CAL_DEFER_COUNT, .reg CAL_TRACE_STATUS, .reg (ENG_STATUS 0x1B00), .flt, .win .lnk, .win .nul, .win .cal, .recTick, .bar, .faults, .cou] ||| foot [.bru, .col, .nul, .lnk, .hka, .hkb, .cal, .free, .srcs]) s a3 := by
    unfold a3
    repeat' first
      | with_reducible assumption
      | with_reducible apply Keeps.refl
      | with_reducible apply Keeps.ite
      | (apply Keeps.step; with_reducible apply State.calDone_keeps)
      | (apply Keeps.step; with_reducible apply State.releaseAway_keeps)
      | (apply Keeps.step; with_reducible apply State.calSheet_keeps)
      | (apply Keeps.step; with_reducible apply State.calDispatch_keeps)
      | (apply Keeps.step; with_reducible apply State.roverTick_keeps)
      | (apply Keeps.step; with_reducible apply State.setBit_keeps)
      | (with_reducible apply Keeps.forEach; intro _ _ _)
      | (with_reducible apply Keeps.foldl_fst; intro _ _ _)
      | (with_reducible apply Keeps.foldl_snd; intro _ _ _)
      | (with_reducible apply Keeps.foldl; intro _ _ _)
      | decide +kernel
      | exact sub_flt _ (by decide +kernel)
      | exact sub_eng _ (by decide +kernel)
      | exact sub_hk _ (by decide +kernel)
      | exact sub_port _ _ (by decide +kernel)
      | exact sub_win _ (by decide +kernel)
      | exact sub_any _ (by decide +kernel)
      | split
  try clear_value a3
  repeat' first
    | with_reducible assumption
    | with_reducible apply Keeps.refl
    | with_reducible apply Keeps.ite
    | (apply Keeps.step; with_reducible apply State.calDone_keeps)
    | (apply Keeps.step; with_reducible apply State.releaseAway_keeps)
    | (apply Keeps.step; with_reducible apply State.calSheet_keeps)
    | (apply Keeps.step; with_reducible apply State.calDispatch_keeps)
    | (apply Keeps.step; with_reducible apply State.roverTick_keeps)
    | (apply Keeps.step; with_reducible apply State.setBit_keeps)
    | (with_reducible apply Keeps.forEach; intro _ _ _)
    | (with_reducible apply Keeps.foldl_fst; intro _ _ _)
    | (with_reducible apply Keeps.foldl_snd; intro _ _ _)
    | (with_reducible apply Keeps.foldl; intro _ _ _)
    | decide +kernel
    | exact sub_flt _ (by decide +kernel)
    | exact sub_eng _ (by decide +kernel)
    | exact sub_hk _ (by decide +kernel)
    | exact sub_port _ _ (by decide +kernel)
    | exact sub_win _ (by decide +kernel)
    | exact sub_any _ (by decide +kernel)
    | split

theorem State.sheetBegins_keeps (s : State) :
    Keeps (foot [.reg GLB_DETERMINISM, .reg LNK_DEADLETTER_COUNT, .reg (ENG_STATUS 0x600), .reg COL_ENABLE, .reg NUL_DAC_RANGE, .reg (HKx_CTRL 0x1700), .reg (HKx_STATUS 0x1700), .reg (HKx_OVERRUN_COUNT 0x1700), .reg (HKx_CAL_STATUS 0x1700), .reg (HKx_CTRL 0x1800), .reg (HKx_STATUS 0x1800), .reg (HKx_OVERRUN_COUNT 0x1800), .reg (HKx_CAL_STATUS 0x1800), .reg HKS_EXC_CTRL, .reg HKS_EXC_STATUS, .reg CAL_CTRL, .reg CAL_STATUS, .reg CAL_DEFER_COUNT, .reg (ENG_STATUS 0x1B00), .regs 0x0304 4, .regs 0x0308 4, .flt, .win .lnk, .win .nul] ||| foot [.win .cal, .recTick, .bar, .faults, .cou, .bru, .pal, .col, .nul, .lnk, .hka, .hkb, .cal, .free, .srcs]) s (State.sheetBegins s) := by
  unfold State.sheetBegins
  extract_lets a1 a2
  have ha1 : Keeps (foot [.reg GLB_DETERMINISM, .reg LNK_DEADLETTER_COUNT, .reg (ENG_STATUS 0x600), .reg COL_ENABLE, .reg NUL_DAC_RANGE, .reg (HKx_CTRL 0x1700), .reg (HKx_STATUS 0x1700), .reg (HKx_OVERRUN_COUNT 0x1700), .reg (HKx_CAL_STATUS 0x1700), .reg (HKx_CTRL 0x1800), .reg (HKx_STATUS 0x1800), .reg (HKx_OVERRUN_COUNT 0x1800), .reg (HKx_CAL_STATUS 0x1800), .reg HKS_EXC_CTRL, .reg HKS_EXC_STATUS, .reg CAL_CTRL, .reg CAL_STATUS, .reg CAL_DEFER_COUNT, .reg (ENG_STATUS 0x1B00), .regs 0x0304 4, .regs 0x0308 4, .flt, .win .lnk, .win .nul] ||| foot [.win .cal, .recTick, .bar, .faults, .cou, .bru, .pal, .col, .nul, .lnk, .hka, .hkb, .cal, .free, .srcs]) s a1 := by
    unfold a1
    repeat' first
      | with_reducible assumption
      | with_reducible apply Keeps.refl
      | with_reducible apply Keeps.ite
      | (apply Keeps.step; with_reducible apply State.sourcesSheet_keeps)
      | (apply Keeps.step; with_reducible apply State.rollNul_keeps)
      | (apply Keeps.step; with_reducible apply State.rollCols_keeps)
      | (apply Keeps.step; with_reducible apply State.rollRows_keeps)
      | (apply Keeps.step; with_reducible apply State.isolateNext_keeps)
      | (with_reducible apply Keeps.forEach; intro _ _ _)
      | (with_reducible apply Keeps.foldl_fst; intro _ _ _)
      | (with_reducible apply Keeps.foldl_snd; intro _ _ _)
      | (with_reducible apply Keeps.foldl; intro _ _ _)
      | decide +kernel
      | exact sub_flt _ (by decide +kernel)
      | exact sub_eng _ (by decide +kernel)
      | exact sub_hk _ (by decide +kernel)
      | exact sub_port _ _ (by decide +kernel)
      | exact sub_win _ (by decide +kernel)
      | exact sub_any _ (by decide +kernel)
      | split
  try clear_value a1
  have ha2 : Keeps (foot [.reg GLB_DETERMINISM, .reg LNK_DEADLETTER_COUNT, .reg (ENG_STATUS 0x600), .reg COL_ENABLE, .reg NUL_DAC_RANGE, .reg (HKx_CTRL 0x1700), .reg (HKx_STATUS 0x1700), .reg (HKx_OVERRUN_COUNT 0x1700), .reg (HKx_CAL_STATUS 0x1700), .reg (HKx_CTRL 0x1800), .reg (HKx_STATUS 0x1800), .reg (HKx_OVERRUN_COUNT 0x1800), .reg (HKx_CAL_STATUS 0x1800), .reg HKS_EXC_CTRL, .reg HKS_EXC_STATUS, .reg CAL_CTRL, .reg CAL_STATUS, .reg CAL_DEFER_COUNT, .reg (ENG_STATUS 0x1B00), .regs 0x0304 4, .regs 0x0308 4, .flt, .win .lnk, .win .nul] ||| foot [.win .cal, .recTick, .bar, .faults, .cou, .bru, .pal, .col, .nul, .lnk, .hka, .hkb, .cal, .free, .srcs]) s a2 := by
    unfold a2
    repeat' first
      | with_reducible assumption
      | with_reducible apply Keeps.refl
      | with_reducible apply Keeps.ite
      | (apply Keeps.step; with_reducible apply State.sourcesSheet_keeps)
      | (apply Keeps.step; with_reducible apply State.rollNul_keeps)
      | (apply Keeps.step; with_reducible apply State.rollCols_keeps)
      | (apply Keeps.step; with_reducible apply State.rollRows_keeps)
      | (apply Keeps.step; with_reducible apply State.isolateNext_keeps)
      | (with_reducible apply Keeps.forEach; intro _ _ _)
      | (with_reducible apply Keeps.foldl_fst; intro _ _ _)
      | (with_reducible apply Keeps.foldl_snd; intro _ _ _)
      | (with_reducible apply Keeps.foldl; intro _ _ _)
      | decide +kernel
      | exact sub_flt _ (by decide +kernel)
      | exact sub_eng _ (by decide +kernel)
      | exact sub_hk _ (by decide +kernel)
      | exact sub_port _ _ (by decide +kernel)
      | exact sub_win _ (by decide +kernel)
      | exact sub_any _ (by decide +kernel)
      | split
  try clear_value a2
  repeat' first
    | with_reducible assumption
    | with_reducible apply Keeps.refl
    | with_reducible apply Keeps.ite
    | (apply Keeps.step; with_reducible apply State.sourcesSheet_keeps)
    | (apply Keeps.step; with_reducible apply State.rollNul_keeps)
    | (apply Keeps.step; with_reducible apply State.rollCols_keeps)
    | (apply Keeps.step; with_reducible apply State.rollRows_keeps)
    | (apply Keeps.step; with_reducible apply State.isolateNext_keeps)
    | (with_reducible apply Keeps.forEach; intro _ _ _)
    | (with_reducible apply Keeps.foldl_fst; intro _ _ _)
    | (with_reducible apply Keeps.foldl_snd; intro _ _ _)
    | (with_reducible apply Keeps.foldl; intro _ _ _)
    | decide +kernel
    | exact sub_flt _ (by decide +kernel)
    | exact sub_eng _ (by decide +kernel)
    | exact sub_hk _ (by decide +kernel)
    | exact sub_port _ _ (by decide +kernel)
    | exact sub_win _ (by decide +kernel)
    | exact sub_any _ (by decide +kernel)
    | split

theorem State.advance_keeps (s : State) :
    Keeps (foot [.tm]) s (State.advance s) := by
  unfold State.advance
  extract_lets a1 a2
  try clear_value a1
  try clear_value a2
  repeat' first
    | with_reducible assumption
    | with_reducible apply Keeps.refl
    | with_reducible apply Keeps.ite
    | (with_reducible apply Keeps.forEach; intro _ _ _)
    | (with_reducible apply Keeps.foldl_fst; intro _ _ _)
    | (with_reducible apply Keeps.foldl_snd; intro _ _ _)
    | (with_reducible apply Keeps.foldl; intro _ _ _)
    | split
    | refine Keeps.upd ?_

theorem State.barrierTick_keeps (s : State) :
    Keeps (foot [.reg GLB_DETERMINISM, .reg BAR_STATUS, .reg BAR_LANE_MAP, .reg BAR_TRAIN, .reg LNK_DEADLETTER_COUNT, .reg (ENG_STATUS 0x600), .reg (ENG_STATUS 0x1B00), .reg FBA_LANE_STATUS, .flt, .win .lnk, .recTick, .bar, .faults, .cou, .bru, .lnk, .free, .srcs]) s (State.barrierTick s) := by
  unfold State.barrierTick
  extract_lets a1 a2
  have ha1 : Keeps (foot [.reg GLB_DETERMINISM, .reg BAR_STATUS, .reg BAR_LANE_MAP, .reg BAR_TRAIN, .reg LNK_DEADLETTER_COUNT, .reg (ENG_STATUS 0x600), .reg (ENG_STATUS 0x1B00), .reg FBA_LANE_STATUS, .flt, .win .lnk, .recTick, .bar, .faults, .cou, .bru, .lnk, .free, .srcs]) s a1 := by
    unfold a1
    repeat' first
      | with_reducible assumption
      | with_reducible apply Keeps.refl
      | with_reducible apply Keeps.ite
      | (apply Keeps.step; with_reducible apply State.trainPhase_keeps)
      | (apply Keeps.step; with_reducible apply State.swapLate_keeps)
      | (apply Keeps.step; with_reducible apply State.laneSwapApply_keeps)
      | (apply Keeps.step; with_reducible apply State.heartbeatCount_keeps)
      | (apply Keeps.step; with_reducible apply State.raise_keeps)
      | (with_reducible apply Keeps.forEach; intro _ _ _)
      | (with_reducible apply Keeps.foldl_fst; intro _ _ _)
      | (with_reducible apply Keeps.foldl_snd; intro _ _ _)
      | (with_reducible apply Keeps.foldl; intro _ _ _)
      | decide +kernel
      | exact sub_flt _ (by decide +kernel)
      | exact sub_eng _ (by decide +kernel)
      | exact sub_hk _ (by decide +kernel)
      | exact sub_port _ _ (by decide +kernel)
      | exact sub_win _ (by decide +kernel)
      | exact sub_any _ (by decide +kernel)
      | split
  try clear_value a1
  have ha2 : Keeps (foot [.reg GLB_DETERMINISM, .reg BAR_STATUS, .reg BAR_LANE_MAP, .reg BAR_TRAIN, .reg LNK_DEADLETTER_COUNT, .reg (ENG_STATUS 0x600), .reg (ENG_STATUS 0x1B00), .reg FBA_LANE_STATUS, .flt, .win .lnk, .recTick, .bar, .faults, .cou, .bru, .lnk, .free, .srcs]) s a2.2 := by
    unfold a2
    repeat' first
      | with_reducible assumption
      | with_reducible apply Keeps.refl
      | with_reducible apply Keeps.ite
      | (apply Keeps.step; with_reducible apply State.trainPhase_keeps)
      | (apply Keeps.step; with_reducible apply State.swapLate_keeps)
      | (apply Keeps.step; with_reducible apply State.laneSwapApply_keeps)
      | (apply Keeps.step; with_reducible apply State.heartbeatCount_keeps)
      | (apply Keeps.step; with_reducible apply State.raise_keeps)
      | (with_reducible apply Keeps.forEach; intro _ _ _)
      | (with_reducible apply Keeps.foldl_fst; intro _ _ _)
      | (with_reducible apply Keeps.foldl_snd; intro _ _ _)
      | (with_reducible apply Keeps.foldl; intro _ _ _)
      | decide +kernel
      | exact sub_flt _ (by decide +kernel)
      | exact sub_eng _ (by decide +kernel)
      | exact sub_hk _ (by decide +kernel)
      | exact sub_port _ _ (by decide +kernel)
      | exact sub_win _ (by decide +kernel)
      | exact sub_any _ (by decide +kernel)
      | split
  try clear_value a2
  repeat' first
    | with_reducible assumption
    | with_reducible apply Keeps.refl
    | with_reducible apply Keeps.ite
    | (apply Keeps.step; with_reducible apply State.trainPhase_keeps)
    | (apply Keeps.step; with_reducible apply State.swapLate_keeps)
    | (apply Keeps.step; with_reducible apply State.laneSwapApply_keeps)
    | (apply Keeps.step; with_reducible apply State.heartbeatCount_keeps)
    | (apply Keeps.step; with_reducible apply State.raise_keeps)
    | (with_reducible apply Keeps.forEach; intro _ _ _)
    | (with_reducible apply Keeps.foldl_fst; intro _ _ _)
    | (with_reducible apply Keeps.foldl_snd; intro _ _ _)
    | (with_reducible apply Keeps.foldl; intro _ _ _)
    | decide +kernel
    | exact sub_flt _ (by decide +kernel)
    | exact sub_eng _ (by decide +kernel)
    | exact sub_hk _ (by decide +kernel)
    | exact sub_port _ _ (by decide +kernel)
    | exact sub_win _ (by decide +kernel)
    | exact sub_any _ (by decide +kernel)
    | split

theorem State.stateTick_keeps (s : State) :
    Keeps (foot [.reg GLB_STATE, .reg GLB_DETERMINISM, .reg (ENG_BREAK 0x600), .reg FGL_STATUS, .reg (ENG_BREAK 0x1B00), .cou, .bru, .pal, .nul, .cfg]) s (State.stateTick s) := by
  unfold State.stateTick
  extract_lets a1
  have ha1 : Keeps (foot [.reg GLB_STATE, .reg GLB_DETERMINISM, .reg (ENG_BREAK 0x600), .reg FGL_STATUS, .reg (ENG_BREAK 0x1B00), .cou, .bru, .pal, .nul, .cfg]) s a1 := by
    unfold a1
    repeat' first
      | with_reducible assumption
      | with_reducible apply Keeps.refl
      | with_reducible apply Keeps.ite
      | (apply Keeps.step; with_reducible apply State.autoRuns_keeps)
      | (apply Keeps.step; with_reducible apply State.readyEnters_keeps)
      | (apply Keeps.step; with_reducible apply State.rampEnds_keeps)
      | (apply Keeps.step; with_reducible apply State.fieldLoadEnds_keeps)
      | (apply Keeps.step; with_reducible apply State.liveClear_keeps)
      | (with_reducible apply Keeps.forEach; intro _ _ _)
      | (with_reducible apply Keeps.foldl_fst; intro _ _ _)
      | (with_reducible apply Keeps.foldl_snd; intro _ _ _)
      | (with_reducible apply Keeps.foldl; intro _ _ _)
      | decide +kernel
      | exact sub_flt _ (by decide +kernel)
      | exact sub_eng _ (by decide +kernel)
      | exact sub_hk _ (by decide +kernel)
      | exact sub_port _ _ (by decide +kernel)
      | exact sub_win _ (by decide +kernel)
      | exact sub_any _ (by decide +kernel)
      | split
  try clear_value a1
  repeat' first
    | with_reducible assumption
    | with_reducible apply Keeps.refl
    | with_reducible apply Keeps.ite
    | (apply Keeps.step; with_reducible apply State.autoRuns_keeps)
    | (apply Keeps.step; with_reducible apply State.readyEnters_keeps)
    | (apply Keeps.step; with_reducible apply State.rampEnds_keeps)
    | (apply Keeps.step; with_reducible apply State.fieldLoadEnds_keeps)
    | (apply Keeps.step; with_reducible apply State.liveClear_keeps)
    | (with_reducible apply Keeps.forEach; intro _ _ _)
    | (with_reducible apply Keeps.foldl_fst; intro _ _ _)
    | (with_reducible apply Keeps.foldl_snd; intro _ _ _)
    | (with_reducible apply Keeps.foldl; intro _ _ _)
    | decide +kernel
    | exact sub_flt _ (by decide +kernel)
    | exact sub_eng _ (by decide +kernel)
    | exact sub_hk _ (by decide +kernel)
    | exact sub_port _ _ (by decide +kernel)
    | exact sub_win _ (by decide +kernel)
    | exact sub_any _ (by decide +kernel)
    | split

theorem State.safeTick_keeps (s : State) :
    Keeps (foot [.anyReg, .anyWin, .recTick, .timers, .hostQ, .fieldQ, .gap, .bar, .faults, .cou, .bru, .pal, .pwr, .col, .nul, .var, .str, .evt, .lnk, .hka, .hkb, .refOnAt, .cal, .mgt] ||| foot [.cfg, .flash, .free, .winAddrs, .srcs]) s (State.safeTick s) := by
  unfold State.safeTick
  extract_lets a1
  try clear_value a1
  repeat' first
    | with_reducible assumption
    | with_reducible apply Keeps.refl
    | with_reducible apply Keeps.ite
    | (apply Keeps.step; with_reducible apply State.safeEntry_keeps)
    | (apply Keeps.step; with_reducible apply State.clearCodes_keeps)
    | (apply Keeps.step; with_reducible apply State.trainBegin_keeps)
    | (with_reducible apply Keeps.forEach; intro _ _ _)
    | (with_reducible apply Keeps.foldl_fst; intro _ _ _)
    | (with_reducible apply Keeps.foldl_snd; intro _ _ _)
    | (with_reducible apply Keeps.foldl; intro _ _ _)
    | decide +kernel
    | exact sub_flt _ (by decide +kernel)
    | exact sub_eng _ (by decide +kernel)
    | exact sub_hk _ (by decide +kernel)
    | exact sub_port _ _ (by decide +kernel)
    | exact sub_win _ (by decide +kernel)
    | exact sub_any _ (by decide +kernel)
    | split
    | refine Keeps.upd ?_

theorem State.retireTick_keeps (s : State) :
    Keeps (foot [.reg LNK_SCHED_SEL, .regs 0x0308 4, .flt, .bar, .lnk, .srcs]) s (State.retireTick s) := by
  unfold State.retireTick
  repeat' first
    | with_reducible assumption
    | with_reducible apply Keeps.refl
    | with_reducible apply Keeps.ite
    | (apply Keeps.step; with_reducible apply State.portRetires_keeps)
    | (with_reducible apply Keeps.forEach; intro _ _ _)
    | (with_reducible apply Keeps.foldl_fst; intro _ _ _)
    | (with_reducible apply Keeps.foldl_snd; intro _ _ _)
    | (with_reducible apply Keeps.foldl; intro _ _ _)
    | decide +kernel
    | exact sub_flt _ (by decide +kernel)
    | exact sub_eng _ (by decide +kernel)
    | exact sub_hk _ (by decide +kernel)
    | exact sub_port _ _ (by decide +kernel)
    | exact sub_win _ (by decide +kernel)
    | exact sub_any _ (by decide +kernel)
    | split

theorem State.launchOne_keeps (s : State) (d : Die) :
    Keeps (foot [.anyReg, .anyWin, .recTick, .timers, .hostQ, .fieldQ, .gap, .bar, .faults, .cou, .bru, .pal, .pwr, .col, .nul, .var, .str, .evt, .lnk, .hka, .hkb, .refOnAt, .cal, .mgt] ||| foot [.cfg, .flash, .free, .winAddrs, .srcs]) s (State.launchOne s d) := by
  unfold State.launchOne
  repeat' first
    | with_reducible assumption
    | with_reducible apply Keeps.refl
    | with_reducible apply Keeps.ite
    | (apply Keeps.step; with_reducible apply State.applyEntry_keeps)
    | (apply Keeps.step; with_reducible apply State.setQueue_keeps)
    | (apply Keeps.step; with_reducible apply State.swapCorrected_keeps)
    | (with_reducible apply Keeps.forEach; intro _ _ _)
    | (with_reducible apply Keeps.foldl_fst; intro _ _ _)
    | (with_reducible apply Keeps.foldl_snd; intro _ _ _)
    | (with_reducible apply Keeps.foldl; intro _ _ _)
    | decide +kernel
    | exact sub_flt _ (by decide +kernel)
    | exact sub_eng _ (by decide +kernel)
    | exact sub_hk _ (by decide +kernel)
    | exact sub_port _ _ (by decide +kernel)
    | exact sub_win _ (by decide +kernel)
    | exact sub_any _ (by decide +kernel)
    | split

theorem State.launchAll_keeps (d : Die) (n : Nat) (s : State) :
    Keeps (foot [.anyReg, .anyWin, .recTick, .timers, .hostQ, .fieldQ, .gap, .bar, .faults, .cou, .bru, .pal, .pwr, .col, .nul, .var, .str, .evt, .lnk, .hka, .hkb, .refOnAt, .cal, .mgt] ||| foot [.cfg, .flash, .free, .winAddrs, .srcs]) s (State.launchAll d n s) := by
  induction n generalizing s with
  | zero => exact Keeps.refl _ _
  | succ n ih =>
    unfold State.launchAll
    repeat' first
      | with_reducible assumption
      | with_reducible apply Keeps.refl
      | refine Keeps.trans ?_ (ih _)
      | with_reducible apply Keeps.ite
      | (apply Keeps.step; with_reducible apply State.launchOne_keeps)
      | (with_reducible apply Keeps.forEach; intro _ _ _)
      | (with_reducible apply Keeps.foldl_fst; intro _ _ _)
      | (with_reducible apply Keeps.foldl_snd; intro _ _ _)
      | (with_reducible apply Keeps.foldl; intro _ _ _)
      | decide +kernel
      | exact sub_flt _ (by decide +kernel)
      | exact sub_eng _ (by decide +kernel)
      | exact sub_hk _ (by decide +kernel)
      | exact sub_port _ _ (by decide +kernel)
      | exact sub_win _ (by decide +kernel)
      | exact sub_any _ (by decide +kernel)
      | split

theorem State.heldOne_keeps (s : State) (d : Die) :
    Keeps (foot [.anyReg, .anyWin, .recTick, .timers, .hostQ, .fieldQ, .held, .gap, .bar, .faults, .cou, .bru, .pal, .pwr, .col, .nul, .var, .str, .evt, .lnk, .hka, .hkb, .refOnAt, .cal] ||| foot [.mgt, .cfg, .flash, .free, .winAddrs, .srcs]) s (State.heldOne s d) := by
  unfold State.heldOne
  repeat' first
    | with_reducible assumption
    | with_reducible apply Keeps.refl
    | with_reducible apply Keeps.ite
    | (apply Keeps.step; with_reducible apply State.applyHeld_keeps)
    | (with_reducible apply Keeps.forEach; intro _ _ _)
    | (with_reducible apply Keeps.foldl_fst; intro _ _ _)
    | (with_reducible apply Keeps.foldl_snd; intro _ _ _)
    | (with_reducible apply Keeps.foldl; intro _ _ _)
    | decide +kernel
    | exact sub_flt _ (by decide +kernel)
    | exact sub_eng _ (by decide +kernel)
    | exact sub_hk _ (by decide +kernel)
    | exact sub_port _ _ (by decide +kernel)
    | exact sub_win _ (by decide +kernel)
    | exact sub_any _ (by decide +kernel)
    | split
    | refine Keeps.upd ?_

theorem State.heldAll_keeps (d : Die) (n : Nat) (s : State) :
    Keeps (foot [.anyReg, .anyWin, .recTick, .timers, .hostQ, .fieldQ, .held, .gap, .bar, .faults, .cou, .bru, .pal, .pwr, .col, .nul, .var, .str, .evt, .lnk, .hka, .hkb, .refOnAt, .cal] ||| foot [.mgt, .cfg, .flash, .free, .winAddrs, .srcs]) s (State.heldAll d n s) := by
  induction n generalizing s with
  | zero => exact Keeps.refl _ _
  | succ n ih =>
    unfold State.heldAll
    repeat' first
      | with_reducible assumption
      | with_reducible apply Keeps.refl
      | refine Keeps.trans ?_ (ih _)
      | with_reducible apply Keeps.ite
      | (apply Keeps.step; with_reducible apply State.heldOne_keeps)
      | (with_reducible apply Keeps.forEach; intro _ _ _)
      | (with_reducible apply Keeps.foldl_fst; intro _ _ _)
      | (with_reducible apply Keeps.foldl_snd; intro _ _ _)
      | (with_reducible apply Keeps.foldl; intro _ _ _)
      | decide +kernel
      | exact sub_flt _ (by decide +kernel)
      | exact sub_eng _ (by decide +kernel)
      | exact sub_hk _ (by decide +kernel)
      | exact sub_port _ _ (by decide +kernel)
      | exact sub_win _ (by decide +kernel)
      | exact sub_any _ (by decide +kernel)
      | split

theorem State.writesDue_keeps (s : State) :
    Keeps (foot [.anyReg, .anyWin, .recTick, .timers, .hostQ, .fieldQ, .held, .gap, .bar, .faults, .cou, .bru, .pal, .pwr, .col, .nul, .var, .str, .evt, .lnk, .hka, .hkb, .refOnAt, .cal] ||| foot [.mgt, .cfg, .flash, .free, .winAddrs, .srcs]) s (State.writesDue s) := by
  unfold State.writesDue
  extract_lets a1 a2 a3
  have ha1 : Keeps (foot [.anyReg, .anyWin, .recTick, .timers, .hostQ, .fieldQ, .held, .gap, .bar, .faults, .cou, .bru, .pal, .pwr, .col, .nul, .var, .str, .evt, .lnk, .hka, .hkb, .refOnAt, .cal] ||| foot [.mgt, .cfg, .flash, .free, .winAddrs, .srcs]) s a1 := by
    unfold a1
    repeat' first
      | with_reducible assumption
      | with_reducible apply Keeps.refl
      | with_reducible apply Keeps.ite
      | (apply Keeps.step; with_reducible apply State.launchAll_keeps)
      | (apply Keeps.step; with_reducible apply State.heldAll_keeps)
      | (with_reducible apply Keeps.forEach; intro _ _ _)
      | (with_reducible apply Keeps.foldl_fst; intro _ _ _)
      | (with_reducible apply Keeps.foldl_snd; intro _ _ _)
      | (with_reducible apply Keeps.foldl; intro _ _ _)
      | decide +kernel
      | exact sub_flt _ (by decide +kernel)
      | exact sub_eng _ (by decide +kernel)
      | exact sub_hk _ (by decide +kernel)
      | exact sub_port _ _ (by decide +kernel)
      | exact sub_win _ (by decide +kernel)
      | exact sub_any _ (by decide +kernel)
      | split
  try clear_value a1
  have ha2 : Keeps (foot [.anyReg, .anyWin, .recTick, .timers, .hostQ, .fieldQ, .held, .gap, .bar, .faults, .cou, .bru, .pal, .pwr, .col, .nul, .var, .str, .evt, .lnk, .hka, .hkb, .refOnAt, .cal] ||| foot [.mgt, .cfg, .flash, .free, .winAddrs, .srcs]) s a2 := by
    unfold a2
    repeat' first
      | with_reducible assumption
      | with_reducible apply Keeps.refl
      | with_reducible apply Keeps.ite
      | (apply Keeps.step; with_reducible apply State.launchAll_keeps)
      | (apply Keeps.step; with_reducible apply State.heldAll_keeps)
      | (with_reducible apply Keeps.forEach; intro _ _ _)
      | (with_reducible apply Keeps.foldl_fst; intro _ _ _)
      | (with_reducible apply Keeps.foldl_snd; intro _ _ _)
      | (with_reducible apply Keeps.foldl; intro _ _ _)
      | decide +kernel
      | exact sub_flt _ (by decide +kernel)
      | exact sub_eng _ (by decide +kernel)
      | exact sub_hk _ (by decide +kernel)
      | exact sub_port _ _ (by decide +kernel)
      | exact sub_win _ (by decide +kernel)
      | exact sub_any _ (by decide +kernel)
      | split
  try clear_value a2
  have ha3 : Keeps (foot [.anyReg, .anyWin, .recTick, .timers, .hostQ, .fieldQ, .held, .gap, .bar, .faults, .cou, .bru, .pal, .pwr, .col, .nul, .var, .str, .evt, .lnk, .hka, .hkb, .refOnAt, .cal] ||| foot [.mgt, .cfg, .flash, .free, .winAddrs, .srcs]) s a3 := by
    unfold a3
    repeat' first
      | with_reducible assumption
      | with_reducible apply Keeps.refl
      | with_reducible apply Keeps.ite
      | (apply Keeps.step; with_reducible apply State.launchAll_keeps)
      | (apply Keeps.step; with_reducible apply State.heldAll_keeps)
      | (with_reducible apply Keeps.forEach; intro _ _ _)
      | (with_reducible apply Keeps.foldl_fst; intro _ _ _)
      | (with_reducible apply Keeps.foldl_snd; intro _ _ _)
      | (with_reducible apply Keeps.foldl; intro _ _ _)
      | decide +kernel
      | exact sub_flt _ (by decide +kernel)
      | exact sub_eng _ (by decide +kernel)
      | exact sub_hk _ (by decide +kernel)
      | exact sub_port _ _ (by decide +kernel)
      | exact sub_win _ (by decide +kernel)
      | exact sub_any _ (by decide +kernel)
      | split
  try clear_value a3
  repeat' first
    | with_reducible assumption
    | with_reducible apply Keeps.refl
    | with_reducible apply Keeps.ite
    | (apply Keeps.step; with_reducible apply State.launchAll_keeps)
    | (apply Keeps.step; with_reducible apply State.heldAll_keeps)
    | (with_reducible apply Keeps.forEach; intro _ _ _)
    | (with_reducible apply Keeps.foldl_fst; intro _ _ _)
    | (with_reducible apply Keeps.foldl_snd; intro _ _ _)
    | (with_reducible apply Keeps.foldl; intro _ _ _)
    | decide +kernel
    | exact sub_flt _ (by decide +kernel)
    | exact sub_eng _ (by decide +kernel)
    | exact sub_hk _ (by decide +kernel)
    | exact sub_port _ _ (by decide +kernel)
    | exact sub_win _ (by decide +kernel)
    | exact sub_any _ (by decide +kernel)
    | split

theorem State.palCopyEnd_keeps (s : State) :
    Keeps (foot [.reg PAL_STATUS, .win .pal, .timers, .pal]) s (State.palCopyEnd s) := by
  unfold State.palCopyEnd
  repeat' first
    | with_reducible assumption
    | with_reducible apply Keeps.refl
    | with_reducible apply Keeps.ite
    | (apply Keeps.step; with_reducible apply State.dropTimers_keeps)
    | (apply Keeps.step; with_reducible apply State.setBit_keeps)
    | (apply Keeps.step; with_reducible apply State.palCopyRest_keeps)
    | (with_reducible apply Keeps.forEach; intro _ _ _)
    | (with_reducible apply Keeps.foldl_fst; intro _ _ _)
    | (with_reducible apply Keeps.foldl_snd; intro _ _ _)
    | (with_reducible apply Keeps.foldl; intro _ _ _)
    | decide +kernel
    | exact sub_flt _ (by decide +kernel)
    | exact sub_eng _ (by decide +kernel)
    | exact sub_hk _ (by decide +kernel)
    | exact sub_port _ _ (by decide +kernel)
    | exact sub_win _ (by decide +kernel)
    | exact sub_any _ (by decide +kernel)
    | split

theorem State.varCopyEnds_keeps (s : State) :
    Keeps (foot [.reg VAR_CTRL, .win .var, .timers, .var]) s (State.varCopyEnds s) := by
  unfold State.varCopyEnds
  repeat' first
    | with_reducible assumption
    | with_reducible apply Keeps.refl
    | with_reducible apply Keeps.ite
    | (apply Keeps.step; with_reducible apply State.dropTimers_keeps)
    | (apply Keeps.step; with_reducible apply State.varCopyEnd_keeps)
    | (with_reducible apply Keeps.forEach; intro _ _ _)
    | (with_reducible apply Keeps.foldl_fst; intro _ _ _)
    | (with_reducible apply Keeps.foldl_snd; intro _ _ _)
    | (with_reducible apply Keeps.foldl; intro _ _ _)
    | decide +kernel
    | exact sub_flt _ (by decide +kernel)
    | exact sub_eng _ (by decide +kernel)
    | exact sub_hk _ (by decide +kernel)
    | exact sub_port _ _ (by decide +kernel)
    | exact sub_win _ (by decide +kernel)
    | exact sub_any _ (by decide +kernel)
    | split

theorem State.captureEnd_keeps (s : State) :
    Keeps (foot [.reg NUL_PRIMER_CTRL, .win .nul, .timers, .cou, .bru, .nul]) s (State.captureEnd s) := by
  unfold State.captureEnd
  extract_lets a1 a2 a3
  have ha1 : Keeps (foot [.reg NUL_PRIMER_CTRL, .win .nul, .timers, .cou, .bru, .nul]) s a1 := by
    unfold a1
    repeat' first
      | with_reducible assumption
      | with_reducible apply Keeps.refl
      | with_reducible apply Keeps.ite
      | (apply Keeps.step; with_reducible apply State.captureRest_keeps)
      | (apply Keeps.step; with_reducible apply State.dropTimers_keeps)
      | (apply Keeps.step; with_reducible apply State.note_keeps)
      | (apply Keeps.step; with_reducible apply State.setBit_keeps)
      | (with_reducible apply Keeps.forEach; intro _ _ _)
      | (with_reducible apply Keeps.foldl_fst; intro _ _ _)
      | (with_reducible apply Keeps.foldl_snd; intro _ _ _)
      | (with_reducible apply Keeps.foldl; intro _ _ _)
      | decide +kernel
      | exact sub_flt _ (by decide +kernel)
      | exact sub_eng _ (by decide +kernel)
      | exact sub_hk _ (by decide +kernel)
      | exact sub_port _ _ (by decide +kernel)
      | exact sub_win _ (by decide +kernel)
      | exact sub_any _ (by decide +kernel)
      | split
      | refine Keeps.upd ?_
  try clear_value a1
  try clear_value a2
  have ha3 : Keeps (foot [.reg NUL_PRIMER_CTRL, .win .nul, .timers, .cou, .bru, .nul]) s a3 := by
    unfold a3
    repeat' first
      | with_reducible assumption
      | with_reducible apply Keeps.refl
      | with_reducible apply Keeps.ite
      | (apply Keeps.step; with_reducible apply State.captureRest_keeps)
      | (apply Keeps.step; with_reducible apply State.dropTimers_keeps)
      | (apply Keeps.step; with_reducible apply State.note_keeps)
      | (apply Keeps.step; with_reducible apply State.setBit_keeps)
      | (with_reducible apply Keeps.forEach; intro _ _ _)
      | (with_reducible apply Keeps.foldl_fst; intro _ _ _)
      | (with_reducible apply Keeps.foldl_snd; intro _ _ _)
      | (with_reducible apply Keeps.foldl; intro _ _ _)
      | decide +kernel
      | exact sub_flt _ (by decide +kernel)
      | exact sub_eng _ (by decide +kernel)
      | exact sub_hk _ (by decide +kernel)
      | exact sub_port _ _ (by decide +kernel)
      | exact sub_win _ (by decide +kernel)
      | exact sub_any _ (by decide +kernel)
      | split
      | refine Keeps.upd ?_
  try clear_value a3
  repeat' first
    | with_reducible assumption
    | with_reducible apply Keeps.refl
    | with_reducible apply Keeps.ite
    | (apply Keeps.step; with_reducible apply State.captureRest_keeps)
    | (apply Keeps.step; with_reducible apply State.dropTimers_keeps)
    | (apply Keeps.step; with_reducible apply State.note_keeps)
    | (apply Keeps.step; with_reducible apply State.setBit_keeps)
    | (with_reducible apply Keeps.forEach; intro _ _ _)
    | (with_reducible apply Keeps.foldl_fst; intro _ _ _)
    | (with_reducible apply Keeps.foldl_snd; intro _ _ _)
    | (with_reducible apply Keeps.foldl; intro _ _ _)
    | decide +kernel
    | exact sub_flt _ (by decide +kernel)
    | exact sub_eng _ (by decide +kernel)
    | exact sub_hk _ (by decide +kernel)
    | exact sub_port _ _ (by decide +kernel)
    | exact sub_win _ (by decide +kernel)
    | exact sub_any _ (by decide +kernel)
    | split
    | refine Keeps.upd ?_

theorem State.runTimer_keeps (s : State) (i : Instr) :
    Keeps (foot [.reg PAL_STATUS, .reg NUL_PRIMER_CTRL, .reg VAR_CTRL, .win .pal, .win .nul, .win .var, .timers, .cou, .bru, .pal, .nul, .var]) s (State.runTimer s i) := by
  unfold State.runTimer
  repeat' first
    | with_reducible assumption
    | with_reducible apply Keeps.refl
    | with_reducible apply Keeps.ite
    | (apply Keeps.step; with_reducible apply State.palCopyEnd_keeps)
    | (apply Keeps.step; with_reducible apply State.varCopyEnds_keeps)
    | (apply Keeps.step; with_reducible apply State.captureEnd_keeps)
    | (with_reducible apply Keeps.forEach; intro _ _ _)
    | (with_reducible apply Keeps.foldl_fst; intro _ _ _)
    | (with_reducible apply Keeps.foldl_snd; intro _ _ _)
    | (with_reducible apply Keeps.foldl; intro _ _ _)
    | decide +kernel
    | exact sub_flt _ (by decide +kernel)
    | exact sub_eng _ (by decide +kernel)
    | exact sub_hk _ (by decide +kernel)
    | exact sub_port _ _ (by decide +kernel)
    | exact sub_win _ (by decide +kernel)
    | exact sub_any _ (by decide +kernel)
    | split

theorem State.timersDue_keeps (s : State) :
    Keeps (foot [.reg PAL_STATUS, .reg NUL_PRIMER_CTRL, .reg VAR_CTRL, .win .pal, .win .nul, .win .var, .timers, .cou, .bru, .pal, .nul, .var]) s (State.timersDue s) := by
  unfold State.timersDue
  extract_lets a1
  try clear_value a1
  repeat' first
    | with_reducible assumption
    | with_reducible apply Keeps.refl
    | with_reducible apply Keeps.ite
    | (apply Keeps.step; with_reducible apply State.runTimer_keeps)
    | (with_reducible apply Keeps.forEach; intro _ _ _)
    | (with_reducible apply Keeps.foldl_fst; intro _ _ _)
    | (with_reducible apply Keeps.foldl_snd; intro _ _ _)
    | (with_reducible apply Keeps.foldl; intro _ _ _)
    | decide +kernel
    | exact sub_flt _ (by decide +kernel)
    | exact sub_eng _ (by decide +kernel)
    | exact sub_hk _ (by decide +kernel)
    | exact sub_port _ _ (by decide +kernel)
    | exact sub_win _ (by decide +kernel)
    | exact sub_any _ (by decide +kernel)
    | split
    | refine Keeps.upd ?_

theorem State.driveTick_keeps (s : State) :
    Keeps (foot [.reg GLB_DETERMINISM, .reg LNK_DEADLETTER_COUNT, .reg (ENG_STATUS 0x600), .reg PWR_STATE, .reg PWR_REQUEST, .reg NUL_PRIMER_CTRL, .reg (HKx_CTRL 0x1700), .reg (HKx_STATUS 0x1700), .reg (HKx_OVERRUN_COUNT 0x1700), .reg (HKx_CAL_STATUS 0x1700), .reg (HKx_CTRL 0x1800), .reg (HKx_STATUS 0x1800), .reg (HKx_OVERRUN_COUNT 0x1800), .reg (HKx_CAL_STATUS 0x1800), .reg HKS_REFBUF_STATUS, .reg HKS_EXC_STATUS, .reg CAL_STATUS, .reg CAL_DEFER_COUNT, .reg (ENG_STATUS 0x1B00), .flt, .win .lnk, .win .nul, .win .cal, .recTick] ||| foot [.bar, .faults, .cou, .bru, .pal, .pwr, .col, .nul, .lnk, .hka, .hkb, .refOnAt, .cal, .free, .srcs]) s (State.driveTick s) := by
  unfold State.driveTick
  extract_lets a1 a2
  have ha1 : Keeps (foot [.reg GLB_DETERMINISM, .reg LNK_DEADLETTER_COUNT, .reg (ENG_STATUS 0x600), .reg PWR_STATE, .reg PWR_REQUEST, .reg NUL_PRIMER_CTRL, .reg (HKx_CTRL 0x1700), .reg (HKx_STATUS 0x1700), .reg (HKx_OVERRUN_COUNT 0x1700), .reg (HKx_CAL_STATUS 0x1700), .reg (HKx_CTRL 0x1800), .reg (HKx_STATUS 0x1800), .reg (HKx_OVERRUN_COUNT 0x1800), .reg (HKx_CAL_STATUS 0x1800), .reg HKS_REFBUF_STATUS, .reg HKS_EXC_STATUS, .reg CAL_STATUS, .reg CAL_DEFER_COUNT, .reg (ENG_STATUS 0x1B00), .flt, .win .lnk, .win .nul, .win .cal, .recTick] ||| foot [.bar, .faults, .cou, .bru, .pal, .pwr, .col, .nul, .lnk, .hka, .hkb, .refOnAt, .cal, .free, .srcs]) s a1 := by
    unfold a1
    repeat' first
      | with_reducible assumption
      | with_reducible apply Keeps.refl
      | with_reducible apply Keeps.ite
      | (apply Keeps.step; with_reducible apply State.powerDecide_keeps)
      | (apply Keeps.step; with_reducible apply State.slew_keeps)
      | (apply Keeps.step; with_reducible apply State.powerTick_keeps)
      | (apply Keeps.step; with_reducible apply State.loopStartDue_keeps)
      | (with_reducible apply Keeps.forEach; intro _ _ _)
      | (with_reducible apply Keeps.foldl_fst; intro _ _ _)
      | (with_reducible apply Keeps.foldl_snd; intro _ _ _)
      | (with_reducible apply Keeps.foldl; intro _ _ _)
      | decide +kernel
      | exact sub_flt _ (by decide +kernel)
      | exact sub_eng _ (by decide +kernel)
      | exact sub_hk _ (by decide +kernel)
      | exact sub_port _ _ (by decide +kernel)
      | exact sub_win _ (by decide +kernel)
      | exact sub_any _ (by decide +kernel)
      | split
  try clear_value a1
  have ha2 : Keeps (foot [.reg GLB_DETERMINISM, .reg LNK_DEADLETTER_COUNT, .reg (ENG_STATUS 0x600), .reg PWR_STATE, .reg PWR_REQUEST, .reg NUL_PRIMER_CTRL, .reg (HKx_CTRL 0x1700), .reg (HKx_STATUS 0x1700), .reg (HKx_OVERRUN_COUNT 0x1700), .reg (HKx_CAL_STATUS 0x1700), .reg (HKx_CTRL 0x1800), .reg (HKx_STATUS 0x1800), .reg (HKx_OVERRUN_COUNT 0x1800), .reg (HKx_CAL_STATUS 0x1800), .reg HKS_REFBUF_STATUS, .reg HKS_EXC_STATUS, .reg CAL_STATUS, .reg CAL_DEFER_COUNT, .reg (ENG_STATUS 0x1B00), .flt, .win .lnk, .win .nul, .win .cal, .recTick] ||| foot [.bar, .faults, .cou, .bru, .pal, .pwr, .col, .nul, .lnk, .hka, .hkb, .refOnAt, .cal, .free, .srcs]) s a2 := by
    unfold a2
    repeat' first
      | with_reducible assumption
      | with_reducible apply Keeps.refl
      | with_reducible apply Keeps.ite
      | (apply Keeps.step; with_reducible apply State.powerDecide_keeps)
      | (apply Keeps.step; with_reducible apply State.slew_keeps)
      | (apply Keeps.step; with_reducible apply State.powerTick_keeps)
      | (apply Keeps.step; with_reducible apply State.loopStartDue_keeps)
      | (with_reducible apply Keeps.forEach; intro _ _ _)
      | (with_reducible apply Keeps.foldl_fst; intro _ _ _)
      | (with_reducible apply Keeps.foldl_snd; intro _ _ _)
      | (with_reducible apply Keeps.foldl; intro _ _ _)
      | decide +kernel
      | exact sub_flt _ (by decide +kernel)
      | exact sub_eng _ (by decide +kernel)
      | exact sub_hk _ (by decide +kernel)
      | exact sub_port _ _ (by decide +kernel)
      | exact sub_win _ (by decide +kernel)
      | exact sub_any _ (by decide +kernel)
      | split
  try clear_value a2
  repeat' first
    | with_reducible assumption
    | with_reducible apply Keeps.refl
    | with_reducible apply Keeps.ite
    | (apply Keeps.step; with_reducible apply State.powerDecide_keeps)
    | (apply Keeps.step; with_reducible apply State.slew_keeps)
    | (apply Keeps.step; with_reducible apply State.powerTick_keeps)
    | (apply Keeps.step; with_reducible apply State.loopStartDue_keeps)
    | (with_reducible apply Keeps.forEach; intro _ _ _)
    | (with_reducible apply Keeps.foldl_fst; intro _ _ _)
    | (with_reducible apply Keeps.foldl_snd; intro _ _ _)
    | (with_reducible apply Keeps.foldl; intro _ _ _)
    | decide +kernel
    | exact sub_flt _ (by decide +kernel)
    | exact sub_eng _ (by decide +kernel)
    | exact sub_hk _ (by decide +kernel)
    | exact sub_port _ _ (by decide +kernel)
    | exact sub_win _ (by decide +kernel)
    | exact sub_any _ (by decide +kernel)
    | split

theorem State.fieldPart_keeps {M : Nat} {s0 : State} (s : State) (f : State → State)
    (hf : ∀ t, Keeps M s0 t → Keeps M s0 (f t)) (h : Keeps M s0 s) : Keeps M s0 (State.fieldPart s f) :=
  Keeps.ite (hf _ h) h

theorem State.houseTick_keeps (s : State) :
    Keeps (foot [.reg (HKx_CTRL 0x1700), .reg (HKx_STATUS 0x1700), .reg (HKx_CTRL 0x1800), .reg (HKx_STATUS 0x1800), .reg HKS_REFBUF_STATUS, .reg HKS_EXC_STATUS, .hka, .hkb, .srcs]) s (State.houseTick s) := by
  unfold State.houseTick
  extract_lets a1 a2
  have ha1 : Keeps (foot [.reg (HKx_CTRL 0x1700), .reg (HKx_STATUS 0x1700), .reg (HKx_CTRL 0x1800), .reg (HKx_STATUS 0x1800), .reg HKS_REFBUF_STATUS, .reg HKS_EXC_STATUS, .hka, .hkb, .srcs]) s a1 := by
    unfold a1
    repeat' first
      | with_reducible assumption
      | with_reducible apply Keeps.refl
      | with_reducible apply Keeps.ite
      | (apply Keeps.step; with_reducible apply State.refReady_keeps)
      | (apply Keeps.step; with_reducible apply State.passBegin_keeps)
      | (apply Keeps.step; with_reducible apply State.hkBegin_keeps)
      | (with_reducible apply Keeps.forEach; intro _ _ _)
      | (with_reducible apply Keeps.foldl_fst; intro _ _ _)
      | (with_reducible apply Keeps.foldl_snd; intro _ _ _)
      | (with_reducible apply Keeps.foldl; intro _ _ _)
      | decide +kernel
      | exact sub_flt _ (by decide +kernel)
      | exact sub_eng _ (by decide +kernel)
      | exact sub_hk _ (by decide +kernel)
      | exact sub_port _ _ (by decide +kernel)
      | exact sub_win _ (by decide +kernel)
      | exact sub_any _ (by decide +kernel)
      | split
  try clear_value a1
  have ha2 : Keeps (foot [.reg (HKx_CTRL 0x1700), .reg (HKx_STATUS 0x1700), .reg (HKx_CTRL 0x1800), .reg (HKx_STATUS 0x1800), .reg HKS_REFBUF_STATUS, .reg HKS_EXC_STATUS, .hka, .hkb, .srcs]) s a2 := by
    unfold a2
    repeat' first
      | with_reducible assumption
      | with_reducible apply Keeps.refl
      | with_reducible apply Keeps.ite
      | (apply Keeps.step; with_reducible apply State.refReady_keeps)
      | (apply Keeps.step; with_reducible apply State.passBegin_keeps)
      | (apply Keeps.step; with_reducible apply State.hkBegin_keeps)
      | (with_reducible apply Keeps.forEach; intro _ _ _)
      | (with_reducible apply Keeps.foldl_fst; intro _ _ _)
      | (with_reducible apply Keeps.foldl_snd; intro _ _ _)
      | (with_reducible apply Keeps.foldl; intro _ _ _)
      | decide +kernel
      | exact sub_flt _ (by decide +kernel)
      | exact sub_eng _ (by decide +kernel)
      | exact sub_hk _ (by decide +kernel)
      | exact sub_port _ _ (by decide +kernel)
      | exact sub_win _ (by decide +kernel)
      | exact sub_any _ (by decide +kernel)
      | split
  try clear_value a2
  repeat' first
    | with_reducible assumption
    | with_reducible apply Keeps.refl
    | with_reducible apply Keeps.ite
    | (apply Keeps.step; with_reducible apply State.refReady_keeps)
    | (apply Keeps.step; with_reducible apply State.passBegin_keeps)
    | (apply Keeps.step; with_reducible apply State.hkBegin_keeps)
    | (with_reducible apply Keeps.forEach; intro _ _ _)
    | (with_reducible apply Keeps.foldl_fst; intro _ _ _)
    | (with_reducible apply Keeps.foldl_snd; intro _ _ _)
    | (with_reducible apply Keeps.foldl; intro _ _ _)
    | decide +kernel
    | exact sub_flt _ (by decide +kernel)
    | exact sub_eng _ (by decide +kernel)
    | exact sub_hk _ (by decide +kernel)
    | exact sub_port _ _ (by decide +kernel)
    | exact sub_win _ (by decide +kernel)
    | exact sub_any _ (by decide +kernel)
    | split

theorem State.dataTick_keeps (s : State) :
    Keeps (foot [.reg GLB_DETERMINISM, .reg LNK_DEADLETTER_COUNT, .reg (ENG_STATUS 0x600), .reg COL_OVR_STATUS, .reg COL_OVR_LIVE, .reg NUL_SAT_STATUS, .reg NUL_UNCV_STATUS, .reg NUL_HOLD_STATUS, .reg VAR_T_STATUS, .reg VAR_CLAMP_COUNT, .reg EVT_COUNT, .reg EVT_LOST, .reg EVT_STATUS, .reg (ENG_STATUS 0x1B00), .flt, .win .lnk, .win .pal, .win .nul, .win .var, .win .evt, .recTick, .timers, .bar, .faults] ||| foot [.cou, .bru, .pal, .col, .nul, .var, .str, .evt, .lnk, .free, .srcs]) s (State.dataTick s) := by
  unfold State.dataTick
  extract_lets ph s1 s2 s3 s4
  have h1 : Keeps (foot [.reg GLB_DETERMINISM, .reg LNK_DEADLETTER_COUNT, .reg (ENG_STATUS 0x600), .reg COL_OVR_STATUS, .reg COL_OVR_LIVE, .reg NUL_SAT_STATUS, .reg NUL_UNCV_STATUS, .reg NUL_HOLD_STATUS, .reg VAR_T_STATUS, .reg VAR_CLAMP_COUNT, .reg EVT_COUNT, .reg EVT_LOST, .reg EVT_STATUS, .reg (ENG_STATUS 0x1B00), .flt, .win .lnk, .win .pal, .win .nul, .win .var, .win .evt, .recTick, .timers, .bar, .faults] ||| foot [.cou, .bru, .pal, .col, .nul, .var, .str, .evt, .lnk, .free, .srcs]) s s1 := Keeps.ite ((State.flagsAt70_keeps _).mono (by decide +kernel)) (Keeps.refl _ _)
  have h2 : Keeps (foot [.reg GLB_DETERMINISM, .reg LNK_DEADLETTER_COUNT, .reg (ENG_STATUS 0x600), .reg COL_OVR_STATUS, .reg COL_OVR_LIVE, .reg NUL_SAT_STATUS, .reg NUL_UNCV_STATUS, .reg NUL_HOLD_STATUS, .reg VAR_T_STATUS, .reg VAR_CLAMP_COUNT, .reg EVT_COUNT, .reg EVT_LOST, .reg EVT_STATUS, .reg (ENG_STATUS 0x1B00), .flt, .win .lnk, .win .pal, .win .nul, .win .var, .win .evt, .recTick, .timers, .bar, .faults] ||| foot [.cou, .bru, .pal, .col, .nul, .var, .str, .evt, .lnk, .free, .srcs]) s s2 := by
    unfold s2
    split
    · exact (State.columnComplete_keeps _ _).step (by decide +kernel) h1
    · exact h1
  have h3 : Keeps (foot [.reg GLB_DETERMINISM, .reg LNK_DEADLETTER_COUNT, .reg (ENG_STATUS 0x600), .reg COL_OVR_STATUS, .reg COL_OVR_LIVE, .reg NUL_SAT_STATUS, .reg NUL_UNCV_STATUS, .reg NUL_HOLD_STATUS, .reg VAR_T_STATUS, .reg VAR_CLAMP_COUNT, .reg EVT_COUNT, .reg EVT_LOST, .reg EVT_STATUS, .reg (ENG_STATUS 0x1B00), .flt, .win .lnk, .win .pal, .win .nul, .win .var, .win .evt, .recTick, .timers, .bar, .faults] ||| foot [.cou, .bru, .pal, .col, .nul, .var, .str, .evt, .lnk, .free, .srcs]) s s3 := by
    unfold s3
    split
    · exact (State.recordsComplete_keeps _ _).step (by decide +kernel) h2
    · exact h2
  have h4 : Keeps (foot [.reg GLB_DETERMINISM, .reg LNK_DEADLETTER_COUNT, .reg (ENG_STATUS 0x600), .reg COL_OVR_STATUS, .reg COL_OVR_LIVE, .reg NUL_SAT_STATUS, .reg NUL_UNCV_STATUS, .reg NUL_HOLD_STATUS, .reg VAR_T_STATUS, .reg VAR_CLAMP_COUNT, .reg EVT_COUNT, .reg EVT_LOST, .reg EVT_STATUS, .reg (ENG_STATUS 0x1B00), .flt, .win .lnk, .win .pal, .win .nul, .win .var, .win .evt, .recTick, .timers, .bar, .faults] ||| foot [.cou, .bru, .pal, .col, .nul, .var, .str, .evt, .lnk, .free, .srcs]) s s4 := (State.varCopyTick_keeps _).step (by decide +kernel)
    ((State.palCopyTick_keeps _).step (by decide +kernel) ((State.captureTick_keeps _).step (by decide +kernel) h3))
  exact Keeps.ite ((State.cadenceLatch_keeps _).step (by decide +kernel) h4) h4

theorem State.officeTick_keeps (s : State) :
    Keeps (foot [.reg GLB_DETERMINISM, .reg LNK_DEADLETTER_COUNT, .reg LNK_SLOWCTL_STATUS, .reg (ENG_STATUS 0x600), .reg STR_SHEET_COUNT, .reg STR_SKIPPED_COUNT, .reg (ENG_STATUS 0x1B00), .flt, .win .lnk, .recTick, .bar, .faults, .cou, .bru, .str, .evt, .lnk, .free, .srcs]) s (State.officeTick s) := by
  unfold State.officeTick
  extract_lets a1 a2 a3 a4
  have ha1 : Keeps (foot [.reg GLB_DETERMINISM, .reg LNK_DEADLETTER_COUNT, .reg LNK_SLOWCTL_STATUS, .reg (ENG_STATUS 0x600), .reg STR_SHEET_COUNT, .reg STR_SKIPPED_COUNT, .reg (ENG_STATUS 0x1B00), .flt, .win .lnk, .recTick, .bar, .faults, .cou, .bru, .str, .evt, .lnk, .free, .srcs]) s a1 := by
    unfold a1
    repeat' first
      | with_reducible assumption
      | with_reducible apply Keeps.refl
      | with_reducible apply Keeps.ite
      | (apply Keeps.step; with_reducible apply State.sheetDeadline_keeps)
      | (apply Keeps.step; with_reducible apply State.fragHeader_keeps)
      | (apply Keeps.step; with_reducible apply State.dropDue_keeps)
      | (apply Keeps.step; with_reducible apply State.slotFill_keeps)
      | (apply Keeps.step; with_reducible apply State.covers_keeps)
      | (with_reducible apply Keeps.forEach; intro _ _ _)
      | (with_reducible apply Keeps.foldl_fst; intro _ _ _)
      | (with_reducible apply Keeps.foldl_snd; intro _ _ _)
      | (with_reducible apply Keeps.foldl; intro _ _ _)
      | decide +kernel
      | exact sub_flt _ (by decide +kernel)
      | exact sub_eng _ (by decide +kernel)
      | exact sub_hk _ (by decide +kernel)
      | exact sub_port _ _ (by decide +kernel)
      | exact sub_win _ (by decide +kernel)
      | exact sub_any _ (by decide +kernel)
      | split
      | refine Keeps.upd ?_
  try clear_value a1
  have ha2 : Keeps (foot [.reg GLB_DETERMINISM, .reg LNK_DEADLETTER_COUNT, .reg LNK_SLOWCTL_STATUS, .reg (ENG_STATUS 0x600), .reg STR_SHEET_COUNT, .reg STR_SKIPPED_COUNT, .reg (ENG_STATUS 0x1B00), .flt, .win .lnk, .recTick, .bar, .faults, .cou, .bru, .str, .evt, .lnk, .free, .srcs]) s a2 := by
    unfold a2
    repeat' first
      | with_reducible assumption
      | with_reducible apply Keeps.refl
      | with_reducible apply Keeps.ite
      | (apply Keeps.step; with_reducible apply State.sheetDeadline_keeps)
      | (apply Keeps.step; with_reducible apply State.fragHeader_keeps)
      | (apply Keeps.step; with_reducible apply State.dropDue_keeps)
      | (apply Keeps.step; with_reducible apply State.slotFill_keeps)
      | (apply Keeps.step; with_reducible apply State.covers_keeps)
      | (with_reducible apply Keeps.forEach; intro _ _ _)
      | (with_reducible apply Keeps.foldl_fst; intro _ _ _)
      | (with_reducible apply Keeps.foldl_snd; intro _ _ _)
      | (with_reducible apply Keeps.foldl; intro _ _ _)
      | decide +kernel
      | exact sub_flt _ (by decide +kernel)
      | exact sub_eng _ (by decide +kernel)
      | exact sub_hk _ (by decide +kernel)
      | exact sub_port _ _ (by decide +kernel)
      | exact sub_win _ (by decide +kernel)
      | exact sub_any _ (by decide +kernel)
      | split
      | refine Keeps.upd ?_
  try clear_value a2
  try clear_value a3
  have ha4 : Keeps (foot [.reg GLB_DETERMINISM, .reg LNK_DEADLETTER_COUNT, .reg LNK_SLOWCTL_STATUS, .reg (ENG_STATUS 0x600), .reg STR_SHEET_COUNT, .reg STR_SKIPPED_COUNT, .reg (ENG_STATUS 0x1B00), .flt, .win .lnk, .recTick, .bar, .faults, .cou, .bru, .str, .evt, .lnk, .free, .srcs]) s a4 := by
    unfold a4
    repeat' first
      | with_reducible assumption
      | with_reducible apply Keeps.refl
      | with_reducible apply Keeps.ite
      | (apply Keeps.step; with_reducible apply State.sheetDeadline_keeps)
      | (apply Keeps.step; with_reducible apply State.fragHeader_keeps)
      | (apply Keeps.step; with_reducible apply State.dropDue_keeps)
      | (apply Keeps.step; with_reducible apply State.slotFill_keeps)
      | (apply Keeps.step; with_reducible apply State.covers_keeps)
      | (with_reducible apply Keeps.forEach; intro _ _ _)
      | (with_reducible apply Keeps.foldl_fst; intro _ _ _)
      | (with_reducible apply Keeps.foldl_snd; intro _ _ _)
      | (with_reducible apply Keeps.foldl; intro _ _ _)
      | decide +kernel
      | exact sub_flt _ (by decide +kernel)
      | exact sub_eng _ (by decide +kernel)
      | exact sub_hk _ (by decide +kernel)
      | exact sub_port _ _ (by decide +kernel)
      | exact sub_win _ (by decide +kernel)
      | exact sub_any _ (by decide +kernel)
      | split
      | refine Keeps.upd ?_
  try clear_value a4
  repeat' first
    | with_reducible assumption
    | with_reducible apply Keeps.refl
    | with_reducible apply Keeps.ite
    | (apply Keeps.step; with_reducible apply State.sheetDeadline_keeps)
    | (apply Keeps.step; with_reducible apply State.fragHeader_keeps)
    | (apply Keeps.step; with_reducible apply State.dropDue_keeps)
    | (apply Keeps.step; with_reducible apply State.slotFill_keeps)
    | (apply Keeps.step; with_reducible apply State.covers_keeps)
    | (with_reducible apply Keeps.forEach; intro _ _ _)
    | (with_reducible apply Keeps.foldl_fst; intro _ _ _)
    | (with_reducible apply Keeps.foldl_snd; intro _ _ _)
    | (with_reducible apply Keeps.foldl; intro _ _ _)
    | decide +kernel
    | exact sub_flt _ (by decide +kernel)
    | exact sub_eng _ (by decide +kernel)
    | exact sub_hk _ (by decide +kernel)
    | exact sub_port _ _ (by decide +kernel)
    | exact sub_win _ (by decide +kernel)
    | exact sub_any _ (by decide +kernel)
    | split
    | refine Keeps.upd ?_

theorem State.figuresTick_keeps (s : State) :
    Keeps (foot [.reg TIM_LAUNCH_STATUS, .reg PWR_ESTIMATE, .free]) s (State.figuresTick s) := by
  unfold State.figuresTick
  extract_lets a1
  have ha1 : Keeps (foot [.reg TIM_LAUNCH_STATUS, .reg PWR_ESTIMATE, .free]) s a1 := by
    unfold a1
    repeat' first
      | with_reducible assumption
      | with_reducible apply Keeps.refl
      | with_reducible apply Keeps.ite
      | (apply Keeps.step; with_reducible apply State.setFld_keeps)
      | (apply Keeps.step; with_reducible apply State.estimateTick_keeps)
      | (with_reducible apply Keeps.forEach; intro _ _ _)
      | (with_reducible apply Keeps.foldl_fst; intro _ _ _)
      | (with_reducible apply Keeps.foldl_snd; intro _ _ _)
      | (with_reducible apply Keeps.foldl; intro _ _ _)
      | decide +kernel
      | exact sub_flt _ (by decide +kernel)
      | exact sub_eng _ (by decide +kernel)
      | exact sub_hk _ (by decide +kernel)
      | exact sub_port _ _ (by decide +kernel)
      | exact sub_win _ (by decide +kernel)
      | exact sub_any _ (by decide +kernel)
      | split
  try clear_value a1
  repeat' first
    | with_reducible assumption
    | with_reducible apply Keeps.refl
    | with_reducible apply Keeps.ite
    | (apply Keeps.step; with_reducible apply State.setFld_keeps)
    | (apply Keeps.step; with_reducible apply State.estimateTick_keeps)
    | (with_reducible apply Keeps.forEach; intro _ _ _)
    | (with_reducible apply Keeps.foldl_fst; intro _ _ _)
    | (with_reducible apply Keeps.foldl_snd; intro _ _ _)
    | (with_reducible apply Keeps.foldl; intro _ _ _)
    | decide +kernel
    | exact sub_flt _ (by decide +kernel)
    | exact sub_eng _ (by decide +kernel)
    | exact sub_hk _ (by decide +kernel)
    | exact sub_port _ _ (by decide +kernel)
    | exact sub_win _ (by decide +kernel)
    | exact sub_any _ (by decide +kernel)
    | split

theorem State.requestTick_keeps (s : State) :
    Keeps (foot [.anyReg, .anyWin, .recTick, .timers, .hostQ, .fieldQ, .held, .gap, .tm, .bar, .faults, .cou, .bru, .pal, .pwr, .col, .nul, .var, .str, .evt, .lnk, .hka, .hkb, .refOnAt] ||| foot [.cal, .mgt, .cfg, .flash, .free, .winAddrs, .srcs]) s (State.requestTick s) := by
  unfold State.requestTick
  extract_lets a1
  have ha1 : Keeps (foot [.anyReg, .anyWin, .recTick, .timers, .hostQ, .fieldQ, .held, .gap, .tm, .bar, .faults, .cou, .bru, .pal, .pwr, .col, .nul, .var, .str, .evt, .lnk, .hka, .hkb, .refOnAt] ||| foot [.cal, .mgt, .cfg, .flash, .free, .winAddrs, .srcs]) s a1 := by
    unfold a1
    repeat' first
      | with_reducible assumption
      | with_reducible apply Keeps.refl
      | with_reducible apply Keeps.ite
      | (apply Keeps.step; with_reducible apply State.scLate_keeps)
      | (apply Keeps.step; with_reducible apply State.scSend_keeps)
      | (apply Keeps.step; with_reducible apply State.mgtTick_keeps)
      | (with_reducible apply Keeps.forEach; intro _ _ _)
      | (with_reducible apply Keeps.foldl_fst; intro _ _ _)
      | (with_reducible apply Keeps.foldl_snd; intro _ _ _)
      | (with_reducible apply Keeps.foldl; intro _ _ _)
      | decide +kernel
      | exact sub_flt _ (by decide +kernel)
      | exact sub_eng _ (by decide +kernel)
      | exact sub_hk _ (by decide +kernel)
      | exact sub_port _ _ (by decide +kernel)
      | exact sub_win _ (by decide +kernel)
      | exact sub_any _ (by decide +kernel)
      | split
  try clear_value a1
  repeat' first
    | with_reducible assumption
    | with_reducible apply Keeps.refl
    | with_reducible apply Keeps.ite
    | (apply Keeps.step; with_reducible apply State.scLate_keeps)
    | (apply Keeps.step; with_reducible apply State.scSend_keeps)
    | (apply Keeps.step; with_reducible apply State.mgtTick_keeps)
    | (with_reducible apply Keeps.forEach; intro _ _ _)
    | (with_reducible apply Keeps.foldl_fst; intro _ _ _)
    | (with_reducible apply Keeps.foldl_snd; intro _ _ _)
    | (with_reducible apply Keeps.foldl; intro _ _ _)
    | decide +kernel
    | exact sub_flt _ (by decide +kernel)
    | exact sub_eng _ (by decide +kernel)
    | exact sub_hk _ (by decide +kernel)
    | exact sub_port _ _ (by decide +kernel)
    | exact sub_win _ (by decide +kernel)
    | exact sub_any _ (by decide +kernel)
    | split

theorem State.tickBody_keeps (s : State) :
    Keeps anything s (State.tickBody s) := by
  unfold State.tickBody
  extract_lets a1 a2 a3 a4 a5 a6 a7
  have ha1 : Keeps anything s a1 := by
    unfold a1
    repeat' first
      | with_reducible assumption
      | with_reducible apply Keeps.refl
      | with_reducible apply Keeps.ite
      | (apply Keeps.step; with_reducible apply State.sheetBegins_keeps)
      | (apply Keeps.step; with_reducible apply State.laneTick_keeps)
      | (apply Keeps.step; with_reducible apply State.renameDue_keeps)
      | (apply Keeps.step; with_reducible apply State.advance_keeps)
      | (apply Keeps.step; with_reducible apply State.sendTick_keeps)
      | (apply Keeps.step; with_reducible apply State.barrierTick_keeps)
      | (apply Keeps.step; with_reducible apply State.windowTick_keeps)
      | (apply Keeps.step; with_reducible apply State.fastDue_keeps)
      | (apply Keeps.step; with_reducible apply State.stateTick_keeps)
      | (apply Keeps.step; with_reducible apply State.safeTick_keeps)
      | (apply Keeps.step; with_reducible apply State.retireTick_keeps)
      | (apply Keeps.step; with_reducible apply State.writesDue_keeps)
      | (apply Keeps.step; with_reducible apply State.timersDue_keeps)
      | (apply Keeps.step; with_reducible apply State.deliveries_keeps)
      | (apply Keeps.step; with_reducible apply State.driveTick_keeps)
      | with_reducible apply State.fieldPart_keeps
      | (apply Keeps.step; with_reducible apply State.assignSlots_keeps)
      | (apply Keeps.step; with_reducible apply State.calTick_keeps)
      | (apply Keeps.step; with_reducible apply State.houseTick_keeps)
      | (apply Keeps.step; with_reducible apply State.dataTick_keeps)
      | (apply Keeps.step; with_reducible apply State.storeTick_keeps)
      | (apply Keeps.step; with_reducible apply State.officeTick_keeps)
      | (apply Keeps.step; with_reducible apply State.engTick_keeps)
      | (apply Keeps.step; with_reducible apply State.irqTick_keeps)
      | (apply Keeps.step; with_reducible apply State.aliveTick_keeps)
      | (apply Keeps.step; with_reducible apply State.figuresTick_keeps)
      | (apply Keeps.step; with_reducible apply State.requestTick_keeps)
      | (apply Keeps.step; with_reducible apply State.stallTick_keeps)
      | (with_reducible apply Keeps.forEach; intro _ _ _)
      | (intro _ _)
      | (with_reducible apply Keeps.foldl_fst; intro _ _ _)
      | (with_reducible apply Keeps.foldl_snd; intro _ _ _)
      | (with_reducible apply Keeps.foldl; intro _ _ _)
      | decide +kernel
      | exact sub_flt _ (by decide +kernel)
      | exact sub_eng _ (by decide +kernel)
      | exact sub_hk _ (by decide +kernel)
      | exact sub_port _ _ (by decide +kernel)
      | exact sub_win _ (by decide +kernel)
      | exact sub_any _ (by decide +kernel)
      | split
  try clear_value a1
  have ha2 : Keeps anything s a2 := by
    unfold a2
    repeat' first
      | with_reducible assumption
      | with_reducible apply Keeps.refl
      | with_reducible apply Keeps.ite
      | (apply Keeps.step; with_reducible apply State.sheetBegins_keeps)
      | (apply Keeps.step; with_reducible apply State.laneTick_keeps)
      | (apply Keeps.step; with_reducible apply State.renameDue_keeps)
      | (apply Keeps.step; with_reducible apply State.advance_keeps)
      | (apply Keeps.step; with_reducible apply State.sendTick_keeps)
      | (apply Keeps.step; with_reducible apply State.barrierTick_keeps)
      | (apply Keeps.step; with_reducible apply State.windowTick_keeps)
      | (apply Keeps.step; with_reducible apply State.fastDue_keeps)
      | (apply Keeps.step; with_reducible apply State.stateTick_keeps)
      | (apply Keeps.step; with_reducible apply State.safeTick_keeps)
      | (apply Keeps.step; with_reducible apply State.retireTick_keeps)
      | (apply Keeps.step; with_reducible apply State.writesDue_keeps)
      | (apply Keeps.step; with_reducible apply State.timersDue_keeps)
      | (apply Keeps.step; with_reducible apply State.deliveries_keeps)
      | (apply Keeps.step; with_reducible apply State.driveTick_keeps)
      | with_reducible apply State.fieldPart_keeps
      | (apply Keeps.step; with_reducible apply State.assignSlots_keeps)
      | (apply Keeps.step; with_reducible apply State.calTick_keeps)
      | (apply Keeps.step; with_reducible apply State.houseTick_keeps)
      | (apply Keeps.step; with_reducible apply State.dataTick_keeps)
      | (apply Keeps.step; with_reducible apply State.storeTick_keeps)
      | (apply Keeps.step; with_reducible apply State.officeTick_keeps)
      | (apply Keeps.step; with_reducible apply State.engTick_keeps)
      | (apply Keeps.step; with_reducible apply State.irqTick_keeps)
      | (apply Keeps.step; with_reducible apply State.aliveTick_keeps)
      | (apply Keeps.step; with_reducible apply State.figuresTick_keeps)
      | (apply Keeps.step; with_reducible apply State.requestTick_keeps)
      | (apply Keeps.step; with_reducible apply State.stallTick_keeps)
      | (with_reducible apply Keeps.forEach; intro _ _ _)
      | (intro _ _)
      | (with_reducible apply Keeps.foldl_fst; intro _ _ _)
      | (with_reducible apply Keeps.foldl_snd; intro _ _ _)
      | (with_reducible apply Keeps.foldl; intro _ _ _)
      | decide +kernel
      | exact sub_flt _ (by decide +kernel)
      | exact sub_eng _ (by decide +kernel)
      | exact sub_hk _ (by decide +kernel)
      | exact sub_port _ _ (by decide +kernel)
      | exact sub_win _ (by decide +kernel)
      | exact sub_any _ (by decide +kernel)
      | split
  try clear_value a2
  have ha3 : Keeps anything s a3 := by
    unfold a3
    repeat' first
      | with_reducible assumption
      | with_reducible apply Keeps.refl
      | with_reducible apply Keeps.ite
      | (apply Keeps.step; with_reducible apply State.sheetBegins_keeps)
      | (apply Keeps.step; with_reducible apply State.laneTick_keeps)
      | (apply Keeps.step; with_reducible apply State.renameDue_keeps)
      | (apply Keeps.step; with_reducible apply State.advance_keeps)
      | (apply Keeps.step; with_reducible apply State.sendTick_keeps)
      | (apply Keeps.step; with_reducible apply State.barrierTick_keeps)
      | (apply Keeps.step; with_reducible apply State.windowTick_keeps)
      | (apply Keeps.step; with_reducible apply State.fastDue_keeps)
      | (apply Keeps.step; with_reducible apply State.stateTick_keeps)
      | (apply Keeps.step; with_reducible apply State.safeTick_keeps)
      | (apply Keeps.step; with_reducible apply State.retireTick_keeps)
      | (apply Keeps.step; with_reducible apply State.writesDue_keeps)
      | (apply Keeps.step; with_reducible apply State.timersDue_keeps)
      | (apply Keeps.step; with_reducible apply State.deliveries_keeps)
      | (apply Keeps.step; with_reducible apply State.driveTick_keeps)
      | with_reducible apply State.fieldPart_keeps
      | (apply Keeps.step; with_reducible apply State.assignSlots_keeps)
      | (apply Keeps.step; with_reducible apply State.calTick_keeps)
      | (apply Keeps.step; with_reducible apply State.houseTick_keeps)
      | (apply Keeps.step; with_reducible apply State.dataTick_keeps)
      | (apply Keeps.step; with_reducible apply State.storeTick_keeps)
      | (apply Keeps.step; with_reducible apply State.officeTick_keeps)
      | (apply Keeps.step; with_reducible apply State.engTick_keeps)
      | (apply Keeps.step; with_reducible apply State.irqTick_keeps)
      | (apply Keeps.step; with_reducible apply State.aliveTick_keeps)
      | (apply Keeps.step; with_reducible apply State.figuresTick_keeps)
      | (apply Keeps.step; with_reducible apply State.requestTick_keeps)
      | (apply Keeps.step; with_reducible apply State.stallTick_keeps)
      | (with_reducible apply Keeps.forEach; intro _ _ _)
      | (intro _ _)
      | (with_reducible apply Keeps.foldl_fst; intro _ _ _)
      | (with_reducible apply Keeps.foldl_snd; intro _ _ _)
      | (with_reducible apply Keeps.foldl; intro _ _ _)
      | decide +kernel
      | exact sub_flt _ (by decide +kernel)
      | exact sub_eng _ (by decide +kernel)
      | exact sub_hk _ (by decide +kernel)
      | exact sub_port _ _ (by decide +kernel)
      | exact sub_win _ (by decide +kernel)
      | exact sub_any _ (by decide +kernel)
      | split
  try clear_value a3
  have ha4 : Keeps anything s a4 := by
    unfold a4
    repeat' first
      | with_reducible assumption
      | with_reducible apply Keeps.refl
      | with_reducible apply Keeps.ite
      | (apply Keeps.step; with_reducible apply State.sheetBegins_keeps)
      | (apply Keeps.step; with_reducible apply State.laneTick_keeps)
      | (apply Keeps.step; with_reducible apply State.renameDue_keeps)
      | (apply Keeps.step; with_reducible apply State.advance_keeps)
      | (apply Keeps.step; with_reducible apply State.sendTick_keeps)
      | (apply Keeps.step; with_reducible apply State.barrierTick_keeps)
      | (apply Keeps.step; with_reducible apply State.windowTick_keeps)
      | (apply Keeps.step; with_reducible apply State.fastDue_keeps)
      | (apply Keeps.step; with_reducible apply State.stateTick_keeps)
      | (apply Keeps.step; with_reducible apply State.safeTick_keeps)
      | (apply Keeps.step; with_reducible apply State.retireTick_keeps)
      | (apply Keeps.step; with_reducible apply State.writesDue_keeps)
      | (apply Keeps.step; with_reducible apply State.timersDue_keeps)
      | (apply Keeps.step; with_reducible apply State.deliveries_keeps)
      | (apply Keeps.step; with_reducible apply State.driveTick_keeps)
      | with_reducible apply State.fieldPart_keeps
      | (apply Keeps.step; with_reducible apply State.assignSlots_keeps)
      | (apply Keeps.step; with_reducible apply State.calTick_keeps)
      | (apply Keeps.step; with_reducible apply State.houseTick_keeps)
      | (apply Keeps.step; with_reducible apply State.dataTick_keeps)
      | (apply Keeps.step; with_reducible apply State.storeTick_keeps)
      | (apply Keeps.step; with_reducible apply State.officeTick_keeps)
      | (apply Keeps.step; with_reducible apply State.engTick_keeps)
      | (apply Keeps.step; with_reducible apply State.irqTick_keeps)
      | (apply Keeps.step; with_reducible apply State.aliveTick_keeps)
      | (apply Keeps.step; with_reducible apply State.figuresTick_keeps)
      | (apply Keeps.step; with_reducible apply State.requestTick_keeps)
      | (apply Keeps.step; with_reducible apply State.stallTick_keeps)
      | (with_reducible apply Keeps.forEach; intro _ _ _)
      | (intro _ _)
      | (with_reducible apply Keeps.foldl_fst; intro _ _ _)
      | (with_reducible apply Keeps.foldl_snd; intro _ _ _)
      | (with_reducible apply Keeps.foldl; intro _ _ _)
      | decide +kernel
      | exact sub_flt _ (by decide +kernel)
      | exact sub_eng _ (by decide +kernel)
      | exact sub_hk _ (by decide +kernel)
      | exact sub_port _ _ (by decide +kernel)
      | exact sub_win _ (by decide +kernel)
      | exact sub_any _ (by decide +kernel)
      | split
  try clear_value a4
  have ha5 : Keeps anything s a5 := by
    unfold a5
    repeat' first
      | with_reducible assumption
      | with_reducible apply Keeps.refl
      | with_reducible apply Keeps.ite
      | (apply Keeps.step; with_reducible apply State.sheetBegins_keeps)
      | (apply Keeps.step; with_reducible apply State.laneTick_keeps)
      | (apply Keeps.step; with_reducible apply State.renameDue_keeps)
      | (apply Keeps.step; with_reducible apply State.advance_keeps)
      | (apply Keeps.step; with_reducible apply State.sendTick_keeps)
      | (apply Keeps.step; with_reducible apply State.barrierTick_keeps)
      | (apply Keeps.step; with_reducible apply State.windowTick_keeps)
      | (apply Keeps.step; with_reducible apply State.fastDue_keeps)
      | (apply Keeps.step; with_reducible apply State.stateTick_keeps)
      | (apply Keeps.step; with_reducible apply State.safeTick_keeps)
      | (apply Keeps.step; with_reducible apply State.retireTick_keeps)
      | (apply Keeps.step; with_reducible apply State.writesDue_keeps)
      | (apply Keeps.step; with_reducible apply State.timersDue_keeps)
      | (apply Keeps.step; with_reducible apply State.deliveries_keeps)
      | (apply Keeps.step; with_reducible apply State.driveTick_keeps)
      | with_reducible apply State.fieldPart_keeps
      | (apply Keeps.step; with_reducible apply State.assignSlots_keeps)
      | (apply Keeps.step; with_reducible apply State.calTick_keeps)
      | (apply Keeps.step; with_reducible apply State.houseTick_keeps)
      | (apply Keeps.step; with_reducible apply State.dataTick_keeps)
      | (apply Keeps.step; with_reducible apply State.storeTick_keeps)
      | (apply Keeps.step; with_reducible apply State.officeTick_keeps)
      | (apply Keeps.step; with_reducible apply State.engTick_keeps)
      | (apply Keeps.step; with_reducible apply State.irqTick_keeps)
      | (apply Keeps.step; with_reducible apply State.aliveTick_keeps)
      | (apply Keeps.step; with_reducible apply State.figuresTick_keeps)
      | (apply Keeps.step; with_reducible apply State.requestTick_keeps)
      | (apply Keeps.step; with_reducible apply State.stallTick_keeps)
      | (with_reducible apply Keeps.forEach; intro _ _ _)
      | (intro _ _)
      | (with_reducible apply Keeps.foldl_fst; intro _ _ _)
      | (with_reducible apply Keeps.foldl_snd; intro _ _ _)
      | (with_reducible apply Keeps.foldl; intro _ _ _)
      | decide +kernel
      | exact sub_flt _ (by decide +kernel)
      | exact sub_eng _ (by decide +kernel)
      | exact sub_hk _ (by decide +kernel)
      | exact sub_port _ _ (by decide +kernel)
      | exact sub_win _ (by decide +kernel)
      | exact sub_any _ (by decide +kernel)
      | split
  try clear_value a5
  have ha6 : Keeps anything s a6 := by
    unfold a6
    repeat' first
      | with_reducible assumption
      | with_reducible apply Keeps.refl
      | with_reducible apply Keeps.ite
      | (apply Keeps.step; with_reducible apply State.sheetBegins_keeps)
      | (apply Keeps.step; with_reducible apply State.laneTick_keeps)
      | (apply Keeps.step; with_reducible apply State.renameDue_keeps)
      | (apply Keeps.step; with_reducible apply State.advance_keeps)
      | (apply Keeps.step; with_reducible apply State.sendTick_keeps)
      | (apply Keeps.step; with_reducible apply State.barrierTick_keeps)
      | (apply Keeps.step; with_reducible apply State.windowTick_keeps)
      | (apply Keeps.step; with_reducible apply State.fastDue_keeps)
      | (apply Keeps.step; with_reducible apply State.stateTick_keeps)
      | (apply Keeps.step; with_reducible apply State.safeTick_keeps)
      | (apply Keeps.step; with_reducible apply State.retireTick_keeps)
      | (apply Keeps.step; with_reducible apply State.writesDue_keeps)
      | (apply Keeps.step; with_reducible apply State.timersDue_keeps)
      | (apply Keeps.step; with_reducible apply State.deliveries_keeps)
      | (apply Keeps.step; with_reducible apply State.driveTick_keeps)
      | with_reducible apply State.fieldPart_keeps
      | (apply Keeps.step; with_reducible apply State.assignSlots_keeps)
      | (apply Keeps.step; with_reducible apply State.calTick_keeps)
      | (apply Keeps.step; with_reducible apply State.houseTick_keeps)
      | (apply Keeps.step; with_reducible apply State.dataTick_keeps)
      | (apply Keeps.step; with_reducible apply State.storeTick_keeps)
      | (apply Keeps.step; with_reducible apply State.officeTick_keeps)
      | (apply Keeps.step; with_reducible apply State.engTick_keeps)
      | (apply Keeps.step; with_reducible apply State.irqTick_keeps)
      | (apply Keeps.step; with_reducible apply State.aliveTick_keeps)
      | (apply Keeps.step; with_reducible apply State.figuresTick_keeps)
      | (apply Keeps.step; with_reducible apply State.requestTick_keeps)
      | (apply Keeps.step; with_reducible apply State.stallTick_keeps)
      | (with_reducible apply Keeps.forEach; intro _ _ _)
      | (intro _ _)
      | (with_reducible apply Keeps.foldl_fst; intro _ _ _)
      | (with_reducible apply Keeps.foldl_snd; intro _ _ _)
      | (with_reducible apply Keeps.foldl; intro _ _ _)
      | decide +kernel
      | exact sub_flt _ (by decide +kernel)
      | exact sub_eng _ (by decide +kernel)
      | exact sub_hk _ (by decide +kernel)
      | exact sub_port _ _ (by decide +kernel)
      | exact sub_win _ (by decide +kernel)
      | exact sub_any _ (by decide +kernel)
      | split
  try clear_value a6
  have ha7 : Keeps anything s a7 := by
    unfold a7
    repeat' first
      | with_reducible assumption
      | with_reducible apply Keeps.refl
      | with_reducible apply Keeps.ite
      | (apply Keeps.step; with_reducible apply State.sheetBegins_keeps)
      | (apply Keeps.step; with_reducible apply State.laneTick_keeps)
      | (apply Keeps.step; with_reducible apply State.renameDue_keeps)
      | (apply Keeps.step; with_reducible apply State.advance_keeps)
      | (apply Keeps.step; with_reducible apply State.sendTick_keeps)
      | (apply Keeps.step; with_reducible apply State.barrierTick_keeps)
      | (apply Keeps.step; with_reducible apply State.windowTick_keeps)
      | (apply Keeps.step; with_reducible apply State.fastDue_keeps)
      | (apply Keeps.step; with_reducible apply State.stateTick_keeps)
      | (apply Keeps.step; with_reducible apply State.safeTick_keeps)
      | (apply Keeps.step; with_reducible apply State.retireTick_keeps)
      | (apply Keeps.step; with_reducible apply State.writesDue_keeps)
      | (apply Keeps.step; with_reducible apply State.timersDue_keeps)
      | (apply Keeps.step; with_reducible apply State.deliveries_keeps)
      | (apply Keeps.step; with_reducible apply State.driveTick_keeps)
      | with_reducible apply State.fieldPart_keeps
      | (apply Keeps.step; with_reducible apply State.assignSlots_keeps)
      | (apply Keeps.step; with_reducible apply State.calTick_keeps)
      | (apply Keeps.step; with_reducible apply State.houseTick_keeps)
      | (apply Keeps.step; with_reducible apply State.dataTick_keeps)
      | (apply Keeps.step; with_reducible apply State.storeTick_keeps)
      | (apply Keeps.step; with_reducible apply State.officeTick_keeps)
      | (apply Keeps.step; with_reducible apply State.engTick_keeps)
      | (apply Keeps.step; with_reducible apply State.irqTick_keeps)
      | (apply Keeps.step; with_reducible apply State.aliveTick_keeps)
      | (apply Keeps.step; with_reducible apply State.figuresTick_keeps)
      | (apply Keeps.step; with_reducible apply State.requestTick_keeps)
      | (apply Keeps.step; with_reducible apply State.stallTick_keeps)
      | (with_reducible apply Keeps.forEach; intro _ _ _)
      | (intro _ _)
      | (with_reducible apply Keeps.foldl_fst; intro _ _ _)
      | (with_reducible apply Keeps.foldl_snd; intro _ _ _)
      | (with_reducible apply Keeps.foldl; intro _ _ _)
      | decide +kernel
      | exact sub_flt _ (by decide +kernel)
      | exact sub_eng _ (by decide +kernel)
      | exact sub_hk _ (by decide +kernel)
      | exact sub_port _ _ (by decide +kernel)
      | exact sub_win _ (by decide +kernel)
      | exact sub_any _ (by decide +kernel)
      | split
  try clear_value a7
  repeat' first
    | with_reducible assumption
    | with_reducible apply Keeps.refl
    | with_reducible apply Keeps.ite
    | (apply Keeps.step; with_reducible apply State.sheetBegins_keeps)
    | (apply Keeps.step; with_reducible apply State.laneTick_keeps)
    | (apply Keeps.step; with_reducible apply State.renameDue_keeps)
    | (apply Keeps.step; with_reducible apply State.advance_keeps)
    | (apply Keeps.step; with_reducible apply State.sendTick_keeps)
    | (apply Keeps.step; with_reducible apply State.barrierTick_keeps)
    | (apply Keeps.step; with_reducible apply State.windowTick_keeps)
    | (apply Keeps.step; with_reducible apply State.fastDue_keeps)
    | (apply Keeps.step; with_reducible apply State.stateTick_keeps)
    | (apply Keeps.step; with_reducible apply State.safeTick_keeps)
    | (apply Keeps.step; with_reducible apply State.retireTick_keeps)
    | (apply Keeps.step; with_reducible apply State.writesDue_keeps)
    | (apply Keeps.step; with_reducible apply State.timersDue_keeps)
    | (apply Keeps.step; with_reducible apply State.deliveries_keeps)
    | (apply Keeps.step; with_reducible apply State.driveTick_keeps)
    | with_reducible apply State.fieldPart_keeps
    | (apply Keeps.step; with_reducible apply State.assignSlots_keeps)
    | (apply Keeps.step; with_reducible apply State.calTick_keeps)
    | (apply Keeps.step; with_reducible apply State.houseTick_keeps)
    | (apply Keeps.step; with_reducible apply State.dataTick_keeps)
    | (apply Keeps.step; with_reducible apply State.storeTick_keeps)
    | (apply Keeps.step; with_reducible apply State.officeTick_keeps)
    | (apply Keeps.step; with_reducible apply State.engTick_keeps)
    | (apply Keeps.step; with_reducible apply State.irqTick_keeps)
    | (apply Keeps.step; with_reducible apply State.aliveTick_keeps)
    | (apply Keeps.step; with_reducible apply State.figuresTick_keeps)
    | (apply Keeps.step; with_reducible apply State.requestTick_keeps)
    | (apply Keeps.step; with_reducible apply State.stallTick_keeps)
    | (with_reducible apply Keeps.forEach; intro _ _ _)
    | (intro _ _)
    | (with_reducible apply Keeps.foldl_fst; intro _ _ _)
    | (with_reducible apply Keeps.foldl_snd; intro _ _ _)
    | (with_reducible apply Keeps.foldl; intro _ _ _)
    | decide +kernel
    | exact sub_flt _ (by decide +kernel)
    | exact sub_eng _ (by decide +kernel)
    | exact sub_hk _ (by decide +kernel)
    | exact sub_port _ _ (by decide +kernel)
    | exact sub_win _ (by decide +kernel)
    | exact sub_any _ (by decide +kernel)
    | split

theorem State.tickStep_keeps (s : State) :
    Keeps anything s (State.tickStep s) := by
  unfold State.tickStep
  repeat' first
    | with_reducible assumption
    | with_reducible apply Keeps.refl
    | with_reducible apply Keeps.ite
    | (apply Keeps.step; with_reducible apply State.lockLost_keeps)
    | (apply Keeps.step; with_reducible apply State.tickBody_keeps)
    | (with_reducible apply Keeps.forEach; intro _ _ _)
    | (with_reducible apply Keeps.foldl_fst; intro _ _ _)
    | (with_reducible apply Keeps.foldl_snd; intro _ _ _)
    | (with_reducible apply Keeps.foldl; intro _ _ _)
    | decide +kernel
    | exact sub_flt _ (by decide +kernel)
    | exact sub_eng _ (by decide +kernel)
    | exact sub_hk _ (by decide +kernel)
    | exact sub_port _ _ (by decide +kernel)
    | exact sub_win _ (by decide +kernel)
    | exact sub_any _ (by decide +kernel)
    | split

end Sys2Proof.Machine
end

