-- ==== Sys2Proof/Laws/KeepsGuards.lean ====
section
/-!
SUPPORT. Footprints of the operations of Machine/Guards.lean: which parts of a state each can change.
-/
set_option Elab.async false
set_option linter.unusedTactic false
set_option linter.unreachableTactic false
namespace Sys2Proof.Machine

theorem State.onTick_keeps {M : Nat} {s0 : State} (s : State) (f : State → State)
    (hf : ∀ t, Keeps M s0 t → Keeps M s0 (f t)) (h : Keeps M s0 s) : Keeps M s0 (State.onTick s f) :=
  Keeps.ite (hf _ h) h

theorem State.onField_keeps {M : Nat} {s0 : State} (s : State) (f : State → State)
    (hf : ∀ t, Keeps M s0 t → Keeps M s0 (f t)) (h : Keeps M s0 s) : Keeps M s0 (State.onField s f) :=
  Keeps.ite (hf _ h) h

theorem State.onDie_keeps {M : Nat} {s0 : State} (s : State) (d : Die) (f : State → State)
    (hf : ∀ t, Keeps M s0 t → Keeps M s0 (f t)) (h : Keeps M s0 s) : Keeps M s0 (State.onDie s d f) :=
  match d with
  | .host => Keeps.ite (hf _ h) h
  | .field => Keeps.ite (hf _ h) h

theorem State.onEngine_keeps {M : Nat} {s0 : State} (s : State) (e : Eng) (f : State → State)
    (hf : ∀ t, Keeps M s0 t → Keeps M s0 (f t)) (h : Keeps M s0 s) : Keeps M s0 (State.onEngine s e f) :=
  State.onDie_keeps s _ f hf h

theorem State.onIndex_keeps {M : Nat} {s0 : State} (s : State) (i : Nat) (f : State → State)
    (hf : ∀ t, Keeps M s0 t → Keeps M s0 (f t)) (h : Keeps M s0 s) : Keeps M s0 (State.onIndex s i f) :=
  State.onDie_keeps s _ f hf h

theorem State.always_keeps {M : Nat} {s0 : State} (s : State) (f : State → State)
    (hf : ∀ t, Keeps M s0 t → Keeps M s0 (f t)) (h : Keeps M s0 s) : Keeps M s0 (State.always s f) :=
  hf _ h

theorem State.onBlock_keeps {M : Nat} {s0 : State} (s : State) (b : Blk) (f : State → State)
    (hf : ∀ t, Keeps M s0 t → Keeps M s0 (f t)) (h : Keeps M s0 s) : Keeps M s0 (State.onBlock s b f) :=
  State.onIndex_keeps s _ f hf h

end Sys2Proof.Machine
end

