-- ==== Sys2Proof/Laws/KeepsCmdTime.lean ====
section
/-!
SUPPORT. Footprints of the commands of Machine/CmdTime.lean: which parts of a state each can change.
-/
set_option Elab.async false
set_option linter.unusedTactic false
set_option linter.unreachableTactic false
namespace Sys2Proof.Machine

theorem execTrig_keeps {t : State} (s : State)
    (h : execTrig s = .next t) : Keeps (foot [.reg GLB_DETERMINISM, .reg TIM_FASTCMD_COUNT, .reg TIM_FASTCMD_LAST, .reg LNK_DEADLETTER_COUNT, .reg (ENG_STATUS 0x600), .reg EVT_COUNT, .reg EVT_LOST, .reg EVT_STATUS, .reg (ENG_STATUS 0x1B00), .flt, .win .lnk, .recTick, .bar, .faults, .cou, .bru, .evt, .lnk, .free, .srcs]) s t := by
  unfold execTrig at h
  cases h
  repeat' first
    | with_reducible assumption
    | with_reducible apply Keeps.refl
    | with_reducible apply Keeps.ite
    | with_reducible apply State.onTick_keeps
    | (apply Keeps.step; with_reducible apply State.trigCmd_keeps)
    | (with_reducible apply Keeps.forEach; intro _ _ _)
    | (intro _ _)
    | (with_reducible apply Keeps.foldl_fst; intro _ _ _)
    | (with_reducible apply Keeps.foldl_snd; intro _ _ _)
    | (with_reducible apply Keeps.foldl; intro _ _ _)
    | decide +kernel
    | exact sub_flt _ (by decide +kernel)
    | exact sub_eng _ (by decide +kernel)
    | exact sub_hk _ (by decide +kernel)
    | exact sub_port _ _ (by decide +kernel)
    | exact sub_win _ (by decide +kernel)
    | exact sub_any _ (by decide +kernel)
    | split

theorem execHalt_keeps {t : State} (s : State)
    (h : execHalt s = .next t) : Keeps (foot [.reg GLB_STATE, .reg GLB_DETERMINISM, .reg TIM_FASTCMD_COUNT, .reg TIM_FASTCMD_LAST, .cou, .bru]) s t := by
  unfold execHalt at h
  cases h
  repeat' first
    | with_reducible assumption
    | with_reducible apply Keeps.refl
    | with_reducible apply Keeps.ite
    | with_reducible apply State.onTick_keeps
    | (apply Keeps.step; with_reducible apply State.haltFast_keeps)
    | (with_reducible apply Keeps.forEach; intro _ _ _)
    | (intro _ _)
    | (with_reducible apply Keeps.foldl_fst; intro _ _ _)
    | (with_reducible apply Keeps.foldl_snd; intro _ _ _)
    | (with_reducible apply Keeps.foldl; intro _ _ _)
    | decide +kernel
    | exact sub_flt _ (by decide +kernel)
    | exact sub_eng _ (by decide +kernel)
    | exact sub_hk _ (by decide +kernel)
    | exact sub_port _ _ (by decide +kernel)
    | exact sub_win _ (by decide +kernel)
    | exact sub_any _ (by decide +kernel)
    | split

theorem execEpochAdvance_keeps {t : State} (s : State)
    (h : execEpochAdvance s = .next t) : Keeps (foot [.reg TIM_FASTCMD_COUNT, .reg TIM_FASTCMD_LAST, .reg LNK_EPOCH, .reg (ENG_STATUS 0x600), .reg (ENG_STATUS 0x1B00), .bar, .cou, .bru, .free]) s t := by
  unfold execEpochAdvance at h
  cases h
  repeat' first
    | with_reducible assumption
    | with_reducible apply Keeps.refl
    | with_reducible apply Keeps.ite
    | with_reducible apply State.onTick_keeps
    | (apply Keeps.step; with_reducible apply State.epochCmd_keeps)
    | (with_reducible apply Keeps.forEach; intro _ _ _)
    | (intro _ _)
    | (with_reducible apply Keeps.foldl_fst; intro _ _ _)
    | (with_reducible apply Keeps.foldl_snd; intro _ _ _)
    | (with_reducible apply Keeps.foldl; intro _ _ _)
    | decide +kernel
    | exact sub_flt _ (by decide +kernel)
    | exact sub_eng _ (by decide +kernel)
    | exact sub_hk _ (by decide +kernel)
    | exact sub_port _ _ (by decide +kernel)
    | exact sub_win _ (by decide +kernel)
    | exact sub_any _ (by decide +kernel)
    | split

theorem execQuietWindowOpen_keeps {t : State} (s : State)
    (h : execQuietWindowOpen s = .next t) : Keeps (foot [.reg GLB_DETERMINISM, .reg TIM_GAP_COUNT, .reg LNK_DEADLETTER_COUNT, .reg (ENG_STATUS 0x600), .reg (HKx_CTRL 0x1700), .reg (HKx_STATUS 0x1700), .reg (HKx_OVERRUN_COUNT 0x1700), .reg (HKx_CTRL 0x1800), .reg (HKx_STATUS 0x1800), .reg (HKx_OVERRUN_COUNT 0x1800), .reg HKS_EXC_STATUS, .reg CAL_TRACE_STATUS, .reg (ENG_STATUS 0x1B00), .flt, .win .lnk, .recTick, .gap, .bar, .faults, .cou, .bru, .lnk, .hka, .hkb] ||| foot [.cal, .free, .srcs]) s t := by
  unfold execQuietWindowOpen at h
  cases h
  repeat' first
    | with_reducible assumption
    | with_reducible apply Keeps.refl
    | with_reducible apply Keeps.ite
    | with_reducible apply State.onTick_keeps
    | (apply Keeps.step; with_reducible apply State.windowOpens_keeps)
    | (with_reducible apply Keeps.forEach; intro _ _ _)
    | (intro _ _)
    | (with_reducible apply Keeps.foldl_fst; intro _ _ _)
    | (with_reducible apply Keeps.foldl_snd; intro _ _ _)
    | (with_reducible apply Keeps.foldl; intro _ _ _)
    | decide +kernel
    | exact sub_flt _ (by decide +kernel)
    | exact sub_eng _ (by decide +kernel)
    | exact sub_hk _ (by decide +kernel)
    | exact sub_port _ _ (by decide +kernel)
    | exact sub_win _ (by decide +kernel)
    | exact sub_any _ (by decide +kernel)
    | split

theorem execRun_keeps {t : State} (s : State)
    (h : execRun s = .next t) : Keeps (foot [.reg GLB_STATE, .reg GLB_DETERMINISM, .reg TIM_FASTCMD_COUNT, .reg TIM_FASTCMD_LAST, .reg (ENG_BREAK 0x600), .reg NUL_PRIMER_CTRL, .reg (ENG_BREAK 0x1B00), .win .nul, .cou, .bru, .col, .nul, .cfg]) s t := by
  unfold execRun at h
  cases h
  repeat' first
    | with_reducible assumption
    | with_reducible apply Keeps.refl
    | with_reducible apply Keeps.ite
    | with_reducible apply State.onTick_keeps
    | (apply Keeps.step; with_reducible apply State.loopStartDue_keeps)
    | (apply Keeps.step; with_reducible apply State.runFast_keeps)
    | (with_reducible apply Keeps.forEach; intro _ _ _)
    | (intro _ _)
    | (with_reducible apply Keeps.foldl_fst; intro _ _ _)
    | (with_reducible apply Keeps.foldl_snd; intro _ _ _)
    | (with_reducible apply Keeps.foldl; intro _ _ _)
    | decide +kernel
    | exact sub_flt _ (by decide +kernel)
    | exact sub_eng _ (by decide +kernel)
    | exact sub_hk _ (by decide +kernel)
    | exact sub_port _ _ (by decide +kernel)
    | exact sub_win _ (by decide +kernel)
    | exact sub_any _ (by decide +kernel)
    | split

theorem execGapClose_keeps {t : State} (s : State)
    (h : execGapClose s = .next t) : Keeps (foot [.reg GLB_DETERMINISM, .reg TIM_GAP_COUNT, .reg TIM_FASTCMD_COUNT, .reg TIM_FASTCMD_LAST, .reg LNK_DEADLETTER_COUNT, .reg (ENG_STATUS 0x600), .reg CAL_STATUS, .reg CAL_DEFER_COUNT, .reg (ENG_STATUS 0x1B00), .flt, .win .lnk, .win .nul, .win .cal, .recTick, .gap, .bar, .faults, .cou, .bru, .col, .nul, .lnk, .cal, .free] ||| foot [.srcs]) s t := by
  unfold execGapClose at h
  cases h
  repeat' first
    | with_reducible assumption
    | with_reducible apply Keeps.refl
    | with_reducible apply Keeps.ite
    | with_reducible apply State.onTick_keeps
    | (apply Keeps.step; with_reducible apply State.gapCloseCmd_keeps)
    | (with_reducible apply Keeps.forEach; intro _ _ _)
    | (intro _ _)
    | (with_reducible apply Keeps.foldl_fst; intro _ _ _)
    | (with_reducible apply Keeps.foldl_snd; intro _ _ _)
    | (with_reducible apply Keeps.foldl; intro _ _ _)
    | decide +kernel
    | exact sub_flt _ (by decide +kernel)
    | exact sub_eng _ (by decide +kernel)
    | exact sub_hk _ (by decide +kernel)
    | exact sub_port _ _ (by decide +kernel)
    | exact sub_win _ (by decide +kernel)
    | exact sub_any _ (by decide +kernel)
    | split

theorem execDrape_keeps {t : State} (s : State)
    (h : execDrape s = .next t) : Keeps (foot [.reg GLB_DETERMINISM, .reg TIM_FASTCMD_COUNT, .reg TIM_FASTCMD_LAST, .reg LNK_DEADLETTER_COUNT, .reg (ENG_STATUS 0x600), .reg CAL_STATUS, .reg CAL_DEFER_COUNT, .reg (ENG_STATUS 0x1B00), .flt, .win .lnk, .win .nul, .win .cal, .recTick, .bar, .pin, .faults, .cou, .bru, .pal, .pwr, .col, .nul, .lnk, .cal] ||| foot [.free, .srcs]) s t := by
  unfold execDrape at h
  cases h
  repeat' first
    | with_reducible assumption
    | with_reducible apply Keeps.refl
    | with_reducible apply Keeps.ite
    | with_reducible apply State.onTick_keeps
    | (apply Keeps.step; with_reducible apply State.drapeCmd_keeps)
    | (with_reducible apply Keeps.forEach; intro _ _ _)
    | (intro _ _)
    | (with_reducible apply Keeps.foldl_fst; intro _ _ _)
    | (with_reducible apply Keeps.foldl_snd; intro _ _ _)
    | (with_reducible apply Keeps.foldl; intro _ _ _)
    | decide +kernel
    | exact sub_flt _ (by decide +kernel)
    | exact sub_eng _ (by decide +kernel)
    | exact sub_hk _ (by decide +kernel)
    | exact sub_port _ _ (by decide +kernel)
    | exact sub_win _ (by decide +kernel)
    | exact sub_any _ (by decide +kernel)
    | split

theorem execQuietWindowClose_keeps {t : State} (s : State)
    (h : execQuietWindowClose s = .next t) : Keeps (foot [.reg GLB_DETERMINISM, .reg TIM_GAP_STATUS, .reg TIM_GAP_COUNT, .reg LNK_DEADLETTER_COUNT, .reg CFG_STORE_STATUS, .reg (ENG_STATUS 0x600), .reg NUL_PRIMER_CTRL, .reg CAL_STATUS, .reg CAL_DEFER_COUNT, .reg CAL_LAST_POSTMARK_LO, .reg CAL_LAST_POSTMARK_HI, .reg (ENG_STATUS 0x1B00), .flt, .win .lnk, .win .col, .win .nul, .win .cal, .recTick, .gap, .bar, .faults, .cou, .bru, .nul] ||| foot [.lnk, .cal, .cfg, .free, .srcs]) s t := by
  unfold execQuietWindowClose at h
  cases h
  repeat' first
    | with_reducible assumption
    | with_reducible apply Keeps.refl
    | with_reducible apply Keeps.ite
    | with_reducible apply State.onTick_keeps
    | (apply Keeps.step; with_reducible apply State.windowCloses_keeps)
    | (with_reducible apply Keeps.forEach; intro _ _ _)
    | (intro _ _)
    | (with_reducible apply Keeps.foldl_fst; intro _ _ _)
    | (with_reducible apply Keeps.foldl_snd; intro _ _ _)
    | (with_reducible apply Keeps.foldl; intro _ _ _)
    | decide +kernel
    | exact sub_flt _ (by decide +kernel)
    | exact sub_eng _ (by decide +kernel)
    | exact sub_hk _ (by decide +kernel)
    | exact sub_port _ _ (by decide +kernel)
    | exact sub_win _ (by decide +kernel)
    | exact sub_any _ (by decide +kernel)
    | split

theorem execDrapeLaneInvalid_keeps {t : State} (s : State)
    (h : execDrapeLaneInvalid s = .next t) : Keeps (foot [.reg GLB_DETERMINISM, .reg LNK_DEADLETTER_COUNT, .reg (ENG_STATUS 0x600), .reg CAL_STATUS, .reg CAL_DEFER_COUNT, .reg (ENG_STATUS 0x1B00), .reg FBA_STATUS, .flt, .win .lnk, .win .nul, .win .cal, .recTick, .bar, .pin, .faults, .cou, .bru, .pal, .pwr, .col, .nul, .lnk, .cal, .free] ||| foot [.srcs]) s t := by
  unfold execDrapeLaneInvalid at h
  cases h
  repeat' first
    | with_reducible assumption
    | with_reducible apply Keeps.refl
    | with_reducible apply Keeps.ite
    | with_reducible apply State.onField_keeps
    | (apply Keeps.step; with_reducible apply State.drapeInvalid_keeps)
    | (with_reducible apply Keeps.forEach; intro _ _ _)
    | (intro _ _)
    | (with_reducible apply Keeps.foldl_fst; intro _ _ _)
    | (with_reducible apply Keeps.foldl_snd; intro _ _ _)
    | (with_reducible apply Keeps.foldl; intro _ _ _)
    | decide +kernel
    | exact sub_flt _ (by decide +kernel)
    | exact sub_eng _ (by decide +kernel)
    | exact sub_hk _ (by decide +kernel)
    | exact sub_port _ _ (by decide +kernel)
    | exact sub_win _ (by decide +kernel)
    | exact sub_any _ (by decide +kernel)
    | split

theorem execTickClockRelease_keeps {t : State} (period : BitVec 16) (s : State)
    (h : execTickClockRelease period s = .next t) : Keeps (foot [.reg GLB_STATE, .reg GLB_DETERMINISM, .reg TIM_STATUS, .reg TIM_TICK_PERIOD, .reg LNK_DOWN_STATUS, .reg MGT_STATUS, .regs 0x0308 4, .tm, .cou, .bru, .cfg]) s t := by
  unfold execTickClockRelease at h
  cases h
  repeat' first
    | with_reducible assumption
    | with_reducible apply Keeps.refl
    | with_reducible apply Keeps.ite
    | (apply Keeps.step; with_reducible apply State.clockRelease_keeps)
    | (with_reducible apply Keeps.forEach; intro _ _ _)
    | (with_reducible apply Keeps.foldl_fst; intro _ _ _)
    | (with_reducible apply Keeps.foldl_snd; intro _ _ _)
    | (with_reducible apply Keeps.foldl; intro _ _ _)
    | decide +kernel
    | exact sub_flt _ (by decide +kernel)
    | exact sub_eng _ (by decide +kernel)
    | exact sub_hk _ (by decide +kernel)
    | exact sub_port _ _ (by decide +kernel)
    | exact sub_win _ (by decide +kernel)
    | exact sub_any _ (by decide +kernel)
    | split

theorem execIdle_keeps {t : State} (s : State)
    (h : execIdle s = .next t) : Keeps (foot [.reg TIM_FASTCMD_COUNT, .tm]) s t := by
  unfold execIdle at h
  cases h
  repeat' first
    | with_reducible assumption
    | with_reducible apply Keeps.refl
    | with_reducible apply Keeps.ite
    | with_reducible apply State.onTick_keeps
    | (apply Keeps.step; with_reducible apply State.fastReceive_keeps)
    | (with_reducible apply Keeps.forEach; intro _ _ _)
    | (intro _ _)
    | (with_reducible apply Keeps.foldl_fst; intro _ _ _)
    | (with_reducible apply Keeps.foldl_snd; intro _ _ _)
    | (with_reducible apply Keeps.foldl; intro _ _ _)
    | decide +kernel
    | exact sub_flt _ (by decide +kernel)
    | exact sub_eng _ (by decide +kernel)
    | exact sub_hk _ (by decide +kernel)
    | exact sub_port _ _ (by decide +kernel)
    | exact sub_win _ (by decide +kernel)
    | exact sub_any _ (by decide +kernel)
    | split

theorem execResetN_keeps {t : State} (s : State)
    (h : execResetN s = .next t) : Keeps (foot [.anyReg, .anyWin, .recTick, .timers, .hostQ, .fieldQ, .held, .gap, .tm, .bar, .pin, .faults, .cou, .bru, .pal, .pwr, .col, .nul, .var, .str, .evt, .lnk, .hka, .hkb] ||| foot [.refOnAt, .cal, .mgt, .cfg, .free, .winAddrs, .srcs]) s t := by
  unfold execResetN at h
  cases h
  repeat' first
    | with_reducible assumption
    | with_reducible apply Keeps.refl
    | with_reducible apply Keeps.ite
    | (apply Keeps.step; with_reducible apply State.coldStart_keeps)
    | (with_reducible apply Keeps.forEach; intro _ _ _)
    | (with_reducible apply Keeps.foldl_fst; intro _ _ _)
    | (with_reducible apply Keeps.foldl_snd; intro _ _ _)
    | (with_reducible apply Keeps.foldl; intro _ _ _)
    | decide +kernel
    | exact sub_flt _ (by decide +kernel)
    | exact sub_eng _ (by decide +kernel)
    | exact sub_hk _ (by decide +kernel)
    | exact sub_port _ _ (by decide +kernel)
    | exact sub_win _ (by decide +kernel)
    | exact sub_any _ (by decide +kernel)
    | split

theorem execPowerUp_keeps {t : State} (s : State)
    (h : execPowerUp s = .next t) : Keeps (foot [.anyReg, .anyWin, .recTick, .timers, .hostQ, .fieldQ, .held, .gap, .tm, .bar, .pin, .faults, .cou, .bru, .pal, .pwr, .col, .nul, .var, .str, .evt, .lnk, .hka, .hkb] ||| foot [.refOnAt, .cal, .mgt, .cfg, .free, .winAddrs, .srcs]) s t := by
  unfold execPowerUp at h
  cases h
  repeat' first
    | with_reducible assumption
    | with_reducible apply Keeps.refl
    | with_reducible apply Keeps.ite
    | (apply Keeps.step; with_reducible apply State.coldStart_keeps)
    | (with_reducible apply Keeps.forEach; intro _ _ _)
    | (with_reducible apply Keeps.foldl_fst; intro _ _ _)
    | (with_reducible apply Keeps.foldl_snd; intro _ _ _)
    | (with_reducible apply Keeps.foldl; intro _ _ _)
    | decide +kernel
    | exact sub_flt _ (by decide +kernel)
    | exact sub_eng _ (by decide +kernel)
    | exact sub_hk _ (by decide +kernel)
    | exact sub_port _ _ (by decide +kernel)
    | exact sub_win _ (by decide +kernel)
    | exact sub_any _ (by decide +kernel)
    | split

theorem execDownlinkBlock_keeps {t : State} (header : BitVec 2) (line : BitVec 64) (s : State)
    (h : execDownlinkBlock header line s = .next t) : Keeps (foot [.anyReg, .anyWin, .recTick, .timers, .hostQ, .fieldQ, .held, .gap, .tm, .bar, .faults, .cou, .bru, .pal, .pwr, .col, .nul, .var, .str, .evt, .lnk, .hka, .hkb, .refOnAt] ||| foot [.cal, .mgt, .cfg, .flash, .free, .winAddrs, .srcs]) s t := by
  unfold execDownlinkBlock at h
  cases h
  repeat' first
    | with_reducible assumption
    | with_reducible apply Keeps.refl
    | with_reducible apply Keeps.ite
    | (apply Keeps.step; with_reducible apply State.downBlock_keeps)
    | (with_reducible apply Keeps.forEach; intro _ _ _)
    | (with_reducible apply Keeps.foldl_fst; intro _ _ _)
    | (with_reducible apply Keeps.foldl_snd; intro _ _ _)
    | (with_reducible apply Keeps.foldl; intro _ _ _)
    | decide +kernel
    | exact sub_flt _ (by decide +kernel)
    | exact sub_eng _ (by decide +kernel)
    | exact sub_hk _ (by decide +kernel)
    | exact sub_port _ _ (by decide +kernel)
    | exact sub_win _ (by decide +kernel)
    | exact sub_any _ (by decide +kernel)
    | split

theorem execPostmarkRename_keeps {t : State} (s : State)
    (h : execPostmarkRename s = .next t) : Keeps (foot [.reg GLB_STATE, .reg GLB_DETERMINISM, .reg TIM_STATUS, .reg TIM_FIXED_LATENCY, .reg TIM_LAUNCH_STATUS, .reg TIM_FASTCMD_COUNT, .reg TIM_FASTCMD_LAST, .reg LNK_SCHED_SEL, .reg LNK_DEADLETTER_COUNT, .reg LNK_SLOWCTL_STATUS, .reg (ENG_STATUS 0x600), .reg PWR_STATE, .reg PAL_STATUS, .reg EVT_LOST, .reg EVT_STATUS, .reg (HKx_CTRL 0x1700), .reg (HKx_STATUS 0x1700), .reg (HKx_OVERRUN_COUNT 0x1700), .reg (HKx_CAL_STATUS 0x1700), .reg (HKx_CTRL 0x1800), .reg (HKx_STATUS 0x1800), .reg (HKx_OVERRUN_COUNT 0x1800), .reg (HKx_CAL_STATUS 0x1800), .reg HKS_EXC_STATUS] ||| foot [.reg (ENG_STATUS 0x1B00), .flt, .win .lnk, .recTick, .hostQ, .fieldQ, .gap, .tm, .bar, .faults, .cou, .bru, .pwr, .col, .nul, .var, .str, .evt, .lnk, .hka, .hkb, .mgt, .free, .srcs]) s t := by
  unfold execPostmarkRename at h
  cases h
  repeat' first
    | with_reducible assumption
    | with_reducible apply Keeps.refl
    | with_reducible apply Keeps.ite
    | with_reducible apply State.onTick_keeps
    | (apply Keeps.step; with_reducible apply State.renameDue_keeps)
    | (with_reducible apply Keeps.forEach; intro _ _ _)
    | (intro _ _)
    | (with_reducible apply Keeps.foldl_fst; intro _ _ _)
    | (with_reducible apply Keeps.foldl_snd; intro _ _ _)
    | (with_reducible apply Keeps.foldl; intro _ _ _)
    | decide +kernel
    | exact sub_flt _ (by decide +kernel)
    | exact sub_eng _ (by decide +kernel)
    | exact sub_hk _ (by decide +kernel)
    | exact sub_port _ _ (by decide +kernel)
    | exact sub_win _ (by decide +kernel)
    | exact sub_any _ (by decide +kernel)
    | split

theorem execGapLimitClose_keeps {t : State} (s : State)
    (h : execGapLimitClose s = .next t) : Keeps (foot [.reg GLB_DETERMINISM, .reg TIM_GAP_STATUS, .reg TIM_GAP_COUNT, .reg LNK_DEADLETTER_COUNT, .reg (ENG_STATUS 0x600), .reg CAL_STATUS, .reg CAL_DEFER_COUNT, .reg (ENG_STATUS 0x1B00), .flt, .win .lnk, .win .nul, .win .cal, .recTick, .gap, .bar, .faults, .cou, .bru, .col, .nul, .lnk, .cal, .free, .srcs]) s t := by
  unfold execGapLimitClose at h
  cases h
  repeat' first
    | with_reducible assumption
    | with_reducible apply Keeps.refl
    | with_reducible apply Keeps.ite
    | with_reducible apply State.onTick_keeps
    | (apply Keeps.step; with_reducible apply State.gapForced_keeps)
    | (with_reducible apply Keeps.forEach; intro _ _ _)
    | (intro _ _)
    | (with_reducible apply Keeps.foldl_fst; intro _ _ _)
    | (with_reducible apply Keeps.foldl_snd; intro _ _ _)
    | (with_reducible apply Keeps.foldl; intro _ _ _)
    | decide +kernel
    | exact sub_flt _ (by decide +kernel)
    | exact sub_eng _ (by decide +kernel)
    | exact sub_hk _ (by decide +kernel)
    | exact sub_port _ _ (by decide +kernel)
    | exact sub_win _ (by decide +kernel)
    | exact sub_any _ (by decide +kernel)
    | split

theorem execSheetMark_keeps {t : State} (s : State)
    (h : execSheetMark s = .next t) : Keeps (foot [.reg GLB_DETERMINISM, .reg TIM_SHEET_ALIGN, .reg TIM_FASTCMD_COUNT, .reg TIM_FASTCMD_LAST, .reg LNK_DEADLETTER_COUNT, .reg (ENG_STATUS 0x600), .reg (ENG_STATUS 0x1B00), .flt, .win .lnk, .recTick, .bar, .faults, .cou, .bru, .lnk, .free, .srcs]) s t := by
  unfold execSheetMark at h
  cases h
  repeat' first
    | with_reducible assumption
    | with_reducible apply Keeps.refl
    | with_reducible apply Keeps.ite
    | with_reducible apply State.onTick_keeps
    | (apply Keeps.step; with_reducible apply State.markCmd_keeps)
    | (with_reducible apply Keeps.forEach; intro _ _ _)
    | (intro _ _)
    | (with_reducible apply Keeps.foldl_fst; intro _ _ _)
    | (with_reducible apply Keeps.foldl_snd; intro _ _ _)
    | (with_reducible apply Keeps.foldl; intro _ _ _)
    | decide +kernel
    | exact sub_flt _ (by decide +kernel)
    | exact sub_eng _ (by decide +kernel)
    | exact sub_hk _ (by decide +kernel)
    | exact sub_port _ _ (by decide +kernel)
    | exact sub_win _ (by decide +kernel)
    | exact sub_any _ (by decide +kernel)
    | split

theorem execUndrape_keeps {t : State} (s : State)
    (h : execUndrape s = .next t) : Keeps (foot [.reg GLB_DETERMINISM, .reg TIM_FASTCMD_COUNT, .reg TIM_FASTCMD_LAST, .reg LNK_DEADLETTER_COUNT, .reg (ENG_STATUS 0x600), .reg CAL_STATUS, .reg CAL_DEFER_COUNT, .reg (ENG_STATUS 0x1B00), .flt, .win .lnk, .win .nul, .win .cal, .recTick, .bar, .pin, .faults, .cou, .bru, .pal, .pwr, .col, .nul, .lnk, .cal] ||| foot [.free, .srcs]) s t := by
  unfold execUndrape at h
  cases h
  repeat' first
    | with_reducible assumption
    | with_reducible apply Keeps.refl
    | with_reducible apply Keeps.ite
    | with_reducible apply State.onTick_keeps
    | (apply Keeps.step; with_reducible apply State.drapeCmd_keeps)
    | (with_reducible apply Keeps.forEach; intro _ _ _)
    | (intro _ _)
    | (with_reducible apply Keeps.foldl_fst; intro _ _ _)
    | (with_reducible apply Keeps.foldl_snd; intro _ _ _)
    | (with_reducible apply Keeps.foldl; intro _ _ _)
    | decide +kernel
    | exact sub_flt _ (by decide +kernel)
    | exact sub_eng _ (by decide +kernel)
    | exact sub_hk _ (by decide +kernel)
    | exact sub_port _ _ (by decide +kernel)
    | exact sub_win _ (by decide +kernel)
    | exact sub_any _ (by decide +kernel)
    | split

theorem execFieldDrapeNChange_keeps {t : State} (level : Bool) (s : State)
    (h : execFieldDrapeNChange level s = .next t) : Keeps (foot [.reg GLB_DETERMINISM, .reg LNK_DEADLETTER_COUNT, .reg (ENG_STATUS 0x600), .reg CAL_STATUS, .reg CAL_DEFER_COUNT, .reg (ENG_STATUS 0x1B00), .flt, .win .lnk, .win .nul, .win .cal, .recTick, .bar, .pin, .faults, .cou, .bru, .pal, .pwr, .col, .nul, .lnk, .cal, .free, .srcs]) s t := by
  unfold execFieldDrapeNChange at h
  cases h
  repeat' first
    | with_reducible assumption
    | with_reducible apply Keeps.refl
    | with_reducible apply Keeps.ite
    | (apply Keeps.step; with_reducible apply State.fieldDrapePin_keeps)
    | (with_reducible apply Keeps.forEach; intro _ _ _)
    | (with_reducible apply Keeps.foldl_fst; intro _ _ _)
    | (with_reducible apply Keeps.foldl_snd; intro _ _ _)
    | (with_reducible apply Keeps.foldl; intro _ _ _)
    | decide +kernel
    | exact sub_flt _ (by decide +kernel)
    | exact sub_eng _ (by decide +kernel)
    | exact sub_hk _ (by decide +kernel)
    | exact sub_port _ _ (by decide +kernel)
    | exact sub_win _ (by decide +kernel)
    | exact sub_any _ (by decide +kernel)
    | split

theorem execLossOfLock_keeps {t : State} (s : State)
    (h : execLossOfLock s = .next t) : Keeps (foot [.reg GLB_DETERMINISM, .reg TIM_GAP_STATUS, .reg TIM_GAP_COUNT, .reg LNK_DEADLETTER_COUNT, .reg (ENG_STATUS 0x600), .reg CAL_STATUS, .reg CAL_DEFER_COUNT, .reg (ENG_STATUS 0x1B00), .flt, .win .lnk, .win .nul, .win .cal, .recTick, .gap, .tm, .bar, .pin, .faults, .cou, .bru, .col, .nul, .lnk, .cal] ||| foot [.free, .srcs]) s t := by
  unfold execLossOfLock at h
  cases h
  repeat' first
    | with_reducible assumption
    | with_reducible apply Keeps.refl
    | with_reducible apply Keeps.ite
    | (apply Keeps.step; with_reducible apply State.lockLost_keeps)
    | (with_reducible apply Keeps.forEach; intro _ _ _)
    | (with_reducible apply Keeps.foldl_fst; intro _ _ _)
    | (with_reducible apply Keeps.foldl_snd; intro _ _ _)
    | (with_reducible apply Keeps.foldl; intro _ _ _)
    | decide +kernel
    | exact sub_flt _ (by decide +kernel)
    | exact sub_eng _ (by decide +kernel)
    | exact sub_hk _ (by decide +kernel)
    | exact sub_port _ _ (by decide +kernel)
    | exact sub_win _ (by decide +kernel)
    | exact sub_any _ (by decide +kernel)
    | split

theorem execCalFire_keeps {t : State} (s : State)
    (h : execCalFire s = .next t) : Keeps (foot [.reg TIM_FASTCMD_COUNT, .reg TIM_FASTCMD_LAST, .cal]) s t := by
  unfold execCalFire at h
  cases h
  repeat' first
    | with_reducible assumption
    | with_reducible apply Keeps.refl
    | with_reducible apply Keeps.ite
    | with_reducible apply State.onTick_keeps
    | (apply Keeps.step; with_reducible apply State.calFireCmd_keeps)
    | (with_reducible apply Keeps.forEach; intro _ _ _)
    | (intro _ _)
    | (with_reducible apply Keeps.foldl_fst; intro _ _ _)
    | (with_reducible apply Keeps.foldl_snd; intro _ _ _)
    | (with_reducible apply Keeps.foldl; intro _ _ _)
    | decide +kernel
    | exact sub_flt _ (by decide +kernel)
    | exact sub_eng _ (by decide +kernel)
    | exact sub_hk _ (by decide +kernel)
    | exact sub_port _ _ (by decide +kernel)
    | exact sub_win _ (by decide +kernel)
    | exact sub_any _ (by decide +kernel)
    | split

theorem execPostmarkSet_keeps {t : State} (v : PM) (secondOk : Bool) (reserved : BitVec 32) (s : State)
    (h : execPostmarkSet v secondOk reserved s = .next t) : Keeps (foot [.reg GLB_DETERMINISM, .reg TIM_STATUS, .reg LNK_DEADLETTER_COUNT, .reg LNK_SLOWCTL_STATUS, .reg (ENG_STATUS 0x600), .reg (ENG_STATUS 0x1B00), .flt, .win .lnk, .recTick, .tm, .bar, .faults, .cou, .bru, .lnk, .free, .srcs]) s t := by
  unfold execPostmarkSet at h
  cases h
  repeat' first
    | with_reducible assumption
    | with_reducible apply Keeps.refl
    | with_reducible apply Keeps.ite
    | with_reducible apply State.onTick_keeps
    | (apply Keeps.step; with_reducible apply State.pmDecide_keeps)
    | (with_reducible apply Keeps.forEach; intro _ _ _)
    | (intro _ _)
    | (with_reducible apply Keeps.foldl_fst; intro _ _ _)
    | (with_reducible apply Keeps.foldl_snd; intro _ _ _)
    | (with_reducible apply Keeps.foldl; intro _ _ _)
    | decide +kernel
    | exact sub_flt _ (by decide +kernel)
    | exact sub_eng _ (by decide +kernel)
    | exact sub_hk _ (by decide +kernel)
    | exact sub_port _ _ (by decide +kernel)
    | exact sub_win _ (by decide +kernel)
    | exact sub_any _ (by decide +kernel)
    | split

theorem execFieldSidePower_keeps {t : State} (on : Bool) (s : State)
    (h : execFieldSidePower on s = .next t) : Keeps (foot [.fieldDie, .anyWin, .recTick, .fieldQ, .held, .tm, .bar, .pin, .bru, .pal, .col, .nul, .var, .str, .evt, .lnk, .hka, .hkb, .refOnAt, .cal, .winAddrs, .srcs]) s t := by
  unfold execFieldSidePower at h
  cases h
  repeat' first
    | with_reducible assumption
    | with_reducible apply Keeps.refl
    | with_reducible apply Keeps.ite
    | (apply Keeps.step; with_reducible apply State.fieldSupply_keeps)
    | (with_reducible apply Keeps.forEach; intro _ _ _)
    | (with_reducible apply Keeps.foldl_fst; intro _ _ _)
    | (with_reducible apply Keeps.foldl_snd; intro _ _ _)
    | (with_reducible apply Keeps.foldl; intro _ _ _)
    | decide +kernel
    | exact sub_flt _ (by decide +kernel)
    | exact sub_eng _ (by decide +kernel)
    | exact sub_hk _ (by decide +kernel)
    | exact sub_port _ _ (by decide +kernel)
    | exact sub_win _ (by decide +kernel)
    | exact sub_any _ (by decide +kernel)
    | split

theorem execDrapeNChange_keeps {t : State} (level : Bool) (s : State)
    (h : execDrapeNChange level s = .next t) : Keeps (foot [.pin]) s t := by
  unfold execDrapeNChange at h
  cases h
  repeat' first
    | with_reducible assumption
    | with_reducible apply Keeps.refl
    | with_reducible apply Keeps.ite
    | (apply Keeps.step; with_reducible apply State.drapePin_keeps)
    | (with_reducible apply Keeps.forEach; intro _ _ _)
    | (with_reducible apply Keeps.foldl_fst; intro _ _ _)
    | (with_reducible apply Keeps.foldl_snd; intro _ _ _)
    | (with_reducible apply Keeps.foldl; intro _ _ _)
    | decide +kernel
    | exact sub_flt _ (by decide +kernel)
    | exact sub_eng _ (by decide +kernel)
    | exact sub_hk _ (by decide +kernel)
    | exact sub_port _ _ (by decide +kernel)
    | exact sub_win _ (by decide +kernel)
    | exact sub_any _ (by decide +kernel)
    | split

theorem execClockRestart_keeps {t : State} (period : BitVec 16) (s : State)
    (h : execClockRestart period s = .next t) : Keeps (foot [.reg GLB_STATE, .reg GLB_DETERMINISM, .reg TIM_STATUS, .reg TIM_TICK_PERIOD, .reg TIM_LAUNCH_STATUS, .reg BAR_STATUS, .reg BAR_LANE_MAP, .reg BAR_TRAIN, .reg LNK_DOWN_STATUS, .reg LNK_SCHED_SEL, .reg LNK_DEADLETTER_COUNT, .reg MGT_STATUS, .reg (ENG_STATUS 0x600), .reg PWR_STATE, .reg PAL_STATUS, .reg (HKx_CTRL 0x1700), .reg (HKx_STATUS 0x1700), .reg (HKx_OVERRUN_COUNT 0x1700), .reg (HKx_CAL_STATUS 0x1700), .reg (HKx_CTRL 0x1800), .reg (HKx_STATUS 0x1800), .reg (HKx_OVERRUN_COUNT 0x1800), .reg (HKx_CAL_STATUS 0x1800), .reg HKS_EXC_STATUS] ||| foot [.reg (ENG_STATUS 0x1B00), .reg FBA_STATUS, .reg FBA_LANE_STATUS, .regs 0x0308 4, .flt, .win .lnk, .recTick, .hostQ, .fieldQ, .tm, .bar, .faults, .cou, .bru, .pwr, .nul, .lnk, .hka, .hkb, .mgt, .cfg, .free, .srcs]) s t := by
  unfold execClockRestart at h
  cases h
  repeat' first
    | with_reducible assumption
    | with_reducible apply Keeps.refl
    | with_reducible apply Keeps.ite
    | (apply Keeps.step; with_reducible apply State.clockBack_keeps)
    | (with_reducible apply Keeps.forEach; intro _ _ _)
    | (with_reducible apply Keeps.foldl_fst; intro _ _ _)
    | (with_reducible apply Keeps.foldl_snd; intro _ _ _)
    | (with_reducible apply Keeps.foldl; intro _ _ _)
    | decide +kernel
    | exact sub_flt _ (by decide +kernel)
    | exact sub_eng _ (by decide +kernel)
    | exact sub_hk _ (by decide +kernel)
    | exact sub_port _ _ (by decide +kernel)
    | exact sub_win _ (by decide +kernel)
    | exact sub_any _ (by decide +kernel)
    | split

theorem execDownlinkTransitionsSeen_keeps {t : State} (s : State)
    (h : execDownlinkTransitionsSeen s = .next t) : Keeps (foot [.reg GLB_STATE, .reg LNK_DOWN_STATUS]) s t := by
  unfold execDownlinkTransitionsSeen at h
  cases h
  repeat' first
    | with_reducible assumption
    | with_reducible apply Keeps.refl
    | with_reducible apply Keeps.ite
    | (apply Keeps.step; with_reducible apply State.seesLink_keeps)
    | (with_reducible apply Keeps.forEach; intro _ _ _)
    | (with_reducible apply Keeps.foldl_fst; intro _ _ _)
    | (with_reducible apply Keeps.foldl_snd; intro _ _ _)
    | (with_reducible apply Keeps.foldl; intro _ _ _)
    | decide +kernel
    | exact sub_flt _ (by decide +kernel)
    | exact sub_eng _ (by decide +kernel)
    | exact sub_hk _ (by decide +kernel)
    | exact sub_port _ _ (by decide +kernel)
    | exact sub_win _ (by decide +kernel)
    | exact sub_any _ (by decide +kernel)
    | split

theorem execGapOpen_keeps {t : State} (s : State)
    (h : execGapOpen s = .next t) : Keeps (foot [.reg TIM_GAP_COUNT, .reg TIM_FASTCMD_COUNT, .reg TIM_FASTCMD_LAST, .gap]) s t := by
  unfold execGapOpen at h
  cases h
  repeat' first
    | with_reducible assumption
    | with_reducible apply Keeps.refl
    | with_reducible apply Keeps.ite
    | with_reducible apply State.onTick_keeps
    | (apply Keeps.step; with_reducible apply State.gapOpenCmd_keeps)
    | (with_reducible apply Keeps.forEach; intro _ _ _)
    | (intro _ _)
    | (with_reducible apply Keeps.foldl_fst; intro _ _ _)
    | (with_reducible apply Keeps.foldl_snd; intro _ _ _)
    | (with_reducible apply Keeps.foldl; intro _ _ _)
    | decide +kernel
    | exact sub_flt _ (by decide +kernel)
    | exact sub_eng _ (by decide +kernel)
    | exact sub_hk _ (by decide +kernel)
    | exact sub_port _ _ (by decide +kernel)
    | exact sub_win _ (by decide +kernel)
    | exact sub_any _ (by decide +kernel)
    | split

end Sys2Proof.Machine
end

