-- ==== Sys2Proof/Laws/KeepsCmdReg.lean ====
section
/-!
SUPPORT. Footprints of the commands of Machine/CmdReg.lean: which parts of a state each can change.
-/
set_option Elab.async false
set_option linter.unusedTactic false
set_option linter.unreachableTactic false
namespace Sys2Proof.Machine

theorem execWinDataAccess_keeps {t : State} (m : Master) (b : Blk) (write : Option Word) (s : State)
    (h : execWinDataAccess m b write s = .next t) : Keeps (foot [.anyReg, .anyWin, .recTick, .timers, .hostQ, .fieldQ, .held, .gap, .tm, .bar, .faults, .cou, .bru, .pal, .pwr, .col, .nul, .var, .str, .evt, .lnk, .hka, .hkb, .refOnAt] ||| foot [.cal, .mgt, .cfg, .flash, .free, .winAddrs, .srcs]) s t := by
  unfold execWinDataAccess at h
  cases h
  repeat' first
    | with_reducible assumption
    | with_reducible apply Keeps.refl
    | with_reducible apply Keeps.ite
    | with_reducible apply State.onBlock_keeps
    | (apply Keeps.step; with_reducible apply State.writeReg_keeps)
    | (apply Keeps.step; with_reducible apply State.readReg_keeps)
    | (with_reducible apply Keeps.forEach; intro _ _ _)
    | (intro _ _)
    | (with_reducible apply Keeps.foldl_fst; intro _ _ _)
    | (with_reducible apply Keeps.foldl_snd; intro _ _ _)
    | (with_reducible apply Keeps.foldl; intro _ _ _)
    | decide +kernel
    | exact sub_flt _ (by decide +kernel)
    | exact sub_eng _ (by decide +kernel)
    | exact sub_hk _ (by decide +kernel)
    | exact sub_port _ _ (by decide +kernel)
    | exact sub_win _ (by decide +kernel)
    | exact sub_any _ (by decide +kernel)
    | split

theorem execSlowctlRead_keeps {t : State} (f : ScFrame) (s : State)
    (h : execSlowctlRead f s = .next t) : Keeps (foot [.anyReg, .anyWin, .recTick, .timers, .hostQ, .fieldQ, .held, .gap, .tm, .bar, .faults, .cou, .bru, .pal, .pwr, .col, .nul, .var, .str, .evt, .lnk, .hka, .hkb, .refOnAt] ||| foot [.cal, .mgt, .cfg, .flash, .free, .winAddrs, .srcs]) s t := by
  unfold execSlowctlRead at h
  cases h
  repeat' first
    | with_reducible assumption
    | with_reducible apply Keeps.refl
    | with_reducible apply Keeps.ite
    | with_reducible apply State.onTick_keeps
    | (apply Keeps.step; with_reducible apply State.scServe_keeps)
    | (with_reducible apply Keeps.forEach; intro _ _ _)
    | (intro _ _)
    | (with_reducible apply Keeps.foldl_fst; intro _ _ _)
    | (with_reducible apply Keeps.foldl_snd; intro _ _ _)
    | (with_reducible apply Keeps.foldl; intro _ _ _)
    | decide +kernel
    | exact sub_flt _ (by decide +kernel)
    | exact sub_eng _ (by decide +kernel)
    | exact sub_hk _ (by decide +kernel)
    | exact sub_port _ _ (by decide +kernel)
    | exact sub_win _ (by decide +kernel)
    | exact sub_any _ (by decide +kernel)
    | split

theorem execTimLaunchFlush_keeps {t : State} (s : State)
    (h : execTimLaunchFlush s = .next t) : Keeps (foot [.reg TIM_LAUNCH_STATUS, .reg LNK_SCHED_SEL, .reg PAL_STATUS, .hostQ, .fieldQ, .cou, .bru]) s t := by
  unfold execTimLaunchFlush at h
  cases h
  repeat' first
    | with_reducible assumption
    | with_reducible apply Keeps.refl
    | with_reducible apply Keeps.ite
    | with_reducible apply State.onTick_keeps
    | (apply Keeps.step; with_reducible apply State.flushArmed_keeps)
    | (with_reducible apply Keeps.forEach; intro _ _ _)
    | (intro _ _)
    | (with_reducible apply Keeps.foldl_fst; intro _ _ _)
    | (with_reducible apply Keeps.foldl_snd; intro _ _ _)
    | (with_reducible apply Keeps.foldl; intro _ _ _)
    | decide +kernel
    | exact sub_flt _ (by decide +kernel)
    | exact sub_eng _ (by decide +kernel)
    | exact sub_hk _ (by decide +kernel)
    | exact sub_port _ _ (by decide +kernel)
    | exact sub_win _ (by decide +kernel)
    | exact sub_any _ (by decide +kernel)
    | split

theorem execTimLaunchArm_keeps {t : State} (burst : Bool) (s : State)
    (h : execTimLaunchArm burst s = .next t) : Keeps (foot [.anyReg, .hostQ, .fieldQ, .cou, .bru]) s t := by
  unfold execTimLaunchArm at h
  cases h
  repeat' first
    | with_reducible assumption
    | with_reducible apply Keeps.refl
    | with_reducible apply Keeps.ite
    | with_reducible apply State.onTick_keeps
    | (apply Keeps.step; with_reducible apply State.launchAction_keeps)
    | (with_reducible apply Keeps.forEach; intro _ _ _)
    | (intro _ _)
    | (with_reducible apply Keeps.foldl_fst; intro _ _ _)
    | (with_reducible apply Keeps.foldl_snd; intro _ _ _)
    | (with_reducible apply Keeps.foldl; intro _ _ _)
    | decide +kernel
    | exact sub_flt _ (by decide +kernel)
    | exact sub_eng _ (by decide +kernel)
    | exact sub_hk _ (by decide +kernel)
    | exact sub_port _ _ (by decide +kernel)
    | exact sub_win _ (by decide +kernel)
    | exact sub_any _ (by decide +kernel)
    | split

theorem execSlowctlWrite_keeps {t : State} (f : ScFrame) (s : State)
    (h : execSlowctlWrite f s = .next t) : Keeps (foot [.anyReg, .anyWin, .recTick, .timers, .hostQ, .fieldQ, .held, .gap, .tm, .bar, .faults, .cou, .bru, .pal, .pwr, .col, .nul, .var, .str, .evt, .lnk, .hka, .hkb, .refOnAt] ||| foot [.cal, .mgt, .cfg, .flash, .free, .winAddrs, .srcs]) s t := by
  unfold execSlowctlWrite at h
  cases h
  repeat' first
    | with_reducible assumption
    | with_reducible apply Keeps.refl
    | with_reducible apply Keeps.ite
    | with_reducible apply State.onTick_keeps
    | (apply Keeps.step; with_reducible apply State.scServe_keeps)
    | (with_reducible apply Keeps.forEach; intro _ _ _)
    | (intro _ _)
    | (with_reducible apply Keeps.foldl_fst; intro _ _ _)
    | (with_reducible apply Keeps.foldl_snd; intro _ _ _)
    | (with_reducible apply Keeps.foldl; intro _ _ _)
    | decide +kernel
    | exact sub_flt _ (by decide +kernel)
    | exact sub_eng _ (by decide +kernel)
    | exact sub_hk _ (by decide +kernel)
    | exact sub_port _ _ (by decide +kernel)
    | exact sub_win _ (by decide +kernel)
    | exact sub_any _ (by decide +kernel)
    | split

theorem execLaunchEntryApply_keeps {t : State} (d : Die) (s : State)
    (h : execLaunchEntryApply d s = .next t) : Keeps (foot [.anyReg, .anyWin, .recTick, .timers, .hostQ, .fieldQ, .gap, .bar, .faults, .cou, .bru, .pal, .pwr, .col, .nul, .var, .str, .evt, .lnk, .hka, .hkb, .refOnAt, .cal, .mgt] ||| foot [.cfg, .flash, .free, .winAddrs, .srcs]) s t := by
  unfold execLaunchEntryApply at h
  cases h
  repeat' first
    | with_reducible assumption
    | with_reducible apply Keeps.refl
    | with_reducible apply Keeps.ite
    | with_reducible apply State.onDie_keeps
    | (apply Keeps.step; with_reducible apply State.launchOne_keeps)
    | (with_reducible apply Keeps.forEach; intro _ _ _)
    | (intro _ _)
    | (with_reducible apply Keeps.foldl_fst; intro _ _ _)
    | (with_reducible apply Keeps.foldl_snd; intro _ _ _)
    | (with_reducible apply Keeps.foldl; intro _ _ _)
    | decide +kernel
    | exact sub_flt _ (by decide +kernel)
    | exact sub_eng _ (by decide +kernel)
    | exact sub_hk _ (by decide +kernel)
    | exact sub_port _ _ (by decide +kernel)
    | exact sub_win _ (by decide +kernel)
    | exact sub_any _ (by decide +kernel)
    | split

theorem execHeldWriteApply_keeps {t : State} (d : Die) (s : State)
    (h : execHeldWriteApply d s = .next t) : Keeps (foot [.anyReg, .anyWin, .recTick, .timers, .hostQ, .fieldQ, .held, .gap, .bar, .faults, .cou, .bru, .pal, .pwr, .col, .nul, .var, .str, .evt, .lnk, .hka, .hkb, .refOnAt, .cal] ||| foot [.mgt, .cfg, .flash, .free, .winAddrs, .srcs]) s t := by
  unfold execHeldWriteApply at h
  cases h
  repeat' first
    | with_reducible assumption
    | with_reducible apply Keeps.refl
    | with_reducible apply Keeps.ite
    | with_reducible apply State.onDie_keeps
    | (apply Keeps.step; with_reducible apply State.heldOne_keeps)
    | (with_reducible apply Keeps.forEach; intro _ _ _)
    | (intro _ _)
    | (with_reducible apply Keeps.foldl_fst; intro _ _ _)
    | (with_reducible apply Keeps.foldl_snd; intro _ _ _)
    | (with_reducible apply Keeps.foldl; intro _ _ _)
    | decide +kernel
    | exact sub_flt _ (by decide +kernel)
    | exact sub_eng _ (by decide +kernel)
    | exact sub_hk _ (by decide +kernel)
    | exact sub_port _ _ (by decide +kernel)
    | exact sub_win _ (by decide +kernel)
    | exact sub_any _ (by decide +kernel)
    | split

theorem execRegisterWrite_keeps {t : State} (m : Master) (index : BitVec 16) (value : Word) (s : State)
    (h : execRegisterWrite m index value s = .next t) : Keeps (foot [.anyReg, .anyWin, .recTick, .timers, .hostQ, .fieldQ, .held, .gap, .bar, .faults, .cou, .bru, .pal, .pwr, .col, .nul, .var, .str, .evt, .lnk, .hka, .hkb, .refOnAt, .cal] ||| foot [.mgt, .cfg, .flash, .free, .winAddrs, .srcs]) s t := by
  unfold execRegisterWrite at h
  cases h
  repeat' first
    | with_reducible assumption
    | with_reducible apply Keeps.refl
    | with_reducible apply Keeps.ite
    | with_reducible apply State.onIndex_keeps
    | (apply Keeps.step; with_reducible apply State.writeReg_keeps)
    | (with_reducible apply Keeps.forEach; intro _ _ _)
    | (intro _ _)
    | (with_reducible apply Keeps.foldl_fst; intro _ _ _)
    | (with_reducible apply Keeps.foldl_snd; intro _ _ _)
    | (with_reducible apply Keeps.foldl; intro _ _ _)
    | decide +kernel
    | exact sub_flt _ (by decide +kernel)
    | exact sub_eng _ (by decide +kernel)
    | exact sub_hk _ (by decide +kernel)
    | exact sub_port _ _ (by decide +kernel)
    | exact sub_win _ (by decide +kernel)
    | exact sub_any _ (by decide +kernel)
    | split

theorem execSlowctlReplyTimeout_keeps {t : State} (tag : BitVec 4) (s : State)
    (h : execSlowctlReplyTimeout tag s = .next t) : Keeps (foot [.lnk]) s t := by
  unfold execSlowctlReplyTimeout at h
  cases h
  repeat' first
    | with_reducible assumption
    | with_reducible apply Keeps.refl
    | with_reducible apply Keeps.ite
    | with_reducible apply State.onTick_keeps
    | (apply Keeps.step; with_reducible apply State.scLate_keeps)
    | (with_reducible apply Keeps.forEach; intro _ _ _)
    | (intro _ _)
    | (with_reducible apply Keeps.foldl_fst; intro _ _ _)
    | (with_reducible apply Keeps.foldl_snd; intro _ _ _)
    | (with_reducible apply Keeps.foldl; intro _ _ _)
    | decide +kernel
    | exact sub_flt _ (by decide +kernel)
    | exact sub_eng _ (by decide +kernel)
    | exact sub_hk _ (by decide +kernel)
    | exact sub_port _ _ (by decide +kernel)
    | exact sub_win _ (by decide +kernel)
    | exact sub_any _ (by decide +kernel)
    | split

theorem execSlowctlLaunchedWrite_keeps {t : State} (f : ScFrame) (s : State)
    (h : execSlowctlLaunchedWrite f s = .next t) : Keeps (foot [.anyReg, .anyWin, .recTick, .timers, .hostQ, .fieldQ, .held, .gap, .tm, .bar, .faults, .cou, .bru, .pal, .pwr, .col, .nul, .var, .str, .evt, .lnk, .hka, .hkb, .refOnAt] ||| foot [.cal, .mgt, .cfg, .flash, .free, .winAddrs, .srcs]) s t := by
  unfold execSlowctlLaunchedWrite at h
  cases h
  repeat' first
    | with_reducible assumption
    | with_reducible apply Keeps.refl
    | with_reducible apply Keeps.ite
    | with_reducible apply State.onTick_keeps
    | (apply Keeps.step; with_reducible apply State.scServe_keeps)
    | (with_reducible apply Keeps.forEach; intro _ _ _)
    | (intro _ _)
    | (with_reducible apply Keeps.foldl_fst; intro _ _ _)
    | (with_reducible apply Keeps.foldl_snd; intro _ _ _)
    | (with_reducible apply Keeps.foldl; intro _ _ _)
    | decide +kernel
    | exact sub_flt _ (by decide +kernel)
    | exact sub_eng _ (by decide +kernel)
    | exact sub_hk _ (by decide +kernel)
    | exact sub_port _ _ (by decide +kernel)
    | exact sub_win _ (by decide +kernel)
    | exact sub_any _ (by decide +kernel)
    | split

end Sys2Proof.Machine
end

