-- ==== Sys2Proof/Laws/KeepsCmdCol.lean ====
section
/-!
SUPPORT. Footprints of the commands of Machine/CmdCol.lean: which parts of a state each can change.
-/
set_option Elab.async false
set_option linter.unusedTactic false
set_option linter.unreachableTactic false
namespace Sys2Proof.Machine

theorem execColSpareSwap_keeps {t : State} (c : Fin 32) (w : Writer) (s : State)
    (h : execColSpareSwap c w s = .next t) : Keeps (foot [.anyReg, .win .lnk, .win .col, .recTick, .bar, .faults, .cou, .bru, .col, .lnk, .free, .srcs]) s t := by
  unfold execColSpareSwap at h
  cases h
  repeat' first
    | with_reducible assumption
    | with_reducible apply Keeps.refl
    | with_reducible apply Keeps.ite
    | with_reducible apply State.onField_keeps
    | (apply Keeps.step; with_reducible apply State.spareCtrl_keeps)
    | (with_reducible apply Keeps.forEach; intro _ _ _)
    | (intro _ _)
    | (with_reducible apply Keeps.foldl_fst; intro _ _ _)
    | (with_reducible apply Keeps.foldl_snd; intro _ _ _)
    | (with_reducible apply Keeps.foldl; intro _ _ _)
    | decide +kernel
    | exact sub_flt _ (by decide +kernel)
    | exact sub_eng _ (by decide +kernel)
    | exact sub_hk _ (by decide +kernel)
    | exact sub_port _ _ (by decide +kernel)
    | exact sub_win _ (by decide +kernel)
    | exact sub_any _ (by decide +kernel)
    | split

theorem execPersistentOverrange_keeps {t : State} (c : Fin 32) (s : State)
    (h : execPersistentOverrange c s = .next t) : Keeps (foot [.reg GLB_DETERMINISM, .reg LNK_DEADLETTER_COUNT, .reg (ENG_STATUS 0x600), .reg (ENG_STATUS 0x1B00), .flt, .win .lnk, .recTick, .bar, .faults, .cou, .bru, .lnk, .free, .srcs]) s t := by
  unfold execPersistentOverrange at h
  cases h
  repeat' first
    | with_reducible assumption
    | with_reducible apply Keeps.refl
    | with_reducible apply Keeps.ite
    | with_reducible apply State.onField_keeps
    | (apply Keeps.step; with_reducible apply State.ovrPersists_keeps)
    | (with_reducible apply Keeps.forEach; intro _ _ _)
    | (intro _ _)
    | (with_reducible apply Keeps.foldl_fst; intro _ _ _)
    | (with_reducible apply Keeps.foldl_snd; intro _ _ _)
    | (with_reducible apply Keeps.foldl; intro _ _ _)
    | decide +kernel
    | exact sub_flt _ (by decide +kernel)
    | exact sub_eng _ (by decide +kernel)
    | exact sub_hk _ (by decide +kernel)
    | exact sub_port _ _ (by decide +kernel)
    | exact sub_win _ (by decide +kernel)
    | exact sub_any _ (by decide +kernel)
    | split

theorem execColMapWrite_keeps {t : State} (c : Fin 32) (word : W24) (w : Writer) (s : State)
    (h : execColMapWrite c word w s = .next t) : Keeps (foot [.reg GLB_DETERMINISM, .reg LNK_DEADLETTER_COUNT, .reg (ENG_STATUS 0x600), .reg COL_MAP_STATUS, .reg COL_ROVER_STATUS, .reg (ENG_STATUS 0x1B00), .flt, .win .lnk, .win .col, .recTick, .bar, .faults, .cou, .bru, .col, .lnk, .free, .srcs]) s t := by
  unfold execColMapWrite at h
  cases h
  repeat' first
    | with_reducible assumption
    | with_reducible apply Keeps.refl
    | with_reducible apply Keeps.ite
    | with_reducible apply State.onField_keeps
    | (apply Keeps.step; with_reducible apply State.colWinWrite_keeps)
    | (with_reducible apply Keeps.forEach; intro _ _ _)
    | (intro _ _)
    | (with_reducible apply Keeps.foldl_fst; intro _ _ _)
    | (with_reducible apply Keeps.foldl_snd; intro _ _ _)
    | (with_reducible apply Keeps.foldl; intro _ _ _)
    | decide +kernel
    | exact sub_flt _ (by decide +kernel)
    | exact sub_eng _ (by decide +kernel)
    | exact sub_hk _ (by decide +kernel)
    | exact sub_port _ _ (by decide +kernel)
    | exact sub_win _ (by decide +kernel)
    | exact sub_any _ (by decide +kernel)
    | split

theorem execColSpareRestore_keeps {t : State} (c : Fin 32) (w : Writer) (s : State)
    (h : execColSpareRestore c w s = .next t) : Keeps (foot [.anyReg, .win .lnk, .win .col, .recTick, .bar, .faults, .cou, .bru, .col, .lnk, .free, .srcs]) s t := by
  unfold execColSpareRestore at h
  cases h
  repeat' first
    | with_reducible assumption
    | with_reducible apply Keeps.refl
    | with_reducible apply Keeps.ite
    | with_reducible apply State.onField_keeps
    | (apply Keeps.step; with_reducible apply State.spareCtrl_keeps)
    | (with_reducible apply Keeps.forEach; intro _ _ _)
    | (intro _ _)
    | (with_reducible apply Keeps.foldl_fst; intro _ _ _)
    | (with_reducible apply Keeps.foldl_snd; intro _ _ _)
    | (with_reducible apply Keeps.foldl; intro _ _ _)
    | decide +kernel
    | exact sub_flt _ (by decide +kernel)
    | exact sub_eng _ (by decide +kernel)
    | exact sub_hk _ (by decide +kernel)
    | exact sub_port _ _ (by decide +kernel)
    | exact sub_win _ (by decide +kernel)
    | exact sub_any _ (by decide +kernel)
    | split

theorem execRoverDwellStart_keeps {t : State} (g : Fin 2) (s : State)
    (h : execRoverDwellStart g s = .next t) : Keeps (foot [.reg COL_ROVER_STATUS, .col]) s t := by
  unfold execRoverDwellStart at h
  cases h
  repeat' first
    | with_reducible assumption
    | with_reducible apply Keeps.refl
    | with_reducible apply Keeps.ite
    | with_reducible apply State.onField_keeps
    | (apply Keeps.step; with_reducible apply State.roverStart_keeps)
    | (with_reducible apply Keeps.forEach; intro _ _ _)
    | (intro _ _)
    | (with_reducible apply Keeps.foldl_fst; intro _ _ _)
    | (with_reducible apply Keeps.foldl_snd; intro _ _ _)
    | (with_reducible apply Keeps.foldl; intro _ _ _)
    | decide +kernel
    | exact sub_flt _ (by decide +kernel)
    | exact sub_eng _ (by decide +kernel)
    | exact sub_hk _ (by decide +kernel)
    | exact sub_port _ _ (by decide +kernel)
    | exact sub_win _ (by decide +kernel)
    | exact sub_any _ (by decide +kernel)
    | split

theorem execColSettingsWrite_keeps {t : State} (p : Fin 34) (word : W24) (w : Writer) (s : State)
    (h : execColSettingsWrite p word w s = .next t) : Keeps (foot [.reg GLB_DETERMINISM, .reg LNK_DEADLETTER_COUNT, .reg (ENG_STATUS 0x600), .reg COL_MAP_STATUS, .reg (ENG_STATUS 0x1B00), .flt, .win .lnk, .win .col, .recTick, .bar, .faults, .cou, .bru, .col, .lnk, .free, .srcs]) s t := by
  unfold execColSettingsWrite at h
  cases h
  repeat' first
    | with_reducible assumption
    | with_reducible apply Keeps.refl
    | with_reducible apply Keeps.ite
    | with_reducible apply State.onField_keeps
    | (apply Keeps.step; with_reducible apply State.settingsWrite_keeps)
    | (with_reducible apply Keeps.forEach; intro _ _ _)
    | (intro _ _)
    | (with_reducible apply Keeps.foldl_fst; intro _ _ _)
    | (with_reducible apply Keeps.foldl_snd; intro _ _ _)
    | (with_reducible apply Keeps.foldl; intro _ _ _)
    | decide +kernel
    | exact sub_flt _ (by decide +kernel)
    | exact sub_eng _ (by decide +kernel)
    | exact sub_hk _ (by decide +kernel)
    | exact sub_port _ _ (by decide +kernel)
    | exact sub_win _ (by decide +kernel)
    | exact sub_any _ (by decide +kernel)
    | split

theorem execRoverDwellEnd_keeps {t : State} (g : Fin 2) (s : State)
    (h : execRoverDwellEnd g s = .next t) : Keeps (foot [.reg GLB_DETERMINISM, .reg LNK_DEADLETTER_COUNT, .reg (ENG_STATUS 0x600), .reg COL_ROVER_STATUS, .reg COL_ROVER_MISMATCH, .reg CAL_STATUS, .reg (ENG_STATUS 0x1B00), .flt, .win .lnk, .recTick, .bar, .faults, .cou, .bru, .col, .lnk, .cal, .free, .srcs]) s t := by
  unfold execRoverDwellEnd at h
  cases h
  repeat' first
    | with_reducible assumption
    | with_reducible apply Keeps.refl
    | with_reducible apply Keeps.ite
    | with_reducible apply State.onField_keeps
    | (apply Keeps.step; with_reducible apply State.roverEnd_keeps)
    | (with_reducible apply Keeps.forEach; intro _ _ _)
    | (intro _ _)
    | (with_reducible apply Keeps.foldl_fst; intro _ _ _)
    | (with_reducible apply Keeps.foldl_snd; intro _ _ _)
    | (with_reducible apply Keeps.foldl; intro _ _ _)
    | decide +kernel
    | exact sub_flt _ (by decide +kernel)
    | exact sub_eng _ (by decide +kernel)
    | exact sub_hk _ (by decide +kernel)
    | exact sub_port _ _ (by decide +kernel)
    | exact sub_win _ (by decide +kernel)
    | exact sub_any _ (by decide +kernel)
    | split

theorem execTrimSetWrite_keeps {t : State} (f : Fin 34) (g : Fin 8) (w : Fin 2) (word : W24) (wr : Writer) (s : State)
    (h : execTrimSetWrite f g w word wr s = .next t) : Keeps (foot [.reg GLB_DETERMINISM, .win .col, .faults, .col]) s t := by
  unfold execTrimSetWrite at h
  cases h
  repeat' first
    | with_reducible assumption
    | with_reducible apply Keeps.refl
    | with_reducible apply Keeps.ite
    | with_reducible apply State.onField_keeps
    | (apply Keeps.step; with_reducible apply State.trimWrite_keeps)
    | (with_reducible apply Keeps.forEach; intro _ _ _)
    | (intro _ _)
    | (with_reducible apply Keeps.foldl_fst; intro _ _ _)
    | (with_reducible apply Keeps.foldl_snd; intro _ _ _)
    | (with_reducible apply Keeps.foldl; intro _ _ _)
    | decide +kernel
    | exact sub_flt _ (by decide +kernel)
    | exact sub_eng _ (by decide +kernel)
    | exact sub_hk _ (by decide +kernel)
    | exact sub_port _ _ (by decide +kernel)
    | exact sub_win _ (by decide +kernel)
    | exact sub_any _ (by decide +kernel)
    | split

end Sys2Proof.Machine
end

