-- ==== Sys2Proof/Laws/State.lean ====
section
/-!
SUPPORT. What the primitive operations do to each field of the state, one lemma per field and operation, and the laws
of reading a register or a field of one after a write.
-/
set_option Elab.async false
set_option linter.unusedTactic false
set_option linter.unreachableTactic false
namespace Sys2Proof.Machine

/-! ### Fields that an operation leaves alone -/

@[simp] theorem State.setReg_pending (s : State) (i : Nat) (v : Word) : (s.setReg i v).pending = s.pending := (rfl)
@[simp] theorem State.setReg_wins (s : State) (i : Nat) (v : Word) : (s.setReg i v).wins = s.wins := (rfl)
@[simp] theorem State.setReg_winAddrs (s : State) (i : Nat) (v : Word) : (s.setReg i v).winAddrs = s.winAddrs := (rfl)
@[simp] theorem State.setReg_srcs (s : State) (i : Nat) (v : Word) : (s.setReg i v).srcs = s.srcs := (rfl)
@[simp] theorem State.setReg_recTick (s : State) (i : Nat) (v : Word) : (s.setReg i v).recTick = s.recTick := (rfl)
@[simp] theorem State.setReg_timers (s : State) (i : Nat) (v : Word) : (s.setReg i v).timers = s.timers := (rfl)
@[simp] theorem State.setReg_hostQ (s : State) (i : Nat) (v : Word) : (s.setReg i v).hostQ = s.hostQ := (rfl)
@[simp] theorem State.setReg_fieldQ (s : State) (i : Nat) (v : Word) : (s.setReg i v).fieldQ = s.fieldQ := (rfl)
@[simp] theorem State.setReg_held (s : State) (i : Nat) (v : Word) : (s.setReg i v).held = s.held := (rfl)
@[simp] theorem State.setReg_gap (s : State) (i : Nat) (v : Word) : (s.setReg i v).gap = s.gap := (rfl)
@[simp] theorem State.setReg_tm (s : State) (i : Nat) (v : Word) : (s.setReg i v).tm = s.tm := (rfl)
@[simp] theorem State.setReg_bar (s : State) (i : Nat) (v : Word) : (s.setReg i v).bar = s.bar := (rfl)
@[simp] theorem State.setReg_pin (s : State) (i : Nat) (v : Word) : (s.setReg i v).pin = s.pin := (rfl)
@[simp] theorem State.setReg_flt (s : State) (i : Nat) (v : Word) : (s.setReg i v).flt = s.flt := (rfl)
@[simp] theorem State.setReg_cou (s : State) (i : Nat) (v : Word) : (s.setReg i v).cou = s.cou := (rfl)
@[simp] theorem State.setReg_bru (s : State) (i : Nat) (v : Word) : (s.setReg i v).bru = s.bru := (rfl)
@[simp] theorem State.setReg_pal (s : State) (i : Nat) (v : Word) : (s.setReg i v).pal = s.pal := (rfl)
@[simp] theorem State.setReg_pwr (s : State) (i : Nat) (v : Word) : (s.setReg i v).pwr = s.pwr := (rfl)
@[simp] theorem State.setReg_col (s : State) (i : Nat) (v : Word) : (s.setReg i v).col = s.col := (rfl)
@[simp] theorem State.setReg_nul (s : State) (i : Nat) (v : Word) : (s.setReg i v).nul = s.nul := (rfl)
@[simp] theorem State.setReg_var (s : State) (i : Nat) (v : Word) : (s.setReg i v).var = s.var := (rfl)
@[simp] theorem State.setReg_str (s : State) (i : Nat) (v : Word) : (s.setReg i v).str = s.str := (rfl)
@[simp] theorem State.setReg_evt (s : State) (i : Nat) (v : Word) : (s.setReg i v).evt = s.evt := (rfl)
@[simp] theorem State.setReg_lnk (s : State) (i : Nat) (v : Word) : (s.setReg i v).lnk = s.lnk := (rfl)
@[simp] theorem State.setReg_hka (s : State) (i : Nat) (v : Word) : (s.setReg i v).hka = s.hka := (rfl)
@[simp] theorem State.setReg_hkb (s : State) (i : Nat) (v : Word) : (s.setReg i v).hkb = s.hkb := (rfl)
@[simp] theorem State.setReg_refOnAt (s : State) (i : Nat) (v : Word) : (s.setReg i v).refOnAt = s.refOnAt := (rfl)
@[simp] theorem State.setReg_cal (s : State) (i : Nat) (v : Word) : (s.setReg i v).cal = s.cal := (rfl)
@[simp] theorem State.setReg_mgt (s : State) (i : Nat) (v : Word) : (s.setReg i v).mgt = s.mgt := (rfl)
@[simp] theorem State.setReg_cfg (s : State) (i : Nat) (v : Word) : (s.setReg i v).cfg = s.cfg := (rfl)
@[simp] theorem State.setReg_free (s : State) (i : Nat) (v : Word) : (s.setReg i v).free = s.free := (rfl)
@[simp] theorem State.setReg_win (s : State) (i : Nat) (v : Word) (c : Blk) (j : Nat) : (s.setReg i v).win c j = s.win c j := (rfl)
@[simp] theorem State.setReg_winN (s : State) (i : Nat) (v : Word) (c : Blk) (j : Nat) : (s.setReg i v).winN c j = s.winN c j := (rfl)
@[simp] theorem State.setReg_winAddr (s : State) (i : Nat) (v : Word) (c : Blk) (k : Nat) : (s.setReg i v).winAddr c k = s.winAddr c k := (rfl)
@[simp] theorem State.setReg_src (s : State) (i : Nat) (v : Word) (c : Blk) (k : Nat) : (s.setReg i v).src c k = s.src c k := (rfl)

@[simp] theorem State.setFld_pending (s : State) (f : Fld) (v : Nat) : (s.setFld f v).pending = s.pending := (rfl)
@[simp] theorem State.setFld_wins (s : State) (f : Fld) (v : Nat) : (s.setFld f v).wins = s.wins := (rfl)
@[simp] theorem State.setFld_winAddrs (s : State) (f : Fld) (v : Nat) : (s.setFld f v).winAddrs = s.winAddrs := (rfl)
@[simp] theorem State.setFld_srcs (s : State) (f : Fld) (v : Nat) : (s.setFld f v).srcs = s.srcs := (rfl)
@[simp] theorem State.setFld_recTick (s : State) (f : Fld) (v : Nat) : (s.setFld f v).recTick = s.recTick := (rfl)
@[simp] theorem State.setFld_timers (s : State) (f : Fld) (v : Nat) : (s.setFld f v).timers = s.timers := (rfl)
@[simp] theorem State.setFld_hostQ (s : State) (f : Fld) (v : Nat) : (s.setFld f v).hostQ = s.hostQ := (rfl)
@[simp] theorem State.setFld_fieldQ (s : State) (f : Fld) (v : Nat) : (s.setFld f v).fieldQ = s.fieldQ := (rfl)
@[simp] theorem State.setFld_held (s : State) (f : Fld) (v : Nat) : (s.setFld f v).held = s.held := (rfl)
@[simp] theorem State.setFld_gap (s : State) (f : Fld) (v : Nat) : (s.setFld f v).gap = s.gap := (rfl)
@[simp] theorem State.setFld_tm (s : State) (f : Fld) (v : Nat) : (s.setFld f v).tm = s.tm := (rfl)
@[simp] theorem State.setFld_bar (s : State) (f : Fld) (v : Nat) : (s.setFld f v).bar = s.bar := (rfl)
@[simp] theorem State.setFld_pin (s : State) (f : Fld) (v : Nat) : (s.setFld f v).pin = s.pin := (rfl)
@[simp] theorem State.setFld_flt (s : State) (f : Fld) (v : Nat) : (s.setFld f v).flt = s.flt := (rfl)
@[simp] theorem State.setFld_cou (s : State) (f : Fld) (v : Nat) : (s.setFld f v).cou = s.cou := (rfl)
@[simp] theorem State.setFld_bru (s : State) (f : Fld) (v : Nat) : (s.setFld f v).bru = s.bru := (rfl)
@[simp] theorem State.setFld_pal (s : State) (f : Fld) (v : Nat) : (s.setFld f v).pal = s.pal := (rfl)
@[simp] theorem State.setFld_pwr (s : State) (f : Fld) (v : Nat) : (s.setFld f v).pwr = s.pwr := (rfl)
@[simp] theorem State.setFld_col (s : State) (f : Fld) (v : Nat) : (s.setFld f v).col = s.col := (rfl)
@[simp] theorem State.setFld_nul (s : State) (f : Fld) (v : Nat) : (s.setFld f v).nul = s.nul := (rfl)
@[simp] theorem State.setFld_var (s : State) (f : Fld) (v : Nat) : (s.setFld f v).var = s.var := (rfl)
@[simp] theorem State.setFld_str (s : State) (f : Fld) (v : Nat) : (s.setFld f v).str = s.str := (rfl)
@[simp] theorem State.setFld_evt (s : State) (f : Fld) (v : Nat) : (s.setFld f v).evt = s.evt := (rfl)
@[simp] theorem State.setFld_lnk (s : State) (f : Fld) (v : Nat) : (s.setFld f v).lnk = s.lnk := (rfl)
@[simp] theorem State.setFld_hka (s : State) (f : Fld) (v : Nat) : (s.setFld f v).hka = s.hka := (rfl)
@[simp] theorem State.setFld_hkb (s : State) (f : Fld) (v : Nat) : (s.setFld f v).hkb = s.hkb := (rfl)
@[simp] theorem State.setFld_refOnAt (s : State) (f : Fld) (v : Nat) : (s.setFld f v).refOnAt = s.refOnAt := (rfl)
@[simp] theorem State.setFld_cal (s : State) (f : Fld) (v : Nat) : (s.setFld f v).cal = s.cal := (rfl)
@[simp] theorem State.setFld_mgt (s : State) (f : Fld) (v : Nat) : (s.setFld f v).mgt = s.mgt := (rfl)
@[simp] theorem State.setFld_cfg (s : State) (f : Fld) (v : Nat) : (s.setFld f v).cfg = s.cfg := (rfl)
@[simp] theorem State.setFld_free (s : State) (f : Fld) (v : Nat) : (s.setFld f v).free = s.free := (rfl)
@[simp] theorem State.setFld_win (s : State) (f : Fld) (v : Nat) (c : Blk) (j : Nat) : (s.setFld f v).win c j = s.win c j := (rfl)
@[simp] theorem State.setFld_winN (s : State) (f : Fld) (v : Nat) (c : Blk) (j : Nat) : (s.setFld f v).winN c j = s.winN c j := (rfl)
@[simp] theorem State.setFld_winAddr (s : State) (f : Fld) (v : Nat) (c : Blk) (k : Nat) : (s.setFld f v).winAddr c k = s.winAddr c k := (rfl)
@[simp] theorem State.setFld_src (s : State) (f : Fld) (v : Nat) (c : Blk) (k : Nat) : (s.setFld f v).src c k = s.src c k := (rfl)

@[simp] theorem State.setBit_pending (s : State) (f : Fld) (b : Bool) : (s.setBit f b).pending = s.pending := (rfl)
@[simp] theorem State.setBit_wins (s : State) (f : Fld) (b : Bool) : (s.setBit f b).wins = s.wins := (rfl)
@[simp] theorem State.setBit_winAddrs (s : State) (f : Fld) (b : Bool) : (s.setBit f b).winAddrs = s.winAddrs := (rfl)
@[simp] theorem State.setBit_srcs (s : State) (f : Fld) (b : Bool) : (s.setBit f b).srcs = s.srcs := (rfl)
@[simp] theorem State.setBit_recTick (s : State) (f : Fld) (b : Bool) : (s.setBit f b).recTick = s.recTick := (rfl)
@[simp] theorem State.setBit_timers (s : State) (f : Fld) (b : Bool) : (s.setBit f b).timers = s.timers := (rfl)
@[simp] theorem State.setBit_hostQ (s : State) (f : Fld) (b : Bool) : (s.setBit f b).hostQ = s.hostQ := (rfl)
@[simp] theorem State.setBit_fieldQ (s : State) (f : Fld) (b : Bool) : (s.setBit f b).fieldQ = s.fieldQ := (rfl)
@[simp] theorem State.setBit_held (s : State) (f : Fld) (b : Bool) : (s.setBit f b).held = s.held := (rfl)
@[simp] theorem State.setBit_gap (s : State) (f : Fld) (b : Bool) : (s.setBit f b).gap = s.gap := (rfl)
@[simp] theorem State.setBit_tm (s : State) (f : Fld) (b : Bool) : (s.setBit f b).tm = s.tm := (rfl)
@[simp] theorem State.setBit_bar (s : State) (f : Fld) (b : Bool) : (s.setBit f b).bar = s.bar := (rfl)
@[simp] theorem State.setBit_pin (s : State) (f : Fld) (b : Bool) : (s.setBit f b).pin = s.pin := (rfl)
@[simp] theorem State.setBit_flt (s : State) (f : Fld) (b : Bool) : (s.setBit f b).flt = s.flt := (rfl)
@[simp] theorem State.setBit_cou (s : State) (f : Fld) (b : Bool) : (s.setBit f b).cou = s.cou := (rfl)
@[simp] theorem State.setBit_bru (s : State) (f : Fld) (b : Bool) : (s.setBit f b).bru = s.bru := (rfl)
@[simp] theorem State.setBit_pal (s : State) (f : Fld) (b : Bool) : (s.setBit f b).pal = s.pal := (rfl)
@[simp] theorem State.setBit_pwr (s : State) (f : Fld) (b : Bool) : (s.setBit f b).pwr = s.pwr := (rfl)
@[simp] theorem State.setBit_col (s : State) (f : Fld) (b : Bool) : (s.setBit f b).col = s.col := (rfl)
@[simp] theorem State.setBit_nul (s : State) (f : Fld) (b : Bool) : (s.setBit f b).nul = s.nul := (rfl)
@[simp] theorem State.setBit_var (s : State) (f : Fld) (b : Bool) : (s.setBit f b).var = s.var := (rfl)
@[simp] theorem State.setBit_str (s : State) (f : Fld) (b : Bool) : (s.setBit f b).str = s.str := (rfl)
@[simp] theorem State.setBit_evt (s : State) (f : Fld) (b : Bool) : (s.setBit f b).evt = s.evt := (rfl)
@[simp] theorem State.setBit_lnk (s : State) (f : Fld) (b : Bool) : (s.setBit f b).lnk = s.lnk := (rfl)
@[simp] theorem State.setBit_hka (s : State) (f : Fld) (b : Bool) : (s.setBit f b).hka = s.hka := (rfl)
@[simp] theorem State.setBit_hkb (s : State) (f : Fld) (b : Bool) : (s.setBit f b).hkb = s.hkb := (rfl)
@[simp] theorem State.setBit_refOnAt (s : State) (f : Fld) (b : Bool) : (s.setBit f b).refOnAt = s.refOnAt := (rfl)
@[simp] theorem State.setBit_cal (s : State) (f : Fld) (b : Bool) : (s.setBit f b).cal = s.cal := (rfl)
@[simp] theorem State.setBit_mgt (s : State) (f : Fld) (b : Bool) : (s.setBit f b).mgt = s.mgt := (rfl)
@[simp] theorem State.setBit_cfg (s : State) (f : Fld) (b : Bool) : (s.setBit f b).cfg = s.cfg := (rfl)
@[simp] theorem State.setBit_free (s : State) (f : Fld) (b : Bool) : (s.setBit f b).free = s.free := (rfl)
@[simp] theorem State.setBit_win (s : State) (f : Fld) (b : Bool) (c : Blk) (j : Nat) : (s.setBit f b).win c j = s.win c j := (rfl)
@[simp] theorem State.setBit_winN (s : State) (f : Fld) (b : Bool) (c : Blk) (j : Nat) : (s.setBit f b).winN c j = s.winN c j := (rfl)
@[simp] theorem State.setBit_winAddr (s : State) (f : Fld) (b : Bool) (c : Blk) (k : Nat) : (s.setBit f b).winAddr c k = s.winAddr c k := (rfl)
@[simp] theorem State.setBit_src (s : State) (f : Fld) (b : Bool) (c : Blk) (k : Nat) : (s.setBit f b).src c k = s.src c k := (rfl)

@[simp] theorem State.count_pending (s : State) (f : Fld) (n : Nat) : (s.count f n).pending = s.pending := (rfl)
@[simp] theorem State.count_wins (s : State) (f : Fld) (n : Nat) : (s.count f n).wins = s.wins := (rfl)
@[simp] theorem State.count_winAddrs (s : State) (f : Fld) (n : Nat) : (s.count f n).winAddrs = s.winAddrs := (rfl)
@[simp] theorem State.count_srcs (s : State) (f : Fld) (n : Nat) : (s.count f n).srcs = s.srcs := (rfl)
@[simp] theorem State.count_recTick (s : State) (f : Fld) (n : Nat) : (s.count f n).recTick = s.recTick := (rfl)
@[simp] theorem State.count_timers (s : State) (f : Fld) (n : Nat) : (s.count f n).timers = s.timers := (rfl)
@[simp] theorem State.count_hostQ (s : State) (f : Fld) (n : Nat) : (s.count f n).hostQ = s.hostQ := (rfl)
@[simp] theorem State.count_fieldQ (s : State) (f : Fld) (n : Nat) : (s.count f n).fieldQ = s.fieldQ := (rfl)
@[simp] theorem State.count_held (s : State) (f : Fld) (n : Nat) : (s.count f n).held = s.held := (rfl)
@[simp] theorem State.count_gap (s : State) (f : Fld) (n : Nat) : (s.count f n).gap = s.gap := (rfl)
@[simp] theorem State.count_tm (s : State) (f : Fld) (n : Nat) : (s.count f n).tm = s.tm := (rfl)
@[simp] theorem State.count_bar (s : State) (f : Fld) (n : Nat) : (s.count f n).bar = s.bar := (rfl)
@[simp] theorem State.count_pin (s : State) (f : Fld) (n : Nat) : (s.count f n).pin = s.pin := (rfl)
@[simp] theorem State.count_flt (s : State) (f : Fld) (n : Nat) : (s.count f n).flt = s.flt := (rfl)
@[simp] theorem State.count_cou (s : State) (f : Fld) (n : Nat) : (s.count f n).cou = s.cou := (rfl)
@[simp] theorem State.count_bru (s : State) (f : Fld) (n : Nat) : (s.count f n).bru = s.bru := (rfl)
@[simp] theorem State.count_pal (s : State) (f : Fld) (n : Nat) : (s.count f n).pal = s.pal := (rfl)
@[simp] theorem State.count_pwr (s : State) (f : Fld) (n : Nat) : (s.count f n).pwr = s.pwr := (rfl)
@[simp] theorem State.count_col (s : State) (f : Fld) (n : Nat) : (s.count f n).col = s.col := (rfl)
@[simp] theorem State.count_nul (s : State) (f : Fld) (n : Nat) : (s.count f n).nul = s.nul := (rfl)
@[simp] theorem State.count_var (s : State) (f : Fld) (n : Nat) : (s.count f n).var = s.var := (rfl)
@[simp] theorem State.count_str (s : State) (f : Fld) (n : Nat) : (s.count f n).str = s.str := (rfl)
@[simp] theorem State.count_evt (s : State) (f : Fld) (n : Nat) : (s.count f n).evt = s.evt := (rfl)
@[simp] theorem State.count_lnk (s : State) (f : Fld) (n : Nat) : (s.count f n).lnk = s.lnk := (rfl)
@[simp] theorem State.count_hka (s : State) (f : Fld) (n : Nat) : (s.count f n).hka = s.hka := (rfl)
@[simp] theorem State.count_hkb (s : State) (f : Fld) (n : Nat) : (s.count f n).hkb = s.hkb := (rfl)
@[simp] theorem State.count_refOnAt (s : State) (f : Fld) (n : Nat) : (s.count f n).refOnAt = s.refOnAt := (rfl)
@[simp] theorem State.count_cal (s : State) (f : Fld) (n : Nat) : (s.count f n).cal = s.cal := (rfl)
@[simp] theorem State.count_mgt (s : State) (f : Fld) (n : Nat) : (s.count f n).mgt = s.mgt := (rfl)
@[simp] theorem State.count_cfg (s : State) (f : Fld) (n : Nat) : (s.count f n).cfg = s.cfg := (rfl)
@[simp] theorem State.count_free (s : State) (f : Fld) (n : Nat) : (s.count f n).free = s.free := (rfl)
@[simp] theorem State.count_win (s : State) (f : Fld) (n : Nat) (c : Blk) (j : Nat) : (s.count f n).win c j = s.win c j := (rfl)
@[simp] theorem State.count_winN (s : State) (f : Fld) (n : Nat) (c : Blk) (j : Nat) : (s.count f n).winN c j = s.winN c j := (rfl)
@[simp] theorem State.count_winAddr (s : State) (f : Fld) (n : Nat) (c : Blk) (k : Nat) : (s.count f n).winAddr c k = s.winAddr c k := (rfl)
@[simp] theorem State.count_src (s : State) (f : Fld) (n : Nat) (c : Blk) (k : Nat) : (s.count f n).src c k = s.src c k := (rfl)

@[simp] theorem State.inc_pending (s : State) (f : Fld) : (s.inc f).pending = s.pending := (rfl)
@[simp] theorem State.inc_wins (s : State) (f : Fld) : (s.inc f).wins = s.wins := (rfl)
@[simp] theorem State.inc_winAddrs (s : State) (f : Fld) : (s.inc f).winAddrs = s.winAddrs := (rfl)
@[simp] theorem State.inc_srcs (s : State) (f : Fld) : (s.inc f).srcs = s.srcs := (rfl)
@[simp] theorem State.inc_recTick (s : State) (f : Fld) : (s.inc f).recTick = s.recTick := (rfl)
@[simp] theorem State.inc_timers (s : State) (f : Fld) : (s.inc f).timers = s.timers := (rfl)
@[simp] theorem State.inc_hostQ (s : State) (f : Fld) : (s.inc f).hostQ = s.hostQ := (rfl)
@[simp] theorem State.inc_fieldQ (s : State) (f : Fld) : (s.inc f).fieldQ = s.fieldQ := (rfl)
@[simp] theorem State.inc_held (s : State) (f : Fld) : (s.inc f).held = s.held := (rfl)
@[simp] theorem State.inc_gap (s : State) (f : Fld) : (s.inc f).gap = s.gap := (rfl)
@[simp] theorem State.inc_tm (s : State) (f : Fld) : (s.inc f).tm = s.tm := (rfl)
@[simp] theorem State.inc_bar (s : State) (f : Fld) : (s.inc f).bar = s.bar := (rfl)
@[simp] theorem State.inc_pin (s : State) (f : Fld) : (s.inc f).pin = s.pin := (rfl)
@[simp] theorem State.inc_flt (s : State) (f : Fld) : (s.inc f).flt = s.flt := (rfl)
@[simp] theorem State.inc_cou (s : State) (f : Fld) : (s.inc f).cou = s.cou := (rfl)
@[simp] theorem State.inc_bru (s : State) (f : Fld) : (s.inc f).bru = s.bru := (rfl)
@[simp] theorem State.inc_pal (s : State) (f : Fld) : (s.inc f).pal = s.pal := (rfl)
@[simp] theorem State.inc_pwr (s : State) (f : Fld) : (s.inc f).pwr = s.pwr := (rfl)
@[simp] theorem State.inc_col (s : State) (f : Fld) : (s.inc f).col = s.col := (rfl)
@[simp] theorem State.inc_nul (s : State) (f : Fld) : (s.inc f).nul = s.nul := (rfl)
@[simp] theorem State.inc_var (s : State) (f : Fld) : (s.inc f).var = s.var := (rfl)
@[simp] theorem State.inc_str (s : State) (f : Fld) : (s.inc f).str = s.str := (rfl)
@[simp] theorem State.inc_evt (s : State) (f : Fld) : (s.inc f).evt = s.evt := (rfl)
@[simp] theorem State.inc_lnk (s : State) (f : Fld) : (s.inc f).lnk = s.lnk := (rfl)
@[simp] theorem State.inc_hka (s : State) (f : Fld) : (s.inc f).hka = s.hka := (rfl)
@[simp] theorem State.inc_hkb (s : State) (f : Fld) : (s.inc f).hkb = s.hkb := (rfl)
@[simp] theorem State.inc_refOnAt (s : State) (f : Fld) : (s.inc f).refOnAt = s.refOnAt := (rfl)
@[simp] theorem State.inc_cal (s : State) (f : Fld) : (s.inc f).cal = s.cal := (rfl)
@[simp] theorem State.inc_mgt (s : State) (f : Fld) : (s.inc f).mgt = s.mgt := (rfl)
@[simp] theorem State.inc_cfg (s : State) (f : Fld) : (s.inc f).cfg = s.cfg := (rfl)
@[simp] theorem State.inc_free (s : State) (f : Fld) : (s.inc f).free = s.free := (rfl)
@[simp] theorem State.inc_win (s : State) (f : Fld) (c : Blk) (j : Nat) : (s.inc f).win c j = s.win c j := (rfl)
@[simp] theorem State.inc_winN (s : State) (f : Fld) (c : Blk) (j : Nat) : (s.inc f).winN c j = s.winN c j := (rfl)
@[simp] theorem State.inc_winAddr (s : State) (f : Fld) (c : Blk) (k : Nat) : (s.inc f).winAddr c k = s.winAddr c k := (rfl)
@[simp] theorem State.inc_src (s : State) (f : Fld) (c : Blk) (k : Nat) : (s.inc f).src c k = s.src c k := (rfl)

@[simp] theorem State.setWin_pending (s : State) (b : Blk) (a : Nat) (v : W24) : (s.setWin b a v).pending = s.pending := (rfl)
@[simp] theorem State.setWin_regs (s : State) (b : Blk) (a : Nat) (v : W24) : (s.setWin b a v).regs = s.regs := (rfl)
@[simp] theorem State.setWin_winAddrs (s : State) (b : Blk) (a : Nat) (v : W24) : (s.setWin b a v).winAddrs = s.winAddrs := (rfl)
@[simp] theorem State.setWin_srcs (s : State) (b : Blk) (a : Nat) (v : W24) : (s.setWin b a v).srcs = s.srcs := (rfl)
@[simp] theorem State.setWin_recTick (s : State) (b : Blk) (a : Nat) (v : W24) : (s.setWin b a v).recTick = s.recTick := (rfl)
@[simp] theorem State.setWin_timers (s : State) (b : Blk) (a : Nat) (v : W24) : (s.setWin b a v).timers = s.timers := (rfl)
@[simp] theorem State.setWin_hostQ (s : State) (b : Blk) (a : Nat) (v : W24) : (s.setWin b a v).hostQ = s.hostQ := (rfl)
@[simp] theorem State.setWin_fieldQ (s : State) (b : Blk) (a : Nat) (v : W24) : (s.setWin b a v).fieldQ = s.fieldQ := (rfl)
@[simp] theorem State.setWin_held (s : State) (b : Blk) (a : Nat) (v : W24) : (s.setWin b a v).held = s.held := (rfl)
@[simp] theorem State.setWin_gap (s : State) (b : Blk) (a : Nat) (v : W24) : (s.setWin b a v).gap = s.gap := (rfl)
@[simp] theorem State.setWin_tm (s : State) (b : Blk) (a : Nat) (v : W24) : (s.setWin b a v).tm = s.tm := (rfl)
@[simp] theorem State.setWin_bar (s : State) (b : Blk) (a : Nat) (v : W24) : (s.setWin b a v).bar = s.bar := (rfl)
@[simp] theorem State.setWin_pin (s : State) (b : Blk) (a : Nat) (v : W24) : (s.setWin b a v).pin = s.pin := (rfl)
@[simp] theorem State.setWin_flt (s : State) (b : Blk) (a : Nat) (v : W24) : (s.setWin b a v).flt = s.flt := (rfl)
@[simp] theorem State.setWin_cou (s : State) (b : Blk) (a : Nat) (v : W24) : (s.setWin b a v).cou = s.cou := (rfl)
@[simp] theorem State.setWin_bru (s : State) (b : Blk) (a : Nat) (v : W24) : (s.setWin b a v).bru = s.bru := (rfl)
@[simp] theorem State.setWin_pal (s : State) (b : Blk) (a : Nat) (v : W24) : (s.setWin b a v).pal = s.pal := (rfl)
@[simp] theorem State.setWin_pwr (s : State) (b : Blk) (a : Nat) (v : W24) : (s.setWin b a v).pwr = s.pwr := (rfl)
@[simp] theorem State.setWin_col (s : State) (b : Blk) (a : Nat) (v : W24) : (s.setWin b a v).col = s.col := (rfl)
@[simp] theorem State.setWin_nul (s : State) (b : Blk) (a : Nat) (v : W24) : (s.setWin b a v).nul = s.nul := (rfl)
@[simp] theorem State.setWin_var (s : State) (b : Blk) (a : Nat) (v : W24) : (s.setWin b a v).var = s.var := (rfl)
@[simp] theorem State.setWin_str (s : State) (b : Blk) (a : Nat) (v : W24) : (s.setWin b a v).str = s.str := (rfl)
@[simp] theorem State.setWin_evt (s : State) (b : Blk) (a : Nat) (v : W24) : (s.setWin b a v).evt = s.evt := (rfl)
@[simp] theorem State.setWin_lnk (s : State) (b : Blk) (a : Nat) (v : W24) : (s.setWin b a v).lnk = s.lnk := (rfl)
@[simp] theorem State.setWin_hka (s : State) (b : Blk) (a : Nat) (v : W24) : (s.setWin b a v).hka = s.hka := (rfl)
@[simp] theorem State.setWin_hkb (s : State) (b : Blk) (a : Nat) (v : W24) : (s.setWin b a v).hkb = s.hkb := (rfl)
@[simp] theorem State.setWin_refOnAt (s : State) (b : Blk) (a : Nat) (v : W24) : (s.setWin b a v).refOnAt = s.refOnAt := (rfl)
@[simp] theorem State.setWin_cal (s : State) (b : Blk) (a : Nat) (v : W24) : (s.setWin b a v).cal = s.cal := (rfl)
@[simp] theorem State.setWin_mgt (s : State) (b : Blk) (a : Nat) (v : W24) : (s.setWin b a v).mgt = s.mgt := (rfl)
@[simp] theorem State.setWin_cfg (s : State) (b : Blk) (a : Nat) (v : W24) : (s.setWin b a v).cfg = s.cfg := (rfl)
@[simp] theorem State.setWin_free (s : State) (b : Blk) (a : Nat) (v : W24) : (s.setWin b a v).free = s.free := (rfl)
@[simp] theorem State.setWin_reg (s : State) (b : Blk) (a : Nat) (v : W24) (j : Nat) : (s.setWin b a v).reg j = s.reg j := (rfl)
@[simp] theorem State.setWin_fld (s : State) (b : Blk) (a : Nat) (v : W24) (g : Fld) : (s.setWin b a v).fld g = s.fld g := (rfl)
@[simp] theorem State.setWin_bit (s : State) (b : Blk) (a : Nat) (v : W24) (g : Fld) : (s.setWin b a v).bit g = s.bit g := (rfl)
@[simp] theorem State.setWin_winAddr (s : State) (b : Blk) (a : Nat) (v : W24) (c : Blk) (k : Nat) : (s.setWin b a v).winAddr c k = s.winAddr c k := (rfl)
@[simp] theorem State.setWin_src (s : State) (b : Blk) (a : Nat) (v : W24) (c : Blk) (k : Nat) : (s.setWin b a v).src c k = s.src c k := (rfl)

@[simp] theorem State.setWinN_pending (s : State) (b : Blk) (a v : Nat) : (s.setWinN b a v).pending = s.pending := (rfl)
@[simp] theorem State.setWinN_regs (s : State) (b : Blk) (a v : Nat) : (s.setWinN b a v).regs = s.regs := (rfl)
@[simp] theorem State.setWinN_winAddrs (s : State) (b : Blk) (a v : Nat) : (s.setWinN b a v).winAddrs = s.winAddrs := (rfl)
@[simp] theorem State.setWinN_srcs (s : State) (b : Blk) (a v : Nat) : (s.setWinN b a v).srcs = s.srcs := (rfl)
@[simp] theorem State.setWinN_recTick (s : State) (b : Blk) (a v : Nat) : (s.setWinN b a v).recTick = s.recTick := (rfl)
@[simp] theorem State.setWinN_timers (s : State) (b : Blk) (a v : Nat) : (s.setWinN b a v).timers = s.timers := (rfl)
@[simp] theorem State.setWinN_hostQ (s : State) (b : Blk) (a v : Nat) : (s.setWinN b a v).hostQ = s.hostQ := (rfl)
@[simp] theorem State.setWinN_fieldQ (s : State) (b : Blk) (a v : Nat) : (s.setWinN b a v).fieldQ = s.fieldQ := (rfl)
@[simp] theorem State.setWinN_held (s : State) (b : Blk) (a v : Nat) : (s.setWinN b a v).held = s.held := (rfl)
@[simp] theorem State.setWinN_gap (s : State) (b : Blk) (a v : Nat) : (s.setWinN b a v).gap = s.gap := (rfl)
@[simp] theorem State.setWinN_tm (s : State) (b : Blk) (a v : Nat) : (s.setWinN b a v).tm = s.tm := (rfl)
@[simp] theorem State.setWinN_bar (s : State) (b : Blk) (a v : Nat) : (s.setWinN b a v).bar = s.bar := (rfl)
@[simp] theorem State.setWinN_pin (s : State) (b : Blk) (a v : Nat) : (s.setWinN b a v).pin = s.pin := (rfl)
@[simp] theorem State.setWinN_flt (s : State) (b : Blk) (a v : Nat) : (s.setWinN b a v).flt = s.flt := (rfl)
@[simp] theorem State.setWinN_cou (s : State) (b : Blk) (a v : Nat) : (s.setWinN b a v).cou = s.cou := (rfl)
@[simp] theorem State.setWinN_bru (s : State) (b : Blk) (a v : Nat) : (s.setWinN b a v).bru = s.bru := (rfl)
@[simp] theorem State.setWinN_pal (s : State) (b : Blk) (a v : Nat) : (s.setWinN b a v).pal = s.pal := (rfl)
@[simp] theorem State.setWinN_pwr (s : State) (b : Blk) (a v : Nat) : (s.setWinN b a v).pwr = s.pwr := (rfl)
@[simp] theorem State.setWinN_col (s : State) (b : Blk) (a v : Nat) : (s.setWinN b a v).col = s.col := (rfl)
@[simp] theorem State.setWinN_nul (s : State) (b : Blk) (a v : Nat) : (s.setWinN b a v).nul = s.nul := (rfl)
@[simp] theorem State.setWinN_var (s : State) (b : Blk) (a v : Nat) : (s.setWinN b a v).var = s.var := (rfl)
@[simp] theorem State.setWinN_str (s : State) (b : Blk) (a v : Nat) : (s.setWinN b a v).str = s.str := (rfl)
@[simp] theorem State.setWinN_evt (s : State) (b : Blk) (a v : Nat) : (s.setWinN b a v).evt = s.evt := (rfl)
@[simp] theorem State.setWinN_lnk (s : State) (b : Blk) (a v : Nat) : (s.setWinN b a v).lnk = s.lnk := (rfl)
@[simp] theorem State.setWinN_hka (s : State) (b : Blk) (a v : Nat) : (s.setWinN b a v).hka = s.hka := (rfl)
@[simp] theorem State.setWinN_hkb (s : State) (b : Blk) (a v : Nat) : (s.setWinN b a v).hkb = s.hkb := (rfl)
@[simp] theorem State.setWinN_refOnAt (s : State) (b : Blk) (a v : Nat) : (s.setWinN b a v).refOnAt = s.refOnAt := (rfl)
@[simp] theorem State.setWinN_cal (s : State) (b : Blk) (a v : Nat) : (s.setWinN b a v).cal = s.cal := (rfl)
@[simp] theorem State.setWinN_mgt (s : State) (b : Blk) (a v : Nat) : (s.setWinN b a v).mgt = s.mgt := (rfl)
@[simp] theorem State.setWinN_cfg (s : State) (b : Blk) (a v : Nat) : (s.setWinN b a v).cfg = s.cfg := (rfl)
@[simp] theorem State.setWinN_free (s : State) (b : Blk) (a v : Nat) : (s.setWinN b a v).free = s.free := (rfl)
@[simp] theorem State.setWinN_reg (s : State) (b : Blk) (a v : Nat) (j : Nat) : (s.setWinN b a v).reg j = s.reg j := (rfl)
@[simp] theorem State.setWinN_fld (s : State) (b : Blk) (a v : Nat) (g : Fld) : (s.setWinN b a v).fld g = s.fld g := (rfl)
@[simp] theorem State.setWinN_bit (s : State) (b : Blk) (a v : Nat) (g : Fld) : (s.setWinN b a v).bit g = s.bit g := (rfl)
@[simp] theorem State.setWinN_winAddr (s : State) (b : Blk) (a v : Nat) (c : Blk) (k : Nat) : (s.setWinN b a v).winAddr c k = s.winAddr c k := (rfl)
@[simp] theorem State.setWinN_src (s : State) (b : Blk) (a v : Nat) (c : Blk) (k : Nat) : (s.setWinN b a v).src c k = s.src c k := (rfl)

@[simp] theorem State.setWinAddr_pending (s : State) (b : Blk) (m a : Nat) : (s.setWinAddr b m a).pending = s.pending := (rfl)
@[simp] theorem State.setWinAddr_regs (s : State) (b : Blk) (m a : Nat) : (s.setWinAddr b m a).regs = s.regs := (rfl)
@[simp] theorem State.setWinAddr_wins (s : State) (b : Blk) (m a : Nat) : (s.setWinAddr b m a).wins = s.wins := (rfl)
@[simp] theorem State.setWinAddr_srcs (s : State) (b : Blk) (m a : Nat) : (s.setWinAddr b m a).srcs = s.srcs := (rfl)
@[simp] theorem State.setWinAddr_recTick (s : State) (b : Blk) (m a : Nat) : (s.setWinAddr b m a).recTick = s.recTick := (rfl)
@[simp] theorem State.setWinAddr_timers (s : State) (b : Blk) (m a : Nat) : (s.setWinAddr b m a).timers = s.timers := (rfl)
@[simp] theorem State.setWinAddr_hostQ (s : State) (b : Blk) (m a : Nat) : (s.setWinAddr b m a).hostQ = s.hostQ := (rfl)
@[simp] theorem State.setWinAddr_fieldQ (s : State) (b : Blk) (m a : Nat) : (s.setWinAddr b m a).fieldQ = s.fieldQ := (rfl)
@[simp] theorem State.setWinAddr_held (s : State) (b : Blk) (m a : Nat) : (s.setWinAddr b m a).held = s.held := (rfl)
@[simp] theorem State.setWinAddr_gap (s : State) (b : Blk) (m a : Nat) : (s.setWinAddr b m a).gap = s.gap := (rfl)
@[simp] theorem State.setWinAddr_tm (s : State) (b : Blk) (m a : Nat) : (s.setWinAddr b m a).tm = s.tm := (rfl)
@[simp] theorem State.setWinAddr_bar (s : State) (b : Blk) (m a : Nat) : (s.setWinAddr b m a).bar = s.bar := (rfl)
@[simp] theorem State.setWinAddr_pin (s : State) (b : Blk) (m a : Nat) : (s.setWinAddr b m a).pin = s.pin := (rfl)
@[simp] theorem State.setWinAddr_flt (s : State) (b : Blk) (m a : Nat) : (s.setWinAddr b m a).flt = s.flt := (rfl)
@[simp] theorem State.setWinAddr_cou (s : State) (b : Blk) (m a : Nat) : (s.setWinAddr b m a).cou = s.cou := (rfl)
@[simp] theorem State.setWinAddr_bru (s : State) (b : Blk) (m a : Nat) : (s.setWinAddr b m a).bru = s.bru := (rfl)
@[simp] theorem State.setWinAddr_pal (s : State) (b : Blk) (m a : Nat) : (s.setWinAddr b m a).pal = s.pal := (rfl)
@[simp] theorem State.setWinAddr_pwr (s : State) (b : Blk) (m a : Nat) : (s.setWinAddr b m a).pwr = s.pwr := (rfl)
@[simp] theorem State.setWinAddr_col (s : State) (b : Blk) (m a : Nat) : (s.setWinAddr b m a).col = s.col := (rfl)
@[simp] theorem State.setWinAddr_nul (s : State) (b : Blk) (m a : Nat) : (s.setWinAddr b m a).nul = s.nul := (rfl)
@[simp] theorem State.setWinAddr_var (s : State) (b : Blk) (m a : Nat) : (s.setWinAddr b m a).var = s.var := (rfl)
@[simp] theorem State.setWinAddr_str (s : State) (b : Blk) (m a : Nat) : (s.setWinAddr b m a).str = s.str := (rfl)
@[simp] theorem State.setWinAddr_evt (s : State) (b : Blk) (m a : Nat) : (s.setWinAddr b m a).evt = s.evt := (rfl)
@[simp] theorem State.setWinAddr_lnk (s : State) (b : Blk) (m a : Nat) : (s.setWinAddr b m a).lnk = s.lnk := (rfl)
@[simp] theorem State.setWinAddr_hka (s : State) (b : Blk) (m a : Nat) : (s.setWinAddr b m a).hka = s.hka := (rfl)
@[simp] theorem State.setWinAddr_hkb (s : State) (b : Blk) (m a : Nat) : (s.setWinAddr b m a).hkb = s.hkb := (rfl)
@[simp] theorem State.setWinAddr_refOnAt (s : State) (b : Blk) (m a : Nat) : (s.setWinAddr b m a).refOnAt = s.refOnAt := (rfl)
@[simp] theorem State.setWinAddr_cal (s : State) (b : Blk) (m a : Nat) : (s.setWinAddr b m a).cal = s.cal := (rfl)
@[simp] theorem State.setWinAddr_mgt (s : State) (b : Blk) (m a : Nat) : (s.setWinAddr b m a).mgt = s.mgt := (rfl)
@[simp] theorem State.setWinAddr_cfg (s : State) (b : Blk) (m a : Nat) : (s.setWinAddr b m a).cfg = s.cfg := (rfl)
@[simp] theorem State.setWinAddr_free (s : State) (b : Blk) (m a : Nat) : (s.setWinAddr b m a).free = s.free := (rfl)
@[simp] theorem State.setWinAddr_reg (s : State) (b : Blk) (m a : Nat) (j : Nat) : (s.setWinAddr b m a).reg j = s.reg j := (rfl)
@[simp] theorem State.setWinAddr_fld (s : State) (b : Blk) (m a : Nat) (g : Fld) : (s.setWinAddr b m a).fld g = s.fld g := (rfl)
@[simp] theorem State.setWinAddr_bit (s : State) (b : Blk) (m a : Nat) (g : Fld) : (s.setWinAddr b m a).bit g = s.bit g := (rfl)
@[simp] theorem State.setWinAddr_win (s : State) (b : Blk) (m a : Nat) (c : Blk) (j : Nat) : (s.setWinAddr b m a).win c j = s.win c j := (rfl)
@[simp] theorem State.setWinAddr_winN (s : State) (b : Blk) (m a : Nat) (c : Blk) (j : Nat) : (s.setWinAddr b m a).winN c j = s.winN c j := (rfl)
@[simp] theorem State.setWinAddr_src (s : State) (b : Blk) (m a : Nat) (c : Blk) (k : Nat) : (s.setWinAddr b m a).src c k = s.src c k := (rfl)

@[simp] theorem State.setSrc_pending (s : State) (b : Blk) (i : Nat) (x : Source) : (s.setSrc b i x).pending = s.pending := (rfl)
@[simp] theorem State.setSrc_regs (s : State) (b : Blk) (i : Nat) (x : Source) : (s.setSrc b i x).regs = s.regs := (rfl)
@[simp] theorem State.setSrc_wins (s : State) (b : Blk) (i : Nat) (x : Source) : (s.setSrc b i x).wins = s.wins := (rfl)
@[simp] theorem State.setSrc_winAddrs (s : State) (b : Blk) (i : Nat) (x : Source) : (s.setSrc b i x).winAddrs = s.winAddrs := (rfl)
@[simp] theorem State.setSrc_recTick (s : State) (b : Blk) (i : Nat) (x : Source) : (s.setSrc b i x).recTick = s.recTick := (rfl)
@[simp] theorem State.setSrc_timers (s : State) (b : Blk) (i : Nat) (x : Source) : (s.setSrc b i x).timers = s.timers := (rfl)
@[simp] theorem State.setSrc_hostQ (s : State) (b : Blk) (i : Nat) (x : Source) : (s.setSrc b i x).hostQ = s.hostQ := (rfl)
@[simp] theorem State.setSrc_fieldQ (s : State) (b : Blk) (i : Nat) (x : Source) : (s.setSrc b i x).fieldQ = s.fieldQ := (rfl)
@[simp] theorem State.setSrc_held (s : State) (b : Blk) (i : Nat) (x : Source) : (s.setSrc b i x).held = s.held := (rfl)
@[simp] theorem State.setSrc_gap (s : State) (b : Blk) (i : Nat) (x : Source) : (s.setSrc b i x).gap = s.gap := (rfl)
@[simp] theorem State.setSrc_tm (s : State) (b : Blk) (i : Nat) (x : Source) : (s.setSrc b i x).tm = s.tm := (rfl)
@[simp] theorem State.setSrc_bar (s : State) (b : Blk) (i : Nat) (x : Source) : (s.setSrc b i x).bar = s.bar := (rfl)
@[simp] theorem State.setSrc_pin (s : State) (b : Blk) (i : Nat) (x : Source) : (s.setSrc b i x).pin = s.pin := (rfl)
@[simp] theorem State.setSrc_flt (s : State) (b : Blk) (i : Nat) (x : Source) : (s.setSrc b i x).flt = s.flt := (rfl)
@[simp] theorem State.setSrc_cou (s : State) (b : Blk) (i : Nat) (x : Source) : (s.setSrc b i x).cou = s.cou := (rfl)
@[simp] theorem State.setSrc_bru (s : State) (b : Blk) (i : Nat) (x : Source) : (s.setSrc b i x).bru = s.bru := (rfl)
@[simp] theorem State.setSrc_pal (s : State) (b : Blk) (i : Nat) (x : Source) : (s.setSrc b i x).pal = s.pal := (rfl)
@[simp] theorem State.setSrc_pwr (s : State) (b : Blk) (i : Nat) (x : Source) : (s.setSrc b i x).pwr = s.pwr := (rfl)
@[simp] theorem State.setSrc_col (s : State) (b : Blk) (i : Nat) (x : Source) : (s.setSrc b i x).col = s.col := (rfl)
@[simp] theorem State.setSrc_nul (s : State) (b : Blk) (i : Nat) (x : Source) : (s.setSrc b i x).nul = s.nul := (rfl)
@[simp] theorem State.setSrc_var (s : State) (b : Blk) (i : Nat) (x : Source) : (s.setSrc b i x).var = s.var := (rfl)
@[simp] theorem State.setSrc_str (s : State) (b : Blk) (i : Nat) (x : Source) : (s.setSrc b i x).str = s.str := (rfl)
@[simp] theorem State.setSrc_evt (s : State) (b : Blk) (i : Nat) (x : Source) : (s.setSrc b i x).evt = s.evt := (rfl)
@[simp] theorem State.setSrc_lnk (s : State) (b : Blk) (i : Nat) (x : Source) : (s.setSrc b i x).lnk = s.lnk := (rfl)
@[simp] theorem State.setSrc_hka (s : State) (b : Blk) (i : Nat) (x : Source) : (s.setSrc b i x).hka = s.hka := (rfl)
@[simp] theorem State.setSrc_hkb (s : State) (b : Blk) (i : Nat) (x : Source) : (s.setSrc b i x).hkb = s.hkb := (rfl)
@[simp] theorem State.setSrc_refOnAt (s : State) (b : Blk) (i : Nat) (x : Source) : (s.setSrc b i x).refOnAt = s.refOnAt := (rfl)
@[simp] theorem State.setSrc_cal (s : State) (b : Blk) (i : Nat) (x : Source) : (s.setSrc b i x).cal = s.cal := (rfl)
@[simp] theorem State.setSrc_mgt (s : State) (b : Blk) (i : Nat) (x : Source) : (s.setSrc b i x).mgt = s.mgt := (rfl)
@[simp] theorem State.setSrc_cfg (s : State) (b : Blk) (i : Nat) (x : Source) : (s.setSrc b i x).cfg = s.cfg := (rfl)
@[simp] theorem State.setSrc_free (s : State) (b : Blk) (i : Nat) (x : Source) : (s.setSrc b i x).free = s.free := (rfl)
@[simp] theorem State.setSrc_reg (s : State) (b : Blk) (i : Nat) (x : Source) (j : Nat) : (s.setSrc b i x).reg j = s.reg j := (rfl)
@[simp] theorem State.setSrc_fld (s : State) (b : Blk) (i : Nat) (x : Source) (g : Fld) : (s.setSrc b i x).fld g = s.fld g := (rfl)
@[simp] theorem State.setSrc_bit (s : State) (b : Blk) (i : Nat) (x : Source) (g : Fld) : (s.setSrc b i x).bit g = s.bit g := (rfl)
@[simp] theorem State.setSrc_win (s : State) (b : Blk) (i : Nat) (x : Source) (c : Blk) (j : Nat) : (s.setSrc b i x).win c j = s.win c j := (rfl)
@[simp] theorem State.setSrc_winN (s : State) (b : Blk) (i : Nat) (x : Source) (c : Blk) (j : Nat) : (s.setSrc b i x).winN c j = s.winN c j := (rfl)
@[simp] theorem State.setSrc_winAddr (s : State) (b : Blk) (i : Nat) (x : Source) (c : Blk) (k : Nat) : (s.setSrc b i x).winAddr c k = s.winAddr c k := (rfl)

@[simp] theorem State.after_pending (s : State) (n : Nat) (i : Instr) : (s.after n i).pending = s.pending := (rfl)
@[simp] theorem State.after_regs (s : State) (n : Nat) (i : Instr) : (s.after n i).regs = s.regs := (rfl)
@[simp] theorem State.after_wins (s : State) (n : Nat) (i : Instr) : (s.after n i).wins = s.wins := (rfl)
@[simp] theorem State.after_winAddrs (s : State) (n : Nat) (i : Instr) : (s.after n i).winAddrs = s.winAddrs := (rfl)
@[simp] theorem State.after_srcs (s : State) (n : Nat) (i : Instr) : (s.after n i).srcs = s.srcs := (rfl)
@[simp] theorem State.after_recTick (s : State) (n : Nat) (i : Instr) : (s.after n i).recTick = s.recTick := (rfl)
@[simp] theorem State.after_hostQ (s : State) (n : Nat) (i : Instr) : (s.after n i).hostQ = s.hostQ := (rfl)
@[simp] theorem State.after_fieldQ (s : State) (n : Nat) (i : Instr) : (s.after n i).fieldQ = s.fieldQ := (rfl)
@[simp] theorem State.after_held (s : State) (n : Nat) (i : Instr) : (s.after n i).held = s.held := (rfl)
@[simp] theorem State.after_gap (s : State) (n : Nat) (i : Instr) : (s.after n i).gap = s.gap := (rfl)
@[simp] theorem State.after_tm (s : State) (n : Nat) (i : Instr) : (s.after n i).tm = s.tm := (rfl)
@[simp] theorem State.after_bar (s : State) (n : Nat) (i : Instr) : (s.after n i).bar = s.bar := (rfl)
@[simp] theorem State.after_pin (s : State) (n : Nat) (i : Instr) : (s.after n i).pin = s.pin := (rfl)
@[simp] theorem State.after_flt (s : State) (n : Nat) (i : Instr) : (s.after n i).flt = s.flt := (rfl)
@[simp] theorem State.after_cou (s : State) (n : Nat) (i : Instr) : (s.after n i).cou = s.cou := (rfl)
@[simp] theorem State.after_bru (s : State) (n : Nat) (i : Instr) : (s.after n i).bru = s.bru := (rfl)
@[simp] theorem State.after_pal (s : State) (n : Nat) (i : Instr) : (s.after n i).pal = s.pal := (rfl)
@[simp] theorem State.after_pwr (s : State) (n : Nat) (i : Instr) : (s.after n i).pwr = s.pwr := (rfl)
@[simp] theorem State.after_col (s : State) (n : Nat) (i : Instr) : (s.after n i).col = s.col := (rfl)
@[simp] theorem State.after_nul (s : State) (n : Nat) (i : Instr) : (s.after n i).nul = s.nul := (rfl)
@[simp] theorem State.after_var (s : State) (n : Nat) (i : Instr) : (s.after n i).var = s.var := (rfl)
@[simp] theorem State.after_str (s : State) (n : Nat) (i : Instr) : (s.after n i).str = s.str := (rfl)
@[simp] theorem State.after_evt (s : State) (n : Nat) (i : Instr) : (s.after n i).evt = s.evt := (rfl)
@[simp] theorem State.after_lnk (s : State) (n : Nat) (i : Instr) : (s.after n i).lnk = s.lnk := (rfl)
@[simp] theorem State.after_hka (s : State) (n : Nat) (i : Instr) : (s.after n i).hka = s.hka := (rfl)
@[simp] theorem State.after_hkb (s : State) (n : Nat) (i : Instr) : (s.after n i).hkb = s.hkb := (rfl)
@[simp] theorem State.after_refOnAt (s : State) (n : Nat) (i : Instr) : (s.after n i).refOnAt = s.refOnAt := (rfl)
@[simp] theorem State.after_cal (s : State) (n : Nat) (i : Instr) : (s.after n i).cal = s.cal := (rfl)
@[simp] theorem State.after_mgt (s : State) (n : Nat) (i : Instr) : (s.after n i).mgt = s.mgt := (rfl)
@[simp] theorem State.after_cfg (s : State) (n : Nat) (i : Instr) : (s.after n i).cfg = s.cfg := (rfl)
@[simp] theorem State.after_free (s : State) (n : Nat) (i : Instr) : (s.after n i).free = s.free := (rfl)
@[simp] theorem State.after_reg (s : State) (n : Nat) (i : Instr) (j : Nat) : (s.after n i).reg j = s.reg j := (rfl)
@[simp] theorem State.after_fld (s : State) (n : Nat) (i : Instr) (g : Fld) : (s.after n i).fld g = s.fld g := (rfl)
@[simp] theorem State.after_bit (s : State) (n : Nat) (i : Instr) (g : Fld) : (s.after n i).bit g = s.bit g := (rfl)
@[simp] theorem State.after_win (s : State) (n : Nat) (i : Instr) (c : Blk) (j : Nat) : (s.after n i).win c j = s.win c j := (rfl)
@[simp] theorem State.after_winN (s : State) (n : Nat) (i : Instr) (c : Blk) (j : Nat) : (s.after n i).winN c j = s.winN c j := (rfl)
@[simp] theorem State.after_winAddr (s : State) (n : Nat) (i : Instr) (c : Blk) (k : Nat) : (s.after n i).winAddr c k = s.winAddr c k := (rfl)
@[simp] theorem State.after_src (s : State) (n : Nat) (i : Instr) (c : Blk) (k : Nat) : (s.after n i).src c k = s.src c k := (rfl)

@[simp] theorem State.dropTimers_pending (s : State) (p : Instr → Bool) : (s.dropTimers p).pending = s.pending := (rfl)
@[simp] theorem State.dropTimers_regs (s : State) (p : Instr → Bool) : (s.dropTimers p).regs = s.regs := (rfl)
@[simp] theorem State.dropTimers_wins (s : State) (p : Instr → Bool) : (s.dropTimers p).wins = s.wins := (rfl)
@[simp] theorem State.dropTimers_winAddrs (s : State) (p : Instr → Bool) : (s.dropTimers p).winAddrs = s.winAddrs := (rfl)
@[simp] theorem State.dropTimers_srcs (s : State) (p : Instr → Bool) : (s.dropTimers p).srcs = s.srcs := (rfl)
@[simp] theorem State.dropTimers_recTick (s : State) (p : Instr → Bool) : (s.dropTimers p).recTick = s.recTick := (rfl)
@[simp] theorem State.dropTimers_hostQ (s : State) (p : Instr → Bool) : (s.dropTimers p).hostQ = s.hostQ := (rfl)
@[simp] theorem State.dropTimers_fieldQ (s : State) (p : Instr → Bool) : (s.dropTimers p).fieldQ = s.fieldQ := (rfl)
@[simp] theorem State.dropTimers_held (s : State) (p : Instr → Bool) : (s.dropTimers p).held = s.held := (rfl)
@[simp] theorem State.dropTimers_gap (s : State) (p : Instr → Bool) : (s.dropTimers p).gap = s.gap := (rfl)
@[simp] theorem State.dropTimers_tm (s : State) (p : Instr → Bool) : (s.dropTimers p).tm = s.tm := (rfl)
@[simp] theorem State.dropTimers_bar (s : State) (p : Instr → Bool) : (s.dropTimers p).bar = s.bar := (rfl)
@[simp] theorem State.dropTimers_pin (s : State) (p : Instr → Bool) : (s.dropTimers p).pin = s.pin := (rfl)
@[simp] theorem State.dropTimers_flt (s : State) (p : Instr → Bool) : (s.dropTimers p).flt = s.flt := (rfl)
@[simp] theorem State.dropTimers_cou (s : State) (p : Instr → Bool) : (s.dropTimers p).cou = s.cou := (rfl)
@[simp] theorem State.dropTimers_bru (s : State) (p : Instr → Bool) : (s.dropTimers p).bru = s.bru := (rfl)
@[simp] theorem State.dropTimers_pal (s : State) (p : Instr → Bool) : (s.dropTimers p).pal = s.pal := (rfl)
@[simp] theorem State.dropTimers_pwr (s : State) (p : Instr → Bool) : (s.dropTimers p).pwr = s.pwr := (rfl)
@[simp] theorem State.dropTimers_col (s : State) (p : Instr → Bool) : (s.dropTimers p).col = s.col := (rfl)
@[simp] theorem State.dropTimers_nul (s : State) (p : Instr → Bool) : (s.dropTimers p).nul = s.nul := (rfl)
@[simp] theorem State.dropTimers_var (s : State) (p : Instr → Bool) : (s.dropTimers p).var = s.var := (rfl)
@[simp] theorem State.dropTimers_str (s : State) (p : Instr → Bool) : (s.dropTimers p).str = s.str := (rfl)
@[simp] theorem State.dropTimers_evt (s : State) (p : Instr → Bool) : (s.dropTimers p).evt = s.evt := (rfl)
@[simp] theorem State.dropTimers_lnk (s : State) (p : Instr → Bool) : (s.dropTimers p).lnk = s.lnk := (rfl)
@[simp] theorem State.dropTimers_hka (s : State) (p : Instr → Bool) : (s.dropTimers p).hka = s.hka := (rfl)
@[simp] theorem State.dropTimers_hkb (s : State) (p : Instr → Bool) : (s.dropTimers p).hkb = s.hkb := (rfl)
@[simp] theorem State.dropTimers_refOnAt (s : State) (p : Instr → Bool) : (s.dropTimers p).refOnAt = s.refOnAt := (rfl)
@[simp] theorem State.dropTimers_cal (s : State) (p : Instr → Bool) : (s.dropTimers p).cal = s.cal := (rfl)
@[simp] theorem State.dropTimers_mgt (s : State) (p : Instr → Bool) : (s.dropTimers p).mgt = s.mgt := (rfl)
@[simp] theorem State.dropTimers_cfg (s : State) (p : Instr → Bool) : (s.dropTimers p).cfg = s.cfg := (rfl)
@[simp] theorem State.dropTimers_free (s : State) (p : Instr → Bool) : (s.dropTimers p).free = s.free := (rfl)
@[simp] theorem State.dropTimers_reg (s : State) (p : Instr → Bool) (j : Nat) : (s.dropTimers p).reg j = s.reg j := (rfl)
@[simp] theorem State.dropTimers_fld (s : State) (p : Instr → Bool) (g : Fld) : (s.dropTimers p).fld g = s.fld g := (rfl)
@[simp] theorem State.dropTimers_bit (s : State) (p : Instr → Bool) (g : Fld) : (s.dropTimers p).bit g = s.bit g := (rfl)
@[simp] theorem State.dropTimers_win (s : State) (p : Instr → Bool) (c : Blk) (j : Nat) : (s.dropTimers p).win c j = s.win c j := (rfl)
@[simp] theorem State.dropTimers_winN (s : State) (p : Instr → Bool) (c : Blk) (j : Nat) : (s.dropTimers p).winN c j = s.winN c j := (rfl)
@[simp] theorem State.dropTimers_winAddr (s : State) (p : Instr → Bool) (c : Blk) (k : Nat) : (s.dropTimers p).winAddr c k = s.winAddr c k := (rfl)
@[simp] theorem State.dropTimers_src (s : State) (p : Instr → Bool) (c : Blk) (k : Nat) : (s.dropTimers p).src c k = s.src c k := (rfl)

/-! ### Registers -/

@[simp] theorem State.reg_setReg (s : State) (i j : Nat) (v : Word) :
    (s.setReg i v).reg j = if i = j then v else s.reg j := by
  split
  · next h => subst h; exact s.reg_setReg_same i v
  · next h => exact s.reg_setReg_other v h

theorem State.reg_setFld_other (s : State) {f : Fld} {i : Nat} (v : Nat) (h : f.reg ≠ i) :
    (s.setFld f v).reg i = s.reg i := s.reg_setReg_other _ h

theorem State.reg_setBit_other (s : State) {f : Fld} {i : Nat} (b : Bool) (h : f.reg ≠ i) :
    (s.setBit f b).reg i = s.reg i := s.reg_setReg_other _ h

theorem State.reg_setFld_same (s : State) (f : Fld) (v : Nat) :
    (s.setFld f v).reg f.reg = fldPut f (s.reg f.reg) v := s.reg_setReg_same ..

/-! ### Fields of a register -/

theorem fldPut_toNat {f : Fld} (w : Word) (v : Nat) (h : f.lo + f.len ≤ 32) :
    (fldPut f w v).toNat = w.toNat / 2 ^ (f.lo + f.len) * 2 ^ (f.lo + f.len) + v % 2 ^ f.len * 2 ^ f.lo +
      w.toNat % 2 ^ f.lo := by
  unfold fldPut
  rw [BitVec.toNat_ofNat]
  apply Nat.mod_eq_of_lt
  have h0 : w.toNat < 2 ^ 32 := w.isLt
  have h1 : v % 2 ^ f.len * 2 ^ f.lo + w.toNat % 2 ^ f.lo < 2 ^ (f.lo + f.len) := by
    have a := Nat.mod_lt v (Nat.two_pow_pos f.len)
    have b := Nat.mod_lt w.toNat (Nat.two_pow_pos f.lo)
    have c : (v % 2 ^ f.len + 1) * 2 ^ f.lo ≤ 2 ^ f.len * 2 ^ f.lo := Nat.mul_le_mul_right _ a
    rw [Nat.pow_add, Nat.mul_comm (2 ^ f.lo)]
    rw [Nat.add_mul] at c
    omega
  have h2 : 2 ^ 32 = 2 ^ (32 - (f.lo + f.len)) * 2 ^ (f.lo + f.len) := by rw [← Nat.pow_add]; congr 1; omega
  have h3 : w.toNat / 2 ^ (f.lo + f.len) < 2 ^ (32 - (f.lo + f.len)) := by
    rw [Nat.div_lt_iff_lt_mul (Nat.two_pow_pos _), ← h2]; exact h0
  have h4 : (w.toNat / 2 ^ (f.lo + f.len) + 1) * 2 ^ (f.lo + f.len) ≤ 2 ^ 32 := by
    rw [h2]; exact Nat.mul_le_mul_right _ h3
  rw [Nat.add_mul] at h4
  omega

/-- A field reads back what was put into it, cut to its width. -/
theorem fldGet_fldPut_same {f : Fld} (w : Word) (v : Nat) (h : f.lo + f.len ≤ 32) :
    fldGet f (fldPut f w v) = v % 2 ^ f.len := by
  unfold fldGet
  rw [fldPut_toNat w v h]
  have e : w.toNat / 2 ^ (f.lo + f.len) * 2 ^ (f.lo + f.len) + v % 2 ^ f.len * 2 ^ f.lo + w.toNat % 2 ^ f.lo =
      (w.toNat / 2 ^ (f.lo + f.len) * 2 ^ f.len + v % 2 ^ f.len) * 2 ^ f.lo + w.toNat % 2 ^ f.lo := by
    rw [Nat.add_mul, Nat.pow_add, Nat.mul_comm (2 ^ f.lo) (2 ^ f.len), ← Nat.mul_assoc]
  rw [e, Nat.mul_comm _ (2 ^ f.lo), Nat.mul_add_div (Nat.two_pow_pos _),
    Nat.div_eq_of_lt (Nat.mod_lt _ (Nat.two_pow_pos _)), Nat.add_zero, Nat.mul_comm _ (2 ^ f.len),
    Nat.mul_add_mod, Nat.mod_mod]

/-- A field keeps its value where another field of the word is put. -/
theorem fldGet_fldPut_other {f g : Fld} (w : Word) (v : Nat) (h : f.lo + f.len ≤ 32)
    (hd : f.lo + f.len ≤ g.lo ∨ g.lo + g.len ≤ f.lo) : fldGet g (fldPut f w v) = fldGet g w := by
  unfold fldGet
  rw [fldPut_toNat w v h]
  have h1 : v % 2 ^ f.len * 2 ^ f.lo + w.toNat % 2 ^ f.lo < 2 ^ (f.lo + f.len) := by
    have a := Nat.mod_lt v (Nat.two_pow_pos f.len)
    have b := Nat.mod_lt w.toNat (Nat.two_pow_pos f.lo)
    have c : (v % 2 ^ f.len + 1) * 2 ^ f.lo ≤ 2 ^ f.len * 2 ^ f.lo := Nat.mul_le_mul_right _ a
    rw [Nat.pow_add, Nat.mul_comm (2 ^ f.lo)]
    rw [Nat.add_mul] at c
    omega
  rcases hd with hd | hd
  · have e : 2 ^ g.lo = 2 ^ (f.lo + f.len) * 2 ^ (g.lo - (f.lo + f.len)) := by rw [← Nat.pow_add]; congr 1; omega
    rw [e, ← Nat.div_div_eq_div_mul, ← Nat.div_div_eq_div_mul, Nat.add_assoc, Nat.mul_comm _ (2 ^ (f.lo + f.len)),
      Nat.mul_add_div (Nat.two_pow_pos _), Nat.div_eq_of_lt h1, Nat.add_zero]
  · have e : 2 ^ f.lo = 2 ^ (g.lo + g.len) * 2 ^ (f.lo - (g.lo + g.len)) := by rw [← Nat.pow_add]; congr 1; omega
    have hm : ∀ x y : Nat, x % 2 ^ f.lo = y % 2 ^ f.lo → x / 2 ^ g.lo % 2 ^ g.len = y / 2 ^ g.lo % 2 ^ g.len := by
      intro x y hxy
      have h2 : x % 2 ^ (g.lo + g.len) = y % 2 ^ (g.lo + g.len) := by
        rw [← Nat.mod_mul_right_mod x (2 ^ (g.lo + g.len)) (2 ^ (f.lo - (g.lo + g.len))), ← e, hxy, e,
          Nat.mod_mul_right_mod]
      have h3 : ∀ z : Nat, z / 2 ^ g.lo % 2 ^ g.len = z % 2 ^ (g.lo + g.len) / 2 ^ g.lo := by
        intro z
        rw [Nat.pow_add, Nat.mod_mul_right_div_self]
      rw [h3, h3, h2]
    apply hm
    have e2 : w.toNat / 2 ^ (f.lo + f.len) * 2 ^ (f.lo + f.len) + v % 2 ^ f.len * 2 ^ f.lo + w.toNat % 2 ^ f.lo =
        2 ^ f.lo * (w.toNat / 2 ^ (f.lo + f.len) * 2 ^ f.len + v % 2 ^ f.len) + w.toNat % 2 ^ f.lo := by
      rw [Nat.mul_add, Nat.pow_add, Nat.mul_comm (2 ^ f.lo) (v % 2 ^ f.len), Nat.mul_left_comm (2 ^ f.lo)]
    rw [e2, Nat.mul_add_mod, Nat.mod_mod]

theorem State.fld_setFld_same (s : State) (f : Fld) (v : Nat) (h : f.lo + f.len ≤ 32) :
    (s.setFld f v).fld f = v % 2 ^ f.len := by
  unfold State.fld
  rw [State.reg_setFld_same, fldGet_fldPut_same _ _ h]

theorem State.fld_setFld_other (s : State) {f g : Fld} (v : Nat) (h : f.lo + f.len ≤ 32)
    (hd : f.reg ≠ g.reg ∨ f.lo + f.len ≤ g.lo ∨ g.lo + g.len ≤ f.lo) : (s.setFld f v).fld g = s.fld g := by
  unfold State.fld
  by_cases hr : f.reg = g.reg
  · rw [← hr, State.reg_setFld_same, fldGet_fldPut_other _ _ h (hd.resolve_left fun k => k hr)]
  · rw [s.reg_setFld_other v hr]

theorem State.bit_setBit_same (s : State) (f : Fld) (b : Bool) (h : f.lo + f.len ≤ 32) (h1 : f.len = 1) :
    (s.setBit f b).bit f = b := by
  unfold State.bit State.setBit
  rw [s.fld_setFld_same f _ h, h1]
  cases b <;> rfl

theorem State.bit_setBit_other (s : State) {f g : Fld} (b : Bool) (h : f.lo + f.len ≤ 32)
    (hd : f.reg ≠ g.reg ∨ f.lo + f.len ≤ g.lo ∨ g.lo + g.len ≤ f.lo) : (s.setBit f b).bit g = s.bit g := by
  unfold State.bit State.setBit
  rw [s.fld_setFld_other _ h hd]

theorem State.win_setWin (s : State) (b c : Blk) (a x : Nat) (v : W24) :
    (s.setWin b a v).win c x = if winKey b a = winKey c x then v else s.win c x := by
  split
  · next h =>
    have hi := winKey_inj h
    unfold State.win State.setWin
    rw [← h, ← hi.1, ← hi.2]
    exact assocGet_put_same ..
  · next h => exact s.win_setWin_other v h

end Sys2Proof.Machine
end

