-- ==== Sys2Proof/WellFormed.lean ====
section
/-!
DEFINITION. Which commands are well formed: operands that the rules allow the event to have.  exec does not ask for
it; a command that is not well formed has the meaning that its operations give it.
-/
namespace Sys2Proof

/-- OP of a slow-control request (Table 13-2). -/
def ScFrame.op (f : ScFrame) : Nat := f.req.toNat / 2 ^ 156

/-- An envelope has at least one beat and a payload that fits its LEN (R267). -/
def Env.wf (e : Env) : Bool := decide (1 ≤ e.len.toNat) && decide (e.payload < 2 ^ (80 * e.len.toNat - 64))

/-- Blocks with a window (R371). -/
def Blk.hasWindow : Blk → Bool
  | .glb | .bar | .lnk | .cou | .bru | .pal | .col | .nul | .var | .evt | .cal => true
  | .tim | .mgt | .cfg | .pwr | .fgl | .str | .hka | .hkb | .hks | .fba => false

/-- Table words of NUL that check bits guard (Table 06-14). -/
def nulTable (a : Nat) : Bool :=
  decide (a < 0x2000) || (decide (0x3000 ≤ a) && decide (a < 0x3440)) ||
    (decide (0x10000 ≤ a) && decide (a < 0x18800))

/-- Table words of VAR that check bits guard (Table 07-12). -/
def varTable (a : Nat) : Bool := decide (a < 0x8020) || (decide (0x8100 ≤ a) && decide (a < 0x8140))

/-- Words of the pigeonholes: summaries and readings (Table 08-11). -/
def pigeonTable (a : Nat) : Bool := (decide (0x100000 ≤ a) && decide (a < 0x130000)) || decide (0x400000 ≤ a)

/-- A tick period within the range of R36, in ps. -/
def periodWf (p : BitVec 16) : Bool := decide (19231 ≤ p.toNat) && decide (p.toNat ≤ 20833)

/-- A finding of a host test (Table 15-10). -/
def Finding.ofHost (f : Finding) : Bool := decide (1 ≤ f.test.toNat) && decide (f.test.toNat ≤ 6)

/-- A finding of a field test (Table 15-10). -/
def Finding.ofField (f : Finding) : Bool := decide (0x10 ≤ f.test.toNat) && decide (f.test.toNat ≤ 0x1A)

/-- A microword as a context may execute it: a service routine neither commits nor makes excursions, and
neither does one word do both (R248, Table 11-11 items 2 and 6). -/
def Micro.wf (m : Micro) (svc : Bool) : Bool := !(svc && (m.commit || m.stencil))

/-- A management command code that Table 14-1 does not define. -/
def badMgtCode (c : BitVec 8) : Bool := !([0x10, 0x11, 0x12, 0x13, 0x20, 0x21, 0x22, 0x23].contains c.toNat)

/-- A command is well formed. -/
def Instr.wf : Instr → Bool
  | .powerUp => true
  | .resetN => true
  | .fieldSidePower _ => true
  | .downlinkTransitionsSeen => true
  | .tickClockRelease p => periodWf p
  | .lossOfLock => true
  | .clockRestart p => periodWf p
  | .slowctlRead f => f.op != 2 && f.op != 3
  | .slowctlWrite f => f.op == 2
  | .slowctlLaunchedWrite f => f.op == 3
  | .winDataAccess _ b _ => b.hasWindow
  | .rdn _ n => decide (1 ≤ n)
  | .wrn _ vs => !vs.isEmpty
  | .mgtBadCommand c => badMgtCode c
  | .nulLoopGainWrite p _ _ => decide (p.toNat < 34)
  | .nullingRangeChange p _ _ => decide (p.toNat < 34)
  | .nulMemoryError a => nulTable a.toNat
  | .varMemoryError a => varTable a.toNat
  | .pigeonholeMemoryError a => pigeonTable a.toNat
  | .mwNop _ svc m | .mwMov _ svc m | .mwAdd _ svc m | .mwSub _ svc m | .mwAnd _ svc m | .mwOr _ svc m => m.wf svc
  | .mwXor _ svc m | .mwShl _ svc m | .mwShr _ svc m | .mwAsr _ svc m | .mwMull _ svc m | .mwMulh _ svc m => m.wf svc
  | .mwCmp _ svc m | .mwTest _ svc m | .mwLd _ svc m | .mwSt _ svc m | .mwRdreg _ svc m | .mwWrreg _ svc m => m.wf svc
  | .mwSettimer _ svc m | .mwReq _ svc m | .mwCall _ svc m | .mwRet _ svc m | .mwEnd _ svc m => m.wf svc
  | .excursion _ svc _ => !svc
  | .readingsEnvelope x | .eventEnvelope x | .hkResultEnvelope x | .statusEnvelope x | .statusLaneFail x
  | .statusFltAcked x | .faultNotice x | .replyEnvelope x | .bistReport x | .heartbeat x | .writeEnvelope x
  | .readEnvelope x | .commandEnvelope x | .commandLaneSwap x | .commandEpoch x | .commandShed x
  | .timeEnvelope x | .gapEnvelope x | .triggerEnvelope x => x.env.wf
  | .peerCover _ _ _ rest => rest.length == 63
  | .hostSelfTest fs => fs.all Finding.ofHost
  | .fieldSelfTest fs => fs.all Finding.ofField
  | .glbCommandBadKey v => v.toNat / 2 ^ 24 != 0xC5
  | .fltInjectGo _ v _ => v.getLsbD 31
  | _ => true

end Sys2Proof
end

