-- ==== Sys2Proof/Tests/Slice0.lean ====
section
/-!
SUPPORT. Tests: ill-formed commands that WellFormed refuses, one step of some commands on small states with results
taken from the rules, and states that meet the hypotheses of the statements.
-/
set_option Elab.async false

namespace Sys2Proof.Tests
open Sys2Proof Sys2Proof.Machine

/-! ### Ill-formed commands are refused by WellFormed (one for each check) -/

/-- A microword with every field 0. -/
def plainMicro : Micro :=
  { cond := 0, wait := 0, commit := false, stencil := false, launch := false, next := 0, dst := 0, srca := 0, srcb := 0,
    imm := 0 }

/-- An envelope of n beats with payload p. -/
def plainRx (typ : BitVec 4) (n : BitVec 10) (p : Nat) : Rx :=
  { env := { typ := typ, len := n, unit := 0, epoch := 0, pm := 0, frank := 0, payload := p }, laneFault := false }

/-- R36: a tick period is 19231 ps to 20833 ps. -/
theorem test_wf_period_low : (Instr.tickClockRelease 19230).wf = false ∧ (Instr.tickClockRelease 19231).wf = true := by
  decide
theorem test_wf_period_high : (Instr.clockRestart 20834).wf = false ∧ (Instr.clockRestart 20833).wf = true := by decide

/-- Table 13-2: OP 2 is WRITE, OP 3 a launched WRITE, the others read. -/
theorem test_wf_op : (Instr.slowctlRead ⟨false, false, 2 * 2 ^ 156⟩).wf = false ∧
    (Instr.slowctlWrite ⟨false, false, 3 * 2 ^ 156⟩).wf = false ∧
    (Instr.slowctlLaunchedWrite ⟨false, false, 2 * 2 ^ 156⟩).wf = false ∧
    (Instr.slowctlLaunchedWrite ⟨false, false, 3 * 2 ^ 156⟩).wf = true := by decide +kernel

/-- R371: TIM has no window. -/
theorem test_wf_window : (Instr.winDataAccess .slow .tim none).wf = false ∧
    (Instr.winDataAccess .slow .evt none).wf = true := by decide

/-- R311: a repeat has at least one pair. -/
theorem test_wf_repeat : (Instr.rdn 0 0).wf = false ∧ (Instr.wrn 0 []).wf = false ∧ (Instr.rdn 0 1).wf = true := by
  decide

/-- Table 14-1: 0x10 is RD_LO, 0x14 is undefined. -/
theorem test_wf_code : (Instr.mgtBadCommand 0x10).wf = false ∧ (Instr.mgtBadCommand 0x14).wf = true := by decide

/-- There are 34 pin units (R103). -/
theorem test_wf_pin : (Instr.nulLoopGainWrite 34 0 ⟨.slow, false⟩).wf = false ∧
    (Instr.nullingRangeChange 34 0 ⟨.slow, false⟩).wf = false ∧
    (Instr.nullingRangeChange 33 0 ⟨.slow, false⟩).wf = true := by decide

/-- Table words that check bits guard (Tables 06-14, 07-12 and 08-11). -/
theorem test_wf_table_words : (Instr.nulMemoryError 0x2000).wf = false ∧ (Instr.nulMemoryError 0x1FFF).wf = true ∧
    (Instr.varMemoryError 0x8140).wf = false ∧ (Instr.varMemoryError 0x813F).wf = true ∧
    (Instr.pigeonholeMemoryError 0x130000).wf = false ∧ (Instr.pigeonholeMemoryError 0x100000).wf = true := by decide

/-- R248: a service routine does not commit and makes no excursion. -/
theorem test_wf_service : (Instr.mwNop .courier true { plainMicro with commit := true }).wf = false ∧
    (Instr.mwEnd .brush true { plainMicro with stencil := true }).wf = false ∧
    (Instr.excursion .brush true plainMicro).wf = false ∧
    (Instr.mwNop .courier false { plainMicro with commit := true }).wf = true := by decide

/-- R267: an envelope has a beat at least, and its payload fits its length. -/
theorem test_wf_envelope : (Instr.heartbeat (plainRx 9 0 0)).wf = false ∧
    (Instr.heartbeat (plainRx 9 1 0x10000)).wf = false ∧ (Instr.heartbeat (plainRx 9 1 0xFFFF)).wf = true := by
  decide +kernel

/-- A lane-sheet has 64 parcels, the cover among them (R297). -/
theorem test_wf_cover : (Instr.peerCover 0 true default []).wf = false := by decide

/-- Table 15-10: host tests are 1 to 6, field tests 0x10 to 0x1A. -/
theorem test_wf_findings : (Instr.hostSelfTest [⟨7, 0, 0⟩]).wf = false ∧ (Instr.fieldSelfTest [⟨0x0F, 0, 0⟩]).wf = false ∧
    (Instr.hostSelfTest [⟨1, 0, 0⟩, ⟨6, 0, 0⟩]).wf = true ∧ (Instr.fieldSelfTest [⟨0x10, 0, 0⟩, ⟨0x1A, 0, 0⟩]).wf = true := by
  decide

/-- R333: KEY 0xC5 is no wrong key. -/
theorem test_wf_key : (Instr.glbCommandBadKey 0xC5000001).wf = false ∧ (Instr.glbCommandBadKey 0x00000001).wf = true := by
  decide

/-- R354: GO is bit 31 of FLT_INJECT. -/
theorem test_wf_go : (Instr.fltInjectGo .bar 0 ⟨.slow, false⟩).wf = false ∧
    (Instr.fltInjectGo .bar 0x80000000 ⟨.slow, false⟩).wf = true := by decide

end Sys2Proof.Tests
end

/-!
Every step keeps the canonical form: each command's footprint, taken together over the dispatch.
-/
namespace Sys2Proof.Machine

theorem anything_testBit {k : Nat} (h : k < 0x205F) : anything.testBit k = true := by
  unfold anything
  rw [Nat.testBit_two_pow_sub_one, decide_eq_true h]

theorem blkNum_lt (b : Blk) : blkNum b < 32 := by cases b <;> decide

/-- Every footprint lies within `anything`: of a command it says the queue and the canonical form. -/
theorem Keeps.weaken {M : Nat} {s t : State} (h : Keeps M s t) : Keeps anything s t := by
  have vacuous {k : Nat} {p : Prop} (hk : k < 0x205F) (hf : anything.testBit k = false) : p :=
    absurd hf (by simp [anything_testBit hk])
  constructor
  case wf => exact h.wf
  case pending => exact h.pending
  case reg => exact fun i => vacuous (by unfold regPart; omega)
  case win => exact fun b _ => vacuous (by have := blkNum_lt b; omega)
  all_goals exact vacuous (by decide)

/-- What every command does: it leaves the queue alone and keeps the canonical form. -/
theorem exec_keeps {s t : State} : (c : Instr) → exec c s = .next t → Keeps anything s t
  | .powerUp, h => (execPowerUp_keeps s h).weaken
  | .resetN, h => (execResetN_keeps s h).weaken
  | .fieldSidePower _, h => (execFieldSidePower_keeps _ s h).weaken
  | .downlinkTransitionsSeen, h => (execDownlinkTransitionsSeen_keeps s h).weaken
  | .tickClockRelease _, h => (execTickClockRelease_keeps _ s h).weaken
  | .lossOfLock, h => (execLossOfLock_keeps s h).weaken
  | .clockRestart _, h => (execClockRestart_keeps _ s h).weaken
  | .downlinkBlock _ _, h => (execDownlinkBlock_keeps _ _ s h).weaken
  | .idle, h => (execIdle_keeps s h).weaken
  | .postmarkSet _ _ _, h => (execPostmarkSet_keeps _ _ _ s h).weaken
  | .postmarkRename, h => (execPostmarkRename_keeps s h).weaken
  | .sheetMark, h => (execSheetMark_keeps s h).weaken
  | .gapOpen, h => (execGapOpen_keeps s h).weaken
  | .gapClose, h => (execGapClose_keeps s h).weaken
  | .quietWindowOpen, h => (execQuietWindowOpen_keeps s h).weaken
  | .quietWindowClose, h => (execQuietWindowClose_keeps s h).weaken
  | .gapLimitClose, h => (execGapLimitClose_keeps s h).weaken
  | .trig, h => (execTrig_keeps s h).weaken
  | .calFire, h => (execCalFire_keeps s h).weaken
  | .run, h => (execRun_keeps s h).weaken
  | .halt, h => (execHalt_keeps s h).weaken
  | .epochAdvance, h => (execEpochAdvance_keeps s h).weaken
  | .drape, h => (execDrape_keeps s h).weaken
  | .undrape, h => (execUndrape_keeps s h).weaken
  | .drapeNChange _, h => (execDrapeNChange_keeps _ s h).weaken
  | .fieldDrapeNChange _, h => (execFieldDrapeNChange_keeps _ s h).weaken
  | .drapeLaneInvalid, h => (execDrapeLaneInvalid_keeps s h).weaken
  | .slowctlRead _, h => (execSlowctlRead_keeps _ s h).weaken
  | .slowctlWrite _, h => (execSlowctlWrite_keeps _ s h).weaken
  | .slowctlLaunchedWrite _, h => (execSlowctlLaunchedWrite_keeps _ s h).weaken
  | .slowctlReplyTimeout _, h => (execSlowctlReplyTimeout_keeps _ s h).weaken
  | .launchEntryApply _, h => (execLaunchEntryApply_keeps _ s h).weaken
  | .heldWriteApply _, h => (execHeldWriteApply_keeps _ s h).weaken
  | .registerWrite _ _ _, h => (execRegisterWrite_keeps _ _ _ s h).weaken
  | .winDataAccess _ _ _, h => (execWinDataAccess_keeps _ _ _ s h).weaken
  | .timLaunchArm _, h => (execTimLaunchArm_keeps _ s h).weaken
  | .timLaunchFlush, h => (execTimLaunchFlush_keeps s h).weaken
  | .rdLo _, h => (execRdLo_keeps _ s h).weaken
  | .rdHi _, h => (execRdHi_keeps _ s h).weaken
  | .rd _, h => (execRd_keeps _ s h).weaken
  | .rdn _ _, h => (execRdn_keeps _ _ s h).weaken
  | .wrLo _ _, h => (execWrLo_keeps _ _ s h).weaken
  | .wrHi _ _, h => (execWrHi_keeps _ _ s h).weaken
  | .wr _ _, h => (execWr_keeps _ _ s h).weaken
  | .wrn _ _, h => (execWrn_keeps _ _ s h).weaken
  | .mgtBadCommand _, h => (execMgtBadCommand_keeps _ s h).weaken
  | .mgtFrameAbort, h => (execMgtFrameAbort_keeps s h).weaken
  | .mgtWriteBufferDrain, h => (execMgtWriteBufferDrain_keeps s h).weaken
  | .mgtReplyTimeout, h => (execMgtReplyTimeout_keeps s h).weaken
  | .mgtClockAbsent, h => (execMgtClockAbsent_keeps s h).weaken
  | .palBankLaunch _ _, h => (execPalBankLaunch_keeps _ _ s h).weaken
  | .palCopy, h => (execPalCopy_keeps s h).weaken
  | .palCopyDone, h => (execPalCopyDone_keeps s h).weaken
  | .swapCancel, h => (execSwapCancel_keeps s h).weaken
  | .slewStroke, h => (execSlewStroke_keeps s h).weaken
  | .rowOverload _, h => (execRowOverload_keeps _ s h).weaken
  | .ovlLatchClear _ _, h => (execOvlLatchClear_keeps _ _ s h).weaken
  | .rowSparePrep _ _, h => (execRowSparePrep_keeps _ _ s h).weaken
  | .rowMapWrite _ _ _, h => (execRowMapWrite_keeps _ _ _ s h).weaken
  | .colMapWrite _ _ _, h => (execColMapWrite_keeps _ _ _ s h).weaken
  | .colSpareSwap _ _, h => (execColSpareSwap_keeps _ _ s h).weaken
  | .colSpareRestore _ _, h => (execColSpareRestore_keeps _ _ s h).weaken
  | .colSettingsWrite _ _ _, h => (execColSettingsWrite_keeps _ _ _ s h).weaken
  | .trimSetWrite _ _ _ _ _, h => (execTrimSetWrite_keeps _ _ _ _ _ s h).weaken
  | .roverDwellStart _, h => (execRoverDwellStart_keeps _ s h).weaken
  | .roverDwellEnd _, h => (execRoverDwellEnd_keeps _ s h).weaken
  | .loopStrokeUpdate _ _ _, h => (execLoopStrokeUpdate_keeps _ _ _ s h).weaken
  | .persistentSat _ r, h => (execPersistentSat_keeps _ r s h).weaken
  | .persistentOverrange _, h => (execPersistentOverrange_keeps _ s h).weaken
  | .loopStart, h => (execLoopStart_keeps s h).weaken
  | .nulReprime _, h => (execNulReprime_keeps _ s h).weaken
  | .nulCapture _, h => (execNulCapture_keeps _ s h).weaken
  | .captureDone, h => (execCaptureDone_keeps s h).weaken
  | .nulLoopGainWrite _ _ _, h => (execNulLoopGainWrite_keeps _ _ _ s h).weaken
  | .nullingRangeChange _ _ _, h => (execNullingRangeChange_keeps _ _ _ s h).weaken
  | .nulMemoryError _, h => (execNulMemoryError_keeps _ s h).weaken
  | .columnReadingsComplete _, h => (execColumnReadingsComplete_keeps _ s h).weaken
  | .eventRecordComplete _, h => (execEventRecordComplete_keeps _ s h).weaken
  | .varClampCountRead _, h => (execVarClampCountRead_keeps _ s h).weaken
  | .varCopy _, h => (execVarCopy_keeps _ s h).weaken
  | .varCopyDone, h => (execVarCopyDone_keeps s h).weaken
  | .varSwap _, h => (execVarSwap_keeps _ s h).weaken
  | .varMemoryError _, h => (execVarMemoryError_keeps _ s h).weaken
  | .handoverCopy _ _ _ _, h => (execHandoverCopy_keeps _ _ _ _ s h).weaken
  | .cadenceLatch, h => (execCadenceLatch_keeps s h).weaken
  | .sheetDeadline, h => (execSheetDeadline_keeps s h).weaken
  | .coverParcel, h => (execCoverParcel_keeps s h).weaken
  | .slotFill _, h => (execSlotFill_keeps _ s h).weaken
  | .fragmentHeader, h => (execFragmentHeader_keeps s h).weaken
  | .strDecimationChange _ _ _, h => (execStrDecimationChange_keeps _ _ _ s h).weaken
  | .pigeonholeMemoryError _, h => (execPigeonholeMemoryError_keeps _ s h).weaken
  | .hkPassStart _, h => (execHkPassStart_keeps _ s h).weaken
  | .hkConversionDone _ _ _, h => (execHkConversionDone_keeps _ _ _ s h).weaken
  | .hkDataRead _, h => (execHkDataRead_keeps _ s h).weaken
  | .hkRunChange _ _ _, h => (execHkRunChange_keeps _ _ _ s h).weaken
  | .hkRestart _ _, h => (execHkRestart_keeps _ _ s h).weaken
  | .hkUrgent _ _ _, h => (execHkUrgent_keeps _ _ _ s h).weaken
  | .hkCalStart _ _ _ _, h => (execHkCalStart_keeps _ _ _ _ s h).weaken
  | .hkCalCancel _, h => (execHkCalCancel_keeps _ s h).weaken
  | .hkCalGainDone _, h => (execHkCalGainDone_keeps _ s h).weaken
  | .refbufReady, h => (execRefbufReady_keeps s h).weaken
  | .hkExcOverload, h => (execHkExcOverload_keeps s h).weaken
  | .hkExcOverloadClear, h => (execHkExcOverloadClear_keeps s h).weaken
  | .hkRedundantSel _ _, h => (execHkRedundantSel_keeps _ _ s h).weaken
  | .traceCheck, h => (execTraceCheck_keeps s h).weaken
  | .columnStep _, h => (execColumnStep_keeps _ s h).weaken
  | .calStepDone, h => (execCalStepDone_keeps s h).weaken
  | .calStepCut, h => (execCalStepCut_keeps s h).weaken
  | .roverCheck, h => (execRoverCheck_keeps s h).weaken
  | .calResultsApply, h => (execCalResultsApply_keeps s h).weaken
  | .slotStore, h => (execSlotStore_keeps s h).weaken
  | .slotDiscard, h => (execSlotDiscard_keeps s h).weaken
  | .flashErase4k _, h => (execFlashErase4k_keeps _ s h).weaken
  | .flashErase64k _, h => (execFlashErase64k_keeps _ s h).weaken
  | .flashReadJedec, h => (execFlashReadJedec_keeps s h).weaken
  | .flashDone _ _, h => (execFlashDone_keeps _ _ s h).weaken
  | .routineRequest _ _ _, h => (execRoutineRequest_keeps _ _ _ s h).weaken
  | .routineDispatch _, h => (execRoutineDispatch_keeps _ s h).weaken
  | .routineAbandon _ _, h => (execRoutineAbandon_keeps _ _ s h).weaken
  | .engineWaitEnd _, h => (execEngineWaitEnd_keeps _ s h).weaken
  | .engineWaitTimeout _, h => (execEngineWaitTimeout_keeps _ s h).weaken
  | .mwNop _ _ _, h => (execMwNop_keeps _ _ _ s h).weaken
  | .mwMov _ _ _, h => (execMwMov_keeps _ _ _ s h).weaken
  | .mwAdd _ _ _, h => (execMwAdd_keeps _ _ _ s h).weaken
  | .mwSub _ _ _, h => (execMwSub_keeps _ _ _ s h).weaken
  | .mwAnd _ _ _, h => (execMwAnd_keeps _ _ _ s h).weaken
  | .mwOr _ _ _, h => (execMwOr_keeps _ _ _ s h).weaken
  | .mwXor _ _ _, h => (execMwXor_keeps _ _ _ s h).weaken
  | .mwShl _ _ _, h => (execMwShl_keeps _ _ _ s h).weaken
  | .mwShr _ _ _, h => (execMwShr_keeps _ _ _ s h).weaken
  | .mwAsr _ _ _, h => (execMwAsr_keeps _ _ _ s h).weaken
  | .mwMull _ _ _, h => (execMwMull_keeps _ _ _ s h).weaken
  | .mwMulh _ _ _, h => (execMwMulh_keeps _ _ _ s h).weaken
  | .mwCmp _ _ _, h => (execMwCmp_keeps _ _ _ s h).weaken
  | .mwTest _ _ _, h => (execMwTest_keeps _ _ _ s h).weaken
  | .mwLd _ _ _, h => (execMwLd_keeps _ _ _ s h).weaken
  | .mwSt _ _ _, h => (execMwSt_keeps _ _ _ s h).weaken
  | .mwRdreg _ _ _, h => (execMwRdreg_keeps _ _ _ s h).weaken
  | .mwWrreg _ _ _, h => (execMwWrreg_keeps _ _ _ s h).weaken
  | .excursion _ _ _, h => (execExcursion_keeps _ _ _ s h).weaken
  | .commit _, h => (execCommit_keeps _ s h).weaken
  | .mwSettimer _ _ _, h => (execMwSettimer_keeps _ _ _ s h).weaken
  | .mwReq _ _ _, h => (execMwReq_keeps _ _ _ s h).weaken
  | .mwCall _ _ _, h => (execMwCall_keeps _ _ _ s h).weaken
  | .mwRet _ _ _, h => (execMwRet_keeps _ _ _ s h).weaken
  | .mwEnd _ _ _, h => (execMwEnd_keeps _ _ _ s h).weaken
  | .engineHalt _, h => (execEngineHalt_keeps _ s h).weaken
  | .engineRun _, h => (execEngineRun_keeps _ s h).weaken
  | .engineStep _, h => (execEngineStep_keeps _ s h).weaken
  | .engineResume _, h => (execEngineResume_keeps _ s h).weaken
  | .breakpointHit _, h => (execBreakpointHit_keeps _ s h).weaken
  | .barrierTraining, h => (execBarrierTraining_keeps s h).weaken
  | .trainingEnd _ _, h => (execTrainingEnd_keeps _ _ s h).weaken
  | .barRetrain, h => (execBarRetrain_keeps s h).weaken
  | .readingsEnvelope _, h => (execReadingsEnvelope_keeps _ s h).weaken
  | .eventEnvelope _, h => (execEventEnvelope_keeps _ s h).weaken
  | .hkResultEnvelope _, h => (execHkResultEnvelope_keeps _ s h).weaken
  | .statusEnvelope _, h => (execStatusEnvelope_keeps _ s h).weaken
  | .statusLaneFail _, h => (execStatusLaneFail_keeps _ s h).weaken
  | .statusFltAcked _, h => (execStatusFltAcked_keeps _ s h).weaken
  | .faultNotice _, h => (execFaultNotice_keeps _ s h).weaken
  | .replyEnvelope _, h => (execReplyEnvelope_keeps _ s h).weaken
  | .bistReport _, h => (execBistReport_keeps _ s h).weaken
  | .heartbeat _, h => (execHeartbeat_keeps _ s h).weaken
  | .writeEnvelope _, h => (execWriteEnvelope_keeps _ s h).weaken
  | .readEnvelope _, h => (execReadEnvelope_keeps _ s h).weaken
  | .commandEnvelope _, h => (execCommandEnvelope_keeps _ s h).weaken
  | .commandLaneSwap _, h => (execCommandLaneSwap_keeps _ s h).weaken
  | .commandEpoch _, h => (execCommandEpoch_keeps _ s h).weaken
  | .commandShed _, h => (execCommandShed_keeps _ s h).weaken
  | .timeEnvelope _, h => (execTimeEnvelope_keeps _ s h).weaken
  | .gapEnvelope _, h => (execGapEnvelope_keeps _ s h).weaken
  | .triggerEnvelope _, h => (execTriggerEnvelope_keeps _ s h).weaken
  | .barrierLaneFail _ _ _, h => (execBarrierLaneFail_keeps _ _ _ s h).weaken
  | .laneSwapApply, h => (execLaneSwapApply_keeps s h).weaken
  | .heartbeatMissed, h => (execHeartbeatMissed_keeps s h).weaken
  | .retiredTableWrite _ _ _, h => (execRetiredTableWrite_keeps _ _ _ s h).weaken
  | .lnkSchedLaunch _ _, h => (execLnkSchedLaunch_keeps _ _ s h).weaken
  | .portLaneFail _ _, h => (execPortLaneFail_keeps _ _ s h).weaken
  | .forceFail _, h => (execForceFail_keeps _ s h).weaken
  | .portRetire _, h => (execPortRetire_keeps _ s h).weaken
  | .readmit _ _, h => (execReadmit_keeps _ _ s h).weaken
  | .lnkEpochSet _ _, h => (execLnkEpochSet_keeps _ _ s h).weaken
  | .peerCover _ _ _ _, h => (execPeerCover_keeps _ _ _ _ s h).weaken
  | .eyeUpdate _ _ _, h => (execEyeUpdate_keeps _ _ _ s h).weaken
  | .checkPass, h => (execCheckPass_keeps s h).weaken
  | .hostSelfTest _, h => (execHostSelfTest_keeps _ s h).weaken
  | .fieldSelfTest _, h => (execFieldSelfTest_keeps _ s h).weaken
  | .fieldLoad _, h => (execFieldLoad_keeps _ s h).weaken
  | .fieldLoadEnd, h => (execFieldLoadEnd_keeps s h).weaken
  | .primerCheck, h => (execPrimerCheck_keeps s h).weaken
  | .readyEntry, h => (execReadyEntry_keeps s h).weaken
  | .autoRun, h => (execAutoRun_keeps s h).weaken
  | .glbRetest, h => (execGlbRetest_keeps s h).weaken
  | .glbStartDegraded, h => (execGlbStartDegraded_keeps s h).weaken
  | .glbEnterSafe, h => (execGlbEnterSafe_keeps s h).weaken
  | .glbCommandBadKey _, h => (execGlbCommandBadKey_keeps _ s h).weaken
  | .fltAckSources _ _, h => (execFltAckSources_keeps _ _ s h).weaken
  | .fltAckFirst _, h => (execFltAckFirst_keeps _ s h).weaken
  | .quietRecovery _ _, h => (execQuietRecovery_keeps _ _ s h).weaken
  | .fltPolicyWrite _ _, h => (execFltPolicyWrite_keeps _ _ s h).weaken
  | .fltInjectGo _ _ _, h => (execFltInjectGo_keeps _ _ _ s h).weaken
  | .fltInjectStop _ _, h => (execFltInjectStop_keeps _ _ s h).weaken
  | .scrubWord _ _ _, h => (execScrubWord_keeps _ _ _ s h).weaken
  | .aliveToggle, h => (execAliveToggle_keeps s h).weaken
  | .powerDecision, h => (execPowerDecision_keeps s h).weaken
  | .powerTransitionLaunch _, h => (execPowerTransitionLaunch_keeps _ s h).weaken
  | .powerEntry, h => (execPowerEntry_keeps s h).weaken
  | .powerWake, h => (execPowerWake_keeps s h).weaken
  | .powerTransitionComplete, h => (execPowerTransitionComplete_keeps s h).weaken
  | .supplyExcursion _ _ _, h => (execSupplyExcursion_keeps _ _ _ s h).weaken
  | .dieTemperatureUpdate _, h => (execDieTemperatureUpdate_keeps _ s h).weaken
  | .courierStall, h => (execCourierStall_keeps s h).weaken
  | .peerSheetLock _, h => (execPeerSheetLock_keeps _ s h).weaken
  | .laneSwapDeadline, h => (execLaneSwapDeadline_keeps s h).weaken

theorem exec_wf {c : Instr} {s t : State} (h : exec c s = .next t) (hs : s.wf) : t.wf :=
  (exec_keeps c h).wf hs

/-- Settles O5: with a command in front a step is that command on the rest of the queue, and the queue is no part of
the canonical form; with none it is one tick. -/
theorem everyStepKeepsCanonicalForm : Obligations.EveryStepKeepsCanonicalForm := by
  intro s t hs h
  unfold step at h
  split at h
  next c rest _ => exact exec_wf h hs
  next => cases h; exact s.tickStep_keeps.wf hs

end Sys2Proof.Machine

/-!
A write of a plain register (R13, R48): which registers a write only stores in, what that store does to each bit, and
that nothing of it waits for a boundary.
-/
namespace Sys2Proof.Machine

/-! ### What a store does to a register's bits -/

theorem sub_and_eq_and_not (r x : Word) : r - (r &&& x) = r &&& ~~~x := by
  have hsplit : (r &&& x) + (r &&& ~~~x) = r := by
    rw [BitVec.add_eq_or_of_and_eq_zero _ _ (by ext j; grind)]
    ext j
    grind
  calc r - (r &&& x) = (r &&& x) + (r &&& ~~~x) - (r &&& x) := by rw [hsplit]
    _ = r &&& ~~~x := by rw [BitVec.add_comm, BitVec.add_sub_cancel]

/-- The bits of a mask cleared in a word, as the model computes it on numbers. -/
theorem ofNat_sub_and (r : Word) (k : Nat) :
    BitVec.ofNat 32 (r.toNat - (r.toNat &&& k)) = r &&& ~~~BitVec.ofNat 32 k := by
  rw [← BitVec.ofNat_sub_ofNat_of_le _ _ (Nat.lt_of_le_of_lt Nat.and_le_left r.isLt) Nat.and_le_left,
    BitVec.ofNat_and, BitVec.ofNat_toNat, BitVec.setWidth_eq, sub_and_eq_and_not]

/-- A store of W1C bits clears those that are 1 in the value (R13). -/
theorem State.storeW1c_eq (s : State) (i : Nat) (v : Word) :
    s.storeW1c i v = s.setReg i (s.reg i &&& ~~~(v &&& BitVec.ofNat 32 (maskOf i (fun r => r.w1c)))) := by
  unfold State.storeW1c
  simp only [ofNat_sub_and, BitVec.ofNat_and, BitVec.ofNat_toNat, BitVec.setWidth_eq]

/-- A store of RW bits takes them from the value and leaves the others (R13). -/
theorem State.storeRw_eq (s : State) (i : Nat) (v : Word) :
    s.storeRw i v = s.setReg i ((s.reg i &&& ~~~BitVec.ofNat 32 (maskOf i (fun r => r.rw))) |||
      (v &&& BitVec.ofNat 32 (maskOf i (fun r => r.rw)))) := by
  unfold State.storeRw
  simp only [BitVec.ofNat_add, ofNat_sub_and, BitVec.ofNat_and, BitVec.ofNat_toNat, BitVec.setWidth_eq]
  rw [BitVec.add_eq_or_of_and_eq_zero _ _ (by ext j; grind)]

/-- A plain write that acts whole leaves each bit as R13 has it. -/
theorem State.plainWrite_bit (s : State) (i : Nat) (v : Word) (w : Writer) {j : Nat} (hj : j < 32) :
    ((s.plainWrite i v w ⟨true, true⟩ false).reg i).getLsbD j = s.bitWritten i v j := by
  simp only [State.plainWrite, State.storeRw_eq, State.storeW1c_eq, State.bitWritten, if_true, Bool.false_eq_true,
    if_false, State.reg_setReg, BitVec.getLsbD_or, BitVec.getLsbD_and, BitVec.getLsbD_not, BitVec.getLsbD_ofNat,
    decide_eq_true hj, Bool.true_and]
  cases (maskOf i (fun r => r.rw)).testBit j <;> simp [Bool.or_comm]

theorem foot_reg (i : Nat) : foot [.reg i] = 2 ^ regPart i := Nat.zero_or _

theorem State.setReg_keeps_reg (s : State) (i : Nat) (v : Word) : Keeps (foot [.reg i]) s (s.setReg i v) := by
  rw [foot_reg]
  exact s.setReg_keeps i v

/-- A plain write of a register that is no run-time parameter changes that register alone, whatever part of it acts. -/
theorem State.plainWrite_keeps_reg (s : State) (i : Nat) (v : Word) (w : Writer) (k : WPart) :
    Keeps (foot [.reg i]) s (s.plainWrite i v w k false) := by
  have hw1c (t : State) : Keeps (foot [.reg i]) t (t.storeW1c i v) := t.setReg_keeps_reg ..
  have hrw (t : State) : Keeps (foot [.reg i]) t (t.storeRw i (storedValue i v)) := t.setReg_keeps_reg ..
  obtain ⟨now, later⟩ := k
  cases now <;> cases later
  · exact Keeps.refl ..
  · exact hrw s
  · exact hw1c s
  · exact (hw1c s).trans (hrw _)

/-! ### Registers whose write only stores -/

/-- The rule of a block leaves the write of an index to its fields (Tables 18-2 to 18-16): of its indices below the
window and the fault group, those that it does not name. -/
def storesOnly (i : Nat) : Blk → Bool
  | .glb => i != GLB_COMMAND
  | .tim => i != TIM_LAUNCH_ACTION
  | .bar => i != BAR_TRAIN
  | .lnk => i != LNK_CTRL && !(decide (0x304 ≤ i) && decide (i < 0x308)) && i != LNK_EPOCH && i != LNK_SCHED_LAUNCH_HI
  | .cfg => i != CFG_FLASH_CTRL && i != CFG_STORE_CMD
  | .cou | .bru => i % 0x100 != 0 && i % 0x100 != 4 && i % 0x100 != 0x0A
  | .mgt | .fgl | .fba => true
  | _ => false

/-- An index lies at its offset in the span of its block. -/
theorem blkBase_add_mod {i : Nat} {b : Blk} (h : blkOf i = some b) : blkBase b + i % 0x100 = i := by
  have hdiv : i / 0x100 = blkNum b := by
    unfold blkOf at h
    split at h <;> cases h <;> assumption
  unfold blkBase
  omega

/-- An engine's registers beside _CTRL, _ROUTINE_REQ and _BREAK take plain writes. -/
theorem State.engWrite_plain (s : State) (e : Eng) {off : Nat} (h : (off != 0 && off != 4 && off != 0x0A) = true)
    (v : Word) (w : Writer) (k : WPart) : s.engWrite e off v w k = s.plainWrite (engBase e + off) v w k false := by
  obtain ⟨⟨hctrl, hreq⟩, hbreak⟩ : (off ≠ 0 ∧ off ≠ 4) ∧ off ≠ 0x0A := by simpa using h
  simp only [State.engWrite, hctrl, hreq, hbreak, if_false]

/-- A write of such an index is a plain write, whatever part of it acts. -/
theorem State.applyPart_storesOnly (s : State) {i : Nat} {b : Blk} (hb : blkOf i = some b) (hoff : i % 0x100 < 0xE0)
    (h : storesOnly i b = true) (v : Word) (w : Writer) (wa : Nat) (k : WPart) :
    s.applyPart i v w wa k = s.plainWrite i v w k false := by
  have hbase := blkBase_add_mod hb
  have h1 : ¬ 0xF0 ≤ i % 0x100 := by omega
  have h2 : ¬ 0xE0 ≤ i % 0x100 := by omega
  unfold State.applyPart
  simp only [hb, h1, h2, if_false]
  cases b
  case glb =>
    have hne : i ≠ GLB_COMMAND := by simpa [storesOnly] using h
    exact if_neg hne
  case tim =>
    have hne : i ≠ TIM_LAUNCH_ACTION := by simpa [storesOnly] using h
    exact if_neg hne
  case bar =>
    have hne : i ≠ BAR_TRAIN := by simpa [storesOnly] using h
    exact if_neg fun ht => hne ht.1
  case lnk =>
    obtain ⟨⟨⟨hctrl, hport⟩, hepoch⟩, hlaunch⟩ :
        ((i ≠ LNK_CTRL ∧ (i < 0x304 ∨ 0x308 ≤ i)) ∧ i ≠ LNK_EPOCH) ∧ i ≠ LNK_SCHED_LAUNCH_HI := by
      simpa [storesOnly] using h
    have hnoPort : ¬ (0x304 ≤ i ∧ i < 0x308) := by omega
    simp only [State.lnkWrite, hnoPort, hepoch, hlaunch, if_false, beq_eq_false_iff_ne.2 hctrl]
  case cfg =>
    obtain ⟨hflash, hstore⟩ : i ≠ CFG_FLASH_CTRL ∧ i ≠ CFG_STORE_CMD := by simpa [storesOnly] using h
    simp only [State.cfgWrite, hflash, hstore, if_false, ite_self]
  case cou => exact (s.engWrite_plain .courier h v w k).trans (congrArg (s.plainWrite · v w k false) hbase)
  case bru => exact (s.engWrite_plain .brush h v w k).trans (congrArg (s.plainWrite · v w k false) hbase)
  case mgt => rfl
  case fgl => rfl
  case fba => rfl
  all_goals cases h

/-- Every register of instantRegs is one that its block only stores in. -/
theorem instantRegs_storesOnly {i : Nat} (hi : i ∈ instantRegs) :
    ∃ b, blkOf i = some b ∧ i % 0x100 < 0xE0 ∧ storesOnly i b = true := by
  have h : ∀ i ∈ instantRegs, i % 0x100 < 0xE0 ∧ (blkOf i).any (storesOnly i) = true := by decide +kernel
  obtain ⟨hoff, hany⟩ := h i hi
  obtain ⟨b, hb, hs⟩ := Option.any_eq_true _ _ |>.1 hany
  exact ⟨b, hb, hoff, hs⟩

/-- Table look-up: no register of the list has a boundary of its own, so its write waits for none (R48). -/
theorem State.wrAlign_instantRegs (s : State) {i : Nat} (hi : i ∈ instantRegs) (v : Word) (wa : Nat) :
    s.wrAlign i v wa = 1 := by
  fin_cases hi <;> rfl

theorem State.bumpAddr_of_ne (s : State) (m : Master) {i : Nat} (h : i % 0x100 ≠ 0xE1) : s.bumpAddr m i = s := by
  unfold State.bumpAddr
  cases blkOf i with
  | none => rfl
  | some b => exact if_neg fun hw => h hw.1

theorem State.heldParts_eq_nil {s : State} {i : Nat} {v : Word} {wa : Nat} (h : s.wrAlign i v wa = 1)
    (hne : i ≠ NUL_PRIMER_CTRL) : s.heldParts i v wa = [] := by
  unfold State.heldParts
  simp only [h, hne, if_true, if_false, ite_self]

theorem State.holdParts_eq_self {s : State} {i : Nat} {v : Word} {wa : Nat} (m : Master)
    (h : s.heldParts i v wa = []) : s.holdParts m i v wa = s := by
  unfold State.holdParts
  simp only [h, List.map_nil, List.append_nil]

/-- An unlaunched write of a plain register is a store of its fields and nothing else: no window address moves and
nothing is held (R48). -/
theorem State.writeReg_instantRegs (s : State) {i : Nat} (hi : i ∈ instantRegs) (m : Master) (v : Word) :
    s.writeReg m i v = s.plainWrite i v ⟨m, false⟩ ⟨true, true⟩ false := by
  obtain ⟨b, hb, hoff, hs⟩ := instantRegs_storesOnly hi
  have hnoWin : i % 0x100 ≠ 0xE1 := by omega
  have hne : i ≠ NUL_PRIMER_CTRL := by
    rintro rfl
    exact absurd hi (by decide +kernel)
  unfold State.writeReg
  simp only [s.wrAlign_instantRegs hi, decide_true, Bool.true_or, s.applyPart_storesOnly hb hoff hs,
    State.bumpAddr_of_ne _ m hnoWin]
  exact State.holdParts_eq_self m (State.heldParts_eq_nil (State.wrAlign_instantRegs _ hi ..) hne)

/-! ### The command -/

/-- With the clock and the field supply a write reaches the register on either die (R34, R37). -/
theorem State.onIndex_of_powered {s : State} (hclk : s.tm.clk = true) (hpow : s.pin.fieldPower = true) (i : Nat)
    (f : State → State) : s.onIndex i f = f s := by
  unfold State.onIndex
  split <;> simp [State.onDie, State.onTick, State.onField, hclk, hpow]

theorem instantRegs_toNat {i : Nat} (hi : i ∈ instantRegs) : (BitVec.ofNat 16 i).toNat = i := by
  have h : ∀ i ∈ instantRegs, i < 2 ^ 16 := by decide +kernel
  rw [BitVec.toNat_ofNat, Nat.mod_eq_of_lt (h i hi)]

theorem execRegisterWrite_instantRegs {s : State} (hclk : s.tm.clk = true) (hpow : s.pin.fieldPower = true) {i : Nat}
    (hi : i ∈ instantRegs) (m : Master) (v : Word) :
    exec (.registerWrite m (BitVec.ofNat 16 i) v) s = .next (s.plainWrite i v ⟨m, false⟩ ⟨true, true⟩ false) := by
  show Host.Outcome.next _ = _
  rw [State.onIndex_of_powered hclk hpow, instantRegs_toNat hi, s.writeReg_instantRegs hi]

/-- Settles O17: the write is the plain one, which stores in its own register alone, bit by bit as R13 has it. -/
theorem plainRegisterWritesStoreTheirBits : Obligations.PlainRegisterWritesStoreTheirBits :=
  fun i hi s m v hclk hpow =>
    ⟨_, execRegisterWrite_instantRegs hclk hpow hi m v, s.plainWrite_keeps_reg i v _ _,
      fun _ hj => s.plainWrite_bit i v _ hj⟩

end Sys2Proof.Machine

/-!
The identity register (R2): what a read of it shows, and how RD and RDN send it over the management port.
-/
namespace Sys2Proof.Machine

/-! ### A whole read of the port -/

@[simp] theorem State.mgtSend_out (s : State) (h : Nat) : (s.mgtSend h).mgt.out = s.mgt.out ++ [BitVec.ofNat 16 h] :=
  (rfl)

/-- The high half is the same from the pair hold and from the live value where the hold has that value's half. -/
theorem State.mgtHigh_out {s : State} (i : Nat) {live : Word}
    (hheld : s.fld MGT_PAIR_HOLD_HIGH = live.toNat / 2 ^ 16) :
    (s.mgtHigh i live).mgt.out = s.mgt.out ++ [BitVec.ofNat 16 (live.toNat / 2 ^ 16)] := by
  unfold State.mgtHigh
  split
  · rw [hheld, State.setBit_mgt, State.mgtSend_out]
  · rw [State.setBit_mgt, State.mgtSend_out]

/-- A value that reaches a full read leaves low half first, then its high half, which the low one has just put into
the pair hold (R309). -/
theorem State.mgtPut_full_out (s : State) {r : MgtRead} (v : Word) (hlow : r.high = false) (hfull : r.full = true)
    (hidx : r.idx ≠ MGT_PAIR_HOLD) :
    (s.mgtPut r v).mgt.out =
      s.mgt.out ++ [BitVec.ofNat 16 (v.toNat % 2 ^ 16), BitVec.ofNat 16 (v.toNat / 2 ^ 16)] := by
  have hheld (t : State) : ((t.setFld MGT_PAIR_HOLD_HIGH (v.toNat / 2 ^ 16)).setBit MGT_STATUS_HOLD_VALID true).fld
      MGT_PAIR_HOLD_HIGH = v.toNat / 2 ^ 16 := by
    unfold State.setBit
    rw [State.fld_setFld_other _ _ (by decide) (by decide), State.fld_setFld_same _ _ _ (by decide)]
    exact Nat.mod_eq_of_lt (by have := v.isLt; show _ < 2 ^ 16; omega)
  simp only [State.mgtPut, hlow, hfull, hidx, if_true, if_false, Bool.false_eq_true, State.mgtHigh_out _ (hheld _),
    State.setBit_mgt, State.setFld_mgt, State.mgtSend_out, List.append_assoc, List.cons_append,
    List.nil_append]

/-- A frame after which no broken half-word is to be reported starts with nothing sent. -/
theorem State.mgtFrame_out {s : State} (h : s.mgt.abort = false) : s.mgtFrame.mgt.out = [] := by
  simp [State.mgtFrame, h]

/-- The last of a run of reads, where it can be served. -/
theorem State.mgtRun_zero_of_served {s t : State} {r : MgtRead}
    (h : s.mgtServe { r with tgt := s.mgtTarget r.idx, left := 0, done := s.tm.tick, sent := false } = some t) :
    s.mgtRun 0 r = t := by
  rw [State.mgtRun, h]

/-- A read that can be served hands on to the pairs that follow it. -/
theorem State.mgtRun_succ_of_served {s t : State} {r : MgtRead} {k : Nat}
    (h : s.mgtServe { r with tgt := s.mgtTarget r.idx, left := k + 1, done := s.tm.tick, sent := false } = some t) :
    s.mgtRun (k + 1) r = t.mgtRun k r := by
  rw [State.mgtRun, h]

/-! ### GLB_ID -/

/-- GLB_ID shows the vendor code and the part code whatever its register holds (R2). -/
@[simp] theorem State.shown_glbId (s : State) (m : Master) : s.shown m 0 = 0x4C592048 := (rfl)

@[simp] theorem State.mgtShown_glbId (s : State) : s.mgtShown 0 = 0x4C592048 := by
  simp [State.mgtShown, GLB_STATE]

@[simp] theorem State.mgtTarget_glbId (s : State) : s.mgtTarget 0 = 0 := by
  simp [State.mgtTarget, MGT_BULK_DATA]

/-- GLB_ID is served in the port's own clock domain, so its read never waits (Table 14-3). -/
theorem State.mgtServe_glbId (s : State) {r : MgtRead} (hidx : r.idx = 0) (htgt : r.tgt = 0) :
    s.mgtServe r = some (s.mgtPut r 0x4C592048) := by
  simp [State.mgtServe, State.mgtDone, hidx, htgt, MGT_BULK_DATA, mgtLocal]

/-- The identity as a full read sends it. -/
theorem State.mgtPut_glbId_out (s : State) {r : MgtRead} (hidx : r.idx = 0) (hlow : r.high = false)
    (hfull : r.full = true) : (s.mgtPut r 0x4C592048).mgt.out = s.mgt.out ++ [0x2048, 0x4C59] :=
  s.mgtPut_full_out 0x4C592048 hlow hfull (by rw [hidx]; decide)

/-- A read of GLB_ID with the n pairs that follow it sends the identity n + 1 times. -/
theorem State.mgtRun_glbId_out (n : Nat) (s : State) {r : MgtRead} (hidx : r.idx = 0) (hlow : r.high = false)
    (hfull : r.full = true) :
    (s.mgtRun n r).mgt.out =
      s.mgt.out ++ (List.replicate (n + 1) [(0x2048 : BitVec 16), 0x4C59]).flatten := by
  induction n generalizing s with
  | zero =>
    rw [State.mgtRun_zero_of_served (s.mgtServe_glbId hidx (by rw [hidx, s.mgtTarget_glbId])),
      s.mgtPut_glbId_out (by exact hidx) (by exact hlow) (by exact hfull)]
    rfl
  | succ k ih =>
    rw [State.mgtRun_succ_of_served (s.mgtServe_glbId hidx (by rw [hidx, s.mgtTarget_glbId])), ih,
      s.mgtPut_glbId_out (by exact hidx) (by exact hlow) (by exact hfull), List.append_assoc]
    rfl

/-- RDN of GLB_ID sends the identity once for each pair (R307, R311). -/
theorem State.mgtRd_glbId_out {s : State} (n : Nat) (h : s.mgt.abort = false) :
    (s.mgtRd 0 n).mgt.out = (List.replicate n [(0x2048 : BitVec 16), 0x4C59]).flatten := by
  cases n with
  | zero => exact State.mgtFrame_out h
  | succ k => simp only [State.mgtRd, State.mgtRun_glbId_out, State.mgtFrame_out h, List.nil_append]

/-- Settles O38: a read of GLB_ID rests on no state, and the port serves it in its own clock domain. -/
theorem theIdentityIsFixedAndAlwaysRead : Obligations.TheIdentityIsFixedAndAlwaysRead :=
  ⟨fun s m => ⟨s.shown_glbId m, by simp [State.readReg, bitsOf], by simp [State.readReg, bitsOf],
    fun v => (s.writeReg m 0 v).shown_glbId m⟩,
   fun _ h => ⟨⟨_, rfl, State.mgtRd_glbId_out 1 h⟩, fun n => ⟨_, rfl, State.mgtRd_glbId_out n h⟩⟩⟩

end Sys2Proof.Machine

/-!
The field side's supply (R34): what the field die's own power-up returns to reset values, and what of the host die it
leaves alone.
-/
namespace Sys2Proof.Machine

/-- The field die's power-up keeps the registers below 0x1000 and returns the others to their reset values (R369). -/
@[simp] theorem State.reg_fieldCold (s : State) (i : Nat) :
    s.fieldCold.reg i = if i < 0x1000 then s.reg i else regReset i := by
  simp [State.reg, State.fieldCold, assocGet_filter (fun k => decide (k < 0x1000))]

/-- The key of a window word lies below the field die's keys exactly where its block lies on the host die. -/
theorem winKey_lt_field_iff (b : Blk) (a : Nat) : winKey b a < 0x10 * 2 ^ 24 ↔ blkNum b < 0x10 := by
  rw [← winKey_div b a, Nat.div_lt_iff_lt_mul (Nat.two_pow_pos 24)]

/-- The field die's power-up keeps the window words of the host die's blocks and returns the others to their reset
values. -/
@[simp] theorem State.win_fieldCold (s : State) (b : Blk) (a : Nat) :
    s.fieldCold.win b a = if blkNum b < 0x10 then s.win b a else winReset b (a % 2 ^ 24) := by
  simp only [State.win, State.fieldCold, assocGet_filter (fun k => decide (k < 0x10 * 2 ^ 24)), decide_eq_true_eq,
    winKey_lt_field_iff]

theorem State.fieldSupply_same {s : State} {on : Bool} (h : s.pin.fieldPower = on) : s.fieldSupply on = s := by
  simp [State.fieldSupply, h]

/-- A change of the supply, in either direction, is the field die's power-up at the new level. -/
theorem State.fieldSupply_change {s : State} {on : Bool} (h : s.pin.fieldPower ≠ on) :
    s.fieldSupply on = { s.fieldCold with pin := { s.fieldCold.pin with fieldPower := on } } := by
  simp [State.fieldSupply, h]

/-- A register is no matter of the pins. -/
theorem State.reg_withPin (s : State) (p : PinSt) (i : Nat) : { s with pin := p }.reg i = s.reg i := (rfl)

/-- A window word is no matter of the pins. -/
theorem State.win_withPin (s : State) (p : PinSt) (b : Blk) (a : Nat) : { s with pin := p }.win b a = s.win b a := (rfl)

/-- Settles O7: a change of the supply is the field die's power-up, whose tables split at the dies' border. -/
theorem fieldSupplyResetsOnlyTheFieldDie : Obligations.FieldSupplyResetsOnlyTheFieldDie := by
  intro s on
  refine ⟨fun h => congrArg Host.Outcome.next (State.fieldSupply_same h), fun h => ?_⟩
  refine ⟨_, rfl, State.fieldSupply_keeps s on, ?_⟩
  rw [State.fieldSupply_change h]
  refine ⟨rfl, fun i hi => ?_, fun i hi => ?_, fun b a hb => ?_, fun b a hb => ?_, rfl, rfl, rfl, rfl, rfl, rfl⟩
  · rw [State.reg_withPin, State.reg_fieldCold, if_neg (Nat.not_lt.2 hi)]
  · rw [State.reg_withPin, State.reg_fieldCold, if_pos hi]
  · rw [State.win_withPin, State.win_fieldCold, if_neg (Nat.not_lt.2 hb)]
  · rw [State.win_withPin, State.win_fieldCold, if_pos hb]

end Sys2Proof.Machine

/-!
Drape by its pins and its lane (R28, R38, R274): what a change of a cause of drape does to the levels that drape hangs
on.
-/
namespace Sys2Proof.Machine

/-! ### Fields under a footprint -/

/-- A field of a register outside the footprint keeps its value. -/
theorem Keeps.fld {M : Nat} {s t : State} (h : Keeps M s t) {f : Fld} (hf : M.testBit (regPart f.reg) = false) :
    t.fld f = s.fld f := congrArg (fldGet f) (h.reg _ hf)

/-- A counter goes up by n and saturates at its maximum. -/
theorem State.fld_count_same (s : State) {f : Fld} (n : Nat) (hf : f.lo + f.len ≤ 32) :
    (s.count f n).fld f = min (s.fld f + n) (2 ^ f.len - 1) := by
  have hmax : 2 ^ f.len - 1 < 2 ^ f.len := Nat.sub_one_lt (Nat.two_pow_pos _).ne'
  rw [State.count, State.fld_setFld_same _ _ _ hf, Nat.mod_eq_of_lt (Nat.lt_of_le_of_lt (Nat.min_le_right ..) hmax)]

/-! ### Drape and the pins -/

/-- Drape that begins or ends leaves the pins and the drape lane alone. -/
@[simp] theorem State.syncDrape_pin (s : State) (was : Bool) : (s.syncDrape was).pin = s.pin :=
  (s.syncDrape_keeps was).pin (by decide +kernel)

/-- Drape is a matter of the pins and the drape lane. -/
theorem State.draped_of_pin {s : State} {p : PinSt} (h : s.pin = p) :
    s.draped = (p.laneDrape || p.laneInvalid || !p.fieldDrapeN) := by
  rw [State.draped, h]

@[simp] theorem State.fieldDrapePin_pin (s : State) (level : Bool) :
    (s.fieldDrapePin level).pin = { s.pin with fieldDrapeN := level } := by
  rw [State.fieldDrapePin, State.syncDrape_pin]

/-- Drape and the raises after an invalid drape lane leave the pins and the count alone. -/
theorem State.drapeInvalid_after_count (s : State) (was : Bool) :
    Keeps (foot [.reg GLB_DETERMINISM, .reg LNK_DEADLETTER_COUNT, .reg (ENG_STATUS 0x600), .reg CAL_STATUS,
      .reg CAL_DEFER_COUNT, .reg (ENG_STATUS 0x1B00), .flt, .win .lnk, .win .nul, .win .cal, .recTick, .bar, .faults,
      .cou, .bru, .pal, .pwr, .col, .nul, .lnk, .cal, .free, .srcs]) s
      ((((s.syncDrape was).raise .fgl 3).standing .fgl 3 true).raise .fba 3) :=
  (State.raise_keeps _ .fba 3).step (by decide +kernel) <|
    (State.standing_keeps _ .fgl 3 true).step (by decide +kernel) <|
      (State.raise_keeps _ .fgl 3).step (by decide +kernel) (s.syncDrape_keeps was)

@[simp] theorem State.drapeInvalid_pin (s : State) :
    s.drapeInvalid.pin = { s.pin with laneInvalid := true } :=
  (State.drapeInvalid_after_count _ _).pin (by decide +kernel)

/-- An invalid drape lane is counted once, and nothing after the count touches it. -/
theorem State.drapeInvalid_count (s : State) :
    s.drapeInvalid.fld FBA_STATUS_INVALID_DRAPE =
      min (s.fld FBA_STATUS_INVALID_DRAPE + 1) (2 ^ FBA_STATUS_INVALID_DRAPE.len - 1) :=
  ((State.drapeInvalid_after_count _ _).fld (by decide +kernel)).trans (State.fld_count_same _ 1 (by decide))

/-- With the clock and the field supply an invalid lane acts where the lane was valid (R274). -/
theorem execDrapeLaneInvalid_of_valid {s : State} (hclk : s.tm.clk = true) (hpow : s.pin.fieldPower = true)
    (hvalid : s.pin.laneInvalid = false) : exec .drapeLaneInvalid s = .next s.drapeInvalid := by
  show Host.Outcome.next _ = _
  simp [State.onField, hclk, hpow, hvalid]

/-- Settles O14: each command changes one level of the pins, and drape is read off them. -/
theorem drapePinsAndLane : Obligations.DrapePinsAndLane := by
  refine ⟨fun _ _ => rfl, fun s level => ?_, fun s hclk hpow hvalid => ?_⟩
  · have hpin := s.fieldDrapePin_pin level
    refine ⟨_, rfl, s.fieldDrapePin_keeps level, hpin, ?_, ?_⟩
    · rintro rfl
      simp [State.draped_of_pin hpin]
    · rintro rfl hlane hvalid
      simp [State.draped_of_pin hpin, hlane, hvalid]
  · have hpin := s.drapeInvalid_pin
    refine ⟨_, execDrapeLaneInvalid_of_valid hclk hpow hvalid, s.drapeInvalid_keeps, ?_, ?_, s.drapeInvalid_count⟩
    · rw [hpin]
    · simp [State.draped_of_pin hpin]

end Sys2Proof.Machine

/-!
Words that are put together field by field (Tables 08-1 and 13-6): which bits of a word a field takes, and the check
word behind them.
-/
namespace Sys2Proof.Machine

/-! ### Fields side by side -/

/-- The bits that a list of fields takes. -/
def fieldsWidth (fs : List (Nat × Nat)) : Nat := (fs.map Prod.fst).sum

theorem packFields_append_singleton (fs : List (Nat × Nat)) (n v : Nat) :
    packFields (fs ++ [(n, v)]) = packFields fs * 2 ^ n + v % 2 ^ n := by
  simp [packFields]

theorem packFields_lt (fs : List (Nat × Nat)) : packFields fs < 2 ^ fieldsWidth fs := by
  induction fs using List.reverseRecOn with
  | nil => decide
  | append_singleton fs f ih =>
    obtain ⟨n, v⟩ := f
    have hwidth : fieldsWidth (fs ++ [(n, v)]) = fieldsWidth fs + n := by simp [fieldsWidth]
    rw [packFields_append_singleton, hwidth, Nat.pow_add]
    have hv := Nat.mod_lt v (Nat.two_pow_pos n)
    calc packFields fs * 2 ^ n + v % 2 ^ n < packFields fs * 2 ^ n + 2 ^ n := by omega
      _ = (packFields fs + 1) * 2 ^ n := (Nat.succ_mul ..).symm
      _ ≤ 2 ^ fieldsWidth fs * 2 ^ n := Nat.mul_le_mul_right _ ih

theorem packFields_append (xs ys : List (Nat × Nat)) :
    packFields (xs ++ ys) = packFields xs * 2 ^ fieldsWidth ys + packFields ys := by
  induction ys using List.reverseRecOn with
  | nil => simp [packFields, fieldsWidth]
  | append_singleton ys f ih =>
    obtain ⟨n, v⟩ := f
    have hwidth : fieldsWidth (ys ++ [(n, v)]) = fieldsWidth ys + n := by simp [fieldsWidth]
    rw [← List.append_assoc, packFields_append_singleton, ih, packFields_append_singleton, hwidth, Nat.pow_add]
    ring

/-- The fields in front of others lie above them. -/
theorem packFields_append_div (xs ys : List (Nat × Nat)) :
    packFields (xs ++ ys) / 2 ^ fieldsWidth ys = packFields xs := by
  rw [packFields_append, Nat.mul_comm, Nat.mul_add_div (Nat.two_pow_pos _), Nat.div_eq_of_lt (packFields_lt ys),
    Nat.add_zero]

/-- A field shows its value, cut to its width, in the bits above the fields behind it. -/
theorem bitsOf_packFields {fs xs ys : List (Nat × Nat)} {n v hi lo : Nat} (hfs : fs = xs ++ (n, v) :: ys)
    (hlo : fieldsWidth ys = lo) (hn : hi + 1 - lo = n) : bitsOf (packFields fs) hi lo = v % 2 ^ n := by
  subst hlo
  rw [bitsOf, hn, hfs, List.append_cons, packFields_append_div, packFields_append_singleton, Nat.mul_comm,
    Nat.mul_add_mod, Nat.mod_mod]

/-! ### The check word -/

theorem crcStep_lt (c : Nat) (b : Bool) : crcStep c b < 2 ^ 16 := by
  have hshift : c * 2 % 65536 < 2 ^ 16 := Nat.mod_lt _ (by decide)
  unfold crcStep
  extract_lets top sh
  split
  · exact Nat.xor_lt_two_pow hshift (by decide)
  · exact hshift

theorem crcBits_lt (n x : Nat) {c : Nat} (hc : c < 2 ^ 16) : crcBits n x c < 2 ^ 16 := by
  induction n generalizing c with
  | zero => exact hc
  | succ n ih => exact ih (crcStep_lt ..)

/-- A check word has 16 bits (R165). -/
theorem crc16_lt (n x : Nat) : crc16 n x < 2 ^ 16 := crcBits_lt n x (by decide)

/-- Fields with their check word behind them. -/
def withCrc (n : Nat) (fs : List (Nat × Nat)) : List (Nat × Nat) := fs ++ [(16, crc16 n (packFields fs))]

theorem packFields_withCrc (n : Nat) (fs : List (Nat × Nat)) :
    packFields (withCrc n fs) = packFields fs * 2 ^ 16 + crc16 n (packFields fs) := by
  rw [withCrc, packFields_append_singleton, Nat.mod_eq_of_lt (crc16_lt ..)]

/-- The field at a position shows its value, cut to its width, above the fields behind it and the check word. -/
theorem bitsOf_withCrc {m : Nat} {fs : List (Nat × Nat)} (j : Nat) {n v hi lo x : Nat} (hj : fs[j]? = some (n, v))
    (hlo : fieldsWidth (fs.drop (j + 1)) + 16 = lo) (hn : hi + 1 - lo = n) (hv : v % 2 ^ n = x) :
    bitsOf (packFields (withCrc m fs)) hi lo = x := by
  obtain ⟨hlen, hget⟩ := List.getElem?_eq_some_iff.1 hj
  have hsplit : fs = fs.take j ++ (n, v) :: fs.drop (j + 1) := by
    rw [← hget, List.getElem_cons_drop, List.take_append_drop]
  have hfs : withCrc m fs = fs.take j ++ (n, v) :: (fs.drop (j + 1) ++ [(16, crc16 m (packFields fs))]) := by
    rw [← List.cons_append, ← List.append_assoc, ← hsplit, withCrc]
  rw [bitsOf_packFields hfs (by simpa [fieldsWidth] using hlo) hn, hv]

/-- A franked parcel of 240 bits of fields is those fields with their check word. -/
theorem franked_packFields_toNat {fs : List (Nat × Nat)} (hw : fieldsWidth fs = 240) :
    (franked (packFields fs)).toNat = packFields (withCrc 240 fs) := by
  have hlt := packFields_lt fs
  rw [hw] at hlt
  have hcrc := crc16_lt 240 (packFields fs)
  rw [franked, Nat.mod_eq_of_lt hlt, packFields_withCrc, BitVec.toNat_ofNat, Nat.mod_eq_of_lt]
  omega

/-- The check word of a parcel covers the bits above it. -/
theorem bitsOf_withCrc_crc {fs : List (Nat × Nat)} (hw : fieldsWidth fs = 240) :
    bitsOf (packFields (withCrc 240 fs)) 15 0 = crc16 240 (bitsOf (packFields (withCrc 240 fs)) 255 16) := by
  have hlt := packFields_lt fs
  rw [hw] at hlt
  have hcrc := crc16_lt 240 (packFields fs)
  have hbody : bitsOf (packFields (withCrc 240 fs)) 255 16 = packFields fs := by
    rw [bitsOf, packFields_withCrc]
    omega
  rw [hbody, bitsOf, packFields_withCrc]
  omega

end Sys2Proof.Machine

/-!
The stream's deadline (R21, R165): the bits of a block that the host die synthesises, and which blocks it adds at tick
160.
-/
namespace Sys2Proof.Machine

/-! ### A synthesised block -/

/-- The fields of Table 08-1 above the readings: DEC, reserved bits, COLUMN, FLAG_OR and ATTENTION. -/
def blockHead (dec : Bool) (c flags att : Nat) : List (Nat × Nat) :=
  [(1, if dec then 1 else 0), (2, 0), (5, c), (8, flags), (64, att)]

/-- The fields of a block below its check word. -/
def blockFields (dec : Bool) (c flags att : Nat) (ys : List Nat) : List (Nat × Nat) :=
  blockHead dec c flags att ++ ys.map (fun y => (24, y))

theorem packFields_blockHead (dec : Bool) (c flags att : Nat) :
    packFields (blockHead dec c flags att) =
      (((if dec then 1 else 0) * 2 ^ 7 + c % 32) * 2 ^ 8 + flags % 256) * 2 ^ 64 + att % 2 ^ 64 := by
  simp only [packFields, blockHead, List.foldl_cons, List.foldl_nil]
  cases dec <;> simp

theorem packReadings_eq_packFields (ys : List Nat) : packReadings ys = packFields (ys.map (fun y => (24, y))) := by
  rw [packReadings, packFields, List.foldl_map]

/-- A block is its fields with their check word (Table 08-1). -/
theorem blockBits_eq_packFields (dec : Bool) (c flags att : Nat) {ys : List Nat} (hy : ys.length = 64) :
    blockBits dec c flags att ys = packFields (withCrc 1616 (blockFields dec c flags att ys)) := by
  have hwidth : fieldsWidth (ys.map (fun y => (24, y))) = 1536 := by simp [fieldsWidth, hy]
  rw [packFields_withCrc, blockFields, packFields_append, hwidth, packFields_blockHead,
    ← packReadings_eq_packFields]
  rfl

/-- The fields of a lost block below its check word (R165). -/
def lostFields (d : Bool) (c : Nat) : List (Nat × Nat) :=
  blockFields d c 0x80 (2 ^ 64 - 1) (List.replicate 64 noReading)

theorem lostBlock_eq_packFields (d : Bool) (c : Nat) :
    lostBlock d c = packFields (withCrc 1616 (lostFields d c)) :=
  blockBits_eq_packFields d c _ _ (List.length_replicate ..)

/-- The reading of row r stands behind the head and the r readings before it. -/
theorem withCrc_lostFields_split (d : Bool) (c : Nat) {r : Nat} (hr : r < 64) :
    withCrc 1616 (lostFields d c) =
      (blockHead d c 0x80 (2 ^ 64 - 1) ++ List.replicate r (24, noReading)) ++ (24, noReading) ::
        (List.replicate (63 - r) (24, noReading) ++ [(16, crc16 1616 (packFields (lostFields d c)))]) := by
  have hsplit : (List.replicate 64 noReading).map (fun y => (24, y)) =
      List.replicate r (24, noReading) ++ (24, noReading) :: List.replicate (63 - r) (24, noReading) := by
    rw [List.map_replicate, ← List.replicate_succ, List.replicate_append_replicate]
    congr 1
    omega
  simp only [withCrc, lostFields, blockFields, hsplit, List.append_assoc, List.cons_append]

/-- Every reading of a lost block says that there is none (R165). -/
theorem lostBlock_reading (d : Bool) (c : Nat) {r : Nat} (hr : r < 64) :
    bitsOf (lostBlock d c) (1551 - 24 * r) (1528 - 24 * r) = 0x800000 := by
  rw [lostBlock_eq_packFields d c, bitsOf_packFields (withCrc_lostFields_split d c hr)]
  · rfl
  · simp [fieldsWidth]
    omega
  · omega

/-- The head of a lost block, bit for bit (R165). -/
theorem lostBlock_head (d : Bool) {c : Nat} (hc : c < 32) :
    bitsOf (lostBlock d c) 1631 1631 = (if d then 1 else 0) ∧ bitsOf (lostBlock d c) 1628 1624 = c ∧
      bitsOf (lostBlock d c) 1623 1616 = 0x80 ∧ bitsOf (lostBlock d c) 1615 1552 = 2 ^ 64 - 1 := by
  rw [lostBlock_eq_packFields d c]
  refine ⟨bitsOf_withCrc 0 rfl ?_ rfl (by cases d <;> rfl), bitsOf_withCrc 2 rfl ?_ rfl (Nat.mod_eq_of_lt hc),
    bitsOf_withCrc 3 rfl ?_ rfl rfl, bitsOf_withCrc 4 rfl ?_ rfl rfl⟩
  all_goals simp [lostFields, blockFields, blockHead, fieldsWidth]

/-! ### Which blocks the deadline adds -/

/-- The block that stands for a column and its DEC bit in a slot sheet. -/
def lostAt (slot : PM) (x : Nat × Bool) : Block := ⟨slot, x.1, lostBlock x.2 x.1, true, 0⟩

/-- The host die has the block of a column and a slot sheet. -/
def hasBlock (here : List Block) (slot : PM) (c : Nat) : Bool := here.any (fun b => b.slot == slot && b.col == c)

/-- The host die's blocks with one for a column that has none. -/
def fillLost (slot : PM) (here : List Block) (x : Nat × Bool) : List Block :=
  if hasBlock here slot x.1 then here else here ++ [lostAt slot x]

/-- The state with other blocks on the host die. -/
def State.putHere (s : State) (here : List Block) : State := { s with str := { s.str with here := here } }

/-- Synthesis is repeated filling of the blocks on the host die. -/
theorem State.synthesise_eq (s : State) (slot : PM) :
    s.synthesise slot = s.putHere ((s.blocksDue slot).foldl (fillLost slot) s.str.here) :=
  List.foldl_hom s.putHere fun here x =>
    (apply_ite s.putHere (hasBlock here slot x.1 = true) here (here ++ [lostAt slot x])).symm

/-- A block of one column is none of another. -/
theorem hasBlock_append_lostAt {here : List Block} {slot : PM} {x : Nat × Bool} {c : Nat} (h : x.1 ≠ c) :
    hasBlock (here ++ [lostAt slot x]) slot c = hasBlock here slot c := by
  simp [hasBlock, lostAt, h]

/-- Filling columns that are all different adds, in their order, a block for each one without. -/
theorem foldl_fillLost (slot : PM) {xs : List (Nat × Bool)} (h : xs.Pairwise (fun x y => x.1 ≠ y.1))
    (here : List Block) :
    xs.foldl (fillLost slot) here = here ++ (xs.filter (fun x => !hasBlock here slot x.1)).map (lostAt slot) := by
  induction xs generalizing here with
  | nil => simp
  | cons x xs ih =>
    obtain ⟨hx, hxs⟩ := List.pairwise_cons.1 h
    rw [List.foldl_cons, ih hxs, fillLost]
    by_cases hhas : hasBlock here slot x.1 = true
    · simp [hhas]
    · have hrest : xs.filter (fun y => !hasBlock (here ++ [lostAt slot x]) slot y.1) =
          xs.filter (fun y => !hasBlock here slot y.1) :=
        List.filter_congr fun y hy => by rw [hasBlock_append_lostAt (hx y hy)]
      simp [hhas, hrest]

/-- A slot sheet carries at most one block of a column (R168). -/
theorem State.blocksDue_distinct (s : State) (slot : PM) :
    (s.blocksDue slot).Pairwise (fun x y => x.1 ≠ y.1) := by
  unfold State.blocksDue
  refine List.pairwise_filterMap.2 (List.Pairwise.imp ?_ List.pairwise_lt_range)
  intro c e hce x hx y hy
  have hxc : x.1 = c := by simpa using List.find?_some hx
  have hye : y.1 = e := by simpa using List.find?_some hy
  omega

/-- At tick 160 a sheet's missing blocks are added as LOST (R21). -/
theorem State.sheetDeadline_loaded {s : State} (h : s.bit FGL_STATUS_LOADED = true) :
    s.sheetDeadline = s.putHere (s.str.here ++ ((s.blocksDue (sheetOf (s.tm.hpm - 160))).filter
      (fun x => !hasBlock s.str.here (sheetOf (s.tm.hpm - 160)) x.1)).map (lostAt (sheetOf (s.tm.hpm - 160)))) := by
  rw [State.sheetDeadline, if_pos h, State.synthesise_eq, foldl_fillLost _ (s.blocksDue_distinct _)]

theorem State.sheetDeadline_unloaded {s : State} (h : s.bit FGL_STATUS_LOADED = false) : s.sheetDeadline = s := by
  simp [State.sheetDeadline, h]

/-- With the clock a command of the tick domain acts (R37). -/
theorem State.onTick_of_clk {s : State} (h : s.tm.clk = true) (f : State → State) : s.onTick f = f s := if_pos h

theorem execSheetDeadline_of_clk {s : State} (h : s.tm.clk = true) : exec .sheetDeadline s = .next s.sheetDeadline :=
  congrArg Host.Outcome.next (State.onTick_of_clk h _)

theorem execCoverParcel_of_clk {s : State} (h : s.tm.clk = true) : exec .coverParcel s = .next s.covers :=
  congrArg Host.Outcome.next (State.onTick_of_clk h _)

theorem execSlotFill_of_clk {s : State} (p : Fin 4) (h : s.tm.clk = true) :
    exec (.slotFill p) s = .next (s.slotFill p.val) :=
  congrArg Host.Outcome.next (State.onTick_of_clk h _)

end Sys2Proof.Machine

/-!
Slot 0 of a sheet (R292): the covers that leave, the replies that leave with them, and what settling the sheet's stream
leaves alone.
-/
namespace Sys2Proof.Machine

/-! ### What settling the stream leaves alone -/

/-- A raise of a field block puts nothing into the host's status queue, so the links stay as they are (R294). -/
theorem State.raise_lnk_of_field (s : State) {b : Blk} (i : Nat) (h : blkIsHost b = false) :
    (s.raise b i).lnk = s.lnk := by
  simp only [State.raise, State.raiseWith, h, Bool.and_false, Bool.false_eq_true, if_false]
  exact (s.raiseCore_keeps b i _).lnk (by decide +kernel)

theorem State.streamPlan_lnk (s : State) : (s.streamPlan).lnk = s.lnk := by
  have hsyn (slot : PM) : (s.synthesise slot).lnk = s.lnk := (s.synthesise_keeps slot).lnk (by decide +kernel)
  unfold State.streamPlan
  extract_lets slot g live offStr s1 due bs room sent left onStr s2 s3
  have h2 : s2.lnk = s.lnk := hsyn slot
  have h3 : s3.lnk = s.lnk := by
    unfold s3
    split
    · exact h2
    · rw [State.setFld_lnk, h2]
  split
  · rfl
  · split
    · exact h3
    · rw [State.raise_lnk_of_field _ _ rfl, State.count_lnk, h3]

/-- With the stream off the sheet has no plan (R168). -/
theorem State.streamPlan_off {s : State} (h : s.bit STR_CTRL_EN = false ∨ (s.glb ≠ 6 ∧ s.glb ≠ 7)) :
    s.streamPlan.str.live = false ∧ s.streamPlan.str.plan = [] ∧ s.streamPlan.str.lostN = 0 := by
  have hoff : (s.bit STR_CTRL_EN && (s.glb == 6 || s.glb == 7)) = false := by
    rcases h with h | ⟨h6, h7⟩
    · simp [h]
    · simp [h6, h7]
  simp [State.streamPlan, hoff]

/-! ### A port of four -/

/-- A footprint that leaves out the four registers of a port register leaves out the one of any port. -/
theorem Keeps.portReg {M : Nat} {s t : State} (h : Keeps M s t) {k : Nat} (p : Nat)
    (hM : ∀ j < 4, M.testBit (regPart (k + j)) = false) : t.reg (k + p % 4) = s.reg (k + p % 4) :=
  h.reg _ (hM _ (Nat.mod_lt _ (by decide)))

theorem State.isUp_congr {s t : State} {p : Nat} (h : t.reg (LNK_PORT_CFG p) = s.reg (LNK_PORT_CFG p)) :
    t.isUp p = s.isUp p := congrArg (fun w => fldGet (LNK_PORT_CFG_ROLE p) w == 0) h

theorem State.portBit_congr {s t : State} {p : Nat} (h : t.reg (LNK_PORT_STATUS p) = s.reg (LNK_PORT_STATUS p))
    {f : Fld} (hf : f.reg = LNK_PORT_STATUS p) : t.bit f = s.bit f := by
  simp only [State.bit, State.fld, hf, h]

theorem State.portDark_congr {s t : State} {p : Nat} (h : t.reg (LNK_PORT_STATUS p) = s.reg (LNK_PORT_STATUS p)) :
    t.portDark p = s.portDark p := by
  rw [State.portDark, State.portBit_congr h rfl, State.portBit_congr h rfl, State.portBit_congr h rfl, State.portDark]

@[simp] theorem State.streamPlan_isUp (s : State) (p : Nat) : s.streamPlan.isUp p = s.isUp p :=
  State.isUp_congr (s.streamPlan_keeps.portReg p (by decide +kernel))

@[simp] theorem State.streamPlan_portDark (s : State) (p : Nat) : s.streamPlan.portDark p = s.portDark p :=
  State.portDark_congr (s.streamPlan_keeps.portReg p (by decide +kernel))

/-! ### The covers leave -/

/-- A repetition leaves alone what each round does. -/
theorem forEach_preserves {α σ β : Type} (g : σ → β) {f : σ → α → σ} (hf : ∀ t x, g (f t x) = g t) (xs : List α)
    (s : σ) : g (forEach xs f s) = g s := by
  unfold forEach
  induction xs generalizing s with
  | nil => rfl
  | cons x xs ih => exact (ih (f s x)).trans (hf s x)

/-- What a port sends, after a port has been given a parcel. -/
theorem State.sendPort_out (s : State) (p q : Nat) (par : Parcel) (cover : Bool) :
    assocGet (s.sendPort p par cover).lnk.out q 0 = if p = q then par else assocGet s.lnk.out q 0 :=
  assocGet_set ..

/-- What a port's line carries, after another port has been given a parcel. -/
theorem State.sendPort_line_other (s : State) {p q : Nat} (par : Parcel) (cover : Bool) (h : p ≠ q) :
    assocGet (s.sendPort p par cover).lnk.line q [] = assocGet s.lnk.line q [] :=
  (assocGet_set ..).trans (if_neg h)

/-- A port sends its cover. -/
def State.sendCover (s : State) (p : Nat) : State := s.sendPort p (s.coverFor p) true

/-- What another port sends is no part of a cover. -/
theorem State.sendCover_coverFor (s : State) (q p : Nat) : (s.sendCover q).coverFor p = s.coverFor p := (rfl)

/-- Of the ports that send covers each sends that of the state before; the others send what they did. -/
theorem forEach_sendCover_out (ps : List Nat) (s : State) (p : Nat) :
    assocGet (forEach ps State.sendCover s).lnk.out p 0 = if p ∈ ps then s.coverFor p else assocGet s.lnk.out p 0 := by
  unfold forEach
  induction ps generalizing s with
  | nil => simp
  | cons q ps ih =>
    rw [List.foldl_cons, ih, State.sendCover_coverFor, State.sendCover, State.sendPort_out]
    by_cases hq : q = p
    · simp [hq]
    · simp [hq, Ne.symm hq]

theorem forEach_sendCover_keeps (ps : List Nat) (s : State) : Keeps (foot [.lnk]) s (forEach ps State.sendCover s) :=
  Keeps.forEach _ _ (fun t p h => h.trans (t.sendPort_keeps p (t.coverFor p) true)) (Keeps.refl ..)

/-- The ports that send covers: UP and not dark (R292, R299). -/
def State.coverPorts (s : State) : List Nat := (List.range 4).filter (fun p => s.isUp p && !s.portDark p)

theorem State.mem_coverPorts {s : State} {p : Nat} :
    p ∈ s.coverPorts ↔ p < 4 ∧ s.isUp p = true ∧ s.portDark p = false := by
  simp [State.coverPorts]

/-- Replies that leave now go off their list; nothing else of the links changes (R289). -/
theorem State.repliesGo_lnk (s : State) :
    s.repliesGo.lnk = { s.lnk with replies := s.lnk.replies.filter (fun r => !decide (r.tick = s.tm.tick)) } :=
  forEach_preserves State.lnk (fun _ _ => by simp only [State.setFld_lnk]) _ _

theorem State.covers_of_sheet {s : State} (h : isSheet s.tm.hpm = true) :
    s.covers = (forEach s.streamPlan.coverPorts State.sendCover s.streamPlan).repliesGo := if_pos h

/-- The whole of slot 0 after the stream is settled touches only the links and the count of replies. -/
theorem State.covers_keeps_streamPlan {s : State} (h : isSheet s.tm.hpm = true) :
    Keeps (foot [.reg LNK_SLOWCTL_STATUS, .lnk]) s.streamPlan s.covers := by
  rw [State.covers_of_sheet h]
  exact (State.repliesGo_keeps _).step (by decide +kernel) ((forEach_sendCover_keeps _ _).mono (by decide +kernel))

/-- What a port sends in slot 0: its cover where it is UP and not dark, else what it sent (R292, R299). -/
theorem State.covers_out {s : State} (h : isSheet s.tm.hpm = true) (p : Nat) :
    assocGet s.covers.lnk.out p 0 =
      if p < 4 ∧ s.isUp p = true ∧ s.portDark p = false then s.streamPlan.coverFor p else assocGet s.lnk.out p 0 := by
  rw [State.covers_of_sheet h, State.repliesGo_lnk]
  simp only [forEach_sendCover_out, State.mem_coverPorts, State.streamPlan_isUp, State.streamPlan_portDark,
    State.streamPlan_lnk]

theorem State.covers_replies {s : State} (h : isSheet s.tm.hpm = true) :
    s.covers.lnk.replies = s.lnk.replies.filter (fun r => !decide (r.tick = s.tm.tick)) := by
  have htm : (forEach s.streamPlan.coverPorts State.sendCover s.streamPlan).tm = s.tm :=
    ((forEach_sendCover_keeps _ _).tm (by decide +kernel)).trans (s.streamPlan_keeps.tm (by decide +kernel))
  have hreplies : (forEach s.streamPlan.coverPorts State.sendCover s.streamPlan).lnk.replies = s.lnk.replies :=
    (forEach_preserves (fun t : State => t.lnk.replies) (f := State.sendCover) (fun _ _ => rfl) _ _).trans
      (congrArg LnkSt.replies s.streamPlan_lnk)
  rw [State.covers_of_sheet h, State.repliesGo_lnk, htm, hreplies]

theorem State.covers_marks {s : State} (h : isSheet s.tm.hpm = true) : s.covers.lnk.marks = s.streamPlan.lnk.marks := by
  rw [State.covers_of_sheet h, State.repliesGo_lnk]
  exact forEach_preserves (fun t : State => t.lnk.marks) (f := State.sendCover) (fun _ _ => rfl) _ _

/-! ### The fields of a cover -/

/-- The fields of Table 13-6 with the bits of both reply slots. -/
def State.coverFields (s : State) (p r1 r2 : Nat) : List (Nat × Nat) :=
  [(4, 0xF), (42, s.tm.hpm.toNat / 64),
    (2, if s.bit (LNK_PORT_STATUS_RETIRED p) then s.fld (LNK_PORT_STATUS_RETIRED_EPOCH p)
      else s.bar.hostEpoch.toNat),
    (2, p), (1, if s.hostTab then 1 else 0), (8, s.fld LNK_NODE_ADDRESS_NODE), (3, s.glb),
    (4, s.fld GLB_DETERMINISM_REASON), (2, s.seenSev), (3, s.fld PWR_STATE_STATE),
    (1, if s.drapeSent then 1 else 0), (6, s.str.lostN), (6, s.fld LNK_DEADLETTER_COUNT_ENVELOPES),
    (6, s.fld LNK_DEADLETTER_COUNT_PARCELS), (6, 0), (32, s.echo), (56, r1), (56, r2)]

theorem State.coverFor_eq (s : State) (p : Nat) :
    s.coverFor p = franked (packFields (s.coverFields p (s.replySlot false) (s.replySlot true))) := (rfl)

theorem fieldsWidth_coverFields (s : State) (p r1 r2 : Nat) : fieldsWidth (s.coverFields p r1 r2) = 240 := by
  simp [fieldsWidth, State.coverFields]

/-- A field's value fits its width. -/
theorem State.fld_lt (s : State) (f : Fld) : s.fld f < 2 ^ f.len := Nat.mod_lt _ (Nat.two_pow_pos _)

/-- The highest severity of a block's latched sources hangs on its latch and its sources. -/
theorem State.maxSev_congr {s t : State} {b : Blk}
    (hl : t.fld (FLT_LATCH_LATCH (blkBase b)) = s.fld (FLT_LATCH_LATCH (blkBase b))) (hs : t.srcs = s.srcs) :
    t.maxSev b = s.maxSev b := by
  simp only [State.maxSev, State.src, hl, hs]

/-- Slot 0 leaves every field of a cover but the reply slots as settling the stream leaves it. -/
theorem State.covers_coverFields {s : State} (h : isSheet s.tm.hpm = true) (p r1 r2 : Nat) :
    s.covers.coverFields p r1 r2 = s.streamPlan.coverFields p r1 r2 := by
  have k := State.covers_keeps_streamPlan h
  have htm := k.tm (by decide +kernel)
  have hport := k.portReg p (k := 0x0308) (by decide +kernel)
  have hbits : s.covers.bit (LNK_PORT_STATUS_RETIRED p) = s.streamPlan.bit (LNK_PORT_STATUS_RETIRED p) :=
    State.portBit_congr hport rfl
  have hepoch : s.covers.fld (LNK_PORT_STATUS_RETIRED_EPOCH p) = s.streamPlan.fld (LNK_PORT_STATUS_RETIRED_EPOCH p) :=
    congrArg (fldGet (LNK_PORT_STATUS_RETIRED_EPOCH p)) hport
  have htab : s.covers.hostTab = s.streamPlan.hostTab :=
    congrArg (· == 1) (k.fld (f := LNK_SCHED_SEL_ACTIVE) (by decide +kernel))
  have hglb : s.covers.glb = s.streamPlan.glb := k.fld (by decide +kernel)
  have hsev : s.covers.seenSev = s.streamPlan.seenSev := by
    have hmax (b : Blk) : s.covers.maxSev b = s.streamPlan.maxSev b :=
      State.maxSev_congr (k.fld (by cases b <;> decide +kernel)) (k.srcs (by decide +kernel))
    simp only [State.seenSev, State.mirrorSev, hmax, k.flt (by decide +kernel), k.bar (by decide +kernel)]
  have hdrape : s.covers.drapeSent = s.streamPlan.drapeSent := by
    simp only [State.drapeSent, State.commandedIn, k.pin (by decide +kernel), htm]
  have hecho : s.covers.echo = s.streamPlan.echo := by
    simp only [State.echo, State.covers_marks h, htm]
  simp only [State.coverFields, htm, hbits, hepoch, htab, hglb, hsev, hdrape, hecho, k.bar (by decide +kernel),
    k.str (by decide +kernel), k.fld (f := LNK_NODE_ADDRESS_NODE) (by decide +kernel),
    k.fld (f := GLB_DETERMINISM_REASON) (by decide +kernel), k.fld (f := PWR_STATE_STATE) (by decide +kernel),
    k.fld (f := LNK_DEADLETTER_COUNT_ENVELOPES) (by decide +kernel),
    k.fld (f := LNK_DEADLETTER_COUNT_PARCELS) (by decide +kernel)]

theorem State.streamPlan_replySlot (s : State) (second : Bool) : s.streamPlan.replySlot second = s.replySlot second := by
  simp only [State.replySlot, State.streamPlan_lnk, s.streamPlan_keeps.tm (by decide +kernel)]

/-- The cover that an UP port sends in slot 0: the fields of the state after it, with the replies of the state before
(R289, R292). -/
theorem State.covers_out_toNat {s : State} (h : isSheet s.tm.hpm = true) {p : Nat} (hp : p < 4) (hup : s.isUp p = true)
    (hlit : s.portDark p = false) :
    (assocGet s.covers.lnk.out p 0).toNat =
      packFields (withCrc 240 (s.covers.coverFields p (s.replySlot false) (s.replySlot true))) := by
  rw [State.covers_out h, if_pos ⟨hp, hup, hlit⟩, State.coverFor_eq, State.streamPlan_replySlot,
    State.streamPlan_replySlot, State.covers_coverFields h, franked_packFields_toNat (fieldsWidth_coverFields ..)]

/-- The parcel that has the fields of a cover shows each of them, and its check word (Table 13-6). -/
theorem State.bitsOf_coverFields (s : State) {p : Nat} (r1 r2 w : Nat) (hp : p < 4)
    (hw : w = packFields (withCrc 240 (s.coverFields p r1 r2))) :
    bitsOf w 255 252 = 0xF ∧ bitsOf w 251 210 = s.tm.hpm.toNat / 64 ∧
    bitsOf w 209 208 = (if s.bit (LNK_PORT_STATUS_RETIRED p) then s.fld (LNK_PORT_STATUS_RETIRED_EPOCH p)
      else s.bar.hostEpoch.toNat) ∧
    bitsOf w 207 206 = p ∧ bitsOf w 205 205 = (if s.hostTab then 1 else 0) ∧
    bitsOf w 204 197 = s.fld LNK_NODE_ADDRESS_NODE ∧ bitsOf w 196 194 = s.glb ∧
    bitsOf w 193 190 = s.fld GLB_DETERMINISM_REASON ∧ bitsOf w 189 188 = s.seenSev % 4 ∧
    bitsOf w 187 185 = s.fld PWR_STATE_STATE ∧ bitsOf w 184 184 = (if s.drapeSent then 1 else 0) ∧
    bitsOf w 183 178 = s.str.lostN % 64 ∧ bitsOf w 177 172 = s.fld LNK_DEADLETTER_COUNT_ENVELOPES % 64 ∧
    bitsOf w 171 166 = s.fld LNK_DEADLETTER_COUNT_PARCELS % 64 ∧ bitsOf w 165 160 = 0 ∧
    bitsOf w 159 128 = s.echo % 2 ^ 32 ∧ bitsOf w 127 72 = r1 % 2 ^ 56 ∧
    bitsOf w 71 16 = r2 % 2 ^ 56 ∧ bitsOf w 15 0 = crc16 240 (bitsOf w 255 16) := by
  subst hw
  have hpm : s.tm.hpm.toNat / 64 < 2 ^ 42 := by have := s.tm.hpm.isLt; omega
  have hflag (b : Bool) : (if b then 1 else 0) < 2 ^ 1 := by cases b <;> decide
  have hepoch : (if s.bit (LNK_PORT_STATUS_RETIRED p) then s.fld (LNK_PORT_STATUS_RETIRED_EPOCH p)
      else s.bar.hostEpoch.toNat) < 2 ^ 2 := by
    split
    · exact s.fld_lt (LNK_PORT_STATUS_RETIRED_EPOCH p)
    · exact s.bar.hostEpoch.isLt
  refine ⟨bitsOf_withCrc 0 rfl ?_ rfl rfl, bitsOf_withCrc 1 rfl ?_ rfl (Nat.mod_eq_of_lt hpm),
    bitsOf_withCrc 2 rfl ?_ rfl (Nat.mod_eq_of_lt hepoch), bitsOf_withCrc 3 rfl ?_ rfl (Nat.mod_eq_of_lt hp),
    bitsOf_withCrc 4 rfl ?_ rfl (Nat.mod_eq_of_lt (hflag _)),
    bitsOf_withCrc 5 rfl ?_ rfl (Nat.mod_eq_of_lt (s.fld_lt LNK_NODE_ADDRESS_NODE)),
    bitsOf_withCrc 6 rfl ?_ rfl (Nat.mod_eq_of_lt (s.fld_lt GLB_STATE_STATE)),
    bitsOf_withCrc 7 rfl ?_ rfl (Nat.mod_eq_of_lt (s.fld_lt GLB_DETERMINISM_REASON)),
    bitsOf_withCrc 8 rfl ?_ rfl rfl,
    bitsOf_withCrc 9 rfl ?_ rfl (Nat.mod_eq_of_lt (s.fld_lt PWR_STATE_STATE)),
    bitsOf_withCrc 10 rfl ?_ rfl (Nat.mod_eq_of_lt (hflag _)), bitsOf_withCrc 11 rfl ?_ rfl rfl,
    bitsOf_withCrc 12 rfl ?_ rfl rfl, bitsOf_withCrc 13 rfl ?_ rfl rfl, bitsOf_withCrc 14 rfl ?_ rfl rfl,
    bitsOf_withCrc 15 rfl ?_ rfl rfl, bitsOf_withCrc 16 rfl ?_ rfl rfl, bitsOf_withCrc 17 rfl ?_ rfl rfl,
    bitsOf_withCrc_crc (fieldsWidth_coverFields ..)⟩
  all_goals simp [State.coverFields, fieldsWidth]

end Sys2Proof.Machine

/-!
The slots after slot 0 (R294, R296, R299): what a port's slot takes off which queue.
-/
namespace Sys2Proof.Machine

section
variable {s : State} {p : Nat}

/-! ### The parcel of each kind of slot -/

/-- A lane that is not retired is down where it has failed (R298). -/
theorem State.laneDown_of_not_retired (h : s.bit (LNK_PORT_STATUS_RETIRED p) = false) :
    s.laneDown p = s.bit (LNK_PORT_STATUS_FAILED p) := by
  rw [State.laneDown, h, Bool.or_false]

theorem State.slotParcel_retired (h : s.bit (LNK_PORT_STATUS_RETIRED p) = true) : s.slotParcel p = (0, s) := if_pos h

variable (hret : s.bit (LNK_PORT_STATUS_RETIRED p) = false)
include hret

/-- A stream slot sends the parcel at its rank. -/
theorem State.slotParcel_stream (h : s.schedKind s.hostTab p (s.tm.hpm.toNat % 64) = 2) :
    s.slotParcel p = (s.streamSlot p (s.tm.hpm.toNat % 64), s) := by
  simp [State.slotParcel, hret, h]

/-- A trigger or event slot sends the parcel that is due. -/
theorem State.slotParcel_due (h : s.schedKind s.hostTab p (s.tm.hpm.toNat % 64) = 3 ∨
    s.schedKind s.hostTab p (s.tm.hpm.toNat % 64) = 6) (hup : s.bit (LNK_PORT_STATUS_FAILED p) = false) :
    s.slotParcel p = (s.dueParcel p, s) := by
  rcases h with h | h <;> simp [State.slotParcel, hret, h, State.laneDown_of_not_retired hret, hup]

theorem State.slotParcel_hk (h : s.schedKind s.hostTab p (s.tm.hpm.toNat % 64) = 4)
    (hup : s.bit (LNK_PORT_STATUS_FAILED p) = false) : s.slotParcel p = s.hkSlot := by
  simp [State.slotParcel, hret, h, State.laneDown_of_not_retired hret, hup]

theorem State.slotParcel_st (h : s.schedKind s.hostTab p (s.tm.hpm.toNat % 64) = 5)
    (hup : s.bit (LNK_PORT_STATUS_FAILED p) = false) : s.slotParcel p = s.stSlot := by
  simp [State.slotParcel, hret, h, State.laneDown_of_not_retired hret, hup]

/-- A lane that has failed takes nothing off a queue (R299). -/
theorem State.slotParcel_failed (h : s.schedKind s.hostTab p (s.tm.hpm.toNat % 64) ∈ [3, 4, 5, 6])
    (hdown : s.bit (LNK_PORT_STATUS_FAILED p) = true) : s.slotParcel p = (0, s) := by
  have hlane : s.laneDown p = true := (State.laneDown_of_not_retired hret).trans hdown
  simp only [List.mem_cons, List.not_mem_nil, or_false] at h
  rcases h with h | h | h | h <;> simp [State.slotParcel, hret, h, hlane]

theorem State.slotParcel_peer (h : s.schedKind s.hostTab p (s.tm.hpm.toNat % 64) = 7) :
    s.slotParcel p = s.peerSlot (s.schedPort s.hostTab p (s.tm.hpm.toNat % 64))
      (s.schedSlot s.hostTab p (s.tm.hpm.toNat % 64)) := by
  simp [State.slotParcel, hret, h]

omit hret in
/-- A slot that names nothing sends an idle parcel. -/
theorem State.slotParcel_idle (h : s.schedKind s.hostTab p (s.tm.hpm.toNat % 64) ∉ [2, 3, 4, 5, 6, 7]) :
    s.slotParcel p = (0, s) := by
  unfold State.slotParcel
  extract_lets k
  split
  · rfl
  · split
    case h_7 => rfl
    all_goals
      next hk => exact absurd (by simp [k, hk]) h

end

/-! ### What a slot takes off the queues -/

theorem State.hkSlot_nil {s : State} (h : s.ripe s.lnk.hkQ = []) : s.hkSlot = (0, s) := by
  simp [State.hkSlot, h]

theorem State.hkSlot_one {s : State} {a : QItem} (h : s.ripe s.lnk.hkQ = [a]) :
    s.hkSlot = (hkParcel a.pay 0, { s with lnk := { s.lnk with hkQ := s.lnk.hkQ.drop 1 } }) := by
  simp [State.hkSlot, h]

theorem State.hkSlot_two {s : State} {a b : QItem} {l : List QItem} (h : s.ripe s.lnk.hkQ = a :: b :: l) :
    s.hkSlot = (hkParcel a.pay b.pay, { s with lnk := { s.lnk with hkQ := s.lnk.hkQ.drop 2 } }) := by
  simp [State.hkSlot, h]

/-- The state with a record taken off the status queue. -/
def State.dropStatus (s : State) (x : QItem) : State :=
  { s with lnk := { s.lnk with stQ := dropAt s.lnk.stQ (s.lnk.stQ.idxOf x) } }

theorem State.stSlot_nil {s : State} (h : s.ripe s.lnk.stQ = []) : s.stSlot = (0, s) := by
  simp [State.stSlot, h]

/-- The oldest fault record goes first (R294). -/
theorem State.stSlot_fault {s : State} {x : QItem} (h : (s.ripe s.lnk.stQ).find? (fun x => x.src != 2) = some x) :
    s.stSlot = (statusParcel x, s.dropStatus x) := by
  simp [State.stSlot, h, State.dropStatus]

/-- Among status records only the oldest goes. -/
theorem State.stSlot_status {s : State} {x : QItem} {l : List QItem} (h : s.ripe s.lnk.stQ = x :: l)
    (hall : ∀ y ∈ s.ripe s.lnk.stQ, y.src = 2) : s.stSlot = (statusParcel x, s.dropStatus x) := by
  have hnone : (s.ripe s.lnk.stQ).find? (fun x => x.src != 2) = none :=
    List.find?_eq_none.2 fun y hy => by simp [hall y hy]
  have hhead : (s.ripe s.lnk.stQ).head? = some x := by rw [h]; rfl
  simp [State.stSlot, hnone, hhead, State.dropStatus]

theorem State.dueParcel_none {s : State} {p : Nat}
    (h : s.evt.due.find? (fun d => d.pm == s.tm.hpm && d.port == p) = none) : s.dueParcel p = 0 := by
  simp [State.dueParcel, h]

theorem State.dueParcel_here {s : State} {p : Nat} {d : DueSlot}
    (h : s.evt.due.find? (fun d => d.pm == s.tm.hpm && d.port == p) = some d) (hhere : d.here = true) :
    s.dueParcel p = d.parcel := by
  simp [State.dueParcel, h, hhere]

/-! ### Peer slots -/

/-- The peer lane-sheet that a port's peer slots carry now (R296). -/
def State.peerSheet (s : State) (q : Nat) : Option PeerSheet :=
  s.lnk.peers.find? (fun x => x.port == q &&
    x.sheet == sheetOf s.tm.hpm - BitVec.ofNat 48 (64 * s.fld (LNK_PORT_CFG_FWD q)))

/-- A parcel that is logged counts once (R302). -/
theorem State.deadParcel_count (s : State) (reason port epoch unit slot w2 n : Nat) :
    (s.deadParcel reason port epoch unit slot w2 n).fld LNK_DEADLETTER_COUNT_PARCELS =
      (s.fld LNK_DEADLETTER_COUNT_PARCELS + n) % 2 ^ LNK_DEADLETTER_COUNT_PARCELS.len :=
  State.fld_setFld_same _ _ _ (by decide)

@[simp] theorem State.deadParcel_lnk (s : State) (reason port epoch unit slot w2 n : Nat) :
    (s.deadParcel reason port epoch unit slot w2 n).lnk = s.lnk :=
  (s.deadParcel_keeps ..).lnk (by decide +kernel)

/-- A parcel that is in time goes on (R296). -/
theorem State.peerSlot_inTime {s : State} {q k : Nat} {x : PeerSheet} (h : s.peerSheet q = some x)
    (hne : x.parcels ≠ []) (ht : x.arrived + k + 4 ≤ s.tm.tick) : s.peerSlot q k = (x.parcels.getD k 0, s) := by
  unfold State.peerSheet at h
  simp [State.peerSlot, h, hne, ht]

/-- Of a refused lane-sheet nothing goes on, and nothing more is logged (R297). -/
theorem State.peerSlot_refused {s : State} {q k : Nat} {x : PeerSheet} (h : s.peerSheet q = some x)
    (hnil : x.parcels = []) : s.peerSlot q k = (0, s) := by
  unfold State.peerSheet at h
  simp [State.peerSlot, h, hnil]

/-- A parcel that is late or that no lane-sheet has is an idle parcel and is logged (R296, R302). -/
theorem State.peerSlot_dead {s : State} {q k : Nat}
    (h : ∀ x, s.peerSheet q = some x → x.parcels ≠ [] ∧ s.tm.tick < x.arrived + k + 4) :
    ∃ epoch unit w2, s.peerSlot q k = (0, s.deadParcel 5 q epoch unit k w2 1) := by
  unfold State.peerSheet at h
  unfold State.peerSlot
  extract_lets sheet
  split
  next x hx =>
    obtain ⟨hne, hlate⟩ := h x hx
    simp only [List.isEmpty_iff, hne, if_false, Nat.not_le.2 hlate]
    exact ⟨_, _, _, rfl⟩
  next => exact ⟨_, _, _, rfl⟩

/-! ### What a slot leaves alone -/

/-- The links where a slot has taken something off the HK or the status queue at most. -/
def sameButQueues (l m : LnkSt) : Prop := l = { m with hkQ := l.hkQ, stQ := l.stQ }

theorem State.hkSlot_lnk (s : State) : sameButQueues s.hkSlot.2.lnk s.lnk := by
  unfold State.hkSlot
  split <;> rfl

theorem State.stSlot_lnk (s : State) : sameButQueues s.stSlot.2.lnk s.lnk := by
  unfold State.stSlot
  extract_lets q pick _
  clear_value pick
  cases pick <;> rfl

theorem State.peerSlot_lnk (s : State) (q k : Nat) : (s.peerSlot q k).2.lnk = s.lnk := by
  unfold State.peerSlot
  extract_lets sheet
  split
  · split
    · rfl
    · extract_lets par
      split
      · rfl
      · exact State.deadParcel_lnk ..
  · exact State.deadParcel_lnk ..

theorem State.slotParcel_lnk (s : State) (p : Nat) : sameButQueues (s.slotParcel p).2.lnk s.lnk := by
  have hidle : sameButQueues s.lnk s.lnk := rfl
  unfold State.slotParcel
  extract_lets k
  split
  · exact hidle
  · split
    case h_1 => exact hidle
    case h_2 => split <;> exact hidle
    case h_3 =>
      split
      · exact hidle
      · exact s.hkSlot_lnk
    case h_4 =>
      split
      · exact hidle
      · exact s.stSlot_lnk
    case h_5 => split <;> exact hidle
    case h_6 => rw [State.peerSlot_lnk]; exact hidle
    case h_7 => exact hidle

theorem State.slotFill_of_not {s : State} {p : Nat} (h : s.isUp p = false ∨ isSheet s.tm.hpm = true) :
    s.slotFill p = s := by
  rcases h with h | h <;> simp [State.slotFill, h]

/-- An UP lane that is not dark sends the parcel of its slot (R294). -/
theorem State.slotFill_of_lit {s : State} {p : Nat} (hup : s.isUp p = true) (hslot : isSheet s.tm.hpm = false)
    (hlit : s.portDark p = false) :
    s.slotFill p = (s.slotParcel p).2.sendPort p (s.slotParcel p).1 false := by
  simp [State.slotFill, hup, hslot, hlit]

end Sys2Proof.Machine

/-!
The stream's deadline, its covers and its slots together (R21, R165, R292, R294).
-/
namespace Sys2Proof.Machine

/-- A slot's command with what it leaves behind: the parcel that the port sends, and the queues and the count of logged
parcels as settling the slot leaves them. -/
theorem State.slotFill_sends {s u : State} {p : Nat} {par : Parcel} (hup : s.isUp p = true)
    (hslot : isSheet s.tm.hpm = false) (hlit : s.portDark p = false) (h : s.slotParcel p = (par, u)) :
    assocGet (s.slotFill p).lnk.out p 0 = par ∧ (s.slotFill p).lnk.hkQ = u.lnk.hkQ ∧
      (s.slotFill p).lnk.stQ = u.lnk.stQ ∧
      (s.slotFill p).fld LNK_DEADLETTER_COUNT_PARCELS = u.fld LNK_DEADLETTER_COUNT_PARCELS := by
  rw [State.slotFill_of_lit hup hslot hlit, h]
  exact ⟨(State.sendPort_out ..).trans (if_pos rfl), rfl, rfl, rfl⟩

/-- A peer slot without its parcel in time sends an idle parcel and logs one (R296, R302). -/
theorem State.slotFill_peer_dead {s : State} {p q j : Nat} (hup : s.isUp p = true) (hslot : isSheet s.tm.hpm = false)
    (hlit : s.portDark p = false) (hpeer : s.slotParcel p = s.peerSlot q j)
    (h : ∀ x, s.peerSheet q = some x → x.parcels ≠ [] ∧ s.tm.tick < x.arrived + j + 4) :
    assocGet (s.slotFill p).lnk.out p 0 = 0 ∧ (s.slotFill p).fld LNK_DEADLETTER_COUNT_PARCELS =
      (s.fld LNK_DEADLETTER_COUNT_PARCELS + 1) % 2 ^ LNK_DEADLETTER_COUNT_PARCELS.len := by
  obtain ⟨epoch, unit, w2, hdead⟩ := State.peerSlot_dead h
  obtain ⟨hpar, _, _, hcount⟩ := State.slotFill_sends hup hslot hlit (hpeer.trans hdead)
  exact ⟨hpar, hcount.trans (State.deadParcel_count ..)⟩

/-- The slot of one port is no matter of another's (R294). -/
theorem State.slotFill_other {s : State} {p q : Nat} (hup : s.isUp p = true) (hslot : isSheet s.tm.hpm = false)
    (hlit : s.portDark p = false) (hq : q ≠ p) :
    assocGet (s.slotFill p).lnk.out q 0 = assocGet s.lnk.out q 0 ∧
      assocGet (s.slotFill p).lnk.line q [] = assocGet s.lnk.line q [] := by
  have hlnk : sameButQueues (s.slotParcel p).2.lnk s.lnk := s.slotParcel_lnk p
  rw [State.slotFill_of_lit hup hslot hlit, State.sendPort_out, if_neg hq.symm,
    State.sendPort_line_other _ _ _ hq.symm, hlnk]
  exact ⟨rfl, rfl⟩

/-- Settles O39: the deadline adds to the blocks on the host die, slot 0 sends the fields of a cover, and each later
slot is one equation of slotParcel. -/
theorem streamDeadlineCoversAndSlots : Obligations.StreamDeadlineCoversAndSlots := by
  refine ⟨fun s hclk => ?deadline, fun d c r hc hr => ?block, fun s hclk => ?covers, fun s p hclk => ?slots⟩
  case deadline =>
    rw [execSheetDeadline_of_clk hclk]
    refine ⟨fun hunl => congrArg Host.Outcome.next (State.sheetDeadline_unloaded hunl), fun hl => ?_⟩
    refine ⟨_, rfl, s.sheetDeadline_keeps, ?_⟩
    rw [State.sheetDeadline_loaded hl]
    exact ⟨rfl, rfl⟩
  case block =>
    obtain ⟨hdec, hcol, hflags, hatt⟩ := lostBlock_head d hc
    exact ⟨hdec, hcol, hflags, hatt, lostBlock_reading d c hr⟩
  case covers =>
    rw [execCoverParcel_of_clk hclk]
    refine ⟨fun hoff => congrArg Host.Outcome.next ?_, fun hsheet => ?_⟩
    · simp [State.covers, hoff]
    · refine ⟨_, rfl, s.covers_keeps, fun p hp hup hlit w hw => ?_, fun p _ hother => ?_, State.covers_replies hsheet,
        fun hstr => ?_⟩
      · exact s.covers.bitsOf_coverFields _ _ _ hp (hw.trans (State.covers_out_toNat hsheet hp hup hlit))
      · rw [State.covers_out hsheet, if_neg]
        rintro ⟨_, hup, hlit⟩
        simp [hup, hlit] at hother
      · rw [(State.covers_keeps_streamPlan hsheet).str (by decide +kernel)]
        exact State.streamPlan_off hstr
  case slots =>
    rw [execSlotFill_of_clk p hclk]
    refine ⟨fun hnot => congrArg Host.Outcome.next (State.slotFill_of_not hnot), fun hup hslot hlit => ?_⟩
    refine ⟨_, rfl, s.slotFill_keeps p.val, fun q _ hq => State.slotFill_other hup hslot hlit hq, ?_⟩
    rintro k kind par rfl rfl rfl
    have sends {par : Parcel} {u : State} (h : s.slotParcel p.val = (par, u)) :=
      State.slotFill_sends hup hslot hlit h
    refine ⟨fun hidle => ?idle, fun hret => ⟨fun hkind => ?stream, fun hkind hdown => ?failed, fun hlane =>
      ⟨fun hkind => ⟨fun d hd hhere => ?due, fun hd => ?notDue⟩,
        fun hkind => ⟨fun hq => ?hkNone, fun a hq => ?hkOne, fun a b l hq => ?hkTwo⟩,
        fun hkind => ⟨fun hq => ?stNone, fun x hx => ?fault, fun x l hq hall => ?status⟩⟩,
      fun hkind q j hqj hj => ?peer⟩⟩
    case idle =>
      obtain ⟨hpar, hhk, hst, _⟩ := sends (hidle.elim State.slotParcel_retired State.slotParcel_idle)
      exact ⟨hpar, hhk, hst⟩
    case stream => exact (sends (State.slotParcel_stream hret hkind)).1
    case failed =>
      obtain ⟨hpar, hhk, hst, _⟩ := sends (State.slotParcel_failed hret hkind hdown)
      exact ⟨hpar, hhk, hst⟩
    case due => rw [(sends (State.slotParcel_due hret hkind hlane)).1, State.dueParcel_here hd hhere]
    case notDue => rw [(sends (State.slotParcel_due hret hkind hlane)).1, State.dueParcel_none hd]
    case hkNone =>
      obtain ⟨hpar, hhk, _⟩ := sends ((State.slotParcel_hk hret hkind hlane).trans (State.hkSlot_nil hq))
      exact ⟨hpar, hhk⟩
    case hkOne =>
      obtain ⟨hpar, hhk, _⟩ := sends ((State.slotParcel_hk hret hkind hlane).trans (State.hkSlot_one hq))
      exact ⟨hpar, hhk⟩
    case hkTwo =>
      obtain ⟨hpar, hhk, _⟩ := sends ((State.slotParcel_hk hret hkind hlane).trans (State.hkSlot_two hq))
      exact ⟨hpar, hhk⟩
    case stNone =>
      obtain ⟨hpar, _, hst, _⟩ := sends ((State.slotParcel_st hret hkind hlane).trans (State.stSlot_nil hq))
      exact ⟨hpar, hst⟩
    case fault =>
      obtain ⟨hpar, _, hst, _⟩ := sends ((State.slotParcel_st hret hkind hlane).trans (State.stSlot_fault hx))
      exact ⟨hpar, hst⟩
    case status =>
      obtain ⟨hpar, _, hst, _⟩ := sends ((State.slotParcel_st hret hkind hlane).trans (State.stSlot_status hq hall))
      exact ⟨hpar, hst⟩
    case peer =>
      subst hqj hj
      have hpeer := State.slotParcel_peer hret hkind
      refine ⟨fun x hx => ⟨fun hne ht => ?_, fun hne ht => ?_, fun hnil => ?_⟩, fun hx => ?_⟩
      · exact (sends (hpeer.trans (State.peerSlot_inTime hx hne ht))).1
      · refine State.slotFill_peer_dead hup hslot hlit hpeer fun y hy => ?_
        obtain rfl : x = y := Option.some.inj (hx.symm.trans hy)
        exact ⟨hne, ht⟩
      · exact (sends (hpeer.trans (State.peerSlot_refused hx hnil))).1
      · refine State.slotFill_peer_dead hup hslot hlit hpeer fun y hy => ?_
        cases hx.symm.trans hy

end Sys2Proof.Machine

/-!
The launch queues (R49, R50, R52): how Table 02-2 decides a launched write, and what arming and flushing do.
-/
namespace Sys2Proof.Machine

set_option Elab.async false

/-! ### The queue of a die -/

@[simp] theorem State.queue_setQueue (s : State) (d : Die) (q : List LEntry) : (s.setQueue d q).queue d = q := by
  cases d <;> rfl

@[simp] theorem State.queue_count (s : State) (f : Fld) (n : Nat) (d : Die) : (s.count f n).queue d = s.queue d := by
  cases d <;> rfl

/-- An operation that leaves both queues alone leaves the queue of a die alone. -/
theorem Keeps.queue {M : Nat} {s t : State} (h : Keeps M s t) (hhost : M.testBit 0x2045 = false)
    (hfield : M.testBit 0x2046 = false) (d : Die) : t.queue d = s.queue d := by
  cases d
  · exact h.hostQ hhost
  · exact h.fieldQ hfield

/-! ### The decision of a launched write (R49) -/

/-- A bit of a word as the rules number it. -/
theorem bitOf_toNat {n : Nat} (v : BitVec n) (j : Nat) : bitOf v.toNat j = v.getLsbD j := by
  rw [BitVec.getLsbD, Nat.testBit_eq_decide_div_mod_eq]
  rfl

/-- A write that is no SET of LNK_EPOCH is decided by Table 02-2 alone (R49, R300). -/
theorem State.launchWrite_of_not_epochSet {s : State} {e : LEntry} (d : Die)
    (h : e.idx ≠ LNK_EPOCH ∨ e.val.getLsbD 31 = false) {code : Nat}
    (hcode : s.launchCode d e.pm (s.wrAlign e.idx e.val e.wa) = code) :
    s.launchWrite d e = if code = 0 then (0, s.enqueue d e) else (code, s.launchRaise e.master e.idx code) := by
  have hset : ¬ (e.idx = LNK_EPOCH ∧ e.val.getLsbD 31 = true) := by
    rintro ⟨hidx, hbit⟩
    exact h.elim (· hidx) (fun hclear => Bool.false_ne_true (hclear.symm.trans hbit))
  unfold State.launchWrite
  simp only [hcode, bitOf_toNat, ← and_assoc (a := e.idx = LNK_EPOCH), hset, false_and, and_false, if_false]

/-- The codes of Table 02-2 in their order (R49). -/
theorem State.launchCode_eq (s : State) (d : Die) (pm : PM) (align : Nat) :
    s.launchCode d pm align =
      if s.bit TIM_STATUS_PM_VALID = false then 5
      else if pm.toNat % align ≠ 0 then 4
      else if (pm - s.pmOf d).toNat = 0 ∨ 2 ^ 47 ≤ (pm - s.pmOf d).toNat then 1
      else if 2 ^ 40 < (pm - s.pmOf d).toNat then 2
      else if 64 ≤ (s.queue d).length then 3 else 0 := by
  unfold State.launchCode
  cases s.bit TIM_STATUS_PM_VALID <;> rfl

/-- A rejected launch leaves both queues as they were. -/
theorem State.launchRaise_queue (s : State) (m : Master) (i code : Nat) (d : Die) :
    (s.launchRaise m i code).queue d = s.queue d :=
  (s.launchRaise_keeps m i code).queue (by decide +kernel) (by decide +kernel) d

/-- A queued entry is the last of its queue (R49). -/
theorem State.enqueue_queue (s : State) (d : Die) (e : LEntry) : (s.enqueue d e).queue d = s.queue d ++ [e] :=
  s.queue_setQueue d _

/-- Settles O20: the decision is launchCode, and each of its two outcomes is one operation on the queues. -/
theorem launchAcceptanceFollowsTheTable : Obligations.LaunchAcceptanceFollowsTheTable := by
  intro s d e hset dist code
  have hcode : s.launchCode d e.pm (s.wrAlign e.idx e.val e.wa) = code := s.launchCode_eq d e.pm _
  rw [State.launchWrite_of_not_epochSet d hset hcode]
  by_cases h : code = 0
  · rw [if_pos h]
    refine ⟨h.symm, fun _ => s.enqueue_queue d e, fun hne => absurd h hne, ?_, ?_⟩
    all_goals
      rintro rfl
      rfl
  · rw [if_neg h]
    refine ⟨rfl, fun h0 => absurd h0 h, fun _ => s.launchRaise_queue _ _ _ d, fun _ => ?_, fun _ => ?_⟩
    · exact s.launchRaise_queue _ _ _ .field
    · exact s.launchRaise_queue _ _ _ .host

/-! ### TIM_LAUNCH_ARM -/

/-- A store of RW bits, bit by bit (R13). -/
theorem State.storeRw_bit (s : State) (i : Nat) (v : Word) {j : Nat} (hj : j < 32) :
    ((s.storeRw i v).reg i).getLsbD j =
      if (maskOf i (fun r => r.rw)).testBit j then v.getLsbD j else (s.reg i).getLsbD j := by
  simp only [State.storeRw_eq, State.reg_setReg, if_true, BitVec.getLsbD_or, BitVec.getLsbD_and, BitVec.getLsbD_not,
    BitVec.getLsbD_ofNat, decide_eq_true hj, Bool.true_and]
  cases (maskOf i (fun r => r.rw)).testBit j <;> simp

/-- A field of one bit is that bit of its register. -/
theorem State.bit_eq_getLsbD (s : State) {f : Fld} (h : f.len = 1) : s.bit f = (s.reg f.reg).getLsbD f.lo := by
  rw [← bitOf_toNat, State.bit, State.fld, fldGet, h]
  rfl

/-- An RW bit of a register takes the bit of the value that is stored. -/
theorem State.storeRw_field (s : State) {f : Fld} {i : Nat} (v : Word) (hreg : f.reg = i) (h : f.len = 1)
    (hlo : f.lo < 32) (hrw : (maskOf i (fun r => r.rw)).testBit f.lo = true) :
    (s.storeRw i v).bit f = v.getLsbD f.lo := by
  rw [State.bit_eq_getLsbD _ h, hreg, State.storeRw_bit _ _ _ hlo, if_pos hrw]

/-- What TIM_LAUNCH_ARM writes: ARM, and BURST where it is asked for (Table 02-10). -/
def armWord (burst : Bool) : Word := BitVec.ofNat 32 (if burst then 3 else 1)

theorem execTimLaunchArm_of_clk {s : State} (burst : Bool) (hclk : s.tm.clk = true) :
    exec (.timLaunchArm burst) s = .next (s.storeRw TIM_LAUNCH_ACTION (armWord burst)) := by
  show Host.Outcome.next _ = _
  cases burst <;> simp [State.onTick, hclk, State.launchAction, armWord, bitOf]

/-! ### TIM_LAUNCH_FLUSH -/

/-- A launch entry that the management port queued through ARM (R52). -/
def isArmed (e : LEntry) : Bool := e.kind == .armed

/-- The entries of a die's queue that meet a test leave it (R50). -/
def State.entriesLeave (s : State) (d : Die) (p : LEntry → Bool) : State :=
  forEach ((s.queue d).filter p) (fun t e => t.leftQueue e) (s.setQueue d ((s.queue d).filter (fun e => !p e)))

/-- That entries leave marks the ends of the engines' waits. -/
theorem State.entriesLeave_keeps_setQueue (s : State) (d : Die) (p : LEntry → Bool) :
    Keeps (foot [.cou, .bru]) (s.setQueue d ((s.queue d).filter (fun e => !p e))) (s.entriesLeave d p) :=
  Keeps.forEach _ _ (fun t e h => h.trans (t.leftQueue_keeps e)) (Keeps.refl ..)

theorem State.entriesLeave_keeps (s : State) (d : Die) (p : LEntry → Bool) :
    Keeps (foot [.hostQ, .fieldQ, .cou, .bru]) s (s.entriesLeave d p) :=
  (s.entriesLeave_keeps_setQueue d p).step (by decide +kernel) ((s.setQueue_keeps d _).mono (by decide +kernel))

theorem State.entriesLeave_queue (s : State) (d : Die) (p : LEntry → Bool) (c : Die) :
    (s.entriesLeave d p).queue c = (s.setQueue d ((s.queue d).filter (fun e => !p e))).queue c :=
  (s.entriesLeave_keeps_setQueue d p).queue (by decide +kernel) (by decide +kernel) c

/-- No armed entry is of another kind. -/
theorem any_kind_filter_isArmed (q : List LEntry) {k : LKind} (hk : k ≠ .armed) :
    (q.filter isArmed).any (fun e => e.kind == k) = false := by
  simp only [List.any_eq_false, List.mem_filter, isArmed, beq_iff_eq]
  rintro e ⟨-, he⟩ rfl
  exact hk he

/-- A flush of the armed entries of a queue takes them off and counts them; a bank swap or a table switch is none of
them (R50). -/
theorem State.flushQueue_isArmed (s : State) (d : Die) :
    s.flushQueue d isArmed =
      (s.entriesLeave d isArmed).count TIM_LAUNCH_STATUS_REJECT_COUNT ((s.queue d).filter isArmed).length := by
  have hall : ((s.queue d).filter isArmed).filter (fun e => e.kind == LKind.armed) = (s.queue d).filter isArmed :=
    List.filter_eq_self.2 fun _ he => (List.mem_filter.1 he).2
  unfold State.flushQueue
  simp only [hall, any_kind_filter_isArmed _ (k := .bankSwap) (by decide),
    any_kind_filter_isArmed _ (k := .schedSwitch) (by decide), Bool.and_false, Bool.false_eq_true, if_false]
  rfl

/-- A counter that saturates counts two runs as it counts both at once. -/
theorem min_add_min_add (a m n top : Nat) : min (min (a + m) top + n) top = min (a + m + n) top := by omega

/-- A flush of the armed entries counts them all, and changes beside the count only what entries do that leave. -/
theorem State.flushQueue_isArmed_keeps (s : State) (d : Die) :
    Keeps (foot [.reg TIM_LAUNCH_STATUS, .hostQ, .fieldQ, .cou, .bru]) s (s.flushQueue d isArmed) := by
  rw [s.flushQueue_isArmed d]
  exact (State.count_keeps _ _ _).step (by decide +kernel) ((s.entriesLeave_keeps d _).mono (by decide +kernel))

theorem State.flushQueue_isArmed_queue (s : State) (d c : Die) :
    (s.flushQueue d isArmed).queue c = (s.setQueue d ((s.queue d).filter (fun e => !isArmed e))).queue c := by
  rw [s.flushQueue_isArmed d, State.queue_count, s.entriesLeave_queue d isArmed c]

theorem State.flushQueue_isArmed_count (s : State) (d : Die) :
    (s.flushQueue d isArmed).fld TIM_LAUNCH_STATUS_REJECT_COUNT =
      min (s.fld TIM_LAUNCH_STATUS_REJECT_COUNT + ((s.queue d).filter isArmed).length)
        (2 ^ TIM_LAUNCH_STATUS_REJECT_COUNT.len - 1) := by
  rw [s.flushQueue_isArmed d, State.fld_count_same _ _ (by decide),
    (s.entriesLeave_keeps d isArmed).fld (by decide +kernel)]

/-- The flush of both queues, one after the other. -/
theorem State.flushArmed_eq (s : State) : s.flushArmed = (s.flushQueue .host isArmed).flushQueue .field isArmed := (rfl)

theorem State.flushArmed_keeps_rest (s : State) :
    Keeps (foot [.reg TIM_LAUNCH_STATUS, .hostQ, .fieldQ, .cou, .bru]) s s.flushArmed :=
  (s.flushQueue_isArmed_keeps .host).trans (State.flushQueue_isArmed_keeps _ .field)

theorem State.flushArmed_hostQ (s : State) : s.flushArmed.hostQ = s.hostQ.filter (fun e => !isArmed e) :=
  (State.flushQueue_isArmed_queue _ .field .host).trans (s.flushQueue_isArmed_queue .host .host)

theorem State.flushArmed_fieldQ (s : State) : s.flushArmed.fieldQ = s.fieldQ.filter (fun e => !isArmed e) :=
  (State.flushQueue_isArmed_queue _ .field .field).trans
    (congrArg (List.filter _) (s.flushQueue_isArmed_queue .host .field))

theorem State.flushArmed_count (s : State) :
    s.flushArmed.fld TIM_LAUNCH_STATUS_REJECT_COUNT =
      min (s.fld TIM_LAUNCH_STATUS_REJECT_COUNT + (s.hostQ.filter isArmed).length + (s.fieldQ.filter isArmed).length)
        (2 ^ TIM_LAUNCH_STATUS_REJECT_COUNT.len - 1) := by
  have hfield : (s.flushQueue .host isArmed).queue .field = s.fieldQ := s.flushQueue_isArmed_queue .host .field
  rw [s.flushArmed_eq, State.flushQueue_isArmed_count, s.flushQueue_isArmed_count, hfield]
  exact min_add_min_add ..

theorem execTimLaunchFlush_of_clk {s : State} (hclk : s.tm.clk = true) : exec .timLaunchFlush s = .next s.flushArmed :=
  congrArg Host.Outcome.next (if_pos hclk)

/-- Settles O22: arming stores the RW bits of one register; a flush takes the armed entries off one queue after the
other and counts each run of them. -/
theorem launchArmAndFlush : Obligations.LaunchArmAndFlush := by
  refine ⟨fun s burst hclk => ?arm, fun s hclk => ?flush⟩
  case arm =>
    refine ⟨_, execTimLaunchArm_of_clk burst hclk, s.setReg_keeps_reg .., ?_, ?_⟩
    · refine (s.storeRw_field _ rfl rfl (by decide) (by decide)).trans ?_
      cases burst <;> rfl
    · refine (s.storeRw_field _ rfl rfl (by decide) (by decide)).trans ?_
      cases burst <;> rfl
  case flush =>
    have hkeeps := s.flushArmed_keeps_rest
    refine ⟨_, execTimLaunchFlush_of_clk hclk, s.flushArmed_keeps, s.flushArmed_hostQ, s.flushArmed_fieldQ, ?_, ?_,
      s.flushArmed_count⟩
    · exact congrArg (· == 1) (hkeeps.fld (by decide +kernel))
    · exact congrArg (· == 1) (hkeeps.fld (by decide +kernel))

end Sys2Proof.Machine

/-!
The tick clock (R36, R37, R39): its release, its loss and its return, and the blocks that are received without it.
-/
namespace Sys2Proof.Machine

set_option Elab.async false

/-! ### Blocks without the clock (R36, R284) -/

/-- The descrambler's register replaced. -/
def State.withDescr (s : State) (d : BitVec 58) : State := { s with tm := { s.tm with descr := d } }

/-- The run of good blocks replaced. -/
def State.withGoodRun (s : State) (n : Nat) : State := { s with tm := { s.tm with goodRun := n } }

@[simp] theorem State.withDescr_clk (s : State) (d : BitVec 58) : (s.withDescr d).tm.clk = s.tm.clk := (rfl)
@[simp] theorem State.withDescr_goodRun (s : State) (d : BitVec 58) : (s.withDescr d).tm.goodRun = s.tm.goodRun := (rfl)

theorem State.downBlock_eq (s : State) (h : BitVec 2) (l : BitVec 64) :
    s.downBlock h l =
      if (s.withDescr (descramble s.tm.descr l).1).tm.clk then
        (s.withDescr (descramble s.tm.descr l).1).blockLive h.toNat (descramble s.tm.descr l).2.toNat
      else (s.withDescr (descramble s.tm.descr l).1).withGoodRun
        (if h == 1 && blockFrankOk (descramble s.tm.descr l).2.toNat then
          min ((s.withDescr (descramble s.tm.descr l).1).tm.goodRun + 1) 64 else 0) := (rfl)

/-- Without the clock a block moves the descrambler on and counts towards lock. -/
theorem State.downBlock_of_not_clk {s : State} (hclk : s.tm.clk = false) (h : BitVec 2) (l : BitVec 64) :
    s.downBlock h l = (s.withDescr (descramble s.tm.descr l).1).withGoodRun
      (if h = 1 ∧ blockFrankOk (descramble s.tm.descr l).2.toNat = true then min (s.tm.goodRun + 1) 64 else 0) := by
  simp only [State.downBlock_eq, State.withDescr_clk, hclk, State.withDescr_goodRun, Bool.false_eq_true, if_false,
    Bool.and_eq_true, beq_iff_eq]

/-- What counting a block changes, whatever the two values are. -/
theorem State.withDescr_withGoodRun (s : State) (d : BitVec 58) (n : Nat) :
    ((s.withDescr d).withGoodRun n).tm.goodRun = n ∧ ((s.withDescr d).withGoodRun n).tm.descr = d ∧
      (s.withDescr d).withGoodRun n = { s with tm := ((s.withDescr d).withGoodRun n).tm } ∧
      ((s.withDescr d).withGoodRun n).tm.hpm = s.tm.hpm ∧ ((s.withDescr d).withGoodRun n).tm.fast = s.tm.fast :=
  ⟨rfl, rfl, rfl, rfl, rfl⟩

theorem execIdle_eq (s : State) : exec .idle s = .next s :=
  congrArg Host.Outcome.next (ite_self s)

/-- Settles O10: without the clock a block only counts, and code 0 is no fast command. -/
theorem downlinkBlockCountsTowardsLock : Obligations.DownlinkBlockCountsTowardsLock :=
  ⟨fun s h l hclk => ⟨_, congrArg Host.Outcome.next (State.downBlock_of_not_clk hclk h l),
    s.withDescr_withGoodRun _ _⟩, execIdle_eq⟩

/-! ### Loss of lock (R37) -/

/-- The quiet window when the clock stops: an open one closes, a pending one is an empty one (R55). -/
def State.windowLost (s : State) : State :=
  match s.gap with
  | some w => if w.isOpen then s.gapCloses (sheetOf s.tm.hpm) else ({ s with gap := none }).inc TIM_GAP_COUNT_EMPTY
  | none => s

/-- The device when the clock stops, before what is under way is dropped: no window, calibration cut short, and the
sticky reason set (R37, R55, R222). -/
def State.lockEnds (s : State) : State := (s.windowLost.calCut.calDiscard).sticky 3

/-- With the clock running its loss ends the window and calibration, and then drops what is under way. -/
theorem State.lockLost_of_clk {s : State} (hclk : s.tm.clk = true) :
    s.lockLost = { s.lockEnds with
      tm := { s.lockEnds.tm with clk := false, goodRun := 0, hdrBad := 0, fast := [], fieldFast := [], pmFirst := none,
                                 pmSet := none, rename := none },
      bar := { s.lockEnds.bar with
        txH := s.lockEnds.bar.txH.filter (fun d => !carriesFast d.typ d.len.toNat),
        flights := s.lockEnds.bar.flights.filter (fun f => f.toHost || !carriesFast f.env.typ f.env.len.toNat) },
      pin := { s.lockEnds.pin with
        commanded := s.lockEnds.pin.commanded || s.tm.fast.any (fun f => f.code == 0xE0) } } := by
  unfold State.lockLost
  rw [hclk]
  rfl

theorem State.lockLost_of_not_clk {s : State} (hclk : s.tm.clk = false) : s.lockLost = s := by
  simp [State.lockLost, hclk]

theorem State.gapCloses_gap {s : State} (b : PM) : (s.gapCloses b).gap = none := by
  unfold State.gapCloses
  split
  next w _ =>
    extract_lets n s1 s2
    have hs2 : s2.gap = none := by
      unfold s2
      split <;> rfl
    exact (((State.note_keeps _ _ _).trans (State.note_keeps _ _ _)).gap (by decide +kernel)).trans hs2
  next h => exact h

theorem State.windowLost_gap (s : State) : s.windowLost.gap = none := by
  unfold State.windowLost
  split
  next w _ =>
    split
    · exact State.gapCloses_gap _
    · rfl
  next h => exact h

theorem State.windowLost_keeps (s : State) :
    Keeps (foot [.reg TIM_GAP_STATUS, .reg TIM_GAP_COUNT, .gap, .cou, .bru]) s s.windowLost := by
  have hdrop : Keeps (foot [.gap]) s { s with gap := none } := Keeps.upd (Keeps.refl ..)
  unfold State.windowLost
  split
  · split
    · exact s.gapCloses_keeps _
    · exact (State.inc_keeps _ _).step (by decide +kernel) (hdrop.mono (by decide +kernel))
  · exact Keeps.refl ..

/-- What happens after the window is lost leaves the gap, the clock and the pins alone. -/
theorem State.lockEnds_keeps_windowLost (s : State) :
    Keeps (foot [.reg GLB_DETERMINISM, .reg LNK_DEADLETTER_COUNT, .reg (ENG_STATUS 0x600), .reg CAL_STATUS,
      .reg CAL_DEFER_COUNT, .reg (ENG_STATUS 0x1B00), .flt, .win .lnk, .win .nul, .win .cal, .recTick, .bar, .faults,
      .cou, .bru, .col, .nul, .lnk, .cal, .free, .srcs]) s.windowLost s.lockEnds :=
  (State.sticky_keeps _ 3).step (by decide +kernel) <|
    (State.calDiscard_keeps _).step (by decide +kernel) s.windowLost.calCut_keeps

theorem State.lockEnds_gap (s : State) : s.lockEnds.gap = none :=
  (s.lockEnds_keeps_windowLost.gap (by decide +kernel)).trans s.windowLost_gap

theorem State.lockEnds_tm (s : State) : s.lockEnds.tm = s.tm :=
  (s.lockEnds_keeps_windowLost.tm (by decide +kernel)).trans (s.windowLost_keeps.tm (by decide +kernel))

theorem State.lockEnds_pin (s : State) : s.lockEnds.pin = s.pin :=
  (s.lockEnds_keeps_windowLost.pin (by decide +kernel)).trans (s.windowLost_keeps.pin (by decide +kernel))

/-- Calibration has dropped its results (R222). -/
theorem State.lockEnds_pend (s : State) : s.lockEnds.cal.pend = [] :=
  congrArg CalSt.pend ((State.sticky_keeps _ 3).cal (by decide +kernel))

/-- A reason that occurs is among the sticky ones (R8). -/
theorem State.sticky_bit (s : State) {code : Nat} (h : code < 8) :
    (s.sticky code).fld GLB_DETERMINISM_STICKY / 2 ^ code % 2 = 1 := by
  have hfld : (s.sticky code).fld GLB_DETERMINISM_STICKY = (s.fld GLB_DETERMINISM_STICKY ||| 2 ^ code) % 2 ^ 8 := by
    have hset := s.fld_setFld_same GLB_DETERMINISM_STICKY (s.fld GLB_DETERMINISM_STICKY ||| 2 ^ code) (by decide)
    have hreason (t : State) (v : Nat) :
        (t.setFld GLB_DETERMINISM_REASON v).fld GLB_DETERMINISM_STICKY = t.fld GLB_DETERMINISM_STICKY :=
      t.fld_setFld_other v (by decide) (by decide)
    unfold State.sticky
    extract_lets old show_ s1 s2
    have hs2 : s2.fld GLB_DETERMINISM_STICKY = s1.fld GLB_DETERMINISM_STICKY := by
      unfold s2
      split
      · exact hreason s1 code
      · rfl
    split
    · exact hs2.trans hset
    · exact hs2.trans hset
  have hbit : ((s.fld GLB_DETERMINISM_STICKY ||| 2 ^ code) % 2 ^ 8).testBit code = true := by
    rw [Nat.testBit_mod_two_pow, Nat.testBit_or, Nat.testBit_two_pow_self]
    simp [h]
  rw [hfld]
  simpa [Nat.testBit_eq_decide_div_mod_eq] using hbit

/-- With the clock running its loss leaves of the clock's own state what is not under way. -/
theorem State.lockLost_tm {s : State} (hclk : s.tm.clk = true) :
    s.lockLost.tm = { s.tm with clk := false, goodRun := 0, hdrBad := 0, fast := [], fieldFast := [], pmFirst := none,
                                pmSet := none, rename := none } := by
  rw [State.lockLost_of_clk hclk, ← s.lockEnds_tm]

theorem State.lockLost_commanded {s : State} (hclk : s.tm.clk = true) :
    s.lockLost.pin.commanded = (s.pin.commanded || s.tm.fast.any (fun f => f.code == 0xE0)) := by
  rw [State.lockLost_of_clk hclk, ← s.lockEnds_pin]

/-- Settles O9: what the clock's loss ends is ended before what is under way is dropped. -/
theorem lossOfLockStopsTheClock : Obligations.LossOfLockStopsTheClock := by
  refine ⟨fun s hclk => congrArg Host.Outcome.next (State.lockLost_of_not_clk hclk), fun s hclk => ?_⟩
  have htm := State.lockLost_tm hclk
  have hends := State.lockLost_of_clk hclk
  refine ⟨_, rfl, s.lockLost_keeps, congrArg TimeSt.clk htm, congrArg TimeSt.fast htm, congrArg TimeSt.fieldFast htm,
    congrArg TimeSt.pmSet htm, (congrArg TimeSt.hpm htm).trans rfl, ?_, ?_, s.lockLost_keeps.fld (by decide +kernel),
    ?_, State.lockLost_commanded hclk⟩
  · exact (congrArg State.gap hends).trans s.lockEnds_gap
  · exact (congrArg (fun t => t.cal.pend) hends).trans s.lockEnds_pend
  · exact (congrArg (fun t => t.fld GLB_DETERMINISM_STICKY / 2 ^ 3 % 2) hends).trans
      (State.sticky_bit _ (by decide))

/-! ### A step without a command (R37, R40) -/

theorem step_of_pending_nil {s : State} (h : s.pending = []) : step s = .next s.tickStep := by
  rw [step, h]

/-- Settles O2: the step is tickStep, one case each of its definition. -/
theorem idleStepIsOneTick : Obligations.IdleStepIsOneTick := by
  intro s hq
  refine ⟨_, step_of_pending_nil hq, s.tickStep_keeps.pending.trans hq, fun hclk => ?_, fun hclk hbad => ?_,
    fun hclk hgood => ?_⟩
  · simp [State.tickStep, hclk]
  · have hlost : s.tickStep = s.lockLost := by simp [State.tickStep, hclk, hbad]
    rw [hlost, State.lockLost_tm hclk]
    exact ⟨rfl, rfl⟩
  · simp [State.tickStep, hclk, Nat.not_le.2 hgood]

end Sys2Proof.Machine

/-!
The tick clock runs again (R36, R37, R39, R325): what its release and its return show in TIM_STATUS, TIM_TICK_PERIOD and
GLB_STATE.
-/
namespace Sys2Proof.Machine

set_option Elab.async false

/-! ### GLB_STATE -/

theorem State.setGlb_glb (s : State) (n : Nat) : (s.setGlb n).glb = n % 2 ^ GLB_STATE_STATE.len := by
  have hset : ((s.setFld GLB_STATE_STATE n).note .courier 0x0E).glb = n % 2 ^ GLB_STATE_STATE.len :=
    ((State.note_keeps _ _ _).fld (by decide +kernel)).trans (s.fld_setFld_same _ _ (by decide))
  have hlive (t : State) : (t.live 1).glb = t.glb :=
    (t.live_keeps 1).fld (by decide +kernel)
  unfold State.setGlb
  extract_lets s1
  split
  · exact hset
  · exact (hlive s1).trans hset

/-- NOCLOCK gives way to LOCKING (R325). -/
theorem State.seesLink_glb {s : State} (hclk : s.tm.clk = false) (hglb : s.glb = 0) : s.seesLink.glb = 1 := by
  have hlock (t : State) : (t.setBit LNK_DOWN_STATUS_BLOCK_LOCK false).glb = t.glb :=
    t.fld_setFld_other _ (by decide) (by decide)
  unfold State.seesLink
  rw [hclk, hglb]
  exact (hlock _).trans (s.fld_setFld_same _ _ (by decide))

/-! ### The clock runs (R36) -/

/-- The clock runs, before its signs are shown. -/
def State.withClock (s : State) : State := { s with tm := { s.tm with clk := true, hdrBad := 0 } }

@[simp] theorem State.withClock_fld (s : State) (f : Fld) : s.withClock.fld f = s.fld f := (rfl)

/-- The signs of lock in TIM_STATUS and LNK_DOWN_STATUS (Tables 02-4, 13-12). -/
def State.showsLock (s : State) : State :=
  (((s.setBit TIM_STATUS_LOCK true).setBit TIM_STATUS_BLOCK_SYNC true).setBit TIM_STATUS_FREQ_OK true).setBit
    LNK_DOWN_STATUS_BLOCK_LOCK true

/-- The period is measured and the postmark is not yet set. -/
def State.showsPeriod (s : State) (p : Nat) : State :=
  (s.setFld TIM_TICK_PERIOD_PERIOD_PS p).setBit TIM_STATUS_PM_VALID false

theorem State.clockOn_eq (s : State) (p : Nat) :
    s.clockOn p = (((s.withClock.showsLock).showsPeriod p).upLocks).setBit MGT_STATUS_CLK true := (rfl)

/-- After the period is shown the start of the clock touches only the ports' locks and MGT_STATUS. -/
theorem State.clockOn_keeps_showsPeriod (s : State) (p : Nat) :
    Keeps (foot [.reg MGT_STATUS, .regs 0x0308 4]) (s.withClock.showsLock.showsPeriod p) (s.clockOn p) := by
  rw [s.clockOn_eq p]
  exact (State.setBit_keeps _ _ _).step (by decide +kernel) ((State.upLocks_keeps _).mono (by decide +kernel))

theorem State.clockOn_tm (s : State) (p : Nat) : (s.clockOn p).tm = { s.tm with clk := true, hdrBad := 0 } :=
  (s.clockOn_keeps_showsPeriod p).tm (by decide +kernel)

theorem State.clockOn_pmValid (s : State) (p : Nat) : (s.clockOn p).bit TIM_STATUS_PM_VALID = false := by
  unfold State.bit
  rw [(s.clockOn_keeps_showsPeriod p).fld (by decide +kernel)]
  exact State.bit_setBit_same _ TIM_STATUS_PM_VALID false (by decide) rfl

theorem State.showsLock_lock (s : State) : s.showsLock.bit TIM_STATUS_LOCK = true := by
  unfold State.showsLock
  rw [State.bit_setBit_other _ _ (by decide) (by decide), State.bit_setBit_other _ _ (by decide) (by decide),
    State.bit_setBit_other _ _ (by decide) (by decide), State.bit_setBit_same _ _ _ (by decide) rfl]

theorem State.clockOn_lock (s : State) (p : Nat) : (s.clockOn p).bit TIM_STATUS_LOCK = true := by
  unfold State.bit
  rw [(s.clockOn_keeps_showsPeriod p).fld (by decide +kernel)]
  show (State.showsPeriod _ _).bit _ = true
  unfold State.showsPeriod
  rw [State.bit_setBit_other _ _ (by decide) (by decide), ← s.withClock.showsLock_lock]
  exact congrArg (· == 1) (State.fld_setFld_other _ _ (by decide) (by decide))

theorem State.clockOn_period (s : State) (p : BitVec 16) :
    (s.clockOn p.toNat).fld TIM_TICK_PERIOD_PERIOD_PS = p.toNat := by
  rw [(s.clockOn_keeps_showsPeriod _).fld (by decide +kernel), State.showsPeriod, State.setBit,
    State.fld_setFld_other _ _ (by decide) (by decide), State.fld_setFld_same _ _ _ (by decide)]
  exact Nat.mod_eq_of_lt p.isLt

/-- The count of lost locks is no sign of the clock. -/
theorem State.clockOn_lossCount (s : State) (p : Nat) :
    (s.clockOn p).fld TIM_STATUS_LOCK_LOSS_COUNT = s.fld TIM_STATUS_LOCK_LOSS_COUNT := by
  rw [(s.clockOn_keeps_showsPeriod _).fld (by decide +kernel), State.showsPeriod, State.showsLock]
  unfold State.setBit
  simp (disch := decide) only [State.fld_setFld_other, State.withClock_fld]

/-! ### Start-up (R36, R326) -/

/-- Both postmarks are 0. -/
def State.atZero (s : State) : State := { s with tm := { s.tm with hpm := 0, fpm := 0 } }

@[simp] theorem State.atZero_fld (s : State) (f : Fld) : s.atZero.fld f = s.fld f := (rfl)

theorem State.startUp_eq (s : State) (p : Nat) : s.startUp p = ((s.clockOn p).atZero.setGlb 2).setPhase .check := (rfl)

/-- Start-up shows in GLB_STATE; what else it changes is none of the clock's registers. -/
theorem State.startUp_keeps_atZero (s : State) (p : Nat) :
    Keeps (foot [.reg GLB_STATE, .reg GLB_DETERMINISM, .cou, .bru, .cfg]) (s.clockOn p).atZero (s.startUp p) :=
  (State.setPhase_keeps _ .check).step (by decide +kernel) ((State.setGlb_keeps _ 2).mono (by decide +kernel))

theorem State.startUp_tm (s : State) (p : Nat) :
    (s.startUp p).tm = { s.tm with clk := true, hdrBad := 0, hpm := 0, fpm := 0 } := by
  rw [(s.startUp_keeps_atZero p).tm (by decide +kernel), State.atZero, s.clockOn_tm p]

/-- A register other than those of start-up reads as the clock's start leaves it. -/
theorem State.startUp_fld (s : State) (p : Nat) {f : Fld}
    (hf : (foot [.reg GLB_STATE, .reg GLB_DETERMINISM, .cou, .bru, .cfg]).testBit (regPart f.reg) = false) :
    (s.startUp p).fld f = (s.clockOn p).fld f := ((s.startUp_keeps_atZero p).fld hf).trans (State.atZero_fld ..)

theorem State.startUp_glb (s : State) (p : Nat) : (s.startUp p).glb = 2 := by
  rw [s.startUp_eq p]
  exact ((State.setPhase_keeps _ .check).fld (by decide +kernel)).trans (State.setGlb_glb _ 2)

/-! ### READY, RUNNING and SAFE after relock (R39) -/

/-- After relock the device is in READY, or still in SAFE. -/
def State.readyOrSafe (s : State) : State := if s.glb = 4 then s else s.setGlb 6

/-- What relock does to the loops: they go on from their held amplitudes (R140). -/
def State.loopsGoOn (s : State) : State :=
  { s with cfg := { s.cfg with autoRun := false },
           nul := { s.nul with cnt := [], fin := [], sums := [], badBefore := max s.nul.badBefore (s.tm.tick + 8) } }

theorem State.readyOrSafe_keeps (s : State) :
    Keeps (foot [.reg GLB_STATE, .reg GLB_DETERMINISM, .cou, .bru]) s s.readyOrSafe :=
  Keeps.ite (Keeps.refl ..) (s.setGlb_keeps 6)

theorem State.readyOrSafe_glb (s : State) : s.readyOrSafe.glb = if s.glb = 4 then 4 else 6 := by
  unfold State.readyOrSafe
  split
  next h => exact h
  next => exact s.setGlb_glb 6

theorem State.loopsGoOn_keeps (s : State) : Keeps (foot [.cfg, .nul]) s s.loopsGoOn := 
  Keeps.setAutoRun _ _ (by decide +kernel) (by decide +kernel) (Keeps.refl ..)

/-- A register's field is no matter of the barrier. -/
theorem State.fld_withBar (s : State) (b : BarSt) (f : Fld) : { s with bar := b }.fld f = s.fld f := (rfl)

/-- Of TIM_STATUS training changes FIELD_ALIGNED alone. -/
theorem State.trainBegin_pmValid (s : State) (n : Nat) :
    (s.trainBegin n).fld TIM_STATUS_PM_VALID = s.fld TIM_STATUS_PM_VALID := by
  unfold State.trainBegin State.untrained State.setBit
  simp (disch := decide) only [State.fld_withBar, State.fld_setFld_other]

theorem State.trainBegin_lossCount (s : State) (n : Nat) :
    (s.trainBegin n).fld TIM_STATUS_LOCK_LOSS_COUNT = s.fld TIM_STATUS_LOCK_LOSS_COUNT := by
  unfold State.trainBegin State.untrained State.setBit
  simp (disch := decide) only [State.fld_withBar, State.fld_setFld_other]

/-- The launches that relock drops are no matter of the clock's registers or of GLB_STATE. -/
theorem State.relockDrops_keeps (s : State) :
    Keeps (foot [.reg TIM_LAUNCH_STATUS, .reg LNK_SCHED_SEL, .reg PAL_STATUS, .hostQ, .fieldQ, .cou, .bru, .mgt,
      .reg PWR_STATE, .pwr]) s s.flushAll.pwrDrop :=
  (State.pwrDrop_keeps _).step (by decide +kernel) (s.flushAll_keeps.mono (by decide +kernel))

/-- Between GLB_STATE and training, relock starts the loops and the converters. -/
def State.relockStarts (s : State) : State := (s.loopsGoOn.hkRestartAt .a 7).hkRestartAt .b 7

theorem State.relockStarts_keeps (s : State) :
    Keeps (foot [.reg (HKx_CTRL 0x1700), .reg (HKx_STATUS 0x1700), .reg (HKx_OVERRUN_COUNT 0x1700),
      .reg (HKx_CAL_STATUS 0x1700), .reg (HKx_CTRL 0x1800), .reg (HKx_STATUS 0x1800), .reg (HKx_OVERRUN_COUNT 0x1800),
      .reg (HKx_CAL_STATUS 0x1800), .reg HKS_EXC_STATUS, .cou, .bru, .hka, .hkb, .cfg, .nul]) s s.relockStarts :=
  (State.hkRestartAt_keeps _ .b 7).step (by decide +kernel) <|
    (State.hkRestartAt_keeps _ .a 7).step (by decide +kernel) (s.loopsGoOn_keeps.mono (by decide +kernel))

theorem State.relock_eq (s : State) (p : Nat) :
    s.relock p = (((s.clockOn p).flushAll.pwrDrop).readyOrSafe.relockStarts).trainBegin 1 := (rfl)

/-- TIM_STATUS and the clock before training begins are those of the clock's start. -/
theorem State.relockStarts_keeps_clockOn (s : State) (p : Nat) :
    Keeps (foot [.reg GLB_STATE, .reg GLB_DETERMINISM, .reg TIM_LAUNCH_STATUS, .reg LNK_SCHED_SEL, .reg PAL_STATUS,
      .hostQ, .fieldQ, .mgt, .reg PWR_STATE, .pwr, .reg (HKx_CTRL 0x1700), .reg (HKx_STATUS 0x1700),
      .reg (HKx_OVERRUN_COUNT 0x1700), .reg (HKx_CAL_STATUS 0x1700), .reg (HKx_CTRL 0x1800), .reg (HKx_STATUS 0x1800),
      .reg (HKx_OVERRUN_COUNT 0x1800), .reg (HKx_CAL_STATUS 0x1800), .reg HKS_EXC_STATUS, .cou, .bru, .hka, .hkb, .cfg,
      .nul]) (s.clockOn p) ((s.clockOn p).flushAll.pwrDrop).readyOrSafe.relockStarts :=
  (State.relockStarts_keeps _).step (by decide +kernel) <|
    (State.readyOrSafe_keeps _).step (by decide +kernel) ((State.relockDrops_keeps _).mono (by decide +kernel))

theorem State.relock_tm (s : State) (p : Nat) : (s.relock p).tm = { s.tm with clk := true, hdrBad := 0 } := by
  rw [s.relock_eq p, (State.trainBegin_keeps _ 1).tm (by decide +kernel),
    (s.relockStarts_keeps_clockOn p).tm (by decide +kernel), s.clockOn_tm p]

theorem State.relock_glb (s : State) (p : Nat) : (s.relock p).glb = if s.glb = 4 then 4 else 6 := by
  have hdrops : (s.clockOn p).flushAll.pwrDrop.glb = s.glb :=
    ((State.relockDrops_keeps _).fld (by decide +kernel)).trans ((s.clockOn_keeps p).fld (by decide +kernel))
  rw [s.relock_eq p, ← hdrops, ← State.readyOrSafe_glb]
  exact ((State.trainBegin_keeps _ 1).fld (by decide +kernel)).trans
    ((State.relockStarts_keeps _).fld (by decide +kernel))

theorem State.relock_pmValid (s : State) (p : Nat) : (s.relock p).bit TIM_STATUS_PM_VALID = false := by
  rw [← s.clockOn_pmValid p, s.relock_eq p, State.bit, State.trainBegin_pmValid,
    (s.relockStarts_keeps_clockOn p).fld (by decide +kernel), State.bit]

theorem State.relock_lossCount (s : State) (p : Nat) :
    (s.relock p).fld TIM_STATUS_LOCK_LOSS_COUNT = s.fld TIM_STATUS_LOCK_LOSS_COUNT := by
  rw [s.relock_eq p, State.trainBegin_lossCount, (s.relockStarts_keeps_clockOn p).fld (by decide +kernel),
    s.clockOn_lossCount p]

/-! ### The commands -/

/-- The conditions of R36, one by one. -/
theorem State.lockHolds_of {s : State} {p : BitVec 16} (hclk : s.tm.clk = false) (hglb : s.glb ≠ 0)
    (hrun : 64 ≤ s.tm.goodRun) (hlow : 19231 ≤ p.toNat) (hhigh : p.toNat ≤ 20833) : s.lockHolds p.toNat = true := by
  simp [State.lockHolds, periodOk, hclk, hglb, hrun, hlow, hhigh]

/-- The clock restarts by relock in SAFE, READY and RUNNING and by start-up in every other state (R39). -/
def State.restarts (s : State) (p : Nat) : State :=
  if s.glb = 4 ∨ s.glb = 6 ∨ s.glb = 7 then s.relock p else s.startUp p

/-- Either way the clock runs, the postmark is not set, and the count of lost locks stays. -/
theorem State.restarts_clock (s : State) (p : Nat) :
    (s.restarts p).tm.clk = true ∧ (s.restarts p).bit TIM_STATUS_PM_VALID = false ∧
      (s.restarts p).fld TIM_STATUS_LOCK_LOSS_COUNT = s.fld TIM_STATUS_LOCK_LOSS_COUNT := by
  unfold State.restarts
  split
  · exact ⟨congrArg TimeSt.clk (s.relock_tm p), s.relock_pmValid p, s.relock_lossCount p⟩
  · refine ⟨congrArg TimeSt.clk (s.startUp_tm p), ?_, ?_⟩
    · exact (congrArg (· == 1) (s.startUp_fld p (by decide +kernel))).trans (s.clockOn_pmValid p)
    · exact (s.startUp_fld p (by decide +kernel)).trans (s.clockOn_lossCount p)

theorem State.restarts_relock (s : State) (p : Nat) (h : s.glb = 4 ∨ s.glb = 6 ∨ s.glb = 7) :
    (s.restarts p).glb = (if s.glb = 4 then 4 else 6) ∧ (s.restarts p).tm.hpm = s.tm.hpm := by
  rw [State.restarts, if_pos h]
  exact ⟨s.relock_glb p, (congrArg TimeSt.hpm (s.relock_tm p)).trans rfl⟩

theorem State.restarts_startUp (s : State) (p : Nat) (h : ¬ (s.glb = 4 ∨ s.glb = 6 ∨ s.glb = 7)) :
    (s.restarts p).glb = 2 ∧ (s.restarts p).tm.hpm = 0 := by
  rw [State.restarts, if_neg h]
  exact ⟨s.startUp_glb p, congrArg TimeSt.hpm (s.startUp_tm p)⟩

/-- The state with one more loss of lock counted (R39). -/
def State.lossCounted (s : State) : State := s.inc TIM_STATUS_LOCK_LOSS_COUNT

@[simp] theorem State.lossCounted_tm (s : State) : s.lossCounted.tm = s.tm := s.inc_tm _

@[simp] theorem State.lossCounted_glb (s : State) : s.lossCounted.glb = s.glb :=
  s.fld_setFld_other _ (by decide) (by decide)

section
variable {s : State} {p : Nat} (hlock : s.lockHolds p = true) (hglb : 2 ≤ s.glb)
include hlock hglb

/-- A return of the clock is counted, and raised at the end. -/
theorem State.clockBack_eq : s.clockBack p = (s.lossCounted.restarts p).raise .tim 0 := by
  simp only [State.clockBack, hlock, hglb, decide_true, Bool.and_self, if_true]
  rfl

theorem State.clockBack_tm : (s.clockBack p).tm = (s.lossCounted.restarts p).tm := by
  rw [State.clockBack_eq hlock hglb]
  exact (State.raise_keeps _ .tim 0).tm (by decide +kernel)

/-- The raise at the end is no matter of TIM_STATUS or of GLB_STATE. -/
theorem State.clockBack_fld {f : Fld} (hf : f.reg = TIM_STATUS ∨ f.reg = GLB_STATE) :
    (s.clockBack p).fld f = (s.lossCounted.restarts p).fld f := by
  rw [State.clockBack_eq hlock hglb]
  refine (State.raise_keeps _ .tim 0).fld ?_
  rcases hf with hf | hf <;> rw [hf] <;> decide +kernel

/-- In SAFE, READY and RUNNING the postmark goes on, and the state is SAFE or READY. -/
theorem State.clockBack_relock (h : s.glb = 4 ∨ s.glb = 6 ∨ s.glb = 7) :
    (s.clockBack p).glb = (if s.glb = 4 then 4 else 6) ∧ (s.clockBack p).tm.hpm = s.tm.hpm := by
  obtain ⟨hstate, hpm⟩ := s.lossCounted.restarts_relock p (s.lossCounted_glb.symm ▸ h)
  rw [State.lossCounted_glb] at hstate
  rw [State.clockBack_tm hlock hglb, hpm, State.lossCounted_tm]
  exact ⟨(State.clockBack_fld hlock hglb (.inr rfl)).trans hstate, rfl⟩

theorem State.clockBack_startUp (h : ¬ (s.glb = 4 ∨ s.glb = 6 ∨ s.glb = 7)) :
    (s.clockBack p).glb = 2 ∧ (s.clockBack p).tm.hpm = 0 := by
  obtain ⟨hstate, hpm⟩ := s.lossCounted.restarts_startUp p (s.lossCounted_glb.symm ▸ h)
  rw [State.clockBack_tm hlock hglb, hpm]
  exact ⟨(State.clockBack_fld hlock hglb (.inr rfl)).trans hstate, rfl⟩

end

theorem State.clockRelease_of {s : State} {p : Nat} (hlock : s.lockHolds p = true) (hglb : s.glb = 1) :
    s.clockRelease p = s.startUp p := by
  simp [State.clockRelease, hlock, hglb]

/-- Settles O8: a release is a start-up; a return is one too, or a relock, with a count before and a raise after. -/
theorem clockReleaseAndRestart : Obligations.ClockReleaseAndRestart := by
  refine ⟨fun s hclk hglb => ⟨_, rfl, s.seesLink_keeps, State.seesLink_glb hclk hglb⟩,
    fun s p hclk hglb hrun hlow hhigh => ?release, fun s p hclk hglb hrun hlow hhigh => ?restart⟩
  case release =>
    have hlock := State.lockHolds_of hclk (by omega) hrun hlow hhigh
    have htm := s.startUp_tm p.toNat
    refine ⟨_, congrArg Host.Outcome.next (State.clockRelease_of hlock hglb), s.startUp_keeps _,
      congrArg TimeSt.clk htm, congrArg TimeSt.hpm htm, congrArg TimeSt.fpm htm, s.startUp_glb _, ?_, ?_, ?_⟩
    · exact (congrArg (· == 1) (s.startUp_fld _ (by decide +kernel))).trans (s.clockOn_pmValid _)
    · exact (congrArg (· == 1) (s.startUp_fld _ (by decide +kernel))).trans (s.clockOn_lock _)
    · exact (s.startUp_fld _ (by decide +kernel)).trans (s.clockOn_period p)
  case restart =>
    have hlock := State.lockHolds_of hclk (by omega) hrun hlow hhigh
    obtain ⟨hon, hpm, hcount⟩ := s.lossCounted.restarts_clock p.toNat
    refine ⟨_, rfl, (congrArg TimeSt.clk (State.clockBack_tm hlock hglb)).trans hon,
      (congrArg (· == 1) (State.clockBack_fld hlock hglb (.inl rfl))).trans hpm, ?_, fun h => ?_, fun h => ?_,
      fun h4 h6 h7 => State.clockBack_startUp hlock hglb (by omega)⟩
    · exact ((State.clockBack_fld hlock hglb (.inl rfl)).trans hcount).trans (s.fld_count_same 1 (by decide))
    · have hrelock := State.clockBack_relock hlock hglb (.inr h)
      rwa [if_neg (by omega)] at hrelock
    · have hrelock := State.clockBack_relock hlock hglb (.inl h)
      rwa [if_pos h] at hrelock

end Sys2Proof.Machine

/-!
Slow-control writes (R48, R49, R287 to R289): what a frame that is served does on the host die, what waits for the field
die, and how that wait ends.
-/
namespace Sys2Proof.Machine

set_option Elab.async false

/-! ### A frame that is served -/

/-- A request's register lies on the field die (R288, R369). -/
def namesField (f : ScFrame) : Bool := decide (0x1000 ≤ reqFld f 143 128) && decide (reqFld f 143 128 < 0x2000)

/-- Asking Courier leaves the clock alone. -/
@[simp] theorem State.scAsk_tm (s : State) : s.scAsk.tm = s.tm := s.scAsk_keeps.tm (by decide +kernel)

/-- Asking Courier leaves the barrier alone. -/
@[simp] theorem State.scAsk_barUp (s : State) : s.scAsk.barUp = s.barUp := by
  have hkeeps := s.scAsk_keeps
  unfold State.barUp State.bit
  rw [hkeeps.fld (by decide +kernel), hkeeps.bar (by decide +kernel)]

/-- Of the links, asking Courier touches only the ticks of requests that it has not dispatched (R355). -/
theorem State.scAsk_lnk (s : State) :
    s.scAsk.lnk.scWait = s.lnk.scWait ∧ s.scAsk.lnk.replies = s.lnk.replies := by
  have htrigger : ((s.trigger .courier 1).note .courier 0x0B).lnk = s.lnk :=
    ((State.note_keeps _ _ _).lnk (by decide +kernel)).trans ((State.trigger_keeps _ _ _).lnk (by decide +kernel))
  unfold State.scAsk
  extract_lets s1
  rw [← htrigger]
  split <;> exact ⟨rfl, rfl⟩

/-- A write that arrives whole, for this node and in the frame position of its register's die, is that die's (R286 to
R288). -/
theorem State.scServe_of_inFrame {s : State} {f : ScFrame} (hdam : f.damaged = false) (hblk : s.scBlocked = false)
    (hnode : reqFld f 155 148 = s.fld LNK_NODE_ADDRESS_NODE) (hen : s.bit LNK_CTRL_SC_EN = true)
    (hop : reqFld f 159 156 = 2 ∨ reqFld f 159 156 = 3) (hpos : namesField f = f.posB) :
    s.scServe f =
      if namesField f then s.scAsk.scField (reqFld f 159 156) (reqFld f 147 144) (reqFld f 143 128)
        (BitVec.ofNat 32 (reqFld f 127 96)) (BitVec.ofNat 48 (reqFld f 95 48))
      else s.scAsk.scHost (reqFld f 159 156) (reqFld f 147 144) (reqFld f 143 128)
        (BitVec.ofNat 32 (reqFld f 127 96)) (BitVec.ofNat 48 (reqFld f 95 48)) := by
  have hop4 : ¬ 4 ≤ reqFld f 159 156 := by omega
  have hop0 : reqFld f 159 156 ≠ 0 := by omega
  unfold namesField at hpos ⊢
  unfold State.scServe
  simp only [hdam, hblk, hnode, hen, hop0, hop4, hpos, Bool.or_self, Bool.false_eq_true, Bool.true_eq_false,
    bne_self_eq_false, ne_eq, not_true_eq_false, or_self, if_false]

/-! ### The commands -/

theorem execSlowctlWrite_of_clk {s : State} {f : ScFrame} (hclk : s.tm.clk = true) (hop : reqFld f 159 156 = 2) :
    exec (.slowctlWrite f) s = .next (s.scServe f) := by
  show Host.Outcome.next _ = _
  simp only [State.onTick, hclk, hop, if_true]

theorem execSlowctlLaunchedWrite_of_clk {s : State} {f : ScFrame} (hclk : s.tm.clk = true)
    (hop : reqFld f 159 156 = 3) : exec (.slowctlLaunchedWrite f) s = .next (s.scServe f) := by
  show Host.Outcome.next _ = _
  simp only [State.onTick, hclk, hop, if_true]

theorem execSlowctlReplyTimeout_of_wait {s : State} {tag : BitVec 4} {w : ScWait} (hclk : s.tm.clk = true)
    (hw : s.lnk.scWait.find? (fun x => x.tag == tag.toNat) = some w) :
    exec (.slowctlReplyTimeout tag) s = .next (s.scLate w) := by
  show Host.Outcome.next _ = _
  simp only [State.onTick, hclk, hw, if_true]

/-- A write on the host die (R48, R288). -/
theorem State.scHost_write (s : State) (tag idx : Nat) (v : Word) (pm : PM) :
    s.scHost 2 tag idx v pm = (s.writeReg .slow idx v).scReply false s.tm.tick 1 tag idx v := (rfl)

/-- A launched write on the host die, to an index that a block has (R49, R288). -/
theorem State.scHost_launched (s : State) (tag : Nat) {idx : Nat} (v : Word) (pm : PM) (h : (blkOf idx).isSome = true) :
    s.scHost 3 tag idx v pm =
      (s.launchReg .slow idx v pm .plain tag).2.scReply false s.tm.tick
        ((s.launchReg .slow idx v pm .plain tag).1 + 2) tag idx v := by
  unfold State.scHost
  simp only [h, if_true, Nat.reduceEqDiff, if_false, OfNat.ofNat_ne_one]

/-- A request waits for the field die while the barrier is up (R288). -/
theorem State.scField_of_barUp {s : State} (h : s.barUp = true) (op tag idx : Nat) (v : Word) (pm : PM) :
    (s.scField op tag idx v pm).lnk.scWait = s.lnk.scWait ++ [⟨tag, op, idx, v, pm, s.tm.tick⟩] ∧
      (s.scField op tag idx v pm).lnk.replies = s.lnk.replies := by
  simp [State.scField, h]

/-- Settles O16: a frame that is served is the host die's or waits for the field die; a late answer ends that wait. -/
theorem slowControlWritesAndTimeouts : Obligations.SlowControlWritesAndTimeouts := by
  refine ⟨fun s f hclk hdam hblk hnode hen => ?frames, fun s tag w hclk hw => ?timeout⟩
  case frames =>
    intro idx tag v pm fieldIdx
    have hdie : namesField f = fieldIdx := rfl
    have hhost (hf : fieldIdx = false) : ¬ namesField f = true := by
      rw [hdie, hf]
      exact Bool.false_ne_true
    have serve := State.scServe_of_inFrame hdam hblk hnode hen
    have waits (hf : fieldIdx = true) (hpos : f.posB = true) (hup : s.barUp = true)
        (hop : reqFld f 159 156 = 2 ∨ reqFld f 159 156 = 3) :
        (s.scServe f).lnk.scWait = s.lnk.scWait ++ [⟨tag, reqFld f 159 156, idx, v, pm, s.tm.tick⟩] ∧
          (s.scServe f).lnk.replies = s.lnk.replies := by
      obtain ⟨hwait, hreplies⟩ := s.scAsk_lnk
      rw [serve hop (hf.trans hpos.symm), if_pos (hdie.trans hf), ← hwait, ← hreplies, ← s.scAsk_tm]
      exact State.scField_of_barUp (s.scAsk_barUp.trans hup) ..
    refine ⟨fun hop hf hpos => ?_, fun hop hf hpos hsome => ?_, fun hf hpos hup => ⟨fun hop => ?_, fun hop => ?_⟩⟩
    · have hexec := execSlowctlWrite_of_clk hclk hop
      refine ⟨_, hexec, execSlowctlWrite_keeps f s hexec, ?_⟩
      rw [serve (.inl hop) (hf.trans hpos.symm), if_neg (hhost hf), hop, State.scHost_write, State.scAsk_tm]
    · have hexec := execSlowctlLaunchedWrite_of_clk hclk hop
      refine ⟨_, hexec, execSlowctlLaunchedWrite_keeps f s hexec, ?_⟩
      rw [serve (.inr hop) (hf.trans hpos.symm), if_neg (hhost hf), hop, State.scHost_launched _ _ _ _ hsome,
        State.scAsk_tm]
    · exact ⟨_, execSlowctlWrite_of_clk hclk hop, hop ▸ waits hf hpos hup (.inl hop)⟩
    · exact ⟨_, execSlowctlLaunchedWrite_of_clk hclk hop, hop ▸ waits hf hpos hup (.inr hop)⟩
  case timeout =>
    have hexec := execSlowctlReplyTimeout_of_wait hclk hw
    exact ⟨_, hexec, execSlowctlReplyTimeout_keeps tag s hexec, rfl, rfl⟩

end Sys2Proof.Machine

/-!
Writes at their boundary and at their launch postmark (R48, R50, R402): registers whose write does nothing but store
their fields, some of them at a stroke or sheet boundary.
-/
namespace Sys2Proof.Machine

set_option Elab.async false

/-! ### Footprints that name a register by a variable -/

theorem testBit_foot (ps : List Part) (k : Nat) : (foot ps).testBit k = ps.any (fun p => p.places.testBit k) := by
  induction ps using List.reverseRecOn with
  | nil => simp [foot]
  | append_singleton ps p ih =>
    have hfoot : foot (ps ++ [p]) = foot ps ||| p.places := by simp [foot]
    rw [hfoot, Nat.testBit_or, ih, List.any_append, List.any_cons, List.any_nil, Bool.or_false]

/-- A register has no part in the places beyond the registers. -/
theorem testBit_foot_reg_cons (i : Nat) (ps : List Part) {k : Nat} (hk : 0x2000 < k) :
    (foot (.reg i :: ps)).testBit k = (foot ps).testBit k := by
  have hle : regPart i ≤ 0x2000 := Nat.min_le_right ..
  have hreg : (Part.reg i).places.testBit k = false := by
    rw [Part.places, Nat.testBit_two_pow]
    exact decide_eq_false (by omega)
  rw [testBit_foot, testBit_foot, List.any_cons, hreg, Bool.false_or]

/-- Fewer parts are a smaller footprint. -/
theorem foot_or_of_subset {ps qs : List Part} (h : ps ⊆ qs) : foot ps ||| foot qs = foot qs := by
  refine Nat.eq_of_testBit_eq fun k => ?_
  rw [Nat.testBit_or, testBit_foot, testBit_foot, Bool.or_eq_right_iff_imp]
  simp only [List.any_eq_true]
  exact fun ⟨p, hp, hk⟩ => ⟨p, h hp, hk⟩

/-- Two operations one after the other, the second with fewer parts. -/
theorem Keeps.stepFoot {ps qs : List Part} {s t u : State} (hg : Keeps (foot ps) t u) (h : ps ⊆ qs)
    (hs : Keeps (foot qs) s t) : Keeps (foot qs) s u := hg.step (foot_or_of_subset h) hs

theorem Keeps.monoFoot {ps qs : List Part} {s t : State} (hg : Keeps (foot ps) s t) (h : ps ⊆ qs) :
    Keeps (foot qs) s t := hg.mono (foot_or_of_subset h)

/-! ### Registers that are stored at a boundary -/

/-- The rule of a block stores a run-time parameter in such an index of it and does no more to its fields (Tables 04-3
to 17-4). -/
def storesParam (i : Nat) : Blk → Bool
  | .lnk => i == LNK_CTRL
  | .pwr => decide (0x704 ≤ i)
  | .pal => i == EXC_SLEW || i == EXC_REST_CODE || i == ROW_SPARE_CTRL
  | .col => i == COL_CTRL
  | .nul => i == NUL_CTRL || i == NUL_LIMIT || i == NUL_CONVERGE
  | .var => i != VAR_CTRL && i != VAR_T_STATUS
  | .str | .evt => i != 0x1501 && i != 0x1502 && i != EVT_STATUS
  | .cal => decide (CAL_REPEAT_TOL ≤ i) && decide (i ≤ CAL_DEFER_LIMIT)
  | _ => false

/-- A slew or a rest code that is stored excuses a power transition that runs (R365). -/
def State.exempts (s : State) (i : Nat) (k : WPart) : State :=
  if (i = EXC_SLEW ∨ i = EXC_REST_CODE) ∧ k.later = true then s.pwrExempt else s

theorem State.exempts_of_ne (s : State) {i : Nat} (h : i ≠ EXC_SLEW ∧ i ≠ EXC_REST_CODE) (k : WPart) :
    s.exempts i k = s := if_neg fun hi => hi.1.elim h.1 h.2

/-- Outside PAL no register is the slew or the rest code. -/
theorem ne_exc_of_blkOf {i : Nat} {b : Blk} (h : blkOf i = some b) (hb : b ≠ .pal) :
    i ≠ EXC_SLEW ∧ i ≠ EXC_REST_CODE := by
  constructor
  all_goals
    rintro rfl
    exact hb (Option.some.inj h).symm

/-- A write of such an index is a plain write of a parameter (R8), whatever part of it acts. -/
theorem State.applyPart_storesParam (s : State) {i : Nat} {b : Blk} (hb : blkOf i = some b) (hoff : i % 0x100 < 0xE0)
    (h : storesParam i b = true) (v : Word) (w : Writer) (wa : Nat) (k : WPart) :
    s.applyPart i v w wa k = (s.plainWrite i v w k true).exempts i k := by
  have h1 : ¬ 0xF0 ≤ i % 0x100 := by omega
  have h2 : ¬ 0xE0 ≤ i % 0x100 := by omega
  have hne (hpal : b ≠ .pal) : (s.plainWrite i v w k true).exempts i k = s.plainWrite i v w k true :=
    State.exempts_of_ne _ (ne_exc_of_blkOf hb hpal) k
  unfold State.applyPart
  simp only [hb, h1, h2, if_false]
  cases b
  case lnk =>
    obtain rfl : i = LNK_CTRL := by simpa [storesParam] using h
    rw [hne (by decide)]
    rfl
  case pwr =>
    have hi : ¬ i < 0x704 := by simpa [storesParam] using h
    simp only [hne (by decide), State.pwrWrite, hi, false_and, if_false]
  case pal =>
    obtain hexc | rfl : (i = EXC_SLEW ∨ i = EXC_REST_CODE) ∨ i = ROW_SPARE_CTRL := by simpa [storesParam] using h
    · have hctrl : i ≠ PAL_CTRL := by
        rintro rfl
        exact absurd hexc (by decide)
      have hlaunch : i ≠ PAL_BANK_LAUNCH_HI := by
        rintro rfl
        exact absurd hexc (by decide)
      simp only [State.palWrite, State.exempts, hctrl, hlaunch, hexc, true_and, if_true, if_false]
    · rw [State.exempts_of_ne _ (by decide)]
      rfl
  case col =>
    obtain rfl : i = COL_CTRL := by simpa [storesParam] using h
    rw [hne (by decide)]
    rfl
  case nul =>
    rw [hne (by decide)]
    obtain (rfl | rfl) | rfl : (i = NUL_CTRL ∨ i = NUL_LIMIT) ∨ i = NUL_CONVERGE := by simpa [storesParam] using h
    all_goals rfl
  case var =>
    obtain ⟨hctrl, hstatus⟩ : i ≠ VAR_CTRL ∧ i ≠ VAR_T_STATUS := by simpa [storesParam] using h
    simp only [hne (by decide), State.varWrite, hctrl, if_false, bne_iff_ne.2 hstatus]
  case str =>
    obtain ⟨⟨hmask, hexp⟩, hstatus⟩ : (i ≠ 0x1501 ∧ i ≠ 0x1502) ∧ i ≠ EVT_STATUS := by simpa [storesParam] using h
    simp only [hne (by decide), State.strWrite, hmask, hexp, or_self, if_false, bne_iff_ne.2 hstatus]
  case evt =>
    obtain ⟨⟨hmask, hexp⟩, hstatus⟩ : (i ≠ 0x1501 ∧ i ≠ 0x1502) ∧ i ≠ EVT_STATUS := by simpa [storesParam] using h
    simp only [hne (by decide), State.strWrite, hmask, hexp, or_self, if_false, bne_iff_ne.2 hstatus]
  case cal =>
    have hparam : (decide (CAL_REPEAT_TOL ≤ i) && decide (i ≤ CAL_DEFER_LIMIT)) = true := h
    have hctrl : i ≠ CAL_CTRL := by
      rintro rfl
      exact absurd hparam (by decide)
    simp only [hne (by decide), State.calWrite, hctrl, false_and, if_false, hparam, Bool.or_true]
  all_goals cases h

/-- Every register of boundaryRegs is one that its block stores a parameter in. -/
theorem boundaryRegs_storesParam {i : Nat} (hi : i ∈ boundaryRegs) :
    ∃ b, blkOf i = some b ∧ i % 0x100 < 0xE0 ∧ storesParam i b = true := by
  have h : ∀ i ∈ boundaryRegs, i % 0x100 < 0xE0 ∧ (blkOf i).any (storesParam i) = true := by decide +kernel
  obtain ⟨hoff, hany⟩ := h i hi
  obtain ⟨b, hb, hs⟩ := Option.any_eq_true _ _ |>.1 hany
  exact ⟨b, hb, hoff, hs⟩

/-- The spacing of the boundaries of a register of boundaryRegs: a stroke or a sheet (R48). -/
def boundarySpacing (i : Nat) : Nat :=
  if i ∈ [EXC_SLEW, EXC_REST_CODE, ROW_SPARE_CTRL, NUL_LIMIT, NUL_CONVERGE] then 16 else 64

/-- Table look-up: the boundary hangs on the register alone, whatever is written (R48). -/
theorem State.wrAlign_boundaryRegs (s : State) {i : Nat} (hi : i ∈ boundaryRegs) (v : Word) (wa : Nat) :
    s.wrAlign i v wa = boundarySpacing i := by
  fin_cases hi <;> rfl

theorem boundarySpacing_ne_one (i : Nat) : boundarySpacing i ≠ 1 := by
  unfold boundarySpacing
  split <;> decide

theorem State.applyPart_boundaryRegs (s : State) {i : Nat} (hi : i ∈ boundaryRegs) (v : Word) (w : Writer) (wa : Nat)
    (k : WPart) : s.applyPart i v w wa k = (s.plainWrite i v w k true).exempts i k := by
  obtain ⟨b, hb, hoff, hs⟩ := boundaryRegs_storesParam hi
  exact s.applyPart_storesParam hb hoff hs v w wa k

theorem boundaryRegs_toNat {i : Nat} (hi : i ∈ boundaryRegs) : (BitVec.ofNat 16 i).toNat = i := by
  have h : ∀ i ∈ boundaryRegs, i < 2 ^ 16 := by decide +kernel
  rw [BitVec.toNat_ofNat, Nat.mod_eq_of_lt (h i hi)]

/-! ### A write on arrival (R48, R402) -/

/-- W1C bits that are written as 1 clear, and no other bit changes (R13). -/
theorem State.storeW1c_bit (s : State) (i : Nat) (v : Word) {j : Nat} (hj : j < 32) :
    ((s.storeW1c i v).reg i).getLsbD j =
      ((s.reg i).getLsbD j && !((maskOf i (fun r => r.w1c)).testBit j && v.getLsbD j)) := by
  simp only [State.storeW1c_eq, State.reg_setReg, if_true, BitVec.getLsbD_and, BitVec.getLsbD_not,
    BitVec.getLsbD_ofNat, decide_eq_true hj, Bool.true_and, Bool.and_comm (v.getLsbD j)]

/-- On arrival a write of such a register clears its W1C bits and is held, whole, for the register's boundary. -/
theorem State.writeReg_boundaryRegs (s : State) {i : Nat} (hi : i ∈ boundaryRegs) (m : Master) (v : Word) :
    s.writeReg m i v = { s.storeW1c i v with held :=
      s.held ++ [⟨decide (0x1000 ≤ i), boundarySpacing i != 16, s.tm.tick, i, v, m, 0⟩] } := by
  have hfacts : ∀ i ∈ boundaryRegs, i % 0x100 ≠ 0xE1 ∧ i ≠ NUL_PRIMER_CTRL ∧ notHeld i 0 = false := by decide +kernel
  obtain ⟨hnoWin, hne, hheld⟩ := hfacts i hi
  have haddr : s.writeAddr m i = 0 := by
    unfold State.writeAddr
    split
    · exact if_neg hnoWin
    · rfl
  have hlater : (decide (boundarySpacing i = 1) || false) = false := by
    rw [decide_eq_false (boundarySpacing_ne_one i)]
    rfl
  have harrives : s.applyPart i v ⟨m, false⟩ 0 ⟨true, false⟩ = s.storeW1c i v := by
    rw [s.applyPart_boundaryRegs hi]
    exact if_neg fun h => Bool.false_ne_true h.2
  have hparts (t : State) : t.heldParts i v 0 = [(v, boundarySpacing i != 16)] := by
    simp only [State.heldParts, hheld, hne, t.wrAlign_boundaryRegs hi, boundarySpacing_ne_one, Bool.false_eq_true,
      if_false]
  unfold State.writeReg
  simp only [haddr, s.wrAlign_boundaryRegs hi, hheld, hlater, harrives, State.bumpAddr_of_ne _ m hnoWin]
  unfold State.holdParts
  rw [hparts]
  rfl

theorem execRegisterWrite_boundaryRegs {s : State} (hclk : s.tm.clk = true) (hpow : s.pin.fieldPower = true) {i : Nat}
    (hi : i ∈ boundaryRegs) (m : Master) (v : Word) :
    exec (.registerWrite m (BitVec.ofNat 16 i) v) s = .next { s.storeW1c i v with held :=
      s.held ++ [⟨decide (0x1000 ≤ i), boundarySpacing i != 16, s.tm.tick, i, v, m, 0⟩] } := by
  show Host.Outcome.next _ = _
  rw [State.onIndex_of_powered hclk hpow, boundaryRegs_toNat hi, s.writeReg_boundaryRegs hi]

/-! ### A write that acts later -/

/-- A register is no matter of a power transition that is excused. -/
@[simp] theorem State.reg_exempts (s : State) (i : Nat) (k : WPart) (j : Nat) : (s.exempts i k).reg j = s.reg j := by
  unfold State.exempts
  split <;> rfl

theorem State.exempts_keeps (s : State) (i : Nat) (k : WPart) : Keeps (foot [.pwr]) s (s.exempts i k) :=
  Keeps.ite s.pwrExempt_keeps (Keeps.refl ..)

/-- Registers that are only stored, on arrival or at a boundary, lie outside GLB_DETERMINISM. -/
theorem boundaryRegs_ne_determinism {i : Nat} (hi : i ∈ boundaryRegs) :
    (foot [.reg GLB_DETERMINISM, .faults]).testBit (regPart i) = false := by
  have h : ∀ i ∈ boundaryRegs, (foot [.reg GLB_DETERMINISM, .faults]).testBit (regPart i) = false := by decide +kernel
  exact h i hi

/-- A held write at its boundary stores the RW bits and shows that a parameter has changed (R8, R48). -/
theorem State.applyHeld_boundaryRegs (s : State) {h : HeldWr} (hi : h.idx ∈ boundaryRegs) :
    ∃ changed, s.applyHeld h =
      ((s.storeRw h.idx (storedValue h.idx h.val)).param false changed).exempts h.idx ⟨false, true⟩ :=
  ⟨_, s.applyPart_boundaryRegs hi h.val ⟨h.master, false⟩ h.wa ⟨false, true⟩⟩

theorem State.applyHeld_bit (s : State) {h : HeldWr} (hi : h.idx ∈ boundaryRegs) {j : Nat} (hj : j < 32) :
    ((s.applyHeld h).reg h.idx).getLsbD j =
      if (maskOf h.idx (fun r => r.rw)).testBit j then (storedValue h.idx h.val).getLsbD j
      else (s.reg h.idx).getLsbD j := by
  obtain ⟨changed, happly⟩ := s.applyHeld_boundaryRegs hi
  rw [happly, State.reg_exempts, (State.param_keeps _ _ _).reg _ (boundaryRegs_ne_determinism hi),
    s.storeRw_bit _ _ hj]

theorem State.applyHeld_keeps_boundaryRegs (s : State) {h : HeldWr} (hi : h.idx ∈ boundaryRegs) :
    Keeps (foot [.reg h.idx, .reg GLB_DETERMINISM, .faults, .pwr]) s (s.applyHeld h) := by
  obtain ⟨changed, happly⟩ := s.applyHeld_boundaryRegs hi
  rw [happly]
  exact (State.exempts_keeps _ _ _).stepFoot (by simp) <| (State.param_keeps _ _ _).stepFoot (by simp) <|
    (s.setReg_keeps_reg ..).monoFoot (by simp)

/-! ### HELD_WRITE_APPLY (R48) -/

/-- What is left of a list without its n-th member. -/
theorem dropAt_eq {α : Type} (xs : List α) (n : Nat) : dropAt xs n = xs.take n ++ xs.drop (n + 1) := by
  induction xs generalizing n with
  | nil => simp [dropAt]
  | cons x xs ih =>
    cases n with
    | zero => rfl
    | succ n => exact congrArg (x :: ·) (ih n)

/-- With the clock and the field supply a die's work is done (R34, R37). -/
theorem State.onDie_of_powered {s : State} (hclk : s.tm.clk = true) (hpow : s.pin.fieldPower = true) (d : Die)
    (f : State → State) : s.onDie d f = f s := by
  cases d <;> simp [State.onDie, State.onTick, State.onField, hclk, hpow]

/-- Work that changes nothing changes nothing, whether or not it is done. -/
theorem State.onDie_of_eq {s : State} {f : State → State} (h : f s = s) (d : Die) : s.onDie d f = s := by
  cases d <;> simp [State.onDie, State.onTick, State.onField, h]

/-- The held writes replaced. -/
def State.withHeld (s : State) (q : List HeldWr) : State := { s with held := q }

@[simp] theorem State.reg_withHeld (s : State) (q : List HeldWr) (i : Nat) : (s.withHeld q).reg i = s.reg i := (rfl)

theorem State.withHeld_keeps (s : State) (q : List HeldWr) : Keeps (foot [.held]) s (s.withHeld q) :=
  Keeps.upd (Keeps.refl ..)

theorem State.heldOne_of_some {s : State} {d : Die} {n : Nat} {h : HeldWr}
    (hn : s.held.findIdx? (fun h => h.field == (d == Die.field) && s.heldDue h) = some n)
    (hget : s.held[n]? = some h) : s.heldOne d = (s.withHeld (s.held.take n ++ s.held.drop (n + 1))).applyHeld h := by
  unfold State.heldOne
  simp only [hn, hget, dropAt_eq]
  rfl

theorem State.heldOne_of_none {s : State} {d : Die}
    (h : s.held.findIdx? (fun h => h.field == (d == Die.field) && s.heldDue h) = none) : s.heldOne d = s := by
  unfold State.heldOne
  simp only [h]

/-- Settles O18: on arrival such a write is held; at its boundary it leaves the held writes and is stored. -/
theorem writesWaitForTheirBoundary : Obligations.WritesWaitForTheirBoundary := by
  refine ⟨fun i hi s m v hclk hpow => ?arrival, fun s d n h hclk hpow hn hget hi => ?boundary, fun s d hnone =>
    congrArg Host.Outcome.next (State.onDie_of_eq (State.heldOne_of_none hnone) d)⟩
  case arrival =>
    refine ⟨_, execRegisterWrite_boundaryRegs hclk hpow hi m v, ?_, fun j hj => s.storeW1c_bit i v hj, ?_⟩
    · exact (State.withHeld_keeps _ _).stepFoot (by simp) ((s.setReg_keeps_reg ..).monoFoot (by simp))
    · rw [s.wrAlign_boundaryRegs hi]
  case boundary =>
    have hexec : exec (.heldWriteApply d) s =
        .next ((s.withHeld (s.held.take n ++ s.held.drop (n + 1))).applyHeld h) :=
      congrArg Host.Outcome.next ((State.onDie_of_powered hclk hpow d _).trans (State.heldOne_of_some hn hget))
    refine ⟨_, hexec, ?_, (State.applyHeld_keeps _ h).held (by decide +kernel), fun j hj => ?_⟩
    · exact (State.applyHeld_keeps_boundaryRegs _ hi).stepFoot (by simp) ((s.withHeld_keeps _).monoFoot (by simp))
    · rw [State.applyHeld_bit _ hi hj, State.reg_withHeld]

/-! ### LAUNCH_ENTRY_APPLY (R50) -/

/-- A launched write of a parameter is no reason against determinism (R8). -/
theorem State.param_launched (s : State) (changed : Bool) : s.param true changed = s := by
  simp [State.param]

theorem State.plainWrite_launched (s : State) (i : Nat) (v : Word) (m : Master) (k : WPart) :
    s.plainWrite i v ⟨m, true⟩ k true = s.plainWrite i v ⟨m, true⟩ k false := by
  simp only [State.plainWrite, State.param_launched, if_true, Bool.false_eq_true, if_false]

/-- A whole write at its postmark is a plain write, beside what the slew and the rest code excuse. -/
theorem State.applyWhole_launched (s : State) {i : Nat} (hi : i ∈ instantRegs ++ boundaryRegs) (v : Word) (m : Master)
    (wa : Nat) : s.applyWhole i v ⟨m, true⟩ wa =
      (s.plainWrite i v ⟨m, true⟩ ⟨true, true⟩ false).exempts i ⟨true, true⟩ := by
  rcases List.mem_append.1 hi with hi | hi
  · obtain ⟨b, hb, hoff, hs⟩ := instantRegs_storesOnly hi
    have hne : i ≠ EXC_SLEW ∧ i ≠ EXC_REST_CODE := by
      refine ne_exc_of_blkOf hb ?_
      rintro rfl
      cases hs
    exact (s.applyPart_storesOnly hb hoff hs ..).trans (State.exempts_of_ne _ hne _).symm
  · exact (s.applyPart_boundaryRegs hi ..).trans (by rw [s.plainWrite_launched])

theorem State.applyWhole_bit (s : State) {i : Nat} (hi : i ∈ instantRegs ++ boundaryRegs) (v : Word) (m : Master)
    (wa : Nat) {j : Nat} (hj : j < 32) :
    ((s.applyWhole i v ⟨m, true⟩ wa).reg i).getLsbD j = s.bitWritten i v j := by
  rw [s.applyWhole_launched hi, State.reg_exempts, s.plainWrite_bit i v _ hj]

theorem State.applyWhole_keeps_listed (s : State) {i : Nat} (hi : i ∈ instantRegs ++ boundaryRegs) (v : Word)
    (m : Master) (wa : Nat) : Keeps (foot [.reg i, .pwr]) s (s.applyWhole i v ⟨m, true⟩ wa) := by
  rw [s.applyWhole_launched hi]
  exact (State.exempts_keeps _ _ _).stepFoot (by simp) ((s.plainWrite_keeps_reg ..).monoFoot (by simp))

/-- A plain or an armed entry is a whole write of its index between the launch cause and the end of an engine's wait
(R50). -/
theorem State.applyEntry_write (s : State) {e : LEntry} (h : e.kind = .plain ∨ e.kind = .armed) :
    s.applyEntry e =
      ((s.launchCause e.idx e.wa).applyWhole e.idx e.val ⟨e.master, true⟩ e.wa).leftQueue e := by
  unfold State.applyEntry
  rcases h with h | h <;> rw [h]

/-- The engines are no matter of a register. -/
theorem Keeps.reg_of_engines {s t : State} (h : Keeps (foot [.cou, .bru]) s t) (i : Nat) : t.reg i = s.reg i := by
  refine h.reg i ?_
  have hle : regPart i ≤ 0x2000 := Nat.min_le_right ..
  rw [testBit_foot]
  simp only [List.any_cons, List.any_nil, Part.places, Nat.testBit_two_pow, Bool.or_false, Bool.or_eq_false_iff,
    decide_eq_false_iff_not]
  omega

/-- What a write leaves of a register hangs on that register alone. -/
theorem State.bitWritten_congr {s t : State} {i : Nat} (h : t.reg i = s.reg i) (v : Word) (j : Nat) :
    t.bitWritten i v j = s.bitWritten i v j := by
  unfold State.bitWritten
  rw [h]

section
variable {e : LEntry} (hk : e.kind = .plain ∨ e.kind = .armed) (hi : e.idx ∈ instantRegs ++ boundaryRegs)
include hk hi

theorem State.applyEntry_bit (s : State) {j : Nat} (hj : j < 32) :
    ((s.applyEntry e).reg e.idx).getLsbD j = s.bitWritten e.idx e.val j := by
  rw [s.applyEntry_write hk, (State.leftQueue_keeps _ e).reg_of_engines, State.applyWhole_bit _ hi _ _ _ hj]
  exact State.bitWritten_congr ((s.launchCause_keeps _ _).reg_of_engines _) ..

theorem State.applyEntry_keeps_listed (s : State) :
    Keeps (foot [.reg e.idx, .cou, .bru, .pwr]) s (s.applyEntry e) := by
  rw [s.applyEntry_write hk]
  exact (State.leftQueue_keeps _ e).stepFoot (by simp) <|
    (State.applyWhole_keeps_listed _ hi ..).stepFoot (by simp) ((s.launchCause_keeps _ _).monoFoot (by simp))

end

/-- No entry for such a register is a spare swap (R349). -/
theorem isSwapEntry_of_listed {e : LEntry} (hi : e.idx ∈ instantRegs ++ boundaryRegs) : isSwapEntry e = false := by
  have h : ∀ i ∈ instantRegs ++ boundaryRegs, i ≠ COL_SPARE_CTRL ∧ i ≠ 0x11E1 := by decide +kernel
  obtain ⟨hspare, hwin⟩ := h _ hi
  simp [isSwapEntry, hspare, hwin]

theorem State.launchOne_of_some {s : State} {d : Die} {n : Nat} {e : LEntry}
    (hn : (s.queue d).findIdx? (fun e => e.pm == s.pmOf d) = some n) (hget : (s.queue d)[n]? = some e)
    (hi : e.idx ∈ instantRegs ++ boundaryRegs) :
    s.launchOne d = (s.setQueue d ((s.queue d).take n ++ (s.queue d).drop (n + 1))).applyEntry e := by
  unfold State.launchOne
  simp only [hn, hget, dropAt_eq, isSwapEntry_of_listed hi, Bool.false_eq_true, if_false]

theorem State.launchOne_of_none {s : State} {d : Die}
    (h : (s.queue d).findIdx? (fun e => e.pm == s.pmOf d) = none) : s.launchOne d = s := by
  unfold State.launchOne
  simp only [h]

theorem State.reg_setQueue (s : State) (d : Die) (q : List LEntry) (i : Nat) : (s.setQueue d q).reg i = s.reg i := by
  cases d <;> rfl

/-- Settles O19: the entry leaves its queue and is then a whole plain write. -/
theorem launchedWritesApplyAtTheirPostmark : Obligations.LaunchedWritesApplyAtTheirPostmark := by
  refine ⟨fun s d n e hclk hpow hn hget hk hi => ?_, fun s d hnone =>
    congrArg Host.Outcome.next (State.onDie_of_eq (State.launchOne_of_none hnone) d)⟩
  have hexec : exec (.launchEntryApply d) s =
      .next ((s.setQueue d ((s.queue d).take n ++ (s.queue d).drop (n + 1))).applyEntry e) :=
    congrArg Host.Outcome.next ((State.onDie_of_powered hclk hpow d _).trans (State.launchOne_of_some hn hget hi))
  generalize (s.queue d).take n ++ (s.queue d).drop (n + 1) = q at hexec ⊢
  have hkeeps := State.applyEntry_keeps_listed hk hi (s.setQueue d q)
  have hqueue (c : Die) : ((s.setQueue d q).applyEntry e).queue c = (s.setQueue d q).queue c := by
    refine hkeeps.queue ?_ ?_ c
    all_goals
      rw [testBit_foot_reg_cons _ _ (by decide)]
      decide +kernel
  refine ⟨_, hexec, hkeeps.stepFoot (by simp) ((s.setQueue_keeps d q).monoFoot (by simp)),
    (hqueue d).trans (s.queue_setQueue d q), ?_, ?_, ?_, fun j hj => ?_⟩
  · exact ((State.applyEntry_keeps _ e).held (by decide +kernel)).trans
      ((s.setQueue_keeps d q).held (by decide +kernel))
  · rintro rfl
    exact hqueue .field
  · rintro rfl
    exact hqueue .host
  · rw [State.applyEntry_bit hk hi _ hj]
    exact State.bitWritten_congr (s.reg_setQueue d q _) ..

end Sys2Proof.Machine

/-!
Column map, settings words and trims (R73, R103, R105 to R107, R116): what a write stores in the window, what it says of
a write that it refuses, and that nothing after the store touches the window.
-/
namespace Sys2Proof.Machine

set_option Elab.async false

/-! ### A word of a window table that is stored -/

theorem State.winN_setWinN_same (s : State) (b : Blk) (a : Nat) {v : Nat} (hv : v < 2 ^ 24) :
    (s.setWinN b a v).winN b a = v := by
  rw [State.winN, State.setWinN, State.win_setWin_same, BitVec.toNat_ofNat, Nat.mod_eq_of_lt hv]

theorem State.win_setWinN_other (s : State) (b : Blk) {a x : Nat} (v : Nat) (ha : a < 2 ^ 24) (hx : x < 2 ^ 24)
    (h : x ≠ a) : (s.setWinN b a v).win b x = s.win b x := by
  refine s.win_setWin_other _ fun hkey => h ?_
  have hmod := (winKey_inj hkey).2
  rw [Nat.mod_eq_of_lt ha, Nat.mod_eq_of_lt hx] at hmod
  exact hmod.symm

/-- What comes after the store of a word and leaves the table alone leaves the word stored, and it alone. -/
theorem Keeps.storesWord {M : Nat} {s t : State} {b : Blk} {a v : Nat} (h : Keeps M (s.setWinN b a v) t)
    (hM : M.testBit (0x2020 + blkNum b) = false) (ha : a < 2 ^ 24) (hv : v < 2 ^ 24) :
    t.winN b a = v ∧ ∀ x, x < 2 ^ 24 → x ≠ a → t.win b x = s.win b x :=
  ⟨(congrArg BitVec.toNat (h.win b a hM)).trans (s.winN_setWinN_same b a hv),
    fun x hx hne => (h.win b x hM).trans (s.win_setWinN_other b v ha hx hne)⟩

/-- With the clock and the field supply the field die's work is done (R34, R37). -/
theorem State.onField_of_powered {s : State} (hclk : s.tm.clk = true) (hpow : s.pin.fieldPower = true)
    (f : State → State) : s.onField f = f s := State.onDie_of_powered hclk hpow .field f

/-! ### A write that is refused (Table 05-8) -/

/-- A raise leaves the words of the COL window alone. -/
theorem State.raiseWith_win_col (s : State) (b : Blk) (i : Nat) (r : RaiseInfo) (a : Nat) :
    (s.raiseWith b i r).win .col a = s.win .col a :=
  (s.raiseWith_keeps b i r).win .col a (by decide +kernel)

/-- A write is refused: its flag, its reason and the unit are shown, and COL raises its source 4. -/
def State.colRejected (s : State) (flag reason last : Fld) (code unit : Nat) (m : Master) : State :=
  (((s.setBit flag true).setFld reason code).setFld last unit).raiseWith .col 4 (writeRaise m 0x12E1)

section
variable (s : State) (flag reason last : Fld) (code unit : Nat) (m : Master)

theorem State.colRejected_win (a : Nat) : (s.colRejected flag reason last code unit m).win .col a = s.win .col a :=
  State.raiseWith_win_col ..

variable {flag reason last}

/-- The three fields of COL_MAP_STATUS, from the top down, show what was refused; the raise does not touch them. -/
theorem State.colRejected_shows
    (hreg : ∀ f ∈ [flag, reason, last], f.reg = COL_MAP_STATUS ∧ f.lo + f.len ≤ 32)
    (hdown : [flag, reason, last].Pairwise (fun f g => g.lo + g.len ≤ f.lo)) (hflag : flag.len = 1) :
    (s.colRejected flag reason last code unit m).bit flag = true ∧
      (s.colRejected flag reason last code unit m).fld reason = code % 2 ^ reason.len ∧
      (s.colRejected flag reason last code unit m).fld last = unit % 2 ^ last.len := by
  simp only [List.forall_mem_cons, List.pairwise_cons, List.not_mem_nil] at hreg hdown
  obtain ⟨⟨hf, hflen⟩, ⟨hr, hrlen⟩, ⟨hl, hllen⟩, -⟩ := hreg
  obtain ⟨⟨hfr, hfl, -⟩, ⟨hrl, -⟩, -⟩ := hdown
  have raised (t : State) {f : Fld} (h : f.reg = COL_MAP_STATUS) :
      (t.raiseWith .col 4 (writeRaise m 0x12E1)).fld f = t.fld f :=
    (t.raiseWith_keeps ..).fld (by rw [h]; decide +kernel)
  refine ⟨?_, ?_, ?_⟩
  · have hbit := s.bit_setBit_same flag true hflen hflag
    unfold State.bit at hbit ⊢
    rw [State.colRejected, raised _ hf, State.fld_setFld_other _ _ hllen (.inr (.inl hfl)),
      State.fld_setFld_other _ _ hrlen (.inr (.inl hfr)), hbit]
  · rw [State.colRejected, raised _ hr, State.fld_setFld_other _ _ hllen (.inr (.inl hrl)),
      State.fld_setFld_same _ _ _ hrlen]
  · rw [State.colRejected, raised _ hl, State.fld_setFld_same _ _ _ hllen]

end

/-! ### A column map write (R73, R116) -/

/-- The item that an entry of column c breaks, 7 for a pin unit without valid settings, 0 for a sound entry (R70,
R103). -/
def State.colRule (s : State) (c u p : Nat) : Nat :=
  let rule0 := mapRule 32 34 u p (s.otherCols c)
  if rule0 = 0 ∧ settingsValid (s.winN .col p) = false then 7 else rule0

theorem State.colRule_of_sound {s : State} {c u p : Nat} (hrule : mapRule 32 34 u p (s.otherCols c) = 0)
    (hset : settingsValid (s.winN .col p) = true) : s.colRule c u p = 0 := by
  simp [State.colRule, hrule, hset]

/-- The units of a sound entry exist. -/
theorem lt_of_mapRule_eq_zero {base limit u p : Nat} {es : List (Nat × Nat)} (h : mapRule base limit u p es = 0) :
    u < limit ∧ p < limit := by
  unfold mapRule at h
  split at h
  · simp at h
  · omega

/-- A column map write is refused with the item and the column. -/
abbrev State.mapRejected (s : State) (c rule : Nat) (m : Master) : State :=
  s.colRejected COL_MAP_STATUS_REJECT COL_MAP_STATUS_REJECT_RULE COL_MAP_STATUS_LAST_COL rule c m

/-- The entry of column c names front end u and pin unit p, and the front end that served it is remembered. -/
def State.entryStored (s : State) (c u p : Nat) : State :=
  { s with col := { s.col with was := assocSet s.col.was c (s.tm.fpm, s.colFe c) } }.setWinN .col (0x100 + c)
    (u * 256 + p)

/-- A spare that serves column c roves no more (R117). -/
def State.spareServes (s : State) (c u : Nat) : State :=
  if 32 ≤ u then
    ((s.setRover (u - 32) { s.rover (u - 32) with dwelling := false, d := [], n := [] }).setFld
      (COL_ROVER_STATUS_STATE (u - 32)) 3).setFld (COL_ROVER_STATUS_COLUMN (u - 32)) c
  else s

/-- A change of the map is counted and shown (Table 05-8). -/
def State.mapCounted (s : State) (c : Nat) : State :=
  ((s.inc COL_MAP_STATUS_CHANGE_COUNT).setFld COL_MAP_STATUS_LAST_COL c).setFld COL_MAP_STATUS_SPARE_USE s.colSpareUse

section
variable (s : State) (c : Nat) (word : W24) (m : Master)

theorem State.colMapWrite_eq (u p : Nat) (hu : bitsOf word.toNat 13 8 = u) (hp : bitsOf word.toNat 5 0 = p) :
    s.colMapWrite c word m =
      if s.colRule c u p ≠ 0 then s.mapRejected c (s.colRule c u p) m
      else if u = s.colFe c ∧ p = s.colPin c then s
      else (((s.entryStored c u p).holdCol c 8).spareServes c u).mapCounted c := by
  subst hu hp
  simp only [State.colMapWrite, State.colRule, Bool.not_eq_true']
  rfl

theorem State.entryStored_keeps (u p : Nat) : Keeps (foot [.win .col, .col]) s (s.entryStored c u p) :=
  (State.setWinN_keeps _ .col _ _).step (by decide +kernel) (Keeps.refl _ s).upd

theorem State.spareServes_keeps (u : Nat) : Keeps (foot [.reg COL_ROVER_STATUS, .col]) s (s.spareServes c u) :=
  Keeps.ite ((State.setReg_keeps_reg _ COL_ROVER_STATUS _).stepFoot (by simp) <|
    (State.setReg_keeps_reg _ COL_ROVER_STATUS _).stepFoot (by simp) <|
      (State.setRover_keeps _ _ _).monoFoot (by simp)) (Keeps.refl _ s)

theorem State.mapCounted_keeps : Keeps (foot [.reg COL_MAP_STATUS]) s (s.mapCounted c) :=
  (State.setFld_keeps _ _ _).step (by decide +kernel) <|
    (State.setFld_keeps _ _ _).step (by decide +kernel) <|
      (s.inc_keeps _).mono (by decide +kernel)

theorem State.mapCounted_count : (s.mapCounted c).fld COL_MAP_STATUS_CHANGE_COUNT =
    min (s.fld COL_MAP_STATUS_CHANGE_COUNT + 1) (2 ^ COL_MAP_STATUS_CHANGE_COUNT.len - 1) := by
  rw [State.mapCounted, State.fld_setFld_other _ _ (by decide) (by decide),
    State.fld_setFld_other _ _ (by decide) (by decide)]
  exact State.fld_count_same _ 1 (by decide)

theorem State.mapCounted_column (hc : c < 32) : (s.mapCounted c).fld COL_MAP_STATUS_LAST_COL = c := by
  rw [State.mapCounted, State.fld_setFld_other _ _ (by decide) (by decide), State.fld_setFld_same _ _ _ (by decide)]
  exact Nat.mod_eq_of_lt hc

theorem State.mapRejected_shows (rule : Nat) (hc : c < 32) :
    (s.mapRejected c rule m).bit COL_MAP_STATUS_REJECT = true ∧
      (s.mapRejected c rule m).fld COL_MAP_STATUS_REJECT_RULE = rule % 8 ∧
      (s.mapRejected c rule m).fld COL_MAP_STATUS_LAST_COL = c := by
  obtain ⟨hflag, hrule, hcol⟩ := s.colRejected_shows (flag := COL_MAP_STATUS_REJECT)
    (reason := COL_MAP_STATUS_REJECT_RULE) (last := COL_MAP_STATUS_LAST_COL) rule c m (by decide) (by decide) rfl
  exact ⟨hflag, hrule, hcol.trans (Nat.mod_eq_of_lt hc)⟩

end

/-- An entry that breaks an item is refused (R73). -/
theorem State.colMapWrite_of_broken {s : State} {c : Nat} {word : W24} (m : Master) {u p : Nat}
    (hu : bitsOf word.toNat 13 8 = u) (hp : bitsOf word.toNat 5 0 = p) (hrule : s.colRule c u p ≠ 0) :
    s.colMapWrite c word m = s.mapRejected c (s.colRule c u p) m := by
  rw [s.colMapWrite_eq c word m u p hu hp, if_pos hrule]

/-- t is s after column c has taken front end u and pin unit p: the entry alone is stored, and it is counted. -/
structure State.TookEntry (s t : State) (c u p : Nat) : Prop where
  keeps  : Keeps (foot [.reg COL_MAP_STATUS, .reg COL_ROVER_STATUS, .win .col, .col]) s t
  entry  : t.winN .col (0x100 + c) = u * 256 + p
  others : ∀ a, a < 2 ^ 24 → a ≠ 0x100 + c → t.win .col a = s.win .col a
  count  : t.fld COL_MAP_STATUS_CHANGE_COUNT =
    min (s.fld COL_MAP_STATUS_CHANGE_COUNT + 1) (2 ^ COL_MAP_STATUS_CHANGE_COUNT.len - 1)
  column : t.fld COL_MAP_STATUS_LAST_COL = c

/-- A sound entry that is a change is taken (R73). -/
theorem State.colMapWrite_takes {s : State} {c : Nat} {word : W24} (m : Master) {u p : Nat} (hc : c < 32)
    (hu : bitsOf word.toNat 13 8 = u) (hp : bitsOf word.toNat 5 0 = p) (hrule : s.colRule c u p = 0)
    (hchange : u ≠ s.colFe c ∨ p ≠ s.colPin c) : s.TookEntry (s.colMapWrite c word m) c u p := by
  have hu64 : u < 64 := hu ▸ Nat.mod_lt _ (by decide)
  have hp64 : p < 64 := hp ▸ Nat.mod_lt _ (by decide)
  rw [s.colMapWrite_eq c word m u p hu hp, if_neg (not_not_intro hrule), if_neg (not_and_or.2 hchange)]
  have hserves : Keeps (foot [.reg COL_ROVER_STATUS, .col]) (s.entryStored c u p)
      (((s.entryStored c u p).holdCol c 8).spareServes c u) :=
    (State.spareServes_keeps _ c u).stepFoot (by simp) ((State.holdCol_keeps _ c 8).monoFoot (by simp))
  have hafter := (State.mapCounted_keeps _ c).stepFoot (qs := [.reg COL_MAP_STATUS, .reg COL_ROVER_STATUS, .col])
    (by simp) (hserves.monoFoot (by simp))
  obtain ⟨hentry, hothers⟩ := hafter.storesWord (by decide +kernel) (by omega) (by omega)
  exact {
    keeps := hafter.stepFoot (by simp) ((s.entryStored_keeps c u p).monoFoot (by simp))
    entry := hentry
    others := hothers
    count := by
      rw [State.mapCounted_count, hserves.fld (by decide +kernel), (s.entryStored_keeps c u p).fld (by decide +kernel)]
    column := State.mapCounted_column _ c hc }

/-! ### The commands of the column map -/

section
variable {s : State} (hclk : s.tm.clk = true) (hpow : s.pin.fieldPower = true) (c : Fin 32) (m : Master)
include hclk hpow

theorem execColMapWrite_launched (word : W24) :
    exec (.colMapWrite c word ⟨m, true⟩) s = .next (s.colMapWrite c.val word m) := by
  refine congrArg Host.Outcome.next ((State.onField_of_powered hclk hpow _).trans ?_)
  rw [State.colWinWrite, if_neg (by omega), if_pos (by omega), if_pos rfl, Nat.add_sub_cancel_left]

/-- A map entry needs a launch postmark (R73). -/
theorem execColMapWrite_unlaunched (word : W24) :
    exec (.colMapWrite c word ⟨m, false⟩) s = .next (s.raiseWith .col 4 (winRaise m .col)) := by
  refine congrArg Host.Outcome.next ((State.onField_of_powered hclk hpow _).trans ?_)
  rw [State.colWinWrite, if_neg (by omega), if_pos (by omega), if_neg Bool.false_ne_true]

end

/-- COL_SPARE_CTRL takes its value, then the entry of column c names front end u and its own pin unit (R116). -/
def State.spareTo (s : State) (v : Word) (c u : Nat) (m : Master) : State :=
  (s.storeRw COL_SPARE_CTRL v).colMapWrite c (BitVec.ofNat 24 (u * 256 + s.colPin c)) m

/-- OP 1 and OP 2 of COL_SPARE_CTRL and the column, as the commands give them (Table 05-7). -/
theorem spareCtrl_value : ∀ c : Fin 32,
    (bitsOf (BitVec.ofNat 32 (2 ^ 16 + c.val)).toNat 17 16 = 1 ∧
      (BitVec.ofNat 32 (2 ^ 16 + c.val)).toNat % 32 = c.val) ∧
    bitsOf (BitVec.ofNat 32 (2 ^ 17 + c.val)).toNat 17 16 = 2 ∧
      (BitVec.ofNat 32 (2 ^ 17 + c.val)).toNat % 32 = c.val := by
  decide

section
variable {s : State} (hclk : s.tm.clk = true) (hpow : s.pin.fieldPower = true) (c : Fin 32) (m : Master)
include hclk hpow

theorem execColSpareSwap_launched : exec (.colSpareSwap c ⟨m, true⟩) s =
    .next (s.spareTo (BitVec.ofNat 32 (2 ^ 16 + c.val)) c.val (groupSpare 32 (s.colPin c.val)) m) := by
  obtain ⟨⟨hop, hcol⟩, -⟩ := spareCtrl_value c
  refine congrArg Host.Outcome.next ((State.onField_of_powered hclk hpow _).trans ?_)
  simp only [State.spareCtrl, hop, hcol, true_or, if_true]
  rfl

theorem execColSpareRestore_launched : exec (.colSpareRestore c ⟨m, true⟩) s =
    .next (s.spareTo (BitVec.ofNat 32 (2 ^ 17 + c.val)) c.val (s.colPin c.val) m) := by
  obtain ⟨-, hop, hcol⟩ := spareCtrl_value c
  refine congrArg Host.Outcome.next ((State.onField_of_powered hclk hpow _).trans ?_)
  simp only [State.spareCtrl, hop, hcol, or_true, if_true, OfNat.ofNat_ne_one, if_false]
  rfl

end

/-- The word of a map entry gives back its front end and its pin unit (Table 03-6). -/
theorem bitsOf_entry {u p : Nat} (hu : u < 64) (hp : p < 64) :
    bitsOf (BitVec.ofNat 24 (u * 256 + p)).toNat 13 8 = u ∧ bitsOf (BitVec.ofNat 24 (u * 256 + p)).toNat 5 0 = p := by
  rw [BitVec.toNat_ofNat, bitsOf, bitsOf]
  omega

/-- A sound swap or restore is a sound column map write, after the store in COL_SPARE_CTRL alone (R116). -/
theorem State.spareTo_takes {s : State} (v : Word) {c u : Nat} (m : Master) (hc : c < 32)
    (hrule : mapRule 32 34 u (s.colPin c) (s.otherCols c) = 0)
    (hset : settingsValid (s.winN .col (s.colPin c)) = true) (hchange : u ≠ s.colFe c) :
    Keeps (foot [.reg COL_SPARE_CTRL, .reg COL_MAP_STATUS, .reg COL_ROVER_STATUS, .win .col, .col]) s
        (s.spareTo v c u m) ∧
      (s.spareTo v c u m).winN .col (0x100 + c) = u * 256 + s.colPin c ∧
      ∀ a, a < 2 ^ 24 → a ≠ 0x100 + c → (s.spareTo v c u m).win .col a = s.win .col a := by
  obtain ⟨hu34, hp34⟩ := lt_of_mapRule_eq_zero hrule
  obtain ⟨hu, hp⟩ := bitsOf_entry (u := u) (p := s.colPin c) (by omega) (by omega)
  have hstore : Keeps (foot [.reg COL_SPARE_CTRL]) s (s.storeRw COL_SPARE_CTRL v) := s.setReg_keeps_reg ..
  have htook : (s.storeRw COL_SPARE_CTRL v).TookEntry (s.spareTo v c u m) c u (s.colPin c) :=
    State.colMapWrite_takes m hc hu hp (State.colRule_of_sound hrule hset) (.inl hchange)
  exact ⟨htook.keeps.stepFoot (by simp) (hstore.monoFoot (by simp)), htook.entry, htook.others⟩

/-! ### Settings words (R103, R105) -/

/-- A settings word write is refused with the reason and the pin unit. -/
abbrev State.settingsRejected (s : State) (p reason : Nat) (m : Master) : State :=
  s.colRejected COL_MAP_STATUS_SET_REJECT COL_MAP_STATUS_SET_REASON COL_MAP_STATUS_LAST_PIN reason p m

theorem State.settingsRejected_shows (s : State) (p : Nat) {reason : Nat} (m : Master) (hr : reason < 8) :
    (s.settingsRejected p reason m).bit COL_MAP_STATUS_SET_REJECT = true ∧
      (s.settingsRejected p reason m).fld COL_MAP_STATUS_SET_REASON = reason := by
  obtain ⟨hflag, hreason, -⟩ := s.colRejected_shows (flag := COL_MAP_STATUS_SET_REJECT)
    (reason := COL_MAP_STATUS_SET_REASON) (last := COL_MAP_STATUS_LAST_PIN) reason p m (by decide) (by decide) rfl
  exact ⟨hflag, hreason.trans (Nat.mod_eq_of_lt hr)⟩

/-- A settings word x changes MODE or bit 8 of a pin unit with the word old, which an enabled one refuses (R105). -/
def changesMode (x old : Nat) : Bool := bitOf x 3 != bitOf old 3 || bitOf x 8 != bitOf old 8

theorem changesMode_eq_false_iff {x old : Nat} :
    changesMode x old = false ↔ bitOf x 3 = bitOf old 3 ∧ bitOf x 8 = bitOf old 8 := by
  rw [changesMode, Bool.or_eq_false_iff, bne_eq_false_iff_eq, bne_eq_false_iff_eq]

section
variable {s : State} {p : Nat} {word : W24} {x : Nat} (m : Master) (launched : Bool)
  (hx : word.toNat &&& 0x0F010F = x)
include hx

theorem State.settingsWrite_of_invalid (h : settingsValid x = false) :
    s.settingsWrite p word m launched = s.settingsRejected p 2 m := by
  simp only [State.settingsWrite, hx, h, Bool.not_false, if_true]
  rfl

theorem State.settingsWrite_of_enabled (h : settingsValid x = true) (hen : s.pinEnabled p = true)
    (hmode : changesMode x (s.winN .col p) = true) :
    s.settingsWrite p word m launched = s.settingsRejected p 1 m := by
  unfold changesMode at hmode
  simp only [State.settingsWrite, hx, h, hen, hmode, Bool.not_true, Bool.false_eq_true, Bool.and_true, if_false,
    if_true]
  rfl

/-- A word that is not refused is stored; after it come HOLD of the columns and the sticky reason alone (R8, R114). -/
theorem State.settingsWrite_keeps_stored (h : settingsValid x = true)
    (hfree : (changesMode x (s.winN .col p) && s.pinEnabled p) = false) :
    Keeps (foot [.reg GLB_DETERMINISM, .faults, .col]) (s.setWinN .col p x) (s.settingsWrite p word m launched) := by
  unfold changesMode at hfree
  simp only [State.settingsWrite, hx, h, hfree, Bool.not_true, Bool.false_eq_true, if_false]
  refine (State.param_keeps _ _ _).stepFoot (by simp) (Keeps.ite ?_ (Keeps.refl _ _))
  exact Keeps.forEach _ _ (fun t c ht => (t.holdCol_keeps c 8).stepFoot (by simp) ht) (Keeps.refl _ _)

end

/-! ### Trims (R107) -/

/-- The word of a trim set is stored; after it come HOLD of its column and the sticky reason alone (R8, R107). -/
theorem State.trimWrite_keeps_stored (s : State) (f g k : Nat) (word : W24) (launched : Bool) :
    Keeps (foot [.reg GLB_DETERMINISM, .faults, .col])
      (s.setWinN .col (0x200 + 16 * f + 2 * g + k) (word.toNat &&& trimMask k))
      (s.trimWrite f g k word launched) := by
  unfold State.trimWrite
  refine (State.param_keeps _ _ _).stepFoot (by simp) ?_
  split
  · exact Keeps.ite ((State.holdCol_keeps _ _ 0).monoFoot (by simp)) (Keeps.refl _ _)
  · exact Keeps.refl _ _

/-- Settles O29: each write is refused as a whole, or stores its word before all else that it does. -/
theorem columnMapSettingsAndTrims : Obligations.ColumnMapSettingsAndTrims := by
  intro s hclk hpow
  have masked_lt (word : W24) (k : Nat) : word.toNat &&& k < 2 ^ 24 := Nat.lt_of_le_of_lt Nat.and_le_left word.isLt
  refine ⟨fun c word m => ?map, fun c m k hk hrule hset hchange => ?spare, fun p word w => ?settings,
    fun f g k word w => ?trims⟩
  case map =>
    intro u p rule0 rule
    have hexec := execColMapWrite_launched hclk hpow c m word
    refine ⟨fun hrule => ?_, fun hrule hchange => ?_, ?_⟩
    · obtain ⟨hflag, hitem, hcol⟩ := s.mapRejected_shows c.val m rule c.isLt
      refine ⟨_, hexec, execColMapWrite_keeps c word ⟨m, true⟩ s hexec, ?_⟩
      rw [State.colMapWrite_of_broken m rfl rfl hrule]
      exact ⟨hflag, hitem, hcol, s.colRejected_win _ _ _ _ _ m⟩
    · obtain ⟨hkeeps, hentry, hothers, hcount, hcol⟩ := State.colMapWrite_takes m c.isLt rfl rfl hrule hchange
      exact ⟨_, hexec, hkeeps, hentry, hothers, hcount, hcol⟩
    · exact ⟨_, execColMapWrite_unlaunched hclk hpow c m word, s.raiseWith_win_col _ _ _⟩
  case spare =>
    have hexec : ∃ v, exec k.1 s = .next (s.spareTo v c.val k.2 m) := by
      obtain rfl | rfl := List.mem_pair.1 hk
      · exact ⟨_, execColSpareSwap_launched hclk hpow c m⟩
      · exact ⟨_, execColSpareRestore_launched hclk hpow c m⟩
    obtain ⟨v, hexec⟩ := hexec
    exact ⟨_, hexec, State.spareTo_takes v m c.isLt hrule hset hchange⟩
  case settings =>
    intro x old
    have hexec : exec (.colSettingsWrite p word w) s = .next (s.settingsWrite p.val word w.m w.launched) :=
      congrArg Host.Outcome.next (State.onField_of_powered hclk hpow _)
    refine ⟨fun hvalid hmode => ?_, fun hinvalid => ?_, fun hvalid hen hmode => ?_⟩
    · have hfree : (changesMode x old && s.pinEnabled p.val) = false :=
        Bool.and_eq_false_iff.2 (hmode.symm.imp_left changesMode_eq_false_iff.2)
      have hstored := State.settingsWrite_keeps_stored w.m w.launched rfl hvalid hfree
      exact ⟨_, hexec, hstored.stepFoot (by simp) ((s.setWinN_keeps .col _ _).mono (by decide +kernel)),
        hstored.storesWord (by decide +kernel) (by omega) (masked_lt ..)⟩
    · obtain ⟨hflag, hreason⟩ := s.settingsRejected_shows p.val (reason := 2) w.m (by decide)
      rw [State.settingsWrite_of_invalid _ _ rfl hinvalid] at hexec
      exact ⟨_, hexec, hflag, hreason, s.colRejected_win _ _ _ _ _ w.m⟩
    · have hchange : changesMode x old = true :=
        (Bool.not_eq_false _).mp fun h => not_and_or.2 hmode (changesMode_eq_false_iff.1 h)
      obtain ⟨hflag, hreason⟩ := s.settingsRejected_shows p.val (reason := 1) w.m (by decide)
      rw [State.settingsWrite_of_enabled _ _ rfl hvalid hen hchange] at hexec
      exact ⟨_, hexec, execColSettingsWrite_keeps p word w s hexec, hflag, hreason, s.colRejected_win _ _ _ _ _ w.m⟩
  case trims =>
    have hexec : exec (.trimSetWrite f g k word w) s = .next (s.trimWrite f.val g.val k.val word w.launched) :=
      congrArg Host.Outcome.next (State.onField_of_powered hclk hpow _)
    exact ⟨_, hexec, execTrimSetWrite_keeps f g k word w s hexec,
      (s.trimWrite_keeps_stored f.val g.val k.val word w.launched).storesWord (by decide +kernel) (by omega)
        (masked_lt ..)⟩

end Sys2Proof.Machine

/-!
Bank swap and copy (R81, R83 to R85): what a bank launch answers, what each word of the inactive bank is after a copy,
and what a cancel takes off the field queue.
-/
namespace Sys2Proof.Machine

/-! ### The banks of the palette -/

/-- One bank lies at 0 and the other at 0x100 (Table 04-13). -/
theorem State.banks_eq (s : State) :
    s.activeBank = 0x100 ∧ s.inactiveBank = 0 ∨ s.activeBank = 0 ∧ s.inactiveBank = 0x100 := by
  unfold State.activeBank State.inactiveBank
  cases s.bit PAL_STATUS_ACTIVE_BANK <;> simp

theorem State.activeBank_congr {s t : State} (h : t.bit PAL_STATUS_ACTIVE_BANK = s.bit PAL_STATUS_ACTIVE_BANK) :
    t.activeBank = s.activeBank := by
  rw [State.activeBank, State.activeBank, h]

theorem State.inactiveBank_congr {s t : State} (h : t.bit PAL_STATUS_ACTIVE_BANK = s.bit PAL_STATUS_ACTIVE_BANK) :
    t.inactiveBank = s.inactiveBank := by
  rw [State.inactiveBank, State.inactiveBank, h]

/-- A bit of a register outside the footprint keeps its value. -/
theorem Keeps.bit {M : Nat} {s t : State} (h : Keeps M s t) {f : Fld} (hf : M.testBit (regPart f.reg) = false) :
    t.bit f = s.bit f := congrArg (· == 1) (h.fld hf)

/-- Three fields of a register that are stored from the top down read back what was stored. -/
theorem State.fld_setFld_three (s : State) {f g h : Fld} (u v w : Nat) (hlen : ∀ k ∈ [f, g, h], k.lo + k.len ≤ 32)
    (hdown : [f, g, h].Pairwise (fun k l => l.lo + l.len ≤ k.lo)) :
    (((s.setFld f u).setFld g v).setFld h w).fld f = u % 2 ^ f.len ∧
      (((s.setFld f u).setFld g v).setFld h w).fld g = v % 2 ^ g.len ∧
      (((s.setFld f u).setFld g v).setFld h w).fld h = w % 2 ^ h.len := by
  simp only [List.forall_mem_cons, List.pairwise_cons, List.not_mem_nil] at hlen hdown
  obtain ⟨hf, hg, hh, -⟩ := hlen
  obtain ⟨⟨hfg, hfh, -⟩, ⟨hgh, -⟩, -⟩ := hdown
  refine ⟨?_, ?_, State.fld_setFld_same _ _ _ hh⟩
  · rw [State.fld_setFld_other _ _ hh (.inr (.inl hfh)), State.fld_setFld_other _ _ hg (.inr (.inl hfg)),
      State.fld_setFld_same _ _ _ hf]
  · rw [State.fld_setFld_other _ _ hh (.inr (.inl hgh)), State.fld_setFld_same _ _ _ hg]

/-! ### PAL_BANK_LAUNCH (R84) -/

/-- The postmark that a write of PAL_BANK_LAUNCH_HI completes. -/
def State.swapAt (s : State) (hi : Word) : PM :=
  BitVec.ofNat 48 (hi.toNat % 65536 * 2 ^ 32 + (s.reg PAL_BANK_LAUNCH_LO).toNat)

/-- PAL_BANK_LAUNCH_HI takes its value. -/
def State.swapNamed (s : State) (hi : Word) : State :=
  s.setReg PAL_BANK_LAUNCH_HI (BitVec.ofNat 32 (hi.toNat % 65536))

/-- The swap is not queued, and PAL raises its source 1 (R84). -/
def State.swapRefused (s : State) (m : Master) : State := s.raiseWith .pal 1 (writeRaise m PAL_BANK_LAUNCH_HI)

/-- The bank to be swapped in fails its check at pin unit p for a reason (R81, Table 04-5). -/
def State.bankRefused (s : State) (p reason : Nat) : State :=
  ((s.setFld PAL_STATUS_SWAP_STATUS 7).setFld PAL_STATUS_BANK_CHECK reason).setFld PAL_STATUS_CHECK_ENTRY p

/-- The swap joins the field queue (R84). -/
def State.swapQueued (s : State) (e : LEntry) : State :=
  ((s.setFld PAL_STATUS_SWAP_STATUS 0).enqueue .field e).setBit PAL_STATUS_SWAP_PENDING true

section
variable (s : State) (hi : Word) (m : Master)

theorem State.setReg_launch :
    s.setReg PAL_BANK_LAUNCH_HI (BitVec.ofNat 32 (hi.toNat % 65536)) = s.swapNamed hi := (rfl)

theorem State.swapNamed_keeps : Keeps (foot [.reg PAL_BANK_LAUNCH_HI]) s (s.swapNamed hi) := s.setReg_keeps_reg ..

@[simp] theorem State.swapNamed_hostQ : (s.swapNamed hi).hostQ = s.hostQ := s.setReg_hostQ ..

@[simp] theorem State.swapNamed_fieldQ : (s.swapNamed hi).fieldQ = s.fieldQ := s.setReg_fieldQ ..

@[simp] theorem State.swapNamed_swapPending : (s.swapNamed hi).swapPending = s.swapPending := (rfl)

@[simp] theorem State.swapNamed_copyBusy :
    (s.swapNamed hi).bit PAL_STATUS_COPY_BUSY = s.bit PAL_STATUS_COPY_BUSY :=
  (s.swapNamed_keeps hi).bit (by decide +kernel)

@[simp] theorem State.swapNamed_bankCheck :
    (s.swapNamed hi).bankCheck (s.swapNamed hi).inactiveBank = s.bankCheck s.inactiveBank := by
  rw [State.inactiveBank_congr ((s.swapNamed_keeps hi).bit (by decide +kernel))]
  rfl

@[simp] theorem State.swapNamed_launchCode (pm : PM) (n : Nat) :
    (s.swapNamed hi).launchCode .field pm n = s.launchCode .field pm n := by
  rw [State.launchCode, State.launchCode, (s.swapNamed_keeps hi).bit (by decide +kernel)]
  rfl

theorem State.swapRefused_keeps : Keeps (foot [.reg GLB_DETERMINISM, .reg LNK_DEADLETTER_COUNT,
    .reg (ENG_STATUS 0x600), .reg (ENG_STATUS 0x1B00), .flt, .win .lnk, .recTick, .bar, .faults, .cou, .bru, .lnk,
    .free, .srcs]) s (s.swapRefused m) := s.raiseWith_keeps ..

/-- A refusal leaves what PAL_STATUS shows. -/
theorem State.swapRefused_fld {f : Fld} (h : f.reg = PAL_STATUS) : (s.swapRefused m).fld f = s.fld f :=
  (s.swapRefused_keeps m).fld (by rw [h]; decide +kernel)

/-- A refusal leaves the field queue as it is. -/
theorem State.swapRefused_fieldQ : (s.swapRefused m).fieldQ = s.fieldQ :=
  (s.swapRefused_keeps m).fieldQ (by decide +kernel)

theorem State.bankRefused_shows (p reason : Nat) :
    (s.bankRefused p reason).fld PAL_STATUS_SWAP_STATUS = 7 ∧
      (s.bankRefused p reason).fld PAL_STATUS_BANK_CHECK = reason % 16 ∧
      (s.bankRefused p reason).fld PAL_STATUS_CHECK_ENTRY = p % 128 :=
  s.fld_setFld_three (f := PAL_STATUS_SWAP_STATUS) (g := PAL_STATUS_BANK_CHECK) (h := PAL_STATUS_CHECK_ENTRY) 7 reason p
    (by decide) (by decide)

theorem State.bankRefused_fieldQ (p reason : Nat) : (s.bankRefused p reason).fieldQ = s.fieldQ := by
  simp only [State.bankRefused, State.setFld_fieldQ]

theorem State.swapQueued_keeps (e : LEntry) : Keeps (foot [.reg PAL_STATUS, .hostQ, .fieldQ]) s (s.swapQueued e) :=
  (State.setReg_keeps_reg _ PAL_STATUS _).stepFoot (by simp) <|
    (State.enqueue_keeps _ .field e).stepFoot (by simp) <|
      (State.setReg_keeps_reg _ PAL_STATUS _).monoFoot (by simp)

/-- An entry for the field die is none of the host queue's. -/
theorem State.enqueue_field_hostQ (e : LEntry) : (s.enqueue .field e).hostQ = s.hostQ := (rfl)

theorem State.swapQueued_hostQ (e : LEntry) : (s.swapQueued e).hostQ = s.hostQ := by
  rw [State.swapQueued, State.setBit_hostQ, State.enqueue_field_hostQ, State.setFld_hostQ]

theorem State.swapQueued_fieldQ (e : LEntry) : (s.swapQueued e).fieldQ = s.fieldQ ++ [e] := by
  rw [State.swapQueued, State.setBit_fieldQ]
  exact (s.setFld PAL_STATUS_SWAP_STATUS 0).enqueue_queue .field e

theorem State.swapQueued_pending (e : LEntry) : (s.swapQueued e).bit PAL_STATUS_SWAP_PENDING = true :=
  State.bit_setBit_same _ _ _ (by decide) rfl

theorem State.swapQueued_status (e : LEntry) : (s.swapQueued e).fld PAL_STATUS_SWAP_STATUS = 0 := by
  rw [State.swapQueued, State.setBit, State.fld_setFld_other _ _ (by decide) (by decide),
    (State.enqueue_keeps _ .field e).fld (by decide +kernel), State.fld_setFld_same _ _ _ (by decide)]
  rfl

variable {s}

/-- One swap at a time: with one pending another is a double (R84). -/
theorem State.palSubmit_of_pending (h : s.swapPending = true) :
    s.palSubmit m hi = ((s.swapNamed hi).setBit PAL_STATUS_SWAP_DOUBLE true).swapRefused m := if_pos h

theorem State.palSubmit_of_failing {p reason : Nat} (hpend : s.swapPending = false)
    (hbusy : s.bit PAL_STATUS_COPY_BUSY = false) (hcheck : s.bankCheck s.inactiveBank = some (p, reason)) :
    s.palSubmit m hi = ((s.swapNamed hi).bankRefused p reason).swapRefused m := by
  simp only [State.palSubmit, s.setReg_launch hi, State.swapNamed_swapPending, State.swapNamed_copyBusy,
    State.swapNamed_bankCheck, hpend, hbusy, hcheck, Bool.false_eq_true, if_false]
  rfl

theorem State.palSubmit_of_sound (hpend : s.swapPending = false) (hbusy : s.bit PAL_STATUS_COPY_BUSY = false)
    (hcheck : s.bankCheck s.inactiveBank = none) (hcode : s.launchCode .field (s.swapAt hi) 64 = 0) :
    s.palSubmit m hi =
      (s.swapNamed hi).swapQueued ⟨s.swapAt hi, PAL_BANK_LAUNCH_HI, hi, m, 0, .bankSwap, 0⟩ := by
  unfold State.swapAt at hcode
  simp only [State.palSubmit, s.setReg_launch hi, State.swapNamed_swapPending, State.swapNamed_copyBusy,
    State.swapNamed_bankCheck, State.swapNamed_launchCode, hpend, hbusy, hcheck, hcode, Bool.false_eq_true, if_false,
    if_true]
  rfl

end

/-! ### PAL_COPY (R83) -/

/-- The copy of n words of the active bank from word k on. -/
def State.copyWords (s : State) (k n : Nat) : State :=
  forEach (List.range n) (fun t j =>
    t.setWin .pal (s.inactiveBank + (k + j)) (s.win .pal (s.activeBank + (k + j)))) s

/-- What has been copied is in the inactive bank; every other word is as it was. -/
theorem State.copyWords_win (s : State) {k n x : Nat} (hn : n ≤ 136 - k) (hx : x < 2 ^ 24) :
    (s.copyWords k n).win .pal x =
      if s.inactiveBank + k ≤ x ∧ x < s.inactiveBank + k + n then s.win .pal (s.activeBank + (x - s.inactiveBank))
      else s.win .pal x := by
  induction n with
  | zero => rw [if_neg (by omega)]; rfl
  | succ n ih =>
    have hbanks := s.banks_eq
    have hsplit : s.copyWords k (n + 1) = (s.copyWords k n).setWin .pal (s.inactiveBank + (k + n))
        (s.win .pal (s.activeBank + (k + n))) := by
      simp [State.copyWords, forEach, List.range_succ]
    have hlt : s.inactiveBank + (k + n) < 2 ^ 24 := by omega
    rw [hsplit]
    by_cases hlast : x = s.inactiveBank + (k + n)
    · rw [hlast, State.win_setWin_same, if_pos (by omega), Nat.add_sub_cancel_left]
    · have hkey : winKey .pal (s.inactiveBank + (k + n)) ≠ winKey .pal x := fun h => by
        have hmod := (winKey_inj h).2
        rw [Nat.mod_eq_of_lt hlt, Nat.mod_eq_of_lt hx] at hmod
        exact hlast hmod.symm
      rw [State.win_setWin_other _ _ hkey, ih (by omega)]
      exact if_congr (by omega) rfl rfl

theorem State.palCopyRest_of_pos {s : State} {k : Nat} (h : s.pal.copyPos = some k) :
    s.palCopyRest =
      { s.copyWords k (136 - k) with pal := { (s.copyWords k (136 - k)).pal with copyPos := none } } := by
  unfold State.palCopyRest
  rw [h]
  rfl

theorem State.palCopyEnd_win {s : State} {k x : Nat} (h : s.pal.copyPos = some k) (hx : x < 2 ^ 24) :
    s.palCopyEnd.win .pal x =
      if s.inactiveBank + k ≤ x ∧ x < s.inactiveBank + k + (136 - k) then
        s.win .pal (s.activeBank + (x - s.inactiveBank))
      else s.win .pal x := by
  rw [State.palCopyEnd, State.dropTimers_win, State.setBit_win, State.palCopyRest_of_pos h,
    ← s.copyWords_win (Nat.le_refl _) hx]
  rfl

theorem State.palCopyEnd_copyBusy (s : State) : s.palCopyEnd.bit PAL_STATUS_COPY_BUSY = false := by
  rw [State.palCopyEnd, State.dropTimers_bit]
  exact State.bit_setBit_same _ _ _ (by decide) rfl

theorem State.palCopyEnd_activeBank (s : State) : s.palCopyEnd.activeBank = s.activeBank := by
  refine State.activeBank_congr ?_
  rw [State.palCopyEnd, State.dropTimers_bit, State.bit_setBit_other _ _ (by decide) (by decide)]
  exact s.palCopyRest_keeps.bit (by decide +kernel)

/-- The palette's hidden state is replaced. -/
def State.withPal (s : State) (x : PalSt) : State := { s with pal := x }

@[simp] theorem State.withPal_timers (s : State) (x : PalSt) : (s.withPal x).timers = s.timers := (rfl)

@[simp] theorem State.withPal_tm (s : State) (x : PalSt) : (s.withPal x).tm = s.tm := (rfl)

theorem State.after_timers (s : State) (n : Nat) (i : Instr) :
    (s.after n i).timers = s.timers ++ [(s.tm.tick + n, i)] := (rfl)

@[simp] theorem State.withPal_bit (s : State) (x : PalSt) (f : Fld) : (s.withPal x).bit f = s.bit f := (rfl)

/-- A copy begins at word 0 and ends 136 ticks on (R83). -/
theorem State.palCopy_of_free {s : State} (hpend : s.swapPending = false) (hbusy : s.bit PAL_STATUS_COPY_BUSY = false) :
    s.palCopy =
      ((s.setBit PAL_STATUS_COPY_BUSY true).withPal { s.pal with copyPos := some 0 }).after 136 .palCopyDone := by
  simp only [State.palCopy, hpend, hbusy, Bool.or_false, Bool.false_eq_true, if_false, State.withPal,
    State.setBit_pal]

theorem State.palCopy_of_taken {s : State} (h : s.swapPending = true ∨ s.bit PAL_STATUS_COPY_BUSY = true) :
    s.palCopy = s.setBit PAL_STATUS_WIN_REJECT true := if_pos (Bool.or_eq_true_iff.2 h)

/-! ### SWAP_CANCEL (R85) -/

theorem State.swapCancel_of_pending {s : State} (h : s.swapPending = true) :
    s.swapCancel = ({ s with fieldQ := s.fieldQ.filter (fun e => e.kind != LKind.bankSwap) }).setBit
      PAL_STATUS_SWAP_PENDING false := if_pos h

theorem State.swapCancel_of_none {s : State} (h : s.swapPending = false) : s.swapCancel = s :=
  if_neg (ne_true_of_eq_false h)

/-! ### The commands -/

section
variable {s : State} (hclk : s.tm.clk = true) (hpow : s.pin.fieldPower = true)
include hclk hpow

theorem execPalBankLaunch_of_powered (m : Master) (hi : Word) :
    exec (.palBankLaunch m hi) s = .next (s.palSubmit m hi) :=
  congrArg Host.Outcome.next (State.onField_of_powered hclk hpow _)

theorem execPalCopy_of_powered : exec .palCopy s = .next s.palCopy :=
  congrArg Host.Outcome.next (State.onField_of_powered hclk hpow _)

theorem execPalCopyDone_of_busy (h : s.bit PAL_STATUS_COPY_BUSY = true) :
    exec .palCopyDone s = .next s.palCopyEnd :=
  congrArg Host.Outcome.next ((State.onField_of_powered hclk hpow _).trans (if_pos h))

theorem execSwapCancel_of_powered : exec .swapCancel s = .next s.swapCancel :=
  congrArg Host.Outcome.next (State.onField_of_powered hclk hpow _)

end

/-- Settles O26: each answer to a launch is one operation on PAL_STATUS and the field queue, and a copy is what each
word of the two banks reads after it. -/
theorem paletteBankSwapAndCopy : Obligations.PaletteBankSwapAndCopy := by
  intro s hclk hpow
  refine ⟨fun m hi => ?launch, fun hpend hbusy => ?copy, fun htaken => ?reject, fun k hbusy hpos => ?done,
    fun hpend => ?cancel, fun hpend => ?none⟩
  case launch =>
    intro pm
    have hpm : pm = s.swapAt hi := rfl
    clear_value pm
    subst hpm
    have hexec := execPalBankLaunch_of_powered hclk hpow m hi
    refine ⟨fun hpend hbusy hcheck hcode => ?_, fun hpend => ?_, fun p reason hpend hbusy hcheck => ?_⟩
    · rw [State.palSubmit_of_sound hi m hpend hbusy hcheck hcode] at hexec
      exact ⟨_, hexec, (State.swapQueued_keeps _ _).stepFoot (by simp) ((s.swapNamed_keeps hi).monoFoot (by simp)),
        by rw [State.swapQueued_hostQ, State.swapNamed_hostQ],
        by rw [State.swapQueued_fieldQ, State.swapNamed_fieldQ],
        State.swapQueued_pending _ _, State.swapQueued_status _ _⟩
    · refine ⟨_, hexec, execPalBankLaunch_keeps m hi s hexec, ?_, ?_⟩
      · rw [State.palSubmit_of_pending hi m hpend, State.swapRefused_fieldQ, State.setBit_fieldQ,
          State.swapNamed_fieldQ]
      · rw [State.palSubmit_of_pending hi m hpend, State.bit, State.swapRefused_fld _ _ rfl]
        exact State.bit_setBit_same _ _ _ (by decide) rfl
    · rw [State.palSubmit_of_failing hi m hpend hbusy hcheck] at hexec
      obtain ⟨hstatus, hreason, hentry⟩ := (s.swapNamed hi).bankRefused_shows p reason
      refine ⟨_, hexec, ?_, ?_, ?_, ?_⟩
      · rw [State.swapRefused_fieldQ, State.bankRefused_fieldQ, State.swapNamed_fieldQ]
      · rw [State.swapRefused_fld _ _ rfl, hstatus]
      · rw [State.swapRefused_fld _ _ rfl, hreason]
      · rw [State.swapRefused_fld _ _ rfl, hentry]
  case copy =>
    have hexec := execPalCopy_of_powered hclk hpow
    refine ⟨_, hexec, execPalCopy_keeps s hexec, ?_⟩
    rw [State.palCopy_of_free hpend hbusy]
    refine ⟨?_, rfl, by simp only [State.after_timers, State.withPal_timers, State.withPal_tm, State.setBit_timers,
      State.setBit_tm]⟩
    rw [State.after_bit, State.withPal_bit]
    exact s.bit_setBit_same _ _ (by decide) rfl
  case reject =>
    have hexec := execPalCopy_of_powered hclk hpow
    rw [State.palCopy_of_taken htaken] at hexec
    exact ⟨_, hexec, s.setReg_keeps_reg PAL_STATUS _, s.bit_setBit_same _ _ (by decide) rfl⟩
  case done =>
    have hexec := execPalCopyDone_of_busy hclk hpow hbusy
    have hbanks := s.banks_eq
    refine ⟨_, hexec, execPalCopyDone_keeps s hexec, s.palCopyEnd_copyBusy, s.palCopyEnd_activeBank,
      fun a hka ha => ?_, fun a ha => ?_⟩
    · rw [State.palCopyEnd_win hpos (by omega), if_pos (by omega), Nat.add_sub_cancel_left]
    · rw [State.palCopyEnd_win hpos (by omega), if_neg (by omega)]
  case cancel =>
    have hexec := execSwapCancel_of_powered hclk hpow
    refine ⟨_, hexec, execSwapCancel_keeps s hexec, ?_⟩
    rw [State.swapCancel_of_pending hpend]
    exact ⟨rfl, State.bit_setBit_same _ _ _ (by decide) rfl⟩
  case none =>
    rw [execSwapCancel_of_powered hclk hpow, State.swapCancel_of_none hpend]

end Sys2Proof.Machine

/-!
The slew procedure of the row drivers (R86 to R88): what one driver does at a stroke boundary, and that each driver
that serves once does that and nothing more.
-/
namespace Sys2Proof.Machine

/-! ### Drivers one by one -/

theorem State.drv_setDrv (s : State) (d e : Nat) (x : Drv) : (s.setDrv d x).drv e = if d = e then x else s.drv e := by
  split
  next h => exact h ▸ assocGet_put_same ..
  next h => exact assocGet_put_other _ _ _ _ h

/-- A driver's state is a matter of the palette's hidden state alone. -/
theorem State.drv_congr {s t : State} (h : t.pal = s.pal) (d : Nat) : t.drv d = s.drv d := by
  rw [State.drv, State.drv, h]

/-- Drivers that no member of a list names keep their state. -/
theorem forEach_setDrv_other (g : Nat × Nat → Drv → Drv) (xs : List (Nat × Nat)) (s : State) {d : Nat}
    (h : ∀ x ∈ xs, x.1 ≠ d) : (forEach xs (fun t x => t.setDrv x.1 (g x (t.drv x.1))) s).drv d = s.drv d := by
  unfold forEach
  induction xs generalizing s with
  | nil => rfl
  | cons x xs ih =>
    rw [List.foldl_cons, ih _ fun y hy => h y (List.mem_cons_of_mem _ hy), State.drv_setDrv,
      if_neg (h x List.mem_cons_self)]

/-- Where no driver is named twice, each named one takes its own step from the state before. -/
theorem forEach_setDrv_mem (g : Nat × Nat → Drv → Drv) {xs : List (Nat × Nat)}
    (hnodup : (xs.map (fun x => x.1)).Nodup) (s : State) {x : Nat × Nat} (hx : x ∈ xs) :
    (forEach xs (fun t x => t.setDrv x.1 (g x (t.drv x.1))) s).drv x.1 = g x (s.drv x.1) := by
  induction xs generalizing s with
  | nil => cases hx
  | cons y ys ih =>
    obtain ⟨hy, hys⟩ := List.nodup_cons.1 hnodup
    have hother : ∀ z ∈ ys, z.1 ≠ y.1 := fun z hz h => hy (List.mem_map.2 ⟨z, hz, h⟩)
    obtain rfl | hmem := List.mem_cons.1 hx
    · exact (forEach_setDrv_other g ys _ hother).trans ((s.drv_setDrv ..).trans (if_pos rfl))
    · refine (ih hys _ hmem).trans ?_
      rw [State.drv_setDrv, if_neg (hother x hmem).symm]

/-- What the procedure of R88 makes of a driver of pin unit x.2. -/
def State.slewStroke (s : State) (sheet : Bool) (x : Nat × Nat) : Drv → Drv :=
  slewDrv (s.palEntry s.activeBank x.2) (s.level (s.palEntry s.activeBank x.2)) s.slewStep s.slewInterval s.draped sheet

/-- Beside the drivers a stroke notes only that one of them stepped (R91). -/
theorem State.slew_drv_eq (s : State) (sheet : Bool) (d : Nat) :
    (s.slew sheet).drv d =
      (forEach s.runners (fun t x => t.setDrv x.1 (s.slewStroke sheet x (t.drv x.1))) s).drv d := by
  unfold State.slew State.slewStroke State.drv
  extract_lets bank step iv dr s1 stepped
  split
  · show assocGet s1.pal.drv d idleDrv = _
    rfl
  · rfl

/-- At a stroke boundary a driver that serves once runs the procedure of R88 with its entry of the active bank. -/
theorem State.slew_drv {s : State} (hnodup : (s.runners.map (fun x => x.1)).Nodup) (sheet : Bool) {x : Nat × Nat}
    (hx : x ∈ s.runners) : (s.slew sheet).drv x.1 = s.slewStroke sheet x (s.drv x.1) :=
  (s.slew_drv_eq sheet x.1).trans (forEach_setDrv_mem (s.slewStroke sheet) hnodup s hx)

/-! ### The procedure of one driver (R88) -/

/-- The driver synthesises the carrier, phase and range of the entry. -/
def synthesises (e : PalEntry) (d : Drv) : Bool := e.k == d.k && e.phase == d.ph && e.range == d.rg

theorem synthesises_iff {e : PalEntry} {d : Drv} :
    synthesises e d = true ↔ e.k = d.k ∧ e.phase = d.ph ∧ e.range = d.rg := by
  simp [synthesises, and_assoc]

/-- The level that the amplitude moves towards (R87). -/
def slewGoal (e : PalEntry) (lvl : Nat) (d : Drv) : Nat := if e.en && synthesises e d then lvl else 0

/-- The amplitude moves by at most STEP towards its goal once an interval (R86). -/
def slewTo (goal step interval : Nat) (d : Drv) : Drv :=
  if d.a = goal then { d with c := 0 }
  else if d.c + 1 < interval then { d with c := d.c + 1 }
  else if d.a < goal then { d with a := d.a + min step (goal - d.a), c := 0 }
  else { d with a := d.a - min step (d.a - goal), c := 0 }

/-- At zero a sheet boundary gives an enabled entry that is not yet synthesised, and SWITCH begins (R88). -/
def takeEntry (e : PalEntry) (sheet : Bool) (d : Drv) : Drv :=
  if d.a = 0 ∧ e.en = true ∧ synthesises e d = false ∧ sheet = true then
    { d with k := e.k, ph := e.phase, rg := e.range, w := 4 }
  else d

theorem slewDrv_draped (e : PalEntry) (lvl step interval : Nat) (sheet : Bool) (d : Drv) :
    (slewDrv e lvl step interval true sheet d).a = 0 ∧ (slewDrv e lvl step interval true sheet d).c = 0 := by
  simp [slewDrv]

section
variable (goal step interval : Nat) (e : PalEntry) (sheet : Bool) (d : Drv)

theorem slewTo_carrier : (slewTo goal step interval d).k = d.k ∧ (slewTo goal step interval d).ph = d.ph ∧
    (slewTo goal step interval d).rg = d.rg ∧ (slewTo goal step interval d).w = d.w := by
  unfold slewTo
  split_ifs <;> exact ⟨rfl, rfl, rfl, rfl⟩

/-- A step of the amplitude changes nothing of what is synthesised. -/
theorem synthesises_slewTo : synthesises e (slewTo goal step interval d) = synthesises e d := by
  obtain ⟨hk, hph, hrg, -⟩ := slewTo_carrier goal step interval d
  rw [synthesises, synthesises, hk, hph, hrg]

@[simp] theorem takeEntry_a : (takeEntry e sheet d).a = d.a := by
  unfold takeEntry
  split <;> rfl

@[simp] theorem takeEntry_c : (takeEntry e sheet d).c = d.c := by
  unfold takeEntry
  split <;> rfl

variable {goal step interval e sheet d}

theorem slewTo_at_goal (h : d.a = goal) :
    (slewTo goal step interval d).a = d.a ∧ (slewTo goal step interval d).c = 0 := by
  rw [slewTo, if_pos h]
  exact ⟨rfl, rfl⟩

theorem slewTo_counts (h : d.a ≠ goal) (hc : d.c + 1 < interval) :
    (slewTo goal step interval d).a = d.a ∧ (slewTo goal step interval d).c = d.c + 1 := by
  rw [slewTo, if_neg h, if_pos hc]
  exact ⟨rfl, rfl⟩

theorem slewTo_rises (h : d.a < goal) (hc : interval ≤ d.c + 1) :
    (slewTo goal step interval d).a = d.a + min step (goal - d.a) ∧ (slewTo goal step interval d).c = 0 := by
  rw [slewTo, if_neg h.ne, if_neg (Nat.not_lt.2 hc), if_pos h]
  exact ⟨rfl, rfl⟩

theorem slewTo_falls (h : goal < d.a) (hc : interval ≤ d.c + 1) :
    (slewTo goal step interval d).a = d.a - min step (d.a - goal) ∧ (slewTo goal step interval d).c = 0 := by
  rw [slewTo, if_neg h.ne', if_neg (Nat.not_lt.2 hc), if_neg (Nat.lt_asymm h)]
  exact ⟨rfl, rfl⟩

theorem takeEntry_takes (ha : d.a = 0) (hen : e.en = true) (hsame : synthesises e d = false) (hsheet : sheet = true) :
    takeEntry e sheet d = { d with k := e.k, ph := e.phase, rg := e.range, w := 4 } :=
  if_pos ⟨ha, hen, hsame, hsheet⟩

theorem takeEntry_stays (h : d.a ≠ 0 ∨ e.en = false ∨ synthesises e d = true ∨ sheet = false) :
    takeEntry e sheet d = d := by
  refine if_neg fun ⟨ha, hen, hsame, hsheet⟩ => ?_
  obtain h | h | h | h := h
  · exact h ha
  · exact Bool.false_ne_true (h.symm.trans hen)
  · exact Bool.false_ne_true (hsame.symm.trans h)
  · exact Bool.false_ne_true (h.symm.trans hsheet)

/-- A driver that is neither draped nor overloaded nor in SWITCH moves its amplitude, then takes an entry; beside that
only HOLD of its row is noted (R88, R90). -/
theorem slewDrv_active (lvl : Nat) (hovl : d.ovl = false) (hw : d.w = 0) :
    ∃ hist, slewDrv e lvl step interval false sheet d =
      { takeEntry e sheet (slewTo (slewGoal e lvl d) step interval d) with hist := hist } := by
  obtain ⟨x, hx⟩ : ∃ x, slewDrv e lvl step interval false sheet d = x := ⟨_, rfl⟩
  rw [hx]
  unfold slewDrv at hx
  extract_lets d0 inSwitch d1 same goal c1 stepNow a' c' d2 toSwitch d3 at hx
  have hd0 : d0 = d := if_neg (by simp [hovl])
  have hd1 : d1 = d := (if_pos (by rw [hd0, hw])).trans hd0
  have hswitch : inSwitch = false := by simp [inSwitch, hd0, hw]
  have hsame : same = synthesises e d := by rw [← hd1]; rfl
  have hgoal : goal = slewGoal e lvl d := by rw [slewGoal, ← hsame]
  have hd2 : d2 = slewTo (slewGoal e lvl d) step interval d := by
    rw [← hgoal]
    simp only [d2, a', c', stepNow, c1, hd1, slewTo]
    by_cases ha : d.a = goal
    · simp [ha]
    · by_cases hc : d.c + 1 < interval
      · simp [ha, hc]
      · by_cases hlt : d.a < goal <;> simp [ha, hc, hlt, Nat.not_lt.1 hc]
  have hd3 : d3 = takeEntry e sheet d2 := by
    have hkept : synthesises e d2 = same := by rw [hd2, synthesises_slewTo, hsame]
    rw [takeEntry, hkept]
    exact if_congr (by simp [toSwitch, and_assoc]) rfl rfl
  rw [if_neg (by simp [hd0, hovl]), if_neg (by simp [hswitch])] at hx
  rw [← hx, ← hd2, ← hd3]
  split
  · exact ⟨_, rfl⟩
  · exact ⟨d3.hist, rfl⟩

end

/-! ### The command -/

section
variable {s : State} (hclk : s.tm.clk = true) (hpow : s.pin.fieldPower = true)
include hclk hpow

theorem execSlewStroke_of_clamps (h : s.pal.clamps = true) : exec .slewStroke s = .next s :=
  congrArg Host.Outcome.next ((State.onField_of_powered hclk hpow _).trans (if_pos h))

theorem execSlewStroke_of_released (h : s.pal.clamps = false) :
    exec .slewStroke s = .next (s.slew (isSheet s.tm.fpm)) :=
  congrArg Host.Outcome.next ((State.onField_of_powered hclk hpow _).trans
    (if_neg (ne_true_of_eq_false h)))

end

/-- Settles O27: a driver that serves once takes the step of slewDrv, which moves the amplitude and then the carrier. -/
theorem rowAmplitudesSlewToTheirGoals : Obligations.RowAmplitudesSlewToTheirGoals := by
  refine ⟨fun s hclk hpow hclamps => execSlewStroke_of_clamps hclk hpow hclamps, fun s hclk hpow hclamps hnodup => ?_⟩
  have hexec := execSlewStroke_of_released hclk hpow hclamps
  refine ⟨_, hexec, execSlewStroke_keeps s hexec, fun x hx => ?_⟩
  rw [State.slew_drv hnodup _ hx]
  intro e d d' same goal
  refine ⟨fun hdraped => ?draped, fun hdraped hovl hw => ?active⟩
  case draped =>
    show (slewDrv ..).a = 0 ∧ (slewDrv ..).c = 0
    rw [hdraped]
    exact slewDrv_draped ..
  case active =>
    obtain ⟨hist, hstep⟩ := slewDrv_active (e := e) (sheet := isSheet s.tm.fpm) (step := s.slewStep)
      (interval := s.slewInterval) (s.level e) hovl hw
    rw [← hdraped] at hstep
    have hsame : synthesises e d = true ↔ same := synthesises_iff
    have hgoal : slewGoal e (s.level e) d = goal := by
      rw [slewGoal]
      exact if_congr (by rw [Bool.and_eq_true, hsame]) rfl rfl
    rw [hgoal] at hstep
    have hd' : d' = { takeEntry e (isSheet s.tm.fpm) (slewTo goal s.slewStep s.slewInterval d) with hist := hist } :=
      hstep
    obtain ⟨hk, hph, hrg, hw'⟩ := slewTo_carrier goal s.slewStep s.slewInterval d
    have hkept := synthesises_slewTo goal s.slewStep s.slewInterval e d
    have ha : d'.a = (slewTo goal s.slewStep s.slewInterval d).a := by rw [hd']; exact takeEntry_a ..
    have hc : d'.c = (slewTo goal s.slewStep s.slewInterval d).c := by rw [hd']; exact takeEntry_c ..
    rw [ha, hc]
    refine ⟨slewTo_at_goal, slewTo_counts, slewTo_rises, slewTo_falls, fun hzero hen hother hsheet => ?_,
      fun hstay => ?_⟩
    · rw [hd', takeEntry_takes hzero hen (hkept.trans (Bool.eq_false_iff.2 (mt hsame.1 hother))) hsheet]
      exact ⟨rfl, rfl, rfl, rfl⟩
    · rw [hd', takeEntry_stays (hstay.imp_right (Or.imp_right (Or.imp_left fun h => hkept.trans (hsame.2 h))))]
      exact ⟨hk, hph, hrg, hw'.trans hw⟩

end Sys2Proof.Machine

/-!
Overloads, spares and the row map (R70, R73, R98 to R100): what a declared overload leaves and counts, which latch a
clear takes away, and what a map write stores or says of an entry that it refuses.
-/
namespace Sys2Proof.Machine

/-! ### ROW_OVERLOAD (R98) -/

/-- The driver is off, with its overload latched and HOLD on this sheet and the one before. -/
def Drv.overloaded (x : Drv) : Drv := { x with ovl := true, ltch := true, a := 0, c := 0, hist := x.hist ||| 3 }

/-- The first overload since LATCH was cleared is named (Table 04-12). -/
def State.overloadNamed (s : State) (d : Nat) : State :=
  if s.bit EXC_OVERLOAD_STATUS_LATCH then s
  else (s.setBit EXC_OVERLOAD_STATUS_LATCH true).setFld EXC_OVERLOAD_STATUS_FIRST_DRV d

/-- The driver is switched off, and EXC_OVERLOAD_STATUS names and counts the overload. -/
def State.overloadCounted (s : State) (d : Nat) : State :=
  ((s.setDrv d (s.drv d).overloaded).overloadNamed d).inc EXC_OVERLOAD_STATUS_COUNT

section
variable (s : State) (d : Nat)

theorem State.overload_eq :
    s.overload d = ((s.overloadCounted d).raiseUnit .pal 0 (0x40 + d)).standing .pal 0 true := (rfl)

theorem State.overloadNamed_keeps : Keeps (foot [.reg EXC_OVERLOAD_STATUS]) s (s.overloadNamed d) :=
  Keeps.ite (Keeps.refl _ s)
    ((State.setReg_keeps_reg _ EXC_OVERLOAD_STATUS _).stepFoot (by simp) (s.setReg_keeps_reg EXC_OVERLOAD_STATUS _))

theorem State.overloadNamed_latch : (s.overloadNamed d).bit EXC_OVERLOAD_STATUS_LATCH = true := by
  unfold State.overloadNamed
  split
  next h => exact h
  next =>
    rw [State.bit, State.fld_setFld_other _ _ (by decide) (by decide)]
    exact s.bit_setBit_same EXC_OVERLOAD_STATUS_LATCH true (by decide) rfl

theorem State.overloadNamed_count :
    (s.overloadNamed d).fld EXC_OVERLOAD_STATUS_COUNT = s.fld EXC_OVERLOAD_STATUS_COUNT := by
  unfold State.overloadNamed
  split
  next => rfl
  next =>
    rw [State.fld_setFld_other _ _ (by decide) (by decide), State.setBit,
      State.fld_setFld_other _ _ (by decide) (by decide)]

variable {s d}

theorem State.overloadNamed_of_latched (h : s.bit EXC_OVERLOAD_STATUS_LATCH = true) : s.overloadNamed d = s := if_pos h

theorem State.overloadNamed_first (h : s.bit EXC_OVERLOAD_STATUS_LATCH = false) (hd : d < 68) :
    (s.overloadNamed d).fld EXC_OVERLOAD_STATUS_FIRST_DRV = d := by
  rw [State.overloadNamed, if_neg (ne_true_of_eq_false h), State.fld_setFld_same _ _ _ (by decide)]
  exact Nat.mod_eq_of_lt (by show d < 2 ^ 7; omega)

variable (s d)

/-- Of the drivers an overload changes the named one alone. -/
theorem State.overloadCounted_drv (e : Nat) :
    (s.overloadCounted d).drv e = if d = e then (s.drv d).overloaded else s.drv e := by
  have hpal : (s.overloadCounted d).pal = (s.setDrv d (s.drv d).overloaded).pal :=
    (State.inc_pal ..).trans ((State.overloadNamed_keeps _ d).pal (by decide +kernel))
  rw [State.drv_congr hpal, State.drv_setDrv]

/-- A register is no matter of the drivers. -/
theorem State.setDrv_fld (x : Drv) (f : Fld) : (s.setDrv d x).fld f = s.fld f := (rfl)

theorem State.setDrv_bit (x : Drv) (f : Fld) : (s.setDrv d x).bit f = s.bit f := (rfl)

theorem State.overloadCounted_count : (s.overloadCounted d).fld EXC_OVERLOAD_STATUS_COUNT =
    min (s.fld EXC_OVERLOAD_STATUS_COUNT + 1) 255 := by
  refine (State.fld_count_same _ 1 (by decide)).trans ?_
  rw [State.overloadNamed_count, State.setDrv_fld]
  rfl

/-- The count is no matter of the other fields of EXC_OVERLOAD_STATUS above and below it. -/
theorem State.overloadCounted_fld {f : Fld} (h : 24 ≤ f.lo ∨ f.lo + f.len ≤ 16) :
    (s.overloadCounted d).fld f = ((s.setDrv d (s.drv d).overloaded).overloadNamed d).fld f :=
  State.fld_setFld_other _ _ (by decide) (.inr h)

theorem State.overloadCounted_first (h : s.bit EXC_OVERLOAD_STATUS_LATCH = false) (hd : d < 68) :
    (s.overloadCounted d).fld EXC_OVERLOAD_STATUS_FIRST_DRV = d := by
  rw [State.overloadCounted_fld _ _ (by decide), State.overloadNamed_first ((State.setDrv_bit ..).trans h) hd]

theorem State.overloadCounted_first_of_latched (h : s.bit EXC_OVERLOAD_STATUS_LATCH = true) :
    (s.overloadCounted d).fld EXC_OVERLOAD_STATUS_FIRST_DRV = s.fld EXC_OVERLOAD_STATUS_FIRST_DRV := by
  rw [State.overloadCounted_fld _ _ (by decide), State.overloadNamed_of_latched ((State.setDrv_bit ..).trans h),
    State.setDrv_fld]

theorem State.overloadCounted_latch : (s.overloadCounted d).bit EXC_OVERLOAD_STATUS_LATCH = true := by
  rw [State.bit, State.overloadCounted_fld _ _ (by decide)]
  exact State.overloadNamed_latch _ d

/-- What comes after the count: the raise, its standing condition and HOLD on the strokes before, none of which touches
a driver or EXC_OVERLOAD_STATUS. -/
theorem State.overload_after_count : Keeps (foot [.reg GLB_DETERMINISM, .reg LNK_DEADLETTER_COUNT,
    .reg (ENG_STATUS 0x600), .reg (ENG_STATUS 0x1B00), .flt, .win .lnk, .recTick, .bar, .faults, .cou, .bru, .nul, .lnk,
    .free, .srcs]) (s.overloadCounted d) ((s.overload d).strokesHold d) := by
  rw [State.overload_eq]
  exact (State.strokesHold_keeps _ d).stepFoot (by simp) <| (State.standing_keeps _ .pal 0 true).stepFoot (by simp) <|
    (State.raiseUnit_keeps _ .pal 0 _).monoFoot (by simp)

end

/-! ### OVL_LATCH_CLEAR (R98) -/

theorem State.clearOvl_of_clear {s : State} {d : Nat} (h : (s.drv d).ltch = false) (launched : Bool) :
    s.clearOvl d launched = s := if_neg (ne_true_of_eq_false h)

/-- After the latch come the sticky reason and the end of the standing condition alone. -/
theorem State.clearOvl_keeps_cleared {s : State} {d : Nat} (h : (s.drv d).ltch = true) (launched : Bool) :
    Keeps (foot [.reg GLB_DETERMINISM, .faults, .srcs]) (s.setDrv d { s.drv d with ltch := false })
      (s.clearOvl d launched) := by
  have hparam := ((s.setDrv d { s.drv d with ltch := false }).param_keeps launched true).monoFoot
    (qs := [.reg GLB_DETERMINISM, .faults, .srcs]) (by simp)
  rw [State.clearOvl, if_pos h]
  exact Keeps.ite hparam ((State.standing_keeps _ .pal 0 false).stepFoot (by simp) hparam)

/-! ### ROW_SPARE_PREP (R99) -/

/-- A write of a run-time parameter is the plain one, which then shows that the parameter has changed (R8). -/
theorem State.plainWrite_param (s : State) (i : Nat) (v : Word) (w : Writer) :
    ∃ changed, s.plainWrite i v w wholeWrite true =
      (s.plainWrite i v w wholeWrite false).param w.launched changed := ⟨_, rfl⟩

theorem execRowSparePrep_of_powered {s : State} (hclk : s.tm.clk = true) (hpow : s.pin.fieldPower = true) (v : Word)
    (w : Writer) : exec (.rowSparePrep v w) s = .next (s.plainWrite ROW_SPARE_CTRL v w wholeWrite true) :=
  congrArg Host.Outcome.next (State.onField_of_powered hclk hpow _)

/-! ### A row map write (R73, R100) -/

/-- A row map write is refused: the item and the row are shown, and PAL raises its source 2 (Table 04-10). -/
def State.rowRejected (s : State) (r rule : Nat) (m : Master) : State :=
  (((s.setBit ROW_MAP_STATUS_REJECT true).setFld ROW_MAP_STATUS_REJECT_RULE rule).setFld
    ROW_MAP_STATUS_LAST_ROW r).raiseWith .pal 2 (writeRaise m 0x11E1)

/-- The driver that takes row r: prepared for it, it goes on as it is, else it starts at zero (R99, R100). -/
def State.rowTaker (s : State) (r u : Nat) : Drv :=
  if !(decide (64 ≤ u) && s.prepReady (u - 64) && s.fld (ROW_SPARE_CTRL_ROW (u - 64)) == r) then
    { s.drv u with a := 0, c := 0, w := 0, hist := (s.drv u).hist ||| 1 }
  else { s.drv u with hist := (s.drv u).hist ||| 1 }

/-- A spare that serves a row is prepared no more (R100). -/
def State.prepEnds (s : State) (u : Nat) : State :=
  if 64 ≤ u then s.setBit (ROW_SPARE_CTRL_PREP_EN (u - 64)) false else s

/-- A change of the map is counted and shown (Table 04-10). -/
def State.rowCounted (s : State) (r : Nat) : State :=
  ((s.inc ROW_MAP_STATUS_CHANGE_COUNT).setFld ROW_MAP_STATUS_LAST_ROW r).setFld ROW_MAP_STATUS_SPARE_USE s.rowSpareUse

section
variable (s : State) (r : Nat) (m : Master)

/-- A raise leaves the words of the PAL window alone. -/
theorem State.raiseWith_win_pal (b : Blk) (i : Nat) (x : RaiseInfo) (a : Nat) :
    (s.raiseWith b i x).win .pal a = s.win .pal a :=
  (s.raiseWith_keeps b i x).win .pal a (by decide +kernel)

theorem State.rowRejected_win (rule a : Nat) : (s.rowRejected r rule m).win .pal a = s.win .pal a := by
  simp only [State.rowRejected, State.raiseWith_win_pal, State.setFld_win, State.setBit_win]

theorem State.rowRejected_shows (rule : Nat) (hr : r < 64) :
    (s.rowRejected r rule m).bit ROW_MAP_STATUS_REJECT = true ∧
      (s.rowRejected r rule m).fld ROW_MAP_STATUS_REJECT_RULE = rule % 8 ∧
      (s.rowRejected r rule m).fld ROW_MAP_STATUS_LAST_ROW = r := by
  have raised (t : State) {f : Fld} (h : f.reg = ROW_MAP_STATUS) :
      (t.raiseWith .pal 2 (writeRaise m 0x11E1)).fld f = t.fld f :=
    (t.raiseWith_keeps ..).fld (by rw [h]; decide +kernel)
  obtain ⟨hflag, hrule, hrow⟩ := s.fld_setFld_three (f := ROW_MAP_STATUS_REJECT) (g := ROW_MAP_STATUS_REJECT_RULE)
    (h := ROW_MAP_STATUS_LAST_ROW) 1 rule r (by decide) (by decide)
  refine ⟨?_, (raised _ rfl).trans hrule, (raised _ rfl).trans (hrow.trans (Nat.mod_eq_of_lt hr))⟩
  rw [State.bit, State.rowRejected, raised _ rfl]
  exact congrArg (· == 1) hflag

theorem State.rowMapWrite_eq (word : W24) {u p : Nat} (hu : bitsOf word.toNat 14 8 = u)
    (hp : bitsOf word.toNat 6 0 = p) :
    s.rowMapWrite r word m =
      if mapRule 64 68 u p (s.otherRows r) ≠ 0 then s.rowRejected r (mapRule 64 68 u p (s.otherRows r)) m
      else if u = s.rowDrv r ∧ p = s.rowPin r then s
      else (((s.setWinN .pal (0x200 + r) (u * 256 + p)).setDrv u (s.rowTaker r u)).prepEnds u).rowCounted r := by
  subst hu hp
  rfl

theorem State.prepEnds_keeps (u : Nat) : Keeps (foot [.reg ROW_SPARE_CTRL]) s (s.prepEnds u) :=
  Keeps.ite (s.setReg_keeps_reg ROW_SPARE_CTRL _) (Keeps.refl _ s)

theorem State.rowCounted_keeps : Keeps (foot [.reg ROW_MAP_STATUS]) s (s.rowCounted r) :=
  (State.setFld_keeps _ _ _).step (by decide +kernel) <|
    (State.setFld_keeps _ _ _).step (by decide +kernel) <|
      (s.inc_keeps _).mono (by decide +kernel)

theorem State.rowCounted_count : (s.rowCounted r).fld ROW_MAP_STATUS_CHANGE_COUNT =
    min (s.fld ROW_MAP_STATUS_CHANGE_COUNT + 1) 255 := by
  rw [State.rowCounted, State.fld_setFld_other _ _ (by decide) (by decide),
    State.fld_setFld_other _ _ (by decide) (by decide)]
  exact State.fld_count_same _ 1 (by decide)

theorem State.rowCounted_row (hr : r < 64) : (s.rowCounted r).fld ROW_MAP_STATUS_LAST_ROW = r := by
  rw [State.rowCounted, State.fld_setFld_other _ _ (by decide) (by decide), State.fld_setFld_same _ _ _ (by decide)]
  exact Nat.mod_eq_of_lt hr

end

/-- An entry that breaks an item of R70 is refused (R73). -/
theorem State.rowMapWrite_of_broken {s : State} {r : Nat} {word : W24} (m : Master) {u p : Nat}
    (hu : bitsOf word.toNat 14 8 = u) (hp : bitsOf word.toNat 6 0 = p)
    (hrule : mapRule 64 68 u p (s.otherRows r) ≠ 0) :
    s.rowMapWrite r word m = s.rowRejected r (mapRule 64 68 u p (s.otherRows r)) m := by
  rw [s.rowMapWrite_eq r m word hu hp, if_pos hrule]

/-- t is s after row r has taken driver u and pin unit p: the entry alone is stored, and it is counted. -/
structure State.TookRowEntry (s t : State) (r u p : Nat) : Prop where
  keeps  : Keeps (foot [.reg ROW_MAP_STATUS, .reg ROW_SPARE_CTRL, .win .pal, .pal]) s t
  entry  : t.winN .pal (0x200 + r) = u * 256 + p
  others : ∀ a, a < 2 ^ 24 → a ≠ 0x200 + r → t.win .pal a = s.win .pal a
  count  : t.fld ROW_MAP_STATUS_CHANGE_COUNT = min (s.fld ROW_MAP_STATUS_CHANGE_COUNT + 1) 255
  row    : t.fld ROW_MAP_STATUS_LAST_ROW = r

/-- A sound entry that is a change is taken (R73, R100). -/
theorem State.rowMapWrite_takes {s : State} {r : Nat} {word : W24} (m : Master) {u p : Nat} (hr : r < 64)
    (hu : bitsOf word.toNat 14 8 = u) (hp : bitsOf word.toNat 6 0 = p)
    (hrule : mapRule 64 68 u p (s.otherRows r) = 0) (hchange : u ≠ s.rowDrv r ∨ p ≠ s.rowPin r) :
    s.TookRowEntry (s.rowMapWrite r word m) r u p := by
  obtain ⟨hu68, hp68⟩ := lt_of_mapRule_eq_zero hrule
  rw [s.rowMapWrite_eq r m word hu hp, if_neg (not_not_intro hrule), if_neg (not_and_or.2 hchange)]
  have hstored : Keeps (foot [.win .pal]) s (s.setWinN .pal (0x200 + r) (u * 256 + p)) :=
    (s.setWinN_keeps .pal _ _).mono (by decide +kernel)
  have hserves : Keeps (foot [.reg ROW_SPARE_CTRL, .pal]) (s.setWinN .pal (0x200 + r) (u * 256 + p))
      (((s.setWinN .pal (0x200 + r) (u * 256 + p)).setDrv u (s.rowTaker r u)).prepEnds u) :=
    (State.prepEnds_keeps _ u).stepFoot (by simp) ((State.setDrv_keeps _ u _).monoFoot (by simp))
  have hafter := (State.rowCounted_keeps _ r).stepFoot (qs := [.reg ROW_MAP_STATUS, .reg ROW_SPARE_CTRL, .pal])
    (by simp) (hserves.monoFoot (by simp))
  obtain ⟨hentry, hothers⟩ := hafter.storesWord (by decide +kernel) (by omega) (by omega)
  exact {
    keeps := hafter.stepFoot (by simp) (hstored.monoFoot (by simp))
    entry := hentry
    others := hothers
    count := by
      rw [State.rowCounted_count, hserves.fld (by decide +kernel), hstored.fld (by decide +kernel)]
    row := State.rowCounted_row _ r hr }

/-! ### The commands -/

section
variable {s : State} (hclk : s.tm.clk = true) (hpow : s.pin.fieldPower = true)
include hclk hpow

theorem execRowOverload_of_off {d : Fin 68} (h : (s.drv d.val).ovl = true) : exec (.rowOverload d) s = .next s :=
  congrArg Host.Outcome.next ((State.onField_of_powered hclk hpow _).trans (if_pos h))

theorem execRowOverload_of_on {d : Fin 68} (h : (s.drv d.val).ovl = false) :
    exec (.rowOverload d) s = .next ((s.overload d.val).strokesHold d.val) :=
  congrArg Host.Outcome.next ((State.onField_of_powered hclk hpow _).trans
    (if_neg (ne_true_of_eq_false h)))

theorem execOvlLatchClear_of_powered (d : Fin 68) (w : Writer) :
    exec (.ovlLatchClear d w) s = .next (s.clearOvl d.val w.launched) :=
  congrArg Host.Outcome.next (State.onField_of_powered hclk hpow _)

theorem execRowMapWrite_launched (r : Fin 64) (m : Master) (word : W24) :
    exec (.rowMapWrite r word ⟨m, true⟩) s = .next (s.rowMapWrite r.val word m) := by
  refine congrArg Host.Outcome.next ((State.onField_of_powered hclk hpow _).trans ?_)
  rw [State.palWinWrite, if_neg (by omega), if_pos (by omega), if_pos rfl, Nat.add_sub_cancel_left]

/-- A map entry needs a launch postmark (R73). -/
theorem execRowMapWrite_unlaunched (r : Fin 64) (m : Master) (word : W24) :
    exec (.rowMapWrite r word ⟨m, false⟩) s = .next (s.raiseWith .pal 2 (winRaise m .pal)) := by
  refine congrArg Host.Outcome.next ((State.onField_of_powered hclk hpow _).trans ?_)
  rw [State.palWinWrite, if_neg (by omega), if_pos (by omega), if_neg Bool.false_ne_true]

end

/-- Settles O28: each command changes the driver, the register or the map word that it names, and nothing that comes
after touches it again. -/
theorem rowOverloadSparesAndMap : Obligations.RowOverloadSparesAndMap := by
  intro s hclk hpow
  refine ⟨fun d => ⟨fun hoff => execRowOverload_of_off hclk hpow hoff, fun hon => ?overload⟩, fun d w => ?clear,
    fun v w => ?prep, fun r word m => ?map⟩
  case overload =>
    have hexec := execRowOverload_of_on hclk hpow hon
    have hafter := s.overload_after_count d.val
    have hdrv (e : Nat) := State.drv_congr (hafter.pal (by decide +kernel)) e
    refine ⟨_, hexec, execRowOverload_keeps d s hexec, ?_, fun e he => ?_, ?_, ?_, fun hfirst => ?_, fun hlatched => ?_⟩
    · rw [hdrv, State.overloadCounted_drv, if_pos rfl]
      rfl
    · rw [hdrv, State.overloadCounted_drv, if_neg he.symm]
    · rw [hafter.bit (by decide +kernel), State.overloadCounted_latch]
    · rw [hafter.fld (by decide +kernel), State.overloadCounted_count]
    · rw [hafter.fld (by decide +kernel), State.overloadCounted_first _ _ hfirst d.isLt]
    · rw [hafter.fld (by decide +kernel), State.overloadCounted_first_of_latched _ _ hlatched]
  case clear =>
    have hexec := execOvlLatchClear_of_powered hclk hpow d w
    refine ⟨fun hclear => ?_, fun hlatched => ?_⟩
    · rw [hexec, State.clearOvl_of_clear hclear]
    · have hafter := State.clearOvl_keeps_cleared hlatched w.launched
      have hdrv (e : Nat) := State.drv_congr (hafter.pal (by decide +kernel)) e
      refine ⟨_, hexec, execOvlLatchClear_keeps d w s hexec, ?_, fun e he => ?_⟩
      · rw [hdrv, State.drv_setDrv, if_pos rfl]
      · rw [hdrv, State.drv_setDrv, if_neg he.symm]
  case prep =>
    obtain ⟨changed, hparam⟩ := s.plainWrite_param ROW_SPARE_CTRL v w
    have hexec := execRowSparePrep_of_powered hclk hpow v w
    rw [hparam] at hexec
    refine ⟨_, hexec, (State.param_keeps _ _ _).stepFoot (by simp) ((s.plainWrite_keeps_reg ..).monoFoot (by simp)),
      fun j hj => ?_⟩
    rw [(State.param_keeps _ _ _).reg _ (by decide +kernel)]
    exact s.plainWrite_bit ROW_SPARE_CTRL v w hj
  case map =>
    intro u p rule
    have hexec := execRowMapWrite_launched hclk hpow r m word
    refine ⟨fun hrule => ?_, fun hrule hchange => ?_, ?_⟩
    · obtain ⟨hflag, hitem, hrow⟩ := s.rowRejected_shows r.val m rule r.isLt
      refine ⟨_, hexec, execRowMapWrite_keeps r word ⟨m, true⟩ s hexec, ?_⟩
      rw [State.rowMapWrite_of_broken m rfl rfl hrule]
      exact ⟨hflag, hitem, hrow, s.rowRejected_win _ m _⟩
    · obtain ⟨hkeeps, hentry, hothers, hcount, hrow⟩ := State.rowMapWrite_takes m r.isLt rfl rfl hrule hchange
      exact ⟨_, hexec, hkeeps, hentry, hothers, hcount, hrow⟩
    · exact ⟨_, execRowMapWrite_unlaunched hclk hpow r m word, s.raiseWith_win_pal _ _ _⟩

end Sys2Proof.Machine

/-!
What a raise of a field block shows (R341): its source's LATCH and ACTIVE bits, which nothing that follows in the
raise clears.
-/
namespace Sys2Proof.Machine

/-! ### What a raise shows (R341, Table 16-7) -/

/-- LATCH and ACTIVE of a block, the flags that a raise of one of its sources sets. -/
def raiseFlags (b : Blk) : List Fld := [FLT_LATCH_LATCH (blkBase b), FLT_STATUS_ACTIVE (blkBase b)]

/-- The source is stored as x, and its LATCH and ACTIVE bits are set. -/
def State.flagged (s : State) (b : Blk) (i : Nat) (x : Source) : State :=
  let t := (s.setSrc b i x).setFld (FLT_LATCH_LATCH (blkBase b)) (s.fld (FLT_LATCH_LATCH (blkBase b)) ||| 2 ^ i)
  t.setFld (FLT_STATUS_ACTIVE (blkBase b)) (t.fld (FLT_STATUS_ACTIVE (blkBase b)) ||| 2 ^ i)

/-- A bit that is set in a field within its width is set. -/
theorem bitOf_or_two_pow_mod {x i n : Nat} (h : i < n) : bitOf ((x ||| 2 ^ i) % 2 ^ n) i = true := by
  have hbit : ((x ||| 2 ^ i) % 2 ^ n).testBit i = true := by
    rw [Nat.testBit_mod_two_pow, Nat.testBit_or, Nat.testBit_two_pow_self, Bool.or_true, Bool.and_true,
      decide_eq_true h]
  rw [Nat.testBit_eq_decide_div_mod_eq] at hbit
  exact beq_iff_eq.2 (of_decide_eq_true hbit)

section
variable (s : State) (b : Blk) (i : Nat)

theorem State.flagged_flags (x : Source) (hi : i < 16) {f : Fld} (hf : f ∈ raiseFlags b) :
    bitOf ((s.flagged b i x).fld f) i = true := by
  obtain rfl | rfl := List.mem_pair.1 hf
  · rw [State.flagged, State.fld_setFld_other _ _ (by simp [FLT_STATUS_ACTIVE])
      (.inl (by simp [FLT_STATUS_ACTIVE, FLT_LATCH_LATCH, FLT_STATUS, FLT_LATCH])),
      State.fld_setFld_same _ _ _ (by simp [FLT_LATCH_LATCH])]
    exact bitOf_or_two_pow_mod hi
  · rw [State.flagged, State.fld_setFld_same _ _ _ (by simp [FLT_STATUS_ACTIVE])]
    exact bitOf_or_two_pow_mod hi

variable {b} {f : Fld} (hf : f ∈ raiseFlags b)
include hf

/-- A register of the fault group above LATCH is no matter of the two flags. -/
theorem State.setReg_flags {j : Nat} (hj : blkBase b + 0xF1 < j) (v : Word) : (s.setReg j v).fld f = s.fld f := by
  refine congrArg (fldGet f) (s.reg_setReg_other v ?_)
  obtain rfl | rfl := List.mem_pair.1 hf
  all_goals
    simp only [FLT_LATCH_LATCH, FLT_LATCH, FLT_STATUS_ACTIVE, FLT_STATUS]
    omega

theorem State.fillRecord_flags (sev : Nat) (esc : Bool) (r : RaiseInfo) :
    (s.fillRecord b i sev esc r).fld f = s.fld f := by
  have hset (t : State) (v : Word) {k : Nat} (hk : 0xF1 < k) : (t.setReg (blkBase b + k) v).fld f = t.fld f :=
    t.setReg_flags hf (Nat.add_lt_add_left hk _) v
  have htick (t : State) (q : Assoc Nat) : { t with recTick := q }.fld f = t.fld f := rfl
  simp only [State.fillRecord, FLT_FIRST_WHERE, FLT_FIRST_WHO, FLT_FIRST_WHEN_LO, FLT_FIRST_WHEN_HI, htick, hset,
    Nat.reduceLT]

/-- The ALSO bits lie above the LATCH bits of their register. -/
theorem State.also_flags : (s.also b i).fld f = s.fld f := by
  refine State.fld_setFld_other _ _ (by simp [FLT_LATCH_ALSO]) ?_
  obtain rfl | rfl := List.mem_pair.1 hf
  · exact .inr (.inr (by simp [FLT_LATCH_ALSO, FLT_LATCH_LATCH]))
  · exact .inl (by simp [FLT_LATCH_ALSO, FLT_STATUS_ACTIVE, FLT_LATCH, FLT_STATUS])

theorem State.record_flags (sev : Nat) (esc : Bool) (r : RaiseInfo) : (s.record b i sev esc r).fld f = s.fld f := by
  unfold State.record
  extract_lets base j sj
  split
  next => rfl
  split
  next => exact s.fillRecord_flags i hf ..
  split
  next =>
    split
    · exact (State.also_flags _ _ hf).trans (s.fillRecord_flags i hf ..)
    · exact s.also_flags i hf
  next => rfl

/-- Beside the flags a raise counts in a register above them, fills the record and acts elsewhere. -/
theorem State.raiseCore_flags (hfield : blkIsHost b = false) (r : RaiseInfo)
    (hfirst : (s.src b i).last ≠ some s.tm.tick) :
    ∃ x, (s.raiseCore b i r).fld f = (s.flagged b i x).fld f := by
  have hpart : (foot [.reg GLB_DETERMINISM, .faults, .bar, .srcs, .cou, .bru]).testBit (regPart f.reg) = false := by
    obtain rfl | rfl := List.mem_pair.1 hf
    all_goals
      revert hfield
      cases b <;> decide +kernel
  have hcount (t : State) (g : Fld) (hg : g.reg = FLT_COUNT (blkBase b)) : (t.inc g).fld f = t.fld f :=
    t.setReg_flags hf (by rw [hg, FLT_COUNT]; omega) _
  unfold State.raiseCore
  extract_lets x base latch latched q snd cw e level sev0 sev x' s1 s2 s3 s4 s5 s6 s7 s8
  rw [if_neg (mt beq_iff_eq.1 hfirst), if_neg (ne_true_of_eq_false hfield)]
  have hacts : Keeps (foot [.reg GLB_DETERMINISM, .faults, .bar, .srcs, .cou, .bru]) s6
      ((s8.noticeRaise b i sev r).note .brush 0x17) := by
    refine (State.note_keeps ..).stepFoot (by simp) ((State.noticeRaise_keeps ..).stepFoot (by simp) ?_)
    have h7 := (s6.actRaise_keeps b x.pol.action.toNat sev r).monoFoot
      (qs := [.reg GLB_DETERMINISM, .faults, .bar, .srcs, .cou, .bru]) (by simp)
    exact Keeps.ite ((State.cause_keeps ..).stepFoot (by simp) h7) h7
  refine ⟨x', (hacts.fld hpart).trans ((s5.record_flags i hf ..).trans ?_)⟩
  unfold s5
  split
  · exact hcount s3 _ rfl
  · exact (hcount s4 _ rfl).trans (hcount s3 _ rfl)

end

/-- A raise of a field block is the raise itself, without a record in the status queue (R294). -/
theorem State.raiseWith_of_field (s : State) {b : Blk} (hfield : blkIsHost b = false) (i : Nat) (r : RaiseInfo) :
    s.raiseWith b i r = s.raiseCore b i r := by
  simp only [State.raiseWith, hfield, Bool.and_false, Bool.false_eq_true, if_false]

/-- The first raise of a source in a tick sets its LATCH and ACTIVE bits, and nothing of the raise clears them. -/
theorem State.raiseWith_flags {s : State} {b : Blk} {i : Nat} (hfield : blkIsHost b = false) (hi : i < 16)
    (hfirst : (s.src b i).last ≠ some s.tm.tick) (r : RaiseInfo) {f : Fld} (hf : f ∈ raiseFlags b) :
    bitOf ((s.raiseWith b i r).fld f) i = true := by
  obtain ⟨x, hx⟩ := s.raiseCore_flags i hf hfield r hfirst
  rw [s.raiseWith_of_field hfield, hx]
  exact s.flagged_flags b i x hi hf

theorem State.src_setSrc_same (s : State) (b : Blk) (i : Nat) (x : Source) : (s.setSrc b i x).src b i = x :=
  assocGet_put_same ..

theorem State.standing_holds (s : State) (b : Blk) (i : Nat) (on : Bool) : ((s.standing b i on).src b i).holds = on :=
  congrArg Source.holds (s.src_setSrc_same b i _)

end Sys2Proof.Machine

/-!
Rovers and persistent overrange (R113, R117 to R119): the column on which a dwell begins, what its end stores and
counts, and the flags of a column that stays overrange.
-/
namespace Sys2Proof.Machine

/-! ### A dwell begins (R117) -/

theorem State.rover_setRover (s : State) (g : Nat) (x : Rover) : (s.setRover g x).rover g = x := assocGet_put_same ..

/-- A rover is a matter of the columns' hidden state alone. -/
theorem State.rover_congr {s t : State} (h : t.col = s.col) (g : Nat) : t.rover g = s.rover g := by
  rw [State.rover, State.rover, h]

theorem State.nextTap_lt {s : State} {g start c : Nat} (h : s.nextTap g start = some c) : c < 32 := by
  obtain ⟨k, -, rfl⟩ := List.mem_map.1 (List.mem_of_find?_eq_some h)
  exact Nat.mod_lt _ (by decide)

/-- The rover of group g dwells on column c from this postmark on, without sums, and COL_ROVER_STATUS shows it. -/
def State.dwellBegun (s : State) (g c : Nat) : State :=
  ((s.setRover g ⟨true, c, s.tm.fpm, [], [], (s.rover g).next⟩).setFld (COL_ROVER_STATUS_STATE g) 1).setFld
    (COL_ROVER_STATUS_COLUMN g) c

section
variable {s : State} {g : Nat}

theorem State.roverStart_of_barred (h : (s.rover g).dwelling = true ∨ s.mayRove g = false ∨ s.glb ≠ 7) :
    s.roverStart g = s :=
  if_pos (by simpa [or_assoc] using h)

section
variable (hfree : (s.rover g).dwelling = false) (hrove : s.mayRove g = true) (hrun : s.glb = 7)
include hfree hrove hrun

theorem State.roverStart_of_tap {c : Nat} (htap : s.nextTap g (s.rover g).next = some c) :
    s.roverStart g = s.dwellBegun g c := by
  simp [State.roverStart, hfree, hrove, hrun, htap, State.dwellBegun]

theorem State.roverStart_of_no_tap (htap : s.nextTap g (s.rover g).next = none) :
    s.roverStart g = s.setFld (COL_ROVER_STATUS_STATE g) 0 := by
  simp [State.roverStart, hfree, hrove, hrun, htap]

end

/-- The fields of a group lie within COL_ROVER_STATUS. -/
theorem roverState_fits (hg : g < 2) : (COL_ROVER_STATUS_STATE g).lo + (COL_ROVER_STATUS_STATE g).len ≤ 32 := by
  simp only [COL_ROVER_STATUS_STATE]
  omega

theorem roverColumn_fits (hg : g < 2) : (COL_ROVER_STATUS_COLUMN g).lo + (COL_ROVER_STATUS_COLUMN g).len ≤ 32 := by
  simp only [COL_ROVER_STATUS_COLUMN]
  omega

theorem State.dwellBegun_rover (c : Nat) :
    (s.dwellBegun g c).rover g = ⟨true, c, s.tm.fpm, [], [], (s.rover g).next⟩ := s.rover_setRover g _

theorem State.dwellBegun_state (hg : g < 2) (c : Nat) : (s.dwellBegun g c).fld (COL_ROVER_STATUS_STATE g) = 1 := by
  rw [State.dwellBegun, State.fld_setFld_other _ _ (roverColumn_fits hg)
    (by simp [COL_ROVER_STATUS_COLUMN, COL_ROVER_STATUS_STATE]), State.fld_setFld_same _ _ _ (roverState_fits hg)]
  rfl

theorem State.dwellBegun_column (hg : g < 2) {c : Nat} (hc : c < 32) :
    (s.dwellBegun g c).fld (COL_ROVER_STATUS_COLUMN g) = c := by
  rw [State.dwellBegun, State.fld_setFld_same _ _ _ (roverColumn_fits hg)]
  exact Nat.mod_eq_of_lt hc

end

/-! ### A dwell ends (R118, R119) -/

/-- The rows of a dwell with their D and n_used (R118). -/
def Rover.rows (x : Rover) : List (Nat × Int × Nat) :=
  (List.range 64).map (fun r => (r, assocGet x.d r 0, assocGet x.n r 0))

/-- The rows with enough sheets whose mean difference exceeds TOL (R119). -/
def Rover.beyond (x : Rover) (tol : Nat) : List (Nat × Int × Nat) :=
  x.rows.filter (fun y => decide (1024 ≤ y.2.2) && decide (tol * y.2.2 < y.2.1.natAbs))

/-- The worst row beyond TOL, if any, is a mismatch (R119). -/
def State.dwellJudged (s : State) (g : Nat) : State :=
  match worstRow ((s.rover g).beyond (s.fld COL_ROVER_CTRL_TOL)) with
  | some x => s.roverMismatch g x
  | none => s

/-- A dwell with too few sheets in some row is counted (R119). -/
def State.dwellCounted (s t : State) (g : Nat) : State :=
  if (s.rover g).rows.any (fun x => decide (x.2.2 < 1024)) then t.inc (COL_ROVER_STATUS_INCONCLUSIVE g) else t

/-- The dwell is over and the search moves on. -/
def Rover.ended (x : Rover) : Rover := { x with dwelling := false, d := [], n := [], next := (x.col + 1) % 32 }

section
variable {s : State} {g : Nat}

theorem State.roverEnd_of_idle (h : (s.rover g).dwelling = false) : s.roverEnd g = s :=
  if_pos (by simp [h])

theorem State.roverEnd_eq (h : (s.rover g).dwelling = true) :
    s.roverEnd g = (((s.dwellCounted (s.dwellJudged g) g).setRover g (s.rover g).ended).setFld
      (COL_ROVER_STATUS_STATE g) 0).note .brush 0x16 :=
  if_neg (by simp [h])

theorem State.roverEnd_rover (h : (s.rover g).dwelling = true) : (s.roverEnd g).rover g = (s.rover g).ended := by
  rw [State.roverEnd_eq h, State.rover_congr ((State.note_keeps ..).col (by decide +kernel))]
  exact State.rover_setRover ..

/-- A field of COL_ROVER_STATUS as the end of a dwell leaves it: the note to Brush touches no register. -/
theorem State.roverEnd_fld (h : (s.rover g).dwelling = true) {f : Fld} (hf : f.reg = COL_ROVER_STATUS) :
    (s.roverEnd g).fld f =
      ((s.dwellCounted (s.dwellJudged g) g).setFld (COL_ROVER_STATUS_STATE g) 0).fld f := by
  rw [State.roverEnd_eq h]
  exact (State.note_keeps ..).fld (by rw [hf]; decide +kernel)

theorem State.roverEnd_state (h : (s.rover g).dwelling = true) (hg : g < 2) :
    (s.roverEnd g).fld (COL_ROVER_STATUS_STATE g) = 0 :=
  (State.roverEnd_fld h rfl).trans ((State.fld_setFld_same _ _ _ (roverState_fits hg)).trans (Nat.zero_mod _))

/-- What comes after the count of a mismatch touches no field of COL_ROVER_STATUS. -/
theorem State.roverMismatch_keeps_counted (x : Nat × Int × Nat) :
    Keeps (foot [.reg GLB_DETERMINISM, .reg LNK_DEADLETTER_COUNT, .reg (ENG_STATUS 0x600), .reg COL_ROVER_MISMATCH,
      .reg CAL_STATUS, .reg (ENG_STATUS 0x1B00), .flt, .win .lnk, .recTick, .bar, .faults, .cou, .bru, .lnk, .cal,
      .free, .srcs]) (s.inc (COL_ROVER_STATUS_MISMATCHES g)) (s.roverMismatch g x) := by
  unfold State.roverMismatch
  extract_lets s1 mean s2 s3
  refine Keeps.ite (Keeps.refl _ _) ((State.raise_keeps _ .col 1).stepFoot (by simp) (Keeps.upd ?_))
  have h2 : Keeps (foot [.reg COL_ROVER_MISMATCH]) s1 s2 :=
    (State.setReg_keeps_reg _ COL_ROVER_MISMATCH _).stepFoot (by simp) <|
      (State.setReg_keeps_reg _ COL_ROVER_MISMATCH _).stepFoot (by simp) (State.setReg_keeps_reg ..)
  exact (State.setReg_keeps_reg _ CAL_STATUS _).stepFoot (by simp) <|
    (State.setReg_keeps_reg _ COL_ROVER_MISMATCH _).stepFoot (by simp) <|
      (State.setReg_keeps_reg _ COL_ROVER_MISMATCH _).stepFoot (by simp) (h2.monoFoot (by simp))

theorem State.dwellJudged_inconclusive (hg : g < 2) :
    (s.dwellJudged g).fld (COL_ROVER_STATUS_INCONCLUSIVE g) = s.fld (COL_ROVER_STATUS_INCONCLUSIVE g) := by
  unfold State.dwellJudged
  split
  next x _ =>
    have hpart : regPart (COL_ROVER_STATUS_INCONCLUSIVE g).reg = regPart COL_ROVER_STATUS := rfl
    refine ((State.roverMismatch_keeps_counted x).fld (by rw [hpart]; decide +kernel)).trans ?_
    refine State.fld_setFld_other _ _ ?_ (.inr (.inl (Nat.le_refl _)))
    simp only [COL_ROVER_STATUS_MISMATCHES]
    omega
  next => rfl

/-- STATE lies above INCONCLUSIVE, and a mismatch does not touch it. -/
theorem State.roverEnd_inconclusive (h : (s.rover g).dwelling = true) (hg : g < 2) :
    (s.roverEnd g).fld (COL_ROVER_STATUS_INCONCLUSIVE g) =
      if (s.rover g).rows.any (fun x => decide (x.2.2 < 1024)) then
        min (s.fld (COL_ROVER_STATUS_INCONCLUSIVE g) + 1) (2 ^ (COL_ROVER_STATUS_INCONCLUSIVE g).len - 1)
      else s.fld (COL_ROVER_STATUS_INCONCLUSIVE g) := by
  rw [State.roverEnd_fld h rfl, State.fld_setFld_other _ _ (roverState_fits hg)
    (by simp [COL_ROVER_STATUS_STATE, COL_ROVER_STATUS_INCONCLUSIVE]), State.dwellCounted]
  split
  · rw [State.inc, State.fld_count_same, State.dwellJudged_inconclusive hg]
    simp only [COL_ROVER_STATUS_INCONCLUSIVE]
    omega
  · exact State.dwellJudged_inconclusive hg

/-- Without a row beyond TOL nothing writes the mismatch record. -/
theorem State.roverEnd_no_mismatch (h : (s.rover g).dwelling = true)
    (hnone : (s.rover g).beyond (s.fld COL_ROVER_CTRL_TOL) = []) :
    (s.roverEnd g).reg COL_ROVER_MISMATCH = s.reg COL_ROVER_MISMATCH := by
  have hjudged : s.dwellJudged g = s := by rw [State.dwellJudged, hnone]; rfl
  have hcounted : Keeps (foot [.reg COL_ROVER_STATUS, .col, .cou, .bru]) s (s.dwellCounted s g) :=
    Keeps.ite ((s.setReg_keeps_reg COL_ROVER_STATUS _).monoFoot (by simp)) (Keeps.refl _ s)
  rw [State.roverEnd_eq h, hjudged]
  refine Keeps.reg (M := foot [.reg COL_ROVER_STATUS, .col, .cou, .bru]) ?_ _ (by decide +kernel)
  exact (State.note_keeps ..).stepFoot (by simp) <|
    (State.setReg_keeps_reg _ COL_ROVER_STATUS _).stepFoot (by simp) <|
      (State.setRover_keeps ..).stepFoot (by simp) hcounted

end

/-! ### The commands -/

section
variable {s : State} (hclk : s.tm.clk = true) (hpow : s.pin.fieldPower = true)
include hclk hpow

theorem execRoverDwellStart_of_powered (g : Fin 2) : exec (.roverDwellStart g) s = .next (s.roverStart g.val) :=
  congrArg Host.Outcome.next (State.onField_of_powered hclk hpow _)

theorem execRoverDwellEnd_of_powered (g : Fin 2) : exec (.roverDwellEnd g) s = .next (s.roverEnd g.val) :=
  congrArg Host.Outcome.next (State.onField_of_powered hclk hpow _)

theorem execPersistentOverrange_of_powered (c : Fin 32) :
    exec (.persistentOverrange c) s = .next (s.ovrPersists c.val) :=
  congrArg Host.Outcome.next (State.onField_of_powered hclk hpow _)

end

/-- Settles O30: a dwell's end counts after its mismatch has been judged, and both leave the rover itself to the last
store; what a raise does after it has set LATCH and ACTIVE clears neither. -/
theorem roversAndOverrange : Obligations.RoversAndOverrange := by
  refine ⟨fun s g hclk hpow => ?start, fun s g hclk hpow => ?ends, fun s c hclk hpow hfirst => ?overrange⟩
  case start =>
    have hexec := execRoverDwellStart_of_powered hclk hpow g
    refine ⟨fun hbarred => ?_, fun hfree hrove hrun => ⟨fun c htap => ?_, fun htap => ?_⟩⟩
    · rw [hexec, State.roverStart_of_barred hbarred]
    · have hkeeps := execRoverDwellStart_keeps g s hexec
      rw [State.roverStart_of_tap hfree hrove hrun htap] at hexec hkeeps
      exact ⟨_, hexec, hkeeps, State.dwellBegun_rover c, State.dwellBegun_state g.isLt c,
        State.dwellBegun_column g.isLt (State.nextTap_lt htap)⟩
    · rw [State.roverStart_of_no_tap hfree hrove hrun htap] at hexec
      exact ⟨_, hexec, s.setReg_keeps_reg COL_ROVER_STATUS _,
        (s.fld_setFld_same _ 0 (roverState_fits g.isLt)).trans (Nat.zero_mod _)⟩
  case ends =>
    have hexec := execRoverDwellEnd_of_powered hclk hpow g
    refine ⟨fun hidle => ?_, fun hdwell => ?_⟩
    · rw [hexec, State.roverEnd_of_idle hidle]
    · have hcount := State.roverEnd_inconclusive hdwell g.isLt
      refine ⟨_, hexec, execRoverDwellEnd_keeps g s hexec, State.roverEnd_rover hdwell,
        State.roverEnd_state hdwell g.isLt, fun hall => ?_, fun hsome => ?_, fun hwithin => ?_⟩
      · rw [hcount, if_neg]
        simpa [Rover.rows] using hall
      · rw [hcount, if_pos]
        simpa [Rover.rows] using hsome
      · refine State.roverEnd_no_mismatch hdwell (List.filter_eq_nil_iff.2 ?_)
        simpa [Rover.rows] using hwithin
  case overrange =>
    have hexec := execPersistentOverrange_of_powered hclk hpow c
    have hshown {f : Fld} (hf : f ∈ raiseFlags .col) : bitOf ((s.ovrPersists c.val).fld f) 0 = true := by
      rw [State.ovrPersists, (State.standing_keeps ..).fld]
      · exact State.raiseWith_flags rfl (by decide) hfirst _ hf
      · revert f
        decide +kernel
    exact ⟨_, hexec, execPersistentOverrange_keeps c s hexec, hshown List.mem_cons_self,
      hshown (List.mem_cons_of_mem _ List.mem_cons_self), State.standing_holds ..⟩

end Sys2Proof.Machine

/-!
Readings and records (R115, R149, R173, R174, R183, R184): what each word of the flag table and the ring becomes when
a column's readings complete, and how a complete record enters the event queue.
-/
namespace Sys2Proof.Machine

/-! ### Words of a table that are rewritten one by one -/

theorem State.winN_setWinN (s : State) (b : Blk) (a v : Nat) : (s.setWinN b a v).winN b a = v % 2 ^ 24 := by
  rw [State.winN, State.setWinN, State.win_setWin_same, BitVec.toNat_ofNat]

/-- The words at n addresses take each its new value, which may rest on the old one. -/
def State.rewriteWords (s : State) (b : Blk) (a : Nat → Nat) (v : Nat → Nat → Nat) (n : Nat) : State :=
  forEach (List.range n) (fun t r => t.setWinN b (a r) (v r (t.winN b (a r)))) s

theorem State.rewriteWords_succ (s : State) (b : Blk) (a : Nat → Nat) (v : Nat → Nat → Nat) (n : Nat) :
    s.rewriteWords b a v (n + 1) =
      (s.rewriteWords b a v n).setWinN b (a n) (v n ((s.rewriteWords b a v n).winN b (a n))) := by
  simp [State.rewriteWords, forEach, List.range_succ]

section
variable (s : State) (b : Blk) {a : Nat → Nat} (v : Nat → Nat → Nat) (hlt : ∀ r, r < 64 → a r < 2 ^ 24)
include hlt

theorem State.rewriteWords_win_other {n x : Nat} (hn : n ≤ 64) (hx : x < 2 ^ 24) (h : ∀ r, r < n → x ≠ a r) :
    (s.rewriteWords b a v n).win b x = s.win b x := by
  induction n with
  | zero => rfl
  | succ n ih =>
    rw [State.rewriteWords_succ, State.win_setWinN_other _ _ _ (hlt n hn) hx (h n (Nat.lt_succ_self n)),
      ih (by omega) fun r hr => h r (by omega)]

/-- Where no address is named twice, each word takes its value from the state before. -/
theorem State.rewriteWords_winN (hinj : ∀ r q, r < 64 → q < 64 → r ≠ q → a r ≠ a q) {n r : Nat} (hn : n ≤ 64)
    (hr : r < n) : (s.rewriteWords b a v n).winN b (a r) = v r (s.winN b (a r)) % 2 ^ 24 := by
  induction n with
  | zero => exact absurd hr (Nat.not_lt_zero r)
  | succ n ih =>
    rw [State.rewriteWords_succ]
    by_cases hlast : r = n
    · subst hlast
      rw [State.winN_setWinN, State.winN, State.rewriteWords_win_other s b v hlt (by omega) (hlt r hn)
        fun q hq => hinj r q hn (by omega) hq.ne']
      rfl
    · rw [State.winN, State.win_setWinN_other _ _ _ (hlt n hn) (hlt r (by omega)) (hinj r n (by omega) hn hlast)]
      exact ih (by omega) (by omega)

end

/-! ### A column's readings are published (R149, R173) -/

/-- The flag table takes the flags of a column's rows (Table 06-15). -/
def State.flagsTabled (s : State) (c : Nat) (fl : List Nat) : State :=
  forEach (List.range 64) (fun t r => t.flagTable (64 * c + r) (fl.getD r 0)) s

/-- After the flag table the pigeonholes take the readings, once field load is done (R173). -/
def State.readingsStored (s : State) (c : Nat) (sheet : PM) (ys fl : List Nat) : State :=
  if (s.flagsTabled c fl).bit FGL_STATUS_LOADED then (s.flagsTabled c fl).ringWrite c sheet ys fl
  else s.flagsTabled c fl

section
variable (s : State) {c : Nat} (sheet : PM) (ys fl : List Nat)

theorem State.flagsTabled_keeps : Keeps (foot [.win .nul]) s (s.flagsTabled c fl) :=
  Keeps.forEach _ _ (fun t r h => (t.flagTable_keeps _ _).stepFoot (by simp) h) (Keeps.refl _ s)

theorem State.flagsTabled_winN (hc : c < 32) {r : Nat} (hr : r < 64) :
    (s.flagsTabled c fl).winN .nul (0x2000 + (64 * c + r)) =
      ((bitsOf (s.winN .nul (0x2000 + (64 * c + r))) 15 8 ||| fl.getD r 0) * 256 + fl.getD r 0) % 2 ^ 24 :=
  s.rewriteWords_winN .nul (a := fun r => 0x2000 + (64 * c + r))
    (fun r w => (bitsOf w 15 8 ||| fl.getD r 0) * 256 + fl.getD r 0) (by omega) (by omega) (Nat.le_refl 64) hr

/-- The readings of a column's rows go to their places in the ring. -/
def State.ringFilled (s : State) (c : Nat) (sheet : PM) (ys : List Nat) : State :=
  s.rewriteWords .evt (fun r => ringAddr (64 * c + r) sheet) (fun r _ => ys.getD r noReading) 64

theorem ringSlot_lt : ringSlot sheet < 2048 := Nat.mod_lt _ (by decide)

theorem State.ringFilled_winN (hc : c < 32) {r : Nat} (hr : r < 64) :
    (s.ringFilled c sheet ys).winN .evt (ringAddr (64 * c + r) sheet) = ys.getD r noReading % 2 ^ 24 := by
  have hslot := ringSlot_lt sheet
  refine s.rewriteWords_winN .evt (a := fun r => ringAddr (64 * c + r) sheet) (fun r _ => ys.getD r noReading) ?_ ?_
    (Nat.le_refl 64) hr
  all_goals
    simp only [ringAddr]
    omega

/-- The summary of a column lies below the readings (Table 08-11). -/
theorem State.setWinN_sumAddr_winN (v : Nat) {w r : Nat} (hc : c < 32) (hw : w < 3) (hr : r < 64) :
    (s.setWinN .evt (sumAddr c sheet w) v).winN .evt (ringAddr (64 * c + r) sheet) =
      s.winN .evt (ringAddr (64 * c + r) sheet) := by
  have hslot := ringSlot_lt sheet
  refine congrArg BitVec.toNat (s.win_setWinN_other .evt v ?_ ?_ ?_)
  all_goals
    simp only [sumAddr, ringAddr]
    omega

theorem State.ringWrite_winN (hc : c < 32) {r : Nat} (hr : r < 64) :
    (s.ringWrite c sheet ys fl).winN .evt (ringAddr (64 * c + r) sheet) = ys.getD r noReading % 2 ^ 24 := by
  have hevt (t : State) (x : EvtSt) (a : Nat) : { t with evt := x }.winN .evt a = t.winN .evt a := rfl
  have hfilled := s.ringFilled_winN sheet ys hc hr
  rw [State.ringFilled, State.rewriteWords] at hfilled
  simp only [State.ringWrite, hevt, State.setWinN_sumAddr_winN, hc, hr, Nat.reduceLT, hfilled]

/-- After the readings are stored come the detector and the column's block, which touch no window. -/
theorem State.publish_keeps_stored :
    Keeps (foot [.str, .evt]) (s.readingsStored c sheet ys fl) (s.publish c sheet ys fl) := by
  unfold State.publish
  extract_lets s1 s2 s3
  have h3 : Keeps (foot [.str, .evt]) s2 s3 :=
    Keeps.ite (Keeps.forEach _ _ (fun t r h => (t.detect_keeps ..).stepFoot (by simp) h) (Keeps.refl _ _))
      (Keeps.refl _ _)
  exact Keeps.ite ((State.formBlock_keeps ..).stepFoot (by simp) h3) h3

theorem State.flagsTabled_loaded : (s.flagsTabled c fl).bit FGL_STATUS_LOADED = s.bit FGL_STATUS_LOADED :=
  (s.flagsTabled_keeps fl).bit (by decide +kernel)

theorem State.readingsStored_of_loaded (h : s.bit FGL_STATUS_LOADED = true) :
    s.readingsStored c sheet ys fl = (s.flagsTabled c fl).ringWrite c sheet ys fl :=
  if_pos ((s.flagsTabled_loaded fl).trans h)

theorem State.readingsStored_of_unloaded (h : s.bit FGL_STATUS_LOADED = false) :
    s.readingsStored c sheet ys fl = s.flagsTabled c fl :=
  if_neg (ne_true_of_eq_false ((s.flagsTabled_loaded fl).trans h))

/-- The pigeonholes are another window than the flag table. -/
theorem State.readingsStored_keeps_flags :
    Keeps (foot [.win .evt, .evt]) (s.flagsTabled c fl) (s.readingsStored c sheet ys fl) :=
  Keeps.ite (State.ringWrite_keeps ..) (Keeps.refl _ _)

end

/-! ### COLUMN_READINGS_COMPLETE (R173) -/

/-- The readings, flags and clamps of a snapshot's rows (R148). -/
def evalColumn (snap : ColSnap) : List (Nat × Nat × Nat) := (List.range 64).map (fun r => evalChannel snap r)

/-- How many rows of a snapshot are clamped, 1 for the positive ones and 2 for the negative (R149). -/
def clampedRows (snap : ColSnap) (sign : Nat) : Nat :=
  ((List.range 64).filter (fun r => (evalChannel snap r).2.2 == sign)).length

/-- The snapshot goes and its clamped rows are counted. -/
def State.snapTaken (s : State) (x : Nat × ColSnap) : State :=
  (({ s with nul := { s.nul with snaps := assocErase s.nul.snaps x.1 } }).count VAR_CLAMP_COUNT_POS
    (clampedRows x.2 1)).count VAR_CLAMP_COUNT_NEG (clampedRows x.2 2)

/-- The sheet whose readings of column c complete in this tick (R20). -/
def State.sheetDue (s : State) (c : Nat) : PM := sheetOf (s.tm.fpm - BitVec.ofNat 48 (74 + 2 * c))

/-- The readings of column c as a snapshot gives them are published. -/
def State.snapPublished (s : State) (c : Nat) (x : Nat × ColSnap) : State :=
  (s.snapTaken x).publish c x.2.sheet ((evalColumn x.2).map (fun e => e.1)) ((evalColumn x.2).map (fun e => e.2.1))

theorem evalColumn_filter_length (snap : ColSnap) (sign : Nat) :
    ((evalColumn snap).filter (fun e => e.2.2 == sign)).length = clampedRows snap sign := by
  rw [evalColumn, List.filter_map, List.length_map]
  rfl

theorem evalColumn_getD {α : Type} (snap : ColSnap) (f : Nat × Nat × Nat → α) {r : Nat} (hr : r < 64) (d : α) :
    ((evalColumn snap).map f).getD r d = f (evalChannel snap r) := by
  simp [evalColumn, List.getD_eq_getElem?_getD, hr]

section
variable {s : State} {c : Nat} {x : Nat × ColSnap}

theorem State.columnComplete_of_snap
    (h : (s.nul.snaps.filter (fun x => x.1 % 32 == c)).find? (fun x => x.2.sheet == s.sheetDue c) = some x) :
    s.columnComplete c = (s.snapPublished c x).readingsSlot c (s.sheetDue c) := by
  unfold State.sheetDue at h
  simp only [State.columnComplete, h, State.snapPublished, State.snapTaken, ← evalColumn_filter_length]
  rfl

theorem State.snapTaken_clamps (s : State) (x : Nat × ColSnap) :
    (s.snapTaken x).fld VAR_CLAMP_COUNT_POS = min (s.fld VAR_CLAMP_COUNT_POS + clampedRows x.2 1) 65535 ∧
      (s.snapTaken x).fld VAR_CLAMP_COUNT_NEG = min (s.fld VAR_CLAMP_COUNT_NEG + clampedRows x.2 2) 65535 := by
  constructor
  · rw [State.snapTaken, State.count, State.fld_setFld_other _ _ (by decide) (by decide)]
    exact State.fld_count_same _ _ (by decide)
  · refine (State.fld_count_same _ _ (by decide)).trans ?_
    rw [State.count, State.fld_setFld_other _ _ (by decide) (by decide)]
    rfl

/-- After the snapshot is taken come the flag table, the pigeonholes, the detector and the stream. -/
theorem State.snapPublished_keeps_taken : Keeps (foot [.win .nul, .win .evt, .str, .evt]) (s.snapTaken x)
    (s.snapPublished c x) := State.publish_keeps ..

theorem State.snapTaken_win (s : State) (x : Nat × ColSnap) (b : Blk) (a : Nat) :
    (s.snapTaken x).win b a = s.win b a := by
  rw [State.snapTaken, State.count_win, State.count_win]
  rfl

theorem State.snapTaken_loaded (s : State) (x : Nat × ColSnap) :
    (s.snapTaken x).bit FGL_STATUS_LOADED = s.bit FGL_STATUS_LOADED := by
  simp only [State.snapTaken, State.count, State.bit]
  rw [State.fld_setFld_other _ _ (by decide) (by decide), State.fld_setFld_other _ _ (by decide) (by decide)]
  rfl

/-- What the publication stores in the windows, before the detector and the stream. -/
def State.snapStored (s : State) (c : Nat) (x : Nat × ColSnap) : State :=
  (s.snapTaken x).readingsStored c x.2.sheet ((evalColumn x.2).map (fun e => e.1))
    ((evalColumn x.2).map (fun e => e.2.1))

theorem State.snapPublished_keeps_stored :
    Keeps (foot [.str, .evt]) (s.snapStored c x) (s.snapPublished c x) := State.publish_keeps_stored ..

theorem State.snapPublished_flags (hc : c < 32) {r : Nat} (hr : r < 64) :
    (s.snapPublished c x).winN .nul (0x2000 + (64 * c + r)) =
      ((bitsOf (s.winN .nul (0x2000 + (64 * c + r))) 15 8 ||| (evalChannel x.2 r).2.1) * 256 +
        (evalChannel x.2 r).2.1) % 2 ^ 24 := by
  have hflags := State.flagsTabled_winN (s.snapTaken x) ((evalColumn x.2).map (fun e => e.2.1)) hc hr
  rw [evalColumn_getD x.2 _ hr, State.winN, State.winN, State.snapTaken_win] at hflags
  have hring : Keeps (foot [.win .evt, .evt])
      ((s.snapTaken x).flagsTabled c ((evalColumn x.2).map (fun e => e.2.1))) (s.snapStored c x) :=
    State.readingsStored_keeps_flags ..
  rw [State.winN, State.snapPublished_keeps_stored.win .nul _ (by decide +kernel),
    hring.win .nul _ (by decide +kernel)]
  exact hflags

theorem State.snapPublished_ring (hloaded : s.bit FGL_STATUS_LOADED = true) (hc : c < 32) {r : Nat} (hr : r < 64) :
    (s.snapPublished c x).winN .evt (ringAddr (64 * c + r) x.2.sheet) = (evalChannel x.2 r).1 % 2 ^ 24 := by
  rw [State.winN, State.snapPublished_keeps_stored.win .evt _ (by decide +kernel), State.snapStored,
    State.readingsStored_of_loaded _ _ _ _ ((s.snapTaken_loaded x).trans hloaded)]
  refine (State.ringWrite_winN _ _ _ _ hc hr).trans ?_
  rw [evalColumn_getD x.2 _ hr]

theorem State.snapPublished_unloaded (hloaded : s.bit FGL_STATUS_LOADED = false) (a : Nat) :
    (s.snapPublished c x).win .evt a = s.win .evt a := by
  rw [State.snapPublished_keeps_stored.win .evt _ (by decide +kernel), State.snapStored,
    State.readingsStored_of_unloaded _ _ _ _ ((s.snapTaken_loaded x).trans hloaded),
    (State.flagsTabled_keeps ..).win .evt _ (by decide +kernel), State.snapTaken_win]

end

/-! ### EVENT_RECORD_COMPLETE (R183, R184) -/

/-- A waiting record of column c is complete (R183). -/
def State.recReady (s : State) (c : Nat) (r : Rec) : Bool :=
  r.ch / 64 == c && pmGe s.tm.fpm (r.done + BitVec.ofNat 48 (75 + 2 * c))

/-- The complete records of column c no longer wait. -/
def State.recsTaken (s : State) (c : Nat) : State :=
  { s with evt := { s.evt with recs := s.evt.recs.filter (fun r => !s.recReady c r) } }

/-- A record as it enters the event queue: its energy, its readings from PRE sheets before its trigger on and the next
sequence number. -/
def State.recordOf (s : State) (r : Rec) : QRec :=
  ⟨r, s.energy r, (List.range r.count).map (fun j =>
    BitVec.ofNat 24 (s.ringRead r.ch (r.t - BitVec.ofNat 48 (64 * r.pre) + BitVec.ofNat 48 (64 * j)))),
    s.evt.recSeq + 1, 0⟩

/-- The record enters the event queue and takes its sequence number. -/
def State.recQueued (s : State) (r : Rec) : State :=
  { s with evt := { s.evt with queue := s.evt.queue ++ [s.recordOf r], recSeq := s.evt.recSeq + 1 } }

/-- Of the rows of a column a record belongs to one. -/
theorem flatMap_range_ite {α : Type} (x : α) (m n : Nat) :
    (List.range n).flatMap (fun k => if m = k then [x] else []) = if m < n then [x] else [] := by
  induction n with
  | zero => rfl
  | succ n ih =>
    rw [List.range_succ, List.flatMap_append, ih, List.flatMap_singleton]
    by_cases hm : m = n
    · simp [hm]
    · simp [hm, show m < n + 1 ↔ m < n by omega]

section
variable {s : State} {c : Nat}

theorem State.recordsComplete_eq :
    s.recordsComplete c = forEach ((List.range 64).flatMap (fun row =>
      (s.evt.recs.filter (s.recReady c)).filter (fun r => r.ch % 64 == row))) State.queueRecord (s.recsTaken c) := by
  simp only [List.filter_filter, State.recordsComplete, State.recReady, State.recsTaken, Bool.and_comm]

theorem State.recordsComplete_of_none (h : s.evt.recs.filter (s.recReady c) = []) :
    s.recordsComplete c = s.recsTaken c := by
  have hnone : (List.range 64).flatMap (fun row => ([] : List Rec).filter (fun r => r.ch % 64 == row)) = [] :=
    List.flatMap_eq_nil_iff.2 fun _ _ => rfl
  rw [State.recordsComplete_eq, h, hnone]
  rfl

theorem State.recordsComplete_of_one {r : Rec} (h : s.evt.recs.filter (s.recReady c) = [r]) :
    s.recordsComplete c = (s.recsTaken c).queueRecord r := by
  have hrow : (List.range 64).flatMap (fun row => [r].filter (fun r => r.ch % 64 == row)) = [r] := by
    have hone := flatMap_range_ite r (r.ch % 64) 64
    rw [if_pos (Nat.mod_lt _ (by decide))] at hone
    simpa [List.filter_cons] using hone
  rw [State.recordsComplete_eq, h, hrow]
  rfl

/-- Where no record is complete all of them go on waiting. -/
theorem State.recsTaken_recs_of_none (h : s.evt.recs.filter (s.recReady c) = []) :
    (s.recsTaken c).evt.recs = s.evt.recs :=
  List.filter_eq_self.2 fun r hr => by simpa using List.filter_eq_nil_iff.1 h r hr

theorem State.recsTaken_keeps : Keeps (foot [.evt]) s (s.recsTaken c) := (Keeps.refl _ s).upd

/-- Neither the parcels in the queue nor a record's content are a matter of the records that still wait. -/
theorem State.recsTaken_queueParcels : (s.recsTaken c).queueParcels = s.queueParcels := (rfl)

theorem State.recsTaken_recordOf (r : Rec) : (s.recsTaken c).recordOf r = s.recordOf r := (rfl)

theorem State.makeRoom_of_fits {n : Nat} (h : s.queueParcels + n ≤ 4096) (fuel : Nat) : s.makeRoom n fuel = s := by
  cases fuel with
  | zero => rfl
  | succ fuel => exact if_pos (.inl h)

theorem State.queueRecord_of_fits {r : Rec} (h : s.queueParcels + recParcels (s.recordOf r) ≤ 4096) :
    s.queueRecord r = (s.recQueued r).inc EVT_COUNT_RECORDS := by
  unfold State.recordOf at h
  simp only [State.queueRecord, State.makeRoom_of_fits h, State.recQueued, State.recordOf]

theorem State.recQueued_keeps (r : Rec) : Keeps (foot [.evt]) s (s.recQueued r) := (Keeps.refl _ s).upd

end

/-! ### The commands -/

section
variable {s : State} (hclk : s.tm.clk = true) (hpow : s.pin.fieldPower = true) (c : Fin 32)
include hclk hpow

theorem execColumnReadingsComplete_of_powered :
    exec (.columnReadingsComplete c) s = .next (s.columnComplete c.val) :=
  congrArg Host.Outcome.next (State.onField_of_powered hclk hpow _)

theorem execEventRecordComplete_of_powered : exec (.eventRecordComplete c) s = .next (s.recordsComplete c.val) :=
  congrArg Host.Outcome.next (State.onField_of_powered hclk hpow _)

end

/-- Settles O36: the columns' readings are stored before the detector and the stream, which touch no window, and a
single record that fits drops none. -/
theorem readingsAndRecordsComplete : Obligations.ReadingsAndRecordsComplete := by
  refine ⟨fun s c hclk hpow x hsnap => ?readings, fun s c hclk hpow => ?records⟩
  case readings =>
    have hexec := execColumnReadingsComplete_of_powered hclk hpow c
    have hkeeps := execColumnReadingsComplete_keeps c s hexec
    rw [State.columnComplete_of_snap hsnap] at hexec hkeeps
    have hslot := (s.snapPublished c.val x).readingsSlot_keeps c.val (s.sheetDue c.val)
    have hpub := State.snapPublished_keeps_taken (s := s) (c := c.val) (x := x)
    obtain ⟨hpos, hneg⟩ := s.snapTaken_clamps x
    refine ⟨_, hexec, hkeeps, ?_, fun r hr => ?_, ?_, ?_, fun hloaded r hr => ?_, fun hloaded a => ?_⟩
    · exact (hslot.nul (by decide +kernel)).trans (hpub.nul (by decide +kernel))
    · rw [State.winN, hslot.win .nul _ (by decide +kernel)]
      exact State.snapPublished_flags c.isLt hr
    · rw [hslot.fld (by decide +kernel), hpub.fld (by decide +kernel), hpos]
      rfl
    · rw [hslot.fld (by decide +kernel), hpub.fld (by decide +kernel), hneg]
      rfl
    · rw [State.winN, hslot.win .evt _ (by decide +kernel)]
      exact State.snapPublished_ring hloaded c.isLt hr
    · rw [hslot.win .evt _ (by decide +kernel), State.snapPublished_unloaded hloaded]
  case records =>
    intro ready
    have hexec := execEventRecordComplete_of_powered hclk hpow c
    refine ⟨fun hnone => ?_, fun r hone hfits => ?_⟩
    · rw [State.recordsComplete_of_none hnone] at hexec
      exact ⟨_, hexec, State.recsTaken_keeps, State.recsTaken_recs_of_none hnone, rfl⟩
    · have hroom : (s.recsTaken c.val).queueParcels + recParcels ((s.recsTaken c.val).recordOf r) ≤ 4096 := by
        rw [State.recsTaken_queueParcels, State.recsTaken_recordOf]
        exact hfits
      rw [State.recordsComplete_of_one hone, State.queueRecord_of_fits hroom] at hexec
      refine ⟨_, hexec, ?_, rfl, rfl, rfl, State.fld_count_same _ 1 (by decide)⟩
      exact (State.setReg_keeps_reg _ EVT_COUNT _).stepFoot (by simp) <|
        (State.recQueued_keeps r).stepFoot (by simp) (State.recsTaken_keeps.monoFoot (by simp))

end Sys2Proof.Machine

/-!
Varnish banks and memory errors (R149, R159, R160, R162): where the words of a bank go when it is copied, what COPY and
SWAP do or say of a refusal, and what a memory error leaves of a word.
-/
namespace Sys2Proof.Machine

/-! ### Entries of a table that are moved to the place of others -/

/-- The entries of n keys from ks on take the place of those of n keys from kd on. -/
def assocMove {α : Type} (t : Assoc α) (ks kd n : Nat) : Assoc α :=
  let kept := t.filter (fun e => !(decide (kd ≤ e.1) && decide (e.1 < kd + n)))
  kept.filter (fun e => decide (e.1 < kd)) ++
    (t.filter (fun e => decide (ks ≤ e.1) && decide (e.1 < ks + n))).map (fun e => (e.1 - ks + kd, e.2)) ++
    kept.filter (fun e => decide (kd ≤ e.1))

/-- A table whose keys are all at ks or above, shifted to kd, has at kd + i what it had at ks + i. -/
theorem assocGet_map_shift {α : Type} {t : Assoc α} {ks : Nat} (h : ∀ e ∈ t, ks ≤ e.1) (kd i : Nat) (d : α) :
    assocGet (t.map (fun e => (e.1 - ks + kd, e.2))) (kd + i) d = assocGet t (ks + i) d := by
  induction t with
  | nil => rfl
  | cons e t ih =>
    obtain ⟨hle, hrest⟩ := List.forall_mem_cons.1 h
    have hkey : e.1 - ks + kd = kd + i ↔ e.1 = ks + i := by omega
    simp only [List.map_cons, assocGet, hkey, ih hrest]

/-- A key among those that were taken reads as the key whose entry it took; every other reads as before. -/
theorem assocGet_assocMove {α : Type} (t : Assoc α) (ks kd n x : Nat) (d : α) :
    assocGet (assocMove t ks kd n) x d =
      if kd ≤ x ∧ x < kd + n then assocGet t (ks + (x - kd)) d else assocGet t x d := by
  simp only [assocMove, assocGet_append, assocGet_filter (fun k => decide (k < kd)),
    assocGet_filter (fun k => decide (kd ≤ k)),
    assocGet_filter (fun k => !(decide (kd ≤ k) && decide (k < kd + n)))]
  by_cases hin : kd ≤ x ∧ x < kd + n
  · obtain ⟨i, rfl⟩ := Nat.exists_eq_add_of_le hin.1
    have hi : i < n := by omega
    have hmoved := assocGet_map_shift (t := t.filter (fun e => decide (ks ≤ e.1) && decide (e.1 < ks + n))) (ks := ks)
      (fun e he => by simp only [List.mem_filter, Bool.and_eq_true, decide_eq_true_eq] at he; exact he.2.1) kd i d
    rw [assocGet_filter (fun k => decide (ks ≤ k) && decide (k < ks + n))] at hmoved
    simpa [hi] using hmoved
  · have habsent : ∀ e ∈ (t.filter (fun e => decide (ks ≤ e.1) && decide (e.1 < ks + n))).map
        (fun e => (e.1 - ks + kd, e.2)), e.1 ≠ x := by
      simp only [List.mem_map, List.mem_filter, Bool.and_eq_true, decide_eq_true_eq]
      rintro _ ⟨e, ⟨-, hlow, hhigh⟩, rfl⟩
      dsimp only
      omega
    rw [if_neg hin, assocGet_absent habsent]
    obtain hlow | hhigh : x < kd ∨ kd + n ≤ x := by omega
    · simp [hlow, Nat.not_le.2 hlow]
    · have hle : kd ≤ x := Nat.le_of_add_right_le hhigh
      simp [Nat.not_lt.2 hhigh, hle, Nat.not_lt.2 hle]

/-! ### A bank is copied (R159) -/

theorem State.varMoveBank_wins (s : State) (src dst lo : Nat) :
    (s.varMoveBank src dst lo).wins =
      assocMove s.wins (winKey .var (src + lo)) (winKey .var (dst + lo)) (0x4000 - lo) := (rfl)

theorem State.varBanks_eq (s : State) :
    s.varActive = 0 ∧ s.varInactive = 0x4000 ∨ s.varActive = 0x4000 ∧ s.varInactive = 0 := by
  unfold State.varActive State.varInactive
  cases s.bit VAR_CTRL_ACTIVE_BANK <;> simp

theorem winKey_var_of_lt {a : Nat} (h : a < 2 ^ 24) : winKey .var a = 0x14000000 + a := by
  rw [winKey_eq, Nat.mod_eq_of_lt h]
  rfl

section
variable (s : State) {src dst : Nat} (hbanks : src = 0 ∧ dst = 0x4000 ∨ src = 0x4000 ∧ dst = 0)
include hbanks

/-- Both banks have the same reset values, so a word that the table does not list is copied too. -/
theorem winReset_var_banks {i : Nat} (hi : i < 0x4000) :
    winReset .var ((src + i) % 2 ^ 24) = winReset .var ((dst + i) % 2 ^ 24) := by
  have hsame : src + i < 0x8000 ∧ (src + i) % 8 = 1 ↔ dst + i < 0x8000 ∧ (dst + i) % 8 = 1 := by omega
  rw [Nat.mod_eq_of_lt (by omega), Nat.mod_eq_of_lt (by omega)]
  simp only [winReset, hsame]

theorem State.varMoveBank_win_copied {lo i : Nat} (hlo : lo ≤ i) (hi : i < 0x4000) :
    (s.varMoveBank src dst lo).win .var (dst + i) = s.win .var (src + i) := by
  rw [State.win, State.varMoveBank_wins, assocGet_assocMove, winKey_var_of_lt (by omega), winKey_var_of_lt (by omega),
    winKey_var_of_lt (by omega), if_pos (by omega), State.win, winKey_var_of_lt (by omega),
    winReset_var_banks hbanks hi]
  congr 1
  omega

theorem State.varMoveBank_win_other {lo a : Nat} (ha : a < 2 ^ 24) (h : a < dst + lo ∨ dst + 0x4000 ≤ a) :
    (s.varMoveBank src dst lo).win .var a = s.win .var a := by
  rw [State.win, State.varMoveBank_wins, assocGet_assocMove, if_neg, State.win]
  rintro ⟨hlow, hhigh⟩
  rw [winKey_var_of_lt ha, winKey_var_of_lt (by omega)] at hlow hhigh
  omega

end

section
variable {s : State} {k : Nat} (hpos : s.var.copyPos = some k)
include hpos

/-- A copy that has reached group k ends with the words from there on (R159). -/
theorem State.varCopyEnds_win (a : Nat) :
    s.varCopyEnds.win .var a = (s.varMoveBank s.varActive s.varInactive (4 * k)).win .var a := by
  rw [State.varCopyEnds, State.dropTimers_win, State.varCopyEnd, State.setBit_win, hpos]
  rfl

theorem State.varCopyEnds_win_copied {i : Nat} (hk : 4 * k ≤ i) (hi : i < 0x4000) :
    s.varCopyEnds.win .var (s.varInactive + i) = s.win .var (s.varActive + i) := by
  rw [State.varCopyEnds_win hpos, s.varMoveBank_win_copied s.varBanks_eq hk hi]

theorem State.varCopyEnds_win_other {a : Nat} (ha : a < 2 ^ 24)
    (h : a < s.varInactive + 4 * k ∨ s.varInactive + 0x4000 ≤ a) : s.varCopyEnds.win .var a = s.win .var a := by
  rw [State.varCopyEnds_win hpos, s.varMoveBank_win_other s.varBanks_eq ha h]

end

theorem State.varCopyEnds_copyBusy (s : State) : s.varCopyEnds.bit VAR_CTRL_COPY_BUSY = false := by
  rw [State.varCopyEnds, State.dropTimers_bit]
  exact State.bit_setBit_same _ _ _ (by decide) rfl

theorem State.varCopyEnds_copyPos (s : State) : s.varCopyEnds.var.copyPos = none := by
  rw [State.varCopyEnds, State.dropTimers_var, State.varCopyEnd, State.setBit_var]

/-! ### COPY and SWAP (R159, R160) -/

/-- COPY or SWAP is turned away: its flag is set, and VAR raises its source 1. -/
def State.varRejected (s : State) (flag : Fld) (m : Master) : State :=
  (s.setBit flag true).raiseWith .var 1 (writeRaise m VAR_CTRL)

section
variable (s : State) (m : Master)

theorem State.varCopy_of_free (h : s.bit VAR_CTRL_COPY_BUSY = false) :
    s.varCopy m =
      { s.setBit VAR_CTRL_COPY_BUSY true with var := { s.var with copyPos := some 0 } }.after 4096 .varCopyDone :=
  if_neg (ne_true_of_eq_false h)

theorem State.varCopy_of_busy (h : s.bit VAR_CTRL_COPY_BUSY = true) :
    s.varCopy m = s.varRejected VAR_CTRL_WIN_REJECT m := if_pos h

theorem State.varSwap_of_free (launched : Bool) (h : s.bit VAR_CTRL_COPY_BUSY = false) :
    s.varSwap m launched =
      (s.setBit VAR_CTRL_ACTIVE_BANK (!s.bit VAR_CTRL_ACTIVE_BANK)).param launched true :=
  if_neg (ne_true_of_eq_false h)

theorem State.varSwap_of_busy (launched : Bool) (h : s.bit VAR_CTRL_COPY_BUSY = true) :
    s.varSwap m launched = s.varRejected VAR_CTRL_SWAP_REJECT m := if_pos h

/-- The raise of a rejection leaves VAR_CTRL as the flag made it. -/
theorem State.varRejected_bit (flag : Fld) {f : Fld} (hf : f.reg = VAR_CTRL) :
    (s.varRejected flag m).bit f = (s.setBit flag true).bit f :=
  (State.raiseWith_keeps ..).bit (by rw [hf]; decide +kernel)

theorem State.varRejected_var (flag : Fld) : (s.varRejected flag m).var = s.var :=
  ((State.raiseWith_keeps ..).var (by decide +kernel)).trans (s.setBit_var ..)

theorem State.varRejected_latch (flag : Fld) (hfirst : (s.src .var 1).last ≠ some s.tm.tick) :
    bitOf ((s.varRejected flag m).fld (FLT_LATCH_LATCH (blkBase .var))) 1 = true := by
  rw [← s.setBit_src flag true, ← s.setBit_tm flag true] at hfirst
  exact State.raiseWith_flags rfl (by decide) hfirst _ List.mem_cons_self

end

/-! ### A memory error (R162) -/

/-- A word is kept as bad, once. -/
def State.keepBad (s : State) (a : Nat) : State :=
  if s.var.badWord.contains a then s else { s with var := { s.var with badWord := s.var.badWord ++ [a] } }

/-- VAR raises its source 3 for a word. -/
def State.varErrorRaised (s : State) (a : Nat) : State := s.raiseWith .var 3 { plainRaise .var with addr := a }

section
variable (s : State) {a : Nat}

theorem State.keepBad_var (a : Nat) : (s.keepBad a).var =
    { s.var with badWord := if a ∈ s.var.badWord then s.var.badWord else s.var.badWord ++ [a] } := by
  by_cases h : a ∈ s.var.badWord <;> simp [State.keepBad, h]

theorem State.keepBad_fld (a : Nat) (f : Fld) : (s.keepBad a).fld f = s.fld f := by
  unfold State.keepBad
  split <;> rfl

/-- A copy store that is rewritten is what its rewriting makes of it; the others are as they were. -/
theorem State.copies_rewritten (f : List VCopy → List VCopy) (i j : Nat) :
    { s with var := { s.var with copies := assocSet s.var.copies i (f (s.copies i)) } }.copies j =
      if j = i then f (s.copies j) else s.copies j := by
  refine (assocGet_set ..).trans ?_
  by_cases h : i = j
  · rw [if_pos h, if_pos h.symm, h]
  · rw [if_neg h, if_neg (Ne.symm h)]
    rfl

theorem State.copies_dropCopy (i k j : Nat) : (s.dropCopy i k).copies j =
    if j = i then (s.copies j).take k ++ (s.copies j).drop (k + 1) else s.copies j := by
  rw [← dropAt_eq]
  exact s.copies_rewritten (dropAt · k) i j

theorem State.dropCopy_fld (i k : Nat) (f : Fld) : (s.dropCopy i k).fld f = s.fld f := (rfl)

/-- A copy store is a matter of varnish's hidden state alone. -/
theorem State.copies_congr {s t : State} (h : t.var = s.var) (i : Nat) : t.copies i = s.copies i := by
  rw [State.copies, State.copies, h]

theorem State.varErrorRaised_var (a : Nat) : (s.varErrorRaised a).var = s.var :=
  (State.raiseWith_keeps ..).var (by decide +kernel)

theorem State.varErrorRaised_latch (a : Nat) (hfirst : (s.src .var 3).last ≠ some s.tm.tick) :
    bitOf ((s.varErrorRaised a).fld (FLT_LATCH_LATCH (blkBase .var))) 3 = true :=
  State.raiseWith_flags rfl (by decide) hfirst _ List.mem_cons_self

/-- A coefficient or map word. -/
theorem State.varWordError_of_word (h : a < 0x8020) : s.varWordError a = (s.varErrorRaised a).keepBad a :=
  if_pos (by omega)

/-- A word of a copy store, which names the newest copy of its source or the one before it. -/
theorem State.varWordError_of_copy (hlow : 0x8100 ≤ a) (hhigh : a < 0x8140) :
    s.varWordError a = (s.varErrorRaised a).dropCopy ((a - 0x8100) / 2) (a % 2) :=
  (if_neg (by omega)).trans (if_pos ⟨hlow, hhigh⟩)

theorem State.varWordError_of_neither (h : 0x8020 ≤ a ∧ a < 0x8100 ∨ 0x8140 ≤ a) : s.varWordError a = s :=
  (if_neg (by omega)).trans (if_neg (by omega))

end

/-! ### The clamp counts (R149) -/

/-- A read of the clamp counts clears every bit of them. -/
theorem State.readReg_clampCount (s : State) (m : Master) :
    (s.readReg m VAR_CLAMP_COUNT).2 = s.setReg VAR_CLAMP_COUNT 0 := by
  have hall : BitVec.ofNat 32 ((s.reg VAR_CLAMP_COUNT).toNat -
      ((s.reg VAR_CLAMP_COUNT).toNat &&& rclMask VAR_CLAMP_COUNT)) = 0 := by
    rw [ofNat_sub_and, show rclMask VAR_CLAMP_COUNT = 0xFFFFFFFF from rfl]
    exact BitVec.and_zero
  exact congrArg (s.setReg VAR_CLAMP_COUNT) hall

/-! ### The commands -/

section
variable {s : State} (hclk : s.tm.clk = true) (hpow : s.pin.fieldPower = true)
include hclk hpow

theorem execVarCopy_of_powered (w : Writer) : exec (.varCopy w) s = .next (s.varCopy w.m) :=
  congrArg Host.Outcome.next (State.onField_of_powered hclk hpow _)

theorem execVarCopyDone_of_powered :
    exec .varCopyDone s = .next (if s.bit VAR_CTRL_COPY_BUSY then s.varCopyEnds else s) :=
  congrArg Host.Outcome.next (State.onField_of_powered hclk hpow _)

theorem execVarSwap_of_powered (w : Writer) : exec (.varSwap w) s = .next (s.varSwap w.m w.launched) :=
  congrArg Host.Outcome.next (State.onField_of_powered hclk hpow _)

theorem execVarMemoryError_of_powered (a : BitVec 16) :
    exec (.varMemoryError a) s = .next (s.varWordError a.toNat) :=
  congrArg Host.Outcome.next (State.onField_of_powered hclk hpow _)

theorem execVarClampCountRead_of_powered (m : Master) :
    exec (.varClampCountRead m) s = .next (s.setReg VAR_CLAMP_COUNT 0) := by
  rw [← s.readReg_clampCount m]
  exact congrArg Host.Outcome.next (State.onField_of_powered hclk hpow _)

end

/-- Settles O34: a copy's end moves the entries of one bank's keys to the other's, and each refusal and each memory
error is a raise beside one store, which the raise does not touch. -/
theorem varnishBanksAndMemoryErrors : Obligations.VarnishBanksAndMemoryErrors := by
  intro s hclk hpow
  refine ⟨fun w => ⟨fun hfree => ?copy, fun hbusy => ?copyRejected⟩, fun hfree => ?notCopying,
    fun k hbusy hpos => ?done, fun w => ⟨fun hfree => ?swap, fun hbusy => ?swapRejected⟩, fun a => ?error,
    fun m => ?read⟩
  case copy =>
    have hexec := execVarCopy_of_powered hclk hpow w
    rw [s.varCopy_of_free w.m hfree] at hexec
    refine ⟨_, hexec, ?_, ?_, rfl, rfl⟩
    · exact (State.after_keeps ..).stepFoot (by simp) ((s.setReg_keeps_reg VAR_CTRL _).monoFoot (by simp)).upd
    · exact s.bit_setBit_same VAR_CTRL_COPY_BUSY true (by decide) rfl
  case copyRejected =>
    have hexec := execVarCopy_of_powered hclk hpow w
    have hkeeps := execVarCopy_keeps w s hexec
    rw [s.varCopy_of_busy w.m hbusy] at hexec hkeeps
    refine ⟨_, hexec, hkeeps, ?_, ?_, s.varRejected_var w.m _, s.varRejected_latch w.m _⟩
    · rw [s.varRejected_bit w.m _ rfl, State.bit_setBit_same _ _ _ (by decide) rfl]
    · rw [s.varRejected_bit w.m _ rfl, State.bit_setBit_other _ _ (by decide) (by decide), hbusy]
  case notCopying => rw [execVarCopyDone_of_powered hclk hpow, if_neg (ne_true_of_eq_false hfree)]
  case done =>
    have hexec := execVarCopyDone_of_powered hclk hpow
    rw [if_pos hbusy] at hexec
    exact ⟨_, hexec, s.varCopyEnds_keeps, s.varCopyEnds_copyBusy, s.varCopyEnds_copyPos,
      fun i hk hi => State.varCopyEnds_win_copied hpos hk hi, fun a ha h => State.varCopyEnds_win_other hpos ha h⟩
  case swap =>
    have hexec := execVarSwap_of_powered hclk hpow w
    rw [s.varSwap_of_free w.m w.launched hfree] at hexec
    refine ⟨_, hexec, ?_, ?_⟩
    · exact (State.param_keeps _ _ _).stepFoot (by simp) ((s.setReg_keeps_reg VAR_CTRL _).monoFoot (by simp))
    · rw [(State.param_keeps _ _ _).bit (by decide +kernel), State.bit_setBit_same _ _ _ (by decide) rfl]
  case swapRejected =>
    have hexec := execVarSwap_of_powered hclk hpow w
    have hkeeps := execVarSwap_keeps w s hexec
    rw [s.varSwap_of_busy w.m w.launched hbusy] at hexec hkeeps
    refine ⟨_, hexec, hkeeps, ?_, ?_, s.varRejected_latch w.m _⟩
    · rw [s.varRejected_bit w.m _ rfl, State.bit_setBit_same _ _ _ (by decide) rfl]
    · rw [s.varRejected_bit w.m _ rfl, State.bit_setBit_other _ _ (by decide) (by decide)]
  case error =>
    have hexec := execVarMemoryError_of_powered hclk hpow a
    have hkeeps := execVarMemoryError_keeps a s hexec
    refine ⟨fun hword => ?_, fun ⟨hlow, hhigh⟩ => ?_, fun hneither => ?_⟩
    · rw [s.varWordError_of_word hword] at hexec hkeeps
      refine ⟨_, hexec, hkeeps, ?_, fun hfirst => ?_⟩
      · rw [State.keepBad_var, State.varErrorRaised_var]
      · rw [State.keepBad_fld, s.varErrorRaised_latch _ hfirst]
    · rw [s.varWordError_of_copy hlow hhigh] at hexec hkeeps
      refine ⟨_, hexec, hkeeps, fun i => ?_, fun hfirst => ?_⟩
      · rw [State.copies_dropCopy, State.copies_congr (s.varErrorRaised_var _)]
      · rw [State.dropCopy_fld, s.varErrorRaised_latch _ hfirst]
    · rw [hexec, s.varWordError_of_neither hneither]
  case read =>
    exact ⟨_, execVarClampCountRead_of_powered hclk hpow m, s.setReg_keeps_reg .., s.reg_setReg_same ..⟩

end Sys2Proof.Machine

/-!
Temperature hand-over and cadence (R155, R156): where a copy goes, and what a cadence boundary makes of each source,
which is a matter of that source alone.
-/
namespace Sys2Proof.Machine

/-! ### The first entry of a key -/

theorem find?_assocSet {α : Type} (t : Assoc α) (i j : Nat) (v : α) :
    (assocSet t i v).find? (fun e => e.1 == j) = if i = j then some (i, v) else t.find? (fun e => e.1 == j) := by
  induction t with
  | nil => by_cases h : i = j <;> simp [assocSet, h]
  | cons e t ih =>
    obtain ⟨k, w⟩ := e
    simp only [assocSet]
    by_cases h : i = j
    · subst h
      split
      · simp
      · split
        next => simp
        next hne => simp [Ne.symm hne, ih]
    · split
      · simp [h]
      · split
        next heq => subst heq; simp [h]
        next => simp [List.find?_cons, ih, h]

theorem assocGet_eq_find? {α : Type} (t : Assoc α) (i : Nat) (d : α) :
    assocGet t i d = ((t.find? (fun e => e.1 == i)).map Prod.snd).getD d := by
  induction t with
  | nil => rfl
  | cons e t ih => by_cases h : e.1 = i <;> simp [assocGet, h, ih]

/-! ### A copy arrives (R155) -/

/-- A source's store takes a copy as its newest and keeps the one that was. -/
def State.copyStored (s : State) (i : Nat) (k : VCopy) : State :=
  { s with var := { s.var with copies := assocSet s.var.copies i (k :: (s.copies i).take 1) } }

/-- A copy is late: it is flagged and counted. -/
def State.lateCounted (s : State) : State := (s.inc VAR_T_STATUS_LATE_COUNT).setBit VAR_T_STATUS_LATE true

section
variable {s : State} {i : Nat} {k : VCopy}

theorem State.handCopy_of_not_waiting (ha : (i, k) ∉ s.hka.hand) (hb : (i, k) ∉ s.hkb.hand) :
    s.handCopy i k = s.handover i k.code k.stamp k.status := by
  simp [State.handCopy, ha, hb]

/-- A copy that no POSTMARK_SET has overtaken enters the store or is late (R155, R158). -/
theorem State.handover_of_not_stale (h : (i, k.stamp) ∉ s.var.stale) :
    s.handover i k.code k.stamp k.status =
      if 1024 < pmDist k.stamp s.tm.fpm then s.lateCounted.raise .var 0 else s.copyStored i k := by
  have hstale : s.var.stale.any (fun x => x.1 == i && x.2 == k.stamp) = false := by
    simp only [List.any_eq_false, Bool.and_eq_true, beq_iff_eq]
    rintro x hx ⟨rfl, hstamp⟩
    exact h (hstamp ▸ hx)
  exact if_neg (ne_true_of_eq_false hstale)

end

section
variable (s : State)

theorem State.copyStored_keeps (i : Nat) (k : VCopy) : Keeps (foot [.var]) s (s.copyStored i k) :=
  (Keeps.refl _ s).upd

theorem State.copies_copyStored (i : Nat) (k : VCopy) (j : Nat) :
    (s.copyStored i k).copies j = if j = i then k :: (s.copies j).take 1 else s.copies j :=
  s.copies_rewritten (k :: ·.take 1) i j

theorem State.lateCounted_late : s.lateCounted.bit VAR_T_STATUS_LATE = true :=
  State.bit_setBit_same _ _ _ (by decide) rfl

theorem State.lateCounted_count :
    s.lateCounted.fld VAR_T_STATUS_LATE_COUNT = min (s.fld VAR_T_STATUS_LATE_COUNT + 1) 255 := by
  rw [State.lateCounted, State.setBit, State.fld_setFld_other _ _ (by decide) (by decide)]
  exact State.fld_count_same _ 1 (by decide)

theorem State.lateCounted_var : s.lateCounted.var = s.var := by
  rw [State.lateCounted, State.setBit_var, State.inc_var]

theorem State.lateCounted_raise_latch (hfirst : (s.src .var 0).last ≠ some s.tm.tick) :
    bitOf ((s.lateCounted.raise .var 0).fld (FLT_LATCH_LATCH (blkBase .var))) 0 = true := by
  have hsrc : s.lateCounted.src .var 0 = s.src .var 0 := by rw [State.lateCounted, State.setBit_src, State.inc_src]
  have htm : s.lateCounted.tm = s.tm := by rw [State.lateCounted, State.setBit_tm, State.inc_tm]
  rw [← hsrc, ← htm] at hfirst
  exact State.raiseWith_flags rfl (by decide) hfirst _ List.mem_cons_self

end

/-! ### One source at a cadence boundary (R156) -/

/-- t has of source i all that s has: its two words, the stamp last latched and the copies. -/
structure State.SameSource (s t : State) (i : Nat) : Prop where
  code    : t.win .var (0x8100 + 2 * i) = s.win .var (0x8100 + 2 * i)
  state   : t.win .var (0x8101 + 2 * i) = s.win .var (0x8101 + 2 * i)
  latched : t.var.latched.find? (fun e => e.1 == i) = s.var.latched.find? (fun e => e.1 == i)
  copies  : t.copies i = s.copies i

/-- Source i of t is that of s after boundary b (R156). -/
structure State.SourceLatched (s t : State) (b : PM) (i : Nat) : Prop where
  fresh (k : VCopy) (hk : s.candidate b i = some k) (hstatus : k.status = 0) :
    t.win .var (0x8100 + 2 * i) = k.code ∧ t.winN .var (0x8101 + 2 * i) = 2 ^ 22 ∧
      ∀ d, assocGet t.var.latched i d = k.stamp
  held (h : s.candidate b i = none ∨ ∃ k, s.candidate b i = some k ∧ k.status ≠ 0) :
    t.win .var (0x8100 + 2 * i) = s.win .var (0x8100 + 2 * i) ∧
      (∀ d, assocGet t.var.latched i d = assocGet s.var.latched i d) ∧
      t.winN .var (0x8101 + 2 * i) = if s.srcState i = 0 then s.winN .var (0x8101 + 2 * i)
        else 2 * 2 ^ 22 + min 255 (bitsOf (s.winN .var (0x8101 + 2 * i)) 15 8 + 1) * 256

namespace State.SameSource
variable {s t u : State} {i : Nat}

theorem refl (s : State) (i : Nat) : s.SameSource s i := ⟨rfl, rfl, rfl, rfl⟩

theorem trans (h : s.SameSource t i) (g : t.SameSource u i) : s.SameSource u i :=
  ⟨g.code.trans h.code, g.state.trans h.state, g.latched.trans h.latched, g.copies.trans h.copies⟩

theorem candidate (h : s.SameSource t i) (b : PM) : t.candidate b i = s.candidate b i := by
  simp only [State.candidate, h.latched, h.copies]

theorem winN_state (h : s.SameSource t i) : t.winN .var (0x8101 + 2 * i) = s.winN .var (0x8101 + 2 * i) :=
  congrArg BitVec.toNat h.state

theorem srcState (h : s.SameSource t i) : t.srcState i = s.srcState i := by
  rw [State.srcState, State.srcState, h.winN_state]

theorem stamp (h : s.SameSource t i) (d : PM) : assocGet t.var.latched i d = assocGet s.var.latched i d := by
  rw [assocGet_eq_find?, assocGet_eq_find?, h.latched]

/-- What comes before or after and leaves the source alone changes nothing of how it is latched. -/
theorem latched_before {b : PM} (h : s.SameSource t i) (g : t.SourceLatched u b i) : s.SourceLatched u b i where
  fresh k hk := g.fresh k ((h.candidate b).trans hk)
  held hnot := by
    obtain ⟨hcode, hstamp, hstate⟩ := g.held (by rwa [h.candidate b])
    rw [h.srcState, h.winN_state] at hstate
    exact ⟨hcode.trans h.code, fun d => (hstamp d).trans (h.stamp d), hstate⟩

theorem latched_after {b : PM} (h : t.SameSource u i) (g : s.SourceLatched t b i) : s.SourceLatched u b i where
  fresh k hk hstatus := by
    rw [h.code, h.winN_state]
    simpa only [h.stamp] using g.fresh k hk hstatus
  held hnot := by
    rw [h.code, h.winN_state]
    simpa only [h.stamp] using g.held hnot

end State.SameSource

/-- The copy that a source takes at boundary b: its candidate, where that has status 0. -/
def State.freshCopy (s : State) (b : PM) (i : Nat) : Option VCopy :=
  match s.candidate b i with
  | some k => if k.status = 0 then some k else none
  | none => none

/-- A source takes a copy as its code in use (R156). -/
def State.sourceFresh (s : State) (i : Nat) (k : VCopy) : State :=
  let s1 := (s.setWin .var (0x8100 + 2 * i) k.code).setWinN .var (0x8101 + 2 * i) (1 * 2 ^ 22)
  { s1 with var := { s1.var with latched := assocSet s1.var.latched i k.stamp } }

/-- A source keeps its code, in DEFAULT as it is and else HELD with its AGE counted (R156). -/
def State.sourceHeld (s : State) (i : Nat) : State :=
  if s.srcState i = 0 then s
  else s.setWinN .var (0x8101 + 2 * i) (2 * 2 ^ 22 + min 255 (bitsOf (s.winN .var (0x8101 + 2 * i)) 15 8 + 1) * 256)

theorem State.latchSource_cases (s : State) (b : PM) (i : Nat) :
    (∃ k, s.candidate b i = some k ∧ k.status = 0 ∧ s.latchSource b i = s.sourceFresh i k) ∨
      ((∀ k, s.candidate b i = some k → k.status ≠ 0) ∧ s.latchSource b i = s.sourceHeld i) := by
  have heq : s.latchSource b i = match s.freshCopy b i with
    | some k => s.sourceFresh i k
    | none => s.sourceHeld i := rfl
  rw [heq, State.freshCopy]
  cases hcand : s.candidate b i with
  | none => exact .inr ⟨by simp, rfl⟩
  | some k =>
    by_cases hstatus : k.status = 0
    · exact .inl ⟨k, rfl, hstatus, by simp only [if_pos hstatus]⟩
    · exact .inr ⟨fun _ hk => Option.some.inj hk ▸ hstatus, by simp only [if_neg hstatus]⟩

section
variable (s : State) (b : PM) {i : Nat} (hi : i < 32)
include hi

theorem State.sourceFresh_latches (k : VCopy) :
    (s.sourceFresh i k).win .var (0x8100 + 2 * i) = k.code ∧ (s.sourceFresh i k).winN .var (0x8101 + 2 * i) = 2 ^ 22 ∧
      ∀ d, assocGet (s.sourceFresh i k).var.latched i d = k.stamp := by
  refine ⟨?_, State.winN_setWinN_same _ .var _ (by decide), fun d => (assocGet_set ..).trans (if_pos rfl)⟩
  exact (State.win_setWinN_other _ .var _ (by omega) (by omega) (by omega)).trans (State.win_setWin_same ..)

theorem State.sourceHeld_win_other {a : Nat} (ha : a < 2 ^ 24) (h : a ≠ 0x8101 + 2 * i) :
    (s.sourceHeld i).win .var a = s.win .var a := by
  unfold State.sourceHeld
  split
  · rfl
  · exact s.win_setWinN_other .var _ (by omega) ha h

theorem State.sourceFresh_win_other (k : VCopy) {a : Nat} (ha : a < 2 ^ 24) (hcode : a ≠ 0x8100 + 2 * i)
    (hstate : a ≠ 0x8101 + 2 * i) : (s.sourceFresh i k).win .var a = s.win .var a := by
  refine (State.win_setWinN_other _ .var _ (by omega) ha hstate).trans ?_
  rw [State.win_setWin, if_neg]
  rw [winKey_var_of_lt (by omega), winKey_var_of_lt ha]
  omega

end

theorem State.sourceHeld_var (s : State) (i : Nat) : (s.sourceHeld i).var = s.var := by
  unfold State.sourceHeld
  split <;> rfl

theorem State.sourceHeld_state (s : State) (i : Nat) : (s.sourceHeld i).winN .var (0x8101 + 2 * i) =
    if s.srcState i = 0 then s.winN .var (0x8101 + 2 * i)
    else 2 * 2 ^ 22 + min 255 (bitsOf (s.winN .var (0x8101 + 2 * i)) 15 8 + 1) * 256 := by
  unfold State.sourceHeld
  split
  · rfl
  · exact State.winN_setWinN_same _ .var _ (by omega)

section
variable (s : State) (b : PM) {i : Nat} (hi : i < 32)
include hi

theorem State.latchSource_latched : s.SourceLatched (s.latchSource b i) b i := by
  obtain ⟨k, hk, hstatus, heq⟩ | ⟨hnot, heq⟩ := s.latchSource_cases b i
  · refine ⟨fun k' hk' _ => ?_, fun h => ?_⟩
    · obtain rfl : k = k' := Option.some.inj (hk.symm.trans hk')
      rw [heq]
      exact s.sourceFresh_latches hi k
    · simp [hk, hstatus] at h
  · refine ⟨fun k hk hstatus => absurd hstatus (hnot k hk), fun _ => ?_⟩
    rw [heq, State.sourceHeld_var]
    exact ⟨s.sourceHeld_win_other hi (by omega) (by omega), fun _ => rfl, s.sourceHeld_state i⟩

/-- A source touches its own two words and the stamp last latched of it. -/
theorem State.latchSource_win_other {a : Nat} (ha : a < 2 ^ 24) (hcode : a ≠ 0x8100 + 2 * i)
    (hstate : a ≠ 0x8101 + 2 * i) : (s.latchSource b i).win .var a = s.win .var a := by
  obtain ⟨k, -, -, heq⟩ | ⟨-, heq⟩ := s.latchSource_cases b i
  · rw [heq, s.sourceFresh_win_other hi k ha hcode hstate]
  · rw [heq, s.sourceHeld_win_other hi ha hstate]

end

theorem State.latchSource_copies (s : State) (b : PM) (i : Nat) : (s.latchSource b i).var.copies = s.var.copies := by
  obtain ⟨k, -, -, heq⟩ | ⟨-, heq⟩ := s.latchSource_cases b i
  · rw [heq]
    rfl
  · rw [heq, State.sourceHeld_var]

theorem State.latchSource_stamp_other (s : State) (b : PM) {i j : Nat} (h : i ≠ j) :
    (s.latchSource b i).var.latched.find? (fun e => e.1 == j) = s.var.latched.find? (fun e => e.1 == j) := by
  obtain ⟨k, -, -, heq⟩ | ⟨-, heq⟩ := s.latchSource_cases b i
  · rw [heq]
    exact (find?_assocSet ..).trans (if_neg h)
  · rw [heq, State.sourceHeld_var]

theorem State.latchSource_sameSource (s : State) (b : PM) {i j : Nat} (hi : i < 32) (hj : j < 32) (h : i ≠ j) :
    s.SameSource (s.latchSource b i) j where
  code := s.latchSource_win_other b hi (by omega) (by omega) (by omega)
  state := s.latchSource_win_other b hi (by omega) (by omega) (by omega)
  latched := s.latchSource_stamp_other b h
  copies := congrArg (assocGet · j []) (s.latchSource_copies b i)

/-! ### All sources at a cadence boundary (R156) -/

/-- The sources below n at boundary b. -/
def State.sourcesLatched (s : State) (b : PM) (n : Nat) : State :=
  forEach (List.range n) (fun t i => t.latchSource b i) s

section
variable (s : State) (b : PM)

theorem State.cadenceLatch_eq :
    s.cadenceLatch = (s.sourcesLatched s.tm.fpm 32).inc VAR_T_STATUS_LATCH_COUNT := (rfl)

theorem State.sourcesLatched_succ (n : Nat) :
    s.sourcesLatched b (n + 1) = (s.sourcesLatched b n).latchSource b n := by
  simp [State.sourcesLatched, forEach, List.range_succ]

theorem State.sourcesLatched_keeps (n : Nat) : Keeps (foot [.win .var, .var]) s (s.sourcesLatched b n) :=
  Keeps.forEach _ _ (fun t i h => (t.latchSource_keeps b i).stepFoot (by simp) h) (Keeps.refl _ s)

theorem State.sourcesLatched_copies (n : Nat) : (s.sourcesLatched b n).var.copies = s.var.copies :=
  forEach_preserves (fun t : State => t.var.copies) (fun t i => t.latchSource_copies b i) _ s

theorem State.sourcesLatched_win_other {n a : Nat} (hn : n ≤ 32) (ha : a < 2 ^ 24) (h : a < 0x8100 ∨ 0x8140 ≤ a) :
    (s.sourcesLatched b n).win .var a = s.win .var a := by
  induction n with
  | zero => rfl
  | succ n ih =>
    rw [State.sourcesLatched_succ, State.latchSource_win_other _ b (by omega) ha (by omega) (by omega), ih (by omega)]

/-- A source whose turn has not come is as it was. -/
theorem State.sourcesLatched_sameSource {n j : Nat} (hj : j < 32) (hn : n ≤ j) :
    s.SameSource (s.sourcesLatched b n) j := by
  induction n with
  | zero => exact .refl s j
  | succ n ih =>
    rw [State.sourcesLatched_succ]
    exact (ih (by omega)).trans (State.latchSource_sameSource _ b (by omega) hj (by omega))

/-- A source is latched in its turn, and no other turn touches it. -/
theorem State.sourcesLatched_latched {n i : Nat} (hn : n ≤ 32) (hi : i < n) :
    s.SourceLatched (s.sourcesLatched b n) b i := by
  induction n with
  | zero => exact absurd hi (Nat.not_lt_zero i)
  | succ n ih =>
    rw [State.sourcesLatched_succ]
    obtain hlt | rfl := Nat.lt_succ_iff_lt_or_eq.1 hi
    · exact (State.latchSource_sameSource _ b (by omega) (by omega) (by omega)).latched_after (ih (by omega) hlt)
    · exact (s.sourcesLatched_sameSource b hn (Nat.le_refl i)).latched_before (State.latchSource_latched _ b hn)

theorem State.cadenceLatch_win (c : Blk) (a : Nat) :
    s.cadenceLatch.win c a = (s.sourcesLatched s.tm.fpm 32).win c a := by
  rw [State.cadenceLatch_eq, State.inc_win]

theorem State.cadenceLatch_var : s.cadenceLatch.var = (s.sourcesLatched s.tm.fpm 32).var := by
  rw [State.cadenceLatch_eq, State.inc_var]

theorem State.cadenceLatch_latched {i : Nat} (hi : i < 32) : s.SourceLatched s.cadenceLatch s.tm.fpm i :=
  State.SameSource.latched_after
    ⟨s.cadenceLatch_win .var _, s.cadenceLatch_win .var _, by rw [s.cadenceLatch_var], by
      rw [State.copies, State.copies, s.cadenceLatch_var]⟩
    (s.sourcesLatched_latched s.tm.fpm (Nat.le_refl 32) hi)

theorem State.cadenceLatch_win_other {a : Nat} (ha : a < 2 ^ 24) (h : a < 0x8100 ∨ 0x8140 ≤ a) :
    s.cadenceLatch.win .var a = s.win .var a := by
  rw [State.cadenceLatch_win, s.sourcesLatched_win_other s.tm.fpm (Nat.le_refl 32) ha h]

theorem State.cadenceLatch_copies : s.cadenceLatch.var.copies = s.var.copies := by
  rw [State.cadenceLatch_var, State.sourcesLatched_copies]

theorem State.cadenceLatch_count :
    s.cadenceLatch.fld VAR_T_STATUS_LATCH_COUNT = min (s.fld VAR_T_STATUS_LATCH_COUNT + 1) 255 := by
  rw [State.cadenceLatch_eq, State.inc, State.fld_count_same _ 1 (by decide),
    (s.sourcesLatched_keeps _ _).fld (by decide +kernel)]
  rfl

end

/-! ### The commands -/

section
variable {s : State} (hclk : s.tm.clk = true) (hpow : s.pin.fieldPower = true)
include hclk hpow

theorem execHandoverCopy_of_powered (i : Fin 32) (code : W24) (stamp : PM) (status : BitVec 3) :
    exec (.handoverCopy i code stamp status) s = .next (s.handCopy i.val ⟨code, stamp, status⟩) :=
  congrArg Host.Outcome.next (State.onField_of_powered hclk hpow _)

theorem execCadenceLatch_of_powered : exec .cadenceLatch s = .next s.cadenceLatch :=
  congrArg Host.Outcome.next (State.onField_of_powered hclk hpow _)

end

/-- Settles O35: what a boundary makes of a source hangs on that source alone, so the sources are latched in their turn
as they were before the boundary. -/
theorem temperatureHandOverAndLatch : Obligations.TemperatureHandOverAndLatch := by
  refine ⟨fun s i code stamp status hclk hpow ha hb hstale => ?copy, fun s hclk hpow => ?latch⟩
  case copy =>
    have hexec := execHandoverCopy_of_powered hclk hpow i code stamp status
    have hkeeps := execHandoverCopy_keeps i code stamp status s hexec
    rw [State.handCopy_of_not_waiting ha hb, State.handover_of_not_stale hstale] at hexec hkeeps
    refine ⟨fun htimely => ?_, fun hlate => ?_⟩
    · rw [if_neg (Nat.not_lt.2 htimely)] at hexec
      exact ⟨_, hexec, s.copyStored_keeps i.val _, s.copies_copyStored i.val _, rfl⟩
    · rw [if_pos hlate] at hexec hkeeps
      have hraise := s.lateCounted.raise_keeps .var 0
      refine ⟨_, hexec, hkeeps, ?_, ?_, ?_, s.lateCounted_raise_latch⟩
      · rw [hraise.var (by decide +kernel), State.lateCounted_var]
      · rw [hraise.bit (by decide +kernel), State.lateCounted_late]
      · rw [hraise.fld (by decide +kernel), State.lateCounted_count]
  case latch =>
    have hexec := execCadenceLatch_of_powered hclk hpow
    refine ⟨_, hexec, execCadenceLatch_keeps s hexec, s.cadenceLatch_count, fun i hi => ?_,
      fun a ha h => s.cadenceLatch_win_other ha h, s.cadenceLatch_copies⟩
    obtain ⟨hfresh, hheld⟩ := s.cadenceLatch_latched hi
    exact ⟨hfresh, hheld⟩

end Sys2Proof.Machine

/-!
Fragment headers in their trigger slots (R178, R299, Table 08-4): the header parcel field by field, the slot that takes
it, and the fragment that is lost without one.
-/
namespace Sys2Proof.Machine

/-! ### The header parcel (Table 08-4) -/

/-- A number with fields put behind it. -/
def packOnto (a : Nat) (fs : List (Nat × Nat)) : Nat := fs.foldl (fun a f => a * 2 ^ f.1 + f.2 % 2 ^ f.1) a

theorem packOnto_cons (a n v : Nat) (fs : List (Nat × Nat)) :
    packOnto a ((n, v) :: fs) = packOnto (a * 2 ^ n + v % 2 ^ n) fs := (rfl)

theorem packOnto_reserved (a n : Nat) : packOnto a [(n, 0)] = a * 2 ^ n := by simp [packOnto]

theorem packFields_cons {n v : Nat} (h : v < 2 ^ n) (fs : List (Nat × Nat)) :
    packFields ((n, v) :: fs) = packOnto v fs := by
  simp [packFields, packOnto, Nat.mod_eq_of_lt h]

/-- The fields of Table 08-4. -/
def fragHeaderFields (f : Frag) (lost : Nat) : List (Nat × Nat) :=
  [(4, 0xA), (16, f.seq), (48, f.t.toNat), (48, f.first.toNat), (5, f.len), (3, f.region), (5, f.cF), (5, f.cL),
    (6, f.rF), (6, f.rL), (14, f.d), (16, lost), (64, 0)]

theorem fieldsWidth_fragHeaderFields (f : Frag) (lost : Nat) : fieldsWidth (fragHeaderFields f lost) = 240 := by
  simp [fieldsWidth, fragHeaderFields]

section
variable {f : Frag} (lost : Nat) (hcF : f.cF < 32) (hcL : f.cL < 32) (hrF : f.rF < 64) (hrL : f.rL < 64)
include hcF hcL hrF hrL

/-- A header parcel is its fields with their frank, where the region's bounds fit theirs. -/
theorem fragHeaderParcel_toNat :
    (fragHeaderParcel f lost).toNat = packFields (withCrc 240 (fragHeaderFields f lost)) := by
  have heq : fragHeaderParcel f lost = franked (packFields (fragHeaderFields f lost)) := by
    simp only [fragHeaderParcel, fragHeaderFields, packFields_cons (show 0xA < 2 ^ 4 by decide), packOnto_cons,
      ↓packOnto_reserved, Nat.mod_eq_of_lt (show f.cF < 2 ^ 5 from hcF),
      Nat.mod_eq_of_lt (show f.cL < 2 ^ 5 from hcL), Nat.mod_eq_of_lt (show f.rF < 2 ^ 6 from hrF),
      Nat.mod_eq_of_lt (show f.rL < 2 ^ 6 from hrL), Nat.mod_eq_of_lt f.t.isLt, Nat.mod_eq_of_lt f.first.isLt,
      show f.len % 32 = f.len % 2 ^ 5 from rfl, show f.region % 8 = f.region % 2 ^ 3 from rfl]
  rw [heq, franked_packFields_toNat (fieldsWidth_fragHeaderFields ..)]

/-- A header parcel shows each of its fields, and its check word (Table 08-4). -/
theorem bitsOf_fragHeaderParcel {w : Nat} (hw : w = (fragHeaderParcel f lost).toNat) :
    bitsOf w 255 252 = 0xA ∧ bitsOf w 251 236 = f.seq % 2 ^ 16 ∧ bitsOf w 235 188 = f.t.toNat ∧
    bitsOf w 187 140 = f.first.toNat ∧ bitsOf w 139 135 = f.len % 2 ^ 5 ∧ bitsOf w 134 132 = f.region % 2 ^ 3 ∧
    bitsOf w 131 127 = f.cF ∧ bitsOf w 126 122 = f.cL ∧ bitsOf w 121 116 = f.rF ∧ bitsOf w 115 110 = f.rL ∧
    bitsOf w 109 96 = f.d % 2 ^ 14 ∧ bitsOf w 95 80 = lost % 2 ^ 16 ∧ bitsOf w 79 16 = 0 ∧
    bitsOf w 15 0 = crc16 240 (bitsOf w 255 16) := by
  rw [hw, fragHeaderParcel_toNat lost hcF hcL hrF hrL]
  refine ⟨bitsOf_withCrc 0 rfl ?_ rfl rfl, bitsOf_withCrc 1 rfl ?_ rfl rfl,
    bitsOf_withCrc 2 rfl ?_ rfl (Nat.mod_eq_of_lt f.t.isLt),
    bitsOf_withCrc 3 rfl ?_ rfl (Nat.mod_eq_of_lt f.first.isLt), bitsOf_withCrc 4 rfl ?_ rfl rfl,
    bitsOf_withCrc 5 rfl ?_ rfl rfl, bitsOf_withCrc 6 rfl ?_ rfl (Nat.mod_eq_of_lt hcF),
    bitsOf_withCrc 7 rfl ?_ rfl (Nat.mod_eq_of_lt hcL), bitsOf_withCrc 8 rfl ?_ rfl (Nat.mod_eq_of_lt hrF),
    bitsOf_withCrc 9 rfl ?_ rfl (Nat.mod_eq_of_lt hrL), bitsOf_withCrc 10 rfl ?_ rfl rfl,
    bitsOf_withCrc 11 rfl ?_ rfl rfl, bitsOf_withCrc 12 rfl ?_ rfl rfl,
    bitsOf_withCrc_crc (fieldsWidth_fragHeaderFields ..)⟩
  all_goals simp [fragHeaderFields, fieldsWidth]

end

/-! ### A header's answer tick (R178, R299) -/

/-- The first fragment whose header leaves in this tick. -/
def State.headerDue (s : State) : Option Frag := s.evt.frags.find? (fun f => f.header && f.at_ == s.tm.hpm)

/-- The state after a fragment's header has taken its slot. -/
def State.headerTaken (s : State) (f : Frag) : State :=
  ({ s with evt := { s.evt with
      frags := s.evt.frags.map (fun x => if x = f then { x with header := false } else x), lostTrg := 0,
      due := ⟨s.tm.hpm, f.port, true, fragHeaderParcel f s.evt.lostTrg, true, true⟩ :: s.evt.due } }).dropDone

/-- The state without a fragment, which counts as a refused TRIG. -/
def State.fragLost (s : State) (f : Frag) : State :=
  { s with evt := { s.evt with
      frags := s.evt.frags.filter (fun k => k != f), lostTrg := min 65535 (s.evt.lostTrg + 1) } }

theorem execFragmentHeader_of_clk {s : State} (h : s.tm.clk = true) : exec .fragmentHeader s = .next s.fragHeader :=
  congrArg Host.Outcome.next (State.onTick_of_clk h _)

theorem State.headerTaken_keeps (s : State) (f : Frag) : Keeps (foot [.evt]) s (s.headerTaken f) :=
  (State.dropDone_keeps _).step (Nat.or_self _) (Keeps.refl _ s).upd

section
variable {s : State} {f : Frag}

theorem State.fragHeader_of_none (h : s.headerDue = none) : s.fragHeader = s := by
  unfold State.headerDue at h
  simp only [State.fragHeader, h]

variable (h : s.headerDue = some f)
include h

theorem State.fragHeader_of_slot (hup : s.isUp f.port = true)
    (hslot : s.schedKind s.hostTab f.port (s.tm.hpm.toNat % 64) = 6) : s.fragHeader = s.headerTaken f := by
  unfold State.headerDue at h
  simp only [State.fragHeader, h, hup, hslot, Bool.true_and, beq_self_eq_true, if_true]
  rfl

theorem State.fragHeader_of_no_slot
    (hno : ¬ (s.isUp f.port = true ∧ s.schedKind s.hostTab f.port (s.tm.hpm.toNat % 64) = 6)) :
    s.fragHeader = (s.fragLost f).deadParcel 7 f.port 0 0 (s.tm.hpm.toNat % 64)
      (bitsOf (fragHeaderParcel f s.evt.lostTrg).toNat 255 232) 1 := by
  unfold State.headerDue at h
  simp only [State.fragHeader, h, Bool.and_eq_true, beq_iff_eq, if_neg hno]
  rfl

end

end Sys2Proof.Machine

/-!
A change of a stream setting at its boundary (R171): what is stored, which settings are kept for the groups before it,
and what the change counts.
-/
namespace Sys2Proof.Machine

/-! ### STR_DECIMATION as it is stored (Table 08-9a) -/

/-- EXP is held to 8 at most and MIN_VALID to 1 to 256. -/
theorem fldGet_decStored (v : Word) :
    fldGet STR_DECIMATION_EXP (decStored v) = min (fldGet STR_DECIMATION_EXP v) 8 ∧
      fldGet STR_DECIMATION_MIN_VALID (decStored v) = max 1 (min (fldGet STR_DECIMATION_MIN_VALID v) 256) := by
  have hexp (w : Word) : fldGet STR_DECIMATION_EXP w = w.toNat % 16 := by simp [fldGet, STR_DECIMATION_EXP]
  have hmin (w : Word) : fldGet STR_DECIMATION_MIN_VALID w = w.toNat / 256 % 512 := by
    simp [fldGet, STR_DECIMATION_MIN_VALID]
  have hword : (decStored v).toNat =
      max 1 (min (fldGet STR_DECIMATION_MIN_VALID v) 256) * 256 + min (fldGet STR_DECIMATION_EXP v) 8 := by
    simp only [decStored, BitVec.toNat_ofNat]
    split <;> omega
  rw [hexp (decStored v), hmin (decStored v), hword]
  omega

/-! ### The change (R171) -/

/-- The register of a stream setting: STR_COLUMN_MASK or STR_DECIMATION. -/
def strIndex (mask : Bool) : Nat := if mask then STR_COLUMN_MASK else STR_DECIMATION

/-- What a write of v stores there. -/
def strWord (mask : Bool) (v : Word) : Word := if mask then v else decStored v

/-- The setting in force, as it is kept for the groups before the boundary of this tick. -/
def State.settingInForce (s : State) : OldStr :=
  ⟨s.tm.fpm, BitVec.ofNat 32 s.strMask, s.strExp, s.fld STR_DECIMATION_MIN_VALID⟩

/-- The earlier settings after a change: one of this boundary stays as it is, else the setting in force comes first. -/
def State.settingsKept (s : State) : List OldStr :=
  if s.str.old.head?.map (fun o => o.until_) = some s.tm.fpm then s.str.old
  else (s.settingInForce :: s.str.old).take 4

/-- The state with a setting stored. -/
def State.settingStored (s : State) (mask : Bool) (v : Word) : State :=
  { s with str := { s.str with old := s.settingsKept } }.setReg (strIndex mask) (strWord mask v)

/-- The state with a setting stored and the old blocks counted that are not sent. -/
def State.settingCounted (s : State) (mask : Bool) (v : Word) : State :=
  (s.settingStored mask v).count STR_SKIPPED_COUNT_DEC_CHANGE
    (skippedAt s.strMask s.strExp (s.settingStored mask v).strExp)

/-- Neither setting shares its register with the count, the device's state or its determinism. -/
theorem strIndex_ne (mask : Bool) : strIndex mask ≠ STR_SKIPPED_COUNT ∧ strIndex mask ≠ GLB_STATE ∧
    strIndex mask ≠ GLB_DETERMINISM := by
  cases mask <;> decide

section
variable (s : State) (mask : Bool) (v : Word)

theorem State.settingInForce_mask : s.settingInForce.mask.toNat = s.strMask := by
  have hlt := s.fld_lt STR_COLUMN_MASK_MASK
  exact (BitVec.toNat_ofNat ..).trans (Nat.mod_eq_of_lt hlt)

theorem State.strChange_of_same {launched : Bool} (h : s.reg (strIndex mask) = strWord mask v) :
    s.strChange mask v launched = s := if_pos h

theorem State.strChange_of_new (launched : Bool) (h : s.reg (strIndex mask) ≠ strWord mask v) :
    s.strChange mask v launched = (s.settingCounted mask v).param launched true := by
  unfold State.strChange
  extract_lets idx w o keep str s1
  have hkeep : keep = s.settingsKept := by
    unfold keep State.settingsKept
    cases s.str.old with
    | nil => rfl
    | cons p ps =>
      simp only [List.head?_cons, Option.map_some, Option.some.injEq]
      rfl
  have hstored : s1 = s.settingStored mask v := by
    unfold s1
    rw [hkeep]
    rfl
  rw [if_neg (show s.reg idx ≠ w from h), hstored, show o.mask.toNat = s.strMask from s.settingInForce_mask]
  rfl

/-- The EXP in force after the change: that of the write, where it is one of STR_DECIMATION. -/
theorem State.settingStored_strExp :
    (s.settingStored mask v).strExp = if mask then s.strExp else min (fldGet STR_DECIMATION_EXP v) 8 := by
  cases mask with
  | true => exact congrArg (fldGet STR_DECIMATION_EXP) (State.reg_setReg_other _ v (by decide))
  | false =>
    refine (congrArg (fldGet STR_DECIMATION_EXP) (State.reg_setReg_same ..)).trans ?_
    exact (fldGet_decStored v).1

theorem State.settingStored_fld {f : Fld} (h : strIndex mask ≠ f.reg) : (s.settingStored mask v).fld f = s.fld f :=
  congrArg (fldGet f) (State.reg_setReg_other _ _ h)

theorem State.settingCounted_reg_same : (s.settingCounted mask v).reg (strIndex mask) = strWord mask v := by
  obtain ⟨hcount, -, -⟩ := strIndex_ne mask
  rw [State.settingCounted, State.count, State.reg_setFld_other _ _ hcount.symm, State.settingStored,
    State.reg_setReg_same]

theorem State.settingCounted_reg_other {i : Nat} (hset : strIndex mask ≠ i) (hcount : STR_SKIPPED_COUNT ≠ i) :
    (s.settingCounted mask v).reg i = s.reg i := by
  rw [State.settingCounted, State.count, State.reg_setFld_other _ _ hcount, State.settingStored,
    State.reg_setReg_other _ _ hset]
  rfl

theorem State.settingCounted_glb : (s.settingCounted mask v).glb = s.glb :=
  congrArg (fldGet GLB_STATE_STATE) (s.settingCounted_reg_other mask v (strIndex_ne mask).2.1 (by decide))

theorem State.settingCounted_count : (s.settingCounted mask v).fld STR_SKIPPED_COUNT_DEC_CHANGE =
    min (s.fld STR_SKIPPED_COUNT_DEC_CHANGE +
      skippedAt s.strMask s.strExp (if mask then s.strExp else min (fldGet STR_DECIMATION_EXP v) 8)) 65535 := by
  rw [State.settingCounted, State.fld_count_same _ _ (by decide), State.settingStored_fld _ _ _ (strIndex_ne mask).1,
    State.settingStored_strExp]
  rfl

theorem State.settingCounted_str : (s.settingCounted mask v).str = { s.str with old := s.settingsKept } := by
  rw [State.settingCounted, State.count_str, State.settingStored, State.setReg_str]

theorem State.settingCounted_keeps :
    Keeps (foot [.reg (strIndex mask), .reg STR_SKIPPED_COUNT, .str]) s (s.settingCounted mask v) :=
  (State.setReg_keeps_reg _ STR_SKIPPED_COUNT _).stepFoot (by simp) <|
    (State.setReg_keeps_reg _ (strIndex mask) _).stepFoot (by simp) <|
      (Keeps.refl (foot [.str]) s).upd.monoFoot (by simp)

end

/-! ### The reason of an unlaunched change (R8) -/

theorem State.param_of_unlaunched {s : State} (h : s.glb = 7) : s.param false true = s.sticky 5 := by
  simp [State.param, h]

theorem State.param_of_not {s : State} {launched : Bool} (h : launched = true ∨ s.glb ≠ 7) (changed : Bool) :
    s.param launched changed = s := by
  rcases h with h | h <;> simp [State.param, h]

/-! ### The command -/

theorem execStrDecimationChange_of_powered {s : State} (hclk : s.tm.clk = true) (hpow : s.pin.fieldPower = true)
    (mask : Bool) (v : Word) (w : Writer) :
    exec (.strDecimationChange mask v w) s = .next (s.strChange mask v w.launched) :=
  congrArg Host.Outcome.next (State.onField_of_powered hclk hpow _)

end Sys2Proof.Machine

/-!
A bad word of the pigeonholes (R175): what the error keeps and raises, and how every reader sees such a word.
-/
namespace Sys2Proof.Machine

/-! ### Bits that are added where they are clear -/

theorem bitOf_eq_testBit (x i : Nat) : bitOf x i = x.testBit i := (Nat.testBit_eq_decide_div_mod_eq ..).symm

/-- Adding a power to a number that lacks its bit sets that bit and no other. -/
theorem testBit_add_two_pow {x n : Nat} (h : x.testBit n = false) (i : Nat) :
    (x + 2 ^ n).testBit i = (x.testBit i || decide (i = n)) := by
  rw [Nat.add_comm]
  obtain hlt | rfl | hgt := Nat.lt_trichotomy i n
  · rw [Nat.testBit_two_pow_add_gt hlt, decide_eq_false hlt.ne, Bool.or_false]
  · rw [Nat.testBit_two_pow_add_eq, h, decide_eq_true rfl]
    rfl
  · have hclear : x / 2 ^ n % 2 = 0 := by simpa [Nat.testBit_eq_decide_div_mod_eq] using h
    have hdiv : (2 ^ n + x) / 2 ^ (n + 1) = x / 2 ^ (n + 1) := by
      rw [Nat.pow_succ, ← Nat.div_div_eq_div_mul, ← Nat.div_div_eq_div_mul, Nat.add_div_left _ (Nat.two_pow_pos n)]
      omega
    obtain ⟨k, rfl⟩ := Nat.exists_eq_add_of_lt hgt
    rw [decide_eq_false (by omega), Bool.or_false, show n + k + 1 = k + (n + 1) by omega, Nat.testBit_add, hdiv,
      ← Nat.testBit_add]

/-- The bits below n that a test names and that a number lacks. -/
def bitsLacking (p : Nat → Bool) (x n : Nat) : Nat :=
  (List.range n).foldl (fun m r => if p r && !bitOf x r then m + 2 ^ r else m) 0

theorem testBit_add_bitsLacking (p : Nat → Bool) (x n i : Nat) :
    (x + bitsLacking p x n).testBit i = (x.testBit i || (decide (i < n) && p i)) := by
  induction n generalizing i with
  | zero => simp [bitsLacking]
  | succ n ih =>
    have hsucc : x + bitsLacking p x (n + 1) =
        if p n && !x.testBit n then x + bitsLacking p x n + 2 ^ n else x + bitsLacking p x n := by
      simp only [bitsLacking, List.range_succ, List.foldl_append, List.foldl_cons, List.foldl_nil, bitOf_eq_testBit]
      split <;> omega
    rw [hsucc]
    split
    next hnew =>
      obtain ⟨hp, hclear⟩ : p n = true ∧ x.testBit n = false := by simpa using hnew
      rw [testBit_add_two_pow (by rw [ih]; simp [hclear]), ih]
      by_cases hi : i = n
      · simp [hi, hp]
      · simp [hi, show i < n + 1 ↔ i < n by omega]
    next hold =>
      have hset : p n = true → x.testBit n = true := by simpa using hold
      rw [ih]
      by_cases hi : i = n
      · subst hi
        simpa using hset
      · simp [show i < n + 1 ↔ i < n by omega]

/-! ### The error (R175) -/

/-- EVT raises its source 1 for a word. -/
def State.evtErrorRaised (s : State) (a : Nat) : State :=
  s.raiseWith .evt 1 { plainRaise .evt with addr := a % 65536 }

/-- A word of the EVT block is kept as bad, once. -/
def State.keepBadEvt (s : State) (a : Nat) : State :=
  if s.evt.badWord.contains a then s else { s with evt := { s.evt with badWord := s.evt.badWord ++ [a] } }

section
variable (s : State) (a : Nat)

theorem State.evtWordError_eq : s.evtWordError a = (s.evtErrorRaised a).keepBadEvt a := (rfl)

theorem State.keepBadEvt_evt : (s.keepBadEvt a).evt =
    { s.evt with badWord := if a ∈ s.evt.badWord then s.evt.badWord else s.evt.badWord ++ [a] } := by
  by_cases h : a ∈ s.evt.badWord <;> simp [State.keepBadEvt, h]

theorem State.keepBadEvt_fld (f : Fld) : (s.keepBadEvt a).fld f = s.fld f := by
  unfold State.keepBadEvt
  split <;> rfl

theorem State.evtWordError_evt : (s.evtWordError a).evt =
    { s.evt with badWord := if a ∈ s.evt.badWord then s.evt.badWord else s.evt.badWord ++ [a] } := by
  rw [State.evtWordError_eq, State.keepBadEvt_evt, State.evtErrorRaised,
    (State.raiseWith_keeps ..).evt (by decide +kernel)]

theorem State.mem_evtWordError_badWord : a ∈ (s.evtWordError a).evt.badWord := by
  rw [State.evtWordError_evt]
  by_cases h : a ∈ s.evt.badWord <;> simp [h]

variable {s}

theorem State.evtWordError_latch (hfirst : (s.src .evt 1).last ≠ some s.tm.tick) :
    bitOf ((s.evtWordError a).fld (FLT_LATCH_LATCH (blkBase .evt))) 1 = true := by
  rw [State.evtWordError_eq, State.keepBadEvt_fld]
  exact State.raiseWith_flags rfl (by decide) hfirst _ List.mem_cons_self

end

/-! ### What the readers of the pigeonholes see (R174, R175) -/

section
variable {s : State} {c : Nat} {sheet : PM}

theorem State.ringRead_of_bad {ch : Nat} (h : ringAddr ch sheet ∈ s.evt.badWord) :
    s.ringRead ch sheet = 0x800000 := by
  simp only [State.ringRead, List.contains_iff_mem.2 h, Bool.or_true, if_true]
  rfl

theorem State.summary_of_bad {k : Nat} (hk : k < 3) (h : sumAddr c sheet k ∈ s.evt.badWord)
    (hafter : s.beforeHorizon sheet = false) : s.summary c sheet = (0x40, 2 ^ 64 - 1) := by
  have hany : (List.range 3).any (fun w => s.evt.badWord.contains (sumAddr c sheet w)) = true :=
    List.any_eq_true.2 ⟨k, List.mem_range.2 hk, List.contains_iff_mem.2 h⟩
  rw [State.summary, hafter, if_neg Bool.false_ne_true, if_pos hany]

/-- A summary has the bit of a bad reading: all are set before the horizon and where a word of it is bad, and else the
bits of the bad readings are added to those it has. -/
theorem State.summary_attention_of_bad {r : Nat} (hr : r < 64) (h : ringAddr (64 * c + r) sheet ∈ s.evt.badWord) :
    bitOf (s.summary c sheet).2 r = true := by
  have hall : bitOf (2 ^ 64 - 1) r = true := by
    rw [bitOf_eq_testBit, Nat.testBit_two_pow_sub_one, decide_eq_true hr]
  unfold State.summary
  extract_lets w0 att bad
  split
  · exact hall
  split
  · exact hall
  have hbad : bad = bitsLacking (fun r => s.evt.badWord.contains (ringAddr (64 * c + r) sheet)) att 64 := rfl
  rw [hbad, bitOf_eq_testBit, testBit_add_bitsLacking, decide_eq_true hr, List.contains_iff_mem.2 h, Bool.true_and,
    Bool.or_true]

end

/-! ### The command -/

theorem execPigeonholeMemoryError_of_powered {s : State} (hclk : s.tm.clk = true) (hpow : s.pin.fieldPower = true)
    (a : BitVec 23) : exec (.pigeonholeMemoryError a) s = .next (s.evtWordError a.toNat) :=
  congrArg Host.Outcome.next (State.onField_of_powered hclk hpow _)

end Sys2Proof.Machine

/-!
Fragment headers, stream settings and bad pigeonhole words together (R171, R175, R178).
-/
namespace Sys2Proof.Machine

/-- Settles O40: a header hangs on its slot, a change of a setting stores, keeps and counts before its reason is judged,
and every reader of the pigeonholes looks for its words among the bad ones. -/
theorem fragmentsDecimationAndBadWords : Obligations.FragmentsDecimationAndBadWords := by
  refine ⟨fun s hclk => ⟨fun hnone => ?none, fun f hf => ⟨fun ⟨hup, hslot⟩ => ?taken, fun hno => ?lost⟩⟩,
    fun f lost w hcF hcL hrF hrL hw => bitsOf_fragHeaderParcel lost hcF hcL hrF hrL hw, fldGet_decStored,
    fun s mask v x i e w hclk hpow hi hx he => ⟨fun hsame => ?same, fun hnew => ?changed⟩,
    fun s a hclk hpow => ?badWord⟩
  case none => rw [execFragmentHeader_of_clk hclk, State.fragHeader_of_none hnone]
  case taken =>
    have hexec := execFragmentHeader_of_clk hclk
    rw [State.fragHeader_of_slot hf hup hslot] at hexec
    exact ⟨_, hexec, s.headerTaken_keeps f, rfl, rfl, rfl⟩
  case lost =>
    have hexec := execFragmentHeader_of_clk hclk
    have hkeeps := execFragmentHeader_keeps s hexec
    rw [State.fragHeader_of_no_slot hf hno] at hexec hkeeps
    exact ⟨_, hexec, hkeeps, (State.deadParcel_keeps ..).evt (by decide +kernel), State.deadParcel_count ..⟩
  case same =>
    subst hi hx
    rw [execStrDecimationChange_of_powered hclk hpow, s.strChange_of_same mask v hsame]
  case changed =>
    subst hi hx he
    have hexec := execStrDecimationChange_of_powered hclk hpow mask v w
    rw [s.strChange_of_new mask v w.launched hnew] at hexec
    have hparam := (s.settingCounted mask v).param_keeps w.launched true
    obtain ⟨-, -, hdet⟩ := strIndex_ne mask
    have hstr := (hparam.str (by decide +kernel)).trans (s.settingCounted_str mask v)
    refine ⟨_, hexec, ?_, ?_, ?_, congrArg StrSt.old hstr, ?_, fun hun hrun => ?_, fun hnot => ?_⟩
    · exact hparam.stepFoot (by simp) ((s.settingCounted_keeps mask v).monoFoot (by simp [strIndex]))
    · exact (hparam.reg _ (by cases mask <;> decide +kernel)).trans (s.settingCounted_reg_same mask v)
    · rw [hstr]
    · rw [hparam.fld (by decide +kernel), s.settingCounted_count]
    · rw [hun, State.param_of_unlaunched ((s.settingCounted_glb mask v).trans hrun)]
      exact beq_iff_eq.2 (State.sticky_bit _ (by decide))
    · rw [← s.settingCounted_glb mask v] at hnot
      rw [State.param_of_not hnot, s.settingCounted_reg_other mask v hdet (by decide)]
  case badWord =>
    have hexec := execPigeonholeMemoryError_of_powered hclk hpow a
    have hbad := s.mem_evtWordError_badWord a.toNat
    exact ⟨_, hexec, execPigeonholeMemoryError_keeps a s hexec, s.evtWordError_evt a.toNat,
      State.evtWordError_latch a.toNat, fun ch sheet h => State.ringRead_of_bad (h ▸ hbad),
      fun c r sheet hr h => State.summary_attention_of_bad hr (h ▸ hbad),
      fun c sheet k hk h hafter => State.summary_of_bad hk (h ▸ hbad) hafter⟩

end Sys2Proof.Machine

/-!
A housekeeping converter's state (R187 to R194): what a conversion that starts stores, when a pass starts, and what
an abandoned conversion, the end of a calibration and a restart leave.
-/
namespace Sys2Proof.Machine

set_option Elab.async false

/-! ### One converter's state and the other's -/

@[simp] theorem State.hk_setHk (s : State) (x : Hk) (h : HkSt) : (s.setHk x h).hk x = h := by cases x <;> rfl

@[simp] theorem State.hk_setHk_other (s : State) (x : Hk) (h : HkSt) :
    (s.setHk x h).hk (hkOther x) = s.hk (hkOther x) := by cases x <;> rfl

@[simp] theorem State.setHk_fld (s : State) (x : Hk) (h : HkSt) (f : Fld) : (s.setHk x h).fld f = s.fld f := by
  cases x <;> rfl

@[simp] theorem State.setHk_bit (s : State) (x : Hk) (h : HkSt) (f : Fld) : (s.setHk x h).bit f = s.bit f := by
  cases x <;> rfl

@[simp] theorem State.setHk_tm (s : State) (x : Hk) (h : HkSt) : (s.setHk x h).tm = s.tm := by cases x <;> rfl

@[simp] theorem State.setHk_pin (s : State) (x : Hk) (h : HkSt) : (s.setHk x h).pin = s.pin := by cases x <;> rfl

@[simp] theorem State.setReg_hk (s : State) (i : Nat) (v : Word) (y : Hk) : (s.setReg i v).hk y = s.hk y := by
  cases y <;> rfl

@[simp] theorem State.setFld_hk (s : State) (f : Fld) (v : Nat) (y : Hk) : (s.setFld f v).hk y = s.hk y :=
  s.setReg_hk _ _ y

@[simp] theorem State.setBit_hk (s : State) (f : Fld) (v : Bool) (y : Hk) : (s.setBit f v).hk y = s.hk y :=
  s.setFld_hk f _ y

@[simp] theorem State.inc_hk (s : State) (f : Fld) (y : Hk) : (s.inc f).hk y = s.hk y := s.setFld_hk f _ y

/-- A footprint without the converters leaves each as it was. -/
theorem Keeps.hk {M : Nat} {s t : State} (h : Keeps M s t) (y : Hk)
    (hM : M.testBit 0x2057 = false ∧ M.testBit 0x2058 = false) : t.hk y = s.hk y :=
  match y with
  | .a => h.hka hM.1
  | .b => h.hkb hM.2

@[simp] theorem State.excPins_hk (s : State) (x y : Hk) : (s.excPins x).hk y = s.hk y :=
  (s.excPins_keeps x).hk y (by decide +kernel)

@[simp] theorem State.excRearm_hk (s : State) (y : Hk) : s.excRearm.hk y = s.hk y :=
  s.excRearm_keeps.hk y (by decide +kernel)

@[simp] theorem State.param_hk (s : State) (launched changed : Bool) (y : Hk) :
    (s.param launched changed).hk y = s.hk y := (s.param_keeps launched changed).hk y (by decide +kernel)

@[simp] theorem State.note_hk (s : State) (e : Eng) (n : Nat) (y : Hk) : (s.note e n).hk y = s.hk y :=
  (s.note_keeps e n).hk y (by decide +kernel)

@[simp] theorem State.raise_hk (s : State) (b : Blk) (i : Nat) (y : Hk) : (s.raise b i).hk y = s.hk y :=
  (s.raise_keeps b i).hk y (by decide +kernel)

/-! ### Fields apart from each other -/

/-- Two fields share no bit of a register. -/
abbrev apart (f g : Fld) : Prop := f.reg ≠ g.reg ∨ f.lo + f.len ≤ g.lo ∨ g.lo + g.len ≤ f.lo

theorem State.bit_congr {s t : State} {f : Fld} (h : t.fld f = s.fld f) : t.bit f = s.bit f := congrArg (· == 1) h

theorem State.fld_inc_other (s : State) {f g : Fld} (h : f.lo + f.len ≤ 32) (hd : apart f g) :
    (s.inc f).fld g = s.fld g := s.fld_setFld_other _ h hd

theorem State.fld_setBit_other (s : State) {f g : Fld} (v : Bool) (h : f.lo + f.len ≤ 32) (hd : apart f g) :
    (s.setBit f v).fld g = s.fld g := s.fld_setFld_other _ h hd

theorem State.standing_fld (s : State) (b : Blk) (i : Nat) (on : Bool) (f : Fld) :
    (s.standing b i on).fld f = s.fld f := (rfl)

theorem State.note_brush_fld (s : State) (n : Nat) (f : Fld) : (s.note .brush n).fld f = s.fld f := (rfl)

section
variable (s : State) (x : Hk) {f : Fld} (hexc : f.reg ≠ HKS_EXC_STATUS)
include hexc

theorem State.excPins_fld : (s.excPins x).fld f = s.fld f := by
  unfold State.excPins
  split
  · rfl
  · exact s.fld_setFld_other _ (by decide) (.inl hexc.symm)

theorem State.excRearm_fld : s.excRearm.fld f = s.fld f := by
  unfold State.excRearm
  split
  · exact (State.standing_fld ..).trans (s.fld_setBit_other false (by decide) (.inl hexc.symm))
  · rfl

end

/-! ### A conversion starts (R187, R195) -/

/-- The conversion of a converter that starts in this tick with a word, at conversion k with the sums so far. -/
def State.convOf (s : State) (x : Hk) (kind : HkKind) (n : Nat) (w : Word) (k : Nat) (sum : Int) (ovr ns : Bool) :
    HkConv :=
  ⟨kind, n, w, sgn 24 (s.fld (HKx_CAL_OFS_OFS (hkBase x) (seqGain w))),
    s.fld (HKx_CAL_GAIN_GAINF (hkBase x) (seqGain w)), k, sum, ovr, ns || !s.bit HKS_REFBUF_STATUS_READY, s.tm.tick,
    convTicks (seqTime w)⟩

/-- ACTIVITY shows the kind of a conversion, and CUR_ENTRY the entry of one that an entry asks for. -/
def State.kindShown (s : State) (x : Hk) (kind : HkKind) (n : Nat) : State :=
  let t := s.setFld (HKx_CTRL_ACTIVITY (hkBase x)) (kindCode kind)
  if kind = .entry ∨ kind = .urgent then t.setFld (HKx_STATUS_CUR_ENTRY (hkBase x)) n else t

section
variable (s : State) (x : Hk) (kind : HkKind) (n : Nat)

theorem State.kindShown_hk (y : Hk) : (s.kindShown x kind n).hk y = s.hk y := by
  unfold State.kindShown
  split
  · simp
  · simp

theorem State.kindShown_fld {f : Fld} (hact : apart (HKx_CTRL_ACTIVITY (hkBase x)) f)
    (hcur : apart (HKx_STATUS_CUR_ENTRY (hkBase x)) f) : (s.kindShown x kind n).fld f = s.fld f := by
  have hset := s.fld_setFld_other (kindCode kind) (by simp [HKx_CTRL_ACTIVITY]) hact
  unfold State.kindShown
  split
  · exact (State.fld_setFld_other _ _ (by simp [HKx_STATUS_CUR_ENTRY]) hcur).trans hset
  · exact hset

theorem State.kindShown_activity : (s.kindShown x kind n).fld (HKx_CTRL_ACTIVITY (hkBase x)) = kindCode kind := by
  have hset : (s.setFld (HKx_CTRL_ACTIVITY (hkBase x)) (kindCode kind)).fld (HKx_CTRL_ACTIVITY (hkBase x)) =
      kindCode kind := by
    rw [State.fld_setFld_same _ _ _ (by simp [HKx_CTRL_ACTIVITY])]
    cases kind <;> rfl
  unfold State.kindShown
  split
  · exact (State.fld_setFld_other _ _ (by simp [HKx_STATUS_CUR_ENTRY]) (.inl (by cases x <;> decide))).trans hset
  · exact hset

variable (w : Word) (k : Nat) (sum : Int) (ovr ns : Bool)

/-- A conversion runs in its converter, and nothing comes next. -/
def State.convPut (s : State) (x : Hk) (c : HkConv) : State :=
  s.setHk x { s.hk x with conv := some c, next := none }

/-- A conversion that starts is stored in its converter and shown; only an excitation that is off can mark it as
overranged besides (R205). -/
theorem State.startConv_eq : ∃ live, s.startConv x kind n w k sum ovr ns =
    ((s.excRearm.convPut x (s.convOf x kind n w k sum (ovr || live) ns)).kindShown x kind n).excPins x := by
  have hconv (live : Bool) : s.excRearm.convOf x kind n w k sum (ovr || live) ns =
      s.convOf x kind n w k sum (ovr || live) ns := by
    simp only [State.convOf]
    rw [State.excRearm_fld s (by cases x <;> simp [HKx_CAL_OFS_OFS, HKx_CAL_OFS, hkBase, HKS_EXC_STATUS] <;> omega),
      State.excRearm_fld s (by cases x <;> simp [HKx_CAL_GAIN_GAINF, HKx_CAL_GAIN, hkBase, HKS_EXC_STATUS] <;> omega),
      State.bit_congr (s.excRearm_fld (f := HKS_REFBUF_STATUS_READY) (by decide)),
      s.excRearm_keeps.tm (by decide +kernel)]
  simp only [← hconv]
  exact ⟨_, rfl⟩

theorem State.startConv_hk : ∃ live, (s.startConv x kind n w k sum ovr ns).hk x =
    { s.hk x with conv := some (s.convOf x kind n w k sum (ovr || live) ns), next := none } := by
  obtain ⟨live, heq⟩ := s.startConv_eq x kind n w k sum ovr ns
  exact ⟨live, by rw [heq, State.excPins_hk, State.kindShown_hk, State.convPut, State.hk_setHk, State.excRearm_hk]⟩

theorem State.startConv_other : (s.startConv x kind n w k sum ovr ns).hk (hkOther x) = s.hk (hkOther x) := by
  obtain ⟨live, heq⟩ := s.startConv_eq x kind n w k sum ovr ns
  rw [heq, State.excPins_hk, State.kindShown_hk, State.convPut, State.hk_setHk_other, State.excRearm_hk]

theorem State.startConv_fld {f : Fld} (hexc : f.reg ≠ HKS_EXC_STATUS) (hact : apart (HKx_CTRL_ACTIVITY (hkBase x)) f)
    (hcur : apart (HKx_STATUS_CUR_ENTRY (hkBase x)) f) : (s.startConv x kind n w k sum ovr ns).fld f = s.fld f := by
  obtain ⟨live, heq⟩ := s.startConv_eq x kind n w k sum ovr ns
  rw [heq, State.excPins_fld _ x hexc, State.kindShown_fld _ x kind n hact hcur, State.convPut,
    State.setHk_fld, State.excRearm_fld s hexc]

theorem State.startConv_activity :
    (s.startConv x kind n w k sum ovr ns).fld (HKx_CTRL_ACTIVITY (hkBase x)) = kindCode kind := by
  obtain ⟨live, heq⟩ := s.startConv_eq x kind n w k sum ovr ns
  rw [heq, State.excPins_fld _ x (by cases x <;> decide), State.kindShown_activity]

/-- What starts from its beginning begins a conversion as R187 says. -/
theorem State.startKind_hk : ∃ c, (s.startKind x kind n).hk x = { s.hk x with conv := some c, next := none } ∧
    s.beginsConv x kind n c := by
  obtain ⟨live, hhk⟩ := s.startConv_hk x kind n (s.convWord x kind n) 0 0 false false
  exact ⟨_, hhk, rfl, rfl, rfl, rfl, rfl, rfl, rfl, rfl, rfl, rfl⟩

end

/-! ### A pass starts (R193) -/

/-- What a pass starts with: the check conversion when enabled, else entry 0. -/
def State.passFirst (s : State) : HkKind := if s.bit HKS_CHECK_CTRL_EN then .check else .entry

/-- LENGTH is taken for the pass that starts, and nothing is left to start again. -/
def State.passReady (s : State) (x : Hk) : State :=
  s.setHk x { s.hk x with len := s.fld (HKx_SEQ_LENGTH_LENGTH (hkBase x)), pass := false, resume := none }

section
variable {s : State} {x : Hk}

theorem State.passStart_of_barred (h : s.hkMayRun x = false ∨ (s.hk x).gains ≠ []) : s.passStart x = s := by
  refine if_pos ?_
  rcases h with h | h
  · rw [h]; rfl
  · simp [h]

theorem State.passStart_of_free (hrun : s.hkMayRun x = true) (hgains : (s.hk x).gains = []) :
    s.passStart x = (s.passReady x).startKind x s.passFirst 0 := by
  have hif : (!s.hkMayRun x || !(s.hk x).gains.isEmpty) = false := by simp [hrun, hgains]
  have hen : (s.passReady x).bit HKS_CHECK_CTRL_EN = s.bit HKS_CHECK_CTRL_EN := s.setHk_bit ..
  rw [State.passStart, if_neg (ne_true_of_eq_false hif)]
  change (if (s.passReady x).bit HKS_CHECK_CTRL_EN then _ else _) = _
  rw [hen, State.passFirst]
  split
  · rfl
  · rfl

theorem State.passReady_beginsConv {kind : HkKind} {n : Nat} {c : HkConv} (h : (s.passReady x).beginsConv x kind n c) :
    s.beginsConv x kind n c := by cases x <;> exact h

theorem State.passStart_hk (hrun : s.hkMayRun x = true) (hgains : (s.hk x).gains = []) :
    ∃ c, (s.passStart x).hk x = { s.hk x with
        conv := some c, next := none, resume := none, pass := false,
        len := s.fld (HKx_SEQ_LENGTH_LENGTH (hkBase x)) } ∧ s.beginsConv x s.passFirst 0 c := by
  obtain ⟨c, hhk, hc⟩ := (s.passReady x).startKind_hk x s.passFirst 0
  refine ⟨c, ?_, State.passReady_beginsConv hc⟩
  rw [State.passStart_of_free hrun hgains, hhk, State.passReady, State.hk_setHk]

theorem State.passStart_activity (hrun : s.hkMayRun x = true) (hgains : (s.hk x).gains = []) :
    (s.passStart x).fld (HKx_CTRL_ACTIVITY (hkBase x)) = kindCode s.passFirst := by
  rw [State.passStart_of_free hrun hgains]
  exact State.startConv_activity ..

variable (s x)

/-- A pass starts or nothing changes. -/
theorem State.passStart_cases :
    s.passStart x = s ∨ s.passStart x = (s.passReady x).startKind x s.passFirst 0 := by
  by_cases h : s.hkMayRun x = true ∧ (s.hk x).gains = []
  · exact .inr (State.passStart_of_free h.1 h.2)
  · exact .inl (State.passStart_of_barred ((not_and_or.1 h).imp_left (Bool.not_eq_true _).mp))

theorem State.passStart_other : (s.passStart x).hk (hkOther x) = s.hk (hkOther x) := by
  rcases s.passStart_cases x with h | h
  · rw [h]
  · rw [h, State.startKind, State.startConv_other, State.passReady, State.hk_setHk_other]

theorem State.passStart_fld {f : Fld} (hexc : f.reg ≠ HKS_EXC_STATUS) (hact : apart (HKx_CTRL_ACTIVITY (hkBase x)) f)
    (hcur : apart (HKx_STATUS_CUR_ENTRY (hkBase x)) f) : (s.passStart x).fld f = s.fld f := by
  rcases s.passStart_cases x with h | h
  · rw [h]
  · rw [h, State.startKind, State.startConv_fld _ _ _ _ _ _ _ _ _ hexc hact hcur, State.passReady, State.setHk_fld]

end

/-- A pass starts with the gains that were left. -/
theorem State.passStart_gains (s : State) (x : Hk) : ((s.passStart x).hk x).gains = (s.hk x).gains := by
  rcases s.passStart_cases x with h | h
  · rw [h]
  · obtain ⟨c, hhk, -⟩ := (s.passReady x).startKind_hk x s.passFirst 0
    rw [h, hhk, State.passReady, State.hk_setHk]

theorem State.passStart_run (s : State) (x : Hk) :
    (s.passStart x).bit (HKx_CTRL_RUN (hkBase x)) = s.bit (HKx_CTRL_RUN (hkBase x)) :=
  State.bit_congr (s.passStart_fld x (by cases x <;> decide)
    (by simp [apart, HKx_CTRL_ACTIVITY, HKx_CTRL_RUN]) (.inl (by cases x <;> decide)))

/-! ### A conversion is abandoned (R194, R199) -/

section
variable (s : State) (x : Hk)

theorem State.hkIdle_hk :
    (s.hkIdle x).hk x = { s.hk x with conv := none, next := none, pass := false } := by
  rw [State.hkIdle, State.excPins_hk, State.setFld_hk, State.hk_setHk]

theorem State.hkIdle_other : (s.hkIdle x).hk (hkOther x) = s.hk (hkOther x) := by
  rw [State.hkIdle, State.excPins_hk, State.setFld_hk, State.hk_setHk_other]

theorem State.hkIdle_fld {f : Fld} (hexc : f.reg ≠ HKS_EXC_STATUS) (hact : apart (HKx_CTRL_ACTIVITY (hkBase x)) f) :
    (s.hkIdle x).fld f = s.fld f := by
  rw [State.hkIdle, State.excPins_fld _ x hexc, State.fld_setFld_other _ _ (by simp [HKx_CTRL_ACTIVITY]) hact,
    State.setHk_fld]

variable {s x}

theorem State.hkAbandon_of_idle (h : (s.hk x).conv = none) : s.hkAbandon x = s := by rw [State.hkAbandon, h]

theorem State.hkAbandon_of_running (h : (s.hk x).conv ≠ none) :
    s.hkAbandon x = (s.inc (HKx_OVERRUN_COUNT_ABANDON (hkBase x))).hkIdle x := by
  obtain ⟨c, hc⟩ := Option.ne_none_iff_exists'.1 h
  rw [State.hkAbandon, hc]

theorem State.hkAbandon_count (h : (s.hk x).conv ≠ none) :
    (s.hkAbandon x).fld (HKx_OVERRUN_COUNT_ABANDON (hkBase x)) =
      min (s.fld (HKx_OVERRUN_COUNT_ABANDON (hkBase x)) + 1) 65535 := by
  rw [State.hkAbandon_of_running h, State.hkIdle_fld _ x (by cases x <;> decide) (.inl (by cases x <;> decide))]
  exact State.fld_count_same _ 1 (by simp [HKx_OVERRUN_COUNT_ABANDON])

variable (s x)

/-- Of a converter only what runs, comes next and comes after the pass is abandoned. -/
theorem State.hkAbandon_hk :
    ∃ next pass, (s.hkAbandon x).hk x = { s.hk x with conv := none, next := next, pass := pass } := by
  by_cases h : (s.hk x).conv = none
  · exact ⟨_, _, by rw [State.hkAbandon_of_idle h, ← h]⟩
  · exact ⟨_, _, by rw [State.hkAbandon_of_running h, State.hkIdle_hk, State.inc_hk]⟩

theorem State.hkAbandon_other : (s.hkAbandon x).hk (hkOther x) = s.hk (hkOther x) := by
  by_cases h : (s.hk x).conv = none
  · rw [State.hkAbandon_of_idle h]
  · rw [State.hkAbandon_of_running h, State.hkIdle_other, State.inc_hk]

theorem State.hkAbandon_fld {f : Fld} (hexc : f.reg ≠ HKS_EXC_STATUS) (hact : apart (HKx_CTRL_ACTIVITY (hkBase x)) f)
    (hcount : apart (HKx_OVERRUN_COUNT_ABANDON (hkBase x)) f) : (s.hkAbandon x).fld f = s.fld f := by
  by_cases h : (s.hk x).conv = none
  · rw [State.hkAbandon_of_idle h]
  · rw [State.hkAbandon_of_running h, State.hkIdle_fld _ x hexc hact,
      State.fld_inc_other _ (by simp [HKx_OVERRUN_COUNT_ABANDON]) hcount]

end

/-! ### A calibration is interrupted (R208) -/

section
variable (s : State) (x : Hk)

/-- A calibration that ends early: its converter is free, BUSY is 0, the command is counted and its reason shown. -/
def State.calEnded (s : State) (x : Hk) (reason : Nat) : State :=
  ((((s.setHk x { s.hk x with
      conv := none, gains := [], sums := [], next := (s.hk x).resume, resume := none, pass := false }).setBit
    (HKx_CAL_STATUS_BUSY (hkBase x)) false).inc (HKx_CAL_STATUS_COUNT (hkBase x))).setFld
    (HKx_CTRL_ACTIVITY (hkBase x)) 0).setFld (HKx_CAL_STATUS_LAST_RESULT (hkBase x)) reason

theorem State.calEnd_some (reason : Nat) :
    s.calEnd x (some reason) = ((s.calEnded x reason).excPins x).note .brush 0x12 := (rfl)

theorem State.calEnded_hk (reason : Nat) : (s.calEnded x reason).hk x = { s.hk x with
    conv := none, gains := [], sums := [], next := (s.hk x).resume, resume := none, pass := false } := by
  simp only [State.calEnded, State.setFld_hk, State.inc_hk, State.setBit_hk, State.hk_setHk]

theorem State.calEnded_other (reason : Nat) : (s.calEnded x reason).hk (hkOther x) = s.hk (hkOther x) := by
  simp only [State.calEnded, State.setFld_hk, State.inc_hk, State.setBit_hk, State.hk_setHk_other]

theorem State.calEnded_result {reason : Nat} (h : reason < 16) :
    (s.calEnded x reason).fld (HKx_CAL_STATUS_LAST_RESULT (hkBase x)) = reason :=
  (State.fld_setFld_same _ _ _ (by simp [HKx_CAL_STATUS_LAST_RESULT])).trans (Nat.mod_eq_of_lt h)

theorem State.calEnded_busy (reason : Nat) : (s.calEnded x reason).bit (HKx_CAL_STATUS_BUSY (hkBase x)) = false := by
  have hbusy := (s.setHk x { s.hk x with
    conv := none, gains := [], sums := [], next := (s.hk x).resume, resume := none, pass := false }).bit_setBit_same
    (HKx_CAL_STATUS_BUSY (hkBase x)) false (by simp [HKx_CAL_STATUS_BUSY]) rfl
  rw [← hbusy, State.calEnded]
  refine State.bit_congr ?_
  rw [State.fld_setFld_other _ _ (by simp [HKx_CAL_STATUS_LAST_RESULT])
      (.inr (.inl (by simp [HKx_CAL_STATUS_LAST_RESULT, HKx_CAL_STATUS_BUSY]))),
    State.fld_setFld_other _ _ (by simp [HKx_CTRL_ACTIVITY]) (.inl (by cases x <;> decide)),
    State.fld_inc_other _ (by simp [HKx_CAL_STATUS_COUNT])
      (.inr (.inl (by simp [HKx_CAL_STATUS_COUNT, HKx_CAL_STATUS_BUSY])))]

theorem State.calEnded_fld (reason : Nat) {f : Fld} (hcal : HKx_CAL_STATUS (hkBase x) ≠ f.reg)
    (hact : apart (HKx_CTRL_ACTIVITY (hkBase x)) f) : (s.calEnded x reason).fld f = s.fld f := by
  rw [State.calEnded, State.fld_setFld_other _ _ (by simp [HKx_CAL_STATUS_LAST_RESULT]) (.inl hcal),
    State.fld_setFld_other _ _ (by simp [HKx_CTRL_ACTIVITY]) hact,
    State.fld_inc_other _ (by simp [HKx_CAL_STATUS_COUNT]) (.inl hcal),
    State.fld_setBit_other _ _ (by simp [HKx_CAL_STATUS_BUSY]) (.inl hcal), State.setHk_fld]

theorem State.calEnd_hk (reason : Nat) (y : Hk) : (s.calEnd x (some reason)).hk y = (s.calEnded x reason).hk y := by
  rw [State.calEnd_some, State.note_hk, State.excPins_hk]

theorem State.calEnd_fld (reason : Nat) {f : Fld} (hexc : f.reg ≠ HKS_EXC_STATUS) :
    (s.calEnd x (some reason)).fld f = (s.calEnded x reason).fld f := by
  rw [State.calEnd_some, State.note_brush_fld, State.excPins_fld _ x hexc]

end

/-! ### Everything is abandoned (R194, R208) -/

/-- The running conversion is abandoned, and a calibration in progress ends with a reason. -/
def State.hkStopped (s : State) (x : Hk) (reason : Nat) : State := (s.hkAbandon x).calInterrupt x reason

section
variable (s : State) (x : Hk) (reason : Nat)

theorem State.hkAbandon_busy :
    (s.hkAbandon x).bit (HKx_CAL_STATUS_BUSY (hkBase x)) = s.bit (HKx_CAL_STATUS_BUSY (hkBase x)) :=
  State.bit_congr (s.hkAbandon_fld x (by cases x <;> decide) (.inl (by cases x <;> decide))
    (.inl (by cases x <;> decide)))

theorem State.hkStopped_cases :
    (s.bit (HKx_CAL_STATUS_BUSY (hkBase x)) = false ∧ s.hkStopped x reason = s.hkAbandon x) ∨
    (s.bit (HKx_CAL_STATUS_BUSY (hkBase x)) = true ∧
      s.hkStopped x reason = (s.hkAbandon x).calEnd x (some reason)) := by
  cases hbusy : s.bit (HKx_CAL_STATUS_BUSY (hkBase x))
  · exact .inl ⟨rfl, if_neg (by simp [s.hkAbandon_busy x, hbusy])⟩
  · exact .inr ⟨rfl, if_pos (by simp [s.hkAbandon_busy x, hbusy])⟩

/-- Nothing runs any more, and a calibration has no gain left. -/
theorem State.hkStopped_hk : ∃ next resume pass sums, (s.hkStopped x reason).hk x = { s.hk x with
    conv := none, next := next, resume := resume, pass := pass, sums := sums,
    gains := if s.bit (HKx_CAL_STATUS_BUSY (hkBase x)) then [] else (s.hk x).gains } := by
  obtain ⟨next, pass, habandon⟩ := s.hkAbandon_hk x
  obtain ⟨hbusy, heq⟩ | ⟨hbusy, heq⟩ := s.hkStopped_cases x reason
  · exact ⟨_, _, _, _, by rw [heq, habandon, hbusy]; rfl⟩
  · exact ⟨_, _, _, _, by rw [heq, State.calEnd_hk, State.calEnded_hk, habandon, hbusy]; rfl⟩

theorem State.hkStopped_other : (s.hkStopped x reason).hk (hkOther x) = s.hk (hkOther x) := by
  obtain ⟨-, heq⟩ | ⟨-, heq⟩ := s.hkStopped_cases x reason
  · rw [heq, State.hkAbandon_other]
  · rw [heq, State.calEnd_hk, State.calEnded_other, State.hkAbandon_other]

theorem State.hkStopped_fld_abandon {f : Fld} (hexc : f.reg ≠ HKS_EXC_STATUS)
    (hcal : HKx_CAL_STATUS (hkBase x) ≠ f.reg) (hact : apart (HKx_CTRL_ACTIVITY (hkBase x)) f) :
    (s.hkStopped x reason).fld f = (s.hkAbandon x).fld f := by
  obtain ⟨-, heq⟩ | ⟨-, heq⟩ := s.hkStopped_cases x reason
  · rw [heq]
  · rw [heq, State.calEnd_fld _ x reason hexc, State.calEnded_fld _ x reason hcal hact]

end

section
variable (s : State) (x : Hk) (reason : Nat)

/-- A restart leaves nothing running, next, to start again or pending; the rest of the converter is as it was. -/
theorem State.hkRestartAt_hk : ∃ sums, (s.hkRestartAt x reason).hk x = { s.hk x with
    conv := none, next := none, resume := none, pass := false, urg := none, sums := sums,
    gains := if s.bit (HKx_CAL_STATUS_BUSY (hkBase x)) then [] else (s.hk x).gains } := by
  obtain ⟨next, resume, pass, sums, hhk⟩ := s.hkStopped_hk x reason
  refine ⟨sums, ?_⟩
  change (State.setFld (State.setBit (State.setHk _ x { (s.hkStopped x reason).hk x with
    conv := none, next := none, resume := none, pass := false, urg := none }) _ _) _ _).hk x = _
  rw [State.setFld_hk, State.setBit_hk, State.hk_setHk, hhk]

theorem State.hkRestartAt_other : (s.hkRestartAt x reason).hk (hkOther x) = s.hk (hkOther x) := by
  refine Eq.trans ?_ (s.hkStopped_other x reason)
  rw [State.hkRestartAt, State.setFld_hk, State.setBit_hk, State.hk_setHk_other]
  rfl

/-- Beside the converter a restart drops the pending request and shows the activity. -/
theorem State.hkRestartAt_fld_stopped {f : Fld} (hact : apart (HKx_CTRL_ACTIVITY (hkBase x)) f)
    (hurg : apart (HKx_STATUS_URG_PENDING (hkBase x)) f) :
    (s.hkRestartAt x reason).fld f = (s.hkStopped x reason).fld f := by
  rw [State.hkRestartAt, State.fld_setFld_other _ _ (by simp [HKx_CTRL_ACTIVITY]) hact,
    State.fld_setBit_other _ _ (by simp [HKx_STATUS_URG_PENDING]) hurg, State.setHk_fld]
  rfl

theorem State.hkRestartAt_urgPending :
    (s.hkRestartAt x reason).bit (HKx_STATUS_URG_PENDING (hkBase x)) = false := by
  refine (State.bit_congr (State.fld_setFld_other _ _ (by simp [HKx_CTRL_ACTIVITY])
    (.inl (by cases x <;> decide)))).trans ?_
  exact State.bit_setBit_same _ _ false (by simp [HKx_STATUS_URG_PENDING]) rfl

theorem State.hkRestartAt_activity : (s.hkRestartAt x reason).fld (HKx_CTRL_ACTIVITY (hkBase x)) =
    if (s.hk x).halted then 5 else 0 := by
  obtain ⟨next, resume, pass, sums, hhk⟩ := s.hkStopped_hk x reason
  have hhalted : ((s.hkStopped x reason).hk x).halted = (s.hk x).halted := by rw [hhk]
  refine (State.fld_setFld_same _ _ _ (by simp [HKx_CTRL_ACTIVITY])).trans ?_
  change (if ((s.hkStopped x reason).hk x).halted then 5 else 0) % 2 ^ 3 = _
  rw [hhalted]
  split
  · rfl
  · rfl

theorem State.hkRestartAt_run :
    (s.hkRestartAt x reason).bit (HKx_CTRL_RUN (hkBase x)) = s.bit (HKx_CTRL_RUN (hkBase x)) := by
  have hexc : (HKx_CTRL_RUN (hkBase x)).reg ≠ HKS_EXC_STATUS := by cases x <;> decide
  have hact : apart (HKx_CTRL_ACTIVITY (hkBase x)) (HKx_CTRL_RUN (hkBase x)) := by
    simp [apart, HKx_CTRL_ACTIVITY, HKx_CTRL_RUN]
  refine State.bit_congr ?_
  rw [s.hkRestartAt_fld_stopped x reason hact (.inl (by cases x <;> decide)),
    s.hkStopped_fld_abandon x reason hexc (by cases x <;> decide) hact,
    s.hkAbandon_fld x hexc hact (.inl (by cases x <;> decide))]

theorem State.hkRestartAt_count (h : (s.hk x).conv ≠ none) :
    (s.hkRestartAt x reason).fld (HKx_OVERRUN_COUNT_ABANDON (hkBase x)) =
      min (s.fld (HKx_OVERRUN_COUNT_ABANDON (hkBase x)) + 1) 65535 := by
  rw [s.hkRestartAt_fld_stopped x reason (.inl (by cases x <;> decide)) (.inl (by cases x <;> decide)),
    s.hkStopped_fld_abandon x reason (by cases x <;> decide) (by cases x <;> decide) (.inl (by cases x <;> decide)),
    State.hkAbandon_count h]

/-- A calibration in progress ends with the reason (R208). -/
theorem State.hkRestartAt_cal (hbusy : s.bit (HKx_CAL_STATUS_BUSY (hkBase x)) = true) (h : reason < 16) :
    (s.hkRestartAt x reason).bit (HKx_CAL_STATUS_BUSY (hkBase x)) = false ∧
      (s.hkRestartAt x reason).fld (HKx_CAL_STATUS_LAST_RESULT (hkBase x)) = reason := by
  have hstop : s.hkStopped x reason = (s.hkAbandon x).calEnd x (some reason) := by
    obtain ⟨hfree, -⟩ | ⟨-, heq⟩ := s.hkStopped_cases x reason
    · rw [hbusy] at hfree; cases hfree
    · exact heq
  have hkept {f : Fld} (hf : f.reg = HKx_CAL_STATUS (hkBase x)) :
      (s.hkRestartAt x reason).fld f = ((s.hkAbandon x).calEnded x reason).fld f := by
    rw [s.hkRestartAt_fld_stopped x reason (.inl (by rw [hf]; cases x <;> decide))
        (.inl (by rw [hf]; cases x <;> decide)), hstop,
      State.calEnd_fld _ x reason (by rw [hf]; cases x <;> decide)]
  exact ⟨(State.bit_congr (hkept rfl)).trans (State.calEnded_busy ..),
    (hkept rfl).trans (State.calEnded_result _ x h)⟩

end

end Sys2Proof.Machine

/-!
The commands of a housekeeping converter (R193, R194, R197, R199, R200, R208): what a read of its result, RUN, RESTART
and URGENT do.
-/
namespace Sys2Proof.Machine

set_option Elab.async false

/-! ### What a conversion's beginning hangs on -/

/-- What the commands of a converter may change short of a raise. -/
abbrev converterParts : List Part :=
  [.reg GLB_DETERMINISM, .reg (HKx_CTRL 0x1700), .reg (HKx_STATUS 0x1700), .reg (HKx_OVERRUN_COUNT 0x1700),
    .reg (HKx_CAL_STATUS 0x1700), .reg (HKx_CTRL 0x1800), .reg (HKx_STATUS 0x1800), .reg (HKx_OVERRUN_COUNT 0x1800),
    .reg (HKx_CAL_STATUS 0x1800), .reg HKS_EXC_STATUS, .faults, .cou, .bru, .hka, .hkb, .srcs]

/-- A range of a converter's registers, none of which is among its status registers. -/
theorem converterParts_range (x : Hk) {lo n : Nat} (i : Nat) (hn : 0 < n)
    (h : ∀ j < n, (foot converterParts).testBit (regPart (0x1700 + lo + j)) = false ∧
      (foot converterParts).testBit (regPart (0x1800 + lo + j)) = false) :
    (foot converterParts).testBit (regPart (hkBase x + lo + i % n)) = false := by
  obtain ⟨ha, hb⟩ := h _ (Nat.mod_lt i hn)
  cases x
  · exact ha
  · exact hb

/-- The word of a conversion, its factors and bit 29 are no matter of the converters' commands. -/
theorem Keeps.beginsConv {s t : State} (h : Keeps (foot converterParts) s t) {x : Hk} {kind : HkKind} {n : Nat}
    {c : HkConv} (hc : t.beginsConv x kind n c) : s.beginsConv x kind n c := by
  have hword : t.convWord x kind n = s.convWord x kind n := by
    cases kind
    case check => exact congrArg (fun v => BitVec.ofNat 32 (v * 2 ^ 24 + 0x10)) (h.fld (by decide +kernel))
    case cal => rfl
    all_goals exact h.reg _ (converterParts_range x n (by decide) (by decide +kernel))
  have hofs : t.fld (HKx_CAL_OFS_OFS (hkBase x) (seqGain c.word)) =
      s.fld (HKx_CAL_OFS_OFS (hkBase x) (seqGain c.word)) :=
    h.fld (converterParts_range x _ (by decide) (by decide +kernel))
  have hgain : t.fld (HKx_CAL_GAIN_GAINF (hkBase x) (seqGain c.word)) =
      s.fld (HKx_CAL_GAIN_GAINF (hkBase x) (seqGain c.word)) :=
    h.fld (converterParts_range x _ (by decide) (by decide +kernel))
  have hready : t.bit HKS_REFBUF_STATUS_READY = s.bit HKS_REFBUF_STATUS_READY := h.bit (by decide +kernel)
  have htm : t.tm = s.tm := h.tm (by decide +kernel)
  rw [State.beginsConv, hword, hofs, hgain, hready, htm] at hc
  exact hc

/-- Whether a pass starts with the check channel is no matter of the converters' commands. -/
theorem Keeps.passFirst {s t : State} (h : Keeps (foot converterParts) s t) : t.passFirst = s.passFirst := by
  rw [State.passFirst, State.passFirst, h.bit (by decide +kernel)]

/-- A converter may run a pass where RUN, LOADED and its own two flags say so. -/
theorem State.hkMayRun_congr {s t : State} {x : Hk}
    (hrun : t.bit (HKx_CTRL_RUN (hkBase x)) = s.bit (HKx_CTRL_RUN (hkBase x)))
    (hload : t.bit FGL_STATUS_LOADED = s.bit FGL_STATUS_LOADED) (hhalted : (t.hk x).halted = (s.hk x).halted)
    (hoff : (t.hk x).off = (s.hk x).off) : t.hkMayRun x = s.hkMayRun x := by
  rw [State.hkMayRun, State.hkMayRun, hrun, hload, hhalted, hoff]

/-! ### HKx_DATA is read (R197) -/

theorem execHkDataRead_of_powered {s : State} (hclk : s.tm.clk = true) (hpow : s.pin.fieldPower = true) (x : Hk) :
    exec (.hkDataRead x) s = .next (s.hkConsume x) :=
  congrArg Host.Outcome.next (State.onField_of_powered hclk hpow _)

/-- The fields of a result beside NEW (Table 09-4). -/
abbrev resultFields (b : Nat) : List Fld :=
  [HKx_DATA_RESULT b, HKx_DATA_ENTRY b, HKx_DATA_OVR b, HKx_DATA_REF_NS b, HKx_DATA_CHECK b]

theorem resultFields_below_new {b : Nat} : ∀ f ∈ resultFields b, f.lo + f.len ≤ 31 := by
  simp [resultFields, HKx_DATA_RESULT, HKx_DATA_ENTRY, HKx_DATA_OVR, HKx_DATA_REF_NS, HKx_DATA_CHECK]

section
variable (s : State) (x : Hk)

theorem State.hkConsume_new : (s.hkConsume x).bit (HKx_DATA_NEW (hkBase x)) = false :=
  s.bit_setBit_same _ false (by simp [HKx_DATA_NEW]) rfl

theorem State.hkConsume_fld {f : Fld} (h : apart (HKx_DATA_NEW (hkBase x)) f) : (s.hkConsume x).fld f = s.fld f :=
  s.fld_setBit_other false (by simp [HKx_DATA_NEW]) h

theorem State.hkConsume_result : ∀ f ∈ resultFields (hkBase x), (s.hkConsume x).fld f = s.fld f :=
  fun f hf => s.hkConsume_fld x (.inr (.inr (resultFields_below_new f hf)))

end

/-! ### RUN (R193, R194) -/

theorem execHkRunChange_of_powered {s : State} (hclk : s.tm.clk = true) (hpow : s.pin.fieldPower = true) (x : Hk)
    (run : Bool) (w : Writer) : exec (.hkRunChange x run w) s =
      .next (s.hkRun x (run && !s.flt.iso.contains (0xD0 + hkNum x)) w.launched) :=
  congrArg Host.Outcome.next (State.onField_of_powered hclk hpow _)

/-- RUN is stored, and a change shows its sticky reason. -/
def State.runStored (s : State) (x : Hk) (run launched : Bool) : State :=
  (s.setBit (HKx_CTRL_RUN (hkBase x)) run).param launched (s.bit (HKx_CTRL_RUN (hkBase x)) != run)

section
variable (s : State) (x : Hk) (run launched : Bool)

theorem State.runStored_hk (y : Hk) : (s.runStored x run launched).hk y = s.hk y := by
  rw [State.runStored, State.param_hk, State.setBit_hk]

theorem State.runStored_keeps : Keeps (foot converterParts) s (s.runStored x run launched) := by
  refine (State.param_keeps ..).stepFoot (by simp) ?_
  cases x
  · exact (s.setReg_keeps_reg (HKx_CTRL 0x1700) _).monoFoot (by simp)
  · exact (s.setReg_keeps_reg (HKx_CTRL 0x1800) _).monoFoot (by simp)

theorem State.runStored_run : (s.runStored x run launched).bit (HKx_CTRL_RUN (hkBase x)) = run :=
  ((State.param_keeps ..).bit (by cases x <;> decide +kernel)).trans
    (s.bit_setBit_same _ run (by simp [HKx_CTRL_RUN]) rfl)

theorem State.runStored_fld {f : Fld} (hdet : (foot [.reg GLB_DETERMINISM, .faults]).testBit (regPart f.reg) = false)
    (h : apart (HKx_CTRL_RUN (hkBase x)) f) : (s.runStored x run launched).fld f = s.fld f :=
  ((State.param_keeps ..).fld hdet).trans (s.fld_setBit_other run (by simp [HKx_CTRL_RUN]) h)

variable {s x run launched}

theorem State.hkRun_of_same (h : s.bit (HKx_CTRL_RUN (hkBase x)) = run) :
    s.hkRun x run launched = s.runStored x run launched := by
  refine if_pos ?_
  rw [h]
  simp

theorem State.hkRun_of_stop (h : s.bit (HKx_CTRL_RUN (hkBase x)) = true) :
    s.hkRun x false launched = (s.runStored x false launched).hkRestartAt x 7 := by
  refine (if_neg ?_).trans (if_neg Bool.false_ne_true)
  rw [h]
  decide

theorem State.hkRun_of_start (h : s.bit (HKx_CTRL_RUN (hkBase x)) = false) : s.hkRun x true launched =
    if (s.hk x).conv.isNone && (s.hk x).next.isNone then (s.runStored x true launched).passStart x
    else s.runStored x true launched := by
  have hne : ¬ (!(s.bit (HKx_CTRL_RUN (hkBase x)) != true)) = true := by rw [h]; decide
  refine ((if_neg hne).trans (if_pos rfl)).trans ?_
  rw [← State.runStored_hk s x true launched x]
  rfl

variable (s x run launched)

theorem State.hkRun_cases : s.hkRun x run launched = s.runStored x run launched ∨
    s.hkRun x run launched = (s.runStored x run launched).hkRestartAt x 7 ∨
    s.hkRun x run launched = (s.runStored x run launched).passStart x := by
  by_cases h : s.bit (HKx_CTRL_RUN (hkBase x)) = run
  · exact .inl (State.hkRun_of_same h)
  cases run with
  | false => exact .inr (.inl (State.hkRun_of_stop (by simpa using h)))
  | true =>
    rw [State.hkRun_of_start (by simpa using h)]
    split
    · exact .inr (.inr rfl)
    · exact .inl rfl

theorem State.hkRun_other : (s.hkRun x run launched).hk (hkOther x) = s.hk (hkOther x) := by
  rcases s.hkRun_cases x run launched with h | h | h
  · rw [h, State.runStored_hk]
  · rw [h, State.hkRestartAt_other, State.runStored_hk]
  · rw [h, State.passStart_other, State.runStored_hk]

/-- Neither a restart nor a pass that starts touches RUN. -/
theorem State.hkRun_run : (s.hkRun x run launched).bit (HKx_CTRL_RUN (hkBase x)) = run := by
  rcases s.hkRun_cases x run launched with h | h | h
  · rw [h, State.runStored_run]
  · rw [h, State.hkRestartAt_run, State.runStored_run]
  · rw [h, State.passStart_run, State.runStored_run]

end

/-- RUN goes from 1 to 0: the converter stops (R194, R208). -/
theorem State.hkRun_stops {s t : State} {x : Hk} {launched : Bool} (h : s.bit (HKx_CTRL_RUN (hkBase x)) = true)
    (ht : t = s.hkRun x false launched) :
    (t.hk x).conv = none ∧ (t.hk x).next = none ∧ (t.hk x).resume = none ∧ (t.hk x).pass = false ∧
      (t.hk x).urg = none ∧ t.bit (HKx_STATUS_URG_PENDING (hkBase x)) = false ∧
      t.fld (HKx_CTRL_ACTIVITY (hkBase x)) = (if (s.hk x).halted then 5 else 0) ∧
      ((s.hk x).conv ≠ none → t.fld (HKx_OVERRUN_COUNT_ABANDON (hkBase x)) =
        min (s.fld (HKx_OVERRUN_COUNT_ABANDON (hkBase x)) + 1) 65535) ∧
      (s.bit (HKx_CAL_STATUS_BUSY (hkBase x)) = true → t.bit (HKx_CAL_STATUS_BUSY (hkBase x)) = false ∧
        t.fld (HKx_CAL_STATUS_LAST_RESULT (hkBase x)) = 7 ∧ (t.hk x).gains = []) := by
  subst ht
  rw [State.hkRun_of_stop h]
  have hhk := s.runStored_hk x false launched x
  have hkept {f : Fld} (hdet : (foot [.reg GLB_DETERMINISM, .faults]).testBit (regPart f.reg) = false)
      (hrun : apart (HKx_CTRL_RUN (hkBase x)) f) := s.runStored_fld x false launched hdet hrun
  have hbusy := State.bit_congr (hkept (f := HKx_CAL_STATUS_BUSY (hkBase x)) (by cases x <;> decide +kernel)
    (.inl (by cases x <;> decide)))
  obtain ⟨sums, hstop⟩ := (s.runStored x false launched).hkRestartAt_hk x 7
  rw [hstop, hbusy, hhk]
  refine ⟨rfl, rfl, rfl, rfl, rfl, State.hkRestartAt_urgPending .., ?_, fun hconv => ?_, fun hcal => ?_⟩
  · rw [State.hkRestartAt_activity, hhk]
  · rw [State.hkRestartAt_count _ x 7 (by rwa [hhk]),
      hkept (by cases x <;> decide +kernel) (.inl (by cases x <;> decide))]
  · obtain ⟨hfree, hres⟩ := (s.runStored x false launched).hkRestartAt_cal x 7 (hbusy.trans hcal) (by decide)
    exact ⟨hfree, hres, if_pos hcal⟩

/-- RUN goes from 0 to 1: an idle converter that may run starts a pass (R193). -/
theorem State.hkRun_starts {s : State} {x : Hk} (launched : Bool) (h : s.bit (HKx_CTRL_RUN (hkBase x)) = false)
    (hconv : (s.hk x).conv = none) (hnext : (s.hk x).next = none) (hload : s.bit FGL_STATUS_LOADED = true)
    (hhalted : (s.hk x).halted = false) (hoff : (s.hk x).off = false) (hgains : (s.hk x).gains = []) :
    ∃ c, ((s.hkRun x true launched).hk x).conv = some c ∧ s.beginsConv x s.passFirst 0 c := by
  have hhk := s.runStored_hk x true launched x
  have hkeeps := s.runStored_keeps x true launched
  have hmay : (s.runStored x true launched).hkMayRun x = true := by
    rw [State.hkMayRun, s.runStored_run x true launched, hhk, hkeeps.bit (by decide +kernel), hload, hhalted, hoff]
    rfl
  obtain ⟨c, hpass, hc⟩ := State.passStart_hk hmay (by rwa [hhk])
  rw [hkeeps.passFirst] at hc
  have hidle : ((s.hk x).conv.isNone && (s.hk x).next.isNone) = true := by rw [hconv, hnext]; rfl
  rw [State.hkRun_of_start h, if_pos hidle, hpass]
  exact ⟨c, rfl, hkeeps.beginsConv hc⟩

/-! ### RESTART (R194) -/

theorem execHkRestart_of_powered {s : State} (hclk : s.tm.clk = true) (hpow : s.pin.fieldPower = true) (x : Hk)
    (w : Writer) : exec (.hkRestart x w) s = .next (s.hkRestart x w.launched) :=
  congrArg Host.Outcome.next (State.onField_of_powered hclk hpow _)

section
variable (s : State) (x : Hk)

theorem State.hkRestartAt_keeps_parts (reason : Nat) : Keeps (foot converterParts) s (s.hkRestartAt x reason) :=
  (s.hkRestartAt_keeps x reason).monoFoot (by simp)

theorem State.hkRestartAt_mayRun (reason : Nat) : (s.hkRestartAt x reason).hkMayRun x = s.hkMayRun x := by
  obtain ⟨sums, hhk⟩ := s.hkRestartAt_hk x reason
  exact State.hkMayRun_congr (s.hkRestartAt_run x reason) ((s.hkRestartAt_keeps x reason).bit (by decide +kernel))
    (by rw [hhk]) (by rw [hhk])

variable (launched : Bool)

theorem State.hkRestart_hk (y : Hk) : (s.hkRestart x launched).hk y = ((s.hkRestartAt x 7).passStart x).hk y :=
  State.param_hk ..

/-- A pass that starts touches ACTIVITY and CUR_ENTRY alone of what a restart shows. -/
theorem State.hkRestart_fld {f : Fld} (hdet : (foot [.reg GLB_DETERMINISM, .faults]).testBit (regPart f.reg) = false)
    (hexc : f.reg ≠ HKS_EXC_STATUS) (hact : apart (HKx_CTRL_ACTIVITY (hkBase x)) f)
    (hcur : apart (HKx_STATUS_CUR_ENTRY (hkBase x)) f) :
    (s.hkRestart x launched).fld f = (s.hkRestartAt x 7).fld f :=
  ((State.param_keeps ..).fld hdet).trans (State.passStart_fld _ x hexc hact hcur)

theorem State.hkRestart_other : (s.hkRestart x launched).hk (hkOther x) = s.hk (hkOther x) := by
  rw [State.hkRestart_hk, State.passStart_other, State.hkRestartAt_other]

/-- What a restart drops does not come back with the pass. -/
theorem State.hkRestart_dropped : ((s.hkRestart x launched).hk x).resume = none ∧
    ((s.hkRestart x launched).hk x).urg = none ∧ ((s.hkRestart x launched).hk x).next = none := by
  obtain ⟨sums, hstop⟩ := s.hkRestartAt_hk x 7
  rw [State.hkRestart_hk]
  rcases (s.hkRestartAt x 7).passStart_cases x with h | h
  · rw [h, hstop]
    exact ⟨rfl, rfl, rfl⟩
  · obtain ⟨c, hhk, -⟩ := ((s.hkRestartAt x 7).passReady x).startKind_hk x (s.hkRestartAt x 7).passFirst 0
    rw [h, hhk, State.passReady, State.hk_setHk, hstop]
    exact ⟨rfl, rfl, rfl⟩

theorem State.hkRestart_urgPending :
    (s.hkRestart x launched).bit (HKx_STATUS_URG_PENDING (hkBase x)) = false :=
  (State.bit_congr (s.hkRestart_fld x launched (by cases x <;> decide +kernel) (by cases x <;> decide)
    (.inl (by cases x <;> decide)) (.inr (.inl (by simp [HKx_STATUS_CUR_ENTRY, HKx_STATUS_URG_PENDING]))))).trans
    (s.hkRestartAt_urgPending x 7)

theorem State.hkRestart_count (h : (s.hk x).conv ≠ none) :
    (s.hkRestart x launched).fld (HKx_OVERRUN_COUNT_ABANDON (hkBase x)) =
      min (s.fld (HKx_OVERRUN_COUNT_ABANDON (hkBase x)) + 1) 65535 :=
  (s.hkRestart_fld x launched (by cases x <;> decide +kernel) (by cases x <;> decide) (.inl (by cases x <;> decide))
    (.inl (by cases x <;> decide))).trans (s.hkRestartAt_count x 7 h)

/-- No pass touches the gains, or HKx_CAL_STATUS. -/
theorem State.hkRestart_cal (hbusy : s.bit (HKx_CAL_STATUS_BUSY (hkBase x)) = true) :
    (s.hkRestart x launched).bit (HKx_CAL_STATUS_BUSY (hkBase x)) = false ∧
      (s.hkRestart x launched).fld (HKx_CAL_STATUS_LAST_RESULT (hkBase x)) = 7 ∧
      ((s.hkRestart x launched).hk x).gains = [] := by
  obtain ⟨hfree, hres⟩ := s.hkRestartAt_cal x 7 hbusy (by decide)
  obtain ⟨sums, hstop⟩ := s.hkRestartAt_hk x 7
  have hkept {f : Fld} (hf : f.reg = HKx_CAL_STATUS (hkBase x)) :
      (s.hkRestart x launched).fld f = (s.hkRestartAt x 7).fld f :=
    s.hkRestart_fld x launched (by rw [hf]; cases x <;> decide +kernel) (by rw [hf]; cases x <;> decide)
      (.inl (by rw [hf]; cases x <;> decide)) (.inl (by rw [hf]; cases x <;> decide))
  refine ⟨(State.bit_congr (hkept rfl)).trans hfree, (hkept rfl).trans hres, ?_⟩
  rw [State.hkRestart_hk, State.passStart_gains, hstop]
  exact if_pos hbusy

variable {s x}

theorem State.hkRestart_of_barred (h : s.hkMayRun x = false) : ((s.hkRestart x launched).hk x).conv = none := by
  obtain ⟨sums, hstop⟩ := s.hkRestartAt_hk x 7
  rw [State.hkRestart_hk, State.passStart_of_barred (.inl ((s.hkRestartAt_mayRun x 7).trans h)), hstop]

theorem State.hkRestart_starts (h : s.hkMayRun x = true)
    (hgains : s.bit (HKx_CAL_STATUS_BUSY (hkBase x)) = true ∨ (s.hk x).gains = []) :
    ∃ c, ((s.hkRestart x launched).hk x).conv = some c ∧ s.beginsConv x s.passFirst 0 c := by
  obtain ⟨sums, hstop⟩ := s.hkRestartAt_hk x 7
  have hnone : ((s.hkRestartAt x 7).hk x).gains = [] := by
    rw [hstop]
    rcases hgains with hbusy | hgains
    · exact if_pos hbusy
    · exact (congrArg (ite _ _) hgains).trans (ite_self _)
  obtain ⟨c, hpass, hc⟩ := State.passStart_hk ((s.hkRestartAt_mayRun x 7).trans h) hnone
  have hkeeps := s.hkRestartAt_keeps_parts x 7
  rw [hkeeps.passFirst] at hc
  exact ⟨c, by rw [State.hkRestart_hk, hpass], hkeeps.beginsConv hc⟩

end

/-! ### URGENT (R199, R200) -/

theorem execHkUrgent_of_powered {s : State} (hclk : s.tm.clk = true) (hpow : s.pin.fieldPower = true) (x : Hk)
    (e : Fin 16) (w : Writer) : exec (.hkUrgent x e w) s = .next (s.urgentReq x e.val w.launched) :=
  congrArg Host.Outcome.next (State.onField_of_powered hclk hpow _)

/-- An urgent entry runs or is about to start. -/
def HkSt.isUrgent (h : HkSt) : Bool := h.conv.any (fun c => c.kind == .urgent) || h.next.any (fun p => p.1 == .urgent)

theorem HkSt.isUrgent_iff (h : HkSt) :
    h.isUrgent = true ↔ (∃ c, h.conv = some c ∧ c.kind = .urgent) ∨ ∃ n, h.next = some (.urgent, n) := by
  simp [HkSt.isUrgent, Option.any_eq_true]

/-- A request that does not fit is shown and raised (R200). -/
def State.urgentRejected (s : State) (x : Hk) : State :=
  (s.setBit (HKx_STATUS_URG_REJECT (hkBase x)) true).raise (hkBlk x) 1

/-- A request that waits is shown (R200). -/
def State.urgentPending (s : State) (x : Hk) (e : Nat) : State :=
  (s.setHk x { s.hk x with urg := some e }).setBit (HKx_STATUS_URG_PENDING (hkBase x)) true

/-- What runs is abandoned for an urgent entry, and what it was is to start again (R199). -/
def State.urgentReady (s : State) (x : Hk) : State :=
  (s.hkAbandon x).setHk x { (s.hkAbandon x).hk x with resume := s.hkBack x, next := none, pass := false }

/-- The urgent entry starts in this tick (R199). -/
def State.urgentStarted (s : State) (x : Hk) (e : Nat) (launched : Bool) : State :=
  ((s.urgentReady x).startKind x .urgent e).param launched true

/-- A converter that is halted, stopped or calibrating takes no urgent request. -/
def State.urgentBarred (s : State) (x : Hk) : Prop :=
  (s.hk x).halted = true ∨ (s.hk x).off = true ∨ s.bit (HKx_CAL_STATUS_BUSY (hkBase x)) = true

section
variable {s : State} {x : Hk} (e : Nat) (launched : Bool)

theorem State.urgentReq_eq : s.urgentReq x e launched =
    if (s.hk x).halted || (s.hk x).off || s.bit (HKx_CAL_STATUS_BUSY (hkBase x)) then s.urgentRejected x
    else if (s.hk x).isUrgent then
      if (s.hk x).urg = none then (s.urgentPending x e).param launched true else s.urgentRejected x
    else s.urgentStarted x e launched := by
  unfold State.urgentReq
  extract_lets b h reject urgentNow back s1 s2
  have hnow : urgentNow = h.isUrgent := by
    unfold urgentNow HkSt.isUrgent
    cases h.conv <;> cases h.next <;> rfl
  rw [hnow]
  refine if_congr Iff.rfl rfl (if_congr Iff.rfl ?_ rfl)
  split
  next _ hurg => rw [if_neg (by rw [hurg]; simp)]; rfl
  next hurg => rw [if_pos hurg]; rfl

theorem State.urgentReq_of_barred (h : s.urgentBarred x) : s.urgentReq x e launched = s.urgentRejected x := by
  rw [State.urgentReq_eq, if_pos]
  simpa [State.urgentBarred, or_assoc] using h

variable (hfree : ¬ s.urgentBarred x)
include hfree

theorem State.urgentReq_of_not_barred : s.urgentReq x e launched = if (s.hk x).isUrgent then
      if (s.hk x).urg = none then (s.urgentPending x e).param launched true else s.urgentRejected x
    else s.urgentStarted x e launched := by
  rw [State.urgentReq_eq, if_neg]
  simpa [State.urgentBarred, or_assoc] using hfree

theorem State.urgentReq_of_full (hnow : (s.hk x).isUrgent = true) (h : (s.hk x).urg ≠ none) :
    s.urgentReq x e launched = s.urgentRejected x := by
  rw [State.urgentReq_of_not_barred e launched hfree, if_pos hnow, if_neg h]

theorem State.urgentReq_of_pending (hnow : (s.hk x).isUrgent = true) (h : (s.hk x).urg = none) :
    s.urgentReq x e launched = (s.urgentPending x e).param launched true := by
  rw [State.urgentReq_of_not_barred e launched hfree, if_pos hnow, if_pos h]

theorem State.urgentReq_of_free (hnow : ¬ (s.hk x).isUrgent = true) :
    s.urgentReq x e launched = s.urgentStarted x e launched := by
  rw [State.urgentReq_of_not_barred e launched hfree, if_neg hnow]

end

section
variable (s : State) (x : Hk)

theorem State.urgentRejected_hk (y : Hk) : (s.urgentRejected x).hk y = s.hk y := by
  rw [State.urgentRejected, State.raise_hk, State.setBit_hk]

theorem State.urgentRejected_bit : (s.urgentRejected x).bit (HKx_STATUS_URG_REJECT (hkBase x)) = true :=
  ((State.raise_keeps ..).bit (by cases x <;> decide +kernel)).trans
    (s.bit_setBit_same _ true (by simp [HKx_STATUS_URG_REJECT]) rfl)

theorem State.urgentRejected_latch (h : (s.src (hkBlk x) 1).last ≠ some s.tm.tick) :
    bitOf ((s.urgentRejected x).fld (FLT_LATCH_LATCH (blkBase (hkBlk x)))) 1 = true := by
  have hfirst (f : Fld) (v : Bool) : ((s.setBit f v).src (hkBlk x) 1).last ≠ some (s.setBit f v).tm.tick := h
  exact State.raiseWith_flags (by cases x <;> rfl) (by decide) (hfirst _ true) _ (List.mem_cons_self ..)

theorem State.urgentPending_bit (e : Nat) (launched : Bool) :
    ((s.urgentPending x e).param launched true).bit (HKx_STATUS_URG_PENDING (hkBase x)) = true :=
  ((State.param_keeps ..).bit (by cases x <;> decide +kernel)).trans
    (State.bit_setBit_same _ _ true (by simp [HKx_STATUS_URG_PENDING]) rfl)

theorem State.urgentReady_keeps : Keeps (foot converterParts) s (s.urgentReady x) :=
  (State.setHk_keeps ..).stepFoot (by simp) ((s.hkAbandon_keeps x).monoFoot (by simp))

theorem State.urgentReady_hk : (s.urgentReady x).hk x = { s.hk x with
    conv := none, next := none, pass := false, resume := s.hkBack x } := by
  obtain ⟨next, pass, habandon⟩ := s.hkAbandon_hk x
  rw [State.urgentReady, State.hk_setHk, habandon]

theorem State.urgentReady_other : (s.urgentReady x).hk (hkOther x) = s.hk (hkOther x) := by
  rw [State.urgentReady, State.hk_setHk_other, State.hkAbandon_other]

theorem State.urgentStarted_hk (e : Nat) (launched : Bool) :
    ∃ c, (s.urgentStarted x e launched).hk x = { s.hk x with
        conv := some c, next := none, pass := false, resume := s.hkBack x } ∧ s.beginsConv x .urgent e c := by
  obtain ⟨c, hhk, hc⟩ := (s.urgentReady x).startKind_hk x .urgent e
  exact ⟨c, by rw [State.urgentStarted, State.param_hk, hhk, State.urgentReady_hk],
    (s.urgentReady_keeps x).beginsConv hc⟩

theorem State.urgentStarted_other (e : Nat) (launched : Bool) :
    (s.urgentStarted x e launched).hk (hkOther x) = s.hk (hkOther x) := by
  rw [State.urgentStarted, State.param_hk, State.startKind, State.startConv_other, State.urgentReady_other]

/-- The urgent entry that starts counts what it abandons, and ACTIVITY and CUR_ENTRY do not hide it. -/
theorem State.urgentStarted_count (e : Nat) (launched : Bool) (h : (s.hk x).conv ≠ none) :
    (s.urgentStarted x e launched).fld (HKx_OVERRUN_COUNT_ABANDON (hkBase x)) =
      min (s.fld (HKx_OVERRUN_COUNT_ABANDON (hkBase x)) + 1) 65535 := by
  rw [State.urgentStarted, (State.param_keeps ..).fld (by cases x <;> decide +kernel), State.startKind,
    State.startConv_fld _ _ _ _ _ _ _ _ _ (by cases x <;> decide) (.inl (by cases x <;> decide))
      (.inl (by cases x <;> decide)), State.urgentReady, State.setHk_fld, State.hkAbandon_count h]

variable {s x}

theorem State.hkBack_of_running {c : HkConv} (h : (s.hk x).conv = some c) (hkind : c.kind ≠ .urgent) :
    s.hkBack x = some (c.kind, c.entry) := by
  rw [State.hkBack, h]
  exact if_neg hkind

theorem State.hkBack_of_pass (h : (s.hk x).conv = none) (hpass : (s.hk x).pass = true) :
    s.hkBack x = some (s.passFirst, 0) := by
  simp only [State.hkBack, h, hpass, if_true, State.passFirst]
  split
  · rfl
  · rfl

theorem State.hkBack_of_idle (h : (s.hk x).conv = none) (hpass : (s.hk x).pass = false) :
    s.hkBack x = (s.hk x).next := by
  simp only [State.hkBack, h, hpass, Bool.false_eq_true, if_false]

end

/-! ### The commands together -/

/-- Settles O42: each command is what it stores and then a restart, a pass or an urgent entry, none of which touches
what was stored. -/
theorem convertersObeyTheirCommands : Obligations.ConvertersObeyTheirCommands := by
  rintro s x b hclk hpow rfl
  refine ⟨?read, fun run r w hr => ?run, fun w => ?restart, fun e w urgent hurgent => ?urgent⟩
  case read =>
    exact ⟨_, execHkDataRead_of_powered hclk hpow x, s.setReg_keeps_reg _ _, s.hkConsume_new x,
      s.hkConsume_result x⟩
  case run =>
    have hexec := execHkRunChange_of_powered hclk hpow x run w
    rw [← hr] at hexec
    refine ⟨_, hexec, execHkRunChange_keeps x run w s hexec, s.hkRun_other .., s.hkRun_run .., fun hsame => ?_,
      fun hone hzero => ?_, fun hzero hone hbusy => ?_, fun hzero hone hconv hnext hload hhalted hoff hgains => ?_⟩
    · rw [State.hkRun_of_same hsame, State.runStored_hk]
    · exact State.hkRun_stops hone (by rw [hzero])
    · have hif : ((s.hk x).conv.isNone && (s.hk x).next.isNone) = false := by
        rcases hbusy with h | h <;> simp [Option.isNone_eq_false_iff, Option.isSome_iff_ne_none, h]
      rw [hone, State.hkRun_of_start hzero, hif, if_neg Bool.false_ne_true, State.runStored_hk]
    · rw [hone]
      exact State.hkRun_starts w.launched hzero hconv hnext hload hhalted hoff hgains
  case restart =>
    have hexec := execHkRestart_of_powered hclk hpow x w
    obtain ⟨hresume, hurg, hnext⟩ := s.hkRestart_dropped x w.launched
    exact ⟨_, hexec, execHkRestart_keeps x w s hexec, s.hkRestart_other .., hresume, hurg, hnext,
      s.hkRestart_urgPending .., s.hkRestart_count x w.launched, s.hkRestart_cal x w.launched,
      State.hkRestart_of_barred w.launched, State.hkRestart_starts w.launched⟩
  case urgent =>
    have hexec := execHkUrgent_of_powered hclk hpow x e w
    have hkeeps := execHkUrgent_keeps x e w s hexec
    rw [← HkSt.isUrgent_iff] at hurgent
    refine ⟨fun hbar => ?_, fun hhalted hoff hbusy => ?_⟩
    · have hrej : s.urgentReq x e.val w.launched = s.urgentRejected x := by
        by_cases hfree : s.urgentBarred x
        · exact State.urgentReq_of_barred _ _ hfree
        · rcases hbar with h | h | h | ⟨hnow, hfull⟩
          · exact absurd (.inl h) hfree
          · exact absurd (.inr (.inl h)) hfree
          · exact absurd (.inr (.inr h)) hfree
          · exact State.urgentReq_of_full _ _ hfree (hurgent.1 hnow) hfull
      exact ⟨_, hexec, hkeeps, hrej ▸ s.urgentRejected_hk x .a, hrej ▸ s.urgentRejected_hk x .b,
        hrej ▸ s.urgentRejected_bit x, fun hfirst => hrej ▸ s.urgentRejected_latch x hfirst⟩
    · have hfree : ¬ s.urgentBarred x := by simp [State.urgentBarred, hhalted, hoff, hbusy]
      refine ⟨fun hnow hroom => ?_, fun hnot => ?_⟩
      · rw [State.urgentReq_of_pending _ _ hfree (hurgent.1 hnow) hroom] at hexec hkeeps
        refine ⟨_, hexec, hkeeps, ?_, ?_, s.urgentPending_bit x e.val w.launched⟩
        · rw [State.param_hk, State.urgentPending, State.setBit_hk, State.hk_setHk_other]
        · rw [State.param_hk, State.urgentPending, State.setBit_hk, State.hk_setHk]
      · rw [State.urgentReq_of_free _ _ hfree (mt hurgent.2 hnot)] at hexec hkeeps
        obtain ⟨c, hhk, hc⟩ := s.urgentStarted_hk x e.val w.launched
        have hresume (r : Option (HkKind × Nat)) (h : s.hkBack x = r) :
            ((s.urgentStarted x e.val w.launched).hk x).resume = r := by rw [hhk, ← h]
        refine ⟨_, c, hexec, hkeeps, s.urgentStarted_other .., by rw [hhk], hc, by rw [hhk], by rw [hhk],
          fun c0 hc0 => ⟨hresume _ (State.hkBack_of_running hc0 fun hkind => hnot (hurgent.2 ?_)),
            s.urgentStarted_count x e.val w.launched (by rw [hc0]; simp)⟩,
          fun hconv hpass => hresume _ (State.hkBack_of_pass hconv hpass),
          fun hconv hpass => hresume _ (State.hkBack_of_idle hconv hpass)⟩
        exact (HkSt.isUrgent_iff _).2 (.inl ⟨c0, hc0, hkind⟩)

end Sys2Proof.Machine

/-!
The results of a housekeeping converter (R192, R196 to R198): the word of a result field by field, what a result shows
in the converter's registers, and what comes after it (R193, R199, R200).
-/
namespace Sys2Proof.Machine

set_option Elab.async false

/-! ### The word of a result (R196, Table 09-4) -/

/-- The result of a conversion: its sum shifted, to even, and clamped (R192). -/
def HkConv.result (c : HkConv) : Int :=
  clampInt (-0x7FFFFF) 0x7FFFFF (if seqShift c.word = 0 then c.sum else rne c.sum (seqShift c.word))

/-- The status bits of a result: CHECK, REF_NS and OVR. -/
def HkConv.status (c : HkConv) (flag : Bool) : Nat :=
  (if flag then 4 else 0) + (if c.ns then 2 else 0) + (if c.ovr then 1 else 0)

/-- HKx_DATA with a result, NEW set. -/
def HkConv.data (c : HkConv) (flag : Bool) : Nat :=
  (8 + c.status flag) * 2 ^ 28 + c.entry % 16 * 2 ^ 24 + unsgn 24 c.result

theorem unsgn_lt (w : Nat) (v : Int) : unsgn w v < 2 ^ w := by
  have hpos : (0 : Int) < (2 ^ w : Nat) := by exact_mod_cast Nat.two_pow_pos w
  have hlt := Int.emod_lt_of_pos v hpos
  have hnonneg := Int.emod_nonneg v hpos.ne'
  unfold unsgn
  omega

/-- The fields of a result's word are what it was put together from. -/
theorem HkConv.data_fields (c : HkConv) (flag : Bool) (b : Nat) {w : Word} (hw : w = BitVec.ofNat 32 (c.data flag)) :
    fldGet (HKx_DATA_NEW b) w = 1 ∧ fldGet (HKx_DATA_CHECK b) w = flag.toNat ∧
      fldGet (HKx_DATA_REF_NS b) w = c.ns.toNat ∧ fldGet (HKx_DATA_OVR b) w = c.ovr.toNat ∧
      fldGet (HKx_DATA_ENTRY b) w = c.entry % 16 ∧ fldGet (HKx_DATA_RESULT b) w = unsgn 24 c.result := by
  have hlow : unsgn 24 c.result < 2 ^ 24 := unsgn_lt ..
  have hentry : c.entry % 16 < 16 := Nat.mod_lt _ (by decide)
  have hstatus : c.status flag = 4 * flag.toNat + 2 * c.ns.toNat + c.ovr.toNat := by
    unfold HkConv.status
    cases flag <;> cases c.ns <;> cases c.ovr <;> rfl
  have hflag := flag.toNat_lt
  have hns := c.ns.toNat_lt
  have hovr := c.ovr.toNat_lt
  have hdata : w.toNat = (8 + (4 * flag.toNat + 2 * c.ns.toNat + c.ovr.toNat)) * 2 ^ 28 + c.entry % 16 * 2 ^ 24 +
      unsgn 24 c.result := by
    rw [hw, BitVec.toNat_ofNat, HkConv.data, hstatus]
    omega
  simp only [fldGet, HKx_DATA_NEW, HKx_DATA_CHECK, HKx_DATA_REF_NS, HKx_DATA_OVR, HKx_DATA_ENTRY, HKx_DATA_RESULT,
    hdata]
  omega

/-! ### What a result shows (R196 to R198) -/

/-- A converter's own flag of the check channel (R201). -/
def State.checkFlag (s : State) : Hk → Bool
  | .a => s.bit HKS_CHECK_STATUS_FLAG_A
  | .b => s.bit HKS_CHECK_STATUS_FLAG_B

/-- A result that nobody has taken is overrun: the overrun is shown, counted and raised (R197). -/
def State.overrunShown (s : State) (x : Hk) : State :=
  if s.bit (HKx_DATA_NEW (hkBase x)) then
    ((s.setBit (HKx_STATUS_OVERRUN (hkBase x)) true).inc (HKx_OVERRUN_COUNT_COUNT (hkBase x))).raise (hkBlk x) 0
  else s

/-- A result stands in HKx_DATA, with its stamp and whether its entry was urgent. -/
def State.resultStored (s : State) (x : Hk) (c : HkConv) : State :=
  ((((s.overrunShown x).setReg (HKx_DATA (hkBase x)) (BitVec.ofNat 32 (c.data (s.checkFlag x)))).setFld
    (HKx_STATUS_STAMP (hkBase x)) (s.tm.fpm.toNat % 2 ^ 24)).setBit (HKx_STATUS_LAST_URGENT (hkBase x))
    (c.kind == HkKind.urgent)).note .brush (0x10 + hkNum x)

/-- A forwarded result is sent to the host die, which consumes it (R198). -/
def State.resultSent (s : State) (x : Hk) (c : HkConv) (d : Draft) : State :=
  if seqFwd c.word then ((s.resultStored x c).sendF d).hkConsume x else s.resultStored x c

/-- Copies of earlier results that some sources still wait for count no more (R158). -/
def State.staleDropped (s : State) (stale : List (Nat × PM)) : State := { s with var := { s.var with stale := stale } }

/-- Copies of a result wait for Brush's hand-over (R155). -/
def State.handAdded (s : State) (x : Hk) (copies : List (Nat × VCopy)) : State :=
  s.setHk x { s.hk x with hand := (s.hk x).hand ++ copies }

/-- A result is judged by the trace check and handed to the sources that take it (R154, R202, R212). -/
def State.resultHanded (s : State) (x : Hk) (c : HkConv) (status : Nat) (copy : VCopy) : State :=
  let srcs := s.handSources x c.entry
  let u := (s.traceResult x c c.result status).staleDropped (s.var.stale.filter (fun e => !srcs.contains e.1))
  if srcs.isEmpty then u
  else (u.handAdded x (srcs.map (fun i => (i, copy)))).trigger .brush 1

/-- What handing a result on may change. -/
abbrev handParts : List Part :=
  [.reg GLB_DETERMINISM, .reg LNK_DEADLETTER_COUNT, .reg (ENG_STATUS 0x600), .reg CAL_TRACE_STATUS,
    .reg (ENG_STATUS 0x1B00), .flt, .win .lnk, .recTick, .bar, .faults, .cou, .bru, .var, .lnk, .hka, .hkb, .cal,
    .free, .srcs]

section
variable (s : State) (x : Hk) (c : HkConv)

theorem State.overrunShown_hk (y : Hk) : (s.overrunShown x).hk y = s.hk y := by
  unfold State.overrunShown
  split
  · rw [State.raise_hk, State.inc_hk, State.setBit_hk]
  · rfl

theorem State.overrunShown_bit : (s.overrunShown x).bit (HKx_STATUS_OVERRUN (hkBase x)) =
    (s.bit (HKx_STATUS_OVERRUN (hkBase x)) || s.bit (HKx_DATA_NEW (hkBase x))) := by
  unfold State.overrunShown
  split
  next h =>
    rw [h, Bool.or_true, (State.raise_keeps ..).bit (by cases x <;> decide +kernel)]
    exact (State.bit_congr (State.fld_inc_other _ (by simp [HKx_OVERRUN_COUNT_COUNT])
      (.inl (by cases x <;> decide)))).trans (s.bit_setBit_same _ true (by simp [HKx_STATUS_OVERRUN]) rfl)
  next h => rw [Bool.eq_false_of_not_eq_true h, Bool.or_false]

theorem State.overrunShown_count : (s.overrunShown x).fld (HKx_OVERRUN_COUNT_COUNT (hkBase x)) =
    if s.bit (HKx_DATA_NEW (hkBase x)) then min (s.fld (HKx_OVERRUN_COUNT_COUNT (hkBase x)) + 1) 65535
    else s.fld (HKx_OVERRUN_COUNT_COUNT (hkBase x)) := by
  unfold State.overrunShown
  split
  · rw [(State.raise_keeps ..).fld (by cases x <;> decide +kernel)]
    refine (State.fld_count_same _ 1 (by simp [HKx_OVERRUN_COUNT_COUNT])).trans ?_
    rw [State.fld_setBit_other _ _ (by simp [HKx_STATUS_OVERRUN]) (.inl (by cases x <;> decide))]
    rfl
  · rfl

theorem State.resultStored_hk (y : Hk) : (s.resultStored x c).hk y = s.hk y := by
  rw [State.resultStored, State.note_hk, State.setBit_hk, State.setFld_hk, State.setReg_hk, State.overrunShown_hk]

/-- Registers beside HKx_DATA: only STAMP and LAST_URGENT are stored. -/
theorem State.resultStored_fld {f : Fld} (hdata : HKx_DATA (hkBase x) ≠ f.reg)
    (hstamp : apart (HKx_STATUS_STAMP (hkBase x)) f) (hurgent : apart (HKx_STATUS_LAST_URGENT (hkBase x)) f) :
    (s.resultStored x c).fld f = (s.overrunShown x).fld f := by
  rw [State.resultStored, State.note_brush_fld, State.fld_setBit_other _ _ (by simp [HKx_STATUS_LAST_URGENT]) hurgent,
    State.fld_setFld_other _ _ (by simp [HKx_STATUS_STAMP]) hstamp]
  exact congrArg (fldGet f) (State.reg_setReg_other _ _ hdata)

theorem State.resultStored_data {f : Fld} (hf : f.reg = HKx_DATA (hkBase x)) :
    (s.resultStored x c).fld f = fldGet f (BitVec.ofNat 32 (c.data (s.checkFlag x))) := by
  have hother : HKx_STATUS (hkBase x) ≠ f.reg := by rw [hf]; cases x <;> decide
  rw [State.resultStored, State.note_brush_fld,
    State.fld_setBit_other _ _ (by simp [HKx_STATUS_LAST_URGENT]) (.inl hother),
    State.fld_setFld_other _ _ (by simp [HKx_STATUS_STAMP]) (.inl hother), State.fld, hf, State.reg_setReg_same]

theorem State.resultStored_stamp :
    (s.resultStored x c).fld (HKx_STATUS_STAMP (hkBase x)) = s.tm.fpm.toNat % 2 ^ 24 := by
  rw [State.resultStored, State.note_brush_fld, State.fld_setBit_other _ _ (by simp [HKx_STATUS_LAST_URGENT])
    (.inr (.inr (by simp [HKx_STATUS_LAST_URGENT, HKx_STATUS_STAMP]))),
    State.fld_setFld_same _ _ _ (by simp [HKx_STATUS_STAMP])]
  exact Nat.mod_mod ..

theorem State.resultStored_lastUrgent :
    (s.resultStored x c).bit (HKx_STATUS_LAST_URGENT (hkBase x)) = (c.kind == HkKind.urgent) :=
  (State.bit_congr (State.note_brush_fld ..)).trans
    (State.bit_setBit_same _ _ _ (by simp [HKx_STATUS_LAST_URGENT]) rfl)

variable (d : Draft)

theorem State.sendF_fld (f : Fld) : (s.sendF d).fld f = s.fld f := (rfl)

theorem State.resultSent_hk (y : Hk) : (s.resultSent x c d).hk y = s.hk y := by
  have hsend : ((s.resultStored x c).sendF d).hk y = (s.resultStored x c).hk y :=
    (State.sendF_keeps ..).hk y (by decide +kernel)
  unfold State.resultSent
  split
  · rw [State.hkConsume, State.setBit_hk, hsend, State.resultStored_hk]
  · exact s.resultStored_hk x c y

theorem State.resultSent_fld {f : Fld} (h : apart (HKx_DATA_NEW (hkBase x)) f) :
    (s.resultSent x c d).fld f = (s.resultStored x c).fld f := by
  unfold State.resultSent
  split
  · exact (State.hkConsume_fld _ x h).trans (State.sendF_fld ..)
  · rfl

theorem State.resultSent_new : (s.resultSent x c d).bit (HKx_DATA_NEW (hkBase x)) = !seqFwd c.word := by
  unfold State.resultSent
  split
  next h => rw [h, State.hkConsume_new]; rfl
  next h =>
    obtain ⟨hnew, -⟩ := c.data_fields (s.checkFlag x) (hkBase x) rfl
    rw [Bool.eq_false_of_not_eq_true h, State.bit, State.resultStored_data _ _ _ rfl, hnew]
    rfl

theorem State.traceResult_hk (v : Int) (status : Nat) (y : Hk) : (s.traceResult x c v status).hk y = s.hk y :=
  (s.traceResult_keeps x c v status).hk y (by decide +kernel)

theorem State.staleDropped_hk (stale : List (Nat × PM)) (y : Hk) : (s.staleDropped stale).hk y = s.hk y := by
  cases y <;> rfl

theorem State.trigger_hk (e : Eng) (n : Nat) (y : Hk) : (s.trigger e n).hk y = s.hk y :=
  (s.trigger_keeps e n).hk y (by decide +kernel)

variable (status : Nat) (copy : VCopy)

theorem State.resultHanded_keeps : Keeps (foot handParts) s (s.resultHanded x c status copy) := by
  unfold State.resultHanded
  extract_lets srcs u
  have hu : Keeps (foot handParts) s u := ((s.traceResult_keeps x c c.result status).monoFoot (by simp)).upd
  exact Keeps.ite hu ((State.trigger_keeps ..).stepFoot (by simp) ((State.setHk_keeps ..).stepFoot (by simp) hu))

theorem State.resultHanded_hk :
    ∃ hand, (s.resultHanded x c status copy).hk x = { s.hk x with hand := hand } := by
  unfold State.resultHanded
  extract_lets srcs u
  have hu : u.hk x = s.hk x := (State.staleDropped_hk ..).trans (State.traceResult_hk ..)
  split
  · exact ⟨_, hu⟩
  · exact ⟨_, by rw [State.trigger_hk, State.handAdded, State.hk_setHk, hu]⟩

theorem State.resultHanded_other : (s.resultHanded x c status copy).hk (hkOther x) = s.hk (hkOther x) := by
  unfold State.resultHanded
  extract_lets srcs u
  have hu : u.hk (hkOther x) = s.hk (hkOther x) := (State.staleDropped_hk ..).trans (State.traceResult_hk ..)
  split
  · exact hu
  · rw [State.trigger_hk, State.handAdded, State.hk_setHk_other, hu]

theorem State.hkResult_eq :
    ∃ d status copy, s.hkResult x c = (s.resultSent x c d).resultHanded x c status copy := by
  cases x <;> exact ⟨_, _, _, rfl⟩

theorem State.hkResult_hk : ∃ hand, (s.hkResult x c).hk x = { s.hk x with hand := hand } := by
  obtain ⟨d, status, copy, heq⟩ := s.hkResult_eq x c
  rw [heq, ← s.resultSent_hk x c d x]
  exact State.resultHanded_hk ..

theorem State.hkResult_other : (s.hkResult x c).hk (hkOther x) = s.hk (hkOther x) := by
  obtain ⟨d, status, copy, heq⟩ := s.hkResult_eq x c
  rw [heq, State.resultHanded_other, State.resultSent_hk]

end

/-! ### What comes after an entry (R193) -/

/-- The entry after one that has completed; after the check conversion it is entry 0. -/
def entryAfter : Option Nat → Nat
  | none => 0
  | some k => k + 1

section
variable {s : State} {x : Hk} {after : Option Nat}

theorem State.hkAdvance_of_lt (h : entryAfter after < (s.hk x).len) : s.hkAdvance x after =
    s.setHk x { s.hk x with conv := none, next := some (.entry, entryAfter after) } := by
  cases after <;> exact if_pos h

theorem State.hkAdvance_of_ge (h : (s.hk x).len ≤ entryAfter after) : s.hkAdvance x after =
    (s.setHk x { s.hk x with conv := none, next := none, pass := true }).setFld
      (HKx_SEQ_LENGTH_PASS_COUNT (hkBase x)) (s.fld (HKx_SEQ_LENGTH_PASS_COUNT (hkBase x)) + 1) := by
  cases after <;> exact if_neg (Nat.not_lt.2 h)

variable (s x after)

theorem State.hkAdvance_hk : (s.hkAdvance x after).hk x = { s.hk x with
    conv := none,
    next := if entryAfter after < (s.hk x).len then some (.entry, entryAfter after) else none,
    pass := if entryAfter after < (s.hk x).len then (s.hk x).pass else true } := by
  rcases Nat.lt_or_ge (entryAfter after) (s.hk x).len with h | h
  · rw [State.hkAdvance_of_lt h, State.hk_setHk, if_pos h, if_pos h]
  · rw [State.hkAdvance_of_ge h, State.setFld_hk, State.hk_setHk, if_neg (Nat.not_lt.2 h), if_neg (Nat.not_lt.2 h)]

theorem State.hkAdvance_other : (s.hkAdvance x after).hk (hkOther x) = s.hk (hkOther x) := by
  rcases Nat.lt_or_ge (entryAfter after) (s.hk x).len with h | h
  · rw [State.hkAdvance_of_lt h, State.hk_setHk_other]
  · rw [State.hkAdvance_of_ge h, State.setFld_hk, State.hk_setHk_other]

theorem State.hkAdvance_fld {f : Fld} (hf : HKx_SEQ_LENGTH (hkBase x) ≠ f.reg) :
    (s.hkAdvance x after).fld f = s.fld f := by
  rcases Nat.lt_or_ge (entryAfter after) (s.hk x).len with h | h
  · rw [State.hkAdvance_of_lt h, State.setHk_fld]
  · rw [State.hkAdvance_of_ge h, State.fld_setFld_other _ _ (by simp [HKx_SEQ_LENGTH_PASS_COUNT]) (.inl hf),
      State.setHk_fld]

/-- The codes of the check channel stay. -/
theorem State.hkAdvance_check (y : Hk) : ((s.hkAdvance x after).hk y).check = (s.hk y).check := by
  obtain rfl | rfl : y = x ∨ y = hkOther x := by cases x <;> cases y <;> decide
  · rw [State.hkAdvance_hk]
  · rw [State.hkAdvance_other]

variable {s x after}

theorem State.hkAdvance_passCount (h : (s.hk x).len ≤ entryAfter after) :
    (s.hkAdvance x after).fld (HKx_SEQ_LENGTH_PASS_COUNT (hkBase x)) =
      (s.fld (HKx_SEQ_LENGTH_PASS_COUNT (hkBase x)) + 1) % 2 ^ 16 := by
  rw [State.hkAdvance_of_ge h]
  exact State.fld_setFld_same _ _ _ (by simp [HKx_SEQ_LENGTH_PASS_COUNT])

end

/-! ### What comes after an urgent entry (R199, R200) -/

section
variable {s : State} {x : Hk}

theorem State.urgentAfter_of_pending {e : Nat} (h : (s.hk x).urg = some e) : s.urgentAfter x =
    (s.setHk x { s.hk x with conv := none, urg := none, next := some (.urgent, e) }).setBit
      (HKx_STATUS_URG_PENDING (hkBase x)) false := by
  simp only [State.urgentAfter, h]

theorem State.urgentAfter_of_resume (h : (s.hk x).urg = none) {r : HkKind × Nat} (hr : (s.hk x).resume = some r) :
    s.urgentAfter x = s.setHk x { s.hk x with conv := none, resume := none, next := some r } := by
  simp only [State.urgentAfter, h, hr]

theorem State.urgentAfter_of_idle (h : (s.hk x).urg = none) (hr : (s.hk x).resume = none) :
    s.urgentAfter x = s.hkIdle x := by
  simp only [State.urgentAfter, h, hr]

/-- Without a pending request what was interrupted comes next, or nothing. -/
theorem State.urgentAfter_hk (h : (s.hk x).urg = none) : ∃ pass, (s.urgentAfter x).hk x = { s.hk x with
    conv := none, next := (s.hk x).resume, resume := none, pass := pass } := by
  cases hr : (s.hk x).resume with
  | some r => exact ⟨(s.hk x).pass, by rw [State.urgentAfter_of_resume h hr, State.hk_setHk]⟩
  | none => exact ⟨false, by rw [State.urgentAfter_of_idle h hr, State.hkIdle_hk]; simp only [hr]⟩

variable (s x)

theorem State.urgentAfter_other : (s.urgentAfter x).hk (hkOther x) = s.hk (hkOther x) := by
  cases h : (s.hk x).urg with
  | some e => rw [State.urgentAfter_of_pending h, State.setBit_hk, State.hk_setHk_other]
  | none =>
    cases hr : (s.hk x).resume with
    | some r => rw [State.urgentAfter_of_resume h hr, State.hk_setHk_other]
    | none => rw [State.urgentAfter_of_idle h hr, State.hkIdle_other]

theorem State.urgentAfter_conv : ((s.urgentAfter x).hk x).conv = none := by
  cases h : (s.hk x).urg with
  | some e => rw [State.urgentAfter_of_pending h, State.setBit_hk, State.hk_setHk]
  | none =>
    obtain ⟨pass, hhk⟩ := State.urgentAfter_hk h
    rw [hhk]

theorem State.urgentAfter_fld {f : Fld} (hexc : f.reg ≠ HKS_EXC_STATUS) (hctrl : HKx_CTRL (hkBase x) ≠ f.reg)
    (hurg : apart (HKx_STATUS_URG_PENDING (hkBase x)) f) : (s.urgentAfter x).fld f = s.fld f := by
  cases h : (s.hk x).urg with
  | some e =>
    rw [State.urgentAfter_of_pending h, State.fld_setBit_other _ _ (by simp [HKx_STATUS_URG_PENDING]) hurg,
      State.setHk_fld]
  | none =>
    cases hr : (s.hk x).resume with
    | some r => rw [State.urgentAfter_of_resume h hr, State.setHk_fld]
    | none => rw [State.urgentAfter_of_idle h hr, State.hkIdle_fld _ x hexc (.inl hctrl)]

end

/-! ### A result and what comes after it -/

/-- After a result comes what follows its entry. -/
def State.resultMoved (s : State) (x : Hk) (c : HkConv) : State :=
  if c.kind = .urgent then s.urgentAfter x else s.hkAdvance x (some c.entry)

/-- The fields in which a result shows. -/
def shownFields (b : Nat) : List Fld :=
  resultFields b ++ [HKx_DATA_NEW b, HKx_STATUS_STAMP b, HKx_STATUS_LAST_URGENT b, HKx_STATUS_OVERRUN b,
    HKx_OVERRUN_COUNT_COUNT b]

theorem shownFields_apart (x : Hk) : ∀ f ∈ shownFields (hkBase x), f.reg ≠ HKS_EXC_STATUS ∧
    HKx_CTRL (hkBase x) ≠ f.reg ∧ HKx_SEQ_LENGTH (hkBase x) ≠ f.reg ∧
    apart (HKx_STATUS_URG_PENDING (hkBase x)) f := by cases x <;> decide

theorem shownFields_handParts (x : Hk) :
    ∀ f ∈ shownFields (hkBase x), (foot handParts).testBit (regPart f.reg) = false := by
  cases x <;> decide +kernel

section
variable (s : State) (x : Hk) (c : HkConv)

theorem State.resultMoved_other : (s.resultMoved x c).hk (hkOther x) = s.hk (hkOther x) := by
  unfold State.resultMoved
  split
  · exact s.urgentAfter_other x
  · exact s.hkAdvance_other x _

theorem State.resultMoved_conv : ((s.resultMoved x c).hk x).conv = none := by
  unfold State.resultMoved
  split
  · exact s.urgentAfter_conv x
  · rw [State.hkAdvance_hk]

theorem State.resultMoved_fld {f : Fld} (hf : f ∈ shownFields (hkBase x)) : (s.resultMoved x c).fld f = s.fld f := by
  obtain ⟨hexc, hctrl, hlen, hurg⟩ := shownFields_apart x f hf
  unfold State.resultMoved
  split
  · exact s.urgentAfter_fld x hexc hctrl hurg
  · exact s.hkAdvance_fld x _ hlen

/-- The result of a conversion and what comes after it. -/
def State.resultDone (s : State) (x : Hk) (c : HkConv) : State := (s.hkResult x c).resultMoved x c

theorem State.resultDone_other : (s.resultDone x c).hk (hkOther x) = s.hk (hkOther x) := by
  rw [State.resultDone, State.resultMoved_other, State.hkResult_other]

/-- Neither the hand-over nor what comes next hides what the result shows. -/
theorem State.resultDone_fld : ∃ d, ∀ f ∈ shownFields (hkBase x),
    (s.resultDone x c).fld f = (s.resultSent x c d).fld f := by
  obtain ⟨d, status, copy, heq⟩ := s.hkResult_eq x c
  refine ⟨d, fun f hf => ?_⟩
  rw [State.resultDone, State.resultMoved_fld _ x c hf, heq]
  exact (State.resultHanded_keeps ..).fld (shownFields_handParts x f hf)

/-- HKx_DATA after a result (Table 09-4). -/
theorem State.resultDone_data :
    (s.resultDone x c).fld (HKx_DATA_RESULT (hkBase x)) = unsgn 24 c.result ∧
      (s.resultDone x c).fld (HKx_DATA_ENTRY (hkBase x)) = c.entry % 16 ∧
      (s.resultDone x c).bit (HKx_DATA_OVR (hkBase x)) = c.ovr ∧
      (s.resultDone x c).bit (HKx_DATA_REF_NS (hkBase x)) = c.ns ∧
      (s.resultDone x c).bit (HKx_DATA_CHECK (hkBase x)) = s.checkFlag x ∧
      (s.resultDone x c).bit (HKx_DATA_NEW (hkBase x)) = !seqFwd c.word := by
  obtain ⟨d, hshown⟩ := s.resultDone_fld x c
  obtain ⟨-, hcheck, hns, hovr, hentry, hresult⟩ := c.data_fields (s.checkFlag x) (hkBase x) rfl
  have hword {f : Fld} (hf : f ∈ resultFields (hkBase x)) (hreg : f.reg = HKx_DATA (hkBase x)) :
      (s.resultDone x c).fld f = fldGet f (BitVec.ofNat 32 (c.data (s.checkFlag x))) := by
    rw [hshown f (List.mem_append_left _ hf), State.resultSent_fld _ _ _ _ (.inr (.inr (resultFields_below_new f hf))),
      State.resultStored_data _ _ _ hreg]
  have hbit {f : Fld} {v : Bool} (hf : f ∈ resultFields (hkBase x)) (hreg : f.reg = HKx_DATA (hkBase x))
      (hv : fldGet f (BitVec.ofNat 32 (c.data (s.checkFlag x))) = v.toNat) : (s.resultDone x c).bit f = v := by
    rw [State.bit, hword hf hreg, hv]
    cases v <;> rfl
  refine ⟨(hword (by simp) rfl).trans hresult, (hword (by simp) rfl).trans hentry, hbit (by simp) rfl hovr,
    hbit (by simp) rfl hns, hbit (by simp) rfl hcheck, ?_⟩
  rw [← s.resultSent_new x c d]
  exact State.bit_congr (hshown _ (by simp [shownFields]))

/-- HKx_STATUS and HKx_OVERRUN_COUNT after a result. -/
theorem State.resultDone_status :
    (s.resultDone x c).fld (HKx_STATUS_STAMP (hkBase x)) = s.tm.fpm.toNat % 2 ^ 24 ∧
      (s.resultDone x c).bit (HKx_STATUS_LAST_URGENT (hkBase x)) = (c.kind == HkKind.urgent) ∧
      (s.resultDone x c).bit (HKx_STATUS_OVERRUN (hkBase x)) =
        (s.bit (HKx_STATUS_OVERRUN (hkBase x)) || s.bit (HKx_DATA_NEW (hkBase x))) ∧
      (s.resultDone x c).fld (HKx_OVERRUN_COUNT_COUNT (hkBase x)) =
        if s.bit (HKx_DATA_NEW (hkBase x)) then min (s.fld (HKx_OVERRUN_COUNT_COUNT (hkBase x)) + 1) 65535
        else s.fld (HKx_OVERRUN_COUNT_COUNT (hkBase x)) := by
  obtain ⟨d, hshown⟩ := s.resultDone_fld x c
  have hkept {f : Fld} (hf : f ∈ shownFields (hkBase x)) (hreg : HKx_DATA (hkBase x) ≠ f.reg) :
      (s.resultDone x c).fld f = (s.resultStored x c).fld f := by
    rw [hshown f hf, State.resultSent_fld _ _ _ _ (.inl hreg)]
  have hover {f : Fld} (hf : f ∈ shownFields (hkBase x)) (hreg : HKx_DATA (hkBase x) ≠ f.reg)
      (hstamp : apart (HKx_STATUS_STAMP (hkBase x)) f) (hurgent : apart (HKx_STATUS_LAST_URGENT (hkBase x)) f) :
      (s.resultDone x c).fld f = (s.overrunShown x).fld f := by
    rw [hkept hf hreg, State.resultStored_fld _ _ _ hreg hstamp hurgent]
  refine ⟨?_, ?_, ?_, ?_⟩
  · rw [hkept (by simp [shownFields]) (by cases x <;> decide), State.resultStored_stamp]
  · rw [State.bit_congr (hkept (by simp [shownFields]) (by cases x <;> decide)), State.resultStored_lastUrgent]
  · rw [State.bit_congr (hover (by simp [shownFields]) (by cases x <;> decide) (by cases x <;> decide)
      (by cases x <;> decide)), State.overrunShown_bit]
  · rw [hover (by simp [shownFields]) (by cases x <;> decide) (by cases x <;> decide) (by cases x <;> decide),
      State.overrunShown_count]

variable {s x c}

theorem State.resultDone_of_entry (h : c.kind = .entry) :
    s.resultDone x c = (s.hkResult x c).hkAdvance x (some c.entry) := if_neg (by rw [h]; decide)

theorem State.resultDone_of_urgent (h : c.kind = .urgent) :
    s.resultDone x c = (s.hkResult x c).urgentAfter x := if_pos h

/-- After an entry of the pass comes the next one (R193). -/
theorem State.resultDone_entry_next (h : c.kind = .entry) (hlen : c.entry + 1 < (s.hk x).len) :
    ((s.resultDone x c).hk x).next = some (.entry, c.entry + 1) ∧ ((s.resultDone x c).hk x).pass = (s.hk x).pass := by
  obtain ⟨hand, hhk⟩ := s.hkResult_hk x c
  rw [State.resultDone_of_entry h, State.hkAdvance_hk, hhk]
  exact ⟨if_pos hlen, if_pos hlen⟩

/-- After the last entry a new pass is due, and PASS_COUNT goes up (R193). -/
theorem State.resultDone_entry_last (h : c.kind = .entry) (hlen : (s.hk x).len ≤ c.entry + 1) :
    ((s.resultDone x c).hk x).next = none ∧ ((s.resultDone x c).hk x).pass = true ∧
      (s.resultDone x c).fld (HKx_SEQ_LENGTH_PASS_COUNT (hkBase x)) =
        (s.fld (HKx_SEQ_LENGTH_PASS_COUNT (hkBase x)) + 1) % 2 ^ 16 := by
  obtain ⟨hand, hhk⟩ := s.hkResult_hk x c
  have hcount := State.hkAdvance_passCount (s := s.hkResult x c) (x := x) (after := some c.entry)
    (by rw [hhk]; exact hlen)
  rw [(s.hkResult_keeps x c).fld (by cases x <;> decide +kernel)] at hcount
  rw [State.resultDone_of_entry h, hcount, State.hkAdvance_hk, hhk]
  exact ⟨if_neg (Nat.not_lt.2 hlen), if_neg (Nat.not_lt.2 hlen), rfl⟩

/-- After an urgent entry comes the pending request (R200). -/
theorem State.resultDone_urgent_pending (h : c.kind = .urgent) {e : Nat} (hurg : (s.hk x).urg = some e) :
    ((s.resultDone x c).hk x).next = some (.urgent, e) ∧ ((s.resultDone x c).hk x).urg = none ∧
      ((s.resultDone x c).hk x).resume = (s.hk x).resume ∧
      (s.resultDone x c).bit (HKx_STATUS_URG_PENDING (hkBase x)) = false := by
  obtain ⟨hand, hhk⟩ := s.hkResult_hk x c
  have hpending : ((s.hkResult x c).hk x).urg = some e := by rw [hhk]; exact hurg
  rw [State.resultDone_of_urgent h, State.urgentAfter_of_pending hpending, State.setBit_hk,
    State.hk_setHk, hhk]
  exact ⟨rfl, rfl, rfl, State.bit_setBit_same _ _ false (by simp [HKx_STATUS_URG_PENDING]) rfl⟩

/-- After an urgent entry with none pending comes what it interrupted (R199). -/
theorem State.resultDone_urgent_last (h : c.kind = .urgent) (hurg : (s.hk x).urg = none) :
    ((s.resultDone x c).hk x).next = (s.hk x).resume ∧ ((s.resultDone x c).hk x).resume = none := by
  obtain ⟨hand, hhk⟩ := s.hkResult_hk x c
  obtain ⟨pass, hafter⟩ := State.urgentAfter_hk (s := s.hkResult x c) (x := x) (by rw [hhk]; exact hurg)
  rw [State.resultDone_of_urgent h, hafter, hhk]
  exact ⟨rfl, rfl⟩

end

end Sys2Proof.Machine

/-!
The passes of a housekeeping converter (R187, R193, R201, R206): a pass that starts, and what each kind of conversion
does as it completes.
-/
namespace Sys2Proof.Machine

set_option Elab.async false

/-! ### HK_PASS_START (R193) -/

theorem execHkPassStart_of_powered {s : State} (hclk : s.tm.clk = true) (hpow : s.pin.fieldPower = true) (x : Hk) :
    exec (.hkPassStart x) s = .next (s.passBegin x) :=
  congrArg Host.Outcome.next (State.onField_of_powered hclk hpow _)

section
variable {s : State} {x : Hk}

theorem State.passBegin_of_idle (h : (s.hk x).conv = none) : s.passBegin x = s.passStart x := by
  rw [State.passBegin, h]

theorem State.passBegin_of_barred (h : (s.hk x).conv ≠ none ∨ s.hkMayRun x = false ∨ (s.hk x).gains ≠ []) :
    s.passBegin x = s := by
  cases hconv : (s.hk x).conv with
  | some c => rw [State.passBegin, hconv]
  | none =>
    rw [State.passBegin_of_idle hconv]
    exact State.passStart_of_barred (h.resolve_left fun hne => hne hconv)

end

/-! ### A check conversion completes (R201) -/

/-- The code of a check conversion is kept. -/
def State.checkKept (s : State) (x : Hk) (v : Int) : State := s.setHk x { s.hk x with check := some v }

/-- The difference of the two codes is shown. -/
def State.diffShown (s : State) (d : Int) : State :=
  (s.setBit HKS_CHECK_STATUS_VALID true).setFld HKS_CHECK_DIFF_DIFF (unsgn 24 (clampInt (-0x800000) 0x7FFFFF d))

/-- The two codes differ by more than TOL. -/
def State.mismatchShown (s : State) : State :=
  ((((s.setBit HKS_CHECK_STATUS_MISMATCH true).inc HKS_CHECK_STATUS_MISMATCH_COUNT).setBit HKS_CHECK_STATUS_FLAG_A
    true).setBit HKS_CHECK_STATUS_FLAG_B true).raise .hks 0

/-- A converter's own flag. -/
def checkFlagOf : Hk → Fld
  | .a => HKS_CHECK_STATUS_FLAG_A
  | .b => HKS_CHECK_STATUS_FLAG_B

section
variable (s : State) (x : Hk) (v : Int)

theorem State.checkKept_hk : (s.checkKept x v).hk x = { s.hk x with check := some v } := State.hk_setHk ..

theorem State.checkKept_other : (s.checkKept x v).hk (hkOther x) = s.hk (hkOther x) := State.hk_setHk_other ..

theorem State.diffShown_hk (d : Int) (y : Hk) : (s.diffShown d).hk y = s.hk y := by
  rw [State.diffShown, State.setFld_hk, State.setBit_hk]

theorem State.mismatchShown_hk (y : Hk) : s.mismatchShown.hk y = s.hk y := by
  simp only [State.mismatchShown, State.raise_hk, State.setBit_hk, State.inc_hk]

variable {s x v}

theorem State.checkDone_settled : s.checkDone x v false =
    match (s.checkKept x v).hka.check, (s.checkKept x v).hkb.check with
    | some va, some vb =>
      if s.fld HKS_CHECK_CTRL_TOL < (va - vb).natAbs then ((s.checkKept x v).diffShown (va - vb)).mismatchShown
      else ((s.checkKept x v).diffShown (va - vb)).setBit (checkFlagOf x) false
    | _, _ => s.checkKept x v := by cases x <;> rfl

/-- With the codes of both converters their difference is shown and judged. -/
theorem State.checkDone_of_both {va vb : Int} (ha : (s.checkKept x v).hka.check = some va)
    (hb : (s.checkKept x v).hkb.check = some vb) : s.checkDone x v false =
      if s.fld HKS_CHECK_CTRL_TOL < (va - vb).natAbs then ((s.checkKept x v).diffShown (va - vb)).mismatchShown
      else ((s.checkKept x v).diffShown (va - vb)).setBit (checkFlagOf x) false := by
  rw [State.checkDone_settled, ha, hb]

variable (s x v)

theorem State.checkDone_settled_hk (y : Hk) : (s.checkDone x v false).hk y = (s.checkKept x v).hk y := by
  rw [State.checkDone_settled]
  split
  · split
    · rw [State.mismatchShown_hk, State.diffShown_hk]
    · rw [State.setBit_hk, State.diffShown_hk]
  · rfl

/-- Of the converters only the check value of the one that converted is another. -/
theorem State.checkDone_hk (ns : Bool) : (s.checkDone x v ns).hk x = { s.hk x with
    check := if ns then (s.hk x).check else some v } := by
  cases ns with
  | true => rfl
  | false => rw [State.checkDone_settled_hk, State.checkKept_hk]; rfl

theorem State.checkDone_other (ns : Bool) : (s.checkDone x v ns).hk (hkOther x) = s.hk (hkOther x) := by
  cases ns with
  | true => rfl
  | false => rw [State.checkDone_settled_hk, State.checkKept_other]

end

section
variable (s : State) (d : Int)

theorem State.diffShown_valid : (s.diffShown d).bit HKS_CHECK_STATUS_VALID = true :=
  (State.bit_congr (State.fld_setFld_other _ _ (by decide) (by decide))).trans
    (s.bit_setBit_same _ true (by decide) rfl)

theorem State.diffShown_diff :
    (s.diffShown d).fld HKS_CHECK_DIFF_DIFF = unsgn 24 (clampInt (-0x800000) 0x7FFFFF d) :=
  (State.fld_setFld_same _ _ _ (by decide)).trans (Nat.mod_eq_of_lt (unsgn_lt ..))

/-- The flags and MISMATCH lie above VALID. -/
theorem State.diffShown_bit {f : Fld} (hvalid : apart HKS_CHECK_STATUS_VALID f) (hdiff : apart HKS_CHECK_DIFF_DIFF f) :
    (s.diffShown d).bit f = s.bit f :=
  State.bit_congr ((State.fld_setFld_other _ _ (by decide) hdiff).trans (s.fld_setBit_other true (by decide) hvalid))

/-- VALID and DIFF are no matter of a mismatch. -/
theorem State.mismatchShown_fld {f : Fld} (hf : f = HKS_CHECK_STATUS_VALID ∨ f = HKS_CHECK_DIFF_DIFF) :
    s.mismatchShown.fld f = s.fld f := by
  have hapart : (foot [.reg GLB_DETERMINISM, .reg LNK_DEADLETTER_COUNT, .reg (ENG_STATUS 0x600),
      .reg (ENG_STATUS 0x1B00), .flt, .win .lnk, .recTick, .bar, .faults, .cou, .bru, .lnk, .free, .srcs]).testBit
        (regPart f.reg) = false ∧ apart HKS_CHECK_STATUS_FLAG_B f ∧ apart HKS_CHECK_STATUS_FLAG_A f ∧
        apart HKS_CHECK_STATUS_MISMATCH_COUNT f ∧ apart HKS_CHECK_STATUS_MISMATCH f := by
    rcases hf with rfl | rfl <;> decide +kernel
  obtain ⟨hraise, hb, ha, hcount, hmis⟩ := hapart
  rw [State.mismatchShown, (State.raise_keeps ..).fld hraise, State.fld_setBit_other _ _ (by decide) hb,
    State.fld_setBit_other _ _ (by decide) ha, State.fld_inc_other _ (by decide) hcount,
    State.fld_setBit_other _ _ (by decide) hmis]

theorem State.mismatchShown_bits : s.mismatchShown.bit HKS_CHECK_STATUS_MISMATCH = true ∧
    s.mismatchShown.bit HKS_CHECK_STATUS_FLAG_A = true ∧ s.mismatchShown.bit HKS_CHECK_STATUS_FLAG_B = true := by
  have hraise (t : State) {f : Fld} (hf : f.reg = HKS_CHECK_STATUS) : (t.raise .hks 0).bit f = t.bit f :=
    (State.raise_keeps ..).bit (by rw [hf]; decide +kernel)
  refine ⟨?_, ?_, ?_⟩
  · rw [State.mismatchShown, hraise _ rfl, State.bit_setBit_other _ _ (by decide) (by decide),
      State.bit_setBit_other _ _ (by decide) (by decide),
      State.bit_congr (State.fld_inc_other _ (by decide) (by decide)), State.bit_setBit_same _ _ _ (by decide) rfl]
  · rw [State.mismatchShown, hraise _ rfl, State.bit_setBit_other _ _ (by decide) (by decide),
      State.bit_setBit_same _ _ _ (by decide) rfl]
  · rw [State.mismatchShown, hraise _ rfl, State.bit_setBit_same _ _ _ (by decide) rfl]

end

/-- What a settled check conversion shows once both converters hold a code (R201). -/
theorem State.checkDone_shows {s t : State} {x : Hk} {v va vb : Int} (ha : (s.checkKept x v).hka.check = some va)
    (hb : (s.checkKept x v).hkb.check = some vb) (ht : t = s.checkDone x v false) :
    t.bit HKS_CHECK_STATUS_VALID = true ∧
      t.fld HKS_CHECK_DIFF_DIFF = unsgn 24 (clampInt (-0x800000) 0x7FFFFF (va - vb)) ∧
      (s.fld HKS_CHECK_CTRL_TOL < (va - vb).natAbs → t.bit HKS_CHECK_STATUS_MISMATCH = true ∧
        t.bit HKS_CHECK_STATUS_FLAG_A = true ∧ t.bit HKS_CHECK_STATUS_FLAG_B = true) ∧
      ((va - vb).natAbs ≤ s.fld HKS_CHECK_CTRL_TOL →
        t.bit HKS_CHECK_STATUS_MISMATCH = s.bit HKS_CHECK_STATUS_MISMATCH ∧
        t.bit HKS_CHECK_STATUS_FLAG_A = (if x = .a then false else s.bit HKS_CHECK_STATUS_FLAG_A) ∧
        t.bit HKS_CHECK_STATUS_FLAG_B = (if x = .a then s.bit HKS_CHECK_STATUS_FLAG_B else false)) := by
  rw [State.checkDone_of_both ha hb] at ht
  rcases Nat.lt_or_ge (s.fld HKS_CHECK_CTRL_TOL) (va - vb).natAbs with h | h
  · rw [if_pos h] at ht
    subst ht
    refine ⟨?_, ?_, fun _ => State.mismatchShown_bits _, fun hle => absurd h (Nat.not_lt.2 hle)⟩
    · rw [State.bit_congr (State.mismatchShown_fld _ (.inl rfl)), State.diffShown_valid]
    · rw [State.mismatchShown_fld _ (.inr rfl), State.diffShown_diff]
  · rw [if_neg (Nat.not_lt.2 h)] at ht
    have hkept {f : Fld} (hvalid : apart HKS_CHECK_STATUS_VALID f) (hdiff : apart HKS_CHECK_DIFF_DIFF f) :
        ((s.checkKept x v).diffShown (va - vb)).bit f = s.bit f := by
      rw [State.diffShown_bit _ _ hvalid hdiff, State.checkKept, State.setHk_bit]
    subst ht
    refine ⟨?_, ?_, fun hlt => absurd hlt (Nat.not_lt.2 h), fun _ => ⟨?_, ?_, ?_⟩⟩
    · rw [State.bit_setBit_other _ _ (by cases x <;> decide) (by cases x <;> decide), State.diffShown_valid]
    · rw [State.fld_setBit_other _ _ (by cases x <;> decide) (by cases x <;> decide), State.diffShown_diff]
    · rw [State.bit_setBit_other _ _ (by cases x <;> decide) (by cases x <;> decide), hkept (by decide) (by decide)]
    · cases x with
      | a => exact State.bit_setBit_same _ _ false (by decide) rfl
      | b => exact (State.bit_setBit_other _ _ (by decide) (by decide)).trans (hkept (by decide) (by decide))
    · cases x with
      | a => exact (State.bit_setBit_other _ _ (by decide) (by decide)).trans (hkept (by decide) (by decide))
      | b => exact State.bit_setBit_same _ _ false (by decide) rfl

/-! ### HK_CONVERSION_DONE (R187) -/

theorem execHkConversionDone_of_powered {s : State} (hclk : s.tm.clk = true) (hpow : s.pin.fieldPower = true) (x : Hk)
    (raw : W24) (ovld : Bool) : exec (.hkConversionDone x raw ovld) s = .next (s.convDone x raw ovld) :=
  congrArg Host.Outcome.next (State.onField_of_powered hclk hpow _)

theorem execHkCalGainDone_of_powered {s : State} (hclk : s.tm.clk = true) (hpow : s.pin.fieldPower = true) (x : Hk) :
    exec (.hkCalGainDone x) s = .next (s.calGainDone x) :=
  congrArg Host.Outcome.next (State.onField_of_powered hclk hpow _)

/-- The sum with a conversion's code: a counted one adds it, or takes it off in the negative half of EXC 3 (R192). -/
def HkConv.sumWith (c : HkConv) (raw : W24) : Int :=
  if seqCounted c.word c.k then
    (if seqExc c.word = 3 ∧ seqIndex c.word c.k % 2 = 0 then c.sum - hkCode c raw else c.sum + hkCode c raw)
  else c.sum

/-- OVR with a conversion (R196). -/
def HkConv.ovrWith (c : HkConv) (raw : W24) (ovld : Bool) : Bool :=
  c.ovr || (seqCounted c.word c.k && (ovld || decide (0x7F0000 ≤ (sgn 24 raw.toNat).natAbs)))

/-- The conversion as it stands in the result of its entry. -/
def HkConv.completed (c : HkConv) (raw : W24) (ovld : Bool) : HkConv :=
  { c with sum := c.sumWith raw, ovr := c.ovrWith raw ovld }

/-- A calibration conversion adds its raw code to the sum of its quarter (R206). -/
def State.calSummed (s : State) (x : Hk) (c : HkConv) (raw : W24) : State :=
  s.setHk x { s.hk x with
    sums := (s.hk x).sums.set (c.k / 16) ((s.hk x).sums.getD (c.k / 16) 0 + sgn 24 raw.toNat) }

section
variable {s : State} {x : Hk} {c : HkConv} (raw : W24) (ovld : Bool) (h : (s.hk x).conv = some c)
include h

theorem State.hkBegin_of_running : s.hkBegin x = s := by rw [State.hkBegin, h]

theorem State.convDone_check (hkind : c.kind = .check) :
    s.convDone x raw ovld = (s.checkDone x (hkCode c raw) c.ns).hkAdvance x none := by
  simp only [State.convDone, State.hkBegin_of_running h, h, hkind]

theorem State.convDone_cal (hkind : c.kind = .cal) : s.convDone x raw ovld =
    if c.k + 1 < 64 then (s.calSummed x c raw).startConv x .cal c.entry c.word (c.k + 1) 0 false false
    else (s.calSummed x c raw).calGainDone x := by
  simp only [State.convDone, State.hkBegin_of_running h, State.calSummed, h, hkind]

theorem State.convDone_entry (hkind : c.kind = .entry ∨ c.kind = .urgent) : s.convDone x raw ovld =
    if c.k + 1 < seqTotal c.word then
      s.startConv x c.kind c.entry c.word (c.k + 1) (c.sumWith raw) (c.ovrWith raw ovld) c.ns
    else s.resultDone x (c.completed raw ovld) := by
  have hsum : (if !seqCounted c.word c.k then c.sum
      else if seqExc c.word == 3 && seqIndex c.word c.k % 2 == 0 then c.sum - hkCode c raw
      else c.sum + hkCode c raw) = c.sumWith raw := by
    unfold HkConv.sumWith
    cases seqCounted c.word c.k
    · rfl
    · simp
  rcases hkind with hkind | hkind
  all_goals
    simp only [State.convDone, State.hkBegin_of_running h, h, hkind, hsum, State.resultDone, State.resultMoved,
      HkConv.completed, HkConv.ovrWith]

end

/-! ### The commands together -/

/-- Settles O41: each kind of conversion that completes starts the next of its own, or stores what it measured and
moves on. -/
theorem convertersRunTheirPasses : Obligations.ConvertersRunTheirPasses := by
  rintro s x b hclk hpow rfl
  refine ⟨fun hbar => ?barred, fun hconv hrun hgains => ?passes, fun c raw ovld hconv => ?done⟩
  case barred => rw [execHkPassStart_of_powered hclk hpow, State.passBegin_of_barred hbar]
  case passes =>
    have hexec := execHkPassStart_of_powered hclk hpow x
    have hkeeps := execHkPassStart_keeps x s hexec
    rw [State.passBegin_of_idle hconv] at hexec hkeeps
    obtain ⟨c, hhk, hc⟩ := State.passStart_hk hrun hgains
    refine ⟨_, c, hexec, hkeeps, s.passStart_other x, ?_, ?_, hc, ?_⟩
    · rw [hhk]
    · rw [hhk]
    · rw [State.passStart_activity hrun hgains, State.passFirst]
      split
      · rfl
      · rfl
  case done =>
    have hexec := execHkConversionDone_of_powered hclk hpow x raw ovld
    have hkeeps := execHkConversionDone_keeps x raw ovld s hexec
    refine ⟨fun hkind sum ovr hsum hovr => ?entry, fun hkind => ?check, fun hkind sums hsums => ?cal⟩
    case entry =>
      obtain rfl : sum = c.sumWith raw := hsum
      obtain rfl : ovr = c.ovrWith raw ovld := hovr
      rw [State.convDone_entry raw ovld hconv hkind] at hexec hkeeps
      refine ⟨fun hmore => ?more, fun hlast => ?last⟩
      case more =>
        rw [if_pos hmore] at hexec hkeeps
        obtain ⟨live, hhk⟩ :=
          s.startConv_hk x c.kind c.entry c.word (c.k + 1) (c.sumWith raw) (c.ovrWith raw ovld) c.ns
        exact ⟨_, _, hexec, hkeeps, State.startConv_other .., hhk, rfl, rfl, rfl, rfl, rfl, rfl, rfl,
          fun hovr => by rw [State.convOf, hovr]; rfl⟩
      case last =>
        rw [if_neg (Nat.not_lt.2 hlast)] at hexec hkeeps
        obtain ⟨hres, hentry, hover, hns, hcheck, hnew⟩ := s.resultDone_data x (c.completed raw ovld)
        obtain ⟨hstamp, hurgent, hoverrun, hcount⟩ := s.resultDone_status x (c.completed raw ovld)
        have hflag : s.checkFlag x =
            if x = .a then s.bit HKS_CHECK_STATUS_FLAG_A else s.bit HKS_CHECK_STATUS_FLAG_B := by cases x <;> rfl
        exact ⟨_, hexec, hkeeps, s.resultDone_other x _, State.resultMoved_conv _ x _, hres, hentry, hover, hns,
          hcheck.trans hflag, hnew, hstamp, hurgent, hoverrun, hcount,
          fun hk hlen => State.resultDone_entry_next (c := c.completed raw ovld) hk hlen,
          fun hk hlen => State.resultDone_entry_last (c := c.completed raw ovld) hk hlen,
          fun hk e he => State.resultDone_urgent_pending (c := c.completed raw ovld) hk he,
          fun hk he => State.resultDone_urgent_last (c := c.completed raw ovld) hk he⟩
    case check =>
      rw [State.convDone_check raw ovld hconv hkind] at hexec hkeeps
      have hhk := State.hkAdvance_hk (s.checkDone x (hkCode c raw) c.ns) x none
      rw [State.checkDone_hk] at hhk
      have hadv := State.hkAdvance_keeps (s.checkDone x (hkCode c raw) c.ns) x none
      refine ⟨_, hexec, hkeeps, ?_, by rw [hhk], by rw [hhk]; rfl, by rw [hhk], fun hns => ?_,
        fun hns va vb ha hb => ?_⟩
      · rw [State.hkAdvance_other, State.checkDone_other]
      · rw [hns] at hadv ⊢
        exact ⟨hadv.reg _ (by decide +kernel), hadv.reg _ (by decide +kernel)⟩
      · rw [hns] at ha hb hadv ⊢
        have hcode (y : Hk) {n : Int}
            (h : (((s.checkDone x (hkCode c raw) false).hkAdvance x none).hk y).check = some n) :
            ((s.checkKept x (hkCode c raw)).hk y).check = some n := by
          rwa [State.hkAdvance_check, State.checkDone_settled_hk] at h
        have hshows := State.checkDone_shows (hcode .a ha) (hcode .b hb) rfl
        rw [hadv.bit (f := HKS_CHECK_STATUS_VALID) (by decide +kernel),
          hadv.bit (f := HKS_CHECK_STATUS_MISMATCH) (by decide +kernel),
          hadv.bit (f := HKS_CHECK_STATUS_FLAG_A) (by decide +kernel),
          hadv.bit (f := HKS_CHECK_STATUS_FLAG_B) (by decide +kernel),
          hadv.fld (f := HKS_CHECK_DIFF_DIFF) (by decide +kernel)]
        exact hshows
    case cal =>
      obtain rfl := hsums
      rw [State.convDone_cal raw ovld hconv hkind] at hexec hkeeps
      refine ⟨fun hmore => ?more, fun hlast => ?last⟩
      case more =>
        rw [if_pos hmore] at hexec hkeeps
        obtain ⟨live, hhk⟩ := (s.calSummed x c raw).startConv_hk x .cal c.entry c.word (c.k + 1) 0 false false
        have hother : (s.calSummed x c raw).hk (hkOther x) = s.hk (hkOther x) := State.hk_setHk_other ..
        rw [State.calSummed, State.hk_setHk] at hhk
        exact ⟨_, _, hexec, hkeeps, (State.startConv_other ..).trans hother, hhk, rfl, rfl, rfl,
          congrArg TimeSt.tick (State.setHk_tm ..), rfl⟩
      case last =>
        rw [if_neg (Nat.not_lt.2 hlast)] at hexec
        rw [hexec]
        exact (execHkCalGainDone_of_powered ((congrArg TimeSt.clk (State.setHk_tm ..)).trans hclk)
          ((congrArg PinSt.fieldPower (State.setHk_pin ..)).trans hpow) x).symm

end Sys2Proof.Machine

/-!
The microwords of Table 11-4 that compute (R237, R239): what a result stores, the flags it leaves, and the branch that
follows it.
-/
namespace Sys2Proof.Machine

set_option Elab.async false

/-! ### Flags (R237) -/

theorem flagsOf_bits (f : EFlags) : flagsOf (f.bits % 2 ^ 4) = f := by
  obtain ⟨z, n, c, v⟩ := f
  revert z n c v
  decide

@[simp] theorem State.setFlags_flags (s : State) (e : Eng) (f : EFlags) : (s.setFlags e f).flags e = f :=
  (congrArg flagsOf (State.fld_setFld_same _ _ _ (by decide : 16 + 4 ≤ 32))).trans (flagsOf_bits f)

theorem State.setFlags_fld (s : State) (e : Eng) (f : EFlags) {g : Fld} (h : apart (ENG_STATUS_FLAGS (engBase e)) g) :
    (s.setFlags e f).fld g = s.fld g := s.fld_setFld_other _ (by decide : 16 + 4 ≤ 32) h

theorem State.setFlags_keeps_status (s : State) (e : Eng) (f : EFlags) :
    Keeps (foot [.reg (ENG_STATUS (engBase e))]) s (s.setFlags e f) := s.setReg_keeps_reg ..

theorem logicFlags_eq (r : W24) : logicFlags r = ⟨decide (r = 0), r.getLsbD 23, false, false⟩ := by
  rw [logicFlags, BitVec.msb_eq_getLsbD_last]
  rfl

/-- A sum is not the exact one where it overflows. -/
theorem toInt_add_ne_iff (a b : W24) : (a + b).toInt ≠ a.toInt + b.toInt ↔ a.saddOverflow b = true := by
  refine ⟨fun hne => ?_, fun hover heq => ?_⟩
  · by_contra hfits
    exact hne (BitVec.toInt_add_of_not_saddOverflow hfits)
  · have hlt := (a + b).toInt_lt
    have hle := (a + b).le_toInt
    rw [BitVec.saddOverflow, Bool.or_eq_true, decide_eq_true_eq, decide_eq_true_eq, ← heq] at hover
    omega

/-- A difference is not the exact one where it overflows. -/
theorem toInt_sub_ne_iff (a b : W24) : (a - b).toInt ≠ a.toInt - b.toInt ↔ a.ssubOverflow b = true := by
  refine ⟨fun hne => ?_, fun hover heq => ?_⟩
  · by_contra hfits
    exact hne (BitVec.toInt_sub_of_not_ssubOverflow hfits)
  · have hlt := (a - b).toInt_lt
    have hle := (a - b).le_toInt
    rw [BitVec.ssubOverflow, Bool.or_eq_true, decide_eq_true_eq, decide_eq_true_eq, ← heq] at hover
    omega

theorem addFlags_eq (a b : W24) : addFlags a b = ⟨decide (a + b = 0), (a + b).getLsbD 23,
    decide (2 ^ 24 ≤ a.toNat + b.toNat), decide ((a + b).toInt ≠ a.toInt + b.toInt)⟩ := by
  have hv : decide ((a + b).toInt ≠ a.toInt + b.toInt) = (a.msb == b.msb && (a + b).msb != a.msb) := by
    rw [Bool.eq_iff_iff, decide_eq_true_iff, toInt_add_ne_iff, BitVec.saddOverflow_eq]
    rfl
  rw [hv, ← show (a + b).msb = (a + b).getLsbD 23 from BitVec.msb_eq_getLsbD_last _]
  rfl

theorem subFlags_eq (a b : W24) : subFlags a b = ⟨decide (a - b = 0), (a - b).getLsbD 23,
    decide (a.toNat < b.toNat), decide ((a - b).toInt ≠ a.toInt - b.toInt)⟩ := by
  have hv : decide ((a - b).toInt ≠ a.toInt - b.toInt) = (a.msb != b.msb && (a - b).msb != a.msb) := by
    rw [Bool.eq_iff_iff, decide_eq_true_iff, toInt_sub_ne_iff, BitVec.ssubOverflow_eq]
    cases a.msb <;> cases b.msb <;> cases (a - b).msb <;> decide
  rw [hv, ← show (a - b).msb = (a - b).getLsbD 23 from BitVec.msb_eq_getLsbD_last _]
  rfl

/-! ### Results (Table 11-4) -/

section
variable (a b : W24)

theorem shlResult_eq : shlResult a b = if b.toNat % 32 < 24 then a <<< (b.toNat % 32) else 0 := by
  simp only [shlResult, bigShift, decide_eq_true_eq, ← Nat.not_lt, ite_not]

theorem shrResult_eq : shrResult a b = if b.toNat % 32 < 24 then a >>> (b.toNat % 32) else 0 := by
  simp only [shrResult, bigShift, decide_eq_true_eq, ← Nat.not_lt, ite_not]

theorem asrResult_eq :
    asrResult a b = if b.toNat % 32 < 24 then a.sshiftRight (b.toNat % 32) else a.sshiftRight 24 := by
  rw [asrResult]
  split
  next h => rw [Nat.min_eq_left h.le]
  next h => rw [Nat.min_eq_right (Nat.not_lt.1 h)]

theorem mulhResult_eq : mulhResult a b = BitVec.ofInt 24 ((a.toInt * b.toInt).fdiv (2 ^ 24)) := by
  rw [mulhResult, Int.fdiv_eq_ediv_of_nonneg _ (by decide)]

end

/-! ### The word that a microword stores (Table 11-3) -/

/-- The state with a value in a window word of an engine, where a place is named. -/
def State.storedAt (s : State) (e : Eng) (place : Option Nat) (v : W24) : State :=
  match place with
  | some a => s.setWin (engBlk e) a v
  | none => s

/-- Every place is an address of 16 bits. -/
theorem resultPlace_lt {d a : Nat} (h : resultPlace d = some a) : a < 0x10000 := by
  unfold resultPlace at h
  split_ifs at h <;> cases h <;> omega

theorem State.setDest_eq (s : State) (e : Eng) (d : Nat) (v : W24) :
    s.setDest e d v = s.storedAt e (resultPlace d) (resultKept d v) := by
  unfold State.setDest resultPlace
  split
  next h => rw [resultKept, if_neg (by omega)]; rfl
  next h =>
    split
    · rfl
    · rfl
    · rfl
    · next h18 h21 h22 => rw [if_neg h18, if_neg h21, if_neg h22]; rfl

theorem State.result_eq (s : State) (e : Eng) (m : Micro) (r : W24) (f : EFlags) :
    s.result e m r f = (s.storedAt e (resultPlace m.dst.toNat) (resultKept m.dst.toNat r)).setFlags e f := by
  rw [State.result, State.setDest_eq]

/-! ### What an operation has done before the branch -/

/-- u is s after an operation that stored v in the window word at a place, if one is named, left the flags f, and
changed nothing else. -/
structure State.Operated (s u : State) (e : Eng) (place : Option Nat) (v : W24) (f : EFlags) : Prop where
  keeps : Keeps (foot [.win (engBlk e), .reg (ENG_STATUS (engBase e))]) s u
  word  : ∀ a, a < 0x10000 → u.win (engBlk e) a = if place = some a then v else s.win (engBlk e) a
  flags : u.flags e = f
  fld   : ∀ g, apart (ENG_STATUS_FLAGS (engBase e)) g → u.fld g = s.fld g

section
variable {s u : State} {e : Eng} {place : Option Nat} {v : W24} {f : EFlags}

/-- A store alone leaves the flags. -/
theorem State.storedAt_operated (s : State) (e : Eng) (v : W24) (hplace : ∀ a, place = some a → a < 0x10000) :
    s.Operated (s.storedAt e place v) e place v (s.flags e) := by
  cases place with
  | none => exact ⟨Keeps.refl .., fun _ _ => rfl, rfl, fun _ _ => rfl⟩
  | some a =>
    have hkeeps : Keeps (foot [.win (engBlk e)]) s (s.setWin (engBlk e) a v) :=
      (s.setWin_keeps ..).mono (by cases e <;> decide +kernel)
    refine ⟨hkeeps.monoFoot (by simp), fun x hx => ?_, rfl, fun _ _ => rfl⟩
    have ha := hplace a rfl
    split
    next h => cases h; exact State.win_setWin_same ..
    next h =>
      refine s.win_setWin_other v fun hkey => h (congrArg some ?_)
      have hmod := (winKey_inj hkey).2
      omega

/-- The flags are stored after the word. -/
theorem State.Operated.setFlags {f0 : EFlags} (h : s.Operated u e place v f0) (f : EFlags) :
    s.Operated (u.setFlags e f) e place v f :=
  have hkeeps := u.setFlags_keeps_status e f
  ⟨hkeeps.stepFoot (by simp) h.keeps,
    fun a ha => (hkeeps.win _ a (by cases e <;> decide +kernel)).trans (h.word a ha),
    u.setFlags_flags e f, fun g hg => (u.setFlags_fld e f hg).trans (h.fld g hg)⟩

theorem State.result_operated (s : State) (e : Eng) (m : Micro) (r : W24) (f : EFlags) :
    s.Operated (s.result e m r f) e (resultPlace m.dst.toNat) (resultKept m.dst.toNat r) f := by
  rw [State.result_eq]
  exact (s.storedAt_operated e _ fun a ha => resultPlace_lt ha).setFlags f

theorem State.setFlags_operated (s : State) (e : Eng) (f : EFlags) : s.Operated (s.setFlags e f) e none 0 f :=
  (s.storedAt_operated (place := none) e 0 nofun).setFlags f

/-- An operation leaves the contexts. -/
theorem State.Operated.ctx (h : s.Operated u e place v f) (svc : Bool) : u.ctx e svc = s.ctx e svc := by
  have heng : u.eng e = s.eng e := by
    cases e
    · exact h.keeps.cou (by decide +kernel)
    · exact h.keeps.bru (by decide +kernel)
  rw [State.ctx, State.ctx, heng]

end

/-! ### The branch (R239) -/

section
variable (s : State) (e : Eng) (svc : Bool) (n : Nat)

theorem State.setEpc_keeps_reg : Keeps (foot [.reg (ENG_PC (engBase e))]) s (s.setEpc e svc n) := by
  cases svc <;> exact s.setReg_keeps_reg ..

theorem State.setEpc_epc : (s.setEpc e svc n).epc e svc = n % 2 ^ 12 := by
  cases svc <;> exact State.fld_setFld_same _ _ _ (by simp [ENG_PC_PC, ENG_PC_SERVICE_PC])

theorem State.setEpc_epc_other : (s.setEpc e svc n).epc e (!svc) = s.epc e (!svc) := by
  cases svc <;>
    exact State.fld_setFld_other _ _ (by simp [ENG_PC_PC, ENG_PC_SERVICE_PC])
      (.inr (by simp [ENG_PC_PC, ENG_PC_SERVICE_PC]))

theorem State.setEpc_fld {g : Fld} (h : ENG_PC (engBase e) ≠ g.reg) : (s.setEpc e svc n).fld g = s.fld g := by
  cases svc <;> exact congrArg (fldGet g) (s.reg_setReg_other _ h)

/-- A condition rests on no context's address (Table 11-5). -/
theorem State.setEpc_condHolds (c : Nat) : (s.setEpc e svc n).condHolds e c = s.condHolds e c := by
  have hstatus {g : Fld} (h : g.reg = ENG_STATUS (engBase e)) : (s.setEpc e svc n).fld g = s.fld g :=
    s.setEpc_fld e svc n (by rw [h]; cases e <;> decide)
  have hflags : (s.setEpc e svc n).flags e = s.flags e := congrArg flagsOf (hstatus rfl)
  have hto : (s.setEpc e svc n).bit (ENG_STATUS_TO (engBase e)) = s.bit (ENG_STATUS_TO (engBase e)) :=
    State.bit_congr (hstatus rfl)
  have hglb : (s.setEpc e svc n).glb = s.glb := s.setEpc_fld e svc n (by cases e <;> decide)
  have heng : (s.setEpc e svc n).eng e = s.eng e := by cases e <;> rfl
  have hopen : (s.setEpc e svc n).windowOpen = s.windowOpen := rfl
  simp only [State.condHolds, hflags, hto, hglb, heng, hopen]

end

/-! ### One microword of a context that runs -/

/-- An operation whose microword ends with the common branch: all but CALL, RET and END (Table 11-4). -/
def MOp.falls : MOp → Bool
  | .call | .ret | .end_ => false
  | _ => true

theorem State.microBranch_of_falls (s u : State) (e : Eng) (svc : Bool) {op : MOp} (m : Micro) (h : op.falls = true) :
    s.microBranch u e svc op m =
      u.setEpc e svc (if u.condHolds e m.cond.toNat then m.next.toNat else (s.epc e svc + 1) % 4096) := by
  cases op
  case call | ret | end_ => cases h
  all_goals rfl

/-- The fields of _STATUS other than FLAGS (Table 11-14). -/
def statusOthers (b : Nat) : List Fld :=
  [ENG_STATUS_STAGE_OVF b, ENG_STATUS_STENCIL_OVF b, ENG_STATUS_STORE_PROT b, ENG_STATUS_REQ_REJECT b,
    ENG_STATUS_LAUNCH_REJECT b, ENG_STATUS_GUARD b, ENG_STATUS_WIN_REJECT b, ENG_STATUS_TO b,
    ENG_STATUS_SERVICE_BUSY b, ENG_STATUS_STATE b, ENG_STATUS_ROUTINE b]

theorem statusOthers_apart (e : Eng) : ∀ g ∈ statusOthers (engBase e),
    ENG_PC (engBase e) ≠ g.reg ∧ apart (ENG_STATUS_FLAGS (engBase e)) g := by
  cases e <;> decide

section
variable {s u : State} {e : Eng} {svc : Bool} {m : Micro} {op : MOp} {place : Option Nat} {v : W24} {f : EFlags}
  {c : Instr}

/-- An operation and the branch after it are the whole effect of a microword. -/
theorem State.Operated.ran (h : s.Operated u e place v f) :
    s.ran (u.setEpc e svc (if u.condHolds e m.cond.toNat then m.next.toNat else (s.epc e svc + 1) % 4096))
      e svc m place v f := by
  generalize hn : (if u.condHolds e m.cond.toNat then m.next.toNat else (s.epc e svc + 1) % 4096) = n
  have hlt : n < 2 ^ 12 := by
    rw [← hn]
    split
    · exact m.next.isLt
    · exact Nat.mod_lt _ (by decide)
  have hpc := u.setEpc_keeps_reg e svc n
  refine ⟨hpc.stepFoot (by simp) (h.keeps.monoFoot (by simp)), fun a ha => ?_, ?_, fun g hg => ?_, ?_, ?_⟩
  · exact (hpc.win _ a (by cases e <;> decide +kernel)).trans (h.word a ha)
  · exact (congrArg flagsOf (u.setEpc_fld e svc n (by cases e <;> decide))).trans h.flags
  · obtain ⟨hreg, hapart⟩ := statusOthers_apart e g hg
    exact (u.setEpc_fld e svc n hreg).trans (h.fld g hapart)
  · rw [State.setEpc_epc, State.setEpc_condHolds, Nat.mod_eq_of_lt hlt, hn]
  · rw [State.setEpc_epc_other]
    exact h.fld _ (.inl (by cases e <;> cases svc <;> decide))

theorem State.onEngine_of_runs (h : s.runs e svc m) (g : State → State) : s.onEngine e g = g s := by
  obtain ⟨hclk, hpow, -⟩ := h
  cases e
  · exact State.onTick_of_clk hclk g
  · exact State.onField_of_powered hclk (hpow rfl) g

theorem State.micro_of_runs (h : s.runs e svc m) (hop : op.falls = true)
    (hctx : (s.microOp e svc op m).ctx e svc = s.ctx e svc) :
    s.micro e svc op m = (s.microOp e svc op m).setEpc e svc
      (if (s.microOp e svc op m).condHolds e m.cond.toNat then m.next.toNat else (s.epc e svc + 1) % 4096) := by
  obtain ⟨-, -, hsome, hread, hcommit⟩ := h
  have hgoes : ((s.ctx e svc).isNone || s.isReading e svc) = false := by
    rw [hread, Bool.or_false, Option.isNone_eq_false_iff, hsome]
  have hstill : (s.microOp e svc op m).isReading e svc = s.isReading e svc := by
    rw [State.isReading, State.isReading, hctx]
  have hpoint : (m.commit && !svc) = false := by
    rcases hcommit with h | h <;> simp [h]
  simp only [State.micro, State.microEnd, hctx, hstill, hgoes, hpoint, Bool.false_and, Bool.false_eq_true, if_false,
    State.microBranch_of_falls _ _ _ _ _ hop]

/-- A microword of a context that runs is its operation and the common branch, where its operation stores at most a word
and the flags. -/
theorem State.runs.ran (h : s.runs e svc m) (hop : op.falls = true)
    (hexec : exec c s = .next (s.onEngine e (fun t => t.micro e svc op m)))
    (hdone : s.Operated (s.microOp e svc op m) e place v f) :
    ∃ t, exec c s = .next t ∧ s.ran t e svc m place v f :=
  ⟨_, hexec.trans (congrArg _ ((State.onEngine_of_runs h _).trans (State.micro_of_runs h hop (hdone.ctx svc)))),
    hdone.ran⟩

/-- A microword that stores a logical result (Table 11-4). -/
theorem State.runs.ran_logic (h : s.runs e svc m) (hop : op.falls = true) {r x : W24}
    (hexec : exec c s = .next (s.onEngine e (fun t => t.micro e svc op m)))
    (hres : s.microOp e svc op m = s.result e m x (logicFlags x)) (hr : x = r) :
    ∃ t, exec c s = .next t ∧
      s.ran t e svc m (resultPlace m.dst.toNat) (resultKept m.dst.toNat r)
        ⟨decide (r = 0), r.getLsbD 23, false, false⟩ := by
  subst hr
  rw [← logicFlags_eq]
  exact h.ran hop hexec (hres ▸ s.result_operated e m x _)

end

/-- Settles O43: every such microword is an operation that stores at most a word and the flags, and then the common
branch. -/
theorem microwordsCompute : Obligations.MicrowordsCompute := by
  unfold Obligations.MicrowordsCompute
  intro s e svc m a b r hruns ha hb
  subst ha hb
  refine ⟨?nop, ?logic, ?add, ?subCmp, ?test, ?settimer⟩
  case nop => exact hruns.ran (op := .nop) rfl rfl (s.storedAt_operated (place := none) e 0 nofun)
  case logic =>
    simp only [List.forall_mem_cons]
    refine ⟨?mov, ?and, ?or, ?xor, ?shl, ?shr, ?asr, ?mull, ?mulh, List.forall_mem_nil _⟩
    case mov => exact hruns.ran_logic (op := .mov) rfl rfl rfl rfl
    case and => exact hruns.ran_logic (op := .and) rfl rfl rfl rfl
    case or => exact hruns.ran_logic (op := .or) rfl rfl rfl rfl
    case xor => exact hruns.ran_logic (op := .xor) rfl rfl rfl rfl
    case shl => exact hruns.ran_logic (op := .shl) rfl rfl rfl (shlResult_eq ..)
    case shr => exact hruns.ran_logic (op := .shr) rfl rfl rfl (shrResult_eq ..)
    case asr => exact hruns.ran_logic (op := .asr) rfl rfl rfl (asrResult_eq ..)
    case mull => exact hruns.ran_logic (op := .mull) rfl rfl rfl rfl
    case mulh => exact hruns.ran_logic (op := .mulh) rfl rfl rfl (mulhResult_eq ..)
  case add =>
    rintro rfl
    rw [← addFlags_eq]
    exact hruns.ran (op := .add) rfl rfl (s.result_operated ..)
  case subCmp =>
    rintro rfl f rfl
    rw [← subFlags_eq]
    exact ⟨hruns.ran (op := .sub) rfl rfl (s.result_operated ..),
      hruns.ran (op := .cmp) rfl rfl (s.setFlags_operated ..)⟩
  case test =>
    rintro rfl
    rw [← logicFlags_eq]
    exact hruns.ran (op := .test) rfl rfl (s.setFlags_operated ..)
  case settimer =>
    have htimer : ∀ a, some 0x4A13 = some a → a < 0x10000 := by
      rintro _ ⟨⟩
      decide
    exact hruns.ran (op := .settimer) rfl rfl (s.storedAt_operated e _ htimer)

end Sys2Proof.Machine

/-!
Commands and their queue (R373): a step runs the command in front, every command completes, and what reset, power-up and
RESET_N leave.
-/
namespace Sys2Proof.Machine

/-- Settles O1: a step is defined by the front of the queue. -/
theorem stepRunsFrontCommand : Obligations.StepRunsFrontCommand := fun _ _ _ => rfl

/-- No arm of the dispatch faults or refuses. -/
theorem exec_completes (c : Instr) (s : State) : ∃ t, exec c s = .next t := by
  cases c
  all_goals exact ⟨_, rfl⟩

/-- Settles O3: each command answers a next state, and no footprint holds the queue. -/
theorem everyCommandCompletesWithItsQueue : Obligations.EveryCommandCompletesWithItsQueue := by
  intro c s
  obtain ⟨t, hexec⟩ := exec_completes c s
  exact ⟨t, hexec, (exec_keeps c hexec).pending, exec_wf hexec⟩

/-! ### Reset (R373) -/

@[simp] theorem State.reg_reset (i : Nat) : State.reset.reg i = regReset i := (rfl)
@[simp] theorem State.win_reset (b : Blk) (a : Nat) : State.reset.win b a = winReset b (a % 2 ^ 24) := (rfl)

/-- Settles O4: the tables of the state after reset list nothing. -/
theorem resetIsCanonical : Obligations.ResetIsCanonical :=
  ⟨State.reset_wf, rfl, rfl, State.reg_reset, State.win_reset, fun _ _ he => absurd he List.not_mem_nil⟩

/-- Power-up and RESET_N leave the registers of the state after reset. -/
@[simp] theorem State.reg_coldStart (s : State) (i : Nat) : s.coldStart.reg i = State.reset.reg i := (rfl)
@[simp] theorem State.win_coldStart (s : State) (b : Blk) (a : Nat) : s.coldStart.win b a = State.reset.win b a := (rfl)

/-- GLB_STATE resets to NOCLOCK. -/
theorem State.glb_coldStart (s : State) : s.coldStart.glb = 0 := by
  have hreset : fldGet GLB_STATE_STATE (regReset GLB_STATE) = 0 := by decide +kernel
  exact hreset

/-- Settles O6: both commands leave the state after reset, beside what is the world's. -/
theorem powerUpAndResetRestoreResetValues : Obligations.PowerUpAndResetRestoreResetValues := fun s =>
  ⟨s.coldStart, rfl, rfl, s.reg_coldStart, s.win_coldStart, s.glb_coldStart, rfl, rfl, rfl, rfl, rfl, rfl, rfl, rfl, rfl,
    rfl, rfl, rfl⟩

end Sys2Proof.Machine

/-!
Acknowledgement of faults (R342, R344): what it makes of one source and its LATCH bit, and that the sources are
acknowledged one by one.
-/
namespace Sys2Proof.Machine

set_option Elab.async false

/-! ### One source and its LATCH bit -/

theorem State.src_setSrc_other (s : State) {b c : Blk} {i j : Nat} (x : Source) (hi : i < 16) (hj : j < 16)
    (h : c ≠ b ∨ j ≠ i) : (s.setSrc b i x).src c j = s.src c j := by
  refine assocGet_put_other _ _ _ _ fun hkey => ?_
  unfold srcKey at hkey
  have hnum : blkNum b = blkNum c := by omega
  exact h.elim (fun hc => hc (blkNum_inj hnum.symm)) fun hne => hne (by omega)

/-- A bit taken out of a number where it is set leaves the others. -/
theorem bitOf_sub_two_pow {l : Nat} (hl : l < 2 ^ 16) (i : Nat) {j : Nat} (hj : j < 16) :
    bitOf ((if bitOf l i then l - 2 ^ i else l) % 2 ^ 16) j = (bitOf l j && !decide (i = j)) := by
  have hand : (if bitOf l i then l - 2 ^ i else l) = l - (l &&& 2 ^ i) := by
    rw [Nat.and_two_pow, bitOf_eq_testBit]
    cases l.testBit i <;> simp
  have hword := congrArg (fun w => w.getLsbD j) (ofNat_sub_and (BitVec.ofNat 32 l) (2 ^ i))
  have hj32 : j < 32 := by omega
  have hl32 : l % 2 ^ 32 = l := Nat.mod_eq_of_lt (by omega)
  simp only [BitVec.toNat_ofNat, hl32, BitVec.getLsbD_and, BitVec.getLsbD_not, BitVec.getLsbD_ofNat, hj32,
    decide_true, Bool.true_and, Nat.testBit_two_pow] at hword
  rw [hand, Nat.mod_eq_of_lt (Nat.lt_of_le_of_lt (Nat.sub_le ..) hl), bitOf_eq_testBit, hword, bitOf_eq_testBit]

/-- A source of a block and its LATCH bit. -/
def State.latched (s : State) (b : Blk) (i : Nat) : Source × Bool :=
  (s.src b i, bitOf (s.fld (FLT_LATCH_LATCH (blkBase b))) i)

/-- A source that was raised in this tick: its raise is taken as after the acknowledgement (R342). -/
def Source.raisedAfter (x : Source) : Source :=
  let e := x.esc - (if x.second then 1 else 0)
  let level := min (x.lvl0 + e) 3
  { x with level := level, esc := e, second := false, lsev := min (x.pol.sev.toNat + level) 3 }

/-- What an acknowledgement makes of a source and its LATCH bit (R344). -/
def acked (now : Nat) (v : Source × Bool) : Source × Bool :=
  if v.1.last = some now then (v.1.raisedAfter, v.2) else ({ v.1 with lsev := 0 }, false)

/-- The count of escalations without the one that an acknowledgement undoes. -/
def State.escalationUndone (s : State) (b : Blk) (undone : Prop) [Decidable undone] : State :=
  if undone then s.setFld (FLT_COUNT_ESCALATIONS (blkBase b)) (s.fld (FLT_COUNT_ESCALATIONS (blkBase b)) - 1) else s

/-- The LATCH bit of a source clears. -/
def State.unlatched (s : State) (b : Blk) (i : Nat) : State :=
  let l := s.fld (FLT_LATCH_LATCH (blkBase b))
  s.setFld (FLT_LATCH_LATCH (blkBase b)) (if bitOf l i then l - 2 ^ i else l)

section
variable (s : State) (b : Blk)

theorem State.escalationUndone_keeps (undone : Prop) [Decidable undone] :
    Keeps (foot [.reg (FLT_COUNT (blkBase b))]) s (s.escalationUndone b undone) :=
  Keeps.ite (s.setReg_keeps_reg _ _) (Keeps.refl ..)

theorem State.escalationUndone_src (undone : Prop) [Decidable undone] (c : Blk) (j : Nat) :
    (s.escalationUndone b undone).src c j = s.src c j := by
  unfold State.escalationUndone
  split <;> rfl

/-- LATCH and ALSO are no matter of the counts. -/
theorem State.escalationUndone_latch (undone : Prop) [Decidable undone] {f : Fld} (hf : f.reg = FLT_LATCH (blkBase b)) :
    (s.escalationUndone b undone).fld f = s.fld f := by
  refine (s.escalationUndone_keeps b undone).fld ?_
  rw [hf]
  cases b <;> decide +kernel

theorem State.unlatched_latch (i : Nat) {j : Nat} (hj : j < 16) :
    bitOf ((s.unlatched b i).fld (FLT_LATCH_LATCH (blkBase b))) j =
      (bitOf (s.fld (FLT_LATCH_LATCH (blkBase b))) j && !decide (i = j)) := by
  rw [State.unlatched, State.fld_setFld_same _ _ _ (by simp [FLT_LATCH_LATCH])]
  exact bitOf_sub_two_pow (s.fld_lt _) i hj

theorem State.unlatched_also (i : Nat) :
    (s.unlatched b i).fld (FLT_LATCH_ALSO (blkBase b)) = s.fld (FLT_LATCH_ALSO (blkBase b)) :=
  s.fld_setFld_other _ (by simp [FLT_LATCH_LATCH]) (.inr (.inl (by simp [FLT_LATCH_LATCH, FLT_LATCH_ALSO])))

/-! ### The acknowledgement of one source -/

/-- A source that was raised in this tick keeps its LATCH bit; another loses it (R342, R344). -/
theorem State.ackOne_eq (i : Nat) : s.ackOne b i = if (s.src b i).last = some s.tm.tick then
      (s.setSrc b i (s.src b i).raisedAfter).escalationUndone b
        ((s.src b i).esc ≠ 0 ∧ (s.src b i).raisedAfter.esc = 0)
    else (s.setSrc b i { s.src b i with lsev := 0 }).unlatched b i := by
  unfold State.ackOne
  simp only [beq_iff_eq]
  rfl

theorem State.ackOne_also (i : Nat) :
    (s.ackOne b i).fld (FLT_LATCH_ALSO (blkBase b)) = s.fld (FLT_LATCH_ALSO (blkBase b)) := by
  rw [State.ackOne_eq]
  split
  · exact State.escalationUndone_latch _ b _ rfl
  · exact State.unlatched_also ..

theorem State.ackOne_keeps_group (i : Nat) :
    Keeps (foot [.reg (FLT_LATCH (blkBase b)), .reg (FLT_COUNT (blkBase b)), .bar, .srcs]) s (s.ackOne b i) := by
  have hsrc (x : Source) : Keeps (foot [.srcs]) s (s.setSrc b i x) := (s.setSrc_keeps b i x).mono (by decide +kernel)
  rw [State.ackOne_eq]
  split
  · exact (State.escalationUndone_keeps _ b _).stepFoot (by simp) ((hsrc _).monoFoot (by simp))
  · exact (State.setReg_keeps_reg ..).stepFoot (by simp [FLT_LATCH_LATCH]) ((hsrc _).monoFoot (by simp))

/-- Every other source, of this block and of the others, keeps what it holds, and its LATCH bit. -/
theorem State.ackOne_src_other {c : Blk} {i j : Nat} (hi : i < 16) (hj : j < 16) (h : c ≠ b ∨ j ≠ i) :
    (s.ackOne b i).src c j = s.src c j := by
  rw [State.ackOne_eq]
  split
  · exact (State.escalationUndone_src ..).trans (s.src_setSrc_other _ hi hj h)
  · exact s.src_setSrc_other _ hi hj h

theorem State.ackOne_latched_other {i j : Nat} (hi : i < 16) (hj : j < 16) (h : j ≠ i) :
    (s.ackOne b i).latched b j = s.latched b j := by
  refine Prod.ext (s.ackOne_src_other b hi hj (.inr h)) ?_
  rw [State.ackOne_eq, State.latched, State.latched]
  split
  · exact congrArg (bitOf · j) (State.escalationUndone_latch _ b _ rfl)
  · simp [State.unlatched_latch _ b i hj, h.symm]

theorem State.ackOne_latched {i : Nat} (hi : i < 16) : (s.ackOne b i).latched b i = acked s.tm.tick (s.latched b i) := by
  rw [State.ackOne_eq]
  split
  next h =>
    refine Eq.trans (Prod.ext ?_ ?_) (if_pos h).symm
    · exact (State.escalationUndone_src ..).trans (s.src_setSrc_same b i _)
    · exact congrArg (bitOf · i) (State.escalationUndone_latch _ b _ rfl)
  next h =>
    refine Eq.trans (Prod.ext ?_ ?_) (if_neg h).symm
    · exact s.src_setSrc_same b i _
    · simp [State.latched, State.unlatched_latch _ b i hi]

end

/-! ### The sources of a mask, one after the other -/

/-- The sources below n that a mask names are acknowledged. -/
def State.ackBelow (s : State) (b : Blk) (mask n : Nat) : State :=
  forEach (List.range n) (fun t i => if bitOf mask i then t.ackOne b i else t) s

section
variable (s : State) (b : Blk) (mask : Nat)

theorem State.ackBelow_succ (n : Nat) : s.ackBelow b mask (n + 1) =
    if bitOf mask n then (s.ackBelow b mask n).ackOne b n else s.ackBelow b mask n := by
  simp [State.ackBelow, forEach, List.range_succ]

theorem State.ackBelow_keeps (n : Nat) :
    Keeps (foot [.reg (FLT_LATCH (blkBase b)), .reg (FLT_COUNT (blkBase b)), .bar, .srcs]) s (s.ackBelow b mask n) := by
  refine Keeps.forEach _ _ (fun t i h => ?_) (Keeps.refl ..)
  exact Keeps.ite (h.trans (t.ackOne_keeps_group b i)) h

theorem State.ackBelow_tick (n : Nat) : (s.ackBelow b mask n).tm.tick = s.tm.tick := by
  refine congrArg TimeSt.tick ((s.ackBelow_keeps b mask n).tm ?_)
  cases b <;> decide +kernel

theorem State.ackBelow_also (n : Nat) :
    (s.ackBelow b mask n).fld (FLT_LATCH_ALSO (blkBase b)) = s.fld (FLT_LATCH_ALSO (blkBase b)) := by
  refine forEach_preserves (fun t => t.fld (FLT_LATCH_ALSO (blkBase b))) (fun t i => ?_) (List.range n) s
  split
  · exact t.ackOne_also b i
  · rfl

theorem State.ackBelow_src_other {n : Nat} (hn : n ≤ 16) {c : Blk} (hc : c ≠ b) {j : Nat} (hj : j < 16) :
    (s.ackBelow b mask n).src c j = s.src c j := by
  induction n with
  | zero => rfl
  | succ n ih =>
    rw [State.ackBelow_succ]
    split
    · rw [State.ackOne_src_other _ b hn hj (.inl hc), ih (by omega)]
    · exact ih (by omega)

/-- Each source that the mask names is acknowledged once, from the state before. -/
theorem State.ackBelow_latched {n : Nat} (hn : n ≤ 16) {j : Nat} (hj : j < 16) :
    (s.ackBelow b mask n).latched b j =
      if j < n ∧ bitOf mask j = true then acked s.tm.tick (s.latched b j) else s.latched b j := by
  induction n with
  | zero => exact (if_neg fun h => Nat.not_lt_zero j h.1).symm
  | succ n ih =>
    specialize ih (by omega)
    rw [State.ackBelow_succ]
    by_cases hjn : j = n
    · subst hjn
      rw [if_neg fun h => Nat.lt_irrefl j h.1] at ih
      split
      next hbit => rw [State.ackOne_latched _ b hj, ih, State.ackBelow_tick, if_pos ⟨Nat.lt_succ_self j, hbit⟩]
      next hbit => rw [ih, if_neg fun h => hbit h.2]
    · have hlt : j < n + 1 ↔ j < n := by omega
      simp only [hlt, ← ih]
      split
      · exact State.ackOne_latched_other _ b hn hj hjn
      · rfl

/-! ### The commands -/

/-- Beside the barrier, through which a field block tells the host, FLT_ACK is the acknowledgement of its sources. -/
theorem State.ackMask_keeps_ackBelow : Keeps (foot [.bar]) (s.ackBelow b mask 16) (s.ackMask b mask) :=
  Keeps.ite (Keeps.refl ..) (State.sendStatus_keeps ..)

theorem State.ackMask_src (c : Blk) (i : Nat) : (s.ackMask b mask).src c i = (s.ackBelow b mask 16).src c i := by
  have h := (s.ackMask_keeps_ackBelow b mask).srcs (by decide +kernel)
  rw [State.src, State.src, h]

theorem State.ackMask_fld {f : Fld} (hf : f.reg = FLT_LATCH (blkBase b)) :
    (s.ackMask b mask).fld f = (s.ackBelow b mask 16).fld f := by
  refine (s.ackMask_keeps_ackBelow b mask).fld ?_
  rw [hf]
  cases b <;> decide +kernel

theorem State.ackMask_latched (i : Nat) : (s.ackMask b mask).latched b i = (s.ackBelow b mask 16).latched b i := by
  rw [State.latched, State.ackMask_src, State.ackMask_fld s b mask rfl]
  rfl

end

/-- With the clock and the field supply the work of a block is done on either die (R34, R37). -/
theorem State.onBlock_of_powered {s : State} (hclk : s.tm.clk = true) (hpow : s.pin.fieldPower = true) (b : Blk)
    (f : State → State) : s.onBlock b f = f s := State.onIndex_of_powered hclk hpow ..

/-- Fields of FIRST_WHO and LATCH that FIRST leaves alone lie apart from those that it clears. -/
theorem State.ackFirst_fld (s : State) (b : Blk) {f : Fld} (hvalid : apart (FLT_FIRST_WHO_VALID (blkBase b)) f)
    (hesc : apart (FLT_FIRST_WHO_ESCALATED (blkBase b)) f) (halso : apart (FLT_LATCH_ALSO (blkBase b)) f) :
    (s.ackFirst b).fld f = s.fld f := by
  unfold State.ackFirst State.setBit
  rw [State.fld_setFld_other _ _ (by simp [FLT_LATCH_ALSO]) halso,
    State.fld_setFld_other _ _ (by simp [FLT_FIRST_WHO_ESCALATED]) hesc,
    State.fld_setFld_other _ _ (by simp [FLT_FIRST_WHO_VALID]) hvalid]

theorem State.ackFirst_clears (s : State) (b : Blk) : (s.ackFirst b).bit (FLT_FIRST_WHO_VALID (blkBase b)) = false ∧
    (s.ackFirst b).bit (FLT_FIRST_WHO_ESCALATED (blkBase b)) = false ∧
    (s.ackFirst b).fld (FLT_LATCH_ALSO (blkBase b)) = 0 := by
  have hreg (f : Fld) (hf : f.reg = FLT_FIRST_WHO (blkBase b)) : (FLT_LATCH_ALSO (blkBase b)).reg ≠ f.reg := by
    rw [hf]
    simp [FLT_LATCH_ALSO, FLT_LATCH, FLT_FIRST_WHO]
  have hbit (t : State) {f : Fld} (hf : f.reg = FLT_FIRST_WHO (blkBase b)) :
      (t.setFld (FLT_LATCH_ALSO (blkBase b)) 0).bit f = t.bit f :=
    State.bit_congr (t.fld_setFld_other _ (by simp [FLT_LATCH_ALSO]) (.inl (hreg f hf)))
  refine ⟨?_, ?_, ?_⟩
  · refine (hbit _ rfl).trans ((State.bit_setBit_other _ _ ?_ ?_).trans (State.bit_setBit_same _ _ _ ?_ rfl))
    all_goals simp [FLT_FIRST_WHO_VALID, FLT_FIRST_WHO_ESCALATED]
  · exact (hbit _ rfl).trans (State.bit_setBit_same _ _ _ (by simp [FLT_FIRST_WHO_ESCALATED]) rfl)
  · exact (State.fld_setFld_same _ _ _ (by simp [FLT_LATCH_ALSO])).trans (Nat.zero_mod _)

theorem State.ackFirst_keeps_group (s : State) (b : Blk) :
    Keeps (foot [.reg (FLT_LATCH (blkBase b)), .reg (FLT_FIRST_WHO (blkBase b))]) s (s.ackFirst b) :=
  (State.setReg_keeps_reg ..).stepFoot (by simp [FLT_LATCH_ALSO]) <|
    (State.setReg_keeps_reg ..).stepFoot (by simp [FLT_FIRST_WHO_ESCALATED]) <|
      (s.setReg_keeps_reg ..).monoFoot (by simp [FLT_FIRST_WHO_VALID])

/-- Settles O37: FLT_ACK acknowledges each source that it names from the state before; FIRST clears three fields. -/
theorem faultAcknowledgement : Obligations.FaultAcknowledgement := by
  intro s b hclk hpow
  refine ⟨fun mask => ?sources, ?first⟩
  case sources =>
    have hbelow := s.ackBelow_keeps b mask.toNat 16
    have hview {i : Nat} (hi : i < 16) := (s.ackMask_latched b mask.toNat i).trans
      (s.ackBelow_latched b mask.toNat (Nat.le_refl 16) hi)
    refine ⟨_, congrArg Host.Outcome.next (State.onBlock_of_powered hclk hpow b _),
      (s.ackMask_keeps_ackBelow b _).stepFoot (by simp) hbelow,
      (s.ackMask_fld b _ rfl).trans (s.ackBelow_also b _ 16), fun i hi => ⟨fun hbit => ?_, fun hbit hlast => ?_,
      fun hbit hlast => ?_⟩, fun c i hc hi => (s.ackMask_src b _ c i).trans
        (s.ackBelow_src_other b _ (Nat.le_refl 16) hc hi)⟩
    · obtain ⟨hsrc, hlatch⟩ := Prod.ext_iff.1 ((hview hi).trans (if_neg (by simp [bitOf_toNat, hbit])))
      exact ⟨hlatch, hsrc⟩
    · obtain ⟨hsrc, hlatch⟩ := Prod.ext_iff.1
        (((hview hi).trans (if_pos ⟨hi, (bitOf_toNat mask i).trans hbit⟩)).trans (if_neg hlast))
      exact ⟨hlatch, hsrc⟩
    · obtain ⟨hsrc, hlatch⟩ := Prod.ext_iff.1
        (((hview hi).trans (if_pos ⟨hi, (bitOf_toNat mask i).trans hbit⟩)).trans (if_pos hlast))
      have hsrc' : (s.ackMask b mask.toNat).src b i = (s.src b i).raisedAfter := hsrc
      exact ⟨hlatch, by rw [hsrc']; rfl, by rw [hsrc']; rfl, by rw [hsrc']; rfl⟩
  case first =>
    obtain ⟨hvalid, hesc, halso⟩ := s.ackFirst_clears b
    refine ⟨_, congrArg Host.Outcome.next (State.onBlock_of_powered hclk hpow b _), s.ackFirst_keeps_group b, hvalid,
      hesc, halso, fun f hf => ?_⟩
    fin_cases hf
    all_goals
      refine s.ackFirst_fld b ?_ ?_ ?_
      all_goals simp [apart, FLT_LATCH_LATCH, FLT_LATCH_ALSO, FLT_LATCH, FLT_FIRST_WHO, FLT_FIRST_WHO_VALID,
        FLT_FIRST_WHO_ESCALATED, FLT_FIRST_WHO_SEVERITY, FLT_FIRST_WHO_MASTER, FLT_FIRST_WHO_ACCESS,
        FLT_FIRST_WHO_SOURCE]

end Sys2Proof.Machine

/-!
Window access (R371, R372): which copy of a window address an access moves, and the words that a write of a window
stores.
-/
namespace Sys2Proof.Machine

set_option Elab.async false

/-! ### Window addresses -/

theorem State.winAddr_setWinAddr_same (s : State) (b : Blk) (m a : Nat) :
    (s.setWinAddr b m a).winAddr b m = a % 2 ^ winWidth b := assocGet_put_same ..

theorem State.winAddr_setWinAddr_other (s : State) {b c : Blk} {m k : Nat} (a : Nat) (hm : m < 8) (hk : k < 8)
    (h : c ≠ b ∨ k ≠ m) : (s.setWinAddr b m a).winAddr c k = s.winAddr c k := by
  refine assocGet_put_other _ _ _ _ fun hkey => ?_
  have hnum : blkNum b = blkNum c := by omega
  exact h.elim (fun hc => hc (blkNum_inj hnum.symm)) fun hne => hne (by omega)

theorem masterCode_lt (m : Master) : masterCode m < 8 := by cases m <;> decide

/-- Window addresses are no matter of an operation outside whose footprint they lie. -/
theorem Keeps.winAddr {M : Nat} {s t : State} (h : Keeps M s t) (hM : M.testBit 0x2041 = false) (b : Blk) (m : Nat) :
    t.winAddr b m = s.winAddr b m := by
  rw [State.winAddr, State.winAddr, h.winAddrs hM]

/-- The master's copy of a block's window address moves on (R372). -/
def State.addrMoved (s : State) (b : Blk) (m : Master) : State :=
  s.setWinAddr b (masterCode m) (s.winAddr b (masterCode m) + 1)

theorem State.addrMoved_winAddr (s : State) (b : Blk) (m : Master) :
    (s.addrMoved b m).winAddr b (masterCode m) = (s.winAddr b (masterCode m) + 1) % 2 ^ winWidth b :=
  s.winAddr_setWinAddr_same ..

theorem State.addrMoved_winAddr_other (s : State) {b c : Blk} (m : Master) {k : Nat} (hk : k < 8)
    (h : c ≠ b ∨ k ≠ masterCode m) : (s.addrMoved b m).winAddr c k = s.winAddr c k :=
  s.winAddr_setWinAddr_other _ (masterCode_lt m) hk h

/-- Where the move ends rests on the window addresses alone. -/
theorem State.addrMoved_congr {s t : State} (h : t.winAddrs = s.winAddrs) (b : Blk) (m : Master) (c : Blk) (k : Nat) :
    (t.addrMoved b m).winAddr c k = (s.addrMoved b m).winAddr c k := by
  simp only [State.addrMoved, State.setWinAddr, State.winAddr, h]

/-! ### An access of _WIN_DATA -/

theorem blkOf_winData (b : Blk) : blkOf (blkBase b + 0xE1) = some b := by cases b <;> rfl

theorem winData_mod (b : Blk) : (blkBase b + 0xE1) % 0x100 = 0xE1 := by
  unfold blkBase
  omega

theorem State.writeAddr_winData (s : State) (b : Blk) (m : Master) :
    s.writeAddr m (blkBase b + 0xE1) = s.winAddr b (masterCode m) := by
  simp only [State.writeAddr, blkOf_winData, winData_mod, if_true]

theorem State.wrAlign_winData (s : State) (b : Blk) (v : Word) (wa : Nat) :
    s.wrAlign (blkBase b + 0xE1) v wa = s.winAlign b wa v := by
  simp only [State.wrAlign, blkOf_winData, winData_mod, if_true]

section
variable {b : Blk} (hw : winWidth b ≠ 0)
include hw

theorem State.bumpAddr_winData (s : State) (m : Master) : s.bumpAddr m (blkBase b + 0xE1) = s.addrMoved b m := by
  simp only [State.bumpAddr, blkOf_winData, winData_mod, hw, ne_eq, not_false_eq_true, and_self, if_true]
  rfl

/-- The part of a write that waits for no boundary is the write of the word (R48). -/
theorem State.applyPart_winData (s : State) (v : Word) (w : Writer) (wa : Nat) (later : Bool) :
    s.applyPart (blkBase b + 0xE1) v w wa ⟨true, later⟩ = if later then s.winWrite b wa v w else s := by
  have hflt : ¬ 0xF0 ≤ 0xE1 := by decide
  have haddr : ¬ 0xE1 = 0xE0 := by decide
  simp only [State.applyPart, blkOf_winData, winData_mod, hw, hflt, haddr, if_false, Nat.reduceLeDiff,
    if_true, true_and]

/-- A read uses and moves the copy of its master. -/
theorem State.readEffect_winData (s : State) (m : Master) :
    s.readEffect m (blkBase b + 0xE1) = (s.tableRead b (s.winAddr b (masterCode m))).addrMoved b m := by
  simp only [State.readEffect, blkOf_winData, winData_mod, hw, ne_eq, not_false_eq_true, and_self, if_true,
    State.addrMoved, (s.tableRead_keeps b _).winAddr (by decide +kernel)]

/-- A write uses the copy of its master, and what acts now is done before the copy moves. -/
theorem State.writeReg_winData (s : State) (m : Master) (v : Word) : ∃ acts : Bool,
    s.writeReg m (blkBase b + 0xE1) v =
      ((if acts then s.winWrite b (s.winAddr b (masterCode m)) v ⟨m, false⟩ else s).addrMoved b m).holdParts m
        (blkBase b + 0xE1) v (s.winAddr b (masterCode m)) := by
  refine ⟨decide (s.wrAlign (blkBase b + 0xE1) v (s.winAddr b (masterCode m)) = 1) ||
    notHeld (blkBase b + 0xE1) (s.winAddr b (masterCode m)), ?_⟩
  simp only [State.writeReg, s.writeAddr_winData, s.applyPart_winData hw, State.bumpAddr_winData hw]

/-- Nothing of a write that waits for a boundary touches a window address. -/
theorem State.writeReg_winAddr (s : State) (m : Master) (v : Word) (c : Blk) (k : Nat) :
    (s.writeReg m (blkBase b + 0xE1) v).winAddr c k = (s.addrMoved b m).winAddr c k := by
  obtain ⟨acts, hwrite⟩ := s.writeReg_winData hw m v
  rw [hwrite]
  refine State.addrMoved_congr ?_ b m c k
  split
  · exact (s.winWrite_keeps b _ v ⟨m, false⟩).winAddrs (by decide +kernel)
  · rfl

/-- A write of a word that waits for no boundary is done as it arrives; beside it only the window address moves. -/
theorem State.writeReg_winData_keeps {s : State} {m : Master} {v : Word} {a : Nat}
    (ha : s.winAddr b (masterCode m) = a) (halign : s.winAlign b a v = 1) :
    Keeps (foot [.winAddrs, .held]) (s.winWrite b a v ⟨m, false⟩) (s.writeReg m (blkBase b + 0xE1) v) := by
  have hwrite : s.writeReg m (blkBase b + 0xE1) v =
      ((s.winWrite b a v ⟨m, false⟩).addrMoved b m).holdParts m (blkBase b + 0xE1) v a := by
    simp only [State.writeReg, s.writeAddr_winData, s.wrAlign_winData, ha, halign, decide_true, Bool.true_or,
      s.applyPart_winData hw, if_true, State.bumpAddr_winData hw]
  rw [hwrite]
  exact (State.withHeld_keeps _ _).stepFoot (by simp)
    ((State.setWinAddr_keeps ..).mono (by decide +kernel))

theorem execWinDataAccess_read_of_powered {s : State} (hclk : s.tm.clk = true) (hpow : s.pin.fieldPower = true)
    (m : Master) : exec (.winDataAccess m b none) s =
      .next ((s.tableRead b (s.winAddr b (masterCode m))).addrMoved b m) :=
  congrArg Host.Outcome.next ((State.onBlock_of_powered hclk hpow b _).trans (s.readEffect_winData hw m))

end

theorem execWinDataAccess_write_of_powered {s : State} (hclk : s.tm.clk = true) (hpow : s.pin.fieldPower = true)
    (m : Master) (b : Blk) (v : Word) :
    exec (.winDataAccess m b (some v)) s = .next (s.writeReg m (blkBase b + 0xE1) v) :=
  congrArg Host.Outcome.next (State.onBlock_of_powered hclk hpow b _)

/-- An access, a read or a write, moves the copy of its master and no other. -/
theorem execWinDataAccess_winAddr {s t : State} {m : Master} {b : Blk} {wr : Option Word} (hclk : s.tm.clk = true)
    (hpow : s.pin.fieldPower = true) (hw : winWidth b ≠ 0) (h : exec (.winDataAccess m b wr) s = .next t) (c : Blk)
    (k : Nat) : t.winAddr c k = (s.addrMoved b m).winAddr c k := by
  cases wr with
  | none =>
    obtain rfl := Host.Outcome.next.inj ((execWinDataAccess_read_of_powered hw hclk hpow m).symm.trans h)
    exact State.addrMoved_congr ((s.tableRead_keeps b _).winAddrs (by decide +kernel)) b m c k
  | some v =>
    obtain rfl := Host.Outcome.next.inj ((execWinDataAccess_write_of_powered hclk hpow m b v).symm.trans h)
    exact s.writeReg_winAddr hw m v c k

/-! ### Words that a write stores -/

theorem State.nulWinWrite_primer {s : State} {a : Nat} (hlo : 0x1000 ≤ a) (hhi : a < 0x2000)
    (hbusy : s.bit NUL_PRIMER_CTRL_CAPTURE_BUSY = false) (v : W24) (w : Writer) :
    (s.nulWinWrite a v w).win .nul a = v := by
  simp only [State.nulWinWrite, hlo, hhi, and_self, if_true, hbusy, Bool.false_eq_true, if_false]
  exact s.win_setWin_same .nul a v

theorem State.engWinWrite_data {s : State} {e : Eng} {a : Nat} {m : Master} (hlo : 0x4400 ≤ a) (hhi : a < 0x4800)
    (hm : masterEng m ≠ some e) (v : W24) : (s.engWinWrite e a v m).win (engBlk e) a = v := by
  simp only [State.engWinWrite, hm, Nat.not_lt.2 hlo, hhi, if_true, if_false]
  exact s.win_setWin_same (engBlk e) a v

theorem State.varBankWrite_inactive {s : State} {a : Nat} (hbank : (if a < 0x4000 then 0 else 0x4000) ≠ s.varActive)
    (hbusy : s.bit VAR_CTRL_COPY_BUSY = false) (v : W24) (m : Master) :
    (s.varBankWrite a v m).winN .var a = if a % 8 = 7 then v.toNat % 4 else v.toNat := by
  simp only [State.varBankWrite, hbank, hbusy, Bool.false_eq_true, or_self, if_false]
  refine s.winN_setWinN_same .var a ?_
  have hv := v.isLt
  split <;> omega

/-- A word of the active bank is not stored, and WIN_REJECT shows it (R159). -/
theorem State.varBankWrite_active {s : State} {a : Nat} (hbank : (if a < 0x4000 then 0 else 0x4000) = s.varActive)
    (v : W24) (m : Master) : (s.varBankWrite a v m).win .var a = s.win .var a ∧
      (s.varBankWrite a v m).bit VAR_CTRL_WIN_REJECT = true := by
  simp only [State.varBankWrite, hbank, true_or, if_true]
  have hraise := (s.setBit VAR_CTRL_WIN_REJECT true).raiseWith_keeps .var 1 (winRaise m .var)
  exact ⟨hraise.win .var a (by decide +kernel), (State.bit_congr (hraise.fld (by decide +kernel))).trans
    (s.bit_setBit_same _ true (by decide) rfl)⟩

theorem State.winAlign_engine (s : State) (e : Eng) (a : Nat) (v : Word) : s.winAlign (engBlk e) a v = 1 := by
  cases e <;> rfl

/-- Settles O21: an access moves one copy of a window address, and a word that waits for no boundary is written as the
write arrives. -/
theorem windowAccessMovesTheMastersAddress : Obligations.WindowAccessMovesTheMastersAddress := by
  refine ⟨fun s m b wr hclk hpow hw => ?moves, fun s m v hclk hpow => ?words⟩
  case moves =>
    obtain ⟨t, hexec⟩ := exec_completes (.winDataAccess m b wr) s
    have haddr := execWinDataAccess_winAddr hclk hpow hw hexec
    exact ⟨t, hexec, execWinDataAccess_keeps m b wr s hexec, (haddr b _).trans (s.addrMoved_winAddr b m),
      fun c k hk h => (haddr c k).trans (s.addrMoved_winAddr_other m hk h)⟩
  case words =>
    have hexec := execWinDataAccess_write_of_powered hclk hpow m
    refine ⟨fun a ha hlo hhi hbusy => ⟨_, hexec .nul v, ?_⟩, fun e a ha hlo hhi hm => ⟨_, hexec (engBlk e) v, ?_⟩,
      fun a ha hlt => ⟨fun hbank hbusy => ⟨_, hexec .var v, ?_⟩, fun hbank => ⟨_, hexec .var v, ?_⟩⟩⟩
    · have halign : s.winAlign .nul a v = 1 := by
        have h1 : ¬ (0x3000 ≤ a ∧ a < 0x3440) := by omega
        have h2 : ¬ (0x10000 ≤ a ∧ a < 0x18800) := by omega
        simp only [State.winAlign, h1, h2, if_false]
      exact ((State.writeReg_winData_keeps (by decide) ha halign).win .nul a (by decide +kernel)).trans
        (State.nulWinWrite_primer hlo hhi hbusy ..)
    · refine ((State.writeReg_winData_keeps (by cases e <;> decide) ha (s.winAlign_engine e a v)).win (engBlk e) a
        (by cases e <;> decide +kernel)).trans ?_
      have hdata := State.engWinWrite_data (s := s) hlo hhi hm (BitVec.ofNat 24 v.toNat)
      cases e
      · exact hdata
      · exact hdata
    all_goals
      have halign : s.winAlign .var a v = 1 := if_neg (by omega)
      have hkeeps := State.writeReg_winData_keeps (b := .var) (by decide) ha halign
      have hwrite : s.winWrite .var a v ⟨m, false⟩ = s.varBankWrite a (BitVec.ofNat 24 v.toNat) m := if_pos hlt
      rw [hwrite] at hkeeps
    · refine (congrArg BitVec.toNat (hkeeps.win .var a (by decide +kernel))).trans
        ((State.varBankWrite_inactive hbank hbusy ..).trans ?_)
      rw [BitVec.toNat_ofNat, Nat.mod_mod_of_dvd _ (by decide)]
    · obtain ⟨hword, hreject⟩ := State.varBankWrite_active hbank (BitVec.ofNat 24 v.toNat) m
      exact ⟨(hkeeps.win .var a (by decide +kernel)).trans hword,
        (State.bit_congr (hkeeps.fld (by decide +kernel))).trans hreject⟩

end Sys2Proof.Machine

/-!
Slow-control reads (R286 to R289): what becomes of a frame, and that a read of a register leaves the replies alone that
wait for their covers.
-/
namespace Sys2Proof.Machine

set_option Elab.async false

/-! ### Replies that wait are no matter of a raise -/

theorem State.pushStatus_replies (s : State) (x : QItem) : (s.pushStatus x).1.lnk.replies = s.lnk.replies := by
  unfold State.pushStatus
  dsimp only
  split
  · rfl
  · exact (congrArg LnkSt.replies ((State.deadRecord_keeps _ _).lnk (by decide +kernel))).trans rfl

theorem State.raiseCore_replies (s : State) (b : Blk) (i : Nat) (r : RaiseInfo) :
    (s.raiseCore b i r).lnk.replies = s.lnk.replies :=
  congrArg LnkSt.replies ((s.raiseCore_keeps b i r).lnk (by decide +kernel))

/-- Of the links a raise touches the status queue alone (R294). -/
theorem State.raiseWith_replies (s : State) (b : Blk) (i : Nat) (r : RaiseInfo) :
    (s.raiseWith b i r).lnk.replies = s.lnk.replies := by
  have hqueue (t : State) (c : Blk) (j : Nat) (r : RaiseInfo) :
      ((t.raiseCore c j r).queueRaise c j r).1.lnk.replies = t.lnk.replies :=
    (State.pushStatus_replies ..).trans (t.raiseCore_replies c j r)
  unfold State.raiseWith
  extract_lets first s1 q
  split
  · split
    · exact (hqueue q.1 .lnk 2 _).trans (hqueue s b i r)
    · exact hqueue s b i r
  · exact s.raiseCore_replies b i r

/-! ### Nor of a read -/

theorem State.nulWordError_replies (s : State) (a : Nat) : (s.nulWordError a).lnk.replies = s.lnk.replies := by
  refine Eq.trans ?_ (s.raiseWith_replies .nul 6 { plainRaise .nul with addr := a })
  unfold State.nulWordError
  dsimp only
  split
  · rfl
  split
  · rfl
  split
  · rfl
  · rfl

theorem State.varWordError_replies (s : State) (a : Nat) : (s.varWordError a).lnk.replies = s.lnk.replies := by
  have hraise := s.raiseWith_replies .var 3 { plainRaise .var with addr := a }
  unfold State.varWordError
  dsimp only
  split
  · split
    · exact hraise
    · exact hraise
  split
  · exact (congrArg LnkSt.replies ((State.dropCopy_keeps ..).lnk (by decide +kernel))).trans hraise
  · rfl

theorem State.evtWordError_replies (s : State) (a : Nat) : (s.evtWordError a).lnk.replies = s.lnk.replies := by
  refine Eq.trans ?_ (s.raiseWith_replies .evt 1 { plainRaise .evt with addr := a % 65536 })
  unfold State.evtWordError
  dsimp only
  split
  · rfl
  · rfl

theorem State.wordLost_replies (s : State) (b : Blk) (a : Nat) : (s.wordLost b a).lnk.replies = s.lnk.replies := by
  cases b
  case nul => exact s.nulWordError_replies a
  case var => exact s.varWordError_replies a
  case evt => exact s.evtWordError_replies a
  case lnk | cou | bru | pal | col | cal => exact s.raiseWith_replies ..
  all_goals rfl

theorem State.tableError_replies (s : State) (b : Blk) (a : Nat) (single : Bool) :
    (s.tableError b a single).lnk.replies = s.lnk.replies := by
  unfold State.tableError State.wordMended
  split
  · split
    · exact s.raiseWith_replies ..
    · rfl
  · exact s.wordLost_replies b a

theorem State.tableRead_replies (s : State) (b : Blk) (a : Nat) : (s.tableRead b a).lnk.replies = s.lnk.replies := by
  unfold State.tableRead
  split
  · exact (State.tableError_replies ..).trans
      (congrArg LnkSt.replies ((s.injectDone_keeps b).lnk (by cases b <;> decide +kernel)))
  · rfl

/-- The side effects of a read leave the replies alone that wait for their covers (R289). -/
theorem State.readEffect_replies (s : State) (m : Master) (i : Nat) :
    (s.readEffect m i).lnk.replies = s.lnk.replies := by
  unfold State.readEffect
  split
  · rfl
  next b _ =>
    dsimp only
    split
    · exact s.tableRead_replies b _
    split
    · rfl
    split
    · exact congrArg LnkSt.replies ((s.hkConsume_keeps .a).lnk (by decide +kernel))
    split
    · exact congrArg LnkSt.replies ((s.hkConsume_keeps .b).lnk (by decide +kernel))
    split
    · rfl
    · rfl

/-! ### What becomes of a frame -/

/-- A damaged frame, or one that a POSTMARK_SET stands in the way of, is dropped (R286, R287). -/
theorem State.scServe_of_dropped {s : State} {f : ScFrame} (h : f.damaged = true ∨ s.scBlocked = true) :
    s.scServe f = s.inc LNK_SLOWCTL_STATUS_DROPPED := if_pos (Bool.or_eq_true_iff.2 h)

/-- A frame for this node that asks for something: a reserved OP is turned away before a wrong frame position, and the
rest is its die's (R286 to R288). -/
theorem State.scServe_of_taken {s : State} {f : ScFrame} (hdam : f.damaged = false) (hblk : s.scBlocked = false)
    (hnode : reqFld f 155 148 = s.fld LNK_NODE_ADDRESS_NODE) (hen : s.bit LNK_CTRL_SC_EN = true)
    (hop : reqFld f 159 156 ≠ 0) :
    s.scServe f =
      if 4 ≤ reqFld f 159 156 then
        s.scAsk.scReply f.posB s.tm.tick 11 (reqFld f 147 144) (reqFld f 143 128) 0
      else if namesField f != f.posB then
        s.scAsk.scReply f.posB s.tm.tick 8 (reqFld f 147 144) (reqFld f 143 128) 0
      else if namesField f then s.scAsk.scField (reqFld f 159 156) (reqFld f 147 144) (reqFld f 143 128)
        (BitVec.ofNat 32 (reqFld f 127 96)) (BitVec.ofNat 48 (reqFld f 95 48))
      else s.scAsk.scHost (reqFld f 159 156) (reqFld f 147 144) (reqFld f 143 128)
        (BitVec.ofNat 32 (reqFld f 127 96)) (BitVec.ofNat 48 (reqFld f 95 48)) := by
  simp only [State.scServe, hdam, hblk, hnode, hen, hop, Bool.or_self, Bool.false_eq_true, Bool.true_eq_false, ne_eq,
    not_true_eq_false, or_self, if_false]
  rfl

theorem execSlowctlRead_of_clk {s : State} {f : ScFrame} (hclk : s.tm.clk = true) (h2 : reqFld f 159 156 ≠ 2)
    (h3 : reqFld f 159 156 ≠ 3) : exec (.slowctlRead f) s = .next (s.scServe f) := by
  show Host.Outcome.next _ = _
  simp only [State.onTick, hclk, h2, h3, or_self, if_true, if_false]

/-- A reply waits behind the others for its cover (R289). -/
theorem State.scReply_replies (s : State) (second : Bool) (done status tag idx : Nat) (v : Word) :
    (s.scReply second done status tag idx v).lnk.replies =
      s.lnk.replies ++ [⟨second, done + (if second then 96 else 64), replyBits status tag idx v⟩] := (rfl)

/-- A reply to a request of which Courier has been asked. -/
theorem State.scAsk_scReply_replies (s : State) (second : Bool) (status tag idx : Nat) (v : Word) :
    (s.scAsk.scReply second s.tm.tick status tag idx v).lnk.replies =
      s.lnk.replies ++ [⟨second, s.tm.tick + (if second then 96 else 64), replyBits status tag idx v⟩] := by
  rw [State.scReply_replies, s.scAsk_lnk.2]

/-- A read on the host die is answered with what the index shows (R288). -/
theorem State.scHost_read_replies (s : State) (tag idx : Nat) (v : Word) (pm : PM) :
    (s.scHost 1 tag idx v pm).lnk.replies =
      s.lnk.replies ++ [⟨false, s.tm.tick + 64, replyBits 1 tag idx (s.shown .slow idx)⟩] := by
  show (s.readEffect .slow idx).lnk.replies ++ _ = _
  rw [State.readEffect_replies]
  rfl

theorem State.scField_of_barDown {s : State} (h : s.barUp = false) (op tag idx : Nat) (v : Word) (pm : PM) :
    s.scField op tag idx v pm = s.scReply true s.tm.tick 10 tag idx 0 := by
  simp [State.scField, h]

/-- Settles O15: a frame is dropped, turned away, or its die's; each reply goes behind those that wait. -/
theorem slowControlFramesAreServed : Obligations.SlowControlFramesAreServed := by
  intro s f hclk h2 h3
  have hexec := execSlowctlRead_of_clk hclk h2 h3
  refine ⟨fun hdrop => ?dropped, fun hdam hblk hnode hen hop => ?taken⟩
  case dropped =>
    rw [State.scServe_of_dropped hdrop] at hexec
    exact ⟨_, hexec, s.setReg_keeps_reg _ _, s.fld_count_same 1 (by decide)⟩
  case taken =>
    have hserve := State.scServe_of_taken hdam hblk hnode hen hop
    refine ⟨_, hexec, execSlowctlRead_keeps f s hexec, fun h4 => ?_, fun h1 hpos => ?_, fun h1 hf hpos => ?_,
      fun h1 hf hpos => ?_⟩
    · rw [hserve, if_pos h4, State.scAsk_scReply_replies]
    · have hlow : ¬ 4 ≤ reqFld f 159 156 := by omega
      have hwrong : (namesField f != f.posB) = true := bne_iff_ne.2 hpos
      rw [hserve, if_neg hlow, if_pos hwrong, State.scAsk_scReply_replies]
    all_goals
      have hlow : ¬ 4 ≤ reqFld f 159 156 := by omega
      have hfield : namesField f = f.posB := hf.trans hpos.symm
      rw [hserve, if_neg hlow, if_neg (by simp [hfield]), hfield, hpos, h1]
    · rw [if_neg Bool.false_ne_true, State.scHost_read_replies, s.scAsk_lnk.2, State.scAsk_tm]
      rfl
    · rw [if_pos rfl]
      refine ⟨fun hdown => ?_, fun hup => ?_⟩
      · rw [State.scField_of_barDown (s.scAsk_barUp.trans hdown), State.scAsk_tm, State.scAsk_scReply_replies]
      · obtain ⟨hwait, hreplies⟩ := State.scField_of_barUp (s.scAsk_barUp.trans hup) 1 (reqFld f 147 144)
          (reqFld f 143 128) (BitVec.ofNat 32 (reqFld f 127 96)) (BitVec.ofNat 48 (reqFld f 95 48))
        rw [s.scAsk_lnk.1, State.scAsk_tm] at hwait
        exact ⟨hreplies.trans s.scAsk_lnk.2, hwait⟩

end Sys2Proof.Machine

/-!
Reads over the management port (R307 to R309, R313): how a frame begins, how a value fills the pair hold and empties it
again, and what RD_LO, RD_HI, RD and RDN leave.
-/
namespace Sys2Proof.Machine

set_option Elab.async false

/-! ### A frame begins (R308) -/

/-- The port as a frame finds it: nothing is broken, nothing waits, nothing has been sent. -/
def State.mgtBegun (s : State) : State := { s with mgt := { s.mgt with abort := false, wait := none, out := [] } }

section
variable {s : State} (h : s.mgt.abort = false)
include h

/-- With no broken half-word to report, a frame is counted and no more. -/
theorem State.mgtFrame_eq :
    s.mgtFrame = s.mgtBegun.setFld MGT_STATUS_TRANSACTIONS (s.fld MGT_STATUS_TRANSACTIONS + 1) := by
  simp only [State.mgtFrame, h, Bool.false_eq_true, if_false]
  rfl

theorem State.mgtFrame_keeps_status : Keeps (foot [.reg MGT_STATUS, .mgt]) s s.mgtFrame := by
  rw [State.mgtFrame_eq h]
  exact (State.setReg_keeps_reg ..).stepFoot (by simp [MGT_STATUS_TRANSACTIONS]) (Keeps.upd (Keeps.refl ..))

theorem State.mgtFrame_mgt : s.mgtFrame.mgt = { s.mgt with abort := false, wait := none, out := [] } := by
  rw [State.mgtFrame_eq h]
  rfl

theorem State.mgtFrame_transactions :
    s.mgtFrame.fld MGT_STATUS_TRANSACTIONS = (s.fld MGT_STATUS_TRANSACTIONS + 1) % 2 ^ 16 := by
  rw [State.mgtFrame_eq h]
  exact State.fld_setFld_same _ _ _ (by decide)

theorem State.mgtFrame_fld {f : Fld} (hf : apart MGT_STATUS_TRANSACTIONS f) : s.mgtFrame.fld f = s.fld f := by
  rw [State.mgtFrame_eq h]
  exact State.fld_setFld_other _ _ (by decide) hf

end

/-! ### The pair hold (R309) -/

/-- The low half of a value leaves, and its high half fills the pair hold. -/
def State.pairHeld (s : State) (i : Nat) (v : Word) : State :=
  (((s.mgtSend (v.toNat % 2 ^ 16)).setFld MGT_PAIR_HOLD_INDEX i).setFld MGT_PAIR_HOLD_HIGH (v.toNat / 2 ^ 16)).setBit
    MGT_STATUS_HOLD_VALID true

/-- The high half of the hold leaves, and the hold is taken. -/
def State.pairTaken (s : State) : State := (s.mgtSend (s.fld MGT_PAIR_HOLD_HIGH)).setBit MGT_STATUS_HOLD_VALID false

/-- A field that neither half of a pair touches. -/
abbrev besideHold (f : Fld) : Prop := apart MGT_STATUS_HOLD_VALID f ∧ f.reg ≠ MGT_PAIR_HOLD

section
variable (s : State)

theorem State.mgtSend_fld (h : Nat) (f : Fld) : (s.mgtSend h).fld f = s.fld f := (rfl)

theorem State.pairTaken_fld {f : Fld} (hf : apart MGT_STATUS_HOLD_VALID f) : s.pairTaken.fld f = s.fld f :=
  State.fld_setBit_other _ _ (by decide) hf

theorem State.pairTaken_valid : s.pairTaken.bit MGT_STATUS_HOLD_VALID = false :=
  State.bit_setBit_same _ _ false (by decide) rfl

theorem State.pairTaken_out : s.pairTaken.mgt.out = s.mgt.out ++ [BitVec.ofNat 16 (s.fld MGT_PAIR_HOLD_HIGH)] := (rfl)

theorem State.pairTaken_keeps : Keeps (foot [.reg MGT_STATUS, .mgt]) s s.pairTaken :=
  (State.setReg_keeps_reg ..).stepFoot (by simp [MGT_STATUS_HOLD_VALID]) ((s.mgtSend_keeps _).monoFoot (by simp))

variable (i : Nat) (v : Word)

theorem State.pairHeld_fld {f : Fld} (hf : besideHold f) : (s.pairHeld i v).fld f = s.fld f := by
  obtain ⟨hvalid, hhold⟩ := hf
  rw [State.pairHeld, State.fld_setBit_other _ _ (by decide) hvalid,
    State.fld_setFld_other _ _ (by decide) (.inl hhold.symm), State.fld_setFld_other _ _ (by decide) (.inl hhold.symm),
    State.mgtSend_fld]

theorem State.pairHeld_valid : (s.pairHeld i v).bit MGT_STATUS_HOLD_VALID = true :=
  State.bit_setBit_same _ _ true (by decide) rfl

theorem highHalf_lt (v : Word) : v.toNat / 2 ^ 16 < 2 ^ 16 := by
  have := v.isLt
  omega

theorem State.pairHeld_high : (s.pairHeld i v).fld MGT_PAIR_HOLD_HIGH = v.toNat / 2 ^ 16 := by
  rw [State.pairHeld, State.fld_setBit_other _ _ (by decide) (by decide), State.fld_setFld_same _ _ _ (by decide)]
  exact Nat.mod_eq_of_lt (highHalf_lt v)

theorem State.pairHeld_index {i : Nat} (hi : i < 2 ^ 16) : (s.pairHeld i v).fld MGT_PAIR_HOLD_INDEX = i := by
  rw [State.pairHeld, State.fld_setBit_other _ _ (by decide) (by decide),
    State.fld_setFld_other _ _ (by decide) (by decide), State.fld_setFld_same _ _ _ (by decide)]
  exact Nat.mod_eq_of_lt hi

theorem State.pairHeld_out : (s.pairHeld i v).mgt.out = s.mgt.out ++ [BitVec.ofNat 16 (v.toNat % 2 ^ 16)] := (rfl)

theorem State.pairHeld_keeps : Keeps (foot [.reg MGT_STATUS, .reg MGT_PAIR_HOLD, .mgt]) s (s.pairHeld i v) :=
  (State.setReg_keeps_reg ..).stepFoot (by simp [MGT_STATUS_HOLD_VALID]) <|
    (State.setReg_keeps_reg ..).stepFoot (by simp [MGT_PAIR_HOLD_HIGH]) <|
      (State.setReg_keeps_reg ..).stepFoot (by simp [MGT_PAIR_HOLD_INDEX]) ((s.mgtSend_keeps _).monoFoot (by simp))

end

/-- The value is sent n times, each time through the pair hold. -/
def State.pairsSent (s : State) (i : Nat) (v : Word) (n : Nat) : State := (fun t => (t.pairHeld i v).pairTaken)^[n] s

theorem State.pairsSent_succ (s : State) (i : Nat) (v : Word) (n : Nat) :
    s.pairsSent i v (n + 1) = (s.pairHeld i v).pairTaken.pairsSent i v n :=
  Function.iterate_succ_apply ..

theorem State.pairsSent_one (s : State) (i : Nat) (v : Word) : s.pairsSent i v 1 = (s.pairHeld i v).pairTaken :=
  s.pairsSent_succ i v 0

/-! ### A value reaches the port (R309) -/

theorem State.mgtHigh_of_held {s : State} {i : Nat} (hvalid : s.bit MGT_STATUS_HOLD_VALID = true)
    (hidx : s.fld MGT_PAIR_HOLD_INDEX = i) (live : Word) : s.mgtHigh i live = s.pairTaken := if_pos ⟨hvalid, hidx⟩

section
variable (s : State) {r : MgtRead} (v : Word) (hlow : r.high = false) (hidx : r.idx ≠ MGT_PAIR_HOLD)
include hlow hidx

theorem State.mgtPut_half (hfull : r.full = false) : s.mgtPut r v = s.pairHeld r.idx v := by
  simp only [State.mgtPut, hlow, hfull, hidx, Bool.false_eq_true, if_false]
  rfl

/-- A full read fills the hold and takes it at once. -/
theorem State.mgtPut_full (hfull : r.full = true) (hlt : r.idx < 2 ^ 16) :
    s.mgtPut r v = (s.pairHeld r.idx v).pairTaken := by
  refine Eq.trans ?_ (State.mgtHigh_of_held (s.pairHeld_valid _ v) (s.pairHeld_index v hlt) v)
  simp only [State.mgtPut, hlow, hfull, hidx, Bool.false_eq_true, if_false, if_true]
  rfl

end

/-! ### Registers 0 to 2, which the port serves with and without the tick clock (Table 14-3) -/

theorem State.mgtTarget_low (s : State) {i : Nat} (hi : i ≤ 2) : s.mgtTarget i = i :=
  if_neg fun h => absurd (h.1 ▸ hi) (by decide)

/-- What such a register shows is no matter of the port's own state. -/
theorem Keeps.mgtShown {s t : State} (h : Keeps (foot [.reg MGT_STATUS, .reg MGT_PAIR_HOLD, .mgt]) s t) {i : Nat}
    (hi : i ≤ 2) : t.mgtShown i = s.mgtShown i := by
  have hreg : t.reg GLB_STATE = s.reg GLB_STATE := h.reg _ (by decide +kernel)
  have hclk := congrArg TimeSt.clk (h.tm (by decide +kernel))
  obtain rfl | rfl | rfl : i = 0 ∨ i = 1 ∨ i = 2 := by omega
  · rw [State.mgtShown_glbId, State.mgtShown_glbId]
  · rfl
  · have hshown : t.shown .mgt GLB_STATE = s.shown .mgt GLB_STATE := hreg
    have hglb : t.glb = s.glb := congrArg (fldGet GLB_STATE_STATE) hreg
    show t.mgtShown GLB_STATE = s.mgtShown GLB_STATE
    simp only [State.mgtShown, hclk, hglb, hreg, hshown]

/-- Such a read is served at once. -/
theorem State.mgtServe_low (s : State) {r : MgtRead} (hidx : r.idx ≤ 2) (htgt : r.tgt = r.idx) :
    s.mgtServe r = some (s.mgtPut r (s.mgtShown r.idx)) := by
  have hbulk : r.idx ≠ MGT_BULK_DATA := fun h => absurd (h ▸ hidx) (by decide)
  have hlocal : mgtLocal r.idx = true := by simp [mgtLocal, hidx]
  simp [State.mgtServe, State.mgtDone, hbulk, htgt, hlocal]

section
variable {r : MgtRead} (hidx : r.idx ≤ 2) (hlow : r.high = false)
include hidx hlow

theorem State.mgtRun_half (s : State) (hfull : r.full = false) :
    s.mgtRun 0 r = s.pairHeld r.idx (s.mgtShown r.idx) := by
  rw [State.mgtRun_zero_of_served (s.mgtServe_low (by exact hidx) (s.mgtTarget_low hidx))]
  exact State.mgtPut_half _ _ hlow (fun h => absurd (h ▸ hidx) (by decide)) hfull

/-- Each pair of a run shows the same value, for the port's own state is no matter of it. -/
theorem State.mgtRun_full (hfull : r.full = true) (n : Nat) (s : State) :
    s.mgtRun n r = s.pairsSent r.idx (s.mgtShown r.idx) (n + 1) := by
  have hput (t : State) (k : Nat) : t.mgtServe { r with
      tgt := t.mgtTarget r.idx, left := k, done := t.tm.tick, sent := false } =
        some (t.pairHeld r.idx (t.mgtShown r.idx)).pairTaken := by
    rw [t.mgtServe_low (by exact hidx) (t.mgtTarget_low hidx)]
    exact congrArg some (State.mgtPut_full _ _ hlow (fun h => absurd (h ▸ hidx) (by decide)) hfull
      (Nat.lt_of_le_of_lt hidx (by decide)))
  induction n generalizing s with
  | zero => exact State.mgtRun_zero_of_served (hput s 0)
  | succ k ih =>
    have hkeeps := (State.pairTaken_keeps _).stepFoot (by simp) (s.pairHeld_keeps r.idx (s.mgtShown r.idx))
    rw [State.mgtRun_succ_of_served (hput s (k + 1)), ih, hkeeps.mgtShown hidx, s.pairsSent_succ]

end

section
variable (s : State) (i : Nat) (v : Word) (n : Nat)

theorem State.pairsSent_keeps : Keeps (foot [.reg MGT_STATUS, .reg MGT_PAIR_HOLD, .mgt]) s (s.pairsSent i v n) := by
  induction n generalizing s with
  | zero => exact Keeps.refl ..
  | succ k ih =>
    rw [State.pairsSent_succ]
    exact ((State.pairTaken_keeps _).stepFoot (by simp) (s.pairHeld_keeps i v)).trans (ih _)

theorem State.pairsSent_fld {f : Fld} (hf : besideHold f) : (s.pairsSent i v n).fld f = s.fld f := by
  induction n generalizing s with
  | zero => rfl
  | succ k ih => rw [State.pairsSent_succ, ih, State.pairTaken_fld _ hf.1, State.pairHeld_fld _ _ _ hf]

theorem State.pairsSent_out : (s.pairsSent i v n).mgt.out = s.mgt.out ++ (List.replicate n
    [BitVec.ofNat 16 (v.toNat % 2 ^ 16), BitVec.ofNat 16 (v.toNat / 2 ^ 16)]).flatten := by
  induction n generalizing s with
  | zero => simp [State.pairsSent]
  | succ k ih =>
    rw [State.pairsSent_succ, ih, State.pairTaken_out, State.pairHeld_out, State.pairHeld_high, List.replicate_succ,
      List.flatten_cons]
    simp

end

/-! ### The frames -/

section
variable {s : State} (h : s.mgt.abort = false)
include h

/-- RD and RDN begin as every frame and send what the register shows. -/
theorem State.mgtRd_low {i : Nat} (hi : i ≤ 2) (n : Nat) : s.mgtRd i n = s.mgtFrame.pairsSent i (s.mgtShown i) n := by
  have hshown := ((State.mgtFrame_keeps_status h).monoFoot (by simp)).mgtShown hi
  cases n with
  | zero => rfl
  | succ k => rw [State.mgtRd, State.mgtRun_full (by exact hi) rfl rfl, hshown]

theorem State.mgtRdLo_low {i : Nat} (hi : i ≤ 2) : s.mgtRdLo i = s.mgtFrame.pairHeld i (s.mgtShown i) := by
  have hshown := ((State.mgtFrame_keeps_status h).monoFoot (by simp)).mgtShown hi
  rw [State.mgtRdLo, State.mgtRun_half (by exact hi) rfl _ rfl, hshown]

theorem State.mgtRdHi_of_held {i : Nat} (hvalid : s.bit MGT_STATUS_HOLD_VALID = true)
    (hidx : s.fld MGT_PAIR_HOLD_INDEX = i) : s.mgtRdHi i = s.mgtFrame.pairTaken := by
  have hvalid' := (State.bit_congr (State.mgtFrame_fld h (by decide))).trans hvalid
  have hidx' := (State.mgtFrame_fld h (f := MGT_PAIR_HOLD_INDEX) (by decide)).trans hidx
  exact (if_pos ⟨hvalid', hidx'⟩).trans (State.mgtHigh_of_held hvalid' hidx' 0)

end

/-- Settles O23: a low half fills the pair hold, a high half takes it, and a whole read does both for each pair. -/
theorem managementReadsSendTheirHalves : Obligations.ManagementReadsSendTheirHalves := by
  intro s i h
  have hframe := State.mgtFrame_keeps_status h
  have hpart := hframe.monoFoot (qs := [.reg MGT_STATUS, .reg MGT_PAIR_HOLD, .mgt]) (by simp)
  have htrans := State.mgtFrame_transactions h
  have hout : s.mgtFrame.mgt.out = [] := State.mgtFrame_out h
  refine ⟨fun hi => ?low, fun hvalid hidx => ?held⟩
  case low =>
    intro lo high
    have hhigh : high.toNat = (s.mgtShown i.toNat).toNat / 2 ^ 16 := BitVec.toNat_ofNat _ _ ▸
      Nat.mod_eq_of_lt (highHalf_lt _)
    refine ⟨?half, ?whole, fun n => ?pairs⟩
    case half =>
      refine ⟨_, congrArg Host.Outcome.next (State.mgtRdLo_low h hi), hpart.trans (State.pairHeld_keeps ..), ?_,
        State.pairHeld_index _ _ i.isLt, (State.pairHeld_high ..).trans hhigh.symm, State.pairHeld_valid ..,
        (State.pairHeld_fld _ _ _ (by decide)).trans htrans⟩
      rw [State.pairHeld_out, hout, List.nil_append]
    case whole =>
      have hexec : exec (.rd i) s = .next (s.mgtFrame.pairHeld i.toNat (s.mgtShown i.toNat)).pairTaken :=
        congrArg Host.Outcome.next ((State.mgtRd_low h hi 1).trans (State.pairsSent_one ..))
      refine ⟨_, hexec, ((State.pairTaken_keeps _).stepFoot (by simp) (hpart.trans (State.pairHeld_keeps ..))), ?_, ?_,
        ?_, State.pairTaken_valid _, ?_⟩
      · rw [State.pairTaken_out, State.pairHeld_out, State.pairHeld_high, hout]
        rfl
      · exact (State.pairTaken_fld _ (by decide)).trans (State.pairHeld_index _ _ i.isLt)
      · exact (State.pairTaken_fld _ (by decide)).trans ((State.pairHeld_high ..).trans hhigh.symm)
      · exact (State.pairTaken_fld _ (by decide)).trans ((State.pairHeld_fld _ _ _ (by decide)).trans htrans)
    case pairs =>
      refine ⟨_, congrArg Host.Outcome.next (State.mgtRd_low h hi n), hpart.trans (State.pairsSent_keeps ..), ?_,
        (State.pairsSent_fld _ _ _ n (by decide)).trans htrans⟩
      rw [State.pairsSent_out, hout, List.nil_append]
  case held =>
    refine ⟨_, congrArg Host.Outcome.next (State.mgtRdHi_of_held h hvalid hidx),
      hframe.trans (State.pairTaken_keeps _), ?_, State.pairTaken_valid _,
      (State.pairTaken_fld _ (by decide)).trans htrans⟩
    rw [State.pairTaken_out, hout, State.mgtFrame_fld h (by decide), List.nil_append]

end Sys2Proof.Machine

/-!
The management port's limits (R307, R308, R311 to R313): undefined commands, broken half-words, the write buffer, and
reads that end without their value.
-/
namespace Sys2Proof.Machine

set_option Elab.async false

/-! ### Undefined commands (R307) -/

theorem State.mgtBad_of_known (s : State) {c : Nat} (h : c ∈ mgtCommands) : s.mgtBad c = s :=
  if_pos (List.contains_iff_mem.2 h)

theorem State.mgtBad_of_unknown (s : State) {c : Nat} (h : c ∉ mgtCommands) :
    s.mgtBad c = (s.mgtFrame.setBit MGT_STATUS_BAD_CMD true).mgtRaise 2 :=
  if_neg fun hc => h (List.contains_iff_mem.1 hc)

/-- The registers of the port are no matter of a raise of its block. -/
theorem State.mgtRaise_fld (s : State) (n : Nat) {f : Fld} (hf : f.reg ∈ indices 0x400 7) :
    (s.mgtRaise n).fld f = s.fld f := by
  have h : ∀ i ∈ indices 0x400 7, (foot [.reg GLB_DETERMINISM, .reg LNK_DEADLETTER_COUNT, .reg (ENG_STATUS 0x600),
      .reg (ENG_STATUS 0x1B00), .flt, .win .lnk, .recTick, .bar, .faults, .cou, .bru, .lnk, .free, .srcs]).testBit
        (regPart i) = false := by decide +kernel
  exact (s.mgtRaise_keeps n).fld (h _ hf)

@[simp] theorem State.mgtRaise_mgt (s : State) (n : Nat) : (s.mgtRaise n).mgt = s.mgt :=
  (s.mgtRaise_keeps n).mgt (by decide +kernel)

/-! ### The write buffer (R311) -/

/-- A write has left the buffer, and the next one waits for the next tick. -/
def State.bufferPassed (s : State) (rest : List MgtWr) : State :=
  { s with mgt := { s.mgt with buf := rest, next := s.tm.tick + 1 } }

theorem State.bufferPassed_keeps (s : State) (rest : List MgtWr) : Keeps (foot [.mgt]) s (s.bufferPassed rest) :=
  Keeps.upd (Keeps.refl ..)

theorem State.bufferPassed_reg (s : State) (rest : List MgtWr) (i : Nat) :
    (s.bufferPassed rest).reg i = s.reg i := (rfl)

theorem State.mgtDrain_of_due {s : State} {w : MgtWr} {rest : List MgtWr} (hbuf : s.mgt.buf = w :: rest)
    (hclk : s.tm.clk = true) (hnext : s.mgt.next ≤ s.tm.tick) : s.mgtDrain = (s.bufferPassed rest).mgtApply w := by
  simp only [State.mgtDrain, hbuf, hclk, hnext, decide_true, Bool.and_self, if_true]
  rfl

/-- An unlaunched write of a plain host register is its store. -/
theorem State.mgtApply_instantRegs (s : State) {w : MgtWr} (hi : w.idx ∈ instantRegs) (hlt : w.idx < 0x1000)
    (hl : w.launch = none) : s.mgtApply w = s.plainWrite w.idx w.val ⟨.mgt, false⟩ ⟨true, true⟩ false := by
  obtain ⟨b, hb, -, -⟩ := instantRegs_storesOnly hi
  have hfield : mgtField w.idx = false := by
    unfold mgtField
    rw [decide_eq_false (by omega), Bool.false_and]
  simp only [State.mgtApply, hb, Option.isNone_some, hfield, hl, Bool.false_eq_true, if_false,
    s.writeReg_instantRegs hi]

section
variable {s : State} {w : MgtWr} {rest : List MgtWr} (hi : w.idx ∈ instantRegs) (hlt : w.idx < 0x1000)
  (hl : w.launch = none)
include hi hlt hl

theorem State.bufferPassed_mgtApply_keeps :
    Keeps (foot [.reg w.idx, .mgt]) s ((s.bufferPassed rest).mgtApply w) := by
  rw [State.mgtApply_instantRegs _ hi hlt hl]
  exact (State.plainWrite_keeps_reg ..).stepFoot (by simp) ((s.bufferPassed_keeps rest).monoFoot (by simp))

theorem State.bufferPassed_mgtApply_mgt :
    ((s.bufferPassed rest).mgtApply w).mgt = { s.mgt with buf := rest, next := s.tm.tick + 1 } := by
  rw [State.mgtApply_instantRegs _ hi hlt hl]
  refine ((s.bufferPassed rest).plainWrite_keeps_reg w.idx w.val _ _).mgt ?_
  rw [testBit_foot_reg_cons _ _ (by decide)]
  decide +kernel

theorem State.bufferPassed_mgtApply_bit {j : Nat} (hj : j < 32) :
    (((s.bufferPassed rest).mgtApply w).reg w.idx).getLsbD j = s.bitWritten w.idx w.val j := by
  rw [State.mgtApply_instantRegs _ hi hlt hl, State.plainWrite_bit _ _ _ _ hj]
  exact State.bitWritten_congr (s.bufferPassed_reg rest _) ..

end

/-! ### Reads that end without their value (R312, R313) -/

/-- Nothing waits any more. -/
def State.portIdle (s : State) : State := { s with mgt := { s.mgt with wait := none } }

theorem State.portIdle_fld (s : State) (f : Fld) : s.portIdle.fld f = s.fld f := (rfl)

/-- A read that got no value leaves FFFF and holds FFFF as its high half. -/
def State.readsOnes (s : State) (i : Nat) : State := s.portIdle.pairHeld i (BitVec.allOnes 32)

/-- A low-half read of a plain register, with no pair after it: the wait is over and the pair hold takes the value. -/
theorem State.mgtValue_ones (s : State) {r : MgtRead} (hhold : r.idx ≠ MGT_PAIR_HOLD) (hbulk : r.idx ≠ MGT_BULK_DATA)
    (hlow : r.high = false) (hfull : r.full = false) (hleft : r.left = 0) :
    s.mgtValue r (BitVec.allOnes 32) = s.readsOnes r.idx := by
  simp only [State.mgtValue, State.mgtDone, hbulk, false_and, if_false, hleft]
  exact State.mgtPut_half _ _ hlow hhold hfull

section
variable (s : State) (i : Nat)

theorem State.readsOnes_keeps : Keeps (foot [.reg MGT_STATUS, .reg MGT_PAIR_HOLD, .mgt]) s (s.readsOnes i) :=
  have hover : Keeps (foot [.reg MGT_STATUS, .reg MGT_PAIR_HOLD, .mgt]) s s.portIdle := Keeps.upd (Keeps.refl ..)
  hover.trans (State.pairHeld_keeps ..)

theorem State.readsOnes_fld {f : Fld} (hf : besideHold f) : (s.readsOnes i).fld f = s.fld f :=
  (State.pairHeld_fld _ i _ hf).trans (s.portIdle_fld f)

theorem State.readsOnes_wait : (s.readsOnes i).mgt.wait = none := (rfl)

theorem State.readsOnes_out : (s.readsOnes i).mgt.out = s.mgt.out ++ [0xFFFF] := (rfl)

theorem State.readsOnes_hold (hi : i < 2 ^ 16) : (s.readsOnes i).fld MGT_PAIR_HOLD_INDEX = i ∧
    (s.readsOnes i).fld MGT_PAIR_HOLD_HIGH = 0xFFFF ∧ (s.readsOnes i).bit MGT_STATUS_HOLD_VALID = true :=
  ⟨State.pairHeld_index _ _ hi, (State.pairHeld_high ..).trans (by decide), State.pairHeld_valid ..⟩

end

/-- No REPLY in time shows, is counted and raises source 1 (R312). -/
def State.replyMissed (s : State) : State :=
  ((s.setBit MGT_STATUS_TIMEOUT true).inc MGT_TIMEOUT_COUNT_REPLY).mgtRaise 1

theorem State.replyMissed_shows (s : State) : s.replyMissed.bit MGT_STATUS_TIMEOUT = true ∧
    s.replyMissed.fld MGT_TIMEOUT_COUNT_REPLY = min (s.fld MGT_TIMEOUT_COUNT_REPLY + 1) (2 ^ 16 - 1) ∧
    s.replyMissed.mgt = s.mgt := by
  refine ⟨?_, ?_, ?_⟩
  · refine Eq.trans (State.bit_congr ?_) (s.bit_setBit_same MGT_STATUS_TIMEOUT true (by decide) rfl)
    rw [State.replyMissed, State.mgtRaise_fld _ 1 (by decide), State.fld_inc_other _ (by decide) (by decide)]
  · have hlen : MGT_TIMEOUT_COUNT_REPLY.len = 16 := rfl
    rw [State.replyMissed, State.mgtRaise_fld _ 1 (by decide), State.inc, State.fld_count_same _ 1 (by decide),
      State.fld_setBit_other _ _ (by decide) (by decide), hlen]
  · rw [State.replyMissed, State.mgtRaise_mgt, State.inc_mgt, State.setBit_mgt]

/-- The port holds the tick clock absent (R313). -/
def State.clockAbsent (s : State) : State := s.setBit MGT_STATUS_CLK false

/-- A read that waits for the absent tick clock shows and is counted (R313). -/
def State.clockMissed (s : State) : State :=
  (s.clockAbsent.setBit MGT_STATUS_NOCLK true).inc MGT_TIMEOUT_COUNT_NOCLK

theorem State.clockMissed_shows (s : State) : s.clockMissed.bit MGT_STATUS_CLK = false ∧
    s.clockMissed.bit MGT_STATUS_NOCLK = true ∧
    s.clockMissed.fld MGT_TIMEOUT_COUNT_NOCLK = min (s.fld MGT_TIMEOUT_COUNT_NOCLK + 1) (2 ^ 16 - 1) ∧
    s.clockMissed.mgt = s.mgt := by
  have hinc (t : State) {f : Fld} (hf : apart MGT_TIMEOUT_COUNT_NOCLK f) :
      (t.inc MGT_TIMEOUT_COUNT_NOCLK).bit f = t.bit f := State.bit_congr (t.fld_inc_other (by decide) hf)
  refine ⟨?_, ?_, ?_, ?_⟩
  · exact (hinc _ (by decide)).trans ((State.bit_setBit_other _ true (by decide) (by decide)).trans
      (s.bit_setBit_same _ false (by decide) rfl))
  · exact (hinc _ (by decide)).trans (State.bit_setBit_same _ _ true (by decide) rfl)
  · have hlen : MGT_TIMEOUT_COUNT_NOCLK.len = 16 := rfl
    rw [State.clockMissed, State.inc, State.fld_count_same _ 1 (by decide),
      State.fld_setBit_other _ _ (by decide) (by decide), State.clockAbsent,
      State.fld_setBit_other _ _ (by decide) (by decide), hlen]
  · rw [State.clockMissed, State.inc_mgt, State.setBit_mgt, State.clockAbsent, State.setBit_mgt]

theorem State.clockMissed_keeps (s : State) :
    Keeps (foot [.reg MGT_STATUS, .reg MGT_TIMEOUT_COUNT, .reg MGT_PAIR_HOLD, .mgt]) s s.clockMissed :=
  (State.setReg_keeps_reg ..).stepFoot (by simp [MGT_TIMEOUT_COUNT_NOCLK]) <|
    (State.setReg_keeps_reg ..).stepFoot (by simp [MGT_STATUS_NOCLK]) <|
      (s.setReg_keeps_reg ..).monoFoot (by simp [MGT_STATUS_CLK])

section
variable {s : State} {r : MgtRead} (hwait : s.mgt.wait = some r)
include hwait

theorem State.mgtTimeout_of_early (h : s.tm.tick < r.done + 88) : s.mgtTimeout = s := by
  have hearly : ¬ r.done + 88 ≤ s.tm.tick := by omega
  simp [State.mgtTimeout, hwait, hearly]

theorem State.mgtTimeout_of_late (hfield : mgtField r.tgt = true) (h : r.done + 88 ≤ s.tm.tick) :
    s.mgtTimeout = s.replyMissed.mgtValue r (BitVec.allOnes 32) := by
  simp only [State.mgtTimeout, hwait, hfield, h, decide_true, Bool.and_self, if_true]
  rfl

theorem State.mgtAbsent_of_wait (hclk : s.tm.clk = false) :
    s.mgtAbsent = s.clockMissed.mgtValue r (BitVec.allOnes 32) := by
  simp only [State.mgtAbsent, hclk, Bool.false_eq_true, if_false, State.setBit_mgt, hwait]
  rfl

end

theorem State.mgtAbsent_of_idle {s : State} (hclk : s.tm.clk = false) (hwait : s.mgt.wait = none) :
    s.mgtAbsent = s.clockAbsent := by
  simp only [State.mgtAbsent, hclk, Bool.false_eq_true, if_false, State.setBit_mgt, hwait]
  rfl

/-- Settles O25: each command is taken apart by its guard; a read that ends without its value reads all ones. -/
theorem managementPortBufferAndLimits : Obligations.ManagementPortBufferAndLimits := by
  refine ⟨fun s c h => ⟨fun hc => ?unknown, fun hc => congrArg Host.Outcome.next (s.mgtBad_of_known hc)⟩,
    fun _ => rfl, fun s w rest hbuf hclk hnext hi hlt hl => ?drain,
    fun s r hclk hwait hfield hlt hhold hbulk hlow hfull hleft => ⟨fun hlate => ?late, fun hearly => ?early⟩,
    fun s hclk => ⟨fun hwait => ?idle, fun r hwait hlt hhold hbulk hlow hfull hleft => ?waits⟩,
    fun s hclk => congrArg Host.Outcome.next (if_pos hclk)⟩
  case unknown =>
    refine ⟨_, rfl, execMgtBadCommand_keeps c s rfl, ?_, ?_⟩
    · rw [s.mgtBad_of_unknown hc]
      exact (State.bit_congr (State.mgtRaise_fld _ 2 (by decide))).trans
        (State.bit_setBit_same _ _ true (by decide) rfl)
    · rw [s.mgtBad_of_unknown hc, State.mgtRaise_fld _ 2 (by decide), State.fld_setBit_other _ _ (by decide) (by decide),
        State.mgtFrame_transactions h]
  case drain =>
    have hmgt := State.bufferPassed_mgtApply_mgt (s := s) (rest := rest) hi hlt hl
    refine ⟨_, congrArg Host.Outcome.next (State.mgtDrain_of_due hbuf hclk hnext),
      State.bufferPassed_mgtApply_keeps hi hlt hl, ?_, ?_, fun j hj => State.bufferPassed_mgtApply_bit hi hlt hl hj⟩
    · rw [hmgt]
    · rw [hmgt]
  case late =>
    have hexec : exec .mgtReplyTimeout s = .next (s.replyMissed.readsOnes r.idx) :=
      congrArg Host.Outcome.next ((State.onTick_of_clk hclk _).trans ((State.mgtTimeout_of_late hwait hfield hlate).trans
        (State.mgtValue_ones _ hhold hbulk hlow hfull hleft)))
    obtain ⟨htimeout, hcount, hmgt⟩ := s.replyMissed_shows
    obtain ⟨hindex, hhigh, hvalid⟩ := s.replyMissed.readsOnes_hold r.idx hlt
    refine ⟨_, hexec, execMgtReplyTimeout_keeps s hexec,
      (State.bit_congr (State.readsOnes_fld _ _ (by decide))).trans htimeout, State.readsOnes_wait .., ?_, hindex, hhigh,
      hvalid, (State.readsOnes_fld _ _ (by decide)).trans hcount⟩
    rw [State.readsOnes_out, hmgt]
  case early =>
    exact congrArg Host.Outcome.next ((State.onTick_of_clk hclk _).trans (State.mgtTimeout_of_early hwait hearly))
  case idle =>
    exact ⟨_, congrArg Host.Outcome.next (State.mgtAbsent_of_idle hclk hwait), s.setReg_keeps_reg _ _,
      s.bit_setBit_same _ false (by decide) rfl⟩
  case waits =>
    have hexec : exec .mgtClockAbsent s = .next (s.clockMissed.readsOnes r.idx) :=
      congrArg Host.Outcome.next ((State.mgtAbsent_of_wait hwait hclk).trans
        (State.mgtValue_ones _ hhold hbulk hlow hfull hleft))
    obtain ⟨hclkBit, hnoclk, hcount, hmgt⟩ := s.clockMissed_shows
    refine ⟨_, hexec, (State.readsOnes_keeps ..).stepFoot (by simp) s.clockMissed_keeps,
      (State.bit_congr (State.readsOnes_fld _ _ (by decide))).trans hclkBit,
      (State.bit_congr (State.readsOnes_fld _ _ (by decide))).trans hnoclk, State.readsOnes_wait ..,
      ?_, (State.readsOnes_fld _ _ (by decide)).trans hcount⟩
    rw [State.readsOnes_out, hmgt]

end Sys2Proof.Machine

/-!
Writes over the management port (R307, R310, R311): the write hold, a write that the port lets through at once, and those
that wait in the buffer behind it.
-/
namespace Sys2Proof.Machine

set_option Elab.async false

/-! ### A write that the port lets through (R310, R311) -/

/-- The port writes registers of the tick domain: the clock runs, WR_EN is set, and ARM takes no write (R52, R310). -/
structure State.PortOpen (s : State) : Prop where
  clk : s.tm.clk = true
  en  : s.bit MGT_CTRL_WR_EN = true
  arm : s.bit TIM_LAUNCH_ACTION_ARM = false

/-- The registers that such a write stores lie apart from those that the port itself goes by. -/
theorem instantRegs_besidePort : ∀ i ∈ instantRegs, inMgt i = false →
    (foot [.reg MGT_STATUS, .mgt]).testBit (regPart i) = false ∧
    (foot [.reg MGT_STATUS, .reg i, .mgt]).testBit (regPart MGT_CTRL) = false ∧
    (foot [.reg MGT_STATUS, .reg i, .mgt]).testBit (regPart TIM_LAUNCH_ACTION) = false ∧
    (foot [.reg MGT_STATUS, .reg i, .mgt]).testBit 0x2049 = false := by decide +kernel

/-- The port stays open while it writes such a register. -/
theorem Keeps.portOpen {s t : State} {i : Nat} (h : Keeps (foot [.reg MGT_STATUS, .reg i, .mgt]) s t)
    (hi : i ∈ instantRegs) (hmgt : inMgt i = false) (hs : s.PortOpen) : t.PortOpen := by
  obtain ⟨-, hctrl, haction, htm⟩ := instantRegs_besidePort i hi hmgt
  exact ⟨(congrArg TimeSt.clk (h.tm htm)).trans hs.clk, (State.bit_congr (h.fld hctrl)).trans hs.en,
    (State.bit_congr (h.fld haction)).trans hs.arm⟩

/-- The port's own state is no register. -/
theorem Keeps.reg_of_port {s t : State} (h : Keeps (foot [.mgt]) s t) (i : Nat) : t.reg i = s.reg i := by
  refine h.reg i ?_
  have hle : regPart i ≤ 0x2000 := Nat.min_le_right ..
  rw [testBit_foot]
  simp only [List.any_cons, List.any_nil, Part.places, Nat.testBit_two_pow, Bool.or_false, decide_eq_false_iff_not]
  omega

/-- The write hold is empty. -/
def State.holdDropped (s : State) : State := { s with mgt := { s.mgt with hold := none } }

/-- A write waits behind those in the buffer. -/
def State.buffered (s : State) (w : MgtWr) : State := { s with mgt := { s.mgt with buf := s.mgt.buf ++ [w] } }

/-- A whole value of a frame: the write hold is emptied first (R310). -/
def State.wholeWritten (s : State) (i : Nat) (v : Word) : State := s.holdDropped.mgtWrite i v

theorem State.holdDropped_keeps (s : State) : Keeps (foot [.mgt]) s s.holdDropped := Keeps.upd (Keeps.refl ..)

theorem State.buffered_keeps (s : State) (w : MgtWr) : Keeps (foot [.mgt]) s (s.buffered w) := Keeps.upd (Keeps.refl ..)

theorem State.holdDropped_open {s : State} (h : s.PortOpen) : s.holdDropped.PortOpen := ⟨h.clk, h.en, h.arm⟩

theorem State.buffered_open {s : State} (h : s.PortOpen) (w : MgtWr) : (s.buffered w).PortOpen := ⟨h.clk, h.en, h.arm⟩

/-- A register outside the MGT block is written in the tick domain. -/
theorem State.mgtWrite_tick (s : State) {i : Nat} (hmgt : inMgt i = false) (v : Word) :
    s.mgtWrite i v = s.mgtTickWrite i v := by
  have hbulk : i ≠ MGT_BULK_DATA := by
    rintro rfl
    exact absurd hmgt (by decide)
  simp only [State.mgtWrite, hbulk, hmgt, Bool.and_false, Bool.false_eq_true, if_false]

/-- An open port puts a write into the buffer, which passes one in a tick (R311). -/
theorem State.mgtTickWrite_of_open {s : State} (hs : s.PortOpen) (hlen : s.mgt.buf.length < 16) (i : Nat) (v : Word) :
    s.mgtTickWrite i v = (s.buffered ⟨i, v, none⟩).mgtDrain := by
  have hroom : ¬ 16 ≤ s.mgt.buf.length := by omega
  simp only [State.mgtTickWrite, State.mgtArm, hs.clk, hs.en, hs.arm, hroom, Bool.not_true, Bool.and_false,
    Bool.false_and, Bool.false_eq_true, if_false]
  rfl

/-- A buffer that has passed its write of this tick keeps the others. -/
theorem State.mgtDrain_of_passed {s : State} (hnext : s.tm.tick < s.mgt.next) : s.mgtDrain = s := by
  have hlater : decide (s.mgt.next ≤ s.tm.tick) = false := decide_eq_false (Nat.not_le.2 hnext)
  unfold State.mgtDrain
  split
  · rfl
  · rw [hlater, Bool.and_false, if_neg Bool.false_ne_true]

section
variable {s : State} {i : Nat} (hmgt : inMgt i = false)
include hmgt

/-- Without WR_EN nothing is written: BLOCKED sets, and source 0 is raised (R310). -/
theorem State.wholeWritten_of_blocked (hen : s.bit MGT_CTRL_WR_EN = false) (v : Word) :
    s.wholeWritten i v = (s.holdDropped.setBit MGT_STATUS_BLOCKED true).mgtRaise 0 := by
  have hen' : s.holdDropped.bit MGT_CTRL_WR_EN = false := hen
  rw [State.wholeWritten, State.mgtWrite_tick _ hmgt]
  simp only [State.mgtTickWrite, hen', hmgt, Bool.not_false, Bool.and_self, if_true]

/-- Into an empty buffer that may pass a write in this tick: the write is done. -/
theorem State.wholeWritten_of_empty (hs : s.PortOpen) (hbuf : s.mgt.buf = []) (hnext : s.mgt.next ≤ s.tm.tick)
    (v : Word) : s.wholeWritten i v = (s.holdDropped.bufferPassed []).mgtApply ⟨i, v, none⟩ := by
  have hlen : s.holdDropped.mgt.buf.length < 16 := by
    show s.mgt.buf.length < 16
    rw [hbuf]
    decide
  have hone : (s.holdDropped.buffered ⟨i, v, none⟩).mgt.buf = [⟨i, v, none⟩] := by
    show s.mgt.buf ++ _ = _
    rw [hbuf, List.nil_append]
  rw [State.wholeWritten, State.mgtWrite_tick _ hmgt, State.mgtTickWrite_of_open (State.holdDropped_open hs) hlen,
    State.mgtDrain_of_due hone hs.clk hnext]
  rfl

/-- Into a buffer that has passed its write of this tick: the write waits. -/
theorem State.wholeWritten_of_passed (hs : s.PortOpen) (hlen : s.mgt.buf.length < 16) (hnext : s.tm.tick < s.mgt.next)
    (v : Word) : s.wholeWritten i v = s.holdDropped.buffered ⟨i, v, none⟩ := by
  rw [State.wholeWritten, State.mgtWrite_tick _ hmgt, State.mgtTickWrite_of_open (State.holdDropped_open hs) hlen]
  exact State.mgtDrain_of_passed hnext

/-- What follows a write of this tick waits in its order (R311). -/
theorem State.wholeWritten_forEach (vs : List Word) {s : State} (hs : s.PortOpen) (hnext : s.tm.tick < s.mgt.next)
    (hlen : s.mgt.buf.length + vs.length ≤ 16) :
    Keeps (foot [.mgt]) s (forEach vs (fun t v => t.wholeWritten i v) s) ∧
    (forEach vs (fun t v => t.wholeWritten i v) s).mgt.buf = s.mgt.buf ++ vs.map (fun x => ⟨i, x, none⟩) ∧
    (forEach vs (fun t v => t.wholeWritten i v) s).mgt.next = s.mgt.next := by
  induction vs generalizing s with
  | nil => exact ⟨Keeps.refl .., (List.append_nil _).symm, rfl⟩
  | cons v vs ih =>
    have hfits : s.mgt.buf.length + 1 + vs.length ≤ 16 := by
      rw [List.length_cons] at hlen
      omega
    have hone := State.wholeWritten_of_passed hmgt hs (by omega) hnext v
    have hlen' : (s.holdDropped.buffered ⟨i, v, none⟩).mgt.buf.length + vs.length ≤ 16 := by
      rw [show (s.holdDropped.buffered ⟨i, v, none⟩).mgt.buf = s.mgt.buf ++ [⟨i, v, none⟩] from rfl, List.length_append]
      exact hfits
    obtain ⟨hkeeps, hbuf, hpass⟩ := ih (State.buffered_open (State.holdDropped_open hs) ⟨i, v, none⟩) hnext hlen'
    have hstep : forEach (v :: vs) (fun t v => t.wholeWritten i v) s =
        forEach vs (fun t v => t.wholeWritten i v) (s.holdDropped.buffered ⟨i, v, none⟩) :=
      congrArg (forEach vs (fun t v => State.wholeWritten t i v)) hone
    rw [hstep]
    refine ⟨(s.holdDropped_keeps.trans (State.buffered_keeps ..)).trans hkeeps, ?_, hpass⟩
    rw [hbuf, List.map_cons]
    exact List.append_assoc s.mgt.buf [⟨i, v, none⟩] _

end

/-- The first write of a frame, with the buffer empty: the register takes it bit by bit, and the buffer has passed it. -/
theorem State.wholeWritten_instantRegs {s : State} {i : Nat} (hi : i ∈ instantRegs) (hlt : i < 0x1000)
    (hmgt : inMgt i = false) (hs : s.PortOpen) (hbuf : s.mgt.buf = []) (hnext : s.mgt.next ≤ s.tm.tick) (v : Word) :
    Keeps (foot [.reg i, .mgt]) s (s.wholeWritten i v) ∧
    (s.wholeWritten i v).mgt = { s.mgt with hold := none, buf := [], next := s.tm.tick + 1 } ∧
    ∀ j < 32, ((s.wholeWritten i v).reg i).getLsbD j = s.bitWritten i v j := by
  have hw : (⟨i, v, none⟩ : MgtWr).idx ∈ instantRegs := hi
  rw [State.wholeWritten_of_empty hmgt hs hbuf hnext]
  refine ⟨(s.holdDropped_keeps.monoFoot (by simp)).trans (State.bufferPassed_mgtApply_keeps hw hlt rfl),
    State.bufferPassed_mgtApply_mgt hw hlt rfl, fun j hj => ?_⟩
  exact (State.bufferPassed_mgtApply_bit hw hlt rfl hj).trans (State.bitWritten_congr rfl v j)

/-! ### The frames of a write (R310) -/

theorem State.mgtWrAll_cons (s : State) (i : Nat) (v : Word) (vs : List Word) :
    s.mgtWrAll i (v :: vs) = forEach vs (fun t v => t.wholeWritten i v) (s.mgtFrame.wholeWritten i v) := (rfl)

theorem State.mgtWrAll_one (s : State) (i : Nat) (v : Word) : s.mgtWrAll i [v] = s.mgtFrame.wholeWritten i v := (rfl)

/-- A high half with its low half is a whole write. -/
theorem State.mgtPair_of_held {s : State} {i : Nat} {lo : BitVec 16} (hhold : s.mgt.hold = some (i, lo))
    (h : BitVec 16) : s.mgtPair i h = s.wholeWritten i (BitVec.ofNat 32 (h.toNat * 2 ^ 16 + lo.toNat)) := by
  simp only [State.mgtPair, hhold, if_true]
  rfl

/-- A high half without its low half writes nothing. -/
theorem State.mgtPair_of_not_held {s : State} {i : Nat} (hhold : ∀ lo, s.mgt.hold ≠ some (i, lo)) (h : BitVec 16) :
    s.mgtPair i h = s.setBit MGT_STATUS_UNPAIRED_WR true := by
  unfold State.mgtPair
  split
  next j lo heq =>
    have hji : j ≠ i := by
      rintro rfl
      exact hhold lo heq
    exact if_neg hji
  next => rfl

section
variable {s : State} (h : s.mgt.abort = false)
include h

theorem State.mgtFrame_hold : s.mgtFrame.mgt.hold = s.mgt.hold := by rw [State.mgtFrame_mgt h]

theorem State.mgtFrame_buf : s.mgtFrame.mgt.buf = s.mgt.buf := by rw [State.mgtFrame_mgt h]

theorem State.mgtFrame_tick : s.mgtFrame.tm = s.tm := (State.mgtFrame_keeps_status h).tm (by decide +kernel)

/-- A frame finds the port as it was. -/
theorem State.mgtFrame_open (hs : s.PortOpen) : s.mgtFrame.PortOpen := by
  exact ⟨(congrArg TimeSt.clk (State.mgtFrame_tick h)).trans hs.clk,
    (State.bit_congr (State.mgtFrame_fld h (by decide))).trans hs.en,
    (State.bit_congr (State.mgtFrame_fld h (by decide))).trans hs.arm⟩

/-- The first write of a frame, beside which the frame itself changes the port's status. -/
theorem State.mgtFrame_wholeWritten {i : Nat} (hi : i ∈ instantRegs) (hlt : i < 0x1000) (hmgt : inMgt i = false)
    (hs : s.PortOpen) (hbuf : s.mgt.buf = []) (hnext : s.mgt.next ≤ s.tm.tick) (v : Word) :
    Keeps (foot [.reg MGT_STATUS, .reg i, .mgt]) s (s.mgtFrame.wholeWritten i v) ∧
    (s.mgtFrame.wholeWritten i v).mgt = { s.mgtFrame.mgt with hold := none, buf := [], next := s.tm.tick + 1 } ∧
    ∀ j < 32, ((s.mgtFrame.wholeWritten i v).reg i).getLsbD j = s.bitWritten i v j := by
  have hframe := State.mgtFrame_keeps_status h
  have htm := State.mgtFrame_tick h
  have hnext' : s.mgtFrame.mgt.next ≤ s.mgtFrame.tm.tick := by rwa [htm, State.mgtFrame_mgt h]
  obtain ⟨hkeeps, hmgtSt, hbits⟩ := State.wholeWritten_instantRegs hi hlt hmgt (State.mgtFrame_open h hs)
    ((State.mgtFrame_buf h).trans hbuf) hnext' v
  have hreg : s.mgtFrame.reg i = s.reg i := hframe.reg i (instantRegs_besidePort i hi hmgt).1
  refine ⟨(hframe.monoFoot (by simp)).trans (hkeeps.monoFoot (by simp)), ?_,
    fun j hj => (hbits j hj).trans (State.bitWritten_congr hreg v j)⟩
  rw [hmgtSt, htm]

end

/-- Settles O24: a half-word is held, a whole value is written, and the values after it wait in the buffer. -/
theorem managementWritesPairTheirHalves : Obligations.ManagementWritesPairTheirHalves := by
  intro s i h habort
  have hframe := State.mgtFrame_keeps_status habort
  refine ⟨?low, fun hhold => ?unpaired, fun hi hlt hmgt hclk _ hbuf hnext harm => ⟨fun hen => ?written,
    fun hen v => ?blocked⟩⟩
  case low =>
    exact ⟨_, rfl, hframe.trans (Keeps.upd (Keeps.refl ..)), rfl, State.mgtFrame_buf habort⟩
  case unpaired =>
    have hpair := State.mgtPair_of_not_held (s := s.mgtFrame) (by rwa [State.mgtFrame_hold habort]) h
    refine ⟨_, congrArg Host.Outcome.next hpair, (State.setReg_keeps_reg ..).stepFoot (by simp [MGT_STATUS_UNPAIRED_WR])
      hframe, State.bit_setBit_same _ _ true (by decide) rfl, ?_⟩
    rw [State.setBit_mgt, State.mgtFrame_buf habort]
  case written =>
    have hopen : s.PortOpen := ⟨hclk, hen, harm⟩
    have hfirst := State.mgtFrame_wholeWritten habort hi hlt hmgt hopen hbuf hnext
    refine ⟨fun lo hhold => ?pair, fun v => ?one, fun v vs hlen => ?run⟩
    case pair =>
      obtain ⟨hkeeps, hport, hbits⟩ := hfirst (BitVec.ofNat 32 (h.toNat * 2 ^ 16 + lo.toNat))
      exact ⟨_, congrArg Host.Outcome.next (State.mgtPair_of_held ((State.mgtFrame_hold habort).trans hhold) h), hkeeps,
        congrArg MgtSt.hold hport, congrArg MgtSt.buf hport, hbits⟩
    case one =>
      obtain ⟨hkeeps, hport, hbits⟩ := hfirst v
      exact ⟨_, congrArg Host.Outcome.next (s.mgtWrAll_one _ v), hkeeps, congrArg MgtSt.buf hport, hbits⟩
    case run =>
      obtain ⟨hkeeps, hport, hbits⟩ := hfirst v
      have hbuf' : (s.mgtFrame.wholeWritten i.toNat v).mgt.buf = [] := congrArg MgtSt.buf hport
      have hnext' : (s.mgtFrame.wholeWritten i.toNat v).mgt.next = s.tm.tick + 1 := congrArg MgtSt.next hport
      have htm : (s.mgtFrame.wholeWritten i.toNat v).tm = s.tm := hkeeps.tm (instantRegs_besidePort _ hi hmgt).2.2.2
      obtain ⟨hwaits, hlist, hpass⟩ := State.wholeWritten_forEach hmgt vs (hkeeps.portOpen hi hmgt hopen)
        (by rw [hnext', htm]; exact Nat.lt_succ_self _) (by rw [hbuf']; simpa using hlen)
      refine ⟨_, congrArg Host.Outcome.next (s.mgtWrAll_cons _ v vs), hwaits.stepFoot (by simp) hkeeps, ?_,
        hpass.trans hnext', fun j hj => ?_⟩
      · rw [hlist, hbuf', List.nil_append]
      · rw [hwaits.reg_of_port]
        exact hbits j hj
  case blocked =>
    have hen' := (State.bit_congr (State.mgtFrame_fld habort (f := MGT_CTRL_WR_EN) (by decide))).trans hen
    refine ⟨_, congrArg Host.Outcome.next ((s.mgtWrAll_one _ v).trans (State.wholeWritten_of_blocked hmgt hen' v)), ?_,
      ?_, (State.bit_congr (State.mgtRaise_fld _ 0 (by decide))).trans (State.bit_setBit_same _ _ true (by decide) rfl)⟩
    · exact (State.mgtRaise_keeps _ 0).stepFoot (by simp) ((State.setReg_keeps_reg ..).stepFoot
        (by simp [MGT_STATUS_BLOCKED]) ((State.holdDropped_keeps _).stepFoot (by simp) s.mgtFrame_keeps))
    · rw [State.mgtRaise_mgt, State.setBit_mgt]
      exact (State.mgtFrame_buf habort).trans hbuf

end Sys2Proof.Machine

/-!
Channels of the nulling loop (R124, R128 to R132): how a repetition acts on the one channel that a round of it names,
what a store of an amplitude changes, and what a channel's part of the loop rests on.
-/
namespace Sys2Proof.Machine

/-! ### The rounds of a repetition -/

section
variable {α σ : Type} {R : σ → σ → Prop} {f : σ → α → σ} (hrefl : ∀ s, R s s)
  (htrans : ∀ {s t u}, R s t → R t u → R s u)
include hrefl htrans

/-- What holds over every round holds over the repetition. -/
theorem forEach_rel {xs : List α} (h : ∀ t, ∀ y ∈ xs, R t (f t y)) (s : σ) : R s (forEach xs f s) := by
  unfold forEach
  induction xs generalizing s with
  | nil => exact hrefl s
  | cons x xs ih =>
    exact htrans (h s x List.mem_cons_self) (ih (fun t y hy => h t y (List.mem_cons_of_mem _ hy)) _)

/-- Where the rounds of all others leave something alone, the one round of x alone acts on it. -/
theorem forEach_turn {xs : List α} (hnodup : xs.Nodup) {x : α} (hx : x ∈ xs)
    (h : ∀ t, ∀ y ∈ xs, y ≠ x → R t (f t y)) (s : σ) : ∃ t, R s t ∧ R (f t x) (forEach xs f s) := by
  obtain ⟨before, after, rfl⟩ := List.append_of_mem hx
  obtain ⟨-, hafter, hbefore⟩ := List.nodup_append.1 hnodup
  have hother {ys : List α} (hsub : ∀ y ∈ ys, y ∈ before ++ x :: after ∧ y ≠ x) (t : σ) : R t (forEach ys f t) :=
    forEach_rel hrefl htrans (fun u y hy => h u y (hsub y hy).1 (hsub y hy).2) t
  refine ⟨forEach before f s, hother (fun y hy => ⟨List.mem_append_left _ hy, hbefore y hy x List.mem_cons_self⟩) s, ?_⟩
  have hsplit : forEach (before ++ x :: after) f s = forEach after f (f (forEach before f s) x) := List.foldl_append ..
  rw [hsplit]
  refine hother (fun y hy => ⟨List.mem_append_right _ (List.mem_cons_of_mem _ hy), ?_⟩) _
  rintro rfl
  exact (List.nodup_cons.1 hafter).1 hy

end

section
variable {α σ β : Type} {f : σ → α → σ} (g : σ → β) {xs : List α}

/-- What every round leaves as it is, the repetition does. -/
theorem forEach_value (h : ∀ t, ∀ y ∈ xs, g (f t y) = g t) (s : σ) : g (forEach xs f s) = g s :=
  (forEach_rel (R := fun t u => g t = g u) (fun _ => rfl) Eq.trans (fun t y hy => (h t y hy).symm) s).symm

/-- What the round of x alone changes takes its value there. -/
theorem forEach_turn_value (hnodup : xs.Nodup) {x : α} (hx : x ∈ xs) (h : ∀ t, ∀ y ∈ xs, y ≠ x → g (f t y) = g t)
    (s : σ) : ∃ t, g t = g s ∧ g (forEach xs f s) = g (f t x) := by
  obtain ⟨t, hbefore, hafter⟩ := forEach_turn (R := fun t u => g t = g u) (fun _ => rfl) Eq.trans hnodup hx
    (fun t y hy hne => (h t y hy hne).symm) s
  exact ⟨t, hbefore.symm, hafter.symm⟩

end

/-! ### Amplitudes -/

/-- A number that an amplitude word holds. -/
def FitsAmp (v : Int) : Prop := -2 ^ 23 ≤ v ∧ v < 2 ^ 23

theorem sgn_unsgn {v : Int} (h : FitsAmp v) : sgn 24 (unsgn 24 v) = v := by
  obtain ⟨hlow, hhigh⟩ := h
  unfold sgn unsgn
  dsimp only
  split <;> omega

/-- NUL_LIMIT keeps an amplitude within its word. -/
theorem State.fitsAmp_clamp (s : State) (v : Int) : FitsAmp (clampInt (-s.nulLimit) s.nulLimit v) := by
  have hlt : s.fld NUL_LIMIT_LIMIT < 2 ^ 23 := Nat.mod_lt _ (by decide)
  unfold FitsAmp State.nulLimit clampInt
  split
  · omega
  · split <;> omega

theorem fitsAmp_zero : FitsAmp 0 := ⟨by decide, by decide⟩

section
variable (s : State) {ch w : Nat} (v : Int)

theorem State.setAmp_win (hch : ch < 2048) (hw : w < 2) {a : Nat} (ha : a < 2 ^ 24) :
    (s.setAmp ch w v).win .nul a =
      if a = 2 * ch + w then BitVec.ofNat 24 (unsgn 24 v) else s.win .nul a := by
  unfold State.setAmp
  extract_lets b new old keep
  split
  next hsame =>
    split
    next heq =>
      rw [heq]
      exact hsame.symm
    next => rfl
  next =>
    split
    next heq => rw [heq, State.win_setWin_same]
    next hne =>
      rw [State.win_setWin_other]
      · rfl
      · rw [winKey_eq, winKey_eq]
        omega

theorem State.setAmp_nul : ∃ old, (s.setAmp ch w v).nul = { s.nul with ampOld := old } := by
  unfold State.setAmp
  extract_lets b new old keep
  split
  next => exact ⟨_, rfl⟩
  next => exact ⟨_, rfl⟩

theorem State.setAmp_flt : (s.setAmp ch w v).flt = s.flt := (s.setAmp_keeps ch w v).flt (by decide +kernel)

theorem State.amp_setAmp_same (hch : ch < 2048) (hw : w < 2) {v : Int} (hv : FitsAmp v) :
    (s.setAmp ch w v).amp ch w = v := by
  rw [State.amp, State.nulSigned, State.winN, s.setAmp_win v hch hw (by omega), if_pos rfl, BitVec.toNat_ofNat]
  refine Eq.trans ?_ (sgn_unsgn hv)
  simp only [sgn, Nat.mod_mod]

theorem State.amp_setAmp_other (hch : ch < 2048) (hw : w < 2) {q x : Nat} (hq : q < 2048) (hx : x < 2)
    (h : q ≠ ch ∨ x ≠ w) : (s.setAmp ch w v).amp q x = s.amp q x := by
  rw [State.amp, State.nulSigned, State.winN, s.setAmp_win v hch hw (by omega), if_neg (by omega)]
  rfl

end

/-! ### One channel and the others -/

/-- What the loop holds of a channel: its amplitudes, CNT and DONE. -/
structure Channel where
  ampI : Int
  ampQ : Int
  cnt  : Nat
  done : Bool

def State.channel (s : State) (ch : Nat) : Channel := ⟨s.amp ch 0, s.amp ch 1, s.cntOf ch, s.doneOf ch⟩

/-- Store a channel. -/
def State.setChannel (s : State) (ch : Nat) (x : Channel) : State :=
  ((s.setAmp ch 0 x.ampI).setAmp ch 1 x.ampQ).setConv ch x.cnt x.done

/-- CNT and DONE of every channel. -/
def NulSt.conv (n : NulSt) : Assoc Nat × Assoc Nat := (n.cnt, n.fin)

/-- The loop's hidden state without the records of single channels, of single strokes and of a REPRIME that waits. -/
def NulSt.common (n : NulSt) : NulSt :=
  { n with sums := [], ampOld := [], ampStand := 0, cnt := [], fin := [], a15 := [], a31 := [], satNow := [],
           chBad := [], zeroCh := [], badBefore := 0, reprime := false }

/-- The parts that the nulling rules change. -/
abbrev loopParts : List Part :=
  [.reg NUL_DAC_RANGE, .reg NUL_PRIMER_CTRL, .reg GLB_DETERMINISM, .faults, .win .nul, .col, .nul]

/-- t is s beside the amplitudes, the records of single channels and those of the columns, and what the registers of
the loop show. -/
structure State.SameLoop (s t : State) : Prop where
  keeps  : Keeps (foot loopParts) s t
  iso    : t.flt.iso = s.flt.iso
  table  : ∀ a, 0x1000 ≤ a → a < 2 ^ 24 → t.win .nul a = s.win .nul a
  common : t.nul.common = s.nul.common

/-- And t has of a channel all that s has. -/
structure State.SameChannel (s t : State) (ch : Nat) : Prop where
  loop : s.SameLoop t
  own  : t.channel ch = s.channel ch
  bad  : assocGet t.nul.chBad ch 0 = assocGet s.nul.chBad ch 0
  zero : t.nul.zeroCh.contains ch = s.nul.zeroCh.contains ch

theorem State.SameLoop.refl (s : State) : s.SameLoop s := ⟨Keeps.refl .., rfl, fun _ _ _ => rfl, rfl⟩

theorem State.SameLoop.trans {s t u : State} (h : s.SameLoop t) (g : t.SameLoop u) : s.SameLoop u :=
  ⟨h.keeps.trans g.keeps, g.iso.trans h.iso, fun a hlow hhigh => (g.table a hlow hhigh).trans (h.table a hlow hhigh),
    g.common.trans h.common⟩

theorem State.SameChannel.refl (ch : Nat) (s : State) : s.SameChannel s ch := ⟨.refl s, rfl, rfl, rfl⟩

theorem State.SameChannel.trans {ch : Nat} {s t u : State} (h : s.SameChannel t ch) (g : t.SameChannel u ch) :
    s.SameChannel u ch :=
  ⟨h.loop.trans g.loop, g.own.trans h.own, g.bad.trans h.bad, g.zero.trans h.zero⟩

theorem State.SameLoop.forEach {α : Type} {f : State → α → State} {xs : List α}
    (h : ∀ t : State, ∀ y ∈ xs, t.SameLoop (f t y)) (s : State) : s.SameLoop (Machine.forEach xs f s) :=
  forEach_rel (R := State.SameLoop) .refl .trans h s

theorem State.SameChannel.forEach {α : Type} {f : State → α → State} {xs : List α} {ch : Nat}
    (h : ∀ t : State, ∀ y ∈ xs, t.SameChannel (f t y) ch) (s : State) : s.SameChannel (Machine.forEach xs f s) ch :=
  forEach_rel (R := fun t u => t.SameChannel u ch) (.refl ch) .trans h s

/-- A channel that one round alone is about takes what that round gives it. -/
theorem State.SameChannel.turn {α : Type} {f : State → α → State} {xs : List α} {ch : Nat} (hnodup : xs.Nodup) {x : α}
    (hx : x ∈ xs) (h : ∀ t : State, ∀ y ∈ xs, y ≠ x → t.SameChannel (f t y) ch) (s : State) :
    ∃ t, s.SameChannel t ch ∧ (f t x).SameChannel (Machine.forEach xs f s) ch :=
  forEach_turn (R := fun t u => t.SameChannel u ch) (.refl ch) .trans hnodup hx h s

/-- A channel is a matter of the window's words and of the counts of convergence. -/
theorem State.channel_congr {s t : State} (hwin : ∀ a, t.win .nul a = s.win .nul a) (hconv : t.nul.conv = s.nul.conv)
    (ch : Nat) : t.channel ch = s.channel ch := by
  obtain ⟨hcnt, hfin⟩ := Prod.mk.inj hconv
  simp only [State.channel, State.amp, State.nulSigned, State.winN, hwin, State.cntOf, State.doneOf, hcnt, hfin]

/-- An amplitude is part of what a channel holds. -/
theorem State.amp_of_channel {s t : State} {ch : Nat} (h : t.channel ch = s.channel ch) {x : Nat} (hx : x < 2) :
    t.amp ch x = s.amp ch x := by
  obtain ⟨hI, hQ, -, -⟩ := Channel.mk.inj h
  obtain rfl | rfl : x = 0 ∨ x = 1 := by omega
  · exact hI
  · exact hQ

theorem State.SameChannel.amp {s t : State} {ch : Nat} (h : s.SameChannel t ch) {x : Nat} (hx : x < 2) :
    t.amp ch x = s.amp ch x := State.amp_of_channel h.own hx

/-- What touches neither a window word nor the loop's hidden state leaves every channel as it is. -/
theorem State.sameChannel_of_keeps {ps : List Part} {s t : State} (h : Keeps (foot ps) s t) (hps : ps ⊆ loopParts)
    (hwin : ∀ a, t.win .nul a = s.win .nul a) (hnul : t.nul = s.nul) (hiso : t.flt.iso = s.flt.iso) (ch : Nat) :
    s.SameChannel t ch :=
  ⟨⟨h.monoFoot hps, hiso, fun a _ _ => hwin a, congrArg NulSt.common hnul⟩,
    State.channel_congr hwin (congrArg NulSt.conv hnul) ch,
    by rw [hnul], by rw [hnul]⟩

theorem State.param_iso (s : State) (launched changed : Bool) : (s.param launched changed).flt.iso = s.flt.iso := by
  unfold State.param State.sticky
  split
  · extract_lets old shown s1 s2
    have hiso : s2.flt.iso = s.flt.iso := by
      unfold s2
      split
      · rw [State.setFld_flt, State.setFld_flt]
      · rw [State.setFld_flt]
    split
    · exact hiso
    · exact hiso
  · rfl

section
variable (s : State)

/-- A parameter's change is shown in GLB_DETERMINISM alone (R8). -/
theorem State.param_sameChannel (launched changed : Bool) (ch : Nat) : s.SameChannel (s.param launched changed) ch :=
  State.sameChannel_of_keeps (s.param_keeps launched changed) (by simp)
    (fun a => (s.param_keeps launched changed).win .nul a (by decide +kernel))
    ((s.param_keeps launched changed).nul (by decide +kernel)) (s.param_iso launched changed) ch

/-- A register of the loop is no matter of a channel. -/
theorem State.setReg_sameChannel {i : Nat} (hi : i = NUL_DAC_RANGE ∨ i = NUL_PRIMER_CTRL) (v : Word) (ch : Nat) :
    s.SameChannel (s.setReg i v) ch :=
  State.sameChannel_of_keeps (s.setReg_keeps_reg i v) (by rcases hi with rfl | rfl <;> simp) (fun _ => rfl) rfl rfl ch

/-- The records of the columns are no matter of a channel. -/
theorem State.setColCh_sameChannel (c : Nat) (x : ColCh) (ch : Nat) : s.SameChannel (s.setColCh c x) ch :=
  State.sameChannel_of_keeps (s.setColCh_keeps c x) (by simp) (fun _ => rfl) rfl rfl ch

/-- A change of the loop's hidden state that leaves the records of the channel alone. -/
theorem State.setNul_sameLoop {n : NulSt} (h : n.common = s.nul.common) : s.SameLoop { s with nul := n } :=
  ⟨(Keeps.refl ..).upd, rfl, fun _ _ _ => rfl, h⟩

theorem State.setNul_sameChannel {n : NulSt} {ch : Nat} (h : n.common = s.nul.common)
    (hcnt : assocGet n.cnt ch 0 = assocGet s.nul.cnt ch 0) (hfin : assocGet n.fin ch 0 = assocGet s.nul.fin ch 0)
    (hbad : assocGet n.chBad ch 0 = assocGet s.nul.chBad ch 0)
    (hzero : n.zeroCh.contains ch = s.nul.zeroCh.contains ch) : s.SameChannel { s with nul := n } ch :=
  ⟨s.setNul_sameLoop h, congrArg₂ (Channel.mk (s.amp ch 0) (s.amp ch 1)) hcnt (congrArg (· == 1) hfin), hbad, hzero⟩

variable {ch : Nat} (hch : ch < 2048)
include hch

theorem State.setAmp_sameLoop {w : Nat} (hw : w < 2) (v : Int) : s.SameLoop (s.setAmp ch w v) := by
  obtain ⟨old, hnul⟩ := s.setAmp_nul (ch := ch) (w := w) v
  refine ⟨(s.setAmp_keeps ch w v).monoFoot (by simp), by rw [s.setAmp_flt], fun a hlow hhigh => ?_, by rw [hnul]; rfl⟩
  rw [s.setAmp_win v hch hw hhigh, if_neg (by omega)]

theorem State.setAmp_sameChannel {w : Nat} (hw : w < 2) (v : Int) {q : Nat} (hq : q < 2048) (h : q ≠ ch) :
    s.SameChannel (s.setAmp ch w v) q := by
  obtain ⟨old, hnul⟩ := s.setAmp_nul (ch := ch) (w := w) v
  have hamp {x : Nat} (hx : x < 2) := s.amp_setAmp_other v hch hw hq hx (.inl h)
  refine ⟨s.setAmp_sameLoop hch hw v, ?_, by rw [hnul], by rw [hnul]⟩
  simp only [State.channel, hamp Nat.zero_lt_two, hamp Nat.one_lt_two, State.cntOf, State.doneOf, hnul]

omit hch in
theorem State.setConv_sameChannel (cnt : Nat) (done : Bool) {q : Nat} (h : q ≠ ch) :
    s.SameChannel (s.setConv ch cnt done) q :=
  s.setNul_sameChannel rfl (assocGet_put_other _ _ _ _ h.symm) (assocGet_put_other _ _ _ _ h.symm) rfl rfl

theorem State.setChannel_sameLoop (x : Channel) : s.SameLoop (s.setChannel ch x) :=
  ((s.setAmp_sameLoop hch Nat.zero_lt_two _).trans (State.setAmp_sameLoop _ hch Nat.one_lt_two _)).trans
    (State.setNul_sameLoop _ rfl)

theorem State.setChannel_sameChannel (x : Channel) {q : Nat} (hq : q < 2048) (h : q ≠ ch) :
    s.SameChannel (s.setChannel ch x) q :=
  ((s.setAmp_sameChannel hch Nat.zero_lt_two _ hq h).trans
    (State.setAmp_sameChannel _ hch Nat.one_lt_two _ hq h)).trans (State.setConv_sameChannel _ _ _ h)

/-- Both amplitudes of a channel read back what was stored. -/
theorem State.amp_setAmp_both {v w : Int} (hv : FitsAmp v) (hw : FitsAmp w) :
    ((s.setAmp ch 0 v).setAmp ch 1 w).amp ch 0 = v ∧ ((s.setAmp ch 0 v).setAmp ch 1 w).amp ch 1 = w := by
  refine ⟨?_, State.amp_setAmp_same _ hch Nat.one_lt_two hw⟩
  rw [State.amp_setAmp_other _ _ hch Nat.one_lt_two hch Nat.zero_lt_two (.inr (by decide)),
    State.amp_setAmp_same _ hch Nat.zero_lt_two hv]

theorem State.setChannel_channel {x : Channel} (hI : FitsAmp x.ampI) (hQ : FitsAmp x.ampQ) :
    (s.setChannel ch x).channel ch = x := by
  obtain ⟨hampI, hampQ⟩ := s.amp_setAmp_both hch hI hQ
  have hdone : ((if x.done then 1 else 0 : Nat) == 1) = x.done := by cases x.done <;> rfl
  unfold State.setChannel State.channel State.setConv State.cntOf State.doneOf
  simp only [assocGet_put_same, hdone]
  exact congrArg₂ (Channel.mk · · x.cnt x.done) hampI hampQ

end

/-! ### What a channel's part of the loop reads -/

section
variable {M : Nat} {s t : State} (h : Keeps M s t) (hM : M.testBit (0x2020 + blkNum .col) = false)
include h hM

/-- The words of the column map and of the pin units are those of the COL window. -/
theorem Keeps.colWord (a : Nat) : t.winN .col a = s.winN .col a := congrArg BitVec.toNat (h.win .col a hM)

theorem Keeps.colPin (c : Nat) : t.colPin c = s.colPin c := congrArg (bitsOf · 5 0) (h.colWord hM (0x100 + c))

theorem Keeps.colFe (c : Nat) : t.colFe c = s.colFe c := congrArg (bitsOf · 13 8) (h.colWord hM (0x100 + c))

theorem Keeps.pinDext (p : Nat) : t.pinDext p = s.pinDext p := by
  rw [State.pinDext, State.pinDext, State.pinMode, State.pinMode, h.colWord hM]

theorem Keeps.rangeCode (p : Nat) : t.rangeCode p = s.rangeCode p := by
  rw [State.rangeCode, State.rangeCode, State.pinMode, State.pinMode, State.pinRange, State.pinRange, h.colWord hM]

end

namespace State.SameLoop
variable {s t : State} (h : s.SameLoop t)
include h

theorem nulLimit : t.nulLimit = s.nulLimit := congrArg Nat.cast (h.keeps.fld (by decide +kernel))

theorem colPin (c : Nat) : t.colPin c = s.colPin c := h.keeps.colPin (by decide +kernel) c

theorem pinDext (p : Nat) : t.pinDext p = s.pinDext p := h.keeps.pinDext (by decide +kernel) p

theorem rangeCode (p : Nat) : t.rangeCode p = s.rangeCode p := h.keeps.rangeCode (by decide +kernel) p

theorem gainOf (p : Nat) : t.gainOf p = s.gainOf p := by
  have hgain : t.nul.gain = s.nul.gain := (NulSt.mk.inj h.common).1
  rw [State.gainOf, State.gainOf, hgain]

theorem rangeOf (p : Nat) : t.rangeOf p = s.rangeOf p := by
  have hrange : t.nul.range = s.nul.range := (NulSt.mk.inj h.common).2.1
  rw [State.rangeOf, State.rangeOf, hrange]

theorem drv (d : Nat) : t.drv d = s.drv d := State.drv_congr (h.keeps.pal (by decide +kernel)) d

theorem rowEntry (r : Nat) : t.rowEntry r = s.rowEntry r :=
  congrArg BitVec.toNat (h.keeps.win .pal _ (by decide +kernel))

theorem rowDrv (r : Nat) : t.rowDrv r = s.rowDrv r := congrArg (bitsOf · 14 8) (h.rowEntry r)

theorem rowPin (r : Nat) : t.rowPin r = s.rowPin r := congrArg (bitsOf · 6 0) (h.rowEntry r)

theorem activeEntry (p : Nat) : t.palEntry t.activeBank p = s.palEntry s.activeBank p := by
  rw [State.activeBank_congr (h.keeps.bit (by decide +kernel))]
  simp only [State.palEntry, State.winN, h.keeps.win .pal _ (by decide +kernel)]

theorem level (e : PalEntry) : t.level e = s.level e := by
  have hrest : t.restGoal = s.restGoal := by
    rw [State.restGoal, State.restGoal, State.glb, State.glb, h.keeps.fld (by decide +kernel),
      h.keeps.pwr (by decide +kernel)]
  rw [State.level, State.level, hrest, h.keeps.fld (by decide +kernel)]

theorem rowActive (r : Nat) : t.rowActive r = s.rowActive r := by
  simp only [State.rowActive, h.rowDrv, h.rowPin, h.drv, h.activeEntry, h.level,
    State.draped_of_pin (h.keeps.pin (by decide +kernel)), h.keeps.pal (by decide +kernel), h.iso]
  rfl

end State.SameLoop

end Sys2Proof.Machine

/-!
Loop gains, nulling ranges and the errors of the loop (R131, R134, R141, R143): what a write to the register of one pin
unit's setting names, how a range change rescales the amplitudes, and what NUL raises.
-/
namespace Sys2Proof.Machine

/-- The sources of faults are a part of their own. -/
theorem Keeps.src {M : Nat} {s t : State} (h : Keeps M s t) (hM : M.testBit 0x2042 = false) (b : Blk) (i : Nat) :
    t.src b i = s.src b i := by
  rw [State.src, State.src, h.srcs hM]

/-! ### The word of a write for one pin unit (Tables 06-8 and 06-11) -/

/-- WR, the pin unit and the value. -/
def pinSetting (p : BitVec 6) (n : Nat) : Word := BitVec.ofNat 32 (2 ^ 31 + p.toNat * 2 ^ 24 + n)

theorem pinSetting_fields (p : BitVec 6) {n : Nat} (hn : n < 16) :
    bitOf (pinSetting p n).toNat 31 = true ∧ bitsOf (pinSetting p n).toNat 29 24 = p.toNat ∧
      (pinSetting p n).toNat % 16 = n := by
  have hp := p.isLt
  have hval : (pinSetting p n).toNat = 2 ^ 31 + p.toNat * 2 ^ 24 + n := by
    rw [pinSetting, BitVec.toNat_ofNat, Nat.mod_eq_of_lt (by omega)]
  rw [hval, bitOf, bitsOf, beq_iff_eq]
  omega

/-! ### NUL_LOOP_GAIN (R134) -/

/-- NUL_LOOP_GAIN names a pin unit, REJECT cleared where the value has it 1. -/
def State.gainNamed (s : State) (v : Word) (p : Nat) : State := (s.storeW1c NUL_LOOP_GAIN v).setFld NUL_LOOP_GAIN_PIN p

/-- The loop gain of a pin unit is stored. -/
def State.gainStored (s : State) (p g : Nat) : State :=
  { s with nul := { s.nul with gain := assocPut s.nul.gain p g 3 } }

/-- A gain is turned away: REJECT is set, and NUL raises its source 3. -/
def State.gainRejected (s : State) (m : Master) : State :=
  (s.setBit NUL_LOOP_GAIN_REJECT true).raiseWith .nul 3 (writeRaise m 0x1301)

section
variable (s : State)

theorem State.gainReg_setting (p : BitVec 6) (g : BitVec 4) (w : Writer) :
    s.gainReg (pinSetting p g.toNat) w wholeWrite =
      if p.toNat < 34 then (s.gainNamed (pinSetting p g.toNat) p.toNat).gainWrite p.toNat g.toNat w.m w.launched
      else s.gainNamed (pinSetting p g.toNat) p.toNat := by
  obtain ⟨hwr, hpin, hgain⟩ := pinSetting_fields p g.isLt
  simp only [State.gainReg, wholeWrite, if_true, hwr, hpin, hgain, Bool.true_and, decide_eq_true_eq]
  rfl

theorem State.gainNamed_keeps (v : Word) (p : Nat) : Keeps (foot [.reg NUL_LOOP_GAIN]) s (s.gainNamed v p) :=
  Keeps.trans (s.setReg_keeps_reg NUL_LOOP_GAIN _) (State.setReg_keeps_reg _ NUL_LOOP_GAIN _)

theorem State.gainNamed_pin (v : Word) {p : Nat} (hp : p < 64) : (s.gainNamed v p).fld NUL_LOOP_GAIN_PIN = p := by
  rw [State.gainNamed, State.fld_setFld_same _ _ _ (by decide)]
  exact Nat.mod_eq_of_lt hp

theorem State.gainNamed_nul (v : Word) (p : Nat) : (s.gainNamed v p).nul = s.nul :=
  (s.gainNamed_keeps v p).nul (by decide +kernel)

theorem State.gainNamed_pinDext (v : Word) (p q : Nat) : (s.gainNamed v p).pinDext q = s.pinDext q :=
  (s.gainNamed_keeps v p).pinDext (by decide +kernel) q

variable {s} in
theorem State.gainWrite_of_enough {p g : Nat} (m : Master) (launched : Bool) (hp : p < 34)
    (h : gMin (s.pinDext p) ≤ g) : s.gainWrite p g m launched = (s.gainStored p g).param launched (s.gainOf p != g) :=
  (if_neg (Nat.not_le.2 hp)).trans (if_neg (Nat.not_lt.2 h))

variable {s} in
theorem State.gainWrite_of_low {p g : Nat} (m : Master) (launched : Bool) (hp : p < 34)
    (h : g < gMin (s.pinDext p)) : s.gainWrite p g m launched = s.gainRejected m :=
  (if_neg (Nat.not_le.2 hp)).trans (if_pos h)

theorem State.gainStored_keeps (p g : Nat) : Keeps (foot [.nul]) s (s.gainStored p g) := (Keeps.refl _ s).upd

theorem State.gainOf_gainStored (p g : Nat) {q : Nat} (hq : q < 34) :
    (s.gainStored p g).gainOf q = if q = p then g else s.gainOf q := by
  rw [State.gainOf, State.gainOf, if_pos hq, if_pos hq]
  split
  next h => rw [h]; exact assocGet_put_same ..
  next h => exact assocGet_put_other _ _ _ _ (Ne.symm h)

/-- A gain is a matter of the loop's hidden state alone. -/
theorem State.gainOf_congr {s t : State} (h : t.nul = s.nul) (q : Nat) : t.gainOf q = s.gainOf q := by
  rw [State.gainOf, State.gainOf, h]

theorem State.gainRejected_reject (m : Master) : (s.gainRejected m).bit NUL_LOOP_GAIN_REJECT = true :=
  ((State.raiseWith_keeps ..).bit (by decide +kernel)).trans (State.bit_setBit_same _ _ _ (by decide) rfl)

theorem State.gainRejected_nul (m : Master) : (s.gainRejected m).nul = s.nul :=
  ((State.raiseWith_keeps ..).nul (by decide +kernel)).trans (s.setBit_nul ..)

theorem State.gainRejected_flags (m : Master) (hfirst : (s.src .nul 3).last ≠ some s.tm.tick) {f : Fld}
    (hf : f ∈ raiseFlags .nul) : bitOf ((s.gainRejected m).fld f) 3 = true := by
  rw [← s.setBit_src NUL_LOOP_GAIN_REJECT true, ← s.setBit_tm NUL_LOOP_GAIN_REJECT true] at hfirst
  exact State.raiseWith_flags rfl (by decide) hfirst _ hf

end

/-! ### NUL_DAC_RANGE (R141) -/

/-- NUL_DAC_RANGE names a pin unit. -/
def State.rangeNamed (s : State) (p : Nat) : State := s.setFld NUL_DAC_RANGE_PIN p

/-- The nulling range of a pin unit is stored. -/
def State.rangeStored (s : State) (p n : Nat) : State :=
  { s with nul := { s.nul with range := assocPut s.nul.range p n 1 } }

/-- A channel counts as saturated, if it does. -/
def State.satMarked (s : State) (ch : Nat) (hit : Bool) : State :=
  if hit then { s with nul := { s.nul with satNow := assocSet s.nul.satNow ch 1 } } else s

/-- An amplitude after a range change, limited to lim. -/
def State.rescaledAmp (s : State) (lim : Int) (old new ch x : Nat) : Int :=
  clampInt (-lim) lim (rescale (s.amp ch x) old new)

/-- A channel takes its amplitudes in the new range. -/
def State.rescaleChannel (s : State) (lim : Int) (old new ch : Nat) : State :=
  ((s.setAmp ch 0 (s.rescaledAmp lim old new ch 0)).setAmp ch 1 (s.rescaledAmp lim old new ch 1)).satMarked ch
    (decide (lim ≤ ((rescale (s.amp ch 0) old new).natAbs : Int)) ||
      decide (lim ≤ ((rescale (s.amp ch 1) old new).natAbs : Int)))

/-- The channels of a column take their amplitudes in the new range. -/
def State.rescaleRows (s : State) (lim : Int) (old new c : Nat) : State :=
  forEach (List.range 64) (fun t r => t.rescaleChannel lim old new (c * 64 + r)) s

/-- A column of pin unit p takes its amplitudes in the new range and carries HOLD. -/
def State.rescaleColumn (s : State) (lim : Int) (p old new c : Nat) : State :=
  (s.rescaleRows lim old new c).holdCol c (25 + (s.rescaleRows lim old new c).pinDext p)

/-- The columns of pin unit p take their amplitudes in its new range. -/
def State.rescalePin (s : State) (p n : Nat) : State :=
  forEach ((List.range 32).filter (fun c => s.colPin c == p))
    (fun t c => t.rescaleColumn s.nulLimit p (s.rangeOf p) n c) (s.rangeStored p n)

section
variable (s : State)

theorem State.rangeReg_setting (p : BitVec 6) (n : BitVec 2) (w : Writer) :
    s.rangeReg (pinSetting p n.toNat) w wholeWrite =
      if p.toNat < 34 then (s.rangeNamed p.toNat).rangeChange p.toNat n.toNat w.launched
      else s.rangeNamed p.toNat := by
  have hn := n.isLt
  obtain ⟨hwr, hpin, hrange⟩ := pinSetting_fields p (n := n.toNat) (by omega)
  have hcode : (pinSetting p n.toNat).toNat % 4 = n.toNat := by omega
  simp only [State.rangeReg, wholeWrite, if_true, hwr, hpin, hcode, Bool.true_and, decide_eq_true_eq]
  rfl

theorem State.rangeNamed_sameChannel (p ch : Nat) : s.SameChannel (s.rangeNamed p) ch :=
  s.setReg_sameChannel (.inl rfl) _ ch

theorem State.rangeNamed_pin {p : Nat} (hp : p < 64) : (s.rangeNamed p).fld NUL_DAC_RANGE_PIN = p := by
  rw [State.rangeNamed, State.fld_setFld_same _ _ _ (by decide)]
  exact Nat.mod_eq_of_lt hp

variable {s} in
theorem State.rangeChange_of_same {p n : Nat} (launched : Bool) (h : 34 ≤ p ∨ n = 3 ∨ s.rangeOf p = n) :
    s.rangeChange p n launched = s := by
  unfold State.rangeChange
  split
  · rfl
  · exact if_pos (by tauto)

variable {s} in
theorem State.rangeChange_of_other {p n : Nat} (launched : Bool) (hp : p < 34) (hn : n < 3) (h : s.rangeOf p ≠ n) :
    s.rangeChange p n launched = (s.rescalePin p n).param launched true :=
  (if_neg (by omega)).trans (if_neg h)

theorem State.rangeOf_rangeStored {p n : Nat} (hn : n < 3) {q : Nat} (hq : q < 34) :
    (s.rangeStored p n).rangeOf q = if q = p then n else s.rangeOf q := by
  rw [State.rangeOf, State.rangeOf, if_pos hq, if_pos hq]
  split
  next h =>
    rw [h, State.rangeStored, assocGet_put_same]
    omega
  next h => exact congrArg (· % 4) (assocGet_put_other _ _ _ _ (Ne.symm h))

theorem State.rangeStored_win (p n : Nat) (b : Blk) (a : Nat) : (s.rangeStored p n).win b a = s.win b a := (rfl)

theorem State.satMarked_sameLoop (ch : Nat) (hit : Bool) : s.SameLoop (s.satMarked ch hit) := by
  cases hit
  · exact .refl s
  · exact s.setNul_sameLoop rfl

theorem State.satMarked_sameChannel (ch : Nat) (hit : Bool) (q : Nat) : s.SameChannel (s.satMarked ch hit) q := by
  cases hit
  · exact .refl q s
  · exact s.setNul_sameChannel rfl rfl rfl rfl rfl

theorem State.rescaleChannel_sameChannel (lim : Int) (old new : Nat) {ch q : Nat} (hch : ch < 2048) (hq : q < 2048)
    (h : q ≠ ch) : s.SameChannel (s.rescaleChannel lim old new ch) q :=
  ((s.setAmp_sameChannel hch Nat.zero_lt_two _ hq h).trans
    (State.setAmp_sameChannel _ hch Nat.one_lt_two _ hq h)).trans (State.satMarked_sameChannel ..)

theorem State.rescaleChannel_sameLoop (lim : Int) (old new : Nat) {ch : Nat} (hch : ch < 2048) :
    s.SameLoop (s.rescaleChannel lim old new ch) :=
  ((s.setAmp_sameLoop hch Nat.zero_lt_two _).trans (State.setAmp_sameLoop _ hch Nat.one_lt_two _)).trans
    (State.satMarked_sameLoop ..)

theorem State.rescaleChannel_amp {lim : Int} (hlim : ∀ v, FitsAmp (clampInt (-lim) lim v)) (old new : Nat) {ch x : Nat}
    (hch : ch < 2048) (hx : x < 2) :
    (s.rescaleChannel lim old new ch).amp ch x = s.rescaledAmp lim old new ch x := by
  obtain ⟨hI, hQ⟩ := s.amp_setAmp_both hch (v := s.rescaledAmp lim old new ch 0) (w := s.rescaledAmp lim old new ch 1)
    (hlim _) (hlim _)
  rw [State.rescaleChannel, (State.satMarked_sameChannel ..).amp hx]
  obtain rfl | rfl : x = 0 ∨ x = 1 := by omega
  · exact hI
  · exact hQ

theorem State.rescaleRows_sameLoop (lim : Int) (old new : Nat) {c : Nat} (hc : c < 32) :
    s.SameLoop (s.rescaleRows lim old new c) :=
  SameLoop.forEach (fun t r hr => t.rescaleChannel_sameLoop lim old new (by rw [List.mem_range] at hr; omega)) s

theorem State.rescaleRows_sameChannel (lim : Int) (old new : Nat) {c q : Nat} (hc : c < 32) (hq : q < 2048)
    (h : q / 64 ≠ c) : s.SameChannel (s.rescaleRows lim old new c) q := by
  refine SameChannel.forEach (fun t r hr => ?_) s
  rw [List.mem_range] at hr
  exact t.rescaleChannel_sameChannel lim old new (by omega) hq (by omega)

/-- Each channel of the column is rescaled from what it was. -/
theorem State.rescaleRows_amp {lim : Int} (hlim : ∀ v, FitsAmp (clampInt (-lim) lim v)) (old new : Nat) {c r x : Nat}
    (hc : c < 32) (hr : r < 64) (hx : x < 2) :
    (s.rescaleRows lim old new c).amp (c * 64 + r) x = s.rescaledAmp lim old new (c * 64 + r) x := by
  have hother (t : State) (q : Nat) (hq : q ∈ List.range 64) (hne : q ≠ r) :
      t.SameChannel (t.rescaleChannel lim old new (c * 64 + q)) (c * 64 + r) := by
    rw [List.mem_range] at hq
    exact t.rescaleChannel_sameChannel lim old new (by omega) (by omega) (by omega)
  obtain ⟨t, hbefore, hafter⟩ := SameChannel.turn List.nodup_range (List.mem_range.2 hr) hother s
  rw [State.rescaleRows, hafter.amp hx, t.rescaleChannel_amp hlim old new (by omega) hx, State.rescaledAmp,
    hbefore.amp hx]
  rfl

theorem State.rescaleColumn_sameLoop (lim : Int) (p old new : Nat) {c : Nat} (hc : c < 32) :
    s.SameLoop (s.rescaleColumn lim p old new c) :=
  (s.rescaleRows_sameLoop lim old new hc).trans (State.setColCh_sameChannel _ _ _ 0).loop

theorem State.rescaleColumn_sameChannel (lim : Int) (p old new : Nat) {c q : Nat} (hc : c < 32) (hq : q < 2048)
    (h : q / 64 ≠ c) : s.SameChannel (s.rescaleColumn lim p old new c) q :=
  (s.rescaleRows_sameChannel lim old new hc hq h).trans (State.setColCh_sameChannel ..)

theorem State.rescaleColumn_amp {lim : Int} (hlim : ∀ v, FitsAmp (clampInt (-lim) lim v)) (p old new : Nat)
    {c r x : Nat} (hc : c < 32) (hr : r < 64) (hx : x < 2) :
    (s.rescaleColumn lim p old new c).amp (c * 64 + r) x = s.rescaledAmp lim old new (c * 64 + r) x :=
  ((State.setColCh_sameChannel ..).amp hx).trans (s.rescaleRows_amp hlim old new hc hr hx)

theorem State.rangeStored_rescalePin (p n : Nat) : (s.rangeStored p n).SameLoop (s.rescalePin p n) :=
  SameLoop.forEach (fun t _ hc => t.rescaleColumn_sameLoop _ p _ n (List.mem_range.1 (List.mem_of_mem_filter hc))) _

/-- The channels of the columns of the pin unit are rescaled, the others keep their amplitudes. -/
theorem State.rescalePin_amp (p n : Nat) {c r x : Nat} (hc : c < 32) (hr : r < 64) (hx : x < 2) :
    (s.rescalePin p n).amp (c * 64 + r) x =
      if s.colPin c = p then s.rescaledAmp s.nulLimit (s.rangeOf p) n (c * 64 + r) x else s.amp (c * 64 + r) x := by
  have hother (t : State) (d : Nat) (hd : d ∈ (List.range 32).filter (fun c => s.colPin c == p)) (hne : d ≠ c) :
      t.SameChannel (t.rescaleColumn s.nulLimit p (s.rangeOf p) n d) (c * 64 + r) :=
    t.rescaleColumn_sameChannel _ p _ n (List.mem_range.1 (List.mem_of_mem_filter hd)) (by omega) (by omega)
  split
  next hpin =>
    have hmem : c ∈ (List.range 32).filter (fun c => s.colPin c == p) :=
      List.mem_filter.2 ⟨List.mem_range.2 hc, beq_iff_eq.2 hpin⟩
    obtain ⟨t, hbefore, hafter⟩ := SameChannel.turn (List.nodup_range.filter _) hmem hother (s.rangeStored p n)
    rw [State.rescalePin, hafter.amp hx, t.rescaleColumn_amp s.fitsAmp_clamp p _ n hc hr hx, State.rescaledAmp,
      hbefore.amp hx]
    rfl
  next hpin =>
    refine (SameChannel.forEach (fun t d hd => hother t d hd ?_) (s.rangeStored p n)).amp hx
    rintro rfl
    exact hpin (beq_iff_eq.1 (List.mem_filter.1 hd).2)

end

/-! ### Errors (R131, R143) -/

/-- NUL raises its source 6 for a word. -/
def State.nulErrorRaised (s : State) (a : Nat) : State := s.raiseWith .nul 6 { plainRaise .nul with addr := a }

/-- A bad word is noted: an amplitude's channel, a primer word, a rotation or rho word. -/
def NulSt.noted (n : NulSt) (a : Nat) : NulSt :=
  { n with zeroCh := n.zeroCh ++ (if a < 0x1000 then [a / 2] else []),
           primerBad := n.primerBad ++ (if 0x1000 ≤ a ∧ a < 0x2000 then [a] else []),
           wordBad := n.wordBad ++ (if 0x3000 ≤ a then [a] else []) }

section
variable (s : State)

theorem State.nulWordError_nul (a : Nat) : (s.nulWordError a).nul = s.nul.noted a := by
  have hraised : (s.nulErrorRaised a).nul = s.nul := (State.raiseWith_keeps ..).nul (by decide +kernel)
  have heq : s.nulWordError a = if a < 0x1000 then _ else if a < 0x2000 then _ else if 0x3000 ≤ a then _ else
    s.nulErrorRaised a := rfl
  rw [heq, ← hraised, NulSt.noted]
  split
  next hamp =>
    rw [if_neg (by omega), if_neg (by omega), List.append_nil, List.append_nil]
    rfl
  next hamp =>
    rw [List.append_nil]
    split
    next hprimer =>
      rw [if_pos (by omega), if_neg (by omega), List.append_nil]
      rfl
    next hprimer =>
      have hnot : ¬ (0x1000 ≤ a ∧ a < 0x2000) := by omega
      rw [if_neg hnot, List.append_nil]
      by_cases hword : 0x3000 ≤ a
      · rw [if_pos hword, if_pos hword]
        rfl
      · rw [if_neg hword, if_neg hword, List.append_nil]

theorem State.nulWordError_fld (a : Nat) (f : Fld) : (s.nulWordError a).fld f = (s.nulErrorRaised a).fld f := by
  unfold State.nulWordError
  extract_lets r s1
  split
  · rfl
  · split
    · rfl
    · split <;> rfl

theorem State.satPersists_flags (c : Nat) (hfirst : (s.src .nul 0).last ≠ some s.tm.tick) {f : Fld}
    (hf : f ∈ raiseFlags .nul) : bitOf ((s.satPersists c).fld f) 0 = true := by
  rw [State.satPersists, (State.standing_keeps ..).fld]
  · exact State.raiseWith_flags rfl (by decide) hfirst _ hf
  · revert f
    decide +kernel

end

/-! ### The commands -/

section
variable {s : State} (hclk : s.tm.clk = true) (hpow : s.pin.fieldPower = true)
include hclk hpow

theorem execNulLoopGainWrite_of_powered (p : BitVec 6) (g : BitVec 4) (w : Writer) :
    exec (.nulLoopGainWrite p g w) s = .next
      (if p.toNat < 34 then (s.gainNamed (pinSetting p g.toNat) p.toNat).gainWrite p.toNat g.toNat w.m w.launched
        else s.gainNamed (pinSetting p g.toNat) p.toNat) :=
  congrArg Host.Outcome.next ((State.onField_of_powered hclk hpow _).trans (s.gainReg_setting p g w))

theorem execNullingRangeChange_of_powered (p : BitVec 6) (n : BitVec 2) (w : Writer) :
    exec (.nullingRangeChange p n w) s = .next
      (if p.toNat < 34 then (s.rangeNamed p.toNat).rangeChange p.toNat n.toNat w.launched
        else s.rangeNamed p.toNat) :=
  congrArg Host.Outcome.next ((State.onField_of_powered hclk hpow _).trans (s.rangeReg_setting p n w))

theorem execNulMemoryError_of_powered (a : BitVec 20) :
    exec (.nulMemoryError a) s = .next (s.nulWordError a.toNat) :=
  congrArg Host.Outcome.next (State.onField_of_powered hclk hpow _)

theorem execPersistentSat_of_powered (c : Fin 32) (r : Fin 64) :
    exec (.persistentSat c r) s = .next (s.satPersists c.val) :=
  congrArg Host.Outcome.next (State.onField_of_powered hclk hpow _)

end

/-- Settles O33: each setting is stored for one pin unit, a range change rescales each channel in a round of its own,
and what NUL raises leaves its hidden state alone. -/
theorem nullingSettingsAndErrors : Obligations.NullingSettingsAndErrors := by
  intro s hclk hpow
  refine ⟨fun p g w => ⟨fun hp henough => ?gain, fun hp hlow => ?gainRejected, fun hp => ?gainPast⟩,
    fun p n w => ⟨fun hp hn hother => ?range, fun hsame => ?rangeSame⟩, fun a => ?error, fun c r => ?sat⟩
  case gain =>
    have hexec := execNulLoopGainWrite_of_powered hclk hpow p g w
    have hnamed := s.gainNamed_keeps (pinSetting p g.toNat) p.toNat
    rw [← s.gainNamed_pinDext (pinSetting p g.toNat) p.toNat] at henough
    rw [if_pos hp, State.gainWrite_of_enough w.m w.launched hp henough] at hexec
    refine ⟨_, hexec, ?_, fun q hq => ?_⟩
    · exact (State.param_keeps ..).stepFoot (by simp)
        ((State.gainStored_keeps ..).stepFoot (by simp) (hnamed.monoFoot (by simp)))
    · rw [State.gainOf_congr ((State.param_keeps ..).nul (by decide +kernel)), State.gainOf_gainStored _ _ _ hq,
        State.gainOf_congr (s.gainNamed_nul ..)]
  case gainRejected =>
    have hexec := execNulLoopGainWrite_of_powered hclk hpow p g w
    have hkeeps := execNulLoopGainWrite_keeps p g w s hexec
    have hnamed := s.gainNamed_keeps (pinSetting p g.toNat) p.toNat
    rw [← s.gainNamed_pinDext (pinSetting p g.toNat) p.toNat] at hlow
    rw [if_pos hp, State.gainWrite_of_low w.m w.launched hp hlow] at hexec hkeeps
    refine ⟨_, hexec, hkeeps, State.gainRejected_reject .., ?_, fun hfirst => ?_⟩
    · rw [State.gainRejected_nul, State.gainNamed_nul]
    · rw [← hnamed.src (by decide +kernel), ← hnamed.tm (by decide +kernel)] at hfirst
      exact ⟨State.gainRejected_flags _ _ hfirst List.mem_cons_self,
        State.gainRejected_flags _ _ hfirst (List.mem_cons_of_mem _ List.mem_cons_self)⟩
  case gainPast =>
    have hexec := execNulLoopGainWrite_of_powered hclk hpow p g w
    rw [if_neg (Nat.not_lt.2 hp)] at hexec
    exact ⟨_, hexec, s.gainNamed_keeps .., s.gainNamed_pin _ p.isLt⟩
  case range =>
    have hexec := execNullingRangeChange_of_powered hclk hpow p n w
    have hkeeps := execNullingRangeChange_keeps p n w s hexec
    have hnamed := (s.rangeNamed_sameChannel p.toNat 0).loop
    have hparam (ch : Nat) := ((s.rangeNamed p.toNat).rescalePin p.toNat n.toNat).param_sameChannel
      w.launched true ch
    have hloop := (s.rangeNamed p.toNat).rangeStored_rescalePin p.toNat n.toNat
    rw [← hnamed.rangeOf] at hother
    rw [if_pos hp, State.rangeChange_of_other w.launched hp hn hother] at hexec hkeeps
    refine ⟨_, hexec, hkeeps, fun q hq => ?_, fun c r x hc hr hx => ?_, fun a hlow hhigh => ?_⟩
    · rw [(hloop.trans (hparam 0).loop).rangeOf, State.rangeOf_rangeStored _ hn hq, hnamed.rangeOf]
    · rw [(hparam _).amp hx, State.rescalePin_amp _ _ _ hc hr hx, State.rescaledAmp, hnamed.colPin, hnamed.nulLimit,
        hnamed.rangeOf, (s.rangeNamed_sameChannel ..).amp hx]
    · rw [(hloop.trans (hparam 0).loop).table a hlow hhigh, State.rangeStored_win, hnamed.table a hlow hhigh]
  case rangeSame =>
    have hexec := execNullingRangeChange_of_powered hclk hpow p n w
    rw [← (s.rangeNamed_sameChannel p.toNat 0).loop.rangeOf] at hsame
    rw [State.rangeChange_of_same w.launched hsame, ite_self] at hexec
    exact ⟨_, hexec, s.setReg_keeps_reg NUL_DAC_RANGE _, s.rangeNamed_pin p.isLt⟩
  case error =>
    have hexec := execNulMemoryError_of_powered hclk hpow a
    have hnul := s.nulWordError_nul a.toNat
    refine ⟨_, hexec, execNulMemoryError_keeps a s hexec, congrArg NulSt.zeroCh hnul, congrArg NulSt.primerBad hnul,
      congrArg NulSt.wordBad hnul, fun hfirst => ?_⟩
    rw [s.nulWordError_fld, s.nulWordError_fld]
    exact ⟨State.raiseWith_flags rfl (by decide) hfirst _ List.mem_cons_self,
      State.raiseWith_flags rfl (by decide) hfirst _ (List.mem_cons_of_mem _ List.mem_cons_self)⟩
  case sat =>
    have hexec := execPersistentSat_of_powered hclk hpow c r
    exact ⟨_, hexec, execPersistentSat_keeps c r s hexec, State.standing_holds .., fun hfirst =>
      ⟨s.satPersists_flags c.val hfirst List.mem_cons_self,
        s.satPersists_flags c.val hfirst (List.mem_cons_of_mem _ List.mem_cons_self)⟩⟩

end Sys2Proof.Machine

/-!
Loop starts and captures (R136, R137, R139): what every channel holds after a loop start, what a CAPTURE finds that is
taken up, and which primer words its end still writes.
-/
namespace Sys2Proof.Machine

/-! ### A loop start (R136, R137) -/

/-- The amplitude with which a channel starts: its scaled primer word, 0 on an inactive row. -/
def State.primedAmp (s : State) (ch x : Nat) : Int :=
  if s.rowActive (ch % 64) then
    primed (s.primer ch x) (s.drv (s.rowDrv (ch % 64))).a (s.palEntry s.activeBank (s.rowPin (ch % 64))).ampl s.nulLimit
  else 0

/-- A channel as a loop start leaves it. -/
def State.primedChannel (s : State) (ch : Nat) : Channel := ⟨s.primedAmp ch 0, s.primedAmp ch 1, 0, false⟩

/-- Every channel is loaded. -/
def State.channelsPrimed (s : State) : State :=
  forEach (List.range 2048) (fun t ch => t.setChannel ch (t.primedChannel ch)) s

/-- The strokes that still see the old amplitudes are bad in every column (R129). -/
def State.columnsUnsettled (s : State) : State :=
  forEach (List.range 32) (fun t c =>
    t.setColCh c { t.colCh c with
      badBefore := max (t.colCh c).badBefore (t.tm.tick + 17 + t.pinDext (t.colPin c)) }) s

/-- The loop runs from this tick on. -/
def NulSt.begun (n : NulSt) (tick : Nat) : NulSt :=
  { n with started := true, startTick := tick, reprime := false, primerBad := [] }

/-- The loop runs from a tick on. -/
def State.loopBegun (s : State) (tick : Nat) : State := { s with nul := s.nul.begun tick }

section
variable (s : State)

theorem State.loopStart_eq :
    s.loopStart = (s.channelsPrimed.columnsUnsettled.loopBegun s.tm.tick).inc NUL_PRIMER_CTRL_START_COUNT := by
  unfold State.loopStart State.channelsPrimed State.columnsUnsettled
  generalize List.range 2048 = channels
  generalize List.range 32 = columns
  rfl

theorem State.loopBegun_nul (tick : Nat) : (s.loopBegun tick).nul = s.nul.begun tick := (rfl)

theorem State.loopBegun_keeps (tick : Nat) : Keeps (foot [.nul]) s (s.loopBegun tick) := (Keeps.refl _ s).upd

theorem State.fitsAmp_primedAmp (ch x : Nat) : FitsAmp (s.primedAmp ch x) := by
  unfold State.primedAmp primed
  split
  · split
    · exact fitsAmp_zero
    · exact s.fitsAmp_clamp _
  · exact fitsAmp_zero

/-- Where a channel starts does not hang on the other channels. -/
theorem State.SameLoop.primedAmp {s t : State} (h : s.SameLoop t) {ch x : Nat} (hch : ch < 2048) (hx : x < 2) :
    t.primedAmp ch x = s.primedAmp ch x := by
  have hbad : t.nul.primerBad = s.nul.primerBad := by
    have hcommon := h.common
    simp only [NulSt.common, NulSt.mk.injEq] at hcommon
    simp only [hcommon]
  have hprimer : t.primer ch x = s.primer ch x := by
    rw [State.primer, State.primer, hbad, State.nulSigned, State.nulSigned, State.winN, State.winN,
      h.table _ (by omega) (by omega)]
  rw [State.primedAmp, State.primedAmp, h.rowActive, hprimer, h.drv, h.rowDrv, h.rowPin, h.activeEntry, h.nulLimit]

theorem State.channelsPrimed_sameLoop : s.SameLoop s.channelsPrimed :=
  SameLoop.forEach (fun t _ hch => t.setChannel_sameLoop (List.mem_range.1 hch) _) s

theorem State.channelsPrimed_keeps : Keeps (foot [.win .nul, .nul]) s s.channelsPrimed :=
  Keeps.forEach _ _ (fun _ _ h => (State.setConv_keeps ..).stepFoot (by simp)
    ((h.trans (State.setAmp_keeps ..)).trans (State.setAmp_keeps ..))) (Keeps.refl _ s)

/-- Each channel is loaded from what the loop held before. -/
theorem State.channelsPrimed_channel {ch : Nat} (hch : ch < 2048) :
    s.channelsPrimed.channel ch = s.primedChannel ch := by
  have hother (t : State) (q : Nat) (hq : q ∈ List.range 2048) (hne : q ≠ ch) :
      t.SameChannel (t.setChannel q (t.primedChannel q)) ch :=
    t.setChannel_sameChannel (List.mem_range.1 hq) _ hch hne.symm
  obtain ⟨t, hbefore, hafter⟩ := SameChannel.turn List.nodup_range (List.mem_range.2 hch) hother s
  rw [State.channelsPrimed, hafter.own,
    t.setChannel_channel hch (t.fitsAmp_primedAmp ch 0) (t.fitsAmp_primedAmp ch 1), State.primedChannel,
    hbefore.loop.primedAmp hch Nat.zero_lt_two, hbefore.loop.primedAmp hch Nat.one_lt_two]
  rfl

theorem State.columnsUnsettled_keeps : Keeps (foot [.col]) s s.columnsUnsettled :=
  Keeps.forEach _ _ (fun _ _ h => h.trans (State.setColCh_keeps ..)) (Keeps.refl _ s)

end

/-- t is s after a loop start. -/
structure State.LoopStarted (s t : State) : Prop where
  keeps     : Keeps (foot [.reg NUL_PRIMER_CTRL, .reg GLB_DETERMINISM, .faults, .win .nul, .col, .nul]) s t
  started   : t.nul.started = true
  startTick : t.nul.startTick = s.tm.tick
  reprime   : t.nul.reprime = false
  primerBad : t.nul.primerBad = []
  count     : t.fld NUL_PRIMER_CTRL_START_COUNT = min (s.fld NUL_PRIMER_CTRL_START_COUNT + 1) 255
  table     : ∀ a, 0x1000 ≤ a → a < 2 ^ 24 → t.win .nul a = s.win .nul a
  channel   : ∀ ch, ch < 2048 → t.channel ch = s.primedChannel ch

section
variable (s : State)

theorem State.loopStart_nul : s.loopStart.nul = s.channelsPrimed.nul.begun s.tm.tick := by
  rw [State.loopStart_eq, State.inc, State.count, State.setFld_nul, State.loopBegun_nul,
    s.channelsPrimed.columnsUnsettled_keeps.nul (by decide +kernel)]

theorem State.loopStart_count : s.loopStart.fld NUL_PRIMER_CTRL_START_COUNT =
    min (s.fld NUL_PRIMER_CTRL_START_COUNT + 1) 255 := by
  rw [State.loopStart_eq, State.inc, State.fld_count_same _ _ (by decide),
    (State.loopBegun_keeps ..).fld (by decide +kernel),
    s.channelsPrimed.columnsUnsettled_keeps.fld (by decide +kernel), s.channelsPrimed_keeps.fld (by decide +kernel)]
  rfl

theorem State.loopStart_win (a : Nat) : s.loopStart.win .nul a = s.channelsPrimed.win .nul a := by
  rw [State.loopStart_eq, State.inc, State.count, State.setFld_win,
    (State.loopBegun_keeps ..).win .nul a (by decide +kernel),
    s.channelsPrimed.columnsUnsettled_keeps.win .nul a (by decide +kernel)]

/-- That the loop runs is no matter of CNT and DONE. -/
theorem NulSt.begun_conv (n : NulSt) (tick : Nat) : (n.begun tick).conv = n.conv := (rfl)

theorem State.loopStart_channel {ch : Nat} (hch : ch < 2048) : s.loopStart.channel ch = s.primedChannel ch := by
  have hconv : s.loopStart.nul.conv = s.channelsPrimed.nul.conv :=
    (congrArg NulSt.conv s.loopStart_nul).trans (NulSt.begun_conv ..)
  exact (State.channel_congr s.loopStart_win hconv ch).trans (s.channelsPrimed_channel hch)

end

/-- A loop start after what shows itself in the loop's registers alone. -/
theorem State.SameLoop.loopStarted {s u : State} (h : s.SameLoop u)
    (hkeeps : Keeps (foot [.reg NUL_PRIMER_CTRL, .reg GLB_DETERMINISM, .faults, .nul]) s u)
    (hcount : u.fld NUL_PRIMER_CTRL_START_COUNT = s.fld NUL_PRIMER_CTRL_START_COUNT) : s.LoopStarted u.loopStart where
  keeps := u.loopStart_keeps.stepFoot (by simp) (hkeeps.monoFoot (by simp))
  started := congrArg NulSt.started u.loopStart_nul
  startTick := (congrArg NulSt.startTick u.loopStart_nul).trans
    (congrArg TimeSt.tick (h.keeps.tm (by decide +kernel)))
  reprime := congrArg NulSt.reprime u.loopStart_nul
  primerBad := congrArg NulSt.primerBad u.loopStart_nul
  count := by rw [u.loopStart_count, hcount]
  table a hlow hhigh := by rw [u.loopStart_win, u.channelsPrimed_sameLoop.table a hlow hhigh, h.table a hlow hhigh]
  channel ch hch := by
    rw [u.loopStart_channel hch, State.primedChannel, h.primedAmp hch Nat.zero_lt_two, h.primedAmp hch Nat.one_lt_two]
    rfl

/-! ### NUL_REPRIME (R136) -/

/-- A REPRIME waits. -/
def State.reprimeWaits (s : State) : State := { s with nul := { s.nul with reprime := true } }

section
variable (s : State)

/-- REPRIME is no W1C bit: the store of those leaves the register as it is. -/
theorem State.storeW1c_reprime : s.storeW1c NUL_PRIMER_CTRL 1 = s.setReg NUL_PRIMER_CTRL (s.reg NUL_PRIMER_CTRL) := by
  have hnone : (1 : Word) &&& BitVec.ofNat 32 (maskOf NUL_PRIMER_CTRL (fun r => r.w1c)) = 0#32 := by decide +kernel
  rw [State.storeW1c_eq, hnone, BitVec.not_zero, BitVec.and_allOnes]

theorem State.nulWrite_reprime (w : Writer) : s.nulWrite NUL_PRIMER_CTRL (BitVec.ofNat 32 1) w wholeWrite =
    ((s.setReg NUL_PRIMER_CTRL (s.reg NUL_PRIMER_CTRL)).reprimeWaits).param w.launched true := by
  rw [← s.storeW1c_reprime]
  rfl

theorem State.reprimeWaits_sameLoop : s.SameLoop s.reprimeWaits := s.setNul_sameLoop rfl

theorem State.reprimeWaits_keeps : Keeps (foot [.nul]) s s.reprimeWaits := (Keeps.refl _ s).upd

/-- A REPRIME shows itself in the loop's registers alone, and START_COUNT is as it was. -/
theorem State.nulWrite_reprime_loopStarted (w : Writer) :
    s.LoopStarted (s.nulWrite NUL_PRIMER_CTRL (BitVec.ofNat 32 1) w wholeWrite).loopStart := by
  rw [s.nulWrite_reprime w]
  have hstore := s.setReg_keeps_reg NUL_PRIMER_CTRL (s.reg NUL_PRIMER_CTRL)
  have hreg := congrArg (fldGet NUL_PRIMER_CTRL_START_COUNT)
    (s.reg_setReg_same NUL_PRIMER_CTRL (s.reg NUL_PRIMER_CTRL))
  refine State.SameLoop.loopStarted ?_ ?_ ?_
  · exact ((s.setReg_sameChannel (.inr rfl) _ 0).loop.trans (State.reprimeWaits_sameLoop _)).trans
      (State.param_sameChannel _ _ _ 0).loop
  · exact (State.param_keeps ..).stepFoot (by simp)
      ((State.reprimeWaits_keeps _).stepFoot (by simp) (hstore.monoFoot (by simp)))
  · rw [(State.param_keeps ..).fld (by decide +kernel), (State.reprimeWaits_keeps _).fld (by decide +kernel)]
    exact hreg

end

/-! ### NUL_CAPTURE (R139) -/

/-- A serving driver is in none of STEADY, OFF and HIGHZ. -/
def State.unsteady (s : State) : Bool :=
  (List.range 64).any (fun r =>
    s.drvState (s.rowDrv r) != 0 && s.drvState (s.rowDrv r) != 3 && s.drvState (s.rowDrv r) != 4)

/-- A capture begins with nothing taken. -/
def State.captureBegun (s : State) : State :=
  ({ s with nul := { s.nul with capture := some ⟨s.tm.tick, [], false, 0⟩ } }).setBit NUL_PRIMER_CTRL_CAPTURE_BUSY true

/-- CAPTURE is turned away: CAPTURE_REJECT is set, and NUL raises its source 4. -/
def State.captureRejected (s : State) (m : Master) : State :=
  (s.setBit NUL_PRIMER_CTRL_CAPTURE_REJECT true).raiseWith .nul 4 (writeRaise m 0x1309)

section
variable {s : State}

theorem State.unsteady_eq_true_iff : s.unsteady = true ↔ ∃ r, r < 64 ∧ s.drvState (s.rowDrv r) ≠ 0 ∧
    s.drvState (s.rowDrv r) ≠ 3 ∧ s.drvState (s.rowDrv r) ≠ 4 := by
  simp [State.unsteady, and_assoc]

theorem State.captureReq_of_ready (m : Master) (launched : Bool) (hrun : s.glb = 7)
    (hfree : s.bit NUL_PRIMER_CTRL_CAPTURE_BUSY = false) (hsteady : s.unsteady = false) :
    s.captureReq m launched = s.captureBegun.param launched true := by
  refine if_neg ?_
  rw [not_or, not_or, not_not]
  exact ⟨hrun, ne_true_of_eq_false hsteady, ne_true_of_eq_false hfree⟩

theorem State.captureReq_of_barred (m : Master) (launched : Bool)
    (h : s.glb ≠ 7 ∨ s.unsteady = true ∨ s.bit NUL_PRIMER_CTRL_CAPTURE_BUSY = true) :
    s.captureReq m launched = s.captureRejected m := if_pos h

end

section
variable (s : State)

theorem State.captureBegun_keeps : Keeps (foot [.reg NUL_PRIMER_CTRL, .nul]) s s.captureBegun :=
  (State.setReg_keeps_reg _ NUL_PRIMER_CTRL _).stepFoot (by simp) (Keeps.refl _ s).upd

theorem State.captureBegun_nul : s.captureBegun.nul = { s.nul with capture := some ⟨s.tm.tick, [], false, 0⟩ } := by
  rw [State.captureBegun, State.setBit_nul]

theorem State.captureBegun_bits : s.captureBegun.bit NUL_PRIMER_CTRL_CAPTURE_BUSY = true ∧
    s.captureBegun.bit NUL_PRIMER_CTRL_CAPTURE_REJECT = s.bit NUL_PRIMER_CTRL_CAPTURE_REJECT := by
  refine ⟨State.bit_setBit_same _ _ _ (by decide) rfl, ?_⟩
  rw [State.captureBegun, State.bit_setBit_other _ _ (by decide) (by decide)]
  rfl

theorem State.captureRejected_nul (m : Master) : (s.captureRejected m).nul = s.nul :=
  ((State.raiseWith_keeps ..).nul (by decide +kernel)).trans (s.setBit_nul ..)

theorem State.captureRejected_reject (m : Master) : (s.captureRejected m).bit NUL_PRIMER_CTRL_CAPTURE_REJECT = true :=
  ((State.raiseWith_keeps ..).bit (by decide +kernel)).trans (State.bit_setBit_same _ _ _ (by decide) rfl)

theorem State.captureRejected_latch (m : Master) (hfirst : (s.src .nul 4).last ≠ some s.tm.tick) :
    bitOf ((s.captureRejected m).fld (FLT_LATCH_LATCH (blkBase .nul))) 4 = true := by
  rw [← s.setBit_src NUL_PRIMER_CTRL_CAPTURE_REJECT true, ← s.setBit_tm NUL_PRIMER_CTRL_CAPTURE_REJECT true] at hfirst
  exact State.raiseWith_flags rfl (by decide) hfirst _ List.mem_cons_self

/-! ### CAPTURE_DONE (R139) -/

/-- A capture writes the two primer words of a channel. -/
theorem State.captureWord_win_other (vals : Assoc W24) {k a : Nat} (hk : k < 2048) (ha : a < 2 ^ 24)
    (h : a ≠ 0x1000 + 2 * k ∧ a ≠ 0x1001 + 2 * k) : (s.captureWord vals k).win .nul a = s.win .nul a := by
  rw [State.captureWord, State.win_setWin_other, State.win_setWin_other]
  · rw [winKey_eq, winKey_eq]
    omega
  · rw [winKey_eq, winKey_eq]
    omega

theorem State.captureWord_win_same (vals : Assoc W24) {k x : Nat} (hx : x < 2) :
    (s.captureWord vals k).win .nul (0x1000 + 2 * k + x) = assocGet vals (winKey .nul (2 * k + x)) 0 := by
  obtain rfl | rfl : x = 0 ∨ x = 1 := by omega
  · rw [State.captureWord, State.win_setWin_other]
    · exact State.win_setWin_same ..
    · rw [winKey_eq, winKey_eq]
      omega
  · rw [show 0x1000 + 2 * k + 1 = 0x1001 + 2 * k by omega]
    exact State.win_setWin_same ..

end

/-- The channels whose primer words a capture has still to write. -/
theorem mem_drop_range {n k j : Nat} : j ∈ (List.range n).drop k ↔ k ≤ j ∧ j < n := by
  rw [List.range_eq_range', List.drop_range', List.mem_range'_1]
  omega

section
variable {s : State} {k : Capture} (hcap : s.nul.capture = some k)
include hcap

theorem State.captureRest_of_some :
    s.captureRest = forEach ((List.range 2048).drop k.doneN) (fun t j => t.captureWord k.vals j) s := by
  rw [State.captureRest, hcap]

theorem State.captureRest_win_other {a : Nat} (ha : a < 2 ^ 24)
    (h : ∀ j, k.doneN ≤ j → j < 2048 → a ≠ 0x1000 + 2 * j ∧ a ≠ 0x1001 + 2 * j) :
    s.captureRest.win .nul a = s.win .nul a := by
  rw [State.captureRest_of_some hcap]
  refine forEach_value (State.win · .nul a) (fun t j hj => ?_) s
  obtain ⟨hlow, hhigh⟩ := mem_drop_range.1 hj
  exact t.captureWord_win_other _ hhigh ha (h j hlow hhigh)

/-- A word that is still to come takes the snapshot's value. -/
theorem State.captureRest_win_written {j x : Nat} (hlow : k.doneN ≤ j) (hhigh : j < 2048) (hx : x < 2) :
    s.captureRest.win .nul (0x1000 + 2 * j + x) = assocGet k.vals (winKey .nul (2 * j + x)) 0 := by
  rw [State.captureRest_of_some hcap]
  have hother (t : State) (i : Nat) (hi : i ∈ (List.range 2048).drop k.doneN) (hne : i ≠ j) :=
    t.captureWord_win_other k.vals (mem_drop_range.1 hi).2 (a := 0x1000 + 2 * j + x) (by omega) (by omega)
  obtain ⟨t, -, hafter⟩ := forEach_turn_value (State.win · .nul (0x1000 + 2 * j + x))
    (List.nodup_range.sublist (List.drop_sublist k.doneN _)) (mem_drop_range.2 ⟨hlow, hhigh⟩) hother s
  exact hafter.trans (t.captureWord_win_same k.vals hx)

theorem State.captureEnd_eq : s.captureEnd =
    ((({ s.captureRest with nul := { s.captureRest.nul with capture := none } }).setBit NUL_PRIMER_CTRL_CAPTURE_BUSY
      false).note .brush 0x13).dropTimers (fun i => i == Instr.captureDone) := by
  refine if_neg ?_
  rw [hcap]
  exact Bool.false_ne_true

theorem State.captureEnd_win (a : Nat) : s.captureEnd.win .nul a = s.captureRest.win .nul a := by
  rw [State.captureEnd_eq hcap, State.dropTimers_win, (State.note_keeps ..).win .nul a (by decide +kernel),
    State.setBit_win]
  rfl

theorem State.captureEnd_nul : s.captureEnd.nul = { s.nul with capture := none } := by
  rw [State.captureEnd_eq hcap, State.dropTimers_nul, (State.note_keeps ..).nul (by decide +kernel), State.setBit_nul,
    s.captureRest_keeps.nul (by decide +kernel)]

theorem State.captureEnd_busy : s.captureEnd.bit NUL_PRIMER_CTRL_CAPTURE_BUSY = false := by
  rw [State.captureEnd_eq hcap, State.dropTimers_bit, (State.note_keeps ..).bit (by decide +kernel)]
  exact State.bit_setBit_same _ _ _ (by decide) rfl

theorem State.captureEnd_timers {e : Nat × Instr} (he : e ∈ s.captureEnd.timers) : e.2 ≠ .captureDone := by
  rw [State.captureEnd_eq hcap] at he
  simpa using (List.mem_filter.1 he).2

end

/-! ### The commands -/

section
variable {s : State} (hclk : s.tm.clk = true) (hpow : s.pin.fieldPower = true)
include hclk hpow

theorem execLoopStart_of_powered : exec .loopStart s = .next s.loopStart :=
  congrArg Host.Outcome.next (State.onField_of_powered hclk hpow _)

theorem execNulReprime_of_powered (w : Writer) : exec (.nulReprime w) s =
    .next (s.nulWrite NUL_PRIMER_CTRL (BitVec.ofNat 32 1) w wholeWrite).loopStart :=
  congrArg Host.Outcome.next (State.onField_of_powered hclk hpow _)

theorem execNulCapture_of_powered (w : Writer) : exec (.nulCapture w) s = .next (s.captureReq w.m w.launched) :=
  congrArg Host.Outcome.next (State.onField_of_powered hclk hpow _)

theorem execCaptureDone_of_powered : exec .captureDone s = .next s.captureEnd :=
  congrArg Host.Outcome.next (State.onField_of_powered hclk hpow _)

/-- Both commands that start the loop. -/
theorem exec_loopStarted {i : Instr} {w : Writer} (hi : i ∈ [Instr.loopStart, .nulReprime w]) :
    ∃ t, exec i s = .next t ∧ s.LoopStarted t := by
  obtain rfl | rfl := List.mem_pair.1 hi
  · exact ⟨_, execLoopStart_of_powered hclk hpow, (State.SameLoop.refl s).loopStarted (Keeps.refl _ s) rfl⟩
  · exact ⟨_, execNulReprime_of_powered hclk hpow w, s.nulWrite_reprime_loopStarted w⟩

end

/-- Settles O32: a loop start loads each channel in a round of its own, and a capture's end writes two words in each
round that is still to come. -/
theorem loopStartsAndCaptures : Obligations.LoopStartsAndCaptures := by
  intro s hclk hpow
  refine ⟨fun w i hi => ?start, fun w hrun hfree hsteady => ?capture, fun w hbarred => ?rejected, fun hnone => ?idle,
    fun k hcap => ?done⟩
  case start =>
    obtain ⟨t, hexec, hstarted⟩ := exec_loopStarted hclk hpow hi
    refine ⟨t, hexec, hstarted.keeps, hstarted.started, hstarted.startTick, hstarted.reprime, hstarted.primerBad,
      hstarted.count, hstarted.table, fun ch hch => ?_⟩
    obtain ⟨hI, hQ, hcnt, hdone⟩ := Channel.mk.inj (hstarted.channel ch hch)
    refine ⟨hcnt, hdone, fun x hx => ?_⟩
    obtain rfl | rfl : x = 0 ∨ x = 1 := by omega
    · exact hI
    · exact hQ
  case capture =>
    have hexec := execNulCapture_of_powered hclk hpow w
    have hnot : s.unsteady = false := by
      rw [← Bool.not_eq_true, State.unsteady_eq_true_iff]
      rintro ⟨r, hr, hne⟩
      have := hsteady r hr
      tauto
    obtain ⟨hbusy, hreject⟩ := s.captureBegun_bits
    have hparam := State.param_keeps s.captureBegun w.launched true
    rw [State.captureReq_of_ready w.m w.launched hrun hfree hnot] at hexec
    refine ⟨_, hexec, ?_, ?_, ?_, ?_⟩
    · exact hparam.stepFoot (by simp) (s.captureBegun_keeps.monoFoot (by simp))
    · rw [hparam.nul (by decide +kernel), s.captureBegun_nul]
    · rw [hparam.bit (by decide +kernel), hbusy]
    · rw [hparam.bit (by decide +kernel), hreject]
  case rejected =>
    have hexec := execNulCapture_of_powered hclk hpow w
    have hkeeps := execNulCapture_keeps w s hexec
    rw [← State.unsteady_eq_true_iff] at hbarred
    rw [State.captureReq_of_barred w.m w.launched (by tauto)] at hexec hkeeps
    exact ⟨_, hexec, hkeeps, s.captureRejected_nul w.m, s.captureRejected_reject w.m, s.captureRejected_latch w.m⟩
  case idle =>
    rw [execCaptureDone_of_powered hclk hpow, State.captureEnd, hnone]
    rfl
  case done =>
    have hexec := execCaptureDone_of_powered hclk hpow
    refine ⟨_, hexec, execCaptureDone_keeps s hexec, fun j x hj hx => ?_, fun a ha hout => ?_,
      State.captureEnd_nul hcap, State.captureEnd_busy hcap, fun e he => State.captureEnd_timers hcap he⟩
    · rw [State.captureEnd_win hcap]
      split
      next hlow => exact State.captureRest_win_written hcap hlow hj hx
      next hhigh => exact State.captureRest_win_other hcap (by omega) fun i hi _ => by omega
    · rw [State.captureEnd_win hcap]
      exact State.captureRest_win_other hcap ha fun i _ hi => by omega

end Sys2Proof.Machine

/-!
Strokes of the nulling loop (R123 to R130): what a channel becomes at a stroke's end, that this rests on no other
channel of the column, and what a stroke of a front end makes of the column that it serves.
-/
namespace Sys2Proof.Machine

/-! ### What a channel becomes (R128) -/

/-- The rotated residuals of row r for window sums w (R125). -/
def State.strokeResid (s : State) (c r f : Nat) (w : Int × Int) : Int × Int :=
  let g := s.rangeCode (s.colPin c)
  (residI (s.nulSigned (rotAddr f g r)) (s.nulSigned (rotAddr f g r + 1)) w.1 w.2,
    residQ (s.nulSigned (rotAddr f g r)) (s.nulSigned (rotAddr f g r + 1)) w.1 w.2)

/-- The rho word of a column's front end, range code and nulling range (R125). -/
def State.rhoWord (s : State) (c f : Nat) : Nat :=
  s.winN .nul (rhoAddr f (s.rangeCode (s.colPin c)) (s.rangeOf (s.colPin c)))

/-- An amplitude moved by its scaled residual (R128). -/
def State.moved (s : State) (c f : Nat) (a resid : Int) : Int :=
  a + scaleInt ((s.rhoWord c f % 65536 : Nat) * resid) (bitsOf (s.rhoWord c f) 20 16 + s.gainOf (s.colPin c))

/-- CNT after a stroke with these residuals (R132). -/
def State.countedTo (s : State) (ch : Nat) (resid : Int × Int) : Nat :=
  if max resid.1.natAbs resid.2.natAbs < s.fld NUL_CONVERGE_THRESH then min (s.cntOf ch + 1) 8 else 0

/-- An amplitude limited to NUL_LIMIT. -/
def State.limited (s : State) (v : Int) : Int := clampInt (-s.nulLimit) s.nulLimit v

/-- A channel after a stroke with window sums w, its row active or not, its column frozen or not (R128 to R130). -/
def State.nextChannel (s : State) (c r f : Nat) (w : Int × Int) (frozenCol active : Bool) : Channel :=
  let ch := c * 64 + r
  let resid := s.strokeResid c r f w
  if !active || s.nul.zeroCh.contains ch then ⟨0, 0, 0, false⟩
  else if frozenCol || decide (s.tm.tick - 63 < assocGet s.nul.chBad ch 0) then
    ⟨s.limited (s.amp ch 0), s.limited (s.amp ch 1), s.cntOf ch, s.doneOf ch⟩
  else ⟨s.limited (s.moved c f (s.amp ch 0) resid.1), s.limited (s.moved c f (s.amp ch 1) resid.2),
    s.countedTo ch resid, s.doneOf ch || s.countedTo ch resid == 8⟩

theorem State.nextChannel_fits (s : State) (c r f : Nat) (w : Int × Int) (frozenCol active : Bool) :
    FitsAmp (s.nextChannel c r f w frozenCol active).ampI ∧ FitsAmp (s.nextChannel c r f w frozenCol active).ampQ := by
  unfold State.nextChannel
  extract_lets ch resid
  split
  · exact ⟨fitsAmp_zero, fitsAmp_zero⟩
  · split
    · exact ⟨s.fitsAmp_clamp _, s.fitsAmp_clamp _⟩
    · exact ⟨s.fitsAmp_clamp _, s.fitsAmp_clamp _⟩

section
variable {s : State} {c r f : Nat} {w : Int × Int} {frozenCol active : Bool}

theorem State.nextChannel_of_idle (h : (!active || s.nul.zeroCh.contains (c * 64 + r)) = true) :
    s.nextChannel c r f w frozenCol active = ⟨0, 0, 0, false⟩ := if_pos h

theorem State.nextChannel_of_frozen (h : (!active || s.nul.zeroCh.contains (c * 64 + r)) = false)
    (hfrozen : (frozenCol || decide (s.tm.tick - 63 < assocGet s.nul.chBad (c * 64 + r) 0)) = true) :
    s.nextChannel c r f w frozenCol active = ⟨s.limited (s.amp (c * 64 + r) 0), s.limited (s.amp (c * 64 + r) 1),
      s.cntOf (c * 64 + r), s.doneOf (c * 64 + r)⟩ :=
  (if_neg (ne_true_of_eq_false h)).trans (if_pos hfrozen)

theorem State.nextChannel_of_moving (h : (!active || s.nul.zeroCh.contains (c * 64 + r)) = false)
    (hmoving : (frozenCol || decide (s.tm.tick - 63 < assocGet s.nul.chBad (c * 64 + r) 0)) = false) :
    s.nextChannel c r f w frozenCol active =
      ⟨s.limited (s.moved c f (s.amp (c * 64 + r) 0) (s.strokeResid c r f w).1),
        s.limited (s.moved c f (s.amp (c * 64 + r) 1) (s.strokeResid c r f w).2),
        s.countedTo (c * 64 + r) (s.strokeResid c r f w),
        s.doneOf (c * 64 + r) || s.countedTo (c * 64 + r) (s.strokeResid c r f w) == 8⟩ :=
  (if_neg (ne_true_of_eq_false h)).trans (if_neg (ne_true_of_eq_false hmoving))

end

/-- A range code has at most the value 12. -/
theorem State.rangeCode_le (s : State) (p : Nat) : s.rangeCode p ≤ 12 := by
  have hrange : s.pinRange p < 8 := Nat.mod_lt _ (by decide)
  unfold State.rangeCode
  split <;> omega

section
variable {s t : State} (h : s.SameLoop t) {c r f : Nat} (hr : r < 64) (hf : f < 34)
include h hf

include hr in
theorem State.SameLoop.strokeResid (w : Int × Int) : t.strokeResid c r f w = s.strokeResid c r f w := by
  have hcode := s.rangeCode_le (s.colPin c)
  have hword {a : Nat} (hlow : 0x1000 ≤ a) (hhigh : a < 2 ^ 24) : t.nulSigned a = s.nulSigned a :=
    congrArg (fun v : W24 => sgn 24 v.toNat) (h.table a hlow hhigh)
  simp only [State.strokeResid, h.colPin, h.rangeCode]
  rw [hword (by unfold rotAddr; omega) (by unfold rotAddr; omega),
    hword (by unfold rotAddr; omega) (by unfold rotAddr; omega)]

theorem State.SameLoop.rhoWord : t.rhoWord c f = s.rhoWord c f := by
  have hcode := s.rangeCode_le (s.colPin c)
  have hrange : s.rangeOf (s.colPin c) < 4 := by
    unfold State.rangeOf
    split <;> omega
  rw [State.rhoWord, State.rhoWord, h.colPin, h.rangeCode, h.rangeOf, State.winN, State.winN,
    h.table _ (by unfold rhoAddr; omega) (by unfold rhoAddr; omega)]

theorem State.SameLoop.moved (a resid : Int) : t.moved c f a resid = s.moved c f a resid := by
  rw [State.moved, State.moved, h.rhoWord hf, h.colPin, h.gainOf]

end

/-- What a channel becomes does not hang on the other channels. -/
theorem State.SameChannel.nextChannel {s t : State} {c r f : Nat} (h : s.SameChannel t (c * 64 + r)) (hr : r < 64)
    (hf : f < 34) (w : Int × Int) (frozenCol active : Bool) :
    t.nextChannel c r f w frozenCol active = s.nextChannel c r f w frozenCol active := by
  obtain ⟨hI, hQ, hcnt, hdone⟩ := Channel.mk.inj h.own
  have htick : t.tm = s.tm := h.loop.keeps.tm (by decide +kernel)
  have hthresh : t.fld NUL_CONVERGE_THRESH = s.fld NUL_CONVERGE_THRESH := h.loop.keeps.fld (by decide +kernel)
  have hcount (resid : Int × Int) : t.countedTo (c * 64 + r) resid = s.countedTo (c * 64 + r) resid := by
    rw [State.countedTo, State.countedTo, hthresh, hcnt]
  have hlim (v : Int) : t.limited v = s.limited v := by rw [State.limited, State.limited, h.loop.nulLimit]
  simp only [State.nextChannel, h.zero, h.bad, htick, hI, hQ, hcnt, hdone, hcount, hlim, h.loop.strokeResid hr hf,
    h.loop.moved hf]

/-! ### The stroke of a channel (R128) -/

/-- t is s beside records of a channel that its amplitudes, CNT and DONE do not rest on. -/
structure State.Marked (s t : State) (ch : Nat) : Prop where
  loop   : s.SameLoop t
  own    : t.channel ch = s.channel ch
  sums   : t.nul.sums = s.nul.sums
  others : ∀ q, q ≠ ch → s.SameChannel t q

theorem State.Marked.refl (s : State) (ch : Nat) : s.Marked s ch :=
  ⟨.refl s, rfl, rfl, fun q _ => .refl q s⟩

theorem State.Marked.trans {s t u : State} {ch : Nat} (h : s.Marked t ch) (g : t.Marked u ch) : s.Marked u ch :=
  ⟨h.loop.trans g.loop, g.own.trans h.own, g.sums.trans h.sums, fun q hq => (h.others q hq).trans (g.others q hq)⟩

theorem State.Marked.ite {s t u : State} {ch : Nat} {p : Prop} [Decidable p] (h : s.Marked t ch) (g : s.Marked u ch) :
    s.Marked (if p then t else u) ch := by
  split <;> assumption

section
variable (s : State) (ch : Nat)

theorem State.setNul_marked {n : NulSt} (hcommon : n.common = s.nul.common) (hconv : n.conv = s.nul.conv)
    (hsums : n.sums = s.nul.sums)
    (hothers : ∀ q, q ≠ ch → assocGet n.chBad q 0 = assocGet s.nul.chBad q 0 ∧
      n.zeroCh.contains q = s.nul.zeroCh.contains q) : s.Marked { s with nul := n } ch := by
  obtain ⟨hcnt, hfin⟩ := Prod.mk.inj hconv
  have hown : { s with nul := n }.channel ch = s.channel ch :=
    State.channel_congr (t := { s with nul := n }) (s := s) (fun _ => rfl) hconv ch
  refine ⟨s.setNul_sameLoop hcommon, hown, hsums, fun q hq => ?_⟩
  obtain ⟨hbad, hzero⟩ := hothers q hq
  exact s.setNul_sameChannel hcommon (congrArg (assocGet · q 0) hcnt) (congrArg (assocGet · q 0) hfin) hbad hzero

/-- The strokes of a channel before a tick are bad, and its word's error is dealt with (R143). -/
theorem State.zeroed_marked (tick : Nat) :
    s.Marked { s with nul := { s.nul with
      chBad := assocSet s.nul.chBad ch tick, zeroCh := s.nul.zeroCh.filter (fun k => k != ch) } } ch := by
  refine s.setNul_marked ch rfl rfl rfl fun q hq => ⟨?_, ?_⟩
  · rw [assocGet_set, if_neg hq.symm]
  · rw [Bool.eq_iff_iff]
    simp [hq]

theorem State.satNow_marked : s.Marked { s with nul := { s.nul with satNow := assocSet s.nul.satNow ch 1 } } ch :=
  s.setNul_marked ch rfl rfl rfl fun _ _ => ⟨rfl, rfl⟩

theorem State.a15_marked (x : Assoc Int) : s.Marked { s with nul := { s.nul with a15 := x } } ch :=
  s.setNul_marked ch rfl rfl rfl fun _ _ => ⟨rfl, rfl⟩

theorem State.a31_marked (x : Assoc Int) : s.Marked { s with nul := { s.nul with a31 := x } } ch :=
  s.setNul_marked ch rfl rfl rfl fun _ _ => ⟨rfl, rfl⟩

end

section
variable (s : State) (c r f : Nat) (frozenCol sheetEnd : Bool) (actives : List Nat)

/-- The channel of a row as its stroke leaves it. -/
def State.strokeSet (s : State) (c r f : Nat) (frozenCol : Bool) (actives : List Nat) : State :=
  s.setChannel (c * 64 + r) (s.nextChannel c r f (windowSums (assocGet s.nul.sums (64 * f + r) [])) frozenCol
    (actives.contains r))

/-- Where carriers do not collide the stroke of a channel is its step, and beside it records are kept. -/
theorem State.channelStroke_marked (hcoll : (actives.contains r && s.collides r actives) = false) :
    (s.strokeSet c r f frozenCol actives).Marked (s.channelStroke c r f frozenCol sheetEnd actives).1 (c * 64 + r) := by
  unfold State.channelStroke
  extract_lets ch p g rc rs rho m e w rI rQ aend x0 x act coll zero lim chFrozen aI aQ nI nQ small cnt s1 _ s2 atLim _
    s3 ph _ s4 s5
  have hno : ¬ coll = true := ne_true_of_eq_false hcoll
  have hfrozen : (frozenCol || decide (s.tm.tick - 63 < assocGet s.nul.chBad ch 0)) = chFrozen := by
    unfold chFrozen
    rw [show coll = false from hcoll, Bool.or_false]
  have hset : s1 = s.strokeSet c r f frozenCol actives := by
    unfold State.strokeSet
    cases hidle : !act || zero with
    | true =>
      rw [State.nextChannel_of_idle hidle]
      exact if_pos hidle
    | false =>
      refine (if_neg (ne_true_of_eq_false hidle)).trans ?_
      unfold nI nQ cnt
      cases hch : chFrozen with
      | true =>
        rw [State.nextChannel_of_frozen hidle (hfrozen.trans hch)]
        simp only [if_true, Bool.not_true, Bool.false_and, Bool.or_false]
        rfl
      | false =>
        rw [State.nextChannel_of_moving hidle (hfrozen.trans hch)]
        simp only [Bool.false_eq_true, if_false, Bool.not_false, Bool.true_and, small, decide_eq_true_eq]
        rfl
  have h2 : s1.Marked s2 ch := by
    unfold s2
    rw [if_neg hno]
    exact .ite (s1.zeroed_marked ch _) (.refl s1 ch)
  have h3 : s2.Marked s3 ch := .ite (s2.satNow_marked ch) (.refl s2 ch)
  have h4 : s3.Marked s4 ch := .ite (s3.a15_marked ch _) (.ite (s3.a31_marked ch _) (.refl s3 ch))
  have h5 : s5 = s4 := if_neg hno
  rw [← hset]
  show s1.Marked s5 ch
  rw [h5]
  exact (h2.trans h3).trans h4

end

/-! ### The stroke of a column (R128, R129) -/

theorem State.SameLoop.collides {s t : State} (h : s.SameLoop t) (r : Nat) (actives : List Nat) :
    t.collides r actives = s.collides r actives := by
  simp only [State.collides, h.drv, h.rowDrv]

/-- The rows whose channels are active. -/
def State.activeRows (s : State) : List Nat := (List.range 64).filter (fun r => s.rowActive r)

/-- No two active rows synthesise the same carrier. -/
def State.carriersDistinct (s : State) : Prop :=
  ∀ r q, r < 64 → q < 64 → r ≠ q → s.rowActive r = true → s.rowActive q = true →
    (s.drv (s.rowDrv r)).k ≠ (s.drv (s.rowDrv q)).k

section
variable {s : State}

theorem State.mem_activeRows {r : Nat} : r ∈ s.activeRows ↔ r < 64 ∧ s.rowActive r = true := by
  simp [State.activeRows]

theorem State.activeRows_contains {r : Nat} (hr : r < 64) : s.activeRows.contains r = s.rowActive r := by
  rw [Bool.eq_iff_iff, List.contains_iff_mem, State.mem_activeRows]
  exact and_iff_right hr

theorem State.collides_of_distinct (h : s.carriersDistinct) (r : Nat) :
    (s.activeRows.contains r && s.collides r s.activeRows) = false := by
  rw [Bool.and_eq_false_imp, List.contains_iff_mem, State.mem_activeRows]
  rintro ⟨hr, hact⟩
  rw [State.collides, List.any_eq_false]
  intro q hq hsame
  obtain ⟨hq64, hqact⟩ := State.mem_activeRows.1 hq
  simp only [Bool.and_eq_true, bne_iff_ne, beq_iff_eq] at hsame
  exact h q r hq64 hr hsame.1 hqact hact hsame.2

end

/-- The channels of the rows in a list do not collide. -/
def State.noneCollides (s : State) (actives : List Nat) : Prop :=
  ∀ r, (actives.contains r && s.collides r actives) = false

theorem State.SameLoop.noneCollides {s t : State} (h : s.SameLoop t) {actives : List Nat}
    (hnone : s.noneCollides actives) : t.noneCollides actives := fun r => by
  rw [h.collides]
  exact hnone r

/-- The strokes of a column's channels, one row after the other. -/
def State.rowsStroked (s : State) (c f : Nat) (frozenCol sheetEnd : Bool) (actives : List Nat) : State :=
  forEach (List.range 64) (fun t r => (t.channelStroke c r f frozenCol sheetEnd actives).1) s

theorem State.setChannel_sums (s : State) (ch : Nat) (x : Channel) : (s.setChannel ch x).nul.sums = s.nul.sums := by
  obtain ⟨old, hfirst⟩ := s.setAmp_nul (ch := ch) (w := 0) x.ampI
  obtain ⟨old', hsecond⟩ := (s.setAmp ch 0 x.ampI).setAmp_nul (ch := ch) (w := 1) x.ampQ
  show ((s.setAmp ch 0 x.ampI).setAmp ch 1 x.ampQ).nul.sums = s.nul.sums
  rw [hsecond, hfirst]

/-- The window sums of a row at a front end (R124). -/
def State.rowSums (s : State) (r f : Nat) : Int × Int := windowSums (assocGet s.nul.sums (64 * f + r) [])

/-- u has of row r's channel of column c and of the partial sums all that t has, where carriers do not collide. -/
def State.SameRow (c r : Nat) (actives : List Nat) (t u : State) : Prop :=
  t.noneCollides actives → t.SameChannel u (c * 64 + r) ∧ u.nul.sums = t.nul.sums

theorem State.SameRow.refl {c r : Nat} {actives : List Nat} (t : State) : State.SameRow c r actives t t :=
  fun _ => ⟨.refl _ t, rfl⟩

theorem State.SameRow.trans {c r : Nat} {actives : List Nat} {t u v : State} (h : State.SameRow c r actives t u)
    (g : State.SameRow c r actives u v) : State.SameRow c r actives t v := fun hnone => by
  obtain ⟨hsame, hsums⟩ := h hnone
  obtain ⟨hsame', hsums'⟩ := g (hsame.loop.noneCollides hnone)
  exact ⟨hsame.trans hsame', hsums'.trans hsums⟩

section
variable (s : State) {c f : Nat} (frozenCol sheetEnd : Bool) {actives : List Nat} (hc : c < 32)
include hc

theorem State.channelStroke_sameLoop {r : Nat} (hr : r < 64) (hnone : s.noneCollides actives) :
    s.SameLoop (s.channelStroke c r f frozenCol sheetEnd actives).1 :=
  (s.setChannel_sameLoop (by omega) _).trans (s.channelStroke_marked c r f frozenCol sheetEnd actives (hnone r)).loop

/-- One row's stroke leaves the other rows alone. -/
theorem State.channelStroke_sameRow {r q : Nat} (hr : r < 64) (hq : q < 64) (h : q ≠ r) :
    State.SameRow c r actives s (s.channelStroke c q f frozenCol sheetEnd actives).1 := fun hnone => by
  have hmark := s.channelStroke_marked c q f frozenCol sheetEnd actives (hnone q)
  refine ⟨(s.setChannel_sameChannel (by omega) _ (by omega) (by omega)).trans (hmark.others _ (by omega)), ?_⟩
  rw [hmark.sums, State.strokeSet, State.setChannel_sums]

variable (hnone : s.noneCollides actives)
include hnone

theorem State.rowsStroked_sameLoop : s.SameLoop (s.rowsStroked c f frozenCol sheetEnd actives) :=
  forEach_rel (R := fun t u : State => t.noneCollides actives → t.SameLoop u) (fun t _ => .refl t)
    (fun h g hnone => (h hnone).trans (g ((h hnone).noneCollides hnone)))
    (fun t _ hr hnone => t.channelStroke_sameLoop frozenCol sheetEnd hc (List.mem_range.1 hr) hnone) s hnone

/-- Each channel of the column takes its step from what the loop held before the stroke. -/
theorem State.rowsStroked_channel (hf : f < 34) {r : Nat} (hr : r < 64) :
    (s.rowsStroked c f frozenCol sheetEnd actives).channel (c * 64 + r) =
      s.nextChannel c r f (s.rowSums r f) frozenCol (actives.contains r) := by
  obtain ⟨t, hbefore, hafter⟩ := forEach_turn (R := State.SameRow c r actives) .refl .trans List.nodup_range
    (List.mem_range.2 hr)
    (fun t q hq hne => t.channelStroke_sameRow frozenCol sheetEnd hc hr (List.mem_range.1 hq) hne) s
  obtain ⟨hsame, hsums⟩ := hbefore hnone
  have htnone := hsame.loop.noneCollides hnone
  have hmark := t.channelStroke_marked c r f frozenCol sheetEnd actives (htnone r)
  have hloop := t.channelStroke_sameLoop (f := f) frozenCol sheetEnd hc hr htnone
  obtain ⟨hI, hQ⟩ := t.nextChannel_fits c r f (t.rowSums r f) frozenCol (actives.contains r)
  have hrow : t.rowSums r f = s.rowSums r f := by rw [State.rowSums, State.rowSums, hsums]
  rw [State.rowsStroked, (hafter (hloop.noneCollides htnone)).1.own, hmark.own, ← hsame.nextChannel hr hf, ← hrow]
  exact t.setChannel_channel (by omega) hI hQ

end

/-! ### What follows the rows of a column (R127, R128, R131) -/

section
variable (s : State)

theorem State.noteClamp_conv (c : Nat) : (s.noteClamp c).nul.conv = s.nul.conv := by
  unfold State.noteClamp
  extract_lets w _ s1 _ s2 _ s3
  have h1 : s1.nul.conv = s.nul.conv := by
    unfold s1
    split <;> rfl
  have h2 : s2.nul.conv = s.nul.conv := by
    rw [← h1]
    unfold s2
    split <;> rfl
  split
  · rw [← h2]
    unfold s3
    split
    · rfl
    · rw [(State.raiseUnit_keeps ..).nul (by decide +kernel), State.inc, State.count, State.setFld_nul]
      rfl
  · exact h2

theorem State.noteClamp_win (c a : Nat) : (s.noteClamp c).win .nul a = s.win .nul a :=
  (s.noteClamp_keeps c).win .nul a (by decide +kernel)

theorem State.takeSnap_conv (c : Nat) (xs : List Int) (fl : List Nat) : (s.takeSnap c xs fl).nul.conv = s.nul.conv :=
  (rfl)

/-- Under drape the strokes so far are bad (R129). -/
def State.drapeNoted (s : State) : State :=
  if s.draped then { s with nul := { s.nul with badBefore := max s.nul.badBefore (s.tm.tick + 1) } } else s

theorem State.drapeNoted_sameChannel (ch : Nat) : s.SameChannel s.drapeNoted ch := by
  unfold State.drapeNoted
  split
  · exact s.setNul_sameChannel rfl rfl rfl rfl rfl
  · exact .refl ch s

theorem State.drapeNoted_rowSums (r f : Nat) : s.drapeNoted.rowSums r f = s.rowSums r f := by
  unfold State.drapeNoted
  split <;> rfl

/-- After the rows come the clamped codes, and a snapshot at a sheet's end. -/
theorem State.columnStroke_cases (c f : Nat) : ∃ sheetEnd,
    s.columnStroke c f =
        (s.drapeNoted.rowsStroked c f (s.colFrozen c) sheetEnd s.activeRows).noteClamp c ∨
      ∃ xs fl, s.columnStroke c f =
        ((s.drapeNoted.rowsStroked c f (s.colFrozen c) sheetEnd s.activeRows).noteClamp c).takeSnap c xs fl := by
  unfold State.columnStroke
  extract_lets sheetEnd frozen actives _ s0 run s1 fl
  have hrun : run.1 = s.drapeNoted.rowsStroked c f (s.colFrozen c) sheetEnd s.activeRows :=
    (List.foldl_hom Prod.fst (g₂ := fun (t : State) r => (t.channelStroke c r f frozen sheetEnd actives).1)
      (init := (s0, [], [])) (fun _ _ => rfl)).symm
  refine ⟨sheetEnd, ?_⟩
  rw [← hrun]
  split
  · exact .inr ⟨run.2.1, fl, rfl⟩
  · exact .inl rfl

/-- What follows the rows touches neither the loop's words nor CNT and DONE. -/
theorem State.columnStroke_keeps_rows (c f : Nat) : ∃ sheetEnd,
    (∀ a, (s.columnStroke c f).win .nul a =
      (s.drapeNoted.rowsStroked c f (s.colFrozen c) sheetEnd s.activeRows).win .nul a) ∧
    (s.columnStroke c f).nul.conv =
      (s.drapeNoted.rowsStroked c f (s.colFrozen c) sheetEnd s.activeRows).nul.conv := by
  obtain ⟨sheetEnd, heq | ⟨xs, fl, heq⟩⟩ := s.columnStroke_cases c f
  · exact ⟨sheetEnd, fun a => by rw [heq, State.noteClamp_win], by rw [heq, State.noteClamp_conv]⟩
  · refine ⟨sheetEnd, fun a => ?_, ?_⟩
    · rw [heq, (State.takeSnap_keeps ..).win .nul a (by decide +kernel), State.noteClamp_win]
    · rw [heq, State.takeSnap_conv, State.noteClamp_conv]

variable {s} (hdist : s.carriersDistinct) {c f : Nat} (hc : c < 32)
include hdist hc

theorem State.columnStroke_channel (hf : f < 34) {r : Nat} (hr : r < 64) :
    (s.columnStroke c f).channel (c * 64 + r) =
      s.nextChannel c r f (s.rowSums r f) (s.colFrozen c) (s.rowActive r) := by
  obtain ⟨sheetEnd, hwin, hconv⟩ := s.columnStroke_keeps_rows c f
  have hdraped := s.drapeNoted_sameChannel (c * 64 + r)
  have hnone := hdraped.loop.noneCollides (State.collides_of_distinct hdist)
  rw [State.channel_congr hwin hconv, State.rowsStroked_channel _ _ _ hc hnone hf hr, s.drapeNoted_rowSums,
    hdraped.nextChannel hr hf, State.activeRows_contains hr]

theorem State.columnStroke_table {a : Nat} (hlow : 0x1000 ≤ a) (hhigh : a < 2 ^ 24) :
    (s.columnStroke c f).win .nul a = s.win .nul a := by
  obtain ⟨sheetEnd, hwin, -⟩ := s.columnStroke_keeps_rows c f
  have hdraped := (s.drapeNoted_sameChannel 0).loop
  have hnone := hdraped.noneCollides (State.collides_of_distinct hdist)
  rw [hwin, (hdraped.trans (State.rowsStroked_sameLoop _ _ _ hc hnone)).table a hlow hhigh]

end

/-! ### The stroke of a front end (R108 to R112, R123, R124) -/

/-- Some sample of a stroke is clipped (R111). -/
def State.strokeClips (s : State) (y : List Int) (comp : BitVec 64) : Bool :=
  (List.range 64).any (fun k => clipped (y.getD k 0) (comp.getLsbD k) (s.bit COL_CTRL_FE_OVL_EN)
    (s.fld COL_CTRL_OVR_MARGIN))

/-- A front end's records of clipped strokes and sheets take a stroke. -/
def State.clipRecorded (s : State) (f : Nat) (clip : Bool) : State :=
  s.setFe f { s.fe f with
    clipStr := ((s.fe f).clipStr <<< 1) ||| (if clip then 1 else 0),
    clip := (s.fe f).clip ||| (if clip then 1 else 0) }

/-- The partial sums of a row's last strokes with those of this one, which stands alone after a renumbering. -/
def State.sumsWith (s : State) (f : Nat) (y : List Int) (t : Assoc (List (Int × Int))) (r : Nat) : List (Int × Int) :=
  sumsOf (s.drv (s.rowDrv r)).k (s.drv (s.rowDrv r)).ph (s.tm.fpm.toNat % 64 / 16 * 64) y ::
    (if decide (s.tm.tick - 15 < s.nul.renTick) then [] else assocGet t (64 * f + r) []).take 3

theorem State.sumsWith_eq (s : State) (f : Nat) (y : List Int) (t : Assoc (List (Int × Int))) (r : Nat) :
    s.sumsWith f y t r =
      sumsOf (s.drv (s.rowDrv r)).k (s.drv (s.rowDrv r)).ph (s.tm.fpm.toNat % 64 / 16 * 64) y ::
        (if s.tm.tick - 15 < s.nul.renTick then [] else assocGet t (64 * f + r) []).take 3 := by
  simp only [State.sumsWith, decide_eq_true_eq]

/-- The partial sums of every row. -/
def State.sumsTaken (s : State) (f : Nat) (y : List Int) : Assoc (List (Int × Int)) :=
  forEach (List.range 64) (fun t r => assocPut t (64 * f + r) (s.sumsWith f y t r) []) s.nul.sums

/-- The partial sums are stored. -/
def State.withSums (s : State) (x : Assoc (List (Int × Int))) : State := { s with nul := { s.nul with sums := x } }

/-- What a stroke of a front end records before the column that it serves takes its step. -/
def State.strokeTaken (s : State) (f : Nat) (y : List Int) (comp : BitVec 64) : State :=
  ((s.clipRecorded f (s.strokeClips y comp)).withSums (s.sumsTaken f y)).openStroke

/-- The column that a front end serves takes its step; the sheet of a rover that dwells ends at tick 63. -/
def State.strokeServed (s : State) (f tick : Nat) : State :=
  match (List.range 32).find? (fun c => s.colFe c == f) with
  | some c => s.columnStroke c f
  | none => if 32 ≤ f ∧ (s.rover (f - 32)).dwelling ∧ tick = 63 then s.roverSheet (f - 32) else s

section
variable (s : State) (f : Nat) (y : List Int) (comp : BitVec 64)

theorem State.sumsTaken_get {r : Nat} (hr : r < 64) :
    assocGet (s.sumsTaken f y) (64 * f + r) [] = s.sumsWith f y s.nul.sums r := by
  have hother (t : Assoc (List (Int × Int))) (q : Nat) (_ : q ∈ List.range 64) (hne : q ≠ r) :
      assocGet (assocPut t (64 * f + q) (s.sumsWith f y t q) []) (64 * f + r) [] = assocGet t (64 * f + r) [] :=
    assocGet_put_other _ _ _ _ (by omega)
  obtain ⟨t, hbefore, hafter⟩ := forEach_turn_value (fun t => assocGet t (64 * f + r) []) List.nodup_range
    (List.mem_range.2 hr) hother s.nul.sums
  rw [State.sumsTaken, hafter, assocGet_put_same, State.sumsWith, hbefore, State.sumsWith]

theorem State.clipRecorded_sameChannel (clip : Bool) (ch : Nat) : s.SameChannel (s.clipRecorded f clip) ch :=
  State.sameChannel_of_keeps (State.setFe_keeps ..) (by simp) (fun _ => rfl) rfl rfl ch

theorem State.withSums_sameChannel (x : Assoc (List (Int × Int))) (ch : Nat) : s.SameChannel (s.withSums x) ch :=
  s.setNul_sameChannel rfl rfl rfl rfl rfl

theorem State.openStroke_sameChannel (ch : Nat) : s.SameChannel s.openStroke ch := by
  unfold State.openStroke
  split
  · exact .refl ch s
  · exact s.setNul_sameChannel rfl rfl rfl rfl rfl

theorem State.strokeTaken_sameChannel (ch : Nat) : s.SameChannel (s.strokeTaken f y comp) ch :=
  ((s.clipRecorded_sameChannel ..).trans (State.withSums_sameChannel ..)).trans (State.openStroke_sameChannel ..)

theorem State.clipRecorded_keeps (clip : Bool) : Keeps (foot [.col]) s (s.clipRecorded f clip) := s.setFe_keeps ..

theorem State.withSums_keeps (x : Assoc (List (Int × Int))) : Keeps (foot [.nul]) s (s.withSums x) :=
  (Keeps.refl _ s).upd

theorem State.strokeTaken_keeps : Keeps (foot [.col, .nul]) s (s.strokeTaken f y comp) :=
  (State.openStroke_keeps _).stepFoot (by simp) <|
    (State.withSums_keeps ..).stepFoot (by simp) ((s.clipRecorded_keeps ..).monoFoot (by simp))

/-- Whether a column's stroke is frozen does not hang on the partial sums. -/
theorem State.withSums_colFrozen (x : Assoc (List (Int × Int))) (c : Nat) :
    (s.withSums x).colFrozen c = s.colFrozen c := (rfl)

/-- Nor does it hang on when the amplitudes stand. -/
theorem State.openStroke_colFrozen (c : Nat) : s.openStroke.colFrozen c = s.colFrozen c := by
  unfold State.openStroke
  split <;> rfl

theorem State.strokeTaken_colFrozen (c : Nat) : (s.strokeTaken f y comp).colFrozen c =
    (s.clipRecorded f (s.strokeClips y comp)).colFrozen c := by
  rw [State.strokeTaken, State.openStroke_colFrozen, State.withSums_colFrozen]

theorem State.openStroke_sums : s.openStroke.nul.sums = s.nul.sums := by
  unfold State.openStroke
  split <;> rfl

theorem State.withSums_sums (x : Assoc (List (Int × Int))) : (s.withSums x).nul.sums = x := (rfl)

theorem State.strokeTaken_rowSums {r : Nat} (hr : r < 64) :
    (s.strokeTaken f y comp).rowSums r f = windowSums (s.sumsWith f y s.nul.sums r) := by
  rw [State.rowSums, State.strokeTaken, State.openStroke_sums, State.withSums_sums, s.sumsTaken_get f y hr]

theorem State.strokeTaken_carriers (h : s.carriersDistinct) : (s.strokeTaken f y comp).carriersDistinct := by
  have hloop := (s.strokeTaken_sameChannel f y comp 0).loop
  simpa only [State.carriersDistinct, hloop.rowActive, hloop.drv, hloop.rowDrv] using h

theorem State.strokeUpdate_eq :
    s.strokeUpdate f y comp = (s.strokeTaken f y comp).strokeServed f (s.tm.fpm.toNat % 64) := by
  unfold State.strokeUpdate State.strokeTaken State.sumsTaken State.sumsWith State.strokeClips
  generalize List.range 64 = rows
  rfl

variable {s f}

/-- The first column that a front end serves takes its step. -/
theorem State.strokeUpdate_of_serving {c : Nat} (hc : c < 32) (hserves : s.colFe c = f)
    (hfirst : ∀ d, d < c → s.colFe d ≠ f) :
    s.strokeUpdate f y comp = (s.strokeTaken f y comp).columnStroke c f := by
  have hfe := (s.strokeTaken_keeps f y comp).colFe (by decide +kernel)
  have hfind : (List.range 32).find? (fun c => (s.strokeTaken f y comp).colFe c == f) = some c := by
    rw [List.find?_range_eq_some]
    simpa [hfe, hserves, hc] using hfirst
  rw [s.strokeUpdate_eq, State.strokeServed, hfind]

/-- A dwell is no matter of what a stroke records. -/
theorem State.strokeTaken_rover (g : Nat) : (s.strokeTaken f y comp).rover g = s.rover g := by
  have hopen : (s.strokeTaken f y comp).col = (s.clipRecorded f (s.strokeClips y comp)).col :=
    ((State.openStroke_keeps _).col (by decide +kernel)).trans ((State.withSums_keeps ..).col (by decide +kernel))
  exact State.rover_congr hopen g

/-- A front end that serves no column and does not dwell only records its stroke. -/
theorem State.strokeUpdate_of_idle (hserves : ∀ c, c < 32 → s.colFe c ≠ f)
    (hdwell : ¬ (32 ≤ f ∧ (s.rover (f - 32)).dwelling = true)) :
    s.strokeUpdate f y comp = s.strokeTaken f y comp := by
  have hfe := (s.strokeTaken_keeps f y comp).colFe (by decide +kernel)
  have hfind : (List.range 32).find? (fun c => (s.strokeTaken f y comp).colFe c == f) = none := by
    rw [List.find?_range_eq_none]
    simpa [hfe] using hserves
  rw [s.strokeUpdate_eq, State.strokeServed, hfind, State.strokeTaken_rover]
  exact if_neg fun h => hdwell ⟨h.1, h.2.1⟩

end

/-! ### The command -/

/-- The samples of a stroke as numbers. -/
def sampleValues (y : Vector Sample 64) : List Int := y.toList.map (fun x => x.toInt)

theorem execLoopStrokeUpdate_of_powered {s : State} (hclk : s.tm.clk = true) (hpow : s.pin.fieldPower = true)
    (f : Fin 34) (y : Vector Sample 64) (cmp : BitVec 64) : exec (.loopStrokeUpdate f y cmp) s =
      .next ((s.strokeUpdate f.val (sampleValues y) cmp).calSample f.val (sampleValues y)) :=
  congrArg Host.Outcome.next (State.onField_of_powered hclk hpow _)

/-- A tone's sums are no matter of the loop (R219). -/
theorem State.calSample_channel (s : State) (f : Nat) (y : List Int) (ch : Nat) :
    (s.calSample f y).channel ch = s.channel ch :=
  State.channel_congr (fun a => (s.calSample_keeps f y).win .nul a (by decide +kernel))
    (congrArg NulSt.conv ((s.calSample_keeps f y).nul (by decide +kernel))) ch

/-- The channels of the column that a front end serves, after its stroke. -/
theorem State.strokeServed_channel {s : State} {f : Nat} (y : List Int) (comp : BitVec 64) (hdist : s.carriersDistinct)
    {c : Nat} (hc : c < 32) (hf : f < 34) {r : Nat} (hr : r < 64) :
    (((s.strokeTaken f y comp).columnStroke c f).calSample f y).channel (c * 64 + r) =
      s.nextChannel c r f (windowSums (s.sumsWith f y s.nul.sums r))
        ((s.clipRecorded f (s.strokeClips y comp)).colFrozen c) (s.rowActive r) := by
  have hsame := s.strokeTaken_sameChannel f y comp (c * 64 + r)
  rw [State.calSample_channel, State.columnStroke_channel (s.strokeTaken_carriers f y comp hdist) hc hf hr,
    s.strokeTaken_rowSums f y comp hr, s.strokeTaken_colFrozen, hsame.loop.rowActive, hsame.nextChannel hr hf]

/-- Settles O31: each row's stroke is a round of its own, which reads nothing that the rounds of the other rows, the
partial sums of the stroke and the records beside them change. -/
theorem nullingStrokeUpdatesItsAmplitudes : Obligations.NullingStrokeUpdatesItsAmplitudes := by
  intro s f y cmp hclk hpow ys clip u
  have hexec := execLoopStrokeUpdate_of_powered hclk hpow f y cmp
  have hkeeps := execLoopStrokeUpdate_keeps f y cmp s hexec
  refine ⟨fun c hc hserves hfirst hdist => ?serving, fun hserves hdwell => ?idle⟩
  case serving =>
    have htaken := s.strokeTaken_keeps f.val (sampleValues y) cmp
    have hcarriers := s.strokeTaken_carriers f.val (sampleValues y) cmp hdist
    rw [State.strokeUpdate_of_serving _ cmp hc hserves hfirst] at hexec hkeeps
    refine ⟨_, hexec, hkeeps, fun a hlow hhigh => ?_, fun r hr => ?_⟩
    · rw [(State.calSample_keeps ..).win .nul a (by decide +kernel),
        State.columnStroke_table hcarriers hc hlow hhigh, htaken.win .nul a (by decide +kernel)]
    have hchannel := State.strokeServed_channel (sampleValues y) cmp hdist hc f.isLt hr
    rw [State.sumsWith_eq] at hchannel
    intro ch p g d old w rI rQ rho frozen lim
    refine ⟨fun hidle => ?_, fun hact hzero hfrozen => ?_, fun hact hzero hmoving => ?_⟩
    · rw [State.nextChannel_of_idle (by simpa using hidle)] at hchannel
      obtain ⟨hI, hQ, hcnt, hdone⟩ := Channel.mk.inj hchannel
      exact ⟨hI, hQ, hcnt, hdone⟩
    · have hloops : (!s.rowActive r || s.nul.zeroCh.contains ch) = false := by rw [hact, hzero]; rfl
      obtain ⟨hI, hQ, hcnt, hdone⟩ := Channel.mk.inj (hchannel.trans (State.nextChannel_of_frozen hloops hfrozen))
      exact ⟨hI, hQ, hcnt, hdone⟩
    · have hloops : (!s.rowActive r || s.nul.zeroCh.contains ch) = false := by rw [hact, hzero]; rfl
      obtain ⟨hI, hQ, hcnt, hdone⟩ := Channel.mk.inj (hchannel.trans (State.nextChannel_of_moving hloops hmoving))
      refine ⟨hI, hQ, hcnt, ?_⟩
      rw [hcnt]
      exact hdone
  case idle =>
    rw [State.strokeUpdate_of_idle _ cmp hserves hdwell] at hexec hkeeps
    refine ⟨_, hexec, hkeeps, fun a => ?_⟩
    rw [(State.calSample_keeps ..).win .nul a (by decide +kernel),
      (s.strokeTaken_keeps ..).win .nul a (by decide +kernel)]

end Sys2Proof.Machine
